-- ==== Sys2Proof/Word.lean ====
section
/-! DEFINITION. The widths the manual uses: 32-bit registers (R9, R10), 64-bit pairs and times, bytes of memory. -/

namespace Sys2Proof

/-- A register of BAR0 (chapter "Scope", Registers). -/
abbrev Word := BitVec 32

/-- A byte of package memory, of a local store or of a bay. -/
abbrev Byte := BitVec 8

/-- A 64-bit value: a register pair, a drove time, an identifier. -/
abbrev DWord := BitVec 64

/-- Sparse data by key: strictly rising keys, one entry a key. -/
abbrev Map (α : Type) := List (Nat × α)

end Sys2Proof
end

