-- ==== Sys2Proof/Syntax.lean ====
section
/-! DEFINITION. The units of the package (R19, R554) and the commands and events that reach the block: one
constructor of `Instr` per row of the opcode table. -/

namespace Sys2Proof

/-- A unit page of BAR0 (R553). Tiles are named by die and physical number: the page child number of a tile moves
when a spare joins or a tile leaves (R112), the tile does not. -/
inductive UnitId where
  | pkg
  | cdie (d : Fin 4)
  | clus (d : Fin 4) (c : Fin 13)
  | tile (d : Fin 4) (t : Fin 104)
  | mstk (m : Fin 12)
  | mchn (m : Fin 12) (ch : Fin 16)
  | hub (h : Fin 2)
  | port (p : Fin 16)
  | rout (h : Fin 2)
  | sync (h : Fin 2)
  | pcie
  | place
  | hctl
  | assay
  deriving DecidableEq, Repr

/-- A calibration of a channel, with the stack's device identity and the stack temperature in °C that belong to it (R182). -/
structure Calib where
  data : Nat
  device : Nat
  temp : Nat
  deriving DecidableEq, Repr

/-- What a start finds damaged in the retained store: groups of the settings log whose signature fails, by place; chunks of the image
slots, by slot × 64 + chunk; copies of the selection record whose CRC-32C fails (R494, R527). -/
structure StoreRot where
  groups : List Nat
  chunks : List Nat
  sel0 : Bool
  sel1 : Bool
  deriving DecidableEq, Repr

/-- What the host sets in the configuration space beside Bus Master Enable and the D-state (R452, R456): max payload size 128 × 2^n bytes,
max read request size 128 × 2^n bytes, completion timeout range and disable, BAR addresses. -/
structure HostCfg where
  payload : Fin 3
  readReq : Fin 6
  timeout : BitVec 4
  timeoutOff : Bool
  bar0 : BitVec 64
  bar2 : BitVec 64
  deriving DecidableEq, Repr

/-- Content of a PARTIAL message (R359). -/
structure PartialMsg where
  obj : Nat
  round : Nat
  gen : Nat
  phase : Nat
  result : Bool
  status : Nat
  fenced : Nat
  timed : Bool
  tag : Nat
  first : Nat
  last : Nat
  /-- Phase ANCHOR. -/
  anchor : BitVec 16
  /-- Phase FP32. -/
  fp32 : Nat
  /-- Phase SUM: the 96 bytes of an ingot record. -/
  record : List Byte
  deriving DecidableEq, Repr

/-- The link numbers every SYNC flit carries (R340, R342). -/
structure SHdr where
  lseq : Nat
  lack : Nat
  lnak : Bool
  deriving DecidableEq, Repr

/-- A HELLO frame (R242). -/
structure Hello where
  typ : Nat
  version : Nat
  fwEpoch : Nat
  serial : Nat
  port : Nat
  kind : Nat
  reach : Bool
  fidValid : Bool
  state : Nat
  fid : Nat
  dims : Nat
  pos : Nat
  seq : Nat
  seenSerial : Nat
  seenPort : Nat
  seenValid : Bool
  deriving DecidableEq, Repr

/-- A master announcement (R370). -/
structure MasterMsg where
  serial : Nat
  mseq : Nat
  depth : Nat
  locked : Bool
  lead : Nat
  deriving DecidableEq, Repr

/-- A pace post (R380). -/
structure PaceMsg where
  origin : Nat
  oseq : Nat
  mhz : Nat
  tag : Nat
  deriving DecidableEq, Repr

/-- A sync message (R341). -/
inductive SyncMsg where
  | ack
  | hello (h : Hello)
  | timeReq (t1 : Nat)
  | timeRsp (t1 t2 t3 : Nat)
  | master (m : MasterMsg)
  | herd (m : PartialMsg)
  | pace (m : PaceMsg)
  deriving DecidableEq, Repr

/-- A fabric packet (R293): the fields of its header, and its payload. FLITS and PAY_BYTES follow from the payload. -/
structure Packet where
  op : Nat
  vc : Nat
  last : Bool
  hops : Nat
  guest : Bool
  msgId : Nat
  jobTag : Nat
  tryN : Nat
  dstFid : Nat
  srcFid : Nat
  seq : Nat
  ctx : Nat
  addr : Nat
  msgBytes : Nat
  dstSync : Nat
  sig : Bool
  aop : Nat
  arg : Nat
  payload : List (BitVec 8)
  deriving DecidableEq, Repr

/-- Where a packet waits for the router: the pen of a port and channel, or the injection queue of a hub's router for a
network (0 requests, 1 replies, 2 circuits). -/
inductive PenSrc where
  | port (p : Fin 16) (v : Fin 5)
  | inject (h : Fin 2) (net : Fin 3)
  deriving DecidableEq, Repr

/-- The status fields of a per-lane training frame (R270). -/
structure TrainFrame where
  trained : BitVec 8
  locked : Bool
  aligned : Bool
  ready : Bool
  test : Bool
  deriving DecidableEq, Repr

/-- How a receive lane stands at a training frame (R270, R271): its equaliser has finished adapting, with what values; its loop is
locked; it is aligned and deskewed. -/
structure LaneRx where
  adapted : Bool
  eq : Nat
  locked : Bool
  aligned : Bool
  deriving DecidableEq, Repr

/-- What a port's hardware has counted and measured since it last sent a LINK flit for the timer of R265: the CWHs of the codewords
decoded, the codewords sent, those corrected, each lane's corrected symbols (R268); whether a lane's symbols imply a ratio above that
of R268; each lane's received power, and bias, output and temperature of lasers 0 and 1 (R289). -/
structure LinkTick where
  cwhs : List (Fin 1048576)
  sent : Nat
  corrected : Nat
  syms : List Nat
  warn : Bool
  power : List (BitVec 16)
  bias : List (BitVec 16)
  output : List (BitVec 16)
  temp : List (BitVec 8)
  deriving DecidableEq, Repr

/-- A source of a sync operation (R344): a kernel's task slot, a halo window, a die's bay slots and dispatcher, the
delivery unit, the host. -/
inductive SyncSrc where
  | task (die tile tslot : Nat)
  | window (die tile : Nat)
  | die (d : Nat)
  | delivery
  | host
  deriving DecidableEq, Repr

/-- Rows of a local store found bad in the course of an operation, by address / 64, with true for uncorrectable (R73). -/
abbrev RowErrs := List (Nat × Bool)

/-- What an access finds at a line: a corrected error, an uncorrectable one (R188, R190), or, where a peer holds the page, the
status with which that peer answers accesses of the page from here on, 0 for OK (R218). -/
inductive LineErr where
  | corrected
  | uncorrectable
  | answered (status : Fin 16)
  deriving DecidableEq, Repr

/-- Lines of package memory at which an access finds something, by byte address. -/
abbrev LineErrs := List (Nat × LineErr)

/-- A phase's power in mW and its SCALE in percent, as estimated over a task (R402). -/
abbrev PhaseObs := BitVec 8 × BitVec 16 × BitVec 8

/-- The predicate of a compare (R60): the relations of IEEE 754-2019 between two values for which it is true, less than, equal,
greater than and unordered, and whether a quiet NaN is invalid for it, as for that standard's signalling predicates. -/
structure VPred where
  lt : Bool
  eq : Bool
  gt : Bool
  un : Bool
  signal : Bool
  deriving DecidableEq, Repr

/-- Floating-point vector operations (R94). -/
inductive VArith where
  | add | mul | fma | min | max | cmp (p : VPred) | div | sqrt
  deriving DecidableEq, Repr

/-- An end that reaches a task in the same tile cycle as another (R163). -/
inductive TaskEnd where
  /-- The tile fails, with a cause of R109. -/
  | tileFailed (cause : Nat)
  /-- An operation of the task ends with a status. -/
  | fault (cause : Nat)
  | abort (code : BitVec 8)
  | timeout
  | exit
  deriving DecidableEq, Repr

/-- Operations that change at most the sign bit (R35): move, negate, absolute value, copy the sign of the second operand. -/
inductive VSign where
  | move | neg | abs | copySign
  deriving DecidableEq, Repr

/-- 32-bit integer vector operations (R94). -/
inductive VInt where
  | add | and | or | xor | shl | shr | sar | mul
  deriving DecidableEq, Repr

/-- A vector-unit instruction (R93, R94); registers are numbered within the issuing slot's own. -/
inductive VOp where
  /-- Load or store n bytes at a local-store address. -/
  | load (dst addr n : Nat)
  | store (src addr n : Nat)
  /-- Arithmetic on operands of a format, into a destination specifier: that format, or a narrow one (R60). -/
  | arith (op : VArith) (fmt dstSpec : Nat) (dst a b c opSeq elem : Nat)
  | sign (op : VSign) (fmt : Nat) (dst a b : Nat)
  | int (op : VInt) (dst a b : Nat)
  /-- Conversion between storage formats, n elements; sa holds the scale bytes of a scaled source (R39). -/
  | convert (srcSpec dstSpec dst a sa n opSeq elem : Nat)
  /-- Block-scale formation and conversion by R41: blocks of 32; codes to dst, scale bytes to sdst. -/
  | blockScale (srcSpec dstSpec dst sdst a sa blocks opSeq elem : Nat)
  | exp2 (dst a opSeq elem : Nat)
  | log2 (dst a opSeq elem : Nat)
  /-- n elements as terms into the ingot record i of a register, at the short anchor or a given one; sa holds the scale
  bytes of a scaled source. -/
  | term (srcSpec dst i a sa n : Nat) (anchor : Option (BitVec 16))
  /-- Record i of dst plus record j of a; strict form of R120 or plain. -/
  | ingotAdd (strict : Bool) (dst i a j : Nat)
  /-- Record i of a to element j of dst, by R51. -/
  | ingotOut (dstSpec dst j a i opSeq elem : Nat)
  deriving DecidableEq, Repr

/-- The commands and events of the block: one constructor per row of the opcode table. -/
inductive Instr where
  /-- REGISTER_WRITE (R10). -/
  | registerWrite (page off width : Nat) (w : Word)
  /-- LO_REGISTER_READ (R11). -/
  | loRegisterRead (page off width : Nat)
  /-- RC_REGISTER_READ (R12). -/
  | rcRegisterRead (page off width same : Nat)
  /-- SUMMARY_PROPAGATE (R22). -/
  | summaryPropagate (u : UnitId)
  /-- DIE_LINK_OUT (R543). -/
  | dieLinkOut (l : Fin 9) (replays : Nat) (stuck : Bool)
  /-- FENCE_CMD (R548). -/
  | fenceCmd
  /-- EVT_PEND_CLEAR (R535). -/
  | evtPendClear (u : UnitId) (w raised : Word)
  /-- EVT_MASK_WRITE (R535). -/
  | evtMaskWrite (u : UnitId) (w : Word)
  /-- EVT_FORCE (R537). -/
  | evtForce (u : UnitId) (w : Word)
  /-- WATERMARK_WRITE (R539). -/
  | watermarkWrite (pwr hi : Bool) (v : BitVec 16)
  /-- TILE_FAILURE (R111). -/
  | tileFailure (d : Fin 4) (t : Fin 104) (cause : Nat) (own : Option (Fin 2)) (lines : LineErrs)
  /-- TILE_WATCHDOG_EXPIRE (R76). -/
  | tileWatchdogExpire (d : Fin 4) (t : Fin 104) (lines : LineErrs)
  /-- TILE_CONTROLLER_PARITY (R76). -/
  | tileControllerParity (d : Fin 4) (t : Fin 104) (lines : LineErrs)
  /-- TILE_LOST (R111). -/
  | tileLost (d : Fin 4)
  /-- SPARE_SELFTEST_DONE (R111). -/
  | spareSelftestDone (d : Fin 4) (pass : Bool)
  /-- TILE_SPARED (R111). -/
  | tileSpared (d : Fin 4)
  /-- FAILURE_FUSE_BLOW (R116). -/
  | failureFuseBlow (d : Fin 4) (t : Fin 104)
  /-- LS_ROW_RETEST (R73). -/
  | lsRowRetest (d : Fin 4) (t : Fin 104) (row : Nat) (pass : Bool) (lines : LineErrs)
  /-- KERNEL_LOAD_DONE (R78). -/
  | kernelLoadDone (d : Fin 4) (t : Fin 104) (k : Fin 2) (errs : LineErrs)
  /-- MOP_ISSUE (R82). -/
  | mopIssue (d : Fin 4) (t : Fin 104) (k : Fin 2) (addr : Nat) (errs : RowErrs) (lines : LineErrs)
  /-- MOP_ISSUE_RESUME (R82). -/
  | mopIssueResume (d : Fin 4) (t : Fin 104) (k : Fin 2) (errs : RowErrs) (lines : LineErrs)
  /-- MOP_COMPLETE (R88). -/
  | mopComplete (d : Fin 4) (t : Fin 104) (k : Fin 2) (errs : RowErrs) (residue : Option Nat) (lines : LineErrs)
  /-- VECTOR_INSTRUCTION (R94). -/
  | vectorInstruction (d : Fin 4) (t : Fin 104) (k : Fin 2) (op : VOp) (errs : RowErrs) (lines : LineErrs)
  /-- DM_COPY (R97). -/
  | dmCopy (d : Fin 4) (t : Fin 104) (k : Fin 2) (addr : Nat) (errs : RowErrs) (lines : LineErrs)
  /-- DM_GATHER (R97). -/
  | dmGather (d : Fin 4) (t : Fin 104) (k : Fin 2) (addr : Nat) (errs : RowErrs) (lines : LineErrs)
  /-- DM_SCATTER (R97). -/
  | dmScatter (d : Fin 4) (t : Fin 104) (k : Fin 2) (addr : Nat) (errs : RowErrs) (lines : LineErrs)
  /-- DM_FILL (R97). -/
  | dmFill (d : Fin 4) (t : Fin 104) (k : Fin 2) (addr : Nat) (errs : RowErrs) (lines : LineErrs)
  /-- DM_ISSUE_RESUME (R100). -/
  | dmIssueResume (d : Fin 4) (t : Fin 104) (k : Fin 2) (errs : RowErrs) (lines : LineErrs)
  /-- DM_COMPLETE (R100). -/
  | dmComplete (d : Fin 4) (t : Fin 104) (k : Fin 2) (n : Nat) (errs : RowErrs) (lines : LineErrs)
  /-- WINDOW_OPEN (R103). -/
  | windowOpen (d : Fin 4) (t : Fin 104) (n : Fin 4) (syncObj : Nat)
  /-- WINDOW_CLOSE (R103). -/
  | windowClose (d : Fin 4) (t : Fin 104) (n : Fin 4)
  /-- TILE_DRAIN (R115). -/
  | tileDrain (d : Fin 4) (t : Fin 104) (on : Bool)
  /-- TILE_RETIRE (R115). -/
  | tileRetire (d : Fin 4) (t : Fin 104) (lines : LineErrs)
  /-- SLOT_ARM (R132). -/
  | slotArm (d : Fin 4) (k : Nat) (w : Word)
  /-- SLOT_RELEASE (R132). -/
  | slotRelease (d : Fin 4) (k : Nat) (w : Word)
  /-- SLOT_ANCHOR_CONTRIB (R133). -/
  | slotAnchorContrib (d : Fin 4) (k : Nat) (w : Word)
  /-- SLOT_RECORD_CONTRIB (R133). -/
  | slotRecordContrib (d : Fin 4) (k : Nat) (data : List Byte)
  /-- POOL_DOORBELL (R145). -/
  | poolDoorbell (p : Fin 4096) (count : Nat)
  /-- POOL_CQ_HEAD_WRITE (R145). -/
  | poolCqHeadWrite (p : Fin 4096) (v : Word) (errs : LineErrs)
  /-- POOL_ENABLE (R171). -/
  | poolEnable
  /-- POOL_DISABLE (R168). -/
  | poolDisable
  /-- POOL_FLUSH (R168). -/
  | poolFlush (errs : LineErrs)
  /-- POOL_RELOAD (R143). -/
  | poolReload (errs : LineErrs)
  /-- POOL_CLEAR (R171). -/
  | poolClear
  /-- SEARCH_TIER_OPEN (R152). -/
  | searchTierOpen (d : Fin 4) (t : Fin 104) (n : Fin 6)
  /-- FULL_HOLD (R158). -/
  | fullHold (p : Fin 4096)
  /-- TASK_TAKE (R154). -/
  | taskTake (d : Fin 4) (t : Fin 104) (rivals : List (Fin 4 × Fin 104)) (errs : LineErrs)
  /-- TASK_START (R159). -/
  | taskStart (d : Fin 4) (t : Fin 104) (k : Fin 2)
  /-- TASK_EXIT (R160). -/
  | taskExit (d : Fin 4) (t : Fin 104) (k : Fin 2) (same : List TaskEnd) (lines : LineErrs)
  /-- TASK_ABORT (R161). -/
  | taskAbort (d : Fin 4) (t : Fin 104) (k : Fin 2) (code : BitVec 8) (same : List TaskEnd) (lines : LineErrs)
  /-- TASK_TIMEOUT (R164). -/
  | taskTimeout (d : Fin 4) (t : Fin 104) (k : Fin 2) (same : List TaskEnd) (lines : LineErrs)
  /-- PARTNER_END (R167). -/
  | partnerEnd (d : Fin 4) (t : Fin 104) (k : Fin 2) (lines : LineErrs)
  /-- KERNEL_POST (R147). -/
  | kernelPost (d : Fin 4) (t : Fin 104) (k : Fin 2) (p : Fin 4096) (count : Nat)
  /-- CHANNEL_TRAIN_DONE (R183). -/
  | channelTrainDone (m : Fin 12) (ch : Fin 16) (check pass : Bool) (c : Calib)
  /-- MEMORY_FILL_DONE (R183). -/
  | memoryFillDone (m : Fin 12) (ch : Fin 16)
  /-- SCRUB_LINE (R189). -/
  | scrubLine (m : Fin 12) (ch : Fin 16) (f : Fin 3072) (line : Fin 32768) (err : Option Bool)
  /-- CHANNEL_TRACK (R185). -/
  | channelTrack (m : Fin 12) (ch : Fin 16) (retries onDie : Nat)
  /-- CHANNEL_RETRAIN (R185). -/
  | channelRetrain (m : Fin 12) (ch : Fin 16)
  /-- CHANNEL_RETRAIN_DONE (R185). -/
  | channelRetrainDone (m : Fin 12) (ch : Fin 16) (pass : Bool)
  /-- MCHN_RETRAIN (R197). -/
  | mchnRetrain (m : Fin 12) (ch : Fin 16)
  /-- MCHN_RETIRE (R197). -/
  | mchnRetire (m : Fin 12) (ch : Fin 16)
  /-- CHANNEL_DRAIN_DONE (R195). -/
  | channelDrainDone (m : Fin 12) (ch : Fin 16)
  /-- STACK_TEMP_READ (R186). -/
  | stackTempRead (m : Fin 12) (degC : BitVec 8)
  /-- PLACE_ALLOC (R205). -/
  | placeAlloc (pin die : Fin 4) (spillFirst : Bool)
  /-- PLACE_FREE (R207). -/
  | placeFree (pin die : Fin 4) (spillFirst : Bool)
  /-- PLACE_SET_PIN (R208). -/
  | placeSetPin (pin die : Fin 4) (spillFirst : Bool)
  /-- PLACE_QUERY (R204). -/
  | placeQuery (pin die : Fin 4) (spillFirst : Bool)
  /-- PLACE_FREE_GUESTS (R207). -/
  | placeFreeGuests (pin die : Fin 4) (spillFirst : Bool)
  /-- PLACE_REQ_RESERVED (R204). -/
  | placeReqReserved (seven : Bool) (pin die : Fin 4) (spillFirst : Bool)
  /-- PLACE_REQ_DONE (R203). -/
  | placeReqDone
  /-- PLACE_EPOCH_END (R212). -/
  | placeEpochEnd
  /-- HEAT_COUNT_FLUSH (R211). -/
  | heatCountFlush (cache : Fin 6) (page : Fin 1048576)
  /-- MOVE_PASS_DONE (R213). -/
  | movePassDone (guest : Bool) (page : Nat) (errs : LineErrs)
  /-- PAGE_MOVE_DONE (R213). -/
  | pageMoveDone (guest : Bool) (page : Nat) (errs : LineErrs)
  /-- FRAME_ZERO_DONE (R207). -/
  | frameZeroDone (frame : Fin 1048576)
  /-- DRAIN_RESUME (R224). -/
  | drainResume (m : Fin 12) (ch : Fin 16)
  /-- LOST_SCAN (R202). -/
  | lostScan (from_ : Fin 1048576)
  /-- GUEST (R221). -/
  | guest (h : Fin 2) (pk : Packet)
  /-- GUEST_RSP (R221). -/
  | guestRsp (h : Fin 2) (pk : Packet) (room : Nat)
  /-- HELLO_SEND (R241). -/
  | helloSend (p : Fin 16)
  /-- HELLO_RECEIVE (R243). -/
  | helloReceive (p : Fin 16) (hdr : SHdr) (h : Hello) (same : Bool)
  /-- HELLO_SILENCE (R246). -/
  | helloSilence (p : Fin 16)
  /-- DTAB_LOAD (R238). -/
  | dtabLoad (h : Fin 2)
  /-- DTAB_EDIT (R238). -/
  | dtabEdit (h : Fin 2)
  /-- DTAB_LOAD_DONE (R238). -/
  | dtabLoadDone (h : Fin 2) (errs : LineErrs)
  /-- DTAB_BANK_COPY_DONE (R240). -/
  | dtabBankCopyDone (h : Fin 2) (errs : LineErrs)
  /-- LINK_ENABLE_WRITE (R271). -/
  | linkEnableWrite (p : Fin 16) (on : Bool)
  /-- LINK_RETRAIN (R273). -/
  | linkRetrain (p : Fin 16)
  /-- LINK_TEST_SELECT (R276). -/
  | linkTestSelect (p : Fin 16) (v : Fin 8)
  /-- PRBS_CONFIG_WRITE (R278). -/
  | prbsConfigWrite (p : Fin 16) (pattern : Fin 4) (gen chk : Bool) (lanes : BitVec 8)
  /-- TRAINING_FRAME (R270). -/
  | trainingFrame (p : Fin 16) (lane : Fin 8) (f : TrainFrame) (power : BitVec 16) (rx : LaneRx)
  /-- LINK_SIGNAL_DETECTED (R271). -/
  | linkSignalDetected (p : Fin 16)
  /-- LINK_TRAINED (R271). -/
  | linkTrained (p : Fin 16)
  /-- LINK_CDR_LOCKED (R271). -/
  | linkCdrLocked (p : Fin 16)
  /-- LINK_ALIGNED (R271). -/
  | linkAligned (p : Fin 16)
  /-- CAP_FLIT (R272). -/
  | capFlit (p : Fin 16) (ack : Fin 1048576) (level minLevel : BitVec 8) (idle farLoop : Bool)
  /-- LINK_UP (R271). -/
  | linkUp (p : Fin 16)
  /-- LINK_STEP_TIMEOUT (R271). -/
  | linkStepTimeout (p : Fin 16)
  /-- DATA_FLIT (R265). -/
  | dataFlit (p : Fin 16) (cwhs : List (Fin 1048576)) (flit : List Byte)
  /-- UNCORRECTABLE_CODEWORD (R268). -/
  | uncorrectableCodeword (p : Fin 16) (cwhs : List (Fin 1048576))
  /-- LINK_ACK (R266). -/
  | linkAck (p : Fin 16) (ack : Fin 1048576)
  /-- LINK_NAK (R266). -/
  | linkNak (p : Fin 16) (ack : Fin 1048576)
  /-- CREDIT_FLIT (R303). -/
  | creditFlit (p : Fin 16) (ack : Fin 1048576) (l0 l1 l2 l3 l4 : BitVec 32)
  /-- LINK_REJECT_FLIT (R333). -/
  | linkRejectFlit (p : Fin 16) (ack : Fin 1048576)
  /-- IDLE_ENTER_FLIT (R275). -/
  | idleEnterFlit (p : Fin 16) (ack : Fin 1048576)
  /-- LOOP_REQ_FLIT (R277). -/
  | loopReqFlit (p : Fin 16) (ack : Fin 1048576)
  /-- LOOP_EXIT_FLIT (R277). -/
  | loopExitFlit (p : Fin 16) (ack : Fin 1048576)
  /-- FAR_LOOP_TIMEOUT (R277). -/
  | farLoopTimeout (p : Fin 16)
  /-- NAK_RESEND_TIMER (R265). -/
  | nakResendTimer (p : Fin 16)
  /-- LINK_FLIT_TIMER (R265). -/
  | linkFlitTimer (p : Fin 16) (t : LinkTick)
  /-- IDLE_ENTRY (R275). -/
  | idleEntry (p : Fin 16)
  /-- IDLE_EXIT (R275). -/
  | idleExit (p : Fin 16)
  /-- LANE_SIGNAL_LOSS (R283). -/
  | laneSignalLoss (p : Fin 16)
  /-- SIGNAL_RETURN (R283). -/
  | signalReturn (p : Fin 16)
  /-- LOS_HOLD_EXPIRE (R283). -/
  | losHoldExpire (p : Fin 16)
  /-- CDR_LOCK_LOSS (R273). -/
  | cdrLockLoss (p : Fin 16)
  /-- LASER_TRIP (R281). -/
  | laserTrip (p : Fin 16) (why : Fin 3)
  /-- LASER_SWITCH_CMD (R285). -/
  | laserSwitchCmd (p : Fin 16)
  /-- STANDBY_CLAIM_CHECK (R282). -/
  | standbyClaimCheck (p : Fin 16) (good : Bool)
  /-- LASER_SWITCH_COMPLETE (R282). -/
  | laserSwitchComplete (p : Fin 16)
  /-- LASER_CAL_DONE (R282). -/
  | laserCalDone (p : Fin 16) (bias power : BitVec 16) (temp : BitVec 8) (cal : Nat)
  /-- PACKET_COMMIT (R306). -/
  | packetCommit (p : Fin 16)
  /-- PEN_RESET (R307). -/
  | penReset (p : Fin 16) (v : Fin 5)
  /-- PACKET_ROUTE (R295). -/
  | packetRoute (src : PenSrc) (errs : LineErrs) (room : Nat)
  /-- ESC_WAIT_EXPIRE (R296). -/
  | escWaitExpire (src : PenSrc)
  /-- PEN_AGE_DROP (R298). -/
  | penAgeDrop (src : PenSrc)
  /-- TRANSIT_WINDOW_TICK (R301). -/
  | transitWindowTick
  /-- WRITE (R309). -/
  | write (h : Fin 2) (pk : Packet) (errs : LineErrs)
  /-- HALO_WRITE (R104). -/
  | haloWrite (h : Fin 2) (pk : Packet)
  /-- READ_REQ (R318). -/
  | readReq (h : Fin 2) (pk : Packet) (errs : LineErrs)
  /-- ATOMIC (R317). -/
  | atomic (h : Fin 2) (pk : Packet) (errs : LineErrs)
  /-- MC_WRITE (R330). -/
  | mcWrite (p : Fin 16) (pk : Packet) (errs : LineErrs)
  /-- SYNC_FRAG (R363). -/
  | syncFrag (h : Fin 2) (pk : Packet)
  /-- CKT_WRITE (R326). -/
  | cktWrite (p : Fin 16) (pk : Packet) (errs : LineErrs)
  /-- CKT_HALO (R326). -/
  | cktHalo (p : Fin 16) (pk : Packet)
  /-- READ_RSP (R318). -/
  | readRsp (h : Fin 2) (pk : Packet) (errs : LineErrs)
  /-- ATOMIC_RSP (R317). -/
  | atomicRsp (h : Fin 2) (pk : Packet)
  /-- ACK (R322). -/
  | ack (h : Fin 2) (pk : Packet)
  /-- REJECT (R319). -/
  | reject (h : Fin 2) (pk : Packet)
  /-- MC_ACK (R331). -/
  | mcAck (h : Fin 2) (pk : Packet)
  /-- CKT_ACK (R326). -/
  | cktAck (h : Fin 2) (pk : Packet)
  /-- FLOW_RTO (R314). -/
  | flowRto (c : Fin 262144) (seq : BitVec 32)
  /-- FLOW_ACK_TIMER (R316). -/
  | flowAckTimer (ckt : Bool) (c : Fin 262144)
  /-- FLOW_ENABLE (R313). -/
  | flowEnable (h : Fin 2) (errs : LineErrs)
  /-- FLOW_DISABLE (R313). -/
  | flowDisable (h : Fin 2)
  /-- CKT_RTO (R326). -/
  | cktRto (c : Fin 1024)
  /-- MC_ROUND_RTO (R331). -/
  | mcRoundRto (c : Fin 262144) (msgId : BitVec 8)
  /-- KERNEL_ATOMIC (R294). -/
  | kernelAtomic (d : Fin 4) (t : Fin 104) (k : Fin 2) (flow : Fin 262144) (addr x cmp : BitVec 64) (aop : Fin 16)
  /-- SYNC_ACK (R342). -/
  | syncAck (p : Fin 16) (h : SHdr)
  /-- SYNC_RESEND_TIMER (R342). -/
  | syncResendTimer (p : Fin 16)
  /-- SYNC_ACK_TIMER (R342). -/
  | syncAckTimer (p : Fin 16)
  /-- TIME_REQ (R369). -/
  | timeReq (p : Fin 16) (h : SHdr) (t1 : Nat)
  /-- TIME_RSP (R369). -/
  | timeRsp (p : Fin 16) (h : SHdr) (t1 t2 t3 : Nat)
  /-- TIME_EXCHANGE_TICK (R369). -/
  | timeExchangeTick (p : Fin 16)
  /-- MASTER (R370). -/
  | masterMsg (p : Fin 16) (h : SHdr) (m : MasterMsg)
  /-- MASTER_ANNOUNCE (R370). -/
  | masterAnnounce
  /-- MASTER_STALE (R370). -/
  | masterStale (p : Fin 16)
  /-- PARTIAL (R360). -/
  | partialMsg (p : Fin 16) (h : SHdr) (m : PartialMsg)
  /-- ROUND_TIMEOUT (R365). -/
  | roundTimeout (o : Fin 1024)
  /-- PARTIAL_DETOUR (R363). -/
  | partialDetour (p : Fin 16) (lseq : BitVec 8)
  /-- PACE (R381). -/
  | pace (p : Fin 16) (h : SHdr) (m : PaceMsg)
  /-- PACE_POST (R380). -/
  | pacePost
  /-- PACE_REPOST (R380). -/
  | paceRepost
  /-- PACE_ENTRY_EXPIRE (R381). -/
  | paceEntryExpire (origin : BitVec 64)
  /-- OBJ_ARM (R347). -/
  | objArm (h : Fin 2) (errs : LineErrs)
  /-- OBJ_DISARM (R347). -/
  | objDisarm (h : Fin 2)
  /-- OBJ_SIGNAL (R348). -/
  | objSignal (src : SyncSrc) (o n : BitVec 16)
  /-- OBJ_SET (R348). -/
  | objSet (src : SyncSrc) (o : BitVec 16)
  /-- OBJ_CLEAR (R348). -/
  | objClear (src : SyncSrc) (o : BitVec 16)
  /-- SYNC_CONTRIB (R362). -/
  | syncContrib (d : Fin 4) (t : Fin 104) (k : Fin 2) (o : BitVec 16) (data : List Byte)
  /-- SYNC_WAIT (R349). -/
  | syncWait (d : Fin 4) (t : Fin 104) (k : Fin 2) (o : BitVec 16)
  /-- SYNC_READ (R348). -/
  | syncRead (d : Fin 4) (t : Fin 104) (k : Fin 2) (o : BitVec 16)
  /-- STAGED_WRITE (R557). -/
  | stagedWrite (u : UnitId) (off : Nat) (w : Word)
  /-- STAGE_CHECK_DONE (R557). -/
  | stageCheckDone (u : UnitId) (errs : LineErrs)
  /-- COMMIT_NOW (R559). -/
  | commitNow (u : UnitId) (errs : LineErrs)
  /-- COMMIT_AT (R376). -/
  | commitAt (u : UnitId)
  /-- COMMIT_CANCEL (R378). -/
  | commitCancel (u : UnitId)
  /-- COMMIT_AT_REACHED (R376). -/
  | commitAtReached (u : UnitId) (errs : LineErrs)
  /-- POWER_SAMPLE (R389). -/
  | powerSample (v a : BitVec 16)
  /-- SHARE_RECOMPUTE (R403). -/
  | shareRecompute (others mean0 mean1 mean2 mean3 : Nat)
  /-- PHASE_LEARN (R402). -/
  | phaseLearn (d : Fin 4) (est mean : Nat) (obs : List PhaseObs)
  /-- PHASE_FORGET (R402). -/
  | phaseForget
  /-- DROOP_DETECT (R399). -/
  | droopDetect (d : Fin 4) (t : Fin 104) (above : Bool)
  /-- DROOP_STRETCH_END (R399). -/
  | droopStretchEnd (d : Fin 4) (t : Fin 104) (above : Bool)
  /-- DROOP_CEIL_RISE (R399). -/
  | droopCeilRise (d : Fin 4) (t : Fin 104)
  /-- FREQ_SLEW_STEP (R398). -/
  | freqSlewStep (d : Fin 4) (t : Fin 104)
  /-- FREQ_DEFER_END (R401). -/
  | freqDeferEnd (d : Fin 4) (t : Fin 104)
  /-- RAIL_RAMP_STEP (R391). -/
  | railRampStep (d : Fin 4) (c : Fin 13)
  /-- RAIL_FALL_HOLD_EXPIRE (R391). -/
  | railFallHoldExpire (d : Fin 4) (c : Fin 13)
  /-- SENSOR_SAMPLE (R410). -/
  | sensorSample (hs : Fin 440) (a b : Int) (load : Nat) (m : Int)
  /-- CAP_THERM_ADJUST (R415). -/
  | capThermAdjust (same : Bool)
  /-- THERMAL_TRIP (R416). -/
  | thermalTrip (sensor : Fin 880)
  /-- COOLANT (R420). -/
  | coolant (seq : BitVec 32) (inlet outlet flow : BitVec 16) (ok : BitVec 8) (rsvd same : Bool)
  /-- COOLANT_MISSING (R421). -/
  | coolantMissing
  /-- FLOW_CHECK (R423). -/
  | flowCheck
  /-- THERMAL_CYCLE_SAMPLE (R426). -/
  | thermalCycleSample (die : Fin 6)
  /-- REMARGIN_VISIT (R428). -/
  | remarginVisit (d : Fin 4) (t : Fin 104)
  /-- REMARGIN_VISIT_DONE (R428). -/
  | remarginVisitDone (d : Fin 4) (t : Fin 104) (table : Vector Nat 8) (ring : Nat) (lines : LineErrs)
  /-- RMARGIN_LATE (R429). -/
  | rmarginLate (d : Fin 4) (t : Fin 104)
  /-- MARGIN_BUMP (R430). -/
  | marginBump (d : Fin 4) (t : Fin 104) (lines : LineErrs)
  /-- ASSAY_START (R440). -/
  | assayStart
  /-- HALLMARK_INTERVAL_END (R444). -/
  | hallmarkIntervalEnd (samples : List (Nat × Nat)) (ns : Nat) (temp : Int) (refBad : Bool) (since : Nat)
  /-- HALLMARK_COPY (R448). -/
  | hallmarkCopy (crcOk : Bool)
  /-- ASSAY_LINK_LOST (R448). -/
  | assayLinkLost
  /-- DROVE_TIME_TO_ASSAY (R439). -/
  | droveTimeToAssay
  /-- BAR2_READ (R460). -/
  | bar2Read (off : Fin 68719476736) (n : Nat) (errs : LineErrs)
  /-- BAR2_WRITE (R459). -/
  | bar2Write (off : Fin 68719476736) (data : List Byte) (errs : LineErrs)
  /-- POISONED_TLP (R454). -/
  | poisonedTlp (kind : Fin 3) (q : Fin 64) (n : Nat) (data : List Byte)
  /-- SQ_DOORBELL (R463). -/
  | sqDoorbell (q : Fin 64) (v : Word)
  /-- HOST_CQ_HEAD_WRITE (R463). -/
  | hostCqHeadWrite (q : Fin 64) (v : Word)
  /-- QUEUE_ENABLE (R462). -/
  | queueEnable
  /-- QUEUE_DISABLE (R472). -/
  | queueDisable
  /-- QUEUE_CLEAN (R470). -/
  | queueClean
  /-- COMMAND_FETCH (R470). -/
  | commandFetch (q : Fin 64) (raw : Vector Byte 64) (err : Bool)
  /-- NOP (R465). -/
  | nop (q : Fin 64) (n : Nat)
  /-- COPY_H2D (R465). -/
  | copyH2d (q : Fin 64) (n : Nat) (data : List Byte) (errs : LineErrs) (err : Fin 5)
  /-- COPY_D2H (R465). -/
  | copyD2h (q : Fin 64) (n : Nat) (errs : LineErrs) (part : Option Nat) (err : Fin 5)
  /-- HOST_FILL (R465). -/
  | hostFill (q : Fin 64) (n : Nat) (errs : LineErrs) (part : Option Nat)
  /-- POST_TASKS (R466). -/
  | postTasks (q : Fin 64) (n : Nat) (data : List Byte) (err : Fin 5)
  /-- HOST_SIGNAL (R467). -/
  | hostSignal (q : Fin 64) (n : Nat)
  /-- WAIT_SYNC (R467). -/
  | waitSync (q : Fin 64) (n : Nat)
  /-- WAIT_SYNC_RELEASE (R467). -/
  | waitSyncRelease (q : Fin 64) (n : Nat)
  /-- WAIT_SYNC_TIMEOUT (R467). -/
  | waitSyncTimeout (q : Fin 64) (n : Nat)
  /-- HOST_COMMAND_DONE (R468). -/
  | hostCommandDone (q : Fin 64) (n : Nat)
  /-- MSIX_HOLDOFF_END (R473). -/
  | msixHoldoffEnd (v : Fin 2048)
  /-- FLR (R475). -/
  | flr
  /-- HOT_RESET (R475). -/
  | hotReset
  /-- PERST_N (R475). -/
  | perstN
  /-- PCIE_LINK_DOWN (R475). -/
  | pcieLinkDown
  /-- PCIE_LINK_UP (R475). -/
  | pcieLinkUp (gen : Fin 8) (width : Fin 8) (flit : Bool)
  /-- FUNCTION_READY (R475). -/
  | functionReady
  /-- BOOT_GO (R492). -/
  | bootGo
  /-- BOOT_VERIFY_DONE (R492). -/
  | bootVerifyDone
  /-- POWER_ON (R482). -/
  | powerOn
  /-- INPUT_POWER_LOSS (R389). -/
  | inputPowerLoss
  /-- PKG_RESET_ASSERT (R479). -/
  | pkgResetAssert
  /-- PKG_RESET_RELEASE (R486). -/
  | pkgResetRelease (sel : Fin 4) (rot : StoreRot)
  /-- SOFT_RESET (R484). -/
  | softReset (key : Word) (sel : Fin 4) (rot : StoreRot)
  /-- PKG_ISOLATE (R499). -/
  | pkgIsolate
  /-- HCTL_WATCHDOG (R485). -/
  | hctlWatchdog (restarted : List (Fin 5 × Fin 32))
  /-- HCTL_RESTART_DONE (R485). -/
  | hctlRestartDone
  /-- START_READY (R489). -/
  | startReady
  /-- START_FAILED (R490). -/
  | startFailed (cause : Fin 6)
  /-- MGMT_LINK_CHANGE (R500). -/
  | mgmtLinkChange (up : Bool)
  /-- MGMT_FRAME_DISCARD (R501). -/
  | mgmtFrameDiscard (dst : BitVec 48) (payload : List Byte)
  /-- RACK_ORDER (R504). -/
  | rackOrder (src : BitVec 48) (serial oseq : BitVec 64) (watts : BitVec 12) (park : Bool) (sig : List Byte) (same : Bool)
  /-- HEARTBEAT (R505). -/
  | heartbeat
  /-- HEARTBEAT_LOST (R505). -/
  | heartbeatLost (bm : Bool)
  /-- HALLMARK_REQ (R507). -/
  | hallmarkReq (src : BitVec 48) (from_ : BitVec 64) (count : BitVec 8) (ident : Bool)
  /-- STATUS_BROADCAST (R506). -/
  | statusBroadcast
  /-- BOOT_REQ_SEND (R491). -/
  | bootReqSend
  /-- I3C_PRIVATE_WRITE (R508). -/
  | i3cPrivateWrite (bytes : List Byte)
  /-- I3C_PRIVATE_READ (R508). -/
  | i3cPrivateRead (n : Nat)
  /-- I3C_ENTDAA (R508). -/
  | i3cEntdaa (addr : BitVec 7)
  /-- SETTINGS_GROUP_WRITE (R494). -/
  | settingsGroupWrite (ok : Bool) (bytes : Nat) (blocks erased : List (Fin 96))
  /-- STORE_FORGET (R497). -/
  | storeForget
  /-- XFER_START (R520). -/
  | xferStart (src : BitVec 48) (setId : BitVec 64) (epoch : BitVec 32) (chunks : BitVec 8)
  /-- XFER_PIECE (R520). -/
  | xferPiece (src : BitVec 48) (setId : BitVec 64) (chunk piece : Fin 64) (data : List Byte)
  /-- XFER_QUERY (R520). -/
  | xferQuery (src : BitVec 48) (setId : BitVec 64)
  /-- XFER_ABORT (R520). -/
  | xferAbort (src : BitVec 48) (setId : BitVec 64)
  /-- CHUNK_WRITE_DONE (R520). -/
  | chunkWriteDone (c : Fin 64) (ok : Bool)
  /-- SLOT_VERIFY_DONE (R520). -/
  | slotVerifyDone (bad : BitVec 64)
  /-- FW_PREPARE (R523). -/
  | fwPrepare
  /-- FW_PREPARE_DONE (R523). -/
  | fwPrepareDone (bad : BitVec 64)
  /-- FW_DISCARD (R520). -/
  | fwDiscard
  /-- FW_MARK (R531). -/
  | fwMark
  /-- FW_SEAL (R530). -/
  | fwSeal
  /-- FW_IMAGE_CONFIRM (R525). -/
  | fwImageConfirm (kind : Fin 5) (inst : Fin 32)
  /-- FW_HANDOVER_TIMEOUT (R528). -/
  | fwHandoverTimeout (refused : Bool) (restarted : List (Fin 5 × Fin 32))
  /-- FW_SELECTION_WRITTEN (R527). -/
  | fwSelectionWritten
  /-- TILE_TMC_SWITCH (R525). -/
  | tileTmcSwitch (d : Fin 4) (t : Fin 104)
  /-- FW_TILE_WAIT_EXPIRE (R525). -/
  | fwTileWaitExpire
  /-- RECOVERY_SET_WRITTEN (R532). -/
  | recoverySetWritten (ok0 ok1 : Bool)
  /-- FLIT_CRC_ERROR (R265). -/
  | flitCrcError (p : Fin 16) (cwhs : List (Fin 1048576)) (data : Bool) (flit : List Byte)
  /-- MASTER_ELIGIBLE (R370). -/
  | masterEligible
  /-- INTERNAL_RAILS_GOOD (R486). -/
  | internalRailsGood (sel : Fin 4) (rot : StoreRot)
  /-- AUX_RAIL_GOOD (R566). -/
  | auxRailGood
  /-- XTAB_READ_DONE (R337). -/
  | xtabReadDone (h : Fin 2) (errs : LineErrs)
  /-- CONFIG_SPACE_WRITE (R474). -/
  | configSpaceWrite (bme d3hot fnMask : Bool) (cfg : HostCfg)
  /-- BOOT_SLOT_WRITE_DONE (R491). -/
  | bootSlotWriteDone
  /-- STATE_MEMORY_UE (R546). -/
  | stateMemoryUe
  /-- FCAST_MODE_CHANGE (R424). -/
  | fcastModeChange
  /-- IMAGES_LOADED (R488). -/
  | imagesLoaded
  /-- SETTINGS_RESTORED (R488). -/
  | settingsRestored
  /-- FAR_LOOP_LOS_TIMEOUT (R277). -/
  | farLoopLosTimeout (p : Fin 16)
  /-- PRBS_LOCK (R278). -/
  | prbsLock (p : Fin 16) (lane : Fin 8) (bits errs : Nat)
  /-- PRBS_LOCK_LOSS (R278). -/
  | prbsLockLoss (p : Fin 16) (lane : Fin 8) (bits errs : Nat)
  deriving DecidableEq, Repr

end Sys2Proof
end

