-- ==== Sys2Proof/Decode.lean ====
section
/-! DEFINITION. The opcode table of this block gives its commands no bits: a command is a happening with operands, and no
word spells one. -/

namespace Sys2Proof

/-- The command that a word spells by the table's bits: the table gives none (notes/assumptions/1.md). -/
def decodeTableWord (_nbits _w : Nat) : Option Instr := none

end Sys2Proof
end

