-- ==== Sys2Proof/Config.lean ====
section
/-! DEFINITION. The values the spec leaves open: opaque constants with no body, so that no proof can see what they are. -/

namespace Sys2Proof.Config

/-- The k-th free value, as a number; every open value of the spec that one step meets is a reading of it
(notes/assumptions/7.md). -/
opaque freeNat : Nat → Nat

/-- Vector-unit results the spec gives no rule for, by operation, format and operands: whether min and max pass the number
beside one NaN, the codes a compare gives for true and for false, shifts by 32 or more; and the choice of exp2 and log2 within
their bound, by operand and mode. R94 makes them the same on every tile. -/
opaque vecCode : Nat → Nat → Nat → Nat → Nat

/-- Power of a cluster's busy tiles in mW and their throughput at a frequency, from the learned PWR and SCALE of the phases
they run (R402, R403). -/
opaque clusterPower : List Nat → Nat → Nat
opaque clusterRate : List Nat → Nat → Nat

/-- Margin table fused at test, by island and point, in 2.5 mV steps; the ring oscillator count recorded at test (R432); and the fused
temperature coefficient, µV for each °C (R427). -/
opaque fusedMargin : Nat → Nat → Nat
opaque ringTest : Nat → Nat
opaque tempCoef : Nat → Nat

/-- The thermal model, fitted at test (R424): its forecast for a hot spot 5 ms ahead in 1/8 °C, from its estimate of the present
temperature, the forecast power of the four compute dies in mW, the inlet in 0.01 °C and the flow in use in mL/min. -/
opaque thermalModel : Nat → Int → List Nat → Int → Nat → Int

/-- A chunk of an image slot of the retained store as shipped, by slot × 64 + chunk; and the slot taken as active while neither copy of the
selection record passes its CRC (R527). -/
opaque flashChunk : Nat → List Byte
opaque noSelection : Nat

/-- LEVEL and MIN_LEVEL that the firmware of an optical engine's transmit controller offers, by its image VERSION (R272). -/
opaque oecLevel : Nat → Nat
opaque oecMinLevel : Nat → Nat

/-- Whether H0 verifies an Ed25519 signature with the cofactor, which RFC 8032 leaves to the verifier; and the firmware public key fused in
H0. -/
opaque edCofactor : Bool
opaque fwKey : List Byte

/-- The 32 bytes of the assay die's private key; the bytes of the identity record the spec leaves to each package: ROM_VER, MFG_WEEK and
the metering root's SIG. -/
opaque assayKey : List Byte
opaque identByte : Nat → Byte

/-- The factory record of the retained store, by address (R493): the hub's settings public key, per-lane and per-laser test values. -/
opaque factoryByte : Nat → Byte

end Sys2Proof.Config
end

