-- ==== Sys2Proof/Machine/Sparse.lean ====
section
/-! DEFINITION. Operations on sparse data by key. Every map of State is kept by them, so that keys rise strictly;
`putD` also keeps no entry equal to the default, so that equal contents are equal data. -/

namespace Sys2Proof

/-- The entry at a key. -/
def Map.find {α : Type} : Map α → Nat → Option α
  | [], _ => none
  | (k', v) :: m, k => if k' = k then some v else Map.find m k

/-- The entry at a key, or the default where none is listed. -/
def Map.getD {α : Type} (m : Map α) (k : Nat) (d : α) : α := (m.find k).getD d

/-- Insert or replace the entry at a key, in key order. -/
def Map.put {α : Type} : Map α → Nat → α → Map α
  | [], k, v => [(k, v)]
  | (k', v') :: m, k, v =>
    if k' = k then (k, v) :: m
    else if k < k' then (k, v) :: (k', v') :: m
    else (k', v') :: Map.put m k v

/-- Remove the entry at a key. -/
def Map.del {α : Type} (m : Map α) (k : Nat) : Map α := m.filter (fun e => decide (e.1 ≠ k))

/-- Remove the entries at keys from a up to, not including, b. -/
def Map.delRange {α : Type} (m : Map α) (a b : Nat) : Map α :=
  m.filter (fun e => decide (e.1 < a ∨ b ≤ e.1))

/-- Write a value where an unlisted key reads as the default: writing the default removes the entry. -/
def Map.putD {α : Type} [DecidableEq α] (m : Map α) (k : Nat) (v d : α) : Map α :=
  if v = d then m.del k else m.put k v

/-- Keys rise strictly. -/
abbrev Map.Rising {α : Type} (m : Map α) : Prop := List.Pairwise (fun a b => a.1 < b.1) m

/-- The keys listed. -/
def Map.keys {α : Type} (m : Map α) : List Nat := m.map Prod.fst

/-- Bytes of memory at consecutive addresses; an unlisted byte reads 0. -/
def Map.readBytes (m : Map Byte) (a : Nat) : Nat → List Byte
  | 0 => []
  | n + 1 => m.getD a 0 :: Map.readBytes m (a + 1) n

/-- Store bytes at consecutive addresses. -/
def Map.writeBytes (m : Map Byte) (a : Nat) : List Byte → Map Byte
  | [] => m
  | b :: bs => Map.writeBytes (m.putD a b 0) (a + 1) bs

/-- The little-endian number of a list of bytes (R9). -/
def leNat : List Byte → Nat
  | [] => 0
  | b :: bs => b.toNat + 256 * leNat bs

/-- The n little-endian bytes of a number (R9). -/
def leBytes : Nat → Nat → List Byte
  | 0, _ => []
  | n + 1, v => BitVec.ofNat 8 v :: leBytes n (v / 256)

/-- A little-endian number of n bytes of memory. -/
def Map.readLE (m : Map Byte) (a n : Nat) : Nat := leNat (m.readBytes a n)

/-- Store a little-endian number of n bytes. -/
def Map.writeLE (m : Map Byte) (a n v : Nat) : Map Byte := m.writeBytes a (leBytes n v)

/-- The bits [hi:lo] of a number. -/
def bitsOf (w hi lo : Nat) : Nat := w / 2 ^ lo % 2 ^ (hi + 1 - lo)

/-- A number of w bits read as two's complement. -/
def signedOf (w v : Nat) : Int := if v % 2 ^ w < 2 ^ (w - 1) then (v % 2 ^ w : Nat) else (v % 2 ^ w : Nat) - (2 ^ w : Nat)

/-- The w-bit two's complement pattern of an integer. -/
def toTwos (w : Nat) (i : Int) : Nat := (i % (2 ^ w : Nat)).toNat

end Sys2Proof
end

