-- ==== Sys2Proof/Machine/Crypto.lean ====
section
/-! DEFINITION. SHA-512 of FIPS 180-4 and Ed25519 of RFC 8032, by which the rules define digests, SET_IDs and signatures (R444, R447,
R494, R504, R516, R517). Both are written from those standards (PRESUMED: notes/assumptions/58.md). -/

namespace Sys2Proof.Machine

open Sys2Proof

/-! ## SHA-512 -/

/-- The round constants: fractions of the cube roots of the first 80 primes. -/
def shaK0 : List (BitVec 64) :=
  [0x428a2f98d728ae22, 0x7137449123ef65cd, 0xb5c0fbcfec4d3b2f, 0xe9b5dba58189dbbc,
   0x3956c25bf348b538, 0x59f111f1b605d019, 0x923f82a4af194f9b, 0xab1c5ed5da6d8118,
   0xd807aa98a3030242, 0x12835b0145706fbe, 0x243185be4ee4b28c, 0x550c7dc3d5ffb4e2,
   0x72be5d74f27b896f, 0x80deb1fe3b1696b1, 0x9bdc06a725c71235, 0xc19bf174cf692694,
   0xe49b69c19ef14ad2, 0xefbe4786384f25e3, 0x0fc19dc68b8cd5b5, 0x240ca1cc77ac9c65]

def shaK1 : List (BitVec 64) :=
  [0x2de92c6f592b0275, 0x4a7484aa6ea6e483, 0x5cb0a9dcbd41fbd4, 0x76f988da831153b5,
   0x983e5152ee66dfab, 0xa831c66d2db43210, 0xb00327c898fb213f, 0xbf597fc7beef0ee4,
   0xc6e00bf33da88fc2, 0xd5a79147930aa725, 0x06ca6351e003826f, 0x142929670a0e6e70,
   0x27b70a8546d22ffc, 0x2e1b21385c26c926, 0x4d2c6dfc5ac42aed, 0x53380d139d95b3df,
   0x650a73548baf63de, 0x766a0abb3c77b2a8, 0x81c2c92e47edaee6, 0x92722c851482353b]

def shaK2 : List (BitVec 64) :=
  [0xa2bfe8a14cf10364, 0xa81a664bbc423001, 0xc24b8b70d0f89791, 0xc76c51a30654be30,
   0xd192e819d6ef5218, 0xd69906245565a910, 0xf40e35855771202a, 0x106aa07032bbd1b8,
   0x19a4c116b8d2d0c8, 0x1e376c085141ab53, 0x2748774cdf8eeb99, 0x34b0bcb5e19b48a8,
   0x391c0cb3c5c95a63, 0x4ed8aa4ae3418acb, 0x5b9cca4f7763e373, 0x682e6ff3d6b2b8a3,
   0x748f82ee5defb2fc, 0x78a5636f43172f60, 0x84c87814a1f0ab72, 0x8cc702081a6439ec]

def shaK3 : List (BitVec 64) :=
  [0x90befffa23631e28, 0xa4506cebde82bde9, 0xbef9a3f7b2c67915, 0xc67178f2e372532b,
   0xca273eceea26619c, 0xd186b8c721c0c207, 0xeada7dd6cde0eb1e, 0xf57d4f7fee6ed178,
   0x06f067aa72176fba, 0x0a637dc5a2c898a6, 0x113f9804bef90dae, 0x1b710b35131c471b,
   0x28db77f523047d84, 0x32caab7b40c72493, 0x3c9ebe0a15c9bebc, 0x431d67c49c100d4c,
   0x4cc5d4becb3e42b6, 0x597f299cfc657e2a, 0x5fcb6fab3ad6faec, 0x6c44198c4a475817]

/-- The eight working words. -/
structure Sha where
  a : BitVec 64
  b : BitVec 64
  c : BitVec 64
  d : BitVec 64
  e : BitVec 64
  f : BitVec 64
  g : BitVec 64
  h : BitVec 64
  deriving DecidableEq, Repr

/-- The initial hash value: fractions of the square roots of the first eight primes. -/
def Sha.init : Sha :=
  ⟨0x6a09e667f3bcc908, 0xbb67ae8584caa73b, 0x3c6ef372fe94f82b, 0xa54ff53a5f1d36f1,
   0x510e527fade682d1, 0x9b05688c2b3e6c1f, 0x1f83d9abfb41bd6b, 0x5be0cd19137e2179⟩

/-- The four functions of rotations and shifts. -/
def shaBig0 (x : BitVec 64) : BitVec 64 := x.rotateRight 28 ^^^ x.rotateRight 34 ^^^ x.rotateRight 39
def shaBig1 (x : BitVec 64) : BitVec 64 := x.rotateRight 14 ^^^ x.rotateRight 18 ^^^ x.rotateRight 41
def shaSmall0 (x : BitVec 64) : BitVec 64 := x.rotateRight 1 ^^^ x.rotateRight 8 ^^^ x >>> 7
def shaSmall1 (x : BitVec 64) : BitVec 64 := x.rotateRight 19 ^^^ x.rotateRight 61 ^^^ x >>> 6

/-- A round with its constant and its word of the message schedule. -/
def Sha.round (x : Sha) (k w : BitVec 64) : Sha :=
  let t1 := x.h + shaBig1 x.e + ((x.e &&& x.f) ^^^ (~~~x.e &&& x.g)) + k + w
  let t2 := shaBig0 x.a + ((x.a &&& x.b) ^^^ (x.a &&& x.c) ^^^ (x.b &&& x.c))
  ⟨t1 + t2, x.a, x.b, x.c, x.d + t1, x.e, x.f, x.g⟩

/-- The word of the schedule 16 after the first of a window of 16. -/
def shaNext (w : List (BitVec 64)) : BitVec 64 :=
  shaSmall1 (w.getD 14 0) + w.getD 9 0 + shaSmall0 (w.getD 1 0) + w.headD 0

/-- The 80 rounds over a block's 16 words, the window of the schedule moving with them. -/
def Sha.rounds (x : Sha) (w : List (BitVec 64)) : Sha :=
  ((shaK0 ++ shaK1 ++ shaK2 ++ shaK3).foldl (fun (r : Sha × List (BitVec 64)) k =>
    (r.1.round k (r.2.headD 0), r.2.drop 1 ++ [shaNext r.2])) (x, w)).1

/-- Words are read from bytes most significant first. -/
def beWord (b : List Byte) : BitVec 64 := BitVec.ofNat 64 (leNat b.reverse)

/-- A block of 128 bytes enters the hash. -/
def Sha.block (x : Sha) (b : List Byte) : Sha :=
  let y := x.rounds ((List.range 16).map (fun i => beWord ((b.drop (8 * i)).take 8)))
  ⟨x.a + y.a, x.b + y.b, x.c + y.c, x.d + y.d, x.e + y.e, x.f + y.f, x.g + y.g, x.h + y.h⟩

/-- n blocks of 128 bytes enter the hash. -/
def Sha.blocks (x : Sha) (b : List Byte) : Nat → Sha
  | 0 => x
  | n + 1 => Sha.blocks (x.block (b.take 128)) (b.drop 128) n

/-- A message of n bytes padded: a one bit, zeros, and its length in bits. -/
def shaPad (b : List Byte) : List Byte :=
  let n := b.length
  b ++ [0x80] ++ List.replicate ((239 - n % 128) % 128) 0 ++ (leBytes 16 (8 * n)).reverse

/-- SHA-512 (FIPS 180-4). -/
def sha512 (b : List Byte) : List Byte :=
  let x := Sha.init.blocks (shaPad b) ((b.length + 144) / 128)
  [x.a, x.b, x.c, x.d, x.e, x.f, x.g, x.h].flatMap (fun w => (leBytes 8 w.toNat).reverse)

/-! ## Ed25519 -/

/-- The field's prime, and the order of the base point. -/
def edP : Nat := 2 ^ 255 - 19
def edL : Nat := 2 ^ 252 + 27742317777372353535851937790883648493

/-- A power in the field. -/
def edPow (b e : Nat) : Nat :=
  (List.range 256).reverse.foldl (fun r i => let r := r * r % edP; if e.testBit i then r * b % edP else r) 1

def edInv (x : Nat) : Nat := edPow x (edP - 2)

/-- The curve's constant −121665 / 121666, and a square root of −1. -/
def edD : Nat := (edP - 121665) * edInv 121666 % edP
def edRootM1 : Nat := edPow 2 ((edP - 1) / 4)

/-- A point in extended coordinates: x = X / Z, y = Y / Z, x y = T / Z. -/
structure EdPoint where
  x : Nat
  y : Nat
  z : Nat
  t : Nat
  deriving DecidableEq, Repr

def EdPoint.zero : EdPoint := ⟨0, 1, 1, 0⟩

/-- The sum of two points (RFC 8032, 5.1.4). -/
def EdPoint.plus (p q : EdPoint) : EdPoint :=
  let a := (p.y + edP - p.x) * (q.y + edP - q.x) % edP
  let b := (p.y + p.x) * (q.y + q.x) % edP
  let c := 2 * p.t * q.t * edD % edP
  let d := 2 * p.z * q.z % edP
  let e := b + edP - a
  let f := d + edP - c
  let g := d + c
  let h := b + a
  ⟨e * f % edP, g * h % edP, f * g % edP, e * h % edP⟩

/-- A multiple of a point. -/
def EdPoint.times (p : EdPoint) (n : Nat) : EdPoint :=
  (List.range 512).reverse.foldl (fun q i => let q := q.plus q; if n.testBit i then q.plus p else q) EdPoint.zero

/-- Two points are the same. -/
def EdPoint.same (p q : EdPoint) : Bool :=
  (p.x * q.z + (edP - q.x) * p.z) % edP == 0 && (p.y * q.z + (edP - q.y) * p.z) % edP == 0

/-- The x of a y and a sign (RFC 8032, 5.1.3). -/
def edX (y sign : Nat) : Option Nat :=
  let u := (y * y + edP - 1) * edInv (edD * y * y + 1) % edP
  let x := edPow u ((edP + 3) / 8)
  let x := if x * x % edP = u then x else x * edRootM1 % edP
  if x * x % edP ≠ u then none
  else if x = 0 ∧ sign = 1 then none
  else some (if x % 2 = sign then x else edP - x)

/-- A point from its 32 bytes. -/
def edDecode (b : List Byte) : Option EdPoint :=
  let n := leNat b
  let y := n % 2 ^ 255
  if b.length ≠ 32 ∨ edP ≤ y then none
  else (edX y (n / 2 ^ 255)).map (fun x => ⟨x, y, 1, x * y % edP⟩)

/-- A point's 32 bytes. -/
def EdPoint.encode (p : EdPoint) : List Byte :=
  let i := edInv p.z
  leBytes 32 (p.y * i % edP + 2 ^ 255 * (p.x * i % edP % 2))

/-- The base point: y is 4/5 and x even. -/
def edBase : EdPoint :=
  let y := 4 * edInv 5 % edP
  let x := (edX y 0).getD 0
  ⟨x, y, 1, x * y % edP⟩

/-- A digest as a scalar. -/
def edScalar (b : List Byte) : Nat := leNat (sha512 b) % edL

/-- The signature of a message under a public key verifies (RFC 8032, 5.1.7). The standard allows the check with the cofactor and the one
without; which a verifier makes is left open. -/
def ed25519 (key msg sig : List Byte) : Bool :=
  match edDecode key, edDecode (sig.take 32) with
  | some a, some r =>
    let n := leNat (sig.drop 32)
    let l := edBase.times n
    let k := r.plus (a.times (edScalar (sig.take 32 ++ key ++ msg)))
    sig.length == 64 && decide (n < edL) && (l.same k || (Config.edCofactor && (l.times 8).same (k.times 8)))
  | _, _ => false

/-- The secret scalar and the prefix of a private key (RFC 8032, 5.1.5). -/
def edSecret (seed : List Byte) : Nat :=
  leNat ((sha512 seed).take 32) % 2 ^ 254 / 8 * 8 + 2 ^ 254

/-- The public key of a private key. -/
def ed25519Public (seed : List Byte) : List Byte := (edBase.times (edSecret seed)).encode

/-- The signature of a message (RFC 8032, 5.1.6). -/
def ed25519Sign (seed msg : List Byte) : List Byte :=
  let r := edScalar ((sha512 seed).drop 32 ++ msg)
  let rb := (edBase.times r).encode
  rb ++ leBytes 32 ((r + edScalar (rb ++ ed25519Public seed ++ msg) * edSecret seed) % edL)

end Sys2Proof.Machine
end

