-- ==== Sys2Proof/Machine/Flags.lean ====
section
/-! DEFINITION. The floating-point flag word of a task (R61), the rounding modes (R52), the choice of a rounded
candidate (R53, R55) and the rounding generator (R56). -/

namespace Sys2Proof.Machine

open Sys2Proof

/-- The task's floating-point flag word (R61). -/
abbrev FFlags := BitVec 16

abbrev FFlags.inexact : FFlags := 0x0001
abbrev FFlags.underflow : FFlags := 0x0002
abbrev FFlags.overflow : FFlags := 0x0004
abbrev FFlags.divZero : FFlags := 0x0008
abbrev FFlags.invalid : FFlags := 0x0010
abbrev FFlags.saturated : FFlags := 0x0020
abbrev FFlags.inexactWide : FFlags := 0x0040
abbrev FFlags.scaleNan : FFlags := 0x0080
abbrev FFlags.ingotOvf : FFlags := 0x0100

/-- A flag if a condition holds. -/
def FFlags.when (c : Bool) (f : FFlags) : FFlags := if c then f else 0

/-- Rounding modes (R52). -/
inductive RMode where
  | rne | rtz | rup | rdn | stoch
  deriving DecidableEq, Repr

/-- The mode of a 3-bit code; 5–7 are reserved (R52). -/
def RMode.ofCode : Nat → Option RMode
  | 0 => some .rne | 1 => some .rtz | 2 => some .rup | 3 => some .rdn | 4 => some .stoch | _ => none

/-- Rotate a 64-bit value left. -/
def rotl64 (x n : Nat) : Nat := (x * 2 ^ (n % 64) + x / 2 ^ (64 - n % 64)) % 2 ^ 64

/-- One round of the rounding generator (R56). -/
def srRound (key x n : Nat) : Nat :=
  let x := (x + rotl64 key (13 * n + 7)) % 2 ^ 64
  let x := x ^^^ (x / 2 ^ 29)
  let x := (x * 0xBF58476D1CE4E5B9) % 2 ^ 64
  x ^^^ (x / 2 ^ 32)

/-- The 24-bit draw of the rounding generator (R56). -/
def srDraw (key opSeq elem : Nat) : Nat :=
  let x := ((opSeq % 2 ^ 16) * 2 ^ 48 + elem % 2 ^ 48) ^^^ key
  let x := srRound key x 0
  let x := srRound key x 1
  let x := srRound key x 2
  let x := srRound key x 3
  x / 2 ^ 40 % 2 ^ 24

/-- The multiple of 2^lsb chosen for the magnitude m × 2^e (R53, R55), as a count of steps, with whether it differs
from the exact magnitude. `draw` is the 24-bit draw of STOCH. -/
def roundMag (mode : RMode) (neg : Bool) (draw m : Nat) (e lsb : Int) : Nat × Bool :=
  if lsb ≤ e then (m * 2 ^ (e - lsb).toNat, false)
  else
    let sh := (lsb - e).toNat
    let d := m / 2 ^ sh
    let rem := m % 2 ^ sh
    let up :=
      match mode with
      | .rne => decide (2 ^ sh < 2 * rem) || (decide (2 ^ sh = 2 * rem) && d % 2 == 1)
      | .rtz => false
      | .rup => !neg && rem != 0
      | .rdn => neg && rem != 0
      | .stoch => decide (2 ^ 24 ≤ rem * 2 ^ 24 / 2 ^ sh + draw)
    (if up then d + 1 else d, rem != 0)

end Sys2Proof.Machine
end

