-- ==== Sys2Proof/Machine/Operands.lean ====
section
/-! DEFINITION. Operand forms: the number formats (R29–R37), block scales (R38–R41), the ingot (R42–R51),
conversions (R58, R59) and the exact arithmetic the matrix engine and the vector unit round from (R60). -/

namespace Sys2Proof.Machine

open Sys2Proof

/-- Format codes (R29). -/
inductive Fmt where
  | fp64 | fp32 | fp16 | bf16 | e4m3 | e5m2 | e3m2 | e2m1 | int8 | int4 | ingot
  deriving DecidableEq, Repr

/-- FMT codes 0x0–0xA; 0xB–0xF are reserved (R29, R30). -/
def Fmt.ofCode : Nat → Option Fmt
  | 0 => some .fp64 | 1 => some .fp32 | 2 => some .fp16 | 3 => some .bf16 | 4 => some .e4m3 | 5 => some .e5m2
  | 6 => some .e3m2 | 7 => some .e2m1 | 8 => some .int8 | 9 => some .int4 | 10 => some .ingot | _ => none

/-- Bits of one element (R31, R36, R42). -/
def Fmt.width : Fmt → Nat
  | .fp64 => 64 | .fp32 => 32 | .fp16 => 16 | .bf16 => 16 | .e4m3 => 8 | .e5m2 => 8 | .e3m2 => 6 | .e2m1 => 4
  | .int8 => 8 | .int4 => 4 | .ingot => 768

/-- Fraction bits (R31). -/
def Fmt.frac : Fmt → Nat
  | .fp64 => 52 | .fp32 => 23 | .fp16 => 10 | .bf16 => 7 | .e4m3 => 3 | .e5m2 => 2 | .e3m2 => 2 | .e2m1 => 1
  | _ => 0

/-- Exponent bias (R31). -/
def Fmt.bias : Fmt → Nat
  | .fp64 => 1023 | .fp32 => 127 | .fp16 => 15 | .bf16 => 127 | .e4m3 => 7 | .e5m2 => 15 | .e3m2 => 3 | .e2m1 => 1
  | _ => 0

/-- Formats that reserve the all-ones exponent for infinities and NaNs (R32). -/
def Fmt.hasInf : Fmt → Bool
  | .fp64 | .fp32 | .fp16 | .bf16 | .e5m2 => true
  | _ => false

/-- Formats with a NaN (R32). -/
def Fmt.hasNan (f : Fmt) : Bool := f.hasInf || f = .e4m3

/-- The integer formats (R36). -/
def Fmt.isInt : Fmt → Bool
  | .int8 | .int4 => true
  | _ => false

/-- The wide class (R29). -/
def Fmt.wide : Fmt → Bool
  | .fp64 | .fp32 => true
  | _ => false

/-- The short class (R29). -/
def Fmt.short (f : Fmt) : Bool := !f.wide && f ≠ .ingot

/-- Canonical NaN code (R34). -/
def Fmt.nan : Fmt → Nat
  | .fp64 => 0x7FF8000000000000 | .fp32 => 0x7FC00000 | .fp16 => 0x7E00 | .bf16 => 0x7FC0 | .e4m3 => 0x7F
  | .e5m2 => 0x7E | _ => 0

/-- Largest finite magnitude as a significand and a power of two (R31). -/
def Fmt.maxFinite : Fmt → Nat × Int
  | .fp64 => (2 ^ 53 - 1, 971) | .fp32 => (2 ^ 24 - 1, 104) | .fp16 => (2 ^ 11 - 1, 5) | .bf16 => (2 ^ 8 - 1, 120)
  | .e4m3 => (14, 5) | .e5m2 => (7, 13) | .e3m2 => (7, 2) | .e2m1 => (3, 1) | .int8 => (127, 0) | .int4 => (7, 0)
  | .ingot => (0, 0)

/-- A format specifier (R29). -/
structure FSpec where
  fmt : Fmt
  scaled : Bool
  sat : Bool
  deriving DecidableEq, Repr

/-- The specifier in a byte; none where its check fails (R30). -/
def FSpec.ofByte (b : Nat) : Option FSpec :=
  match Fmt.ofCode (bitsOf b 3 0) with
  | none => none
  | some f =>
    let sc := bitsOf b 4 4 == 1
    if bitsOf b 7 6 ≠ 0 || (sc && !(4 ≤ bitsOf b 3 0 && bitsOf b 3 0 ≤ 7)) then none
    else some ⟨f, sc, bitsOf b 5 5 == 1⟩

/-- A value: (−1)^neg × m × 2^e, an infinity, or a NaN. -/
inductive FVal where
  | fin (neg : Bool) (m : Nat) (e : Int)
  | inf (neg : Bool)
  | qnan
  | snan
  deriving DecidableEq, Repr

/-- The value of a code (R31, R32, R34, R36). -/
def Fmt.decode (f : Fmt) (code : Nat) : FVal :=
  match f with
  | .ingot => .qnan
  | .int8 | .int4 =>
    let v := signedOf f.width code
    .fin (decide (v < 0)) v.natAbs 0
  | _ =>
    let w := f.width
    let neg := bitsOf code (w - 1) (w - 1) == 1
    let fr := code % 2 ^ f.frac
    let ex := bitsOf code (w - 2) f.frac
    let ones := 2 ^ (w - 1 - f.frac) - 1
    if f = .e4m3 && ex == ones && fr == 7 then .qnan
    else if f.hasInf && ex == ones then
      if fr = 0 then .inf neg else if bitsOf fr (f.frac - 1) (f.frac - 1) = 1 then .qnan else .snan
    else if ex = 0 then .fin neg fr (1 - f.bias - f.frac)
    else .fin neg (2 ^ f.frac + fr) (ex - f.bias - f.frac)

/-- Position of the leading set bit of m × 2^e (R45). -/
def leadExp (m : Nat) (e : Int) : Int := m.log2 + e

/-- m1 × 2^e1 exceeds m2 × 2^e2. -/
def magGt (m1 : Nat) (e1 : Int) (m2 : Nat) (e2 : Int) : Bool :=
  if e1 ≤ e2 then decide (m2 * 2 ^ (e2 - e1).toNat < m1) else decide (m2 < m1 * 2 ^ (e1 - e2).toNat)

/-- The sign bit of a code. -/
def Fmt.signBit (f : Fmt) (neg : Bool) : Nat := if neg then 2 ^ (f.width - 1) else 0

/-- The code of a nonzero magnitude q × 2^lsb that the format represents as a normal number. -/
def Fmt.encNormal (f : Fmt) (q : Nat) (lsb : Int) : Nat :=
  let (q, lsb) := if 2 ^ (f.frac + 1) ≤ q then (q / 2, lsb + 1) else (q, lsb)
  (lsb + f.frac + f.bias).toNat * 2 ^ f.frac + (q - 2 ^ f.frac)

/-- Code of the largest finite magnitude. -/
def Fmt.maxCode (f : Fmt) : Nat := f.encNormal f.maxFinite.1 f.maxFinite.2

/-- Code of +∞ (R34). -/
def Fmt.infCode (f : Fmt) : Nat := (2 ^ (f.width - 1 - f.frac) - 1) * 2 ^ f.frac

/-- Overflow of a finite result (R54). -/
def Fmt.overflowCode (f : Fmt) (sat : Bool) (mode : RMode) (neg : Bool) : Nat × FFlags :=
  if sat || !f.hasInf then
    (f.signBit neg + f.maxCode, FFlags.overflow ||| FFlags.inexact ||| FFlags.saturated)
  else
    let toMax := match mode with
      | .rne | .stoch => false | .rtz => true | .rup => neg | .rdn => !neg
    (f.signBit neg + (if toMax then f.maxCode else f.infCode), FFlags.overflow ||| FFlags.inexact)

/-- Round a nonzero magnitude into a floating-point format (R53, R54); with `block` set, the saturation of a
block-scale conversion (R41 step 5) stands in for overflow. -/
def Fmt.roundFloat (f : Fmt) (sat block : Bool) (mode : RMode) (draw : Nat) (neg : Bool) (m : Nat) (e : Int) :
    Nat × FFlags :=
  let lsb := leadExp m e - f.frac
  let (q, inex) := roundMag mode neg draw m e lsb
  let emin : Int := 1 - f.bias
  if magGt q lsb f.maxFinite.1 f.maxFinite.2 then
    if block then (f.signBit neg + f.maxCode, FFlags.saturated ||| FFlags.inexact)
    else f.overflowCode sat mode neg
  else if magGt 1 emin q lsb then
    let (q, inex) := roundMag mode neg draw m e (emin - f.frac)
    (f.signBit neg + q, FFlags.when inex (FFlags.underflow ||| FFlags.inexact))
  else (f.signBit neg + f.encNormal q lsb, FFlags.when inex FFlags.inexact)

/-- Round a magnitude to an integer format (R58). -/
def Fmt.roundInt (f : Fmt) (mode : RMode) (draw : Nat) (neg : Bool) (m : Nat) (e : Int) : Nat × FFlags :=
  let (q, inex) := roundMag mode neg draw m e 0
  let lim := if neg then f.maxFinite.1 + 1 else f.maxFinite.1
  if lim < q then (toTwos f.width (if neg then -(lim : Int) else lim), FFlags.invalid ||| FFlags.saturated)
  else (toTwos f.width (if neg then -(q : Int) else q), FFlags.when inex FFlags.inexact)

/-- Convert a value into a storage format (R58, R59). -/
def FSpec.convert (t : FSpec) (mode : RMode) (draw : Nat) (v : FVal) : Nat × FFlags :=
  let f := t.fmt
  match v with
  | .qnan => if f.hasNan then (f.nan, 0) else (0, FFlags.invalid)
  | .snan => (if f.hasNan then f.nan else 0, FFlags.invalid)
  | .inf neg =>
    if f.isInt then
      (toTwos f.width (if neg then -((f.maxFinite.1 : Int) + 1) else f.maxFinite.1), FFlags.invalid ||| FFlags.saturated)
    else if f.hasInf && !t.sat then (f.signBit neg + f.infCode, 0)
    else (f.signBit neg + f.maxCode, FFlags.saturated)
  | .fin neg m e =>
    if m = 0 then (if f.isInt then 0 else f.signBit neg, 0)
    else if f.isInt then f.roundInt mode draw neg m e
    else f.roundFloat t.sat false mode draw neg m e

/-! ## Exact arithmetic -/

/-- Signed significand at a power of two not above either operand's. -/
def alignAt (neg : Bool) (m : Nat) (e lsb : Int) : Int :=
  let v : Int := (m * 2 ^ (e - lsb).toNat : Nat)
  if neg then -v else v

/-- A value from a signed count of steps; a zero takes the sign given. -/
def FVal.ofInt (zneg : Bool) (v : Int) (e : Int) : FVal := .fin (if v = 0 then zneg else decide (v < 0)) v.natAbs e

/-- Negation (R35). -/
def FVal.neg : FVal → FVal
  | .fin n m e => .fin (!n) m e | .inf n => .inf (!n) | v => v

/-- The exact sum; an exact zero of operands of unlike sign is +0, or −0 toward −∞ (R60). ∞ − ∞ is invalid. -/
def FVal.add (mode : RMode) : FVal → FVal → FVal
  | .snan, _ => .snan | _, .snan => .snan
  | .qnan, _ => .qnan | _, .qnan => .qnan
  | .inf a, .inf b => if a = b then .inf a else .snan
  | .inf a, _ => .inf a | _, .inf b => .inf b
  | .fin a m e, .fin b n f =>
    let lsb := min e f
    FVal.ofInt (if a = b then a else mode = .rdn) (alignAt a m e lsb + alignAt b n f lsb) lsb

/-- The exact product; 0 × ∞ is invalid (R47, R60). -/
def FVal.mul : FVal → FVal → FVal
  | .snan, _ => .snan | _, .snan => .snan
  | .qnan, _ => .qnan | _, .qnan => .qnan
  | .inf a, .inf b => .inf (a != b)
  | .inf a, .fin b m _ => if m = 0 then .snan else .inf (a != b)
  | .fin a m _, .inf b => if m = 0 then .snan else .inf (a != b)
  | .fin a m e, .fin b n f => .fin (a != b) (m * n) (e + f)

/-- The quotient, with a sticky bit below every bit a rounding looks at, and whether it divided by zero (R60, R61). -/
def FVal.div : FVal → FVal → FVal × Bool
  | .snan, _ => (.snan, false) | _, .snan => (.snan, false)
  | .qnan, _ => (.qnan, false) | _, .qnan => (.qnan, false)
  | .inf _, .inf _ => (.snan, false)
  | .inf a, .fin b _ _ => (.inf (a != b), false)
  | .fin a _ _, .inf b => (.fin (a != b) 0 0, false)
  | .fin a m e, .fin b n f =>
    if n = 0 then (if m = 0 then (.snan, false) else (.inf (a != b), true))
    else
      let k := n.log2 + 160
      let q := m * 2 ^ k / n
      (.fin (a != b) (2 * q + (if m * 2 ^ k % n = 0 then 0 else 1)) (e - f - k - 1), false)

/-- The square root, with a sticky bit; of a negative nonzero value it is invalid (R60). -/
def FVal.sqrt : FVal → FVal
  | .snan => .snan | .qnan => .qnan
  | .inf n => if n then .snan else .inf false
  | .fin n m e =>
    if m = 0 then .fin n 0 e
    else if n then .snan
    else
      let e2 := if e % 2 = 0 then e - 320 else e - 321
      let r := m * 2 ^ (e - e2).toNat
      let q := r.sqrt
      .fin false (2 * q + (if q * q = r then 0 else 1)) (e2 / 2 - 1)

/-! ## Block scales (R38–R41) -/

/-- The power of two of a scale byte; none stands for NAN (R39). -/
def scaleExp (b : Nat) : Option Int := if 0x0F ≤ b && b ≤ 0xEF then some ((b : Int) - 127) else none

/-- Flags of reading a block with this scale (R40). -/
def scaleFlags (b : Nat) : FFlags :=
  if 0x0F ≤ b && b ≤ 0xEF then 0
  else if b = 0xFF then FFlags.scaleNan else FFlags.scaleNan ||| FFlags.invalid

/-- The value of a scaled element (R39). -/
def FVal.scale (v : FVal) (b : Nat) : FVal :=
  match scaleExp b with
  | none => .qnan
  | some k => match v with
    | .fin n m e => .fin n m (e + k)
    | v => v

/-- e_max of the scaled formats (R41). -/
def Fmt.scaleEmax : Fmt → Int
  | .e4m3 => 8 | .e5m2 => 15 | .e3m2 => 4 | _ => 2

/-- Largest of ⌊log2 |x|⌋ over nonzero finite values. -/
def maxLead (vs : List FVal) : Option Int :=
  vs.foldl (fun acc v => match v with
    | .fin _ m e => if m = 0 then acc else match acc with
      | none => some (leadExp m e) | some a => some (max a (leadExp m e))
    | _ => acc) none

/-- Convert a block of values into a scaled destination: scale byte, element codes and flags (R41). `draw` gives the
draw of element i of the block. -/
def Fmt.blockConvert (f : Fmt) (mode : RMode) (draw : Nat → Nat) (vs : List FVal) : Nat × List Nat × FFlags :=
  if vs.any (fun v => match v with | .fin .. => false | _ => true) then
    (0xFF, vs.map (fun _ => 0), FFlags.invalid ||| FFlags.scaleNan)
  else match maxLead vs with
    | none => (0x7F, vs.map (fun v => match v with | .fin n _ _ => f.signBit n | _ => 0), 0)
    | some l =>
      let s := max (-112) (min 112 (l - f.scaleEmax))
      let rs := vs.zipIdx.map (fun (v, i) => match v with
        | .fin n m e => if m = 0 then (f.signBit n, (0 : FFlags)) else f.roundFloat false true mode (draw i) n m (e - s)
        | _ => (0, 0))
      ((s + 127).toNat, rs.map Prod.fst, rs.foldl (fun a r => a ||| r.2) 0)

/-! ## The ingot (R42–R51) -/

/-- An ingot record (R42). -/
structure Ingot where
  acc : BitVec 576
  anchor : BitVec 16
  flags : BitVec 16
  terms : Nat
  deriving DecidableEq, Repr

/-- ANCHOR NONE (R42). -/
def anchorNone : BitVec 16 := 0x8000

abbrev Ingot.fNan : BitVec 16 := 0x0001
abbrev Ingot.fPinf : BitVec 16 := 0x0002
abbrev Ingot.fNinf : BitVec 16 := 0x0004
abbrev Ingot.fWide : BitVec 16 := 0x0008
abbrev Ingot.fOvf : BitVec 16 := 0x0010
abbrev Ingot.fInvalid : BitVec 16 := 0x0020

/-- An empty ingot at an anchor. -/
def Ingot.empty (a : BitVec 16) : Ingot := ⟨0, a, 0, 0⟩

/-- Read a stored record: FLAGS [15:6] and bytes 82–95 are ignored, ANCHOR NONE reads ACC as 0 (R42, R43). -/
def Ingot.ofBytes (b : List Byte) : Ingot :=
  let w := leNat b
  let a := BitVec.ofNat 16 (bitsOf w 591 576)
  ⟨if a = anchorNone then 0 else BitVec.ofNat 576 w, a, BitVec.ofNat 16 (bitsOf w 597 592), bitsOf w 655 608⟩

/-- The 96 bytes of a record (R42). -/
def Ingot.toBytes (i : Ingot) : List Byte :=
  leBytes 96 (i.acc.toNat + i.anchor.toNat * 2 ^ 576 + i.flags.toNat * 2 ^ 592 + i.terms * 2 ^ 608)

/-- An ingot flag is set. -/
def Ingot.has (i : Ingot) (f : BitVec 16) : Bool := i.flags &&& f != 0

/-- TERMS saturates, and OVF sets when it passes 2^40 (R42, R50). -/
def Ingot.count (i : Ingot) (n : Nat) : Ingot :=
  let t := min (i.terms + n) (2 ^ 48 - 1)
  { i with terms := t, flags := if 2 ^ 40 < t then i.flags ||| Ingot.fOvf else i.flags }

/-- The signed maximum of two anchors, NONE lowest (R117). -/
def anchorMax (a b : BitVec 16) : BitVec 16 := if a.toInt < b.toInt then b else a

/-- Round a signed count of 2^e to a multiple of 2^lsb: nearest, ties to even, sign kept (R46). Also whether nonzero
bits were lost. -/
def roundTerm (v : Int) (e lsb : Int) : Int × Bool :=
  let (q, inex) := roundMag .rne false 0 v.natAbs e lsb
  (if v < 0 then -(q : Int) else q, inex)

/-- Add a term to an ingot of its anchor (R46, R47); with whether it was rounded below the window. -/
def Ingot.addTerm (i : Ingot) (v : FVal) : Ingot × Bool :=
  let i := i.count 1
  match v with
  | .qnan => ({ i with flags := i.flags ||| Ingot.fNan }, false)
  | .snan => ({ i with flags := i.flags ||| Ingot.fNan ||| Ingot.fInvalid }, false)
  | .inf n => ({ i with flags := i.flags ||| (if n then Ingot.fNinf else Ingot.fPinf) }, false)
  | .fin n m e =>
    if m = 0 then (i, false) else
    let (q, wide) := roundTerm (if n then -(m : Int) else m) e (i.anchor.toInt - 512)
    ({ i with acc := i.acc + BitVec.ofInt 576 q,
              flags := if wide then i.flags ||| Ingot.fWide else i.flags }, wide)

/-- Add two ingots of one anchor, or one of ANCHOR NONE (R48). -/
def Ingot.addSame (a b : Ingot) : Ingot :=
  Ingot.count ⟨a.acc + b.acc, if a.anchor = anchorNone then b.anchor else a.anchor, a.flags ||| b.flags, a.terms⟩
    b.terms

/-- Move an ingot up to a larger anchor: shifted-out bits are rounded as one term (R49). -/
def Ingot.shiftTo (i : Ingot) (a : BitVec 16) : Ingot × Bool :=
  if i.anchor = anchorNone then ({ i with anchor := a }, false) else
  let (q, wide) := roundTerm i.acc.toInt 0 (a.toInt - i.anchor.toInt)
  ({ i with acc := BitVec.ofInt 576 q, anchor := a,
            flags := if wide then i.flags ||| Ingot.fWide else i.flags }, wide)

/-- Add two ingots of any anchors (R49); with whether a nonzero bit was lost. -/
def Ingot.addAny (a b : Ingot) : Ingot × Bool :=
  if a.anchor = b.anchor || a.anchor = anchorNone || b.anchor = anchorNone then (a.addSame b, false)
  else if a.anchor.toInt < b.anchor.toInt then
    let (a', w) := a.shiftTo b.anchor
    (a'.addSame b, w)
  else
    let (b', w) := b.shiftTo a.anchor
    (a.addSame b', w)

/-- Convert an ingot into a storage format (R51). INGOT_OVF of R61 rises with an ingot whose OVF is set, a stored record that came
with it set included: the model's choice, for R61's table speaks of an ingot of the task that set OVF (DESIGN CHOICE:
notes/assumptions/52.md). -/
def Ingot.convert (i : Ingot) (t : FSpec) (mode : RMode) (draw : Nat) : Nat × FFlags :=
  let both := i.has Ingot.fPinf && i.has Ingot.fNinf
  let ovf := FFlags.when (i.has Ingot.fOvf) FFlags.ingotOvf
  if i.has Ingot.fOvf || i.has Ingot.fNan || both then
    (if t.fmt.hasNan then t.fmt.nan else 0,
      ovf ||| FFlags.when (i.has Ingot.fOvf || both || i.has Ingot.fInvalid || !t.fmt.hasNan) FFlags.invalid)
  else if i.has Ingot.fPinf then t.convert mode draw (.inf false)
  else if i.has Ingot.fNinf then t.convert mode draw (.inf true)
  else if i.acc = 0 || i.anchor = anchorNone then t.convert mode draw (.fin (mode = .rdn) 0 0)
  else t.convert mode draw (.fin (decide (i.acc.toInt < 0)) i.acc.toInt.natAbs (i.anchor.toInt - 512))

/-- The value of an ingot as one exact value, for an accumulator of the vector unit (R43, R51). -/
def Ingot.value (i : Ingot) : FVal :=
  if i.has Ingot.fOvf || i.has Ingot.fNan || (i.has Ingot.fPinf && i.has Ingot.fNinf) then
    (if i.has Ingot.fInvalid then .snan else .qnan)
  else if i.has Ingot.fPinf then .inf false
  else if i.has Ingot.fNinf then .inf true
  else .fin (decide (i.acc.toInt < 0)) i.acc.toInt.natAbs (i.anchor.toInt - 512)

/-- Term exponent of a single value; none for zeros, infinities and NaNs (R45). -/
def termExp1 : FVal → Option Int
  | .fin _ m e => if m = 0 then none else some (leadExp m e + 1)
  | _ => none

/-- Term exponent of a product (R45). -/
def termExp2 : FVal → FVal → Option Int
  | .fin _ m e, .fin _ n f => if m = 0 || n = 0 then none else some (leadExp m e + leadExp n f + 2)
  | _, _ => none

/-- A term exponent as an anchor contribution (R117). -/
def anchorOf : Option Int → BitVec 16
  | none => anchorNone
  | some e => BitVec.ofInt 16 e

/-- The short anchor (R44). -/
def shortAnchor : BitVec 16 := 246

/-- FP32 addition with RNE, as fast modes add (R128, R129). -/
def fp32Add (a b : Nat) : Nat × FFlags :=
  let v := FVal.add .rne (Fmt.fp32.decode a) (Fmt.fp32.decode b)
  FSpec.convert ⟨.fp32, false, false⟩ .rne 0 v

/-! ## Packing (R37) -/

/-- The code of element i of an operand at a byte address. -/
def readElem (m : Map Byte) (f : Fmt) (base i : Nat) : Nat :=
  match f with
  | .e2m1 | .int4 => bitsOf (m.getD (base + i / 2) 0).toNat (4 * (i % 2) + 3) (4 * (i % 2))
  | .e3m2 => bitsOf (m.readLE (base + 3 * (i / 4)) 3) (6 * (i % 4) + 5) (6 * (i % 4))
  | _ => m.readLE (base + i * (f.width / 8)) (f.width / 8)

/-- A number with the bits [hi:lo] replaced. -/
def setNat (w hi lo v : Nat) : Nat := w - bitsOf w hi lo * 2 ^ lo + v % 2 ^ (hi + 1 - lo) * 2 ^ lo

/-- Write the code of element i of an operand at a byte address. -/
def writeElem (m : Map Byte) (f : Fmt) (base i code : Nat) : Map Byte :=
  match f with
  | .e2m1 | .int4 =>
    m.writeLE (base + i / 2) 1 (setNat (m.getD (base + i / 2) 0).toNat (4 * (i % 2) + 3) (4 * (i % 2)) code)
  | .e3m2 =>
    let a := base + 3 * (i / 4)
    m.writeLE a 3 (setNat (m.readLE a 3) (6 * (i % 4) + 5) (6 * (i % 4)) code)
  | _ => m.writeLE (base + i * (f.width / 8)) (f.width / 8) code

/-- Bytes that n elements take (R37). -/
def Fmt.bytes (f : Fmt) (n : Nat) : Nat := (f.width * n + 7) / 8

end Sys2Proof.Machine
end

