-- ==== Sys2Proof/Machine/State.lean ====
section
/-! DEFINITION. The state of the package: every register, queue, table and mode the spec gives it, as plain data. -/

namespace Sys2Proof.Machine

open Sys2Proof

/-- Why a step stops with a fault. No command of this block does: the spec gives every row of its opcode table an
effect, and names a status for every operand it turns away. -/
inductive Fault where
  deriving DecidableEq, Repr

/-- Why a command is refused. -/
inductive Refusal where
  /-- Raised by Dispatch for a row that has no meaning yet; safe: nothing is claimed of it. -/
  | notModelled (mnemonic : String)
  deriving DecidableEq, Repr

/-- What the package sends out: answers to reads, messages, flits, records in host memory. -/
inductive Out where
  /-- The word a register read returned. -/
  | regRead (page off : Nat) (w : Word)
  /-- An MSI-X message: its vector, address and data (R473). -/
  | msix (vector : Nat) (addr data : Nat)
  /-- A sync message: port, and the 64 bytes of each of its SYNC flits, in order (R261, R340). -/
  | sync (port : Nat) (flits : List (List Byte))
  /-- A LINK flit: port and its 64 bytes (R261, R264). -/
  | link (port : Nat) (flit : List Byte)
  /-- A DATA flit: port, number, and its 64 bytes (R261, R262). -/
  | data (port num : Nat) (flit : List Byte)
  /-- The training frames of a port's lanes from here on: bits [199:0] of each lane's (R270). -/
  | training (port : Nat) (heads : List (List Byte))
  /-- A comma group: port, count of its first codeword, and its CWHs (R263). -/
  | comma (port count : Nat) (cwhs : List Nat)
  /-- The 512-UI burst of PRBS13 a port sends on leaving idle or a gap (R275, R282). -/
  | burst (port : Nat)
  /-- Bytes written to host memory: completion records, copies, host commands' data. -/
  | hostWrite (addr : Nat) (data : List Byte)
  /-- Host memory written with zeros: a slot of the host spill area (R217). -/
  | hostZero (addr len : Nat)
  /-- A page copied whole to a slot of the host spill area (R217). -/
  | hostPage (addr page : Nat)
  /-- Bytes of a page in the host spill area are read, in requests of at most `cut` bytes (R218, R452). -/
  | hostRead (addr len cut : Nat)
  /-- A BAR2 read answered with data, or with Completer Abort (R460). -/
  | bar2Read (off : Nat) (data : List Byte)
  | bar2Abort (off : Nat)
  /-- A management message: destination address, MTYPE, MSEQ and content (R501). -/
  | mgmt (dst : Nat) (payload : List Byte)
  /-- Bytes of an I3C private read (R508). -/
  | i3cRead (data : List Byte)
  /-- What a service of the resident microcode returns to a kernel: die, tile, task slot, status and value. -/
  | service (die tile tslot status : Nat) (value : List Byte)
  /-- What READ of a sync object returns to a kernel: the fields of R348's table, in its order, and the record. -/
  | objRead (die tile tslot : Nat) (fields : List Nat) (record : List Byte)
  deriving DecidableEq, Repr

/-! ## Compute tiles (chapter "Compute Tiles") -/

/-- How an attempt ended: status, cause, drove time. -/
structure TaskStop where
  status : Nat
  cause : Nat
  at_ : Nat
  deriving DecidableEq, Repr

/-- An attempt of a task: in a tile's slot, or queued as a retry (R160, R165). -/
structure Task where
  /-- The pool it was taken from. -/
  pool : Nat
  /-- The dispatcher's copy of its 128-byte descriptor (R146, R148). -/
  desc : List Byte
  /-- Attempts made, this one included. -/
  attempts : Nat
  /-- It was taken as one of a pair (R156). -/
  pair : Bool
  /-- STATUS of the partner, once the partner has ended with a status other than DONE (R167). -/
  fate : Option Nat
  /-- The partner has ended. -/
  alone : Bool
  /-- Elapsed drove time of its kernel's first instruction (R164, R373); none before. -/
  start : Option Nat
  /-- Its floating-point flag word (R61). -/
  flags : FFlags
  /-- Its count of terms rounded below a window (R126). -/
  wide : Nat
  /-- Count given by a POST that waits for the task's earlier descriptors, and its pool (R147). -/
  post : Option (Nat × Nat)
  /-- How an attempt of a pair has ended, while its partner's end decides whether both are tried again (R167). -/
  held : Option TaskStop
  deriving DecidableEq, Repr

/-- A matrix operation queued in a half of the engine (R82). -/
structure Mop where
  addr : Nat
  desc : List Byte
  deriving DecidableEq, Repr

/-- The reply to a read packet of a descriptor: its number in the transfer, the destination of its bytes, its status. -/
structure Reply where
  idx : Nat
  dst : Nat
  status : Nat
  data : List Byte
  deriving DecidableEq, Repr

/-- A data-mover descriptor in a slot's queue (R100). -/
structure Dm where
  /-- Its number among the descriptors of the tile: the model's own, by which its packets name it. -/
  id : Nat
  addr : Nat
  desc : List Byte
  /-- It has started: its rows have moved, or its packets have been sent. -/
  started : Bool
  /-- The status it will complete with, and the FENCED count of a multicast (R331). -/
  status : Nat
  fenced : Nat
  /-- It waits for acknowledgements of another package (R100). -/
  remote : Bool
  /-- Read packets of the descriptor answered and written, and the replies that came ahead of their turn: number of the
  packet, status, bytes (R98). -/
  turn : Nat
  got : List Reply
  /-- Status of the row at which a read stopped before its packets were sent: it ends with it when the rows before it have been
  written (R98). -/
  stop : Nat
  deriving DecidableEq, Repr

/-- A kernel in a tile's kernel cache, most recently used first (R78, R79). -/
structure KEntry where
  id : Nat
  size : Nat
  engine : Nat
  stale : Bool
  /-- Task slots whose kernels run on this copy (R79). -/
  users : List Nat
  deriving DecidableEq, Repr

/-- A physical tile. -/
structure Tile where
  /-- Local store; an unlisted byte reads 0 (notes/assumptions/4.md). -/
  ls : Map Byte
  /-- Task slots 0 and 1 (R75). -/
  slot0 : Option Task
  slot1 : Option Task
  /-- Matrix operations of each half, oldest first; a FULL task uses half 0's queue (R82). -/
  mops0 : List Mop
  mops1 : List Mop
  /-- Descriptors of each slot's queue, oldest first (R100). -/
  dms0 : List Dm
  dms1 : List Dm
  /-- Issues stalled on a full queue: a MOP or data-mover descriptor's address, by slot (R82, R100). -/
  stallMop0 : Option Nat
  stallMop1 : Option Nat
  stallDm0 : Option Nat
  stallDm1 : Option Nat
  /-- Number of the next descriptor issued, and the slot whose queue is served next (R95, R100). -/
  dmNext : Nat
  dmTurn : Nat
  /-- Kernel cache, most recently used first (R78). -/
  kcache : List KEntry
  /-- The 32 vector registers of 1,024 bytes, by byte (R93). -/
  vreg : Map Byte
  /-- The tile controller's 32 general registers. -/
  gpr : Map DWord
  /-- Rows with an uncorrectable error not yet retested (R73). -/
  badRows : List Nat
  /-- Elapsed drove time of the last uncorrectable local-store error (R73). -/
  ueAt : Option Nat
  /-- Elapsed drove time of the last residue mismatch (R90). -/
  checkAt : Option Nat
  /-- The island is stopped: a spare, disabled or failed tile (R111). -/
  stopped : Bool
  /-- Search tiers open beside tier 1, and elapsed drove time at which the tile became idle (R152). -/
  tiers : List Nat
  idleAt : Nat
  /-- The configuration the engine is changing to: 0 FULL, 1 SPLIT (R81). -/
  engineTo : Option Nat
  /-- Image version the tile runs: it has switched to the new tile microcode (R525). -/
  newTmc : Bool
  /-- In a droop stretch; the 64 cycles after one run; a frequency change is deferred (R399, R401). -/
  stretching : Bool
  settling : Bool
  deferred : Bool
  /-- DROOP and THERMAL ceilings of the island, MHz (R397). -/
  ceilDroop : Nat
  ceilTherm : Nat
  /-- Elapsed drove time at which a re-margin visit became due at once (R430); a visit is in progress (R428). -/
  visitDue : Option Nat
  visiting : Bool
  /-- Drained by the package itself for an overdue visit (R429). -/
  innerDrain : Bool
  deriving DecidableEq, Repr

/-- A tile as it starts (R74, R113): local store undefined, caches and queues empty. -/
def Tile.init : Tile :=
  { ls := [], slot0 := none, slot1 := none, mops0 := [], mops1 := [], dms0 := [], dms1 := [], stallMop0 := none,
    stallMop1 := none, stallDm0 := none, stallDm1 := none, dmNext := 0, dmTurn := 0, kcache := [], vreg := [], gpr := [], badRows := [],
    ueAt := none, checkAt := none, stopped := false, tiers := [], idleAt := 0, engineTo := none, newTmc := false, stretching := false,
    settling := false, deferred := false, ceilDroop := 2500, ceilTherm := 2500, visitDue := none, visiting := false, innerDrain := false }

/-- A tile failure being handled on a die (R111, R114): oldest first. -/
structure Failing where
  tile : Nat
  slot : Nat
  cause : Nat
  /-- Spare under self-test; none before one is started. -/
  spare : Option Nat
  /-- The spare has passed its self-test and is loading its microcode. -/
  loading : Bool
  deriving DecidableEq, Repr

/-! ## Bay reduction slots (R131) -/

/-- A bay reduction slot. -/
structure BSlot where
  /-- RECORD. -/
  ing : Ingot
  /-- An ARM has acted: ANCHOR_IN reads RECORD.ANCHOR; before it, its reset value. -/
  armed : Bool
  expect : Nat
  arrived : Nat
  state : Nat
  mode : Nat
  status : Nat
  syncObj : Nat
  anchorDecl : BitVec 16
  deriving DecidableEq, Repr

/-- The reset values of R131. -/
def BSlot.init : BSlot :=
  { ing := Ingot.empty 0, armed := false, expect := 0, arrived := 0, state := 0, mode := 0, status := 0,
    syncObj := 0, anchorDecl := anchorNone }

/-- The FP32 accumulator in bytes 0x00–0x03 of RECORD (R131). -/
def BSlot.fp32 (b : BSlot) : Nat := b.ing.acc.toNat % 2 ^ 32

/-- Write the FP32 accumulator. -/
def BSlot.putFp32 (b : BSlot) (v : Nat) : BSlot :=
  { b with ing := { b.ing with acc := BitVec.ofNat 576 (b.ing.acc.toNat / 2 ^ 32 * 2 ^ 32 + v % 2 ^ 32) } }

/-! ## Task pools (chapter "Task Pools and Work Dispatch") -/

/-- A task pool: the entry in force and the counts kept for it. -/
structure Pool where
  /-- The 64-byte entry last read (R142, R143). -/
  entry : List Byte
  /-- 0 DISABLED, 1 ENABLED, 2 ERROR (R171). -/
  state : Nat
  err : Nat
  head : Nat
  tail : Nat
  cqTail : Nat
  cqHead : Nat
  running : Nat
  /-- Attempts queued again, in the order they are to be taken (R165). -/
  retries : List Task
  /-- The head is held under R158. -/
  held : Bool
  /-- GEN of the head's WAIT_OBJ when its wait began (R349). -/
  waitGen : Option Nat
  /-- Flushed tasks whose records wait for room in the completion ring, oldest first: the drove time of the flush and the
  descriptor, none for one that could not be read (R147, R168; notes/assumptions/46.md). -/
  cancelled : List (Nat × Option (List Byte))
  /-- The cluster and die granted last, as cluster × 4 + die (R154). -/
  granted : Nat
  deriving DecidableEq, Repr

/-- A pool at reset. -/
def Pool.init : Pool :=
  { entry := [], state := 0, err := 0, head := 0, tail := 0, cqTail := 0, cqHead := 0, running := 0, retries := [],
    held := false, waitGen := none, cancelled := [], granted := 51 }

/-! ## Package memory and placement (chapters "HBM3E Memory Subsystem" and "Placement Director") -/

/-- State of a page (table of PLACE.Q_STATE.STATE). -/
inductive PageSt where
  | free | loc | moving | spilled | spilledHost | lost | unreachable
  deriving DecidableEq, Repr

/-- Counts in the six requester classes (R211). -/
structure Counts where
  c0 : Nat
  c1 : Nat
  c2 : Nat
  c3 : Nat
  host : Nat
  remote : Nat
  deriving DecidableEq, Repr

def Counts.zero : Counts := ⟨0, 0, 0, 0, 0, 0⟩

/-- Where a page's storage is: a frame, a peer target or a slot of the host area. -/
inductive Place where
  | frame (id : Nat)
  | peer (target : Nat)
  | host (target slot : Nat)
  deriving DecidableEq, Repr

/-- Why a move runs (R212, R208, R193, R195, R215). -/
inductive MoveWhy where
  | migrate | promote | swap | spill | pin | retire | drain
  deriving DecidableEq, Repr

/-- A move in progress (R213). -/
structure Move where
  dest : Place
  why : MoveWhy
  /-- Copy pass running: 1–3; 4 in the hold. -/
  pass : Nat
  /-- Lines marked since their copy, and those that pass 2 or 3 copies. -/
  marked : List Nat
  todo : List Nat
  /-- State the page had before. -/
  was : PageSt
  /-- Its destination is reserved: a peer has granted a guest frame (R213 step 1). -/
  granted : Bool
  /-- Accesses of the hold to a page a target holds or is to hold, in their arrival order: address, bytes to read, bytes written
  (R213 step 4). -/
  held : List (Nat × Nat × List Byte)
  deriving DecidableEq, Repr

/-- The director's record of a page. -/
structure Page where
  st : PageSt
  pin : Nat
  die : Nat
  place : Place
  heat : Counts
  /-- Counts received for the present epoch (R211). -/
  cnt : Counts
  /-- Accesses of the present epoch by remote package (R211). -/
  byFid : Map Nat
  topRem : Nat
  move : Option Move
  /-- Accesses of a guest page through H0 and H1: heat and present epoch (R221). -/
  g0 : Nat
  g1 : Nat
  n0 : Nat
  n1 : Nat
  /-- Status with which the peer that holds the page answers accesses, 0 for OK (R218). -/
  answer : Nat
  deriving DecidableEq, Repr

/-- A page not allocated. -/
def Page.free : Page :=
  { st := .free, pin := 0, die := 0, place := .frame 0, heat := .zero, cnt := .zero, byFid := [], topRem := 0,
    move := none, g0 := 0, g1 := 0, n0 := 0, n1 := 0, answer := 0 }

/-- An entry of a translation cache with its counts since it was sent (R178, R211). -/
structure XEntry where
  cnt : Counts
  byFid : Map Nat
  deriving DecidableEq, Repr

/-- The request running on the PLACE page (R203). -/
structure PlaceReq where
  op : Nat
  page : Nat
  count : Nat
  pin : Nat
  die : Nat
  spillFirst : Bool
  /-- Pages handled so far. -/
  done : Nat
  /-- Status to end with, once known. -/
  status : Option Nat
  /-- REQ_DONE to end with when the status is known. -/
  doneOut : Nat
  /-- ALLOC with SPILL_FIRST: places of the new pages, and pages whose guest frame is asked for (R210, R217). -/
  spots : Map Place
  wait : List Nat
  /-- SET_PIN: the page at hand makes the move its pin demands (R208). -/
  moving : Bool
  /-- It came during a hub controller restart and waits, unchecked, for the firmware (R485). -/
  waiting : Bool
  deriving DecidableEq, Repr

/-- Memory and placement state beside the registers. -/
structure MemSt where
  /-- Package memory by package address, wherever its pages are stored (R200); an unlisted byte reads 0 (R184, R201). -/
  mem : Map Byte
  /-- Guest pages' bytes, by owner and address (R221). -/
  guestMem : Map Byte
  /-- Page records by page number; an unlisted page is FREE. -/
  pages : Map Page
  /-- Guest pages held for other packages, by owner fabric ID × 2^20 + page (R221). -/
  guests : Map Page
  /-- Frames being zeroed, by frame identifier (R207). -/
  zeroing : Map Bool
  /-- Reserve frame in the place of a retired frame (R193). -/
  repl : Map Nat
  /-- Listed lines of the UE tables, by frame identifier × 2^15 + line (R190, R191). -/
  ue : Map Bool
  /-- Elapsed drove time of the last corrected error of a line (R193). -/
  ce : Map Nat
  /-- Lines of a moved or lost frame awaiting retirement (R193). -/
  toRetire : Map Bool
  /-- Elapsed drove times of retrains, by channel (cause LINK). -/
  retrainLog : Map (List Nat)
  /-- Elapsed drove times of command retries within the last second, by channel (cause LINK). -/
  retryLog : Map (List Nat)
  /-- Channels whose start-up training has ended well, ready to be filled (R183). -/
  trained : Map Bool
  /-- Retrains in progress, by channel (R185). -/
  retraining : Map Bool
  /-- Calibration records, by channel (R182, R184). -/
  cal : Map Calib
  /-- Frame whose fault started each drain (R224), and whether the drain is stalled. -/
  drainFirst : Map Nat
  drainStalled : Map Bool
  /-- Translation caches, by cache × 2^20 + page: caches 0–3 of the compute dies, 4 and 5 of the hubs (R178). -/
  xlat : Map XEntry
  /-- Channel that last received a page, by die (R209). -/
  lastChan : Map Nat
  /-- Guest frames last reported free by each peer target (R216). -/
  room : Map Nat
  /-- The request running. -/
  req : Option PlaceReq
  /-- Bytes of moves started in the present epoch (R212). -/
  epochBytes : Nat
  deriving DecidableEq, Repr

def MemSt.reset : MemSt :=
  { mem := [], guestMem := [], pages := [], guests := [], zeroing := [], repl := [], ue := [], ce := [],
    toRetire := [], trained := [], retrainLog := [], retryLog := [], retraining := [], cal := [], drainFirst := [], drainStalled := [],
    xlat := [], lastChan := [], room := [], req := none, epochBytes := 0 }

/-! ## Sync objects (chapter "Synchronisation, Drove Clock and Collectives") -/

/-- A kernel waiting on an object (R349). -/
structure Waiter where
  die : Nat
  tile : Nat
  tslot : Nat
  gen : Nat
  deriving DecidableEq, Repr

/-- A sync object (R344, R346, R353). -/
structure Obj where
  kind : Nat
  scope : Nat
  mode : Nat
  plan : Nat
  msiEn : Bool
  init : Nat
  die : Nat
  slot : Nat
  msiVec : Nat
  anchorDecl : BitVec 16
  timeoutUs : Nat
  resultAddr : Nat
  /-- 0 IDLE, 1 ARMED, 2 ROUNDS, 3 DONE (OBJ_STAT.STATE). -/
  state : Nat
  /-- Semaphore count, or arrivals or contributions of the present generation. -/
  count : Nat
  /-- Arrivals that already count towards the next generation (R351). -/
  next : Nat
  gen : Nat
  status : Nat
  fenced : Nat
  /-- Event SET flag. -/
  isSet : Bool
  /-- Drove times of the first and last arrival of the generation (R366). -/
  first : Option Nat
  last : Option Nat
  /-- Status, FENCED and times gathered for the next generation (R351). -/
  nextStatus : Nat
  nextFenced : Nat
  nextFirst : Option Nat
  nextLast : Option Nat
  skew : Nat
  /-- Fields of the last result record after its RECORD: GEN, STATUS, PHASE, FENCED, END_TIME, SKEW_NS, LOST (R354); none before the
  first generation ends. -/
  result : List Nat
  /-- Rounds that timed out at this package (R365). -/
  lost : Nat
  /-- Reduction phase: 0 BARRIER, 1 ANCHOR, 2 SUM, 3 FP32 (R359). -/
  phase : Nat
  ing : Ingot
  fp32 : Nat
  /-- Round being carried out (R358), and whether its partial has gone. -/
  round : Nat
  sent : Bool
  /-- Elapsed drove time at which the present round began to wait (R365). -/
  roundAt : Nat
  /-- Rounds of the present generation already combined or timed out (R360). -/
  doneRounds : List Nat
  /-- Those of the generation before. -/
  pastRounds : List Nat
  /-- Buffered partials, by generation parity × 16 + round (R360). -/
  buf : Map PartialMsg
  waiters : List Waiter
  deriving DecidableEq, Repr

/-- An object never armed. -/
def Obj.idle : Obj :=
  { kind := 0, scope := 0, mode := 0, plan := 0, msiEn := false, init := 0, die := 0, slot := 0, msiVec := 0,
    anchorDecl := anchorNone, timeoutUs := 0, resultAddr := 0, state := 0, count := 0, next := 0, gen := 0,
    status := 0, fenced := 0, isSet := false, first := none, last := none, nextStatus := 0, nextFenced := 0,
    nextFirst := none, nextLast := none, skew := 0, result := [], lost := 0, phase := 0, ing := Ingot.empty anchorNone, fp32 := 0,
    round := 0, sent := false, roundAt := 0, doneRounds := [], pastRounds := [], buf := [], waiters := [] }

/-! ## Links (chapters "Optical Links and Laser Sparing" and "Fabric Topology") -/

/-- A pen: its committed packets, oldest first, and the flits it holds (R305, R306). -/
structure Pen where
  pkts : List Packet
  used : Nat
  /-- The head has waited ESC_WAIT (R296). -/
  esc : Bool
  /-- Flits freed since the last CREDIT flit (R304). -/
  freed : Nat
  /-- Dimensions whose copy of the multicast packet at the head has left (R329). -/
  gone : List Nat
  deriving DecidableEq, Repr

/-- A DATA flit of the replay buffer (R266). -/
structure TxFlit where
  num : Nat
  body : List Byte
  /-- It is the last flit of its packet. -/
  last : Bool
  deriving DecidableEq, Repr

/-- Kinds of flits (R261). -/
inductive FlitKind where
  | idle | link | data | sync
  deriving DecidableEq, Repr

/-- Codewords of a port (R262, R263). -/
structure Framing where
  /-- Count of the next codeword to send, and of the next to be received. -/
  txCw : Nat
  rxCw : Nat
  /-- CWHs in a row, the last one received included, that begin a comma group; expected groups missed in a row. -/
  run : Nat
  missed : Nat
  /-- Number of the next DATA flit received, and whether it is known. -/
  rxSeq : Nat
  seqKnown : Bool
  /-- The receiver realigns on the next comma group (R283). -/
  realign : Bool
  /-- 0, or 1 plus the codewords lost since a burst, until one has been decoded (R275). -/
  burst : Nat
  /-- Alignment is lost (R263). -/
  lost : Bool
  deriving DecidableEq, Repr

/-- Codewords start. -/
def Framing.init : Framing :=
  { txCw := 0, rxCw := 0, run := 0, missed := 0, rxSeq := 0, seqKnown := true, realign := false, burst := 0, lost := false }

/-- Receive lanes of a port in training (R270, R271). -/
structure Training where
  /-- Bit l set: lane l has finished adapting; lane l is aligned and deskewed. -/
  trained : BitVec 8
  aligned : BitVec 8
  /-- Equaliser values of each lane, and the partner serial they were trained with (R288). -/
  eq : Map Nat
  serial : Nat
  /-- The values the lanes' equalisers stand at; an unlisted lane has its defaults. -/
  cur : Map Nat
  deriving DecidableEq, Repr

/-- What a laser's record holds beside its role (R288): the cause of its FAILED mark, 0 while it has none; its modulator calibration; its
beginning-of-life bias. -/
structure Laser where
  cause : Nat
  cal : Nat
  bol : Nat
  /-- Drove time at which it last carried the link; 0, never (R280). -/
  carried : Nat
  deriving DecidableEq, Repr

/-- A SYNC message that waits at its port for the end of a gap (R339). -/
structure QSync where
  lseq : Nat
  lnak : Bool
  msg : SyncMsg
  deriving DecidableEq, Repr

/-- A numbered sync message not yet acknowledged (R342). -/
structure SentMsg where
  lseq : Nat
  msg : SyncMsg
  deriving DecidableEq, Repr

/-- The last master announcement heard on a port (R370). -/
structure Ann where
  m : MasterMsg
  stale : Bool
  deriving DecidableEq, Repr

/-- State of a port beside its registers. -/
structure LinkSt where
  /-- Step of bring-up, 1–6 (R271); a TEST mode shows it as TEST. -/
  step : Nat
  /-- Status fields of the partner's last training frame. -/
  partner : TrainFrame
  /-- The partner's CAP has come, and an ACK_SEQ has shown that ours was seen (R271). -/
  capRx : Bool
  capAcked : Bool
  /-- Number of the next DATA flit to accept; a NAK for it is out, and how many were sent in a row (R265). -/
  rxNum : Nat
  nakOut : Bool
  naks : Nat
  /-- DATA flits received on each channel since ACTIVE, and the limit last advertised (R303). -/
  rxFlits : Map Nat
  advert : Map Nat
  pens : Map Pen
  /-- Packet being received: its channel, bodies so far, flits to come; flits to drop (R306, R332). -/
  partVc : Nat
  part : List Byte
  partLeft : Nat
  skip : Nat
  /-- Complete packets whose PCRC has not been checked, with their channels. -/
  arrived : List (Nat × List Byte)
  /-- Number of the next new DATA flit; flits kept for replay, oldest first (R266). -/
  txNum : Nat
  replay : List TxFlit
  /-- DATA flits sent on each channel since ACTIVE, and the limits received (R303). -/
  sent : Map Nat
  limit : Map Nat
  /-- Elapsed drove times of uncorrectable codewords within 1 ms, of violations within 1 s, of departures from ADMITTED
  within 1 h (R268, R333, R248). -/
  ueLog : List Nat
  pvLog : List Nat
  flapLog : List Nat
  demoteHold : Bool
  flapHold : Bool
  /-- A valid HELLO has come within the last 4 ms (R246). -/
  heard : Bool
  /-- The last valid HELLO named this package and port (R246 rule 7). -/
  seesUs : Bool
  /-- A valid HELLO has been received on the port (R242). -/
  seen : Bool
  /-- HELLO frames sent on the port (R242). -/
  helloSeq : Nat
  /-- Sync channel: next LSEQ to send, next expected, unacknowledged, waiting for one of the 64 places, ACK due (R342). -/
  sTx : Nat
  sRx : Nat
  sOut : List SentMsg
  sHeld : List SyncMsg
  sDue : Bool
  /-- LNAK goes with the next SYNC flit, since the queue had no room for the ACK that carries it (R339, R342). -/
  sNak : Bool
  /-- Last announcement heard (R370). -/
  ann : Option Ann
  /-- Offsets of the last exchanges, newest first, and exchanges in a row within ±5 ns (R369, R371). -/
  offs : List Int
  /-- Link delay of the last exchange, ns (R369). -/
  delay : Int
  inBand : Nat
  /-- Switch-over: elapsed time of its start, whether a trip began it, whether the standby has claimed (R282). -/
  gapAt : Nat
  gapTrip : Bool
  gapClaimed : Bool
  /-- RETRAIN or TEST written during the gap (R286). -/
  heldRetrain : Bool
  heldTest : Option Nat
  /-- LINK and DATA flits that wait for the end of the gap (R282, R284), the port's queue of sync messages (R339), and a HELLO that
  fell due (R284). -/
  gapQ : List Out
  syncQ : List QSync
  helloDue : Bool
  /-- LINK and DATA flits on their way to the port's own receive path in NES or NEP (R276). -/
  looped : List Out
  /-- No HELLO has come for 4 ms of a far-end loopback (R277). -/
  loopSilent : Bool
  /-- Codewords and comma groups (R262, R263). -/
  fr : Framing
  /-- Receive lanes in training (R270, R271). -/
  tr : Training
  /-- Records of lasers 0 and 1 (R288). -/
  las0 : Laser
  las1 : Laser
  /-- Transit flits sent in the present microsecond (R301). -/
  transit : Nat
  /-- Number of the input pen last granted the port (R302). -/
  turn : Nat
  deriving DecidableEq, Repr

/-- A port at reset. -/
def LinkSt.init : LinkSt :=
  { step := 1, partner := ⟨0, false, false, false, false⟩, capRx := false, capAcked := false, rxNum := 0,
    nakOut := false, naks := 0, rxFlits := [], advert := [], pens := [], partVc := 0, part := [], partLeft := 0,
    skip := 0, arrived := [], txNum := 0, replay := [], sent := [], limit := [], ueLog := [], pvLog := [],
    flapLog := [], demoteHold := false, flapHold := false, heard := false, seesUs := false, seen := false, helloSeq := 0, sTx := 0, sRx := 0,
    sOut := [], sHeld := [], sDue := false, sNak := false, ann := none, offs := [], delay := 0, inBand := 0, gapAt := 0, gapTrip := false,
    gapClaimed := false, heldRetrain := false, heldTest := none, gapQ := [], syncQ := [], helloDue := false, looped := [],
    loopSilent := false, fr := .init, tr := { trained := 0, aligned := 0, eq := [], serial := 0, cur := [] },
    las0 := ⟨0, 0, 0, 0⟩, las1 := ⟨0, 0, 0, 0⟩, transit := 0, turn := 85 }

/-! ## Routing and flows (chapter "Routing, Flow Control and Delivery") -/

/-- Who an operation or message of this package belongs to, and so who its end goes to. -/
inductive Owner where
  /-- A data-mover descriptor of a task slot, by its number. -/
  | dm (die tile tslot id : Nat)
  /-- A read of a data-mover descriptor: the packet's number in the transfer and the destination address of its bytes. -/
  | read (die tile tslot id idx dst : Nat)
  /-- The ATOMIC service of a kernel. -/
  | atomic (die tile tslot : Nat)
  /-- A GUEST request of the placement director, for a page moving to a target. -/
  | guest (page target : Nat)
  /-- An access of this package to a page that a spill target holds, or a copy of a page to or from one (R213, R218). -/
  | spill (page : Nat)
  /-- A herd partial on a detour. -/
  | frag
  deriving DecidableEq, Repr

/-- A request sent and not acknowledged (R314). -/
structure SentPkt where
  pkt : Packet
  tries : Nat
  owner : Owner
  deriving DecidableEq, Repr

/-- A message a sender has open (R320). -/
structure SentMessage where
  msgId : Nat
  owner : Owner
  deriving DecidableEq, Repr

/-- A message a receiver has open (R321). -/
structure OpenMsg where
  msgId : Nat
  count : Nat
  seenLast : Bool
  msgBytes : Nat
  status : Nat
  sig : Bool
  dstSync : Nat
  tryN : Nat
  /-- The highest SEQ of its packets so far. -/
  hi : Nat
  deriving DecidableEq, Repr

/-- A multicast message at its root (R331). -/
structure McastMsg where
  msgId : Nat
  owner : Owner
  pkts : List Packet
  round : Nat
  /-- Positions of the line not yet marked. -/
  left : List Nat
  fenced : Nat
  deriving DecidableEq, Repr

/-- A flow context (R312). -/
structure Flow where
  /-- 0 DISABLED, 1 ENABLED, 2 FAILED, 3 BAD. -/
  state : Nat
  kind : Nat
  winLog : Nat
  retryMax : Nat
  rtoUs : Nat
  peerFid : Nat
  peerCtx : Nat
  replyAddr : Nat
  /-- SEND: next SEQ; RECV: BASE. -/
  next : Nat
  /-- SEND: unacknowledged, oldest first, and beyond the window, oldest first. -/
  out : List SentPkt
  wait : List SentPkt
  msgs : List SentMessage
  nextMsg : Nat
  /-- RECV: SEQs received above BASE. -/
  got : List Nat
  openMsgs : List OpenMsg
  /-- RECV: the last four completed messages, newest first: MSG_ID and status. -/
  done : List (Nat × Nat)
  /-- RECV: packets accepted since the last ACK. -/
  fresh : Nat
  /-- MCAST: messages at the root. -/
  mcast : List McastMsg
  /-- GUEST requests acknowledged whose GUEST_RSP has not come. -/
  asks : List SentPkt
  /-- Messages that wait until fewer than four are open, oldest first (R320). -/
  later : List (Owner × List Packet)
  deriving DecidableEq, Repr

/-- A context never enabled. -/
def Flow.init : Flow :=
  { state := 0, kind := 0, winLog := 0, retryMax := 0, rtoUs := 0, peerFid := 0, peerCtx := 0, replyAddr := 0,
    next := 0, out := [], wait := [], msgs := [], nextMsg := 0, got := [], openMsgs := [], done := [], fresh := 0,
    mcast := [], asks := [], later := [] }

/-- A circuit (R323, R326). -/
structure Ckt where
  failed : Bool
  /-- SOURCE: next SEQ; SINK: NEXT. -/
  next : Nat
  out : List SentPkt
  wait : List SentPkt
  msgs : List SentMessage
  nextMsg : Nat
  gapSent : Bool
  openMsgs : List OpenMsg
  done : List (Nat × Nat)
  fresh : Nat
  deriving DecidableEq, Repr

/-- A circuit with nothing sent or received. -/
def Ckt.init : Ckt :=
  { failed := false, next := 0, out := [], wait := [], msgs := [], nextMsg := 0, gapSent := false, openMsgs := [],
    done := [], fresh := 0 }

/-- A multicast group at a member (R330). -/
structure McGroup where
  openMsgs : List OpenMsg
  /-- Messages completed here, newest first: MSG_ID, status, and the highest SEQ of its packets. -/
  done : List (Nat × Nat × Nat)
  deriving DecidableEq, Repr

/-- Which banks and tables of a router have been written since reset, so that their CRC registers show them (R257, R337). -/
structure TabSeen where
  shadow : Bool
  active : Bool
  ckt : Bool
  mc : Bool
  deriving DecidableEq, Repr

/-- Tables and queues of one router. -/
structure RoutSt where
  /-- Destination tables: active and shadow banks; an unlisted entry is 0 (R236, R240). -/
  dtab : Map Word
  dshadow : Map Word
  /-- The shadow bank differs from the active one because it was loaded or edited; it is undefined after a failed LOAD. -/
  dstaged : Bool
  dundef : Bool
  /-- What DTAB_STAT.BUSY is for: 0 nothing, 1 LOAD, 2 EDIT, 3 bank copy. -/
  dbusy : Nat
  /-- Circuit and multicast tables: active and shadow, by entry; unlisted entries are 0. -/
  ckt : Map Nat
  cktShadow : Map Nat
  mc : Map Nat
  mcShadow : Map Nat
  /-- A shadow of a circuit or multicast table has been read since the last commit. -/
  cktStaged : Bool
  mcStaged : Bool
  /-- Which table XTAB_STAT.BUSY reads: 0 none, 1 circuit, 2 multicast. -/
  xbusy : List Nat
  /-- Packets of this package waiting for the router: requests, replies, circuit packets (R295). -/
  injReq : Pen
  injRsp : Pen
  injCkt : Pen
  /-- Port last granted (R295). -/
  rot : Nat
  /-- Which CRC registers show a bank or table (R257, R337). -/
  crcs : TabSeen
  deriving DecidableEq, Repr

/-- An empty pen. -/
def Pen.empty : Pen := ⟨[], 0, false, 0, []⟩

/-- A router at reset: both banks of entries with VALID 0 (R240). -/
def RoutSt.init : RoutSt :=
  { dtab := [], dshadow := [], dstaged := false, dundef := false, dbusy := 0, ckt := [], cktShadow := [], mc := [],
    mcShadow := [], cktStaged := false, mcStaged := false, xbusy := [], injReq := .empty, injRsp := .empty,
    injCkt := .empty, rot := 15, crcs := ⟨false, false, false, false⟩ }

/-- Routing state of the package. -/
structure NetSt where
  r0 : RoutSt
  r1 : RoutSt
  flows : Map Flow
  ckts : Map Ckt
  groups : Map McGroup
  deriving DecidableEq, Repr

def NetSt.reset : NetSt := { r0 := .init, r1 := .init, flows := [], ckts := [], groups := [] }

/-- An entry of the pace origin table (R381). -/
structure PaceEntry where
  origin : Nat
  oseq : Nat
  mhz : Nat
  deriving DecidableEq, Repr

/-- The drove clock's election and the pace level (R370–R372, R380, R381). -/
structure ClockSt where
  /-- No LOCKED announcement has been heard for 1 ms. -/
  quiet : Bool
  /-- MSEQ of the last announcement sent as master. -/
  mseq : Nat
  /-- The package's own lead, ns. -/
  lead : Nat
  /-- The master followed; none when there is none. -/
  master : Option Nat
  pace : List PaceEntry
  oseq : Nat
  deriving DecidableEq, Repr

def ClockSt.reset : ClockSt := { quiet := false, mseq := 0, lead := 0, master := none, pace := [], oseq := 0 }

/-! ## Power, cooling and ageing (chapters "Power Input, Caps and Droop Control", "Thermal Sensing, Cooling and Ageing") -/

/-- A hot spot and its two sensors (R411, R412); temperatures in 1/8 °C. -/
structure Spot where
  /-- Last accepted samples. -/
  lastA : Option Int
  lastB : Option Int
  /-- Discarded samples in a row. -/
  jumpA : Nat
  jumpB : Nat
  failA : Bool
  failB : Bool
  /-- A disagreement episode runs, and samples in a row within 3 °C. -/
  disagree : Bool
  calm : Nat
  /-- Common drift is in force; samples in a row below and near the model. -/
  drift : Bool
  low : Nat
  near : Nat
  /-- Control temperature and forecast. -/
  tctl : Int
  fore : Int
  /-- Samples since the THERMAL ceiling last rose. -/
  rise : Nat
  /-- The samples of the last 50 ms, newest first: A, B, and the estimated power of the block in 1/1000 of its maximum (R411). -/
  hist : List (Int × Int × Nat)
  /-- The last samples in a row of A and of B from 115 °C to 150 °C (R416). -/
  hotA : Nat
  hotB : Nat
  deriving DecidableEq, Repr

def Spot.init : Spot :=
  { lastA := none, lastB := none, jumpA := 0, jumpB := 0, failA := false, failB := false, disagree := false, calm := 0,
    drift := false, low := 0, near := 0, tctl := 0, fore := 0, rise := 5, hist := [], hotA := 0, hotB := 0 }

/-- The record of thermal cycles of a die (R426). -/
structure Cycles where
  /-- The extreme the record has reached, none before the first sample, and whether it rises, none before the first move. -/
  ext : Option Int
  up : Option Bool
  /-- Reversals not yet counted, newest first; the last is the start. -/
  turns : List Int
  /-- Milliseconds above 95 °C. -/
  hotMs : Nat
  deriving DecidableEq, Repr

def Cycles.init : Cycles := { ext := none, up := none, turns := [], hotMs := 0 }

/-- An island's margin table (R427): lowest voltages in 2.5 mV steps at the eight points, the control temperature in
1/8 °C and the elapsed drove time of the visit. -/
structure Margin where
  table : List Nat
  temp : Int
  at_ : Nat
  /-- Ring oscillator count of the visit (R428). -/
  ring : Nat
  deriving DecidableEq, Repr

/-- Power control beside the registers. -/
structure PwrSt where
  /-- Samples of input power, one a microsecond, newest first, in 0.1 mW (R389). -/
  samples : List Nat
  /-- The peak limiter (R394): engaged, its ceiling, samples in a row below 2,700 W. -/
  peakOn : Bool
  peakCeil : Nat
  peakLow : Nat
  /-- A further change reaches the hub power controller in the present cycle: C is resolved with that (R393). -/
  capWait : Bool
  /-- OC_ALERT_N (R388): asserted; samples in a row above 80 A and below 75 A. -/
  ocAlert : Bool
  ocHigh : Nat
  ocLow : Nat
  /-- Samples in a row with every ceiling at 400 MHz, and with the 1 ms average 5 % below C (R396). -/
  floorFor : Nat
  holdLow : Nat
  /-- BUDGET ceilings by die × 13 + cluster; an unlisted one is 2,500 MHz (R403). -/
  budget : Map Nat
  /-- Learned PWR and SCALE by die × 256 + phase (R402). -/
  phases : Map (Nat × Nat)
  /-- Tile rails in 2.5 mV steps by die × 13 + cluster, an unlisted one at 750 mV; rails allowed to fall (R391). -/
  rails : Map Nat
  railFall : Map Bool
  /-- Hot spots (R409). -/
  spots : Map Spot
  /-- SEQ of the last valid coolant report (R418). -/
  coolSeq : Option Nat
  /-- Elapsed times of the last valid report, and of the last one that gives a flow in use and so counts for R421. -/
  coolAt : Option Nat
  flowAt : Option Nat
  /-- Valid reports in a row with no floor condition and the elapsed time of the first; elapsed time and flow of those of the
  last 100 ms; CAP_FLOW rises by 100 W a report (R420, R422, R423). -/
  coolRun : Nat
  coolSince : Nat
  coolFlows : List (Nat × Nat)
  flowRamp : Bool
  /-- Inlet and outlet of the last valid report, 0.01 °C, where known; its flow where known. -/
  inlet : Option Int
  outlet : Option Int
  flow : Option Nat
  /-- Elapsed time since which ΔT has stayed above, or within, the bounds of R423. -/
  overSince : Option Nat
  okSince : Option Nat
  /-- Milliseconds of the present 10 for a rise of the thermal cap (R415). -/
  capMs : Nat
  /-- Elapsed times of start-up and of the last ends of a floor and of a CAP_HOLD (R424). -/
  quietAt : Nat
  /-- Entries of the phase plan in force (R425). -/
  plan : List Nat
  /-- Thermal cycles, by die 0–5. -/
  cycles : Map Cycles
  /-- Elapsed time at which a task last ended on a die (R428). -/
  ranAt : Map Nat
  /-- Margin tables by die × 104 + tile; unlisted: fused at test plus 20 mV (R432). -/
  margins : Map Margin
  /-- Islands, by die × 104 + tile, whose start-up visit has not been made (R428). -/
  toVisit : List Nat
  /-- Elapsed time of the last change of C, and of its last reduction (R394). -/
  capAt : Nat
  cutAt : Option Nat
  /-- Present mean PWR of a die, mW, as last estimated (R402). -/
  meanPwr : Map Nat
  deriving DecidableEq, Repr

def PwrSt.reset : PwrSt :=
  { samples := [], peakOn := false, peakCeil := 2500, peakLow := 0, capWait := false, ocAlert := false, ocHigh := 0, ocLow := 0,
    floorFor := 0, holdLow := 0, budget := [], phases := [], rails := [], railFall := [], spots := [], coolSeq := none, coolAt := none, flowAt := none,
    coolRun := 0, coolSince := 0, coolFlows := [], flowRamp := true, inlet := none, outlet := none, flow := none,
    overSince := none, okSince := none, capMs := 0, quietAt := 0, plan := [], cycles := [], ranAt := [], margins := [], toVisit := [],
    capAt := 0, cutAt := none, meanPwr := [] }

/-- A pending commit (R376–R378, R559, R560). -/
structure Commit where
  unit : UnitId
  /-- T of an AT commit; NOW commits wait only for a bank copy (R240). -/
  at_ : Nat
  now : Bool
  /-- Its check runs, and as a rerun under R378. -/
  running : Bool
  rerun : Bool
  /-- The delay that ended last (R377), and the drove time reached by a step that passed T. -/
  cause : Nat
  reached : Option Nat
  /-- Units whose commits or commands it has joined (R560). -/
  joined : List UnitId
  deriving DecidableEq, Repr

/-- A host command fetched and not yet completed (R464, R470). -/
structure HostCmd where
  raw : List Byte
  /-- It executes, and its completion is recorded. -/
  fresh : Bool
  /-- It is a duplicate, completed with the recorded completion. -/
  copy : Bool
  /-- STATUS, DETAIL and DONE, and the drove time of its end, once it has ended. -/
  result : Option (Nat × Nat × Nat)
  endAt : Nat
  /-- WAIT_SYNC: GEN of the object when its wait began, and the elapsed time of that. -/
  waitGen : Option Nat
  waitAt : Nat
  /-- Its queue was disabled since it started: its completion is only recorded (R472). -/
  orphan : Bool
  /-- Bytes a COPY or FILL has written so far. -/
  moved : Nat
  deriving DecidableEq, Repr

/-- A host command queue (R462). -/
structure HostQ where
  /-- 0 DISABLED, 1 ENABLED, 2 ERROR, with its cause. -/
  state : Nat
  err : Nat
  /-- Q_SQ_BASE, Q_CQ_BASE and Q_CFG. -/
  sqLo : Word
  sqHi : Word
  cqLo : Word
  cqHi : Word
  cfg : Word
  sqTail : Nat
  sqHead : Nat
  cqTail : Nat
  cqHead : Nat
  /-- HIGH, and the first ID of the series (R470). -/
  high : Nat
  first : Nat
  /-- ENABLE with CLEAN came: the next command starts whatever its ID (R470). -/
  clean : Bool
  run : List HostCmd
  deriving DecidableEq, Repr

/-- A queue at reset. -/
def HostQ.init : HostQ :=
  { state := 0, err := 0, sqLo := 0, sqHi := 0, cqLo := 0, cqHi := 0, cfg := 0x404, sqTail := 0, sqHead := 0,
    cqTail := 0, cqHead := 0, high := 0, first := 1, clean := false, run := [] }

/-- The host connection (chapter "PCI Express Host Interface"). -/
structure HostSt where
  /-- Bus Master Enable (R474). -/
  bme : Bool
  /-- The function is in D3hot (R474). -/
  d3hot : Bool
  /-- Configuration requests are answered with retry status (R475). -/
  crs : Bool
  /-- MSI-X function masking (R473). -/
  fnMask : Bool
  /-- MSI-X table, by word: four words an entry (R473). -/
  msixTab : Map Word
  /-- Pending vectors (R473). -/
  msixPend : Map Bool
  /-- Drove time of the last message of each vector (R473). -/
  msixLast : Map Nat
  /-- Command queues. -/
  queues : Map HostQ
  /-- Queue served last in the rotation of command starts (R464). -/
  turn : Nat
  /-- What the host has set in the configuration space (R452, R456). -/
  cfg : HostCfg
  deriving DecidableEq, Repr

/-- What the host sets in the configuration space as a reset of the function leaves it: payloads of 128 bytes, read requests of 512, the default
timeout range, no BAR address (PRESUMED, of PCI Express: notes/assumptions/57.md). -/
def hostCfgInit : HostCfg := ⟨0, 2, 0, false, 0, 0⟩

/-- The host connection at reset. -/
def HostSt.reset : HostSt :=
  { bme := false, d3hot := false, crs := false, fnMask := false, msixTab := [], msixPend := [], msixLast := [], queues := [], turn := 63,
    cfg := hostCfgInit }

/-- The assay die, and what H0 keeps of its hallmarks (chapter "Assay Die and Energy Hallmarks"). -/
structure AssaySt where
  /-- The die measures; its next hallmark is the first since its start (R440). -/
  running : Bool
  restart : Bool
  /-- The ferroelectric store (R445). -/
  hseq : Nat
  eTotal : Nat
  powerUps : Nat
  /-- Energy below 1 mJ carried into the next interval, pJ (R441). -/
  carry : Nat
  /-- A reference check has failed (R443). -/
  refFail : Bool
  /-- Its copy of drove time and the LOCKED bit, as last received (R439, R446); a jump within the interval, and the drove
  time at the interval's start. -/
  copy : Option Nat
  locked : Bool
  jump : Bool
  base : Option Nat
  /-- The hallmark last sent. -/
  last : Option (List Byte)
  /-- Hallmarks H0 holds, newest first (R450), and those in a row that disagreed with HCTL (R451). -/
  held : List (List Byte)
  odd : Nat
  /-- Elapsed time from which H0 counts the 3 s without a hallmark; none once LINK_LOST is raised (R448). -/
  heard : Option Nat
  deriving DecidableEq, Repr

/-- The assay die as manufactured; it starts with its input (R440). -/
def AssaySt.init : AssaySt :=
  { running := false, restart := false, hseq := 0, eTotal := 0, powerUps := 0, carry := 0, refFail := false, copy := none, locked := false,
    jump := false, base := none, last := none, held := [], odd := 0, heard := some 0 }

/-- The assay die runs on through a reset of H0, which loses the hallmarks it held (R449, R482). -/
def AssaySt.lasting (a : AssaySt) : AssaySt := { a with held := [], odd := 0, heard := some 0 }

/-- Records of a port in the retained store (R288). -/
structure PortKeep where
  eq : Map Nat
  serial : Nat
  las0 : Laser
  las1 : Laser
  deriving DecidableEq, Repr

/-- What the settings log keeps (R228, R495). -/
structure Settings where
  /-- Equaliser values with their partner serial, and the lasers' records, by port (R288). -/
  ports : Map PortKeep
  /-- Register words. -/
  regs : Map Word
  /-- Memory records: UE tables, frame replacements, calibrations. -/
  ue : Map Bool
  repl : Map Nat
  cal : Map Calib
  /-- HCTL.TRIP_LAST, the last trip (R416). -/
  trip : Word
  /-- Sensor FAILED marks, by sensor. -/
  sensors : List Nat
  margins : Map Margin
  /-- Placement records: the page map and the guest pages. -/
  pages : Map Page
  guests : Map Page
  deriving DecidableEq, Repr

/-- The transfer record (R521). -/
structure Xfer where
  setId : Nat
  epoch : Nat
  chunks : Nat
  /-- Chunks written and verified. -/
  done : List Nat
  deriving DecidableEq, Repr

/-- A copy of the selection record: the slot marked active, a 32-bit count of the writes before, and whether its CRC-32C passes (R527). -/
structure Selection where
  slot : Nat
  count : Nat
  crcOk : Bool
  deriving DecidableEq, Repr

/-- A group of the settings log (R494): whether it is a whole snapshot; its length; the 64 KiB blocks it lies in; whether it is complete and its
signature by H0's device key verifies; and the settings as its replay leaves them. -/
structure Group where
  snap : Bool
  bytes : Nat
  blocks : List Nat
  good : Bool
  holds : Settings
  deriving DecidableEq, Repr

/-- The retained store (R493). Its factory record, written at test and write-protected, is Config.factoryByte. -/
structure Flash where
  /-- The settings log: its groups, oldest first (R494); erase cycles of its blocks and those retired (R498). -/
  log : List Group
  erases : Map Nat
  retired : List Nat
  /-- FORGET was written: every group is void at the next start (R497). -/
  forgotten : Bool
  /-- Chunks of the image slots written, by slot × 64 + chunk; an unlisted one is as shipped (Config.flashChunk). -/
  slots : Map (List Byte)
  /-- Slots that hold what is left of a set that was dropped, which is never run (R520). -/
  barred : List Nat
  /-- The two copies of the selection record (R527). -/
  sel0 : Selection
  sel1 : Selection
  xfer : Option Xfer
  deriving DecidableEq, Repr

/-- Slot the selection record marks active: of the copies whose CRC passes the one with the higher count decides (R527). With neither, the
spec names none: Config.noSelection. -/
def Flash.active (f : Flash) : Nat :=
  if f.sel0.crcOk && (!f.sel1.crcOk || f.sel1.count ≤ f.sel0.count) then f.sel0.slot
  else if f.sel1.crcOk then f.sel1.slot
  else Config.noSelection % 2

/-- A slot is written into the copy with the lower count, with the higher count plus 1; a copy whose CRC fails has none (R527). -/
def Flash.select (f : Flash) (k : Nat) : Flash :=
  if f.sel1.crcOk && (!f.sel0.crcOk || f.sel0.count < f.sel1.count) then { f with sel0 := ⟨k, (f.sel1.count + 1) % 2 ^ 32, true⟩ }
  else { f with sel1 := ⟨k, ((if f.sel0.crcOk then f.sel0.count else 0) + 1) % 2 ^ 32, true⟩ }

/-- The replay of the log (R494): from the newest snapshot whose signature verifies, group by group, up to the first that is incomplete or
fails its signature. The settings it leaves, and whether it stopped before the end. -/
def replayLog (l : List Group) : Option Settings × Bool :=
  l.foldl (fun (r : Option Settings × Bool) g =>
    if g.snap && g.good then (some g.holds, false)
    else if r.2 || !g.good || r.1.isNone then (r.1, true)
    else (some g.holds, false)) (none, false)

/-- The groups from the last snapshot on, the chain that the next group extends. -/
def logChain (l : List Group) : List Group :=
  l.foldl (fun (c : List Group) g => if g.snap then [g] else c ++ [g]) []

/-- Firmware transfer and activation beside the registers (chapter "Firmware Update and Recovery"). -/
structure FwSt where
  /-- Pieces held of chunks not done, by chunk × 64 + piece (R520). -/
  pieces : Map (List Byte)
  /-- The transfer in hand: the transfer record, or what ROM recovery or a NET boot holds in its place. -/
  xfer : Option Xfer
  /-- Source address of the last transfer message. -/
  server : Nat
  /-- Manifest of the running set. -/
  running : List Byte
  /-- Images confirmed in the present handover, as kind × 256 + instance; the commit point is past (R525). -/
  confirmed : List Nat
  committed : Bool
  /-- Tiles switch to the new microcode; those not yet switched take no task (R525). -/
  tmcOn : Bool
  tileWait : Bool
  /-- A set that arrived by HOST or NET is being written to the inactive slot (R491). -/
  writing : Bool
  /-- Images in the second banks of their targets, by kind × 256 + instance; tile microcode in the holding area of each die's power
  controller, by 256 + die (R523). -/
  second : Map (List Byte)
  /-- LEVEL and MIN_LEVEL that the running firmware of a port offers, where it is not the shipped one (R272). -/
  levels : Map (Nat × Nat)
  /-- Ceilings held while the die power controllers hand over or restart, by 2 × (die × 104 + tile), + 1 with PACE; and when a restart ends
  (R525, R529). -/
  held : Map (Nat × Nat)
  heldTo : Option Nat
  /-- When a restart of the HBM PHY controllers' image ends (R529). -/
  hptTo : Option Nat
  deriving DecidableEq, Repr

def FwSt.init : FwSt :=
  { pieces := [], xfer := none, server := 0, running := [], confirmed := [], committed := false, tmcOn := false, tileWait := false,
    writing := false, second := [], levels := [], held := [], heldTo := none, hptTo := none }

/-- Pins, start-up and management (chapter "Management, Reset and Start-Up"). -/
structure MgmtSt where
  /-- PKG_RESET_N is low. -/
  resetLow : Bool
  /-- The internal rails, and the auxiliary rail, are good. -/
  rails : Bool
  aux : Bool
  /-- Lasers fused FAILED at test, by 2 × port + laser (R288). -/
  laserFuses : List Nat
  /-- THERM_TRIP_N is low: a trip holds the package down (R416). -/
  tripped : Bool
  /-- PKG_ISOLATE_N has gone low (R499). -/
  isolated : Bool
  /-- The hub controller is restarting (R485). -/
  hcDown : Bool
  /-- Memory start-up has begun (R183, R486). -/
  memStarted : Bool
  /-- Elapsed times of its restarts within the last 10 s (R546). -/
  hcLog : List Nat
  /-- Elapsed time since which groups could not be written (R498). -/
  storeFail : Option Nat
  /-- Elapsed times of the replays within the last second, by on-package link (R543). -/
  dieLog : Map (List Nat)
  /-- Management messages sent (R501). -/
  mseq : Nat
  /-- Elapsed time of the last heartbeat of the rack manager, of the board manager, since s0, until it is lost (R505). -/
  rackSeen : Option Nat
  bmSeen : Option Nat
  /-- Elapsed times of the hallmark requests served within the last second (R507). -/
  reqLog : List Nat
  /-- I3C: offset and dynamic address (R508). -/
  i3cOff : Nat
  i3cAddr : Option Nat
  /-- The 4 MiB boot buffer of H0 (R492). -/
  bootBuf : Map Byte
  flash : Flash
  fw : FwSt
  deriving DecidableEq, Repr

/-- Right after reset the rails are good and no settings group has been written. -/
def MgmtSt.reset : MgmtSt :=
  { resetLow := false, rails := true, aux := true, laserFuses := [], tripped := false, isolated := false, hcDown := false, memStarted := false, hcLog := [],
    storeFail := none, dieLog := [], mseq := 0, rackSeen := none, bmSeen := none, reqLog := [], i3cOff := 0, i3cAddr := none, bootBuf := [],
    flash := { log := [], erases := [], retired := [], forgotten := false, slots := [], barred := [], sel0 := ⟨0, 0, true⟩, sel1 := ⟨0, 0, true⟩,
               xfer := none }, fw := .init }

/-- The package. -/
structure State where
  /-- Commands waiting, first in, first out. -/
  pending : List Instr
  /-- Registers in force, by unit page and word; an unlisted one holds its reset value. -/
  regs : Map Word
  /-- Shadows of staged registers; an unlisted one equals the value in force (R559). -/
  shadow : Map Word
  /-- Latched _HI halves (R11). -/
  latch : Map Word
  /-- Event occurrence counters, by unit and bit (R536). -/
  evtCnt : Map Nat
  /-- The drove time, ns (R368). -/
  drove : Nat
  /-- How many free values have been taken. -/
  freeCtr : Nat
  /-- Sum of the forward steps of the drove clock (R373). -/
  stepped : Nat
  /-- What the package has sent out, oldest first. -/
  out : List Out
  /-- Physical tiles, by die × 104 + tile. -/
  tiles : Map Tile
  /-- Tile failures being handled, by die (R114). -/
  failing : Map (List Failing)
  /-- Failure fuses blown, by die × 104 + tile (R116). -/
  fuses : Map Bool
  /-- Failed tiles whose fuse is still to be blown, by die × 104 + tile (R116). -/
  fuseDue : Map Bool
  /-- Bays, by die × 2^26 + address; an unlisted byte reads 0 (notes/assumptions/4.md). -/
  bay : Map Byte
  /-- Bay reduction slots, by die × 8,192 + slot. -/
  bslots : Map BSlot
  /-- Task pools. -/
  pools : Map Pool
  /-- Pool from which a tile of each cluster last took, by die × 13 + cluster (R152). -/
  lastPool : Map Nat
  /-- Package memory and placement. -/
  mm : MemSt
  /-- Sync objects. -/
  objs : Map Obj
  /-- Ports. -/
  links : Map LinkSt
  /-- Routers, flows, circuits, groups. -/
  net : NetSt
  /-- Drove election and pacing. -/
  clk : ClockSt
  /-- Pending commits, by unit. -/
  commits : Map Commit
  /-- Power, cooling and ageing. -/
  pw : PwrSt
  /-- The host connection. -/
  host : HostSt
  /-- The assay die. -/
  assay : AssaySt
  /-- Start-up and management. -/
  mg : MgmtSt
  deriving DecidableEq, Repr

/-- The package right after reset. -/
def State.reset : State :=
  { pending := [], regs := [], shadow := [], latch := [], evtCnt := [], drove := 0, freeCtr := 0,
    stepped := 0, out := [], tiles := [], failing := [], fuses := [], fuseDue := [], bay := [], bslots := [], pools := [],
    lastPool := [], mm := .reset, objs := [], links := [], net := .reset, clk := .reset, commits := [], pw := .reset, host := .reset, assay := .init, mg := .reset }

end Sys2Proof.Machine
end

