-- ==== Sys2Proof/Machine/Regs.lean ====
section
/-! DEFINITION. The register fields of every unit page, from the register tables of the spec (R556, R563 and the
tables each chapter gives): offset, bits, access type and reset value.
A reset value the spec calls fused, restored, loaded, latched or assigned is the model's (notes/assumptions/2.md). -/

namespace Sys2Proof.Machine

/-- Register access types (chapter "Scope", table of access types). -/
inductive Acc where
  | rw | ro | w1c | w1s | rc | wo | st
  deriving DecidableEq, Repr

/-- One field of a unit page: byte offset, top and bottom bit, access type, reset value. -/
structure Fld where
  off : Nat
  hi : Nat
  lo : Nat
  acc : Acc
  rst : Nat
  deriving DecidableEq, Repr

/-- The unit page header (R556). -/
def Reg.UNIT_COUNT_COUNT : Fld := ⟨0x008, 7, 0, .ro, 0⟩
def Reg.HEALTH_HEALTH : Fld := ⟨0x010, 1, 0, .ro, 0⟩
def Reg.HEALTH_OWN : Fld := ⟨0x010, 5, 4, .ro, 0⟩
def Reg.EVT_PEND : Fld := ⟨0x014, 31, 0, .w1c, 0⟩
def Reg.EVT_MASK : Fld := ⟨0x018, 31, 0, .rw, 0⟩
def Reg.EVT_FORCE : Fld := ⟨0x01C, 31, 0, .wo, 0⟩
def Reg.STAGE_OWN : Fld := ⟨0x020, 0, 0, .ro, 0⟩
def Reg.STAGE_BELOW : Fld := ⟨0x020, 1, 1, .ro, 0⟩
def Reg.STAGE_PENDING : Fld := ⟨0x020, 2, 2, .ro, 0⟩
def Reg.CHECK_RESULT : Fld := ⟨0x024, 1, 0, .ro, 0⟩
def Reg.CHECK_CAUSE : Fld := ⟨0x024, 5, 2, .ro, 0⟩
def Reg.CHECK_WORD : Fld := ⟨0x024, 15, 6, .ro, 0⟩
def Reg.CHECK_PAGE : Fld := ⟨0x024, 31, 16, .ro, 0⟩
def Reg.COMMIT_AT_LO : Fld := ⟨0x028, 31, 0, .rw, 0⟩
def Reg.COMMIT_AT_HI : Fld := ⟨0x02C, 31, 0, .rw, 0⟩
def Reg.COMMIT_CMD : Fld := ⟨0x030, 1, 0, .wo, 0⟩
def Reg.COMMIT_STATE : Fld := ⟨0x030, 6, 4, .ro, 0⟩
def Reg.COMMIT_VIEW : Fld := ⟨0x030, 8, 8, .rw, 0⟩
def Reg.EVT_CNT_SEL_BIT : Fld := ⟨0x034, 4, 0, .rw, 0⟩
def Reg.EVT_CNT_COUNT : Fld := ⟨0x038, 15, 0, .rc, 0⟩
def Reg.header : List Fld :=
  [Reg.UNIT_COUNT_COUNT, Reg.HEALTH_HEALTH, Reg.HEALTH_OWN, Reg.EVT_PEND, Reg.EVT_MASK, Reg.EVT_FORCE,
   Reg.STAGE_OWN, Reg.STAGE_BELOW, Reg.STAGE_PENDING, Reg.CHECK_RESULT, Reg.CHECK_CAUSE, Reg.CHECK_WORD,
   Reg.CHECK_PAGE, Reg.COMMIT_AT_LO, Reg.COMMIT_AT_HI, Reg.COMMIT_CMD, Reg.COMMIT_STATE, Reg.COMMIT_VIEW,
   Reg.EVT_CNT_SEL_BIT, Reg.EVT_CNT_COUNT]

/-! Event bits of each kind (the EVT_PEND allocation of the register index and the event tables of the chapters). -/

abbrev Evt.TILE.LS_CE : Nat := 0
abbrev Evt.TILE.LS_UE : Nat := 1
abbrev Evt.TILE.COMPUTE_CHECK : Nat := 2
abbrev Evt.TILE.KERNEL_BAD : Nat := 3
abbrev Evt.TILE.HALO_REFUSED : Nat := 4
abbrev Evt.TILE.WIN_BAD : Nat := 5
abbrev Evt.TILE.DISAGREE : Nat := 6
abbrev Evt.TILE.SENSOR_FAIL : Nat := 7
abbrev Evt.TILE.MARGIN_BUMP : Nat := 8
abbrev Evt.CDIE.TILE_SPARED : Nat := 16
abbrev Evt.CDIE.TILE_LOST : Nat := 17
abbrev Evt.CDIE.SPARE_BAD : Nat := 18
abbrev Evt.CDIE.RSLOT_ERR : Nat := 19
abbrev Evt.CDIE.POOL_ERR : Nat := 20
abbrev Evt.CDIE.TASK_FAULT : Nat := 21
abbrev Evt.CDIE.FULL_HOLD : Nat := 22
abbrev Evt.CDIE.DROOP_CEIL : Nat := 23
abbrev Evt.CDIE.THERM_CEIL : Nat := 24
abbrev Evt.CDIE.RMARGIN_LATE : Nat := 25
abbrev Evt.CDIE.SPARE_SENSOR : Nat := 26
abbrev Evt.MCHN.CE : Nat := 0
abbrev Evt.MCHN.UE : Nat := 1
abbrev Evt.MCHN.FRAME_RETIRED : Nat := 2
abbrev Evt.MCHN.RETRAIN : Nat := 3
abbrev Evt.MCHN.STATE_CHANGE : Nat := 4
abbrev Evt.MCHN.WRITE_DROP : Nat := 5
abbrev Evt.MSTK.MEM_HOT : Nat := 16
abbrev Evt.MSTK.CHAN_OUT : Nat := 17
abbrev Evt.MSTK.TRAIN_FULL : Nat := 18
abbrev Evt.PLACE.ALLOC_FAIL : Nat := 0
abbrev Evt.PLACE.SPILL_CROSSED_UP : Nat := 1
abbrev Evt.PLACE.SPILL_CROSSED_DOWN : Nat := 2
abbrev Evt.PLACE.PAGE_LOST : Nat := 3
abbrev Evt.PLACE.PEER_LOST : Nat := 4
abbrev Evt.PLACE.DRAIN_STALL : Nat := 5
abbrev Evt.PLACE.GUEST_REFUSED : Nat := 6
abbrev Evt.PLACE.MOVE_ABORT : Nat := 7
abbrev Evt.PORT.NBR_CHANGE : Nat := 0
abbrev Evt.PORT.ADMITTED : Nat := 1
abbrev Evt.PORT.QUARANTINED : Nat := 2
abbrev Evt.PORT.ABSENT : Nat := 3
abbrev Evt.PORT.LINK_UP : Nat := 4
abbrev Evt.PORT.LINK_DOWN : Nat := 5
abbrev Evt.PORT.REPLAY : Nat := 6
abbrev Evt.PORT.FEC_UE : Nat := 7
abbrev Evt.PORT.BER_WARN : Nat := 8
abbrev Evt.PORT.CAP_FAIL : Nat := 9
abbrev Evt.PORT.LASER_SWITCH : Nat := 10
abbrev Evt.PORT.LASER_FAIL : Nat := 11
abbrev Evt.PORT.CAL_DONE : Nat := 12
abbrev Evt.PORT.LOS_HOLD : Nat := 13
abbrev Evt.PORT.PROTO_VIOL : Nat := 14
abbrev Evt.PORT.PEN_ERR : Nat := 15
abbrev Evt.ROUT.DTAB_LOADED : Nat := 0
abbrev Evt.ROUT.DTAB_FAIL : Nat := 1
abbrev Evt.ROUT.NO_ROUTE : Nat := 2
abbrev Evt.ROUT.FLOW_FAIL : Nat := 3
abbrev Evt.ROUT.CKT_FAIL : Nat := 4
abbrev Evt.ROUT.REJECT : Nat := 5
abbrev Evt.ROUT.PKT_DROP : Nat := 6
abbrev Evt.ROUT.XTAB_FAIL : Nat := 7
abbrev Evt.SYNC.DROVE_LOCK : Nat := 0
abbrev Evt.SYNC.DROVE_LOST : Nat := 1
abbrev Evt.SYNC.DROVE_STEP : Nat := 2
abbrev Evt.SYNC.MASTER_CHANGE : Nat := 3
abbrev Evt.SYNC.LATE_COMMIT : Nat := 4
abbrev Evt.SYNC.PACE_CHANGE : Nat := 5
abbrev Evt.SYNC.SIG_REFUSED : Nat := 6
abbrev Evt.SYNC.ROUND_LOST : Nat := 7
abbrev Evt.SYNC.OBJ_BAD : Nat := 8
abbrev Evt.SYNC.REC_FAIL : Nat := 9
abbrev Evt.HCTL.CAP_CHANGE : Nat := 0
abbrev Evt.HCTL.PARK_CHANGE : Nat := 1
abbrev Evt.HCTL.PEAK_LIMIT : Nat := 2
abbrev Evt.HCTL.CAP_HOLD : Nat := 3
abbrev Evt.HCTL.OC_ALERT : Nat := 4
abbrev Evt.HCTL.PWR_CROSSED_UP : Nat := 5
abbrev Evt.HCTL.PWR_CROSSED_DOWN : Nat := 6
abbrev Evt.HCTL.FLOOR : Nat := 7
abbrev Evt.HCTL.FLOW_SENSOR_BAD : Nat := 8
abbrev Evt.HCTL.COOL_MISSING : Nat := 9
abbrev Evt.HCTL.SENSOR_FAIL : Nat := 10
abbrev Evt.HCTL.DISAGREE : Nat := 11
abbrev Evt.HCTL.DRIFT : Nat := 12
abbrev Evt.HCTL.FCAST_MODE : Nat := 13
abbrev Evt.HCTL.MGMT_LINK : Nat := 14
abbrev Evt.HCTL.HB_LOST : Nat := 15
abbrev Evt.HCTL.ORDER_REFUSED : Nat := 16
abbrev Evt.HCTL.STORE_ERR : Nat := 17
abbrev Evt.HCTL.STORE_WEAR : Nat := 18
abbrev Evt.HCTL.HCTL_RESTART : Nat := 19
abbrev Evt.HCTL.FW_STAGED : Nat := 20
abbrev Evt.HCTL.FW_REJECTED : Nat := 21
abbrev Evt.HCTL.FW_DONE : Nat := 22
abbrev Evt.HCTL.FW_FAIL : Nat := 23
abbrev Evt.HCTL.FW_TILES_DONE : Nat := 24
abbrev Evt.ASSAY.RESTART : Nat := 0
abbrev Evt.ASSAY.LINK_LOST : Nat := 1
abbrev Evt.ASSAY.REF_FAIL : Nat := 2
abbrev Evt.ASSAY.DROVE_UNSYNC : Nat := 3
abbrev Evt.ASSAY.METER_DISAGREE : Nat := 4
abbrev Evt.PCIE.LINK_UP : Nat := 0
abbrev Evt.PCIE.LINK_DOWN : Nat := 1
abbrev Evt.PCIE.FN_RESET : Nat := 2
abbrev Evt.PCIE.BAR2_ERR : Nat := 3
abbrev Evt.PCIE.DMA_ERR : Nat := 4
abbrev Evt.PCIE.QUEUE_ERR : Nat := 5
abbrev Evt.PCIE.POISON_RX : Nat := 6
abbrev Evt.PKG.READY : Nat := 16
abbrev Evt.PKG.START_FAIL : Nat := 17
abbrev Evt.PKG.DIE_LINK : Nat := 18
abbrev Evt.PKG.FENCED : Nat := 19
abbrev Evt.PKG.RATING : Nat := 20

/-! Registers of the PKG page (chapters Scope, Dispatch, Memory, Fabric, Routing, Management, Errors). -/
namespace Reg.PKG
def SERIAL_LO_SERIAL : Fld := ⟨0x040, 31, 0, .ro, 0x491e6⟩
def SERIAL_HI_SERIAL : Fld := ⟨0x044, 31, 0, .ro, 0x5a310c27⟩
def PART_ORDER : Fld := ⟨0x048, 3, 0, .ro, 1⟩
def SI_REV_MAJOR : Fld := ⟨0x04C, 7, 4, .ro, 0xb⟩
def SI_REV_MINOR : Fld := ⟨0x04C, 3, 0, .ro, 0⟩
def RATING_TILES : Fld := ⟨0x050, 9, 0, .ro, 0x190⟩
def FW_EPOCH_EPOCH : Fld := ⟨0x054, 31, 0, .ro, 0⟩
def POOL_TAB_LO : Fld := ⟨0x100, 31, 0, .st, 0⟩
def POOL_TAB_HI : Fld := ⟨0x104, 31, 0, .st, 0⟩
def DISP_DELAY_NEAR : Fld := ⟨0x108, 15, 0, .rw, 0xc8⟩
def DISP_DELAY_DIE : Fld := ⟨0x108, 31, 16, .rw, 0x3e8⟩
def DISP_DELAY_PKG : Fld := ⟨0x10C, 15, 0, .rw, 0x1388⟩
def DISP_FULL_WAIT_NS : Fld := ⟨0x10C, 31, 16, .rw, 0x4e20⟩
def POOL_SEL_POOL : Fld := ⟨0x110, 11, 0, .rw, 0⟩
def POOL_STAT_STATE : Fld := ⟨0x114, 1, 0, .ro, 0⟩
def POOL_STAT_WAITING : Fld := ⟨0x114, 2, 2, .ro, 0⟩
def POOL_STAT_HELD : Fld := ⟨0x114, 3, 3, .ro, 0⟩
def POOL_STAT_ERR : Fld := ⟨0x114, 7, 4, .ro, 0⟩
def POOL_HEAD : Fld := ⟨0x118, 31, 0, .ro, 0⟩
def POOL_TAIL : Fld := ⟨0x11C, 31, 0, .ro, 0⟩
def POOL_CQ_TAIL : Fld := ⟨0x120, 31, 0, .ro, 0⟩
def POOL_RUNNING_COUNT : Fld := ⟨0x124, 16, 0, .ro, 0⟩
def POOL_CTL_ENABLE : Fld := ⟨0x128, 0, 0, .w1s, 0⟩
def POOL_CTL_DISABLE : Fld := ⟨0x128, 1, 1, .w1s, 0⟩
def POOL_CTL_FLUSH : Fld := ⟨0x128, 2, 2, .w1s, 0⟩
def POOL_CTL_RELOAD : Fld := ⟨0x128, 3, 3, .w1s, 0⟩
def POOL_CTL_CLEAR : Fld := ⟨0x128, 4, 4, .w1s, 0⟩
def MEM_FRAMES_USABLE : Fld := ⟨0x180, 19, 0, .ro, 0⟩
def MEM_CFG_SCRUB_HOURS : Fld := ⟨0x184, 4, 0, .rw, 0x18⟩
def FABRIC_ID_FID : Fld := ⟨0x1A0, 19, 0, .st, 0xfffff⟩
def CUBE_POS : Fld := ⟨0x1A4, 12, 0, .st, 0⟩
def CUBE_DIMS : Fld := ⟨0x1A4, 19, 16, .st, 0⟩
def AUX_P14 : Fld := ⟨0x1A8, 1, 0, .st, 0⟩
def AUX_P15 : Fld := ⟨0x1A8, 3, 2, .st, 0⟩
def ADMIT_CFG_FLAP_LIMIT : Fld := ⟨0x1AC, 7, 0, .rw, 3⟩
def AXIS_DIMS (a : Nat) : Fld := ⟨(0x1B0+4*a), 12, 0, .st, 0⟩
def JOB_TAG_TAG : Fld := ⟨0x1C0, 15, 0, .st, 0⟩
def START_STATE : Fld := ⟨0x060, 2, 0, .ro, 1⟩
def START_CAUSE : Fld := ⟨0x060, 7, 4, .ro, 0⟩
def START_BOOT_SEL : Fld := ⟨0x060, 9, 8, .ro, 0⟩
def START_SLOT : Fld := ⟨0x060, 10, 10, .ro, 0⟩
def START_DEFAULTS : Fld := ⟨0x060, 11, 11, .ro, 0⟩
def RESET_LAST_CAUSE : Fld := ⟨0x064, 1, 0, .ro, 0⟩
def RESET_REQ_KEY : Fld := ⟨0x068, 31, 0, .wo, 0⟩
def FENCE_FENCED : Fld := ⟨0x070, 0, 0, .ro, 0⟩
def FENCE_CAUSE : Fld := ⟨0x070, 7, 4, .ro, 0⟩
def FENCE_CTL_FENCE : Fld := ⟨0x074, 0, 0, .w1s, 0⟩
def FENCE_TIME_LO : Fld := ⟨0x078, 31, 0, .ro, 0⟩
def FENCE_TIME_HI : Fld := ⟨0x07C, 31, 0, .ro, 0⟩
def DIE_LINKS_UP : Fld := ⟨0x080, 8, 0, .ro, 0x1ff⟩
def DIE_LINK_RETRY_COUNT : Fld := ⟨0x084, 15, 0, .rc, 0⟩
/-- Every field of the PKG page. -/
def fields : List Fld :=
  [SERIAL_LO_SERIAL, SERIAL_HI_SERIAL, PART_ORDER, SI_REV_MAJOR, SI_REV_MINOR, RATING_TILES, FW_EPOCH_EPOCH, POOL_TAB_LO, POOL_TAB_HI, DISP_DELAY_NEAR, DISP_DELAY_DIE, DISP_DELAY_PKG, DISP_FULL_WAIT_NS, POOL_SEL_POOL, POOL_STAT_STATE, POOL_STAT_WAITING, POOL_STAT_HELD, POOL_STAT_ERR, POOL_HEAD, POOL_TAIL, POOL_CQ_TAIL, POOL_RUNNING_COUNT, POOL_CTL_ENABLE, POOL_CTL_DISABLE, POOL_CTL_FLUSH, POOL_CTL_RELOAD, POOL_CTL_CLEAR, MEM_FRAMES_USABLE, MEM_CFG_SCRUB_HOURS, FABRIC_ID_FID, CUBE_POS, CUBE_DIMS, AUX_P14, AUX_P15, ADMIT_CFG_FLAP_LIMIT, JOB_TAG_TAG, START_STATE, START_CAUSE, START_BOOT_SEL, START_SLOT] ++
  [START_DEFAULTS, RESET_LAST_CAUSE, RESET_REQ_KEY, FENCE_FENCED, FENCE_CAUSE, FENCE_CTL_FENCE, FENCE_TIME_LO, FENCE_TIME_HI, DIE_LINKS_UP, DIE_LINK_RETRY_COUNT] ++
  (List.range 4).map AXIS_DIMS
end Reg.PKG

/-! Registers of the TILE page (R107, R406 and R434 tables). -/
namespace Reg.TILE
def IDENT_PHYS : Fld := ⟨0x040, 6, 0, .ro, 0⟩
def IDENT_SLOT : Fld := ⟨0x040, 14, 8, .ro, 0⟩
def STATE_ENGINE : Fld := ⟨0x044, 1, 0, .ro, 0⟩
def STATE_SLOT0 : Fld := ⟨0x044, 2, 2, .ro, 0⟩
def STATE_SLOT1 : Fld := ⟨0x044, 3, 3, .ro, 0⟩
def STATE_WIN : Fld := ⟨0x044, 7, 4, .ro, 0⟩
def STATE_DRAINED : Fld := ⟨0x044, 8, 8, .ro, 0⟩
def CTL_DRAIN : Fld := ⟨0x048, 0, 0, .rw, 0⟩
def CTL_RETIRE : Fld := ⟨0x048, 1, 1, .w1s, 0⟩
def CLK_MHZ : Fld := ⟨0x04C, 11, 0, .ro, 0x9c4⟩
def LS_CE_COUNT : Fld := ⟨0x050, 15, 0, .rc, 0⟩
def LS_UE_COUNT : Fld := ⟨0x054, 15, 0, .rc, 0⟩
def ME_BUSY_LO : Fld := ⟨0x058, 31, 0, .ro, 0⟩
def ME_BUSY_HI : Fld := ⟨0x05C, 31, 0, .ro, 0⟩
def MOVED_LO : Fld := ⟨0x060, 31, 0, .ro, 0⟩
def MOVED_HI : Fld := ⟨0x064, 31, 0, .ro, 0⟩
def HALO_REFUSED_COUNT : Fld := ⟨0x068, 15, 0, .rc, 0⟩
def WIN_BASE (n : Nat) : Fld := ⟨(0x080+0x20*n), 31, 0, .rw, 0⟩
def WIN_LEN (n : Nat) : Fld := ⟨(0x084+0x20*n), 31, 0, .rw, 0⟩
def WIN_EXPECT (n : Nat) : Fld := ⟨(0x088+0x20*n), 31, 0, .rw, 0⟩
def WIN_RCVD (n : Nat) : Fld := ⟨(0x08C+0x20*n), 31, 0, .ro, 0⟩
def WIN_CTL_SYNC_OBJ (n : Nat) : Fld := ⟨(0x090+0x20*n), 15, 0, .rw, 0⟩
def WIN_CTL_STATE (n : Nat) : Fld := ⟨(0x090+0x20*n), 17, 16, .ro, 0⟩
def WIN_CTL_OPEN (n : Nat) : Fld := ⟨(0x090+0x20*n), 24, 24, .w1s, 0⟩
def WIN_CTL_CLOSE (n : Nat) : Fld := ⟨(0x090+0x20*n), 25, 25, .w1s, 0⟩
def STRETCH_COUNT : Fld := ⟨0x06C, 15, 0, .rc, 0⟩
def TEMP_CTL : Fld := ⟨0x070, 7, 0, .ro, 0⟩
def TEMP_A : Fld := ⟨0x070, 15, 8, .ro, 0⟩
def TEMP_B : Fld := ⟨0x070, 23, 16, .ro, 0⟩
def TEMP_A_FAILED : Fld := ⟨0x070, 24, 24, .ro, 0⟩
def TEMP_B_FAILED : Fld := ⟨0x070, 25, 25, .ro, 0⟩
def TEMP_MODEL : Fld := ⟨0x070, 26, 26, .ro, 0⟩
def MARGIN_MV_2500 : Fld := ⟨0x074, 11, 0, .ro, 0⟩
def MARGIN_AGE_H : Fld := ⟨0x074, 27, 16, .ro, 0⟩
def AGE_PPM : Fld := ⟨0x078, 15, 0, .ro, 0⟩
/-- Every field of the TILE page. -/
def fields : List Fld :=
  [IDENT_PHYS, IDENT_SLOT, STATE_ENGINE, STATE_SLOT0, STATE_SLOT1, STATE_WIN, STATE_DRAINED, CTL_DRAIN, CTL_RETIRE, CLK_MHZ, LS_CE_COUNT, LS_UE_COUNT, ME_BUSY_LO, ME_BUSY_HI, MOVED_LO, MOVED_HI, HALO_REFUSED_COUNT, STRETCH_COUNT, TEMP_CTL, TEMP_A, TEMP_B, TEMP_A_FAILED, TEMP_B_FAILED, TEMP_MODEL, MARGIN_MV_2500, MARGIN_AGE_H, AGE_PPM] ++
  (List.range 4).map WIN_BASE ++
  (List.range 4).map WIN_LEN ++
  (List.range 4).map WIN_EXPECT ++
  (List.range 4).map WIN_RCVD ++
  (List.range 4).map WIN_CTL_SYNC_OBJ ++
  (List.range 4).map WIN_CTL_STATE ++
  (List.range 4).map WIN_CTL_OPEN ++
  (List.range 4).map WIN_CTL_CLOSE
end Reg.TILE

/-! Registers of the CDIE page (R110, R137, R171, R198, R406, R434 tables). -/
namespace Reg.CDIE
def SPARES_LEFT : Fld := ⟨0x040, 2, 0, .ro, 4⟩
def ACTIVE_TILES : Fld := ⟨0x044, 6, 0, .ro, 0x64⟩
def LAST_REMAP_FAILED : Fld := ⟨0x048, 6, 0, .ro, 0x7f⟩
def LAST_REMAP_SPARE : Fld := ⟨0x048, 14, 8, .ro, 0x7f⟩
def LAST_REMAP_SLOT : Fld := ⟨0x048, 22, 16, .ro, 0x7f⟩
def LAST_REMAP_CAUSE : Fld := ⟨0x048, 26, 24, .ro, 0⟩
def KTAB_COUNT_COUNT : Fld := ⟨0x04C, 16, 0, .st, 0⟩
def KTAB_BASE_LO : Fld := ⟨0x050, 31, 0, .st, 0⟩
def KTAB_BASE_HI : Fld := ⟨0x054, 31, 0, .st, 0⟩
def TILE_STATE (r : Nat) : Fld := ⟨(0x060+4*r), 31, 0, .ro, 0⟩
def SLOT_PHYS (s : Nat) : Fld := ⟨(0x100+4*s), 6, 0, .ro, 0⟩
def SLOT_VALID (s : Nat) : Fld := ⟨(0x100+4*s), 7, 7, .ro, 0⟩
def RSLOT_CFG_COUNT : Fld := ⟨0x290, 13, 0, .st, 0⟩
def RSLOT_DISCARD_COUNT : Fld := ⟨0x294, 15, 0, .rc, 0⟩
def RSLOT_LAST_SLOT : Fld := ⟨0x298, 12, 0, .ro, 0⟩
def RSLOT_LAST_STATUS : Fld := ⟨0x298, 19, 16, .ro, 0⟩
def DISP_TAKEN_LO : Fld := ⟨0x2A0, 31, 0, .ro, 0⟩
def DISP_TAKEN_HI : Fld := ⟨0x2A4, 31, 0, .ro, 0⟩
def DISP_STOLEN_LO : Fld := ⟨0x2A8, 31, 0, .ro, 0⟩
def DISP_STOLEN_HI : Fld := ⟨0x2AC, 31, 0, .ro, 0⟩
def DISP_RETRY_COUNT : Fld := ⟨0x2B0, 15, 0, .rc, 0⟩
def DISP_SKIP_COUNT : Fld := ⟨0x2B4, 15, 0, .rc, 0⟩
def DISP_LAST_POOL : Fld := ⟨0x2B8, 11, 0, .ro, 0⟩
def MEM_FRAMES_USABLE : Fld := ⟨0x300, 17, 0, .ro, 0⟩
def XLAT_MISS_COUNT : Fld := ⟨0x304, 15, 0, .rc, 0⟩
def PWR_BUDGET_WATTS : Fld := ⟨0x340, 11, 0, .ro, 0⟩
def PWR_EST_WATTS : Fld := ⟨0x344, 11, 0, .ro, 0⟩
def CEIL_MHZ : Fld := ⟨0x348, 11, 0, .ro, 0x9c4⟩
def CEIL_REASON : Fld := ⟨0x348, 15, 12, .ro, 0⟩
def STRETCH_EVT_COUNT : Fld := ⟨0x350, 15, 0, .rc, 0⟩
def FREQ_DEFER_COUNT : Fld := ⟨0x354, 15, 0, .rc, 0⟩
def CLUS_CEIL_MHZ (c : Nat) : Fld := ⟨(0x360+4*c), 11, 0, .ro, 0x9c4⟩
def CLUS_CEIL_REASON (c : Nat) : Fld := ⟨(0x360+4*c), 15, 12, .ro, 0⟩
def CLUS_CEIL_RAIL_MV (c : Nat) : Fld := ⟨(0x360+4*c), 27, 16, .ro, 0x2ee⟩
def HOT_TEMP : Fld := ⟨0x3A0, 7, 0, .ro, 0⟩
def HOT_PHYS : Fld := ⟨0x3A0, 14, 8, .ro, 0⟩
def THERM_LIM_ISLANDS : Fld := ⟨0x3A4, 6, 0, .ro, 0⟩
def RMARGIN_DUE : Fld := ⟨0x3A8, 6, 0, .ro, 0⟩
def RMARGIN_LATE_COUNT : Fld := ⟨0x3AC, 15, 0, .rc, 0⟩
/-- Every field of the CDIE page. -/
def fields : List Fld :=
  [SPARES_LEFT, ACTIVE_TILES, LAST_REMAP_FAILED, LAST_REMAP_SPARE, LAST_REMAP_SLOT, LAST_REMAP_CAUSE, KTAB_COUNT_COUNT, KTAB_BASE_LO, KTAB_BASE_HI, RSLOT_CFG_COUNT, RSLOT_DISCARD_COUNT, RSLOT_LAST_SLOT, RSLOT_LAST_STATUS, DISP_TAKEN_LO, DISP_TAKEN_HI, DISP_STOLEN_LO, DISP_STOLEN_HI, DISP_RETRY_COUNT, DISP_SKIP_COUNT, DISP_LAST_POOL, MEM_FRAMES_USABLE, XLAT_MISS_COUNT, PWR_BUDGET_WATTS, PWR_EST_WATTS, CEIL_MHZ, CEIL_REASON, STRETCH_EVT_COUNT, FREQ_DEFER_COUNT, HOT_TEMP, HOT_PHYS, THERM_LIM_ISLANDS, RMARGIN_DUE, RMARGIN_LATE_COUNT] ++
  (List.range 7).map TILE_STATE ++
  (List.range 100).map SLOT_PHYS ++
  (List.range 100).map SLOT_VALID ++
  (List.range 13).map CLUS_CEIL_MHZ ++
  (List.range 13).map CLUS_CEIL_REASON ++
  (List.range 13).map CLUS_CEIL_RAIL_MV
end Reg.CDIE

/-! Registers of the MCHN page (R197). -/
namespace Reg.MCHN
def STATE_STATE : Fld := ⟨0x040, 2, 0, .ro, 0⟩
def STATE_CAUSE : Fld := ⟨0x040, 7, 4, .ro, 0⟩
def CTL_RETIRE : Fld := ⟨0x044, 0, 0, .w1s, 0⟩
def CTL_RETRAIN : Fld := ⟨0x044, 1, 1, .w1s, 0⟩
def CE_COUNT_COUNT : Fld := ⟨0x048, 15, 0, .rc, 0⟩
def UE_COUNT_COUNT : Fld := ⟨0x04C, 15, 0, .rc, 0⟩
def FRAMES_USABLE : Fld := ⟨0x050, 11, 0, .ro, 0⟩
def FRAMES_SPARE_LEFT : Fld := ⟨0x050, 23, 16, .ro, 0xd3⟩
def UE_TAB_USED : Fld := ⟨0x054, 6, 0, .ro, 0⟩
def LAST_ERR_FRAME_ID : Fld := ⟨0x058, 19, 0, .ro, 0⟩
def LAST_ERR_LINE_LINE : Fld := ⟨0x05C, 14, 0, .ro, 0⟩
def LAST_ERR_LINE_UE : Fld := ⟨0x05C, 15, 15, .ro, 0⟩
def LINK_RETRY_COUNT : Fld := ⟨0x060, 15, 0, .rc, 0⟩
def RETRAINS_COUNT : Fld := ⟨0x064, 15, 0, .rc, 0⟩
def ODE_COUNT_COUNT : Fld := ⟨0x068, 15, 0, .rc, 0⟩
def WRITE_DROP_COUNT : Fld := ⟨0x06C, 15, 0, .rc, 0⟩
def RD_BYTES_LO : Fld := ⟨0x070, 31, 0, .ro, 0⟩
def RD_BYTES_HI : Fld := ⟨0x074, 31, 0, .ro, 0⟩
def WR_BYTES_LO : Fld := ⟨0x078, 31, 0, .ro, 0⟩
def WR_BYTES_HI : Fld := ⟨0x07C, 31, 0, .ro, 0⟩
/-- Every field of the MCHN page. -/
def fields : List Fld :=
  [STATE_STATE, STATE_CAUSE, CTL_RETIRE, CTL_RETRAIN, CE_COUNT_COUNT, UE_COUNT_COUNT, FRAMES_USABLE, FRAMES_SPARE_LEFT, UE_TAB_USED, LAST_ERR_FRAME_ID, LAST_ERR_LINE_LINE, LAST_ERR_LINE_UE, LINK_RETRY_COUNT, RETRAINS_COUNT, ODE_COUNT_COUNT, WRITE_DROP_COUNT, RD_BYTES_LO, RD_BYTES_HI, WR_BYTES_LO, WR_BYTES_HI]
end Reg.MCHN

/-! Registers of the MSTK page (R198). -/
namespace Reg.MSTK
def IDENT_STACK : Fld := ⟨0x040, 3, 0, .ro, 0⟩
def TEMP_DEGC : Fld := ⟨0x044, 7, 0, .ro, 0⟩
def TEMP_REFRESH : Fld := ⟨0x044, 9, 8, .ro, 0⟩
def FRAMES_USABLE : Fld := ⟨0x048, 15, 0, .ro, 0⟩
def CHAN_ACTIVE_MASK : Fld := ⟨0x04C, 15, 0, .ro, 0⟩
/-- Every field of the MSTK page. -/
def fields : List Fld :=
  [IDENT_STACK, TEMP_DEGC, TEMP_REFRESH, FRAMES_USABLE, CHAN_ACTIVE_MASK]
end Reg.MSTK

/-! Registers of the PLACE page (R226, R227). -/
namespace Reg.PLACE
def EPOCH_US : Fld := ⟨0x040, 15, 0, .rw, 0x2710⟩
def MIG_BUDGET_GBPS : Fld := ⟨0x044, 8, 0, .rw, 0x14⟩
def MIG_RULE_MIN : Fld := ⟨0x048, 15, 0, .rw, 0x40⟩
def MIG_RULE_RATIO : Fld := ⟨0x048, 23, 16, .rw, 0x10⟩
def SPILL_CFG_PCT : Fld := ⟨0x04C, 5, 0, .st, 8⟩
def SPILL_CFG_RATE : Fld := ⟨0x04C, 23, 16, .st, 0x32⟩
def LEND_LIMIT : Fld := ⟨0x050, 19, 0, .st, 0⟩
def LEND_USED_FRAMES : Fld := ⟨0x054, 19, 0, .ro, 0⟩
def ALLOC_PAGES_COUNT : Fld := ⟨0x058, 20, 0, .ro, 0⟩
def SPILL_PAGES_COUNT : Fld := ⟨0x05C, 19, 0, .ro, 0⟩
def SPILL_RATIO_LEVEL : Fld := ⟨0x060, 15, 0, .ro, 0⟩
def SPILL_RATIO_WM_HI : Fld := ⟨0x064, 15, 0, .rw, 1⟩
def SPILL_RATIO_WM_LO : Fld := ⟨0x068, 15, 0, .rw, 0⟩
def SPILL_RATIO_PEAK : Fld := ⟨0x06C, 15, 0, .rc, 0⟩
def SPILL_RATIO_TROUGH : Fld := ⟨0x070, 15, 0, .rc, 0⟩
def LOST_COUNT : Fld := ⟨0x074, 19, 0, .ro, 0⟩
def MOVES_LO : Fld := ⟨0x078, 31, 0, .ro, 0⟩
def MOVES_HI : Fld := ⟨0x07C, 31, 0, .ro, 0⟩
def MOVE_ABORT_COUNT : Fld := ⟨0x080, 15, 0, .rc, 0⟩
def MIG_DEFER_COUNT : Fld := ⟨0x084, 15, 0, .rc, 0⟩
def GUEST_REFUSED_COUNT : Fld := ⟨0x088, 15, 0, .rc, 0⟩
def REQ_PAGE_PAGE : Fld := ⟨0x0A0, 19, 0, .rw, 0⟩
def REQ_COUNT_COUNT : Fld := ⟨0x0A4, 16, 0, .rw, 1⟩
def REQ_CTL_OP : Fld := ⟨0x0A8, 2, 0, .rw, 0⟩
def REQ_CTL_PIN : Fld := ⟨0x0A8, 5, 4, .rw, 0⟩
def REQ_CTL_DIE : Fld := ⟨0x0A8, 7, 6, .rw, 0⟩
def REQ_CTL_SPILL_FIRST : Fld := ⟨0x0A8, 8, 8, .rw, 0⟩
def REQ_CTL_GO : Fld := ⟨0x0A8, 31, 31, .w1s, 0⟩
def REQ_STAT_BUSY : Fld := ⟨0x0AC, 0, 0, .ro, 0⟩
def REQ_STAT_STATUS : Fld := ⟨0x0AC, 7, 4, .ro, 0⟩
def REQ_DONE_PAGES : Fld := ⟨0x0B0, 20, 0, .ro, 0⟩
def REQ_SHORT_PAGES : Fld := ⟨0x0B4, 20, 0, .ro, 0⟩
def Q_STATE_STATE : Fld := ⟨0x0C0, 2, 0, .ro, 0⟩
def Q_STATE_PIN : Fld := ⟨0x0C0, 5, 4, .ro, 0⟩
def Q_STATE_DIE : Fld := ⟨0x0C0, 7, 6, .ro, 0⟩
def Q_STATE_TARGET : Fld := ⟨0x0C0, 10, 8, .ro, 0⟩
def Q_FRAME_FRAME_ID : Fld := ⟨0x0C4, 19, 0, .ro, 0⟩
def Q_HEAT0_C0 : Fld := ⟨0x0C8, 15, 0, .ro, 0⟩
def Q_HEAT0_C1 : Fld := ⟨0x0C8, 31, 16, .ro, 0⟩
def Q_HEAT1_C2 : Fld := ⟨0x0CC, 15, 0, .ro, 0⟩
def Q_HEAT1_C3 : Fld := ⟨0x0CC, 31, 16, .ro, 0⟩
def Q_HEAT2_HOST : Fld := ⟨0x0D0, 15, 0, .ro, 0⟩
def Q_HEAT2_REMOTE : Fld := ⟨0x0D0, 31, 16, .ro, 0⟩
def Q_TOPREM_FID : Fld := ⟨0x0D4, 19, 0, .ro, 0⟩
def TGT_CFG_FID (k : Nat) : Fld := ⟨(0x100+8*k), 19, 0, .st, 0⟩
def TGT_CFG_KIND (k : Nat) : Fld := ⟨(0x100+8*k), 21, 20, .st, 0⟩
def TGT_QUOTA_PAGES (k : Nat) : Fld := ⟨(0x104+8*k), 19, 0, .st, 0⟩
def TGT_USED_PAGES (k : Nat) : Fld := ⟨(0x140+4*k), 19, 0, .ro, 0⟩
def TGT_USED_DOWN (k : Nat) : Fld := ⟨(0x140+4*k), 31, 31, .ro, 0⟩
def HOST_AREA_LO : Fld := ⟨0x180, 31, 0, .st, 0⟩
def HOST_AREA_HI : Fld := ⟨0x184, 31, 0, .st, 0⟩
def HOST_AREA_PAGES : Fld := ⟨0x188, 19, 0, .st, 0⟩
def LOST_SCAN_FROM : Fld := ⟨0x190, 19, 0, .rw, 0⟩
def LOST_NEXT_PAGE : Fld := ⟨0x194, 19, 0, .ro, 0⟩
def LOST_NEXT_VALID : Fld := ⟨0x194, 31, 31, .ro, 0⟩
/-- Every field of the PLACE page. -/
def fields : List Fld :=
  [EPOCH_US, MIG_BUDGET_GBPS, MIG_RULE_MIN, MIG_RULE_RATIO, SPILL_CFG_PCT, SPILL_CFG_RATE, LEND_LIMIT, LEND_USED_FRAMES, ALLOC_PAGES_COUNT, SPILL_PAGES_COUNT, SPILL_RATIO_LEVEL, SPILL_RATIO_WM_HI, SPILL_RATIO_WM_LO, SPILL_RATIO_PEAK, SPILL_RATIO_TROUGH, LOST_COUNT, MOVES_LO, MOVES_HI, MOVE_ABORT_COUNT, MIG_DEFER_COUNT, GUEST_REFUSED_COUNT, REQ_PAGE_PAGE, REQ_COUNT_COUNT, REQ_CTL_OP, REQ_CTL_PIN, REQ_CTL_DIE, REQ_CTL_SPILL_FIRST, REQ_CTL_GO, REQ_STAT_BUSY, REQ_STAT_STATUS, REQ_DONE_PAGES, REQ_SHORT_PAGES, Q_STATE_STATE, Q_STATE_PIN, Q_STATE_DIE, Q_STATE_TARGET, Q_FRAME_FRAME_ID, Q_HEAT0_C0, Q_HEAT0_C1, Q_HEAT1_C2] ++
  [Q_HEAT1_C3, Q_HEAT2_HOST, Q_HEAT2_REMOTE, Q_TOPREM_FID, HOST_AREA_LO, HOST_AREA_HI, HOST_AREA_PAGES, LOST_SCAN_FROM, LOST_NEXT_PAGE, LOST_NEXT_VALID] ++
  (List.range 8).map TGT_CFG_FID ++
  (List.range 8).map TGT_CFG_KIND ++
  (List.range 8).map TGT_QUOTA_PAGES ++
  (List.range 8).map TGT_USED_PAGES ++
  (List.range 8).map TGT_USED_DOWN
end Reg.PLACE

/-! Registers of the PORT page (R256, R289, R336 tables). -/
namespace Reg.PORT
def EXP_SERIAL_LO : Fld := ⟨0x040, 31, 0, .st, 0⟩
def EXP_SERIAL_HI : Fld := ⟨0x044, 31, 0, .st, 0⟩
def ADMIT_CFG_EXP_PORT : Fld := ⟨0x048, 3, 0, .st, 0⟩
def ADMIT_CFG_EXP_KIND : Fld := ⟨0x048, 5, 4, .st, 0⟩
def ADMIT_CFG_ARM : Fld := ⟨0x048, 8, 8, .st, 0⟩
def ADMIT_STATE_STATE : Fld := ⟨0x04C, 2, 0, .ro, 0⟩
def ADMIT_STATE_CAUSE : Fld := ⟨0x04C, 7, 4, .ro, 0⟩
def ADMIT_STATE_FLAPS : Fld := ⟨0x04C, 15, 8, .ro, 0⟩
def NBR_SERIAL_LO : Fld := ⟨0x050, 31, 0, .ro, 0⟩
def NBR_SERIAL_HI : Fld := ⟨0x054, 31, 0, .ro, 0⟩
def NBR_INFO_PORT : Fld := ⟨0x058, 3, 0, .ro, 0⟩
def NBR_INFO_KIND : Fld := ⟨0x058, 5, 4, .ro, 0⟩
def NBR_INFO_REACH : Fld := ⟨0x058, 6, 6, .ro, 0⟩
def NBR_INFO_FID_VALID : Fld := ⟨0x058, 7, 7, .ro, 0⟩
def NBR_INFO_STATE : Fld := ⟨0x058, 10, 8, .ro, 0⟩
def NBR_INFO_DIMS : Fld := ⟨0x058, 15, 12, .ro, 0⟩
def NBR_INFO_VALID : Fld := ⟨0x058, 16, 16, .ro, 0⟩
def NBR_FID_FID : Fld := ⟨0x05C, 19, 0, .ro, 0⟩
def NBR_EPOCH : Fld := ⟨0x060, 31, 0, .ro, 0⟩
def NBR_POS_POS : Fld := ⟨0x064, 12, 0, .ro, 0⟩
def HELLO_RX_COUNT : Fld := ⟨0x068, 15, 0, .rc, 0⟩
def HELLO_BAD_COUNT : Fld := ⟨0x06C, 15, 0, .rc, 0⟩
def LINK_CTL_ENABLE : Fld := ⟨0x100, 0, 0, .rw, 1⟩
def LINK_CTL_RETRAIN : Fld := ⟨0x100, 1, 1, .w1s, 0⟩
def LINK_CTL_TEST : Fld := ⟨0x100, 4, 2, .rw, 0⟩
def LINK_CTL_IDLE_EN : Fld := ⟨0x100, 5, 5, .rw, 0⟩
def LINK_CTL_FAR_LOOP_ALLOW : Fld := ⟨0x100, 6, 6, .rw, 0⟩
def LINK_STAT_STATE : Fld := ⟨0x104, 2, 0, .ro, 0⟩
def LINK_STAT_CAUSE : Fld := ⟨0x104, 7, 4, .ro, 0⟩
def LINK_STAT_RX_LOCK : Fld := ⟨0x104, 15, 8, .ro, 0⟩
def LINK_STAT_IDLE_TX : Fld := ⟨0x104, 16, 16, .ro, 0⟩
def LINK_STAT_IDLE_RX : Fld := ⟨0x104, 17, 17, .ro, 0⟩
def LINK_STAT_FAR_LOOP : Fld := ⟨0x104, 18, 18, .ro, 0⟩
def LINK_STAT_LOS_HOLD : Fld := ⟨0x104, 19, 19, .ro, 0⟩
def LINK_CFG_IDLE_DELAY : Fld := ⟨0x108, 9, 0, .rw, 0xa⟩
def LINK_CFG_UE_LIMIT : Fld := ⟨0x108, 31, 16, .rw, 0x64⟩
def CAP_NBR_LEVEL : Fld := ⟨0x10C, 7, 0, .ro, 0⟩
def CAP_NBR_MIN_LEVEL : Fld := ⟨0x10C, 15, 8, .ro, 0⟩
def CAP_NBR_IDLE : Fld := ⟨0x10C, 16, 16, .ro, 0⟩
def CAP_NBR_FAR_LOOP : Fld := ⟨0x10C, 17, 17, .ro, 0⟩
def CAP_OWN_LEVEL : Fld := ⟨0x110, 7, 0, .ro, 3⟩
def CAP_OWN_MIN_LEVEL : Fld := ⟨0x110, 15, 8, .ro, 1⟩
def TRAIN_FAIL_COUNT : Fld := ⟨0x114, 15, 0, .rc, 0⟩
def LINK_DOWN_COUNT : Fld := ⟨0x118, 15, 0, .rc, 0⟩
def FEC_CW_LO : Fld := ⟨0x120, 31, 0, .ro, 0⟩
def FEC_CW_HI : Fld := ⟨0x124, 31, 0, .ro, 0⟩
def FEC_CORR_LO : Fld := ⟨0x128, 31, 0, .ro, 0⟩
def FEC_CORR_HI : Fld := ⟨0x12C, 31, 0, .ro, 0⟩
def FEC_UE_COUNT : Fld := ⟨0x130, 31, 0, .rc, 0⟩
def CRC_ERR_COUNT : Fld := ⟨0x134, 31, 0, .rc, 0⟩
def REPLAY_COUNT : Fld := ⟨0x138, 15, 0, .rc, 0⟩
def LANE_SYMERR_COUNT (l : Nat) : Fld := ⟨(0x140+4*l), 31, 0, .rc, 0⟩
def LANE_RXPWR_DBM (l : Nat) : Fld := ⟨(0x160+4*l), 15, 0, .ro, 0⟩
def PRBS_CFG_PATTERN : Fld := ⟨0x180, 1, 0, .rw, 0⟩
def PRBS_CFG_GEN : Fld := ⟨0x180, 2, 2, .rw, 0⟩
def PRBS_CFG_CHK : Fld := ⟨0x180, 3, 3, .rw, 0⟩
def PRBS_CFG_LANES : Fld := ⟨0x180, 15, 8, .rw, 0xff⟩
def PRBS_STAT_LOCKED : Fld := ⟨0x184, 7, 0, .ro, 0⟩
def PRBS_BITS_LO : Fld := ⟨0x188, 31, 0, .ro, 0⟩
def PRBS_BITS_HI : Fld := ⟨0x18C, 31, 0, .ro, 0⟩
def LANE_PRBS_ERR_COUNT (l : Nat) : Fld := ⟨(0x1A0+4*l), 31, 0, .rc, 0⟩
def LASER_STAT_ACTIVE_ID : Fld := ⟨0x1C0, 0, 0, .ro, 0⟩
def LASER_STAT_L0_STATE : Fld := ⟨0x1C0, 3, 2, .ro, 0⟩
def LASER_STAT_L1_STATE : Fld := ⟨0x1C0, 5, 4, .ro, 1⟩
def LASER_STAT_TRIP_CAUSE : Fld := ⟨0x1C0, 11, 8, .ro, 0⟩
def LASER_STAT_GAP : Fld := ⟨0x1C0, 12, 12, .ro, 0⟩
def LASER_STAT_CAL_PEND : Fld := ⟨0x1C0, 13, 13, .ro, 0⟩
def LASER_CTL_SWITCH : Fld := ⟨0x1C4, 0, 0, .w1s, 0⟩
def LASER0_MON_BIAS : Fld := ⟨0x1C8, 15, 0, .ro, 0⟩
def LASER0_MON_POWER : Fld := ⟨0x1C8, 31, 16, .ro, 0⟩
def LASER1_MON : Fld := ⟨0x1CC, 31, 0, .ro, 0⟩
def LASER_TEMP_SET : Fld := ⟨0x1D0, 7, 0, .ro, 0⟩
def LASER_TEMP_L0 : Fld := ⟨0x1D0, 15, 8, .ro, 0⟩
def LASER_TEMP_L1 : Fld := ⟨0x1D0, 23, 16, .ro, 0⟩
def LASER_SWITCHES_COUNT : Fld := ⟨0x1D4, 15, 0, .rc, 0⟩
def LASER_LAST_GAP_CYCLES : Fld := ⟨0x1D8, 17, 0, .ro, 0⟩
def LASER_TESTED_LO : Fld := ⟨0x1E0, 31, 0, .ro, 0⟩
def LASER_TESTED_HI : Fld := ⟨0x1E4, 31, 0, .ro, 0⟩
def PV_COUNT_COUNT : Fld := ⟨0x070, 15, 0, .rc, 0⟩
def PV_LAST_CODE : Fld := ⟨0x074, 7, 0, .ro, 0⟩
def PV_RX_COUNT : Fld := ⟨0x074, 23, 8, .ro, 0⟩
def PEN_CRC_COUNT : Fld := ⟨0x078, 15, 0, .rc, 0⟩
def PEN_RESET_COUNT : Fld := ⟨0x07C, 15, 0, .rc, 0⟩
def PEN_LAST_VC : Fld := ⟨0x07C, 18, 16, .ro, 0⟩
/-- Every field of the PORT page. -/
def fields : List Fld :=
  [EXP_SERIAL_LO, EXP_SERIAL_HI, ADMIT_CFG_EXP_PORT, ADMIT_CFG_EXP_KIND, ADMIT_CFG_ARM, ADMIT_STATE_STATE, ADMIT_STATE_CAUSE, ADMIT_STATE_FLAPS, NBR_SERIAL_LO, NBR_SERIAL_HI, NBR_INFO_PORT, NBR_INFO_KIND, NBR_INFO_REACH, NBR_INFO_FID_VALID, NBR_INFO_STATE, NBR_INFO_DIMS, NBR_INFO_VALID, NBR_FID_FID, NBR_EPOCH, NBR_POS_POS, HELLO_RX_COUNT, HELLO_BAD_COUNT, LINK_CTL_ENABLE, LINK_CTL_RETRAIN, LINK_CTL_TEST, LINK_CTL_IDLE_EN, LINK_CTL_FAR_LOOP_ALLOW, LINK_STAT_STATE, LINK_STAT_CAUSE, LINK_STAT_RX_LOCK, LINK_STAT_IDLE_TX, LINK_STAT_IDLE_RX, LINK_STAT_FAR_LOOP, LINK_STAT_LOS_HOLD, LINK_CFG_IDLE_DELAY, LINK_CFG_UE_LIMIT, CAP_NBR_LEVEL, CAP_NBR_MIN_LEVEL, CAP_NBR_IDLE, CAP_NBR_FAR_LOOP] ++
  [CAP_OWN_LEVEL, CAP_OWN_MIN_LEVEL, TRAIN_FAIL_COUNT, LINK_DOWN_COUNT, FEC_CW_LO, FEC_CW_HI, FEC_CORR_LO, FEC_CORR_HI, FEC_UE_COUNT, CRC_ERR_COUNT, REPLAY_COUNT, PRBS_CFG_PATTERN, PRBS_CFG_GEN, PRBS_CFG_CHK, PRBS_CFG_LANES, PRBS_STAT_LOCKED, PRBS_BITS_LO, PRBS_BITS_HI, LASER_STAT_ACTIVE_ID, LASER_STAT_L0_STATE, LASER_STAT_L1_STATE, LASER_STAT_TRIP_CAUSE, LASER_STAT_GAP, LASER_STAT_CAL_PEND, LASER_CTL_SWITCH, LASER0_MON_BIAS, LASER0_MON_POWER, LASER1_MON, LASER_TEMP_SET, LASER_TEMP_L0, LASER_TEMP_L1, LASER_SWITCHES_COUNT, LASER_LAST_GAP_CYCLES, LASER_TESTED_LO, LASER_TESTED_HI, PV_COUNT_COUNT, PV_LAST_CODE, PV_RX_COUNT, PEN_CRC_COUNT, PEN_RESET_COUNT] ++
  [PEN_LAST_VC] ++
  (List.range 8).map LANE_SYMERR_COUNT ++
  (List.range 8).map LANE_RXPWR_DBM ++
  (List.range 8).map LANE_PRBS_ERR_COUNT
end Reg.PORT

/-! Registers of the ROUT page (R257, R337). -/
namespace Reg.ROUT
def DTAB_SRC_LO : Fld := ⟨0x040, 31, 0, .rw, 0⟩
def DTAB_SRC_HI : Fld := ⟨0x044, 31, 0, .rw, 0⟩
def DTAB_CTL_LOAD : Fld := ⟨0x048, 0, 0, .w1s, 0⟩
def DTAB_CTL_EDIT : Fld := ⟨0x048, 1, 1, .w1s, 0⟩
def DTAB_STAT_BUSY : Fld := ⟨0x04C, 0, 0, .ro, 0⟩
def DTAB_STAT_RESULT : Fld := ⟨0x04C, 5, 4, .ro, 0⟩
def DTAB_STAT_CHECK_OK : Fld := ⟨0x04C, 6, 6, .ro, 0⟩
def DTAB_CRC : Fld := ⟨0x050, 31, 0, .ro, 0⟩
def DTAB_ACTIVE_CRC : Fld := ⟨0x054, 31, 0, .ro, 0⟩
def DTAB_EDIT_ID_FID : Fld := ⟨0x058, 19, 0, .rw, 0⟩
def DTAB_EDIT_VAL : Fld := ⟨0x05C, 31, 0, .rw, 0⟩
def NO_ROUTE_COUNT : Fld := ⟨0x060, 15, 0, .rc, 0⟩
def NO_ROUTE_LAST_FID : Fld := ⟨0x064, 19, 0, .ro, 0⟩
def ROUTE_CFG_HOP_LIMIT : Fld := ⟨0x100, 3, 0, .rw, 0xf⟩
def ROUTE_CFG_TRANSIT_PCT : Fld := ⟨0x100, 14, 8, .rw, 0x19⟩
def ROUTE_CFG_ESC_WAIT : Fld := ⟨0x100, 31, 16, .rw, 0xc8⟩
def PEN_CFG_AGE_US : Fld := ⟨0x104, 15, 0, .rw, 0x3e8⟩
def PEN_CFG_PV_LIMIT : Fld := ⟨0x104, 23, 16, .rw, 0x10⟩
def FLOW_TAB_LO : Fld := ⟨0x108, 31, 0, .st, 0⟩
def FLOW_TAB_HI : Fld := ⟨0x10C, 31, 0, .st, 0⟩
def FLOW_SEL_CTX : Fld := ⟨0x110, 17, 0, .rw, 0⟩
def FLOW_STAT_STATE : Fld := ⟨0x114, 1, 0, .ro, 0⟩
def FLOW_STAT_KIND : Fld := ⟨0x114, 3, 2, .ro, 0⟩
def FLOW_STAT_OUTSTANDING : Fld := ⟨0x114, 12, 4, .ro, 0⟩
def FLOW_STAT_OPEN : Fld := ⟨0x114, 15, 13, .ro, 0⟩
def FLOW_NEXT : Fld := ⟨0x118, 31, 0, .ro, 0⟩
def FLOW_UNA : Fld := ⟨0x11C, 31, 0, .ro, 0⟩
def FLOW_CTL_ENABLE : Fld := ⟨0x120, 0, 0, .w1s, 0⟩
def FLOW_CTL_DISABLE : Fld := ⟨0x120, 1, 1, .w1s, 0⟩
def CKT_TAB_LO : Fld := ⟨0x124, 31, 0, .st, 0⟩
def CKT_TAB_HI : Fld := ⟨0x128, 31, 0, .st, 0⟩
def MC_TAB_LO : Fld := ⟨0x12C, 31, 0, .st, 0⟩
def MC_TAB_HI : Fld := ⟨0x130, 31, 0, .st, 0⟩
def CKT_CRC : Fld := ⟨0x134, 31, 0, .ro, 0⟩
def MC_CRC : Fld := ⟨0x138, 31, 0, .ro, 0⟩
def XTAB_STAT_BUSY : Fld := ⟨0x13C, 0, 0, .ro, 0⟩
def XTAB_STAT_RESULT : Fld := ⟨0x13C, 5, 4, .ro, 0⟩
def CKT_SEL_CKT : Fld := ⟨0x140, 9, 0, .rw, 0⟩
def CKT_STAT_STATE : Fld := ⟨0x144, 1, 0, .ro, 0⟩
def CKT_STAT_OUTSTANDING : Fld := ⟨0x144, 12, 4, .ro, 0⟩
def RETX_COUNT : Fld := ⟨0x150, 15, 0, .rc, 0⟩
def DUP_COUNT : Fld := ⟨0x154, 15, 0, .rc, 0⟩
def REJECT_TX_COUNT : Fld := ⟨0x158, 15, 0, .rc, 0⟩
def REJECT_LAST_FID : Fld := ⟨0x15C, 19, 0, .ro, 0⟩
def REJECT_LAST_STATUS : Fld := ⟨0x15C, 27, 20, .ro, 0⟩
def TAG_DROP_COUNT : Fld := ⟨0x160, 15, 0, .rc, 0⟩
def CTX_DROP_COUNT : Fld := ⟨0x164, 15, 0, .rc, 0⟩
def FLOW_OOW_COUNT : Fld := ⟨0x168, 15, 0, .rc, 0⟩
def HOP_DROP_COUNT : Fld := ⟨0x16C, 15, 0, .rc, 0⟩
def AGE_DROP_COUNT : Fld := ⟨0x170, 15, 0, .rc, 0⟩
def PORT_LOST_COUNT : Fld := ⟨0x174, 15, 0, .rc, 0⟩
def CKT_DROP_COUNT : Fld := ⟨0x178, 15, 0, .rc, 0⟩
def FLOW_FAIL_LAST_CTX : Fld := ⟨0x17C, 17, 0, .ro, 0⟩
def FLOW_FAIL_LAST_CKT : Fld := ⟨0x17C, 18, 18, .ro, 0⟩
def TRANSIT_FLITS_LO : Fld := ⟨0x180, 31, 0, .ro, 0⟩
def TRANSIT_FLITS_HI : Fld := ⟨0x184, 31, 0, .ro, 0⟩
def ESC_PKTS_LO : Fld := ⟨0x188, 31, 0, .ro, 0⟩
def ESC_PKTS_HI : Fld := ⟨0x18C, 31, 0, .ro, 0⟩
/-- Every field of the ROUT page. -/
def fields : List Fld :=
  [DTAB_SRC_LO, DTAB_SRC_HI, DTAB_CTL_LOAD, DTAB_CTL_EDIT, DTAB_STAT_BUSY, DTAB_STAT_RESULT, DTAB_STAT_CHECK_OK, DTAB_CRC, DTAB_ACTIVE_CRC, DTAB_EDIT_ID_FID, DTAB_EDIT_VAL, NO_ROUTE_COUNT, NO_ROUTE_LAST_FID, ROUTE_CFG_HOP_LIMIT, ROUTE_CFG_TRANSIT_PCT, ROUTE_CFG_ESC_WAIT, PEN_CFG_AGE_US, PEN_CFG_PV_LIMIT, FLOW_TAB_LO, FLOW_TAB_HI, FLOW_SEL_CTX, FLOW_STAT_STATE, FLOW_STAT_KIND, FLOW_STAT_OUTSTANDING, FLOW_STAT_OPEN, FLOW_NEXT, FLOW_UNA, FLOW_CTL_ENABLE, FLOW_CTL_DISABLE, CKT_TAB_LO, CKT_TAB_HI, MC_TAB_LO, MC_TAB_HI, CKT_CRC, MC_CRC, XTAB_STAT_BUSY, XTAB_STAT_RESULT, CKT_SEL_CKT, CKT_STAT_STATE, CKT_STAT_OUTSTANDING] ++
  [RETX_COUNT, DUP_COUNT, REJECT_TX_COUNT, REJECT_LAST_FID, REJECT_LAST_STATUS, TAG_DROP_COUNT, CTX_DROP_COUNT, FLOW_OOW_COUNT, HOP_DROP_COUNT, AGE_DROP_COUNT, PORT_LOST_COUNT, CKT_DROP_COUNT, FLOW_FAIL_LAST_CTX, FLOW_FAIL_LAST_CKT, TRANSIT_FLITS_LO, TRANSIT_FLITS_HI, ESC_PKTS_LO, ESC_PKTS_HI]
end Reg.ROUT

/-! Registers of the SYNC page (R383). -/
namespace Reg.SYNC
def OBJ_TAB_LO : Fld := ⟨0x040, 31, 0, .st, 0⟩
def OBJ_TAB_HI : Fld := ⟨0x044, 31, 0, .st, 0⟩
def DROVE_STAT_STATE : Fld := ⟨0x048, 1, 0, .ro, 0⟩
def DROVE_STAT_MASTER : Fld := ⟨0x048, 2, 2, .ro, 0⟩
def DROVE_STAT_PARENT : Fld := ⟨0x048, 7, 4, .ro, 0⟩
def DROVE_STAT_DEPTH : Fld := ⟨0x048, 13, 8, .ro, 0⟩
def DROVE_LO : Fld := ⟨0x04C, 31, 0, .ro, 0⟩
def DROVE_HI : Fld := ⟨0x050, 31, 0, .ro, 0⟩
def MASTER_SERIAL_LO : Fld := ⟨0x054, 31, 0, .ro, 0⟩
def MASTER_SERIAL_HI : Fld := ⟨0x058, 31, 0, .ro, 0⟩
def DROVE_OFFSET_NS : Fld := ⟨0x05C, 31, 0, .ro, 0⟩
def DROVE_STEPS_COUNT : Fld := ⟨0x060, 15, 0, .rc, 0⟩
def DROVE_CFG_CANDIDATE : Fld := ⟨0x064, 0, 0, .rw, 1⟩
def PACE_CFG_FOLLOW : Fld := ⟨0x070, 0, 0, .rw, 1⟩
def PACE_CFG_POST : Fld := ⟨0x070, 1, 1, .rw, 1⟩
def PACE_STAT_OWN_MHZ : Fld := ⟨0x074, 11, 0, .ro, 0x9c4⟩
def PACE_STAT_HERD_MHZ : Fld := ⟨0x074, 27, 16, .ro, 0x9c4⟩
def PACE_STAT_ORIGINS : Fld := ⟨0x074, 31, 28, .ro, 0⟩
def PACE_ORIGIN_LO : Fld := ⟨0x078, 31, 0, .ro, 0⟩
def PACE_ORIGIN_HI : Fld := ⟨0x07C, 31, 0, .ro, 0⟩
def LATE_LAST_PAGE : Fld := ⟨0x080, 16, 0, .ro, 0⟩
def LATE_LAST_CAUSE : Fld := ⟨0x080, 23, 20, .ro, 0⟩
def LATE_NS : Fld := ⟨0x084, 31, 0, .ro, 0⟩
def LATE_COUNT_COUNT : Fld := ⟨0x088, 15, 0, .rc, 0⟩
def OBJ_SEL_OBJ : Fld := ⟨0x100, 15, 0, .rw, 0⟩
def OBJ_CMD_OP : Fld := ⟨0x104, 3, 0, .wo, 0⟩
def OBJ_CMD_VALUE : Fld := ⟨0x104, 31, 16, .wo, 0⟩
def OBJ_STAT_KIND : Fld := ⟨0x108, 2, 0, .ro, 0⟩
def OBJ_STAT_SCOPE : Fld := ⟨0x108, 4, 3, .ro, 0⟩
def OBJ_STAT_STATE : Fld := ⟨0x108, 6, 5, .ro, 0⟩
def OBJ_STAT_STATUS : Fld := ⟨0x108, 15, 8, .ro, 0⟩
def OBJ_STAT_FENCED : Fld := ⟨0x108, 29, 16, .ro, 0⟩
def OBJ_COUNT : Fld := ⟨0x10C, 31, 0, .ro, 0⟩
def OBJ_GEN : Fld := ⟨0x110, 31, 0, .ro, 0⟩
def OBJ_SKEW_NS : Fld := ⟨0x114, 31, 0, .ro, 0⟩
def REFUSED_COUNT : Fld := ⟨0x118, 15, 0, .rc, 0⟩
def ROUND_LOST_COUNT : Fld := ⟨0x11C, 15, 0, .rc, 0⟩
def RESEND_COUNT : Fld := ⟨0x120, 15, 0, .rc, 0⟩
def PLAN_ROUND (p : Nat) (r : Nat) : Fld := ⟨(0x200+0x40*p+4*r), 31, 0, .st, 0⟩
/-- Every field of the SYNC page. -/
def fields : List Fld :=
  [OBJ_TAB_LO, OBJ_TAB_HI, DROVE_STAT_STATE, DROVE_STAT_MASTER, DROVE_STAT_PARENT, DROVE_STAT_DEPTH, DROVE_LO, DROVE_HI, MASTER_SERIAL_LO, MASTER_SERIAL_HI, DROVE_OFFSET_NS, DROVE_STEPS_COUNT, DROVE_CFG_CANDIDATE, PACE_CFG_FOLLOW, PACE_CFG_POST, PACE_STAT_OWN_MHZ, PACE_STAT_HERD_MHZ, PACE_STAT_ORIGINS, PACE_ORIGIN_LO, PACE_ORIGIN_HI, LATE_LAST_PAGE, LATE_LAST_CAUSE, LATE_NS, LATE_COUNT_COUNT, OBJ_SEL_OBJ, OBJ_CMD_OP, OBJ_CMD_VALUE, OBJ_STAT_KIND, OBJ_STAT_SCOPE, OBJ_STAT_STATE, OBJ_STAT_STATUS, OBJ_STAT_FENCED, OBJ_COUNT, OBJ_GEN, OBJ_SKEW_NS, REFUSED_COUNT, ROUND_LOST_COUNT, RESEND_COUNT] ++
  (List.range 8).flatMap (fun x => (List.range 16).map (PLAN_ROUND x))
end Reg.SYNC

/-! Registers of the HCTL page (R406, R434, R512, R534 tables). -/
namespace Reg.HCTL
def CAP_HOST_WATTS : Fld := ⟨0x200, 11, 0, .st, 0x960⟩
def CAP_HOST_PARK : Fld := ⟨0x200, 16, 16, .st, 0⟩
def CAP_RACK_WATTS : Fld := ⟨0x204, 11, 0, .ro, 0x960⟩
def CAP_RACK_PARK : Fld := ⟨0x204, 16, 16, .ro, 0⟩
def CAP_THERM_WATTS : Fld := ⟨0x208, 11, 0, .ro, 0x960⟩
def CAP_FLOW_WATTS : Fld := ⟨0x20C, 11, 0, .ro, 0x258⟩
def CAP_EFF_WATTS : Fld := ⟨0x210, 11, 0, .ro, 0x258⟩
def CAP_EFF_SOURCE : Fld := ⟨0x210, 13, 12, .ro, 3⟩
def CAP_EFF_MODE : Fld := ⟨0x210, 16, 16, .ro, 0⟩
def CAP_EFF_PARK_SRC : Fld := ⟨0x210, 18, 17, .ro, 0⟩
def CAP_EFF_HOLD : Fld := ⟨0x210, 19, 19, .ro, 0⟩
def VIN_VALUE : Fld := ⟨0x214, 15, 0, .ro, 0⟩
def IIN_VALUE : Fld := ⟨0x218, 15, 0, .ro, 0⟩
def PWR_LEVEL_WATTS : Fld := ⟨0x21C, 11, 0, .ro, 0⟩
def PWR_WM_HI_WATTS : Fld := ⟨0x220, 11, 0, .rw, 0x960⟩
def PWR_WM_LO_WATTS : Fld := ⟨0x224, 11, 0, .rw, 0⟩
def PWR_PEAK_WATTS : Fld := ⟨0x228, 11, 0, .rc, 0⟩
def PWR_TROUGH_WATTS : Fld := ⟨0x22C, 11, 0, .rc, 0⟩
def PWR_1S_WATTS : Fld := ⟨0x230, 11, 0, .ro, 0⟩
def PWR_2MS_PEAK_WATTS : Fld := ⟨0x234, 11, 0, .rc, 0⟩
def PEAK_LIMIT_COUNT : Fld := ⟨0x238, 15, 0, .rc, 0⟩
def CAP_HOLD_COUNT : Fld := ⟨0x23C, 15, 0, .rc, 0⟩
def SHARE_CFG_ENABLE : Fld := ⟨0x240, 0, 0, .rw, 1⟩
def DIE_BUDGET_WATTS (d : Nat) : Fld := ⟨(0x244+4*d), 11, 0, .ro, 0⟩
def PHASE_SEL_PHASE : Fld := ⟨0x260, 7, 0, .rw, 0⟩
def PHASE_SEL_DIE : Fld := ⟨0x260, 9, 8, .rw, 0⟩
def PHASE_PWR_MW : Fld := ⟨0x264, 15, 0, .ro, 0⟩
def PHASE_PWR_VALID : Fld := ⟨0x264, 31, 31, .ro, 0⟩
def PHASE_SCALE_PCT : Fld := ⟨0x268, 7, 0, .ro, 0x64⟩
def PHASE_CTL_FORGET : Fld := ⟨0x26C, 0, 0, .w1s, 0⟩
def COOL_INLET_TEMP : Fld := ⟨0x280, 15, 0, .ro, 0⟩
def COOL_OUTLET_TEMP : Fld := ⟨0x284, 15, 0, .ro, 0⟩
def COOL_FLOW_MLMIN : Fld := ⟨0x288, 15, 0, .ro, 0⟩
def COOL_STAT_VALID : Fld := ⟨0x28C, 0, 0, .ro, 0⟩
def COOL_STAT_FLOW_BAD : Fld := ⟨0x28C, 1, 1, .ro, 0⟩
def COOL_STAT_FLOOR : Fld := ⟨0x28C, 2, 2, .ro, 0⟩
def COOL_STAT_FLOOR_CAUSE : Fld := ⟨0x28C, 5, 3, .ro, 0⟩
def COOL_CFG_HEAT_CAP : Fld := ⟨0x290, 12, 0, .rw, 0x1040⟩
def FLOW_EST_MLMIN : Fld := ⟨0x294, 15, 0, .ro, 0⟩
def COOL_BAD_COUNT : Fld := ⟨0x298, 15, 0, .rc, 0⟩
def FCAST_MODE : Fld := ⟨0x29C, 0, 0, .ro, 0⟩
def FCAST_HOT : Fld := ⟨0x29C, 15, 8, .ro, 0⟩
def HOTSPOT_TEMP : Fld := ⟨0x2A0, 7, 0, .ro, 0⟩
def HOTSPOT_INDEX : Fld := ⟨0x2A0, 24, 16, .ro, 0⟩
def PLAN_BASE_LO : Fld := ⟨0x2A4, 31, 0, .st, 0⟩
def PLAN_BASE_HI : Fld := ⟨0x2A8, 31, 0, .st, 0⟩
def PLAN_COUNT_COUNT : Fld := ⟨0x2AC, 12, 0, .st, 0⟩
def THERM_CTL_MODEL_ONLY : Fld := ⟨0x2B0, 0, 0, .rw, 0⟩
def SENSOR_FAILED_COUNT : Fld := ⟨0x2B4, 9, 0, .ro, 0⟩
def SENSOR_LAST_SENSOR : Fld := ⟨0x2B8, 9, 0, .ro, 0⟩
def SENSOR_LAST_CAUSE : Fld := ⟨0x2B8, 13, 12, .ro, 0⟩
def TRIP_LAST_SENSOR : Fld := ⟨0x2BC, 9, 0, .ro, 0⟩
def TRIP_LAST_VALID : Fld := ⟨0x2BC, 31, 31, .ro, 0⟩
def TMAX_DEGC (d : Nat) : Fld := ⟨(0x2C0+4*d), 7, 0, .ro, 0⟩
def TMAX_HOURS (d : Nat) : Fld := ⟨(0x2C0+4*d), 31, 8, .ro, 0⟩
def CYC_BAND (d : Nat) (b : Nat) : Fld := ⟨(0x300+4*(6*d+b)), 31, 0, .ro, 0⟩
def MGMT_MAC_LO : Fld := ⟨0x040, 31, 0, .ro, 0⟩
def MGMT_MAC_HI : Fld := ⟨0x044, 31, 0, .ro, 0⟩
def MGMT_STAT_LINK : Fld := ⟨0x048, 0, 0, .ro, 0⟩
def MGMT_BAD_COUNT : Fld := ⟨0x04C, 15, 0, .rc, 0⟩
def HCTL_RESTARTS_COUNT : Fld := ⟨0x050, 15, 0, .rc, 0⟩
def RACK_KEY (k : Nat) : Fld := ⟨(0x060+4*k), 31, 0, .st, 0⟩
def RACK_OSEQ_LO : Fld := ⟨0x080, 31, 0, .ro, 0⟩
def RACK_OSEQ_HI : Fld := ⟨0x084, 31, 0, .ro, 0⟩
def HB_STAT_RACK_LOST : Fld := ⟨0x088, 0, 0, .ro, 0⟩
def HB_STAT_BM_LOST : Fld := ⟨0x088, 1, 1, .ro, 0⟩
def ALERT_STAT_DEGRADED : Fld := ⟨0x090, 0, 0, .ro, 0⟩
def ALERT_STAT_START_FAIL : Fld := ⟨0x090, 1, 1, .ro, 0⟩
def ALERT_STAT_DEFAULTS : Fld := ⟨0x090, 2, 2, .ro, 0⟩
def ALERT_STAT_FLOOR : Fld := ⟨0x090, 3, 3, .ro, 0⟩
def ALERT_STAT_CAP_HOLD : Fld := ⟨0x090, 4, 4, .ro, 0⟩
def ALERT_MASK_MASK : Fld := ⟨0x094, 4, 0, .rw, 0⟩
def STORE_STAT_WEAR : Fld := ⟨0x0A0, 9, 0, .ro, 0⟩
def STORE_STAT_FORGOTTEN : Fld := ⟨0x0A0, 16, 16, .ro, 0⟩
def STORE_ERR_COUNT : Fld := ⟨0x0A4, 15, 0, .rc, 0⟩
def STORE_CTL_FORGET : Fld := ⟨0x0A8, 0, 0, .w1s, 0⟩
def FW_STAT_STATE : Fld := ⟨0x100, 2, 0, .ro, 0⟩
def FW_STAT_CAUSE : Fld := ⟨0x100, 7, 4, .ro, 0⟩
def FW_STAT_CHUNKS : Fld := ⟨0x100, 13, 8, .ro, 0⟩
def FW_STAT_RUN_SLOT : Fld := ⟨0x100, 16, 16, .ro, 0⟩
def FW_STAT_ACTIVE_SLOT : Fld := ⟨0x100, 17, 17, .ro, 0⟩
def FW_STAT_SEALED : Fld := ⟨0x100, 18, 18, .ro, 0⟩
def FW_SET_ID_LO : Fld := ⟨0x104, 31, 0, .ro, 0⟩
def FW_SET_ID_HI : Fld := ⟨0x108, 31, 0, .ro, 0⟩
def FW_DONE_LO : Fld := ⟨0x10C, 31, 0, .ro, 0⟩
def FW_DONE_HI : Fld := ⟨0x110, 31, 0, .ro, 0⟩
def FW_STAGED_EPOCH : Fld := ⟨0x114, 31, 0, .ro, 0⟩
def FW_CTL_PREPARE : Fld := ⟨0x118, 0, 0, .w1s, 0⟩
def FW_CTL_DISCARD : Fld := ⟨0x118, 1, 1, .w1s, 0⟩
def FW_CTL_MARK : Fld := ⟨0x118, 2, 2, .w1s, 0⟩
def FW_CTL_SEAL : Fld := ⟨0x118, 3, 3, .w1s, 0⟩
def FW_ACT_GO : Fld := ⟨0x11C, 0, 0, .st, 0⟩
def FW_ACT_STAT_RESULT : Fld := ⟨0x120, 1, 0, .ro, 0⟩
def FW_ACT_STAT_CAUSE : Fld := ⟨0x120, 7, 4, .ro, 0⟩
def FW_ACT_STAT_RESTARTS : Fld := ⟨0x120, 11, 8, .ro, 0⟩
def FW_ACT_CFG_LIMIT_MS : Fld := ⟨0x124, 7, 0, .rw, 0xa⟩
def FW_ACT_CFG_TILE_WAIT_MS : Fld := ⟨0x124, 31, 16, .rw, 0x3e8⟩
def FW_TILES_PENDING_COUNT : Fld := ⟨0x128, 8, 0, .ro, 0⟩
def FW_CHUNK_BAD_COUNT : Fld := ⟨0x12C, 15, 0, .rc, 0⟩
def FW_PIECE_DROP_COUNT : Fld := ⟨0x130, 15, 0, .rc, 0⟩
def FW_ROM_VER : Fld := ⟨0x134, 15, 0, .ro, 0⟩
def FW_FUSE_COUNT (k : Nat) : Fld := ⟨(0x140+4*k), 5, 0, .ro, 0⟩
/-- Every field of the HCTL page. -/
def fields : List Fld :=
  [CAP_HOST_WATTS, CAP_HOST_PARK, CAP_RACK_WATTS, CAP_RACK_PARK, CAP_THERM_WATTS, CAP_FLOW_WATTS, CAP_EFF_WATTS, CAP_EFF_SOURCE, CAP_EFF_MODE, CAP_EFF_PARK_SRC, CAP_EFF_HOLD, VIN_VALUE, IIN_VALUE, PWR_LEVEL_WATTS, PWR_WM_HI_WATTS, PWR_WM_LO_WATTS, PWR_PEAK_WATTS, PWR_TROUGH_WATTS, PWR_1S_WATTS, PWR_2MS_PEAK_WATTS, PEAK_LIMIT_COUNT, CAP_HOLD_COUNT, SHARE_CFG_ENABLE, PHASE_SEL_PHASE, PHASE_SEL_DIE, PHASE_PWR_MW, PHASE_PWR_VALID, PHASE_SCALE_PCT, PHASE_CTL_FORGET, COOL_INLET_TEMP, COOL_OUTLET_TEMP, COOL_FLOW_MLMIN, COOL_STAT_VALID, COOL_STAT_FLOW_BAD, COOL_STAT_FLOOR, COOL_STAT_FLOOR_CAUSE, COOL_CFG_HEAT_CAP, FLOW_EST_MLMIN, COOL_BAD_COUNT, FCAST_MODE] ++
  [FCAST_HOT, HOTSPOT_TEMP, HOTSPOT_INDEX, PLAN_BASE_LO, PLAN_BASE_HI, PLAN_COUNT_COUNT, THERM_CTL_MODEL_ONLY, SENSOR_FAILED_COUNT, SENSOR_LAST_SENSOR, SENSOR_LAST_CAUSE, TRIP_LAST_SENSOR, TRIP_LAST_VALID, MGMT_MAC_LO, MGMT_MAC_HI, MGMT_STAT_LINK, MGMT_BAD_COUNT, HCTL_RESTARTS_COUNT, RACK_OSEQ_LO, RACK_OSEQ_HI, HB_STAT_RACK_LOST, HB_STAT_BM_LOST, ALERT_STAT_DEGRADED, ALERT_STAT_START_FAIL, ALERT_STAT_DEFAULTS, ALERT_STAT_FLOOR, ALERT_STAT_CAP_HOLD, ALERT_MASK_MASK, STORE_STAT_WEAR, STORE_STAT_FORGOTTEN, STORE_ERR_COUNT, STORE_CTL_FORGET, FW_STAT_STATE, FW_STAT_CAUSE, FW_STAT_CHUNKS, FW_STAT_RUN_SLOT, FW_STAT_ACTIVE_SLOT, FW_STAT_SEALED, FW_SET_ID_LO, FW_SET_ID_HI, FW_DONE_LO] ++
  [FW_DONE_HI, FW_STAGED_EPOCH, FW_CTL_PREPARE, FW_CTL_DISCARD, FW_CTL_MARK, FW_CTL_SEAL, FW_ACT_GO, FW_ACT_STAT_RESULT, FW_ACT_STAT_CAUSE, FW_ACT_STAT_RESTARTS, FW_ACT_CFG_LIMIT_MS, FW_ACT_CFG_TILE_WAIT_MS, FW_TILES_PENDING_COUNT, FW_CHUNK_BAD_COUNT, FW_PIECE_DROP_COUNT, FW_ROM_VER] ++
  (List.range 4).map DIE_BUDGET_WATTS ++
  (List.range 6).map TMAX_DEGC ++
  (List.range 6).map TMAX_HOURS ++
  (List.range 6).flatMap (fun x => (List.range 6).map (CYC_BAND x)) ++
  (List.range 8).map RACK_KEY ++
  (List.range 5).map FW_FUSE_COUNT
end Reg.HCTL

/-! Registers of the ASSAY page (R449). -/
namespace Reg.ASSAY
def STAT_LINK_OK : Fld := ⟨0x040, 0, 0, .ro, 0⟩
def STAT_DROVE_SYNC : Fld := ⟨0x040, 1, 1, .ro, 0⟩
def STAT_REF_OK : Fld := ⟨0x040, 2, 2, .ro, 0⟩
def STAT_ROM_VER : Fld := ⟨0x040, 31, 16, .ro, 0⟩
def LATEST_SLOT : Fld := ⟨0x044, 3, 0, .ro, 0⟩
def LATEST_HSEQ_LO : Fld := ⟨0x048, 31, 0, .ro, 0⟩
def LATEST_HSEQ_HI : Fld := ⟨0x04C, 31, 0, .ro, 0⟩
def LINK_ERR_COUNT : Fld := ⟨0x050, 15, 0, .ro, 0⟩
/-- Every field of the ASSAY page. -/
def fields : List Fld :=
  [STAT_LINK_OK, STAT_DROVE_SYNC, STAT_REF_OK, STAT_ROM_VER, LATEST_SLOT, LATEST_HSEQ_LO, LATEST_HSEQ_HI, LINK_ERR_COUNT]
end Reg.ASSAY

/-! Registers of the PCIE page (R477, R513). -/
namespace Reg.PCIE
def LINK_GEN : Fld := ⟨0x040, 2, 0, .ro, 0⟩
def LINK_WIDTH : Fld := ⟨0x040, 5, 3, .ro, 0⟩
def LINK_FLIT : Fld := ⟨0x040, 6, 6, .ro, 0⟩
def LINK_DSTATE : Fld := ⟨0x040, 7, 7, .ro, 0⟩
def FN_RESETS_COUNT : Fld := ⟨0x044, 15, 0, .rc, 0⟩
def WIN_BASE_LO : Fld := ⟨0x048, 31, 0, .st, 0⟩
def WIN_BASE_HI : Fld := ⟨0x04C, 31, 0, .st, 0⟩
def EVT_VEC_VECTOR : Fld := ⟨0x050, 10, 0, .rw, 0⟩
def EVT_VEC_EN : Fld := ⟨0x050, 31, 31, .rw, 0⟩
def IRQ_CFG_HOLDOFF_NS : Fld := ⟨0x054, 15, 0, .rw, 0⟩
def CMDREC_PAGE : Fld := ⟨0x058, 19, 0, .st, 0⟩
def QSEL_Q : Fld := ⟨0x060, 5, 0, .rw, 0⟩
def QSTAT_STATE : Fld := ⟨0x064, 1, 0, .ro, 0⟩
def QSTAT_ERR : Fld := ⟨0x064, 6, 4, .ro, 0⟩
def QSTAT_RUNNING : Fld := ⟨0x064, 12, 8, .ro, 0⟩
def Q_SQ_BASE_LO : Fld := ⟨0x068, 31, 0, .rw, 0⟩
def Q_SQ_BASE_HI : Fld := ⟨0x06C, 31, 0, .rw, 0⟩
def Q_CQ_BASE_LO : Fld := ⟨0x070, 31, 0, .rw, 0⟩
def Q_CQ_BASE_HI : Fld := ⟨0x074, 31, 0, .rw, 0⟩
def Q_CFG_SQ_LOG2 : Fld := ⟨0x078, 4, 0, .rw, 4⟩
def Q_CFG_CQ_LOG2 : Fld := ⟨0x078, 12, 8, .rw, 4⟩
def Q_CFG_VECTOR : Fld := ⟨0x078, 26, 16, .rw, 0⟩
def Q_CFG_IRQ_EN : Fld := ⟨0x078, 27, 27, .rw, 0⟩
def Q_SQ_HEAD : Fld := ⟨0x07C, 31, 0, .ro, 0⟩
def Q_CQ_TAIL : Fld := ⟨0x080, 31, 0, .ro, 0⟩
def Q_HIGH_ID_LO : Fld := ⟨0x084, 31, 0, .ro, 0⟩
def Q_HIGH_ID_HI : Fld := ⟨0x088, 31, 0, .ro, 0⟩
def Q_CTL_ENABLE : Fld := ⟨0x08C, 0, 0, .w1s, 0⟩
def Q_CTL_DISABLE : Fld := ⟨0x08C, 1, 1, .w1s, 0⟩
def Q_CTL_CLEAN : Fld := ⟨0x08C, 2, 2, .w1s, 0⟩
def BAR2_ERR_COUNT : Fld := ⟨0x090, 15, 0, .rc, 0⟩
def BAR2_DROP_COUNT : Fld := ⟨0x094, 15, 0, .rc, 0⟩
def DMA_ERR_COUNT : Fld := ⟨0x098, 15, 0, .rc, 0⟩
def POISON_RX_COUNT : Fld := ⟨0x09C, 15, 0, .rc, 0⟩
def BOOT_STAT_STATE : Fld := ⟨0x0A0, 2, 0, .ro, 0⟩
def BOOT_CTL_GO : Fld := ⟨0x0A4, 0, 0, .w1s, 0⟩
/-- Every field of the PCIE page. -/
def fields : List Fld :=
  [LINK_GEN, LINK_WIDTH, LINK_FLIT, LINK_DSTATE, FN_RESETS_COUNT, WIN_BASE_LO, WIN_BASE_HI, EVT_VEC_VECTOR, EVT_VEC_EN, IRQ_CFG_HOLDOFF_NS, CMDREC_PAGE, QSEL_Q, QSTAT_STATE, QSTAT_ERR, QSTAT_RUNNING, Q_SQ_BASE_LO, Q_SQ_BASE_HI, Q_CQ_BASE_LO, Q_CQ_BASE_HI, Q_CFG_SQ_LOG2, Q_CFG_CQ_LOG2, Q_CFG_VECTOR, Q_CFG_IRQ_EN, Q_SQ_HEAD, Q_CQ_TAIL, Q_HIGH_ID_LO, Q_HIGH_ID_HI, Q_CTL_ENABLE, Q_CTL_DISABLE, Q_CTL_CLEAN, BAR2_ERR_COUNT, BAR2_DROP_COUNT, DMA_ERR_COUNT, POISON_RX_COUNT, BOOT_STAT_STATE, BOOT_CTL_GO]
end Reg.PCIE


end Sys2Proof.Machine
end

