-- ==== Sys2Proof/Machine/Units.lean ====
section
/-! DEFINITION. The tree of units: page index, kind, parent, children and own event bits of each (R19, R553, R554). -/

namespace Sys2Proof

open Sys2Proof.Machine

/-- The page index of a unit (R553); for a tile, of its physical position, which is its page while no tile of its
cluster has left. It keys the register maps. -/
def UnitId.key : UnitId → Nat
  | .pkg => 0
  | .cdie d => 1 + d
  | .hub h => 5 + h
  | .assay => 7
  | .clus d c => 0x10 + 16 * d + c
  | .mstk m => 0x10 + 16 * (m / 3) + 13 + m % 3
  | .port p => if p.val < 8 then 0x50 + p else 0x58 + p
  | .rout h => 0x58 + 16 * h
  | .sync h => 0x59 + 16 * h
  | .pcie => 0x5A
  | .place => 0x5B
  | .hctl => 0x5C
  | .tile d t => 0x100 + 104 * d + t
  | .mchn m ch => 0x300 + 16 * m + ch

/-- UNIT_ID.KIND (R555). -/
def UnitId.kind : UnitId → Nat
  | .pkg => 1 | .cdie _ => 2 | .clus _ _ => 3 | .tile _ _ => 4 | .mstk _ => 5 | .mchn _ _ => 6 | .hub _ => 7
  | .port _ => 8 | .rout _ => 9 | .sync _ => 10 | .pcie => 11 | .place => 12 | .hctl => 13 | .assay => 14

/-- UNIT_ID.INSTANCE within the kind (R554); a tile reads its child number (R112), given by `tileChild`. -/
def UnitId.inst : UnitId → Nat
  | .cdie d => d | .hub h => h | .clus _ c => c | .mstk m => m % 3 | .mchn _ ch => ch | .port p => p % 8
  | .tile _ t => t % 8 | _ => 0

/-- The register fields of a kind, header aside. -/
def UnitId.fields : UnitId → List Fld
  | .pkg => Reg.PKG.fields | .cdie _ => Reg.CDIE.fields | .tile _ _ => Reg.TILE.fields | .mstk _ => Reg.MSTK.fields
  | .mchn _ _ => Reg.MCHN.fields | .port _ => Reg.PORT.fields | .rout _ => Reg.ROUT.fields
  | .sync _ => Reg.SYNC.fields | .pcie => Reg.PCIE.fields | .place => Reg.PLACE.fields | .hctl => Reg.HCTL.fields
  | .assay => Reg.ASSAY.fields | .clus _ _ => [] | .hub _ => []

/-- Own event bits of a kind: EVT_PEND bit allocation of the register index. -/
def UnitId.ownBit (u : UnitId) (b : Nat) : Bool :=
  match u with
  | .pkg => 16 ≤ b && b ≤ 20
  | .cdie _ => 16 ≤ b && b ≤ 26
  | .clus _ _ | .hub _ => false
  | .tile _ _ => b ≤ 8
  | .mstk _ => 16 ≤ b && b ≤ 18
  | .mchn _ _ => b ≤ 5
  | .port _ => b ≤ 15
  | .rout _ => b ≤ 7
  | .sync _ => b ≤ 9
  | .pcie => b ≤ 6
  | .place => b ≤ 7
  | .hctl => b ≤ 24
  | .assay => b ≤ 4

/-- The unit raises the event: five of SYNC are raised on H0's page only (R384). -/
def UnitId.raises (u : UnitId) (b : Nat) : Bool :=
  match u with
  | .sync h => u.ownBit b && (h.val == 0 || b == 4 || decide (6 ≤ b))
  | _ => u.ownBit b

/-- The own event bits as a mask. -/
def UnitId.ownMask (u : UnitId) : Nat :=
  ((List.range 32).filter u.ownBit).foldl (fun m b => m + 2 ^ b) 0

/-- The parent of a unit (R553). -/
def UnitId.parent : UnitId → Option UnitId
  | .pkg => none
  | .cdie _ | .hub _ | .assay => some .pkg
  | .clus d _ => some (.cdie d)
  | .mstk m => some (.cdie ⟨m / 3, by omega⟩)
  | .tile d t => some (.clus d ⟨t / 8, by omega⟩)
  | .mchn m _ => some (.mstk m)
  | .port p => some (.hub ⟨p / 8, by omega⟩)
  | .rout h => some (.hub h)
  | .sync h => some (.hub h)
  | .pcie | .place | .hctl => some (.hub 0)

/-- Number of children of a unit at reset, and its child positions (R19, R554, R556). -/
def UnitId.counts : UnitId → Nat × Nat
  | .pkg => (7, 7) | .cdie _ => (16, 16) | .clus _ c => (if c.val < 12 then 8 else 4, 8) | .mstk _ => (16, 16)
  | .hub h => if h.val = 0 then (13, 13) else (10, 10) | _ => (0, 0)

/-- Page of child position 0 (R553). -/
def UnitId.firstChild : UnitId → Nat
  | .pkg => 1 | .cdie d => 0x10 + 16 * d | .hub h => 0x50 + 16 * h | .clus d c => 0x100 + 104 * d + 8 * c
  | .mstk m => 0x300 + 16 * m | _ => 0xFFFF

end Sys2Proof
end

