-- ==== Sys2Proof/Machine/Ops.lean ====
section
/-! DEFINITION. The named operations every meaning is written over: registers and their fields, events and their
counters, summaries up the tree of units, watermarks, MSI-X vectors, the fence. -/

namespace Sys2Proof.Machine

open Sys2Proof

/-- What a meaning answers. -/
abbrev Ans := Host.Outcome State Fault Refusal

/-! ## Status codes of tile operations (R105) -/

abbrev St.badFormat : Nat := 0x01
abbrev St.badLayout : Nat := 0x02
abbrev St.badMode : Nat := 0x03
abbrev St.outOfRange : Nat := 0x04
abbrev St.pmemFault : Nat := 0x05
abbrev St.memUe : Nat := 0x06
abbrev St.lsUe : Nat := 0x07
abbrev St.computeCheck : Nat := 0x08
abbrev St.anchorExceeded : Nat := 0x09
abbrev St.destSlotDown : Nat := 0x0A
abbrev St.windowClosed : Nat := 0x0B
abbrev St.windowOverrun : Nat := 0x0C
abbrev St.destFenced : Nat := 0x0D
abbrev St.tagReject : Nat := 0x0E
abbrev St.kernelBad : Nat := 0x0F

/-! ## Words and fields -/

/-- A field of a word. -/
def getBits (w : Word) (hi lo : Nat) : Nat := ((w >>> lo) &&& BitVec.ofNat 32 (2 ^ (hi + 1 - lo) - 1)).toNat

/-- The bits a field covers. -/
def fieldMask (hi lo : Nat) : Word := BitVec.ofNat 32 ((2 ^ (hi + 1 - lo) - 1) * 2 ^ lo)

/-- A word with one field replaced. -/
def setBits (w : Word) (hi lo v : Nat) : Word :=
  (w &&& ~~~(fieldMask hi lo)) ||| (BitVec.ofNat 32 (v * 2 ^ lo) &&& fieldMask hi lo)

/-- The word key of a unit page's register. -/
def regKey (u : UnitId) (off : Nat) : Nat := u.key * 1024 + off / 4

/-- The reset word of a register (R556 and the register tables). Shipment assignment: slot s on physical tile s of
each die, tiles 100–103 spare (R64; notes/assumptions/3.md). -/
def resetWord (u : UnitId) (off : Nat) : Word :=
  let fold := (u.fields.filter (fun f => f.off = off)).foldl (fun w f => setBits w f.hi f.lo f.rst) 0
  match off with
  | 0x000 => BitVec.ofNat 32 (u.kind * 2 ^ 24 + u.inst * 2 ^ 8 + 1)
  | 0x004 => BitVec.ofNat 32 ((match u.parent with | none => 0xFFFF | some p => p.key) + u.firstChild * 2 ^ 16)
  | 0x008 => BitVec.ofNat 32 (u.counts.1 + u.counts.2 * 2 ^ 8)
  | _ =>
    if off < 0x040 then 0 else
    match u with
    | .tile _ t => if off = 0x040 then BitVec.ofNat 32 (t + (if t.val < 100 then t.val else 0x7F) * 2 ^ 8) else fold
    | .mstk m => if off = 0x040 then BitVec.ofNat 32 m else fold
    | .cdie _ =>
      if off = 0x078 then 0x5500
      else if 0x100 ≤ off && off < 0x290 then BitVec.ofNat 32 (0x80 + (off - 0x100) / 4) else fold
    | _ => fold

/-! ## The register file -/

/-- The word in force. -/
def State.getW (s : State) (u : UnitId) (off : Nat) : Word := s.regs.getD (regKey u off) (resetWord u off)

/-- Put a word in force. -/
def State.setW (s : State) (u : UnitId) (off : Nat) (w : Word) : State :=
  { s with regs := s.regs.putD (regKey u off) w (resetWord u off) }

/-- A field in force. -/
def State.getF (s : State) (u : UnitId) (f : Fld) : Nat := getBits (s.getW u f.off) f.hi f.lo

/-- Put a field in force; a value too wide keeps its low bits. -/
def State.setF (s : State) (u : UnitId) (f : Fld) (v : Nat) : State :=
  s.setW u f.off (setBits (s.getW u f.off) f.hi f.lo v)

/-- A field that is a flag. -/
def State.isSet (s : State) (u : UnitId) (f : Fld) : Bool := s.getF u f != 0

/-- A register pair read as one number (R9). -/
def State.getPair (s : State) (u : UnitId) (lo hi : Fld) : Nat := s.getF u lo + 2 ^ 32 * s.getF u hi

/-- Write a register pair. -/
def State.setPair (s : State) (u : UnitId) (lo hi : Fld) (v : Nat) : State :=
  (s.setF u lo v).setF u hi (v / 2 ^ 32)

/-- Largest value of a field. -/
def Fld.max (f : Fld) : Nat := 2 ^ (f.hi + 1 - f.lo) - 1

/-- Count n more in a saturating counter (R538). -/
def State.bumpBy (s : State) (u : UnitId) (f : Fld) (n : Nat) : State :=
  s.setF u f (min (s.getF u f + n) f.max)

/-- Count one occurrence (R538). -/
def State.bump (s : State) (u : UnitId) (f : Fld) : State := s.bumpBy u f 1

/-- Add to a 64-bit count held in a register pair. -/
def State.addPair (s : State) (u : UnitId) (lo hi : Fld) (n : Nat) : State :=
  s.setPair u lo hi (s.getPair u lo hi + n)

/-- The word of a staged register as last staged (R559): its shadow, or the value in force. -/
def State.getShadow (s : State) (u : UnitId) (off : Nat) : Word := s.shadow.getD (regKey u off) (s.getW u off)

/-- Send something out. -/
def State.emit (s : State) (o : Out) : State := { s with out := s.out ++ [o] }

/-- A free value for the next open value: the counter advances. -/
def State.tickFree (s : State) : State := { s with freeCtr := s.freeCtr + 1 }

/-- Drove time that counts as elapsed: forward steps add nothing (R373). -/
def State.elapsed (s : State) : Nat := s.drove - s.stepped

/-! ## MSI-X vectors (R473) -/

/-- A word of the MSI-X table; a vector-control word is masked at reset (notes/assumptions/5.md). -/
def State.msixWord (s : State) (k : Nat) : Word := s.host.msixTab.getD k (if k % 4 = 3 then 1 else 0)

/-- Messages of a vector may be sent now: Bus Master Enable, D0, not masked, and the holdoff has passed (R473). -/
def State.vectorOpen (s : State) (v : Nat) : Bool :=
  s.host.bme && !s.host.d3hot && !s.host.fnMask && getBits (s.msixWord (4 * v + 3)) 0 0 == 0 &&
    (let hold := s.getF .pcie Reg.PCIE.IRQ_CFG_HOLDOFF_NS
     match s.host.msixLast.find v with
     | none => true
     | some t => decide (hold = 0 ∨ t + hold ≤ s.elapsed))

/-- Send the message of a pending vector if it may be sent, and leave it pending if not. -/
def State.sendVector (s : State) (v : Nat) : State :=
  if s.host.msixPend.getD v false && s.vectorOpen v then
    { s.emit (.msix v ((s.msixWord (4 * v)).toNat + 2 ^ 32 * (s.msixWord (4 * v + 1)).toNat)
        (s.msixWord (4 * v + 2)).toNat) with
      host := { s.host with msixPend := s.host.msixPend.del v, msixLast := s.host.msixLast.put v s.elapsed } }
  else s

/-- Raise a vector: it becomes pending, merging with a pending raise, and its message goes out when it may. -/
def State.raiseVector (s : State) (v : Nat) : State :=
  State.sendVector { s with host := { s.host with msixPend := s.host.msixPend.put v true } } v

/-- Send every pending vector that may be sent. -/
def State.flushVectors (s : State) : State := s.host.msixPend.keys.foldl State.sendVector s

/-! ## Events (R535, R536) -/

/-- Key of an event counter. -/
def evtKey (u : UnitId) (b : Nat) : Nat := u.key * 32 + b

/-- An own event occurs: its EVT_PEND bit is set and its counter counts, whatever EVT_MASK holds. -/
def State.raise (s : State) (u : UnitId) (b : Nat) : State :=
  let s := s.setW u 0x014 (s.getW u 0x014 ||| BitVec.ofNat 32 (2 ^ b))
  { s with evtCnt := s.evtCnt.putD (evtKey u b) (min (s.evtCnt.getD (evtKey u b) 0 + 1) 0xFFFF) 0 }

/-- An event is pending. -/
def State.pend (s : State) (u : UnitId) (b : Nat) : Bool := (s.getW u 0x014).getLsbD b

/-! ## Tiles in their clusters (R64, R112) -/

/-- The state of a physical tile: 0 ACTIVE, 1 SPARE, 2 FAILED (R110). -/
def State.tileState (s : State) (d : Fin 4) (t : Nat) : Nat :=
  getBits (s.getW (.cdie d) (0x060 + 4 * (t / 16))) (2 * (t % 16) + 1) (2 * (t % 16))

/-- Set the state of a physical tile. -/
def State.setTileState (s : State) (d : Fin 4) (t v : Nat) : State :=
  s.setW (.cdie d) (0x060 + 4 * (t / 16))
    (setBits (s.getW (.cdie d) (0x060 + 4 * (t / 16))) (2 * (t % 16) + 1) (2 * (t % 16)) v)

/-- Active tiles of a cluster in ascending physical order (R112). -/
def State.clusterTiles (s : State) (d : Fin 4) (c : Nat) : List Nat :=
  ((List.range 8).map (fun n => 8 * c + n)).filter (fun t => s.tileState d t == 0)

/-- Child number of a tile in its cluster (R112). -/
def State.tileChild (s : State) (d : Fin 4) (t : Nat) : Nat :=
  ((s.clusterTiles d (t / 8)).filter (fun x => decide (x < t))).length

/-- Child position of a unit under its parent (R554). -/
def State.childPos (s : State) (u : UnitId) : Nat :=
  match u with
  | .cdie d => d | .hub h => 4 + h | .assay => 6 | .clus _ c => c | .mstk m => 13 + m % 3
  | .tile d t => s.tileChild d t | .mchn _ ch => ch | .port p => p % 8 | .rout _ => 8 | .sync _ => 9
  | .pcie => 10 | .place => 11 | .hctl => 12 | .pkg => 0

/-- The children a unit presents, in position order (R19, R554). -/
def State.children (s : State) : UnitId → List UnitId
  | .pkg => (List.finRange 4).map .cdie ++ (List.finRange 2).map .hub ++ [.assay]
  | .cdie d => (List.finRange 13).map (.clus d) ++
      (List.finRange 12).filterMap (fun m => if m.val / 3 = d.val then some (.mstk m) else none)
  | .clus d c => (List.finRange 104).filterMap
      (fun (t : Fin 104) => if t.val / 8 = c.val && s.tileState d t == 0 then some (UnitId.tile d t) else none)
  | .mstk m => (List.finRange 16).map (.mchn m)
  | .hub h => (List.finRange 16).filterMap (fun p => if p.val / 8 = h.val then some (.port p) else none) ++
      [.rout h, .sync h] ++ (if h.val = 0 then [.pcie, .place, .hctl] else [])
  | _ => []

/-- Worst of a unit's own condition and its children's HEALTH (R20, R540). -/
def State.worstHealth (s : State) (u : UnitId) : Nat :=
  (s.children u).foldl (fun w c => max w (s.getF c Reg.HEALTH_HEALTH)) (s.getF u Reg.HEALTH_OWN)

/-- Some event of the unit is pending and unmasked (R21). -/
def State.unmasked (s : State) (u : UnitId) : Bool := (s.getW u 0x014 &&& ~~~(s.getW u 0x018)) != 0

/-- ALERT_STAT.DEGRADED follows PKG.HEALTH (R512 table, R481). -/
def State.alertHealth (s : State) : State :=
  s.setF .hctl Reg.HCTL.ALERT_STAT_DEGRADED (if s.getF .pkg Reg.HEALTH_HEALTH = 0 then 0 else 1)

/-- The package summary changed from no unmasked bit to any: PCIE.EVT_VEC is raised (R473). -/
def State.pkgSummary (s : State) (was : Bool) : State :=
  if !was && s.unmasked .pkg && s.isSet .pcie Reg.PCIE.EVT_VEC_EN then
    s.raiseVector (s.getF .pcie Reg.PCIE.EVT_VEC_VECTOR)
  else s

/-- The unit is a child of its parent: a tile that is a spare or has been disabled is none (R19). -/
def State.isChild (s : State) : UnitId → Bool
  | .tile d t => s.tileState d t == 0
  | _ => true

/-- A child's summary reaches its parent's header (R21, R22). -/
def State.propagate (s : State) (u : UnitId) : State :=
  if !s.isChild u then s else
  match u.parent with
  | none => s
  | some p =>
    let was := s.unmasked .pkg
    let s := s.setF u Reg.HEALTH_HEALTH (s.worstHealth u)
    let i := s.childPos u
    let s := s.setW p 0x014 (setBits (s.getW p 0x014) i i (if s.unmasked u then 1 else 0))
    let s := s.setF p Reg.HEALTH_HEALTH (s.worstHealth p)
    if p = .pkg then (s.pkgSummary was).alertHealth else s

/-- Raise an event of the package page: PCIE.EVT_VEC follows a rising summary at once (R473). -/
def State.raisePkg (s : State) (b : Nat) : State :=
  let was := s.unmasked .pkg
  (s.raise .pkg b).pkgSummary was

/-- Set a unit's own condition; its HEALTH follows (R20, R540). -/
def State.setOwn (s : State) (u : UnitId) (v : Nat) : State :=
  let s := s.setF u Reg.HEALTH_OWN v
  let s := s.setF u Reg.HEALTH_HEALTH (s.worstHealth u)
  if u = .pkg then s.alertHealth else s

/-! ## Pages -/

/-- The unit at a page index, if the tree presents one (R457, R553). -/
def State.unitAt (s : State) (page : Nat) : Option UnitId :=
  let fixed := [UnitId.pkg, .assay, .pcie, .place, .hctl] ++ (List.finRange 4).map .cdie ++
    (List.finRange 2).map .hub ++ (List.finRange 16).map .port ++ (List.finRange 2).map .rout ++
    (List.finRange 2).map .sync ++ (List.finRange 12).map .mstk
  if 0x100 ≤ page && page < 0x100 + 416 then
    let i := page - 0x100
    let d : Fin 4 := ⟨i / 104 % 4, by omega⟩
    match (s.clusterTiles d (i % 104 / 8))[i % 104 % 8]? with
    | some t => if h : t < 104 then some (.tile d ⟨t, h⟩) else none
    | none => none
  else if 0x300 ≤ page && page < 0x3C0 then
    some (.mchn ⟨(page - 0x300) / 16 % 12, by omega⟩ ⟨page % 16, by omega⟩)
  else if 0x10 ≤ page && page < 0x50 && page % 16 < 13 then
    some (.clus ⟨(page / 16 - 1) % 4, by omega⟩ ⟨page % 16 % 13, by omega⟩)
  else fixed.find? (fun u => u.key == page)

/-- The page index a unit is presented at (R553): a tile at its child number. -/
def State.pageOf (s : State) (u : UnitId) : Nat :=
  match u with
  | .tile d t => 0x100 + 104 * d + 8 * (t / 8) + s.tileChild d t
  | _ => u.key

/-! ## Watermarks (R539) -/

/-- The registers of a level with watermarks. -/
structure LevelRegs where
  unit : UnitId
  level : Fld
  wmHi : Fld
  wmLo : Fld
  peak : Fld
  trough : Fld
  up : Nat
  down : Nat

/-- PLACE.SPILL_RATIO (R226). -/
def spillLevel : LevelRegs :=
  ⟨.place, Reg.PLACE.SPILL_RATIO_LEVEL, Reg.PLACE.SPILL_RATIO_WM_HI, Reg.PLACE.SPILL_RATIO_WM_LO,
    Reg.PLACE.SPILL_RATIO_PEAK, Reg.PLACE.SPILL_RATIO_TROUGH, Evt.PLACE.SPILL_CROSSED_UP, Evt.PLACE.SPILL_CROSSED_DOWN⟩

/-- HCTL.PWR_LEVEL (R406). -/
def pwrLevel : LevelRegs :=
  ⟨.hctl, Reg.HCTL.PWR_LEVEL_WATTS, Reg.HCTL.PWR_WM_HI_WATTS, Reg.HCTL.PWR_WM_LO_WATTS, Reg.HCTL.PWR_PEAK_WATTS,
    Reg.HCTL.PWR_TROUGH_WATTS, Evt.HCTL.PWR_CROSSED_UP, Evt.HCTL.PWR_CROSSED_DOWN⟩

/-- CROSSED_UP and CROSSED_DOWN for a move of LEVEL, WM_HI or WM_LO: judged on the relations before and after. -/
def State.judgeLevel (s : State) (L : LevelRegs) (l0 hi0 lo0 : Nat) : State :=
  let l1 := s.getF L.unit L.level
  let hi1 := s.getF L.unit L.wmHi
  let lo1 := s.getF L.unit L.wmLo
  let s := if l0 < hi0 ∧ hi1 ≤ l1 then s.raise L.unit L.up else s
  if lo0 < l0 ∧ l1 ≤ lo1 then s.raise L.unit L.down else s

/-- LEVEL moves: PEAK and TROUGH follow, crossings are raised. -/
def State.moveLevel (s : State) (L : LevelRegs) (v : Nat) : State :=
  let l0 := s.getF L.unit L.level
  let s := s.setF L.unit L.level v
  let s := s.setF L.unit L.peak (max (s.getF L.unit L.peak) v)
  let s := s.setF L.unit L.trough (min (s.getF L.unit L.trough) v)
  s.judgeLevel L l0 (s.getF L.unit L.wmHi) (s.getF L.unit L.wmLo)

/-- A watermark is written. -/
def State.writeMark (s : State) (L : LevelRegs) (hi : Bool) (v : Nat) : State :=
  let hi0 := s.getF L.unit L.wmHi
  let lo0 := s.getF L.unit L.wmLo
  let s := s.setF L.unit (if hi then L.wmHi else L.wmLo) v
  s.judgeLevel L (s.getF L.unit L.level) hi0 lo0

/-! ## The fence (R541, R546, R547) -/

/-- The package is fenced (R541). -/
def State.fenced (s : State) : Bool := s.isSet .pkg Reg.PKG.FENCE_FENCED

/-- The package's own condition (R540): FAILED once START.STATE is FAILED (R487), which no other condition lowers (DEDUCED, the spec gives no
priority: notes/assumptions/55.md); then FENCED, then DEGRADED. -/
def State.pkgOwn (s : State) : Nat :=
  if s.getF .pkg Reg.PKG.START_STATE = 6 then 3 else if s.fenced then 2 else if s.getF .pkg Reg.PKG.DIE_LINKS_UP = 0x1FF then 0 else 1

end Sys2Proof.Machine
end

