-- ==== Sys2Proof/Machine/FlowOps.lean ====
section
/-! DEFINITION. Packets and flows as shared operations: CRC-32C (R261), packets and their flits (R293), send contexts
(R314, R320). -/

namespace Sys2Proof

open Sys2Proof.Machine

/-! ## CRC-32C (R261) -/

/-- One bit of the reflected Castagnoli division. -/
def crcBit (c : Nat) : Nat := if c % 2 = 1 then (c / 2) ^^^ 0x82F63B78 else c / 2

/-- One byte. -/
def crcByte (c : Nat) (b : Byte) : Nat :=
  crcBit (crcBit (crcBit (crcBit (crcBit (crcBit (crcBit (crcBit (c ^^^ b.toNat))))))))

/-- CRC-32C of bytes. -/
def crc32c (bs : List Byte) : Nat := bs.foldl crcByte 0xFFFFFFFF ^^^ 0xFFFFFFFF

/-! ## Packets and flits (R293) -/

/-- Flits of a packet with a payload of n bytes. -/
def flitCount (n : Nat) : Nat := (n + 52 + 59) / 60

def Packet.flits (p : Packet) : Nat := flitCount p.payload.length

/-- Place a value at bits from lo. -/
def bitAt (v lo w : Nat) : Nat := v % 2 ^ w * 2 ^ lo

def boolAt (b : Bool) (lo : Nat) : Nat := if b then 2 ^ lo else 0

/-- The 48-byte header (table of R293). -/
def Packet.header (p : Packet) : List Byte :=
  leBytes 4 (bitAt p.op 0 5 + bitAt p.vc 5 3 + bitAt p.flits 8 7 + boolAt p.last 15 + bitAt p.hops 16 4 +
    boolAt p.guest 20 + bitAt p.msgId 24 8) ++
  leBytes 4 (bitAt p.jobTag 0 16 + bitAt p.payload.length 16 13 + bitAt p.tryN 29 3) ++
  leBytes 4 (bitAt p.dstFid 0 20) ++ leBytes 4 (bitAt p.srcFid 0 20) ++ leBytes 4 p.seq ++
  leBytes 4 (bitAt p.ctx 0 18) ++ leBytes 8 p.addr ++ leBytes 4 p.msgBytes ++
  leBytes 4 (bitAt p.dstSync 0 16 + boolAt p.sig 16 + bitAt p.aop 24 4) ++ leBytes 8 p.arg

/-- PCRC of a packet: VC and HOPS count as 0. -/
def Packet.pcrc (p : Packet) : Nat := crc32c ({ p with vc := 0, hops := 0 }.header ++ p.payload)

/-- The packet's bytes over its flit bodies: header, payload, zeros, PCRC in the last body's bytes 56–59. -/
def Packet.bytes (p : Packet) : List Byte :=
  let b := p.header ++ p.payload
  b ++ List.replicate (60 * p.flits - 4 - b.length) 0 ++ leBytes 4 p.pcrc

/-- Cut bytes into n bodies of 60. -/
def cut60 (b : List Byte) : Nat → List (List Byte)
  | 0 => []
  | n + 1 => b.take 60 :: cut60 (b.drop 60) n

/-- The packet that the bytes of its flit bodies hold. -/
def Packet.ofBytes (b : List Byte) : Packet :=
  let f := fun o n => leNat ((b.drop o).take n)
  let w0 := f 0 4
  let w1 := f 4 4
  let w9 := f 36 4
  { op := bitsOf w0 4 0, vc := bitsOf w0 7 5, last := bitsOf w0 15 15 = 1, hops := bitsOf w0 19 16,
    guest := bitsOf w0 20 20 = 1, msgId := bitsOf w0 31 24, jobTag := bitsOf w1 15 0, tryN := bitsOf w1 31 29,
    dstFid := bitsOf (f 8 4) 19 0, srcFid := bitsOf (f 12 4) 19 0, seq := f 16 4, ctx := bitsOf (f 20 4) 17 0,
    addr := f 24 8, msgBytes := f 32 4, dstSync := bitsOf w9 15 0, sig := bitsOf w9 16 16 = 1,
    aop := bitsOf w9 27 24, arg := f 40 8, payload := (b.drop 48).take (bitsOf w1 28 16) }

/-- The PCRC field of a received packet agrees with its bytes. -/
def pcrcGood (b : List Byte) : Bool :=
  let n := bitsOf (leNat (b.take 8)) 60 48
  let h := (b.take (48 + n)).zipIdx.map (fun e =>
    if e.2 = 0 then e.1 &&& 0x1F else if e.2 = 2 then e.1 &&& 0xF0 else e.1)
  crc32c h == leNat ((b.drop (b.length - 4)).take 4)

/-- Network of an operation: 0 request, 1 reply, 2 circuit; none when OP is reserved (table of R294). -/
def opNet (op : Nat) : Option Nat :=
  if 1 ≤ op && op ≤ 7 then some 0 else if op = 8 || op = 9 then some 2
  else if 0x10 ≤ op && op ≤ 0x16 then some 1 else none

/-- PAY_BYTES lies in the operation's range. -/
def payOk (op n : Nat) : Bool :=
  match op with
  | 0x01 | 0x02 | 0x05 | 0x10 => 1 ≤ n && n ≤ 512
  | 0x03 | 0x13 | 0x14 => n == 0
  | 0x04 | 0x11 => n == 8
  | 0x06 | 0x16 => n ≤ 16
  | 0x07 => 4 ≤ n && n ≤ 128
  | 0x08 | 0x09 => 1 ≤ n && n ≤ 4096
  | 0x12 => n == 48
  | 0x15 => n == 16
  | _ => false

/-- The channel belongs to the operation's network (R291). -/
def vcOk (op vc : Nat) : Bool :=
  match opNet op with
  | some 0 => vc == 0 || vc == 1
  | some 1 => vc == 2 || vc == 3
  | some 2 => vc == 4
  | _ => false

/-- A header that is no BAD_HEADER violation (R332). -/
def headerOk (b : List Byte) : Bool :=
  let p := Packet.ofBytes b
  let w0 := leNat (b.take 4)
  let n := bitsOf (leNat (b.take 8)) 60 48
  vcOk p.op p.vc && bitsOf w0 14 8 == flitCount n && payOk p.op n

end Sys2Proof

namespace Sys2Proof.Machine

open Sys2Proof

/-! ## Flows: sending (R312–R314, R320) -/

def State.flow (s : State) (c : Nat) : Flow := s.net.flows.getD c .init

def State.setFlow (s : State) (c : Nat) (f : Flow) : State :=
  { s with net := { s.net with flows := s.net.flows.putD c f .init } }

/-- Home hub of a context (R312). -/
def flowHub (c : Nat) : Fin 2 := if c < 131072 then 0 else 1

def State.rout (s : State) (h : Fin 2) : RoutSt := if h = 0 then s.net.r0 else s.net.r1

def State.setRout (s : State) (h : Fin 2) (r : RoutSt) : State :=
  if h = 0 then { s with net := { s.net with r0 := r } } else { s with net := { s.net with r1 := r } }

/-- A packet of this package waits for the router of a hub. -/
def State.inject (s : State) (h : Fin 2) (net : Nat) (pk : Packet) : State :=
  let r := s.rout h
  let add := fun (x : Pen) => { x with pkts := x.pkts ++ [pk], used := x.used + pk.flits }
  s.setRout h (if net = 0 then { r with injReq := add r.injReq }
    else if net = 1 then { r with injRsp := add r.injRsp } else { r with injCkt := add r.injCkt })

/-- The package's job tag and fabric ID. -/
def State.jobTag (s : State) : Nat := s.getF .pkg Reg.PKG.JOB_TAG_TAG
def State.fid (s : State) : Nat := s.getF .pkg Reg.PKG.FABRIC_ID_FID

/-- A packet of this package with everything but the operation's own fields at 0. -/
def State.blankPacket (s : State) (op dst : Nat) : Packet :=
  { op := op, vc := 0, last := true, hops := 0, guest := false, msgId := 0, jobTag := s.jobTag, tryN := 0,
    dstFid := dst, srcFid := s.fid, seq := 0, ctx := 0, addr := 0, msgBytes := 0, dstSync := 0, sig := false,
    aop := 0, arg := 0, payload := [] }

/-- Requests whose SEQ lies within the window leave the wait queue (R314). -/
def Flow.fill (f : Flow) : Nat → Flow × List Packet
  | 0 => (f, [])
  | n + 1 =>
    match f.wait with
    | [] => (f, [])
    | x :: rest =>
      let una := match f.out with | [] => x.pkt.seq | y :: _ => y.pkt.seq
      if (x.pkt.seq + 2 ^ 32 - una) % 2 ^ 32 < 2 ^ f.winLog then
        let (f, out) := Flow.fill { f with out := f.out ++ [x], wait := rest } n
        (f, x.pkt :: out)
      else (f, [])

/-- Send what the window of a context allows. -/
def State.pumpFlow (s : State) (c : Nat) : State :=
  let (f, pks) := (s.flow c).fill (s.flow c).wait.length
  pks.foldl (fun s pk => s.inject (flowHub c) 0 pk) (s.setFlow c f)

/-- A request joins a context with the next SEQ (R314). -/
def Flow.join (f : Flow) (owner : Owner) (pk : Packet) : Flow :=
  { f with wait := f.wait ++ [⟨{ pk with seq := f.next }, 0, owner⟩], next := (f.next + 1) % 2 ^ 32 }

/-- A request joins an enabled SEND context. -/
def State.sendOnFlow (s : State) (c : Nat) (owner : Owner) (pk : Packet) : State :=
  let f := s.flow c
  (s.setFlow c (f.join owner { pk with ctx := f.peerCtx, dstFid := f.peerFid })).pumpFlow c

/-- The next MSG_ID of a context, opened for an owner. -/
def State.openMessage (s : State) (c : Nat) (owner : Owner) : Nat × State :=
  let f := s.flow c
  (f.nextMsg, s.setFlow c { f with nextMsg := (f.nextMsg + 1) % 256, msgs := f.msgs ++ [⟨f.nextMsg, owner⟩] })

/-- Messages that wait are opened while fewer than four are open (R320); the argument bounds their number. -/
def State.openLater (s : State) (c : Nat) : Nat → State
  | 0 => s
  | n + 1 =>
    let f := s.flow c
    match f.later with
    | [] => s
    | (o, pks) :: rest =>
      if 4 ≤ f.msgs.length then s else
      let (id, s) := (s.setFlow c { f with later := rest }).openMessage c o
      let total := (pks.map (fun p => if p.op = 0x03 then p.arg else p.payload.length)).sum
      let s := pks.zipIdx.foldl (fun s e => s.sendOnFlow c o { e.1 with
        msgId := id, msgBytes := total, last := e.2 + 1 = pks.length }) s
      State.openLater s c n

/-- Send a message of one owner on a context, now or when it can be opened. -/
def State.sendMessage (s : State) (c : Nat) (o : Owner) (pks : List Packet) : State :=
  if pks = [] then s else
  let f := s.flow c
  (s.setFlow c { f with later := f.later ++ [(o, pks)] }).openLater c (f.later.length + 1)

end Sys2Proof.Machine
end

