-- ==== Sys2Proof/Machine/Flits.lean ====
section
/-! DEFINITION. What ports put on the line as bits: flits and their check masks (R261), comma blocks and codeword counts
(R262, R263), LINK flits (R264, R272, R304, R332), training frames (R270), SYNC flits and the messages they carry (R242, R340, R341,
R359, R369, R370, R380). -/

namespace Sys2Proof

open Sys2Proof.Machine

/-! ## Flits and kinds (R261) -/

/-- Mask of a kind's check field. -/
def Machine.FlitKind.mask : FlitKind → Nat
  | .idle => 0
  | .link => 0x0000FFFF
  | .data => 0xFFFF0000
  | .sync => 0xFFFFFFFF

/-- The 64 bytes of a flit: 60 of body, and CHECK. -/
def flitOf (k : FlitKind) (body : List Byte) : List Byte := body ++ leBytes 4 (crc32c body ^^^ k.mask)

/-- Body of a flit. -/
def flitBody (f : List Byte) : List Byte := f.take 60

/-- The kind whose mask CHECK matches; none, a CRC error. -/
def flitKind (f : List Byte) : Option FlitKind :=
  match crc32c (flitBody f) ^^^ leNat ((f.drop 60).take 4) with
  | 0 => some .idle
  | 0x0000FFFF => some .link
  | 0xFFFF0000 => some .data
  | 0xFFFFFFFF => some .sync
  | _ => none

/-- A field of zeros to n bytes after some bytes. -/
def padBytes (n : Nat) (b : List Byte) : List Byte := b ++ List.replicate (n - b.length) 0

/-! ## Comma blocks (R263) -/

/-- The 160-bit comma block. -/
def commaBlock : Nat :=
  0x7E6A1C93 + 0xB5D20F48 * 2 ^ 32 + 0x6193E7AC * 2 ^ 64 + 0x2F58B0D6 * 2 ^ 96 + 0xC41B79E5 * 2 ^ 128

/-- CWH of codeword j of a comma group. -/
def commaCwh (j : Nat) : Nat := bitsOf commaBlock (20 * j + 19) (20 * j)

/-- The CWHs of a comma group. -/
def commaCwhs : List Nat := (List.range 8).map commaCwh

/-- A codeword of a group, or of none, is decoded with CWH w: the count rises; eight CWHs of a group in a row are one. Where none is
expected, or after two missed in a row, alignment is lost; a receiver that realigns takes the next group for its own (R283). In a group
the DATA flits' numbers go on (R262). -/
def Machine.Framing.take (f : Framing) (w : Nat) : Framing :=
  let run := if w = commaCwh f.run then f.run + 1 else if w = commaCwh 0 then 1 else 0
  let j := f.rxCw % 4096
  let f := { f with rxCw := f.rxCw + 1, burst := 0, run := run % 8 }
  if f.realign then (if run = 8 then { f with realign := false, rxCw := 8, missed := 0 } else f)
  else if run = 8 then (if j = 7 then { f with missed := 0 } else { f with lost := true })
  else if j < 7 then f
  else if j = 7 then (if 1 ≤ f.missed then { f with lost := true } else { f with missed := f.missed + 1 })
  else { f with rxSeq := w, seqKnown := true }

/-- A codeword is uncorrectable: the count rises, a group it belongs to is missed, and the numbers of DATA flits are not known before
the next DSEQ. -/
def Machine.Framing.lose (f : Framing) : Framing :=
  let j := f.rxCw % 4096
  let f := { f with rxCw := f.rxCw + 1, run := 0, seqKnown := false, burst := if f.burst = 0 then 0 else f.burst + 1 }
  if f.realign || j ≠ 7 then f
  else if 1 ≤ f.missed then { f with lost := true } else { f with missed := f.missed + 1 }

/-! ## LINK flits (R264) -/

/-- Body of a LINK flit; `body`: its BODY bits, numbered from bit 32. -/
def linkBody (ltype ack : Nat) (nak : Bool) (body : Nat) : List Byte :=
  leBytes 60 (bitAt ltype 0 6 + bitAt ack 6 20 + boolAt nak 26 + body * 2 ^ 32)

/-- BODY of a CAP flit (R272): levels, IDLE, FAR_LOOP. -/
def capBody (level minLevel : Nat) (idle farLoop : Bool) : Nat :=
  bitAt level 0 8 + bitAt minLevel 8 8 + boolAt idle 16 + boolAt farLoop 17

/-- BODY of a REJECT flit (R332). -/
def rejectBody (code vc dnum : Nat) : Nat := bitAt code 0 8 + bitAt vc 8 3 + bitAt dnum 32 32

/-- The violation a LINK flit's body is, if it is one (R332): 0x01, a reserved LTYPE; 0x07, a reserved bit set. -/
def linkCode (body : List Byte) : Option Nat :=
  let w := leNat body
  let t := bitsOf w 5 0
  if !(t ≤ 4 || t == 0x10 || t == 0x11) then some 0x01
  else if bitsOf w 31 27 ≠ 0 || (t == 0x01 && bitsOf w 479 50 ≠ 0) || (t == 0x10 && bitsOf w 479 192 ≠ 0) ||
      (t == 0x11 && (bitsOf w 63 43 ≠ 0 || bitsOf w 479 96 ≠ 0)) then some 0x07
  else none

/-! ## Training frames (R270) -/

/-- Bits [199:0] of a lane's training frame, in 25 bytes; PRBS13 fills the rest. -/
def trainHead (lane : Nat) (f : TrainFrame) : List Byte :=
  leBytes 25 (commaBlock + bitAt lane 160 3 + bitAt f.trained.toNat 168 8 + boolAt f.locked 176 + boolAt f.aligned 177 +
    boolAt f.ready 178 + boolAt f.test 179)

/-! ## Sync messages (R340, R341) -/

/-- The 64 bytes of a HELLO frame (R242). -/
def Hello.bytes (h : Hello) : List Byte :=
  leBytes 4 (bitAt h.typ 0 8 + bitAt h.version 8 8) ++ leBytes 4 h.fwEpoch ++ leBytes 8 h.serial ++
  leBytes 4 (bitAt h.port 0 4 + bitAt h.kind 4 2 + boolAt h.reach 6 + boolAt h.fidValid 7 + bitAt h.state 8 3) ++
  leBytes 4 (bitAt h.fid 0 20 + bitAt h.dims 20 4) ++ leBytes 4 (bitAt h.pos 0 13) ++ leBytes 4 h.seq ++
  leBytes 8 h.seenSerial ++ leBytes 4 (bitAt h.seenPort 0 4 + boolAt h.seenValid 4) ++ List.replicate 20 0

/-- The content bytes of a PARTIAL (R359). -/
def PartialMsg.bytes (m : PartialMsg) : List Byte :=
  let w2 := bitAt m.round 0 4 + bitAt m.gen 4 1 + bitAt m.phase 5 2 + boolAt m.result 7
  let b := leBytes 2 m.obj ++ leBytes 1 w2 ++ leBytes 1 m.status ++
    leBytes 2 (bitAt m.fenced 0 14 + boolAt m.timed 14) ++ leBytes 2 m.tag ++ leBytes 4 m.first ++ leBytes 4 m.last
  if m.phase = 2 then b ++ m.record
  else if m.phase = 1 then b ++ leBytes 2 m.anchor.toNat ++ [0, 0]
  else if m.phase = 3 then b ++ leBytes 4 m.fp32 else b ++ [0, 0, 0, 0]

/-- The PARTIAL that content bytes hold. -/
def PartialMsg.ofBytes (b : List Byte) : PartialMsg :=
  let f := fun o n => leNat ((b.drop o).take n)
  { obj := f 0 2, round := bitsOf (f 2 1) 3 0, gen := bitsOf (f 2 1) 4 4, phase := bitsOf (f 2 1) 6 5,
    result := bitsOf (f 2 1) 7 7 = 1, status := f 3 1, fenced := bitsOf (f 4 2) 13 0, timed := bitsOf (f 4 2) 14 14 = 1,
    tag := f 6 2, first := f 8 4, last := f 12 4, anchor := BitVec.ofNat 16 (f 16 2), fp32 := f 16 4,
    record := (b.drop 16).take 96 }

/-- The content bytes of a MASTER (R370). -/
def MasterMsg.bytes (m : MasterMsg) : List Byte :=
  leBytes 8 m.serial ++ leBytes 4 m.mseq ++ leBytes 1 (bitAt m.depth 0 6 + boolAt m.locked 6) ++ [0, 0, 0] ++ leBytes 8 m.lead

/-- The content bytes of a PACE (R380). -/
def PaceMsg.bytes (m : PaceMsg) : List Byte :=
  leBytes 8 m.origin ++ leBytes 2 m.oseq ++ leBytes 2 (bitAt m.mhz 0 12) ++ leBytes 2 m.tag

/-- A message type is numbered (table of R341). -/
def SyncMsg.numbered : SyncMsg → Bool
  | .master _ | .herd _ | .pace _ => true
  | _ => false

/-- STYPE. -/
def SyncMsg.stype : SyncMsg → Nat
  | .ack => 0
  | .hello _ => 1
  | .timeReq _ => 2
  | .timeRsp _ _ _ => 3
  | .master _ => 4
  | .herd _ => 5
  | .pace _ => 6

/-- T1 of a TIME_REQ and T3 of a TIME_RSP are the drove times of its sending (R369). -/
def SyncMsg.stamp (m : SyncMsg) (now : Nat) : SyncMsg :=
  match m with
  | .timeReq _ => .timeReq now
  | .timeRsp t1 t2 _ => .timeRsp t1 t2 now
  | m => m

/-- Flits of a message: a HELLO, or a PARTIAL of phase SUM, takes two. -/
def SyncMsg.flits : SyncMsg → Nat
  | .hello _ => 2
  | .herd m => if m.phase = 2 then 2 else 1
  | _ => 1

/-- Content bytes of a message. -/
def SyncMsg.content : SyncMsg → List Byte
  | .ack => []
  | .hello h => h.bytes
  | .timeReq t1 => leBytes 8 t1
  | .timeRsp t1 t2 t3 => leBytes 8 t1 ++ leBytes 8 t2 ++ leBytes 8 t3
  | .master m => m.bytes
  | .herd m => m.bytes
  | .pace m => m.bytes

/-- Body of a SYNC flit. -/
def syncBody (stype : Nat) (second : Bool) (lseq lack : Nat) (lnak : Bool) (content : List Byte) : List Byte :=
  leBytes 4 (bitAt stype 0 4 + boolAt second 4 + bitAt lseq 8 8 + bitAt lack 16 8 + boolAt lnak 24) ++ content

/-- The flits of a message, in order, nothing of the sync channel between them. -/
def syncFlits (lseq lack : Nat) (lnak : Bool) (m : SyncMsg) : List (List Byte) :=
  let c := padBytes (56 * m.flits) m.content
  (List.range m.flits).map (fun i =>
    flitOf .sync (syncBody m.stype (i == 1) lseq lack lnak ((c.drop (56 * i)).take 56)))

/-- A SYNC flit's body breaks its layout (R332, R341): reserved STYPE, reserved bits set, in the first flit of a PARTIAL the reserved bit
of its content (R359), a second flit of a message of one, or a number on a message that takes none. Reserved bits of a HELLO are
ignored (R243). -/
def syncBroken (body : List Byte) : Bool :=
  let w := leNat (body.take 4)
  let t := bitsOf w 3 0
  decide (7 ≤ t) || bitsOf w 7 5 != 0 || bitsOf w 31 25 != 0 || (bitsOf w 4 4 == 1 && t != 1 && t != 5) ||
    (decide (t < 4) && bitsOf w 15 8 != 0) || (t == 5 && bitsOf w 4 4 == 0 && (body.getD 9 0).getLsbD 7)

end Sys2Proof
end

