-- ==== Sys2Proof/Machine/MemOps.lean ====
section
/-! DEFINITION. Package memory and placement as shared operations: access to pages and lines (R176, R177, R182,
R190, R191), the UE tables and frame retirement (R190–R194), channel drains (R195, R196), page moves (R213, R214),
the free frames and their order (R209), access counting (R211), the counts the PLACE page shows (R202, R216, R219). -/

namespace Sys2Proof.Machine

open Sys2Proof

/-- The firmware of the hub controller is away: it restarts (R485), or a handover runs and its new image has not confirmed
(R525). -/
def State.hcAway (s : State) : Bool :=
  s.mg.hcDown || (s.getF .hctl Reg.HCTL.FW_STAT_STATE == 5 && !s.mg.fw.committed && !s.mg.fw.confirmed.contains 0)

/-! ## Frames and channels -/

/-- A frame identifier (R179 table): stack, channel, index. -/
def frameId (m ch f : Nat) : Nat := m * 65536 + ch * 4096 + f

/-- The channel of a frame: 16 × stack + channel. -/
def frameChan (id : Nat) : Nat := id / 4096

/-- The unit of a channel number 0–191. -/
def chanUnit (c : Nat) : UnitId := .mchn ⟨c / 16 % 12, by omega⟩ ⟨c % 16, by omega⟩

/-- The stack of a channel number. -/
def chanStack (c : Nat) : UnitId := .mstk ⟨c / 16 % 12, by omega⟩

/-- The compute die of a channel number. -/
def chanDie (c : Nat) : Nat := c / 48

/-- MCHN.STATE.STATE of a channel number. -/
def State.chanState (s : State) (c : Nat) : Nat := s.getF (chanUnit c) Reg.MCHN.STATE_STATE

/-- Frames of one channel usable by pages (R174). -/
def chanFrames : Nat := 2861

/-- Frame counts follow the channel states (R195, R197–R199). -/
def State.frameCounts (s : State) : State :=
  let act := fun (s : State) (c : Nat) => if s.chanState c = 2 then chanFrames else 0
  let s := (List.range 192).foldl (fun s c => s.setF (chanUnit c) Reg.MCHN.FRAMES_USABLE (act s c)) s
  let s := (List.finRange 12).foldl (fun s m =>
    let s := s.setF (.mstk m) Reg.MSTK.FRAMES_USABLE ((List.range 16).foldl (fun n ch => n + act s (16 * m + ch)) 0)
    s.setF (.mstk m) Reg.MSTK.CHAN_ACTIVE_MASK
      ((List.range 16).foldl (fun n ch => n + if s.chanState (16 * m + ch) = 2 then 2 ^ ch else 0) 0)) s
  let s := (List.finRange 4).foldl (fun s d =>
    s.setF (.cdie d) Reg.CDIE.MEM_FRAMES_USABLE ((List.range 48).foldl (fun n i => n + act s (48 * d + i)) 0)) s
  s.setF .pkg Reg.PKG.MEM_FRAMES_USABLE ((List.range 192).foldl (fun n c => n + act s c) 0)

/-! ## Pages -/

/-- An own page or a guest page. -/
inductive PgRef where
  | own (p : Nat)
  | guest (k : Nat)
  deriving DecidableEq, Repr

def State.page (s : State) (p : Nat) : Page := s.mm.pages.getD p .free

def State.pg (s : State) : PgRef → Page
  | .own p => s.page p
  | .guest k => s.mm.guests.getD k .free

/-- Replace a page record; a FREE record is not listed. -/
def State.setPg (s : State) (r : PgRef) (v : Page) : State :=
  match r with
  | .own p => { s with mm := { s.mm with pages := s.mm.pages.putD p v .free } }
  | .guest k => { s with mm := { s.mm with guests := s.mm.guests.putD k v .free } }

/-- Every page held, own and guest. -/
def State.allPages (s : State) : List (PgRef × Page) :=
  s.mm.pages.map (fun e => (PgRef.own e.1, e.2)) ++ s.mm.guests.map (fun e => (PgRef.guest e.1, e.2))

/-- The frame a page is stored in here: LOCAL, MOVING from a frame, or LOST with its frame not yet freed. -/
def Page.frame? (p : Page) : Option Nat :=
  match p.place with
  | .frame id => match p.st with
    | .loc | .moving | .lost => some id
    | _ => none
  | _ => none

/-- The page stored in a frame. -/
def State.pageOfFrame (s : State) (id : Nat) : Option (PgRef × Page) :=
  s.allPages.find? (fun e => e.2.frame? == some id)

/-- Frames in use: holding a page, the destination of a move, or being zeroed. -/
def State.heldFrames (s : State) : List Nat :=
  s.allPages.filterMap (fun e => e.2.frame?) ++
  s.allPages.filterMap (fun e => match e.2.move with
    | some m => (match m.dest with | .frame id => some id | _ => none)
    | none => none) ++ s.mm.zeroing.keys

/-- The frame is one that pages use: of a usable index and not retired, or a reserve frame in the place of a retired one that
is not retired itself (R193). -/
def State.usableFrame (s : State) (id : Nat) : Bool :=
  (s.mm.repl.find id).isNone && (id % 4096 < chanFrames || s.mm.repl.any (fun e => e.2 == id))

/-- Lowest free usable frame of a channel, by the frame's own index (R209). -/
def State.firstFree (s : State) (c : Nat) : Option Nat :=
  if s.chanState c = 2 then
    let held := s.heldFrames
    ((List.range 3072).map (fun f => c * 4096 + f)).find? (fun id => s.usableFrame id && !held.contains id)
  else none

/-- Free usable frames of a channel. -/
def State.chanFree (s : State) (c : Nat) : Nat :=
  if s.chanState c = 2 then
    chanFrames - ((s.heldFrames.filter (fun id => frameChan id == c && s.usableFrame id)).eraseDups).length
  else 0

/-- f: free local frames; frames being zeroed do not count (R210). -/
def State.freeFrames (s : State) : Nat := (List.range 192).foldl (fun n c => n + s.chanFree c) 0

/-- Free frames of one die. -/
def State.freeOnDie (s : State) (d : Nat) : Nat := (List.range 48).foldl (fun n i => n + s.chanFree (48 * d + i)) 0

/-- Dies in order of preference: the die, those one compute link away, the diagonal (R17, R209). -/
def dieOrder (d : Nat) : List Nat :=
  [d] ++ (List.range 4).filter (fun x => x ≠ d && x ≠ 3 - d) ++ [3 - d]

/-- A free frame of a die, by rotation over its channels after the one that last received a page (R209). -/
def State.pickOnDie (s : State) (d : Nat) : Option (Nat × Nat) :=
  let start := (s.mm.lastChan.find d).elim 0 (· + 1)
  (List.range 48).findSome? (fun i =>
    let c := 48 * d + (start + i) % 48
    (s.firstFree c).map (fun id => (id, (start + i) % 48)))

/-- A channel receives a page: the rotations over its die, and over all four, go on from it (R209, R221). -/
def State.gotPage (s : State) (c : Nat) : State :=
  { s with mm := { s.mm with lastChan := (s.mm.lastChan.put (c / 48) (c % 48)).put 4 c } }

/-- Take a free frame on the first of some dies that has one. -/
def State.takeFrame (s : State) (dies : List Nat) : Option (Nat × State) :=
  dies.findSome? (fun d => (s.pickOnDie d).map (fun r => (r.1, s.gotPage (48 * d + r.2))))

/-- A listed line lies in the frame (R193). -/
def State.frameListed (s : State) (id : Nat) : Bool := s.mm.ue.any (fun e => e.1 / 2 ^ 15 == id)

/-- A page holds a listed line: it moves only after that line has been written whole (R193). -/
def State.pageListed (s : State) (p : Page) : Bool :=
  match p.frame? with
  | some id => s.frameListed id
  | none => false

/-! ## Counts the PLACE page shows -/

/-- Own pages in some states. -/
def State.countPages (s : State) (f : Page → Bool) : Nat := (s.mm.pages.filter (fun e => f e.2)).length

/-- S: SPILLED, SPILLED_HOST or UNREACHABLE (R216). -/
def State.spillCount (s : State) : Nat :=
  s.countPages (fun p => p.st = .spilled || p.st = .spilledHost || p.st = .unreachable)

/-- A page is held by target k. -/
def Page.heldBy (k : Nat) (p : Page) : Bool :=
  match p.place with
  | .peer t => t == k
  | .host t _ => t == k
  | .frame _ => false

/-- SPILL_RATIO.LEVEL for S (R219). -/
def State.spillRatio (s : State) (n : Nat) : Nat :=
  if n = 0 then 0 else
  let u := s.getF .pkg Reg.PKG.MEM_FRAMES_USABLE
  if u = 0 then 0xFFFF else min 0xFFFF ((n * 65536 + u - 1) / u)

/-- Bring ALLOC_PAGES, SPILL_PAGES, LOST, LEND_USED, TGTk_USED and SPILL_RATIO up to the page map. -/
def State.placeCounts (s : State) : State :=
  let s := s.setF .place Reg.PLACE.ALLOC_PAGES_COUNT (s.countPages (fun p => p.st ≠ .free))
  let s := s.setF .place Reg.PLACE.LOST_COUNT (s.countPages (fun p => p.st = .lost))
  let s := s.setF .place Reg.PLACE.LEND_USED_FRAMES s.mm.guests.length
  let s := (List.range 8).foldl (fun s k => s.setF .place (Reg.PLACE.TGT_USED_PAGES k) (s.countPages (Page.heldBy k))) s
  let n := s.spillCount
  let s := s.setF .place Reg.PLACE.SPILL_PAGES_COUNT n
  s.moveLevel spillLevel (s.spillRatio n)

/-! ## Guest requests of the placement director (R221, R311) -/

/-- The send context of a spill target. -/
def guestCtx (k : Nat) : Nat := 262136 + k

/-- The context of a spill target is an enabled SEND context. -/
def State.guestOpen (s : State) (k : Nat) : Bool := (s.flow (guestCtx k)).state == 1 && (s.flow (guestCtx k)).kind == 1

/-- Send a GUEST request for a page: 1 ALLOC, 2 RELEASE. -/
def State.guestSend (s : State) (op page k : Nat) : State :=
  if s.guestOpen k then
    s.sendOnFlow (guestCtx k) (.guest page k) { s.blankPacket 0x06 0 with
      guest := true, addr := page * 2 ^ 21, arg := op }
  else s

/-! ## Pages that a spill target holds (R218) -/

/-- Where a page is held away from this package: at a spill target, until a promotion of it ends. -/
def Page.away? (p : Page) : Option Place :=
  match p.st, p.place with
  | _, .frame _ => none
  | .spilled, pl | .spilledHost, pl | .moving, pl => some pl
  | _, _ => none

/-- The packets of a transfer: at most 512 bytes, every one after the first at a 64-byte aligned address (R294). The argument
bounds their number. -/
def cutRange (addr n : Nat) : Nat → List (Nat × Nat)
  | 0 => []
  | k + 1 =>
    if n = 0 then [] else
    let m := min n (512 - addr % 64)
    (addr, m) :: cutRange (addr + m) (n - m) k

/-- Address of a byte of a page in a slot of the host spill area. -/
def State.hostAddr (s : State) (i addr : Nat) : Nat :=
  s.getPair .place Reg.PLACE.HOST_AREA_LO Reg.PLACE.HOST_AREA_HI + i * 2 ^ 21 + addr % 2 ^ 21

/-- Host memory is read, in requests no longer than the host allows (R452). -/
def State.readHost (s : State) (a n : Nat) : State := s.emit (.hostRead a n (128 * 2 ^ s.host.cfg.readReq.val))

/-- READ_REQ packets for bytes of guest memory. -/
def State.guestReads (s : State) (addr n : Nat) : List Packet :=
  (cutRange addr n (n + 1)).map (fun e => { s.blankPacket 0x03 0 with guest := true, addr := e.1, arg := e.2 })

/-- WRITE packets for bytes of guest memory. -/
def State.guestWrites (s : State) (addr : Nat) (bs : List Byte) : List Packet :=
  (cutRange addr bs.length (bs.length + 1)).map (fun e =>
    { s.blankPacket 0x01 0 with guest := true, addr := e.1, payload := (bs.drop (e.1 - addr)).take e.2 })

/-- A place is a frame of this package. -/
def Place.isFrame : Place → Bool
  | .frame _ => true
  | _ => false

/-- A move of the page from or to a target is in its hold (R213 step 4). -/
def Page.inHold (p : Page) : Bool := p.move.any (fun m => m.pass == 4 && !(p.place.isFrame && m.dest.isFrame))

/-- An access of the hold waits. -/
def State.holdAccess (s : State) (addr n : Nat) (bs : List Byte) : State :=
  let p := s.page (addr / 2 ^ 21)
  match p.move with
  | some m => s.setPg (.own (addr / 2 ^ 21)) { p with move := some { m with held := m.held ++ [(addr, n, bs)] } }
  | none => s

/-- The packets or host requests of a read of bytes of a page that a target holds. -/
def State.readAt (s : State) (pl : Place) (addr n : Nat) : State :=
  match pl with
  | .peer k => s.sendMessage (guestCtx k) (.spill (addr / 2 ^ 21)) (s.guestReads addr n)
  | .host _ i => s.readHost (s.hostAddr i addr) n
  | .frame _ => s

/-- A read of bytes of one page goes to the spill target that holds it; in the hold of a move it waits. What it returns is known
here: a placement never changes a value read (R200; notes/assumptions/32.md). -/
def State.awayPage (s : State) (addr n : Nat) : State :=
  let p := s.page (addr / 2 ^ 21)
  if p.inHold then s.holdAccess addr n [] else
  match p.away? with
  | some pl => s.readAt pl addr n
  | none => s

/-- A read goes to the spill targets that hold its pages; the last argument bounds the pages. -/
def State.awayRead (s : State) (addr n : Nat) : Nat → State
  | 0 => s
  | k + 1 =>
    if n = 0 then s else
    let m := min n (2 ^ 21 - addr % 2 ^ 21)
    State.awayRead (s.awayPage addr m) (addr + m) (n - m) k

/-- The packets or host requests of a write within a page that a target holds. -/
def State.writeAt (s : State) (pl : Place) (addr : Nat) (bs : List Byte) : State :=
  match pl with
  | .peer k => s.sendMessage (guestCtx k) (.spill (addr / 2 ^ 21)) (s.guestWrites addr bs)
  | .host _ i => s.emit (.hostWrite (s.hostAddr i addr) bs)
  | .frame _ => s

/-- A write within one page goes to the spill target that holds it; in the hold of a move it waits. -/
def State.awayWrite (s : State) (addr : Nat) (bs : List Byte) : State :=
  let p := s.page (addr / 2 ^ 21)
  if p.inHold then s.holdAccess addr 0 bs else
  match p.away? with
  | some pl => s.writeAt pl addr bs
  | none => s

/-- The accesses that waited in the hold of a move are released, in their arrival order, to a place (R213 step 4). -/
def State.releaseHeld (s : State) (m : Move) (pl : Place) : State :=
  m.held.foldl (fun s e => if e.2.1 = 0 then s.writeAt pl e.1 e.2.2 else s.readAt pl e.1 e.2.1) s

/-- Lines of an own page are copied to or from a peer: their packets are sent (R213). -/
def State.copyPeer (s : State) (n : Nat) (runs : List (Nat × Nat)) : State :=
  let p := s.page n
  match p.move with
  | none => s
  | some m =>
    let s := match p.place with
      | .peer k => s.sendMessage (guestCtx k) (.spill n) (runs.flatMap (fun r => s.guestReads (n * 2 ^ 21 + r.1) r.2))
      | _ => s
    match m.dest with
    | .peer k => s.sendMessage (guestCtx k) (.spill n) (runs.flatMap (fun r =>
        s.guestWrites (n * 2 ^ 21 + r.1) (s.mm.mem.readBytes (n * 2 ^ 21 + r.1) r.2)))
    | _ => s

/-- Pass 1 of a move begins: every line is copied; a page of the host area is read whole. -/
def State.copyAll (s : State) (r : PgRef) : State :=
  match r with
  | .guest _ => s
  | .own n =>
    let s := s.copyPeer n [(0, 2 ^ 21)]
    match (s.page n).place, (s.page n).move with
    | .host _ i, some _ => s.readHost (s.hostAddr i 0) (2 ^ 21)
    | _, _ => s

/-- Marked lines of a page are copied. -/
def State.copyMarked (s : State) (r : PgRef) (lines : List Nat) : State :=
  match r with
  | .guest _ => s
  | .own n => s.copyPeer n (lines.map (fun l => (64 * l, 64)))

/-- Packets of a page's copy or accesses are on their way. -/
def State.spillBusy (s : State) (r : PgRef) : Bool :=
  match r with
  | .guest _ => false
  | .own n => (List.range 8).any (fun k =>
      (s.flow (guestCtx k)).msgs.any (fun m => m.owner == .spill n) || (s.flow (guestCtx k)).later.any (fun m => m.1 == .spill n))

/-! ## Moves (R213, R214) -/

/-- A frame leaves a page: it is zeroed before another page may use it (R201, R207). -/
def State.zeroFrame (s : State) (id : Nat) : State :=
  { s with mm := { s.mm with zeroing := s.mm.zeroing.put id true } }

/-- A move in progress is abandoned: the page keeps its old place and state (R214); a guest frame granted for it is
released. -/
def State.abandonOne (s : State) (r : PgRef) : State :=
  let p := s.pg r
  match p.move with
  | none => s
  | some m =>
    let s := (s.setPg r { p with st := m.was, move := none }).releaseHeld m p.place
    let s := match m.dest with
      | .frame id => if (s.pageOfFrame id).isSome then s else s.zeroFrame id
      | .peer k => (match r with
        | .own n => if m.granted then s.guestSend 2 n k else s
        | .guest _ => s)
      | .host _ _ => s
    let s := s.bump .place Reg.PLACE.MOVE_ABORT_COUNT
    (s.raise .place Evt.PLACE.MOVE_ABORT).placeCounts

/-- Pages moving to a frame. -/
def State.movingTo (s : State) (id : Nat) : List PgRef :=
  (s.allPages.filter (fun e => match e.2.move with
    | some m => decide (m.dest = Place.frame id)
    | none => false)).map Prod.fst

/-- Abandon a page's move; the page that was to take its frame in a swap stays where it is as well (R212, R214). -/
def State.abandonMove (s : State) (r : PgRef) : State :=
  let p := s.pg r
  match p.move, p.frame? with
  | some m, some id =>
    let s := s.abandonOne r
    if m.why = MoveWhy.swap then (s.movingTo id).foldl State.abandonOne s else s
  | _, _ => s.abandonOne r

/-- A spill target is DOWN (R223): moves to and from it are abandoned, its pages become UNREACHABLE, an ALLOC in progress that
has places at it ends with TARGET_FULL (R216, R474), PEER_LOST is raised once. -/
def State.targetDown (s : State) (k : Nat) : State :=
  if s.isSet .place (Reg.PLACE.TGT_USED_DOWN k) then s else
  let s := s.setF .place (Reg.PLACE.TGT_USED_DOWN k) 1
  let at_ := fun (pl : Place) => match pl with | .peer t => t == k | .host t _ => t == k | .frame _ => false
  let s := s.mm.pages.foldl (fun s e => match e.2.move with
    | some m => if at_ m.dest || at_ e.2.place then s.abandonMove (.own e.1) else s
    | none => s) s
  let s := s.mm.pages.foldl (fun s e =>
    if e.2.heldBy k && (e.2.st = .spilled || e.2.st = .spilledHost) then s.setPg (.own e.1) { s.page e.1 with st := .unreachable }
    else s) s
  let s := match s.mm.req with
    | some q => if q.spots.any (fun e => at_ e.2) && (q.status.isNone || q.status == some 0) then
        { s with mm := { s.mm with req := some { q with
            status := some 2, doneOut := (q.spots.filter (fun (e : Nat × Place) => !at_ e.2 && !q.wait.contains e.1)).length } } }
      else s
    | none => s
  (s.raise .place Evt.PLACE.PEER_LOST).placeCounts

/-- Start a move of a page that has none; a guest frame is asked of a peer, which is DOWN when its context is not
enabled (R311, R319). -/
def State.startMove (s : State) (r : PgRef) (dest : Place) (why : MoveWhy) : State :=
  let p := s.pg r
  let peer := match dest with | .peer k => some k | _ => none
  let s := (s.setPg r { p with st := .moving, move := some ⟨dest, why, 1, [], [], p.st, peer.isNone, []⟩ }).placeCounts
  match peer, r with
  | some k, .own n => if s.guestOpen k then s.guestSend 1 n k else s.targetDown k
  | some _, .guest _ => s
  | none, r => s.copyAll r

/-! ## Host command queues (R462, R471) -/

def State.hq (s : State) (q : Nat) : HostQ := s.host.queues.getD q .init

def State.setHq (s : State) (q : Nat) (v : HostQ) : State :=
  { s with host := { s.host with queues := s.host.queues.putD q v .init } }

/-- A queue that is not in ERROR goes there with a cause. -/
def State.queueErr (s : State) (q cause : Nat) : State :=
  let s' := s.setHq q { s.hq q with state := 2, err := cause }
  if (s.hq q).state = 2 then s' else s'.raise .pcie Evt.PCIE.QUEUE_ERR

/-- The page of the command record is LOST: every enabled queue goes to ERROR, CMDREC_BAD (R471). -/
def State.recordLost (s : State) : State :=
  (List.range 64).foldl (fun s q => if (s.hq q).state = 1 then s.queueErr q 5 else s) s

/-- A page becomes LOST (R202): its contents are destroyed, PLACE.LOST counts it, PAGE_LOST is raised. -/
def State.losePage (s : State) (r : PgRef) : State :=
  let s := s.abandonMove r
  let p := s.pg r
  if p.st = .lost || p.st = .free then s else
  let s := s.setPg r { p with st := .lost, move := none }
  match r with
  | .own n =>
    let s := (s.raise .place Evt.PLACE.PAGE_LOST).placeCounts
    if s.getF .pcie Reg.PCIE.CMDREC_PAGE = n then s.recordLost else s
  | .guest _ => s.placeCounts

/-! ## Spill targets and victims (R215–R217, R223) -/

/-- The sum of the six classes (R211). -/
def Counts.total (c : Counts) : Nat := c.c0 + c.c1 + c.c2 + c.c3 + c.host + c.remote

/-- Spill victims: LOCAL, PIN NONE, not MOVING, own pages, without a listed line (R193); coldest first, then lowest page number
(R215). -/
def State.victims (s : State) : List (Nat × Page) :=
  (s.mm.pages.filter (fun e => e.2.st = .loc && e.2.pin = 0 && !s.pageListed e.2)).mergeSort
    (fun a b => decide (a.2.heat.total < b.2.heat.total) ||
      (a.2.heat.total == b.2.heat.total && decide (a.1 ≤ b.1)))

/-- Places the running request has taken for its new pages. -/
def State.reqPlaces (s : State) : List Place :=
  match s.mm.req with
  | some q => q.spots.map Prod.snd
  | none => []

/-- Pages a target holds or that are moving to it. -/
def State.targetUse (s : State) (k : Nat) : Nat :=
  let at_ := fun (pl : Place) => match pl with | .peer t => t == k | .host t _ => t == k | .frame _ => false
  s.countPages (fun p => p.heldBy k || (match p.move with
    | some m => at_ m.dest
    | none => false)) + (s.reqPlaces.filter at_).length

/-- Slots of the host spill area in use, by all the targets of KIND HOST together (R217). -/
def State.hostUse (s : State) : Nat :=
  let at_ := fun (pl : Place) => match pl with | .host _ _ => true | _ => false
  s.countPages (fun p => at_ p.place || (match p.move with
    | some m => at_ m.dest
    | none => false)) + (s.reqPlaces.filter at_).length

/-- Room of a target: its quota less its use, and for a peer the free guest frames it last reported, no limit before its
first report, for HOST its area (R216). -/
def State.targetRoom (s : State) (k : Nat) : Nat :=
  let kind := s.getF .place (Reg.PLACE.TGT_CFG_KIND k)
  if s.isSet .place (Reg.PLACE.TGT_USED_DOWN k) then 0 else
  let q := s.getF .place (Reg.PLACE.TGT_QUOTA_PAGES k)
  let use := s.targetUse k
  let lim := fun (n : Nat) => if q = 0 then n else min n (q - use)
  if kind = 1 then lim (s.mm.room.getD k (2 ^ 20))
  else if kind = 2 then lim (s.getF .place Reg.PLACE.HOST_AREA_PAGES - s.hostUse)
  else 0

/-- The lowest-numbered target with room (R217). -/
def State.pickTarget (s : State) : Option Nat := (List.range 8).find? (fun k => decide (0 < s.targetRoom k))

/-- Total room of the targets: the host area, which its targets share, counts once. -/
def State.totalRoom (s : State) : Nat :=
  let sum := fun (kind : Nat) => (List.range 8).foldl (fun n k =>
    if s.getF .place (Reg.PLACE.TGT_CFG_KIND k) = kind then n + s.targetRoom k else n) 0
  sum 1 + min (s.getF .place Reg.PLACE.HOST_AREA_PAGES - s.hostUse) (sum 2)

/-- A free slot of the host area. -/
def State.freeHostSlot (s : State) : Nat :=
  let slot := fun (pl : Place) => match pl with | .host _ i => some i | _ => none
  let used := s.mm.pages.filterMap (fun e => slot e.2.place) ++
    s.mm.pages.filterMap (fun e => match e.2.move with | some m => slot m.dest | none => none) ++
    s.reqPlaces.filterMap slot
  ((List.range (used.length + 1)).find? (fun i => !used.contains i)).getD 0

/-- The place a page takes at a target; a peer's room falls by one. -/
def State.targetPlace (s : State) (k : Nat) : Place × State :=
  if s.getF .place (Reg.PLACE.TGT_CFG_KIND k) = 2 then (.host k s.freeHostSlot, s)
  else (.peer k, { s with mm := { s.mm with room := s.mm.room.put k (s.mm.room.getD k (2 ^ 20) - 1) } })

/-- The spill allowance L (R216). -/
def State.allowance (s : State) : Nat :=
  s.getF .pkg Reg.PKG.MEM_FRAMES_USABLE * s.getF .place Reg.PLACE.SPILL_CFG_PCT / 100

/-- Spill moves in progress. -/
def State.spilling (s : State) : Nat :=
  s.countPages (fun p => match p.move with | some m => decide (m.why = MoveWhy.spill) | none => false)

/-- Why one page more cannot be spilled (R216): NO_SPACE 1, TARGET_FULL 2. -/
def State.spillBar (s : State) (victims : List (Nat × Page)) : Option Nat :=
  if s.allowance ≤ s.spillCount || victims.isEmpty then some 1
  else if s.pickTarget.isNone then some 2 else none

/-- Spill the first of some victims to the first target with room, if the allowance lets it (R215–R217). -/
def State.spillFrom (s : State) (victims : List (Nat × Page)) : Option State :=
  if (s.spillBar victims).isSome then none else
  match victims.head?, s.pickTarget with
  | some v, some k =>
    let (pl, s) := s.targetPlace k
    some (s.startMove (.own v.1) pl .spill)
  | _, _ => none

/-- Spill the first victim. -/
def State.spillOne (s : State) : Option State := s.spillFrom s.victims

/-! ## Drains (R195, R224) -/

/-- Pages of a channel still to be moved, in the order of R224. -/
def State.drainOrder (s : State) (c : Nat) : List (PgRef × Page) :=
  let here := s.allPages.filter (fun e => (match e.2.frame? with | some id => frameChan id == c | none => false) &&
    e.2.st ≠ .lost)
  let first := s.mm.drainFirst.find c
  let isFirst := fun (e : PgRef × Page) => e.2.frame? == first && first.isSome
  let isGuest := fun (e : PgRef × Page) => match e.1 with | .guest _ => true | .own _ => false
  here.filter isFirst ++
  here.filter (fun e => !isFirst e && isGuest e) ++
  here.filter (fun e => !isFirst e && !isGuest e && e.2.pin = 2) ++
  here.filter (fun e => !isFirst e && !isGuest e && e.2.pin ≠ 2)

/-- Spill victims until one is on its way: a target that cannot be asked is DOWN, and the next is tried. The argument bounds the
tries. -/
def State.spillTry (s : State) : Nat → State
  | 0 => s
  | n + 1 => match s.spillOne with
    | some s => if 0 < s.spilling then s else State.spillTry s n
    | none => s

/-- Move the next page of a draining channel: to a free frame, else wait for a frame on its way, else spill a victim, else
stall (R224). Pages that hold a listed line wait (R193). -/
def State.drainStep (s : State) (c : Nat) : State :=
  if s.chanState c ≠ 3 || s.hcAway then s else
  if (s.drainOrder c).any (fun e => e.2.st = .moving) then s else
  match (s.drainOrder c).find? (fun e => match e.2.frame? with | some id => !s.frameListed id | none => false) with
  | none => s
  | some (r, p) =>
    let dies := if p.pin = 2 then [p.die] else dieOrder (chanDie c)
    match s.takeFrame dies with
    | some (id, s) => s.startMove r (.frame id) .drain
    | none =>
      if 0 < s.spilling || !s.mm.zeroing.isEmpty then s else
      let s := s.spillTry 9
      if 0 < s.spilling || s.mm.drainStalled.getD c false then s else
      let s := s.raise .place Evt.PLACE.DRAIN_STALL
      { s with mm := { s.mm with drainStalled := s.mm.drainStalled.put c true } }

/-- Draining channels that wait for a frame go on. -/
def State.drainAll (s : State) : State :=
  (List.range 192).foldl (fun s c =>
    if s.chanState c = 3 && !s.mm.drainStalled.getD c false then s.drainStep c else s) s

/-- A spill target is lost: DOWN, and the drains that waited for a spill to it go on (R195, R223, R224). -/
def State.loseTarget (s : State) (k : Nat) : State := (s.targetDown k).drainAll

/-- Abandon every move towards a channel (R214). -/
def State.abandonTo (s : State) (c : Nat) : State :=
  s.allPages.foldl (fun s e => match e.2.move with
    | some m => (match m.dest with
      | .frame id => if frameChan id = c then s.abandonMove e.1 else s
      | _ => s)
    | none => s) s

/-- An ACTIVE channel becomes DRAINING (R195): STATE_CHANGE is raised (R197), its frames leave the counts and its pages
begin to move. -/
def State.drainStart (s : State) (c cause : Nat) (first : Option Nat) : State :=
  if s.chanState c ≠ 2 then s else
  let s := s.setF (chanUnit c) Reg.MCHN.STATE_STATE 3
  let s := s.setF (chanUnit c) Reg.MCHN.STATE_CAUSE cause
  let s := ((s.setOwn (chanUnit c) 1).raise (chanUnit c) Evt.MCHN.STATE_CHANGE).frameCounts
  let s := match first with
    | some id => { s with mm := { s.mm with drainFirst := s.mm.drainFirst.put c id } }
    | none => s
  ((s.abandonTo c).placeCounts).drainStep c

/-- A channel goes out of use, RETIRED (4) or FAILED (5): R195 step 4, R196. STATE_CHANGE is the event of a change after
start-up (R197). -/
def State.chanOut (s : State) (c st : Nat) : State :=
  let up := decide (2 ≤ s.chanState c)
  let s := s.setF (chanUnit c) Reg.MCHN.STATE_STATE st
  let s := (s.setOwn (chanUnit c) 3).frameCounts
  let s := { s with mm := { s.mm with drainFirst := s.mm.drainFirst.del c, drainStalled := s.mm.drainStalled.del c } }
  let s := if up then s.raise (chanUnit c) Evt.MCHN.STATE_CHANGE else s
  (s.raise (chanStack c) Evt.MSTK.CHAN_OUT).placeCounts

/-- A channel fails training or a retrain: FAILED at once, from any state, with cause TRAIN; every page still mapped
to it becomes LOST (R196). -/
def State.chanFail (s : State) (c : Nat) : State :=
  let s := s.setF (chanUnit c) Reg.MCHN.STATE_CAUSE 5
  let s := s.chanOut c 5
  let s := s.abandonTo c
  s.allPages.foldl (fun s e => match e.2.frame? with
    | some id => if frameChan id = c then s.losePage e.1 else s
    | none => s) s

/-- Every channel is RETIRED or FAILED (fence cause MEMORY, R546); a channel left in reset with a recorded cause counts
as it was recorded. -/
def State.allChannelsOut (s : State) : Bool :=
  (List.range 192).all (fun c => let st := s.chanState c
    st == 4 || st == 5 || (st == 0 && s.getF (chanUnit c) Reg.MCHN.STATE_CAUSE != 0))

/-! ## Frame retirement (R193, R194) -/

/-- The frame is retired: replaced by a reserve frame, never used again; its lines leave the UE table. -/
def State.retireFrame (s : State) (id r : Nat) : State :=
  let u := chanUnit (frameChan id)
  let s := { s with mm := { s.mm with
      repl := s.mm.repl.put id r, toRetire := s.mm.toRetire.del id,
      ue := s.mm.ue.delRange (id * 2 ^ 15) ((id + 1) * 2 ^ 15),
      ce := s.mm.ce.delRange (id * 2 ^ 15) ((id + 1) * 2 ^ 15) } }
  let s := s.setF u Reg.MCHN.UE_TAB_USED (s.mm.ue.filter (fun e => e.1 / 2 ^ 27 == frameChan id)).length
  let s := s.setF u Reg.MCHN.FRAMES_SPARE_LEFT (s.getF u Reg.MCHN.FRAMES_SPARE_LEFT - 1)
  s.raise u Evt.MCHN.FRAME_RETIRED

/-- A channel's UE table is empty after start-up, whether it serves or not (R184). -/
def State.emptyUe (s : State) (c : Nat) : State :=
  let s := { s with mm := { s.mm with ue := s.mm.ue.delRange (c * 2 ^ 27) ((c + 1) * 2 ^ 27) } }
  s.setF (chanUnit c) Reg.MCHN.UE_TAB_USED 0

/-- The lowest reserve frame of a channel not yet in use (R174, R193). -/
def State.freeReserve (s : State) (c : Nat) : Option Nat :=
  let used := s.mm.repl.map Prod.snd ++ s.mm.repl.map Prod.fst ++ s.heldFrames
  ((List.range 211).map (fun i => c * 4096 + chanFrames + i)).find? (fun id => !used.contains id)

/-- Retire a frame marked for it, if it can be now, which a hub controller restart prevents (R485): with no reserve left the
channel drains (R194); a page with a listed line stays where it is until the line is written whole or the page freed (R193); a
page moves to the reserve frame at once, outside the budget, unless it does so already; with every reserve frame that is left
held, the retirement waits; a frame with no page is retired, and a reserve frame not in use needs no other. -/
def State.tryRetire (s : State) (id : Nat) : State :=
  let c := frameChan id
  if !s.mm.toRetire.getD id false || s.hcAway then s
  else if s.getF (chanUnit c) Reg.MCHN.FRAMES_SPARE_LEFT = 0 then
    (match s.pageOfFrame id with
      | some (pr, p) => if s.frameListed id && p.st ≠ PageSt.lost then s.abandonMove pr else s
      | none => s).drainStart c 1 (some id)
  else match s.pageOfFrame id with
    | some (pr, p) =>
      if p.st = .lost then s
      else if s.frameListed id then s.abandonMove pr
      else if p.move.any (fun m => m.why = .retire) then s
      else
        let s := s.abandonMove pr
        match s.freeReserve c with
        | none => s
        | some r => s.startMove pr (.frame r) .retire
    | none => match s.freeReserve c with
      | none => s
      | some r =>
        let idle := chanFrames ≤ id % 4096 && !(s.mm.repl.any (fun e => e.2 == id))
        s.retireFrame id (if idle then id else r)

/-- Frames of a channel that wait for retirement are tried again. -/
def State.retireWaiting (s : State) (c : Nat) : State :=
  (s.mm.toRetire.keys.filter (fun id => frameChan id == c)).foldl State.tryRetire s

/-- Mark a frame for retirement and retire it if it can be now; a move to it is abandoned (R214). -/
def State.markRetire (s : State) (id : Nat) : State :=
  let s := (s.movingTo id).foldl State.abandonMove s
  State.tryRetire { s with mm := { s.mm with toRetire := s.mm.toRetire.put id true } } id

/-! ## Line errors (R188, R190–R193) -/

/-- Key of a line. -/
def lineKey (id line : Nat) : Nat := id * 2 ^ 15 + line

/-- The last error's frame and line (R197). -/
def State.lastErr (s : State) (id line : Nat) (ue : Bool) : State :=
  let u := chanUnit (frameChan id)
  let s := s.setF u Reg.MCHN.LAST_ERR_FRAME_ID id
  let s := s.setF u Reg.MCHN.LAST_ERR_LINE_LINE line
  s.setF u Reg.MCHN.LAST_ERR_LINE_UE (if ue then 1 else 0)

/-- 24 hours, ns. -/
def ns24h : Nat := 24 * 3600 * 1000000000

/-- A correctable error is found: counted, raised, the line written back; the eighth distinct line of a frame within
24 h retires the frame (R188, R193). -/
def State.lineCE (s : State) (id line : Nat) : State :=
  let u := chanUnit (frameChan id)
  let s := (s.bump u Reg.MCHN.CE_COUNT_COUNT).raise u Evt.MCHN.CE
  let s := (s.lastErr id line false).addPair u Reg.MCHN.WR_BYTES_LO Reg.MCHN.WR_BYTES_HI 64
  let s := { s with mm := { s.mm with ce := s.mm.ce.put (lineKey id line) s.elapsed } }
  let recent : List (Nat × Nat) := s.mm.ce.filter (fun e => e.1 / 2 ^ 15 == id && decide (s.elapsed ≤ e.2 + ns24h))
  if 8 ≤ recent.length then s.markRetire id else s

/-- An uncorrectable error is found: counted, raised and listed, which retires the frame (R190, R193); with the table
full its page becomes LOST and the channel drains (R192). A line already listed is not counted again. -/
def State.lineUE (s : State) (id line : Nat) : State :=
  if s.mm.ue.getD (lineKey id line) false then s else
  let c := frameChan id
  let u := chanUnit c
  let s := (s.bump u Reg.MCHN.UE_COUNT_COUNT).raise u Evt.MCHN.UE
  let s := s.lastErr id line true
  if 64 ≤ s.getF u Reg.MCHN.UE_TAB_USED then
    let s := match s.pageOfFrame id with
      | some (r, _) => s.losePage r
      | none => s
    s.drainStart c 2 (some id)
  else
    let s := { s with mm := { s.mm with ue := s.mm.ue.put (lineKey id line) true } }
    let s := s.setF u Reg.MCHN.UE_TAB_USED (s.getF u Reg.MCHN.UE_TAB_USED + 1)
    s.markRetire id

/-- An entry leaves the UE table when a whole aligned line is written (R191); its frame may then retire (R193). -/
def State.lineWritten (s : State) (id line : Nat) : State :=
  if s.mm.ue.getD (lineKey id line) false then
    let u := chanUnit (frameChan id)
    let s := { s with mm := { s.mm with ue := s.mm.ue.del (lineKey id line) } }
    let s := s.setF u Reg.MCHN.UE_TAB_USED (s.getF u Reg.MCHN.UE_TAB_USED - 1)
    let s := s.tryRetire id
    s.drainStep (frameChan id)
  else s

/-! ## Access (R177, R182, R190, R191) -/

/-- Who makes an access: requester class 0–3 a compute die, 4 HOST, 5 REMOTE (R211); its translation cache (R178);
for REMOTE the package's fabric ID. -/
structure Req where
  cls : Nat
  cache : Nat
  fid : Nat
  deriving DecidableEq, Repr

/-- A tile or data mover of a die. -/
def Req.die (d : Nat) : Req := ⟨d, d, 0⟩
/-- The host through BAR2, and the package's own records in host class (R211; notes/assumptions/49.md). -/
def Req.host : Req := ⟨4, 4, 0⟩
/-- A hub reads its tables, the dispatcher of a die its rings: in host class, through the translation cache of that die (R178). -/
def Req.hub (h : Nat) : Req := ⟨4, 4 + h, 0⟩
def Req.disp (d : Nat) : Req := ⟨4, d, 0⟩

/-- The status an access to a line meets (R105, R177, R190; page state table): 0 none. -/
def State.lineStatus (s : State) (addr : Nat) : Nat :=
  if 2 ^ 41 ≤ addr then 0x04
  else
    let p := s.page (addr / 2 ^ 21)
    match p.st with
    | .free => 0x05
    | .lost => 0x06
    | .unreachable => 0x0D
    | .spilled | .spilledHost => match p.place with
      | .peer k => if s.guestOpen k then p.answer else 0x0D
      | _ => p.answer
    | .loc | .moving => match p.frame? with
      | some id => if s.mm.ue.getD (lineKey id (addr % 2 ^ 21 / 64)) false then 0x06 else 0
      | none => 0

/-- First nonzero status of the lines from a line number on. -/
def State.linesStatus (s : State) (line : Nat) : Nat → Nat
  | 0 => 0
  | n + 1 => if s.lineStatus (64 * line) ≠ 0 then s.lineStatus (64 * line) else s.linesStatus (line + 1) n

/-- Lines that n bytes at an address touch. -/
def lineCount (addr n : Nat) : Nat := if n = 0 then 0 else (addr + n - 1) / 64 + 1 - addr / 64

/-- n more in a requester class, saturating at 32,767 an epoch (R211). -/
def Counts.add (c : Counts) (cls n : Nat) : Counts :=
  let up := fun x => min 32767 (x + n)
  match cls with
  | 0 => { c with c0 := up c.c0 }
  | 1 => { c with c1 := up c.c1 }
  | 2 => { c with c2 := up c.c2 }
  | 3 => { c with c3 := up c.c3 }
  | 4 => { c with host := up c.host }
  | _ => { c with remote := up c.remote }

/-- Add the counts of a cache to a page's counts of the epoch. -/
def Counts.plus (a b : Counts) : Counts :=
  ⟨min 32767 (a.c0 + b.c0), min 32767 (a.c1 + b.c1), min 32767 (a.c2 + b.c2), min 32767 (a.c3 + b.c3),
    min 32767 (a.host + b.host), min 32767 (a.remote + b.remote)⟩

/-- An entry leaves a cache: its counts reach the director. -/
def State.flushEntry (s : State) (key : Nat) : State :=
  match s.mm.xlat.find key with
  | none => s
  | some e =>
    let s := { s with mm := { s.mm with xlat := s.mm.xlat.del key } }
    let p := s.page (key % 2 ^ 20)
    if p.st = .free then s else
    s.setPg (.own (key % 2 ^ 20)) { p with
      cnt := p.cnt.plus e.cnt
      byFid := e.byFid.foldl (fun m x => m.put x.1 (m.getD x.1 0 + x.2)) p.byFid }

/-- Page entries of a translation cache (R178). -/
def cacheSize : Nat := 16384

/-- A full translation cache gives up an entry for a new one; which one is a free value (notes/assumptions/49.md). -/
def State.evictXlat (s : State) (cache : Nat) : State :=
  let keys := s.mm.xlat.keys.filter (fun k => k / 2 ^ 20 == cache)
  if keys.length < cacheSize then s
  else (s.flushEntry (keys.getD (Config.freeNat s.freeCtr % keys.length) 0)).tickFree

/-- n accesses of 64 bytes to a page are counted in their translation cache; a translation not held is a miss (R178, R211). -/
def State.countAccesses (s : State) (q : Req) (page n : Nat) : State :=
  let k := q.cache * 2 ^ 20 + page
  let s := match s.mm.xlat.find k with
    | some _ => s
    | none => (if h : q.cache < 4 then s.bump (.cdie ⟨q.cache, h⟩) Reg.CDIE.XLAT_MISS_COUNT else s).evictXlat q.cache
  let e := s.mm.xlat.getD k ⟨.zero, []⟩
  let e : XEntry := ⟨e.cnt.add q.cls n, if q.cls = 5 then e.byFid.put q.fid (e.byFid.getD q.fid 0 + n) else e.byFid⟩
  { s with mm := { s.mm with xlat := s.mm.xlat.put k e } }

/-- One access. -/
def State.countAccess (s : State) (q : Req) (page : Nat) : State := s.countAccesses q page 1

/-- Bytes a channel read or wrote (R197). -/
def State.countBytes (s : State) (page : Nat) (write : Bool) (n : Nat) : State :=
  match (s.page page).frame? with
  | none => s
  | some id =>
    let u := chanUnit (frameChan id)
    if write then s.addPair u Reg.MCHN.WR_BYTES_LO Reg.MCHN.WR_BYTES_HI n
    else s.addPair u Reg.MCHN.RD_BYTES_LO Reg.MCHN.RD_BYTES_HI n

/-- Lines from a line number on are read: counted. -/
def State.readLines (s : State) (q : Req) (line : Nat) : Nat → State
  | 0 => s
  | n + 1 =>
    let s := s.countAccess q (line / 2 ^ 15)
    State.readLines (s.countBytes (line / 2 ^ 15) false 64) q (line + 1) n

/-- A poisoned completion ends the one access that issued the read (R454): the page answers on. -/
def State.poisonOver (s : State) (addr st : Nat) : State :=
  let p := s.page (addr / 2 ^ 21)
  if 16 ≤ st ∧ p.answer = st then s.setPg (.own (addr / 2 ^ 21)) { p with answer := 0 } else s

/-- Read n bytes of package memory: the status, and the bytes when it is OK. -/
def State.readMem (s : State) (q : Req) (addr n : Nat) : State × Nat × List Byte :=
  let st := s.linesStatus (addr / 64) (lineCount addr n)
  if st ≠ 0 then (s.poisonOver addr st, st, []) else
  ((s.readLines q (addr / 64) (lineCount addr n)).awayRead addr n (n / 2 ^ 21 + 2), 0, s.mm.mem.readBytes addr n)

/-- An error is found at a line of a frame. -/
def State.frameErr (s : State) (id line : Nat) : LineErr → State
  | .corrected => s.lineCE id line
  | .uncorrectable => s.lineUE id line
  | .answered _ => s

/-- What a peer answers accesses of a page it holds with (R218): MEM_UE loses the page, the page of a promotion in progress
included (R202, R225); a status that shows the guest page gone puts the target DOWN (R223); any other is the status of the
accesses. -/
def State.peerAnswer (s : State) (page k : Nat) : LineErr → State
  | .corrected => s
  | .uncorrectable => s.losePage (.own page)
  | .answered st =>
    if st.val = 0x06 then s.losePage (.own page)
    else if st.val = 0x05 ∨ st.val = 0x0D then s.loseTarget k
    else s.setPg (.own page) { s.page page with answer := st }

/-- The completion of a read of the host spill area comes poisoned (R454): counted, and the access ends with HOST_ERR. R105 has no code for it: of
a tile's access the status is a free value above 0x0F. -/
def State.hostPoison (s : State) (page : Nat) : State :=
  let s := (s.bump .pcie Reg.PCIE.POISON_RX_COUNT).raise .pcie Evt.PCIE.POISON_RX
  (s.setPg (.own page) { s.page page with answer := 16 + Config.freeNat s.freeCtr % 240 }).tickFree

/-- What an access finds becomes known before it answers. -/
def State.findErrs (s : State) (errs : LineErrs) : State :=
  errs.foldl (fun s e =>
    let p := s.page (e.1 / 2 ^ 21)
    match p.st, p.frame? with
    | .lost, _ => s
    | _, some id => s.frameErr id (e.1 % 2 ^ 21 / 64) e.2
    | _, none => (match p.away? with
      | some (.peer k) => s.peerAnswer (e.1 / 2 ^ 21) k e.2
      | some (.host _ _) => (match e.2 with
        | .answered _ => s.hostPoison (e.1 / 2 ^ 21)
        | _ => s)
      | _ => s)) s

/-- A write of n bytes covers the line of an address in part: it reads it first (R182, R191). -/
def partLine (addr n a : Nat) : Bool :=
  decide (addr < a / 64 * 64 + 64 ∧ a / 64 * 64 < addr + n) && !decide (addr ≤ a / 64 * 64 ∧ a / 64 * 64 + 64 ≤ addr + n)

/-- What a write of n bytes finds: errors at the lines it reads first, and the answers of a peer that holds a page of it. -/
def State.findRmw (s : State) (addr n : Nat) (errs : LineErrs) : State :=
  s.findErrs (errs.filter (fun e => partLine addr n e.1 || (s.page (e.1 / 2 ^ 21)).away?.isSome))

/-- A line of a moving page is written: it is marked if its copy of the present pass has been made, which of a line that the
pass has still to copy, or has copied, is a free value (R213; notes/assumptions/49.md); the bytes of a copy to a peer are taken
at the pass's start. In the hold the access waits for the new place. -/
def State.markLine (s : State) (r : PgRef) (line : Nat) : State :=
  let p := s.pg r
  match p.move with
  | none => s
  | some m =>
    if !m.granted || 4 ≤ m.pass || m.marked.contains line then s else
    let mark := fun (s : State) => s.setPg r { p with move := some { m with marked := m.marked ++ [line] } }
    let sent := match m.dest with | .peer _ => true | _ => false
    if !sent && (m.pass = 1 || m.todo.contains line) then
      (if Config.freeNat s.freeCtr % 2 = 0 then s else mark s).tickFree
    else mark s

/-- Store bytes within one line (R182, R191): a write of less than a listed line is discarded with MEM_UE; a whole
line clears its listing. -/
def State.writeLine (s : State) (q : Req) (addr : Nat) (bs : List Byte) : State × Nat :=
  let st := s.lineStatus addr
  let whole := decide (addr % 64 = 0 ∧ bs.length = 64)
  if st = 0 ∨ (st = 0x06 ∧ whole ∧ (s.page (addr / 2 ^ 21)).st ≠ .lost) then
    let s := s.countAccess q (addr / 2 ^ 21)
    let s := (if whole then s else s.countBytes (addr / 2 ^ 21) false 64).countBytes (addr / 2 ^ 21) true 64
    let s := { s with mm := { s.mm with mem := s.mm.mem.writeBytes addr bs } }
    let s := (s.markLine (.own (addr / 2 ^ 21)) (addr % 2 ^ 21 / 64)).awayWrite addr bs
    let s := if whole then match (s.page (addr / 2 ^ 21)).frame? with
      | some id => s.lineWritten id (addr % 2 ^ 21 / 64)
      | none => s
      else s
    (s, 0)
  else (s, st)

/-- Store bytes line by line; stops at the first line that ends with a status (R98, R182). The first argument bounds
the number of lines. -/
def State.writeLines (s : State) (q : Req) (addr : Nat) (bs : List Byte) : Nat → State × Nat
  | 0 => (s, 0)
  | k + 1 =>
    if bs = [] then (s, 0) else
    let n := 64 - addr % 64
    let (s, st) := s.writeLine q addr (bs.take n)
    if st ≠ 0 then (s, st) else State.writeLines s q (addr + n) (bs.drop n) k

/-- Write bytes to package memory. -/
def State.writeMem (s : State) (q : Req) (addr : Nat) (bs : List Byte) : State × Nat :=
  s.writeLines q addr bs (lineCount addr bs.length)

/-- The first status with which a line turns a write of n bytes away; a whole line clears its listing (R191). -/
def State.writeStatus (s : State) (addr n : Nat) : Nat :=
  (((List.range (lineCount addr n)).map (fun i => 64 * (addr / 64 + i))).map (fun (a : Nat) =>
    if s.lineStatus a = 0x06 ∧ (s.page (a / 2 ^ 21)).st ≠ .lost ∧ !partLine addr n a then 0 else s.lineStatus a)).find?
    (· ≠ 0) |>.getD 0

/-- Write bytes to package memory only if every line takes them: host writes, completion and result records (R160, R354,
R460). -/
def State.writeWhole (s : State) (q : Req) (addr : Nat) (bs : List Byte) : State × Nat :=
  let st := s.writeStatus addr bs.length
  if st ≠ 0 then (s, st) else s.writeMem q addr bs

end Sys2Proof.Machine
end

