-- ==== Sys2Proof/Machine/PortOps.lean ====
section
/-! DEFINITION. Ports and the sync channel as shared operations: credits (R303, R304), sends and holds during a gap
(R282), admission (R246), the drop of a link (R273, R300), numbered sync messages (R342), drove election (R370, R371). -/

namespace Sys2Proof.Machine

open Sys2Proof

/-! ## Ports -/

/-- A port's hub. -/
def portHub (p : Fin 16) : Fin 2 := ⟨p / 8, by omega⟩

def State.link (s : State) (p : Fin 16) : LinkSt := s.links.getD p .init

def State.setLink (s : State) (p : Fin 16) (l : LinkSt) : State := { s with links := s.links.putD p l .init }

def State.linkState (s : State) (p : Fin 16) : Nat := s.getF (.port p) Reg.PORT.LINK_STAT_STATE

/-- The link is active (R269). -/
def State.linkActive (s : State) (p : Fin 16) : Bool := s.linkState p == 6

/-- Codewords run in both directions: capability exchange or after, in service or in a TEST mode (R271, R276). -/
def State.codewords (s : State) (p : Fin 16) : Bool :=
  s.linkActive p || (decide (5 ≤ (s.link p).step) && (s.linkState p == 5 || s.linkState p == 7))

/-- The link carries flits: it is active, or has ended its bring-up against itself (R276). -/
def State.running (s : State) (p : Fin 16) : Bool :=
  s.linkActive p || (s.linkState p == 7 && (s.link p).step == 6)

/-- PORT.LINK_CTL.TEST in force. -/
def State.testMode (s : State) (p : Fin 16) : Nat := s.getF (.port p) Reg.PORT.LINK_CTL_TEST

/-- A near-end loopback: what the port sends comes to its own receive path (R276). -/
def State.nearTest (s : State) (p : Fin 16) : Bool := s.testMode p == 1 || s.testMode p == 2

/-- Its codewords and flits go round within the package, and the line has training frames (R276). -/
def State.nearLoop (s : State) (p : Fin 16) : Bool := s.nearTest p && s.linkState p == 7 && decide (5 ≤ (s.link p).step)

/-- State of laser 0 or 1 of a port: 0 ACTIVE, 1 STANDBY, 2 FAILED. -/
def State.laser (s : State) (p : Fin 16) (n : Nat) : Nat :=
  s.getF (.port p) (if n = 0 then Reg.PORT.LASER_STAT_L0_STATE else Reg.PORT.LASER_STAT_L1_STATE)

def State.setLaser (s : State) (p : Fin 16) (n v : Nat) : State :=
  s.setF (.port p) (if n = 0 then Reg.PORT.LASER_STAT_L0_STATE else Reg.PORT.LASER_STAT_L1_STATE) v

def State.activeLaser (s : State) (p : Fin 16) : Nat := s.getF (.port p) Reg.PORT.LASER_STAT_ACTIVE_ID

def State.admitState (s : State) (p : Fin 16) : Nat := s.getF (.port p) Reg.PORT.ADMIT_STATE_STATE

/-- The port is ADMITTED (R245). -/
def State.admitted (s : State) (p : Fin 16) : Bool := s.admitState p == 4

def State.inGap (s : State) (p : Fin 16) : Bool := s.isSet (.port p) Reg.PORT.LASER_STAT_GAP

/-- Ports in number order. -/
def allPorts : List (Fin 16) := List.finRange 16

/-- The transmitter leaves electrical idle with a burst (R275). -/
def State.wakePort (s : State) (p : Fin 16) : State :=
  if s.isSet (.port p) Reg.PORT.LINK_STAT_IDLE_TX then
    (s.setF (.port p) Reg.PORT.LINK_STAT_IDLE_TX 0).emit (.burst p)
  else s

/-- The far end has left electrical idle: something has come from it (R275). -/
def State.rxWake (s : State) (p : Fin 16) : State := s.setF (.port p) Reg.PORT.LINK_STAT_IDLE_RX 0

/-- The port serves a far-end loopback and sends nothing of its own (R277). -/
def State.farLoop (s : State) (p : Fin 16) : Bool := s.isSet (.port p) Reg.PORT.LINK_STAT_FAR_LOOP

/-- A LINK or DATA flit leaves a port: during a switch-over gap it waits (R282, R284); an idle transmitter wakes (R275); a port in
far-end loopback sends none (R277); in NES and NEP it goes to the port's own receive path, and not to the line (R276). -/
def State.sendFlit (s : State) (p : Fin 16) (o : Out) : State :=
  if s.farLoop p then s else
  if s.nearLoop p then s.setLink p { s.link p with looped := (s.link p).looped ++ [o] } else
  if s.inGap p then s.setLink p { s.link p with gapQ := (s.link p).gapQ ++ [o] }
  else (s.wakePort p).emit o

/-- The 64 bytes of a LINK or DATA flit. -/
def Out.flit : Out → List Byte
  | .link _ f => f
  | .data _ _ f => f
  | _ => []

/-- A flit is received. In NES and NEP it is one that the port has sent to itself: those before it were lost on the way (R276). None,
where no such flit is on its way. -/
def State.fromSelf (s : State) (p : Fin 16) (is : List Byte → Bool) : Option State :=
  if !s.nearLoop p then some s else
  match (s.link p).looped.dropWhile (fun o => !is o.flit) with
  | [] => none
  | _ :: rest => some (s.setLink p { s.link p with looped := rest })

/-- The flit is a LINK flit with an LTYPE, an ACK_SEQ and NAK. -/
def linkIs (ltype ack : Nat) (nak : Bool) (f : List Byte) : Bool :=
  flitKind f == some .link && leNat (f.take 4) % 2 ^ 27 == ltype + ack * 2 ^ 6 + (if nak then 2 ^ 26 else 0)

/-- Send a LINK flit; every one acknowledges (R264). -/
def State.sendLink (s : State) (p : Fin 16) (ltype : Nat) (nak : Bool) (body : Nat) : State :=
  s.sendFlit p (.link p (flitOf .link (linkBody ltype (s.link p).rxNum nak body)))

/-! ## Hop credits (R303, R304) -/

/-- Pen depths (R305). -/
def penDepth : Nat → Nat
  | 0 => 40960 | 1 => 2048 | 2 => 24576 | 3 => 2048 | _ => 28672

def LinkSt.pen (l : LinkSt) (v : Nat) : Pen := l.pens.getD v .empty

def LinkSt.setPen (l : LinkSt) (v : Nat) (x : Pen) : LinkSt := { l with pens := l.pens.putD v x .empty }

/-- LIMIT of a channel: flits received since ACTIVE plus free flits of its pen. -/
def LinkSt.limitOf (l : LinkSt) (v : Nat) : Nat := (l.rxFlits.getD v 0 + (penDepth v - (l.pen v).used)) % 2 ^ 32

/-- BODY of a CREDIT flit. -/
def LinkSt.creditBody (l : LinkSt) : Nat :=
  l.limitOf 0 + l.limitOf 1 * 2 ^ 32 + l.limitOf 2 * 2 ^ 64 + l.limitOf 3 * 2 ^ 96 + l.limitOf 4 * 2 ^ 128

/-- Send a CREDIT flit, which also acknowledges (R264, R304). -/
def State.sendCredit (s : State) (p : Fin 16) : State :=
  let s := s.sendLink p 0x10 false (s.link p).creditBody
  let l := s.link p
  let adv := (List.range 5).foldl (fun m v => m.put v (l.limitOf v)) l.advert
  s.setLink p { l with advert := adv, pens := l.pens.map (fun e => (e.1, { e.2 with freed := 0 })) }

/-- 64 flits freed on a channel since the last CREDIT flit draw another (R304). -/
def State.creditDue (s : State) (p : Fin 16) : State :=
  if (s.link p).pens.any (fun e => decide (64 ≤ e.2.freed)) && s.running p then s.sendCredit p else s

/-- A pen frees flits. -/
def State.penFree (s : State) (p : Fin 16) (v n : Nat) : State :=
  let l := s.link p
  let x := l.pen v
  (s.setLink p (l.setPen v { x with used := x.used - n, freed := x.freed + n })).creditDue p

/-- Credits left to the sender on a channel. -/
def LinkSt.credit (l : LinkSt) (v : Nat) : Nat := (l.limit.getD v 0 + 2 ^ 32 - l.sent.getD v 0 % 2 ^ 32) % 2 ^ 32

/-- The port may start a packet of n flits on a channel: credits and replay space for all of it (R266, R303). -/
def State.canStart (s : State) (p : Fin 16) (v n : Nat) : Bool :=
  let l := s.link p
  s.linkActive p && !s.farLoop p && n ≤ l.credit v && l.replay.length + n ≤ 98304

/-- The flits of a packet leave on a port in DATA numbering and stay in the replay buffer (R262, R266). -/
def State.sendPacket (s : State) (p : Fin 16) (v : Nat) (pk : Packet) : State :=
  let pk := { pk with vc := v }
  let bodies := cut60 pk.bytes pk.flits
  let s := bodies.zipIdx.foldl (fun s b =>
    let l := s.link p
    let s := s.sendFlit p (.data p l.txNum (flitOf .data b.1))
    let l := s.link p
    s.setLink p { l with txNum := (l.txNum + 1) % 2 ^ 20,
                         replay := l.replay ++ [⟨l.txNum, b.1, b.2 + 1 = pk.flits⟩] }) s
  let l := s.link p
  s.setLink p { l with sent := l.sent.put v ((l.sent.getD v 0 + pk.flits) % 2 ^ 32) }

/-! ## The sync channel (R340–R342) -/

/-- A sync message leaves; it carries the present LACK, so no ACK is due any more, and an LNAK that is owed (R342). -/
def State.syncEmit (s : State) (p : Fin 16) (q : QSync) : State :=
  let l := s.link p
  let s := (s.wakePort p).emit (.sync p (syncFlits q.lseq l.sRx (q.lnak || l.sNak) (q.msg.stamp s.drove)))
  s.setLink p { s.link p with sDue := false, sNak := false }

/-- The port's queue of 64 SYNC flits has room for a message (R339). -/
def LinkSt.syncRoom (l : LinkSt) (m : SyncMsg) : Bool := decide ((l.syncQ.map (·.msg.flits)).sum + m.flits ≤ 64)

/-- A message joins the port's queue; an ACK joins one that waits already. -/
def LinkSt.syncWait (l : LinkSt) (q : QSync) : LinkSt :=
  if q.msg = .ack ∧ l.syncQ.any (fun x => x.msg == .ack) then
    { l with syncQ := l.syncQ.map (fun x => if x.msg = .ack then { x with lnak := x.lnak || q.lnak } else x) }
  else { l with syncQ := l.syncQ ++ [q] }

/-- Send one sync message: during a gap it waits at the port (R282, R339); a port in far-end loopback sends none (R277). -/
def State.syncFlit (s : State) (p : Fin 16) (lseq : Nat) (lnak : Bool) (m : SyncMsg) : State :=
  if s.farLoop p then s
  else if s.inGap p then s.setLink p ((s.link p).syncWait ⟨lseq, lnak, m⟩)
  else s.syncEmit p ⟨lseq, lnak, m⟩

/-- The port takes a message now: it sends, or its queue has room. -/
def State.syncOpen (s : State) (p : Fin 16) (m : SyncMsg) : Bool := !s.inGap p || (s.link p).syncRoom m

/-- Send a sync message on a port: a numbered one needs an ADMITTED port and takes a place among the 64, or waits for
one; a herd partial waits for its port (R342, R363). While the port's queue is full the sync engine holds what comes (R339). -/
def State.sendSync (s : State) (p : Fin 16) (m : SyncMsg) : State :=
  let l := s.link p
  if !m.numbered then
    (if !s.linkActive p then s else if s.syncOpen p m then s.syncFlit p 0 false m
      else s.setLink p { l with sHeld := l.sHeld ++ [m] }) else
  let herd := match m with | .herd _ => true | _ => false
  if !s.admitted p || 64 ≤ l.sOut.length || !s.syncOpen p m then
    (if s.admitted p || herd then s.setLink p { l with sHeld := l.sHeld ++ [m] } else s) else
  let s := s.setLink p { l with sTx := (l.sTx + 1) % 256, sOut := l.sOut ++ [⟨l.sTx, m⟩] }
  s.syncFlit p l.sTx false m

/-- Messages that waited for a place start now. -/
def State.pumpSync (s : State) (p : Fin 16) : Nat → State
  | 0 => s
  | n + 1 =>
    let l := s.link p
    match l.sHeld with
    | [] => s
    | m :: rest =>
      if m.numbered && (64 ≤ l.sOut.length || !s.admitted p) || !s.syncOpen p m then s
      else State.pumpSync ((s.setLink p { l with sHeld := rest }).sendSync p m) p n

/-- The sync page of a port's hub. -/
def portSync (p : Fin 16) : UnitId := .sync (portHub p)

/-- An operation or message is refused at a hub's engine (R345). -/
def State.syncRefuse (s : State) (h : Fin 2) : State :=
  (s.bump (.sync h) Reg.SYNC.REFUSED_COUNT).raise (.sync h) Evt.SYNC.SIG_REFUSED

/-- Resend every unacknowledged numbered message; each is counted (R342). One that waits at the port is not sent twice. -/
def State.resendSync (s : State) (p : Fin 16) : State :=
  (s.link p).sOut.foldl (fun s m =>
    if (s.link p).syncQ.any (fun q => q.msg.numbered && q.lseq == m.lseq) || !s.syncOpen p m.msg then s else
    (s.bump (portSync p) Reg.SYNC.RESEND_COUNT).syncFlit p m.lseq false m.msg) s

/-- A received SYNC flit's LACK releases the messages before it; LNAK draws a resend (R342). -/
def State.syncAcked (s : State) (p : Fin 16) (h : SHdr) : State :=
  let s := s.rxWake p
  let l := s.link p
  let ok := h.lack == l.sTx || l.sOut.any (fun m => m.lseq == h.lack)
  let s := if ok then
    (s.setLink p { l with sOut := if h.lack = l.sTx then [] else l.sOut.dropWhile (fun m => m.lseq != h.lack) }).pumpSync
      p l.sHeld.length
    else s
  if h.lnak then s.resendSync p else s

/-- A numbered message arrives: accepted when its LSEQ is the one expected; a duplicate is discarded; any other number
draws LNAK; on a port that is not ADMITTED it is refused (R341, R342). -/
def State.syncTake (s : State) (p : Fin 16) (h : SHdr) : State × Bool :=
  let s := s.syncAcked p h
  if !s.admitted p then (s.syncRefuse (portHub p), false) else
  let l := s.link p
  if h.lseq = l.sRx then (s.setLink p { l with sRx := (l.sRx + 1) % 256, sDue := true }, true)
  else if (l.sRx + 256 - h.lseq % 256) % 256 ≤ 64 then (s, false)
  else if s.syncOpen p .ack then (s.syncFlit p 0 true .ack, false)
  else (s.setLink p { l with sNak := true }, false)

/-! ## Detours (R363) -/

/-- A plan round's word (R357). -/
def State.planRound (s : State) (plan r : Nat) : Word := s.getW (.sync 0) (0x200 + 0x40 * plan + 4 * r)

/-- Send a partial as a SYNC_FRAG request on a flow context; beyond four open messages it waits (R320). -/
def State.sendFrag (s : State) (c : Nat) (m : PartialMsg) : State :=
  let f := s.flow c
  if f.state ≠ 1 ∨ f.kind ≠ 1 then s else
  let pay := if m.phase = 2 then m.bytes.take 112 else m.bytes.take 20
  s.sendMessage c .frag [{ s.blankPacket 0x07 f.peerFid with arg := 5, payload := pay }]

/-- A partial whose port cannot carry it takes the detour of its round, if the round has one. -/
def State.detour (s : State) (m : PartialMsg) : State :=
  let w := s.planRound ((s.objs.getD m.obj .idle).plan) m.round
  if getBits w 8 8 = 1 then s.sendFrag (getBits w 26 9) m else s

/-- The unacknowledged partials of a link that leaves ACTIVE take their detours, or wait on the port where the round has
none; MASTER and PACE messages are replaced by their own refreshes (R342, R363). -/
def State.detourAll (s : State) (p : Fin 16) : State :=
  let l := s.link p
  let herd := (l.sOut.map (·.msg) ++ l.sHeld).filterMap (fun m => match m with | .herd pm => some pm | _ => none)
  let has := fun (pm : PartialMsg) => getBits (s.planRound ((s.objs.getD pm.obj .idle).plan) pm.round) 8 8 == 1
  let s := s.setLink p { l with sOut := [], sHeld := (herd.filter (fun m => !has m)).map .herd, sDue := false, sNak := false }
  (herd.filter has).foldl State.detour s

/-! ## The drove clock's election (R370, R371) -/

/-- LOCKED or another state of the drove clock; entering and leaving LOCKED are events. -/
def State.setDrove (s : State) (v : Nat) : State :=
  let was := s.getF (.sync 0) Reg.SYNC.DROVE_STAT_STATE
  let s := s.setF (.sync 0) Reg.SYNC.DROVE_STAT_STATE v
  if v = 2 ∧ was ≠ 2 then s.raise (.sync 0) Evt.SYNC.DROVE_LOCK
  else if was = 2 ∧ v ≠ 2 then s.raise (.sync 0) Evt.SYNC.DROVE_LOST else s

/-- The package's serial. -/
def State.serial (s : State) : Nat := s.getPair .pkg Reg.PKG.SERIAL_LO_SERIAL Reg.PKG.SERIAL_HI_SERIAL

/-- Fresh announcements on ADMITTED ports, in port order. -/
def State.freshAnns (s : State) : List (Fin 16 × MasterMsg) :=
  allPorts.filterMap (fun p => match (s.link p).ann with
    | some a => if s.admitted p && !a.stale && a.m.depth != 63 then some (p, a.m) else none
    | none => none)

/-- The package is eligible to be master (R370 rule 2). -/
def State.eligible (s : State) : Bool :=
  s.isSet (.sync 0) Reg.SYNC.DROVE_CFG_CANDIDATE &&
    (s.getF (.sync 0) Reg.SYNC.DROVE_STAT_STATE == 2 || s.clk.quiet)

/-- The parent among the ports announcing a serial: lowest DEPTH, then lowest port. -/
def pickParent (anns : List (Fin 16 × MasterMsg)) (ser : Nat) : Option (Fin 16 × MasterMsg) :=
  (anns.filter (fun a => a.2.serial == ser)).foldl (fun b a => match b with
    | none => some a
    | some x => if a.2.depth < x.2.depth then some a else some x) none

/-- Choose master, parent and depth again. The master changes when it is lost, and when one is found (R370). A package in HOLDOVER that
finds a parent goes to ACQUIRING (R371). -/
def State.elect (s : State) : State :=
  let anns := s.freshAnns
  let cands := (if s.eligible then [s.serial] else []) ++ anns.map (fun a => a.2.serial)
  let y := UnitId.sync 0
  let was := s.clk.master
  let m := cands.foldl (fun b x => match b with | none => some x | some y => some (min x y)) none
  let s := { s with clk := { s.clk with master := m } }
  let s := if was = m then s else s.raise y Evt.SYNC.MASTER_CHANGE
  match m with
  | none =>
    let st := s.getF y Reg.SYNC.DROVE_STAT_STATE
    let s := s.setF y Reg.SYNC.DROVE_STAT_MASTER 0
    s.setDrove (if st = 2 ∨ st = 3 then 3 else 0)
  | some ser =>
    let s := s.setPair y Reg.SYNC.MASTER_SERIAL_LO Reg.SYNC.MASTER_SERIAL_HI ser
    if ser = s.serial ∧ s.eligible then
      let s := s.setF y Reg.SYNC.DROVE_STAT_MASTER 1
      let s := s.setF y Reg.SYNC.DROVE_STAT_DEPTH 0
      s.setDrove 2
    else match pickParent anns ser with
      | none => s
      | some (p, a) =>
        let s := s.setF y Reg.SYNC.DROVE_STAT_MASTER 0
        let s := s.setF y Reg.SYNC.DROVE_STAT_PARENT p
        let s := s.setF y Reg.SYNC.DROVE_STAT_DEPTH (a.depth + 1)
        s.setDrove (if s.getF y Reg.SYNC.DROVE_STAT_STATE ≠ 3 && 8 ≤ (s.link p).inBand then 2 else 1)

/-! ## Routes (R236, R237) -/

def dValid (w : Word) : Bool := getBits w 22 22 == 1
def dLocal (w : Word) : Bool := getBits w 21 21 == 1
def dEscValid (w : Word) : Bool := getBits w 20 20 == 1
def dEsc (w : Word) : Nat := getBits w 19 16
def dCand (w : Word) (p : Nat) : Bool := w.getLsbD p

/-- The destination entry of a fabric ID. -/
def State.dEntry (s : State) (h : Fin 2) (fid : Nat) : Word := (s.rout h).dtab.getD fid 0

/-- The escape port of an entry, if it has one that is ADMITTED. -/
def State.escPort (s : State) (w : Word) : Option (Fin 16) :=
  let p : Fin 16 := ⟨dEsc w % 16, by omega⟩
  if dEscValid w && s.admitted p then some p else none

/-- Candidate ports that are ADMITTED. -/
def State.candPorts (s : State) (w : Word) : List (Fin 16) := allPorts.filter (fun p => dCand w p && s.admitted p)

/-- The fabric ID has a route (R237). -/
def State.hasRoute (s : State) (h : Fin 2) (fid : Nat) : Bool :=
  let w := s.dEntry h fid
  dValid w && (dLocal w || !(s.candPorts w).isEmpty || (s.escPort w).isSome)

/-- A peer target has a route, in the tables of the hub its context is homed on. -/
def State.targetRoute (s : State) (k : Nat) : Bool :=
  s.hasRoute (flowHub (guestCtx k)) (s.getF .place (Reg.PLACE.TGT_CFG_FID k))

/-- A port has left ADMITTED: the peer targets that had a route in `old` and have none left are DOWN (R223). -/
def State.routesLost (s old : State) : State :=
  (List.range 8).foldl (fun s k =>
    if s.getF .place (Reg.PLACE.TGT_CFG_KIND k) = 1 && old.targetRoute k && !s.targetRoute k then s.loseTarget k else s) s

/-! ## Admission (R245–R248) -/

/-- One hour, ns. -/
def ns1h : Nat := 3600 * 1000000000

/-- State and cause the rules of R246 give a port. -/
def State.admitRule (s : State) (p : Fin 16) : Nat × Nat :=
  let u := UnitId.port p
  let l := s.link p
  let g := fun f => s.getF u f
  let armed := s.isSet u Reg.PORT.ADMIT_CFG_ARM
  if s.farLoop p && l.loopSilent then (2, 1)
  else if !s.linkActive p then (if armed then 1 else 0, 0)
  else if !l.heard then (2, 1)
  else
    let nbr := s.getPair u Reg.PORT.NBR_SERIAL_LO Reg.PORT.NBR_SERIAL_HI
    if nbr = s.serial then (2, 2)
    else if g Reg.PORT.NBR_INFO_FID_VALID = 1 ∧ g Reg.PORT.NBR_FID_FID = s.fid ∧ s.fid ≠ 0xFFFFF then (2, 3)
    else if !armed then (2, 4)
    else if nbr ≠ s.getPair u Reg.PORT.EXP_SERIAL_LO Reg.PORT.EXP_SERIAL_HI ∨
        g Reg.PORT.NBR_INFO_PORT ≠ g Reg.PORT.ADMIT_CFG_EXP_PORT ∨
        g Reg.PORT.NBR_INFO_KIND ≠ g Reg.PORT.ADMIT_CFG_EXP_KIND then (2, 5)
    else if l.demoteHold then (2, 6)
    else if l.flapHold then (2, 7)
    else (0, 0)

/-- Re-evaluate a port's admission. `seesUs`: the far end's last HELLO shows SEEN_VALID, SEEN_SERIAL and SEEN_PORT naming
this package and port. Departures from ADMITTED are counted and may set the flap hold. -/
def State.judgeAdmit (s : State) (p : Fin 16) (seesUs : Bool) : State :=
  let u := UnitId.port p
  let old := s
  let was := s.admitState p
  let (st, cause) := s.admitRule p
  let far := s.getF u Reg.PORT.NBR_INFO_STATE
  let held := s.linkActive p && st = 0
  let st := if held then (if (far = 3 ∨ far = 4) ∧ seesUs then 4 else 3) else st
  let s := s.setF u Reg.PORT.ADMIT_STATE_STATE st
  let s := s.setF u Reg.PORT.ADMIT_STATE_CAUSE cause
  let s := if st = 4 ∧ was ≠ 4 then s.raise u Evt.PORT.ADMITTED else s
  let s := if st = 2 ∧ was ≠ 2 then s.raise u Evt.PORT.QUARANTINED else s
  let s := if st = 1 ∧ (was = 3 ∨ was = 4) then s.raise u Evt.PORT.ABSENT else s
  if was = 4 ∧ st ≠ 4 then
    let log := s.elapsed :: (s.link p).flapLog.filter (fun t => decide (s.elapsed ≤ t + ns1h))
    let hold := (s.link p).flapHold || decide (s.getF .pkg Reg.PKG.ADMIT_CFG_FLAP_LIMIT < log.length)
    let s := s.setLink p { s.link p with flapLog := log, flapHold := hold }
    let s := s.setF u Reg.PORT.ADMIT_STATE_FLAPS (min 255 log.length)
    (s.routesLost old).elect
  else if st = 4 ∧ was ≠ 4 then (s.pumpSync p (s.link p).sHeld.length).elect else s

/-- Re-evaluate with what the last HELLO showed. -/
def State.readmit (s : State) (p : Fin 16) : State := s.judgeAdmit p (s.link p).seesUs

/-! ## Links up and down (R271, R273, R300) -/

/-- Packets that a port holds uncommitted: whole ones in the replay buffer, received ones whose PCRC has not been checked, and
one partly received. -/
def LinkSt.buffered (l : LinkSt) : Nat :=
  (l.replay.filter (·.last)).length + l.arrived.length + (if 0 < l.partLeft then 1 else 0)

/-- n packets are lost under R300. -/
def State.portLost (s : State) (p : Fin 16) (n : Nat) : State :=
  if n = 0 then s else
  (s.bumpBy (.rout (portHub p)) Reg.ROUT.PORT_LOST_COUNT n).raise (.rout (portHub p)) Evt.ROUT.PKT_DROP

/-- The port's expected partner is the one its stored equaliser values were trained with (R271). A HELLO shows the partner only once
the link is ACTIVE, so the serial meant is the expected one, EXP_SERIAL (DEDUCED: notes/assumptions/50.md). -/
def State.calStored (s : State) (p : Fin 16) : Bool :=
  (s.link p).tr.serial == s.getPair (.port p) Reg.PORT.EXP_SERIAL_LO Reg.PORT.EXP_SERIAL_HI

/-- The state a port shows for a step of bring-up. Training starts from the values stored with the same partner serial, and from the
defaults where there are none (R271). -/
def State.showStep (s : State) (p : Fin 16) (step : Nat) : State :=
  let u := UnitId.port p
  let l := s.link p
  let tr := if step = 2 then { l.tr with cur := if s.calStored p then l.tr.eq else [] } else l.tr
  let s := s.setLink p { l with step := step, tr := tr }
  s.setF u Reg.PORT.LINK_STAT_STATE
    (if !s.isSet u Reg.PORT.LINK_CTL_ENABLE then 0
     else if s.isSet u Reg.PORT.LINK_CTL_TEST then 7 else step)

/-- The receive side as it stands when a link (re)starts: nothing partly received, packets already committed stay. -/
def LinkSt.rewound (l : LinkSt) : LinkSt :=
  { l with
    pens := l.pens.map (fun e => (e.1, { e.2 with used := (e.2.pkts.map Packet.flits).sum }))
    part := [], partLeft := 0, skip := 0, arrived := [], replay := [], nakOut := false, naks := 0, capRx := false
    capAcked := false, partner := ⟨0, false, false, false, false⟩, gapQ := [], syncQ := [], helloDue := false
    looped := [], loopSilent := false, fr := .init, tr := { l.tr with trained := 0, aligned := 0 } }

/-- The status fields the port's own training frames carry now (R270). READY follows once both ends have aligned
(notes/assumptions/50.md). -/
def State.ownFrame (s : State) (p : Fin 16) : TrainFrame :=
  let t := (s.link p).tr
  let aligned := t.aligned == 0xFF
  { trained := t.trained, locked := s.getF (.port p) Reg.PORT.LINK_STAT_RX_LOCK == 0xFF, aligned := aligned
    ready := aligned && (s.link p).partner.aligned, test := s.testMode p != 0 }

/-- The lanes send training frames of the present fields: before codewords, and all through NES and NEP, while the active laser emits, and
neither a pattern test nor a loopback has the lanes (R270, R276–R278, R281, R282). -/
def State.sendFrame (s : State) (p : Fin 16) : State :=
  if s.linkState p = 0 || (!s.nearTest p && (decide (5 ≤ (s.link p).step) || 0 < (s.link p).fr.txCw)) || s.inGap p || s.farLoop p ||
      s.testMode p = 4 || s.laser p (s.activeLaser p) = 2 then s
  else s.emit (.training p ((List.range 8).map (fun l => trainHead l (s.ownFrame p))))

/-- Bring-up starts again at step 1, against itself in a loopback test at step 2 (R276, R277): replay buffer discarded, partly received
packets rewound. A far-end loopback that the port serves goes on (R277). -/
def State.toStep1 (s : State) (p : Fin 16) : State :=
  let u := UnitId.port p
  let s := s.portLost p (s.link p).buffered
  let s := s.setLink p (s.link p).rewound
  let s := s.setF u Reg.PORT.LINK_STAT_LOS_HOLD 0
  let s := s.setF u Reg.PORT.LINK_STAT_IDLE_TX 0
  let s := s.setF u Reg.PORT.LINK_STAT_IDLE_RX 0
  let s := s.setF u Reg.PORT.LINK_STAT_RX_LOCK 0
  let s := s.setF u Reg.PORT.NBR_INFO_VALID 0
  let s := match s.mg.fw.levels.find p.val with
    | some v => (s.setF u Reg.PORT.CAP_OWN_LEVEL v.1).setF u Reg.PORT.CAP_OWN_MIN_LEVEL v.2
    | none => s
  (s.showStep p (if s.nearTest p || s.testMode p = 3 then 2 else 1)).sendFrame p

/-- The laser in the ACTIVE role has carried the link until now (R280). -/
def State.carriedNow (s : State) (p : Fin 16) : State :=
  let l := s.link p
  s.setLink p (if s.activeLaser p = 0 then { l with las0 := { l.las0 with carried := s.drove } }
    else { l with las1 := { l.las1 with carried := s.drove } })

/-- An ACTIVE link drops with a cause (R273); its unacknowledged partials take the detour. -/
def State.linkDrop (s : State) (p : Fin 16) (cause : Nat) : State :=
  if !s.linkActive p then s else
  let u := UnitId.port p
  let s := if s.inGap p then s else s.carriedNow p
  let s := s.bump u Reg.PORT.LINK_DOWN_COUNT
  let s := s.setF u Reg.PORT.LINK_STAT_CAUSE cause
  let s := (s.toStep1 p).raise u Evt.PORT.LINK_DOWN
  (s.detourAll p).readmit p

/-- A link is retrained with a cause: an ACTIVE one drops; one whose codewords run already starts its bring-up again
(notes/assumptions/50.md). -/
def State.retrainFor (s : State) (p : Fin 16) (cause : Nat) : State :=
  if s.linkActive p then s.linkDrop p cause
  else if s.codewords p then (s.setF (.port p) Reg.PORT.LINK_STAT_CAUSE cause).toStep1 p else s

/-- Far-end loopback ends (R277). -/
def State.endLoop (s : State) (p : Fin 16) : State :=
  let s := s.setF (.port p) Reg.PORT.LINK_STAT_FAR_LOOP 0
  ((s.setLink p { s.link p with loopSilent := false }).readmit p).sendFrame p

/-- Bring-up of a link that is not ACTIVE starts again, or an ACTIVE one drops. -/
def State.relink (s : State) (p : Fin 16) (cause : Nat) : State :=
  if s.linkActive p then s.linkDrop p cause else s.toStep1 p

/-! ## Protocol violations (R332, R333) -/

/-- The partner commits a violation: counted, recorded, raised and answered; above PV_LIMIT in 1 s the port is demoted. -/
def State.violate (s : State) (p : Fin 16) (code vc dnum : Nat) : State :=
  let u := UnitId.port p
  let s := s.bump u Reg.PORT.PV_COUNT_COUNT
  let s := s.setF u Reg.PORT.PV_LAST_CODE code
  let s := s.raise u Evt.PORT.PROTO_VIOL
  let s := s.sendLink p 0x11 false (rejectBody code vc dnum)
  let log := s.elapsed :: (s.link p).pvLog.filter (fun t => decide (s.elapsed ≤ t + 1000000000))
  let s := s.setLink p { s.link p with pvLog := log }
  if s.getF (.rout (portHub p)) Reg.ROUT.PEN_CFG_PV_LIMIT < log.length then
    (s.setLink p { s.link p with demoteHold := true }).readmit p
  else s

end Sys2Proof.Machine
end

