-- ==== Sys2Proof/Machine/SyncOps.lean ====
section
/-! DEFINITION. Sync objects as shared operations: sources and scopes (R344, R345), waits (R349), generations and result
records (R351, R354), herd rounds and the combining of partials (R358–R362), a fenced package's herd objects (R364). -/

namespace Sys2Proof.Machine

open Sys2Proof

abbrev ObjSt.fenced : Nat := 0x01
abbrev ObjSt.lost : Nat := 0x02
abbrev ObjSt.anchorMismatch : Nat := 0x04
abbrev ObjSt.fault : Nat := 0x08
abbrev ObjSt.badContrib : Nat := 0x10
abbrev ObjSt.overflow : Nat := 0x20
abbrev ObjSt.badDesc : Nat := 0x40

/-- An object of the package. -/
def State.obj (s : State) (o : Nat) : Obj := s.objs.getD o .idle

def State.setObj (s : State) (o : Nat) (v : Obj) : State := { s with objs := s.objs.putD o v .idle }

/-- Home hub of an object (R345). -/
def objHub (o : Nat) : Fin 2 := if o < 32768 then 0 else 1

/-- A tile's slot in its die; 0x7F for none (R64). -/
def State.slotOf (s : State) (d t : Nat) : Nat :=
  getBits (s.getW (.tile ⟨d % 4, by omega⟩ ⟨t % 104, by omega⟩) 0x040) 14 8

/-- The source may operate on the object (R344). -/
def State.srcAllowed (s : State) (b : Obj) (src : SyncSrc) : Bool :=
  if 2 ≤ b.scope then true else
  match src with
  | .task d t _ => d == b.die && (b.scope == 1 || s.slotOf d t == b.slot)
  | .window d t => d == b.die && (b.scope == 1 || s.slotOf d t == b.slot)
  | .die d => d == b.die && b.scope == 1
  | .delivery | .host => false

/-- Record combining in a reduction's mode (R134, R361): strict modes add one anchor only; another anchor marks NAN and
INVALID. Also whether the anchors mismatched. -/
def combineRecord (mode : Nat) (a b : Ingot) : Ingot × Bool :=
  if mode = 4 then ((a.addAny b).1, false)
  else if b.anchor = a.anchor ∨ b.anchor = anchorNone then (a.addSame b, false)
  else ({ a with flags := a.flags ||| Ingot.fNan ||| Ingot.fInvalid }, true)

/-! ## Waits (R349) -/

/-- Order of waiters: die 0 to 3 by slot and task slot (R356). -/
def State.waiterKey (s : State) (w : Waiter) : Nat := (w.die * 128 + s.slotOf w.die w.tile) * 2 + w.tslot

/-- A kernel's WAIT returns. -/
def State.wakeOne (s : State) (w : Waiter) (status : Nat) : State := s.emit (.service w.die w.tile w.tslot status [])

/-- The waiter of lowest order. -/
def State.firstWaiter (s : State) (ws : List Waiter) : Option Waiter :=
  ws.foldl (fun b w => match b with
    | none => some w
    | some x => if s.waiterKey w < s.waiterKey x then some w else some x) none

/-- A semaphore's count wakes waiters one by one. -/
def State.wakeSem (s : State) (o : Nat) : Nat → State
  | 0 => s
  | n + 1 =>
    let b := s.obj o
    match s.firstWaiter b.waiters with
    | none => s
    | some w =>
      if b.count = 0 then s
      else State.wakeSem ((s.setObj o { b with count := b.count - 1, waiters := b.waiters.erase w }).wakeOne w 0) o n

/-- Wake every waiter the object now allows. -/
def State.wake (s : State) (o : Nat) : State :=
  let b := s.obj o
  if b.state = 0 then s else
  if b.kind = 1 then s.wakeSem o b.waiters.length else
  let go := fun (w : Waiter) => if b.kind = 3 then b.isSet else decide (w.gen < b.gen)
  let s := s.setObj o { b with waiters := b.waiters.filter (fun w => !go w) }
  (b.waiters.filter go).foldl (fun s w => s.wakeOne w 0) s

/-! ## Generations (R351, R354) -/

/-- The result record (R354). -/
def Obj.record (b : Obj) (phase gen skew now : Nat) : List Byte :=
  let r := match phase with
    | 1 => (Ingot.empty b.ing.anchor).toBytes
    | 2 => b.ing.toBytes
    | 3 => leBytes 4 b.fp32 ++ List.replicate 92 0
    | _ => List.replicate 96 0
  r ++ leBytes 4 gen ++ leBytes 4 (bitAt b.status 0 8 + bitAt phase 8 8 + bitAt b.fenced 16 14) ++ leBytes 8 now ++
    leBytes 4 skew ++ leBytes 2 b.lost ++ List.replicate 10 0

/-- LAST − FIRST modulo 2^32; 0 when no time was recorded (R354, R366). -/
def Obj.spread (b : Obj) : Nat :=
  match b.first, b.last with
  | some f, some l => (l + 2 ^ 32 - f % 2 ^ 32) % 2 ^ 32
  | _, _ => 0

/-- Raise the object's vector (R346). -/
def State.objMsi (s : State) (o : Nat) : State := if (s.obj o).msiEn then s.raiseVector (s.obj o).msiVec else s

/-- GEN advances: the record is written, then waiters proceed and the next generation begins (R351, R354, R362). -/
def State.genAdvance (s : State) (o : Nat) : State :=
  let b := s.obj o
  let phase := if b.kind = 2 then 0 else b.phase
  let gen := (b.gen + 1) % 2 ^ 32
  let skew := b.spread
  let s := if b.resultAddr = 0 then s else
    let (s, st) := s.writeWhole Req.host b.resultAddr (b.record phase gen skew s.drove)
    if st = 0 then s else s.raise (.sync (objHub o)) Evt.SYNC.REC_FAIL
  let b := { b with result := [gen, b.status, phase, b.fenced, s.drove, skew, b.lost] }
  let b' : Obj :=
    if b.kind = 2 then
      { b with gen := gen, skew := skew, state := 1, count := b.next, next := 0, status := b.nextStatus,
               fenced := b.nextFenced, first := b.nextFirst, last := b.nextLast, nextStatus := 0, nextFenced := 0,
               nextFirst := none, nextLast := none, doneRounds := [], pastRounds := b.doneRounds }
    else
      let more := b.mode = 1 && b.phase = 1
      { b with gen := gen, skew := skew, count := 0, doneRounds := [], pastRounds := b.doneRounds, state := if more then 1 else 3,
               phase := if more then 2 else b.phase, status := if more then 0 else b.status,
               fenced := if more then 0 else b.fenced, first := none, last := none }
  ((s.setObj o b').objMsi o).wake o

/-! ## Herd rounds (R358–R361) -/

/-- The present partial of an object (R359). -/
def State.partialOf (s : State) (o : Nat) (result : Bool) : PartialMsg :=
  let b := s.obj o
  { obj := o, round := b.round, gen := b.gen % 2, phase := if b.kind = 2 then 0 else b.phase, result := result,
    status := b.status, fenced := b.fenced, timed := b.first.isSome, tag := s.jobTag,
    first := b.first.getD 0 % 2 ^ 32, last := b.last.getD 0 % 2 ^ 32, anchor := b.ing.anchor, fp32 := b.fp32,
    record := if b.kind = 4 && b.phase = 2 then b.ing.toBytes else [] }

/-- Send the present partial on the round's port, or by its detour when the port is not ADMITTED (R358, R363). -/
def State.sendPartial (s : State) (o : Nat) (w : Word) (result : Bool) : State :=
  let m := s.partialOf o result
  let p : Fin 16 := ⟨getBits w 7 4 % 16, by omega⟩
  if s.admitted p || getBits w 8 8 = 0 then s.sendSync p (.herd m) else s.sendFrag (getBits w 26 9) m

/-- x comes before y as 32-bit times (R361). -/
def earlier32 (x y : Nat) : Bool := decide ((y + 2 ^ 32 - x % 2 ^ 32) % 2 ^ 32 < 2 ^ 31)

/-- Combine a partial into the object's (R361). -/
def Obj.combine (b : Obj) (m : PartialMsg) : Obj :=
  let (ing, mis) :=
    if b.kind = 4 ∧ b.phase = 2 then combineRecord b.mode b.ing (Ingot.ofBytes m.record)
    else if b.kind = 4 ∧ b.phase = 1 then ({ b.ing with anchor := anchorMax b.ing.anchor m.anchor }, false)
    else (b.ing, false)
  let t : Option Nat × Option Nat := match m.timed, b.first, b.last with
    | false, f, l => (f, l)
    | true, some f, some l =>
      (some (if earlier32 m.first f then m.first else f), some (if earlier32 l m.last then m.last else l))
    | true, _, _ => (some m.first, some m.last)
  { b with status := b.status ||| m.status ||| (if mis then ObjSt.anchorMismatch else 0)
           fenced := min 16383 (b.fenced + m.fenced), first := t.1, last := t.2, ing := ing
           fp32 := if b.kind = 4 && b.phase = 3 then (fp32Add b.fp32 m.fp32).1 else b.fp32 }

/-- A RESULT replaces the partial (R357). -/
def Obj.replace (b : Obj) (m : PartialMsg) : Obj :=
  { b with status := m.status, fenced := m.fenced
           first := if m.timed then some m.first else none, last := if m.timed then some m.last else none
           ing := if b.kind = 4 ∧ b.phase = 2 then Ingot.ofBytes m.record
                  else if b.kind = 4 ∧ b.phase = 1 then { b.ing with anchor := m.anchor } else b.ing
           fp32 := if b.kind = 4 && b.phase = 3 then m.fp32 else b.fp32 }

/-- Key of a buffered partial. -/
def bufKey (gen round : Nat) : Nat := gen % 2 * 16 + round

/-- The object goes on to its next round. -/
def Obj.nextRound (b : Obj) : Obj := { b with round := b.round + 1, sent := false }

/-- A herd object's local part is complete: it enters its rounds (R351, R358, R366); on a fenced package with STATUS
FENCED, one more FENCED and no time (R364). -/
def State.enterRounds (s : State) (o : Nat) : State :=
  let b := s.obj o
  let b := if s.fenced then { b with status := b.status ||| ObjSt.fenced, fenced := min 16383 (b.fenced + 1)
                                     first := none, last := none }
           else { b with first := b.last }
  s.setObj o { b with state := 2, round := 0, sent := false, roundAt := s.elapsed, doneRounds := [] }

/-- A generation of a herd object completes; with its local part complete, or on a fenced package, it enters the rounds
of the next at once. -/
def State.endRounds (s : State) (o : Nat) : State :=
  let s := s.genAdvance o
  let b := s.obj o
  if b.state = 1 ∧ (s.fenced ∨ (b.kind = 2 ∧ b.init % 65536 ≤ b.count)) then s.enterRounds o else s

/-- Carry out rounds until one has to wait or the object leaves ROUNDS; the argument bounds their number. -/
def State.runRounds (s : State) (o : Nat) : Nat → State
  | 0 => s
  | n + 1 =>
    let b := s.obj o
    if b.state ≠ 2 then s else
    if 16 ≤ b.round then State.runRounds (s.endRounds o) o n else
    let w := s.planRound b.plan b.round
    let act := getBits w 2 0
    if act = 0 then State.runRounds (s.endRounds o) o n else
    if act = 6 ∨ act = 7 then State.runRounds (s.setObj o b.nextRound) o n else
    let s := if (act = 1 ∨ act = 2 ∨ act = 4) ∧ !b.sent then
        let s := s.sendPartial o w (act = 4)
        s.setObj o { s.obj o with sent := true, roundAt := s.elapsed }
      else s
    let b := s.obj o
    if act = 2 ∨ act = 4 then State.runRounds (s.setObj o b.nextRound) o n else
    match b.buf.find (bufKey b.gen b.round) with
    | none => s
    | some m =>
      let b := { b with buf := b.buf.del (bufKey b.gen b.round), doneRounds := b.doneRounds ++ [b.round] }
      if act = 5 then State.runRounds ((s.setObj o (b.replace m)).endRounds o) o n
      else State.runRounds (s.setObj o { (b.combine m).nextRound with roundAt := s.elapsed }) o n

/-- Rounds that one happening can carry out: those of the present generation and of the next, whose partials may be
buffered. -/
def roundFuel : Nat := 68

/-- A herd object's rounds go on. -/
def State.rounds (s : State) (o : Nat) : State := s.runRounds o roundFuel

/-- The local part of an object is complete (R351, R358, R362). -/
def State.localDone (s : State) (o : Nat) : State :=
  let b := s.obj o
  if b.scope = 3 then (s.enterRounds o).rounds o else s.genAdvance o

/-! ## Operations (R347–R352) -/

/-- SIGNAL reaches an object: whether it was accepted. `st` and `fenced` are what the signal carries (R352). -/
def State.signal (s : State) (o n : Nat) (src : SyncSrc) (st fenced : Nat) : State × Bool :=
  let b := s.obj o
  let refuse := (s.syncRefuse (objHub o), false)
  if b.state = 0 ∨ n = 0 ∨ b.kind = 4 ∨ !s.srcAllowed b src then refuse else
  let ex := b.init % 65536
  if b.kind = 1 then
    let c := b.count + n
    let above := decide (2 ^ 31 - 1 < c)
    let b := { b with count := min c (2 ^ 31 - 1), fenced := min 16383 (b.fenced + fenced)
                      status := b.status ||| st ||| (if above then ObjSt.overflow else 0) }
    ((s.setObj o b).wake o, true)
  else if b.kind = 3 then
    if b.isSet then (s, true) else
    let c := min ex (b.count + n)
    let s := s.setObj o { b with count := c, isSet := c = ex, status := b.status ||| st
                                 fenced := min 16383 (b.fenced + fenced) }
    (if c = ex then (s.objMsi o).wake o else s, true)
  else if s.fenced ∧ b.scope = 3 then refuse
  else if b.state = 2 then
    if ex < b.next + n then refuse else
    (s.setObj o { b with next := b.next + n, nextStatus := b.nextStatus ||| st
                         nextFenced := min 16383 (b.nextFenced + fenced)
                         nextFirst := some (b.nextFirst.getD s.drove), nextLast := some s.drove }, true)
  else
    let c := b.count + n
    if 2 * ex < c then refuse else
    let b := { b with status := b.status ||| st, fenced := min 16383 (b.fenced + fenced)
                      first := some (b.first.getD s.drove), last := some s.drove }
    if c < ex then (s.setObj o { b with count := c }, true) else
    let more := c - ex
    let s := s.setObj o { b with count := ex, next := more
                                 nextFirst := if more = 0 then none else some s.drove
                                 nextLast := if more = 0 then none else some s.drove }
    let s := s.localDone o
    (if b.scope ≠ 3 ∧ more = ex then s.localDone o else s, true)

/-- SET of an event (R348). -/
def State.setEvent (s : State) (o : Nat) (src : SyncSrc) : State × Bool :=
  let b := s.obj o
  if b.state = 0 ∨ b.kind ≠ 3 ∨ !s.srcAllowed b src then (s.syncRefuse (objHub o), false) else
  let s := s.setObj o { b with isSet := true, count := b.init % 65536 }
  ((if b.isSet then s else s.objMsi o).wake o, true)

/-- CLEAR of a semaphore or event (R348). -/
def State.clearObj (s : State) (o : Nat) (src : SyncSrc) : State × Bool :=
  let b := s.obj o
  if b.state = 0 ∨ (b.kind ≠ 3 ∧ b.kind ≠ 1) ∨ !s.srcAllowed b src then (s.syncRefuse (objHub o), false)
  else (s.setObj o { b with isSet := false, count := 0 }, true)

/-- A kernel's contribution to a reduction (R362): anchor, record or FP32 value by phase. -/
def State.contrib (s : State) (o : Nat) (src : SyncSrc) (data : List Byte) : State × Bool :=
  let b := s.obj o
  if b.state = 0 ∨ b.kind ≠ 4 ∨ !s.srcAllowed b src ∨ (s.fenced ∧ b.scope = 3) then
    (s.syncRefuse (objHub o), false)
  else if b.state ≠ 1 ∨ data.length ≠ (if b.phase = 2 then 96 else 4) then
    (s.setObj o { b with status := b.status ||| ObjSt.badContrib }, true)
  else
    let (ing, mis) :=
      if b.phase = 2 then combineRecord b.mode b.ing (Ingot.ofBytes data)
      else if b.phase = 1 then ({ b.ing with anchor := anchorMax b.ing.anchor (BitVec.ofNat 16 (leNat (data.take 2))) }, false)
      else (b.ing, false)
    let b := { b with ing := ing, fp32 := if b.phase = 3 then (fp32Add b.fp32 (leNat data)).1 else b.fp32
                      status := b.status ||| (if mis then ObjSt.anchorMismatch else 0)
                      count := b.count + 1, first := some s.drove, last := some s.drove }
    let s := s.setObj o b
    (if b.count = b.init % 65536 then s.localDone o else s, true)

/-- DISARM: kernels waiting return BAD_MODE; rounds and buffered partials are dropped (R347). -/
def State.disarm (s : State) (o : Nat) : State :=
  let b := s.obj o
  let s := s.setObj o { b with state := 0, waiters := [], buf := [], doneRounds := [], pastRounds := [], round := 0, sent := false }
  b.waiters.foldl (fun s w => s.wakeOne w St.badMode) s

/-- A descriptor's fields. -/
def Obj.ofDesc (b : List Byte) : Obj :=
  let f := fun o n => leNat ((b.drop o).take n)
  let w0 := f 0 4
  let w8 := f 8 4
  { Obj.idle with
    kind := bitsOf w0 2 0, scope := bitsOf w0 4 3, mode := bitsOf w0 7 5, plan := bitsOf w0 10 8
    msiEn := bitsOf w0 11 11 = 1, init := f 4 4, die := bitsOf w8 1 0, slot := bitsOf w8 8 2
    msiVec := bitsOf w8 26 16, anchorDecl := BitVec.ofNat 16 (f 12 2), timeoutUs := f 14 2, resultAddr := f 16 8 }

/-- The descriptor passes R347. -/
def descOk (o : Nat) (b : List Byte) : Bool :=
  let f := fun o n => leNat ((b.drop o).take n)
  let d := Obj.ofDesc b
  let scopeOk := match d.kind with
    | 1 | 3 => d.scope ≤ 2
    | 2 => true
    | 4 => 2 ≤ d.scope
    | _ => false
  bitsOf (f 0 4) 31 12 == 0 && bitsOf (f 4 4) 31 31 == 0 && bitsOf (f 8 4) 15 9 == 0 && bitsOf (f 8 4) 31 27 == 0 &&
    f 24 8 == 0 && scopeOk && (d.kind ≠ 4 || d.mode ≤ 5) && (d.scope ≠ 3 || o < 1024) &&
    (d.kind = 1 || (bitsOf d.init 30 16 == 0 && d.init % 65536 ≠ 0)) && d.resultAddr % 128 == 0

/-- ARM (R347, and R132 for a reduction's record). -/
def State.armObj (s : State) (o : Nat) : State :=
  let s := if (s.obj o).state = 0 then s else s.disarm o
  let base := s.getPair (.sync 0) Reg.SYNC.OBJ_TAB_LO Reg.SYNC.OBJ_TAB_HI
  let (s, st, raw) := s.readMem (.hub (objHub o)) (base + 32 * o) 32
  if st ≠ 0 ∨ !descOk o raw then
    (s.setObj o { s.obj o with state := 0, kind := 0, status := ObjSt.badDesc }).raise (.sync (objHub o))
      Evt.SYNC.OBJ_BAD
  else
    let d := Obj.ofDesc raw
    let phase := if d.kind ≠ 4 then 0 else if d.mode = 1 ∨ d.mode = 2 then 1 else if d.mode = 5 then 3 else 2
    let anchor := if d.mode = 0 then shortAnchor else if d.mode = 3 then d.anchorDecl else anchorNone
    let s := s.setObj o { d with state := 1, count := if d.kind = 1 then d.init else 0, phase := phase
                                 ing := Ingot.empty (if d.kind = 4 then anchor else anchorNone) }
    if d.scope = 3 ∧ s.fenced then (s.enterRounds o).rounds o else s

/-- The armed herd objects of a package that becomes fenced complete their local parts (R364). -/
def State.fenceObjs (s : State) : State :=
  s.objs.keys.foldl (fun s o =>
    let b := s.obj o
    if b.scope = 3 ∧ b.state = 1 then (s.enterRounds o).rounds o else s) s

/-- The object allows a pool head that began to wait at GEN `since` (R349). -/
def State.headAllowed (s : State) (o die : Nat) (since : Option Nat) : Bool :=
  let b := s.obj o
  if b.state = 0 || !s.srcAllowed b (.die die) then false
  else if b.kind = 1 then 1 ≤ b.count
  else if b.kind = 3 then b.isSet
  else match since with
    | some g => decide (g < b.gen)
    | none => false

/-! ## Partials received (R360) -/

/-- Phase of a herd object in the generation a partial names: its present one, or the next; none where it has no next. -/
def Obj.phaseIn (b : Obj) (next : Bool) : Option Nat :=
  if b.kind = 2 then some 0
  else if !next then some b.phase
  else if b.mode = 1 && b.phase = 1 then some 2 else none

/-- The partial's round expects it where it arrived: on a port, or by detour. -/
def State.roundExpects (s : State) (b : Obj) (inPort : Option (Fin 16)) (m : PartialMsg) : Bool :=
  let w := s.planRound b.plan m.round
  let act := getBits w 2 0
  (if m.result then act == 5 else act == 1 || act == 3) &&
    (match inPort with
     | some p => getBits w 7 4 == p.val
     | none => getBits w 8 8 == 1)

/-- A partial of the other generation parity is one of the generation before, whose rounds are over: outside the rounds always, and in
them while its round of the present generation has not come yet, since its sender sends that one first (DEDUCED:
notes/assumptions/27.md). -/
def Obj.isPast (b : Obj) (m : PartialMsg) : Bool :=
  m.gen % 2 != b.gen % 2 && b.pastRounds.contains m.round &&
    (b.state != 2 || !(b.doneRounds.contains m.round || (b.buf.find (bufKey b.gen m.round)).isSome))

/-- A PARTIAL arrives on a port, or by detour: it is refused, discarded as a duplicate, or buffered, and the rounds
go on. One of the other parity is for the next generation only while the object is in its rounds (R356). -/
def State.takePartial (s : State) (inPort : Option (Fin 16)) (m : PartialMsg) : State :=
  let b := s.obj m.obj
  let next := m.gen % 2 != b.gen % 2
  let ours := m.tag == s.jobTag && s.jobTag != 0 && b.scope == 3 && b.state != 0 && m.round < 16
  let known := ours && (b.state == 2 || (b.state == 1 && !next))
  if ours && b.isPast m then s
  else if !known || b.phaseIn next != some m.phase || !s.roundExpects b inPort m then s.syncRefuse (objHub m.obj)
  else if (!next && (b.doneRounds.contains m.round || (b.state == 2 && decide (m.round < b.round)))) ||
      (b.buf.find (bufKey m.gen m.round)).isSome then s
  else (s.setObj m.obj { b with buf := b.buf.put (bufKey m.gen m.round) m }).rounds m.obj

end Sys2Proof.Machine
end

