-- ==== Sys2Proof/Machine/CeilOps.lean ====
section
/-! DEFINITION. Tiles, frequency ceilings and tile rails as shared operations (R64, R391, R397, R401, R407, R427). -/

namespace Sys2Proof.Machine

open Sys2Proof

/-! ## Tiles -/

def tileKey (d : Fin 4) (t : Fin 104) : Nat := d * 104 + t

def State.tile (s : State) (d : Fin 4) (t : Fin 104) : Tile := s.tiles.getD (tileKey d t) .init

def State.setTile (s : State) (d : Fin 4) (t : Fin 104) (x : Tile) : State :=
  { s with tiles := s.tiles.putD (tileKey d t) x .init }

def State.setPw (s : State) (p : PwrSt) : State := { s with pw := p }

/-! ## Ceilings (R397) -/

/-- Key of a cluster. -/
def clusKey (d c : Nat) : Nat := 13 * d + c

/-- The lowest of an island's ceilings in MHz and its reason, as its inputs give it; ties to the first of PEAK, THERMAL, DROOP, BUDGET, PACE. -/
def State.ceilNow (s : State) (d : Fin 4) (t : Fin 104) (pace : Bool) : Nat × Nat :=
  let x := s.tile d t
  let cs := [(if s.pw.peakOn then s.pw.peakCeil else 2500, 2), (x.ceilTherm, 3), (x.ceilDroop, 4),
    (s.pw.budget.getD (clusKey d (t / 8)) 2500, 1)] ++
    (if pace && s.isSet (.sync 0) Reg.SYNC.PACE_CFG_FOLLOW then [(s.getF (.sync 0) Reg.SYNC.PACE_STAT_HERD_MHZ, 5)] else [])
  cs.foldl (fun b x => if x.1 < b.1 then x else b) (2500, 0)

/-- The die power controllers hold the ceilings in force: they hand over, or restart (R525, R529). -/
def State.ceilsHeld (s : State) : Bool :=
  match s.mg.fw.heldTo with
  | some t => decide (s.elapsed < t)
  | none => !s.mg.fw.held.isEmpty

/-- An island's ceiling in force and its reason. -/
def State.islandCeil (s : State) (d : Fin 4) (t : Fin 104) (pace : Bool) : Nat × Nat :=
  if s.ceilsHeld then s.mg.fw.held.getD (2 * tileKey d t + pace.toNat) (s.ceilNow d t pace) else s.ceilNow d t pace

/-- Active tiles of a die. -/
def State.islands (s : State) (d : Fin 4) : List (Fin 104) := (List.finRange 104).filter (fun t => s.tileState d t == 0)

/-- The lowest of pairs by first part, the first in order on a tie. -/
def lowest (l : List (Nat × Nat)) : Nat × Nat := l.foldl (fun b x => if x.1 < b.1 then x else b) (2500, 0)

/-- The highest of pairs by first part. -/
def highest (l : List (Nat × Nat)) : Nat × Nat :=
  match l with
  | [] => (2500, 0)
  | x :: xs => xs.foldl (fun b y => if b.1 < y.1 then y else b) x

/-- A die's and its clusters' ceiling registers follow (R407). -/
def State.showCeils (s : State) (d : Fin 4) : State :=
  let u := UnitId.cdie d
  let lo := lowest ((s.islands d).map (fun t => s.islandCeil d t false))
  let s := (s.setF u Reg.CDIE.CEIL_MHZ lo.1).setF u Reg.CDIE.CEIL_REASON lo.2
  (List.range 13).foldl (fun s c =>
    let hi := highest (((s.islands d).filter (fun (t : Fin 104) => t.val / 8 = c)).map (fun t => s.islandCeil d t true))
    (s.setF u (Reg.CDIE.CLUS_CEIL_MHZ c) hi.1).setF u (Reg.CDIE.CLUS_CEIL_REASON c) hi.2) s

/-- A frequency change reaches an island in a stretch or in the 64 cycles after one: it is deferred and counted (R401). -/
def State.deferChange (s : State) (d : Fin 4) (t : Fin 104) : State :=
  let x := s.tile d t
  if (x.stretching || x.settling) && !x.deferred then
    (s.setTile d t { x with deferred := true }).bump (.cdie d) Reg.CDIE.FREQ_DEFER_COUNT
  else s

/-- The package's own pace (R379). -/
def State.ownPace (s : State) : Nat :=
  (lowest ((List.finRange 4).flatMap (fun d => (s.islands d).map (fun t => s.islandCeil d t false)))).1

/-- The registers of a die's ceilings and the own pace follow, also where an island joins the active ones or leaves them (R383, R407). -/
def State.ceilsOf (s : State) (d : Fin 4) : State :=
  let s := s.showCeils d
  s.setF (.sync 0) Reg.SYNC.PACE_STAT_OWN_MHZ s.ownPace

/-! ## Rails and margins (R391, R427) -/

/-- Index of the margin point at or above a frequency. -/
def marginPoint (mhz : Nat) : Nat := (max mhz 400 - 400 + 299) / 300

/-- An island's margin table in force; with none kept, the table fused at test plus 20 mV. -/
def State.marginOf (s : State) (d : Fin 4) (t : Fin 104) : Margin :=
  s.pw.margins.getD (tileKey d t) ⟨(List.range 8).map (fun i => Config.fusedMargin (tileKey d t) i + 8), 0, 0, Config.ringTest (tileKey d t)⟩

/-- Hot spot of an island. -/
def islandSpot (d t : Nat) : Nat := 104 * d + t

def State.spot (s : State) (n : Nat) : Spot := s.pw.spots.getD n .init

/-- What the temperature adds to an island's need, in 2.5 mV steps: its fused coefficient, in µV, for each °C by which T_ctl exceeds that of
the last visit, rounded up to a step of the rail (R427; DEDUCED: notes/assumptions/56.md). -/
def State.tempNeed (s : State) (d : Fin 4) (t : Fin 104) : Nat :=
  let rise := ((s.spot (islandSpot d t)).tctl - (s.marginOf d t).temp).toNat
  (Config.tempCoef (tileKey d t) * rise + 19999) / 20000

/-- Voltage an island needs at a frequency, in 2.5 mV steps. -/
def State.need (s : State) (d : Fin 4) (t : Fin 104) (mhz : Nat) : Nat :=
  (s.marginOf d t).table.getD (marginPoint mhz) 360 + s.tempNeed d t

/-- A cluster's rail, in 2.5 mV steps. -/
def State.rail (s : State) (d : Fin 4) (c : Nat) : Nat := s.pw.rails.getD (clusKey d c) 300

/-- The highest voltage an island of the cluster needs at its ceiling. -/
def State.railNeed (s : State) (d : Fin 4) (c : Nat) : Nat :=
  (((s.islands d).filter (fun (t : Fin 104) => t.val / 8 = c)).map (fun t => s.need d t (s.islandCeil d t true).1)).foldl max 0

/-- A rise demanded of a rail that falls stops the fall at once (R391, R405). -/
def State.stopFalls (s old : State) : State :=
  s.setPw { s.pw with railFall := s.pw.railFall.filter (fun (e : Nat × Bool) =>
    let d : Fin 4 := ⟨e.1 / 13 % 4, by omega⟩
    decide (s.railNeed d (e.1 % 13) ≤ old.railNeed d (e.1 % 13))) }

/-- Ceilings have changed from those of a former state: changes to stretched islands are deferred, registers and own pace follow, and a
rail whose demand rises falls no more. -/
def State.ceilsFrom (s old : State) : State :=
  let s := (List.finRange 4).foldl (fun s d => (s.islands d).foldl (fun s t =>
    if (s.islandCeil d t true).1 = (old.islandCeil d t true).1 then s else s.deferChange d t) s) s
  ((List.finRange 4).foldl State.ceilsOf s).stopFalls old

/-- The ceilings in force are held, for a handover of the die power controllers or until a time (R525, R529). -/
def State.holdCeils (s : State) (to_ : Option Nat) : State :=
  let l := (List.finRange 4).flatMap (fun d => (s.islands d).flatMap (fun t =>
    [(2 * tileKey d t, s.islandCeil d t false), (2 * tileKey d t + 1, s.islandCeil d t true)]))
  { s with mg := { s.mg with fw := { s.mg.fw with held := l, heldTo := to_ } } }

/-- The die power controllers run again: the ceilings follow their inputs. -/
def State.freeCeils (s : State) : State :=
  if s.mg.fw.held.isEmpty then s else
  let s' : State := { s with mg := { s.mg with fw := { s.mg.fw with held := [], heldTo := none } } }
  s'.ceilsFrom s

end Sys2Proof.Machine
end

