-- ==== Sys2Proof/Machine/TaskOps.lean ====
section
/-! DEFINITION. Task pools, task ends and tile failures as shared operations: pool entries (R142, R143), doorbells
(R145), completion records (R160, R161), retries and partners (R165–R167), local-store errors (R73), what a tile failure
does at once (R111). -/

namespace Sys2Proof.Machine

open Sys2Proof

/-- A little-endian field of a descriptor. -/
def descF (b : List Byte) (o n : Nat) : Nat := leNat ((b.drop o).take n)

/-! ## Tiles -/

/-- The task in a slot. -/
def Tile.slot (x : Tile) (k : Fin 2) : Option Task := if k = 0 then x.slot0 else x.slot1

/-- TILE.STATE.DRAINED: DRAIN set and both slots empty (R107). -/
def State.drained (s : State) (d : Fin 4) (t : Fin 104) : State :=
  let x := s.tile d t
  let yes := s.isSet (.tile d t) Reg.TILE.CTL_DRAIN && x.slot0.isNone && x.slot1.isNone
  s.setF (.tile d t) Reg.TILE.STATE_DRAINED (if yes then 1 else 0)

/-- Put a task in a slot or empty it; TILE.STATE follows. -/
def State.setSlot (s : State) (d : Fin 4) (t : Fin 104) (k : Fin 2) (v : Option Task) : State :=
  let x := s.tile d t
  let s := s.setTile d t (if k = 0 then { x with slot0 := v } else { x with slot1 := v })
  let s := s.setF (.tile d t) (if k = 0 then Reg.TILE.STATE_SLOT0 else Reg.TILE.STATE_SLOT1)
    (if v.isSome then 1 else 0)
  s.drained d t

/-- The tile is ACTIVE and its island runs. -/
def State.tileActive (s : State) (d : Fin 4) (t : Fin 104) : Bool := s.tileState d t == 0 && !(s.tile d t).stopped

/-- The physical tile that holds a slot, if the slot is valid (R65, R109). -/
def State.slotTile (s : State) (d : Fin 4) (n : Nat) : Option (Fin 104) :=
  if 100 ≤ n then none else
  let w := s.getW (.cdie d) (0x100 + 4 * n)
  if getBits w 7 7 = 1 then (if h : getBits w 6 0 < 104 then some ⟨getBits w 6 0, h⟩ else none) else none

/-! ## Task descriptors (R148) -/

def Task.engine (x : Task) : Nat := bitsOf (descF x.desc 0 4) 17 16
def Task.rmode (x : Task) : Nat := bitsOf (descF x.desc 0 4) 20 18
def Task.waitEn (x : Task) : Bool := bitsOf (descF x.desc 0 4) 21 21 == 1
def Task.signalEn (x : Task) : Bool := bitsOf (descF x.desc 0 4) 22 22 == 1
def Task.kernel (x : Task) : Nat := descF x.desc 0 2
def Task.phaseTag (x : Task) : Nat := descF x.desc 4 1
def Task.maxAttempts (x : Task) : Nat := max 1 (bitsOf (descF x.desc 4 4) 11 8)
def Task.retryOn (x : Task) : Nat := bitsOf (descF x.desc 4 4) 15 12
def Task.timeLimit (x : Task) : Nat := descF x.desc 6 2
def Task.waitObj (x : Task) : Nat := descF x.desc 8 2
def Task.signalObj (x : Task) : Nat := descF x.desc 10 2
def Task.taskId (x : Task) : Nat := descF x.desc 0x10 8
def Task.seed (x : Task) : Nat := descF x.desc 0x18 8

/-- The write bounds: first byte and first byte after it (R149). -/
def Task.bounds (x : Task) : List (Nat × Nat) :=
  [(descF x.desc 0x20 4, descF x.desc 0x24 4), (descF x.desc 0x28 4, descF x.desc 0x2C 4)]

/-- A write bound keeps R149. One whose BASE lies above its END does not: the model's choice, for R149 does not say (DESIGN
CHOICE: notes/assumptions/46.md). -/
def boundOk (b : Nat × Nat) : Bool :=
  b.1 % 64 == 0 && b.2 % 64 == 0 && 0xA000 ≤ b.1 && b.1 ≤ b.2 && b.2 ≤ 0x131000

/-- The status of the dispatcher's check of a descriptor (R150): 0 when it passes. -/
def Task.check (x : Task) : Nat :=
  let w0 := descF x.desc 0 4
  if bitsOf w0 31 23 ≠ 0 ∨ descF x.desc 0x0C 4 ≠ 0 ∨ descF x.desc 0x30 16 ≠ 0 ∨ 5 ≤ x.rmode then St.badFormat
  else if x.engine = 3 then St.badMode
  else if x.bounds.any (fun b => !boundOk b) then St.badLayout
  else 0

/-- Two tasks' write bounds share a byte. -/
def Task.overlaps (x y : Task) : Bool :=
  x.bounds.any (fun a => y.bounds.any (fun b => decide (max a.1 b.1 < min a.2 b.2)))

/-! ## Pools (R142, R143) -/

def State.pool (s : State) (p : Nat) : Pool := s.pools.getD p .init

def State.setPool (s : State) (p : Nat) (v : Pool) : State := { s with pools := s.pools.putD p v .init }

def Pool.ringAddr (x : Pool) : Nat := descF x.entry 0 8
def Pool.cqAddr (x : Pool) : Nat := descF x.entry 8 8
def Pool.ringLog (x : Pool) : Nat := bitsOf (descF x.entry 0x10 4) 4 0
def Pool.cqLog (x : Pool) : Nat := bitsOf (descF x.entry 0x10 4) 12 8
def Pool.home (x : Pool) : Fin 4 := ⟨bitsOf (descF x.entry 0x10 4) 17 16 % 4, by omega⟩
def Pool.steal (x : Pool) : Nat := bitsOf (descF x.entry 0x10 4) 19 18
def Pool.priority (x : Pool) : Nat := bitsOf (descF x.entry 0x10 4) 21 20
def Pool.partnerEn (x : Pool) : Bool := bitsOf (descF x.entry 0x10 4) 22 22 == 1
def Pool.msiEn (x : Pool) : Bool := bitsOf (descF x.entry 0x10 4) 23 23 == 1
def Pool.faultEvt (x : Pool) : Bool := bitsOf (descF x.entry 0x10 4) 24 24 == 1
def Pool.affinity (x : Pool) : Nat := bitsOf (descF x.entry 0x14 4) 12 0
def Pool.partner (x : Pool) : Nat := bitsOf (descF x.entry 0x14 4) 27 16
def Pool.vector (x : Pool) : Nat := bitsOf (descF x.entry 0x18 4) 10 0

/-- Tasks posted and not taken. -/
def Pool.untaken (x : Pool) : Nat := (x.tail + 2 ^ 32 - x.head) % 2 ^ 32

/-- Cluster c is an affinity cluster. -/
def Pool.affine (x : Pool) (c : Nat) : Bool := x.affinity / 2 ^ c % 2 == 1

/-- The pool enters ERROR on its home die (R171, R173). A cause that reaches a pool already in ERROR, a write of CQ_HEAD out of its
range, is shown and raises POOL_ERR again, and a hold of its head ends in ERROR: the model's choice, for R145, R158 and R173 do not
say (DESIGN CHOICE: notes/assumptions/46.md). -/
def State.poolErr (s : State) (p cause : Nat) : State :=
  let x := s.pool p
  let s := s.setPool p { x with state := 2, err := cause, held := false }
  let s := s.setF (.cdie x.home) Reg.CDIE.DISP_LAST_POOL p
  s.raise (.cdie x.home) Evt.CDIE.POOL_ERR

/-- Cause of a table entry's failure: 1 BAD_ENTRY, 2 PARTNER_BAD, 0 none (R143). `other` is the partner's entry. -/
def entryCause (p : Nat) (e other : List Byte) : Nat :=
  let x := { Pool.init with entry := e }
  let y := { Pool.init with entry := other }
  let w := descF e 0x10 4
  let w14 := descF e 0x14 4
  let bad := bitsOf w 31 25 ≠ 0 || bitsOf w 15 13 ≠ 0 || bitsOf w 7 5 ≠ 0 || bitsOf w14 31 28 ≠ 0 ||
    bitsOf w14 15 13 ≠ 0 || bitsOf (descF e 0x18 4) 31 11 ≠ 0 || descF e 0x1C 36 ≠ 0 ||
    x.ringLog < 4 || 16 < x.ringLog || x.cqLog < 4 || 16 < x.cqLog || x.affinity = 0 || x.steal = 3 ||
    x.ringAddr % 4096 ≠ 0 || x.cqAddr % 4096 ≠ 0 || 2 ^ 41 < x.ringAddr + 128 * 2 ^ x.ringLog ||
    2 ^ 41 < x.cqAddr + 32 * 2 ^ x.cqLog
  if bad then 1
  else if x.partnerEn && (x.partner = p || !(y.partnerEn && y.partner = p) || y.home ≠ x.home) then 2
  else 0

/-- Address of a pool's table entry. -/
def State.entryAddr (s : State) (p : Nat) : Nat := s.getPair .pkg Reg.PKG.POOL_TAB_LO Reg.PKG.POOL_TAB_HI + 64 * p

/-- The dispatcher reads a pool's entry; counts are kept. A read that fails gives an entry of zeros, which fails (R143). -/
def State.loadEntry (s : State) (p : Nat) : State :=
  let (s, st, e) := s.readMem (.hub 0) (s.entryAddr p) 64
  s.setPool p { s.pool p with entry := if st = 0 then e else List.replicate 64 0, state := 0, err := 0, held := false }

/-- The entry last read of a pool is checked beside the one last read of its partner (R143). -/
def State.judgeEntry (s : State) (p : Nat) : State :=
  match entryCause p (s.pool p).entry (s.pool (s.pool p).partner).entry with
  | 0 => s
  | c => s.poolErr p c

/-- RELOAD of a pool: its entry is read and checked (R143, R144). -/
def State.readEntry (s : State) (p : Nat) : State := (s.loadEntry p).judgeEntry p

/-- A table commit: every entry is read, then every one is checked (R143). -/
def State.readTable (s : State) : State :=
  (List.range 4096).foldl State.judgeEntry ((List.range 4096).foldl State.loadEntry s)

/-- Ring address of the head. -/
def Pool.headAddr (x : Pool) (n : Nat) : Nat := x.ringAddr + 128 * (n % 2 ^ x.ringLog)

/-- The descriptor that stands in the ring at a count, if it can be read. -/
def State.ringDesc (s : State) (x : Pool) (n : Nat) : Option (List Byte) :=
  if s.linesStatus (x.headAddr n / 64) 2 = 0 then some (s.mm.mem.readBytes (x.headAddr n) 128) else none

/-- A task as it is taken for the first time. -/
def Task.fresh (p : Nat) (desc : List Byte) : Task :=
  { pool := p, desc := desc, attempts := 1, pair := false, fate := none, alone := false, start := none, flags := 0,
    wide := 0, post := none, held := none }

/-- The home die's dispatcher reads the descriptor at a count from the ring: its two lines are accesses like any other (R178, R197,
R211). -/
def State.ringRead (s : State) (x : Pool) (n : Nat) : State := (s.readMem (.disp x.home) (x.headAddr n) 128).1

/-- A task reaches the head of its pool: the dispatcher reads its descriptor, and its wait begins (R349). -/
def State.headArrives (s : State) (p : Nat) : State :=
  let x := s.pool p
  let g := if x.untaken = 0 then none else
    match s.ringDesc x x.head with
    | none => none
    | some b => let t := Task.fresh p b; if t.waitEn then some (s.obj t.waitObj).gen else none
  (if x.untaken = 0 then s else s.ringRead x x.head).setPool p { x with waitGen := g }

/-- A doorbell of n tasks (R145). -/
def State.doorbell (s : State) (p n : Nat) : State :=
  let x := s.pool p
  if n = 0 ∨ x.state = 2 then s
  else if 2 ^ x.ringLog < x.untaken + n then s.poolErr p 3
  else
    let s := s.setPool p { x with tail := (x.tail + n) % 2 ^ 32 }
    if x.untaken = 0 then s.headArrives p else s

/-! ## Completion (R160, R161) -/

/-- A completion record (R161). -/
def complRecord (x : Task) (status cause die slot tslot lap now : Nat) : List Byte :=
  leBytes 8 x.taskId ++ leBytes 4 (bitAt status 0 8 + bitAt cause 8 8 + bitAt x.attempts 16 4) ++
  leBytes 4 x.flags.toNat ++ leBytes 4 x.wide ++
  leBytes 4 (bitAt die 0 2 + bitAt slot 2 7 + bitAt tslot 9 1 + bitAt lap 31 1) ++ leBytes 8 now

/-- A task's final completion: record, CQ_TAIL, signal, MSI, in that order (R160). `src` is the source of the signal, `at_` the
drove time of the end. -/
def State.finish (s : State) (x : Task) (status cause die slot tslot at_ : Nat) (src : SyncSrc) (ran : Bool) : State :=
  let q := s.pool x.pool
  let lap := 1 - q.cqTail / 2 ^ q.cqLog % 2
  let addr := q.cqAddr + 32 * (q.cqTail % 2 ^ q.cqLog)
  let (s, _) := s.writeWhole (.disp q.home) addr (complRecord x status cause die slot tslot lap at_)
  let q := s.pool x.pool
  let s := s.setPool x.pool { q with cqTail := (q.cqTail + 1) % 2 ^ 32, running := q.running - (if ran then 1 else 0) }
  let s := if x.signalEn then (s.signal x.signalObj 1 src (if status = 0 then 0 else ObjSt.fault) 0).1 else s
  let s := if q.faultEvt ∧ status ≠ 0 then
      (s.setF (.cdie q.home) Reg.CDIE.DISP_LAST_POOL x.pool).raise (.cdie q.home) Evt.CDIE.TASK_FAULT
    else s
  if q.msiEn then s.raiseVector q.vector else s

/-- The final completion of a task that ran in a slot. -/
def State.finishRan (s : State) (d : Fin 4) (t : Fin 104) (k : Fin 2) (slot : Nat) (x : Task) (e : TaskStop) : State :=
  s.finish x e.status e.cause d slot k e.at_ (.task d t k) true

/-- The attempt's end qualifies for a retry (R165). -/
def Task.retries (x : Task) (status cause : Nat) : Bool :=
  let on := fun b => x.retryOn / 2 ^ b % 2 == 1
  decide (x.attempts < x.maxAttempts) &&
    ((status == 2 && on 0) || (status == 1 && cause == St.computeCheck && on 1) ||
      (status == 1 && cause == St.lsUe && on 2) || (status == 3 && on 3))

/-- Queue an attempt again at the front of its pool (R165, R166). -/
def State.requeue (s : State) (x : Task) : State :=
  let q := s.pool x.pool
  let s := s.bump (.cdie q.home) Reg.CDIE.DISP_RETRY_COUNT
  s.setPool x.pool { q with retries := { x with start := none, flags := 0, wide := 0, post := none, fate := none
                                                alone := false, held := none } :: q.retries }

/-- No object keeps a kernel of the slot waiting. -/
def State.dropWaits (s : State) (d : Fin 4) (t : Fin 104) (k : Fin 2) : State :=
  { s with objs := s.objs.map (fun e => (e.1, { e.2 with
      waiters := e.2.waiters.filter (fun w => !(w.die == d.val && w.tile == t.val && w.tslot == k.val)) })) }

/-- The tile can take another task: a slot is free and no FULL task has the tile (R155). -/
def Tile.room (x : Tile) : Bool := x.slot0.isNone || (x.slot1.isNone && !x.slot0.any (fun w => w.engine = 2))

/-- The operations of a slot are ended, and its kernel's copy has a user less (R79, R160). -/
def State.stopOps (s : State) (d : Fin 4) (t : Fin 104) (k : Fin 2) : State :=
  let x := s.tile d t
  let x := if k = 0 then { x with mops0 := [], dms0 := [], stallMop0 := none, stallDm0 := none }
    else { x with mops1 := [], dms1 := [], stallMop1 := none, stallDm1 := none }
  let x := { x with kcache := x.kcache.map (fun e => { e with users := e.users.filter (· ≠ k.val) }) }
  (s.dropWaits d t k).setTile d t x

/-- An engine change of a tile is over (R81). -/
def State.engineDone (s : State) (d : Fin 4) (t : Fin 104) : State :=
  match (s.tile d t).engineTo with
  | some g => (s.setTile d t { s.tile d t with engineTo := none }).setF (.tile d t) Reg.TILE.STATE_ENGINE g
  | none => s

/-- A slot's operations are ended and it is empty (R160). An engine change begun for its task is over: it takes 64 cycles
whatever becomes of the task. A tile without room until now is idle from here on (R152), and its die counts from here the time it runs no task (R428). -/
def State.clearSlot (s : State) (d : Fin 4) (t : Fin 104) (k : Fin 2) : State :=
  let s := (s.stopOps d t k).engineDone d t
  let x := s.tile d t
  let s := if x.room then s else s.setTile d t { x with idleAt := s.elapsed }
  let s := { s with pw := { s.pw with ranAt := s.pw.ranAt.put d s.elapsed } }
  s.setSlot d t k none

/-- The other task slot. -/
def otherSlot (k : Fin 2) : Fin 2 := if k = 0 then 1 else 0

/-- A pair's surviving task learns how its partner ended (R167). -/
def State.tellPartner (s : State) (d : Fin 4) (t : Fin 104) (k : Fin 2) (status : Nat) : State :=
  match (s.tile d t).slot (otherSlot k) with
  | some y => if y.pair then
      s.setSlot d t (otherSlot k) (some { y with alone := true, fate := if status = 0 then none else some status })
    else s
  | none => s

/-- The partner of a pair's task, while it stands in the other slot. -/
def State.partnerOf (s : State) (d : Fin 4) (t : Fin 104) (k : Fin 2) : Option Task :=
  ((s.tile d t).slot (otherSlot k)).filter Task.pair

/-- An attempt of a pair ends (R167). Its partner has ended before and waits: both are retried, or each takes its own end.
It is the first to end: a status that qualifies for a retry waits for the partner's end, any other is final. -/
def State.endPaired (s : State) (d : Fin 4) (t : Fin 104) (k : Fin 2) (x : Task) (status cause : Nat) : State :=
  let slot := s.slotOf d t
  match s.partnerOf d t k with
  | some y => match y.held with
    | some e =>
      let s := (s.clearSlot d t k).clearSlot d t (otherSlot k)
      if x.retries status cause then (s.requeue y).requeue x
      else (s.finishRan d t (otherSlot k) slot y e).finishRan d t k slot x ⟨status, cause, s.drove⟩
    | none =>
      if x.retries status cause && !x.alone then
        ((s.stopOps d t k).setSlot d t k (some { x with held := some ⟨status, cause, s.drove⟩ })).tellPartner d t k status
      else
        let s := s.clearSlot d t k
        (if x.alone then s else s.tellPartner d t k status).finishRan d t k slot x ⟨status, cause, s.drove⟩
  | none => (s.clearSlot d t k).finishRan d t k slot x ⟨status, cause, s.drove⟩

/-- An attempt ends (R160, R165, R167); one that has ended before ends no more. -/
def State.endTask (s : State) (d : Fin 4) (t : Fin 104) (k : Fin 2) (status cause : Nat) : State :=
  match (s.tile d t).slot k with
  | none => s
  | some x =>
    if x.held.isSome then s
    else if x.pair then s.endPaired d t k x status cause
    else if x.retries status cause then (s.clearSlot d t k).requeue x
    else (s.clearSlot d t k).finishRan d t k (s.slotOf d t) x ⟨status, cause, s.drove⟩

/-- An operation's status other than OK faults its task (R106). -/
def State.opFault (s : State) (d : Fin 4) (t : Fin 104) (k : Fin 2) (status : Nat) : State :=
  if status = 0 then s else s.endTask d t k 1 status

/-! ## Tile failures (R111, R114, R162) -/

/-- A cluster's summary bits, HEALTH and UNIT_COUNT follow its children (R112). -/
def State.refreshCluster (s : State) (d : Fin 4) (c : Fin 13) : State :=
  let u := UnitId.clus d c
  let kids := s.children u
  let m := kids.zipIdx.foldl (fun n e => if s.unmasked e.1 then n + 2 ^ e.2 else n) 0
  let s := s.setW u 0x014 (BitVec.ofNat 32 m)
  let s := s.setF u Reg.UNIT_COUNT_COUNT kids.length
  s.setF u Reg.HEALTH_HEALTH (s.worstHealth u)

/-- The cluster of a tile. -/
def clusterOf (t : Fin 104) : Fin 13 := ⟨t / 8, by omega⟩

/-- Both tasks of a failed tile end (R162, R167): the one whose own operation detected the failure with FAULT, any other
with TILE_FAILED. A pair that qualifies is retried as a pair. -/
def State.endBoth (s : State) (d : Fin 4) (t : Fin 104) (st : Fin 2 → Nat × Nat) : State :=
  let x := s.tile d t
  match x.slot0, x.slot1 with
  | some a, some b =>
    if a.pair ∧ b.pair ∧ !a.alone ∧ !b.alone then
      let slot := s.slotOf d t
      let s := (s.clearSlot d t 0).clearSlot d t 1
      if a.retries (st 0).1 (st 0).2 ∧ b.retries (st 1).1 (st 1).2 then (s.requeue a).requeue b
      else (s.finishRan d t 0 slot a ⟨(st 0).1, (st 0).2, s.drove⟩).finishRan d t 1 slot b ⟨(st 1).1, (st 1).2, s.drove⟩
    else (s.endTask d t 0 (st 0).1 (st 0).2).endTask d t 1 (st 1).1 (st 1).2
  | _, _ => (s.endTask d t 0 (st 0).1 (st 0).2).endTask d t 1 (st 1).1 (st 1).2

/-- Failures a die is handling, oldest first. -/
def State.fails (s : State) (d : Fin 4) : List Failing := s.failing.getD d []

def State.setFails (s : State) (d : Fin 4) (l : List Failing) : State := { s with failing := s.failing.putD d l [] }

/-- Active tiles that have not switched to the new tile microcode, while a switch is on (R525). -/
def State.tmcPending (s : State) : Nat :=
  if !s.mg.fw.tmcOn then 0 else
  ((List.finRange 4).flatMap (fun d => (List.finRange 104).filter (fun (t : Fin 104) =>
    s.tileState d t == 0 && !(s.tile d t).newTmc))).length

/-- HCTL.FW_TILES_PENDING follows; the last tile's switch raises FW_TILES_DONE and ends the switch (R525). -/
def State.tmcCount (s : State) : State :=
  if !s.mg.fw.tmcOn then s else
  let n := s.tmcPending
  let s := s.setF .hctl Reg.HCTL.FW_TILES_PENDING_COUNT n
  if n = 0 then
    ({ s with mg := { s.mg with fw := { s.mg.fw with tmcOn := false, tileWait := false, second := [] } } } : State).raise .hctl Evt.HCTL.FW_TILES_DONE
  else s

/-- A tile is FAILED: its failure fuse is to be blown within 1 ms (R116). -/
def State.tileFailed (s : State) (d : Fin 4) (t : Nat) : State :=
  let s := s.setTileState d t 2
  { s with fuseDue := s.fuseDue.put (d * 104 + t) true }

/-- What a tile failure does within 1 µs (R111): tasks end, the island stops, the slot is not valid, the tile leaves its
cluster. `own` is the task slot whose operation detected it, with its status code. -/
def State.failTile (s : State) (d : Fin 4) (t : Fin 104) (cause : Nat) (own : Option (Fin 2 × Nat)) : State :=
  if !s.tileActive d t then s else
  let st := fun (k : Fin 2) => match own with
    | some (o, code) => if o = k then (1, code) else (2, cause)
    | none => (2, cause)
  let s := s.endBoth d t st
  let slot := s.slotOf d t
  let s := s.setFails d (s.fails d ++ [⟨t, slot, cause, none, false⟩])
  let s := if slot < 100 then s.setF (.cdie d) (Reg.CDIE.SLOT_VALID slot) 0 else s
  let s := s.tileFailed d t
  let s := s.setTile d t { s.tile d t with stopped := true }
  let s := (List.range 4).foldl (fun s n => s.setF (.tile d t) (Reg.TILE.WIN_CTL_STATE n) 0) s
  ((s.refreshCluster d (clusterOf t)).ceilsOf d).tmcCount

/-- A spare is found bad: it is FAILED (R111, R116, R431). -/
def State.spareBad (s : State) (d : Fin 4) (t : Nat) : State :=
  let s := s.tileFailed d t
  let s := s.setF (.cdie d) Reg.CDIE.SPARES_LEFT (s.getF (.cdie d) Reg.CDIE.SPARES_LEFT - 1)
  s.raise (.cdie d) Evt.CDIE.SPARE_BAD

/-! ## The local store (R68, R72, R73) -/

/-- End of the local store, and start of its data region. -/
def lsEnd : Nat := 0x131000
def lsData : Nat := 0xA000

/-- Start of a task slot's context. -/
def ctxBase (k : Fin 2) : Nat := 0x8000 + 0x1000 * k

/-- n bytes lie in the data region. -/
def inData (a n : Nat) : Bool := lsData ≤ a && a + n ≤ lsEnd

/-- n bytes lie in the slot's context. -/
def inCtx (k : Fin 2) (a n : Nat) : Bool := ctxBase k ≤ a && a + n ≤ ctxBase k + 0x1000

/-- n bytes lie in the ranges, taken together; the first argument bounds the number of ranges used. -/
def covered (rs : List (Nat × Nat)) : Nat → Nat → Nat → Bool
  | _, _, 0 => true
  | 0, _, _ + 1 => false
  | f + 1, a, n + 1 =>
    match rs.find? (fun r => decide (r.1 ≤ a ∧ a < r.2)) with
    | none => false
    | some r => covered rs f (max (a + 1) r.2) (n + 1 - (max (a + 1) r.2 - a))

/-- The task may write n bytes of its tile's local store. -/
def Task.mayWrite (x : Task) (k : Fin 2) (a n : Nat) : Bool :=
  covered (x.bounds ++ [(ctxBase k, ctxBase k + 0x1000)]) 3 a n

/-- The task may read n bytes of its tile's local store. -/
def mayRead (k : Fin 2) (a n : Nat) : Bool := covered [(lsData, lsEnd), (ctxBase k, ctxBase k + 0x1000)] 2 a n

/-- A row with an uncorrectable error not yet retested lies in n bytes (R73). -/
def Tile.badIn (x : Tile) (a n : Nat) : Bool := x.badRows.any (fun r => decide (a < 64 * r + 64 ∧ 64 * r < a + n))

/-- Rows an operation found bad become known (R73): the tile fails on a second uncorrectable error within 24 h. `own` is
the task slot whose operation found them. -/
def State.findRows (s : State) (d : Fin 4) (t : Fin 104) (own : Option (Fin 2)) (errs : RowErrs) : State :=
  errs.foldl (fun s e =>
    let u := UnitId.tile d t
    let x := s.tile d t
    if !s.tileActive d t then s
    else if !e.2 then (s.bump u Reg.TILE.LS_CE_COUNT).raise u Evt.TILE.LS_CE
    else if x.badRows.contains e.1 then s
    else
      let s := s.bump u Reg.TILE.LS_UE_COUNT
      let again := match x.ueAt with | some a => decide (s.elapsed ≤ a + ns24h) | none => false
      let s := s.setTile d t { s.tile d t with badRows := x.badRows ++ [e.1], ueAt := some s.elapsed }
      if again then s.failTile d t 1 (own.map (fun k => (k, St.lsUe))) else s) s

/-- Bytes of a local store. -/
def Tile.read (x : Tile) (a n : Nat) : List Byte := x.ls.readBytes a n

/-- Store bytes in a local store. -/
def State.lsWrite (s : State) (d : Fin 4) (t : Fin 104) (a : Nat) (b : List Byte) : State :=
  s.setTile d t { s.tile d t with ls := (s.tile d t).ls.writeBytes a b }

/-- A halo window becomes FILLED and signals its object (R104). -/
def State.fillWindow (s : State) (d : Fin 4) (t : Fin 104) (n : Nat) : State :=
  let u := UnitId.tile d t
  let s := s.setF u (Reg.TILE.WIN_CTL_STATE n) 2
  (s.signal (s.getF u (Reg.TILE.WIN_CTL_SYNC_OBJ n)) 1 (.window d t) 0 0).1

/-- TILE.STATE.WIN follows the windows' states. -/
def State.showWindows (s : State) (d : Fin 4) (t : Fin 104) : State :=
  let u := UnitId.tile d t
  s.setF u Reg.TILE.STATE_WIN
    ((List.range 4).foldl (fun m n => if s.getF u (Reg.TILE.WIN_CTL_STATE n) = 1 then m + 2 ^ n else m) 0)

end Sys2Proof.Machine
end

