-- ==== Sys2Proof/Machine/SlotOps.lean ====
section
/-! DEFINITION. Bays (R67, R130) and their reduction slots (R131–R136): reads, writes of every extent, contributions,
commands. -/

namespace Sys2Proof.Machine

open Sys2Proof

/-- End of a bay's addresses. -/
def bayEnd : Nat := 0x03D00000

/-- Reduction slots of a die (R130). -/
def State.slotCount (s : State) (d : Fin 4) : Nat := s.getF (.cdie d) Reg.CDIE.RSLOT_CFG_COUNT

/-- First address of the reduction slots. -/
def State.slotBase (s : State) (d : Fin 4) : Nat := bayEnd - 128 * s.slotCount d

def State.bslot (s : State) (d : Fin 4) (k : Nat) : BSlot := s.bslots.getD (d * 8192 + k) .init

def State.setBslot (s : State) (d : Fin 4) (k : Nat) (b : BSlot) : State :=
  { s with bslots := s.bslots.putD (d * 8192 + k) b .init }

/-- A slot's STATUS keeps the first status other than OK; the CDIE page records the last one (R135, R137). -/
def State.slotStatus (s : State) (d : Fin 4) (k st : Nat) : State :=
  let b := s.bslot d k
  let s := s.setF (.cdie d) Reg.CDIE.RSLOT_LAST_SLOT k
  let s := s.setF (.cdie d) Reg.CDIE.RSLOT_LAST_STATUS st
  if b.status = 0 then s.setBslot d k { b with status := st } else s

/-- A write is discarded: counted, raised, recorded (R135). -/
def State.slotDiscard (s : State) (d : Fin 4) (k st : Nat) : State :=
  let s := (s.bump (.cdie d) Reg.CDIE.RSLOT_DISCARD_COUNT).raise (.cdie d) Evt.CDIE.RSLOT_ERR
  s.slotStatus d k st

/-- A slot with its command executed (R132). -/
def State.slotCmd (s : State) (d : Fin 4) (k cmd : Nat) : State :=
  let b := s.bslot d k
  if cmd = 2 then s.setBslot d k { b with state := 0 }
  else if cmd = 1 ∧ (b.state = 0 ∨ b.state = 3) then
    if b.expect = 0 ∨ 6 ≤ b.mode then
      let s := s.setBslot d k { b with state := 0, status := 4 }
      let s := s.setF (.cdie d) Reg.CDIE.RSLOT_LAST_SLOT k
      s.setF (.cdie d) Reg.CDIE.RSLOT_LAST_STATUS 4
    else
      let a := if b.mode = 0 then shortAnchor else if b.mode = 3 then b.anchorDecl else anchorNone
      s.setBslot d k { b with ing := Ingot.empty a, armed := true, arrived := 0, status := 0
                              state := if b.mode = 1 ∨ b.mode = 2 then 1 else 2 }
  else s

/-- A contribution has been accepted: at EXPECT the round ends and the slot signals (R133, R352). -/
def State.slotArrive (s : State) (d : Fin 4) (k : Nat) (b : BSlot) : State :=
  let b := { b with arrived := b.arrived + 1 }
  if b.arrived < b.expect then s.setBslot d k b else
  let s := s.setBslot d k (if b.mode = 1 ∧ b.state = 1 then { b with state := 2, arrived := 0 } else { b with state := 3 })
  (s.signal b.syncObj 1 (.die d) (if b.status = 0 then 0 else ObjSt.badContrib) 0).1

/-- An anchor contribution (R133). -/
def State.slotAnchor (s : State) (d : Fin 4) (k : Nat) (v : BitVec 16) : State :=
  let b := s.bslot d k
  s.slotArrive d k { b with ing := { b.ing with anchor := anchorMax b.ing.anchor v } }

/-- A record or FP32 contribution (R133, R134). -/
def State.slotRecord (s : State) (d : Fin 4) (k : Nat) (data : List Byte) : State :=
  let b := s.bslot d k
  if b.mode = 5 then s.slotArrive d k (b.putFp32 (fp32Add b.fp32 (leNat data)).1) else
  let (g, mis) := combineRecord b.mode b.ing (Ingot.ofBytes data)
  let s := if mis then s.slotStatus d k 1 else s
  s.slotArrive d k { s.bslot d k with ing := g }

/-- A write that reaches RECORD or ANCHOR_IN of a slot: a contribution, or discarded (R133, R135). -/
def State.slotContrib (s : State) (d : Fin 4) (k off : Nat) (data : List Byte) : State :=
  let b := s.bslot d k
  let exactAnchor := off = 0x60 ∧ data.length = 4
  let exactRecord := off = 0 ∧ data.length = (if b.mode = 5 then 4 else 96)
  if b.state = 0 ∨ b.state = 3 then s.slotDiscard d k 3
  else if b.state = 1 then
    if exactAnchor then s.slotAnchor d k (BitVec.ofNat 16 (leNat (data.take 2))) else s.slotDiscard d k 2
  else if exactRecord then s.slotRecord d k data else s.slotDiscard d k 2

/-- Byte i of a word-aligned field from a written run, or its old byte. -/
def mergeByte (off : Nat) (data : List Byte) (at_ old : Nat) : Nat :=
  if off ≤ at_ ∧ at_ < off + data.length then (data.getD (at_ - off) 0).toNat else old

/-- A field of n bytes merged from a written run. -/
def mergeField (off : Nat) (data : List Byte) (at_ n old : Nat) : Nat :=
  (List.range n).foldl (fun v i => v + mergeByte off data (at_ + i) (old / 256 ^ i % 256) * 256 ^ i) 0

/-- The word at 0x68 of a slot as written: fields of an IDLE slot first, then the command (R132). -/
def State.slotWord (s : State) (d : Fin 4) (k : Nat) (w : Word) : State :=
  let b := s.bslot d k
  let s := if b.state = 0 then s.setBslot d k { b with mode := getBits w 7 5, syncObj := getBits w 31 16 } else s
  s.slotCmd d k (getBits w 1 0)

/-- A write of a run of bytes within one slot: the plain fields while IDLE, the command word, and contributions (R131,
R132, R135). In ANCHOR and SUM one that reaches ANCHOR_IN and does not cover it exactly writes nothing. One that reaches an IDLE
or DONE slot's RECORD or ANCHOR_IN beside other fields writes the plain fields, runs CMD, and is then judged as a contribution in
the state that leaves: the model's choice, for R135 says only that the write is discarded (DESIGN CHOICE:
notes/assumptions/53.md). -/
def State.slotWrite (s : State) (d : Fin 4) (k off : Nat) (data : List Byte) : State :=
  let last := off + data.length
  let hits := fun (a n : Nat) => decide (off < a + n ∧ a < last)
  let b := s.bslot d k
  if (b.state = 1 || b.state = 2) && hits 0x60 4 && !(off = 0x60 && data.length = 4) then s.slotDiscard d k 2 else
  let s := if b.state = 0 then
      s.setBslot d k { b with
        expect := mergeField off data 0x64 2 b.expect
        anchorDecl := BitVec.ofNat 16 (mergeField off data 0x6C 2 b.anchorDecl.toNat)
        mode := (mergeField off data 0x68 1 (b.mode * 32)) / 32 % 8
        syncObj := mergeField off data 0x6A 2 b.syncObj }
    else s
  let s := if hits 0x68 1 then s.slotCmd d k (mergeField off data 0x68 1 0 % 4) else s
  if hits 0 0x60 || hits 0x60 4 then s.slotContrib d k off data else s

/-- The 128 bytes of a slot as read (R131). -/
def BSlot.bytes (b : BSlot) : List Byte :=
  b.ing.toBytes ++
  leBytes 4 (if b.armed then b.ing.anchor.toNat else anchorNone.toNat) ++ leBytes 4 (b.expect + b.arrived * 2 ^ 16) ++
  leBytes 4 (b.state * 4 + b.mode * 32 + b.status * 256 + b.syncObj * 2 ^ 16) ++ leBytes 4 b.anchorDecl.toNat ++
  List.replicate 16 0

/-- Read bytes of a bay. -/
def State.bayRead (s : State) (d : Fin 4) (a n : Nat) : List Byte :=
  (List.range n).map (fun i =>
    let x := a + i
    if x < s.slotBase d then s.bay.getD (d * 2 ^ 26 + x) 0
    else ((s.bslot d ((x - s.slotBase d) / 128)).bytes).getD ((x - s.slotBase d) % 128) 0)

/-- Write bytes of a bay: below the slots as memory, within the slots as writes of each slot's bytes. The first argument
bounds the number of pieces. -/
def State.bayWrite (s : State) (d : Fin 4) (a : Nat) (data : List Byte) : Nat → State
  | 0 => s
  | f + 1 =>
    if data = [] then s else
    let base := s.slotBase d
    if a < base then
      let n := base - a
      let s := { s with bay := s.bay.writeBytes (d * 2 ^ 26 + a) (data.take n) }
      State.bayWrite s d (a + n) (data.drop n) f
    else
      let off := (a - base) % 128
      let k := (a - base) / 128
      let n := min (128 - off) data.length
      let s := s.slotWrite d k off (data.take n)
      State.bayWrite s d (a + n) (data.drop n) f

end Sys2Proof.Machine
end

