-- ==== Sys2Proof/Machine/DmOps.lean ====
section
/-! DEFINITION. The data mover: the descriptor (R96) and its check (R98), rows in their spaces (R95, R97), transfers over
flows, circuits and multicast contexts (R294, R320, R325, R328, R329), starts and completions (R100). -/

namespace Sys2Proof.Machine

open Sys2Proof

/-! ## Circuits (R323, R325, R326) -/

/-- The circuit entry in force at a hub's router. -/
def State.cktEntry (s : State) (h : Fin 2) (c : Nat) : Nat := (s.rout h).ckt.getD c 0

def cktValid (e : Nat) : Bool := bitsOf e 0 0 == 1
def cktRole (e : Nat) : Nat := bitsOf e 2 1
def cktIn (e : Nat) : Nat := bitsOf e 6 3
def cktOut (e : Nat) : Fin 16 := ⟨bitsOf e 10 7 % 16, by omega⟩
def cktNext (e : Nat) : Nat := bitsOf e 20 11
def cktShare (e : Nat) : Nat := bitsOf e 28 21
def cktPeer (e : Nat) : Nat := bitsOf e 51 32
def cktPeerCkt (e : Nat) : Nat := bitsOf e 61 52
def cktWin (e : Nat) : Nat := bitsOf e 67 64
def cktRetry (e : Nat) : Nat := bitsOf e 71 68

def State.cktSt (s : State) (c : Nat) : Ckt := s.net.ckts.getD c .init

def State.setCkt (s : State) (c : Nat) (v : Ckt) : State :=
  { s with net := { s.net with ckts := s.net.ckts.putD c v .init } }

/-- Circuit packets that fit the window leave the wait queue with the next SEQs (R326). -/
def Ckt.fill (win : Nat) (k : Ckt) : Nat → Ckt × List Packet
  | 0 => (k, [])
  | n + 1 =>
    match k.wait with
    | [] => (k, [])
    | x :: rest =>
      if k.out.length < 2 ^ win then
        let pk := { x.pkt with seq := k.next }
        let (k, out) := Ckt.fill win { k with next := (k.next + 1) % 2 ^ 32, out := k.out ++ [{ x with pkt := pk }],
                                              wait := rest } n
        (k, pk :: out)
      else (k, [])

/-- Send what the window of a circuit allows. A waiting circuit packet carries this package's circuit number in CTX until
the router sends it on (R325). -/
def State.pumpCkt (s : State) (c : Nat) : State :=
  let e := s.cktEntry 0 c
  let (k, pks) := (s.cktSt c).fill (cktWin e) (s.cktSt c).wait.length
  pks.foldl (fun s pk => s.inject (portHub (cktOut e)) 2 pk) (s.setCkt c k)

/-! ## Multicast groups (R327–R329) -/

/-- The group entry in force at a hub's router. -/
def State.mcEntry (s : State) (h : Fin 2) (g : Nat) : Nat := (s.rout h).mc.getD g 0

def mcValid (e : Nat) : Bool := bitsOf e 0 0 == 1
def mcAxis (e : Nat) : Nat := bitsOf e 2 1
def mcMember (e : Nat) : Bool := bitsOf e 3 3 == 1
def mcSource (e : Nat) : Bool := bitsOf e 4 4 == 1
def mcHalo (e : Nat) : Bool := bitsOf e 5 5 == 1
def mcRoot (e : Nat) : Nat := bitsOf e 27 8
def mcBase (e : Nat) : Nat := bitsOf e 127 64
def mcSync (e : Nat) : Nat := bitsOf e 143 128
def mcSig (e : Nat) : Bool := bitsOf e 144 144 == 1

/-- PKG.AXISa.DIMS of an axis (R253). -/
def State.axisMask (s : State) (a : Nat) : Nat := s.getF .pkg (Reg.PKG.AXIS_DIMS a)

/-- The package's position (R231). -/
def State.pos (s : State) : Nat := s.getF .pkg Reg.PKG.CUBE_POS

/-- Positions of the subtree that spans the dimensions of a mask from a base. -/
def linePositions (base mask : Nat) : List Nat :=
  (List.range 13).foldl (fun ps k => if mask / 2 ^ k % 2 = 1 then ps ++ ps.map (fun p => p ^^^ 2 ^ k) else ps) [base]

/-! ## The descriptor (R96) -/

/-- A data-mover descriptor. -/
structure DmD where
  op : Nat
  ndim : Nat
  elem : Nat
  src : Nat
  dst : Nat
  fence : Bool
  nofault : Bool
  signal : Bool
  useCkt : Bool
  syncObj : Nat
  srcAddr : Nat
  dstAddr : Nat
  /-- EXTENT0. -/
  ext0 : Nat
  /-- EXTENT, SRC_STRIDE and DST_STRIDE of dimensions 1–4. -/
  dims : List (Nat × Int × Int)
  fid : Nat
  die : Fin 4
  slot : Nat
  window : Nat
  indexAddr : Nat
  index64 : Bool
  flow : Nat
  circuit : Nat
  /-- A reserved bit is set. -/
  rsvd : Bool
  deriving DecidableEq, Repr

/-- The descriptor in 128 bytes. -/
def DmD.ofBytes (b : List Byte) : DmD :=
  let w0 := descF b 0 4
  let w2c := descF b 0x2C 4
  let w78 := descF b 0x78 4
  let w7c := descF b 0x7C 4
  { op := bitsOf w0 7 0, ndim := bitsOf w0 11 8, elem := bitsOf w0 15 12, src := bitsOf w0 19 16, dst := bitsOf w0 23 20
    fence := bitsOf w0 24 24 = 1, nofault := bitsOf w0 25 25 = 1, signal := bitsOf w0 26 26 = 1
    useCkt := bitsOf w0 27 27 = 1, syncObj := descF b 4 2, srcAddr := descF b 8 8, dstAddr := descF b 0x10 8
    ext0 := descF b 0x18 4
    dims := (List.range 4).map (fun i => (descF b (0x1C + 4 * i) 4, signedOf 64 (descF b (0x30 + 8 * i) 8),
      signedOf 64 (descF b (0x50 + 8 * i) 8)))
    fid := bitsOf w2c 19 0, die := ⟨bitsOf w2c 21 20 % 4, by omega⟩, slot := bitsOf w2c 28 22
    window := bitsOf w2c 30 29, indexAddr := descF b 0x70 8, index64 := bitsOf w78 0 0 = 1, flow := bitsOf w7c 17 0
    circuit := bitsOf w7c 27 18
    rsvd := bitsOf w0 31 28 ≠ 0 || descF b 7 1 ≠ 0 || bitsOf w2c 31 31 ≠ 0 || bitsOf w78 31 1 ≠ 0 ||
      bitsOf w7c 31 28 ≠ 0 }

/-- Dimensions in use above dimension 0. -/
def DmD.used (d : DmD) : List (Nat × Int × Int) := d.dims.take (d.ndim - 1)

/-- Bytes of a row. -/
def DmD.rowBytes (d : DmD) : Nat := d.ext0 * 2 ^ d.elem

/-- A space of another package. -/
def remoteSpace (sp : Nat) : Bool := sp == 4 || sp == 5

/-- The field checks of R98, in the order of R105: 0 when they pass. -/
def dmFields (d : DmD) : Nat :=
  let fill := d.op = 4
  if d.rsvd then St.badFormat
  else if d.op = 0 || 4 < d.op || 5 < d.src || 5 < d.dst || (!fill && d.src = 4) ||
      (!fill && remoteSpace d.src && remoteSpace d.dst) || ((d.op = 2 || d.op = 3) && d.ndim ≠ 2) then St.badMode
  else if d.ndim < 1 || 5 < d.ndim || 6 < d.elem then St.badLayout
  else 0

/-- Some extent in use is 0 (R97). -/
def DmD.empty (d : DmD) : Bool := d.ext0 == 0 || d.used.any (fun x => x.1 == 0)

/-- Least byte and first byte after the last of an array. -/
def boxOf (base row : Nat) (ds : List (Nat × Int)) : Int × Int :=
  ds.foldl (fun b x => let w : Int := ((x.1 - 1 : Nat) : Int) * x.2; (b.1 + min 0 w, b.2 + max 0 w))
    ((base : Int), (base : Int) + row)

/-- Bytes from lo up to hi lie in a space, for a read or a write of a task's slot. -/
def spaceHolds (x : Task) (k : Fin 2) (sp : Nat) (write : Bool) (lo hi : Int) : Bool :=
  decide (0 ≤ lo) &&
    (let a := lo.toNat
     let n := (hi - lo).toNat
     match sp with
     | 0 => if write then x.mayWrite k a n else mayRead k a n
     | 1 => inData a n
     | 2 => a + n ≤ bayEnd
     | 4 => a + n ≤ 2 ^ 32
     | _ => a + n ≤ 2 ^ 41)

/-- The bound checks of R98. -/
def dmBounds (d : DmD) (x : Task) (k : Fin 2) : Bool :=
  let srcBox := boxOf d.srcAddr d.rowBytes (d.used.map (fun e => (e.1, e.2.1)))
  let dstBox := boxOf d.dstAddr d.rowBytes (d.used.map (fun e => (e.1, e.2.2)))
  let n := (d.used.head?.map Prod.fst).getD 0
  let index := (d.op ≠ 2 && d.op ≠ 3) || inData d.indexAddr (n * (if d.index64 then 8 else 4))
  let src := d.op = 4 || d.op = 2 || spaceHolds x k d.src false srcBox.1 srcBox.2
  let dst := d.op = 3 || spaceHolds x k d.dst true dstBox.1 dstBox.2
  index && src && dst

/-- The check at issue: a status, or none when the descriptor is to be queued; a zero extent completes with OK. -/
def dmCheck (d : DmD) (x : Task) (k : Fin 2) : Option Nat :=
  let f := dmFields d
  if f ≠ 0 then some f
  else if d.empty then some 0
  else if dmBounds d x k then none else some St.outOfRange

/-! ## Rows (R97, R98) -/

/-- Row offsets in element order, dimension 1 fastest. -/
def dmRows : List (Nat × Int × Int) → List (Int × Int)
  | [] => [(0, 0)]
  | (n, a, b) :: rest =>
    (dmRows rest).flatMap (fun r => (List.range n).map (fun (i : Nat) => (r.1 + (i : Int) * a, r.2 + (i : Int) * b)))

/-- The pattern of a FILL, for a row (R96). -/
def DmD.pattern (d : DmD) : List Byte :=
  let w := if d.elem ≤ 3 then 2 ^ d.elem else 8
  (List.replicate (d.rowBytes / w) (leBytes w d.srcAddr)).flatten

/-- Read a row from a space of this package: status and bytes. -/
def State.spaceRead (s : State) (d : Fin 4) (t : Fin 104) (x : DmD) (sp a n : Nat) : State × Nat × List Byte :=
  match sp with
  | 0 => if (s.tile d t).badIn a n then (s, St.lsUe, []) else (s, 0, (s.tile d t).read a n)
  | 1 => match s.slotTile x.die x.slot with
    | none => (s, St.destSlotDown, [])
    | some u => if (s.tile x.die u).badIn a n then (s, St.lsUe, []) else (s, 0, (s.tile x.die u).read a n)
  | 2 => (s, 0, s.bayRead x.die a n)
  | _ => s.readMem (Req.die d) a n

/-- Write a row to a space of this package: status. -/
def State.spaceWrite (s : State) (d : Fin 4) (t : Fin 104) (x : DmD) (sp a : Nat) (b : List Byte) : State × Nat :=
  match sp with
  | 0 => (s.lsWrite d t a b, 0)
  | 1 => match s.slotTile x.die x.slot with
    | none => (s, St.destSlotDown)
    | some u => (s.lsWrite x.die u a b, 0)
  | 2 => (s.bayWrite x.die a b (b.length + 1), 0)
  | _ => s.writeMem (Req.die d) a b

/-- Byte by byte, a free choice of one of two lists of equal length. -/
def State.mixBytes (s : State) : List Byte → List Byte → List Byte × State
  | a :: as, b :: bs =>
    let c := if Config.freeNat s.freeCtr % 2 = 0 then a else b
    let (cs, s) := s.tickFree.mixBytes as bs
    (c :: cs, s)
  | _, _ => ([], s)

/-- The bytes that stand in a space of this package, errors aside. -/
def State.spacePeek (s : State) (d : Fin 4) (t : Fin 104) (x : DmD) (sp a n : Nat) : List Byte :=
  match sp with
  | 0 => (s.tile d t).read a n
  | 1 => match s.slotTile x.die x.slot with
    | none => []
    | some u => (s.tile x.die u).read a n
  | 2 => s.bayRead x.die a n
  | _ => s.mm.mem.readBytes a n

/-- Bytes of package memory of which each takes its old or its new value, line by line where a write is taken. The first
argument bounds the number of lines. -/
def State.partLines (s : State) (q : Req) (addr : Nat) (old new : List Byte) : Nat → State
  | 0 => s
  | k + 1 =>
    if new = [] then s else
    let n := 64 - addr % 64
    let go := Config.freeNat s.freeCtr % 2 = 1
    let s := s.tickFree
    let (b, s) := if s.lineStatus addr = 0 then s.mixBytes (old.take n) (new.take n) else (new.take n, s)
    let s := if go then (s.writeLine q addr b).1 else s
    State.partLines s q (addr + n) (old.drop n) (new.drop n) k

/-- The row at which a descriptor stops with a data error: each of its bytes holds its old or its new value (R98). A row
of a reduction slot is a contribution, which is not made. -/
def State.partRow (s : State) (d : Fin 4) (t : Fin 104) (x : DmD) (sp a : Nat) (new : List Byte) : State :=
  let old := s.spacePeek d t x sp a new.length
  match sp with
  | 0 => let (b, s) := s.mixBytes old new; s.lsWrite d t a b
  | 1 => match s.slotTile x.die x.slot with
    | none => s
    | some u => let (b, s) := s.mixBytes old new; s.lsWrite x.die u a b
  | 2 =>
    if s.slotBase x.die < a + new.length then s
    else let (b, s) := s.mixBytes old new; s.bayWrite x.die a b (b.length + 1)
  | _ => s.partLines (Req.die d) a old new (lineCount a new.length)

/-- Write a row to a space of this package; a row that meets an error is written in part. -/
def State.spaceWriteRow (s : State) (d : Fin 4) (t : Fin 104) (x : DmD) (sp a : Nat) (b : List Byte) : State × Nat :=
  let (r, st) := s.spaceWrite d t x sp a b
  if st = 0 then (r, 0) else (s.partRow d t x sp a b, st)

/-- Where the bytes of a space are held: two spaces of one descriptor may be one store. -/
def State.spaceHome (s : State) (d : Fin 4) (t : Fin 104) (x : DmD) (sp : Nat) : Option (Nat × Nat) :=
  match sp with
  | 0 => some (0, tileKey d t)
  | 1 => (s.slotTile x.die x.slot).map (fun u => (0, tileKey x.die u))
  | 2 => some (1, x.die.val)
  | 3 => some (2, 0)
  | _ => none

/-- Addresses of row i, whose offsets are r; or the status it stops with. -/
def State.dmRowAt (s : State) (d : Fin 4) (t : Fin 104) (k : Fin 2) (x : DmD) (w : Task) (i : Nat) (r : Int × Int) :
    Nat ⊕ (Nat × Nat) :=
  let n := x.rowBytes
  if x.op ≠ 2 ∧ x.op ≠ 3 then .inr ((x.srcAddr + r.1).toNat, (x.dstAddr + r.2).toNat) else
  let iw := if x.index64 then 8 else 4
  let ia := x.indexAddr + i * iw
  if (s.tile d t).badIn ia iw then .inl St.lsUe else
  let idx := leNat ((s.tile d t).read ia iw)
  let st := (x.used.head?.map Prod.snd).getD (0, 0)
  let sa : Int := if x.op = 2 then x.srcAddr + idx * st.1 else x.srcAddr + r.1
  let da : Int := if x.op = 3 then x.dstAddr + idx * st.2 else x.dstAddr + r.2
  if x.op = 2 ∧ !spaceHolds w k x.src false sa (sa + n) then .inl St.outOfRange
  else if x.op = 3 ∧ !spaceHolds w k x.dst true da (da + n) then .inl St.outOfRange
  else .inr (sa.toNat, da.toNat)

/-- A piece of a remote transfer: address at the other package, address here, bytes to send, length. -/
structure Piece where
  there : Nat
  here : Nat
  data : List Byte
  len : Nat
  deriving DecidableEq, Repr

/-- Pieces that run on from one another become one. -/
def addPiece (ps : List Piece) (p : Piece) (both : Bool) : List Piece :=
  match ps.getLast? with
  | some q =>
    if q.there + q.len = p.there ∧ (!both ∨ q.here + q.len = p.here) then
      ps.dropLast ++ [{ q with data := q.data ++ p.data, len := q.len + p.len }]
    else ps ++ [p]
  | none => [p]

/-- Cut a piece into packets: at most `cap` bytes, every packet after the first at a 64-byte aligned destination address
(R294), which for a read is the address here. -/
def cutPiece (cap : Nat) (read : Bool) (p : Piece) : Nat → List Piece
  | 0 => []
  | f + 1 =>
    if p.len = 0 then [] else
    let n := min p.len (cap - (if read then p.here else p.there) % 64)
    ⟨p.there, p.here, p.data.take n, n⟩ :: cutPiece cap read ⟨p.there + n, p.here + n, p.data.drop n, p.len - n⟩ f

/-- The source rows and the destination rows of a descriptor that stand in one store: their first bytes (R99). None when
they do not overlap, and for a FILL. -/
def State.dmOverlap (s : State) (d : Fin 4) (t : Fin 104) (k : Fin 2) (x : DmD) (w : Task) : List (Nat × Nat) :=
  if x.op = 4 ∨ s.spaceHome d t x x.src ≠ s.spaceHome d t x x.dst ∨ s.spaceHome d t x x.dst = none then [] else
  let n := x.rowBytes
  let rows := (dmRows x.used).zipIdx.filterMap (fun e => match s.dmRowAt d t k x w e.2 e.1 with
    | .inl _ => none
    | .inr r => some r)
  if rows.any (fun p => rows.any (fun q => decide (p.1 < q.2 + n ∧ q.2 < p.1 + n))) then rows else []

/-- A row of a descriptor whose source and destination overlap (R99): a byte read where the destination stands is the one
that stood there at the start or the one that stands there now, and a byte written where the source stands keeps its old
value or takes the copied one. `first`: the state the descriptor started in. -/
def State.overlapRow (s first : State) (d : Fin 4) (t : Fin 104) (x : DmD) (rows : List (Nat × Nat)) (sa da : Nat)
    (b : List Byte) : List Byte × State :=
  let n := x.rowBytes
  let (b, s) := s.mixBytes (first.spacePeek d t x x.src sa n) b
  let (m, s) := s.mixBytes (s.spacePeek d t x x.dst da n) b
  ((b.zip m).zipIdx.map (fun e => if rows.any (fun r => decide (r.1 ≤ da + e.2 ∧ da + e.2 < r.1 + n)) then e.1.2 else e.1.1),
   s)

/-- Move the rows of a descriptor: local rows at once; the rows of a remote transfer are gathered as pieces. Stops at the
first row that ends with a status (R98). Each row is a write of its own: shorter rows that run on from one another over a
reduction slot's RECORD are no 96-byte run of R133, the model's choice (DESIGN CHOICE: notes/assumptions/47.md). -/
def State.dmMove (s : State) (d : Fin 4) (t : Fin 104) (k : Fin 2) (x : DmD) (w : Task) : State × Nat × List Piece :=
  let n := x.rowBytes
  let first := s
  let shared := s.dmOverlap d t k x w
  (dmRows x.used).zipIdx.foldl (fun r e =>
    let (s, st, ps) := r
    if st ≠ 0 then r else
    match s.dmRowAt d t k x w e.2 e.1 with
    | .inl c => (s, c, ps)
    | .inr (sa, da) =>
      if x.src = 5 ∧ x.op ≠ 4 then (s, 0, addPiece ps ⟨sa, da, [], n⟩ true) else
      let (s, st, b) := if x.op = 4 then (s, 0, x.pattern) else s.spaceRead d t x x.src sa n
      if st ≠ 0 then
        (if remoteSpace x.dst then s else s.partRow d t x x.dst da (s.spacePeek d t x x.src sa n), st, ps)
      else if remoteSpace x.dst then (s, 0, addPiece ps ⟨da, 0, b, n⟩ false)
      else
        let (b, s) := if shared = [] then (b, s) else s.overlapRow first d t x shared sa da b
        let (s, st) := s.spaceWriteRow d t x x.dst da b
        (if st = 0 then s.addPair (.tile d t) Reg.TILE.MOVED_LO Reg.TILE.MOVED_HI n else s, st, ps)) (s, 0, [])

/-! ## Queues (R100) -/

def Tile.dms (x : Tile) (k : Fin 2) : List Dm := if k = 0 then x.dms0 else x.dms1

def Tile.setDms (x : Tile) (k : Fin 2) (l : List Dm) : Tile := if k = 0 then { x with dms0 := l } else { x with dms1 := l }

/-- Change the descriptor of a number. -/
def State.updDm (s : State) (d : Fin 4) (t : Fin 104) (k : Fin 2) (id : Nat) (f : Dm → Dm) : State :=
  let x := s.tile d t
  s.setTile d t (x.setDms k ((x.dms k).map (fun m => if m.id = id then f m else m)))

/-- Halo address (R294). -/
def haloAddr (x : DmD) (off : Nat) : Nat := off % 2 ^ 32 + x.die * 2 ^ 32 + x.slot * 2 ^ 34 + x.window * 2 ^ 41

/-- The context or circuit can open another message now (R320). -/
def State.dmRoom (s : State) (x : DmD) : Bool :=
  if !remoteSpace x.dst && (x.src ≠ 5 || x.op = 4) then true
  else if x.useCkt then decide ((s.cktSt x.circuit).msgs.length < 4)
  else
    let f := s.flow x.flow
    decide (f.msgs.length + f.mcast.length < 4)

/-- The status with which a remote descriptor ends at its start: the context or circuit it names is not enabled
(R313, R319), or of another kind (R328). -/
def State.dmCarrier (s : State) (x : DmD) (read : Bool) : Nat :=
  if x.useCkt then
    let e := s.cktEntry 0 x.circuit
    if read then St.badMode
    else if !cktValid e || cktRole e ≠ 1 || (s.cktSt x.circuit).failed then St.destFenced else 0
  else
    let f := s.flow x.flow
    if f.state ≠ 1 then St.destFenced
    else if f.kind = 1 then 0
    else if f.kind = 3 ∧ !read ∧ mcHalo (s.mcEntry (flowHub x.flow) (f.peerCtx % 4096)) = (x.dst == 4) then 0
    else St.badMode

/-- Send the packets of a write on a circuit. -/
def State.sendCircuit (s : State) (x : DmD) (owner : Owner) (ps : List Piece) (total : Nat) : State :=
  let c := x.circuit
  let e := s.cktEntry 0 c
  let k := s.cktSt c
  let id := k.nextMsg
  let n := ps.length
  let pks := ps.zipIdx.map (fun (p, i) =>
    { s.blankPacket (if x.dst = 4 then 0x09 else 0x08) (cktPeer e) with
      last := i + 1 = n, msgId := id, ctx := c, msgBytes := total, payload := p.data
      addr := if x.dst = 4 then haloAddr x p.there else p.there })
  let s := s.setCkt c { k with nextMsg := (id + 1) % 256, msgs := k.msgs ++ [⟨id, owner⟩]
                               wait := k.wait ++ pks.map (fun pk => ⟨pk, 0, owner⟩) }
  s.pumpCkt c

/-- Send the packets of a write on a multicast context, within its window: every position of the line is to be marked (R314,
R329, R331). -/
def State.sendMcast (s : State) (x : DmD) (owner : Owner) (ps : List Piece) (total : Nat) : State :=
  let c := x.flow
  let f := s.flow c
  let g := f.peerCtx % 4096
  let e := s.mcEntry (flowHub c) g
  let mask := s.axisMask (mcAxis e)
  let id := f.nextMsg
  let n := ps.length
  let pks := ps.zipIdx.map (fun (p, i) =>
    { s.blankPacket 0x05 (mcRoot e) with
      last := i + 1 = n, msgId := id, ctx := g, msgBytes := total, payload := p.data, addr := p.there
      seq := (f.next + i) % 2 ^ 32, arg := mask + c * 2 ^ 14 })
  let s := s.setFlow c { f with nextMsg := (id + 1) % 256, next := (f.next + n) % 2 ^ 32
                                wait := f.wait ++ pks.map (fun pk => ⟨pk, 0, owner⟩)
                                mcast := f.mcast ++ [⟨id, owner, pks, 0, (linePositions s.pos mask).drop 1, 0⟩] }
  s.pumpFlow c

/-- Send the packets of a write on a flow. -/
def State.sendFlowWrite (s : State) (x : DmD) (owner : Owner) (ps : List Piece) (total : Nat) : State :=
  let c := x.flow
  let (id, s) := s.openMessage c owner
  let n := ps.length
  ps.zipIdx.foldl (fun s (p, i) =>
    s.sendOnFlow c owner { s.blankPacket (if x.dst = 4 then 0x02 else 0x01) 0 with
      last := i + 1 = n, msgId := id, msgBytes := total, payload := p.data
      addr := if x.dst = 4 then haloAddr x p.there else p.there }) s

/-- Send the read requests of a descriptor; each names where its bytes are to be written (R318). -/
def State.sendReads (s : State) (x : DmD) (owner : Nat → Nat → Owner) (msg : Owner) (ps : List Piece) (total : Nat) : State :=
  let c := x.flow
  let (id, s) := s.openMessage c msg
  let n := ps.length
  ps.zipIdx.foldl (fun s (p, i) =>
    s.sendOnFlow c (owner i p.here) { s.blankPacket 0x03 0 with
      last := i + 1 = n, msgId := id, msgBytes := total, addr := p.there, arg := p.len }) s

/-- Start a descriptor: a local one moves its rows, a remote one sends its packets. -/
def State.dmRun (s : State) (d : Fin 4) (t : Fin 104) (k : Fin 2) (m : Dm) (w : Task) : State :=
  let x := DmD.ofBytes m.desc
  let read := x.src = 5 && x.op ≠ 4
  let remote := read || remoteSpace x.dst
  let done := fun (s : State) (st : Nat) (rem : Bool) =>
    s.updDm d t k m.id (fun m => { m with started := true, status := st, remote := rem })
  let car := if remote then s.dmCarrier x read else 0
  if car ≠ 0 then done s car false else
  let (s, st, ps) := s.dmMove d t k x w
  let cap := if x.useCkt then 4096 else 512
  let pk := ps.flatMap (fun p => cutPiece cap read p (p.len + 1))
  let total := (pk.map Piece.len).sum
  let rem := remote && !pk.isEmpty
  if !rem then done s st rem else
  let s := if read then s.updDm d t k m.id (fun m => { m with started := true, remote := true, stop := st }) else done s st rem
  let s := if read then s else s.addPair (.tile d t) Reg.TILE.MOVED_LO Reg.TILE.MOVED_HI total
  let owner := Owner.dm d t k m.id
  if read then s.sendReads x (fun i dst => .read d t k m.id i dst) owner pk total
  else if x.useCkt then s.sendCircuit x owner pk total
  else if (s.flow x.flow).kind = 3 then s.sendMcast x owner pk total
  else s.sendFlowWrite x owner pk total

/-- The next descriptor of a slot's queue that may start now (R100). -/
def State.dmNextOf (s : State) (d : Fin 4) (t : Fin 104) (k : Fin 2) : Option Dm :=
  let q := (s.tile d t).dms k
  match q.find? (fun m => !m.started) with
  | none => none
  | some m =>
    let x := DmD.ofBytes m.desc
    if (x.fence && q.any (fun o => o.started)) || !s.dmRoom x then none else some m

/-- Descriptors in progress on a tile. -/
def Tile.dmBusy (x : Tile) : Nat := ((x.dms0 ++ x.dms1).filter (·.started)).length

/-- Start descriptors while fewer than 4 are in progress, taking the two queues in turns; the argument bounds their
number. -/
def State.dmPump (s : State) (d : Fin 4) (t : Fin 104) : Nat → State
  | 0 => s
  | n + 1 =>
    let x := s.tile d t
    if 4 ≤ x.dmBusy then s else
    let k : Fin 2 := if x.dmTurn = 0 then 0 else 1
    let pick := match s.dmNextOf d t k with
      | some m => some (k, m)
      | none => (s.dmNextOf d t (otherSlot k)).map (fun m => (otherSlot k, m))
    match pick with
    | none => s
    | some (k, m) =>
      match x.slot k with
      | none => s
      | some w =>
        let s := s.setTile d t { x with dmTurn := 1 - k.val }
        State.dmPump (s.dmRun d t k m w) d t n

/-- Start what may start on a tile. -/
def State.dmGo (s : State) (d : Fin 4) (t : Fin 104) : State := s.dmPump d t 16

/-- Start what may start on every tile: a message has ended and left room for another. -/
def State.dmGoAll (s : State) : State :=
  s.tiles.keys.foldl (fun s key =>
    if h : key / 104 < 4 then s.dmGo ⟨key / 104, h⟩ ⟨key % 104, by omega⟩ else s) s

/-- A descriptor may stand at these bytes (R72). -/
def descHome (k : Fin 2) (a n : Nat) : Bool := inData a n || inCtx k a n

/-- The task waits in the POST service and its earlier descriptors have all completed: the doorbell rings (R147). -/
def State.postGo (s : State) (d : Fin 4) (t : Fin 104) (k : Fin 2) : State :=
  let x := s.tile d t
  match x.slot k with
  | some w => match w.post with
    | some (p, n) =>
      if (x.dms k).isEmpty then (s.setSlot d t k (some { w with post := none })).doorbell p n else s
    | none => s
  | none => s

/-- A descriptor ends (R100): STATUS, the signal with what R352 says it carries, and the fault of its task (R106). -/
def State.dmEnd (s : State) (d : Fin 4) (t : Fin 104) (k : Fin 2) (addr : Nat) (x : DmD) (status fenced : Nat) : State :=
  let s := s.lsWrite d t (addr + 6) [BitVec.ofNat 8 status]
  let s := if x.signal then (s.signal x.syncObj 1 (.task d t k)
      ((if status = 0 then 0 else ObjSt.fault) ||| (if fenced = 0 then 0 else ObjSt.fenced)) fenced).1 else s
  if x.nofault then s else s.opFault d t k status

/-- A descriptor leaves its queue and ends; the kernel's POST and the next descriptors go on. -/
def State.dmComplete (s : State) (d : Fin 4) (t : Fin 104) (k : Fin 2) (m : Dm) : State :=
  let x := s.tile d t
  let s := s.setTile d t (x.setDms k ((x.dms k).filter (fun o => o.id ≠ m.id)))
  let s := s.dmEnd d t k m.addr (DmD.ofBytes m.desc) m.status m.fenced
  (s.postGo d t k).dmGo d t

/-- A task's kernel is running in the slot and not stalled. -/
def State.kernelRuns (s : State) (d : Fin 4) (t : Fin 104) (k : Fin 2) : Bool :=
  let x := s.tile d t
  match x.slot k with
  | some w => w.start.isSome && w.post.isNone && w.held.isNone &&
      (if k = 0 then x.stallMop0.isNone && x.stallDm0.isNone else x.stallMop1.isNone && x.stallDm1.isNone)
  | none => false

/-- The rows a descriptor's reads find bad become known, at the local store it reads (R73). -/
def State.dmFind (s : State) (d : Fin 4) (t : Fin 104) (k : Fin 2) (x : DmD) (errs : RowErrs) (lines : LineErrs) :
    State :=
  let s := s.findErrs lines
  if x.src = 1 ∧ x.op ≠ 4 then match s.slotTile x.die x.slot with
    | some u => s.findRows x.die u none errs
    | none => s
  else s.findRows d t (some k) errs

/-- A kernel issues the descriptor at an address: it is checked, and fails at once or is queued (R98, R100). One of zero extent
completes at its check, FENCE or not, whatever earlier descriptors do: the model's choice, for R97 and R100 do not say
(DESIGN CHOICE: notes/assumptions/47.md). -/
def State.dmIssue (s : State) (d : Fin 4) (t : Fin 104) (k : Fin 2) (addr : Nat) (errs : RowErrs) (lines : LineErrs) :
    State :=
  if !descHome k addr 128 then s.opFault d t k St.outOfRange else
  let s := s.dmFind d t k (DmD.ofBytes ((s.tile d t).read addr 128)) errs lines
  let x := s.tile d t
  match x.slot k with
  | none => s
  | some w =>
    if x.badIn addr 128 then s.opFault d t k St.lsUe else
    let b := x.read addr 128
    let m := DmD.ofBytes b
    match dmCheck m w k with
    | some st => s.dmEnd d t k addr m st 0
    | none =>
      let s := s.setTile d t { x.setDms k (x.dms k ++ [⟨x.dmNext, addr, b, false, 0, 0, false, 0, [], 0⟩]) with dmNext := x.dmNext + 1 }
      s.dmGo d t

/-- A kernel's issue: with the queue full it stalls (R100). A descriptor counts among the 8 until it completes: the model's
choice, for R100 does not say when one leaves the queue (DESIGN CHOICE: notes/assumptions/47.md). -/
def State.dmCall (s : State) (d : Fin 4) (t : Fin 104) (k : Fin 2) (addr : Nat) (errs : RowErrs) (lines : LineErrs) :
    State :=
  if !s.kernelRuns d t k then s
  else if 8 ≤ ((s.tile d t).dms k).length then
    let x := s.tile d t
    s.setTile d t (if k = 0 then { x with stallDm0 := some addr } else { x with stallDm1 := some addr })
  else s.dmIssue d t k addr errs lines

/-! ## Ends of remote transfers (R319, R322) -/

/-- A remote transfer's message has ended with a status. -/
def State.dmRemoteEnd (s : State) (d t k id status fenced : Nat) : State :=
  if h : d < 4 ∧ t < 104 ∧ k < 2 then
    s.updDm ⟨d, h.1⟩ ⟨t, h.2.1⟩ ⟨k, h.2.2⟩ id (fun m =>
      { m with remote := false, fenced := fenced
               status := if m.status ≠ 0 then m.status else if status ≠ 0 then status else m.stop })
  else s

/-- The replies of a read are written in element order, each when every packet ahead of it has been answered; the first
status other than OK stops the descriptor, and nothing behind it is moved (R98). The argument bounds the replies. -/
def State.readDrain (s : State) (d : Fin 4) (t : Fin 104) (k : Fin 2) (id : Nat) : Nat → State
  | 0 => s
  | n + 1 =>
    match ((s.tile d t).dms k).find? (fun (m : Dm) => m.id == id) with
    | none => s
    | some m => match m.got.find? (fun r => r.idx == m.turn) with
      | none => s
      | some r =>
        let y := DmD.ofBytes m.desc
        let (s, st) := if m.status ≠ 0 then (s, 0) else if r.status ≠ 0 then (s, r.status)
          else
            let (s, st) := s.spaceWriteRow d t y y.dst r.dst r.data
            (if st = 0 then s.addPair (.tile d t) Reg.TILE.MOVED_LO Reg.TILE.MOVED_HI r.data.length else s, st)
        let s := s.updDm d t k id (fun m => { m with
          turn := m.turn + 1, got := m.got.filter (fun e => e.idx ≠ r.idx), status := if m.status = 0 then st else m.status })
        State.readDrain s d t k id n

/-- A reply to a read packet of a descriptor arrives. -/
def State.dmReply (s : State) (d t k id : Nat) (r : Reply) : State :=
  if h : d < 4 ∧ t < 104 ∧ k < 2 then
    let s := s.updDm ⟨d, h.1⟩ ⟨t, h.2.1⟩ ⟨k, h.2.2⟩ id (fun m => { m with got := m.got ++ [r] })
    s.readDrain ⟨d, h.1⟩ ⟨t, h.2.1⟩ ⟨k, h.2.2⟩ id
      (((s.tile ⟨d, h.1⟩ ⟨t, h.2.1⟩).dms ⟨k, h.2.2⟩).map (fun m => m.got.length)).sum
  else s

end Sys2Proof.Machine
end

