-- ==== Sys2Proof/Machine/FenceOps.lean ====
section
/-! DEFINITION. The fence (R546–R548), the pages that answer before READY (R489), the forecast mode (R424). -/

namespace Sys2Proof.Machine

open Sys2Proof

/-- The package is out of reset and its rails are up (R486). -/
def MgmtSt.up (m : MgmtSt) : Bool := !m.resetLow && m.rails && !m.tripped && !m.isolated

/-- PKG.START.STATE is READY (R487). -/
def State.ready (s : State) : Bool := s.getF .pkg Reg.PKG.START_STATE == 4

/-- A page answers BAR0: before READY only PKG, HCTL, PCIE and ASSAY do (R489); a tile that is not a child of its cluster
has no page (R19, R457). -/
def State.pageOpen (s : State) (u : UnitId) : Bool :=
  match u with
  | .pkg | .hctl | .pcie | .assay => true
  | .tile d t => s.ready && s.tileState d t == 0
  | _ => s.ready

/-- 1 ns of drove time: the clock counts from s0 of a start-up (R368, R375, R486). -/
def State.tick (s : State) : State :=
  if s.getF .pkg Reg.PKG.START_STATE = 0 then s else { s with drove := s.drove + 1 }

/-- HCTL.FCAST.MODE changes: FCAST_MODE is raised (R424). -/
def State.setFcast (s : State) (v : Nat) : State :=
  if s.getF .hctl Reg.HCTL.FCAST_MODE = v then s
  else (s.setF .hctl Reg.HCTL.FCAST_MODE v).raise .hctl Evt.HCTL.FCAST_MODE

/-- The package fences itself with a cause, unless it is fenced already or held in reset (R546–R549): cause and time are
latched, FENCED is raised, herd objects complete their local parts, the forecast is in MODEL. -/
def State.doFence (s : State) (cause : Nat) : State :=
  if s.fenced || s.mg.resetLow then s else
  let s := s.setF .pkg Reg.PKG.FENCE_CAUSE cause
  let s := s.setPair .pkg Reg.PKG.FENCE_TIME_LO Reg.PKG.FENCE_TIME_HI s.drove
  let s := s.setF .pkg Reg.PKG.FENCE_FENCED 1
  let s := s.setOwn .pkg s.pkgOwn
  let s := s.raisePkg Evt.PKG.FENCED
  s.fenceObjs.setFcast 0

/-- Every channel out of use fences the package (R546). -/
def State.fenceIfNoMemory (s : State) : State := if s.allChannelsOut then s.doFence 5 else s

end Sys2Proof.Machine
end

