-- ==== Sys2Proof/Machine/Assay.lean ====
section
/-! DEFINITION. The assay die and its hallmarks (R437–R451). What the die measures arrives as operands. -/

namespace Sys2Proof.Machine

open Sys2Proof

/-- The 64 signed bytes of a hallmark (R444): FLAGS, POWER_UPS, SERIAL, HSEQ, DROVE; energy in mJ, peak in mW, length in ns, mean input voltage
in 10 mV, temperature in 0.1 °C. -/
def hallmarkBody (flags powerUps serial hseq drove eTotal eInt peak ns vAvg : Nat) (temp : Int) : List Byte :=
  leBytes 1 1 ++ leBytes 1 1 ++ leBytes 2 flags ++ leBytes 4 powerUps ++ leBytes 8 serial ++ leBytes 8 hseq ++
    leBytes 8 drove ++ leBytes 8 eTotal ++ leBytes 4 eInt ++ leBytes 4 peak ++ leBytes 4 ns ++ leBytes 2 vAvg ++
    leBytes 2 (toTwos 16 temp) ++ leBytes 8 0

/-- A hallmark: its body and the signature by the assay die's private key. -/
def hallmark (body : List Byte) : List Byte := body ++ ed25519Sign Config.assayKey body

/-- A byte of the identity record (R447); what the spec leaves to each package is open. ASSAY_PUB is the public key of the assay die's key
pair. -/
def State.identAt (s : State) (i : Nat) : Byte :=
  if i = 0 then 2 else if i = 1 then 1
  else if i = 6 ∨ i = 7 then 0
  else if 8 ≤ i ∧ i < 16 then (leBytes 8 s.serial).getD (i - 8) 0
  else if 16 ≤ i ∧ i < 32 then 0
  else if 32 ≤ i ∧ i < 64 then (ed25519Public Config.assayKey).getD (i - 32) 0
  else Config.identByte i

/-- The 128-byte identity record (R447). -/
def State.ident (s : State) : List Byte := (List.range 128).map s.identAt

/-- FLAGS of a hallmark (R444). -/
def hallmarkFlags (restart unsync jump low above ref vin : Bool) : Nat :=
  boolAt restart 0 + boolAt unsync 1 + boolAt jump 2 + boolAt low 3 + boolAt above 4 + boolAt ref 5 + boolAt vin 6

/-- The input has reached 20 V and the assay die starts (R440). -/
def execAssayStart (s : State) : Ans :=
  .next (if s.assay.running then s else
    { s with assay := { s.assay with running := true, restart := true, copy := none, locked := false, jump := false,
                                     base := none } })

/-- The drove time and its LOCKED bit reach the assay die (R439, R446). H0 sends none while it is down. -/
def execDroveTimeToAssay (s : State) : Ans :=
  .next (if !s.assay.running || !s.mg.up then s else
    let a := s.assay
    let back := match a.copy with
      | some c => decide (s.drove < c)
      | none => false
    let lock := s.getF (.sync 0) Reg.SYNC.DROVE_STAT_STATE == 2
    { s with assay := { a with copy := some s.drove, locked := lock, jump := a.jump || back,
                               base := some (a.base.getD s.drove) } })

/-- Received drove time moved forward by more than INTERVAL_NS + 1 ms within the interval (R444). -/
def AssaySt.leapt (a : AssaySt) (ns : Nat) : Bool :=
  match a.base, a.copy with
  | some b, some c => decide (b + ns + 1000000 < c)
  | _, _ => false

/-- Samples of an interval, one each microsecond: input voltage in mV and current in mA (R441; what a code of the converters stands for is not
in the spec: notes/assumptions/57.md). -/
abbrev AssaySamples := List (Nat × Nat)

/-- Energy of samples, pJ: the product of each over its microsecond. -/
def energyOf (l : AssaySamples) : Nat := (l.map (fun x => x.1 * x.2)).sum

/-- The highest 1 ms average of power within an interval, mW; of a shorter one its own average. -/
def peakOf (l : AssaySamples) : Nat :=
  if l.length < 1000 then energyOf l / (1000 * max 1 l.length)
  else ((List.range (l.length - 999)).map (fun i => energyOf ((l.drop i).take 1000))).foldl max 0 / 1000000

/-- Mean input voltage, 10 mV. -/
def meanVolt (l : AssaySamples) : Nat := (l.map Prod.fst).sum / (10 * max 1 l.length)

/-- A sample exceeded full scale, 70 V or 100 A; the input left 40–60 V (R442, R444). -/
def beyondScale (l : AssaySamples) : Bool := l.any (fun x => decide (70000 < x.1 ∨ 100000 < x.2))
def inputOut (l : AssaySamples) : Bool := l.any (fun x => decide (x.1 < 40000 ∨ 60000 < x.1))

/-- An interval ends and a hallmark is signed and sent (R441–R446). Of its energy what is below 1 mJ is carried on. `ns`: its length by the
assay oscillator; `temp`: the die's temperature; `refBad`: the reference check failed; `since`: ns since the last drove time came. -/
def execHallmarkIntervalEnd (samples : List (Nat × Nat)) (ns : Nat) (temp : Int) (refBad : Bool) (since : Nat) (s : State) : Ans :=
  .next (if !s.assay.running then s else
    let a := s.assay
    let pj := energyOf samples
    let unsync := a.copy.isNone || decide (10000000 < since) || !a.locked
    let ref := a.refFail || refBad
    let low := decide (pj < 240 * 1000 * ns)
    let eInt := (a.carry + pj) / 1000000000
    let drove := match a.copy with
      | some c => c + since
      | none => Config.freeNat s.freeCtr % 2 ^ 64
    let s := if a.copy.isNone then s.tickFree else s
    let ups := if a.restart then a.powerUps + 1 else a.powerUps
    let flags := hallmarkFlags a.restart unsync (a.jump || a.leapt ns) low (beyondScale samples) ref (inputOut samples)
    let hm := hallmark (hallmarkBody flags ups s.serial (a.hseq + 1) drove (a.eTotal + eInt) eInt (peakOf samples) ns (meanVolt samples) temp)
    { s with assay := { a with restart := false, hseq := a.hseq + 1, eTotal := a.eTotal + eInt, powerUps := ups, refFail := ref,
                               carry := (a.carry + pj) % 1000000000, jump := false, base := a.copy, last := some hm } })

/-- The words of a record stand in ring slot k of the mailbox (R449). -/
def State.mailbox (s : State) (k : Nat) (hm : List Byte) : State :=
  (List.range 32).foldl (fun s i => s.setW .assay (0x100 + 0x80 * k + 4 * i) (BitVec.ofNat 32 (descF hm (4 * i) 4))) s

/-- A hallmark's E_INTERVAL / INTERVAL_NS differs from HCTL.PWR_1S by more than 1.5 % of its value plus 2 W (R451). -/
def State.meterOdd (s : State) (hm : List Byte) : Bool :=
  let e := descF hm 0x28 4 * 1000000
  let ns := descF hm 0x30 4
  let p := s.getF .hctl Reg.HCTL.PWR_1S_WATTS * ns
  decide (3 * e + 400 * ns < 200 * (max e p - min e p))

/-- An arrived hallmark is kept: ring slot, LATEST, status, events, history, comparison (R448–R451). -/
def State.keepHallmark (s : State) (hm : List Byte) : State :=
  let n := descF hm 0x10 8
  let flag := fun (b : Nat) => bitsOf (descF hm 2 2) b b == 1
  let s := s.mailbox (n % 16) hm
  let s := s.setF .assay Reg.ASSAY.LATEST_SLOT (n % 16)
  let s := s.setPair .assay Reg.ASSAY.LATEST_HSEQ_LO Reg.ASSAY.LATEST_HSEQ_HI n
  let s := s.setF .assay Reg.ASSAY.STAT_LINK_OK 1
  let s := s.setF .assay Reg.ASSAY.STAT_DROVE_SYNC (if flag 1 then 0 else 1)
  let s := s.setF .assay Reg.ASSAY.STAT_REF_OK (if flag 5 then 0 else 1)
  let s := if flag 0 then s.raise .assay Evt.ASSAY.RESTART else s
  let s := if flag 5 then s.raise .assay Evt.ASSAY.REF_FAIL else s
  let s := if flag 1 || flag 2 then s.raise .assay Evt.ASSAY.DROVE_UNSYNC else s
  let odd := if s.meterOdd hm then s.assay.odd + 1 else 0
  let s := if odd = 10 then s.raise .assay Evt.ASSAY.METER_DISAGREE else s
  { s with assay := { s.assay with held := (hm :: s.assay.held).take 4096, odd := odd, heard := some s.elapsed } }

/-- H0 already holds a hallmark of the same HSEQ: the second copy (R448). -/
def State.hallmarkHeld (s : State) (hm : List Byte) : Bool :=
  match s.assay.held with
  | r :: _ => descF r 0x10 8 == descF hm 0x10 8
  | [] => false

/-- A copy of the hallmark last sent reaches H0 (R448). -/
def execHallmarkCopy (crcOk : Bool) (s : State) : Ans :=
  .next (match s.assay.last with
    | none => s
    | some hm =>
      if !s.mg.up then s
      else if !crcOk then s.bump .assay Reg.ASSAY.LINK_ERR_COUNT
      else if s.hallmarkHeld hm then s
      else s.keepHallmark hm)

/-- No hallmark has arrived for 3 s (R448). -/
def execAssayLinkLost (s : State) : Ans :=
  .next (match s.assay.heard with
    | some t =>
      if !s.mg.up || decide (s.elapsed < t + 3000000000) then s
      else
        let s := { s with assay := { s.assay with heard := none } }
        (s.setF .assay Reg.ASSAY.STAT_LINK_OK 0).raise .assay Evt.ASSAY.LINK_LOST
    | none => s)

end Sys2Proof.Machine
end

