-- ==== Sys2Proof/Machine/Channels.lean ====
section
/-! DEFINITION. Memory channels and stacks (R182–R199): start-up training and fill, scrubbing, tracking, retrains,
drains, temperature. -/

namespace Sys2Proof.Machine

open Sys2Proof

/-- The channel number of a channel of a stack. -/
def chanNo (m : Fin 12) (ch : Fin 16) : Nat := 16 * m + ch

/-- A channel in service: ACTIVE or DRAINING. -/
def State.serving (s : State) (c : Nat) : Bool := s.chanState c == 2 || s.chanState c == 3

/-- The frame is one of a usable index not replaced, or a reserve frame (R189). -/
def State.frameLive (s : State) (id : Nat) : Bool := id % 4096 < 3072 && (s.mm.repl.find id).isNone

/-! ## Start-up (R182–R184) -/

/-- Step 7: the frame of a line listed before the reset is retired; with no reserve left the channel is RETIRED at once,
cause RESERVE_OUT. -/
def State.startRetire (s : State) (id : Nat) : State :=
  let c := frameChan id
  if s.chanState c ≠ 1 || (s.mm.repl.find id).isSome then s else
  match s.freeReserve c with
  | some r => s.retireFrame id r
  | none => (s.setF (chanUnit c) Reg.MCHN.STATE_CAUSE 1).chanOut c 4

/-- Steps 6 and 7 for a channel that has trained: its listed frames retire and its UE table is emptied. -/
def State.startFrames (s : State) (c : Nat) : State :=
  (s.mm.ue.foldl (fun s e => if e.1 / 2 ^ 27 = c then s.startRetire (e.1 / 2 ^ 15) else s) s).emptyUe c

/-- A channel's stored calibration is restored (R182 step 3): its record, whose signature the replay of its group has checked, belongs to this
stack and to a temperature within 15 °C. -/
def State.calFits (s : State) (n : Nat) (c : Calib) : Bool :=
  match s.mm.cal.find n with
  | some r => r.device == c.device && decide (r.temp ≤ c.temp + 15 ∧ c.temp ≤ r.temp + 15)
  | none => false

/-- A channel's restore check, or its full training, ends. `check`: the pattern read back after a restore is good; a channel that did not restore,
or whose check failed, is fully trained (step 4), and `pass`: it trains. `k`: the stack's identity and temperature, and the calibration that
full training found. -/
def execChannelTrainDone (m : Fin 12) (ch : Fin 16) (check pass : Bool) (k : Calib) (s : State) : Ans :=
  .next (
    let c := chanNo m ch
    if s.chanState c ≠ 1 || s.mm.trained.getD c false then s else
    let full := !(s.calFits c k && check)
    let s := if full then s.raise (.mstk m) Evt.MSTK.TRAIN_FULL else s
    let s := if full && pass then { s with mm := { s.mm with cal := s.mm.cal.put c k } } else s
    if full && !pass then ((s.chanFail c).emptyUe c).fenceIfNoMemory else
    let s := s.startFrames c
    if s.chanState c = 1 then { s with mm := { s.mm with trained := s.mm.trained.put c true } }
    else s.fenceIfNoMemory)

/-- The fill of a channel with zeros ends: it is ACTIVE and its frames count (step 9). -/
def execMemoryFillDone (m : Fin 12) (ch : Fin 16) (s : State) : Ans :=
  .next (
    let c := chanNo m ch
    if s.chanState c ≠ 1 || !s.mm.trained.getD c false then s else
    let s := s.setF (.mchn m ch) Reg.MCHN.STATE_STATE 2
    let s := s.setF (.mchn m ch) Reg.MCHN.STATE_CAUSE 0
    let s := { s with mm := { s.mm with trained := s.mm.trained.del c } }
    ((s.setOwn (.mchn m ch) 0).frameCounts).placeCounts)

/-! ## In service -/

/-- The scrubber reads a line: clean, corrected (false) or uncorrectable (true); a listed line is not read again. -/
def execScrubLine (m : Fin 12) (ch : Fin 16) (f : Fin 3072) (line : Fin 32768) (err : Option Bool) (s : State) : Ans :=
  .next (
    let id := frameId m ch f
    if !s.serving (chanNo m ch) || !s.frameLive id || s.mm.ue.getD (lineKey id line) false then s else
    match err with
    | none => s
    | some false => s.lineCE id line
    | some true => s.lineUE id line)

/-- One second, ns. -/
def ns1s : Nat := 1000000000

/-- Retrains of a channel within the last 24 h. -/
def State.retrains24 (s : State) (c : Nat) : Nat :=
  ((s.mm.retrainLog.getD c []).filter (fun t => decide (s.elapsed ≤ t + ns24h))).length

/-- n commands of a channel were retried: counted; more than 1,000 within 1 s after 3 retrains within 24 h drain the
channel with cause LINK. -/
def State.retried (s : State) (c n : Nat) : State :=
  let s := s.bumpBy (chanUnit c) Reg.MCHN.LINK_RETRY_COUNT n
  let log := ((s.mm.retryLog.getD c []).filter (fun t => decide (s.elapsed ≤ t + ns1s))) ++
    List.replicate (min n 1001) s.elapsed
  let s := { s with mm := { s.mm with retryLog := s.mm.retryLog.putD c log [] } }
  if 1000 < log.length && 3 ≤ s.retrains24 c then s.drainStart c 3 none else s

/-- Tracking of 1 ms (R185), with the commands retried and the on-die corrections reported since the last; skipped while the PHY controllers'
image restarts (R529). -/
def execChannelTrack (m : Fin 12) (ch : Fin 16) (retries onDie : Nat) (s : State) : Ans :=
  .next (
    let c := chanNo m ch
    if !s.serving c || s.mg.fw.hptTo.any (fun t => decide (s.elapsed < t)) then s else
    (if retries = 0 then s else s.retried c retries).bumpBy (.mchn m ch) Reg.MCHN.ODE_COUNT_COUNT onDie)

/-- A retrain begins: traffic is held until it ends (R185). -/
def State.beginRetrain (s : State) (c : Nat) : State :=
  if s.serving c then { s with mm := { s.mm with retraining := s.mm.retraining.put c true } } else s

/-- Eight retries of one command have failed (R185). -/
def execChannelRetrain (m : Fin 12) (ch : Fin 16) (s : State) : Ans :=
  .next (
    let c := chanNo m ch
    if s.serving c then (s.retried c 1).beginRetrain c else s)

/-- MCHN.CTL.RETRAIN is written (R197). -/
def execMchnRetrain (m : Fin 12) (ch : Fin 16) (s : State) : Ans :=
  .next (if s.pageOpen (.mchn m ch) then s.beginRetrain (chanNo m ch) else s)

/-- A retrain ends: RETRAIN is raised and counted, or the channel is FAILED (R185, R196). -/
def execChannelRetrainDone (m : Fin 12) (ch : Fin 16) (pass : Bool) (s : State) : Ans :=
  .next (
    let c := chanNo m ch
    if !s.mm.retraining.getD c false || !s.serving c then s else
    let s := { s with mm := { s.mm with retraining := s.mm.retraining.del c } }
    if pass then
      let s := (s.bump (.mchn m ch) Reg.MCHN.RETRAINS_COUNT).raise (.mchn m ch) Evt.MCHN.RETRAIN
      let log := ((s.mm.retrainLog.getD c []).filter (fun t => decide (s.elapsed ≤ t + ns24h))) ++ [s.elapsed]
      { s with mm := { s.mm with retrainLog := s.mm.retrainLog.put c log } }
    else (s.chanFail c).fenceIfNoMemory)

/-- MCHN.CTL.RETIRE is written (R197). -/
def execMchnRetire (m : Fin 12) (ch : Fin 16) (s : State) : Ans :=
  .next (if s.pageOpen (.mchn m ch) then s.drainStart (chanNo m ch) 4 none else s)

/-- The last page of a draining channel has left it (R195 step 4): moved, freed or LOST. -/
def execChannelDrainDone (m : Fin 12) (ch : Fin 16) (s : State) : Ans :=
  .next (
    let c := chanNo m ch
    if s.chanState c = 3 && (s.drainOrder c).isEmpty then (s.chanOut c 4).fenceIfNoMemory else s)

/-- Refresh rate after a reading (R186): it rises at the first reading past a threshold and falls back only at one at
least 3 °C below it. -/
def refreshRate (was temp : Nat) : Nat :=
  if 95 < temp then 2
  else if was = 2 ∧ 92 < temp then 2
  else if 85 < temp then 1
  else if 1 ≤ was ∧ 82 < temp then 1
  else 0

/-- A stack's temperature of 1 ms is read. -/
def execStackTempRead (m : Fin 12) (degC : BitVec 8) (s : State) : Ans :=
  .next (
    let was := s.getF (.mstk m) Reg.MSTK.TEMP_REFRESH
    let r := refreshRate was degC.toNat
    let s := (s.setF (.mstk m) Reg.MSTK.TEMP_DEGC degC.toNat).setF (.mstk m) Reg.MSTK.TEMP_REFRESH r
    if r = 2 ∧ was ≠ 2 then s.raise (.mstk m) Evt.MSTK.MEM_HOT else s)

end Sys2Proof.Machine
end

