-- ==== Sys2Proof/Machine/FwOps.lean ====
section
/-! DEFINITION. Firmware as shared operations: the management messages sent (R501), the manifest and its checks (R516, R517),
image slots and the transfer record (R515, R520, R521), the handover (R524, R528). -/

namespace Sys2Proof.Machine

open Sys2Proof

/-! ## Management messages out (R501) -/

/-- A management message: its 16-byte header and its content (R501). -/
def mgmtMsg (mtype serial mseq : Nat) (content : List Byte) : List Byte :=
  leBytes 1 1 ++ leBytes 1 mtype ++ leBytes 2 content.length ++ leBytes 8 serial ++ leBytes 4 mseq ++ content

/-- Send a management message. -/
def State.sendMgmt (s : State) (dst mtype : Nat) (content : List Byte) : State :=
  let n := s.mg.mseq
  let s := s.emit (.mgmt dst (mgmtMsg mtype s.serial n content))
  { s with mg := { s.mg with mseq := (n + 1) % 2 ^ 32 } }

/-- The broadcast address. -/
abbrev macBroadcast : Nat := 0xFFFFFFFFFFFF

/-- A management message is discarded and counted (R501, R507). -/
def State.mgmtBad (s : State) : State := s.bump .hctl Reg.HCTL.MGMT_BAD_COUNT

/-- START.STATE. -/
def State.startState (s : State) : Nat := s.getF .pkg Reg.PKG.START_STATE

/-- The hub controller firmware serves: START.STATE is RESTORE, INIT, READY or FAILED, and no restart runs (R485, R503). -/
def State.fwServing (s : State) : Bool :=
  !s.mg.hcDown && (s.startState == 2 || s.startState == 3 || s.startState == 4 || s.startState == 6)

/-- Management messages other than transfer messages and COOLANT are handled: not during a restart, nor before the HCF image has
confirmed in a handover (R485, R503, R525). -/
def State.mgmtServing (s : State) : Bool := s.fwServing && !s.hcAway

/-- The ROM takes a set by transfer messages: a NET boot, or RECOVERY (R491, R532). -/
def State.romTransfer (s : State) : Bool :=
  s.startState == 5 || (s.startState == 1 && s.getF .pkg Reg.PKG.START_BOOT_SEL == 2)

def State.setFw (s : State) (x : FwSt) : State := { s with mg := { s.mg with fw := x } }

def State.setFlash (s : State) (x : Flash) : State := { s with mg := { s.mg with flash := x } }

/-- The package's MAC address (R500). -/
def State.mac (s : State) : Nat := s.getF .hctl Reg.HCTL.MGMT_MAC_LO + 2 ^ 32 * s.getF .hctl Reg.HCTL.MGMT_MAC_HI

/-- A message's content keeps the layout of its type (R417, R504, R507, R519); the content of a type that only packages send is
not looked at. -/
def mgmtLayout (mtype : Nat) (c : List Byte) : Bool :=
  match mtype with
  | 0x01 => c.length == 16
  | 0x02 => c.length == 88 && bitsOf (descF c 10 1) 7 1 == 0 && (c.take 24).drop 11 == List.replicate 13 0
  | 0x04 => c.length == 4
  | 0x06 => c.length == 12 && decide (1 ≤ descF c 8 1 ∧ descF c 8 1 ≤ 8) && bitsOf (descF c 9 1) 7 1 == 0 && descF c 10 2 == 0
  | 0x10 => c.length == 16 && descF c 13 3 == 0 && decide (1 ≤ descF c 12 1 ∧ descF c 12 1 ≤ 63)
  | 0x11 => c.length == 1040 && descF c 8 1 < 64 && descF c 9 1 < 64 && descF c 10 6 == 0
  | 0x12 | 0x14 => c.length == 8
  | _ => true

/-- MTYPE is not a reserved one (R501, R519). -/
def mgmtType (t : Nat) : Bool := (1 ≤ t && t ≤ 8) || (0x10 ≤ t && t ≤ 0x14)

/-- The payload of a frame is a message in form: VERSION, MTYPE, LEN within the frame, the content's layout (R501). -/
def mgmtForm (p : List Byte) : Bool :=
  16 ≤ p.length && descF p 0 1 == 1 && mgmtType (descF p 1 1) && 16 + descF p 2 2 ≤ p.length &&
    mgmtLayout (descF p 1 1) ((p.drop 16).take (descF p 2 2))

/-! ## The manifest (R514–R517) -/

abbrev chunkBytes : Nat := 65536

/-- CHUNKS, EPOCH and MIN_ROM of a manifest. -/
def mChunks (m : List Byte) : Nat := bitsOf (descF m 0 4) 29 24
def mEpoch (m : List Byte) : Nat := descF m 4 4
def mMinRom (m : List Byte) : Nat := descF m 8 2
/-- Length of a manifest. -/
def mLen (m : List Byte) : Nat := 1280 + 64 * mChunks m
/-- A field of entry i. -/
def mEntry (m : List Byte) (i o n : Nat) : Nat := descF m (64 + 32 * i + o) n
/-- KIND and INSTANCE, RB, OFFSET, LENGTH, VERSION, STATE_VER, ACCEPT_MIN and ACCEPT_MAX of entry i. -/
def mPair (m : List Byte) (i : Nat) : Nat × Nat := (mEntry m i 0 1, mEntry m i 1 1)
def mRb (m : List Byte) (i : Nat) : Nat := bitsOf (mEntry m i 2 2) 5 0
def mOffset (m : List Byte) (i : Nat) : Nat := mEntry m i 8 4
def mLength (m : List Byte) (i : Nat) : Nat := mEntry m i 12 4
def mVersion (m : List Byte) (i : Nat) : Nat := mEntry m i 4 4
def mStateVer (m : List Byte) (i : Nat) : Nat := mEntry m i 16 2
def mAcceptMin (m : List Byte) (i : Nat) : Nat := mEntry m i 18 2
def mAcceptMax (m : List Byte) (i : Nat) : Nat := mEntry m i 20 2

/-- The pairs of kind and instance of an image set (R514). -/
def imagePairs : List (Nat × Nat) := [(0, 0), (1, 0), (2, 0)] ++ (List.range 32).map (fun e => (3, e)) ++ [(4, 0)]

/-- Largest image of a kind (R514). -/
def kindMax (k : Nat) : Nat :=
  match k with
  | 0 => 3 * 2 ^ 20 | 1 => 16 * 2 ^ 10 | 2 => 256 * 2 ^ 10 | 3 => 64 * 2 ^ 10 | _ => 256 * 2 ^ 10

/-- SET_ID of a manifest (R517). -/
def mSetId (m : List Byte) : Nat := leNat ((sha512 (m.take (mLen m))).take 8)

/-- An entry's image has its alignment and size and lies within chunks 1 to CHUNKS; its reserved bits are 0. -/
def mEntryOk (m : List Byte) (i : Nat) : Bool :=
  mOffset m i % 64 == 0 && 64 ≤ mLength m i && mLength m i ≤ kindMax (mPair m i).1 &&
    mOffset m i + mLength m i ≤ chunkBytes * mChunks m && bitsOf (mEntry m i 2 2) 15 6 == 0 && mEntry m i 22 10 == 0

/-- Chunk 0 is a well-formed manifest padded with zeros. -/
def mFormat (m : List Byte) : Bool :=
  descF m 0 1 == 3 && descF m 1 1 == 1 && descF m 2 1 == 36 && bitsOf (descF m 3 1) 7 6 == 0 && mChunks m != 0 &&
    descF m 10 2 == 0 && descF m 12 52 == 0 && (m.drop (mLen m)).all (· == 0) &&
    imagePairs.all (fun p => ((List.range 36).filter (fun i => mPair m i == p)).length == 1) &&
    (List.range 36).all (mEntryOk m)

/-- SIG verifies under the firmware key. -/
def mSigned (m : List Byte) : Bool :=
  ed25519 Config.fwKey (m.take (mLen m - 64)) ((m.drop (mLen m - 64)).take 64)

/-- The fuse counter of a kind (R518). -/
def State.fwFuse (s : State) (k : Nat) : Nat := s.getF .hctl (Reg.HCTL.FW_FUSE_COUNT k)

/-- The cause with which the package refuses a set of chunk 0 `m` announced as `id`; `low`: EPOCH is checked too. 0 for none.
A set that breaks several rules is refused for the first in the order of R517. -/
def State.setCause (s : State) (m : List Byte) (id : Nat) (low : Bool) : Nat :=
  if !mFormat m then 1
  else if !mSigned m then 2
  else if mSetId m ≠ id then 3
  else if s.getF .hctl Reg.HCTL.FW_ROM_VER < mMinRom m then 4
  else if (List.range 36).any (fun i => decide (mRb m i < s.fwFuse (mPair m i).1)) then 5
  else if low && decide (mEpoch m < s.getF .pkg Reg.PKG.FW_EPOCH_EPOCH) then 6
  else 0

/-- A payload chunk has the hash the manifest names (R517). -/
def chunkGood (m : List Byte) (c : Nat) (b : List Byte) : Bool :=
  sha512 b == (m.drop (1216 + 64 * (c - 1))).take 64

/-! ## Slots and the boot buffer (R492, R515) -/

/-- A chunk of an image slot. -/
def State.slotChunk (s : State) (k c : Nat) : List Byte :=
  s.mg.flash.slots.getD (64 * k + c) (Config.flashChunk (64 * k + c))

def State.putChunk (s : State) (k c : Nat) (b : List Byte) : State :=
  s.setFlash { s.mg.flash with slots := s.mg.flash.slots.put (64 * k + c) b }

/-- A chunk of the boot buffer. -/
def State.bootChunk (s : State) (c : Nat) : List Byte := s.mg.bootBuf.readBytes (chunkBytes * c) chunkBytes

/-- An erased chunk reads all ones. -/
def erasedChunk : List Byte := List.replicate chunkBytes 0xFF

/-- A chunk that failed to program holds no known value. -/
def State.spoilChunk (s : State) (k c : Nat) : State :=
  (s.putChunk k c (leBytes chunkBytes (Config.freeNat s.freeCtr))).tickFree

/-- The set in a slot is usable (R491, R518): it is not what is left of a dropped one (R520), its manifest passes the checks of R517 but
EPOCH_LOW, and every chunk has its hash. -/
def State.slotUsable (s : State) (k : Nat) : Bool :=
  let m := s.slotChunk k 0
  !s.mg.flash.barred.contains k && s.setCause m (mSetId m) false == 0 &&
    (List.range (mChunks m)).all (fun c => chunkGood m (c + 1) (s.slotChunk k (c + 1)))

/-- The slot of a FLASH boot: the active one, or when it fails the other; none when both fail (R491). -/
def State.bootSlot (s : State) : Option Nat :=
  let a := s.mg.flash.active
  if s.slotUsable a then some a else if s.slotUsable (1 - a) then some (1 - a) else none

/-- A slot's set may run, or is dropped and never runs (R520). -/
def State.barSlot (s : State) (k : Nat) (bar : Bool) : State :=
  let l := s.mg.flash.barred.filter (fun n => n ≠ k)
  s.setFlash { s.mg.flash with barred := if bar then l ++ [k] else l }

/-- The slot running, and the inactive slot, which is the other (R520). -/
def State.runSlot (s : State) : Nat := s.getF .hctl Reg.HCTL.FW_STAT_RUN_SLOT
def State.idleSlot (s : State) : Nat := 1 - s.runSlot

/-- The boot buffer's set is written to a slot, the chunks above CHUNKS erased. -/
def State.bootToSlot (s : State) (k : Nat) : State :=
  let n := mChunks (s.bootChunk 0)
  (List.range 64).foldl (fun (s : State) c => s.putChunk k c (if c ≤ n then s.bootChunk c else erasedChunk)) (s.barSlot k false)

/-- The boot buffer's set is the one a slot holds. -/
def State.bootIsSlot (s : State) (k : Nat) : Bool :=
  (List.range (mChunks (s.bootChunk 0) + 1)).all (fun c => s.slotChunk k c == s.bootChunk c)

/-- The set in the boot buffer passes every check, its own SET_ID taken as announced. -/
def State.bootSetOk (s : State) : Bool :=
  let m := s.bootChunk 0
  s.setCause m (mSetId m) false == 0 && (List.range (mChunks m)).all (fun c => chunkGood m (c + 1) (s.bootChunk (c + 1)))

/-- The selection record names a slot (R527). -/
def State.select (s : State) (k : Nat) : State :=
  (s.setFlash (s.mg.flash.select k)).setF .hctl Reg.HCTL.FW_STAT_ACTIVE_SLOT k

/-! ## The transfer (R519–R522) -/

/-- Registers of the transfer follow it. -/
def State.showXfer (s : State) : State :=
  let x : Xfer := s.mg.fw.xfer.getD ⟨0, 0, 0, []⟩
  let s := s.setF .hctl Reg.HCTL.FW_STAT_CHUNKS x.chunks
  let s := s.setPair .hctl Reg.HCTL.FW_SET_ID_LO Reg.HCTL.FW_SET_ID_HI x.setId
  let s := s.setPair .hctl Reg.HCTL.FW_DONE_LO Reg.HCTL.FW_DONE_HI (x.done.foldl (fun n c => n + 2 ^ c) 0)
  s.setF .hctl Reg.HCTL.FW_STAGED_EPOCH x.epoch

/-- The transfer in hand changes; on a running package the record in the retained store is the same. -/
def State.setXfer (s : State) (x : Option Xfer) : State :=
  let s := s.setFw { s.mg.fw with xfer := x }
  let s := if s.romTransfer then s else s.setFlash { s.mg.flash with xfer := x }
  s.showXfer

/-- FW_STAT.STATE. -/
def State.fwState (s : State) : Nat := s.getF .hctl Reg.HCTL.FW_STAT_STATE

/-- Pieces held of a chunk. -/
def State.piecesOf (s : State) (c : Nat) : List Nat :=
  (s.mg.fw.pieces.filter (fun e => e.1 / 64 == c)).map (fun e => e.1 % 64)

/-- The lowest chunk not done. -/
def Xfer.lowest (x : Xfer) : Nat := ((List.range 64).find? (fun c => !x.done.contains c)).getD 0

/-- Every chunk of the transfer is done. -/
def Xfer.whole (x : Xfer) : Bool := (List.range (x.chunks + 1)).all (fun c => x.done.contains c)

/-- Content of an XFER_STATUS that states a CAUSE (R519). -/
def State.xferStatus (s : State) (cause : Nat) : List Byte :=
  let x : Xfer := s.mg.fw.xfer.getD ⟨0, 0, 0, []⟩
  let held := match s.mg.fw.xfer with
    | some x => s.piecesOf x.lowest
    | none => []
  leBytes 8 x.setId ++ leBytes 1 s.fwState ++ leBytes 1 cause ++ leBytes 1 x.chunks ++ leBytes 1 0 ++
    leBytes 4 (s.getF .pkg Reg.PKG.FW_EPOCH_EPOCH) ++ leBytes 8 (x.done.foldl (fun n c => n + 2 ^ c) 0) ++
    leBytes 8 (held.foldl (fun n p => n + 2 ^ p) 0)

/-- XFER_STATUS is sent to an address. -/
def State.sendStatus (s : State) (dst cause : Nat) : State := s.sendMgmt dst 0x13 (s.xferStatus cause)

/-- XFER_STATUS is sent unasked to the server of the transfer. -/
def State.tellServer (s : State) : State := s.sendStatus s.mg.fw.server (s.getF .hctl Reg.HCTL.FW_STAT_CAUSE)

/-- STATE and CAUSE change, without a message. -/
def State.putFwState (s : State) (st cause : Nat) : State :=
  (s.setF .hctl Reg.HCTL.FW_STAT_STATE st).setF .hctl Reg.HCTL.FW_STAT_CAUSE cause

/-- STATE and CAUSE change, and the server is told. -/
def State.toFwState (s : State) (st cause : Nat) : State := (s.putFwState st cause).tellServer

/-- The set is refused (R520). -/
def State.fwReject (s : State) (cause : Nat) : State :=
  ((s.setFw { s.mg.fw with pieces := [] }).toFwState 6 cause).raise .hctl Evt.HCTL.FW_REJECTED

/-- The transfer record is cleared and the state is IDLE, without a message. -/
def State.clearXfer (s : State) : State :=
  ((s.setFw { s.mg.fw with pieces := [] }).setXfer none).putFwState 0 0

/-- XFER_ABORT and DISCARD: what the transfer has written stays in the inactive slot and never runs (R520). -/
def State.dropSet (s : State) : State :=
  let wrote := s.mg.fw.xfer.any (fun x => x.done ≠ [])
  (if s.romTransfer || !wrote then s else s.barSlot s.idleSlot true).clearXfer

/-- At a start the state is RECEIVING or STAGED as the record shows (R521, R533). -/
def State.restoreXfer (s : State) : State :=
  let s := s.setFw { s.mg.fw with xfer := s.mg.flash.xfer, pieces := [] }
  let s := s.showXfer
  match s.mg.fw.xfer with
  | none => s.putFwState 0 0
  | some x => s.putFwState (if x.whole then 2 else 1) 0

/-! ## The handover (R524–R530) -/

/-- Every RB of the running set is at or below its counter (R530). -/
def State.showSealed (s : State) : State :=
  let m := s.mg.fw.running
  s.setF .hctl Reg.HCTL.FW_STAT_SEALED
    (if (List.range 36).all (fun i => decide (mRb m i ≤ s.fwFuse (mPair m i).1)) then 1 else 0)

/-- Entry of a pair. -/
def mFind (m : List Byte) (p : Nat × Nat) : Nat := ((List.range 36).find? (fun i => mPair m i == p)).getD 36

/-- The payload of a slot, and the bytes of its image i (R515, R516). -/
def State.slotPayload (s : State) (k : Nat) : List Byte :=
  (List.range (mChunks (s.slotChunk k 0))).flatMap (fun c => s.slotChunk k (c + 1))
def State.slotImage (s : State) (k i : Nat) : List Byte :=
  ((s.slotPayload k).drop (mOffset (s.slotChunk k 0) i)).take (mLength (s.slotChunk k 0) i)

/-- Every image of a slot in its target's second bank: tile microcode in the holding area of each die power controller (R523). -/
def State.secondBanks (s : State) (k : Nat) : Map (List Byte) :=
  (List.range 36).foldl (fun (m : Map (List Byte)) i =>
    let p := mPair (s.slotChunk k 0) i
    if p.1 = 1 then (List.range 4).foldl (fun m d => m.put (256 + d) (s.slotImage k i)) m
    else m.put (256 * p.1 + p.2) (s.slotImage k i)) []

/-- Chunks that hold the HBM PHY training firmware of a manifest. -/
def hptChunks (m : List Byte) : List Nat :=
  let i := mFind m (4, 0)
  (List.range 64).filter (fun c => decide (1 + mOffset m i / chunkBytes ≤ c ∧ c ≤ 1 + (mOffset m i + mLength m i - 1) / chunkBytes))

/-- LEVEL and MIN_LEVEL that a manifest's image of a port's transmit controller offers (R272). -/
def oecOffer (m : List Byte) (p : Nat) : Nat × Nat :=
  let v := mVersion m (mFind m (3, 2 * p))
  (Config.oecLevel v % 256, Config.oecMinLevel v % 256)

/-- Each pair of running and new images can hand its state across, both ways (R523). -/
def stateCompat (old new : List Byte) : Bool :=
  imagePairs.all (fun p =>
    let i := mFind old p
    let j := mFind new p
    decide (mAcceptMin new j ≤ mStateVer old i ∧ mStateVer old i ≤ mAcceptMax new j ∧
      mAcceptMin old i ≤ mStateVer new j ∧ mStateVer new j ≤ mAcceptMax old i))

/-- A commit applies GO: the handover starts, and the die power controllers hold their ceilings until they have confirmed (R524, R525). -/
def State.fwGo (s : State) : State :=
  let s := s.holdCeils none
  let s := s.setFw { s.mg.fw with confirmed := [], committed := false }
  let s := s.setF .hctl Reg.HCTL.FW_ACT_STAT_RESULT 3
  let s := s.setF .hctl Reg.HCTL.FW_ACT_STAT_CAUSE 0
  let s := s.setF .hctl Reg.HCTL.FW_ACT_STAT_RESTARTS 0
  s.toFwState 5 0

/-- A handover runs and its commit point is not past. -/
def State.handingOver (s : State) : Bool := s.fwState == 5 && !s.mg.fw.committed

/-- The optical engines offer what the running set's images do. -/
def State.levelsBack (s : State) : State :=
  s.setFw { s.mg.fw with levels := s.mg.fw.levels.map (fun e => (e.1, oecOffer s.mg.fw.running e.1)) }

/-- The hub controller restarts from the running set (R485). -/
def State.hcRestart (s : State) : State :=
  let log := (s.mg.hcLog.filter (fun t => decide (s.elapsed ≤ t + 10000000000))) ++ [s.elapsed]
  let s := { s with mg := { s.mg with hcDown := true, hcLog := log } }
  let s := (s.bump .hctl Reg.HCTL.HCTL_RESTARTS_COUNT).raise .hctl Evt.HCTL.HCTL_RESTART
  s.setFw { s.mg.fw with pieces := [] }

/-- The third restart of the hub controller within 10 s fences the package (R546). -/
def State.loopFence (s : State) : State := if 3 ≤ s.mg.hcLog.length then s.doFence 6 else s

/-- An old image restarts from its first bank (R529): the hub controller's as R485; a die power controller's holds the ceilings in force for
1 ms; the PHY controllers' channels skip tracking for 1 ms; an optical engine's link runs in hardware. -/
def State.imageRestart (s : State) (kind : Nat) : State :=
  match kind with
  | 0 => if s.mg.hcDown then s else s.hcRestart
  | 2 => s.holdCeils (some (s.elapsed + 1000000))
  | 4 => s.setFw { s.mg.fw with hptTo := some (s.elapsed + 1000000) }
  | _ => s

/-- The handover is abandoned (R528, R529): the second banks are discarded, and `restarted` are the images, with their instances, that could not
resume and restart. -/
def State.fwAbandon (s : State) (cause : Nat) (restarted : List (Fin 5 × Fin 32)) : State :=
  let l := (restarted.filter (fun p => p.1 ≠ 1 && imagePairs.contains (p.1.val, p.2.val))).eraseDups
  let s := (s.setFw { s.mg.fw with confirmed := [], second := [] }).freeCeils
  let s := l.foldl (fun s p => s.imageRestart p.1) s
  let restarts := min 15 l.length
  let s := s.setF .hctl Reg.HCTL.FW_ACT_STAT_RESULT 2
  let s := s.setF .hctl Reg.HCTL.FW_ACT_STAT_CAUSE cause
  let s := s.setF .hctl Reg.HCTL.FW_ACT_STAT_RESTARTS restarts
  let s := s.setF .hctl Reg.HCTL.FW_ACT_GO 0
  (s.toFwState 2 0).raise .hctl Evt.HCTL.FW_FAIL

end Sys2Proof.Machine
end

