-- ==== Sys2Proof/Machine/HostIf.lean ====
section
/-! DEFINITION. The PCI Express host interface (R452–R477): BAR2, command queues and their commands, completions, resets of
the host connection. What host memory holds arrives as operands; what is written to it goes out. -/

namespace Sys2Proof.Machine

open Sys2Proof

/-! ## Data in and out of package memory, line by line (R469) -/

/-- Bytes written line by line until one fails: the status, and how many were written. -/
def State.copyIn (s : State) (addr : Nat) (bs : List Byte) (done : Nat) : Nat → State × Nat × Nat
  | 0 => (s, 0, done)
  | k + 1 =>
    if bs = [] then (s, 0, done) else
    let n := min bs.length (64 - addr % 64)
    let (s, st) := s.writeLine Req.host addr (bs.take n)
    if st ≠ 0 then (s, st, done) else State.copyIn s (addr + n) (bs.drop n) (done + n) k

/-- Bytes read line by line until one fails: the status, and those read. -/
def State.copyOut (s : State) (addr n : Nat) (got : List Byte) : Nat → State × Nat × List Byte
  | 0 => (s, 0, got)
  | k + 1 =>
    if n = 0 then (s, 0, got) else
    let m := min n (64 - addr % 64)
    let (s, st, bs) := s.readMem Req.host addr m
    if st ≠ 0 then (s, st, got) else State.copyOut s (addr + m) (n - m) (got ++ bs) k

/-! ## BAR2 (R458–R461, R492) -/

/-- PCIE.BOOT_STAT.STATE shows that BAR2 reaches the boot buffer: WAIT, VERIFY or REJECTED. -/
def State.bootWindow (s : State) : Bool :=
  let b := s.getF .pcie Reg.PCIE.BOOT_STAT_STATE
  b == 1 || b == 2 || b == 4

/-- Package memory address of a BAR2 offset. -/
def State.winAddr (s : State) (off : Nat) : Nat := s.getPair .pcie Reg.PCIE.WIN_BASE_LO Reg.PCIE.WIN_BASE_HI + off

/-- A BAR2 read of n bytes. -/
def execBar2Read (off : Fin 68719476736) (n : Nat) (errs : LineErrs) (s : State) : Ans :=
  .next (
    if s.bootWindow then s.emit (.bar2Read off (List.replicate n 0)) else
    let s := s.findErrs errs
    let (s, st, bs) := s.readMem Req.host (s.winAddr off) n
    if st = 0 then s.emit (.bar2Read off bs)
    else ((s.bump .pcie Reg.PCIE.BAR2_ERR_COUNT).raise .pcie Evt.PCIE.BAR2_ERR).emit (.bar2Abort off))

/-- A host write that covers a listed line in part, or whose read of one finds a new uncorrectable error, is dropped: counted and
raised on the line's channel (R191). With the UE table full the page of the new error is LOST instead of the line listed (R192):
`old` is the state before the write's reads. -/
def State.writeDrop (s old : State) (errs : LineErrs) (addr n : Nat) : State :=
  let hit := ((List.range (lineCount addr n)).map (fun i => 64 * (addr / 64 + i))).findSome? (fun a =>
    match (s.page (a / 2 ^ 21)).frame? with
    | some id =>
      let new := (old.page (a / 2 ^ 21)).st ≠ .lost && errs.any (fun e => e.1 / 64 == a / 64 && e.2 == .uncorrectable)
      if partLine addr n a && (s.mm.ue.getD (lineKey id (a % 2 ^ 21 / 64)) false || new) then some id else none
    | none => none)
  match hit with
  | some id => (s.bump (chanUnit (frameChan id)) Reg.MCHN.WRITE_DROP_COUNT).raise (chanUnit (frameChan id)) Evt.MCHN.WRITE_DROP
  | none => s

/-- A BAR2 write: applied line by line, or dropped whole. `errs`, lines that it covers in part and finds bad (R191). -/
def execBar2Write (off : Fin 68719476736) (data : List Byte) (errs : LineErrs) (s : State) : Ans :=
  .next (
    if s.bootWindow then
      if s.getF .pcie Reg.PCIE.BOOT_STAT_STATE ≠ 2 ∧ off.val + data.length ≤ 0x400000 then
        { s with mg := { s.mg with bootBuf := s.mg.bootBuf.writeBytes off data } }
      else s
    else
      let old := s
      let s := s.findRmw (s.winAddr off) data.length errs
      let (s, st) := s.writeWhole Req.host (s.winAddr off) data
      if st = 0 then s else ((s.writeDrop old errs (s.winAddr off) data.length).bump .pcie Reg.PCIE.BAR2_DROP_COUNT).raise .pcie Evt.PCIE.BAR2_ERR)

/-! ## Command queues (R462–R464) -/

def HostQ.sqBase (q : HostQ) : Nat := q.sqLo.toNat + 2 ^ 32 * q.sqHi.toNat
def HostQ.cqBase (q : HostQ) : Nat := q.cqLo.toNat + 2 ^ 32 * q.cqHi.toNat
def HostQ.sqLog (q : HostQ) : Nat := getBits q.cfg 4 0
def HostQ.cqLog (q : HostQ) : Nat := getBits q.cfg 12 8
def HostQ.vector (q : HostQ) : Nat := getBits q.cfg 26 16
def HostQ.irqEn (q : HostQ) : Bool := getBits q.cfg 27 27 == 1
/-- Commands announced and not fetched; completion entries not consumed. -/
def HostQ.waiting (q : HostQ) : Nat := (q.sqTail + 2 ^ 32 - q.sqHead) % 2 ^ 32
def HostQ.unread (q : HostQ) : Nat := (q.cqTail + 2 ^ 32 - q.cqHead) % 2 ^ 32

/-- Commands in progress that will complete to the queue's ring. -/
def HostQ.live (q : HostQ) : List HostCmd := q.run.filter (fun c => !c.orphan)

/-- A field of a command (R465). -/
def HostCmd.f (c : HostCmd) (o n : Nat) : Nat := descF c.raw o n
def HostCmd.opc (c : HostCmd) : Nat := c.f 0 1
def HostCmd.len (c : HostCmd) : Nat := c.f 4 4
def HostCmd.id (c : HostCmd) : Nat := c.f 8 8
def HostCmd.src (c : HostCmd) : Nat := c.f 0x10 8
def HostCmd.dst (c : HostCmd) : Nat := c.f 0x18 8
def HostCmd.arg0 (c : HostCmd) : Nat := c.f 0x20 8
def HostCmd.arg1 (c : HostCmd) : Nat := c.f 0x28 8
def fenceBit (raw : List Byte) : Bool := bitsOf (descF raw 0 4) 8 8 == 1
def HostCmd.irq (c : HostCmd) : Bool := bitsOf (c.f 0 4) 9 9 == 1

/-- It executes and has not ended. -/
def HostCmd.open_ (c : HostCmd) : Bool := c.fresh && c.result.isNone

/-- The package may issue requests to host memory (R474). -/
def State.dmaOpen (s : State) : Bool := s.host.bme && !s.host.d3hot && !s.host.crs

/-- A host request failed. -/
def State.dmaErr (s : State) : State := (s.bump .pcie Reg.PCIE.DMA_ERR_COUNT).raise .pcie Evt.PCIE.DMA_ERR

/-- A write of PCIE.SQ_DBq; a DISABLED queue takes none. -/
def execSqDoorbell (q : Fin 64) (v : Word) (s : State) : Ans :=
  .next (
    let x := s.hq q
    if !s.ready || x.state = 0 then s else
    let n := (v.toNat + 2 ^ 32 - x.sqHead) % 2 ^ 32
    if 2 ^ x.sqLog < n ∨ n < x.waiting then s.queueErr q 2 else s.setHq q { x with sqTail := v.toNat })

/-- A write of PCIE.CQ_HEADq. -/
def execHostCqHeadWrite (q : Fin 64) (v : Word) (s : State) : Ans :=
  .next (
    let x := s.hq q
    if !s.ready || x.state = 0 then s
    else if x.unread < (v.toNat + 2 ^ 32 - x.cqHead) % 2 ^ 32 then s.queueErr q 3
    else s.setHq q { x with cqHead := v.toNat })

/-- The queue QSEL selects. -/
def State.qsel (s : State) : Nat := s.getF .pcie Reg.PCIE.QSEL_Q

/-- Address of a queue's record of an ID (R471). -/
def State.recordAddr (s : State) (q id : Nat) : Nat :=
  s.getF .pcie Reg.PCIE.CMDREC_PAGE * 2 ^ 21 + 32768 * q + 32 * (id % 1024)

/-- The configuration passes R462. -/
def State.queueOk (s : State) (x : HostQ) : Bool :=
  let pg := s.page (s.getF .pcie Reg.PCIE.CMDREC_PAGE)
  4 ≤ x.sqLog && x.sqLog ≤ 16 && 4 ≤ x.cqLog && x.cqLog ≤ 16 && x.sqBase % 4096 == 0 && x.cqBase % 4096 == 0 &&
    pg.st != .free && pg.pin != 0

/-- ENABLE of a DISABLED queue; `clean`: its record and HIGH are cleared. -/
def State.queueEnable (s : State) (q : Nat) (clean : Bool) : State :=
  let x := s.hq q
  if x.state ≠ 0 then s else
  let x := { x with sqTail := 0, sqHead := 0, cqTail := 0, cqHead := 0 }
  let s := s.setHq q x
  if !s.queueOk x then s.queueErr q 1 else
  let s := s.setHq q { x with state := 1, clean := clean || x.clean, high := if clean then 0 else x.high }
  if clean then
    let (s, st) := s.writeMem Req.host (s.recordAddr q 0) (List.replicate 32768 0)
    if st = 0 then s else s.recordLost
  else s

/-- Q_CTL.ENABLE is written. -/
def execQueueEnable (s : State) : Ans := .next (if s.pageOpen .pcie then s.queueEnable s.qsel false else s)

/-- Q_CTL.ENABLE and CLEAN are written. -/
def execQueueClean (s : State) : Ans := .next (if s.pageOpen .pcie then s.queueEnable s.qsel true else s)

/-! ## Completions and the record (R468, R470–R472) -/

/-- A completion: CMD_ID, STATUS and DETAIL, REPLAY, PHASE, SQ_HEAD, END_TIME, DONE. -/
def completion (id status detail : Nat) (replay : Bool) (phase sqHead endAt done : Nat) : List Byte :=
  leBytes 8 id ++ leBytes 4 (bitAt status 0 8 + bitAt detail 8 8 + boolAt replay 16 + bitAt phase 31 1) ++
    leBytes 4 sqHead ++ leBytes 8 endAt ++ leBytes 4 done ++ leBytes 4 0

/-- PHASE of the next completion of a queue. -/
def HostQ.phase (x : HostQ) : Nat := 1 - x.cqTail / 2 ^ x.cqLog % 2

/-- The completion of a command that has ended. -/
def HostQ.compOf (x : HostQ) (c : HostCmd) : List Byte :=
  match c.result with
  | some (st, det, done) => completion c.id st det false x.phase x.sqHead c.endAt done
  | none => []

/-- A recorded completion as replayed now. -/
def HostQ.replayOf (x : HostQ) (rec : List Byte) : List Byte :=
  completion (descF rec 0 8) (descF rec 8 1) (descF rec 9 1) true x.phase x.sqHead (descF rec 0x10 8) (descF rec 0x18 4)

/-- A completion is recorded; a record that cannot be written is CMDREC_BAD. -/
def State.record (s : State) (q : Nat) (c : HostCmd) : State :=
  let (s, st) := s.writeWhole Req.host (s.recordAddr q c.id) ((s.hq q).compOf c)
  if st = 0 then s else s.recordLost

/-- A command ends with a status. -/
def State.hostEnd (s : State) (q n status detail done : Nat) : State :=
  let x := s.hq q
  s.setHq q { x with run := x.run.mapIdx (fun i c => if i = n then { c with result := some (status, detail, done), endAt := s.drove } else c) }

/-- The n-th command in progress of a queue, if it is open and of an operation. -/
def State.openCmd (s : State) (q n opc : Nat) : Option HostCmd :=
  match (s.hq q).run[n]? with
  | some c => if c.open_ && c.opc == opc then some c else none
  | none => none

/-- A queue stops taking commands (R472): a started COPY or FILL is recorded as ABORTED with the bytes it had written, other started commands run on with
their completions only recorded, what is not started is discarded. -/
def State.queueStop (s : State) (q : Nat) : State :=
  let x := s.hq q
  let gone := fun (c : HostCmd) => c.open_ && decide (1 ≤ c.opc ∧ c.opc ≤ 3)
  let s := (x.run.filter gone).foldl (fun s c => s.record q { c with result := some (0x0C, 0, c.moved), endAt := s.drove }) s
  let keep := (x.run.filter (fun c => c.fresh && !gone c)).map (fun c => { c with orphan := true })
  let x := s.hq q
  s.setHq q { x with state := 0, err := 0, run := keep, sqTail := x.sqHead }

/-- Q_CTL.DISABLE is written. -/
def execQueueDisable (s : State) : Ans :=
  .next (if s.pageOpen .pcie && (s.hq s.qsel).state != 0 then s.queueStop s.qsel else s)

/-- A command breaks the layout or the limits of R465. -/
def HostCmd.bad (c : HostCmd) : Bool :=
  decide (6 < c.opc) || bitsOf (c.f 0 4) 31 10 != 0 || c.f 0x30 8 != 0 || c.f 0x38 8 != 0 ||
    ((c.opc == 1 || c.opc == 2) && c.len == 0) || (c.opc == 3 && c.len % 8 != 0) ||
    (c.opc == 4 && (c.len == 0 || decide (65536 < c.len)))

/-- A started command: with BAD_CMD it has ended at once. -/
def State.startCmd (s : State) (q : Nat) (raw : List Byte) : State :=
  let x := s.hq q
  let c : HostCmd := ⟨raw, true, false, none, 0, none, 0, false, 0⟩
  let c := if c.bad then { c with result := some (0x01, 0, 0), endAt := s.drove } else c
  s.setHq q { x with run := x.run ++ [c] }

/-- A command not executed, with its status. -/
def State.refuseCmd (s : State) (q : Nat) (raw : List Byte) (status : Nat) : State :=
  let x := s.hq q
  s.setHq q { x with run := x.run ++ [⟨raw, false, false, some (status, 0, 0), s.drove, none, 0, false, 0⟩] }

/-- A duplicate, completed with what is recorded under its CMD_ID (R470). -/
def State.repeatCmd (s : State) (q : Nat) (raw : List Byte) : State :=
  let x := s.hq q
  s.setHq q { x with run := x.run ++ [⟨raw, false, true, none, 0, none, 0, false, 0⟩] }

/-- A queue has a command to start and room for it, a WAIT_SYNC before it apart from FENCE (R464, R465, R474). -/
def State.hasStart (s : State) (q : Nat) : Bool :=
  let x := s.hq q
  x.state == 1 && s.dmaOpen && decide (0 < x.waiting) && decide (x.run.length < 16) &&
    decide (((List.range 64).map (fun n => (s.hq n).run.length)).sum < 256) &&
    decide (x.unread + x.live.length < 2 ^ x.cqLog) && !x.run.any (fun c => c.open_ && c.opc == 6)

/-- It is a queue's turn: no queue between the one served last and it can start a command. Whether a command not yet fetched has FENCE shows
only when it is fetched: a queue with commands in progress may be passed over (R464; DEDUCED: notes/assumptions/57.md). -/
def State.queueTurn (s : State) (q : Nat) : Bool :=
  let k := (q + 63 - s.host.turn) % 64
  (List.range k).all (fun j =>
    let r := (s.host.turn + 1 + j) % 64
    !(s.hasStart r && (s.hq r).run.isEmpty))

/-- A queue may fetch and start its next command: with FENCE, once every earlier command has completed, those run on from before a DISABLE
included. -/
def State.mayStart (s : State) (q : Nat) (raw : List Byte) : Bool :=
  s.hasStart q && s.queueTurn q && (!fenceBit raw || (s.hq q).run.isEmpty)

/-- A repeated command whose recorded completion is ABORTED executes afresh; another gets the recorded completion (R470). `at_`: the address
of its record. -/
def State.runAgain (s : State) (q at_ : Nat) (raw : List Byte) : State :=
  let (s, st, rec) := s.readMem Req.host at_ 32
  if st ≠ 0 then (s.refuseCmd q raw 0x06).recordLost
  else if descF rec 8 1 = 0x0C then s.startCmd q raw
  else s.repeatCmd q raw

/-- A fetched command is sorted by its CMD_ID (R470). -/
def State.sortCmd (s : State) (q : Nat) (raw : List Byte) : State :=
  let x := s.hq q
  let id := descF raw 8 8
  if x.clean then (s.setHq q { x with clean := false, high := id, first := id }).startCmd q raw
  else if id = x.high + 1 then (s.setHq q { x with high := id }).startCmd q raw
  else if x.high < id then s.refuseCmd q raw 0x07
  else if id + 1024 ≤ x.high ∨ id < x.first then s.refuseCmd q raw 0x06
  else if x.run.any (fun c => c.fresh && c.id == id) then s.repeatCmd q raw
  else s.runAgain q (s.recordAddr q id) raw

/-- The next command of a queue is fetched (R464). `raw`: its 64 bytes; `err`: the fetch failed. -/
def execCommandFetch (q : Fin 64) (raw : Vector Byte 64) (err : Bool) (s : State) : Ans :=
  .next (
    let raw := raw.toList
    if !s.mayStart q raw then s
    else if err then s.dmaErr.queueErr q 4
    else
      let s := { s with host := { s.host with turn := q } }
      let x := s.hq q
      (s.setHq q { x with sqHead := (x.sqHead + 1) % 2 ^ 32 }).sortCmd q raw)

/-! ## Operations (R465–R467, R469) -/

/-- STATUS of a package memory fault (R468). -/
def hostStatus (st : Nat) : Nat :=
  if st = St.outOfRange then 0x02 else if st = St.pmemFault then 0x03 else if 16 ≤ st then 0x05 else 0x04

/-- DETAIL of a package memory fault: the code of R105, or POISONED where a read of the host spill area came so (R454). -/
def hostDetail (st : Nat) : Nat := if 16 ≤ st then 4 else st

/-- NOP. -/
def execNop (q : Fin 64) (n : Nat) (s : State) : Ans :=
  .next (match s.openCmd q n 0 with
    | some _ => s.hostEnd q n 0 0 0
    | none => s)

/-- A COPY or FILL has written that many bytes and goes on. -/
def State.movedTo (s : State) (q n done : Nat) : State :=
  let x := s.hq q
  s.setHq q { x with run := x.run.mapIdx (fun i c => if i = n then { c with moved := done } else c) }

/-- Bytes of a command not yet written. -/
def HostCmd.left (c : HostCmd) : Nat := c.len - c.moved

/-- A COPY or FILL has written up to a byte and met a status; without one it ends OK once all LEN bytes are written. -/
def State.copyGoes (s : State) (q n : Nat) (c : HostCmd) (st done : Nat) : State :=
  if st ≠ 0 then s.hostEnd q n (hostStatus st) (hostDetail st) (c.moved + done)
  else if c.moved + done < c.len then s.movedTo q n (c.moved + done)
  else s.hostEnd q n 0 0 c.len

/-- Bytes from the host reach package memory: `data`, the next that the command is to write, and then the host error `err` if it is not 0; with no
error and bytes still to come the command goes on. `errs`: lines that they cover in part and that are found bad (R191). -/
def State.copyHost (s : State) (q n : Nat) (c : HostCmd) (data : List Byte) (errs : LineErrs) (err : Nat) : State :=
  let data := data.take c.left
  let s := s.findRmw (c.dst + c.moved) data.length errs
  let (s, st, done) := s.copyIn (c.dst + c.moved) data 0 (lineCount (c.dst + c.moved) data.length)
  if st = 0 ∧ data.length < c.left ∧ err ≠ 0 then s.dmaErr.hostEnd q n 0x05 err (c.moved + done)
  else s.copyGoes q n c st done

/-- COPY_H2D. `data`: bytes the host returned; `err`: DETAIL of the error that followed them when they are fewer than are left. -/
def execCopyH2d (q : Fin 64) (n : Nat) (data : List Byte) (errs : LineErrs) (err : Fin 5) (s : State) : Ans :=
  .next (match s.openCmd q n 1 with
    | some c => if s.dmaOpen then s.copyHost q n c data errs err else s
    | none => s)

/-- COPY_D2H, to its end or the next `part` bytes of it. `errs`: lines found bad; `err`: DETAIL of a host error after them, 0 for none. -/
def execCopyD2h (q : Fin 64) (n : Nat) (errs : LineErrs) (part : Option Nat) (err : Fin 5) (s : State) : Ans :=
  .next (match s.openCmd q n 2 with
    | some c =>
      if !s.dmaOpen then s else
      let s := s.findErrs errs
      let want := min (part.getD c.left) c.left
      let (s, st, got) := s.copyOut (c.src + c.moved) want [] (lineCount (c.src + c.moved) want)
      let s := s.emit (.hostWrite (c.dst + c.moved) got)
      if st = 0 ∧ err ≠ 0 ∧ want < c.left then s.dmaErr.hostEnd q n 0x05 err (c.moved + got.length)
      else s.copyGoes q n c st got.length
    | none => s)

/-- FILL, to its end or the next `part` bytes of it: eight bytes of ARG0, repeated. `errs`: lines that it covers in part and finds bad. -/
def execHostFill (q : Fin 64) (n : Nat) (errs : LineErrs) (part : Option Nat) (s : State) : Ans :=
  .next (match s.openCmd q n 3 with
    | some c =>
      let data := (((List.range (c.len / 8)).flatMap (fun _ => leBytes 8 c.arg0)).drop c.moved).take (part.getD c.left)
      let s := s.findRmw (c.dst + c.moved) data.length errs
      let (s, st, done) := s.copyIn (c.dst + c.moved) data 0 (lineCount (c.dst + c.moved) data.length)
      s.copyGoes q n c st done
    | none => s)

/-- The descriptors of a POST_TASKS are written into a ring from a count on; the status of the first that fails. -/
def State.postDescs (s : State) (x : Pool) (tail : Nat) (data : List Byte) : Nat → State × Nat
  | 0 => (s, 0)
  | k + 1 =>
    let (s, st) := s.writeMem Req.host (x.headAddr tail) (data.take 128)
    if st ≠ 0 then (s, st) else State.postDescs s x (tail + 1) (data.drop 128) k

/-- POST_TASKS. `data`: the descriptors the host returned; `err`: DETAIL of an error where they are too few. -/
def execPostTasks (q : Fin 64) (n : Nat) (data : List Byte) (err : Fin 5) (s : State) : Ans :=
  .next (match s.openCmd q n 4 with
    | some c =>
      let p := c.arg0 % 4096
      let x := s.pool p
      if x.state ≠ 1 then s.hostEnd q n 0x09 0 0
      else if 2 ^ x.ringLog < x.untaken + c.len then s.hostEnd q n 0x08 0 0
      else if !s.dmaOpen then s
      else if data.length < 128 * c.len then s.dmaErr.hostEnd q n 0x05 err 0
      else
        let (s, st) := s.postDescs x x.tail data c.len
        if st ≠ 0 then s.hostEnd q n (hostStatus st) (hostDetail st) 0
        else (s.doorbell p c.len).hostEnd q n 0 0 c.len
    | none => s)

/-- SIGNAL. -/
def execHostSignal (q : Fin 64) (n : Nat) (s : State) : Ans :=
  .next (match s.openCmd q n 5 with
    | some c =>
      let (s, ok) := s.signal (c.arg0 % 65536) (c.arg1 % 65536) .host 0 0
      s.hostEnd q n (if ok then 0 else 0x0A) 0 0
    | none => s)

/-- The object allows the host's wait that began at GEN `since` (R349). -/
def Obj.allows (b : Obj) (since : Nat) : Bool :=
  if b.kind = 1 then 1 ≤ b.count else if b.kind = 3 then b.isSet else decide (since < b.gen)

/-- A waiting WAIT_SYNC is judged: it ends when the object is IDLE or allows it; a semaphore gives up one count. -/
def State.judgeWait (s : State) (q n : Nat) (c : HostCmd) (since : Nat) : State :=
  let o := c.arg0 % 65536
  let b := s.obj o
  if b.state = 0 then s.hostEnd q n 0x0A 0 0
  else if b.allows since then
    (if b.kind = 1 then s.setObj o { b with count := b.count - 1 } else s).hostEnd q n 0 0 0
  else s

/-- WAIT_SYNC starts to wait, or ends at once. -/
def execWaitSync (q : Fin 64) (n : Nat) (s : State) : Ans :=
  .next (match s.openCmd q n 6 with
    | some c =>
      if c.waitGen.isSome then s else
      let o := c.arg0 % 65536
      let b := s.obj o
      if b.state ≠ 0 ∧ !s.srcAllowed b .host then (s.syncRefuse (objHub o)).hostEnd q n 0x0A 0 0
      else
        let x := s.hq q
        let s := s.setHq q { x with run := x.run.mapIdx (fun i c => if i = n then { c with waitGen := some b.gen, waitAt := s.elapsed } else c) }
        s.judgeWait q n c b.gen
    | none => s)

/-- The object allows the WAIT_SYNC that waits. -/
def execWaitSyncRelease (q : Fin 64) (n : Nat) (s : State) : Ans :=
  .next (match s.openCmd q n 6 with
    | some c => match c.waitGen with
      | some g => s.judgeWait q n c g
      | none => s
    | none => s)

/-- A WAIT_SYNC reaches its limit, in µs from the start of its wait. -/
def execWaitSyncTimeout (q : Fin 64) (n : Nat) (s : State) : Ans :=
  .next (match s.openCmd q n 6 with
    | some c => if c.waitGen.isSome && c.arg1 % 2 ^ 32 != 0 && decide (c.waitAt + 1000 * (c.arg1 % 2 ^ 32) ≤ s.elapsed) then s.hostEnd q n 0x0B 0 0 else s
    | none => s)

/-- A completion is written to the ring, CQ_TAIL advances, the vector is raised (R468). -/
def State.complete (s : State) (q : Nat) (c : HostCmd) (bytes : List Byte) : State :=
  let x := s.hq q
  let s := s.emit (.hostWrite (x.cqBase + 32 * (x.cqTail % 2 ^ x.cqLog)) bytes)
  let s := s.setHq q { s.hq q with cqTail := (x.cqTail + 1) % 2 ^ 32 }
  if c.irq && x.irqEn then s.raiseVector x.vector else s

/-- The n-th command in progress of a queue has ended: it is recorded, and completed where its queue still is enabled. A copy
of a command waits for its end, and is completed with its record and REPLAY set. -/
def execHostCommandDone (q : Fin 64) (n : Nat) (s : State) : Ans :=
  .next (match (s.hq q).run[n]? with
    | none => s
    | some c =>
      let x := s.hq q
      let rest := s.setHq q { x with run := x.run.eraseIdx n }
      if c.orphan then (if c.result.isSome then rest.record q c else s)
      else if !s.dmaOpen then s
      else if c.copy then
        if x.run.any (fun d => d.fresh && d.id == c.id) then s else
        let (s, st, rec) := rest.readMem Req.host (s.recordAddr q c.id) 32
        if st ≠ 0 then s.recordLost else s.complete q c (x.replayOf rec)
      else if c.result.isNone then s
      else
        let s := if c.fresh then rest.record q c else rest
        s.complete q c (x.compOf c))

/-! ## Poisoned TLPs (R454) -/

/-- A poisoned TLP arrives. `kind`: 0 a write to a BAR, 1 a completion to the read of the n-th command of a queue, after
`data` came whole, 2 a completion to the fetch of a queue's next command. -/
def execPoisonedTlp (kind : Fin 3) (q : Fin 64) (n : Nat) (data : List Byte) (s : State) : Ans :=
  .next (
    let s := (s.bump .pcie Reg.PCIE.POISON_RX_COUNT).raise .pcie Evt.PCIE.POISON_RX
    if kind = 0 then s
    else if kind = 2 then (if (s.hq q).state = 1 then s.dmaErr.queueErr q 4 else s)
    else match s.openCmd q n 1, s.openCmd q n 4 with
      | some c, _ => s.copyHost q n c (data.take (c.left - 1)) [] 4
      | none, some _ => s.dmaErr.hostEnd q n 0x05 4 0
      | none, none => s)

/-! ## Vectors, configuration space and resets (R473–R476) -/

/-- The holdoff of a vector ends. -/
def execMsixHoldoffEnd (v : Fin 2048) (s : State) : Ans := .next (s.sendVector v)

/-- A host spill target is DOWN where the package may not use host memory (R223, R474). -/
def State.hostTargetsDown (s : State) : State :=
  (List.range 8).foldl (fun s k => if s.getF .place (Reg.PLACE.TGT_CFG_KIND k) = 2 then s.loseTarget k else s) s

/-- Capabilities of the configuration space (R452). -/
inductive PcieCap where
  | pciExpress
  | powerManagement
  /-- MSI-X: table size, and the BAR and offset of its table and of its pending bit array (R457). -/
  | msix (vectors tableBar table pbaBar pba : Nat)
  | aer
  | deviceSerial
  | secondaryPcie
  | dataLinkFeature
  | physical16
  | physical32
  | physical64
  | flitLogging
  deriving DecidableEq, Repr

/-- A base address register pair: its size, 64-bit and prefetchable type bits, and the address the host has set (R456). -/
structure PcieBar where
  size : Nat
  wide : Bool
  prefetch : Bool
  base : Nat
  deriving DecidableEq, Repr

/-- What the configuration space says the function is (R452, R453, R456). -/
structure ConfigId where
  vendor : Nat
  device : Nat
  revision : Nat
  classCode : Nat
  subVendor : Nat
  subsystem : Nat
  serialLo : Nat
  serialHi : Nat
  caps : List PcieCap
  bar0 : PcieBar
  bar2 : PcieBar
  bar4 : Nat
  bar5 : Nat
  /-- Max payload size and max read request size in bytes, completion timeout range and its disable. -/
  maxPayload : Nat
  maxReadReq : Nat
  timeout : BitVec 4
  timeoutOff : Bool
  deriving DecidableEq, Repr

/-- Identity, capabilities, BARs and host-set fields of the configuration space, as a configuration read returns them (R452, R453, R456). -/
def State.configId (s : State) : ConfigId :=
  { vendor := 0x2B7E, device := 0x9A09, revision := 0xB0, classCode := 0x120000, subVendor := 0x2B7E
    subsystem := if s.getF .pkg Reg.PKG.PART_ORDER = 1 then 0x0001 else 0x0002
    serialLo := s.getF .pkg Reg.PKG.SERIAL_LO_SERIAL, serialHi := s.getF .pkg Reg.PKG.SERIAL_HI_SERIAL
    caps := [.pciExpress, .powerManagement, .msix 2048 0 0x1FFF0000 0 0x1FFF8000, .aer, .deviceSerial, .secondaryPcie, .dataLinkFeature,
      .physical16, .physical32, .physical64, .flitLogging]
    bar0 := ⟨2 ^ 29, true, false, s.host.cfg.bar0.toNat / 2 ^ 29 * 2 ^ 29⟩
    bar2 := ⟨2 ^ 36, true, true, s.host.cfg.bar2.toNat / 2 ^ 36 * 2 ^ 36⟩
    bar4 := 0, bar5 := 0
    maxPayload := 128 * 2 ^ s.host.cfg.payload.val, maxReadReq := 128 * 2 ^ s.host.cfg.readReq.val
    timeout := s.host.cfg.timeout, timeoutOff := s.host.cfg.timeoutOff }

/-- A host configuration write: Bus Master Enable, D3hot, MSI-X function mask, and the fields of R452 and R456. -/
def execConfigSpaceWrite (bme d3hot fnMask : Bool) (cfg : HostCfg) (s : State) : Ans :=
  .next (
    if s.host.crs then s else
    let s := { s with host := { s.host with bme := bme, d3hot := d3hot, fnMask := fnMask, cfg := cfg } }
    let s := s.setF .pcie Reg.PCIE.LINK_DSTATE (if d3hot then 1 else 0)
    (if s.dmaOpen then s else s.hostTargetsDown).flushVectors)

/-- The function's registers of configuration space as an FLR leaves them (R473, R475). -/
def HostSt.cleared (h : HostSt) : HostSt :=
  { h with bme := false, d3hot := false, crs := true, fnMask := false, msixTab := [], msixPend := [], msixLast := [], cfg := hostCfgInit }

/-- Every queue that is not DISABLED stops. -/
def State.queuesStop (s : State) : State :=
  (List.range 64).foldl (fun s q => if (s.hq q).state = 0 then s else s.queueStop q) s

/-- A HOST boot that waits for or verifies a set begins again (R510). -/
def State.bootAgain (s : State) : State :=
  let b := s.getF .pcie Reg.PCIE.BOOT_STAT_STATE
  if b = 1 ∨ b = 2 then
    let s := s.setF .pcie Reg.PCIE.BOOT_STAT_STATE 1
    { s with mg := { s.mg with bootBuf := [] } }
  else s

/-- What an FLR resets (R475, R476). -/
def State.fnReset (s : State) : State :=
  let s := s.queuesStop
  let s := { s with host := s.host.cleared }
  let s := s.setF .pcie Reg.PCIE.LINK_DSTATE 0
  let s := (s.bump .pcie Reg.PCIE.FN_RESETS_COUNT).raise .pcie Evt.PCIE.FN_RESET
  s.bootAgain.hostTargetsDown

/-- The PCIe link goes down. -/
def State.pcieDown (s : State) : State :=
  let s := s.setF .pcie Reg.PCIE.LINK_GEN 0
  let s := s.setF .pcie Reg.PCIE.LINK_WIDTH 0
  (s.setF .pcie Reg.PCIE.LINK_FLIT 0).raise .pcie Evt.PCIE.LINK_DOWN

/-- A Function Level Reset. -/
def execFlr (s : State) : Ans := .next s.fnReset

/-- A hot reset or a link disable: as an FLR, and the link retrains. -/
def execHotReset (s : State) : Ans := .next s.fnReset.pcieDown

/-- PERST_N is asserted: as a hot reset; the controller and PHY restart. -/
def execPerstN (s : State) : Ans := .next s.fnReset.pcieDown

/-- The PCIe link is lost. -/
def execPcieLinkDown (s : State) : Ans := .next s.fnReset.pcieDown

/-- The link reaches L0 at a rate and width. -/
def execPcieLinkUp (gen : Fin 8) (width : Fin 8) (flit : Bool) (s : State) : Ans :=
  .next (
    let s := s.setF .pcie Reg.PCIE.LINK_GEN gen
    let s := s.setF .pcie Reg.PCIE.LINK_WIDTH width
    (s.setF .pcie Reg.PCIE.LINK_FLIT (if flit then 1 else 0)).raise .pcie Evt.PCIE.LINK_UP)

/-- The function accepts configuration requests again. -/
def execFunctionReady (s : State) : Ans := .next { s with host := { s.host with crs := false } }

end Sys2Proof.Machine
end

