-- ==== Sys2Proof/Machine/PowerOps.lean ====
section
/-! DEFINITION. Power control as shared operations: the effective cap (R393), averages of input power (R394), the coolant's cap and floor (R420–R423). -/

namespace Sys2Proof.Machine

open Sys2Proof

/-! ## The effective cap (R393) -/

/-- C, its source, RUN or PARK are resolved from the four caps and two orders, once for the changes of a hub cycle. -/
def State.capResolve (s : State) : State :=
  if s.pw.capWait then s else
  let u := UnitId.hctl
  let g := fun f => s.getF u f
  let caps := [(g Reg.HCTL.CAP_FLOW_WATTS, 3), (g Reg.HCTL.CAP_THERM_WATTS, 2), (g Reg.HCTL.CAP_RACK_WATTS, 1),
    (g Reg.HCTL.CAP_HOST_WATTS, 0)]
  let best := caps.foldl (fun (b : Nat × Nat) x => if x.1 < b.1 then x else b) (g Reg.HCTL.CAP_FLOW_WATTS, 3)
  let src := g Reg.HCTL.CAP_HOST_PARK + 2 * g Reg.HCTL.CAP_RACK_PARK
  let was := g Reg.HCTL.CAP_EFF_WATTS
  let mode := g Reg.HCTL.CAP_EFF_MODE
  let s := s.setF u Reg.HCTL.CAP_EFF_WATTS best.1
  let s := s.setF u Reg.HCTL.CAP_EFF_SOURCE best.2
  let s := s.setF u Reg.HCTL.CAP_EFF_PARK_SRC src
  let s := s.setF u Reg.HCTL.CAP_EFF_MODE (if src = 0 then 0 else 1)
  let s := if best.1 = was then s else
    (s.setPw { s.pw with capAt := s.elapsed, cutAt := if best.1 < was then some s.elapsed else s.pw.cutAt }).raise u Evt.HCTL.CAP_CHANGE
  if (if src = 0 then 0 else 1) = mode then s else s.raise u Evt.HCTL.PARK_CHANGE

/-- A change reaches the hub power controller; with `same`, another one follows in the same hub cycle and resolves C. -/
def State.inCycle (same : Bool) (f : State → State) (s : State) : State :=
  if same then
    let s := f (s.setPw { s.pw with capWait := true })
    s.setPw { s.pw with capWait := false }
  else f s

/-! ## Input power (R389, R394) -/

/-- Average of the last n samples, W; of those there are when there are fewer. -/
def avgWatts (l : List Nat) (n : Nat) : Nat :=
  let l := l.take n
  if l.isEmpty then 0 else l.sum / l.length / 10000

/-! ## Island clocks in PARK (R395, R428) -/

/-- No slot of a tile holds a task. -/
def State.slotsEmpty (s : State) (d : Fin 4) (t : Fin 104) : Bool :=
  (s.tile d t).slot0.isNone && (s.tile d t).slot1.isNone

/-- An active island's clock runs: in PARK a tile with both slots empty stops it, but for the length of a visit. -/
def State.clockRuns (s : State) (d : Fin 4) (t : Fin 104) : Bool :=
  s.tileActive d t && !(s.getF .hctl Reg.HCTL.CAP_EFF_MODE == 1 && s.slotsEmpty d t && !(s.tile d t).visiting)

/-! ## Busy clusters and the forecast of power (R402, R424, R425) -/

/-- Tasks of a cluster's active tiles. -/
def State.clusterTasks (s : State) (d : Fin 4) (c : Nat) : List Task :=
  ((s.islands d).filter (fun (t : Fin 104) => t.val / 8 = c)).flatMap (fun t =>
    ((s.tile d t).slot0.toList ++ (s.tile d t).slot1.toList).filter (fun w => w.start.isSome && w.held.isNone))

/-- Learned PWR and SCALE of a phase; of one not yet learned, the die's present mean PWR and 100 %. -/
def State.learned (s : State) (d phase mean : Nat) : Nat × Nat := s.pw.phases.getD (256 * d + phase) (mean, 100)

/-- Fields of a phase plan entry (R425). -/
def planStart (e : Nat) : Nat := bitsOf e 63 0
def planPhase (e : Nat) : Nat := bitsOf e 95 88
def planTiles (e : Nat) : Nat := bitsOf e 106 100
def planDie (e d : Nat) : Bool := e / 2 ^ (96 + d) % 2 == 1

/-- Drove time at which a plan entry ends. -/
def planEnd (e : Nat) : Nat := planStart e + 1000 * bitsOf e 87 64

/-- Power of the tiles that an entry keeps busy on a die, mW, by the learned PWR of its phase; a die the entry does not name is idle. -/
def State.planWatts (s : State) (d e : Nat) : Nat :=
  if planDie e d then planTiles e * (s.learned d (planPhase e) (s.pw.meanPwr.getD d 0)).1 else 0

/-- Power of a die that the plan forecasts for a drove time, mW: with no entry that covers it, the die is idle. -/
def State.planPower (s : State) (d t : Nat) : Nat :=
  ((s.pw.plan.filter (fun e => decide (planStart e ≤ t ∧ t < planEnd e))).map (s.planWatts d)).sum

/-- Forecast power of a die 5 ms ahead, mW: by the plan in PLAN, and in MODEL the present estimate continues. No task runs before
READY. -/
def State.diePower (s : State) (d : Fin 4) : Nat :=
  if s.getF .hctl Reg.HCTL.FCAST_MODE = 1 then s.planPower d (s.drove + 5000000)
  else 1000 * s.getF (.cdie d) Reg.CDIE.PWR_EST_WATTS

/-- Average power of the compute dies that the plan forecasts for the coming 1 s, mW. -/
def State.planAhead (s : State) : Nat :=
  ((List.range 4).map (fun d => (s.pw.plan.map (fun e =>
    s.planWatts d e * (min (planEnd e) (s.drove + 1000000000) - max (planStart e) s.drove))).sum)).sum / 1000000000

/-! ## The limits of R394 -/

/-- Energy of n samples that a power in W gives, in the samples' unit. -/
def sampleSum (w n : Nat) : Nat := 10000 * w * n

/-- The average of the last n samples, of those there are when there are fewer, exceeds a power in W. -/
def overWatts (l : List Nat) (n w : Nat) : Bool := decide (sampleSum w (l.take n).length < (l.take n).sum)

/-- Power in mW that the coming 100 µs may average with the 1 s account within C: the account holds the samples since the last change of C,
at most those of a window of 1 s (R394). -/
def State.accountMw (s : State) : Nat :=
  let n := min 999900 ((s.elapsed - s.pw.capAt) / 1000)
  (sampleSum (s.getF .hctl Reg.HCTL.CAP_EFF_WATTS) 1000000 - (s.pw.samples.take n).sum) / 1000

/-- The package power that R394 allows now, mW; `others`, measured power of what is no compute die, W. Within 1 s of a reduction of C it is C;
while the account forecast for the coming 1 s would be overdrawn it is C; else what the account leaves, up to 3,000 W (DEDUCED:
notes/assumptions/56.md). The forecast is the plan's in PLAN, and the present 1 ms power in MODEL (R424). -/
def State.capLimit (s : State) (others : Nat) : Nat :=
  let c := 1000 * s.getF .hctl Reg.HCTL.CAP_EFF_WATTS
  let ahead := if s.getF .hctl Reg.HCTL.FCAST_MODE = 1 then s.planAhead + 1000 * others else 1000 * avgWatts s.pw.samples 1000
  let cut := match s.pw.cutAt with
    | some t => decide (s.elapsed < t + 1000000000)
    | none => false
  min 3000000 (if cut || c < ahead then min c s.accountMw else s.accountMw)

/-! ## Coolant (R418–R423) -/

/-- F_full at an inlet in 0.01 °C, as mL/min × 1,500; above 45 °C a free value. -/
def State.fullFlow (s : State) (inlet : Int) : Nat :=
  if inlet ≤ 3000 then 1200 * 1500
  else if inlet ≤ 4500 then 1200 * 1500 + 400 * (inlet - 3000).toNat
  else 1 + Config.freeNat s.freeCtr

/-- The two limits of R420 at a flow in mL/min and an inlet. -/
def State.flowCap (s : State) (flow : Nat) (inlet : Int) : Nat :=
  let full := s.fullFlow inlet
  let byFlow := if full ≤ flow * 1500 then 2400 else 2400 * flow * 1500 / full
  let byInlet := if inlet ≤ 4500 then 2400 else ((240000 - 150 * (inlet - 4500)) / 100).toNat
  max 600 (min byFlow byInlet)

/-- The inferred flow P / (c_v × ΔT), mL/min; how it is rounded, and its value with ΔT not above 0, are free values. -/
def State.inferFlow (s : State) (inlet outlet : Int) : Nat × State :=
  let p := s.getF .hctl Reg.HCTL.PWR_LEVEL_WATTS * 6000000
  let c := s.getF .hctl Reg.HCTL.COOL_CFG_HEAT_CAP * (outlet - inlet).toNat
  let free := Config.freeNat s.freeCtr
  (if outlet ≤ inlet then free % 65536 else min 65535 (p / c + (if p % c = 0 then 0 else free % 2)), s.tickFree)

/-- CAP_FLOW is set and C follows. -/
def State.setCapFlow (s : State) (w : Nat) : State := (s.setF .hctl Reg.HCTL.CAP_FLOW_WATTS w).capResolve

/-- The emergency floor takes effect with a cause (R421); forecasts are in MODEL (R424). -/
def State.floorOn (s : State) (cause : Nat) : State :=
  let u := UnitId.hctl
  let s := s.setPw { s.pw with coolRun := 0, flowRamp := true }
  if s.isSet u Reg.HCTL.COOL_STAT_FLOOR then s else
  let s := s.setF u Reg.HCTL.COOL_STAT_FLOOR 1
  let s := s.setF u Reg.HCTL.COOL_STAT_FLOOR_CAUSE cause
  let s := s.setF u Reg.HCTL.ALERT_STAT_FLOOR 1
  ((s.raise u Evt.HCTL.FLOOR).setFcast 0).setCapFlow 600

/-- The floor condition a flow in use and an inlet meet: 0 none. -/
def State.floorCause (s : State) (flow : Nat) (inlet : Int) : Nat :=
  let top := (s.pw.coolFlows.map Prod.snd).foldl max 0
  if flow < 800 then 1 else if 2 * flow < top then 2 else if 5500 ≤ inlet then 4 else 0

/-- CAP_FLOW follows the flow in use: at once, or, after a floor or reset, up by at most 100 W a report, which come every
10 ms (R420, R422). -/
def State.followFlow (s : State) (flow : Nat) (inlet : Int) (report : Bool) : State :=
  let s' := if 4500 < inlet then s.tickFree else s
  let goal := s.flowCap flow inlet
  let s := s'
  let now := s.getF .hctl Reg.HCTL.CAP_FLOW_WATTS
  if s.pw.flowRamp && now < goal then
    if !report then s else
    let s := s.setPw { s.pw with flowRamp := decide (now + 100 < goal) }
    s.setCapFlow (min goal (now + 100))
  else (s.setPw { s.pw with flowRamp := false }).setCapFlow goal

/-- The flow in use is judged: floor conditions first, then the cap (R420–R422). `report`: a valid report brings it. -/
def State.useFlow (s : State) (flow : Nat) (inlet : Int) (report : Bool) : State :=
  let u := UnitId.hctl
  let cause := s.floorCause flow inlet
  if cause ≠ 0 then s.floorOn cause
  else
    let s := if report then
        s.setPw { s.pw with coolRun := s.pw.coolRun + 1, coolSince := if s.pw.coolRun = 0 then s.elapsed else s.pw.coolSince }
      else s
    if s.isSet u Reg.HCTL.COOL_STAT_FLOOR then
      if 100 ≤ s.pw.coolRun && s.pw.coolSince + 1000000000 ≤ s.elapsed then
        let s := s.setF u Reg.HCTL.COOL_STAT_FLOOR 0
        let s := s.setF u Reg.HCTL.COOL_STAT_FLOOR_CAUSE 0
        let s := s.setF u Reg.HCTL.ALERT_STAT_FLOOR 0
        (s.setPw { s.pw with quietAt := s.elapsed }).followFlow flow inlet report
      else s
    else if s.pw.coolRun < 3 && s.pw.flowRamp && s.getF u Reg.HCTL.CAP_FLOW_WATTS == 600 then s
    else s.followFlow flow inlet report

end Sys2Proof.Machine
end

