-- ==== Sys2Proof/Machine/PlaceOps.lean ====
section
/-! DEFINITION. The placement director: requests (R203–R208), frees, epochs, heat and candidates (R211, R212), the end of
a move (R213), guests (R221, R222). -/

namespace Sys2Proof.Machine

open Sys2Proof

/-! ## Freeing (R207) -/

/-- Lines of a frame leave its channel's UE table (R191). -/
def State.clearFrameUe (s : State) (id : Nat) : State :=
  let s := { s with mm := { s.mm with ue := s.mm.ue.delRange (id * 2 ^ 15) ((id + 1) * 2 ^ 15) } }
  s.setF (chanUnit (frameChan id)) Reg.MCHN.UE_TAB_USED (s.mm.ue.filter (fun e => e.1 / 2 ^ 27 == frameChan id)).length

/-- A frame has no page any more: its listed lines go, it is zeroed, and it retires if it was waiting to. -/
def State.leaveFrame (s : State) (id : Nat) : State :=
  let c := frameChan id
  let s := s.clearFrameUe id
  let s := if s.chanState c = 2 || s.chanState c = 3 then s.zeroFrame id else s
  (s.tryRetire id).drainStep c

/-- Bytes of a page are gone. -/
def State.dropBytes (s : State) : PgRef → State
  | .own p => { s with mm := { s.mm with mem := s.mm.mem.delRange (p * 2 ^ 21) ((p + 1) * 2 ^ 21) } }
  | .guest k => { s with mm := { s.mm with guestMem := s.mm.guestMem.delRange (k * 2 ^ 21) ((k + 1) * 2 ^ 21) } }

/-- Free a page (R207): its move is abandoned, its frame zeroed, its guest frame at a peer released. -/
def State.freePage (s : State) (r : PgRef) : State :=
  let s := s.abandonMove r
  let p := s.pg r
  let s := (s.setPg r .free).dropBytes r
  let s := match r with
    | .own n => { s with mm := { s.mm with xlat := s.mm.xlat.filter (fun e => e.1 % 2 ^ 20 ≠ n) } }
    | .guest _ => s
  match p.frame?, p.place, r with
  | some id, _, _ => s.leaveFrame id
  | none, .peer k, .own n => s.guestSend 2 n k
  | _, _, _ => s

/-- Free several pages. -/
def State.freePages (s : State) (l : List PgRef) : State := (l.foldl State.freePage s).placeCounts

/-! ## Requests (R203–R210, R216) -/

/-- Pages of a request. -/
def PlaceReq.pages (q : PlaceReq) : List Nat := (List.range q.count).map (· + q.page)

/-- The check of R204. A request that fails several of its checks ends with the status of the first of this order: the OP, the
fence, the range, the pin, SPILL_FIRST, and then IN_USE or NOT_ALLOC. R204 gives them no order: the model's choice (DESIGN
CHOICE: notes/assumptions/54.md). -/
def State.reqCheck (s : State) (q : PlaceReq) : Nat :=
  let ranged := q.op = 1 || q.op = 2 || q.op = 3
  if 6 ≤ q.op then 6
  else if (q.op = 1 || q.op = 3) && s.fenced then 7
  else if ranged && (q.count < 1 || 65536 < q.count || 2 ^ 20 < q.page + q.count) then 5
  else if (q.op = 1 || q.op = 3) && q.pin = 3 then 6
  else if q.op = 1 && q.spillFirst && q.pin ≠ 0 then 6
  else if q.op = 1 && q.pages.any (fun p => (s.page p).st ≠ .free) then 3
  else if (q.op = 2 || q.op = 3) && q.pages.any (fun p => (s.page p).st = .free) then 4
  else 0

/-- The running request becomes another. -/
def State.setReq (s : State) (q : PlaceReq) : State := { s with mm := { s.mm with req := some q } }

/-- A request is to end with a status and a count. -/
def State.reqEnd (s : State) (q : PlaceReq) (st n : Nat) : State := s.setReq { q with status := some st, doneOut := n }

/-- Start up to n spills (R215–R217). -/
def State.spillMany (s : State) : Nat → State
  | 0 => s
  | n + 1 => match s.spillOne with
    | some s => State.spillMany s n
    | none => s

/-- Frames are on their way: a spill is moving or a frame is being zeroed. -/
def State.framesComing (s : State) : Bool := 0 < s.spilling || !s.mm.zeroing.isEmpty

/-- An ALLOC whose pages go to frames: it can end, waits for frames, spills, or fails (R209, R210, R216). `first`: this is
the check, at which frames being zeroed do not count and are not waited for. -/
def State.allocStep (s : State) (q : PlaceReq) (first : Bool) : State :=
  if q.pin = 2 then
    let n := s.freeOnDie q.die
    if q.count ≤ n then s.reqEnd q 0 q.count else s.reqEnd q 1 n
  else
    let f := s.freeFrames
    if q.count ≤ f then s.reqEnd q 0 q.count
    else if !first && s.framesComing then s
    else
      let need := q.count - f
      let left := s.allowance - s.spillCount
      let v := s.victims.length
      let room := s.totalRoom
      if left < need || v < need then s.reqEnd q 1 (f + min left v)
      else if room < need then s.reqEnd q 2 (f + room)
      else s.spillMany need

/-- Pages of an ALLOC with SPILL_FIRST take their places at the targets: a peer is asked for a guest frame. -/
def State.spotAll (s : State) (q : PlaceReq) : List Nat → State
  | [] => s.setReq (if q.status.isNone && q.wait.isEmpty then { q with status := some 0, doneOut := q.count } else q)
  | p :: ps =>
    let full := fun (s : State) => s.reqEnd q 2 (q.spots.length - q.wait.length)
    match s.pickTarget with
    | none => full s
    | some k =>
      let (pl, s) := s.targetPlace k
      let peer := match pl with | .peer _ => true | _ => false
      if peer && !s.guestOpen k then full (s.targetDown k) else
      let q := { q with spots := q.spots.put p pl, wait := if peer then q.wait ++ [p] else q.wait }
      State.spotAll ((if peer then s.guestSend 1 p k else s).setReq q) q ps

/-- An ALLOC with SPILL_FIRST is checked and its pages asked for (R210, R216). -/
def State.spillFirstStart (s : State) (q : PlaceReq) : State :=
  let left := s.allowance - s.spillCount
  if left < q.count then s.reqEnd q 1 left
  else if s.totalRoom < q.count then s.reqEnd q 2 s.totalRoom
  else (s.setReq q).spotAll q q.pages

/-- The die of a LOCAL page's frame. -/
def Page.homeDie (p : Page) : Nat := match p.frame? with | some id => chanDie (frameChan id) | none => 4

/-- A pin demands a move of a page (R208). -/
def pinMoves (q : PlaceReq) (p : Page) : Bool :=
  ((p.st = .spilled || p.st = .spilledHost) && q.pin ≠ 0) || (p.st = .loc && q.pin = 2 && p.homeDie ≠ q.die)

/-- Victims whose spill helps a pin: any but the page itself; those of the die for PIN DIE. -/
def State.pinVictims (s : State) (q : PlaceReq) (page : Nat) : List (Nat × Page) :=
  s.victims.filter (fun v => v.1 ≠ page && (q.pin ≠ 2 || v.2.homeDie == q.die))

/-- Go on with a SET_PIN, in ascending page number (R208): a page takes its pin once it is where the pin wants it, and a move
that is abandoned is made again. The argument bounds the pages. -/
def State.pinStep (s : State) : Nat → State
  | 0 => s
  | n + 1 => match s.mm.req with
    | none => s
    | some q =>
      if q.status.isSome then s
      else if q.count ≤ q.done then s.reqEnd q 0 q.count
      else
        let page := q.page + q.done
        let p := s.page page
        let pinned := fun (s : State) =>
          (s.setPg (.own page) { s.page page with pin := q.pin, die := q.die }).setReq { q with done := q.done + 1 }
        -- a move in progress is waited for, and so is the write of a listed line (R193, R208)
        if p.move.isSome then s
        else if !pinMoves q p then (pinned s).pinStep n
        else if s.pageListed p then s
        else match s.takeFrame (if q.pin = 2 then [q.die] else dieOrder q.die) with
          | some (id, s) => s.startMove (.own page) (.frame id) .pin
          | none =>
            if s.framesComing then s
            else match s.spillBar (s.pinVictims q page) with
              | some st => s.reqEnd q st q.done
              | none => (s.spillFrom (s.pinVictims q page)).getD s

/-- A request is checked and begun (R204–R210). -/
def State.reqServe (s : State) (q : PlaceReq) : State :=
  let q := { q with waiting := false }
  let st := s.reqCheck q
  if st ≠ 0 then s.reqEnd q st 0
  else match q.op with
    | 1 => if q.spillFirst then s.spillFirstStart q else (s.setReq q).allocStep q true
    | 2 => s.reqEnd q 0 q.count
    | 3 => (s.setReq q).pinStep (2 * q.count + 2)
    | 4 => s.reqEnd q 0 1
    | _ => s.reqEnd q 0 s.mm.guests.length

/-- Go on with the running request; a hub controller restart holds it (R485), and so does its handover (R525). -/
def State.reqStep (s : State) : State :=
  match s.mm.req with
  | none => s
  | some q =>
    if q.status.isSome || s.hcAway then s
    else if q.waiting then s.reqServe q
    else if q.op = 3 then s.pinStep (2 * q.count + 2)
    else if q.op = 1 && !q.spillFirst then s.allocStep q false
    else s

/-- Start a request (R203); ignored while one runs. During a hub controller restart it waits (R485). -/
def State.reqStart (s : State) (op pin die : Nat) (spillFirst : Bool) : State :=
  if !s.pageOpen .place || s.isSet .place Reg.PLACE.REQ_STAT_BUSY then s else
  let s := s.setF .place Reg.PLACE.REQ_CTL_OP op
  let s := s.setF .place Reg.PLACE.REQ_CTL_PIN pin
  let s := s.setF .place Reg.PLACE.REQ_CTL_DIE die
  let s := s.setF .place Reg.PLACE.REQ_CTL_SPILL_FIRST (if spillFirst then 1 else 0)
  let s := s.setF .place Reg.PLACE.REQ_STAT_BUSY 1
  let q : PlaceReq := ⟨op, s.getF .place Reg.PLACE.REQ_PAGE_PAGE, s.getF .place Reg.PLACE.REQ_COUNT_COUNT, pin, die,
    spillFirst, 0, none, 0, [], [], false, s.hcAway⟩
  if s.hcAway then s.setReq q else s.reqServe q

/-- Place the pages of an ALLOC in frames (R209). -/
def State.allocPages (s : State) (q : PlaceReq) : State :=
  q.pages.foldl (fun s p =>
    match s.takeFrame (if q.pin = 2 then [q.die] else dieOrder q.die) with
    | some (id, s) => (s.setPg (.own p) { Page.free with
        st := .loc, pin := q.pin, die := q.die, place := .frame id }).dropBytes (.own p)
    | none => s) s

/-- Place the pages of an ALLOC with SPILL_FIRST at their targets; a host slot is written with zeros (R217). -/
def State.allocSpots (s : State) (q : PlaceReq) : State :=
  q.spots.foldl (fun s e =>
    let host := match e.2 with | .host _ _ => true | _ => false
    let s := (s.setPg (.own e.1) { Page.free with
      st := if host then .spilledHost else .spilled, pin := q.pin, die := q.die, place := e.2 }).dropBytes (.own e.1)
    match e.2 with
    | .host _ i => s.emit (.hostZero (s.getPair .place Reg.PLACE.HOST_AREA_LO Reg.PLACE.HOST_AREA_HI + i * 2 ^ 21) (2 ^ 21))
    | _ => s) s

/-- Release the guest frames that peers have granted for a request that fails. -/
def State.releaseSpots (s : State) (q : PlaceReq) : State :=
  q.spots.foldl (fun s e => match e.2 with
    | .peer k => if q.wait.contains e.1 then s else s.guestSend 2 e.1 k
    | _ => s) s

/-- A field the record of a page has, or a free value where the spec gives it none. -/
def State.pickF (s : State) (f : Fld) (v : Option Nat) : State :=
  match v with
  | some v => s.setF .place f v
  | none => (s.setF .place f (Config.freeNat s.freeCtr % (f.max + 1))).tickFree

/-- QUERY loads the Q_ registers with the record of a page. -/
def State.loadQ (s : State) (page : Nat) : State :=
  let p := s.page page
  let st := match p.st with
    | .free => 0 | .loc => 1 | .moving => 2 | .spilled => 3 | .spilledHost => 4 | .lost => 5 | .unreachable => 6
  let held := match p.place, p.st with
    | _, .free => none | .peer t, _ => some t | .host t _, _ => some t | .frame _, _ => none
  let frame := match p.st with
    | .loc | .moving => p.frame?
    | _ => none
  let s := s.setF .place Reg.PLACE.Q_STATE_STATE st
  let s := s.pickF Reg.PLACE.Q_STATE_PIN (if p.st = .free then none else some p.pin)
  let s := s.pickF Reg.PLACE.Q_STATE_DIE (if p.st = .free || p.pin ≠ 2 then none else some p.die)
  let s := s.pickF Reg.PLACE.Q_STATE_TARGET held
  let s := s.pickF Reg.PLACE.Q_FRAME_FRAME_ID frame
  let s := s.setF .place Reg.PLACE.Q_HEAT0_C0 p.heat.c0
  let s := s.setF .place Reg.PLACE.Q_HEAT0_C1 p.heat.c1
  let s := s.setF .place Reg.PLACE.Q_HEAT1_C2 p.heat.c2
  let s := s.setF .place Reg.PLACE.Q_HEAT1_C3 p.heat.c3
  let s := s.setF .place Reg.PLACE.Q_HEAT2_HOST p.heat.host
  let s := s.setF .place Reg.PLACE.Q_HEAT2_REMOTE p.heat.remote
  s.setF .place Reg.PLACE.Q_TOPREM_FID p.topRem

/-- What a request that ends with OK does. -/
def State.reqEffect (s : State) (q : PlaceReq) : State :=
  match q.op with
  | 1 => if q.spillFirst then s.allocSpots q else s.allocPages q
  | 2 => s.freePages (q.pages.map .own)
  | 4 => s.loadQ q.page
  | 5 => s.freePages (s.mm.guests.keys.map .guest)
  | _ => s

/-- A request ends (R203): effect, REQ_DONE and REQ_SHORT, STATUS, BUSY, ALLOC_FAIL. -/
def State.reqFinish (s : State) (q : PlaceReq) (st : Nat) : State :=
  let n := if q.op = 5 && st = 0 then s.mm.guests.length else q.doneOut
  let s := { s with mm := { s.mm with req := none } }
  let s := if st = 0 then s.reqEffect q else if q.op = 1 && q.spillFirst then s.releaseSpots q else s
  let short := if q.op = 1 && (st = 1 || st = 2) then q.count - q.doneOut else 0
  let s := s.setF .place Reg.PLACE.REQ_DONE_PAGES n
  let s := s.setF .place Reg.PLACE.REQ_SHORT_PAGES short
  let s := s.setF .place Reg.PLACE.REQ_STAT_STATUS st
  let s := s.setF .place Reg.PLACE.REQ_STAT_BUSY 0
  (if st = 0 then s else s.raise .place Evt.PLACE.ALLOC_FAIL).placeCounts

/-- The frames an ALLOC counted on are still free. -/
def State.reqReady (s : State) (q : PlaceReq) : Bool :=
  q.op ≠ 1 || q.spillFirst || decide (q.count ≤ (if q.pin = 2 then s.freeOnDie q.die else s.freeFrames))

/-- End the running request if its work is done; an ALLOC whose frames have gone meanwhile goes on. -/
def State.reqDone (s : State) : State :=
  let s := s.reqStep
  match s.mm.req with
  | none => s
  | some q => if s.hcAway then s else match q.status with
    | none => s
    | some 0 => if s.reqReady q then s.reqFinish q 0 else s.setReq { q with status := none }
    | some st => s.reqFinish q st

/-! ## Counting (R211) -/

/-- A page's translation is invalidated in every cache (R178, R213). -/
def State.invalidate (s : State) (page : Nat) : State :=
  (List.range 6).foldl (fun s c => s.flushEntry (c * 2 ^ 20 + page)) s

/-- Counts of every cache reach the director, and the caches' counts restart at 0; the entries stay. -/
def State.flushAll (s : State) : State :=
  s.mm.xlat.keys.foldl (fun s k =>
    let s := s.flushEntry k
    { s with mm := { s.mm with xlat := s.mm.xlat.put k ⟨.zero, []⟩ } }) s

/-- The remote package of most accesses, ties to the lower fabric ID. -/
def topOf (m : Map Nat) : Option Nat :=
  (m.foldl (fun b e => match b with
    | none => some e
    | some x => if x.2 < e.2 then some e else some x) none).map Prod.fst

/-- Heat at an epoch end: H ← ⌊H / 2⌋ + n. After an epoch without accesses of a remote package the page keeps the fabric ID it had,
for R211 names none: the model's choice (DESIGN CHOICE: notes/assumptions/54.md). -/
def Page.epoch (p : Page) : Page :=
  let h := p.heat
  let n := p.cnt
  { p with
    heat := ⟨h.c0 / 2 + n.c0, h.c1 / 2 + n.c1, h.c2 / 2 + n.c2, h.c3 / 2 + n.c3, h.host / 2 + n.host,
      h.remote / 2 + n.remote⟩
    cnt := .zero, byFid := [], topRem := (topOf p.byFid).getD p.topRem
    g0 := p.g0 / 2 + p.n0, g1 := p.g1 / 2 + p.n1, n0 := 0, n1 := 0 }

/-! ## Candidates (R212, R221) -/

/-- Heat of a compute die. -/
def Counts.ofDie (c : Counts) (d : Nat) : Nat :=
  match d with | 0 => c.c0 | 1 => c.c1 | 2 => c.c2 | _ => c.c3

/-- The compute die with the greatest heat; ties go to the home die, then to the lowest number. -/
def bestDie (h : Counts) (home : Nat) : Nat :=
  let start := if home < 4 then home else 0
  (List.range 4).foldl (fun b d => if h.ofDie b < h.ofDie d then d else b)
    (if home < 4 then start else 0)

/-- A candidate move. -/
structure Cand where
  ref : PgRef
  page : Nat
  gain : Nat
  /-- Dies to look for a frame on. -/
  dies : List Nat
  /-- A promotion that must be a swap. -/
  swap : Bool
  deriving DecidableEq, Repr

/-- The rule of R212 for heats of the best and the home side. -/
def State.heatRule (s : State) (hb hd : Nat) : Bool :=
  decide (s.getF .place Reg.PLACE.MIG_RULE_MIN ≤ hb ∧ s.getF .place Reg.PLACE.MIG_RULE_RATIO * hd ≤ 8 * hb)

/-- Dies beside a hub. -/
def hubDies (h : Nat) : List Nat := if h = 0 then [0, 1] else [2, 3]

/-- The candidates of an epoch end, highest gain first, ties in ascending page number. A guest page is in no page space of the
lender, and R221 gives it no number to be ranked by: it is the owner's, and an own page of the same number comes first (DESIGN
CHOICE: notes/assumptions/54.md). -/
def State.candidates (s : State) : List Cand :=
  let own := s.mm.pages.filterMap (fun e =>
    let p := e.2
    if p.st = .loc && (p.pin = 0 || p.pin = 1) && !s.pageListed p then
      let d := p.homeDie
      let b := bestDie p.heat d
      if b ≠ d && s.heatRule (p.heat.ofDie b) (p.heat.ofDie d) then
        some (⟨.own e.1, e.1, p.heat.ofDie b - p.heat.ofDie d, [b], false⟩ : Cand)
      else none
    else if p.st = .spilled || p.st = .spilledHost then
      let b := bestDie p.heat 4
      let t := p.heat.total
      if t < s.getF .place Reg.PLACE.MIG_RULE_MIN then none
      else if 0 < s.freeFrames then some ⟨.own e.1, e.1, t, [b], false⟩
      else match s.victims.head? with
        | some v =>
          if s.getF .place Reg.PLACE.MIG_RULE_RATIO * v.2.heat.total ≤ 8 * t then
            some ⟨.own e.1, e.1, t - v.2.heat.total, [], true⟩
          else none
        | none => none
    else none)
  let guests := s.mm.guests.filterMap (fun e =>
    let p := e.2
    if p.st = .loc && !s.pageListed p then
      let h := p.homeDie / 2
      let gh := if h = 0 then p.g0 else p.g1
      let go := if h = 0 then p.g1 else p.g0
      if s.heatRule go gh then
        some (⟨.guest e.1, e.1 % 2 ^ 20, go - gh, hubDies (1 - h), false⟩ : Cand)
      else none
    else none)
  (own ++ guests).mergeSort (fun a b => decide (b.gain < a.gain) || (a.gain == b.gain && decide (a.page ≤ b.page)))

/-- Start one candidate; none where it cannot be started now. -/
def State.startCand (s : State) (c : Cand) : Option State :=
  if c.swap then
    match s.victims.head?, s.pickTarget with
    | some v, some k =>
      match v.2.frame? with
      | some id =>
        if s.getF .place Reg.PLACE.MIG_RULE_RATIO * v.2.heat.total ≤ 8 * (s.pg c.ref).heat.total then
          let (pl, s) := s.targetPlace k
          let s := s.startMove (.own v.1) pl .swap
          some (if (s.page v.1).move.isSome then s.startMove c.ref (.frame id) .promote else s)
        else none
      | none => none
    | _, _ => none
  else match s.takeFrame c.dies with
    | some (id, s) => some (s.startMove c.ref (.frame id)
        (if (s.pg c.ref).st = .loc then .migrate else .promote))
    | none => none

/-- Start candidates in order while their bytes stay within the epoch's budget; the rest are counted in MIG_DEFER. -/
def State.startCands (s : State) (budget : Nat) : List Cand → State
  | [] => s
  | c :: cs =>
    let size := if c.swap then 2 ^ 22 else 2 ^ 21
    if budget < s.mm.epochBytes + size then s.bumpBy .place Reg.PLACE.MIG_DEFER_COUNT (cs.length + 1)
    else match s.startCand c with
      | some s => State.startCands { s with mm := { s.mm with epochBytes := s.mm.epochBytes + size } } budget cs
      | none => State.startCands (s.bump .place Reg.PLACE.MIG_DEFER_COUNT) budget cs

/-- An epoch ends (R211, R212); during a hub controller restart no move is started (R485). -/
def State.epochEnd (s : State) : State :=
  let s := s.flushAll
  let s := { s with mm := { s.mm with
      pages := s.mm.pages.map (fun (e : Nat × Page) => (e.1, e.2.epoch))
      guests := s.mm.guests.map (fun (e : Nat × Page) => (e.1, e.2.epoch))
      epochBytes := 0 } }
  if s.hcAway then s else
  s.startCands (s.getF .place Reg.PLACE.MIG_BUDGET_GBPS * 1000 * s.getF .place Reg.PLACE.EPOCH_US) s.candidates

/-! ## Passes and ends of moves (R213, R214) -/

/-- Lines a copy of a page reads bad become known; true when one is uncorrectable, or was listed before. One that a peer reports
loses the page (R202). -/
def State.copyErrs (s : State) (r : PgRef) (errs : LineErrs) : State × Bool :=
  let bad := errs.any (fun e => e.2 == .uncorrectable)
  match (s.pg r).frame? with
  | none => match (s.pg r).away? with
    | some (.peer _) => if bad then (s.losePage r, true) else (s, false)
    | _ => (s, false)
  | some id =>
    let s := errs.foldl (fun s (e : Nat × LineErr) => s.frameErr id (e.1 % 2 ^ 21 / 64) e.2) s
    (s, bad || s.frameListed id)

/-- Lines copied count as bytes read and written by the channels of the two frames (R197). -/
def State.copyBytes (s : State) (p : Page) (m : Move) (lines : Nat) : State :=
  let s := match p.frame? with
    | some id => s.addPair (chanUnit (frameChan id)) Reg.MCHN.RD_BYTES_LO Reg.MCHN.RD_BYTES_HI (64 * lines)
    | none => s
  match m.dest with
  | .frame id => s.addPair (chanUnit (frameChan id)) Reg.MCHN.WR_BYTES_LO Reg.MCHN.WR_BYTES_HI (64 * lines)
  | _ => s

/-- A move has been abandoned, or a target is DOWN: drains that waited for the move and the running request go on (R195, R224). -/
def State.placeGoOn (s : State) : State := s.drainAll.reqStep

/-- A copy pass ends, its packets acknowledged: the next pass, or the hold when at most 64 lines are marked or three passes
have run. -/
def State.passDone (s : State) (r : PgRef) (errs : LineErrs) : State :=
  match (s.pg r).move with
  | none => s
  | some m =>
    if !m.granted || 4 ≤ m.pass || s.spillBusy r then s else
    let (s, bad) := s.copyErrs r errs
    if bad then (s.abandonMove r).placeGoOn else
    let p := s.pg r
    match p.move with
    | none => s.placeGoOn
    | some m =>
      let s := s.copyBytes p m (if m.pass = 1 then 32768 else m.todo.length)
      let next := if m.pass = 3 || m.marked.length ≤ 64 then 4 else m.pass + 1
      let s := s.setPg r { p with move := some { m with
        pass := next, todo := m.marked, marked := [] } }
      s.copyMarked r m.marked

/-- State of a page at rest in a place. -/
def Place.rest : Place → PageSt
  | .frame _ => .loc
  | .peer _ => .spilled
  | .host _ _ => .spilledHost

/-- The hold of a move ends: the map switches, the old place is left, MOVES counts (R213). -/
def State.moveDone (s : State) (r : PgRef) : State :=
  let p := s.pg r
  match p.move with
  | none => s
  | some m =>
    let free := match m.dest with
      | .frame id => (s.pageOfFrame id).isNone && !s.mm.zeroing.getD id false
      | _ => true
    if !m.granted || m.pass ≠ 4 || !free || s.spillBusy r then s else
    let s := s.copyBytes p m m.todo.length
    let s := match r with | .own n => s.invalidate n | .guest _ => s
    let p := s.pg r
    let old := p.frame?
    let s := s.setPg r { p with st := m.dest.rest, place := m.dest, move := none }
    let s := match m.dest, r with
      | .host _ i, .own n =>
        s.emit (.hostPage (s.getPair .place Reg.PLACE.HOST_AREA_LO Reg.PLACE.HOST_AREA_HI + i * 2 ^ 21) n)
      | _, _ => s
    let s := match p.place, r with
      | .peer k, .own n => s.guestSend 2 n k
      | _, _ => s
    let s := s.releaseHeld m m.dest
    let s := s.addPair .place Reg.PLACE.MOVES_LO Reg.PLACE.MOVES_HI 1
    let s := match old, m.why, m.dest with
      | some id, .retire, .frame d => (s.retireFrame id d).retireWaiting (frameChan id)
      | some id, _, _ => s.leaveFrame id
      | none, _, _ => s
    let s := match old with
      | some id => s.drainStep (frameChan id)
      | none => s
    s.placeCounts.reqStep

/-- The firmware of the hub controller serves again: retirements, drains and the request that waited go on (R485). -/
def State.hcBack (s : State) : State :=
  let s := s.mm.toRetire.keys.foldl State.tryRetire s
  s.drainAll.reqStep

/-- An access or a copy of an own page at a spill target has ended with a status: MEM_UE from its holder loses the page (R202),
one that shows it gone puts the target DOWN (R223), and a copy that its destination refuses is abandoned (R214). -/
def State.spillEnd (s : State) (page st : Nat) : State :=
  let p := s.page page
  if st = 0 then s else
  let gone := st = St.pmemFault || st = St.destFenced
  (match p.away? with
  | some (.peer k) => if st = St.memUe then s.losePage (.own page) else if gone then s.targetDown k else s
  | _ => match p.move with
    | some m => (match m.dest with
      | .peer k => if gone then s.targetDown k else s.abandonMove (.own page)
      | _ => s)
    | none => s).placeGoOn

/-! ## Guests (R221) -/

/-- A free frame by rotation over the channels of all four dies. -/
def State.takeAny (s : State) : Option (Nat × State) :=
  let start := (s.mm.lastChan.find 4).elim 0 (· + 1)
  (List.range 192).findSome? (fun i =>
    let c := (start + i) % 192
    (s.firstFree c).map (fun id => (id, s.gotPage c)))

/-- A GUEST request of an owner is carried out: the status it is answered with. A refusal's code is a free value other
than OK. -/
def State.guestServe (s : State) (owner page op : Nat) : State × Nat :=
  let k := owner * 2 ^ 20 + page
  if op = 1 then
    if (s.pg (.guest k)).st ≠ .free then (s, 0) else
    let refuse := fun (s : State) =>
      (((s.bump .place Reg.PLACE.GUEST_REFUSED_COUNT).raise .place Evt.PLACE.GUEST_REFUSED).tickFree,
        1 + Config.freeNat s.freeCtr % 15)
    if s.getF .place Reg.PLACE.LEND_LIMIT ≤ s.getF .place Reg.PLACE.LEND_USED_FRAMES then refuse s
    else match s.takeAny with
      | some (id, s) =>
        (((s.setPg (.guest k) { Page.free with st := .loc, pin := 1, place := .frame id }).dropBytes (.guest k)).placeCounts, 0)
      | none => refuse s
  else (s.freePages [.guest k], 0)

/-- A lender answers a GUEST request of this package: with another status than OK the page is refused (R214, R216); a
guest frame granted to a page that no longer wants it is released. -/
def State.guestAnswer (s : State) (op page k status : Nat) (room : Nat) : State :=
  let s := { s with mm := { s.mm with room := s.mm.room.put k (if status = 0 then room else 0) } }
  if op ≠ 1 then s else
  let p := s.page page
  let spot := match s.mm.req with
    | some q => q.wait.contains page
    | none => false
  if spot then
    match s.mm.req with
    | none => s
    | some q =>
      let q := { q with wait := q.wait.filter (· ≠ page) }
      if status ≠ 0 then
        s.setReq { q with spots := q.spots.del page, status := some 2, doneOut := q.spots.length - 1 - q.wait.length }
      else s.setReq (if q.wait.isEmpty && q.status.isNone then { q with status := some 0, doneOut := q.count } else q)
  else match p.move with
    | some m =>
      if m.dest = .peer k && !m.granted then
        if status = 0 then (s.setPg (.own page) { p with move := some { m with granted := true } }).copyAll (.own page)
        else
          let s := s.abandonMove (.own page)
          (match s.mm.req with
          | some q => if q.status.isNone && (q.op = 1 || q.op = 3) then
              s.reqEnd q 2 (if q.op = 1 then min q.count s.freeFrames else q.done)
            else s
          | none => s).drainAll
      else s
    | none => if status = 0 && p.st ≠ .spilled then s.guestSend 2 page k else s

end Sys2Proof.Machine
end

