-- ==== Sys2Proof/Machine/StageOps.lean ====
section
/-! DEFINITION. Staging (R13, R557, R559): shadows, STAGE_STATE, STAGE_CHECK at a staged write; destination tables and
their check (R236–R239). -/

namespace Sys2Proof.Machine

open Sys2Proof

/-- A unit and its ancestors, the unit first. -/
def UnitId.chain (u : UnitId) : Nat → List UnitId
  | 0 => [u]
  | n + 1 => match u.parent with
    | some p => u :: UnitId.chain p n
    | none => [u]

/-- A unit's ancestors up to PKG. -/
def ancestors (u : UnitId) : List UnitId := (UnitId.chain u 4).drop 1

/-- A page is staged: OWN here, BELOW above, and the checks of its subtree's groups run again (R557). -/
def State.stageMark (s : State) (u : UnitId) : State :=
  let s := s.setF u Reg.STAGE_OWN 1
  let s := (ancestors u).foldl (fun s a => s.setF a Reg.STAGE_BELOW 1) s
  (UnitId.chain u 4).foldl (fun s a => (s.setF a Reg.CHECK_RESULT 3).setF a Reg.CHECK_CAUSE 0) s

/-- A staged register is written: its shadow takes the word. -/
def State.stageW (s : State) (u : UnitId) (off : Nat) (w : Word) : State :=
  State.stageMark { s with shadow := s.shadow.put (regKey u off) w } u

/-- A field of a staged register as staged. -/
def State.getSh (s : State) (u : UnitId) (f : Fld) : Nat := getBits (s.getShadow u f.off) f.hi f.lo

/-- A staged register of the page has been written since the last commit. -/
def State.isStaged (s : State) (u : UnitId) (off : Nat) : Bool := (s.shadow.find (regKey u off)).isSome

/-! ## Destination tables (R236–R239) -/

/-- A port is armed, in force or staged. -/
def State.armedOrStaged (s : State) (p : Fin 16) : Bool :=
  s.isSet (.port p) Reg.PORT.ADMIT_CFG_ARM || s.getSh (.port p) Reg.PORT.ADMIT_CFG_ARM == 1

/-- An entry of a shadow bank meets R239; `own`: it is the entry of the package's own staged fabric ID. -/
def State.dEntryOk (s : State) (own : Bool) (w : Word) : Bool :=
  (dLocal w == own) && (!own || dValid w) && (!dLocal w || (getBits w 15 0 == 0 && !dEscValid w)) &&
  allPorts.all (fun p => !(dCand w p || (dEscValid w && dEsc w == p.val)) || s.armedOrStaged p) && getBits w 31 23 == 0

/-- The shadow bank of a router meets R239. -/
def State.dtabOk (s : State) (h : Fin 2) : Bool :=
  let r := s.rout h
  let own := s.getSh .pkg Reg.PKG.FABRIC_ID_FID
  !r.dundef && r.dshadow.all (fun e => s.dEntryOk (e.1 == own) e.2) && (r.dshadow.find own).isSome

/-- The bytes of a table of 32-bit entries. -/
def tabBytes (m : Map Word) (n : Nat) : List Byte := (List.range n).flatMap (fun i => leBytes 4 (m.getD i 0).toNat)

/-- CRC-32C of a bank of 1,048,576 entries. -/
def bankCrc (m : Map Word) : Nat := crc32c (tabBytes m 1048576)

end Sys2Proof.Machine
end

