-- ==== Sys2Proof/Machine/DeliverOps.lean ====
section
/-! DEFINITION. Delivery (R309–R311): checks, flows received (R315–R318), messages (R321), replies at the sender
(R314, R319, R322), circuits (R326), multicast (R329–R331). -/

namespace Sys2Proof.Machine

open Sys2Proof

/-- A request of another package delivered at a hub. -/
def Req.remote (h : Fin 2) (fid : Nat) : Req := ⟨5, 4 + h, fid⟩

/-- x comes before y as 32-bit sequence numbers. -/
def seqBefore (x y : Nat) : Bool := decide (2 ^ 31 ≤ (x + 2 ^ 32 - y % 2 ^ 32) % 2 ^ 32)

/-- Home hub of what CTX names: a flow context, or for circuits and groups the hub the packet is at. -/
def pktHub (h : Fin 2) (pk : Packet) : Fin 2 :=
  if opNet pk.op = some 2 || pk.op = 0x05 || pk.op = 0x15 then h else flowHub pk.ctx

/-! ## Refusals and replies -/

/-- A reply to a packet: it carries the packet's JOB_TAG, SEQ and MSG_ID. -/
def State.replyTo (s : State) (pk : Packet) (op ctx : Nat) : Packet :=
  { s.blankPacket op pk.srcFid with jobTag := pk.jobTag, seq := pk.seq, ctx := ctx, msgId := pk.msgId }

/-- A request is refused here: counted, recorded, raised (R309). -/
def State.noteReject (s : State) (h : Fin 2) (fid st : Nat) : State :=
  let u := UnitId.rout h
  let s := s.bump u Reg.ROUT.REJECT_TX_COUNT
  let s := s.setF u Reg.ROUT.REJECT_LAST_FID fid
  (s.setF u Reg.ROUT.REJECT_LAST_STATUS st).raise u Evt.ROUT.REJECT

/-- CTX of the reply to a request: the sender's context or circuit where this end knows it, else the packet's own. -/
def State.replyCtx (s : State) (h : Fin 2) (pk : Packet) : Nat :=
  if opNet pk.op = some 2 then
    let e := s.cktEntry h (pk.ctx % 1024)
    if cktValid e && cktRole e == 3 && cktPeer e == pk.srcFid then cktPeerCkt e else pk.ctx
  else
    let f := s.flow pk.ctx
    if f.state = 1 && f.kind = 2 && f.peerFid = pk.srcFid then f.peerCtx else pk.ctx

/-- Refuse a request with a status (R309). -/
def State.refuse (s : State) (h : Fin 2) (pk : Packet) (st : Nat) : State :=
  let hub := pktHub h pk
  (s.noteReject hub pk.srcFid st).inject hub 1 { s.replyTo pk 0x13 (s.replyCtx h pk) with arg := st }

/-- A packet is dropped at step 3 of R309. -/
def State.ctxDrop (s : State) (h : Fin 2) (pk : Packet) : State := s.bump (.rout (pktHub h pk)) Reg.ROUT.CTX_DROP_COUNT

/-! ## Guest pages (R311, R221) -/

/-- Key of a guest page: owner and page number. -/
def guestKey (fid addr : Nat) : Nat := fid * 2 ^ 20 + addr / 2 ^ 21

/-- Status an access to a line of a guest page meets. -/
def State.guestLineStatus (s : State) (fid addr : Nat) : Nat :=
  if 2 ^ 41 ≤ addr then St.outOfRange else
  let p := s.pg (.guest (guestKey fid addr))
  match p.st with
  | .free => St.pmemFault
  | .lost => St.memUe
  | _ => match p.frame? with
    | some id => if s.mm.ue.getD (lineKey id (addr % 2 ^ 21 / 64)) false then St.memUe else 0
    | none => 0

/-- Addresses of the lines that n bytes touch. -/
def linesOf (addr n : Nat) : List Nat := (List.range (lineCount addr n)).map (fun i => 64 * (addr / 64 + i))

/-- First status other than OK that an access meets. -/
def State.guestStatus (s : State) (fid addr n : Nat) : Nat :=
  ((linesOf addr n).map (s.guestLineStatus fid)).find? (· ≠ 0) |>.getD 0

/-- Bytes the channel of a guest page's frame reads or writes (R197). -/
def State.guestBytes (s : State) (r : PgRef) (write : Bool) (n : Nat) : State :=
  match (s.pg r).frame? with
  | none => s
  | some id =>
    let u := chanUnit (frameChan id)
    if write then s.addPair u Reg.MCHN.WR_BYTES_LO Reg.MCHN.WR_BYTES_HI n
    else s.addPair u Reg.MCHN.RD_BYTES_LO Reg.MCHN.RD_BYTES_HI n

/-- An access to a line of a guest page is counted: REMOTE heat, the hub's count, the channel's bytes (R221, R197). -/
def State.guestCount (s : State) (h : Fin 2) (fid addr : Nat) (write : Bool) (n : Nat) : State :=
  let r := PgRef.guest (guestKey fid addr)
  let p := s.pg r
  let p := { p with cnt := p.cnt.add 5 1 }
  (s.setPg r (if h = 0 then { p with n0 := min 32767 (p.n0 + 1) } else { p with n1 := min 32767 (p.n1 + 1) })).guestBytes r write n

/-- Lines of guest pages found bad become known (R188, R190). -/
def State.findGuestErrs (s : State) (fid : Nat) (errs : LineErrs) : State :=
  errs.foldl (fun s e => match (s.pg (.guest (guestKey fid e.1))).frame? with
    | some id => s.frameErr id (e.1 % 2 ^ 21 / 64) e.2
    | none => s) s

/-- Lines that a request's access finds bad become known. -/
def State.findFor (s : State) (pk : Packet) (errs : LineErrs) : State :=
  if pk.guest then s.findGuestErrs pk.srcFid errs else s.findErrs errs

/-- Read n bytes of a guest's memory. -/
def State.guestRead (s : State) (h : Fin 2) (fid addr n : Nat) : State × Nat × List Byte :=
  let st := s.guestStatus fid addr n
  if st ≠ 0 then (s, st, []) else
  ((linesOf addr n).foldl (fun s a => s.guestCount h fid a false 64) s, 0, s.mm.guestMem.readBytes (fid * 2 ^ 41 + addr) n)

/-- Store bytes within one line of a guest page; a write of less than a listed line is discarded with MEM_UE. -/
def State.guestLineWrite (s : State) (h : Fin 2) (fid addr : Nat) (bs : List Byte) : State × Nat :=
  let st := s.guestLineStatus fid addr
  let r := PgRef.guest (guestKey fid addr)
  let whole := decide (addr % 64 = 0 ∧ bs.length = 64)
  if st = 0 ∨ (st = St.memUe ∧ whole ∧ (s.pg r).st ≠ .lost) then
    let s := if whole then s else s.guestBytes r false 64
    let s := s.guestCount h fid addr true 64
    let s := { s with mm := { s.mm with guestMem := s.mm.guestMem.writeBytes (fid * 2 ^ 41 + addr) bs } }
    let s := s.markLine r (addr % 2 ^ 21 / 64)
    (match (s.pg r).frame? with
     | some id => if whole then s.lineWritten id (addr % 2 ^ 21 / 64) else s
     | none => s, 0)
  else (s, st)

/-- Store bytes line by line; the argument bounds the lines. -/
def State.guestWrite (s : State) (h : Fin 2) (fid addr : Nat) (bs : List Byte) : Nat → State × Nat
  | 0 => (s, 0)
  | k + 1 =>
    if bs = [] then (s, 0) else
    let n := 64 - addr % 64
    let (s, st) := s.guestLineWrite h fid addr (bs.take n)
    if st ≠ 0 then (s, st) else State.guestWrite s h fid (addr + n) (bs.drop n) k

/-! ## Operations on memory and windows -/

/-- Bytes of a request at an address are written; nothing of a packet is written when a page of it cannot take any. -/
def State.writeFor (s : State) (h : Fin 2) (pk : Packet) (addr : Nat) (bs : List Byte) : State × Nat :=
  let line := fun a => if pk.guest then s.guestLineStatus pk.srcFid a else s.lineStatus a
  match ((linesOf addr bs.length).map line).find? (fun st => st ≠ 0 ∧ st ≠ St.memUe) with
  | some st => (s, st)
  | none =>
    if pk.guest then s.guestWrite h pk.srcFid addr bs (lineCount addr bs.length)
    else s.writeMem (Req.remote h pk.srcFid) addr bs

/-- Bytes of a request at an address are read. -/
def State.readFor (s : State) (h : Fin 2) (pk : Packet) (addr n : Nat) : State × Nat × List Byte :=
  if pk.guest then s.guestRead h pk.srcFid addr n else s.readMem (Req.remote h pk.srcFid) addr n

/-- A packet delivered into a halo window (R104, R294). -/
def State.haloDeliver (s : State) (addr : Nat) (bs : List Byte) : State × Nat :=
  if addr / 2 ^ 43 ≠ 0 then (s, St.outOfRange) else
  let off := addr % 2 ^ 32
  let d : Fin 4 := ⟨bitsOf addr 33 32 % 4, by omega⟩
  let n := bitsOf addr 42 41
  match s.slotTile d (bitsOf addr 40 34) with
  | none => (s, St.destSlotDown)
  | some t =>
    let u := UnitId.tile d t
    let refuse := fun (st : Nat) =>
      (((s.bump u Reg.TILE.HALO_REFUSED_COUNT).raise u Evt.TILE.HALO_REFUSED), st)
    let rcvd := s.getF u (Reg.TILE.WIN_RCVD n) + bs.length
    if s.getF u (Reg.TILE.WIN_CTL_STATE n) ≠ 1 then refuse St.windowClosed
    else if s.getF u (Reg.TILE.WIN_LEN n) < off + bs.length ∨ s.getF u (Reg.TILE.WIN_EXPECT n) < rcvd then
      refuse St.windowOverrun
    else
      let s := s.lsWrite d t (s.getF u (Reg.TILE.WIN_BASE n) + off) bs
      let s := s.setF u (Reg.TILE.WIN_RCVD n) rcvd
      (if rcvd = s.getF u (Reg.TILE.WIN_EXPECT n) then (s.fillWindow d t n).showWindows d t else s, 0)

/-- The new value of an atomic's word (table of AOP). -/
def atomicValue (aop old x cmp : Nat) : Nat :=
  let lt := fun (a b : Nat) => decide (signedOf 64 a < signedOf 64 b)
  match aop with
  | 0 => (old + x) % 2 ^ 64
  | 1 => old &&& x
  | 2 => old ||| x
  | 3 => old ^^^ x
  | 4 => if lt old x then x else old
  | 5 => if lt x old then x else old
  | 6 => x
  | _ => if old = cmp then x else old

/-! ## Messages at a receiver (R321) -/

/-- What a packet does to the open messages of a context, circuit or group. -/
structure MsgStep where
  openMsgs : List OpenMsg
  /-- The message that completes, with its status. -/
  ended : Option (OpenMsg × Nat)
  deriving DecidableEq, Repr

/-- The message a packet belongs to, opened if it is not open. -/
def openFor (ms : List OpenMsg) (pk : Packet) : OpenMsg :=
  (ms.find? (fun m => m.msgId == pk.msgId)).getD ⟨pk.msgId, 0, false, pk.msgBytes, 0, pk.sig, pk.dstSync, pk.tryN, pk.seq⟩

/-- A packet would open a fifth message. -/
def fifth (ms : List OpenMsg) (pk : Packet) : Bool :=
  !ms.any (fun m => m.msgId == pk.msgId) && decide (4 ≤ ms.length)

/-- A packet breaks its message's MSG_BYTES. -/
def breaksBytes (ms : List OpenMsg) (pk : Packet) : Bool :=
  let m := openFor ms pk
  pk.msgBytes != m.msgBytes || decide (m.msgBytes < m.count + pk.payload.length)

/-- An accepted packet whose operation ended with a status enters its message. -/
def msgTake (ms : List OpenMsg) (pk : Packet) (st : Nat) : MsgStep :=
  let m := openFor ms pk
  let rest := ms.filter (fun m => m.msgId ≠ pk.msgId)
  let m := { m with count := m.count + pk.payload.length, seenLast := m.seenLast || pk.last
                    status := if m.status = 0 then st else m.status, hi := if seqBefore m.hi pk.seq then pk.seq else m.hi }
  if m.seenLast && m.count == m.msgBytes then ⟨rest, some (m, m.status)⟩ else ⟨rest ++ [m], none⟩

/-- A packet that breaks its message's MSG_BYTES completes the message with BAD_LAYOUT. -/
def msgBreak (ms : List OpenMsg) (pk : Packet) : MsgStep :=
  let m := openFor ms pk
  ⟨ms.filter (fun m => m.msgId ≠ pk.msgId), some ({ m with hi := if seqBefore m.hi pk.seq then pk.seq else m.hi }, St.badLayout)⟩

/-- The signal of a completed message (R321, R352). -/
def State.msgSignal (s : State) (m : OpenMsg) (st : Nat) : State :=
  if m.sig then (s.signal m.dstSync 1 .delivery (if st = 0 then 0 else ObjSt.fault) 0).1 else s

/-- The four DONE records, newest first (R316). -/
def doneBytes (l : List (Nat × Nat)) : List Byte :=
  (List.range 4).flatMap (fun i => match l[i]? with
    | some (id, st) => leBytes 4 (bitAt id 0 8 + bitAt st 8 8 + bitAt 1 16 1)
    | none => leBytes 4 0)

/-- The valid DONE records of 16 bytes. -/
def doneOf (b : List Byte) : List (Nat × Nat) :=
  (List.range 4).filterMap (fun i =>
    let w := leNat ((b.drop (4 * i)).take 4)
    if bitsOf w 16 16 = 1 then some (bitsOf w 7 0, bitsOf w 15 8) else none)

/-! ## Flows received (R315–R318) -/

/-- Send the ACK of a receive context. -/
def State.sendAck (s : State) (c : Nat) : State :=
  let f := s.flow c
  let sack := (List.range 32).map (fun i => BitVec.ofNat 8 ((List.range 8).foldl (fun v b =>
    if 8 * i + b < 255 && f.got.contains ((f.next + 1 + 8 * i + b) % 2 ^ 32) then v + 2 ^ b else v) 0))
  let s := s.setFlow c { f with fresh := 0 }
  s.inject (flowHub c) 1 { s.blankPacket 0x12 f.peerFid with
    ctx := f.peerCtx, arg := f.next, payload := sack ++ doneBytes f.done }

/-- BASE advances past every received SEQ. -/
def Flow.advance (f : Flow) : Nat → Flow
  | 0 => f
  | n + 1 =>
    if f.got.contains f.next then Flow.advance { f with next := (f.next + 1) % 2 ^ 32, got := f.got.erase f.next } n else f

/-- A SEQ is marked received. -/
def Flow.receive (f : Flow) (seq : Nat) : Flow :=
  let f := { f with got := f.got ++ [seq], fresh := f.fresh + 1 }
  f.advance f.got.length

/-- A READ_REQ is executed (R318); the status of one that is refused. -/
def State.readRequest (s : State) (h : Fin 2) (pk : Packet) (errs : LineErrs) : State :=
  let n := pk.arg % 1024
  if n = 0 ∨ 512 < n then s.tickFree.refuse h pk (1 + Config.freeNat s.freeCtr % 15) else
  let s := s.findFor pk errs
  let (s, st, b) := s.readFor h pk pk.addr n
  if st ≠ 0 then s.refuse h pk st
  else s.inject (pktHub h pk) 1 { s.replyTo pk 0x10 (s.flow pk.ctx).peerCtx with payload := b }

/-- Address of the reply cache entry of a SEQ (R317). -/
def Flow.cacheAddr (f : Flow) (seq : Nat) : Nat := f.replyAddr + 16 * (seq % 256)

/-- The reply of an atomic. -/
def State.atomicReply (s : State) (h : Fin 2) (pk : Packet) (old st : Nat) : State :=
  s.inject (pktHub h pk) 1 { s.replyTo pk 0x11 (s.flow pk.ctx).peerCtx with arg := st, payload := leBytes 8 old }

/-- An accepted ATOMIC is executed (R317) on the 8 aligned bytes that hold its address. -/
def State.atomicRequest (s : State) (h : Fin 2) (pk : Packet) (errs : LineErrs) : State :=
  let f := s.flow pk.ctx
  if f.replyAddr = 0 ∨ 8 ≤ pk.aop then s.refuse h pk St.badMode else
  let s := s.findFor pk errs
  let a := pk.addr / 8 * 8
  let (s, st, b) := s.readFor h pk a 8
  if st ≠ 0 then s.refuse h pk st else
  let old := leNat b
  let (s, _) := s.writeFor h pk a (leBytes 8 (atomicValue pk.aop old (leNat pk.payload) pk.arg))
  let (s, _) := s.writeMem (Req.remote h pk.srcFid) (f.cacheAddr pk.seq)
    (leBytes 8 old ++ leBytes 1 0 ++ leBytes 3 0 ++ leBytes 4 pk.seq)
  s.atomicReply h pk old 0

/-- A duplicate ATOMIC is answered from the reply cache, if its entry holds the SEQ. -/
def State.atomicAgain (s : State) (h : Fin 2) (pk : Packet) : State :=
  let f := s.flow pk.ctx
  let (s, st, b) := s.readMem (Req.remote h pk.srcFid) (f.cacheAddr pk.seq) 16
  if f.replyAddr ≠ 0 ∧ st = 0 ∧ leNat (b.drop 12) = pk.seq then
    s.atomicReply h pk (leNat (b.take 8)) (leNat ((b.drop 8).take 1))
  else s

/-- A GUEST request is carried out and answered (R216, R221); a page it releases must exist (R311). -/
def State.guestRequest (s : State) (h : Fin 2) (pk : Packet) : State :=
  let op := pk.arg % 16
  let page := pk.addr / 2 ^ 21
  if 2 ^ 41 ≤ pk.addr then s.refuse h pk St.outOfRange
  else if op ≠ 1 ∧ op ≠ 2 then s.refuse h pk St.badMode
  else if op = 2 ∧ (s.pg (.guest (guestKey pk.srcFid pk.addr))).st = .free then s.refuse h pk St.pmemFault
  else
    let (s, st) := s.guestServe pk.srcFid page op
    s.inject (pktHub h pk) 1 { s.replyTo pk 0x16 (s.flow pk.ctx).peerCtx with arg := st, addr := pk.addr }

/-- Bytes of a request are written at an address; `errs`, lines that the write covers in part and finds bad (R182, R190). -/
def State.storeFor (s : State) (h : Fin 2) (pk : Packet) (addr : Nat) (errs : LineErrs) : State × Nat :=
  let n := pk.payload.length
  (if pk.guest then s.findGuestErrs pk.srcFid (errs.filter (fun e => partLine addr n e.1)) else s.findRmw addr n errs).writeFor h
    pk addr pk.payload

/-- A packet's operation on memory or a window, or the partial it brings: its status. With GUEST set no other memory than the
guest frame is reached, whatever the operation (R311). -/
def State.packetOp (s : State) (h : Fin 2) (pk : Packet) (errs : LineErrs) : State × Nat :=
  if pk.guest then s.storeFor h pk pk.addr errs
  else if pk.op = 0x02 ∨ pk.op = 0x09 then s.haloDeliver pk.addr pk.payload
  else if pk.op = 0x07 then
    (if pk.arg = 5 then s.takePartial none (PartialMsg.ofBytes pk.payload) else s, 0)
  else s.storeFor h pk pk.addr errs

/-- A packet of a message is executed on a context and enters the message (R309 step 5, R321). -/
def State.flowMessage (s : State) (h : Fin 2) (pk : Packet) (errs : LineErrs) : State :=
  let c := pk.ctx
  let broken := breaksBytes (s.flow c).openMsgs pk
  let (s, st) := if broken then (s, St.badLayout) else s.packetOp h pk errs
  let s := if st = 0 then s else s.refuse h pk st
  let f := s.flow c
  let r := if broken then msgBreak f.openMsgs pk else msgTake f.openMsgs pk st
  let s := s.setFlow c { f with openMsgs := r.openMsgs }
  match r.ended with
  | none => s
  | some (m, st) =>
    let s := s.msgSignal m st
    let f := s.flow c
    (s.setFlow c { f with done := ((m.msgId, st) :: f.done).take 4 }).sendAck c

/-- Steps 1 and 2 of R309 for a request: the status it is refused with. -/
def State.admitRequest (s : State) (pk : Packet) : Nat :=
  if s.jobTag = 0 ∨ pk.jobTag ≠ s.jobTag then St.tagReject else if s.fenced then St.destFenced else 0

/-- A GUEST request for a frame from another job is refused by the lender: counted and raised (R221). -/
def State.guestTurned (s : State) (pk : Packet) : State :=
  if pk.op = 0x06 ∧ pk.arg % 16 = 1 ∧ s.admitRequest pk = St.tagReject then
    (s.bump .place Reg.PLACE.GUEST_REFUSED_COUNT).raise .place Evt.PLACE.GUEST_REFUSED
  else s

/-- A request on a flow is delivered (R309, R315). -/
def State.flowRequest (s : State) (h : Fin 2) (pk : Packet) (errs : LineErrs) : State :=
  let c := pk.ctx
  let u := UnitId.rout (flowHub c)
  if s.admitRequest pk ≠ 0 then (s.guestTurned pk).refuse h pk (s.admitRequest pk) else
  let f := s.flow c
  if f.state ≠ 1 ∨ f.kind ≠ 2 ∨ f.peerFid ≠ pk.srcFid then s.ctxDrop h pk else
  let ahead := (pk.seq + 2 ^ 32 - f.next) % 2 ^ 32
  if seqBefore pk.seq f.next || f.got.contains pk.seq then
    let s := (s.bump u Reg.ROUT.DUP_COUNT).sendAck c
    if pk.op = 0x03 then s.readRequest h pk errs else if pk.op = 0x04 then s.atomicAgain h pk else s
  else if 2 ^ f.winLog ≤ ahead then s.bump u Reg.ROUT.FLOW_OOW_COUNT
  else
    let msg := pk.op ≠ 0x03 && pk.op ≠ 0x04 && pk.op ≠ 0x06
    if msg && fifth f.openMsgs pk then s else
    let s := s.setFlow c (f.receive pk.seq)
    let s := if pk.op = 0x03 then s.readRequest h pk errs else if pk.op = 0x04 then s.atomicRequest h pk errs
      else if pk.op = 0x06 then s.guestRequest h pk else s.flowMessage h pk errs
    let f := s.flow c
    if 0 < f.fresh && 2 ^ f.winLog / 2 ≤ f.fresh then s.sendAck c else s

/-! ## Ends at the sender (R314, R319, R322) -/

/-- An owner's operation ends with a status and FENCED count. -/
def State.ownerEnd (s : State) (o : Owner) (st fenced : Nat) : State :=
  match o with
  | .dm d t k id => s.dmRemoteEnd d t k id st fenced
  | .read d t k id _ _ => s.dmRemoteEnd d t k id st fenced
  | .atomic d t k => s.emit (.service d t k st [])
  | .spill page => s.spillEnd page st
  | .guest _ _ | .frag => s

/-- A message of a context ends at its sender; one that waits may be opened (R320). -/
def State.closeMsg (s : State) (c id st : Nat) : State :=
  let f := s.flow c
  match f.msgs.find? (fun m => m.msgId == id) with
  | none => s
  | some m =>
    ((s.setFlow c { f with msgs := f.msgs.filter (fun m => m.msgId ≠ id) }).ownerEnd m.owner st 0).openLater c f.later.length

/-- A GUEST request of a context ended with a status that shows the target or the page gone (R223), or was refused. -/
def State.guestFailed (s : State) (c : Nat) (x : SentPkt) (st : Nat) : State :=
  match x.owner with
  | .guest page _ => s.guestAnswer (x.pkt.arg % 16) page (c - guestCtx 0) st 0
  | _ => s

/-- Every operation outstanding on a context ends with DEST_FENCED (R313, R319); nothing of it stays. -/
def State.endFlow (s : State) (c v : Nat) : State :=
  let f := s.flow c
  let s := s.setFlow c { f with state := v, out := [], wait := [], msgs := [], mcast := [], asks := [], later := [] }
  let s := f.msgs.foldl (fun s m => s.ownerEnd m.owner St.destFenced 0) s
  let s := f.later.foldl (fun s m => s.ownerEnd m.1 St.destFenced 0) s
  let s := f.mcast.foldl (fun s m => s.ownerEnd m.owner St.destFenced 0) s
  let s := (f.out ++ f.wait).foldl (fun s x => match x.owner with
    | .atomic d t k => s.emit (.service d t k St.destFenced [])
    | .guest _ _ => s.guestFailed c x St.destFenced
    | _ => s) s
  s.dmGoAll

/-- A send context becomes FAILED (R319); a spill target reached by it is DOWN (R223). -/
def State.failFlow (s : State) (c : Nat) : State :=
  let u := UnitId.rout (flowHub c)
  let s := s.endFlow c 2
  let s := s.setF u Reg.ROUT.FLOW_FAIL_LAST_CTX c
  let s := (s.setF u Reg.ROUT.FLOW_FAIL_LAST_CKT 0).raise u Evt.ROUT.FLOW_FAIL
  if guestCtx 0 ≤ c then s.loseTarget (c - guestCtx 0) else s

/-- Requests that an ACK may acknowledge: all but those answered by a reply (R314). -/
def ackable (op : Nat) : Bool := op != 0x03 && op != 0x04

/-- An ACK arrives at its send context (R314, R322). -/
def State.takeAck (s : State) (c : Nat) (pk : Packet) : State :=
  let f := s.flow c
  let base := pk.arg % 2 ^ 32
  let sack := fun (q : Nat) =>
    let i := (q + 2 ^ 32 - (base + 1) % 2 ^ 32) % 2 ^ 32
    decide (i < 255) && (pk.payload.getD (i / 8) 0).toNat / 2 ^ (i % 8) % 2 == 1
  let hit := fun (x : SentPkt) => ackable x.pkt.op && (seqBefore x.pkt.seq base || sack x.pkt.seq)
  let asks := f.out.filter (fun x => hit x && x.pkt.op == 0x06 && x.owner != .frag)
  let s := s.setFlow c { f with out := f.out.filter (fun x => !hit x), asks := f.asks ++ asks }
  let s := (doneOf (pk.payload.drop 32)).foldl (fun s r => s.closeMsg c r.1 r.2) s
  (s.pumpFlow c).dmGoAll

/-- A read packet of a context is answered with a status and bytes; the last answer of a message ends it (R318, R319). -/
def State.readReply (s : State) (c : Nat) (x : SentPkt) (st : Nat) (b : List Byte) : State :=
  let f := s.flow c
  let id := x.pkt.msgId
  let opened := f.msgs.any (fun m => m.msgId == id)
  let f := { f with out := f.out.filter (fun y => y.pkt.seq ≠ x.pkt.seq) }
  let more := (f.out ++ f.wait).any (fun y => y.pkt.op == 0x03 && y.pkt.msgId == id)
  let s := s.setFlow c f
  let s := match x.owner with
    | .read d t k i idx dst => if opened then s.dmReply d t k i ⟨idx, dst, st, b⟩ else s
    | .spill page => s.spillEnd page st
    | _ => s
  let s := if more then s else s.closeMsg c id 0
  (s.pumpFlow c).dmGoAll

/-- A READ_RSP arrives; of several replies to one request the first counts (R318). -/
def State.takeRead (s : State) (c : Nat) (pk : Packet) : State :=
  match (s.flow c).out.find? (fun x => x.pkt.seq == pk.seq && x.pkt.op == 0x03) with
  | none => s
  | some x => s.readReply c x (pk.arg % 256) (pk.payload.take (x.pkt.arg % 1024))

/-- An ATOMIC_RSP arrives: the service returns the old value and the status (R294). -/
def State.takeAtomic (s : State) (c : Nat) (pk : Packet) : State :=
  let f := s.flow c
  match f.out.find? (fun x => x.pkt.seq == pk.seq && x.pkt.op == 0x04) with
  | none => s
  | some x =>
    let s := s.setFlow c { f with out := f.out.filter (fun y => y.pkt.seq ≠ pk.seq) }
    let s := match x.owner with
      | .atomic d t k => s.emit (.service d t k (pk.arg % 256) pk.payload)
      | _ => s
    s.pumpFlow c

/-- A GUEST_RSP arrives at the director; `room`: the guest frames the lender reports free. -/
def State.takeGuest (s : State) (c : Nat) (pk : Packet) (room : Nat) : State :=
  let f := s.flow c
  match (f.out ++ f.asks).find? (fun x => x.pkt.seq == pk.seq && x.pkt.op == 0x06) with
  | none => s
  | some x =>
    let s := s.setFlow c { f with
      out := f.out.map (fun y => if y.pkt.seq = pk.seq then { y with owner := .frag } else y)
      asks := f.asks.filter (fun y => y.pkt.seq ≠ pk.seq) }
    match x.owner with
    | .guest page k => s.guestAnswer (x.pkt.arg % 16) page k (pk.arg % 256) room
    | _ => s

/-- A context names itself in a reply of a package: an enabled SEND context of that peer, or an enabled MCAST context, whose
line has many. -/
def Flow.expects (f : Flow) (fid : Nat) : Bool := f.state == 1 && ((f.kind == 1 && f.peerFid == fid) || f.kind == 3)

/-- An enabled circuit of this package ends at a package. -/
def State.cktSource (s : State) (h : Fin 2) (c fid : Nat) : Bool :=
  decide (c < 1024) && cktValid (s.cktEntry h c) && cktRole (s.cktEntry h c) == 1 && cktPeer (s.cktEntry h c) == fid

/-- A packet that this package has sent and that is outstanding: on a flow, or on a circuit. -/
inductive Covered where
  | flow (ctx : Nat) (pkt : SentPkt)
  | ckt (c : Nat) (pkt : SentPkt)
  deriving DecidableEq, Repr

/-- Outstanding packets of a list with the SEQ and MSG_ID of a REJECT. -/
def sentAs (l : List SentPkt) (pk : Packet) : List SentPkt := l.filter (fun x => x.pkt.seq == pk.seq && x.pkt.msgId == pk.msgId)

/-- Packets on flows that carry a REJECT's CTX, SEQ and MSG_ID and went to a package that `dst` allows. -/
def State.ownCtx (s : State) (pk : Packet) (dst : Nat → Bool) : List Covered :=
  s.net.flows.flatMap (fun (e : Nat × Flow) =>
    if e.2.state = 1 && (e.2.kind = 1 || e.2.kind = 3) then
      ((sentAs e.2.out pk).filter (fun x => x.pkt.ctx == pk.ctx && dst x.pkt.dstFid)).map (.flow e.1)
    else [])

/-- The packet that a REJECT covers: of the context or circuit of its source that it names, or one sent to its source under the CTX it
names, which a refusing end uses that knows no send context. Only where there is no such packet is it one sent elsewhere under that CTX,
refused with DEST_FENCED by a router without a route (R299). A REJECT ends the operation of no packet but the one it covers, so
where several fit it ends none (notes/assumptions/21.md). -/
def State.covered (s : State) (h : Fin 2) (pk : Packet) : Option Covered :=
  let f := s.flow pk.ctx
  let c := pk.ctx % 1024
  let here := ((if f.expects pk.srcFid then (sentAs f.out pk).map (Covered.flow pk.ctx) else []) ++
    (if s.cktSource h pk.ctx pk.srcFid then (sentAs (s.cktSt c).out pk).map (Covered.ckt c) else []) ++
    s.ownCtx pk (· == pk.srcFid)).eraseDups
  match here with
  | [x] => some x
  | [] => match s.ownCtx pk (fun d => d != pk.srcFid && pk.arg % 256 == St.destFenced) with
    | [x] => some x
    | _ => none
  | _ => none

/-- The status of a REJECT at step 1 or 2 of R309: the packet was not taken in, and its message cannot complete. -/
def notTaken (st : Nat) : Bool := st == St.tagReject || st == St.destFenced

/-- A REJECT of a packet sent on a flow (R319); of a multicast packet it only acknowledges, since MC_ACKs end the message
(R331). One at step 5 is an answer to a read; a packet of any other message has been
counted, and the DONE record of the message brings the status (R98, R321, R322). -/
def State.flowRejected (s : State) (c : Nat) (x : SentPkt) (st : Nat) : State :=
  if x.pkt.op = 0x03 then s.readReply c x st [] else
  let f := s.flow c
  let s := s.setFlow c { f with out := f.out.filter (fun y => y.pkt.seq ≠ x.pkt.seq) }
  let s := match x.owner with
    | .atomic d t k => s.emit (.service d t k st [])
    | .guest _ _ =>
      let s := s.guestFailed c x st
      if st = St.pmemFault ∨ st = St.destFenced then s.loseTarget (c - guestCtx 0) else s
    | _ => if notTaken st && f.kind = 1 then s.closeMsg c x.pkt.msgId st else s
  (s.pumpFlow c).dmGoAll

/-! ## Circuits (R325, R326) -/

/-- Send the CKT_ACK of a sink. -/
def State.sendCktAck (s : State) (h : Fin 2) (c : Nat) : State :=
  let e := s.cktEntry h c
  let k := s.cktSt c
  let s := s.setCkt c { k with fresh := 0 }
  s.inject h 1 { s.blankPacket 0x15 (cktPeer e) with ctx := cktPeerCkt e, arg := k.next, payload := doneBytes k.done }

/-- A circuit packet reaches its sink (R309, R326). -/
def State.cktDeliver (s : State) (p : Fin 16) (pk : Packet) (errs : LineErrs) : State :=
  let h := portHub p
  let c := pk.ctx % 1024
  let e := s.cktEntry h c
  if s.admitRequest pk ≠ 0 then s.refuse h pk (s.admitRequest pk)
  else if cktPeer e ≠ pk.srcFid then s.ctxDrop h pk
  else
    let k := s.cktSt c
    if seqBefore pk.seq k.next then (s.bump (.rout h) Reg.ROUT.DUP_COUNT).sendCktAck h c
    else if pk.seq ≠ k.next then
      if k.gapSent then s else (s.setCkt c { k with gapSent := true }).sendCktAck h c
    else if fifth k.openMsgs pk then s
    else
      let s := s.setCkt c { k with next := (k.next + 1) % 2 ^ 32, gapSent := false, fresh := k.fresh + 1 }
      let broken := breaksBytes k.openMsgs pk
      let (s, st) := if broken then (s, St.badLayout) else s.packetOp h pk errs
      let s := if st = 0 then s else s.refuse h pk st
      let k := s.cktSt c
      let r := if broken then msgBreak k.openMsgs pk else msgTake k.openMsgs pk st
      let s := s.setCkt c { k with openMsgs := r.openMsgs }
      match r.ended with
      | some (m, st) =>
        let s := s.msgSignal m st
        let k := s.cktSt c
        (s.setCkt c { k with done := ((m.msgId, st) :: k.done).take 4 }).sendCktAck h c
      | none => if 2 ^ cktWin e / 2 ≤ (s.cktSt c).fresh then s.sendCktAck h c else s

/-- A message of a circuit ends at its source. -/
def State.cktClose (s : State) (c id st : Nat) : State :=
  let k := s.cktSt c
  match k.msgs.find? (fun m => m.msgId == id) with
  | none => s
  | some m => (s.setCkt c { k with msgs := k.msgs.filter (fun m => m.msgId ≠ id) }).ownerEnd m.owner st 0

/-- Every operation outstanding on a circuit ends with DEST_FENCED. -/
def State.endCkt (s : State) (c : Nat) (failed : Bool) : State :=
  let k := s.cktSt c
  let s := s.setCkt c { k with failed := failed, out := [], wait := [], msgs := [] }
  (k.msgs.foldl (fun s m => s.ownerEnd m.owner St.destFenced 0) s).dmGoAll

/-- A circuit becomes FAILED (R326, R319). -/
def State.failCkt (s : State) (c : Nat) : State :=
  let u := UnitId.rout (portHub (cktOut (s.cktEntry 0 c)))
  let s := s.endCkt c true
  let s := s.setF u Reg.ROUT.FLOW_FAIL_LAST_CTX c
  (s.setF u Reg.ROUT.FLOW_FAIL_LAST_CKT 1).raise u Evt.ROUT.CKT_FAIL

/-- The source sends again from the oldest packet not acknowledged, or fails after RETRY_MAX sendings of it. -/
def State.cktResend (s : State) (c : Nat) : State :=
  let e := s.cktEntry 0 c
  let k := s.cktSt c
  match k.out with
  | [] => s
  | x :: _ =>
    if cktRetry e ≤ x.tries + 1 then s.failCkt c else
    let hub := portHub (cktOut e)
    let s := s.setCkt c { k with out := k.out.map (fun y => { y with tries := y.tries + 1 }) }
    k.out.foldl (fun s y => (s.bump (.rout hub) Reg.ROUT.RETX_COUNT).inject hub 2 y.pkt) s

/-- A CKT_ACK arrives at its source: one that names the oldest unacknowledged packet as NEXT shows a gap. -/
def State.takeCktAck (s : State) (h : Fin 2) (pk : Packet) : State :=
  let c := pk.ctx % 1024
  let e := s.cktEntry h c
  if !cktValid e || cktRole e ≠ 1 || cktPeer e ≠ pk.srcFid then s.ctxDrop h pk else
  let k := s.cktSt c
  let next := pk.arg % 2 ^ 32
  let gap := match k.out with
    | x :: _ => x.pkt.seq == next
    | [] => false
  let s := s.setCkt c { k with out := k.out.filter (fun x => !seqBefore x.pkt.seq next) }
  let s := (doneOf pk.payload).foldl (fun s r => s.cktClose c r.1 r.2) s
  let s := if gap then s.cktResend c else s
  (s.pumpCkt c).dmGoAll

/-! ## Multicast (R329–R331) -/

/-- Send an MC_ACK to the root of a multicast packet. -/
def State.sendMcAck (s : State) (h : Fin 2) (pk : Packet) (pos kind mask st : Nat) : State :=
  s.inject h 1 { s.replyTo pk 0x14 (pk.arg / 2 ^ 14 % 2 ^ 18) with
    arg := bitAt pos 0 13 + bitAt kind 13 3 + bitAt mask 16 13 + bitAt st 29 8 }

def State.group (s : State) (g : Nat) : McGroup := s.net.groups.getD g ⟨[], []⟩

def State.setGroup (s : State) (g : Nat) (v : McGroup) : State :=
  { s with net := { s.net with groups := s.net.groups.putD g v ⟨[], []⟩ } }

/-- A multicast copy is refused at step 5: counted, recorded, raised, and a REJECT names the root's sending context (R309). -/
def State.mcRefuse (s : State) (h : Fin 2) (pk : Packet) (st : Nat) : State :=
  (s.noteReject h pk.srcFid st).inject h 1 { s.replyTo pk 0x13 (pk.arg / 2 ^ 14 % 2 ^ 18) with arg := st }

/-- The completed message that a packet belongs to: a MSG_ID comes round again with higher SEQs only, since a resent packet keeps its
SEQ (R314, R331). -/
def McGroup.completed (v : McGroup) (pk : Packet) : Option (Nat × Nat × Nat) :=
  v.done.find? (fun r => r.1 == pk.msgId && !seqBefore r.2.2 pk.seq)

/-- A copy is taken in by a delivering member; LAST again of a completed message is acknowledged again (R330). -/
def State.mcMemberTake (s : State) (h : Fin 2) (pk : Packet) (e : Nat) (errs : LineErrs) : State :=
  let g := pk.ctx % 4096
  let v := s.group g
  match v.completed pk with
  | some r => if pk.last then s.sendMcAck h pk s.pos 0 0 r.2.1 else s
  | none =>
    let cur := openFor v.openMsgs pk
    if pk.tryN < cur.tryN || fifth v.openMsgs pk then s else
    let ms := if cur.tryN < pk.tryN then
        v.openMsgs.map (fun m => if m.msgId = pk.msgId then { m with count := 0, seenLast := false, tryN := pk.tryN } else m)
      else v.openMsgs
    let broken := breaksBytes ms pk
    let addr := mcBase e + pk.addr
    let (s, st) := if broken then (s, St.badLayout)
      else if pk.guest then s.storeFor h pk pk.addr errs
      else if mcHalo e then s.haloDeliver addr pk.payload
      else s.storeFor h pk addr errs
    let s := if st = 0 then s else s.mcRefuse h pk st
    let r := if broken then msgBreak ms pk else msgTake ms pk st
    match r.ended with
    | none => s.setGroup g { v with openMsgs := r.openMsgs }
    | some (m, st) =>
      let s := s.setGroup g { v with openMsgs := r.openMsgs, done := (m.msgId, st, m.hi) :: v.done.filter (fun r => r.1 ≠ m.msgId) }
      let s := if mcSig e then (s.signal (mcSync e) 1 .delivery 0 0).1 else s
      s.sendMcAck h pk s.pos 0 0 st

/-- A copy arrives at a package of its line (R330). One of the package's own job that no group expects from its source is
dropped at step 3 of R309 and counted. -/
def State.mcTake (s : State) (h : Fin 2) (pk : Packet) (errs : LineErrs) : State :=
  let e := s.mcEntry h (pk.ctx % 4096)
  let job := s.jobTag ≠ 0 && pk.jobTag == s.jobTag
  let expected := mcValid e && mcMember e && mcRoot e == pk.srcFid
  let member := expected && job
  let s := if job && !s.fenced && !expected then s.ctxDrop h pk else s
  if member && !s.fenced then s.mcMemberTake h pk e errs
  else if pk.last then s.sendMcAck h pk s.pos (if member then 2 else 1) 0 0
  else s

/-- Dimensions of a multicast mask. -/
def maskDims (m : Nat) : List Nat := (List.range 13).filter (fun k => m / 2 ^ k % 2 = 1)

/-- A multicast message ends at its root; its packets are outstanding no more. -/
def State.mcEnd (s : State) (c : Nat) (m : McastMsg) : State :=
  let f := s.flow c
  let keep := fun (l : List SentPkt) => l.filter (fun x => x.pkt.msgId ≠ m.msgId)
  let s := s.setFlow c { f with mcast := f.mcast.filter (fun x => x.msgId ≠ m.msgId), out := keep f.out, wait := keep f.wait }
  ((s.ownerEnd m.owner (if m.fenced = 0 then 0 else St.destFenced) m.fenced).pumpFlow c).dmGoAll

/-- An MC_ACK marks a position or a lost subtree (R331). -/
def State.takeMcAck (s : State) (h : Fin 2) (pk : Packet) : State :=
  let c := pk.ctx
  let f := s.flow c
  if f.state ≠ 1 ∨ f.kind ≠ 3 then s.ctxDrop h pk else
  match f.mcast.find? (fun m => m.msgId == pk.msgId) with
  | none => s
  | some m =>
    let pos := bitsOf pk.arg 12 0
    let kind := bitsOf pk.arg 15 13
    let marks := if kind = 3 then linePositions pos (bitsOf pk.arg 28 16) else [pos]
    let hit := m.left.filter (fun p => marks.contains p)
    let m := { m with left := m.left.filter (fun p => !marks.contains p)
                      fenced := m.fenced + (if kind = 2 ∨ kind = 3 then hit.length else 0) }
    if m.left.isEmpty then s.mcEnd c m
    else s.setFlow c { f with mcast := f.mcast.map (fun x => if x.msgId = m.msgId then m else x) }

/-! ## Delivery of any packet -/

/-- A reply is delivered (R309). -/
def State.deliverReply (s : State) (h : Fin 2) (pk : Packet) (room : Nat) : State :=
  let c := pk.ctx
  if s.jobTag = 0 ∨ pk.jobTag ≠ s.jobTag then s.bump (.rout (pktHub h pk)) Reg.ROUT.TAG_DROP_COUNT
  else if pk.op = 0x15 then s.takeCktAck h pk
  else if pk.op = 0x14 then s.takeMcAck h pk
  else if pk.op = 0x13 then
    match s.covered h pk with
    | some (.flow c x) => s.flowRejected c x (pk.arg % 256)
    | some (.ckt c x) => if notTaken (pk.arg % 256) then (s.cktClose c x.pkt.msgId (pk.arg % 256)).dmGoAll else s
    | none => if (s.flow c).expects pk.srcFid || s.cktSource h c pk.srcFid then s else s.ctxDrop h pk
  else
    let f := s.flow c
    if !f.expects pk.srcFid || (f.kind = 3 && pk.op ≠ 0x12) then s.ctxDrop h pk
    else if pk.op = 0x12 then s.takeAck c pk
    else if pk.op = 0x10 then s.takeRead c pk
    else if pk.op = 0x11 then s.takeAtomic c pk
    else s.takeGuest c pk room

/-- A packet whose destination entry is LOCAL is delivered. -/
def State.deliver (s : State) (h : Fin 2) (pk : Packet) (errs : LineErrs) (room : Nat) : State :=
  if opNet pk.op = some 1 then (s.findErrs errs).deliverReply h pk room else s.flowRequest h pk errs

end Sys2Proof.Machine
end

