-- ==== Sys2Proof/Machine/Fabric.lean ====
section
/-! DEFINITION. Discovery and destination tables (R229–R257). -/

namespace Sys2Proof.Machine

open Sys2Proof

/-- The HELLO frame a port sends now (R242, R234). SEEN fields are those of the last valid HELLO received on the port. -/
def State.helloOf (s : State) (p : Fin 16) : Hello :=
  let u := UnitId.port p
  let seen := (s.link p).seen
  { typ := 1, version := 1, fwEpoch := s.getF .pkg Reg.PKG.FW_EPOCH_EPOCH, serial := s.serial, port := p, kind := 0
    reach := s.getF .pkg Reg.PKG.PART_ORDER == 2, fidValid := s.fid ≠ 0xFFFFF, state := s.admitState p, fid := s.fid
    dims := s.getF .pkg Reg.PKG.CUBE_DIMS, pos := s.pos, seq := (s.link p).helloSeq
    seenSerial := if seen then s.getPair u Reg.PORT.NBR_SERIAL_LO Reg.PORT.NBR_SERIAL_HI else 0
    seenPort := if seen then s.getF u Reg.PORT.NBR_INFO_PORT else 0, seenValid := seen }

/-- Send a HELLO frame. -/
def State.sendHello (s : State) (p : Fin 16) : State :=
  let h := s.helloOf p
  let s := s.setLink p { s.link p with helloSeq := ((s.link p).helloSeq + 1) % 2 ^ 32 }
  s.sendSync p (.hello h)

/-- A HELLO frame is sent on an active port (R241); one that falls due in a switch-over gap is sent after it (R284); none leaves a
port in far-end loopback (R277). -/
def execHelloSend (p : Fin 16) (s : State) : Ans :=
  .next (
    if !s.linkActive p || s.farLoop p then s
    else if s.inGap p then s.setLink p { s.link p with helloDue := true }
    else s.sendHello p)

/-- A received HELLO is well formed (R243). -/
def helloGood (h : Hello) : Bool := h.typ == 1 && h.version == 1 && h.kind < 2 && h.state < 5

/-- The neighbour registers differ from a frame in a field that NBR_CHANGE watches; POS and DIMS of a gateway are ignored
(R233). -/
def State.nbrDiffers (s : State) (p : Fin 16) (h : Hello) : Bool :=
  let u := UnitId.port p
  let g := fun f => s.getF u f
  s.getPair u Reg.PORT.NBR_SERIAL_LO Reg.PORT.NBR_SERIAL_HI ≠ h.serial || g Reg.PORT.NBR_INFO_PORT ≠ h.port ||
  g Reg.PORT.NBR_INFO_KIND ≠ h.kind || g Reg.PORT.NBR_INFO_REACH ≠ h.reach.toNat ||
  g Reg.PORT.NBR_INFO_FID_VALID ≠ h.fidValid.toNat || g Reg.PORT.NBR_FID_FID ≠ h.fid ||
  (h.kind ≠ 1 && (g Reg.PORT.NBR_INFO_DIMS ≠ h.dims || g Reg.PORT.NBR_POS_POS ≠ h.pos)) || g Reg.PORT.NBR_EPOCH ≠ h.fwEpoch

/-- A well-formed frame enters the neighbour registers. -/
def State.storeHello (s : State) (p : Fin 16) (h : Hello) : State :=
  let u := UnitId.port p
  let s := s.setPair u Reg.PORT.NBR_SERIAL_LO Reg.PORT.NBR_SERIAL_HI h.serial
  let s := s.setF u Reg.PORT.NBR_INFO_PORT h.port
  let s := s.setF u Reg.PORT.NBR_INFO_KIND h.kind
  let s := s.setF u Reg.PORT.NBR_INFO_REACH h.reach.toNat
  let s := s.setF u Reg.PORT.NBR_INFO_FID_VALID h.fidValid.toNat
  let s := s.setF u Reg.PORT.NBR_INFO_STATE h.state
  let s := s.setF u Reg.PORT.NBR_INFO_VALID 1
  let s := s.setF u Reg.PORT.NBR_FID_FID h.fid
  let s := s.setF u Reg.PORT.NBR_EPOCH h.fwEpoch
  if h.kind = 1 then s else (s.setF u Reg.PORT.NBR_INFO_DIMS h.dims).setF u Reg.PORT.NBR_POS_POS h.pos

/-- A HELLO arrives on a port (R243, R246). `same`: a commit of ADMIT_CFG comes in the same hub cycle; the frame is stored, and
that commit evaluates the state once (R249). -/
def execHelloReceive (p : Fin 16) (hdr : SHdr) (h : Hello) (same : Bool) (s : State) : Ans :=
  .next (
    if !s.linkActive p then s else
    let s := s.syncAcked p hdr
    if !helloGood h then s.bump (.port p) Reg.PORT.HELLO_BAD_COUNT else
    let chg := s.nbrDiffers p h
    let s := (s.storeHello p h).bump (.port p) Reg.PORT.HELLO_RX_COUNT
    let s := if chg then s.raise (.port p) Evt.PORT.NBR_CHANGE else s
    let sees := h.seenValid && h.seenSerial == s.serial && h.seenPort == p.val
    let l := s.link p
    let s := s.setLink p { l with heard := true, seesUs := sees, seen := true, tr := { l.tr with serial := h.serial } }
    if same then s else s.judgeAdmit p sees)

/-- No valid HELLO has come for 4 ms (R246 rule 1; R277 for a far end in loopback). -/
def execHelloSilence (p : Fin 16) (s : State) : Ans :=
  .next ((s.setLink p { s.link p with heard := false, loopSilent := s.farLoop p }).readmit p)

/-! ## Destination tables -/

/-- DTAB_STAT.BUSY and what it is for. -/
def State.dtabBusy (s : State) (h : Fin 2) (n : Nat) : State :=
  (s.setRout h { s.rout h with dbusy := n }).setF (.rout h) Reg.ROUT.DTAB_STAT_BUSY (if n = 0 then 0 else 1)

/-- DTAB_CTL.LOAD is written; ignored while BUSY (R238). -/
def execDtabLoad (h : Fin 2) (s : State) : Ans :=
  .next (
    if !s.pageOpen (.rout h) || (s.rout h).dbusy ≠ 0 then s
    else (s.dtabBusy h 1).stageMark (.rout h))

/-- DTAB_CTL.EDIT is written; ignored while BUSY. -/
def execDtabEdit (h : Fin 2) (s : State) : Ans :=
  .next (
    if !s.pageOpen (.rout h) || (s.rout h).dbusy ≠ 0 then s
    else (s.dtabBusy h 2).stageMark (.rout h))

/-- An image is read from package memory: its accesses count in the reader's translation cache and in the channels' bytes, page
by page (R178, R197, R211), and a page that a target holds is read there (R218). -/
def State.countImage (s : State) (q : Req) (src n : Nat) : State :=
  ((List.range ((src + n - 1) / 2 ^ 21 + 1 - src / 2 ^ 21)).foldl (fun s i =>
    let pg := src / 2 ^ 21 + i
    let lo := max src (pg * 2 ^ 21)
    let hi := min (src + n) ((pg + 1) * 2 ^ 21)
    (s.countAccesses q pg (lineCount lo (hi - lo))).countBytes pg false (64 * lineCount lo (hi - lo))) s).awayRead src n
      (n / 2 ^ 21 + 2)

/-- Status of an image of n bytes: 0 OK, 1 BAD_SRC, 2 MEM_UE. A page that is not allocated or not reachable is a bad
source; a LOST page or a listed line is an uncorrectable error. -/
def State.imageStatus (s : State) (src n align : Nat) : Nat :=
  if src % align ≠ 0 || 2 ^ 41 < src + n then 1 else
  let pages := (List.range ((src + n - 1) / 2 ^ 21 + 1 - src / 2 ^ 21)).map (fun i => s.page (src / 2 ^ 21 + i))
  if pages.any (fun p => p.st = .free || p.st = .unreachable) then 1
  else if pages.any (fun p => p.st = .lost) then 2
  else if (List.range ((n + 63) / 64)).any (fun i => s.lineStatus (src + 64 * i) = 0x06) then 2 else 0

/-- The words of an image in memory, by index; a zero word is not listed. -/
def wordsAt (m : Map Byte) (src n : Nat) : Map Word :=
  (m.filter (fun e => decide (src ≤ e.1 ∧ e.1 < src + n))).foldl (fun t e =>
    let i := (e.1 - src) / 4
    t.put i (t.getD i 0 ||| BitVec.ofNat 32 (e.2.toNat * 2 ^ (8 * ((e.1 - src) % 4))))) []

/-- A LOAD or an EDIT ends. It takes DTAB_SRC, or DTAB_EDIT_ID and DTAB_EDIT_VAL, as they stand at this end and not at the write
of DTAB_CTL, for R238 names no moment: the model's choice (DESIGN CHOICE: notes/assumptions/54.md). -/
def execDtabLoadDone (h : Fin 2) (errs : LineErrs) (s : State) : Ans :=
  .next (
    let u := UnitId.rout h
    let r := s.rout h
    if r.dbusy = 2 then
      let id := s.getF u Reg.ROUT.DTAB_EDIT_ID_FID
      let s := s.setRout h { r with dshadow := r.dshadow.putD id (s.getW u Reg.ROUT.DTAB_EDIT_VAL.off) 0, dstaged := true,
                                      crcs := { r.crcs with shadow := true } }
      s.dtabBusy h 0
    else if r.dbusy = 1 then
      let src := s.getPair u Reg.ROUT.DTAB_SRC_LO Reg.ROUT.DTAB_SRC_HI
      let s := if src % 4096 = 0 && src + 2 ^ 22 ≤ 2 ^ 41 then s.findErrs errs else s
      let st := s.imageStatus src (2 ^ 22) 4096
      let s := s.dtabBusy h 0
      let s := s.setF u Reg.ROUT.DTAB_STAT_RESULT st
      let r := s.rout h
      match st with
      | 0 =>
        let s := s.countImage (.hub h) src (2 ^ 22)
        let s := s.setRout h { r with dshadow := wordsAt s.mm.mem src (2 ^ 22), dstaged := true, dundef := false,
                                      crcs := { r.crcs with shadow := true } }
        s.raise u Evt.ROUT.DTAB_LOADED
      | 1 => s.raise u Evt.ROUT.DTAB_FAIL
      | _ =>
        let s := s.setRout h { r with dundef := true, dstaged := true }
        s.raise u Evt.ROUT.DTAB_FAIL
    else s)

end Sys2Proof.Machine
end

