-- ==== Sys2Proof/Machine/Links.lean ====
section
/-! DEFINITION. Optical links (R258–R290, R303, R332): bring-up, tests, DATA and LINK flits, electrical idle, loss of
signal, laser switch-over. A bring-up or timer event is the port's own statement that the condition or time of its rule
has come. -/

namespace Sys2Proof.Machine

open Sys2Proof

/-- The port is at a step of bring-up, its own or one against itself in TEST (R271, R276); one that serves a far-end loopback makes no
attempt of its own (R277). -/
def State.atStep (s : State) (p : Fin 16) (n : Nat) : Bool :=
  !s.farLoop p && (s.link p).step == n && s.linkState p ≠ 0 && (s.linkState p == n || s.linkState p == 7)

/-! ## Switch-over gaps (R282, R286) -/

/-- A port's own condition follows its lasers only (R287). -/
def State.laserHealth (s : State) (p : Fin 16) : State :=
  let a := s.activeLaser p
  s.setOwn (.port p) (if s.laser p a = 2 then 3 else if s.laser p (1 - a) = 2 then 1 else 0)

/-- The ACTIVE role moves to the other laser and the gap begins (R282). -/
def State.startGap (s : State) (p : Fin 16) (trip : Bool) : State :=
  let other := 1 - s.activeLaser p
  let s := if s.linkActive p then s.carriedNow p else s
  let s := s.setF (.port p) Reg.PORT.LASER_STAT_ACTIVE_ID other
  let s := s.setLaser p other 0
  let s := s.setF (.port p) Reg.PORT.LASER_STAT_GAP 1
  let s := s.setLink p { s.link p with
    gapAt := s.elapsed, gapTrip := trip, gapClaimed := false, heldRetrain := false, heldTest := none, gapQ := [], syncQ := [], helloDue := false }
  if s.linkActive p || s.testMode p ≠ 0 then s else s.toStep1 p

/-- The gap is over: GAP clears, LASER_LAST_GAP records it in cycles of the 1 GHz port clock. -/
def State.clearGap (s : State) (p : Fin 16) : State :=
  let s := s.setF (.port p) Reg.PORT.LASER_STAT_GAP 0
  s.setF (.port p) Reg.PORT.LASER_LAST_GAP_CYCLES (min (s.elapsed - (s.link p).gapAt) (2 ^ 18 - 1))

/-- What the gap held leaves the port's state. -/
def State.dropHeld (s : State) (p : Fin 16) : State :=
  s.setLink p { s.link p with heldRetrain := false, heldTest := none, gapQ := [], syncQ := [], helloDue := false }

/-- LASER_TESTED is the drove time at which the present standby last carried the link (R280). -/
def State.laserTested (s : State) (p : Fin 16) : State :=
  let a := s.activeLaser p
  if s.laser p (1 - a) = 1 then
    s.setPair (.port p) Reg.PORT.LASER_TESTED_LO Reg.PORT.LASER_TESTED_HI
      (if a = 0 then (s.link p).las1.carried else (s.link p).las0.carried)
  else s

/-- A laser's record changes (R288). -/
def State.setLas (s : State) (p : Fin 16) (n : Nat) (f : Laser → Laser) : State :=
  let l := s.link p
  s.setLink p (if n = 0 then { l with las0 := f l.las0 } else { l with las1 := f l.las1 })

/-! ## Codewords (R263) -/

/-- The transmitter sends k codewords; those whose count is a multiple of 4,096 begin comma groups, on the line but in NES and NEP. -/
def State.txCodewords (s : State) (p : Fin 16) (k : Nat) : State :=
  let n := (s.link p).fr.txCw
  let first := (n + 4095) / 4096
  let s := (List.range ((n + k + 4095) / 4096 - first)).foldl (fun s i =>
    if s.nearTest p then s else s.emit (.comma p (4096 * (first + i)) commaCwhs)) s
  let l := s.link p
  s.setLink p { l with fr := { l.fr with txCw := n + k } }

/-- The count skips ahead to the next comma group, which resumes the codewords (R282). -/
def State.txResume (s : State) (p : Fin 16) : State :=
  let l := s.link p
  (s.setLink p { l with fr := { l.fr with txCw := (l.fr.txCw + 4095) / 4096 * 4096 } }).txCodewords p 1

/-- Codewords are decoded, with their CWHs: they count in FEC_CW; lost alignment retrains the link (R263, R273). -/
def State.rxCodewords (s : State) (p : Fin 16) (cwhs : List (Fin 1048576)) : State :=
  if cwhs = [] then s else
  let s := s.addPair (.port p) Reg.PORT.FEC_CW_LO Reg.PORT.FEC_CW_HI cwhs.length
  let l := s.link p
  let fr := cwhs.foldl (fun f w => f.take w.val) l.fr
  let s := s.setLink p { l with fr := fr }
  if fr.lost then s.retrainFor p 3 else s

/-! ## Control writes (R271, R273, R276, R278) -/

/-- A TEST value is selected (R276): the link drops with cause TEST, or bring-up starts at step 1. Leaving FAR sends LOOP_EXIT
(R277). -/
def State.selectTest (s : State) (p : Fin 16) (v : Nat) : State :=
  if 5 ≤ v || (v ≠ 0 && (s.admitState p = 3 || s.admitState p = 4)) || v = s.testMode p then s else
  let s := if s.testMode p = 3 && s.codewords p then s.sendLink p 0x04 false 0 else s
  let s := if v = 0 then s else s.linkDrop p 8
  let s := (s.setF (.port p) Reg.PORT.LINK_CTL_TEST v).toStep1 p
  (s.setF (.port p) Reg.PORT.PRBS_STAT_LOCKED 0).readmit p

/-- RETRAIN or TEST that a gap held is applied when it ends (R286); `l`: the port as the gap left it. -/
def State.applyHeld (s : State) (p : Fin 16) (l : LinkSt) : State :=
  let s := if l.heldRetrain then s.linkDrop p 6 else s
  match l.heldTest with
  | some v => s.selectTest p v
  | none => s

/-- A gap ends with the transmitter dark (R282, R286): the link drops with a cause, what waited is dropped, and a RETRAIN or TEST that was
held is applied. -/
def State.gapDark (s : State) (p : Fin 16) (cause : Nat) : State :=
  let l := s.link p
  ((((((s.laserTested p).relink p cause).clearGap p).dropHeld p).laserHealth p).applyHeld p l).readmit p

/-- LINK_CTL.ENABLE is written (R271, R273, R286). -/
def execLinkEnableWrite (p : Fin 16) (on : Bool) (s : State) : Ans :=
  .next (
    let u := UnitId.port p
    if !s.pageOpen u || (s.isSet u Reg.PORT.LINK_CTL_ENABLE == on) then s else
    let s := s.setF u Reg.PORT.LINK_CTL_ENABLE (if on then 1 else 0)
    if on then s.toStep1 p
    else if s.inGap p then s.gapDark p 9
    else (s.relink p 9).readmit p)

/-- LINK_CTL.RETRAIN is written: the link drops; during a gap the write is held (R273, R286). -/
def execLinkRetrain (p : Fin 16) (s : State) : Ans :=
  .next (
    if !s.pageOpen (.port p) then s
    else if s.inGap p then s.setLink p { s.link p with heldRetrain := true }
    else s.linkDrop p 6)

/-- LINK_CTL.TEST is written (R276); during a gap the write is held (R286). A reserved value is ignored. -/
def execLinkTestSelect (p : Fin 16) (v : Fin 8) (s : State) : Ans :=
  .next (
    if !s.pageOpen (.port p) || 5 ≤ v.val then s
    else if s.inGap p then s.setLink p { s.link p with heldTest := some v.val }
    else s.selectTest p v)

/-- PRBS_CFG is written (R278): setting CHK clears PRBS_BITS; a checker that is off is not locked. -/
def execPrbsConfigWrite (p : Fin 16) (pattern : Fin 4) (gen chk : Bool) (lanes : BitVec 8) (s : State) : Ans :=
  .next (
    let u := UnitId.port p
    if !s.pageOpen u then s else
    let same := s.getF u Reg.PORT.PRBS_CFG_PATTERN == pattern.val
    let s := s.setF u Reg.PORT.PRBS_CFG_PATTERN pattern
    let s := s.setF u Reg.PORT.PRBS_CFG_GEN gen.toNat
    let s := s.setF u Reg.PORT.PRBS_CFG_CHK chk.toNat
    let s := s.setF u Reg.PORT.PRBS_CFG_LANES lanes.toNat
    let s := if chk then s.setPair u Reg.PORT.PRBS_BITS_LO Reg.PORT.PRBS_BITS_HI 0 else s
    if chk && same then s.setF u Reg.PORT.PRBS_STAT_LOCKED (s.getF u Reg.PORT.PRBS_STAT_LOCKED &&& lanes.toNat)
    else s.setF u Reg.PORT.PRBS_STAT_LOCKED 0)

/-- A lane's checker runs; PATTERN 3 selects none (notes/assumptions/20.md). -/
def State.prbsOn (s : State) (p : Fin 16) (lane : Fin 8) : Bool :=
  (s.testMode p == 4 || s.testMode p == 3) && s.isSet (.port p) Reg.PORT.PRBS_CFG_CHK &&
    s.getF (.port p) Reg.PORT.PRBS_CFG_PATTERN != 3 && s.getF (.port p) Reg.PORT.PRBS_CFG_LANES / 2 ^ lane.val % 2 == 1

/-- Bits checked per lane since CHK was last set, and bit errors a lane has counted while locked (R278). -/
def State.prbsCount (s : State) (p : Fin 16) (lane : Fin 8) (bits errs : Nat) : State :=
  let u := UnitId.port p
  let s := s.bumpBy u (Reg.PORT.LANE_PRBS_ERR_COUNT lane) errs
  s.setPair u Reg.PORT.PRBS_BITS_LO Reg.PORT.PRBS_BITS_HI
    (max (s.getPair u Reg.PORT.PRBS_BITS_LO Reg.PORT.PRBS_BITS_HI) bits)

/-- A checker has received 64 error-free bits and locks. On a lane that is locked already, what it has counted since the last report:
`bits`, bits checked since CHK was last set; `errs`, bit errors. -/
def execPrbsLock (p : Fin 16) (lane : Fin 8) (bits errs : Nat) (s : State) : Ans :=
  .next (
    let locked := s.getF (.port p) Reg.PORT.PRBS_STAT_LOCKED
    if !s.prbsOn p lane then s
    else if locked / 2 ^ lane.val % 2 = 1 then s.prbsCount p lane bits errs
    else s.setF (.port p) Reg.PORT.PRBS_STAT_LOCKED (locked ||| 2 ^ lane.val))

/-- A locked checker loses lock; `bits`, bits checked since CHK was last set; `errs`, bit errors since the last report. -/
def execPrbsLockLoss (p : Fin 16) (lane : Fin 8) (bits errs : Nat) (s : State) : Ans :=
  .next (
    let u := UnitId.port p
    let locked := s.getF u Reg.PORT.PRBS_STAT_LOCKED
    if !s.prbsOn p lane || locked / 2 ^ lane.val % 2 = 0 then s else
    (s.setF u Reg.PORT.PRBS_STAT_LOCKED (locked - 2 ^ lane.val)).prbsCount p lane bits errs)

/-! ## Bring-up (R270–R273) -/

/-- A lane's bit of a mask. -/
def laneBit (m : BitVec 8) (lane : Fin 8) (b : Bool) : BitVec 8 :=
  if b then m ||| ((1 : BitVec 8) <<< lane.val) else m &&& ~~~((1 : BitVec 8) <<< lane.val)

/-- What a training frame shows of its lane: from step 2 on whether it has adapted, with what values, and whether it is locked; at
step 4 whether it is aligned (R271). -/
def Training.lane (t : Training) (step : Nat) (lane : Fin 8) (rx : LaneRx) : Training :=
  if step < 2 then t else
  { t with
    trained := laneBit t.trained lane rx.adapted
    aligned := if step = 4 then laneBit t.aligned lane rx.aligned else t.aligned
    eq := if rx.adapted then t.eq.put lane rx.eq else t.eq
    cur := if rx.adapted then t.cur.put lane rx.eq else t.cur }

/-- An end that has both sent and received READY sends one more frame and starts codewords with a comma group at count 0 (R271). -/
def State.startCodewords (s : State) (p : Fin 16) : State :=
  if s.atStep p 4 && (s.ownFrame p).ready && (s.link p).partner.ready && (s.link p).fr.txCw == 0 then (s.sendFrame p).txCodewords p 1
  else s

/-- A training frame arrives on a lane (R270), with the lane's received power in 0.01 dBm and how the lane stands; in NES and NEP it is the
port's own. When this changes the fields of the port's own frames, they go out so. -/
def execTrainingFrame (p : Fin 16) (lane : Fin 8) (f : TrainFrame) (power : BitVec 16) (rx : LaneRx) (s : State) : Ans :=
  .next (
    let l := s.link p
    if s.linkState p = 0 || 5 ≤ l.step then s else
    let u := UnitId.port p
    let was := s.ownFrame p
    let s := s.setF u (Reg.PORT.LANE_RXPWR_DBM lane) power.toNat
    let s := s.setF u Reg.PORT.LINK_STAT_RX_LOCK
      (if l.step < 2 then s.getF u Reg.PORT.LINK_STAT_RX_LOCK
       else (laneBit (BitVec.ofNat 8 (s.getF u Reg.PORT.LINK_STAT_RX_LOCK)) lane rx.locked).toNat)
    let s := s.setLink p { l with partner := if s.nearTest p then was else f, tr := l.tr.lane l.step lane rx }
    (if s.ownFrame p = was then s else s.sendFrame p).startCodewords p)

/-- Step 1 ends: all 8 lanes have detected signal for 100 µs. -/
def execLinkSignalDetected (p : Fin 16) (s : State) : Ans :=
  .next (if s.atStep p 1 then (s.showStep p 2).sendFrame p else s)

/-- Step 2 ends: TRAINED reads 0xFF at both ends. While the partner's port is in TEST, a port that is not stays in TRAIN (R276). -/
def execLinkTrained (p : Fin 16) (s : State) : Ans :=
  .next (
    let l := s.link p
    if s.atStep p 2 && l.tr.trained == 0xFF && l.partner.trained == 0xFF && (!l.partner.test || s.testMode p != 0) then
      (s.showStep p 3).sendFrame p
    else s)

/-- Step 3 ends: LOCKED is 1 at both ends. -/
def execLinkCdrLocked (p : Fin 16) (s : State) : Ans :=
  .next (
    if s.atStep p 3 && (s.ownFrame p).locked && (s.link p).partner.locked then (s.showStep p 4).sendFrame p else s)

/-- Send a CAP flit (R272). The receiver of this package accepts electrical idle. -/
def State.sendCap (s : State) (p : Fin 16) : State :=
  let u := UnitId.port p
  s.sendLink p 0x01 false (capBody (s.getF u Reg.PORT.CAP_OWN_LEVEL) (s.getF u Reg.PORT.CAP_OWN_MIN_LEVEL) true
    (s.isSet u Reg.PORT.LINK_CTL_FAR_LOOP_ALLOW))

/-- Step 4 ends: own codewords have started, and the partner's first comma group is decoded. CAP is sent, or the request of a far-end
loopback (R277). -/
def execLinkAligned (p : Fin 16) (s : State) : Ans :=
  .next (
    if s.atStep p 4 && (s.ownFrame p).ready && (s.link p).partner.ready && 0 < (s.link p).fr.txCw then
      let s := s.showStep p 5
      let l := s.link p
      let s := s.setLink p { l with capRx := false, capAcked := false, rxNum := 0, fr := { Framing.init with rxCw := 8, txCw := l.fr.txCw } }
      if s.testMode p = 3 then s.sendLink p 0x03 false 0 else s.sendCap p
    else s)

/-- A failed attempt: counted, and bring-up starts again. -/
def State.failStep (s : State) (p : Fin 16) (cause : Nat) : State :=
  let s := s.bump (.port p) Reg.PORT.TRAIN_FAIL_COUNT
  (s.setF (.port p) Reg.PORT.LINK_STAT_CAUSE cause).toStep1 p

/-- Flits up to an ACK_SEQ leave the replay buffer (R266). -/
def State.ackTo (s : State) (p : Fin 16) (ack : Nat) : State :=
  let l := s.link p
  let first := match l.replay with | [] => l.txNum | f :: _ => f.num
  let n := (ack + 2 ^ 20 - first) % 2 ^ 20
  if n ≤ l.replay.length then s.setLink p { l with replay := l.replay.drop n } else s

/-- Every LINK flit that carries no NAK acknowledges (R264). -/
def State.linkRx (s : State) (p : Fin 16) (ack : Nat) : State :=
  if s.running p then (s.rxWake p).ackTo p ack else s

/-- A CAP flit arrives (R272). -/
def execCapFlit (p : Fin 16) (ack : Fin 1048576) (level minLevel : BitVec 8) (idle farLoop : Bool) (s : State) : Ans :=
  .next (
    let u := UnitId.port p
    let f := flitOf .link (linkBody 0x01 ack false (capBody level.toNat minLevel.toNat idle farLoop))
    match s.fromSelf p (fun g => g == f) with
    | none => s
    | some s =>
    let s := s.linkRx p ack
    if !s.atStep p 5 && !s.running p then s else
    let s := s.setF u Reg.PORT.CAP_NBR_LEVEL level.toNat
    let s := s.setF u Reg.PORT.CAP_NBR_MIN_LEVEL minLevel.toNat
    let s := s.setF u Reg.PORT.CAP_NBR_IDLE idle.toNat
    let s := s.setF u Reg.PORT.CAP_NBR_FAR_LOOP farLoop.toNat
    let own := s.getF u Reg.PORT.CAP_OWN_LEVEL
    let ownMin := s.getF u Reg.PORT.CAP_OWN_MIN_LEVEL
    if min own level.toNat < max ownMin minLevel.toNat then
      if s.running p then s else (s.failStep p 7).raise u Evt.PORT.CAP_FAIL
    else
      let s := s.setLink p { s.link p with capRx := true }
      s.sendLink p 0x00 false 0)

/-- Step 5 ends: the partner's CAP has come and ours was seen. The link is ACTIVE: numbering starts at 0, the first limits
are sent (R262, R303), LINK_UP is raised. A port in TEST carries flits against itself and stays in TEST (R276). -/
def execLinkUp (p : Fin 16) (s : State) : Ans :=
  .next (
    let l := s.link p
    if !s.atStep p 5 || !l.capRx || !l.capAcked then s else
    let s := s.setLink p { l with txNum := 0, rxNum := 0, rxFlits := [], advert := [], sent := [], limit := [],
                                  replay := [], sTx := 0, sRx := 0, sOut := [], sDue := false, sNak := false, ueLog := [] }
    let s := (s.showStep p 6).sendCredit p
    if !s.linkActive p then s else (s.raise (.port p) Evt.PORT.LINK_UP).readmit p)

/-- A step outlasts its limit (R271); a far end in loopback makes no attempt of its own (R277). -/
def execLinkStepTimeout (p : Fin 16) (s : State) : Ans :=
  .next (
    let n := (s.link p).step
    if s.linkState p = 0 || n < 1 || 5 < n || s.farLoop p then s else s.failStep p (10 + n))

/-! ## DATA flits (R265, R306, R332) -/

/-- Ask for a replay from the expected number; the number of NAKs in a row for it grows. -/
def State.sendNak (s : State) (p : Fin 16) : State :=
  let l := s.link p
  let s := s.setLink p { l with nakOut := true, naks := l.naks + 1 }
  s.sendLink p 0x00 true 0

/-- A NAK for the expected number, unless one is out already. -/
def State.nakOnce (s : State) (p : Fin 16) : State := if (s.link p).nakOut then s else s.sendNak p

/-- A flit of a packet is counted against its channel and held in its pen. -/
def LinkSt.penAdd (l : LinkSt) (v : Nat) : LinkSt :=
  let x := l.pen v
  { l with rxFlits := l.rxFlits.put v ((l.rxFlits.getD v 0 + 1) % 2 ^ 32), pens := l.pens.putD v { x with used := x.used + 1 } .empty }

/-- A flit of a channel is counted and its place freed at once: it is discarded. -/
def LinkSt.passBy (l : LinkSt) (v : Nat) : LinkSt :=
  if v ≤ 4 then
    { l with rxFlits := l.rxFlits.put v ((l.rxFlits.getD v 0 + 1) % 2 ^ 32)
             pens := l.pens.putD v { l.pen v with freed := (l.pen v).freed + 1 } .empty }
  else l

/-- The flit lies within the limit advertised for its channel. -/
def LinkSt.inLimit (l : LinkSt) (v : Nat) : Bool :=
  decide (0 < (l.advert.getD v 0 + 2 ^ 32 - l.rxFlits.getD v 0) % 2 ^ 32 ∧
    (l.advert.getD v 0 + 2 ^ 32 - l.rxFlits.getD v 0) % 2 ^ 32 ≤ penDepth v)

/-- Flits of the packet in hand leave the pen, and the rest of the packet is dropped as it comes. -/
def LinkSt.dropPart (l : LinkSt) (rest : Nat) : LinkSt :=
  let n := l.part.length / 60
  let x := l.pen l.partVc
  { l with part := [], partLeft := 0, skip := rest, pens := l.pens.putD l.partVc { x with used := x.used - n, freed := x.freed + n } .empty }

/-- An expected flit is taken in. -/
def State.acceptData (s : State) (p : Fin 16) (dnum : Nat) (body : List Byte) : State :=
  let l := s.link p
  let l := { l with rxNum := (l.rxNum + 1) % 2 ^ 20, nakOut := false, naks := 0 }
  if 0 < l.skip then s.setLink p { l.passBy l.partVc with skip := l.skip - 1 }
  else if l.partLeft = 0 then
    let w0 := leNat (body.take 4)
    let v := bitsOf w0 7 5
    let n := bitsOf w0 14 8
    if !headerOk body then (s.setLink p { l.passBy v with skip := n - 1, partVc := v }).violate p 0x06 v dnum
    else if !l.inLimit v then (s.setLink p { l.passBy v with skip := n - 1, partVc := v }).violate p 0x04 v dnum
    else
      let l := l.penAdd v
      s.setLink p (if n = 1 then { l with arrived := l.arrived ++ [(v, body)] }
        else { l with partVc := v, part := body, partLeft := n - 1 })
  else if !l.inLimit l.partVc then (s.setLink p ((l.passBy l.partVc).dropPart (l.partLeft - 1))).violate p 0x04 l.partVc dnum
  else
    let l := l.penAdd l.partVc
    s.setLink p (if l.partLeft = 1 then
        { l with arrived := l.arrived ++ [(l.partVc, l.part ++ body)], part := [], partLeft := 0 }
      else { l with part := l.part ++ body, partLeft := l.partLeft - 1 })

/-- A good DATA flit is taken by its number, which follows the last one's or its codeword's DSEQ (R262, R265); one whose number is not
known yet is discarded. -/
def State.takeData (s : State) (p : Fin 16) (body : List Byte) : State :=
  let l := s.link p
  if l.fr.realign || !l.fr.seqKnown then s else
  let n := l.fr.rxSeq
  let up := (n + 2 ^ 20 - l.rxNum) % 2 ^ 20
  let down := (l.rxNum + 2 ^ 20 - n) % 2 ^ 20
  let s := s.setLink p { l with fr := { l.fr with rxSeq := (n + 1) % 2 ^ 20 } }
  if up = 0 then (s.acceptData p n body).creditDue p
  else if down ≤ 98304 then s
  else if up ≤ 98304 then s.nakOnce p
  else s.violate p 0x02 0 n

/-- A flit of a decoded codeword fails its check; `data`, it stood in a DATA flit's place, and has its number (R265, R267). -/
def State.crcError (s : State) (p : Fin 16) (data : Bool) : State :=
  let s := s.bump (.port p) Reg.PORT.CRC_ERR_COUNT
  if data && s.running p then
    let l := s.link p
    (s.setLink p { l with fr := { l.fr with rxSeq := (l.fr.rxSeq + 1) % 2 ^ 20 } }).nakOnce p
  else s

/-- Where a port hears itself (R276, R277), a flit that arrives is one it has sent; a broken one may be any. -/
def State.ownFlit (s : State) (p : Fin 16) (flit : List Byte) : Option State :=
  if (flitKind flit).isNone then some s else s.fromSelf p (fun g => g == flit)

/-- A flit arrives in the DATA stream. `cwhs`: CWHs of the codewords decoded since the port last saw one of its flits or counters, up to
this flit's; none in the same codeword. Its kind is the one whose mask its CHECK matches (R261). A LINK or SYNC flit whose body breaks
its layout is a violation (R332); a good one has a row of its own. -/
def execDataFlit (p : Fin 16) (cwhs : List (Fin 1048576)) (flit : List Byte) (s : State) : Ans :=
  .next (
    if !s.codewords p then s else
    match s.ownFlit p flit with
    | none => s
    | some s =>
    let s := (s.rxWake p).rxCodewords p cwhs
    if !s.codewords p then s else
    match flitKind flit with
    | none => s.crcError p true
    | some .idle => s
    | some .data => if s.running p then s.takeData p (flitBody flit) else s
    | some .link => match linkCode (flitBody flit) with
      | some c => s.violate p c 0 0
      | none => s
    | some .sync => if s.running p && syncBroken (flitBody flit) then s.violate p 0x07 0 0 else s)

/-- A flit of a decoded codeword fails its check; `data`, it stood in a DATA flit's place. A flit whose CHECK matches a mask is no such
flit (R261). -/
def execFlitCrcError (p : Fin 16) (cwhs : List (Fin 1048576)) (data : Bool) (flit : List Byte) (s : State) : Ans :=
  .next (
    if !s.codewords p || (flitKind flit).isSome then s else
    let s := s.rxCodewords p cwhs
    if !s.codewords p then s else s.crcError p data)

/-- One millisecond, ns. -/
def ns1ms : Nat := 1000000

/-- An uncorrectable codeword (R268), after those whose CWHs are given. Two in a row after a burst drop the link with cause CDR
(R275); a comma group missed with it can lose alignment (R263). -/
def execUncorrectableCodeword (p : Fin 16) (cwhs : List (Fin 1048576)) (s : State) : Ans :=
  .next (
    if !s.codewords p then s else
    let s := s.rxCodewords p cwhs
    if !s.codewords p then s else
    let u := UnitId.port p
    let s := s.addPair u Reg.PORT.FEC_CW_LO Reg.PORT.FEC_CW_HI 1
    let s := (s.bump u Reg.PORT.FEC_UE_COUNT).raise u Evt.PORT.FEC_UE
    let log := s.elapsed :: (s.link p).ueLog.filter (fun t => decide (s.elapsed ≤ t + ns1ms))
    let s := s.setLink p { s.link p with ueLog := log, fr := (s.link p).fr.lose }
    let fr := (s.link p).fr
    if 3 ≤ fr.burst then s.retrainFor p 2
    else if fr.lost then s.retrainFor p 3
    else if s.getF u Reg.PORT.LINK_CFG_UE_LIMIT < log.length then s.retrainFor p 4
    else if s.running p then s.nakOnce p else s)

/-- The expected number has not come 64 µs after a NAK (R265). -/
def execNakResendTimer (p : Fin 16) (s : State) : Ans :=
  .next (
    let l := s.link p
    if !s.running p || !l.nakOut then s
    else if 16 ≤ l.naks then s.retrainFor p 5 else s.sendNak p)

/-- Bias, output and temperature of a laser are read (R289). -/
def State.setMon (s : State) (p : Fin 16) (n : Nat) (bias power : BitVec 16) (temp : BitVec 8) : State :=
  let u := UnitId.port p
  if n = 0 then
    ((s.setF u Reg.PORT.LASER0_MON_BIAS bias.toNat).setF u Reg.PORT.LASER0_MON_POWER power.toNat).setF u
      Reg.PORT.LASER_TEMP_L0 temp.toNat
  else (s.setF u Reg.PORT.LASER1_MON (bias.toNat + power.toNat * 2 ^ 16)).setF u Reg.PORT.LASER_TEMP_L1 temp.toNat

/-- What a port measures, whatever its state: received power, and its lasers (R289). -/
def State.linkMeasures (s : State) (p : Fin 16) (t : LinkTick) : State :=
  let s := (t.power.take 8).zipIdx.foldl (fun s e => s.setF (.port p) (Reg.PORT.LANE_RXPWR_DBM e.2) e.1.toNat) s
  (List.range 2).foldl (fun s n => s.setMon p n (t.bias.getD n 0) (t.output.getD n 0) (t.temp.getD n 0)) s

/-- What a port has counted enters its registers (R268, R289). -/
def State.linkCounts (s : State) (p : Fin 16) (t : LinkTick) : State :=
  let u := UnitId.port p
  let s := s.addPair u Reg.PORT.FEC_CORR_LO Reg.PORT.FEC_CORR_HI t.corrected
  let s := (t.syms.take 8).zipIdx.foldl (fun s e => s.bumpBy u (Reg.PORT.LANE_SYMERR_COUNT e.2) e.1) s
  if t.warn then s.raise u Evt.PORT.BER_WARN else s

/-- A LINK flit falls due (R265, R271): a CREDIT flit while flits are carried (R304), a CAP flit in capability exchange, with a
LOOP_REQ in TEST mode FAR (R277). The codewords of both directions since the last are counted, with what else the port has counted. In
every state, with no codewords too, the port's measurements move on. -/
def execLinkFlitTimer (p : Fin 16) (t : LinkTick) (s : State) : Ans :=
  .next (
    let s := s.linkMeasures p t
    if !s.codewords p then s else
    let s := s.rxCodewords p t.cwhs
    if !s.codewords p then s else
    let s := s.linkCounts p t
    let idle := s.isSet (.port p) Reg.PORT.LINK_STAT_IDLE_TX || s.inGap p || s.farLoop p
    let s := if idle then s else s.txCodewords p t.sent
    let s := if s.testMode p = 3 then s.sendLink p 0x03 false 0 else s
    if s.running p then s.sendCredit p else s.sendCap p)

/-! ## LINK flits (R264, R266, R303, R333) -/

/-- An acknowledgement. In capability exchange it shows that our CAP was seen. -/
def execLinkAck (p : Fin 16) (ack : Fin 1048576) (s : State) : Ans :=
  .next (
    match s.fromSelf p (linkIs 0x00 ack false) with
    | none => s
    | some s => if s.atStep p 5 then s.setLink p { s.link p with capAcked := true } else s.linkRx p ack)

/-- Send the buffered DATA flits again, in order. In a gap they are sent when it ends, in place of those that waited
(R286). -/
def State.replayAll (s : State) (p : Fin 16) : State :=
  let l := s.link p
  let notData := fun (o : Out) => match o with | .data _ _ _ => false | _ => true
  let s := s.setLink p { l with gapQ := l.gapQ.filter notData }
  l.replay.foldl (fun s f => s.sendFlit p (.data p f.num (flitOf .data f.body))) s

/-- A LINK flit with NAK: replay from ACK_SEQ, or a violation (R266). -/
def execLinkNak (p : Fin 16) (ack : Fin 1048576) (s : State) : Ans :=
  .next (
    if !s.running p then s else
    match s.fromSelf p (linkIs 0x00 ack true) with
    | none => s
    | some s =>
    let s := s.rxWake p
    let l := s.link p
    let first := match l.replay with | [] => l.txNum | f :: _ => f.num
    let n := (ack.val + 2 ^ 20 - first) % 2 ^ 20
    if n ≤ l.replay.length then
      let s := (s.ackTo p ack).replayAll p
      (s.bump (.port p) Reg.PORT.REPLAY_COUNT).raise (.port p) Evt.PORT.REPLAY
    else s.violate p 0x03 0 0)

/-- A limit is one a correct receiver can send: not below the one before it, nor above flits sent plus pen depth. -/
def LinkSt.limitOk (l : LinkSt) (v lim : Nat) : Bool :=
  (match l.limit.find v with
   | some old => decide ((lim + 2 ^ 32 - old) % 2 ^ 32 < 2 ^ 31)
   | none => true) && decide ((lim + 2 ^ 32 - l.sent.getD v 0) % 2 ^ 32 ≤ penDepth v)

/-- A CREDIT flit arrives (R303, R304); one with a bad limit is discarded whole, its acknowledgement too (R332). -/
def execCreditFlit (p : Fin 16) (ack : Fin 1048576) (l0 l1 l2 l3 l4 : BitVec 32) (s : State) : Ans :=
  .next (
    if !s.running p then s else
    let body := l0.toNat + l1.toNat * 2 ^ 32 + l2.toNat * 2 ^ 64 + l3.toNat * 2 ^ 96 + l4.toNat * 2 ^ 128
    match s.fromSelf p (fun g => g == flitOf .link (linkBody 0x10 ack false body)) with
    | none => s
    | some s =>
    let s := s.rxWake p
    let lims := [l0.toNat, l1.toNat, l2.toNat, l3.toNat, l4.toNat].zipIdx
    match lims.find? (fun e => !(s.link p).limitOk e.2 e.1) with
    | some e => s.violate p 0x05 e.2 0
    | none =>
      let s := s.linkRx p ack
      let l := s.link p
      s.setLink p { l with limit := lims.foldl (fun m e => m.put e.2 e.1) l.limit })

/-- A REJECT flit: counted, nothing else (R333). -/
def execLinkRejectFlit (p : Fin 16) (ack : Fin 1048576) (s : State) : Ans :=
  .next (
    if !s.codewords p then s else
    match s.fromSelf p (linkIs 0x11 ack false) with
    | none => s
    | some s => (s.linkRx p ack).bump (.port p) Reg.PORT.PV_RX_COUNT)

/-- IDLE_ENTER: the far transmitter enters electrical idle; what comes next follows a burst (R275). -/
def execIdleEnterFlit (p : Fin 16) (ack : Fin 1048576) (s : State) : Ans :=
  .next (
    if !s.running p then s else
    match s.fromSelf p (linkIs 0x02 ack false) with
    | none => s
    | some s =>
    let s := (s.linkRx p ack).setF (.port p) Reg.PORT.LINK_STAT_IDLE_RX 1
    let l := s.link p
    s.setLink p { l with fr := { l.fr with burst := 1 } })

/-- LOOP_REQ: granted only with FAR_LOOP_ALLOW 1 and TEST NONE (R277). -/
def execLoopReqFlit (p : Fin 16) (ack : Fin 1048576) (s : State) : Ans :=
  .next (
    let u := UnitId.port p
    match s.fromSelf p (linkIs 0x03 ack false) with
    | none => s
    | some s =>
    let s := s.linkRx p ack
    if s.linkState p ≠ 0 && s.isSet u Reg.PORT.LINK_CTL_FAR_LOOP_ALLOW && s.testMode p = 0 then
      s.setF u Reg.PORT.LINK_STAT_FAR_LOOP 1
    else s)

/-- LOOP_EXIT ends far-end loopback. -/
def execLoopExitFlit (p : Fin 16) (ack : Fin 1048576) (s : State) : Ans :=
  .next (
    match s.fromSelf p (linkIs 0x04 ack false) with
    | none => s
    | some s => let s := s.linkRx p ack; if s.farLoop p then s.endLoop p else s)

/-- The requesting end's signal has been lost for 1 ms: far-end loopback ends. -/
def execFarLoopLosTimeout (p : Fin 16) (s : State) : Ans := .next (if s.farLoop p then s.endLoop p else s)

/-- A loopback request of this end was not granted within 10 ms (R277). -/
def execFarLoopTimeout (p : Fin 16) (s : State) : Ans :=
  .next (if s.linkState p = 7 && s.testMode p = 3 then s.failStep p 14 else s)

/-! ## Electrical idle (R275) -/

/-- IDLE_DELAY has passed with only IDLE flits to send. -/
def execIdleEntry (p : Fin 16) (s : State) : Ans :=
  .next (
    let u := UnitId.port p
    if s.linkActive p && !s.inGap p && s.isSet u Reg.PORT.LINK_CTL_IDLE_EN && s.isSet u Reg.PORT.CAP_NBR_IDLE &&
        !s.isSet u Reg.PORT.LINK_STAT_IDLE_TX && !s.farLoop p then
      (s.sendLink p 0x02 false 0).setF u Reg.PORT.LINK_STAT_IDLE_TX 1
    else s)

/-- A flit is ready: the transmitter leaves idle with its burst. -/
def execIdleExit (p : Fin 16) (s : State) : Ans :=
  .next (if s.linkActive p && !s.inGap p then s.wakePort p else s)

/-! ## Loss of signal and lock (R273, R283) -/

/-- A receive lane loses signal: the receiver holds the link. -/
def execLaneSignalLoss (p : Fin 16) (s : State) : Ans :=
  .next (
    let u := UnitId.port p
    if s.linkActive p && !s.isSet u Reg.PORT.LINK_STAT_LOS_HOLD then
      (s.setF u Reg.PORT.LINK_STAT_LOS_HOLD 1).raise u Evt.PORT.LOS_HOLD
    else s)

/-- Signal returns within the hold: the receiver realigns on the comma group that follows the burst, and a NAK for the expected number
is sent. -/
def execSignalReturn (p : Fin 16) (s : State) : Ans :=
  .next (
    let u := UnitId.port p
    if s.linkActive p && s.isSet u Reg.PORT.LINK_STAT_LOS_HOLD then
      let s := (s.setF u Reg.PORT.LINK_STAT_LOS_HOLD 0).rxWake p
      let l := s.link p
      (s.setLink p { l with fr := { l.fr with realign := true, seqKnown := false, run := 0, burst := 1 } }).sendNak p
    else s)

/-- The loss has outlasted 160 µs. -/
def execLosHoldExpire (p : Fin 16) (s : State) : Ans :=
  .next (if s.isSet (.port p) Reg.PORT.LINK_STAT_LOS_HOLD then s.linkDrop p 1 else s)

/-- A lane's phase error exceeds ±0.4 UI. -/
def execCdrLockLoss (p : Fin 16) (s : State) : Ans := .next (s.retrainFor p 2)

/-! ## Lasers (R279–R287) -/

/-- The laser that has claimed the interlock trips before the gap is over: the role moves on within the gap, which goes on from its t0
(R281, R282, R285). -/
def State.moveGap (s : State) (p : Fin 16) : State :=
  let other := 1 - s.activeLaser p
  let s := (s.setF (.port p) Reg.PORT.LASER_STAT_ACTIVE_ID other).setLaser p other 0
  s.setLink p { s.link p with gapTrip := true, gapClaimed := false }

/-- The active laser's monitor trips (R281): 1 POWER_LOW, 2 BIAS_HIGH, 3 TEMP. In a gap the ACTIVE laser emits once it has claimed. -/
def execLaserTrip (p : Fin 16) (why : Fin 3) (s : State) : Ans :=
  .next (
    let u := UnitId.port p
    let a := s.activeLaser p
    if s.linkState p = 0 || s.laser p a ≠ 0 || (s.inGap p && !(s.link p).gapClaimed) then s else
    let s := ((s.setLaser p a 2).setLas p a (fun x => { x with cause := why + 1 })).setF u Reg.PORT.LASER_STAT_TRIP_CAUSE (why + 1)
    let s := s.raise u Evt.PORT.LASER_FAIL
    let s :=
      if s.laser p (1 - a) = 1 then (if s.inGap p then s.moveGap p else s.startGap p true)
      else if s.inGap p then s.gapDark p 10 else s.relink p 10
    s.laserHealth p)

/-- LASER_CTL.SWITCH is written (R285). -/
def execLaserSwitchCmd (p : Fin 16) (s : State) : Ans :=
  .next (
    let u := UnitId.port p
    let a := s.activeLaser p
    if !s.pageOpen u || s.linkState p = 0 || s.inGap p || s.laser p (1 - a) ≠ 1 then s else
    let s := if s.laser p a = 2 then s else s.setLaser p a 1
    ((s.setF u Reg.PORT.LASER_STAT_TRIP_CAUSE 4).startGap p false).laserHealth p)

/-- The raised standby's output is judged (R282). -/
def execStandbyClaimCheck (p : Fin 16) (good : Bool) (s : State) : Ans :=
  .next (
    let u := UnitId.port p
    if !s.inGap p || (s.link p).gapClaimed then s else
    if good then s.setLink p { s.link p with gapClaimed := true } else
    let a := s.activeLaser p
    let s := ((s.setLaser p a 2).setLas p a (fun x => { x with cause := 5 })).setF u Reg.PORT.LASER_STAT_TRIP_CAUSE 5
    (s.raise u Evt.PORT.LASER_FAIL).gapDark p 10)

/-- Codewords resume after a gap (R282): burst and comma group; then what waited, the sync channel first, LINK flits before DATA flits
(R284, R286, R339); `l`: the port as the gap left it. -/
def State.flushGap (s : State) (p : Fin 16) (l : LinkSt) : State :=
  if s.farLoop p then s else
  let s := ((s.setF (.port p) Reg.PORT.LINK_STAT_IDLE_TX 0).emit (.burst p)).txResume p
  let s := l.syncQ.foldl (fun s q => s.syncEmit p q) s
  let s := if l.helloDue then s.sendHello p else s
  let s := s.pumpSync p l.sHeld.length
  let isData := fun (o : Out) => match o with | .data _ _ _ => true | _ => false
  let s := (l.gapQ.filter (fun o => !isData o)).foldl (fun s o => s.sendFlit p o) s
  (l.gapQ.filter isData).foldl (fun s o => s.sendFlit p o) s

/-- Quick calibration is done: burst, comma group, and what waited in the gap goes out (R282, R284, R286). -/
def execLaserSwitchComplete (p : Fin 16) (s : State) : Ans :=
  .next (
    let u := UnitId.port p
    let l := s.link p
    if !s.inGap p || !l.gapClaimed then s else
    let s := s.clearGap p
    let s := (s.bump u Reg.PORT.LASER_SWITCHES_COUNT).raise u Evt.PORT.LASER_SWITCH
    let s := s.setF u Reg.PORT.LASER_STAT_CAL_PEND 1
    let s := (s.laserTested p).dropHeld p
    let s := if s.codewords p && !s.nearTest p then s.flushGap p l else s.sendFrame p
    s.applyHeld p l)

/-- Fine calibration is done in service: the active laser's modulator calibration is `cal` (R288), its bias, power and temperature are
read. -/
def execLaserCalDone (p : Fin 16) (bias power : BitVec 16) (temp : BitVec 8) (cal : Nat) (s : State) : Ans :=
  .next (
    let u := UnitId.port p
    if !s.isSet u Reg.PORT.LASER_STAT_CAL_PEND then s else
    let s := (s.setF u Reg.PORT.LASER_STAT_CAL_PEND 0).raise u Evt.PORT.CAL_DONE
    let a := s.activeLaser p
    (s.setLas p a (fun x => { x with cal := cal })).setMon p a bias power temp)

end Sys2Proof.Machine
end

