-- ==== Sys2Proof/Machine/Routing.lean ====
section
/-! DEFINITION. Routing, flow control and delivery (R291–R338): pens, routes, packets delivered, flows, circuits,
multicast, the ATOMIC service. A timer row is the block's own statement that its time has come. -/

namespace Sys2Proof.Machine

open Sys2Proof

/-! ## Pens (R305–R308) -/

/-- Hub of the router a packet waits for. -/
def PenSrcHub : PenSrc → Fin 2
  | .port p _ => portHub p
  | .inject h _ => h

/-- The pen, or the router's queue of this package's own packets. -/
def State.penAt (s : State) : PenSrc → Pen
  | .port p v => (s.link p).pen v
  | .inject h net => let r := s.rout h
    if net = 0 then r.injReq else if net = 1 then r.injRsp else r.injCkt

def State.setPenAt (s : State) (src : PenSrc) (x : Pen) : State :=
  match src with
  | .port p v => s.setLink p ((s.link p).setPen v x)
  | .inject h net => let r := s.rout h
    s.setRout h (if net = 0 then { r with injReq := x } else if net = 1 then { r with injRsp := x } else { r with injCkt := x })

/-- The head leaves its pen and its flits are freed. -/
def State.popPen (s : State) (src : PenSrc) : State :=
  let x := s.penAt src
  match x.pkts with
  | [] => s
  | pk :: rest =>
    let s := s.setPenAt src { x with pkts := rest, esc := false, gone := [] }
    match src with
    | .port p v => s.penFree p v pk.flits
    | .inject _ _ => s.setPenAt src { x with pkts := rest, esc := false, gone := [], used := x.used - pk.flits }

/-- A complete packet's PCRC is checked: it commits or is rewound (R306); on a port that is not ADMITTED it is
discarded (R300). -/
def execPacketCommit (p : Fin 16) (s : State) : Ans :=
  .next (
    let l := s.link p
    match l.arrived with
    | [] => s
    | (v, b) :: rest =>
      let n := b.length / 60
      let s := s.setLink p { l with arrived := rest }
      let u := UnitId.port p
      if !s.admitted p then (s.penFree p v n).portLost p 1
      else if pcrcGood b then
        let l := s.link p
        let x := l.pen v
        s.setLink p (l.setPen v { x with pkts := x.pkts ++ [Packet.ofBytes b] })
      else (((s.penFree p v n).bump u Reg.PORT.PEN_CRC_COUNT).raise u Evt.PORT.PEN_ERR))

/-- The pointer copies of a pen disagree: the pen resets (R307). -/
def execPenReset (p : Fin 16) (v : Fin 5) (s : State) : Ans :=
  .next (
    let u := UnitId.port p
    let l := s.link p
    let l := { l with arrived := l.arrived.filter (fun a => a.1 ≠ v.val) }
    let l := if l.partVc = v.val ∧ 0 < l.partLeft then { l with part := [], skip := l.partLeft, partLeft := 0 } else l
    let x := l.pen v
    let n := x.used
    let s := (s.setLink p (l.setPen v { x with pkts := [], esc := false, gone := [] })).penFree p v n
    let s := s.bump u Reg.PORT.PEN_RESET_COUNT
    (s.setF u Reg.PORT.PEN_LAST_VC v).raise u Evt.PORT.PEN_ERR)

/-- A request or reply has waited ESC_WAIT at its pen head (R296). -/
def execEscWaitExpire (src : PenSrc) (s : State) : Ans :=
  .next (
    let x := s.penAt src
    match x.pkts with
    | [] => s
    | pk :: _ => if opNet pk.op = some 2 then s else s.setPenAt src { x with esc := true })

/-- A packet has been visible at a pen head for AGE_US without a grant: it is dropped (R298). -/
def execPenAgeDrop (src : PenSrc) (s : State) : Ans :=
  .next (
    if (s.penAt src).pkts.isEmpty then s else
    let u := UnitId.rout (PenSrcHub src)
    ((s.popPen src).bump u Reg.ROUT.AGE_DROP_COUNT).raise u Evt.ROUT.PKT_DROP)

/-- A new microsecond begins: every port's transit share starts afresh (R301). -/
def execTransitWindowTick (s : State) : Ans :=
  .next (allPorts.foldl (fun s p => s.setLink p { s.link p with transit := 0 }) s)

/-! ## Routes (R295–R301) -/

/-- The packet is transit here (R301). -/
def State.isTransit (s : State) (pk : Packet) : Bool := pk.jobTag != s.jobTag

/-- The transit share of a port leaves room for the packet. -/
def State.transitRoom (s : State) (p : Fin 16) (pk : Packet) : Bool :=
  !s.isTransit pk || decide ((s.link p).transit + pk.flits ≤
    3125 * s.getF (.rout (portHub p)) Reg.ROUT.ROUTE_CFG_TRANSIT_PCT / 100)

/-- A packet can start on a port and channel now. -/
def State.portFree (s : State) (p : Fin 16) (v : Nat) (pk : Packet) : Bool :=
  s.admitted p && !s.inGap p && s.canStart p v pk.flits && s.transitRoom p pk

/-- A packet leaves on a port; HOPS rises by 1; transit flits are counted. -/
def State.forward (s : State) (h : Fin 2) (p : Fin 16) (v : Nat) (pk : Packet) : State :=
  let s := if s.isTransit pk then
      (s.setLink p { s.link p with transit := (s.link p).transit + pk.flits }).addPair (.rout h)
        Reg.ROUT.TRANSIT_FLITS_LO Reg.ROUT.TRANSIT_FLITS_HI pk.flits
    else s
  s.sendPacket p v { pk with hops := pk.hops + 1 }

/-- The candidate with the most credits left; ties in rotating order after the port last granted. -/
def State.pickPort (s : State) (h : Fin 2) (v : Nat) (pk : Packet) (w : Word) : Option (Fin 16) :=
  let rot := (s.rout h).rot
  let order : List (Fin 16) := (List.range 16).map (fun i => ⟨(rot + 1 + i) % 16, by omega⟩)
  (order.filter (fun (p : Fin 16) => dCand w p.val && s.portFree p v pk)).foldl
    (fun (b : Option (Fin 16)) (p : Fin 16) => match b with
    | none => some p
    | some q => if (s.link q).credit v < (s.link p).credit v then some p else some q) none

/-- The spill target whose guest traffic the packet of this package carries. -/
def State.guestTarget (s : State) (pk : Packet) : Option Nat :=
  if pk.srcFid ≠ s.fid ∨ !pk.guest then none else
  (List.range 8).find? (fun k => (s.flow (guestCtx k)).out.any (fun x => x.pkt.seq == pk.seq && x.pkt.dstFid == pk.dstFid))

/-- A packet has no route: it is dropped; a request draws a REJECT if its source has one (R237, R299, R223). -/
def State.noRoute (s : State) (h : Fin 2) (pk : Packet) : State :=
  let u := UnitId.rout h
  let s := s.bump u Reg.ROUT.NO_ROUTE_COUNT
  let s := (s.setF u Reg.ROUT.NO_ROUTE_LAST_FID pk.dstFid).raise u Evt.ROUT.NO_ROUTE
  let s := if opNet pk.op = some 0 && s.hasRoute h pk.srcFid then
      s.inject h 1 { s.replyTo pk 0x13 pk.ctx with arg := St.destFenced }
    else s
  match s.guestTarget pk with
  | some k => s.loseTarget k
  | none => s

/-- Port of a dimension. -/
def dimPort (k : Nat) : Fin 16 := ⟨k % 16, by omega⟩

/-- Dimensions whose copies of the multicast packet at the head of a pen have still to leave. -/
def mcLeft (x : Pen) (pk : Packet) : List Nat := (maskDims pk.arg).filter (fun k => !x.gone.contains k)

/-! ## Turns (R302) -/

/-- Number of a pen in the rotation of an output port. -/
def penIndex : PenSrc → Nat
  | .port p v => 5 * p + v
  | .inject h net => 80 + 3 * h + net

/-- Every pen of the package's two routers, in rotation. -/
def allPens : List PenSrc :=
  allPorts.flatMap (fun p => (List.finRange 5).map (fun v => .port p v)) ++
  (List.finRange 2).flatMap (fun h => (List.finRange 3).map (fun n => .inject h n))

/-- The ports on which the packet at a pen head can start now, the one it is granted of its candidates first among them, and of a
multicast packet each that a copy has still to take. -/
def State.wants (s : State) (src : PenSrc) : List (Fin 16) :=
  let x := s.penAt src
  let h := PenSrcHub src
  match x.pkts with
  | [] => []
  | pk :: _ =>
    if opNet pk.op = some 2 then
      let e := s.cktEntry h (pk.ctx % 1024)
      let p := cktOut e
      if cktValid e && cktRole e ≠ 3 && s.admitted p && !s.inGap p && s.canStart p 4 pk.flits then [p] else []
    else if pk.op = 0x05 then
      ((mcLeft x pk).map dimPort).filter (fun p => s.portFree p 0 pk)
    else
      let w := s.dEntry h pk.dstFid
      if dValid w && dLocal w then [] else
      let v := if opNet pk.op = some 0 then 0 else 2
      match s.pickPort h v pk w with
      | some p => [p]
      | none => match s.escPort w with
        | some p => if x.esc && p ≠ 13 && s.portFree p (v + 1) pk then [p] else []
        | none => []

/-- The packet at the head of a pen is a circuit packet. -/
def State.headCkt (s : State) (src : PenSrc) : Bool := match (s.penAt src).pkts with
  | pk :: _ => opNet pk.op = some 2
  | [] => false

/-- A pen comes before another at a port: circuit packets first, then in rotation after the pen last granted. -/
def State.before (s : State) (p : Fin 16) (a b : PenSrc) : Bool :=
  let rank := fun (x : PenSrc) => (if s.headCkt x then 0 else 86) + (penIndex x + 85 - (s.link p).turn) % 86
  decide (rank a < rank b)

/-- No other pen's packet that could start now on a port comes before the head of this pen there. -/
def State.firstAt (s : State) (src : PenSrc) (p : Fin 16) : Bool :=
  allPens.all (fun o => o == src || !(s.wants o).contains p || !s.before p o src)

/-- The head of a pen is first where it would leave. -/
def State.myTurn (s : State) (src : PenSrc) : Bool := (s.wants src).all (s.firstAt src)

/-- A packet at the head of a pen has been granted ports: the rotation of each goes on after that pen. Circuit packets stand before the
rotation and do not move it. -/
def State.turnAfter (s : State) (src : PenSrc) (ps : List (Fin 16)) : State :=
  ps.foldl (fun s p => s.setLink p { s.link p with turn := penIndex src }) s

/-! ## Circuits and multicast at a router (R325, R329) -/

/-- A circuit packet at the head of its pen goes on, reaches its sink or is dropped; it waits for its port. -/
def State.routeCkt (s : State) (src : PenSrc) (pk : Packet) (errs : LineErrs) : State :=
  let h := PenSrcHub src
  let c := pk.ctx % 1024
  let e := s.cktEntry h c
  let go := fun (pk : Packet) =>
    if s.admitted (cktOut e) && !s.inGap (cktOut e) && s.canStart (cktOut e) 4 pk.flits then
      (s.popPen src).forward h (cktOut e) 4 { pk with ctx := cktNext e }
    else s
  match src with
  | .inject _ _ => if cktValid e && cktRole e = 1 then go pk else s.popPen src
  | .port p _ =>
    if cktValid e && cktIn e = p.val && (cktRole e = 2 || cktRole e = 3) && pk.jobTag = s.jobTag then
      if cktRole e = 2 then go pk else (s.popPen src).cktDeliver p pk errs
    else (s.popPen src).bump (.rout h) Reg.ROUT.CKT_DROP_COUNT

/-- The copies of the multicast packet at the head of a pen that can leave now do so, each when its port grants it, with the dimensions
below its own; for a copy whose port is not ADMITTED the root is told of the lost subtree (R329). -/
def State.mcForward (s : State) (src : PenSrc) (pk : Packet) : State :=
  let h := PenSrcHub src
  (mcLeft (s.penAt src) pk).foldl (fun s k =>
    let p := dimPort k
    let below := pk.arg % 2 ^ k
    let left := fun (s : State) => let x := s.penAt src
      s.setPenAt src { x with gone := x.gone ++ [k] }
    if !s.admitted p then left (s.sendMcAck h pk (s.pos ^^^ 2 ^ k) 3 below 0)
    else if s.portFree p 0 pk && s.firstAt src p then
      left ((s.turnAfter src [p]).forward h p 0 { pk with arg := pk.arg / 2 ^ 13 * 2 ^ 13 + below })
    else s) s

/-- A multicast packet at the head of its pen: when its last copy has left, it leaves the pen, and a copy of another package's is taken
in. -/
def State.routeMc (s : State) (src : PenSrc) (pk : Packet) (errs : LineErrs) : State :=
  let s := s.mcForward src pk
  if !(mcLeft (s.penAt src) pk).isEmpty then s else
  let s := s.popPen src
  match src with
  | .port p _ => s.mcTake (portHub p) pk errs
  | .inject _ _ => s

/-! ## Packets at a pen head -/

/-- The packet at a pen head is granted an output, delivered or dropped, or waits (R295–R299). `errs`: lines its read
finds bad; `room`: guest frames a GUEST_RSP reports. -/
def execPacketRoute (src : PenSrc) (errs : LineErrs) (room : Nat) (s : State) : Ans :=
  .next (
    let x := s.penAt src
    let h := PenSrcHub src
    let u := UnitId.rout h
    match x.pkts with
    | [] => s
    | pk :: _ =>
      let came := match src with | .port _ _ => true | .inject _ _ => false
      if came && s.getF u Reg.ROUT.ROUTE_CFG_HOP_LIMIT ≤ pk.hops then
        ((s.popPen src).bump u Reg.ROUT.HOP_DROP_COUNT).raise u Evt.ROUT.PKT_DROP
      else if pk.op = 0x05 then s.routeMc src pk errs
      else if !s.myTurn src then s
      else if opNet pk.op = some 2 then s.routeCkt src pk errs
      else
        let w := s.dEntry h pk.dstFid
        if dValid w && dLocal w then (s.popPen src).deliver h pk errs room
        else if !s.hasRoute h pk.dstFid then (s.popPen src).noRoute h pk
        else
          let v := if opNet pk.op = some 0 then 0 else 2
          match s.pickPort h v pk w with
          | some p =>
            let s := (s.popPen src).forward h p v pk
            (s.setRout h { s.rout h with rot := p }).turnAfter src [p]
          | none =>
            match s.escPort w with
            | some p =>
              if x.esc && p ≠ 13 && s.portFree p (v + 1) pk then
                (((s.popPen src).forward h p (v + 1) pk).addPair u Reg.ROUT.ESC_PKTS_LO Reg.ROUT.ESC_PKTS_HI 1).turnAfter src [p]
              else s
            | none => s)

/-! ## Packets delivered, by operation

Each is a packet of the operation its row names that reaches the delivery unit of a hub. -/

/-- A packet of an operation with a payload in its range. -/
def isOp (op : Nat) (pk : Packet) : Bool := pk.op == op && payOk op pk.payload.length

/-- WRITE. -/
def execWrite (h : Fin 2) (pk : Packet) (errs : LineErrs) (s : State) : Ans :=
  .next (if isOp 0x01 pk then s.flowRequest h pk errs else s)

/-- HALO_WRITE. -/
def execHaloWrite (h : Fin 2) (pk : Packet) (s : State) : Ans := .next (if isOp 0x02 pk then s.flowRequest h pk [] else s)

/-- READ_REQ. -/
def execReadReq (h : Fin 2) (pk : Packet) (errs : LineErrs) (s : State) : Ans :=
  .next (if isOp 0x03 pk then s.flowRequest h pk errs else s)

/-- ATOMIC. -/
def execAtomic (h : Fin 2) (pk : Packet) (errs : LineErrs) (s : State) : Ans :=
  .next (if isOp 0x04 pk then s.flowRequest h pk errs else s)

/-- MC_WRITE: a copy arrives on a port and falls into its pen, where it goes on down its tree and is taken in; it waits behind those that
wait there, and while a copy of it cannot leave (R334). One that arrives with HOPS at HOP_LIMIT is dropped (R298). -/
def execMcWrite (p : Fin 16) (pk : Packet) (errs : LineErrs) (s : State) : Ans :=
  .next (
    let u := UnitId.rout (portHub p)
    if !isOp 0x05 pk then s
    else if s.getF u Reg.ROUT.ROUTE_CFG_HOP_LIMIT ≤ pk.hops then (s.bump u Reg.ROUT.HOP_DROP_COUNT).raise u Evt.ROUT.PKT_DROP
    else
      let l := s.link p
      let x := l.pen 0
      let s := s.setLink p (l.setPen 0 { x with pkts := x.pkts ++ [pk], used := x.used + pk.flits })
      if x.pkts.isEmpty then s.routeMc (.port p 0) pk errs else s)

/-- GUEST. -/
def execGuest (h : Fin 2) (pk : Packet) (s : State) : Ans := .next (if isOp 0x06 pk then s.flowRequest h pk [] else s)

/-- SYNC_FRAG. -/
def execSyncFrag (h : Fin 2) (pk : Packet) (s : State) : Ans := .next (if isOp 0x07 pk then s.flowRequest h pk [] else s)

/-- A circuit packet arrives on a port of its sink. -/
def State.cktArrive (s : State) (p : Fin 16) (pk : Packet) (errs : LineErrs) : State :=
  let e := s.cktEntry (portHub p) (pk.ctx % 1024)
  if cktValid e && cktRole e = 3 && cktIn e = p.val && pk.jobTag = s.jobTag then s.cktDeliver p pk errs
  else s.bump (.rout (portHub p)) Reg.ROUT.CKT_DROP_COUNT

/-- CKT_WRITE. -/
def execCktWrite (p : Fin 16) (pk : Packet) (errs : LineErrs) (s : State) : Ans :=
  .next (if isOp 0x08 pk then s.cktArrive p pk errs else s)

/-- CKT_HALO. -/
def execCktHalo (p : Fin 16) (pk : Packet) (s : State) : Ans := .next (if isOp 0x09 pk then s.cktArrive p pk [] else s)

/-- READ_RSP. -/
def execReadRsp (h : Fin 2) (pk : Packet) (errs : LineErrs) (s : State) : Ans :=
  .next (if isOp 0x10 pk then (s.findErrs errs).deliverReply h pk 0 else s)

/-- ATOMIC_RSP. -/
def execAtomicRsp (h : Fin 2) (pk : Packet) (s : State) : Ans := .next (if isOp 0x11 pk then s.deliverReply h pk 0 else s)

/-- ACK. -/
def execAck (h : Fin 2) (pk : Packet) (s : State) : Ans := .next (if isOp 0x12 pk then s.deliverReply h pk 0 else s)

/-- REJECT. -/
def execReject (h : Fin 2) (pk : Packet) (s : State) : Ans := .next (if isOp 0x13 pk then s.deliverReply h pk 0 else s)

/-- MC_ACK. -/
def execMcAck (h : Fin 2) (pk : Packet) (s : State) : Ans := .next (if isOp 0x14 pk then s.deliverReply h pk 0 else s)

/-- CKT_ACK. -/
def execCktAck (h : Fin 2) (pk : Packet) (s : State) : Ans := .next (if isOp 0x15 pk then s.deliverReply h pk 0 else s)

/-- GUEST_RSP; `room`: the guest frames its lender reports free. -/
def execGuestRsp (h : Fin 2) (pk : Packet) (room : Nat) (s : State) : Ans :=
  .next (if isOp 0x16 pk then s.deliverReply h pk room else s)

/-! ## Flows (R312–R316, R319) -/

/-- RTO_US has passed since the last sending of a request (R314, R319). -/
def execFlowRto (c : Fin 262144) (seq : BitVec 32) (s : State) : Ans :=
  .next (
    let f := s.flow c
    match f.out.find? (fun x => x.pkt.seq == seq.toNat) with
    | none => s
    | some x =>
      if f.state ≠ 1 then s
      else if f.retryMax ≤ x.tries then s.failFlow c
      else
        let s := s.setFlow c { f with
          out := f.out.map (fun y => if y.pkt.seq = seq.toNat then { y with tries := y.tries + 1 } else y) }
        (s.bump (.rout (flowHub c)) Reg.ROUT.RETX_COUNT).inject (flowHub c) 0 x.pkt)

/-- 500 ns have passed since a receive context, or a circuit's sink, accepted a packet not yet covered (R316, R326). -/
def execFlowAckTimer (ckt : Bool) (c : Fin 262144) (s : State) : Ans :=
  .next (
    if ckt then
      let e := s.cktEntry 0 (c % 1024)
      if cktValid e && cktRole e = 3 && 0 < (s.cktSt (c % 1024)).fresh then
        s.sendCktAck (portHub ⟨cktIn e % 16, by omega⟩) (c % 1024)
      else s
    else
      let f := s.flow c
      if f.state = 1 && f.kind = 2 && 0 < f.fresh then s.sendAck c else s)

/-- A 32-byte flow context entry in 32 bytes, enabled if it passes its checks and BAD if not (R312, R313). -/
def State.flowOfEntry (s : State) (c : Nat) (b : List Byte) : Flow :=
  let w0 := descF b 0 4
  let w4 := descF b 4 4
  let w8 := descF b 8 4
  let f : Flow := { Flow.init with
    kind := bitsOf w0 1 0, winLog := bitsOf w0 7 4, retryMax := bitsOf w0 11 8, rtoUs := bitsOf w0 31 16
    peerFid := bitsOf w4 19 0, peerCtx := bitsOf w8 17 0, replyAddr := descF b 0x10 8 }
  let e := s.mcEntry (flowHub c) (f.peerCtx % 4096)
  let ok := bitsOf w0 3 2 == 0 && f.winLog ≤ 8 && bitsOf w0 15 12 == 0 && bitsOf w4 31 20 == 0 && bitsOf w8 31 18 == 0 &&
    descF b 0x0C 4 == 0 && descF b 0x18 8 == 0 && f.retryMax ≠ 0 && f.rtoUs ≠ 0 &&
    (f.kind ≠ 1 || f.peerFid ≠ s.fid) && (f.kind ≠ 3 || (mcValid e && mcSource e))
  { f with state := if ok then 1 else 3 }

/-- FLOW_CTL.ENABLE is written (R313); the context selected must be homed on the page's hub (R337). -/
def execFlowEnable (h : Fin 2) (errs : LineErrs) (s : State) : Ans :=
  .next (
    let u := UnitId.rout h
    let c := s.getF u Reg.ROUT.FLOW_SEL_CTX
    if !s.pageOpen u || flowHub c ≠ h then s else
    let base := s.getPair u Reg.ROUT.FLOW_TAB_LO Reg.ROUT.FLOW_TAB_HI
    let (s, st, b) := ((s.endFlow c 0).findErrs errs).readMem (.hub h) (base + 32 * c) 32
    s.setFlow c (if st ≠ 0 then { Flow.init with state := 3 } else s.flowOfEntry c b))

/-- FLOW_CTL.DISABLE is written (R313). -/
def execFlowDisable (h : Fin 2) (s : State) : Ans :=
  .next (
    let u := UnitId.rout h
    let c := s.getF u Reg.ROUT.FLOW_SEL_CTX
    if !s.pageOpen u || flowHub c ≠ h then s else s.endFlow c 0)

/-- RTO_US of a circuit has passed (R326). -/
def execCktRto (c : Fin 1024) (s : State) : Ans :=
  .next (if cktValid (s.cktEntry 0 c) && cktRole (s.cktEntry 0 c) = 1 && !(s.cktSt c).failed then s.cktResend c else s)

/-- TRY of a multicast round; the field holds 0–7, and what a later round carries is a free value. -/
def State.tryOf (s : State) (round : Nat) : Nat := if round ≤ 7 then round else Config.freeNat s.freeCtr % 8

/-- RTO_US has passed since a round of a multicast message with positions unmarked (R331): what has been sent of it is sent again, and
what the window holds back goes with the new round when its turn comes (R314). -/
def execMcRoundRto (c : Fin 262144) (msgId : BitVec 8) (s : State) : Ans :=
  .next (
    let f := s.flow c
    match f.mcast.find? (fun m => m.msgId == msgId.toNat) with
    | none => s
    | some m =>
      if f.state ≠ 1 || f.kind ≠ 3 then s
      else if f.retryMax ≤ m.round || m.left.isEmpty then s.mcEnd c { m with fenced := m.fenced + m.left.length, left := [] }
      else
        let t := s.tryOf (m.round + 1)
        let s := if 7 ≤ m.round then s.tickFree else s
        let mine := fun (x : SentPkt) => x.pkt.msgId == m.msgId
        let again := fun (l : List SentPkt) => l.map (fun x => if mine x then { x with pkt := { x.pkt with tryN := t } } else x)
        let s := s.setFlow c { f with
          mcast := f.mcast.map (fun x => if x.msgId = m.msgId then { x with round := x.round + 1 } else x)
          out := again f.out, wait := again f.wait }
        ((again f.out).filter mine).foldl (fun s x =>
          (s.bump (.rout (flowHub c)) Reg.ROUT.RETX_COUNT).inject (flowHub c) 0 x.pkt) s)

/-! ## The ATOMIC service (R294) -/

/-- A kernel calls the ATOMIC service with a flow, an address, an AOP and operands. -/
def execKernelAtomic (d : Fin 4) (t : Fin 104) (k : Fin 2) (flow : Fin 262144) (addr x cmp : BitVec 64) (aop : Fin 16)
    (s : State) : Ans :=
  .next (
    if !s.kernelRuns d t k then s else
    let f := s.flow flow
    if f.state ≠ 1 then s.emit (.service d t k St.destFenced [])
    else if f.kind ≠ 1 then s.emit (.service d t k St.badMode [])
    else
      s.sendOnFlow flow (.atomic d t k) { s.blankPacket 0x04 0 with
        addr := addr.toNat, aop := aop, arg := cmp.toNat, msgBytes := 8, payload := leBytes 8 x.toNat })

/-! ## Circuit and multicast tables (R337) -/

/-- Entries of n words each of a table in memory; a zero entry is not listed. -/
def entriesAt (m : Map Byte) (src bytes n : Nat) : Map Nat :=
  (wordsAt m src bytes).foldl (fun (t : Map Nat) (e : Nat × Word) =>
    t.put (e.1 / n) (t.getD (e.1 / n) 0 + e.2.toNat * 2 ^ (32 * (e.1 % n)))) []

/-- The read of a circuit or multicast table into its shadow ends. -/
def execXtabReadDone (h : Fin 2) (errs : LineErrs) (s : State) : Ans :=
  .next (
    let u := UnitId.rout h
    let r := s.rout h
    match r.xbusy with
    | [] => s
    | which :: rest =>
      let n := if which = 1 then 16384 else 131072
      let src := if which = 1 then s.getSh u Reg.ROUT.CKT_TAB_LO + 2 ^ 32 * s.getSh u Reg.ROUT.CKT_TAB_HI
        else s.getSh u Reg.ROUT.MC_TAB_LO + 2 ^ 32 * s.getSh u Reg.ROUT.MC_TAB_HI
      let s := s.setRout h { r with xbusy := rest }
      let s := s.setF u Reg.ROUT.XTAB_STAT_BUSY (if rest.isEmpty then 0 else 1)
      let s := if src % 4096 = 0 && src + n ≤ 2 ^ 41 then s.findErrs errs else s
      let st := s.imageStatus src n 4096
      let s := s.setF u Reg.ROUT.XTAB_STAT_RESULT st
      if st ≠ 0 then s.raise u Evt.ROUT.XTAB_FAIL else
      let s := s.countImage (.hub h) src n
      let r := s.rout h
      s.setRout h (if which = 1 then { r with cktShadow := entriesAt s.mm.mem src n 4, cktStaged := true, crcs := { r.crcs with ckt := true } }
        else { r with mcShadow := entriesAt s.mm.mem src n 8, mcStaged := true, crcs := { r.crcs with mc := true } }))

end Sys2Proof.Machine
end

