-- ==== Sys2Proof/Machine/CommitOps.lean ====
section
/-! DEFINITION. The consistency check of a subtree (R557, R558) and the application of its staged set (R559, R560, R376,
R377). A rule is judged when a register it concerns is staged (notes/assumptions/30.md). -/

namespace Sys2Proof.Machine

open Sys2Proof

/-! ## The check, page by page -/

/-- A failure: offset of the register and cause. -/
abbrev CFail := Nat × Nat

/-- One failure, when it holds. -/
def failIf (b : Bool) (off cause : Nat) : List CFail := if b then [(off, cause)] else []

/-- A staged address pair. -/
def State.shPair (s : State) (u : UnitId) (lo hi : Fld) : Nat := s.getSh u lo + 2 ^ 32 * s.getSh u hi

/-- A staged table of package memory is aligned and ends within it. -/
def tableFails (off base align n : Nat) : List CFail :=
  failIf (base % align ≠ 0) off 2 ++ failIf (2 ^ 41 < base + n) off 3

/-- Two axes share a dimension, or one names a dimension at or above n (R253). -/
def State.axisBad (s : State) (a : Nat) : Bool :=
  let m := fun b => s.getSh .pkg (Reg.PKG.AXIS_DIMS b)
  decide (2 ^ s.getSh .pkg Reg.PKG.CUBE_DIMS ≤ m a) || (List.range 4).any (fun b => b != a && (m a &&& m b) != 0)

/-- A port has a role in the staged configuration (R230). -/
def State.hasRole (s : State) (p : Fin 16) : Bool :=
  let n := s.getSh .pkg Reg.PKG.CUBE_DIMS
  if p.val < 13 then decide (p.val < n)
  else if p.val = 13 then decide (2 ≤ n)
  else
    let m := if p.val = 14 then s.getSh .pkg Reg.PKG.AUX_P14 else s.getSh .pkg Reg.PKG.AUX_P15
    m == 1 || m == 2

/-- Mode of an auxiliary port as staged; 0 for the others. -/
def State.auxMode (s : State) (p : Fin 16) : Nat :=
  if p.val = 14 then s.getSh .pkg Reg.PKG.AUX_P14 else if p.val = 15 then s.getSh .pkg Reg.PKG.AUX_P15 else 0

/-- Partner port of an auxiliary port in DOUBLE mode (R232). -/
def twinPort (p : Fin 16) : Fin 16 := if p.val = 14 then 0 else 1

/-- The expectation on a DOUBLE port names another serial than the one on its partner port; it expects another port than its own number
(R232). -/
def State.doubleSerial (s : State) (p : Fin 16) : Bool :=
  let serial := fun (q : Fin 16) => s.shPair (.port q) Reg.PORT.EXP_SERIAL_LO Reg.PORT.EXP_SERIAL_HI
  s.auxMode p == 1 && serial p != serial (twinPort p)

def State.doublePort (s : State) (p : Fin 16) : Bool := s.auxMode p == 1 && s.getSh (.port p) Reg.PORT.ADMIT_CFG_EXP_PORT != p.val

/-- The staged set leaves the port armed. -/
def State.armedSh (s : State) (p : Fin 16) : Bool := s.getSh (.port p) Reg.PORT.ADMIT_CFG_ARM == 1

/-- The PKG page (R144, R230, R235, R253, R255): no port stays armed without a fabric ID or without a role. -/
def State.pkgFails (s : State) : List CFail :=
  let u := UnitId.pkg
  let st := fun off => s.isStaged u off
  let fid := s.getSh u Reg.PKG.FABRIC_ID_FID
  let dims := s.getSh u Reg.PKG.CUBE_DIMS
  (if st 0x100 || st 0x104 then
    tableFails 0x100 (s.shPair u Reg.PKG.POOL_TAB_LO Reg.PKG.POOL_TAB_HI) 4096 (4096 * 64) ++
    failIf (s.pools.any (fun e => e.2.state == 1 || e.2.running != 0)) 0x100 5
  else []) ++
  (if st 0x1A0 then
    failIf (0xFFFF0 ≤ fid && fid < 0xFFFFF) 0x1A0 1 ++
    failIf (allPorts.any (fun p => s.admitState p == 3 || s.admitState p == 4)) 0x1A0 5 ++
    failIf (fid = 0xFFFFF && allPorts.any s.armedSh) 0x1A0 4
  else []) ++
  (if st 0x1A4 then
    failIf (dims = 0 || 13 < dims || 2 ^ dims ≤ s.getSh u Reg.PKG.CUBE_POS) 0x1A4 1 ++
    failIf (allPorts.any (fun p => p.val < 14 && s.armedSh p && !s.hasRole p)) 0x1A4 4
  else []) ++
  (if st 0x1A8 then
    failIf (s.getSh u Reg.PKG.AUX_P14 = 3 || s.getSh u Reg.PKG.AUX_P15 = 3) 0x1A8 1 ++
    failIf (allPorts.any (fun p => 14 ≤ p.val && s.armedSh p && (!s.hasRole p || s.doubleSerial p || s.doublePort p))) 0x1A8 4
  else []) ++
  (if st 0x1A4 || (List.range 4).any (fun a => st (0x1B0 + 4 * a)) then
    (List.range 4).flatMap (fun a => failIf (s.axisBad a) (0x1B0 + 4 * a) 4)
  else [])

/-- A CDIE page (R109, R130). -/
def State.cdieFails (s : State) (d : Fin 4) : List CFail :=
  let u := UnitId.cdie d
  let n := s.getSh u Reg.CDIE.KTAB_COUNT_COUNT
  let slots := s.getSh u Reg.CDIE.RSLOT_CFG_COUNT
  let busy := s.bslots.any (fun e => decide (d.val * 8192 ≤ e.1 ∧ e.1 < (d.val + 1) * 8192) && e.2.state != 0)
  (if s.isStaged u 0x04C || s.isStaged u 0x050 || s.isStaged u 0x054 then
    failIf (65536 < n) 0x04C 1 ++ tableFails 0x050 (s.shPair u Reg.CDIE.KTAB_BASE_LO Reg.CDIE.KTAB_BASE_HI) 64 (16 * n)
  else []) ++
  (if s.isStaged u 0x290 then
    failIf (8192 < slots) 0x290 1 ++ failIf (slots ≠ s.getF u Reg.CDIE.RSLOT_CFG_COUNT && busy) 0x290 5
  else [])

/-- A PORT page: a staged expectation with ARM 1 (R256), and, armed or not, one on a DOUBLE port (R232); one on the partner of a DOUBLE
port is held against the expectation of that port, where it is armed. -/
def State.portFails (s : State) (p : Fin 16) : List CFail :=
  let u := UnitId.port p
  let g := fun f => s.getSh u f
  let kind := g Reg.PORT.ADMIT_CFG_EXP_KIND
  let own := s.isStaged u 0x040 || s.isStaged u 0x044 || s.isStaged u 0x048
  (if own && g Reg.PORT.ADMIT_CFG_ARM = 1 then
    failIf (1 < kind) 0x048 1 ++
    failIf (s.getSh .pkg Reg.PKG.FABRIC_ID_FID = 0xFFFFF || !s.hasRole p || (kind = 1 && s.auxMode p ≠ 2)) 0x048 4
  else []) ++
  (if own then failIf (s.doubleSerial p) 0x040 4 ++ failIf (s.doublePort p) 0x048 4 else []) ++
  (if s.isStaged u 0x040 || s.isStaged u 0x044 then
    failIf (allPorts.any (fun q => 14 ≤ q.val && twinPort q == p && s.armedSh q && s.doubleSerial q)) 0x040 4
  else [])

/-- A circuit entry holds a reserved ROLE or bit, or a SHARE outside 1–150 (R324). -/
def cktRangeBad (e : Nat) : Bool :=
  cktRole e == 0 || bitsOf e 31 29 != 0 || bitsOf e 63 62 != 0 || bitsOf e 127 88 != 0 || cktShare e == 0 || 150 < cktShare e

/-- Circuit entries that leave by a port. -/
def cktsOn (m : Map Nat) (p : Fin 16) : List Nat :=
  (m.map Prod.snd).filter (fun e => cktValid e && (cktRole e == 1 || cktRole e == 2) && cktOut e == p)

/-- A circuit table breaks a rule between values (R324). -/
def State.cktConflict (s : State) (m : Map Nat) : Bool :=
  allPorts.any (fun p =>
    let l := cktsOn m p
    (!l.isEmpty && !s.armedOrStaged p) || decide (150 < (l.map cktShare).foldl (· + ·) 0))

/-- A multicast entry has a reserved bit set (R327). -/
def mcRangeBad (e : Nat) : Bool := bitsOf e 7 6 != 0 || bitsOf e 63 28 != 0 || bitsOf e 255 145 != 0

/-- A multicast entry breaks a rule between values (R327). -/
def State.mcConflict (s : State) (e : Nat) : Bool :=
  (mcValid e && s.getSh .pkg (Reg.PKG.AXIS_DIMS (mcAxis e)) == 0) ||
  (mcSource e && mcRoot e != s.getSh .pkg Reg.PKG.FABRIC_ID_FID)

/-- A ROUT page (R239, R324, R327, R337). -/
def State.routFails (s : State) (h : Fin 2) : List CFail :=
  let u := UnitId.rout h
  let r := s.rout h
  let st := fun off => s.isStaged u off
  (if r.dbusy = 1 || r.dbusy = 2 || (r.dstaged && r.dundef) then [(0x048, 6)]
   else if r.dstaged then
    failIf (r.dshadow.any (fun e => getBits e.2 31 23 != 0)) 0x048 1 ++ failIf (!s.dtabOk h) 0x048 4
   else []) ++
  (if st 0x108 || st 0x10C then
    tableFails 0x108 (s.shPair u Reg.ROUT.FLOW_TAB_LO Reg.ROUT.FLOW_TAB_HI) 4096 (262144 * 32)
   else []) ++
  (if st 0x124 || st 0x128 then
    tableFails 0x124 (s.shPair u Reg.ROUT.CKT_TAB_LO Reg.ROUT.CKT_TAB_HI) 4096 16384 ++
    (if !r.cktStaged then [(0x124, 6)] else
      failIf (r.cktShadow.any (fun e => cktRangeBad e.2)) 0x124 1 ++ failIf (s.cktConflict r.cktShadow) 0x124 4)
   else []) ++
  (if st 0x12C || st 0x130 then
    tableFails 0x12C (s.shPair u Reg.ROUT.MC_TAB_LO Reg.ROUT.MC_TAB_HI) 4096 131072 ++
    (if !r.mcStaged then [(0x12C, 6)] else
      failIf (r.mcShadow.any (fun e => mcRangeBad e.2)) 0x12C 1 ++
      failIf (r.mcShadow.any (fun e => s.mcConflict e.2)) 0x12C 4)
   else [])

/-- The bytes of a table of n entries of k bytes. -/
def entryBytes (m : Map Nat) (n k : Nat) : List Byte := (List.range n).flatMap (fun i => leBytes k (m.getD i 0))

/-- CRC-32C of a circuit table and of a multicast table. -/
def cktCrc (m : Map Nat) : Nat := crc32c (entryBytes m 1024 16)
def mcCrc (m : Map Nat) : Nat := crc32c (entryBytes m 4096 32)

/-- DTAB_CRC, CKT_CRC and MC_CRC: each reads its reset value 0 until its shadow has first been written (R257, R337). -/
def RoutSt.dtabCrc (r : RoutSt) : Nat := if r.crcs.shadow then bankCrc r.dshadow else 0
def RoutSt.cktTabCrc (r : RoutSt) : Nat := if r.crcs.ckt then cktCrc r.cktShadow else 0
def RoutSt.mcTabCrc (r : RoutSt) : Nat := if r.crcs.mc then mcCrc r.mcShadow else 0

/-- DTAB_ACTIVE_CRC: it reads its reset value 0 until a bank has first been swapped in. -/
def RoutSt.activeCrc (r : RoutSt) : Nat := if r.crcs.active then bankCrc r.dtab else 0

/-- The two routers' shadows agree (R239, R337): failures of the check of PKG, shown on H0's router page. -/
def State.twoRouters (s : State) : List CFail :=
  let a := s.rout 0
  let b := s.rout 1
  failIf (decide (a.dshadow ≠ b.dshadow ∨ a.crcs ≠ b.crcs) && a.dtabCrc ≠ b.dtabCrc) 0x050 4 ++
  failIf (decide (a.cktShadow ≠ b.cktShadow ∨ a.crcs ≠ b.crcs) && a.cktTabCrc ≠ b.cktTabCrc) 0x134 4 ++
  failIf (decide (a.mcShadow ≠ b.mcShadow ∨ a.crcs ≠ b.crcs) && a.mcTabCrc ≠ b.mcTabCrc) 0x138 4

/-- The SYNC page of H0 (R357, R383). -/
def State.syncFails (s : State) : List CFail :=
  let u := UnitId.sync 0
  (if s.isStaged u 0x040 || s.isStaged u 0x044 then
    tableFails 0x040 (s.shPair u Reg.SYNC.OBJ_TAB_LO Reg.SYNC.OBJ_TAB_HI) (2 ^ 21) (2 ^ 21)
   else []) ++
  (List.range 128).flatMap (fun i =>
    let off := 0x200 + 4 * i
    if !s.isStaged u off then [] else
    let w := (s.getShadow u off).toNat
    let act := bitsOf w 2 0
    let port : Fin 16 := ⟨bitsOf w 7 4 % 16, by omega⟩
    failIf (act = 7 || bitsOf w 3 3 ≠ 0 || bitsOf w 31 27 ≠ 0) off 1 ++
    failIf (act ≠ 0 && act ≠ 6 && !s.armedOrStaged port) off 4 ++
    failIf (s.getShadow u off ≠ s.getW u off && s.objs.any (fun e => e.2.state == 2 && e.2.plan == i / 16)) off 5)

/-- The PLACE page (R226). -/
def State.placeFails (s : State) : List CFail :=
  let u := UnitId.place
  let area := s.isStaged u 0x188
  let fidStaged := s.isStaged .pkg 0x1A0
  (if s.isStaged u 0x04C then
    failIf (50 < s.getSh u Reg.PLACE.SPILL_CFG_PCT || s.getSh u Reg.PLACE.SPILL_CFG_RATE = 0 ||
      200 < s.getSh u Reg.PLACE.SPILL_CFG_RATE) 0x04C 1
   else []) ++
  (List.range 8).flatMap (fun k =>
    let off := 0x100 + 8 * k
    let own := s.isStaged u off
    let kind := s.getSh u (Reg.PLACE.TGT_CFG_KIND k)
    let fid := s.getSh u (Reg.PLACE.TGT_CFG_FID k)
    (if own then
      failIf (kind = 3) off 1 ++
      failIf ((kind ≠ s.getF u (Reg.PLACE.TGT_CFG_KIND k) || fid ≠ s.getF u (Reg.PLACE.TGT_CFG_FID k)) &&
        s.getF u (Reg.PLACE.TGT_USED_PAGES k) ≠ 0) off 5
     else []) ++
    failIf ((own || fidStaged) && kind = 1 && fid = s.getSh .pkg Reg.PKG.FABRIC_ID_FID) off 4 ++
    failIf ((own || area) && kind = 2 && s.getSh u Reg.PLACE.HOST_AREA_PAGES = 0) off 4) ++
  (if s.isStaged u 0x180 then failIf (s.getSh u Reg.PLACE.HOST_AREA_LO % 2 ^ 21 ≠ 0) 0x180 2 else [])

/-- The entries of a phase plan (R425). -/
def State.planEntries (s : State) (base n : Nat) : List Nat := (List.range n).map (fun i => s.mm.mem.readLE (base + 16 * i) 16)

/-- A plan entry with a reserved bit, DUR_US 0 or TILES above 100. -/
def planRangeBad (e : Nat) : Bool := bitsOf e 127 107 != 0 || bitsOf e 87 64 == 0 || 100 < bitsOf e 106 100

/-- Some entry starts before the one ahead of it. -/
def planBack : List Nat → Bool
  | a :: b :: l => decide (bitsOf b 63 0 < bitsOf a 63 0) || planBack (b :: l)
  | _ => false

/-- The HCTL page (R393, R425, R524). -/
def State.hctlFails (s : State) : List CFail :=
  let u := UnitId.hctl
  let w := s.getSh u Reg.HCTL.CAP_HOST_WATTS
  let n := s.getSh u Reg.HCTL.PLAN_COUNT_COUNT
  let base := s.shPair u Reg.HCTL.PLAN_BASE_LO Reg.HCTL.PLAN_BASE_HI
  (if s.isStaged u 0x11C then failIf (s.getSh u Reg.HCTL.FW_ACT_GO = 1 && s.fwState ≠ 4) 0x11C 7 else []) ++
  (if s.isStaged u 0x200 then failIf (w < 800 || 2400 < w) 0x200 1 else []) ++
  (if s.isStaged u 0x2A4 || s.isStaged u 0x2A8 || s.isStaged u 0x2AC then
    let place := tableFails 0x2A4 base 64 (16 * n)
    if 4096 < n then place ++ [(0x2AC, 1)]
    else if !place.isEmpty || n = 0 then place
    else if s.imageStatus base (16 * n) 64 ≠ 0 then [(0x2A4, 6)]
    else
      let l := s.planEntries base n
      failIf (l.any planRangeBad) 0x2A4 1 ++ failIf (planBack l) 0x2A4 4
   else [])

/-- The PCIE page (R458). -/
def State.pcieFails (s : State) : List CFail :=
  let b := s.shPair .pcie Reg.PCIE.WIN_BASE_LO Reg.PCIE.WIN_BASE_HI
  if s.isStaged .pcie 0x048 || s.isStaged .pcie 0x04C then
    failIf (b % 2 ^ 21 ≠ 0) 0x048 2 ++ failIf (2 ^ 41 - 2 ^ 36 < b) 0x048 3
  else []

/-- Units with staged registers, by rising page index. -/
def stagedUnits : List UnitId :=
  [UnitId.pkg, .cdie 0, .cdie 1, .cdie 2, .cdie 3] ++ ((List.finRange 16).take 8).map .port ++
  [.rout 0, .sync 0, .pcie, .place, .hctl] ++ ((List.finRange 16).drop 8).map .port ++ [.rout 1]

/-- The unit lies in the subtree of a root. -/
def unitUnder (u root : UnitId) : Bool := decide (root ∈ UnitId.chain u 4)

/-- The staged set of a subtree: shadows outside it are no part of it, and count as the values in force (R557). -/
def State.scoped (s : State) (root : UnitId) : State :=
  if root = .pkg then s else
  let units := stagedUnits.filter (fun u => unitUnder u root)
  { s with shadow := s.shadow.filter (fun (e : Nat × Word) => units.any (fun u => decide (u.key * 1024 ≤ e.1 ∧ e.1 < u.key * 1024 + 1024))) }

/-- Failures of a unit's page in the check of a root. R239 and R327 name staged values of PKG whatever the root. -/
def State.unitFails (s : State) (root u : UnitId) : List CFail :=
  match u with
  | .pkg => s.pkgFails
  | .cdie d => s.cdieFails d
  | .port p => (s.scoped root).portFails p
  | .rout h => s.routFails h ++ (if h = 0 ∧ root = .pkg then s.twoRouters else [])
  | .sync h => if h = 0 then s.syncFails else []
  | .place => (s.scoped root).placeFails
  | .hctl => s.hctlFails
  | .pcie => s.pcieFails
  | _ => []

/-- The failure at the lowest offset, the first named where two share it. -/
def lowestFail : List CFail → Option CFail
  | [] => none
  | f :: l => match lowestFail l with
    | some g => if g.1 < f.1 then some g else some f
    | none => some f

/-- The check of a subtree: cause, offset and page of the failing register; none when it passes (R557, R558). -/
def State.checkFail (s : State) (root : UnitId) : Option (Nat × Nat × Nat) :=
  if !s.ready then some (8, 0x060, 0) else
  (stagedUnits.filter (fun u => unitUnder u root)).findSome? (fun u =>
    (lowestFail (s.unitFails root u)).map (fun f => (f.2, f.1, u.key)))

/-- STAGE_CHECK shows the outcome of a check. -/
def State.showCheck (s : State) (root : UnitId) : State :=
  let (cause, off, page) := (s.checkFail root).getD (0, 0, 0)
  let s := s.setF root Reg.CHECK_RESULT (if (s.checkFail root).isSome then 2 else 1)
  let s := s.setF root Reg.CHECK_CAUSE cause
  let s := s.setF root Reg.CHECK_WORD (off / 4)
  s.setF root Reg.CHECK_PAGE page

/-! ## Applying -/

/-- Shadows of a unit go into force. -/
def State.takeShadows (s : State) (u : UnitId) : State :=
  let lo := u.key * 1024
  let l := s.shadow.filter (fun (e : Nat × Word) => decide (lo ≤ e.1 ∧ e.1 < lo + 1024))
  let s : State := l.foldl (fun s e => s.setW u (4 * (e.1 - lo)) e.2) s
  let s := s.setF u Reg.STAGE_OWN 0
  { s with shadow := s.shadow.delRange lo (lo + 1024) }

/-- BELOW of the groups above the staged units (R23). -/
def State.showBelow (s : State) : State :=
  [UnitId.hub 0, UnitId.hub 1, UnitId.pkg].foldl (fun s g =>
    s.setF g Reg.STAGE_BELOW
      (if stagedUnits.any (fun u => unitUnder u g && u != g && s.isSet u Reg.STAGE_OWN) then 1 else 0)) s

/-- A committed kernel table marks the die's cached kernels stale (R79). -/
def State.staleKernels (s : State) (d : Fin 4) : State :=
  { s with tiles := s.tiles.map (fun (e : Nat × Tile) =>
      if e.1 / 104 = d.val then (e.1, { e.2 with kcache := e.2.kcache.map (fun k => { k with stale := true }) }) else e) }

/-- Bay addresses a..b of a die take free values. -/
def State.freeBay (s : State) (d : Fin 4) (a b : Nat) : State :=
  let base := d.val * 2 ^ 26
  let c := s.freeCtr
  let l : Map Byte := ((List.range (b - a)).map (fun i => (base + a + i, BitVec.ofNat 8 (Config.freeNat (c + i))))).filter
    (fun e => decide (e.2 ≠ 0))
  { s with bay := s.bay.filter (fun (e : Nat × Byte) => decide (e.1 < base + a)) ++ l ++
                  s.bay.filter (fun (e : Nat × Byte) => decide (base + b ≤ e.1)), freeCtr := c + (b - a) }

/-- A commit changes RSLOT_CFG.COUNT (R130): slots start afresh; addresses the region leaves hold undefined values. -/
def State.resizeSlots (s : State) (d : Fin 4) (was now : Nat) : State :=
  if was = now then s else
  let s := { s with bslots := s.bslots.delRange (d.val * 8192) ((d.val + 1) * 8192) }
  if now < was then s.freeBay d (0x3D00000 - 128 * was) (0x3D00000 - 128 * now) else s

/-- A commit of a port's expectation clears its holds (R248). -/
def State.clearHolds (s : State) (p : Fin 16) : State :=
  s.setLink p { s.link p with demoteHold := false, flapHold := false }

/-- Circuits whose entry a commit changed end what is outstanding with DEST_FENCED and start afresh (R324), and so do
FAILED ones when a circuit table is committed, changed or not (R550). -/
def State.endChanged (s old : State) (tabs : Bool) : State :=
  let keys := (s.net.r0.ckt ++ old.net.r0.ckt ++ s.net.r1.ckt ++ old.net.r1.ckt).map Prod.fst |>.eraseDups
  keys.foldl (fun s c =>
    if s.cktEntry 0 c = old.cktEntry 0 c ∧ s.cktEntry 1 c = old.cktEntry 1 c ∧ !(tabs && (s.cktSt c).failed) then s
    else (s.endCkt c false).setCkt c .init) s

/-- The tables of a router go into force: the destination banks swap, and the copy of the new active bank begins (R240,
R337). -/
def State.routApply (s old : State) (h : Fin 2) : State :=
  let u := UnitId.rout h
  let r := s.rout h
  let r := if old.isStaged u 0x124 || old.isStaged u 0x128 then { r with ckt := r.cktShadow, cktStaged := false } else r
  let r := if old.isStaged u 0x12C || old.isStaged u 0x130 then { r with mc := r.mcShadow, mcStaged := false } else r
  if r.dstaged then
    (s.setRout h { r with dtab := r.dshadow, dshadow := r.dtab, dstaged := false,
                          crcs := { r.crcs with active := r.crcs.shadow, shadow := r.crcs.active } }).dtabBusy h 3
  else s.setRout h r

/-- Committed targets (R223, R220): a staged target is no longer DOWN, whatever it was; one of host memory that may not be
used, or a peer to which the new tables leave no route, is DOWN. -/
def State.targetsApply (s old : State) (swapped : Bool) : State :=
  (List.range 8).foldl (fun s k =>
    let cfg := old.isStaged .place (0x100 + 8 * k)
    let hit := cfg || old.isStaged .place (0x104 + 8 * k)
    let s := if hit then s.setF .place (Reg.PLACE.TGT_USED_DOWN k) 0 else s
    let s := if cfg then { s with mm := { s.mm with room := s.mm.room.del k } } else s
    let kind := s.getF .place (Reg.PLACE.TGT_CFG_KIND k)
    if hit && kind = 2 && !s.dmaOpen then s.loseTarget k
    else if swapped && kind = 1 && !s.targetRoute k then s.loseTarget k
    else s) s

/-- Effects of the HCTL page's commit (R393, R504, R425, R524). -/
def State.hctlApply (s old : State) : State :=
  let u := UnitId.hctl
  let st := fun off => old.isStaged u off
  let s := if st 0x200 then s.capResolve else s
  let s := if (List.range 8).any (fun k => s.getF u (Reg.HCTL.RACK_KEY k) != old.getF u (Reg.HCTL.RACK_KEY k)) then
      s.setPair u Reg.HCTL.RACK_OSEQ_LO Reg.HCTL.RACK_OSEQ_HI 0 else s
  let s := if st 0x2A4 || st 0x2A8 || st 0x2AC then
      let n := s.getF u Reg.HCTL.PLAN_COUNT_COUNT
      let base := s.getPair u Reg.HCTL.PLAN_BASE_LO Reg.HCTL.PLAN_BASE_HI
      let s := s.setPw { s.pw with plan := s.planEntries base n }
      if n = 0 then s else s.countImage .host base (16 * n)
    else s
  if st 0x11C && s.isSet u Reg.HCTL.FW_ACT_GO then s.fwGo else s

/-- What a unit does when its staged set has gone into force. -/
def State.unitApply (s old : State) (u : UnitId) : State :=
  match u with
  | .pkg => if old.isStaged u 0x100 || old.isStaged u 0x104 then s.readTable else s
  | .cdie d =>
    let s := if old.isStaged u 0x04C || old.isStaged u 0x050 || old.isStaged u 0x054 then s.staleKernels d else s
    s.resizeSlots d (old.slotCount d) (s.slotCount d)
  | .port p => if old.isStaged u 0x048 then s.clearHolds p else s
  | .rout h => s.routApply old h
  | .hctl => s.hctlApply old
  | _ => s

/-- The staged set of a subtree applies: every register first, then what the units make of it. -/
def State.applySet (s : State) (root : UnitId) : State :=
  let units := stagedUnits.filter (fun u => unitUnder u root)
  let old := s
  let swapped := units.any (fun u => match u with | .rout h => (old.rout h).dstaged | _ => false)
  let s := (units.foldl State.takeShadows s).showBelow
  let s := units.foldl (fun (s : State) u => s.unitApply old u) s
  let tabs := units.any (fun u => match u with | .rout _ => old.isStaged u 0x124 || old.isStaged u 0x128 | _ => false)
  let s := s.endChanged old tabs
  let s := s.targetsApply old swapped
  allPorts.foldl State.readmit s

/-! ## Staged writes -/

/-- Bits of a word that are staged fields of a unit. -/
def stMask (u : UnitId) (off : Nat) : Word :=
  (u.fields.filter (fun f => f.off = off && f.acc = .st)).foldl (fun m f => m ||| fieldMask f.hi f.lo) 0

/-- The staged registers of a SYNC page exist on H0's page only (R383). -/
def stagedHere (u : UnitId) : Bool := match u with
  | .sync h => h.val = 0
  | _ => true

/-- A base of a circuit or multicast table is staged: the router reads the table into its shadow (R337). -/
def State.startXtab (s : State) (u : UnitId) (off : Nat) : State :=
  match u with
  | .rout h =>
    let r := s.rout h
    let which := if off = 0x124 ∨ off = 0x128 then 1 else if off = 0x12C ∨ off = 0x130 then 2 else 0
    if which = 0 then s else
    let r := if which = 1 then { r with cktStaged := false } else { r with mcStaged := false }
    (s.setRout h { r with xbusy := r.xbusy ++ [which] }).setF u Reg.ROUT.XTAB_STAT_BUSY 1
  | _ => s

/-- A staged write under a pending commit, the unit's own or an ancestor's, reruns its check (R378, R560). -/
def State.rerunChecks (s : State) (u : UnitId) : State :=
  (UnitId.chain u 4).foldl (fun s a => match s.commits.find a.key with
    | some c => if c.now then s else
      { s with commits := s.commits.put c.unit.key { c with running := true, rerun := true } }
    | none => s) s

/-- A word is written to a staged register: its staged bits go to the shadow (R557, R559). -/
def State.stagedWrite (s : State) (u : UnitId) (off : Nat) (w : Word) : State :=
  let m := stMask u off
  if !stagedHere u || m = 0 then s else
  let s := s.stageW u off ((s.getShadow u off &&& ~~~m) ||| (w &&& m))
  (s.startXtab u off).rerunChecks u

/-! ## Pending commits -/

def State.commit? (s : State) (u : UnitId) : Option Commit := s.commits.find u.key
def State.putCommit (s : State) (c : Commit) : State := { s with commits := s.commits.put c.unit.key c }
def State.dropCommit (s : State) (u : UnitId) : State := { s with commits := s.commits.del u.key }

/-- The ancestor whose commit is pending, if one is (R560). -/
def State.covering (s : State) (u : UnitId) : Option UnitId := (ancestors u).find? (fun a => (s.commit? a).isSome)

/-- A router of the subtree copies its banks: a commit is held (R240). -/
def State.copyHeld (s : State) (root : UnitId) : Bool :=
  (List.finRange 2).any (fun h => unitUnder (.rout h) root && (s.rout h).dbusy == 3)

/-- COMMIT_CTL.STATE of a unit and of the units joined to its commit. -/
def State.setStates (s : State) (c : Commit) (v : Nat) : State :=
  (c.unit :: c.joined).foldl (fun s u => s.setF u Reg.COMMIT_STATE v) s

/-- A commit applied late: cause, lateness, count and event (R377). The lateness runs to the step that passed T, or to this moment, at
which the check or the hold has ended; LATE_NS saturates (R383). -/
def State.lateReport (s : State) (c : Commit) (cause : Nat) : State :=
  let y := UnitId.sync 0
  let late := if cause = 4 then 0 else if cause = 3 then c.reached.getD s.drove - c.at_ else s.drove - c.at_
  let s := s.setF y Reg.SYNC.LATE_LAST_PAGE c.unit.key
  let s := s.setF y Reg.SYNC.LATE_LAST_CAUSE cause
  let s := s.setF y Reg.SYNC.LATE_NS (min late (2 ^ 32 - 1))
  (s.bump y Reg.SYNC.LATE_COUNT_COUNT).raise y Evt.SYNC.LATE_COMMIT

/-- A commit applies, late with a cause other than 0, or fails by the check of this moment (R557, R559, R378). -/
def State.applyCommit (s : State) (c : Commit) (cause : Nat) : State :=
  let s := s.dropCommit c.unit
  let ok := (s.checkFail c.unit).isNone
  let s := s.showCheck c.unit
  if !ok then s.setStates c 4 else
  let s := s.applySet c.unit
  let s := s.setStates c (if cause = 0 then 2 else 3)
  if cause = 0 then s else s.lateReport c cause

/-- A unit reads JOINED under its ancestor's pending commit. -/
def State.joinUnder (s : State) (a u : UnitId) : State :=
  match s.commit? a with
  | some c => (s.putCommit { c with joined := if u ∈ c.joined then c.joined else c.joined ++ [u] }).setF u Reg.COMMIT_STATE 5
  | none => s

/-- Pending commits of descendants join a group's (R23, R560): their own T is dropped. -/
def State.joinBelow (s : State) (c : Commit) : State × Commit :=
  s.commits.foldl (fun (r : State × Commit) e =>
    let d := e.2
    if d.unit ≠ c.unit && unitUnder d.unit c.unit then
      ((r.1.dropCommit d.unit).setF d.unit Reg.COMMIT_STATE 5, { r.2 with joined := r.2.joined ++ [d.unit] ++ d.joined })
    else r) (s, c)

/-- A new commit of a unit, or its pending one with its joined units. -/
def State.newCommit (s : State) (u : UnitId) : Commit :=
  { unit := u, at_ := 0, now := true, running := false, rerun := false, cause := 0, reached := none,
    joined := ((s.commit? u).map (·.joined)).getD [] }

end Sys2Proof.Machine
end

