-- ==== Sys2Proof/Machine/Commits.lean ====
section
/-! DEFINITION. Staging and commit commands (R557–R562, R376–R378), and the end of a bank copy (R240). -/

namespace Sys2Proof.Machine

open Sys2Proof

/-- A word is written to a staged register: its staged bits go to the shadow (R557, R559). -/
def execStagedWrite (u : UnitId) (off : Nat) (w : Word) (s : State) : Ans :=
  .next (if s.pageOpen u then s.stagedWrite u off w else s)

/-- The check of a unit's subtree ends; a commit whose T has passed meanwhile applies, late (R377). `errs`, here and below: what the
reads of the tables a commit puts into force find (R143, R188, R190). -/
def execStageCheckDone (u : UnitId) (errs : LineErrs) (s : State) : Ans :=
  .next (
    if s.getF u Reg.CHECK_RESULT ≠ 3 then s else
    let s := s.showCheck u
    match s.commit? u with
    | none => s
    | some c =>
      if c.now then s else
      let c := { c with running := false }
      if c.at_ < s.drove && !s.copyHeld u then (s.findErrs errs).applyCommit c (if c.rerun then 2 else 1)
      else s.putCommit c)

/-- COMMIT_CTL NOW: at once, or when the bank copy that holds it ends. -/
def execCommitNow (u : UnitId) (errs : LineErrs) (s : State) : Ans :=
  .next (
    if !s.pageOpen u then s else
    match s.covering u with
    | some a => s.joinUnder a u
    | none =>
      let (s, c) := s.joinBelow (s.newCommit u)
      if s.copyHeld u then (s.putCommit c).setF u Reg.COMMIT_STATE 1 else (s.findErrs errs).applyCommit c 0)

/-- COMMIT_CTL AT: T is taken from COMMIT_AT, the check starts and the commit is pending; it replaces a pending T. Before READY it is FAILED at
once (R489). -/
def execCommitAt (u : UnitId) (s : State) : Ans :=
  .next (
    if !s.pageOpen u then s
    else if !s.ready then (s.showCheck u).setF u Reg.COMMIT_STATE 4 else
    match s.covering u with
    | some a => s.joinUnder a u
    | none =>
      let (s, c) := s.joinBelow (s.newCommit u)
      let s := s.putCommit { c with at_ := s.getPair u Reg.COMMIT_AT_LO Reg.COMMIT_AT_HI, now := false, running := true }
      let s := s.setF u Reg.COMMIT_STATE 1
      (s.setF u Reg.CHECK_RESULT 3).setF u Reg.CHECK_CAUSE 0)

/-- COMMIT_CTL CANCEL: a pending commit goes, its staged set stays; ignored at T or later. -/
def execCommitCancel (u : UnitId) (s : State) : Ans :=
  .next (
    if !s.pageOpen u then s else
    match s.covering u with
    | some a => s.joinUnder a u
    | none => match s.commit? u with
      | some c => if !c.now && c.at_ ≤ s.drove then s else (s.dropCommit u).setStates c 0
      | none => s)

/-- The drove time of a unit with a pending AT commit reaches T (R376): the set applies, unless a check runs or a bank copy
holds it. -/
def execCommitAtReached (u : UnitId) (errs : LineErrs) (s : State) : Ans :=
  .next (
    match s.commit? u with
    | some c =>
      if c.now || c.running || s.drove < c.at_ || s.copyHeld u then s
      else (s.findErrs errs).applyCommit c
        (if c.cause = 3 then 3 else if s.getF (.sync 0) Reg.SYNC.DROVE_STAT_STATE ≠ 2 then 4 else 0)
    | none => s)

/-- A router has copied its new active bank into its shadow: commits held by the copy go on (R240). -/
def execDtabBankCopyDone (h : Fin 2) (errs : LineErrs) (s : State) : Ans :=
  .next (
    let r := s.rout h
    if r.dbusy ≠ 3 then s else
    let s := (s.setRout h { r with dshadow := r.dtab, dundef := false, crcs := { r.crcs with shadow := r.crcs.active } }).dtabBusy h 0
    let s := if s.commits = [] then s else s.findErrs errs
    (s.commits.map Prod.snd).foldl (fun s c =>
      if (s.commit? c.unit).isNone || s.copyHeld c.unit || !unitUnder (.rout h) c.unit then s
      else if c.now then s.applyCommit c 0
      else if !c.running && c.at_ < s.drove then s.applyCommit c 2
      else s) s)

end Sys2Proof.Machine
end

