-- ==== Sys2Proof/Machine/Thermal.lean ====
section
/-! DEFINITION. Sensors, thermal ceilings and cap (R409–R415), coolant (R417–R423), the forecast mode (R424), thermal cycles
(R426), the re-margin pass (R427–R432). Temperatures of hot spots are in 1/8 °C, coolant temperatures in 0.01 °C. -/

namespace Sys2Proof.Machine

open Sys2Proof

/-! ## Sensors (R410–R413) -/

def State.setSpot (s : State) (n : Nat) (x : Spot) : State :=
  s.setPw { s.pw with spots := s.pw.spots.putD n x .init }

/-- A temperature in whole °C, as an 8-bit register shows it; the rounding of a fraction, and a value below 0, are free. -/
def State.degC (s : State) (t : Int) : Nat :=
  if t < 0 then Config.freeNat s.freeCtr % 256
  else t.toNat / 8 + (if t.toNat % 8 = 0 then 0 else Config.freeNat s.freeCtr % 2)

/-- A temperature is put into a field. -/
def State.showDeg (s : State) (u : UnitId) (f : Fld) (t : Int) : State := (s.setF u f (s.degC t)).tickFree

/-- What a sample does to a sensor (R411): the last accepted sample, discarded samples in a row, and the cause of a
failure: 0 RANGE, 1 JUMP, 2 STUCK. -/
def sensorStep (last : Option Int) (jump : Nat) (r : Int) (stuck : Bool) : Option Int × Nat × Option Nat :=
  if r < -160 ∨ 1200 < r then (last, jump, some 0)
  else
    let jumps := match last with
      | some l => decide (80 < (r - l).natAbs)
      | none => false
    if jumps then
      if jump = 2 then (last, 3, some 1) else (last, jump + 1, if stuck then some 2 else none)
    else (some r, 0, if stuck then some 2 else none)

/-- Hot spot of a tile island, if it is one. -/
def spotTile (hs : Fin 440) : Option (Fin 4 × Fin 104) :=
  if h : hs.val < 416 then some (⟨hs / 104, by omega⟩, ⟨hs % 104, by omega⟩) else none

/-- The page that reports on a hot spot: the active tile's or HCTL's; none for a spare or failed island. -/
def State.spotPage (s : State) (hs : Fin 440) : Option UnitId :=
  match spotTile hs with
  | some (d, t) => if s.tileState d t = 0 then some (.tile d t) else none
  | none => some .hctl

/-- A sensor is marked FAILED (R413). -/
def State.sensorFail (s : State) (hs : Fin 440) (b : Bool) (cause : Nat) : State :=
  let s := s.setF .hctl Reg.HCTL.SENSOR_LAST_SENSOR (2 * hs + (if b then 1 else 0))
  let s := s.setF .hctl Reg.HCTL.SENSOR_LAST_CAUSE cause
  let s := s.bump .hctl Reg.HCTL.SENSOR_FAILED_COUNT
  let s := match spotTile hs with
    | some (d, t) => s.setF (.tile d t) (if b then Reg.TILE.TEMP_B_FAILED else Reg.TILE.TEMP_A_FAILED) 1
    | none => s
  match s.spotPage hs, spotTile hs with
  | some u, _ =>
    let s := s.raise u (if u = .hctl then Evt.HCTL.SENSOR_FAIL else Evt.TILE.SENSOR_FAIL)
    s.setOwn u (max 1 (s.getF u Reg.HEALTH_OWN))
  | none, some (d, _) => s.raise (.cdie d) Evt.CDIE.SPARE_SENSOR
  | none, none => s

/-- The readings of a hot spot's good sensors. -/
def Spot.good (x : Spot) : List Int :=
  (if x.failA then [] else x.lastA.toList) ++ (if x.failB then [] else x.lastB.toList)

/-- Both sensors are good, and their readings. -/
def Spot.both (x : Spot) : Option (Int × Int) :=
  match x.failA, x.failB, x.lastA, x.lastB with
  | false, false, some a, some b => some (a, b)
  | _, _, _, _ => none

/-- The higher reading of two. -/
def higher (a b : Int) : Int := max a b

/-- Disagreement episode (R411): runs on, begins or ends. -/
def Spot.judgePair (x : Spot) : Spot × Bool :=
  match x.both with
  | none => ({ x with disagree := false, calm := 0 }, false)
  | some (a, b) =>
    let diff := (a - b).natAbs
    if x.disagree then
      let calm := if diff ≤ 24 then x.calm + 1 else 0
      (if 5000 ≤ calm then { x with disagree := false, calm := 0 } else { x with calm := calm }, false)
    else if 32 < diff then ({ x with disagree := true, calm := 0 }, true)
    else (x, false)

/-- Common drift (R411): begins after 100 ms, ends after 1 s. `m`: the thermal model's estimate. -/
def Spot.judgeDrift (x : Spot) (m : Int) : Spot × Bool :=
  if x.drift then
    let ok := !x.good.isEmpty && x.good.all (fun r => decide ((r - m).natAbs ≤ 32))
    let near := if ok then x.near + 1 else 0
    (if 50000 ≤ near then { x with drift := false, near := 0, low := 0 } else { x with near := near }, false)
  else
    match x.both with
    | none => ({ x with low := 0 }, false)
    | some (a, b) =>
      let low := if (a - b).natAbs ≤ 32 ∧ higher a b < m - 64 then x.low + 1 else 0
      if 5000 ≤ low then ({ x with drift := true, low := 0, near := 0 }, true) else ({ x with low := low }, false)

/-- H is taken from the model: rule 1 or 2 of R412. -/
def Spot.byModel (x : Spot) : Bool := x.drift || (x.failA && x.failB)

/-- The temperature H of a hot spot (R412). -/
def Spot.formH (x : Spot) (m : Int) : Int :=
  if x.drift then m
  else match x.both, x.good with
    | some (a, b), _ => if 32 < (a - b).natAbs then higher a b + 16 else higher a b
    | none, [r] => r + 32
    | none, _ => m + 40

/-- The THERMAL ceiling a control temperature asks for (R414). -/
def thermCeil (tctl : Int) (modelOnly : Bool) : Nat :=
  let above := (tctl - 760).toNat
  let c := if above = 0 then 2500 else max 400 ((20000 - 210 * above) / 200 * 25)
  if modelOnly then min 2000 c else c

/-- The THERMAL ceiling of an island follows its control temperature: down at once, up by 25 MHz per 100 µs. -/
def State.thermIsland (s : State) (hs : Fin 440) (d : Fin 4) (t : Fin 104) : State :=
  let x := s.spot hs
  let now := (s.tile d t).ceilTherm
  let goal := thermCeil x.tctl (x.failA && x.failB)
  if now < goal ∧ x.rise < 4 then s.setSpot hs { x with rise := x.rise + 1 }
  else
    let new := if now < goal then min goal (now + 25) else goal
    let s := s.setSpot hs { x with rise := if new ≤ now then min 4 (x.rise + 1) else 0 }
    if new = now then s else
    let s := (s.setTile d t { s.tile d t with ceilTherm := new }).ceilsFrom s
    if now = 2500 then s.raise (.cdie d) Evt.CDIE.THERM_CEIL else s

/-- The highest of hot spots' temperatures, the first on a tie. -/
def State.hottest (s : State) (f : Spot → Int) (l : List Nat) : Int × Nat :=
  match l with
  | [] => (0, 0)
  | a :: l => l.foldl (fun b n => if b.1 < f (s.spot n) then (f (s.spot n), n) else b) (f (s.spot a), a)

/-- The registers that show temperatures follow a sample. -/
def State.showSpots (s : State) (hs : Fin 440) : State :=
  let x := s.spot hs
  let s := match spotTile hs with
    | none => s
    | some (d, t) =>
      let u := UnitId.tile d t
      let s := s.showDeg u Reg.TILE.TEMP_CTL x.tctl
      let s := if x.failA then s else match x.lastA with
        | some a => s.showDeg u Reg.TILE.TEMP_A a
        | none => s
      let s := if x.failB then s else match x.lastB with
        | some b => s.showDeg u Reg.TILE.TEMP_B b
        | none => s
      let s := s.setF u Reg.TILE.TEMP_MODEL (if x.byModel then 1 else 0)
      let h := s.hottest Spot.tctl ((List.range 104).map (fun n => 104 * d.val + n))
      let s := s.showDeg (.cdie d) Reg.CDIE.HOT_TEMP h.1
      let s := s.setF (.cdie d) Reg.CDIE.HOT_PHYS (h.2 % 104)
      s.setF (.cdie d) Reg.CDIE.THERM_LIM_ISLANDS ((s.islands d).filter (fun t => decide ((s.tile d t).ceilTherm < 2500))).length
  let h := s.hottest Spot.tctl (List.range 440)
  let s := s.showDeg .hctl Reg.HCTL.HOTSPOT_TEMP h.1
  let s := s.setF .hctl Reg.HCTL.HOTSPOT_INDEX h.2
  s.showDeg .hctl Reg.HCTL.FCAST_HOT (s.hottest Spot.fore (List.range 440)).1

/-- How far numbers lie apart, the highest from the lowest. -/
def spread (l : List Int) : Nat :=
  match l with
  | [] => 0
  | a :: l => (l.foldl max a - l.foldl min a).toNat

/-- Over the last 50 ms, 2,500 steps of 20 µs, a reading has changed by less than 0.25 °C and the power of the block by at least 30 % of its
maximum (R411). -/
def Spot.stuck (x : Spot) (read : Int × Int × Nat → Int) : Bool :=
  x.hist.length == 2501 && decide (spread (x.hist.map read) < 2) && decide (300 ≤ spread (x.hist.map (fun e => (e.2.2 : Int))))

/-- Samples in a row from 115 °C to 150 °C. -/
def hotRun (n : Nat) (r : Int) : Nat := if 920 ≤ r ∧ r ≤ 1200 then n + 1 else 0

/-- The samples enter the record of a hot spot. -/
def Spot.sampled (x : Spot) (a b : Int) (load : Nat) : Spot :=
  { x with hist := ((a, b, load) :: x.hist).take 2501, hotA := hotRun x.hotA a, hotB := hotRun x.hotB b }

/-- The thermal model's forecast of a hot spot 5 ms ahead (R424), from its estimate of the present, the forecast power of the dies, the
inlet and the flow in use. -/
def State.forecast (s : State) (hs : Fin 440) (m : Int) : Int :=
  Config.thermalModel hs m ((List.finRange 4).map s.diePower) (s.pw.inlet.getD 4500) (s.pw.flow.getD 0)

/-- The two sensors of a hot spot are sampled. `a`, `b`: the samples; `load`: estimated power of its island or block, in 1/1000 of the
block's maximum; `m`: the thermal model's estimate of the present temperature. -/
def execSensorSample (hs : Fin 440) (a b : Int) (load : Nat) (m : Int) (s : State) : Ans :=
  .next (
    let x := (s.spot hs).sampled a b load
    let f := s.forecast hs m
    let ra := if x.failA then (x.lastA, x.jumpA, none) else sensorStep x.lastA x.jumpA a (x.stuck (·.1))
    let rb := if x.failB then (x.lastB, x.jumpB, none) else sensorStep x.lastB x.jumpB b (x.stuck (·.2.1))
    let x := { x with lastA := ra.1, jumpA := ra.2.1, failA := x.failA || ra.2.2.isSome,
                      lastB := rb.1, jumpB := rb.2.1, failB := x.failB || rb.2.2.isSome }
    let s := match ra.2.2 with
      | some c => s.sensorFail hs false c
      | none => s
    let s := match rb.2.2 with
      | some c => s.sensorFail hs true c
      | none => s
    let (x, began) := x.judgePair
    let s := match began, s.spotPage hs with
      | true, some u => s.raise u (if u = UnitId.hctl then Evt.HCTL.DISAGREE else Evt.TILE.DISAGREE)
      | _, _ => s
    let (x, drifts) := x.judgeDrift m
    let s := if drifts then s.raise .hctl Evt.HCTL.DRIFT else s
    let s := s.setSpot hs { x with tctl := max (x.formH m) (f - 24), fore := f }
    let s := match spotTile hs with
      | some (d, t) => s.thermIsland hs d t
      | none => s
    s.showSpots hs)

/-! ## The thermal cap (R415) -/

/-- Active islands with a THERMAL ceiling below 2,500 MHz. -/
def State.thermLimited (s : State) : Nat :=
  (List.finRange 4).foldl (fun n d => n + ((s.islands d).filter (fun t => decide ((s.tile d t).ceilTherm < 2500))).length) 0

/-- Every temperature lies within bounds: islands, other hot spots, memory stacks. -/
def State.within (s : State) (island other stack : Int) : Bool :=
  (List.range 416).all (fun n => decide ((s.spot n).tctl ≤ island)) &&
  (List.range 24).all (fun n => decide ((s.spot (416 + n)).tctl ≤ other)) &&
  (List.finRange 12).all (fun m => decide (8 * (s.getF (.mstk m) Reg.MSTK.TEMP_DEGC : Int) ≤ stack))

/-- What the thermal cap becomes after a further 1 ms. -/
def State.capTherm (s : State) : State :=
  let w := s.getF .hctl Reg.HCTL.CAP_THERM_WATTS
  if !s.within 839 799 799 || 100 < s.thermLimited then
    ((s.setPw { s.pw with capMs := 0 }).setF .hctl Reg.HCTL.CAP_THERM_WATTS (max 600 (w - 100))).capResolve
  else if s.within 736 720 720 && s.thermLimited ≤ 10 then
    if s.pw.capMs < 9 then s.setPw { s.pw with capMs := s.pw.capMs + 1 }
    else ((s.setPw { s.pw with capMs := 0 }).setF .hctl Reg.HCTL.CAP_THERM_WATTS (min 2400 (w + 50))).capResolve
  else s.setPw { s.pw with capMs := 0 }

/-- The thermal cap is adjusted, every 1 ms. `same`: another change reaches the controller in the same cycle (R393). -/
def execCapThermAdjust (same : Bool) (s : State) : Ans := .next (s.inCycle same State.capTherm)

/-! ## Coolant (R417–R423) -/

/-- A coolant report is valid (R418). -/
def State.coolValid (s : State) (seq : BitVec 32) (inlet outlet : Int) (ok : BitVec 8) (rsvd : Bool) : Bool :=
  let inOk := ok.getLsbD 0
  let outOk := ok.getLsbD 1
  (match s.pw.coolSeq with
    | none => true
    | some l => let n := (seq.toNat + 2 ^ 32 - l) % 2 ^ 32
      0 < n && n < 2 ^ 31) &&
  !rsvd && bitsOf ok.toNat 7 3 == 0 &&
  (!inOk || (decide (0 ≤ inlet) && decide (inlet ≤ 8000))) &&
  (!outOk || (decide (0 ≤ outlet) && decide (outlet ≤ 8000))) &&
  (!(inOk && outOk) || decide (inlet - 100 ≤ outlet))

/-- The flow in use: the reported one, or the inferred one where it is unknown or its sensor has failed; none where it
cannot be inferred. -/
def State.flowInUse (s : State) : Option Nat × State :=
  let inlet := s.pw.inlet.getD 4500
  match s.pw.flow, s.pw.outlet with
  | some f, none => (if s.isSet .hctl Reg.HCTL.COOL_STAT_FLOW_BAD then none else some f, s)
  | none, none => (none, s)
  | some f, some o => if s.isSet .hctl Reg.HCTL.COOL_STAT_FLOW_BAD then
      let (v, s) := s.inferFlow inlet o
      (some v, s)
    else (some f, s)
  | none, some o =>
    let (v, s) := s.inferFlow inlet o
    (some v, s)

/-- A coolant report is judged and used (R418–R422), in every state from s0 on (R485, R503). -/
def State.coolReport (seq : BitVec 32) (inlet outlet flow : BitVec 16) (ok : BitVec 8) (rsvd : Bool) (s : State) : State :=
  let u := UnitId.hctl
  if !s.mg.up then s
  else if !s.coolValid seq inlet.toInt outlet.toInt ok rsvd then
    (s.bump u Reg.HCTL.COOL_BAD_COUNT).setPw { s.pw with coolRun := 0 }
  else
    let s := s.setF u Reg.HCTL.COOL_INLET_TEMP inlet.toNat
    let s := s.setF u Reg.HCTL.COOL_OUTLET_TEMP outlet.toNat
    let s := s.setF u Reg.HCTL.COOL_FLOW_MLMIN flow.toNat
    let get := fun (n : Nat) (v : Int) => if ok.getLsbD n then some v else none
    let logs := s.pw.coolFlows.filter (fun e => decide (s.elapsed ≤ e.1 + 100000000))
    let logs := if ok.getLsbD 2 then (s.elapsed, flow.toNat) :: logs else logs
    let s := s.setF u Reg.HCTL.COOL_STAT_VALID 1
    let s := s.setPw { s.pw with
      coolSeq := some seq.toNat, coolAt := some s.elapsed, inlet := get 0 inlet.toInt, outlet := get 1 outlet.toInt,
      flow := if ok.getLsbD 2 then some flow.toNat else none, coolFlows := logs }
    match s.flowInUse with
    | (none, s) => if 5500 ≤ s.pw.inlet.getD 4500 then s.floorOn 4 else s.setPw { s.pw with coolRun := 0 }
    | (some f, s) => (s.setPw { s.pw with flowAt := some s.elapsed }).useFlow f (s.pw.inlet.getD 4500) true

/-- A coolant report arrives. `ok`: byte 10; `rsvd`: a reserved byte is not 0; `same`: another change reaches the controller
in the same cycle (R393). -/
def execCoolant (seq : BitVec 32) (inlet outlet flow : BitVec 16) (ok : BitVec 8) (rsvd same : Bool) (s : State) : Ans :=
  .next (s.inCycle same (State.coolReport seq inlet outlet flow ok rsvd))

/-- 50 ms have passed since a time. -/
def State.gone50 (s : State) (o : Option Nat) : Bool := match o with
  | some t => decide (t + 50000000 ≤ s.elapsed)
  | none => false

/-- 50 ms have passed since the last valid report; one without a flow in use counts as missing (R418, R421). -/
def execCoolantMissing (s : State) : Ans :=
  .next (
    let s := if s.gone50 s.pw.coolAt then s.setF .hctl Reg.HCTL.COOL_STAT_VALID 0 else s
    if s.gone50 s.pw.flowAt then
      ((s.setPw { s.pw with flowAt := none }).raise .hctl Evt.HCTL.COOL_MISSING).floorOn 3
    else s)

/-- The outlet–inlet difference is compared with the one the power explains, every 10 ms (R423). -/
def execFlowCheck (s : State) : Ans :=
  .next (
    let u := UnitId.hctl
    match s.pw.outlet with
    | none => s.setPw { s.pw with overSince := none, okSince := none }
    | some o =>
      let inlet := s.pw.inlet.getD 4500
      let (est, s) := s.inferFlow inlet o
      let s := s.setF u Reg.HCTL.FLOW_EST_MLMIN est
      match s.pw.flow with
      | none => s.setPw { s.pw with overSince := none, okSince := none }
      | some f =>
        let p : Int := s.getF u Reg.HCTL.PWR_LEVEL_WATTS * 6000000
        let cf : Int := s.getF u Reg.HCTL.COOL_CFG_HEAT_CAP * f
        let dt := o - inlet
        let above := decide (5 * p < 4 * (dt - 300) * cf)
        let ok := decide (10 * (dt * cf - p) ≤ 100 * 10 * cf + p) && decide (10 * (p - dt * cf) ≤ 100 * 10 * cf + p)
        let since := fun (b : Bool) (o : Option Nat) => if b then some (o.getD s.elapsed) else none
        let lasts := fun (o : Option Nat) (n : Nat) => match o with
          | some t => decide (t + n ≤ s.elapsed)
          | none => false
        let s := s.setPw { s.pw with overSince := since above s.pw.overSince, okSince := since ok s.pw.okSince }
        if !s.isSet u Reg.HCTL.COOL_STAT_FLOW_BAD && lasts s.pw.overSince 200000000 then
          ((s.setF u Reg.HCTL.COOL_STAT_FLOW_BAD 1).raise u Evt.HCTL.FLOW_SENSOR_BAD).useFlow est inlet false
        else if s.isSet u Reg.HCTL.COOL_STAT_FLOW_BAD && lasts s.pw.okSince 10000000000 then
          (s.setF u Reg.HCTL.COOL_STAT_FLOW_BAD 0).useFlow f inlet false
        else s)

/-! ## The forecast mode (R424) -/

/-- The forecast mode the present conditions give: 1 PLAN, 0 MODEL. -/
def State.fcastNow (s : State) : Nat :=
  let lasts := match s.pw.plan.getLast? with
    | some e => decide (s.drove + 5000000 ≤ planEnd e)
    | none => false
  if lasts && s.ready && !s.fenced && !s.isSet .hctl Reg.HCTL.THERM_CTL_MODEL_ONLY &&
      !s.isSet .hctl Reg.HCTL.COOL_STAT_FLOOR && !s.isSet .hctl Reg.HCTL.CAP_EFF_HOLD &&
      decide (s.pw.quietAt + 1000000000 ≤ s.elapsed) then 1 else 0

/-- The forecast source switches. -/
def execFcastModeChange (s : State) : Ans := .next (s.setFcast s.fcastNow)

/-! ## Thermal cycles (R426) -/

/-- Hot spots of a logic die: C0–C3, H0, H1. -/
def dieSpots (die : Fin 6) : List Nat :=
  if die.val < 4 then (List.range 104).map (fun n => 104 * die.val + n) ++ [416 + 2 * die.val, 417 + 2 * die.val]
  else (List.range 3).map (fun n => 424 + 3 * (die.val - 4) + n)

/-- Band of a range in 1/8 K; none below 5 K. -/
def cycleBand (r : Nat) : Option (Fin 6) :=
  if r < 40 then none else if r < 80 then some 0 else if r < 160 then some 1 else if r < 320 then some 2
  else if r < 480 then some 3 else if r < 640 then some 4 else some 5

/-- Half cycles of a range are counted. -/
def State.countCycle (s : State) (die : Fin 6) (r n : Nat) : State :=
  match cycleBand r with
  | some b => s.bumpBy .hctl (Reg.HCTL.CYC_BAND die b) n
  | none => s

/-- The rainflow count of ASTM E1049 after a reversal: a range not larger than the latest one counts, as a half cycle if it
holds the start and a full one if not. -/
def State.rainflow (s : State) (die : Fin 6) : List Int → Nat → State × List Int
  | a :: b :: c :: rest, n + 1 =>
    if (b - c).natAbs ≤ (a - b).natAbs then
      if rest.isEmpty then (s.countCycle die (b - c).natAbs 1, [a, b])
      else (s.countCycle die (b - c).natAbs 2).rainflow die (a :: rest) n
    else (s, a :: b :: c :: rest)
  | l, _ => (s, l)

/-- A sample of a die's record: the extreme moves on, or after 2 °C the other way a reversal is taken. -/
def State.cycleStep (s : State) (die : Fin 6) (x : Int) : State :=
  let c := s.pw.cycles.getD die .init
  let put := fun (s : State) (c : Cycles) => s.setPw { s.pw with cycles := s.pw.cycles.put die c }
  match c.ext, c.up with
  | none, _ => put s { c with ext := some x, turns := [x] }
  | some e, none =>
    if e + 16 ≤ x then put s { c with ext := some x, up := some true }
    else if x ≤ e - 16 then put s { c with ext := some x, up := some false } else s
  | some e, some up =>
    if (up && e < x) || (!up && x < e) then put s { c with ext := some x }
    else if (up && x ≤ e - 16) || (!up && e + 16 ≤ x) then
      let (s, turns) := s.rainflow die (e :: c.turns) (c.turns.length + 1)
      put s { c with ext := some x, up := some (!up), turns := turns }
    else s

/-- A die's hottest control temperature is sampled, every 1 ms. -/
def execThermalCycleSample (die : Fin 6) (s : State) : Ans :=
  .next (
    let x := (s.hottest Spot.tctl (dieSpots die)).1
    let s := s.cycleStep die x
    let deg := if x < 0 then 0 else s.degC x
    let s := s.tickFree
    let s := s.setF .hctl (Reg.HCTL.TMAX_DEGC die) (max (s.getF .hctl (Reg.HCTL.TMAX_DEGC die)) deg)
    if x ≤ 760 then s else
    let c := s.pw.cycles.getD die .init
    let ms := c.hotMs + 1
    let s := s.setPw { s.pw with cycles := s.pw.cycles.put die { c with hotMs := ms } }
    if ms % 3600000 = 0 then s.bump .hctl (Reg.HCTL.TMAX_HOURS die) else s)

/-! ## The re-margin pass (R427–R432) -/

/-- One hour, ns. -/
def hourNs : Nat := 3600 * 1000000000

/-- A die has run no task for 10 ms. -/
def State.dieIdle (s : State) (d : Fin 4) : Bool :=
  (s.islands d).all (fun t => s.slotsEmpty d t) && decide (s.pw.ranAt.getD d 0 + 10000000 ≤ s.elapsed)

/-- A visit of the island is due (R428, R430). -/
def State.isDue (s : State) (d : Fin 4) (t : Fin 104) : Bool :=
  let age := s.elapsed - (s.marginOf d t).at_
  (s.tile d t).visitDue.isSome || !s.ready || decide (24 * hourNs ≤ age) || (s.dieIdle d && decide (hourNs ≤ age))

/-- A visit of the island has been due for 1 h. -/
def State.isLate (s : State) (d : Fin 4) (t : Fin 104) : Bool :=
  decide (25 * hourNs ≤ s.elapsed - (s.marginOf d t).at_) || (match (s.tile d t).visitDue with
    | some a => decide (a + hourNs ≤ s.elapsed)
    | none => false)

/-- A visit begins: it is due, the slots are empty, no other island of the die is visited. A stopped clock runs again while it lasts. -/
def execRemarginVisit (d : Fin 4) (t : Fin 104) (s : State) : Ans :=
  .next (
    if s.isDue d t && s.slotsEmpty d t && s.tileState d t != 2 &&
        (List.finRange 104).all (fun t => !(s.tile d t).visiting) then
      s.setTile d t { s.tile d t with visiting := true }
    else s)

/-- An island's table is put in force; TILE.MARGIN shows its need at 2,500 MHz. How half a millivolt is rounded is free. -/
def State.putMargin (s : State) (d : Fin 4) (t : Fin 104) (m : Margin) : State :=
  let s := s.setPw { s.pw with margins := s.pw.margins.put (tileKey d t) m }
  let n := m.table.getD 7 0
  let mv := n * 5 / 2 + (if n % 2 = 0 then 0 else Config.freeNat s.freeCtr % 2)
  (s.setF (.tile d t) Reg.TILE.MARGIN_MV_2500 mv).tickFree

/-- An island without a safe voltage fails with cause MARGIN (R431); a spare is no longer one. -/
def State.noVoltage (s : State) (d : Fin 4) (t : Fin 104) : State :=
  if s.tileState d t = 1 then s.spareBad d t
  else s.failTile d t 4 none

/-- The shift of a ring oscillator count from the one recorded at test, in ppm of slowing (R432). How a fraction is rounded, and what a
quickening shows, are free values. -/
def State.slowPpm (s : State) (test ring : Nat) : Nat :=
  if test < ring || test = 0 then Config.freeNat s.freeCtr
  else
    let n := 1000000 * (test - ring)
    n / test + (if n % test = 0 then 0 else Config.freeNat s.freeCtr % 2)

/-- A visit ends. `table`: voltages in 2.5 mV steps at the eight points; `ring`: the ring oscillator count. -/
def execRemarginVisitDone (d : Fin 4) (t : Fin 104) (table : Vector Nat 8) (ring : Nat) (lines : LineErrs)
    (s : State) : Ans :=
  .next (
    if !(s.tile d t).visiting then s else
    let s := s.findErrs lines
    let s := s.setTile d t { s.tile d t with visiting := false, visitDue := none, innerDrain := false }
    let s := (s.setF (.tile d t) Reg.TILE.AGE_PPM (min 65535 (s.slowPpm (Config.ringTest (tileKey d t)) ring))).tickFree
    let s := s.setPw { s.pw with toVisit := s.pw.toVisit.filter (fun k => k ≠ tileKey d t) }
    if table.toList.any (fun v => decide (360 < v)) then s.noVoltage d t
    else s.putMargin d t ⟨table.toList, (s.spot (islandSpot d t)).tctl, s.elapsed, ring⟩)

/-- A visit has been due for 1 h without both slots becoming empty: the island is drained internally (R429). -/
def execRmarginLate (d : Fin 4) (t : Fin 104) (s : State) : Ans :=
  .next (
    if s.tileActive d t && s.isLate d t && !s.slotsEmpty d t && !(s.tile d t).innerDrain then
      let s := s.setTile d t { s.tile d t with innerDrain := true }
      (s.bump (.cdie d) Reg.CDIE.RMARGIN_LATE_COUNT).raise (.cdie d) Evt.CDIE.RMARGIN_LATE
    else s)

/-- Slack has fallen below half its guard (R430): the table rises by 10 mV, a visit becomes due. -/
def execMarginBump (d : Fin 4) (t : Fin 104) (lines : LineErrs) (s : State) : Ans :=
  .next (
    let x := s.tile d t
    if !s.clockRuns d t || x.stretching || x.settling then s else
    let m := s.marginOf d t
    let table := m.table.map (· + 4)
    let s := s.setTile d t { x with visitDue := some (x.visitDue.getD s.elapsed) }
    let s := s.raise (.tile d t) Evt.TILE.MARGIN_BUMP
    if table.any (fun v => decide (360 < v)) then (s.findErrs lines).failTile d t 4 none else s.putMargin d t { m with table := table })

end Sys2Proof.Machine
end

