-- ==== Sys2Proof/Machine/MgmtOps.lean ====
section
/-! DEFINITION. Resets and start-up as shared operations: what a reset keeps (R482, R483), the settings log (R494–R497), what
each stage of start-up does (R182, R486–R496, R116). -/

namespace Sys2Proof.Machine

open Sys2Proof

/-! ## What the settings log keeps (R495) -/

/-- Every unit. -/
def allUnits : List UnitId :=
  [.pkg, .assay, .pcie, .place, .hctl] ++ (List.finRange 4).map .cdie ++ (List.finRange 2).map .hub ++
  (List.finRange 16).map .port ++ (List.finRange 2).map .rout ++ (List.finRange 2).map .sync ++
  (List.finRange 12).map .mstk ++ (List.finRange 4).flatMap (fun d => (List.finRange 13).map (.clus d)) ++
  (List.finRange 4).flatMap (fun d => (List.finRange 104).map (.tile d)) ++
  (List.finRange 12).flatMap (fun m => (List.finRange 16).map (.mchn m))

/-- Consecutive words from an offset, kept whole. -/
def wholeWords (off n : Nat) : List (Nat × Word) := (List.range n).map (fun i => (off + 4 * i, 0xFFFFFFFF))

/-- Registers of a unit that the log keeps, with the bits kept. -/
def keptOf : UnitId → List (Nat × Word)
  | .pkg => wholeWords 0x050 1 ++ wholeWords 0x1A0 3 ++ wholeWords 0x1B0 4
  | .hctl => wholeWords 0x060 8 ++ wholeWords 0x080 2 ++ wholeWords 0x200 2 ++ wholeWords 0x2B4 2 ++ wholeWords 0x2C0 6 ++
      wholeWords 0x300 36
  | .pcie => wholeWords 0x048 2 ++ wholeWords 0x058 1
  | .port _ => wholeWords 0x040 3 ++ [(0x1C0, 0xF3D), (0x1D0, 0xFF)] ++ wholeWords 0x1E0 2
  | .cdie _ => wholeWords 0x040 2 ++ wholeWords 0x060 7 ++ wholeWords 0x100 100
  | .clus _ _ => wholeWords 0x008 1
  | .tile _ _ => wholeWords 0x040 1 ++ [(0x070, 0x03000000)] ++ wholeWords 0x074 2
  | .mchn _ _ => wholeWords 0x040 1 ++ wholeWords 0x050 2
  | _ => []

/-- The unit's registers are memory records (R496). -/
def memRecord : UnitId → Bool
  | .mchn _ _ => true
  | _ => false

/-- The words of the log that a state gives rise to. -/
def State.keptRegs (s : State) : Map Word :=
  allUnits.foldl (fun m u => (keptOf u).foldl (fun (m : Map Word) (e : Nat × Word) =>
    m.putD (regKey u e.1) (s.getW u e.1 &&& e.2) (resetWord u e.1 &&& e.2)) m) []

/-- The kept registers of some units take the words of the log. -/
def State.replay (s : State) (log : Map Word) (units : List UnitId) : State :=
  units.foldl (fun s u => (keptOf u).foldl (fun (s : State) (e : Nat × Word) =>
    s.setW u e.1 ((s.getW u e.1 &&& ~~~e.2) ||| log.getD (regKey u e.1) (resetWord u e.1 &&& e.2))) s) s

/-- Sensors marked FAILED, by number (R413). -/
def State.failedSensors (s : State) : List Nat :=
  s.pw.spots.flatMap (fun e => (if e.2.failA then [2 * e.1] else []) ++ (if e.2.failB then [2 * e.1 + 1] else []))

/-- The slot map of the log: a slot whose replacement is not over stands as it stood, since a failure's record is written
after its last step (R111, R114). -/
def State.slotRecords (s : State) (m : Map Word) : Map Word :=
  (List.finRange 4).foldl (fun m d => (s.fails d).foldl (fun (m : Map Word) (f : Failing) =>
    if f.slot < 100 then m.putD (regKey (.cdie d) (0x100 + 4 * f.slot)) (BitVec.ofNat 32 (0x80 + f.tile))
      (resetWord (.cdie d) (0x100 + 4 * f.slot)) else m) m) m

/-- What a group written now leaves the log with. -/
def State.settingsNow (s : State) : Settings :=
  { regs := s.slotRecords s.keptRegs, ue := s.mm.ue, repl := s.mm.repl, sensors := s.failedSensors, margins := s.pw.margins, cal := s.mm.cal, trip := s.getW .hctl 0x2BC,
    pages := s.mm.pages, guests := s.mm.guests,
    ports := s.links.map (fun e => (e.1, ⟨e.2.tr.eq, e.2.tr.serial, e.2.las0, e.2.las1⟩)) }

/-- The records of a port are taken (R288). -/
def State.restorePort (s : State) (p : Fin 16) (k : PortKeep) : State :=
  let l := s.link p
  s.setLink p { l with tr := { l.tr with eq := k.eq, serial := k.serial }, las0 := k.las0, las1 := k.las1 }

/-- Lasers start as fused at test: one fused FAILED is FAILED (R288). -/
def State.fusedLasers (s : State) : State :=
  (List.finRange 16).foldl (fun s p => (s.mg.laserFuses.filter (fun n => n / 2 = p.val)).foldl (fun s n => s.setLaser p (n % 2) 2) s) s

/-- The settings a start takes; none when no snapshot verifies or the log is empty (R494). -/
def Flash.good (f : Flash) : Option Settings := (replayLog f.log).1

/-- What a start finds of the retained store: groups void after FORGET are gone (R497), and what is damaged fails its check. -/
def State.storeFound (s : State) (rot : StoreRot) : State :=
  let f := s.mg.flash
  let log := if f.forgotten then [] else f.log.mapIdx (fun i g => if rot.groups.contains i then { g with good := false } else g)
  let s := s.setFlash { f with log := log, forgotten := false,
                               sel0 := if rot.sel0 then { f.sel0 with crcOk := false } else f.sel0,
                               sel1 := if rot.sel1 then { f.sel1 with crcOk := false } else f.sel1 }
  rot.chunks.foldl (fun s n => s.spoilChunk (n / 64 % 2) (n % 64)) s

/-! ## Resets (R482, R483) -/

/-- Registers of HCTL that a reset does not touch: TRIP_LAST on the auxiliary rail, the fuse counters. -/
def hctlLasting : List Nat := [0x2BC] ++ (List.range 5).map (fun k => 0x140 + 4 * k)

/-- What lasts of pins, rails, I3C target and retained store. -/
def MgmtSt.lasting (m : MgmtSt) : MgmtSt :=
  { MgmtSt.reset with
    laserFuses := m.laserFuses, resetLow := m.resetLow, rails := m.rails, aux := m.aux, tripped := m.tripped, isolated := m.isolated, i3cOff := m.i3cOff,
    i3cAddr := m.i3cAddr, flash := m.flash }

/-- The whole package as a reset leaves it, before s0: nothing survives but the retained store, fuses, the assay die and what
stands on the auxiliary rail. -/
def State.wipe (s : State) : State :=
  let r : State := { State.reset with
    pending := s.pending, freeCtr := s.freeCtr, out := s.out, fuses := s.fuses, fuseDue := s.fuseDue, assay := s.assay.lasting, mg := s.mg.lasting }
  let r := hctlLasting.foldl (fun (r : State) o => r.setW .hctl o (s.getW .hctl o)) r
  let r := r.setF .hctl Reg.HCTL.STORE_STAT_WEAR (s.getF .hctl Reg.HCTL.STORE_STAT_WEAR)
  let r := r.setW .pkg Reg.PKG.RESET_LAST_CAUSE.off (s.getW .pkg Reg.PKG.RESET_LAST_CAUSE.off)
  -- the rating never rises within the package's life (R3; notes/assumptions/48.md)
  let r := r.setF .pkg Reg.PKG.RATING_TILES (s.getF .pkg Reg.PKG.RATING_TILES)
  r.setF .pkg Reg.PKG.START_STATE 0

/-- A reset with its cause (R511). -/
def State.wipeFor (s : State) (cause : Nat) : State := s.wipe.setF .pkg Reg.PKG.RESET_LAST_CAUSE cause

/-! ## Start-up -/

/-- A channel recorded as RETIRED, FAILED or DRAINING is OFF with its cause and counts as out of service (R182 step 2). -/
def State.channelOff (s : State) (c : Nat) : State :=
  let u := chanUnit c
  let out := s.getF u Reg.MCHN.STATE_CAUSE ≠ 0 ∨ 3 ≤ s.chanState c
  let s := (s.setF u Reg.MCHN.STATE_STATE 0).setF u Reg.MCHN.FRAMES_USABLE 0
  if out then (s.emptyUe c).setOwn u 3 else s

/-- The early replay of the memory records (R496). -/
def State.replayMemory (s : State) : State :=
  match s.mg.flash.good with
  | none => s
  | some g =>
    let s := s.replay g.regs (allUnits.filter memRecord)
    let s := { s with mm := { s.mm with ue := g.ue, repl := g.repl, cal := g.cal } }
    (List.range 192).foldl State.channelOff s

/-- Memory start-up begins: every channel without a recorded cause trains (R182). -/
def State.memStart (s : State) : State :=
  if s.mg.memStarted then s else
  let s := (List.range 192).foldl (fun s c =>
    if s.chanState c = 0 ∧ s.getF (chanUnit c) Reg.MCHN.STATE_CAUSE = 0 then s.setF (chanUnit c) Reg.MCHN.STATE_STATE 1 else s) s
  { s with mg := { s.mg with memStarted := true } }

/-- s0 (R486, R488): BOOT_SEL is sampled, the drove clock starts, the memory records are replayed; for a FLASH boot from a valid active slot
memory starts. -/
def State.startBoot (s : State) (sel : Fin 4) (rot : StoreRot) : State :=
  let s := { s with drove := 0, stepped := 0 }
  let s := s.storeFound rot
  let s := (s.setF .pkg Reg.PKG.START_STATE 1).setF .pkg Reg.PKG.START_BOOT_SEL sel
  let s := s.replayMemory
  if sel = 0 then (if s.slotUsable s.mg.flash.active then s.memStart else s)
  else if sel = 1 then s.setF .pcie Reg.PCIE.BOOT_STAT_STATE 1
  else s

/-- HCTL's own condition (R413, R498): groups could not be written for 10 s, or a sensor of hot spots 416–439 is failed. -/
def State.hctlOwn (s : State) : State :=
  let late := match s.mg.storeFail with
    | some t => decide (t + 10000000000 ≤ s.elapsed)
    | none => false
  let sensor := s.failedSensors.any (fun n => decide (832 ≤ n))
  s.setOwn .hctl (if late || sensor then 1 else 0)

/-- Tiles whose failure fuse is blown are FAILED whatever the log says, and so is one whose fuse is still to be blown, its 1 ms being
over before the settings are restored; a slot that the restored map gives to a FAILED tile goes to a spare, with CAUSE SELFTEST
(R116). -/
def State.applyFuses (s : State) : State :=
  (List.finRange 4).foldl (fun s d => (List.finRange 104).foldl (fun s (t : Fin 104) =>
    let blown := s.fuses.getD (tileKey d t) false || s.fuseDue.getD (tileKey d t) false
    if blown && s.tileState d t == 0 then s.failTile d t 0 none
    else if blown && s.tileState d t == 1 then
      (s.tileFailed d t).setF (.cdie d) Reg.CDIE.SPARES_LEFT (s.getF (.cdie d) Reg.CDIE.SPARES_LEFT - 1)
    else if s.tileState d t = 2 then match (List.range 100).find? (fun n => s.slotTile d n == some t) with
      | some n => (s.setFails d (s.fails d ++ [⟨t, n, 0, none, false⟩])).setF (.cdie d) (Reg.CDIE.SLOT_VALID n) 0
      | none => s
    else s) s) s

/-- Conditions at start-up follow what was restored: sensors, dies, clusters, lasers. -/
def State.startHealth (s : State) : State :=
  let s := s.failedSensors.foldl (fun s n =>
    match spotTile ⟨n / 2 % 440, Nat.mod_lt _ (by decide)⟩ with
    | some (d, t) => if s.tileState d t = 0 then s.setOwn (.tile d t) 1 else s
    | none => s) s
  let s := (List.finRange 4).foldl (fun s d =>
    let s := if s.getF (.cdie d) Reg.CDIE.ACTIVE_TILES < 100 then s.setOwn (.cdie d) 1 else s
    (List.finRange 13).foldl (fun s c => s.refreshCluster d c) s) s
  ((List.finRange 16).foldl State.laserHealth s).hctlOwn

/-- The settings are restored: those of the log, or the factory defaults (R494, R495). -/
def State.replaySettings (s : State) : State :=
  match s.mg.flash.good with
  | none =>
    let s := s.setF .pkg Reg.PKG.START_DEFAULTS 1
    (s.setF .hctl Reg.HCTL.ALERT_STAT_DEFAULTS 1).fusedLasers
  | some g =>
    let n := s.getF .pkg Reg.PKG.RATING_TILES
    let s : State := (List.finRange 16).foldl (fun (s : State) p => match g.ports.find p.val with
      | some k => s.restorePort p k
      | none => s) s
    let s := s.replay g.regs (allUnits.filter (fun u => !memRecord u))
    let s := s.setF .pkg Reg.PKG.RATING_TILES (min n (s.getF .pkg Reg.PKG.RATING_TILES))
    let spots := g.sensors.foldl (fun (m : Map Spot) n =>
      let x := m.getD (n / 2) .init
      m.put (n / 2) (if n % 2 = 0 then { x with failA := true } else { x with failB := true })) s.pw.spots
    s.setPw { s.pw with spots := spots, margins := g.margins.map (fun (e : Nat × Margin) => (e.1, { e.2 with at_ := 0 })) }

/-- The tile rails stand at the restored margins (R488). -/
def State.railsUp (s : State) : State :=
  (List.finRange 4).foldl (fun s d => (List.finRange 13).foldl (fun (s : State) (c : Fin 13) =>
    let v := min 360 (max 200 (s.railNeed d c))
    (s.setPw { s.pw with rails := s.pw.rails.putD (clusKey d c) v 300 }).setF (.cdie d) (Reg.CDIE.CLUS_CEIL_RAIL_MV c) (v * 5 / 2)) (s.ceilsOf d)) s

/-- Every island that is not FAILED is to be visited before READY (R428). -/
def State.visitAll (s : State) : State :=
  s.setPw { s.pw with toVisit := (List.finRange 4).flatMap (fun d =>
    ((List.finRange 104).filter (fun (t : Fin 104) => s.tileState d t != 2)).map (fun t => tileKey d t)) }

/-- Ports with ENABLE set begin their bring-up. -/
def State.enablePorts (s : State) : State :=
  (List.finRange 16).foldl (fun s p => if s.isSet (.port p) Reg.PORT.LINK_CTL_ENABLE then s.toStep1 p else s) s

end Sys2Proof.Machine
end

