-- ==== Sys2Proof/Machine/Firmware.lean ====
section
/-! DEFINITION. Firmware update and recovery (R514–R534). Messages arrive with their fields as operands; what programming and
rereading the retained store find arrives as operands too. -/

namespace Sys2Proof.Machine

open Sys2Proof

/-- Transfer messages are handled: by the firmware, or by the ROM of a NET boot or of RECOVERY. -/
def State.xferServing (s : State) : Bool := s.fwServing || s.romTransfer

/-- Chunks of which pieces are held. -/
def State.heldChunks (s : State) : List Nat := (s.mg.fw.pieces.map (fun e => e.1 / 64)).eraseDups

/-! ## The transfer (R519–R521) -/

/-- XFER_START from a server. -/
def execXferStart (src : BitVec 48) (setId : BitVec 64) (epoch : BitVec 32) (chunks : BitVec 8) (s : State) : Ans :=
  .next (
    if !s.xferServing then s
    else if chunks = 0 ∨ 63 < chunks.toNat then s.mgmtBad
    else if s.fwState = 0 ∨ s.fwState = 6 then
      let s := s.setFw { s.mg.fw with server := src.toNat, pieces := [] }
      (s.setXfer (some ⟨setId.toNat, epoch.toNat, chunks.toNat, []⟩)).toFwState 1 0
    else if (s.mg.fw.xfer.any (fun x => x.setId == setId.toNat)) then
      (s.setFw { s.mg.fw with server := src.toNat }).tellServer
    else s.sendStatus src.toNat 10)

/-- XFER_PIECE: 1,024 bytes of a chunk. -/
def execXferPiece (src : BitVec 48) (setId : BitVec 64) (chunk piece : Fin 64) (data : List Byte) (s : State) : Ans :=
  .next (
    if !s.xferServing then s
    else if data.length ≠ 1024 then s.mgmtBad
    else match s.mg.fw.xfer with
    | none => s
    | some x =>
      if s.fwState ≠ 1 ∨ x.setId ≠ setId.toNat ∨ x.chunks < chunk.val then s
      else if x.done.contains chunk.val || (!s.heldChunks.contains chunk.val && decide (4 ≤ s.heldChunks.length)) then
        s.bump .hctl Reg.HCTL.FW_PIECE_DROP_COUNT
      else s.setFw { s.mg.fw with server := src.toNat, pieces := s.mg.fw.pieces.put (64 * chunk + piece) data })

/-- XFER_QUERY is answered with the set in hand, whichever it names, 0 for whatever is staged. -/
def execXferQuery (src : BitVec 48) (_setId : BitVec 64) (s : State) : Ans :=
  .next (if s.xferServing then s.sendStatus src.toNat (s.getF .hctl Reg.HCTL.FW_STAT_CAUSE) else s)

/-- XFER_ABORT is carried out, where it acts, and answered. -/
def execXferAbort (src : BitVec 48) (setId : BitVec 64) (s : State) : Ans :=
  .next (
    if !s.xferServing then s else
    let named := s.mg.fw.xfer.any (fun x => x.setId == setId.toNat)
    let st := s.fwState
    let s := if named ∧ (st = 1 ∨ st = 2 ∨ st = 6) then s.dropSet else s
    s.sendStatus src.toNat (s.getF .hctl Reg.HCTL.FW_STAT_CAUSE))

/-- The bytes of a chunk all of whose pieces are held. -/
def State.chunkHeld (s : State) (c : Nat) : List Byte := (List.range 64).flatMap (fun p => s.mg.fw.pieces.getD (64 * c + p) [])

/-- A chunk is stored: in the inactive slot, or by the ROM in the boot buffer. `ok`: the slot programs within three tries. -/
def State.storeChunk (s : State) (c : Nat) (b : List Byte) (ok : Bool) : State × Bool :=
  if s.romTransfer then ({ s with mg := { s.mg with bootBuf := s.mg.bootBuf.writeBytes (chunkBytes * c) b } }, true)
  else if ok then (s.putChunk s.idleSlot c b, true)
  else (s.spoilChunk s.idleSlot c, false)

/-- The manifest passed: on a running package the chunks above CHUNKS of the inactive slot are erased. -/
def State.eraseAbove (s : State) (n : Nat) : State :=
  if s.romTransfer then s else
  ((List.range 64).filter (fun c => decide (n < c))).foldl (fun s c => s.putChunk s.idleSlot c erasedChunk) s

/-- The manifest in hand: chunk 0 as stored. -/
def State.newManifest (s : State) : List Byte := if s.romTransfer then s.bootChunk 0 else s.slotChunk s.idleSlot 0

/-- The pieces of a chunk leave. -/
def State.dropPieces (s : State) (c : Nat) : State :=
  s.setFw { s.mg.fw with pieces := s.mg.fw.pieces.delRange (64 * c) (64 * c + 64) }

/-- In a NET boot memory starts once the HBM PHY training firmware has been verified (R486). -/
def State.netMemStart (s : State) (x : Xfer) : State :=
  if s.startState = 1 ∧ x.done.contains 0 ∧ (hptChunks s.newManifest).all (fun c => x.done.contains c) then s.memStart else s

/-- A stored chunk is done, or its failure refuses the set. A manifest in a slot ends what a dropped set had left there (R520). -/
def State.chunkDone (s : State) (x : Xfer) (c : Nat) (b : List Byte) (ok : Bool) : State :=
  let (s, stored) := s.storeChunk c b ok
  let s := if c = 0 && !s.romTransfer then s.barSlot s.idleSlot false else s
  let x := { x with done := x.done ++ [c] }
  if stored then (((s.dropPieces c).setXfer (some x)).tellServer).netMemStart x else s.fwReject 7

/-- A chunk all of whose pieces are held is checked, programmed and read back. -/
def execChunkWriteDone (c : Fin 64) (ok : Bool) (s : State) : Ans :=
  .next (match s.mg.fw.xfer with
    | none => s
    | some x =>
      if !s.xferServing || s.fwState ≠ 1 || (s.piecesOf c).length ≠ 64 then s else
      let b := s.chunkHeld c
      if c = 0 then
        let cause := s.setCause b x.setId (!s.romTransfer)
        if cause ≠ 0 then s.fwReject cause
        else (s.eraseAbove (mChunks b)).chunkDone { x with chunks := mChunks b, epoch := mEpoch b } 0 b ok
      else if !x.done.contains 0 then s
      else if !chunkGood s.newManifest c b then (s.dropPieces c).bump .hctl Reg.HCTL.FW_CHUNK_BAD_COUNT
      else s.chunkDone x c b ok)

/-- A chunk of the inactive slot fails as it is read again: its bytes have not the hash the manifest names, or `bad` says so of what was read. -/
def State.chunkFails (s : State) (bad : BitVec 64) (c : Nat) : Bool :=
  bad.getLsbD c || (if c = 0 then s.setCause s.newManifest (mSetId s.newManifest) false != 0
    else !chunkGood s.newManifest c (s.slotChunk s.idleSlot c))

/-- The whole slot has been reread; `bad`: chunks read wrongly. -/
def execSlotVerifyDone (bad : BitVec 64) (s : State) : Ans :=
  .next (match s.mg.fw.xfer with
    | none => s
    | some x =>
      if !s.fwServing || s.fwState ≠ 1 || !x.whole then s else
      let fails := x.done.filter (s.chunkFails bad)
      if fails = [] then (s.toFwState 2 0).raise .hctl Evt.HCTL.FW_STAGED
      else (s.setXfer (some { x with done := x.done.filter (fun c => !s.chunkFails bad c) })).tellServer)

/-- FW_CTL.DISCARD. -/
def execFwDiscard (s : State) : Ans :=
  .next (
    let st := s.fwState
    if s.xferServing && (st == 1 || st == 2 || st == 6) then s.dropSet.tellServer else s)

/-! ## Preparing and activating (R523–R529) -/

/-- FW_CTL.PREPARE. -/
def execFwPrepare (s : State) : Ans := .next (if s.fwServing && s.fwState == 2 then s.toFwState 3 0 else s)

/-- Preparation ends: the slot is read again, `bad` its chunks read wrongly, and the images stand in the second banks. -/
def execFwPrepareDone (bad : BitVec 64) (s : State) : Ans :=
  .next (
    if s.fwState ≠ 3 then s
    else if (List.range (mChunks s.newManifest + 1)).any (s.chunkFails bad) then (s.toFwState 2 8).raise .hctl Evt.HCTL.FW_REJECTED
    else if !stateCompat s.mg.fw.running s.newManifest then (s.toFwState 2 9).raise .hctl Evt.HCTL.FW_REJECTED
    else (s.setFw { s.mg.fw with second := s.secondBanks s.idleSlot }).toFwState 4 0)

/-- Every image but the tile microcode has confirmed (R525). -/
def FwSt.allConfirmed (x : FwSt) : Bool :=
  imagePairs.all (fun p => p.1 == 1 || x.confirmed.contains (256 * p.1 + p.2))

/-- The commit point: tiles begin to switch (R525). -/
def State.commitPoint (s : State) : State :=
  let s := s.setFw { s.mg.fw with committed := true, tmcOn := true, tileWait := false, second := s.mg.fw.second.filter (fun e => e.1 / 256 = 1) }
  let s := { s with tiles := s.tiles.map (fun (e : Nat × Tile) => (e.1, { e.2 with newTmc := false })) }
  s.tmcCount

/-- What an image waits for before it hands over: the gap of its port (R286), a retrain (R525). -/
def State.imageHeld (s : State) (kind : Fin 5) (inst : Fin 32) : Bool :=
  (kind.val == 3 && s.isSet (.port ⟨inst / 2, by omega⟩) Reg.PORT.LASER_STAT_GAP) ||
    (kind.val == 4 && s.mm.retraining.any (fun e => e.2))

/-- An image confirms its handover; the new HCF image takes up the hub controller's work, the new DPC image the ceilings, and what an optical
engine's offers as LEVEL shows at the link's next bring-up. -/
def execFwImageConfirm (kind : Fin 5) (inst : Fin 32) (s : State) : Ans :=
  .next (
    if !s.handingOver || kind = 1 || !imagePairs.contains (kind.val, inst.val) || s.imageHeld kind inst then s else
    let k := 256 * kind.val + inst.val
    let x := s.mg.fw
    let x := if x.confirmed.contains k then x else { x with confirmed := x.confirmed ++ [k] }
    let s := s.setFw x
    let s := if k = 0 then s.hcBack else if kind = 2 then s.freeCeils
      else if kind = 3 ∧ inst.val % 2 = 0 then
        s.setFw { s.mg.fw with levels := s.mg.fw.levels.put (inst.val / 2) (oecOffer s.newManifest (inst.val / 2)) }
      else s
    if x.allConfirmed then s.commitPoint else s)

/-- The handover is abandoned: LIMIT_MS has passed, or a new image `refused` the stored state; `restarted`: images restarted
from their first banks (R528, R529). -/
def execFwHandoverTimeout (refused : Bool) (restarted : List (Fin 5 × Fin 32)) (s : State) : Ans :=
  .next (if s.handingOver then
      let s := s.levelsBack.fwAbandon (if refused then 2 else 1) restarted
      if s.mg.hcDown then s.loopFence else s.hcBack
    else s)

/-- The selection record is written after the commit point: the new set runs (R525, R527). -/
def execFwSelectionWritten (s : State) : Ans :=
  .next (
    if s.fwState ≠ 5 || !s.mg.fw.committed then s else
    let k := s.idleSlot
    let m := s.slotChunk k 0
    let s := s.select k
    let s := s.setF .hctl Reg.HCTL.FW_STAT_RUN_SLOT k
    let s := s.setF .pkg Reg.PKG.START_SLOT k
    let s := s.setF .pkg Reg.PKG.FW_EPOCH_EPOCH (mEpoch m)
    let s := s.setF .hctl Reg.HCTL.FW_ACT_STAT_RESULT 1
    let s := s.setF .hctl Reg.HCTL.FW_ACT_GO 0
    let s := (s.setFw { s.mg.fw with running := m, confirmed := [], committed := false }).showSealed
    s.clearXfer.tellServer.raise .hctl Evt.HCTL.FW_DONE)

/-- A tile with both slots empty loads the new tile microcode. -/
def execTileTmcSwitch (d : Fin 4) (t : Fin 104) (s : State) : Ans :=
  .next (
    let x := s.tile d t
    if !s.mg.fw.tmcOn || !s.tileActive d t || x.newTmc || x.slot0.isSome || x.slot1.isSome then s
    else (s.setTile d t { x with newTmc := true }).tmcCount)

/-- TILE_WAIT_MS has passed since the commit point. -/
def execFwTileWaitExpire (s : State) : Ans :=
  .next (if s.mg.fw.tmcOn then s.setFw { s.mg.fw with tileWait := true } else s)

/-! ## Sealing (R530, R531) -/

/-- Highest RB of a kind among a manifest's entries. -/
def mTopRb (m : List Byte) (k : Nat) : Nat :=
  ((List.range 36).filter (fun i => (mPair m i).1 == k)).foldl (fun n i => max n (mRb m i)) 0

/-- FW_CTL.SEAL. -/
def execFwSeal (s : State) : Ans :=
  .next (
    if !s.fwServing || s.fwState ≠ 0 || s.runSlot ≠ s.mg.flash.active then s else
    let m := s.mg.fw.running
    ((List.range 5).foldl (fun s k => s.setF .hctl (Reg.HCTL.FW_FUSE_COUNT k) (max (s.fwFuse k) (mTopRb m k))) s).showSealed)

/-- FW_CTL.MARK. -/
def execFwMark (s : State) : Ans :=
  .next (if s.fwServing && s.fwState == 2 then (s.select s.idleSlot).clearXfer.tellServer else s)

/-! ## Recovery (R532) -/

/-- Chunks of a slot that failed to program hold no known value. -/
def State.spoilSlot (s : State) (k : Nat) : State := (List.range 64).foldl (fun s c => s.spoilChunk k c) s

/-- In ROM recovery a whole verified set has been written to slot 0 and then slot 1; `ok0`, `ok1`: each reads back. -/
def execRecoverySetWritten (ok0 ok1 : Bool) (s : State) : Ans :=
  .next (
    if s.startState ≠ 5 || s.fwState ≠ 1 || !(s.mg.fw.xfer.any Xfer.whole) then s else
    let s := if ok0 then s.bootToSlot 0 else s.spoilSlot 0
    let s := if ok1 then s.bootToSlot 1 else s.spoilSlot 1
    if ok0 then (s.select 0).toFwState 7 0
    else if ok1 then (s.select 1).toFwState 7 0
    else s.fwReject 7)

end Sys2Proof.Machine
end

