-- ==== Sys2Proof/Machine/ViewOps.lean ====
section
/-! DEFINITION. What a read of a unit page shows (R10–R12, R457, R556, R559): words kept, words formed at the read, shadows
under VIEW, latched halves, and what a read clears; and what a plain write of a register does. -/

namespace Sys2Proof.Machine

open Sys2Proof

/-! ## Words formed at the read -/

/-- A commit covering the unit is pending, its own or an ancestor's. -/
def State.pendingOver (s : State) (u : UnitId) : Bool := (UnitId.chain u 4).any (fun a => (s.commit? a).isSome)

/-- The head of a pool waits on its WAIT_OBJ; a queued retry, which is the head, does not (R153, R165). -/
def State.headWaits (s : State) (p : Nat) : Bool :=
  let x := s.pool p
  x.state == 1 && x.untaken != 0 && x.retries.isEmpty && (match s.ringDesc x x.head with
    | some b => let t := Task.fresh p b; t.waitEn && !s.headAllowed t.waitObj x.home x.waitGen
    | none => false)

/-- LOST_NEXT: the lowest LOST page at or above LOST_SCAN.FROM (R202, R226); with none, VALID is 0 and PAGE as it was left. -/
def State.lostNext (s : State) : Nat :=
  match s.mm.pages.find? (fun e => decide (s.getF .place Reg.PLACE.LOST_SCAN_FROM ≤ e.1) && e.2.st = .lost) with
  | some e => e.1 + 2 ^ 31
  | none => s.getF .place Reg.PLACE.LOST_NEXT_PAGE

/-- Registers of the pool POOL_SEL selects (R171). -/
def State.poolView (s : State) (off : Nat) : Option Nat :=
  let p := s.getF .pkg Reg.PKG.POOL_SEL_POOL
  let x := s.pool p
  match off with
  | 0x114 => some (bitAt x.state 0 2 + boolAt (s.headWaits p) 2 + boolAt x.held 3 + bitAt x.err 4 4)
  | 0x118 => some x.head
  | 0x11C => some x.tail
  | 0x120 => some x.cqTail
  | 0x124 => some (min x.running 0x1FFFF)
  | _ => none

/-- Messages a context has open. -/
def Flow.openCount (f : Flow) : Nat :=
  if f.kind = 2 then f.openMsgs.length else if f.kind = 3 then f.mcast.length else f.msgs.length

/-- UNA of a send context: the oldest SEQ unacknowledged. -/
def Flow.una (f : Flow) : Nat := match f.out with
  | x :: _ => x.pkt.seq
  | [] => f.next

/-- Registers of the flow context FLOW_SEL selects; a context of the other hub reads DISABLED (R337). -/
def State.flowView (s : State) (h : Fin 2) (off : Nat) : Option Nat :=
  let c := s.getF (.rout h) Reg.ROUT.FLOW_SEL_CTX
  let f := if flowHub c = h then s.flow c else .init
  match off with
  | 0x114 => some (bitAt f.state 0 2 + bitAt f.kind 2 2 + bitAt f.out.length 4 9 + bitAt f.openCount 13 3)
  | 0x118 => some f.next
  | 0x11C => some (if f.kind = 1 then f.una else 0)
  | _ => none

/-- State of the circuit CKT_SEL selects: ACTIVE while its entry is VALID. -/
def State.cktView (s : State) (h : Fin 2) : Nat :=
  let c := s.getF (.rout h) Reg.ROUT.CKT_SEL_CKT
  let k := s.cktSt c
  (if k.failed then 2 else if cktValid (s.cktEntry h c) then 1 else 0) + bitAt k.out.length 4 9

/-- Registers of the object OBJ_SEL selects; one homed on the other hub reads KIND NONE (R383). -/
def State.objView (s : State) (h : Fin 2) (off : Nat) : Option Nat :=
  let o := s.getF (.sync h) Reg.SYNC.OBJ_SEL_OBJ
  let b := if objHub o = h then s.obj o else .idle
  match off with
  | 0x108 => some (bitAt b.kind 0 3 + bitAt b.scope 3 2 + bitAt b.state 5 2 + bitAt b.status 8 8 + bitAt b.fenced 16 14)
  | 0x10C => some b.count
  | 0x110 => some b.gen
  | 0x114 => some b.skew
  | _ => none

/-- Registers of the phase PHASE_SEL selects (R402). -/
def State.phaseView (s : State) (off : Nat) : Option Nat :=
  let e := s.pw.phases.find (256 * s.getF .hctl Reg.HCTL.PHASE_SEL_DIE + s.getF .hctl Reg.HCTL.PHASE_SEL_PHASE)
  match off, e with
  | 0x264, some (mw, _) => some (bitAt mw 0 16 + 2 ^ 31)
  | 0x264, none => some 0
  | 0x268, some (_, pct) => some pct
  | 0x268, none => some 100
  | _, _ => none

/-- Registers of the queue QSEL selects (R477). -/
def State.queueView (s : State) (off : Nat) : Option Nat :=
  let x := s.hq s.qsel
  match off with
  | 0x064 => some (bitAt x.state 0 2 + bitAt x.err 4 3 + bitAt x.live.length 8 5)
  | 0x068 => some x.sqLo.toNat
  | 0x06C => some x.sqHi.toNat
  | 0x070 => some x.cqLo.toNat
  | 0x074 => some x.cqHi.toNat
  | 0x078 => some x.cfg.toNat
  | 0x07C => some x.sqHead
  | 0x080 => some x.cqTail
  | 0x084 => some x.high
  | 0x088 => some (x.high / 2 ^ 32)
  | _ => none

/-- Destination and cross-table words of a router page (R238, R337); the CRC of an undefined bank is a free value. -/
def State.routView (s : State) (h : Fin 2) (off : Nat) : Option Nat :=
  let r := s.rout h
  match off with
  | 0x04C => some (s.getF (.rout h) Reg.ROUT.DTAB_STAT_BUSY + bitAt (s.getF (.rout h) Reg.ROUT.DTAB_STAT_RESULT) 4 2 +
      boolAt (s.dtabOk h) 6)
  | 0x050 => some (if r.dundef then Config.freeNat s.freeCtr else r.dtabCrc)
  | 0x054 => some r.activeCrc
  | 0x134 => some r.cktTabCrc
  | 0x138 => some r.mcTabCrc
  | 0x144 => some (s.cktView h)
  | _ => s.flowView h off

/-- Islands of a die whose visit is due (R428). -/
def State.dueCount (s : State) (d : Fin 4) : Nat :=
  ((List.finRange 104).filter (fun (t : Fin 104) => s.tileState d t != 2 && s.isDue d t)).length

/-- Hours since the last visit of an island, saturating (R432). -/
def State.marginAge (s : State) (d : Fin 4) (t : Fin 104) : Nat :=
  min 4095 ((s.elapsed - (s.marginOf d t).at_) / (3600 * 1000000000))

/-- Departures of a port from ADMITTED within the last hour (R248). -/
def State.flaps (s : State) (p : Fin 16) : Nat :=
  min 255 ((s.link p).flapLog.filter (fun t => decide (s.elapsed ≤ t + ns1h))).length

/-- A word that is formed at the read, where it is one. -/
def State.formed (s : State) (u : UnitId) (off : Nat) : Option Nat :=
  if off = 0x020 then some (setBits (s.getW u off) 2 2 (if s.pendingOver u then 1 else 0)).toNat
  else if off = 0x038 then
    let b := s.getF u Reg.EVT_CNT_SEL_BIT
    some (if u.ownBit b then s.evtCnt.getD (evtKey u b) 0 else 0)
  else match u with
  | .pkg => s.poolView off
  | .place => if off = 0x194 then some s.lostNext else none
  | .tile d t =>
    if off = 0x000 then some (setBits (s.getW u off) 23 8 (s.tileChild d t)).toNat
    else if off = 0x074 then some (setBits (s.getW u off) 27 16 (s.marginAge d t)).toNat
    else none
  | .cdie d => if off = 0x3A8 then some (s.dueCount d) else none
  | .port p => if off = 0x04C then some (setBits (s.getW u off) 15 8 (s.flaps p)).toNat else none
  | .rout h => s.routView h off
  | .sync h =>
    if h = 0 && off = 0x04C then some s.drove
    else if h = 0 && off = 0x050 then some (s.drove / 2 ^ 32)
    else s.objView h off
  | .hctl => s.phaseView off
  | .pcie => s.queueView off
  | .assay =>
    if off = 0x040 then some (setBits (s.getW u off) 31 16 (descF s.ident 2 2)).toNat
    else if 0x080 ≤ off && off < 0x100 then some (descF s.ident (off - 0x080) 4)
    else none
  | _ => none

/-- The part of a SYNC page that stands on H0's page only (R383). -/
def syncHere (u : UnitId) (off : Nat) : Bool := match u with
  | .sync h => h.val = 0 || off < 0x040 || (0x100 ≤ off && off < 0x200)
  | _ => true

/-- The word a read of a unit page returns, latches aside; with VIEW set, staged fields show their shadows (R559). -/
def State.view (s : State) (u : UnitId) (off : Nat) : Word :=
  if !syncHere u off then 0 else
  match s.formed u off with
  | some v => BitVec.ofNat 32 v
  | none =>
    let w := s.getW u off
    if s.isSet u Reg.COMMIT_VIEW then
      let m := stMask u off
      (w &&& ~~~m) ||| (s.getShadow u off &&& m)
    else w

/-- Offsets of the _LO registers of a unit; the _HI half of each follows it (R11). -/
def loOffs (u : UnitId) : List Nat :=
  0x028 :: match u with
  | .pkg => [0x040, 0x078, 0x100]
  | .cdie _ => [0x050, 0x2A0, 0x2A8]
  | .tile _ _ => [0x058, 0x060]
  | .mchn _ _ => [0x070, 0x078]
  | .place => [0x078, 0x180]
  | .port _ => [0x040, 0x050, 0x120, 0x128, 0x188, 0x1E0]
  | .rout _ => [0x040, 0x108, 0x124, 0x12C, 0x180, 0x188]
  | .sync _ => [0x040, 0x04C, 0x054, 0x078]
  | .hctl => [0x040, 0x080, 0x104, 0x10C, 0x2A4]
  | .assay => [0x048]
  | .pcie => [0x048, 0x068, 0x070, 0x084]
  | _ => []

/-- A read of a _LO register latches the matching _HI half; the next read of that _HI register returns it (R11). -/
def State.latched (s : State) (u : UnitId) (off : Nat) : Word × State :=
  if (loOffs u).contains off then
    (s.view u off, { s with latch := s.latch.put (regKey u (off + 4)) (s.view u (off + 4)) })
  else if 4 ≤ off && (loOffs u).contains (off - 4) then
    match s.latch.find (regKey u off) with
    | some w => (w, { s with latch := s.latch.del (regKey u off) })
    | none => (s.view u off, s)
  else (s.view u off, s)

/-! ## What a read clears (R12, R536, R538, R539) -/

/-- The level whose PEAK or TROUGH a word holds. -/
def levelAt (u : UnitId) (off : Nat) : Option LevelRegs :=
  [spillLevel, pwrLevel].find? (fun L => decide (u = L.unit) && (off == L.peak.off || off == L.trough.off))

/-- The RC fields of a word are cleared by a read, a PEAK or TROUGH reloaded with the present LEVEL; then comes the update of the same
cycle: `same` occurrences are counted, or, of a level, 0 is none and v + 1 a move to v. -/
def State.rcClear (s : State) (u : UnitId) (off same : Nat) : State :=
  let s : State := if off = 0x038 then
      let b := s.getF u Reg.EVT_CNT_SEL_BIT
      if !u.ownBit b then s
      else
        let was := s.unmasked u
        let n := if u.raises b then same else 0
        let s := { s with evtCnt := s.evtCnt.putD (evtKey u b) (min (n - 1) 0xFFFF) 0 }
        if n = 0 then s else if u = .pkg then (s.raise u b).pkgSummary was else s.raise u b
    else s
  let rc := u.fields.filter (fun f => f.off = off && f.acc = .rc)
  match levelAt u off with
  | some L =>
    let s := rc.foldl (fun s f => s.setF u f (s.getF u L.level)) s
    if same = 0 then s else s.moveLevel L ((same - 1) % (L.level.max + 1))
  | none => rc.foldl (fun s f => (s.setF u f f.rst).bumpBy u f same) s

/-! ## Whole pages -/

/-- Auxiliary pages (R553): completion heads, the MSI-X table and its pending bits; the doorbells read 0. -/
def State.auxRead (s : State) (page off : Nat) : Word :=
  if page < 0x10008 ∧ 0x10004 ≤ page then
    if s.ready then BitVec.ofNat 32 (s.pool (1024 * (page - 0x10004) + off / 4)).cqHead else 0
  else if page = 0x10008 ∧ 0x800 ≤ off ∧ off < 0x900 then
    if s.ready then BitVec.ofNat 32 (s.hq ((off - 0x800) / 4)).cqHead else 0
  else if 0x1FFF0 ≤ page ∧ page < 0x1FFF8 then s.msixWord (1024 * (page - 0x1FFF0) + off / 4)
  else if page = 0x1FFF8 ∧ off < 0x100 then
    ((List.range 32).foldl (fun (w : Word) b => if s.host.msixPend.getD (8 * off + b) false then w ||| BitVec.ofNat 32 (2 ^ b) else w) 0)
  else 0

/-- A read of BAR0: the word returned and the state it leaves. An access that is not an aligned word, or that reaches a page
the tree does not present or that does not answer yet, reads 0 (R10, R457, R489). -/
def State.readReg (s : State) (page off width same : Nat) : Word × State :=
  if width ≠ 4 ∨ off % 4 ≠ 0 ∨ 4096 ≤ off then (0, s) else
  if 0x10000 ≤ page then (s.auxRead page off, s) else
  match s.unitAt page with
  | none => (0, s)
  | some u =>
    if !s.pageOpen u then (0, s) else
    let (w, s) := s.latched u off
    let s := match u with
      | .rout _ => if off = 0x050 then s.tickFree else s
      | _ => s
    (w, if syncHere u off then s.rcClear u off same else s)

/-! ## Plain writes -/

/-- Fields of type RW whose writes have a row of their own. -/
def ownRow (u : UnitId) (f : Fld) : Bool :=
  match u with
  | .tile _ _ => f.off == 0x048
  | .port _ => (f.off == 0x100 && f.hi < 5) || f.off == 0x180
  | .place => f.off == 0x064 || f.off == 0x068 || f.off == 0x190
  | .hctl => f.off == 0x220 || f.off == 0x224
  | _ => false

/-- A write of a field takes effect: its value is in the range stated, and the unit takes it in its present state. -/
def State.takes (s : State) (u : UnitId) (f : Fld) (n : Nat) : Bool :=
  match u, f.off, f.lo with
  | .pkg, 0x184, _ => 4 ≤ n && n ≤ 24
  | .place, 0x040, _ => 1000 ≤ n && n ≤ 60000
  | .place, 0x044, _ => n ≤ 400
  | .place, 0x048, 16 => 9 ≤ n
  | .port _, 0x108, 0 => 1 ≤ n && n ≤ 1000
  | .rout _, 0x100, 0 => 8 ≤ n
  | .rout _, 0x100, 8 => n ≤ 75
  | .rout _, 0x104, 0 => 100 ≤ n && n ≤ 10000
  | .hctl, 0x290, _ => 3000 ≤ n && n ≤ 4400
  | .hctl, 0x124, 0 => 6 ≤ n && n ≤ 100
  | .place, o, _ => !(0x0A0 ≤ o && o ≤ 0x0A8) || !s.isSet u Reg.PLACE.REQ_STAT_BUSY
  | .tile _ _, o, _ =>
    if 0x080 ≤ o && o < 0x100 && o % 0x20 < 0x10 then s.getF u (Reg.TILE.WIN_CTL_STATE ((o - 0x080) / 0x20)) == 0 else true
  | _, _, _ => true

/-- The RW fields of a word are written (R10). -/
def State.plainFields (s : State) (u : UnitId) (off : Nat) (w : Word) : State :=
  ((if off < 0x040 then Reg.header else u.fields).filter (fun f => f.off = off && f.acc = .rw && !ownRow u f)).foldl
    (fun s f => if s.takes u f (getBits w f.hi f.lo) then s.setF u f (getBits w f.hi f.lo) else s) s

/-- The Q_ registers act on the queue in QSEL, while it is DISABLED (R462, R477). -/
def State.queueWrite (s : State) (off : Nat) (w : Word) : State :=
  let q := s.qsel
  let x := s.hq q
  if x.state ≠ 0 then s else
  match off with
  | 0x068 => s.setHq q { x with sqLo := w }
  | 0x06C => s.setHq q { x with sqHi := w }
  | 0x070 => s.setHq q { x with cqLo := w }
  | 0x074 => s.setHq q { x with cqHi := w }
  | 0x078 => s.setHq q { x with cfg := w &&& 0x0FFF1F1F }
  | _ => s

/-- What a unit makes of a register just written. -/
def State.afterWrite (s old : State) (u : UnitId) (off : Nat) : State :=
  match u, off with
  | .sync h, 0x064 => if h = 0 then s.elect else s
  | .sync h, 0x070 => if h = 0 then s.ceilsFrom old else s
  | .hctl, 0x2B0 => if s.isSet .hctl Reg.HCTL.THERM_CTL_MODEL_ONLY then s.setFcast 0 else s
  | .port p, 0x100 =>
    if s.isSet (.port p) Reg.PORT.LINK_CTL_FAR_LOOP_ALLOW || !s.farLoop p then s else s.endLoop p
  | .pcie, 0x054 => s.flushVectors
  | _, _ => s

/-- A word is written to a register of a unit page that has no row of its own: RW fields, or the shadow of ST fields. -/
def State.plainWrite (s : State) (u : UnitId) (off : Nat) (w : Word) : State :=
  if !s.pageOpen u || !syncHere u off then s
  else if u = .pcie ∧ 0x068 ≤ off ∧ off ≤ 0x078 then s.queueWrite off w
  else if stMask u off ≠ 0 then s.stagedWrite u off w
  else if off = 0x018 then s
  else (s.plainFields u off w).afterWrite s u off

/-- A word is written to the MSI-X table (R473). -/
def State.msixWrite (s : State) (k : Nat) (w : Word) : State :=
  let w := if k % 4 = 3 then w &&& 1 else if k % 4 = 0 then w &&& 0xFFFFFFFC else w
  State.flushVectors { s with host := { s.host with msixTab := s.host.msixTab.putD k w (if k % 4 = 3 then 1 else 0) } }

end Sys2Proof.Machine
end

