-- ==== Sys2Proof/Machine/Header.lean ====
section
/-! DEFINITION. Register accesses and unit page headers (R9–R12, R20–R22, R535–R539), on-package links (R543), and the
driver's fence (R548). -/

namespace Sys2Proof.Machine

open Sys2Proof

/-- A host write of a register that has no row of its own; registers that have one are that row's. -/
def execRegisterWrite (page off width : Nat) (w : Word) (s : State) : Ans :=
  .next (
    if width ≠ 4 ∨ off % 4 ≠ 0 ∨ 4096 ≤ off then s
    else if 0x1FFF0 ≤ page ∧ page < 0x1FFF8 then s.msixWrite (1024 * (page - 0x1FFF0) + off / 4) w
    else match s.unitAt page with
      | some u => s.plainWrite u off w
      | none => s)

/-- A host read of a register: a _LO register latches its _HI half. -/
def execLoRegisterRead (page off width : Nat) (s : State) : Ans :=
  .next (
    let (w, s) := s.readReg page off width 0
    s.emit (.regRead page off w))

/-- A host read of a word with read-clears fields; `same` occurrences reach the counter in the cycle of the read. -/
def execRcRegisterRead (page off width same : Nat) (s : State) : Ans :=
  .next (
    let (w, s) := s.readReg page off width same
    s.emit (.regRead page off w))

/-- A unit's HEALTH and summary reach its parent's header. -/
def execSummaryPropagate (u : UnitId) (s : State) : Ans := .next (s.propagate u)

/-- The links that are out leave a compute die without ring links, or a hub without a die or the other hub:
3 DIE_CUT, 4 HUB_LINK, 0 neither (R543, R546). -/
def dieLinkCause (up : Nat) : Nat :=
  let out := fun (l : Nat) => up / 2 ^ l % 2 == 0
  if (out 0 && out 2) || (out 0 && out 3) || (out 1 && out 2) || (out 1 && out 3) then 3
  else if (out 4 && out 5) || (out 6 && out 7) || out 8 then 4 else 0

/-- Replays on an on-package link: counted (R542). More than 1,000 within 1 s, or `stuck`, one transfer replayed 8 times without success, take
it out of use (R543). -/
def execDieLinkOut (l : Fin 9) (replays : Nat) (stuck : Bool) (s : State) : Ans :=
  .next (
    let s := s.bumpBy .pkg Reg.PKG.DIE_LINK_RETRY_COUNT replays
    let log := ((s.mg.dieLog.getD l []).filter (fun t => decide (s.elapsed ≤ t + 1000000000))) ++ List.replicate (min replays 1001) s.elapsed
    let s := { s with mg := { s.mg with dieLog := s.mg.dieLog.putD l log [] } }
    let up := s.getF .pkg Reg.PKG.DIE_LINKS_UP
    if up / 2 ^ l.val % 2 = 0 || !(stuck || decide (1000 < log.length)) then s else
    let s := s.setF .pkg Reg.PKG.DIE_LINKS_UP (up - 2 ^ l.val)
    let s := (s.setOwn .pkg s.pkgOwn).raisePkg Evt.PKG.DIE_LINK
    match dieLinkCause (up - 2 ^ l.val) with
    | 0 => s
    | c => s.doFence c)

/-- FENCE_CTL.FENCE is written. -/
def execFenceCmd (s : State) : Ans := .next (s.doFence 1)

/-- The event bits of a mask occur. -/
def State.raiseMask (s : State) (u : UnitId) (m : Word) : State :=
  ((List.range 32).filter (fun b => u.raises b && m.getLsbD b)).foldl (fun s b => s.raise u b) s

/-- A change of the package summary raises PCIE.EVT_VEC (R473). -/
def State.afterSummary (s : State) (u : UnitId) (was : Bool) : State := if u = .pkg then s.pkgSummary was else s

/-- 1 is written to own event bits, which clear; the events of `raised` reach the header in the same cycle, and stay set. -/
def execEvtPendClear (u : UnitId) (w raised : Word) (s : State) : Ans :=
  .next (
    if !s.pageOpen u then s else
    let was := s.unmasked u
    let s := s.setW u 0x014 (s.getW u 0x014 &&& ~~~(w &&& BitVec.ofNat 32 u.ownMask))
    (s.raiseMask u raised).afterSummary u was)

/-- EVT_MASK is written; a pending bit that it unmasks propagates at once. -/
def execEvtMaskWrite (u : UnitId) (w : Word) (s : State) : Ans :=
  .next (
    if !s.pageOpen u then s else
    let was := s.unmasked u
    let old := s.getW u 0x018
    let s := s.setW u 0x018 w
    let s := s.afterSummary u was
    if s.getW u 0x014 &&& old &&& ~~~w ≠ 0 then s.propagate u else s)

/-- EVT_FORCE is written: its own bits occur, and nothing else follows. -/
def execEvtForce (u : UnitId) (w : Word) (s : State) : Ans :=
  .next (
    if !s.pageOpen u then s else
    (s.raiseMask u w).afterSummary u (s.unmasked u))

/-- A watermark of SPILL_RATIO or PWR_LEVEL is written. -/
def execWatermarkWrite (pwr hi : Bool) (v : BitVec 16) (s : State) : Ans :=
  .next (
    let L := if pwr then pwrLevel else spillLevel
    if !s.pageOpen L.unit then s else s.writeMark L hi (v.toNat % (L.wmHi.max + 1)))

end Sys2Proof.Machine
end

