-- ==== Sys2Proof/Machine/Mgmt.lean ====
section
/-! DEFINITION. Management, reset and start-up (R478–R513), the power-on and trip events (R385–R387, R416), the state memory's
errors (R546). BOOT_SEL, and what start-up finds in the retained store, arrive as operands. -/

namespace Sys2Proof.Machine

open Sys2Proof

/-! ## Output pins (R478, R481, R388, R416) -/

/-- ALERT_N is low. -/
def State.alertLow (s : State) : Bool :=
  s.mg.up && (s.getW .hctl 0x090 &&& ~~~(s.getW .hctl 0x094) &&& 0x1F) != 0

/-- THERM_TRIP_N is low: after a trip, and while PKG_RESET_N is low with the trip still latched (R416, R568). -/
def State.tripLow (s : State) : Bool :=
  s.mg.tripped || (s.mg.aux && s.mg.resetLow && s.isSet .hctl Reg.HCTL.TRIP_LAST_VALID)

/-- OC_ALERT_N is low. -/
def State.ocLow (s : State) : Bool := s.pw.ocAlert

/-! ## Power, pins and resets (R482–R486, R499) -/

/-- The input is lost (R389): everything stops; the assay die stops too (R440). -/
def execInputPowerLoss (s : State) : Ans :=
  .next (
    let s := { s with mg := { s.mg with rails := false, aux := false, tripped := false, i3cAddr := none, i3cOff := 0 } }
    let s := { s with assay := { s.assay with running := false } }
    (s.wipeFor 0).setW .hctl 0x2BC 0)

/-- The auxiliary rail comes good: the I3C target answers (R508, R566). -/
def execAuxRailGood (s : State) : Ans := .next { s with mg := { s.mg with aux := true } }

/-- The input rises to 40 V: a power-on reset (R482). -/
def execPowerOn (s : State) : Ans :=
  .next (
    let s := { s with mg := { s.mg with rails := false, tripped := false, isolated := false } }
    (s.wipeFor 0).setF .hctl Reg.HCTL.TRIP_LAST_VALID 0)

/-- Every internal rail comes good: s0 when PKG_RESET_N is high (R386, R486). -/
def execInternalRailsGood (sel : Fin 4) (rot : StoreRot) (s : State) : Ans :=
  .next (
    if s.mg.rails || s.mg.tripped then s else
    let s := { s with mg := { s.mg with rails := true } }
    if s.mg.up then s.startBoot sel rot else s)

/-- PKG_RESET_N is low for 20 µs: reset; a thermal trip ends as this reset (R416, R479, R482). -/
def execPkgResetAssert (s : State) : Ans :=
  .next (
    let trip := s.mg.tripped
    let s := { s with mg := { s.mg with resetLow := true, tripped := false } }
    if trip then s.wipeFor 2 else (s.wipeFor 1).setF .hctl Reg.HCTL.TRIP_LAST_VALID 0)

/-- PKG_RESET_N goes high: s0 when the rails are good (R486). -/
def execPkgResetRelease (sel : Fin 4) (rot : StoreRot) (s : State) : Ans :=
  .next (
    if !s.mg.resetLow then s else
    let s := { s with mg := { s.mg with resetLow := false } }
    if s.mg.up then s.startBoot sel rot else s)

/-- PKG.RESET_REQ.KEY is written: the key resets and starts the package again (R484). -/
def execSoftReset (key : Word) (sel : Fin 4) (rot : StoreRot) (s : State) : Ans :=
  .next (
    if key ≠ 0xA5C3 || !s.mg.up then s
    else ((s.wipeFor 3).setF .hctl Reg.HCTL.TRIP_LAST_VALID 0).startBoot sel rot)

/-- Two consecutive samples of a sensor that is not FAILED read from 115 °C to 150 °C and trip the package (R416). -/
def execThermalTrip (sensor : Fin 880) (s : State) : Ans :=
  .next (
    let x := s.spot (sensor / 2)
    if s.mg.tripped || (if sensor.val % 2 = 0 then x.failA || decide (x.hotA < 2) else x.failB || decide (x.hotB < 2)) then s else
    let s := { s with mg := { s.mg with tripped := true, rails := false } }
    let s := s.wipeFor 2
    (s.setF .hctl Reg.HCTL.TRIP_LAST_SENSOR sensor).setF .hctl Reg.HCTL.TRIP_LAST_VALID 1)

/-- PKG_ISOLATE_N goes low (R499): clocks stop, the optical engines are dark, start-up is abandoned. -/
def execPkgIsolate (s : State) : Ans :=
  .next (
    if s.mg.isolated then s else
    let s := { s with mg := { s.mg with isolated := true } }
    let s : State := (List.finRange 4).foldl (fun s d => (List.finRange 104).foldl (fun s (t : Fin 104) =>
      s.setTile d t { s.tile d t with stopped := true }) s) s
    let s : State := (List.finRange 16).foldl (fun s p => (s.setF (.port p) Reg.PORT.LINK_STAT_STATE 0).readmit p) s
    if s.startState < 4 then s.setF .pkg Reg.PKG.START_STATE 0 else s)

/-! ## The hub controller (R485) -/

/-- The hub controller watchdog expires; `restarted`: images restarted where a handover is abandoned (R528, R529). The third
restart within 10 s fences the package (R546). -/
def execHctlWatchdog (restarted : List (Fin 5 × Fin 32)) (s : State) : Ans :=
  .next (
    if s.startState < 2 || s.startState = 5 || s.mg.hcDown then s else
    let s := s.hcRestart
    (if s.handingOver then s.levelsBack.fwAbandon 3 restarted else s).loopFence)

/-- The restarted firmware serves again: requests, drains and retirements that waited go on. -/
def execHctlRestartDone (s : State) : Ans :=
  .next (
    if !s.mg.hcDown then s else
    State.hcBack { s with mg := { s.mg with hcDown := false } })

/-! ## Start-up (R486–R492) -/

/-- The manifest of the set that starts: a slot's, or the boot buffer's. -/
def State.startManifest (s : State) (slot : Nat) : List Byte :=
  if s.getF .pkg Reg.PKG.START_BOOT_SEL = 0 then s.slotChunk slot 0 else s.bootChunk 0

/-- The set to start from is there: a usable slot, a HOST set ACCEPTED, a NET set whole (R491). -/
def State.setReady (s : State) : Bool :=
  match s.getF .pkg Reg.PKG.START_BOOT_SEL with
  | 0 => s.bootSlot.isSome
  | 1 => s.getF .pcie Reg.PCIE.BOOT_STAT_STATE == 3
  | 2 => s.fwState == 1 && s.mg.fw.xfer.any Xfer.whole && s.bootSetOk
  | _ => false

/-- A HOST or NET set runs from memory: it is to be written to the inactive slot, the transfer record cleared first, unless the
active slot holds it (R491, R522). The slot shown as running until then is a free value. -/
def State.startPushed (s : State) : State :=
  let a := s.mg.flash.active
  if s.bootIsSlot a then (s.setF .hctl Reg.HCTL.FW_STAT_RUN_SLOT a).setF .pkg Reg.PKG.START_SLOT a
  else
    let k := Config.freeNat s.freeCtr % 2
    let s := (s.tickFree.setF .hctl Reg.HCTL.FW_STAT_RUN_SLOT k).setF .pkg Reg.PKG.START_SLOT k
    let s := s.setFlash { s.mg.flash with xfer := none }
    s.setFw { s.mg.fw with writing := true }

/-- The images of a manifest run: its epoch shows, and what its optical engines offer. -/
def State.loaded (s : State) (m : List Byte) : State :=
  let s := s.setFw { s.mg.fw with running := m, pieces := [], levels := (List.range 16).map (fun p => (p, oecOffer m p)) }
  let s := s.setF .pkg Reg.PKG.FW_EPOCH_EPOCH (mEpoch m)
  s.setF .hctl Reg.HCTL.FW_STAT_ACTIVE_SLOT s.mg.flash.active

/-- Every image is loaded: of the slot that FLASH boot verified, or of the pushed set (R488, R491). -/
def execImagesLoaded (s : State) : Ans :=
  .next (
    if s.startState ≠ 1 || !s.mg.up || !s.setReady then s else
    let slot := s.bootSlot.getD 0
    let flash := s.getF .pkg Reg.PKG.START_BOOT_SEL == 0
    let s := s.loaded (s.startManifest slot)
    let s := if flash then (s.setF .hctl Reg.HCTL.FW_STAT_RUN_SLOT slot).setF .pkg Reg.PKG.START_SLOT slot else s.startPushed
    let s := s.showSealed.setF .pkg Reg.PKG.START_STATE 2
    s.restoreXfer.memStart)

/-- The background write of a pushed set to the inactive slot, the one not active, completes (R491). -/
def execBootSlotWriteDone (s : State) : Ans :=
  .next (
    if !s.mg.fw.writing then s else
    let k := 1 - s.mg.flash.active
    let s := (s.bootToSlot k).select k
    let s := (s.setF .hctl Reg.HCTL.FW_STAT_RUN_SLOT k).setF .pkg Reg.PKG.START_SLOT k
    s.setFw { s.mg.fw with writing := false })

/-- Settings are restored, rails and ports are set up, the tile self-test and its visits begin (R488, R494–R496, R116, R428). -/
def execSettingsRestored (s : State) : Ans :=
  .next (
    if s.startState ≠ 2 || !s.mg.up then s else
    let s := s.replaySettings.applyFuses.startHealth
    let s := allPorts.foldl State.readmit s.capResolve.enablePorts
    s.railsUp.visitAll.setF .pkg Reg.PKG.START_STATE 3)

/-- The cause of a failed start is met (R487): 1 STRAP, 2 NO_IMAGE, 3 NO_TILES, 4 NO_MEMORY, 5 HUB_LINK, both compute-to-hub links of a hub
out (R18). -/
def State.startCause (s : State) (cause : Nat) : Bool :=
  let sel := s.getF .pkg Reg.PKG.START_BOOT_SEL
  let out := fun (l : Nat) => s.getF .pkg Reg.PKG.DIE_LINKS_UP / 2 ^ l % 2 == 0
  match cause with
  | 1 => s.startState == 1 && sel == 3
  | 2 => s.startState == 1 && sel == 0 && s.bootSlot.isNone
  | 3 => (s.startState == 2 || s.startState == 3) && (List.finRange 4).any (fun d => s.getF (.cdie d) Reg.CDIE.ACTIVE_TILES == 0)
  | 4 => (s.startState == 2 || s.startState == 3) && s.allChannelsOut
  | 5 => decide (1 ≤ s.startState ∧ s.startState ≤ 3) && ((out 4 && out 5) || (out 6 && out 7))
  | _ => false

/-- Memory has finished and some channel serves; every die has an active tile, no failure in hand, and its start-up visits are done; no FAILED
cause applies (R489). -/
def State.startDone (s : State) : Bool :=
  (List.range 192).all (fun c => s.chanState c != 1) && (List.range 192).any (fun c => s.chanState c == 2) &&
    (List.finRange 4).all (fun d => (s.fails d).isEmpty) && s.pw.toVisit.isEmpty &&
    !(s.startCause 3 || s.startCause 4 || s.startCause 5)

/-- READY (R489); the forecast's wait after start-up begins (R424). -/
def execStartReady (s : State) : Ans :=
  .next (
    if s.startState ≠ 3 || !s.mg.up || !s.startDone then s else
    let s := s.setF .pkg Reg.PKG.START_STATE 4
    (s.setPw { s.pw with quietAt := s.elapsed }).raisePkg Evt.PKG.READY)

/-- Start-up finds a FAILED cause or enters RECOVERY (R487, R490). -/
def execStartFailed (cause : Fin 6) (s : State) : Ans :=
  .next (
    if !s.mg.up || !s.startCause cause then s else
    let s := s.setF .pkg Reg.PKG.START_CAUSE cause
    let s := s.setF .hctl Reg.HCTL.ALERT_STAT_START_FAIL 1
    let s := if cause.val ≤ 2 then s.setF .pkg Reg.PKG.START_STATE 5
      else let s := s.setF .pkg Reg.PKG.START_STATE 6; s.setOwn .pkg s.pkgOwn
    s.raisePkg Evt.PKG.START_FAIL)

/-- PCIE.BOOT_CTL.GO (R492, R513). -/
def execBootGo (s : State) : Ans :=
  .next (
    let b := s.getF .pcie Reg.PCIE.BOOT_STAT_STATE
    if b = 1 ∨ b = 4 then s.setF .pcie Reg.PCIE.BOOT_STAT_STATE 2 else s)

/-- The pushed set has been verified (R492, R517); with it the HBM PHY training firmware, and memory starts (R486). -/
def execBootVerifyDone (s : State) : Ans :=
  .next (
    if s.getF .pcie Reg.PCIE.BOOT_STAT_STATE ≠ 2 then s
    else if s.bootSetOk then (s.setF .pcie Reg.PCIE.BOOT_STAT_STATE 3).memStart
    else s.setF .pcie Reg.PCIE.BOOT_STAT_STATE 4)

/-- An uncorrectable error in the state memory of a router, a sync engine or the placement director (R546). -/
def execStateMemoryUe (s : State) : Ans := .next (s.doFence 7)

/-! ## Management messages (R500–R507) -/

/-- The management link goes up or down. -/
def execMgmtLinkChange (up : Bool) (s : State) : Ans :=
  .next (
    if s.isSet .hctl Reg.HCTL.MGMT_STAT_LINK == up then s
    else (s.setF .hctl Reg.HCTL.MGMT_STAT_LINK (if up then 1 else 0)).raise .hctl Evt.HCTL.MGMT_LINK)

/-- A frame that is no message to be handled is discarded: silently where its address or its SERIAL is another's, or nothing
handles messages, else counted (R501). A frame that holds a message in form has the row of that message. -/
def execMgmtFrameDiscard (dst : BitVec 48) (payload : List Byte) (s : State) : Ans :=
  .next (
    let serial := descF payload 4 8
    if dst.toNat ≠ s.mac ∧ dst.toNat ≠ macBroadcast then s
    else if serial ≠ 0 ∧ serial ≠ s.serial then s
    else if mgmtForm payload || !(s.mgmtServing || s.romTransfer) then s
    else s.mgmtBad)

/-- HCTL.RACK_KEY0–7, 32 bytes. -/
def State.rackKey (s : State) : List Byte := (List.range 8).flatMap (fun k => leBytes 4 (s.getF .hctl (Reg.HCTL.RACK_KEY k)))

/-- HCTL.RACK_OSEQ. -/
def State.rackOseq (s : State) : Nat := s.getPair .hctl Reg.HCTL.RACK_OSEQ_LO Reg.HCTL.RACK_OSEQ_HI

/-- The 32 bytes an order's signature covers (R504). -/
def orderBytes (serial oseq watts : Nat) (park : Bool) : List Byte :=
  leBytes 8 serial ++ leBytes 8 oseq ++ leBytes 2 watts ++ leBytes 1 (boolAt park 0) ++ leBytes 13 0

/-- Status of a rack order (R504), checked in the order of its encoding but for the range, which is last. -/
def State.orderStatus (s : State) (serial oseq watts : Nat) (park : Bool) (sig : List Byte) : Nat :=
  let same := s.getF .hctl Reg.HCTL.CAP_RACK_WATTS == watts && (s.isSet .hctl Reg.HCTL.CAP_RACK_PARK == park)
  if s.startState = 2 then 5
  else if s.rackKey.all (· == 0) then 1
  else if !ed25519 s.rackKey (orderBytes serial oseq watts park) sig then 2
  else if oseq < s.rackOseq ∨ (oseq = s.rackOseq ∧ !same) then 3
  else if oseq = s.rackOseq then 0
  else if watts < 800 ∨ 2400 < watts then 4
  else 0

/-- An order with status OK is applied; a repeat changes nothing. -/
def State.applyOrder (s : State) (oseq watts : Nat) (park : Bool) : State :=
  let s := s.setPair .hctl Reg.HCTL.RACK_OSEQ_LO Reg.HCTL.RACK_OSEQ_HI oseq
  let s := s.setF .hctl Reg.HCTL.CAP_RACK_WATTS watts
  (s.setF .hctl Reg.HCTL.CAP_RACK_PARK (if park then 1 else 0)).capResolve

/-- ORDER_ACK content (R504). -/
def State.orderAck (s : State) (oseq status : Nat) : List Byte :=
  leBytes 8 oseq ++ leBytes 1 status ++ leBytes 1 0 ++ leBytes 2 (s.getF .hctl Reg.HCTL.CAP_EFF_WATTS) ++
    leBytes 1 (s.getF .hctl Reg.HCTL.CAP_EFF_MODE) ++ leBytes 3 0

/-- RACK_ORDER: its sender, the SERIAL of its header, its content. -/
def State.rackOrder (src : BitVec 48) (serial oseq : BitVec 64) (watts : BitVec 12) (park : Bool) (sig : List Byte)
    (s : State) : State :=
  if !s.mgmtServing then s
  else if serial = 0 then s.mgmtBad
  else if serial.toNat ≠ s.serial then s
  else
    let st := s.orderStatus serial.toNat oseq.toNat watts.toNat park sig
    let s := if st = 0 then s.applyOrder oseq.toNat watts.toNat park else s.raise .hctl Evt.HCTL.ORDER_REFUSED
    -- the answer shows C as this order leaves it, also where another change of the cycle has yet to come
    let a := if s.pw.capWait then (s.setPw { s.pw with capWait := false }).capResolve else s
    s.sendMgmt src.toNat 0x03 (a.orderAck oseq.toNat st)

/-- A RACK_ORDER arrives. `same`: another change reaches the power controller in the same cycle (R393). -/
def execRackOrder (src : BitVec 48) (serial oseq : BitVec 64) (watts : BitVec 12) (park : Bool) (sig : List Byte) (same : Bool)
    (s : State) : Ans :=
  .next (s.inCycle same (State.rackOrder src serial oseq watts park sig))

/-- The rack manager's HEARTBEAT (R505). -/
def execHeartbeat (s : State) : Ans :=
  .next (
    if !s.mgmtServing then s else
    let s := s.setF .hctl Reg.HCTL.HB_STAT_RACK_LOST 0
    { s with mg := { s.mg with rackSeen := some s.elapsed } })

/-- 5 s without a heartbeat of the rack manager, or of the board manager (R505). -/
def execHeartbeatLost (bm : Bool) (s : State) : Ans :=
  .next (
    match if bm then s.mg.bmSeen else s.mg.rackSeen with
    | none => s
    | some t =>
    if s.elapsed < t + 5000000000 then s else
    let s := { s with mg := if bm then { s.mg with bmSeen := none } else { s.mg with rackSeen := none } }
    (s.setF .hctl (if bm then Reg.HCTL.HB_STAT_BM_LOST else Reg.HCTL.HB_STAT_RACK_LOST) 1).raise .hctl Evt.HCTL.HB_LOST)

/-- The hallmarks held of the numbers FROM to FROM + COUNT − 1, ascending. -/
def State.hallmarksFrom (s : State) (from_ count : Nat) : List (List Byte) :=
  (s.assay.held.filter (fun h => let n := descF h 0x10 8; decide (from_ ≤ n ∧ n < from_ + count))).reverse

/-- HALLMARK_REQ (R507): at most 100 within a second are served. -/
def execHallmarkReq (src : BitVec 48) (from_ : BitVec 64) (count : BitVec 8) (ident : Bool) (s : State) : Ans :=
  .next (
    if !s.mgmtServing then s else
    let log := s.mg.reqLog.filter (fun t => decide (s.elapsed < t + 1000000000))
    if count = 0 ∨ 8 < count.toNat ∨ 100 ≤ log.length then s.mgmtBad else
    let s := { s with mg := { s.mg with reqLog := log ++ [s.elapsed] } }
    let recs := s.hallmarksFrom from_.toNat count.toNat
    let all := (if ident then [s.ident] else []) ++ recs
    s.sendMgmt src.toNat 0x07 (leBytes 1 all.length ++ leBytes 1 (if recs.length < count.toNat then 1 else 0) ++ leBytes 2 0 ++
      all.flatten))

/-- STATUS content (R506). -/
def State.statusBytes (s : State) : List Byte :=
  let g := fun f => s.getF .hctl f
  leBytes 1 (s.getF .pkg Reg.HEALTH_HEALTH) ++ leBytes 1 s.startState ++
    leBytes 1 (g Reg.HCTL.CAP_EFF_MODE + 2 * g Reg.HCTL.CAP_EFF_HOLD) ++ leBytes 1 0 ++ leBytes 2 (g Reg.HCTL.CAP_EFF_WATTS) ++
    leBytes 2 (g Reg.HCTL.PWR_1S_WATTS) ++ leBytes 1 (g Reg.HCTL.HOTSPOT_TEMP) ++ leBytes 3 0 ++
    leBytes 4 (s.getF .pkg Reg.PKG.FW_EPOCH_EPOCH) ++
    leBytes 8 (s.getPair .assay Reg.ASSAY.LATEST_HSEQ_LO Reg.ASSAY.LATEST_HSEQ_HI)

/-- STATUS is broadcast. -/
def execStatusBroadcast (s : State) : Ans :=
  .next (if s.mgmtServing then s.sendMgmt macBroadcast 0x05 s.statusBytes else s)

/-- BOOT_REQ is broadcast: in a NET boot until a server answers, and in RECOVERY (R491, R532). -/
def execBootReqSend (s : State) : Ans :=
  .next (
    let recovery := s.startState == 5
    if recovery || (s.romTransfer && s.fwState == 0) then
      s.sendMgmt macBroadcast 0x08 (leBytes 2 (s.getF .hctl Reg.HCTL.FW_ROM_VER) ++ leBytes 1 (boolAt recovery 0))
    else s)

/-! ## I3C (R508, R509) -/

/-- A byte of the I3C register map while the package is up. -/
def State.i3cUp (s : State) (o : Nat) : Byte :=
  let at_ := fun (lo n v : Nat) => (leBytes n v).getD (o - lo) 0
  let g := fun f => s.getF .hctl f
  let p := fun f => s.getF .pkg f
  if o = 0x08 then BitVec.ofNat 8 (p Reg.PKG.START_STATE + 16 * p Reg.PKG.START_CAUSE)
  else if o = 0x0A then
    BitVec.ofNat 8 (p Reg.PKG.START_BOOT_SEL + 4 * p Reg.PKG.START_SLOT + 8 * p Reg.PKG.START_DEFAULTS)
  else if o = 0x0D then BitVec.ofNat 8 (s.getF .pkg Reg.HEALTH_HEALTH)
  else if o = 0x0E then BitVec.ofNat 8 (getBits (s.getW .hctl 0x090) 7 0)
  else if 0x10 ≤ o ∧ o < 0x12 then at_ 0x10 2 (g Reg.HCTL.VIN_VALUE)
  else if 0x12 ≤ o ∧ o < 0x14 then at_ 0x12 2 (g Reg.HCTL.IIN_VALUE)
  else if 0x14 ≤ o ∧ o < 0x16 then at_ 0x14 2 (g Reg.HCTL.PWR_LEVEL_WATTS)
  else if 0x16 ≤ o ∧ o < 0x18 then at_ 0x16 2 (g Reg.HCTL.CAP_EFF_WATTS)
  else if o = 0x18 then
    BitVec.ofNat 8 (g Reg.HCTL.CAP_EFF_MODE + 2 * g Reg.HCTL.CAP_EFF_HOLD + 4 * g Reg.HCTL.COOL_STAT_FLOOR)
  else if o = 0x19 then BitVec.ofNat 8 (g Reg.HCTL.HOTSPOT_TEMP)
  else if 0x20 ≤ o ∧ o < 0x28 then at_ 0x20 8 (s.getPair .assay Reg.ASSAY.LATEST_HSEQ_LO Reg.ASSAY.LATEST_HSEQ_HI)
  else if 0x28 ≤ o ∧ o < 0x30 then at_ 0x28 8 (match s.assay.held with | h :: _ => descF h 0x20 8 | [] => 0)
  else if 0x34 ≤ o ∧ o < 0x38 then at_ 0x34 4 (p Reg.PKG.FW_EPOCH_EPOCH)
  else 0

/-- A byte of the I3C register map (R509): with the package down only SERIAL, RESET_LAST and the trip read. -/
def State.i3cByte (s : State) (o : Nat) : Byte :=
  if o < 8 then (leBytes 8 s.serial).getD o 0
  else if o = 0x09 then BitVec.ofNat 8 (s.getF .pkg Reg.PKG.RESET_LAST_CAUSE)
  else if o = 0x0B then
    BitVec.ofNat 8 (128 * s.getF .hctl Reg.HCTL.TRIP_LAST_VALID + s.getF .hctl Reg.HCTL.TRIP_LAST_SENSOR / 256)
  else if o = 0x0C then BitVec.ofNat 8 (s.getF .hctl Reg.HCTL.TRIP_LAST_SENSOR)
  else if !s.mg.up then 0
  else s.i3cUp o

/-- The I3C target answers to its address: the auxiliary rail is good and an address is assigned. -/
def State.i3cOn (s : State) : Bool := s.mg.aux && s.mg.i3cAddr.isSome

/-- A private write: the offset, then data; at 0x30 any data is the board manager's heartbeat, which counts from s0 on. -/
def execI3cPrivateWrite (bytes : List Byte) (s : State) : Ans :=
  .next (match bytes with
    | [] => s
    | o :: data =>
      if !s.i3cOn then s else
      let s := { s with mg := { s.mg with i3cOff := o.toNat } }
      if o = 0x30 ∧ data ≠ [] ∧ s.startState ≠ 0 then
        let s := s.setF .hctl Reg.HCTL.HB_STAT_BM_LOST 0
        { s with mg := { s.mg with bmSeen := some s.elapsed } }
      else s)

/-- A private read of n bytes. -/
def execI3cPrivateRead (n : Nat) (s : State) : Ans :=
  .next (
    if !s.i3cOn then s else
    let o := s.mg.i3cOff
    let s := s.emit (.i3cRead ((List.range n).map (fun i => s.i3cByte ((o + i) % 256))))
    { s with mg := { s.mg with i3cOff := (o + n) % 256 } })

/-- ENTDAA assigns the dynamic address. -/
def execI3cEntdaa (addr : BitVec 7) (s : State) : Ans :=
  .next (if s.mg.aux && s.mg.i3cAddr.isNone then { s with mg := { s.mg with i3cAddr := some addr.toNat } } else s)

/-! ## The settings log (R494–R498) -/

/-- Blocks are erased: their cycles count, and what lay in them is gone. -/
def State.eraseBlocks (s : State) (l : List Nat) : State :=
  let f := s.mg.flash
  s.setFlash { f with erases := l.foldl (fun m b => m.put b (m.getD b 0 + 1)) f.erases,
                      log := f.log.filter (fun g => !g.blocks.any (fun b => l.contains b)) }

/-- STORE_STAT.WEAR: the erase count of the most-erased block against 100,000 cycles, ‰ (R498). -/
def Flash.wear (f : Flash) : Nat := min 1000 (f.erases.foldl (fun n e => max n e.2) 0 / 100)

/-- WEAR follows the erase counts; STORE_WEAR is raised when it reaches 800 ‰. -/
def State.showWear (s : State) : State :=
  let was := s.getF .hctl Reg.HCTL.STORE_STAT_WEAR
  let s := s.setF .hctl Reg.HCTL.STORE_STAT_WEAR s.mg.flash.wear
  if was < 800 ∧ 800 ≤ s.mg.flash.wear then s.raise .hctl Evt.HCTL.STORE_WEAR else s

/-- A program or erase that failed retires its block of the log. -/
def State.groupFailed (s : State) (b : Nat) : State :=
  let s := s.setFlash { s.mg.flash with retired := s.mg.flash.retired ++ [b] }
  let s := (s.bump .hctl Reg.HCTL.STORE_ERR_COUNT).raise .hctl Evt.HCTL.STORE_ERR
  let s := { s with mg := { s.mg with storeFail := some (s.mg.storeFail.getD s.elapsed) } }
  s.hctlOwn

/-- A group of that many bytes is a whole snapshot: the chain since the last one would exceed 2 MiB with it, or cannot be replayed to its
end. -/
def Flash.snapDue (f : Flash) (bytes : Nat) : Bool :=
  (replayLog f.log).2 || (replayLog f.log).1.isNone || decide (2 ^ 21 < (((logChain f.log).drop 1).map Group.bytes).sum + bytes)

/-- A group or snapshot is written in some blocks. -/
def State.groupWritten (s : State) (bytes : Nat) (blocks : List Nat) : State :=
  let f := s.mg.flash
  let s := s.setFlash { f with log := f.log ++ [⟨f.snapDue bytes, bytes, blocks, true, s.settingsNow⟩] }
  State.hctlOwn { s with mg := { s.mg with storeFail := none } }

/-- Changes fall due and a group is written, once the settings are restored. `blocks`: the blocks of the log it is programmed in, of which the
first fails unless `ok`; `erased`, those erased for it before, which hold nothing of the chain in use. Which blocks the package takes is its own
(DESIGN CHOICE: notes/assumptions/59.md). -/
def execSettingsGroupWrite (ok : Bool) (bytes : Nat) (blocks erased : List (Fin 96)) (s : State) : Ans :=
  .next (
    let bl := blocks.map Fin.val
    let er := erased.map Fin.val
    let gone := s.mg.flash.retired
    if !s.mgmtServing || s.startState = 2 || (bl ++ er).any (fun b => gone.contains b) ||
      (logChain s.mg.flash.log).any (fun g => g.blocks.any (fun b => er.contains b)) then s else
    let s := (s.eraseBlocks er).showWear
    if ok then s.groupWritten bytes bl else s.groupFailed (bl.headD 0))

/-- HCTL.STORE_CTL.FORGET: every group is void, those written after it too, from the next start on. -/
def execStoreForget (s : State) : Ans :=
  .next (
    if s.startState = 0 || !s.mg.up then s else
    (s.setFlash { s.mg.flash with forgotten := true }).setF .hctl Reg.HCTL.STORE_STAT_FORGOTTEN 1)

end Sys2Proof.Machine
end

