-- ==== Sys2Proof/Machine/Placement.lean ====
section
/-! DEFINITION. Commands and events of the placement director (R200–R228). -/

namespace Sys2Proof.Machine

open Sys2Proof

/-- REQ_CTL is written with GO and OP ALLOC (R205). -/
def execPlaceAlloc (pin die : Fin 4) (spillFirst : Bool) (s : State) : Ans := .next (s.reqStart 1 pin die spillFirst)

/-- OP FREE (R207). -/
def execPlaceFree (pin die : Fin 4) (spillFirst : Bool) (s : State) : Ans := .next (s.reqStart 2 pin die spillFirst)

/-- OP SET_PIN (R208). -/
def execPlaceSetPin (pin die : Fin 4) (spillFirst : Bool) (s : State) : Ans := .next (s.reqStart 3 pin die spillFirst)

/-- OP QUERY (R204). -/
def execPlaceQuery (pin die : Fin 4) (spillFirst : Bool) (s : State) : Ans := .next (s.reqStart 4 pin die spillFirst)

/-- OP FREE_GUESTS (R207). -/
def execPlaceFreeGuests (pin die : Fin 4) (spillFirst : Bool) (s : State) : Ans :=
  .next (s.reqStart 5 pin die spillFirst)

/-- A reserved OP, 6 or 7. -/
def execPlaceReqReserved (seven : Bool) (pin die : Fin 4) (spillFirst : Bool) (s : State) : Ans :=
  .next (s.reqStart (if seven then 7 else 6) pin die spillFirst)

/-- The running request ends, if its work is done (R203). -/
def execPlaceReqDone (s : State) : Ans := .next s.reqDone

/-- An epoch ends (R211, R212). -/
def execPlaceEpochEnd (s : State) : Ans := .next s.epochEnd

/-- An entry leaves a translation cache: 0–3 of a compute die, 4 and 5 of a hub (R211). -/
def execHeatCountFlush (cache : Fin 6) (page : Fin 1048576) (s : State) : Ans :=
  .next (s.flushEntry (cache * 2 ^ 20 + page))

/-- A page, own or a guest. -/
def pgRef (guest : Bool) (k : Nat) : PgRef := if guest then .guest k else .own k

/-- A copy pass of a move ends; `errs`, lines its reads found bad. -/
def execMovePassDone (guest : Bool) (page : Nat) (errs : LineErrs) (s : State) : Ans :=
  .next (s.passDone (pgRef guest page) errs)

/-- The hold of a move ends; `errs`, lines the copy of its marked lines found bad. -/
def execPageMoveDone (guest : Bool) (page : Nat) (errs : LineErrs) (s : State) : Ans :=
  .next (
    let r := pgRef guest page
    match (s.pg r).move with
    | some m =>
      if m.pass ≠ 4 then s else
      if s.spillBusy r then s else
      let (s, bad) := s.copyErrs r errs
      if bad then (s.abandonMove r).placeGoOn else s.moveDone r
    | none => s)

/-- A freed frame has been zeroed (R207): it joins the free frames; drains and requests that wait for one go on. -/
def execFrameZeroDone (frame : Fin 1048576) (s : State) : Ans :=
  .next (
    if !s.mm.zeroing.getD frame false then s else
    let u := chanUnit (frameChan frame)
    let s := s.addPair u Reg.MCHN.WR_BYTES_LO Reg.MCHN.WR_BYTES_HI (2 ^ 21)
    let s : State := { s with mm := { s.mm with zeroing := s.mm.zeroing.del frame } }
    (s.retireWaiting (frameChan frame)).drainAll.reqStep)

/-- A stalled drain goes on: a frame is free, or a victim can be spilled again (R224). -/
def execDrainResume (m : Fin 12) (ch : Fin 16) (s : State) : Ans :=
  .next (
    let c := 16 * m.val + ch.val
    if s.chanState c = 3 && s.mm.drainStalled.getD c false && (0 < s.freeFrames || (s.spillBar s.victims).isNone) then
      ({ s with mm := { s.mm with drainStalled := s.mm.drainStalled.del c } } : State).drainStep c
    else s)

/-- LOST_SCAN.FROM is written (R202); LOST_NEXT follows it and the page map (State.lostNext). What PAGE holds while no page
is found is a free value. -/
def execLostScan (from_ : Fin 1048576) (s : State) : Ans :=
  .next (
    if !s.pageOpen .place then s else
    ((s.setF .place Reg.PLACE.LOST_SCAN_FROM from_).setF .place Reg.PLACE.LOST_NEXT_PAGE
      (Config.freeNat s.freeCtr % 2 ^ 20)).tickFree)

end Sys2Proof.Machine
end

