-- ==== Sys2Proof/Machine/MopOps.lean ====
section
/-! DEFINITION. Matrix operations: the descriptor (R82) and its check (R83, R85, R87), the accumulation of one element
(R84, R86, R88, R128) and the blocks of C in their order (R88, R90, R92). -/

namespace Sys2Proof.Machine

open Sys2Proof

/-- A matrix-operation descriptor (R82). -/
structure MopD where
  a : Option FSpec
  b : Option FSpec
  c : Option FSpec
  rmode : Option RMode
  fast : Bool
  anchorMode : Nat
  accIn : Bool
  m : Nat
  n : Nat
  k : Nat
  opSeq : Nat
  aAddr : Nat
  bAddr : Nat
  cAddr : Nat
  anchorAddr : Nat
  aScale : Nat
  bScale : Nat
  aLd : Nat
  bLd : Nat
  cLd : Nat
  elemBase : Nat
  elemRow : Nat
  /-- A reserved bit is set. -/
  rsvd : Bool
  deriving DecidableEq, Repr

/-- The descriptor in 64 bytes. -/
def MopD.ofBytes (b : List Byte) : MopD :=
  let w0 := descF b 0 4
  { a := FSpec.ofByte (bitsOf w0 7 0), b := FSpec.ofByte (bitsOf w0 15 8), c := FSpec.ofByte (bitsOf w0 23 16)
    rmode := RMode.ofCode (bitsOf w0 26 24), fast := bitsOf w0 27 27 = 1, anchorMode := bitsOf w0 29 28
    accIn := bitsOf w0 30 30 = 1, m := descF b 4 2, n := descF b 6 2, k := descF b 8 3, opSeq := descF b 12 2
    aAddr := descF b 0x10 4, bAddr := descF b 0x14 4, cAddr := descF b 0x18 4, anchorAddr := descF b 0x1C 4
    aScale := descF b 0x20 4, bScale := descF b 0x24 4, aLd := descF b 0x28 4, bLd := descF b 0x2C 4
    cLd := descF b 0x30 4, elemBase := descF b 0x34 6, elemRow := descF b 0x3C 4
    rsvd := bitsOf w0 31 31 = 1 || descF b 11 1 ≠ 0 || descF b 15 1 ≠ 0 || descF b 0x3A 2 ≠ 0 }

/-- How the elements of C are accumulated. -/
inductive Accum where
  | fp32
  | ingot (anchorMode : Nat)
  deriving DecidableEq, Repr

/-- The accumulation a MOP uses (R84, R87). -/
def mopAccum (d : MopD) (a b c : Fmt) : Accum :=
  if !d.fast then .ingot d.anchorMode
  else if a = .fp64 ∨ b = .fp64 ∨ (d.accIn ∧ c = .fp64) then .ingot 1
  else if a.isInt ∧ b.isInt then .ingot 0
  else .fp32

/-- An operand is wide-class for the rules of R85. -/
def mopWide (d : MopD) (a b c : Fmt) : Bool := a.wide || b.wide || (d.accIn && c = .fp64)

/-- The status of a MOP's check at issue (R83, R85, R87, R105): 0 when it passes. -/
def mopCheck (d : MopD) (x : Task) (k : Fin 2) : Nat :=
  match d.a, d.b, d.c, d.rmode with
  | some fa, some fb, some fc, some _ =>
    let a := fa.fmt
    let b := fb.fmt
    let c := fc.fmt
    if d.rsvd || a = .ingot || b = .ingot || fc.scaled then St.badFormat
    else
      let acc := mopAccum d a b c
      let wide := mopWide d a b c
      if x.engine = 0 then St.badMode
      else if !d.fast && (d.anchorMode = 0) = wide then St.badMode
      else if acc = .fp32 && c = .ingot then St.badMode
      else
        let exp := acc = .ingot 3
        let arr := exp || acc = .ingot 2
        let arow := a.bytes d.k
        let brow := b.bytes d.k
        let crow := c.bytes d.n
        let used := [d.aAddr, d.bAddr] ++ (if exp then [] else [d.cAddr]) ++ (if arr then [d.anchorAddr] else []) ++
          (if fa.scaled then [d.aScale] else []) ++ (if fb.scaled then [d.bScale] else [])
        if d.m = 0 || d.n = 0 || d.k = 0 || d.aLd % 16 ≠ 0 || d.aLd < arow || d.bLd % 16 ≠ 0 || d.bLd < brow ||
            d.cLd < crow || d.cLd % (if c = .ingot then 32 else 16) ≠ 0 ||
            ((fa.scaled || fb.scaled) && d.k % 32 ≠ 0) || used.any (fun u => u % 64 ≠ 0) then St.badLayout
        else
          let span := fun (base ld rows len : Nat) => inData base ((rows - 1) * ld + len)
          let ok := span d.aAddr d.aLd d.m arow && span d.bAddr d.bLd d.n brow &&
            (exp || span d.cAddr d.cLd d.m crow) && (!fa.scaled || inData d.aScale (d.m * (d.k / 32))) &&
            (!fb.scaled || inData d.bScale (d.n * (d.k / 32))) && (!arr || inData d.anchorAddr (2 * d.m * d.n)) &&
            (if exp then x.mayWrite k d.anchorAddr (2 * d.m * d.n)
             else (List.range d.m).all (fun i => x.mayWrite k (d.cAddr + i * d.cLd) crow))
          if ok then 0 else St.outOfRange
  | _, _, _, _ => St.badFormat

/-- Products summed in one step of fast mode: K steps per cycle of the slower format, one at a time for FP32 (R91,
R128). -/
def Fmt.kstep : Fmt → Nat
  | .e2m1 | .int4 => 8
  | .e4m3 | .e5m2 | .e3m2 | .int8 => 4
  | .fp16 | .bf16 => 2
  | _ => 1

/-- A row of an operand as values, with the flags of reading its scales (R37–R40). -/
def operandRow (ls : Map Byte) (f : FSpec) (base scale row k : Nat) : List FVal × FFlags :=
  let vs := (List.range k).map (fun i =>
    let v := f.fmt.decode (readElem ls f.fmt base i)
    if f.scaled then v.scale (ls.getD (scale + row * (k / 32) + i / 32) 0).toNat else v)
  let fl := if f.scaled then
      (List.range (k / 32)).foldl (fun a b => a ||| scaleFlags (ls.getD (scale + row * (k / 32) + b) 0).toNat) 0
    else 0
  (vs, fl)

/-- Largest of two optional exponents. -/
def maxExp : Option Int → Option Int → Option Int
  | none, b => b
  | a, none => a
  | some a, some b => some (max a b)

/-- What one element of C becomes: bytes to write at it as a code or record, flags, terms rounded below the window. -/
structure ElemOut where
  code : Nat
  flags : FFlags
  wide : Nat
  deriving DecidableEq, Repr

/-- The exact sum of the accumulator and the products of one step: a NaN among them is the result, signalling if one of
them signals; a zero sum is −0 only of zeros that are all −0 (R60, R128). -/
def stepSum (acc : FVal) (ps : List FVal) : FVal :=
  if FVal.snan ∈ acc :: ps then .snan else if FVal.qnan ∈ ps ∨ acc = .qnan then .qnan
  else ps.foldl (FVal.add .rne) acc

/-- Fast accumulation in FP32 (R128): the products of each step summed exactly, one rounding a step. -/
def fastAcc (step : Nat) : Nat → List FVal → Nat × FFlags → Nat × FFlags
  | 0, _, acc => acc
  | n + 1, ps, acc =>
    if ps = [] then acc else
    let (c, fl) := FSpec.convert ⟨.fp32, false, false⟩ .rne 0 (stepSum (Fmt.fp32.decode acc.1) (ps.take step))
    fastAcc step n (ps.drop step) (c, acc.2 ||| fl)

/-- One element of C. `cin` is the existing C as a value, or as an ingot; `anc` is its entry of the anchor array. None
when a term exceeds its anchor in ARRAY mode (R85). -/
def mopElem (acc : Accum) (step : Nat) (c : FSpec) (mode : RMode) (draw : Nat) (ps : List FVal) (es : List (Option Int))
    (cin : Option (FVal ⊕ Ingot)) (anc : BitVec 16) : Option ElemOut :=
  match acc with
  | .fp32 =>
    let start := match cin with
      | some (.inl v) => FSpec.convert ⟨.fp32, false, false⟩ .rne 0 v
      | _ => (0, 0)
    let (r, fl) := fastAcc (max 1 step) ps.length ps start
    let (code, f2) := c.convert mode draw (Fmt.fp32.decode r)
    some ⟨code, fl ||| f2, 0⟩
  | .ingot am =>
    let top := es.foldl maxExp none
    if am = 3 then some ⟨(match cin with | some _ => anchorMax anc (anchorOf top) | none => anchorOf top).toNat, 0, 0⟩
    else
      let cexp := match cin with
        | some (.inl v) => termExp1 v
        | some (.inr g) => if g.anchor = anchorNone then none else some g.anchor.toInt
        | none => none
      let own := anchorOf (maxExp top cexp)
      let a := if am = 0 then shortAnchor else if am = 2 then anc else own
      let cterm := match cin with | some (.inl v) => termExp1 v | _ => none
      let above := am = 2 && (match maxExp top cterm with | some e => decide (anc.toInt < e) | none => false)
      if above then none else
      let (g, w) := ps.foldl (fun (g, w) p => let (g, x) := g.addTerm p; (g, if x then w + 1 else w))
        (Ingot.empty a, 0)
      let (g, w) := match cin with
        | some (.inl v) => let (g, x) := g.addTerm v; (g, if x then w + 1 else w)
        | some (.inr h) => let (g, x) := g.addAny h; (g, if x then w + 1 else w)
        | none => (g, w)
      let fl := FFlags.when (g.has Ingot.fOvf) FFlags.ingotOvf ||| FFlags.when (w != 0) FFlags.inexactWide
      let cinv := match cin with | some (.inl .snan) => true | _ => false
      let fl := fl ||| FFlags.when (ps.contains .snan || cinv) FFlags.invalid
      if c.fmt = .ingot then some ⟨leNat g.toBytes, fl, w⟩
      else let (code, f2) := g.convert c mode draw; some ⟨code, fl ||| f2, w⟩

/-- Elements of one block: rows 32·bi to, columns w·bj to. -/
def blockElems (m n w bi bj : Nat) : List (Nat × Nat) :=
  (List.range (min 32 (m - 32 * bi))).flatMap (fun i =>
    (List.range (min w (n - w * bj))).map (fun j => (32 * bi + i, w * bj + j)))

/-- Run a MOP on a local store: the blocks in order, up to a block that ends it (R85, R88, R90). `stop` names a block that
ends with a status before it is written: a residue mismatch or an error in its operands. The result is the local store, the
status, the flags and the terms rounded. A MOP stopped at a block keeps the flags of the scales of all its rows, those of blocks
it has not reached included: the model's choice, for R40 does not say when a scale is read (DESIGN CHOICE:
notes/assumptions/52.md). -/
def mopRun (ls : Map Byte) (d : MopD) (fa fb fc : FSpec) (mode : RMode) (seed w : Nat) (stop : Option (Nat × Nat)) :
    Map Byte × Nat × FFlags × Nat :=
  let acc := mopAccum d fa.fmt fb.fmt fc.fmt
  let rowsA := (List.range d.m).map (fun i => operandRow ls fa (d.aAddr + i * d.aLd) d.aScale i d.k)
  let rowsB := (List.range d.n).map (fun j => operandRow ls fb (d.bAddr + j * d.bLd) d.bScale j d.k)
  let fl0 := (rowsA ++ rowsB).foldl (fun a r => a ||| r.2) 0
  let nb := (d.n + w - 1) / w
  let step := min fa.fmt.kstep fb.fmt.kstep
  let exp := acc = .ingot 3
  let elem := fun (i j : Nat) =>
    let ra := (rowsA.getD i ([], 0)).1
    let rb := (rowsB.getD j ([], 0)).1
    let anc := BitVec.ofNat 16 (ls.readLE (d.anchorAddr + 2 * (i * d.n + j)) 2)
    let cin : Option (FVal ⊕ Ingot) := if !d.accIn then none
      else if fc.fmt = .ingot ∧ !exp then some (.inr (Ingot.ofBytes (ls.readBytes (d.cAddr + i * d.cLd + 96 * j) 96)))
      else some (.inl (fc.fmt.decode (readElem ls fc.fmt (d.cAddr + i * d.cLd) j)))
    mopElem acc step fc mode (srDraw seed d.opSeq ((d.elemBase + i * d.elemRow + j) % 2 ^ 48))
      (List.zipWith FVal.mul ra rb) (List.zipWith termExp2 ra rb) cin anc
  let put := fun (m : Map Byte) (ij : Nat × Nat) (o : ElemOut) =>
    if exp then m.writeLE (d.anchorAddr + 2 * (ij.1 * d.n + ij.2)) 2 o.code
    else if fc.fmt = .ingot then m.writeLE (d.cAddr + ij.1 * d.cLd + 96 * ij.2) 96 o.code
    else writeElem m fc.fmt (d.cAddr + ij.1 * d.cLd) ij.2 o.code
  let blocks := List.range ((d.m + 31) / 32 * nb)
  blocks.foldl (fun r b =>
    if r.2.1 ≠ 0 then r
    else if stop.any (fun e => e.1 = b) then (r.1, (stop.map Prod.snd).getD 0, r.2.2)
    else
      let ijs := blockElems d.m d.n w (b / nb) (b % nb)
      let outs := ijs.map (fun ij => (ij, elem ij.1 ij.2))
      if outs.any (fun o => o.2.isNone) then (r.1, St.anchorExceeded, r.2.2)
      else outs.foldl (fun r o => match o.2 with
        | some e => (put r.1 o.1 e, 0, r.2.2.1 ||| e.flags, min (2 ^ 32 - 1) (r.2.2.2 + e.wide))
        | none => r) r)
    (ls, 0, fl0, 0)

/-- The byte ranges a block reads. -/
def blockReads (d : MopD) (fa fb fc : FSpec) (w bi bj : Nat) : List (Nat × Nat) :=
  let rows := (List.range (min 32 (d.m - 32 * bi))).map (32 * bi + ·)
  let cols := (List.range (min w (d.n - w * bj))).map (w * bj + ·)
  let sc := d.k / 32
  let acc := mopAccum d fa.fmt fb.fmt fc.fmt
  rows.map (fun i => (d.aAddr + i * d.aLd, fa.fmt.bytes d.k)) ++ cols.map (fun j => (d.bAddr + j * d.bLd, fb.fmt.bytes d.k)) ++
  (if fa.scaled then rows.map (fun i => (d.aScale + i * sc, sc)) else []) ++
  (if fb.scaled then cols.map (fun j => (d.bScale + j * sc, sc)) else []) ++
  (if acc = .ingot 2 ∨ (acc = .ingot 3 ∧ d.accIn) then
    rows.flatMap (fun i => cols.map (fun j => (d.anchorAddr + 2 * (i * d.n + j), 2))) else []) ++
  (if d.accIn ∧ acc ≠ .ingot 3 then rows.map (fun i =>
      (d.cAddr + i * d.cLd + fc.fmt.bytes (w * bj), fc.fmt.bytes (w * bj + cols.length) - fc.fmt.bytes (w * bj)))
   else [])

/-- The first block that reads a row with an error not yet retested (R73). -/
def badBlock (x : Tile) (d : MopD) (fa fb fc : FSpec) (w : Nat) : Option Nat :=
  let nb := (d.n + w - 1) / w
  (List.range ((d.m + 31) / 32 * nb)).find? (fun b =>
    (blockReads d fa fb fc w (b / nb) (b % nb)).any (fun r => x.badIn r.1 r.2))

/-- Half-engine busy cycles of a MOP that runs to its end, by the times of R92 and R107. -/
def mopCycles (d : MopD) (fa fb fc : FSpec) (w : Nat) : Nat :=
  let acc := mopAccum d fa.fmt fb.fmt fc.fmt
  let up := fun (a b : Nat) => (a + b - 1) / b
  let blocks := up d.m 32 * up d.n w
  if acc = .ingot 3 then (blocks * up d.k 16 + 12) * (w / 16) else
  let slow := fun (f : Fmt) => match f with | .fp64 => 16 | .fp32 => 8 | f => 4 / f.kstep
  let ksteps := match max (slow fa.fmt) (slow fb.fmt) with
    | 16 => 4 * d.k
    | 8 => 2 * d.k
    | _ => up d.k (min fa.fmt.kstep fb.fmt.kstep)
  let fill := match fa.fmt, fb.fmt with
    | .fp64, _ | _, .fp64 => 34
    | .fp32, _ | _, .fp32 => 26
    | .fp16, _ | _, .fp16 | .bf16, _ | _, .bf16 => 20
    | _, _ => 18
  let drain := if fc.fmt = .ingot then 128 else 32
  let lead := if acc = .ingot 1 ∧ mopWide d fa.fmt fb.fmt fc.fmt then up d.k 16 else 0
  (lead + fill + blocks * max ksteps drain + drain + 12) * (w / 16)

end Sys2Proof.Machine
end

