-- ==== Sys2Proof/Machine/VecOps.lean ====
section
/-! DEFINITION. The vector unit (R93, R94): registers, lanes, and what each instruction computes. A lane's draw under STOCH
is that of R56 at the instruction's OP_SEQ and its first element number plus the lane. -/

namespace Sys2Proof.Machine

open Sys2Proof

/-- What an instruction does to the vector registers of its slot, with its flags and the terms rounded below a window. -/
structure VecOut where
  regs : Map Byte
  flags : FFlags
  wide : Nat
  deriving DecidableEq, Repr

/-- Registers a slot owns: 32 with a FULL task, otherwise 16 (R93, R155). -/
def Tile.vregCount (x : Tile) (k : Fin 2) : Nat :=
  match x.slot k with
  | some w => if w.engine = 2 then 32 else 16
  | none => 16

/-- First byte of a slot's register. -/
def vregBase (k : Fin 2) (r : Nat) : Nat := (16 * k + r) % 32 * 1024

/-- The scale register of a source, if it is scaled. -/
def scaleReg (spec sa : Nat) : List Nat := if bitsOf spec 4 4 = 1 then [sa] else []

/-- The registers an instruction names. -/
def vecRegs : VOp → List Nat
  | .load d _ _ => [d]
  | .store a _ _ => [a]
  | .arith op _ _ d a b c _ _ => if op = .fma then [d, a, b, c] else if op = .sqrt then [d, a] else [d, a, b]
  | .sign op _ d a b => if op = .copySign then [d, a, b] else [d, a]
  | .int _ d a b => [d, a, b]
  | .convert f _ d a sa _ _ _ => [d, a] ++ scaleReg f sa
  | .blockScale f _ d sd a sa _ _ _ => [d, sd, a] ++ scaleReg f sa
  | .exp2 d a _ _ => [d, a]
  | .log2 d a _ _ => [d, a]
  | .term f d _ a sa _ _ => [d, a] ++ scaleReg f sa
  | .ingotAdd _ d _ a _ => [d, a]
  | .ingotOut _ d _ a _ _ _ => [d, a]

/-- A NaN. -/
def FVal.isNan : FVal → Bool
  | .qnan | .snan => true
  | _ => false

/-- a is below b; neither is a NaN. -/
def FVal.lt : FVal → FVal → Bool
  | .inf a, .inf b => a && !b
  | .inf a, .fin .. => a
  | .fin .., .inf b => !b
  | .fin a m e, .fin b n f => let l := min e f; decide (alignAt a m e l < alignAt b n f l)
  | _, _ => false

/-- The sign of a value other than a NaN. -/
def FVal.negative : FVal → Bool
  | .fin n _ _ | .inf n => n
  | _ => false

/-- A zero. -/
def FVal.isZero : FVal → Bool
  | .fin _ m _ => m == 0
  | _ => false

/-- Number of a vector operation in `Config.vecCode`. -/
def vecNum : VArith → Nat
  | .add => 0 | .mul => 1 | .fma => 2 | .min => 3 | .max => 4 | .cmp _ => 5 | .div => 6 | .sqrt => 7

/-- The minimum, or with `hi` the maximum, of two values (R60): −0 is below +0, and two NaNs give a NaN. IEEE 754-2019 has
two such operations, which give a NaN or the number beside one NaN: `number` tells which, and is left free
(notes/assumptions/8.md). -/
def FVal.minMax (hi number : Bool) (a b : FVal) : FVal :=
  match a.isNan, b.isNan with
  | true, true => .qnan
  | true, false => if number then b else .qnan
  | false, true => if number then a else .qnan
  | false, false =>
    if a.isZero && b.isZero then (if (a.negative == hi) then b else a)
    else if a.lt b == hi then b else a

/-- A predicate holds of two values (R60): exactly one of the four relations of IEEE 754-2019 stands between them, and −0 equals
+0. -/
def predHolds (p : VPred) (a b : FVal) : Bool :=
  if a.isNan || b.isNan then p.un else if a.lt b then p.lt else if b.lt a then p.gt else p.eq

/-- One lane of a floating-point operation (R60): the code and its flags. A signalling NaN is an invalid operand of every
operation (R61). The codes a compare gives for true and for false are open (notes/assumptions/8.md). An FMA of 0 and an infinity
with a quiet NaN as addend is invalid, which IEEE 754-2019 leaves to each implementation and the spec does not say: the model's
choice (DESIGN CHOICE: notes/assumptions/52.md). -/
def vecLane (op : VArith) (fc : Nat) (f : Fmt) (t : FSpec) (mode : RMode) (draw a b c : Nat) : Nat × FFlags :=
  let va := f.decode a
  let vb := f.decode b
  let sig := FFlags.when (va = .snan || vb = .snan) FFlags.invalid
  let minMax := fun (hi : Bool) =>
    let (r, fl) := t.convert mode draw (FVal.minMax hi (Config.vecCode (vecNum op) fc a b % 2 = 1) va vb)
    (r, fl ||| sig)
  match op with
  | .add => t.convert mode draw (FVal.add mode va vb)
  | .mul => t.convert mode draw (FVal.mul va vb)
  | .fma => t.convert mode draw (FVal.add mode (FVal.mul va vb) (f.decode c))
  | .div => let (v, z) := FVal.div va vb; let (r, fl) := t.convert mode draw v; (r, fl ||| FFlags.when z FFlags.divZero)
  | .sqrt => t.convert mode draw va.sqrt
  | .cmp p =>
    (Config.vecCode (vecNum op) fc (if predHolds p va vb then 1 else 0) t.fmt.width % 2 ^ t.fmt.width,
      sig ||| FFlags.when (p.signal && (va.isNan || vb.isNan)) FFlags.invalid)
  | .min => minMax false
  | .max => minMax true

/-- One lane of an operation that changes at most the sign bit (R35). -/
def signLane (op : VSign) (f : Fmt) (a b : Nat) : Nat :=
  let s := 2 ^ (f.width - 1)
  match op with
  | .move => a
  | .neg => a ^^^ s
  | .abs => a % s
  | .copySign => a % s + b / s % 2 * s

/-- One lane of an integer operation. -/
def intLane (op : VInt) (a b : Nat) : Nat :=
  let x := BitVec.ofNat 32 a
  let y := BitVec.ofNat 32 b
  let shift := fun (n : Nat) (v : BitVec 32) => if b < 32 then v.toNat else Config.vecCode n 32 a b % 2 ^ 32
  match op with
  | .add => (x + y).toNat
  | .and => (x &&& y).toNat
  | .or => (x ||| y).toNat
  | .xor => (x ^^^ y).toNat
  | .mul => (x * y).toNat
  | .shl => shift 8 (x <<< b)
  | .shr => shift 9 (x >>> b)
  | .sar => shift 10 (x.sshiftRight b)

/-! ## exp2 and log2: within one unit in the last place (R94) -/

/-- 2^(p × 2^e) ≤ m × 2^f, for a positive m: powers of both sides make the exponents whole. -/
def pow2Le (p : Int) (e : Int) (m : Nat) (f : Int) : Bool :=
  let q : Nat := 2 ^ (-e).toNat
  let d : Int := p * (2 ^ e.toNat : Nat) - f * q
  if 0 ≤ d then decide (2 ^ d.toNat ≤ m ^ q) else decide (1 ≤ m ^ q * 2 ^ (-d).toNat)

/-- m × 2^f ≤ 2^(p × 2^e). -/
def pow2Ge (p : Int) (e : Int) (m : Nat) (f : Int) : Bool :=
  let q : Nat := 2 ^ (-e).toNat
  let d : Int := p * (2 ^ e.toNat : Nat) - f * q
  if 0 ≤ d then decide (m ^ q ≤ 2 ^ d.toNat) else decide (m ^ q * 2 ^ (-d).toNat ≤ 1)

/-- The code y lies within one unit in the last place of 2 to the value of code x. -/
def exp2Ok (x y : Nat) : Bool :=
  match Fmt.fp32.decode x, Fmt.fp32.decode y with
  | .fin n m e, .fin false q f =>
    let p : Int := if n then -(m : Int) else m
    pow2Le p e (q + 1) f && (q = 0 || pow2Ge p e (q - 1) f)
  | .fin false m e, .inf false => pow2Ge m e (2 ^ 24 - 1) 104
  | _, _ => false

/-- The code y lies within one unit in the last place of the logarithm of the value of code x. -/
def log2Ok (x y : Nat) : Bool :=
  match Fmt.fp32.decode x, Fmt.fp32.decode y with
  | .fin false m e, .fin n q f =>
    let p : Int := if n then -(q : Int) else q
    m ≠ 0 && pow2Le (p - 1) f m e && pow2Ge (p + 1) f m e
  | _, _ => false

/-- A code of FP32 that keeps a bound: a free one if it does. -/
def pickCode (free : Nat) (ok : Nat → Bool) : Nat := ((free :: List.range (2 ^ 32)).find? ok).getD 0

/-- The k with m × 2^e = 2^k, if there is one. -/
def powerOf (m : Nat) (e : Int) : Option Int := if m = 2 ^ m.log2 then some (m.log2 + e) else none

/-- A whole number, if (−1)^n × m × 2^e is one. -/
def wholeOf (n : Bool) (m : Nat) (e : Int) : Option Int :=
  if 0 ≤ e ∨ m % 2 ^ (-e).toNat = 0 then
    let v : Int := ((m * 2 ^ e.toNat / 2 ^ (-e).toNat : Nat) : Int)
    some (if n then -v else v)
  else none

/-- Number of a rounding mode, with the draw of STOCH, in `Config.vecCode`. -/
def modeKey (mode : RMode) (draw : Nat) : Nat :=
  match mode with
  | .rne => 0 | .rtz => 1 | .rup => 2 | .rdn => 3 | .stoch => 4 + draw

/-- exp2 of an FP32 code (R54, R60, R61, R94): exact where a power of two is representable, an overflow from 128 on, and
otherwise an inexact result within one unit in the last place, free in each mode; below −126 it is tiny. -/
def exp2Lane (mode : RMode) (draw x : Nat) : Nat × FFlags :=
  match Fmt.fp32.decode x with
  | .qnan => (Fmt.fp32.nan, 0)
  | .snan => (Fmt.fp32.nan, FFlags.invalid)
  | .inf n => (if n then 0 else Fmt.fp32.infCode, 0)
  | .fin n m e =>
    let free := (pickCode (Config.vecCode 11 x (modeKey mode draw) 0 % 2 ^ 32) (exp2Ok x),
      FFlags.inexact ||| FFlags.when (n && magGt m e 126 0) FFlags.underflow)
    if !n && !magGt 128 0 m e then Fmt.fp32.overflowCode false mode false
    else match wholeOf n m e with
      | some k => if -149 ≤ k then FSpec.convert ⟨.fp32, false, false⟩ mode draw (.fin false 1 k) else free
      | none => free

/-- log2 of an FP32 code (R60, R61, R94): a pole at zero, invalid below; exact at powers of two, and otherwise an inexact
result within one unit in the last place, free in each mode. -/
def log2Lane (mode : RMode) (draw x : Nat) : Nat × FFlags :=
  match Fmt.fp32.decode x with
  | .qnan => (Fmt.fp32.nan, 0)
  | .snan => (Fmt.fp32.nan, FFlags.invalid)
  | .inf false => (Fmt.fp32.infCode, 0)
  | .fin false (m + 1) e =>
    match powerOf (m + 1) e with
    | some k => FSpec.convert ⟨.fp32, false, false⟩ mode draw (FVal.ofInt false k 0)
    | none => (pickCode (Config.vecCode 12 x (modeKey mode draw) 0 % 2 ^ 32) (log2Ok x), FFlags.inexact)
  | .fin _ 0 _ => (Fmt.fp32.signBit true + Fmt.fp32.infCode, FFlags.divZero)
  | _ => (Fmt.fp32.nan, FFlags.invalid)

/-! ## Instructions -/

/-- Fold lanes of a result into a register: codes and flags. -/
def putLanes (m : Map Byte) (f : Fmt) (base n : Nat) (lane : Nat → Nat × FFlags) : VecOut :=
  (List.range n).foldl (fun r i =>
    let (c, fl) := lane i
    { r with regs := writeElem r.regs f base i c, flags := r.flags ||| fl }) ⟨m, 0, 0⟩

/-- The record i of a register, records standing at a pitch of 96 bytes. -/
def vecRecord (m : Map Byte) (base i : Nat) : Ingot := Ingot.ofBytes (m.readBytes (base + 96 * i) 96)

/-- Element i of a source register as a value: scaled by byte i / 32 of its scale register (R39). -/
def vecElem (m : Map Byte) (f : FSpec) (base sbase i : Nat) : FVal :=
  let v := f.fmt.decode (readElem m f.fmt base i)
  if f.scaled then v.scale (m.getD (sbase + i / 32) 0).toNat else v

/-- Flags of reading the scales of n elements (R40). -/
def vecScaleFlags (m : Map Byte) (f : FSpec) (sbase n : Nat) : FFlags :=
  if f.scaled then (List.range ((n + 31) / 32)).foldl (fun a b => a ||| scaleFlags (m.getD (sbase + b) 0).toNat) 0 else 0

/-- Elements of a format a register holds. -/
def Fmt.lanes (f : Fmt) : Nat := 8192 / f.width

/-- An arithmetic operation may have this destination: the operands' own format, or one of R60's, in which the exact result
is rounded once (R53). -/
def arithDst (op : VArith) (f t : Fmt) : Bool :=
  f ≠ .ingot && t ≠ .ingot && !((op = .div || op = .sqrt) && (t = .fp16 || t = .bf16)) &&
    (t = f || t = .e4m3 || t = .e5m2 || t = .e3m2 || t = .e2m1 || t.isInt)

/-- What an instruction on registers does: its status (R105) and, when OK, the registers and flags. Loads and stores are
the local store's (`State.vecIssue`). The spec states no status for a vector instruction: the model ends one with a reserved
format with BAD_FORMAT, one with a format its operation is not listed for in R94 with BAD_MODE, and one with a record or
element past its register's end with BAD_LAYOUT. Its choice too: a term enters at the anchor its record holds, whatever
anchor is given, and with neither, a wide-class term ends with BAD_MODE (DESIGN CHOICE:
notes/assumptions/45.md). An instruction that ends with a status raises no flag, SCALE_NAN and INVALID of a term that ends with
ANCHOR_EXCEEDED included (DESIGN CHOICE: notes/assumptions/52.md). -/
def vecRun (op : VOp) (m : Map Byte) (k : Fin 2) (mode : RMode) (seed : Nat) : Nat × VecOut :=
  let keep : VecOut := ⟨m, 0, 0⟩
  let at_ := vregBase k
  match op with
  | .load .. | .store .. => (0, keep)
  | .arith op fc ds d a b c os el =>
    match Fmt.ofCode fc, FSpec.ofByte ds with
    | some f, some t =>
      if t.scaled || !arithDst op f t.fmt then (St.badMode, keep) else
      (0, putLanes m t.fmt (at_ d) (min f.lanes t.fmt.lanes) (fun i =>
        vecLane op fc f t mode (srDraw seed os ((el + i) % 2 ^ 48)) (readElem m f (at_ a) i) (readElem m f (at_ b) i)
          (readElem m f (at_ c) i)))
    | _, _ => (St.badFormat, keep)
  | .sign op fc d a b =>
    match Fmt.ofCode fc with
    | none => (St.badFormat, keep)
    | some f =>
      if f = .ingot || (f.isInt && op ≠ .move) then (St.badMode, keep) else
      (0, putLanes m f (at_ d) f.lanes (fun i => (signLane op f (readElem m f (at_ a) i) (readElem m f (at_ b) i), 0)))
  | .int op d a b =>
    (0, putLanes m .fp32 (at_ d) 256 (fun i => (intLane op (readElem m .fp32 (at_ a) i) (readElem m .fp32 (at_ b) i), 0)))
  | .convert fs ds d a sa n os el =>
    match FSpec.ofByte fs, FSpec.ofByte ds with
    | some f, some t =>
      if f.fmt = .ingot ∨ t.fmt = .ingot ∨ t.scaled then (St.badMode, keep) else
      let n := min n (min f.fmt.lanes t.fmt.lanes)
      let r := putLanes m t.fmt (at_ d) n (fun i =>
        t.convert mode (srDraw seed os ((el + i) % 2 ^ 48)) (vecElem m f (at_ a) (at_ sa) i))
      (0, { r with flags := r.flags ||| vecScaleFlags m f (at_ sa) n })
    | _, _ => (St.badFormat, keep)
  | .blockScale fs ds d sd a sa nb os el =>
    match FSpec.ofByte fs, FSpec.ofByte ds with
    | some f, some t =>
      if f.fmt = .ingot ∨ !t.scaled then (St.badMode, keep) else
      let nb := min nb (min (f.fmt.lanes / 32) (t.fmt.lanes / 32))
      (0, (List.range nb).foldl (fun r j =>
        let vs := (List.range 32).map (fun i => vecElem m f (at_ a) (at_ sa) (32 * j + i))
        let (sc, cs, fl) := t.fmt.blockConvert mode (fun i => srDraw seed os ((el + 32 * j + i) % 2 ^ 48)) vs
        let g := cs.zipIdx.foldl (fun g c => writeElem g t.fmt (at_ d) (32 * j + c.2) c.1) r.regs
        { r with regs := g.writeLE (at_ sd + j) 1 sc, flags := r.flags ||| fl })
          { keep with flags := vecScaleFlags m f (at_ sa) (32 * nb) })
    | _, _ => (St.badFormat, keep)
  | .exp2 d a os el => (0, putLanes m .fp32 (at_ d) 256 (fun i =>
      exp2Lane mode (srDraw seed os ((el + i) % 2 ^ 48)) (readElem m .fp32 (at_ a) i)))
  | .log2 d a os el => (0, putLanes m .fp32 (at_ d) 256 (fun i =>
      log2Lane mode (srDraw seed os ((el + i) % 2 ^ 48)) (readElem m .fp32 (at_ a) i)))
  | .term fs d i a sa n anchor =>
    match FSpec.ofByte fs with
    | none => (St.badFormat, keep)
    | some f =>
      let g := vecRecord m (at_ d) i
      let n := min n f.fmt.lanes
      let vs := (List.range n).map (fun j => vecElem m f (at_ a) (at_ sa) j)
      let start := if g.anchor ≠ anchorNone then some g.anchor
        else match anchor with
          | some x => some x
          | none => if f.fmt.wide then none else some shortAnchor
      if f.fmt = .ingot then (St.badMode, keep)
      else if 9 < i then (St.badLayout, keep)
      else match start with
        | none => (St.badMode, keep)
        | some x =>
          if vs.any (fun v => match termExp1 v with | some e => decide (x.toInt < e) | none => false) then
            (St.anchorExceeded, keep)
          else
            let (g, w) := vs.foldl (fun r v =>
              let (g, y) := r.1.addTerm v
              (g, if y then r.2 + 1 else r.2)) ({ g with anchor := x }, 0)
            (0, ⟨m.writeBytes (at_ d + 96 * i) g.toBytes,
              FFlags.when (w ≠ 0) FFlags.inexactWide ||| FFlags.when (g.has Ingot.fOvf) FFlags.ingotOvf |||
                FFlags.when (vs.contains .snan) FFlags.invalid ||| vecScaleFlags m f (at_ sa) n, w⟩)
  | .ingotAdd strict d i a j =>
    if 9 < i ∨ 9 < j then (St.badLayout, keep) else
    let x := vecRecord m (at_ d) i
    let y := vecRecord m (at_ a) j
    if strict ∧ x.anchor ≠ y.anchor ∧ x.anchor ≠ anchorNone ∧ y.anchor ≠ anchorNone then (St.anchorExceeded, keep) else
    let (g, w) := x.addAny y
    (0, ⟨m.writeBytes (at_ d + 96 * i) g.toBytes,
      FFlags.when w FFlags.inexactWide ||| FFlags.when (g.has Ingot.fOvf) FFlags.ingotOvf, if w then 1 else 0⟩)
  | .ingotOut ds d j a i os el =>
    match FSpec.ofByte ds with
    | none => (St.badFormat, keep)
    | some t =>
      if t.fmt = .ingot ∨ t.scaled then (St.badMode, keep)
      else if 9 < i ∨ 8192 / t.fmt.width ≤ j then (St.badLayout, keep)
      else
        let (c, fl) := (vecRecord m (at_ a) i).convert t mode (srDraw seed os (el % 2 ^ 48))
        (0, ⟨writeElem m t.fmt (at_ d) j c, fl, 0⟩)

end Sys2Proof.Machine
end

