-- ==== Sys2Proof/Machine/Tiles.lean ====
section
/-! DEFINITION. Compute tiles: failures and spares (R111–R116), local-store retests (R73), kernel loads (R78), matrix
operations (R82–R92), vector instructions (R94), the data mover (R96–R100), halo windows (R103), drain and retire (R115). -/

namespace Sys2Proof.Machine

open Sys2Proof

/-! ## Failures and spares -/

/-- Status of a task whose own operation detected a tile failure of a cause (R162). -/
def ownStatus (cause : Nat) : Option Nat :=
  if cause = 1 then some St.lsUe else if cause = 2 then some St.computeCheck else none

/-- A tile failure is detected with a cause: SELFTEST, LS_UE, COMPUTE_CHECK, CONTROLLER or MARGIN (R109, R111). `own` is the
task slot whose operation detected it, if one did (R162). A spare fails its self-test at start-up (R116). `lines`, here and at every
command below that may end a task: what the write of a completion record finds (R191). -/
def execTileFailure (d : Fin 4) (t : Fin 104) (cause : Nat) (own : Option (Fin 2)) (lines : LineErrs) (s : State) : Ans :=
  .next (
    let s := s.findErrs lines
    if 4 < cause then s
    else if s.tileState d t = 1 then (if cause = 0 then s.spareBad d t else s)
    else s.failTile d t cause (own.bind (fun k => (ownStatus cause).map (fun st => (k, st)))))

/-- The resident microcode has not fed the watchdog (R76). -/
def execTileWatchdogExpire (d : Fin 4) (t : Fin 104) (lines : LineErrs) (s : State) : Ans :=
  .next ((s.findErrs lines).failTile d t 3 none)

/-- A parity error in the resident store or the controller's registers (R76). -/
def execTileControllerParity (d : Fin 4) (t : Fin 104) (lines : LineErrs) (s : State) : Ans :=
  .next ((s.findErrs lines).failTile d t 3 none)

/-- The working spare of lowest physical number (R111). -/
def State.nextSpare (s : State) (d : Fin 4) : Option Nat := (List.range 104).find? (fun t => s.tileState d t == 1)

/-- CDIE.LAST_REMAP (R109). -/
def State.lastRemap (s : State) (d : Fin 4) (failed spare slot cause : Nat) : State :=
  let u := UnitId.cdie d
  let s := s.setF u Reg.CDIE.LAST_REMAP_FAILED failed
  let s := s.setF u Reg.CDIE.LAST_REMAP_SPARE spare
  let s := s.setF u Reg.CDIE.LAST_REMAP_SLOT slot
  s.setF u Reg.CDIE.LAST_REMAP_CAUSE cause

/-- The slot of the failure being handled is lost: LAST_REMAP, TILE_LOST, the counts and the rating fall (R111, R540,
R545); a die without active tiles fences the package (R546). The rating never rises, so that a slot lost again when a start
replaces a lost log does not lower it twice (R3). -/
def State.loseSlot (s : State) (d : Fin 4) (f : Failing) (rest : List Failing) : State :=
  let u := UnitId.cdie d
  let s := s.setFails d rest
  let s := s.lastRemap d f.tile 0x7F f.slot f.cause
  let s := s.raise u Evt.CDIE.TILE_LOST
  let s := s.setF u Reg.CDIE.ACTIVE_TILES (s.getF u Reg.CDIE.ACTIVE_TILES - 1)
  let s := s.setOwn u 1
  let now := ((List.finRange 4).map (fun d => s.getF (.cdie d) Reg.CDIE.ACTIVE_TILES)).sum
  let s := if now < s.getF .pkg Reg.PKG.RATING_TILES then
      (s.setF .pkg Reg.PKG.RATING_TILES now).raisePkg Evt.PKG.RATING
    else s
  if s.getF u Reg.CDIE.ACTIVE_TILES = 0 then s.doFence 2 else s

/-- No working spare is left for the failure a die is handling. -/
def execTileLost (d : Fin 4) (s : State) : Ans :=
  .next (match s.fails d with
    | f :: rest => if (s.nextSpare d).isNone then s.loseSlot d f rest else s
    | [] => s)

/-- The self-test of the spare of lowest number ends: on a pass it loads its microcode; on a failure it is FAILED and the
next spare is tried (R111). -/
def execSpareSelftestDone (d : Fin 4) (pass : Bool) (s : State) : Ans :=
  .next (match s.fails d, s.nextSpare d with
    | f :: rest, some sp =>
      if f.loading then s
      else if pass then s.setFails d ({ f with spare := some sp, loading := true } :: rest)
      else s.spareBad d sp
    | _, _ => s)

/-- The spare takes the slot and joins its own cluster, as it starts (R111–R113); a failed sensor of its hot spot leaves it
degraded (R413). -/
def State.spareIn (old : State) (d : Fin 4) (f : Failing) (rest : List Failing) (sp : Fin 104) : State :=
  let u := UnitId.cdie d
  let s := old.setFails d rest
  let s := s.setTileState d sp 0
  let x := s.tile d sp
  let y := { Tile.init with newTmc := s.mg.fw.tmcOn, ceilTherm := x.ceilTherm, visitDue := x.visitDue, idleAt := s.elapsed }
  let s := s.setTile d sp y
  let s := s.setF u Reg.CDIE.SPARES_LEFT (s.getF u Reg.CDIE.SPARES_LEFT - 1)
  let s := s.setF (.tile d sp) Reg.TILE.IDENT_SLOT f.slot
  let s := if f.slot < 100 then
      (s.setF u (Reg.CDIE.SLOT_PHYS f.slot) sp).setF u (Reg.CDIE.SLOT_VALID f.slot) 1
    else s
  let s := s.lastRemap d f.tile sp f.slot f.cause
  let s := s.raise u Evt.CDIE.TILE_SPARED
  let hs := s.pw.spots.getD (104 * d + sp) .init
  let s := if hs.failA || hs.failB then s.setOwn (.tile d sp) (max 1 (s.getF (.tile d sp) Reg.HEALTH_OWN)) else s
  ((s.refreshCluster d (clusterOf sp)).ceilsOf d).stopFalls old

/-- The spare has loaded its microcode. A tile that failed meanwhile is no spare: the next is tried. -/
def execTileSpared (d : Fin 4) (s : State) : Ans :=
  .next (match s.fails d with
    | f :: rest => match f.loading, f.spare with
      | true, some sp => if h : sp < 104 then
          (if s.tileState d sp = 1 then s.spareIn d f rest ⟨sp, h⟩
           else s.setFails d ({ f with spare := none, loading := false } :: rest))
        else s
      | _, _ => s
    | [] => s)

/-- The failure fuse of a failed tile is blown, a reset since the failure notwithstanding (R116). -/
def execFailureFuseBlow (d : Fin 4) (t : Fin 104) (s : State) : Ans :=
  .next (if s.fuseDue.getD (tileKey d t) false then
    { s with fuses := s.fuses.put (tileKey d t) true, fuseDue := s.fuseDue.del (tileKey d t) } else s)

/-! ## The local store -/

/-- n bytes of no known value. -/
def State.freeBytes (s : State) : Nat → List Byte × State
  | 0 => ([], s)
  | n + 1 =>
    let b := BitVec.ofNat 8 (Config.freeNat s.freeCtr)
    let (bs, s) := s.tickFree.freeBytes n
    (b :: bs, s)

/-- The retest of a row after an uncorrectable error ends (R73): a pass raises LS_UE and leaves the tile degraded, the
row undefined; a failure fails the tile. -/
def execLsRowRetest (d : Fin 4) (t : Fin 104) (row : Nat) (pass : Bool) (lines : LineErrs) (s : State) : Ans :=
  .next (
    let x := s.tile d t
    if !s.tileActive d t || !x.badRows.contains row then s
    else if pass then
      let s := s.setTile d t { x with badRows := x.badRows.erase row }
      let (b, s) := s.freeBytes 64
      let s := s.lsWrite d t (64 * row) b
      (s.raise (.tile d t) Evt.TILE.LS_UE).setOwn (.tile d t) 1
    else (s.findErrs lines).failTile d t 1 none)

/-! ## Kernel loads (R77–R79) -/

/-- A task of the tile runs on a cached kernel, or waits to start on it. -/
def Tile.kernelUsed (x : Tile) (e : KEntry) : Bool :=
  !e.users.isEmpty || (!e.stale && (x.slot0.toList ++ x.slot1.toList).any (fun w => w.start.isNone && w.kernel == e.id))

/-- Make room in the kernel cache of 32 KiB: the least recently used kernels no task uses leave, last first. -/
def evict (used : KEntry → Bool) (l : List KEntry) : Nat → List KEntry
  | 0 => l
  | n + 1 =>
    if (l.map KEntry.size).sum ≤ 0x8000 then l else
    match l.reverse.find? (fun e => !used e) with
    | none => l
    | some e => evict used (l.erase e) n

/-- The kernel the cache holds for a task, fresh. -/
def Tile.cached (x : Tile) (w : Task) : Option KEntry := x.kcache.find? (fun e => e.id = w.kernel && !e.stale)

/-- The load of a task's kernel by the tile's data mover: the entry and the image are read and checked. Status, and the entry
when OK. An entry with a reserved bit set, or an image off a 64-byte boundary, is KERNEL_BAD: the model's choice, for R78
names neither (DESIGN CHOICE: notes/assumptions/47.md). -/
def State.loadKernel (s : State) (d : Fin 4) (t : Fin 104) (w : Task) : State × Nat × KEntry :=
  let u := UnitId.cdie d
  let none_ : KEntry := ⟨0, 0, 0, false, []⟩
  if s.getF u Reg.CDIE.KTAB_COUNT_COUNT ≤ w.kernel then (s, St.kernelBad, none_) else
  let base := s.getPair u Reg.CDIE.KTAB_BASE_LO Reg.CDIE.KTAB_BASE_HI
  let (s, st, e) := s.readMem (Req.die d) (base + 16 * w.kernel) 16
  if st ≠ 0 then (s, st, none_) else
  let v := leNat e
  let addr := bitsOf v 63 0
  let size := bitsOf v 79 64
  let eng := bitsOf v 81 80
  if size = 0 ∨ size % 64 ≠ 0 ∨ 16384 < size ∨ eng = 3 ∨ addr % 64 ≠ 0 ∨ bitsOf v 95 82 ≠ 0 ∨ eng ≠ w.engine then
    (s, St.kernelBad, none_) else
  let (s, st, img) := s.readMem (Req.die d) addr size
  if st ≠ 0 then (s, st, none_) else
  let s := s.addPair (.tile d t) Reg.TILE.MOVED_LO Reg.TILE.MOVED_HI size
  if crc32c img ≠ bitsOf v 127 96 then (s, St.kernelBad, none_)
  else (s, 0, ⟨w.kernel, size, eng, false, []⟩)

/-- A load failed: KERNEL_BAD is raised and the task faults with the status. -/
def State.kernelFault (s : State) (d : Fin 4) (t : Fin 104) (k : Fin 2) (st : Nat) : State :=
  (s.raise (.tile d t) Evt.TILE.KERNEL_BAD).endTask d t k 1 st

/-- The fetch of a starting task's kernel ends. A stale copy that a running task is on stays beside the new one (R79). -/
def execKernelLoadDone (d : Fin 4) (t : Fin 104) (k : Fin 2) (errs : LineErrs) (s : State) : Ans :=
  .next (
    let x := s.tile d t
    match x.slot k with
    | none => s
    | some w =>
      if w.start.isSome || (x.cached w).isSome then s else
      let (s, st, e) := (s.findErrs errs).loadKernel d t w
      if st ≠ 0 then s.kernelFault d t k st else
      let x := s.tile d t
      let l := e :: x.kcache.filter (fun o => o.id ≠ e.id || !o.users.isEmpty)
      s.setTile d t { x with kcache := evict x.kernelUsed l l.length })

/-! ## Matrix operations -/

def Tile.mops (x : Tile) (k : Fin 2) : List Mop := if k = 0 then x.mops0 else x.mops1

def Tile.setMops (x : Tile) (k : Fin 2) (l : List Mop) : Tile := if k = 0 then { x with mops0 := l } else { x with mops1 := l }

def Tile.stallMop (x : Tile) (k : Fin 2) : Option Nat := if k = 0 then x.stallMop0 else x.stallMop1

def Tile.setStallMop (x : Tile) (k : Fin 2) (v : Option Nat) : Tile :=
  if k = 0 then { x with stallMop0 := v } else { x with stallMop1 := v }

/-- A MOP is checked and fails at once, or is queued (R72, R82, R83). -/
def State.mopIssueAt (s : State) (d : Fin 4) (t : Fin 104) (k : Fin 2) (addr : Nat) (errs : RowErrs) : State :=
  if !descHome k addr 64 then s.opFault d t k St.outOfRange else
  let s := s.findRows d t (some k) errs
  let x := s.tile d t
  match x.slot k with
  | none => s
  | some w =>
    if x.badIn addr 64 then s.opFault d t k St.lsUe else
    let b := x.read addr 64
    let st := mopCheck (MopD.ofBytes b) w k
    if st ≠ 0 then (s.lsWrite d t (addr + 0x0E) [BitVec.ofNat 8 st]).opFault d t k st
    else s.setTile d t (x.setMops k (x.mops k ++ [⟨addr, b⟩]))

/-- A kernel issues the MOP at an address; it stalls while its queue holds 4 (R82). A MOP counts among the 4 until it
completes: the model's choice, for R82 does not say when one leaves the queue (DESIGN CHOICE: notes/assumptions/47.md). -/
def execMopIssue (d : Fin 4) (t : Fin 104) (k : Fin 2) (addr : Nat) (errs : RowErrs) (lines : LineErrs) (s : State) : Ans :=
  .next (
    let s := s.findErrs lines
    let x := s.tile d t
    if !s.kernelRuns d t k then s
    else if 4 ≤ (x.mops k).length then s.setTile d t (x.setStallMop k (some addr))
    else s.mopIssueAt d t k addr errs)

/-- A stalled MOP issue goes on. -/
def execMopIssueResume (d : Fin 4) (t : Fin 104) (k : Fin 2) (errs : RowErrs) (lines : LineErrs) (s : State) : Ans :=
  .next (
    let s := s.findErrs lines
    let x := s.tile d t
    match x.stallMop k with
    | some addr =>
      if (x.mops k).length < 4 then (s.setTile d t (x.setStallMop k none)).mopIssueAt d t k addr errs else s
    | none => s)

/-- Width of a block for a task: 32 for the full engine, 16 for a half (R92). -/
def Task.blockWidth (w : Task) : Nat := if w.engine = 2 then 32 else 16

/-- A residue mismatch: the first within 24 h is an event, the second fails the tile (R90). -/
def State.residueFault (s : State) (d : Fin 4) (t : Fin 104) (k : Fin 2) : State :=
  let x := s.tile d t
  let again := match x.checkAt with | some a => decide (s.elapsed ≤ a + ns24h) | none => false
  let s := s.setTile d t { x with checkAt := some s.elapsed }
  if again then s.failTile d t 2 (some (k, St.computeCheck)) else s.raise (.tile d t) Evt.TILE.COMPUTE_CHECK

/-- The lower-numbered of two blocks that would end a MOP. -/
def firstStop (a b : Option (Nat × Nat)) : Option (Nat × Nat) :=
  match a, b with
  | some x, some y => if y.1 < x.1 then some y else some x
  | some x, none => some x
  | none, y => y

/-- The oldest MOP of a slot runs to its end (R85, R88, R90). -/
def State.mopEnd (s : State) (d : Fin 4) (t : Fin 104) (k : Fin 2) (w : Task) (m : Mop) (rest : List Mop)
    (residue : Option Nat) : State :=
  let x := s.tile d t
  let o := MopD.ofBytes m.desc
  match o.a, o.b, o.c, o.rmode with
  | some fa, some fb, some fc, some mode =>
    let bw := w.blockWidth
    let exp := mopAccum o fa.fmt fb.fmt fc.fmt = .ingot 3
    let stop := firstStop ((badBlock x o fa fb fc bw).map (fun b => (b, St.lsUe)))
      (if exp then none else residue.map (fun b => (b, St.computeCheck)))
    let (ls, st, fl, wide) := mopRun x.ls o fa fb fc mode w.seed bw stop
    let cyc := mopCycles o fa fb fc bw
    let (busy, s) := if st = 0 then (cyc, s) else (Config.freeNat s.freeCtr % (cyc + 1), s.tickFree)
    let s := s.setTile d t { x.setMops k rest with ls := ls }
    let s := s.setSlot d t k (some { w with flags := w.flags ||| fl, wide := min (2 ^ 32 - 1) (w.wide + wide) })
    let s := s.addPair (.tile d t) Reg.TILE.ME_BUSY_LO Reg.TILE.ME_BUSY_HI busy
    let s := s.lsWrite d t (m.addr + 0x0E) [BitVec.ofNat 8 st]
    let s := if st = St.computeCheck then s.residueFault d t k else s
    if s.tileActive d t then s.opFault d t k st else s
  | _, _, _, _ => s

/-- A matrix operation ends; `residue` names a block in which a residue mismatch is found. -/
def execMopComplete (d : Fin 4) (t : Fin 104) (k : Fin 2) (errs : RowErrs) (residue : Option Nat) (lines : LineErrs)
    (s : State) : Ans :=
  .next (
    let s := (s.findErrs lines).findRows d t (some k) errs
    let x := s.tile d t
    match x.slot k, x.mops k with
    | some w, m :: rest => s.mopEnd d t k w m rest residue
    | _, _ => s)

/-! ## Vector instructions -/

/-- A vector instruction executes for a task: registers out of its own do nothing. -/
def State.vecIssue (s : State) (d : Fin 4) (t : Fin 104) (k : Fin 2) (w : Task) (op : VOp) : State :=
  let x := s.tile d t
  if (vecRegs op).any (fun r => x.vregCount k ≤ r) then s else
  match op with
  | .load r addr n =>
    let n := min n 1024
    if !mayRead k addr n then s.opFault d t k St.outOfRange
    else if x.badIn addr n then s.opFault d t k St.lsUe
    else s.setTile d t { x with vreg := x.vreg.writeBytes (vregBase k r) (x.read addr n) }
  | .store r addr n =>
    let n := min n 1024
    if !w.mayWrite k addr n then s.opFault d t k St.outOfRange
    else s.lsWrite d t addr (x.vreg.readBytes (vregBase k r) n)
  | op =>
    match RMode.ofCode w.rmode with
    | none => s
    | some mode =>
      let (st, o) := vecRun op x.vreg k mode w.seed
      if st ≠ 0 then s.opFault d t k st else
      let s := s.setTile d t { x with vreg := o.regs }
      s.setSlot d t k (some { w with flags := w.flags ||| o.flags, wide := min (2 ^ 32 - 1) (w.wide + o.wide) })

/-- A kernel issues a vector instruction. -/
def execVectorInstruction (d : Fin 4) (t : Fin 104) (k : Fin 2) (op : VOp) (errs : RowErrs) (lines : LineErrs) (s : State) :
    Ans :=
  .next (
    let s := s.findErrs lines
    if !s.kernelRuns d t k then s else
    let s := s.findRows d t (some k) errs
    match (s.tile d t).slot k with
    | some w => s.vecIssue d t k w op
    | none => s)

/-! ## The data mover -/

/-- OP of the descriptor at an address, where one may stand there. -/
def State.dmOpAt (s : State) (d : Fin 4) (t : Fin 104) (k : Fin 2) (addr : Nat) : Option Nat :=
  if descHome k addr 128 then some (((s.tile d t).ls.getD addr 0).toNat) else none

/-- A COPY is issued; a descriptor of a reserved OP, which fails its check, comes by this row too. -/
def execDmCopy (d : Fin 4) (t : Fin 104) (k : Fin 2) (addr : Nat) (errs : RowErrs) (lines : LineErrs) (s : State) : Ans :=
  .next (match s.dmOpAt d t k addr with
    | some op => if op = 2 ∨ op = 3 ∨ op = 4 then s else s.dmCall d t k addr errs lines
    | none => s.dmCall d t k addr errs lines)

/-- A GATHER is issued. -/
def execDmGather (d : Fin 4) (t : Fin 104) (k : Fin 2) (addr : Nat) (errs : RowErrs) (lines : LineErrs) (s : State) : Ans :=
  .next (match s.dmOpAt d t k addr with
    | some op => if op = 2 then s.dmCall d t k addr errs lines else s
    | none => s.dmCall d t k addr errs lines)

/-- A SCATTER is issued. -/
def execDmScatter (d : Fin 4) (t : Fin 104) (k : Fin 2) (addr : Nat) (errs : RowErrs) (lines : LineErrs) (s : State) : Ans :=
  .next (match s.dmOpAt d t k addr with
    | some op => if op = 3 then s.dmCall d t k addr errs lines else s
    | none => s.dmCall d t k addr errs lines)

/-- A FILL is issued. -/
def execDmFill (d : Fin 4) (t : Fin 104) (k : Fin 2) (addr : Nat) (errs : RowErrs) (lines : LineErrs) (s : State) : Ans :=
  .next (match s.dmOpAt d t k addr with
    | some op => if op = 4 then s.dmCall d t k addr errs lines else s
    | none => s.dmCall d t k addr errs lines)

/-- A stalled descriptor issue goes on (R100). -/
def execDmIssueResume (d : Fin 4) (t : Fin 104) (k : Fin 2) (errs : RowErrs) (lines : LineErrs) (s : State) : Ans :=
  .next (
    let x := s.tile d t
    match (if k = 0 then x.stallDm0 else x.stallDm1) with
    | some addr =>
      if (x.dms k).length < 8 then
        (s.setTile d t (if k = 0 then { x with stallDm0 := none } else { x with stallDm1 := none })).dmIssue d t k addr
          errs lines
      else s
    | none => s)

/-- The nth descriptor of a slot's queue completes: it has started, and waits for no other package. `errs` are rows found
bad by the descriptors in progress. -/
def execDmComplete (d : Fin 4) (t : Fin 104) (k : Fin 2) (n : Nat) (errs : RowErrs) (lines : LineErrs) (s : State) : Ans :=
  .next (
    let s := (s.findErrs lines).findRows d t (some k) errs
    match ((s.tile d t).dms k)[n]? with
    | some m => if m.started && !m.remote then s.dmComplete d t k m else s
    | none => s)

/-! ## Halo windows -/

/-- OPEN of a window with the SYNC_OBJ written beside it (R103). -/
def execWindowOpen (d : Fin 4) (t : Fin 104) (n : Fin 4) (syncObj : Nat) (s : State) : Ans :=
  .next (
    let u := UnitId.tile d t
    if !s.tileActive d t || !s.pageOpen u then s else
    let s := s.setF u (Reg.TILE.WIN_CTL_SYNC_OBJ n) syncObj
    if s.getF u (Reg.TILE.WIN_CTL_STATE n) ≠ 0 then s else
    let base := s.getF u (Reg.TILE.WIN_BASE n)
    let len := s.getF u (Reg.TILE.WIN_LEN n)
    let expect := s.getF u (Reg.TILE.WIN_EXPECT n)
    if base % 64 ≠ 0 ∨ len % 64 ≠ 0 ∨ !inData base len ∨ len < expect then s.raise u Evt.TILE.WIN_BAD else
    let s := s.setF u (Reg.TILE.WIN_RCVD n) 0
    let s := s.setF u (Reg.TILE.WIN_CTL_STATE n) 1
    (if expect = 0 then s.fillWindow d t n else s).showWindows d t)

/-- CLOSE of a window. -/
def execWindowClose (d : Fin 4) (t : Fin 104) (n : Fin 4) (s : State) : Ans :=
  .next (
    if !s.tileActive d t || !s.pageOpen (.tile d t) then s
    else (s.setF (.tile d t) (Reg.TILE.WIN_CTL_STATE n) 0).showWindows d t)

/-! ## Drain and retire -/

/-- TILE.CTL.DRAIN is written (R107, R115). -/
def execTileDrain (d : Fin 4) (t : Fin 104) (on : Bool) (s : State) : Ans :=
  .next (
    if !s.tileActive d t || !s.pageOpen (.tile d t) then s
    else (s.setF (.tile d t) Reg.TILE.CTL_DRAIN (if on then 1 else 0)).drained d t)

/-- TILE.CTL.RETIRE is written (R115). -/
def execTileRetire (d : Fin 4) (t : Fin 104) (lines : LineErrs) (s : State) : Ans :=
  .next (if s.pageOpen (.tile d t) then (s.findErrs lines).failTile d t 5 none else s)

end Sys2Proof.Machine
end

