-- ==== Sys2Proof/Machine/Pools.lean ====
section
/-! DEFINITION. Task pools and work dispatch: doorbells and pool control (R143–R145, R168, R171), search and takes
(R150–R158), starts and ends of tasks (R159–R167), the POST service (R147). -/

namespace Sys2Proof.Machine

open Sys2Proof

/-! ## Doorbells and pool control -/

/-- A write of PKG.POOL_DBp (R145); the doorbell pages answer from READY on (R489). -/
def execPoolDoorbell (p : Fin 4096) (count : Nat) (s : State) : Ans :=
  .next (if s.ready then s.doorbell p count else s)

/-- The pool can reserve a completion entry (R147). -/
def Pool.reserves (x : Pool) : Bool :=
  decide (x.running + (x.cqTail + 2 ^ 32 - x.cqHead) % 2 ^ 32 < 2 ^ x.cqLog)

/-- The pool POOL_SEL selects. -/
def State.poolSel (s : State) : Nat := s.getF .pkg Reg.PKG.POOL_SEL_POOL

/-- POOL_CTL.ENABLE: DISABLED to ENABLED (R171). -/
def execPoolEnable (s : State) : Ans :=
  .next (
    let x := s.pool s.poolSel
    if x.state = 0 then s.setPool s.poolSel { x with state := 1 } else s)

/-- POOL_CTL.DISABLE: ENABLED to DISABLED (R168, R171). -/
def execPoolDisable (s : State) : Ans :=
  .next (
    let x := s.pool s.poolSel
    if x.state = 1 then s.setPool s.poolSel { x with state := 0 } else s)

/-- The record of a flushed task is written: the record's fields about an attempt have no value, since none was made, nor has
TASK_ID, with no SIGNAL_OBJ to signal, when the descriptor could not be read (notes/assumptions/7.md, 46.md). -/
def State.cancelOne (s : State) (p at_ : Nat) (desc : Option (List Byte)) : State :=
  let x := s.pool p
  let f := fun (n : Nat) => Config.freeNat (s.freeCtr + n)
  let b := desc.getD (leBytes 16 0 ++ leBytes 8 (f 6) ++ List.replicate 104 (0 : Byte))
  let w := { Task.fresh p b with attempts := f 0 % 16, flags := BitVec.ofNat 16 (f 1), wide := f 2 % 2 ^ 32 }
  ({ s with freeCtr := s.freeCtr + 7 } : State).finish w 7 0 (f 3 % 4) (f 4 % 100) (f 5 % 2) at_ (.die x.home) false

/-- Records of flushed tasks are written, oldest first, while the completion ring has room beside the entries reserved
(R147); the argument bounds their number. -/
def State.drainCancelled (s : State) (p : Nat) : Nat → State
  | 0 => s
  | n + 1 =>
    let x := s.pool p
    match x.cancelled with
    | [] => s
    | e :: rest =>
      if x.reserves then
        State.drainCancelled ((s.setPool p { x with cancelled := rest }).cancelOne p e.1 e.2) p n
      else s

/-- Records that waited for room are written. -/
def State.goCancelled (s : State) (p : Nat) : State := s.drainCancelled p (s.pool p).cancelled.length

/-- A write of PKG.POOL_CQ_HEADp (R145); `errs`, what the writes of records that waited find. -/
def execPoolCqHeadWrite (p : Fin 4096) (v : Word) (errs : LineErrs) (s : State) : Ans :=
  .next (
    let x := s.pool p
    if !s.ready then s
    else if (v.toNat + 2 ^ 32 - x.cqHead) % 2 ^ 32 ≤ (x.cqTail + 2 ^ 32 - x.cqHead) % 2 ^ 32 then
      ((s.setPool p { x with cqHead := v.toNat }).findErrs errs).goCancelled p
    else s.poolErr p 4)

/-- POOL_CTL.FLUSH (R168): HEAD moves to TAIL at once; records that the completion ring has no room for wait for it, since a
record never overwrites an unconsumed one (R147; DESIGN CHOICE: notes/assumptions/46.md). The dispatcher reads the descriptors
behind the head, which it has read before. -/
def execPoolFlush (errs : LineErrs) (s : State) : Ans :=
  .next (
    let s := s.findErrs errs
    let p := s.poolSel
    let x := s.pool p
    let gone := (List.range x.untaken).map (fun i => (s.drove, s.ringDesc x ((x.head + i) % 2 ^ 32)))
    let s := (List.range (x.untaken - 1)).foldl (fun s i => s.ringRead x ((x.head + i + 1) % 2 ^ 32)) s
    (s.setPool p { x with head := x.tail, held := x.held && !x.retries.isEmpty, waitGen := none, cancelled := x.cancelled ++ gone }).goCancelled p)

/-- POOL_CTL.RELOAD (R143, R144). -/
def execPoolReload (errs : LineErrs) (s : State) : Ans :=
  .next (
    let x := s.pool s.poolSel
    if x.state ≠ 1 ∧ x.running = 0 then (s.findErrs errs).readEntry s.poolSel else s)

/-- POOL_CTL.CLEAR (R171). CANCELLED records of a FLUSH that still wait for room are dropped with the counts and never written:
the model's choice, for R168 and R171 do not say (DESIGN CHOICE: notes/assumptions/46.md). -/
def execPoolClear (s : State) : Ans :=
  .next (
    let x := s.pool s.poolSel
    if x.state = 2 ∧ x.running = 0 then
      s.setPool s.poolSel { Pool.init with entry := x.entry, granted := x.granted }
    else s)

/-! ## Search and takes -/

/-- What stands at a pool's head. -/
inductive Head where
  | none
  | retry (x : Task)
  | fresh (x : Task)
  /-- The descriptor cannot be read. -/
  | unread
  deriving DecidableEq, Repr

/-- The head of a pool: a queued retry, or the task at HEAD (R145, R165). -/
def State.poolHead (s : State) (p : Nat) : Head :=
  let x := s.pool p
  match x.retries with
  | r :: _ => if x.state = 0 then .none else .retry r
  | [] =>
    if x.state ≠ 1 ∨ x.untaken = 0 then .none else
    match s.ringDesc x x.head with
    | some b => .fresh (Task.fresh p b)
    | Option.none => .unread

/-- The head is eligible, slots aside (R151, R153). -/
def State.headEligible (s : State) (p : Nat) : Bool :=
  let x := s.pool p
  match s.poolHead p with
  | .none => false
  | .retry _ => true
  | .unread => x.reserves
  | .fresh w => x.reserves && (!w.waitEn || s.headAllowed w.waitObj x.home x.waitGen)

/-- A take of a fresh head with WAIT_EN on a semaphore acquires one count (R151). -/
def State.acquire (s : State) (w : Task) : State :=
  let b := s.obj w.waitObj
  if w.waitEn ∧ b.kind = 1 then s.setObj w.waitObj { b with count := b.count - 1 } else s

/-- The head leaves its pool: a retry begins its next attempt, a fresh task HEAD passes. A hold of the pool's head ends with it; one
that stood when a retry was queued in front has passed to that retry: the model's choice, for R158 does not say (DESIGN CHOICE:
notes/assumptions/46.md). -/
def State.popHead (s : State) (p : Nat) : Option (Task × State) :=
  let x := s.pool p
  match s.poolHead p with
  | .retry w => some ({ w with attempts := w.attempts + 1 }, s.setPool p { x with retries := x.retries.drop 1, held := false })
  | .fresh w =>
    let s := s.setPool p { x with head := (x.head + 1) % 2 ^ 32, running := x.running + 1, held := false }
    some (w, (s.acquire w).headArrives p)
  | _ => none

/-- A task ends at its take without having run (R150). -/
def State.badDesc (s : State) (d : Fin 4) (t : Fin 104) (k : Fin 2) (w : Task) (status cause : Nat) : State :=
  s.finish w status cause d (s.slotOf d t) k s.drove (.die (s.pool w.pool).home) true

/-- The configuration that the tasks of a tile call for: FULL 0, SPLIT 1; none where they leave it (R155). -/
def Tile.engineWanted (x : Tile) : Option Nat :=
  let ts := x.slot0.toList ++ x.slot1.toList
  if ts.any (fun w => w.engine == 2) then some 0 else if ts.any (fun w => w.engine == 1 || w.pair) then some 1 else none

/-- A task is placed in a slot: ARGS copied, an engine change begun (R81, R155, R159). -/
def State.placeTask (s : State) (d : Fin 4) (t : Fin 104) (k : Fin 2) (w : Task) : State :=
  let s := s.setSlot d t k (some w)
  let s := s.lsWrite d t (ctxBase k) ((w.desc.drop 0x40).take 64)
  let u := UnitId.tile d t
  match (s.tile d t).engineWanted with
  | some e =>
    if s.getF u Reg.TILE.STATE_ENGINE = e then s
    else (s.setTile d t { s.tile d t with engineTo := some e }).setF u Reg.TILE.STATE_ENGINE 2
  | none => s

/-- The tile has taken a task from pool p: its search starts again (R152), and the grant's rotation goes on from its cluster
and die (R154). -/
def State.tookFrom (s : State) (d : Fin 4) (t : Fin 104) (p : Nat) : State :=
  let s := s.setTile d t { s.tile d t with tiers := [], idleAt := s.elapsed }
  let s := { s with lastPool := s.lastPool.put (d * 13 + t / 8) p }
  s.setPool p { s.pool p with granted := t / 8 * 4 + d }

/-- The task of a head. -/
def headTask : Head → Option Task
  | .retry w => some w
  | .fresh w => some w
  | _ => none

/-- A search tier of a tile of cluster c of die d considers a pool (R152). -/
def State.inTier (s : State) (d : Fin 4) (c p tier : Nat) : Bool :=
  let x := s.pool p
  let own := x.home == d
  let across := x.home.val == 3 - d.val
  match tier with
  | 1 => own && x.affine c
  | 2 => own && x.steal ≠ 0 && (x.affine ((c + 1) % 13) || x.affine ((c + 12) % 13))
  | 3 => own && x.steal ≠ 0
  | 4 => !own && !across && x.steal = 2
  | _ => across && x.steal = 2

/-- The lowest open tier of a tile of cluster c of die d that considers a pool. -/
def State.tierOf (s : State) (d : Fin 4) (c : Nat) (tiers : List Nat) (p : Nat) : Option Nat :=
  [1, 2, 3, 4, 5].find? (fun n => (n == 1 || tiers.contains n) && s.inTier d c p n)

/-- What a try at a pool comes to. -/
inductive Try where
  /-- The tile goes on to its next candidate. -/
  | pass (s : State)
  | took (s : State)

/-- A try at a pool that has no partner: the slot rules decide whether the tile takes the head (R153, R155), and the check of
the descriptor what becomes of it (R150). -/
def State.trySingle (s : State) (d : Fin 4) (t : Fin 104) (p : Nat) : Try :=
  let x := s.tile d t
  match headTask (s.poolHead p) with
  | none => .pass (if s.poolHead p = .unread then s.poolErr p 5 else s)
  | some w =>
    let k : Fin 2 := if x.slot0.isNone then 0 else 1
    let busy := if x.slot0.isNone then x.slot1 else x.slot0
    if !x.room || (w.engine = 2 && !(x.slot0.isNone && x.slot1.isNone)) then .pass s
    else if busy.any w.overlaps then .pass (s.bump (.cdie d) Reg.CDIE.DISP_SKIP_COUNT)
    else match s.popHead p with
      | some (w, s) =>
        .took ((if w.check ≠ 0 then s.badDesc d t k w 5 w.check else s.placeTask d t k w).tookFrom d t p)
      | none => .pass s

/-- Status and cause with which each task of a pair ends at its take; none when the pair may run (R150, R156). -/
def pairCheck (a b : Task) : Option ((Nat × Nat) × (Nat × Nat)) :=
  if a.check ≠ 0 ∨ b.check ≠ 0 then
    some (if a.check ≠ 0 then (5, a.check) else (6, 5), if b.check ≠ 0 then (5, b.check) else (6, 5))
  else if a.engine = 2 ∨ b.engine = 2 then some ((5, St.badMode), (5, St.badMode))
  else if a.overlaps b then some ((5, St.badLayout), (5, St.badLayout))
  else none

/-- A try at a pool with a partner: the pair is taken as a whole (R156). -/
def State.tryPair (s : State) (d : Fin 4) (t : Fin 104) (p q : Nat) : Try :=
  let x := s.tile d t
  let lo := min p q
  let hi := max p q
  if x.slot0.isSome || x.slot1.isSome || !s.headEligible lo || !s.headEligible hi then .pass s
  else if s.poolHead lo = .unread then .pass (s.poolErr lo 5)
  else if s.poolHead hi = .unread then .pass (s.poolErr hi 5)
  else
    match s.popHead lo with
    | none => .pass s
    | some (a, s1) =>
      if !s1.headEligible hi then .pass s else
      match s1.popHead hi with
      | none => .pass s
      | some (b, s) =>
        let a := { a with pair := true }
        let b := { b with pair := true }
        match pairCheck a b with
        | some (ea, eb) =>
          .took ((((s.badDesc d t 0 a ea.1 ea.2).badDesc d t 1 b eb.1 eb.2).tookFrom d t q).tookFrom d t p)
        | none => .took ((((s.placeTask d t 0 a).placeTask d t 1 b).tookFrom d t q).tookFrom d t p)

/-- A try at a pool. -/
def State.tryPool (s : State) (d : Fin 4) (t : Fin 104) (p : Nat) : Try :=
  if !s.headEligible p then .pass s
  else if (s.pool p).partnerEn then s.tryPair d t p (s.pool p).partner
  else s.trySingle d t p

/-- The pools a tile tries, in order: held heads of its cluster first, then tiers, priorities, rotation (R152, R158). -/
def State.poolOrder (s : State) (d : Fin 4) (t : Fin 104) : List Nat :=
  let x := s.tile d t
  let c := t.val / 8
  let last := (s.lastPool.find (d * 13 + c)).getD 4095
  let key := fun (p : Nat) =>
    (((s.tierOf d c x.tiers p).getD 9 * 4 + (3 - (s.pool p).priority)) * 4096 + (p + 4095 - last) % 4096)
  let seen := s.pools.keys.filter (fun p => (s.tierOf d c x.tiers p).isSome)
  let sorted := seen.mergeSort (fun a b => decide (key a ≤ key b))
  let held := fun (p : Nat) => (s.pool p).held && (s.pool p).home = d && (s.pool p).affine c
  sorted.filter held ++ sorted.filter (fun p => !held p)

/-- A head of a pool with affinity for the tile's cluster is held (R158). -/
def State.holdOn (s : State) (d : Fin 4) (t : Fin 104) : Bool :=
  s.pools.any (fun e => e.2.held && e.2.home = d && e.2.affine (t / 8))

/-- PARK or CAP_HOLD: no task is taken (R395, R396). -/
def State.noTakes (s : State) : Bool := s.isSet .hctl Reg.HCTL.CAP_EFF_MODE || s.isSet .hctl Reg.HCTL.CAP_EFF_HOLD

/-- The tile may take a task now: it has room, and is not fenced (R169), parked, drained, in a re-margin visit, or on the old tile microcode
with both slots empty, when it loads the new one, or past TILE_WAIT_MS (R525); with a head of its cluster held, it takes none into a second slot (R158). -/
def State.mayTake (s : State) (d : Fin 4) (t : Fin 104) : Bool :=
  let x := s.tile d t
  !s.fenced && s.ready && s.tileActive d t && !s.isSet (.tile d t) Reg.TILE.CTL_DRAIN && !x.innerDrain && !x.visiting &&
    !s.noTakes && (!s.mg.fw.tmcOn || x.newTmc || (!s.mg.fw.tileWait && (x.slot0.isSome || x.slot1.isSome))) && x.room && ((x.slot0.isNone && x.slot1.isNone) || !s.holdOn d t)

/-- A tile that asks for a task, and the pools it has still to try, in its order. -/
structure Asker where
  die : Fin 4
  tile : Fin 104
  pools : List Nat
  deriving DecidableEq, Repr

/-- The pools of an asker from the first that has a head for it on; the state tells of the heads passed over. -/
def State.settle (s : State) (d : Fin 4) (t : Fin 104) : List Nat → State × List Nat
  | [] => (s, [])
  | p :: ps => match s.tryPool d t p with
    | .took _ => (s, p :: ps)
    | .pass s => State.settle s d t ps

/-- Each asker's first eligible pool. -/
def State.settleAll (s : State) : List Asker → State × List Asker
  | [] => (s, [])
  | a :: l =>
    let (s, ps) := s.settle a.die a.tile a.pools
    let (s, l) := s.settleAll l
    (s, if ps = [] then l else { a with pools := ps } :: l)

/-- Place of an asker in a pool's rotation: the cluster and die after the one granted last come first; within a cluster, the
lowest tile (R154; DESIGN CHOICE: notes/assumptions/46.md). -/
def Asker.turn (a : Asker) (granted : Nat) : Nat :=
  (a.tile / 8 * 4 + a.die + 51 - granted) % 52 * 104 + a.tile

/-- The asker of lowest turn, the first of equals. -/
def firstAsker (granted : Nat) : List Asker → Option Asker
  | [] => none
  | a :: l => match firstAsker granted l with
    | some b => if b.turn granted < a.turn granted then some b else some a
    | none => some a

/-- Grants of one die cycle: each pool grants one take to the asker whose turn it is, and the others go on to their next
candidates (R154). The argument bounds the grants. -/
def State.grantAll (s : State) (l : List Asker) : Nat → State
  | 0 => s
  | n + 1 =>
    let (s, l) := s.settleAll l
    match l with
    | [] => s
    | a :: _ =>
      let p := a.pools.headD 0
      match firstAsker (s.pool p).granted (l.filter (fun b => b.pools.head? == some p)) with
      | none => s
      | some w =>
        match s.tryPool w.die w.tile p with
        | .pass s => s
        | .took s' =>
          let q := if (s.pool p).partnerEn then (s.pool p).partner else p
          let rest := (l.filter (fun b => !(b.die == w.die && b.tile == w.tile))).map (fun b =>
            { b with pools := b.pools.filter (fun o => o ≠ p && o ≠ q) })
          State.grantAll s' rest n

/-- An idle tile takes a task (R152–R158). `rivals` are the other tiles that ask in the same die cycle (R154). -/
def execTaskTake (d : Fin 4) (t : Fin 104) (rivals : List (Fin 4 × Fin 104)) (errs : LineErrs) (s : State) : Ans :=
  .next (
    let asks := (((d, t) :: rivals).eraseDups).filter (fun e => s.mayTake e.1 e.2)
    if asks = [] then s else
    let s := s.findErrs errs
    s.grantAll (asks.map (fun e => ⟨e.1, e.2, s.poolOrder e.1 e.2⟩)) asks.length)

/-- Idle time at which a search tier opens, ns (R152). -/
def State.tierAfter (s : State) (n : Nat) : Nat :=
  match n with
  | 2 => s.getF .pkg Reg.PKG.DISP_DELAY_NEAR
  | 3 => s.getF .pkg Reg.PKG.DISP_DELAY_DIE
  | 4 => s.getF .pkg Reg.PKG.DISP_DELAY_PKG
  | _ => 2 * s.getF .pkg Reg.PKG.DISP_DELAY_PKG

/-- A search tier of an idle tile opens, once the idle time has reached its threshold (R152). Idle time runs from the last
take, or from the moment a tile without room has a free slot again (notes/assumptions/46.md). -/
def execSearchTierOpen (d : Fin 4) (t : Fin 104) (n : Fin 6) (s : State) : Ans :=
  .next (
    let x := s.tile d t
    if s.tileActive d t && x.room && 2 ≤ n.val && !x.tiers.contains n.val && decide (x.idleAt + s.tierAfter n ≤ s.elapsed) then
      s.setTile d t { x with tiers := x.tiers ++ [n.val] }
    else s)

/-- A FULL task or a pair has stood eligible at its pool's head for DISP_FULL_WAIT (R158). -/
def execFullHold (p : Fin 4096) (s : State) : Ans :=
  .next (
    let x := s.pool p
    let pair := x.partnerEn && s.headEligible x.partner
    let full := !x.partnerEn && (match headTask (s.poolHead p) with | some w => w.engine = 2 | none => false)
    if x.held || !s.headEligible p || !(pair || full) then s else
    let s := s.setPool p { x with held := true }
    let s := if pair then s.setPool x.partner { s.pool x.partner with held := true } else s
    s.raise (.cdie x.home) Evt.CDIE.FULL_HOLD)

/-! ## Starts and ends -/

/-- A task's kernel runs its first instruction: its kernel is cached and the engine change done (R78, R159). A cached kernel
of another ENGINE faults the task (R150). -/
def execTaskStart (d : Fin 4) (t : Fin 104) (k : Fin 2) (s : State) : Ans :=
  .next (
    let x := s.tile d t
    match x.slot k with
    | none => s
    | some w => match x.cached w with
      | none => s
      | some e =>
        if w.start.isSome then s
        else if e.engine ≠ w.engine then s.kernelFault d t k St.kernelBad
        else
          let u := UnitId.cdie d
          let s := s.setTile d t { x with kcache := { e with users := e.users ++ [k.val] } :: x.kcache.erase e }
          let s := s.engineDone d t
          let s := s.setSlot d t k (some { w with start := some s.elapsed })
          let s := s.addPair u Reg.CDIE.DISP_TAKEN_LO Reg.CDIE.DISP_TAKEN_HI 1
          if (s.pool w.pool).home = d then s
          else s.addPair u Reg.CDIE.DISP_STOLEN_LO Reg.CDIE.DISP_STOLEN_HI 1)

/-- The attempt has reached its TIME_LIMIT (R164). -/
def State.timeUp (s : State) (d : Fin 4) (t : Fin 104) (k : Fin 2) : Bool :=
  match (s.tile d t).slot k with
  | some w => w.timeLimit ≠ 0 && w.held.isNone && (match w.start with
    | some a => decide (a + 1000 * w.timeLimit ≤ s.elapsed)
    | none => false)
  | none => false

/-- An end can reach the task of a slot now. -/
def State.endGood (s : State) (d : Fin 4) (t : Fin 104) (k : Fin 2) : TaskEnd → Bool
  | .tileFailed c => decide (c ≤ 4) && s.tileActive d t
  | .fault c => decide (1 ≤ c ∧ c ≤ 15) && (match (s.tile d t).slot k with
    | some w => w.start.isSome && w.held.isNone
    | none => false)
  | .abort _ => s.kernelRuns d t k
  | .timeout => s.timeUp d t k
  | .exit => s.kernelRuns d t k && ((s.tile d t).mops k).isEmpty && ((s.tile d t).dms k).isEmpty

/-- The order of R163; an exit in the cycle of the time limit comes before the limit. -/
def endRank : TaskEnd → Nat
  | .tileFailed _ => 0 | .fault c => 1 + c | .abort _ => 1000 | .exit => 1001 | .timeout => 1002

/-- The first of some ends by R163. -/
def firstEnd : List TaskEnd → Option TaskEnd
  | [] => none
  | e :: l => match firstEnd l with
    | some f => if endRank f < endRank e then some f else some e
    | none => some e

/-- A task takes the first of the ends that reach it in one tile cycle (R163). -/
def State.endFirst (s : State) (d : Fin 4) (t : Fin 104) (k : Fin 2) (l : List TaskEnd) : State :=
  match firstEnd (l.filter (s.endGood d t k)) with
  | none => s
  | some (.tileFailed c) => s.failTile d t c none
  | some (.fault c) => s.endTask d t k 1 c
  | some (.abort code) => s.endTask d t k 4 code.toNat
  | some .timeout => s.endTask d t k 3 0
  | some .exit => s.endTask d t k 0 0

/-- A kernel exits, its operations having completed (R160). `same` are other ends of the same tile cycle (R163); `lines`, here and
below, what the write of the completion record finds (R191). -/
def execTaskExit (d : Fin 4) (t : Fin 104) (k : Fin 2) (same : List TaskEnd) (lines : LineErrs) (s : State) : Ans :=
  .next ((s.findErrs lines).endFirst d t k (.exit :: same))

/-- A kernel calls the ABORT service with a code (R161). -/
def execTaskAbort (d : Fin 4) (t : Fin 104) (k : Fin 2) (code : BitVec 8) (same : List TaskEnd) (lines : LineErrs) (s : State) : Ans :=
  .next ((s.findErrs lines).endFirst d t k (.abort code :: same))

/-- An attempt exceeds its TIME_LIMIT (R164). -/
def execTaskTimeout (d : Fin 4) (t : Fin 104) (k : Fin 2) (same : List TaskEnd) (lines : LineErrs) (s : State) : Ans :=
  .next ((s.findErrs lines).endFirst d t k (.timeout :: same))

/-- The partner of a task that ended with a status other than DONE is ended (R167): a task whose attempt waited for it takes
its own status, and this one PARTNER_FAULT. -/
def execPartnerEnd (d : Fin 4) (t : Fin 104) (k : Fin 2) (lines : LineErrs) (s : State) : Ans :=
  .next (
    let s := s.findErrs lines
    match (s.tile d t).slot k with
    | some w => match w.pair, w.fate with
      | true, some st =>
        let slot := s.slotOf d t
        let e : TaskStop := ⟨6, st, s.drove⟩
        let y := (s.partnerOf d t k).bind (fun y => y.held.map (fun h => (y, h)))
        let s := s.clearSlot d t k
        let s := match y with
          | some (y, h) => (s.clearSlot d t (otherSlot k)).finishRan d t (otherSlot k) slot y h
          | none => s
        s.finishRan d t k slot w e
      | _, _ => s
    | none => s)

/-- A kernel calls the POST service (R147). -/
def execKernelPost (d : Fin 4) (t : Fin 104) (k : Fin 2) (p : Fin 4096) (count : Nat) (s : State) : Ans :=
  .next (
    if !s.kernelRuns d t k then s else
    match (s.tile d t).slot k with
    | some w => (s.setSlot d t k (some { w with post := some (p.val, count) })).postGo d t k
    | none => s)

end Sys2Proof.Machine
end

