-- ==== Sys2Proof/Machine/Power.lean ====
section
/-! DEFINITION. Power input, caps, budgets, droop, slew and rails (R385–R408). A timer row is the controller's own statement
that its time has come. -/

namespace Sys2Proof.Machine

open Sys2Proof

/-! ## Input samples (R388, R389, R394, R396) -/

/-- OC_ALERT_N follows the current and the limiter (R388). -/
def State.ocStep (s : State) (i : Nat) : State :=
  let p := s.pw
  let hi := if 8000 < i then p.ocHigh + 1 else 0
  let lo := if i < 7500 then p.ocLow + 1 else 0
  let s := s.setPw { p with ocHigh := hi, ocLow := lo }
  if !p.ocAlert && (3 ≤ hi || p.peakOn) then
    (s.setPw { s.pw with ocAlert := true }).raise .hctl Evt.HCTL.OC_ALERT
  else if p.ocAlert && 100 ≤ lo && !p.peakOn then s.setPw { s.pw with ocAlert := false } else s

/-- The peak limiter follows the 2 ms average (R394). How far it lowers the ceilings is a free value. -/
def State.peakStep (s : State) : State :=
  let p := s.pw
  let two := p.samples.take 2000
  if !p.peakOn then
    if overWatts p.samples 2000 2850 then
      let s' := s.tickFree.setPw { p with peakOn := true, peakLow := 0, peakCeil := 400 + 25 * (Config.freeNat s.freeCtr % 84) }
      (((s'.bump .hctl Reg.HCTL.PEAK_LIMIT_COUNT).raise .hctl Evt.HCTL.PEAK_LIMIT).ceilsFrom s)
    else s
  else
    let low := if two.sum < sampleSum 2700 two.length then p.peakLow + 1 else 0
    if 2000 ≤ low then (s.setPw { p with peakOn := false, peakLow := 0, peakCeil := 2500 }).ceilsFrom s
    else s.setPw { p with peakLow := low }

/-- Every ceiling of the clusters with busy tiles is 400 MHz: a cluster without has none to lower (R396, R403). -/
def State.all400 (s : State) : Bool :=
  (List.finRange 4).all (fun d => (s.islands d).all (fun t =>
    (s.clusterTasks d (t.val / 8)).isEmpty || (s.islandCeil d t true).1 == 400))

/-- CAP_HOLD is entered, 1 ms after every ceiling has reached 400 MHz with the 1 s average above C, and left, with the 1 ms average 5 % below C
for 1 ms (R396). -/
def State.holdStep (s : State) : State :=
  let u := UnitId.hctl
  let c := s.getF u Reg.HCTL.CAP_EFF_WATTS
  let ms := s.pw.samples.take 1000
  let n := if s.all400 then s.pw.floorFor + 1 else 0
  let low := if 100 * ms.sum ≤ 95 * sampleSum c ms.length then s.pw.holdLow + 1 else 0
  let s := s.setPw { s.pw with floorFor := n, holdLow := low }
  if !s.isSet u Reg.HCTL.CAP_EFF_HOLD then
    if 1000 ≤ n && overWatts s.pw.samples 1000000 c then
      let s := s.setF u Reg.HCTL.CAP_EFF_HOLD 1
      let s := s.setF u Reg.HCTL.ALERT_STAT_CAP_HOLD 1
      (((s.setPw { s.pw with holdLow := 0 }).bump u Reg.HCTL.CAP_HOLD_COUNT).raise u Evt.HCTL.CAP_HOLD).setFcast 0
    else s
  else if 1000 ≤ low then
    let s := s.setF u Reg.HCTL.CAP_EFF_HOLD 0
    (s.setPw { s.pw with quietAt := s.elapsed }).setF u Reg.HCTL.ALERT_STAT_CAP_HOLD 0
  else s

/-- Input voltage in 10 mV and current in 10 mA are measured, every microsecond. -/
def execPowerSample (v a : BitVec 16) (s : State) : Ans :=
  .next (
    let u := UnitId.hctl
    let s := (s.setF u Reg.HCTL.VIN_VALUE v.toNat).setF u Reg.HCTL.IIN_VALUE a.toNat
    let l := ((v.toNat * a.toNat) :: s.pw.samples).take 1000000
    let s := s.setPw { s.pw with samples := l }
    let ms := avgWatts l 1000
    let two := avgWatts l 2000
    let s := s.moveLevel pwrLevel (min 4095 ms)
    let s := s.setF u Reg.HCTL.PWR_1S_WATTS (min 4095 (avgWatts l 1000000))
    let s := s.setF u Reg.HCTL.PWR_2MS_PEAK_WATTS (max (s.getF u Reg.HCTL.PWR_2MS_PEAK_WATTS) (min 4095 two))
    (s.peakStep.ocStep a.toNat).holdStep)

/-! ## Sharing the cap (R402, R403) -/

/-- A cluster with busy tiles in the sharing: die, cluster, learned values, present ceiling. -/
structure Share where
  die : Fin 4
  clus : Nat
  pwrs : List Nat
  scales : List Nat
  mhz : Nat
  deriving DecidableEq, Repr

def Share.watts (x : Share) : Nat := Config.clusterPower x.pwrs x.mhz
/-- What one step of 25 MHz adds in power and in throughput. -/
def Share.cost (x : Share) : Nat := Config.clusterPower x.pwrs (x.mhz + 25) - x.watts
def Share.gain (x : Share) : Nat := Config.clusterRate x.scales (x.mhz + 25) - Config.clusterRate x.scales x.mhz

/-- The cluster the next step goes to: the most throughput per added watt, or with sharing off the lowest ceiling; ties
to the lowest die and cluster. -/
def nextShare (learn : Bool) (l : List Share) : Option Share :=
  (l.filter (fun x => x.mhz < 2500)).foldl (fun b x => match b with
    | none => some x
    | some y => if learn then (if y.gain * x.cost < x.gain * y.cost then some x else some y)
      else if x.mhz < y.mhz then some x else some y) none

/-- Steps of 25 MHz while the next one fits the budget in mW. -/
def shareSteps (learn : Bool) (budget : Nat) (l : List Share) : Nat → List Share
  | 0 => l
  | n + 1 => match nextShare learn l with
    | none => l
    | some x =>
      if budget < (l.map Share.watts).sum + x.cost then l
      else shareSteps learn budget (l.map (fun y => if y.die = x.die ∧ y.clus = x.clus then { y with mhz := y.mhz + 25 } else y)) n

/-- The shares are formed (R403): the compute budget is what R394 allows less the measured power `others`, in W, of the HBM3E stacks, the hub
dies, the optical engines and the remainder; `mean0` … `mean3`: each die's present mean PWR in mW. -/
def execShareRecompute (others mean0 mean1 mean2 mean3 : Nat) (s : State) : Ans :=
  .next (
    let s := s.setPw { s.pw with meanPwr := [(0, mean0), (1, mean1), (2, mean2), (3, mean3)] }
    let budget := s.capLimit others - 1000 * others
    let mean := fun (d : Fin 4) => [mean0, mean1, mean2, mean3].getD d 0
    let busy := (List.finRange 4).flatMap (fun d => (List.range 13).filterMap (fun c =>
      let ts := s.clusterTasks d c
      if ts.isEmpty then none else
      let lv := ts.map (fun w => s.learned d w.phaseTag (mean d))
      some (⟨d, c, lv.map Prod.fst, lv.map Prod.snd, 400⟩ : Share)))
    let l := shareSteps (s.isSet .hctl Reg.HCTL.SHARE_CFG_ENABLE) budget busy 4368
    let b := (l.filter (fun x => x.mhz < 2500)).foldl (fun (m : Map Nat) x => m.put (clusKey x.die x.clus) x.mhz) []
    let s' := s.setPw { s.pw with budget := b }
    let s' := (List.finRange 4).foldl (fun (s : State) (d : Fin 4) =>
      let w := min 4095 (((l.filter (fun x => x.die = d)).map Share.watts).sum / 1000)
      (s.setF .hctl (Reg.HCTL.DIE_BUDGET_WATTS d) w).setF (.cdie d) Reg.CDIE.PWR_BUDGET_WATTS w) s'
    s'.ceilsFrom s)

/-- One eighth of the difference; how a fraction is rounded is a free value. -/
def State.eighth (s : State) (old new : Nat) : Nat :=
  let up := Config.freeNat s.freeCtr % 2
  if old ≤ new then old + ((new - old) / 8 + (if (new - old) % 8 = 0 then 0 else up))
  else old - ((old - new) / 8 + (if (old - new) % 8 = 0 then 0 else up))

/-- The learned values of a die move (R402). `est`: the die's estimated power, W; `mean`: its present mean PWR, mW; `obs`:
phase, PWR in mW and SCALE in percent as estimated for each phase that ran. -/
def execPhaseLearn (d : Fin 4) (est mean : Nat) (obs : List PhaseObs) (s : State) : Ans :=
  .next (
    let s := (s.setF (.cdie d) Reg.CDIE.PWR_EST_WATTS (min 4095 est)).setPw { s.pw with meanPwr := s.pw.meanPwr.put d mean }
    obs.foldl (fun s (o : PhaseObs) =>
      let k := 256 * d.val + o.1.toNat
      let old := s.learned d o.1.toNat mean
      let new := (s.eighth old.1 o.2.1.toNat, s.eighth old.2 (min 100 o.2.2.toNat))
      s.tickFree.setPw { s.pw with phases := s.pw.phases.put k new }) s)

/-- PHASE_CTL.FORGET is written. -/
def execPhaseForget (s : State) : Ans := .next (s.setPw { s.pw with phases := [] })

/-! ## Droop (R399, R401) -/

/-- The DROOP ceiling of an island changes. -/
def State.setDroop (s : State) (d : Fin 4) (t : Fin 104) (mhz : Nat) : State :=
  (s.setTile d t { s.tile d t with ceilDroop := mhz }).ceilsFrom s

/-- Stretched cycles have exceeded 1 % of the island's cycles over 100 µs. -/
def State.droopFall (s : State) (d : Fin 4) (t : Fin 104) : State :=
  (s.setDroop d t (max 400 ((s.tile d t).ceilDroop - 25))).raise (.cdie d) Evt.CDIE.DROOP_CEIL

/-- An island's supply falls below its threshold: its cycles are stretched. `over`: stretched cycles exceed 1 % over the
last 100 µs. -/
def execDroopDetect (d : Fin 4) (t : Fin 104) (above : Bool) (s : State) : Ans :=
  .next (
    let x := s.tile d t
    if !s.clockRuns d t || x.stretching then s else
    let s := s.setTile d t { x with stretching := true, settling := false }
    let s := (s.bump (.tile d t) Reg.TILE.STRETCH_COUNT).bump (.cdie d) Reg.CDIE.STRETCH_EVT_COUNT
    let s := if s.getF (.tile d t) Reg.TILE.CLK_MHZ = (s.islandCeil d t true).1 then s else s.deferChange d t
    if above then s.droopFall d t else s)

/-- A stretch ends; its 64 further cycles begin. -/
def execDroopStretchEnd (d : Fin 4) (t : Fin 104) (above : Bool) (s : State) : Ans :=
  .next (
    let x := s.tile d t
    if !x.stretching then s else
    let s := if above then s.droopFall d t else s
    s.setTile d t { s.tile d t with stretching := false, settling := true })

/-- 10 ms have passed with stretched cycles below 0.1 %. -/
def execDroopCeilRise (d : Fin 4) (t : Fin 104) (s : State) : Ans :=
  .next (if (s.tile d t).ceilDroop < 2500 then s.setDroop d t (min 2500 ((s.tile d t).ceilDroop + 25)) else s)

/-- 64 cycles have passed since a stretch ended: a deferred change may apply. -/
def execFreqDeferEnd (d : Fin 4) (t : Fin 104) (s : State) : Ans :=
  .next (
    let x := s.tile d t
    if x.settling && !x.stretching then s.setTile d t { x with settling := false, deferred := false } else s)

/-! ## Slew and rails (R391, R398) -/

/-- 100 ns of a frequency change: a fall of at most 100 MHz, or a rise as far as the rail supports. -/
def execFreqSlewStep (d : Fin 4) (t : Fin 104) (s : State) : Ans :=
  .next (
    let u := UnitId.tile d t
    let x := s.tile d t
    let goal := (s.islandCeil d t true).1
    let now := s.getF u Reg.TILE.CLK_MHZ
    if !s.tileActive d t || x.deferred then s
    else if goal ≤ now then s.setF u Reg.TILE.CLK_MHZ (max goal (now - 100))
    else
      let rail := s.rail d (t / 8)
      let ups := [now + 25, now + 50, now + 75, now + 100].takeWhile
        (fun f => decide (f ≤ goal) && decide (s.need d t f ≤ rail))
      s.setF u Reg.TILE.CLK_MHZ (ups.getLast?.getD now))

/-- 1 µs of a rail's movement, 10 mV. -/
def execRailRampStep (d : Fin 4) (c : Fin 13) (s : State) : Ans :=
  .next (
    let k := clusKey d c
    let rail := s.rail d c
    let need := min 360 (max 200 (s.railNeed d c))
    let v := if rail < need then min need (rail + 4)
      else if need < rail && s.pw.railFall.getD k false then max need (rail - 4) else rail
    let fall := decide (need < v) && s.pw.railFall.getD k false
    let s := s.setPw { s.pw with rails := s.pw.rails.putD k v 300, railFall := s.pw.railFall.putD k fall false }
    s.setF (.cdie d) (Reg.CDIE.CLUS_CEIL_RAIL_MV c) (v * 5 / 2))

/-- The cluster's highest ceiling has stayed below the level of the present voltage for 100 µs. -/
def execRailFallHoldExpire (d : Fin 4) (c : Fin 13) (s : State) : Ans :=
  .next (
    let k := clusKey d c
    if s.railNeed d c < s.rail d c then s.setPw { s.pw with railFall := s.pw.railFall.putD k true false } else s)

end Sys2Proof.Machine
end

