-- ==== Sys2Proof/Machine/Slots.lean ====
section
/-! DEFINITION. Bay reduction slots: ARM, RELEASE and contributions (R132–R135). -/

namespace Sys2Proof.Machine

open Sys2Proof

/-- The word at 0x68 of a slot is written, with CMD ARM (R132). -/
def execSlotArm (d : Fin 4) (k : Nat) (w : Word) (s : State) : Ans :=
  .next (if k < s.slotCount d then s.slotWord d k (setBits w 1 0 1) else s)

/-- The word at 0x68 of a slot is written, with CMD RELEASE (R132). -/
def execSlotRelease (d : Fin 4) (k : Nat) (w : Word) (s : State) : Ans :=
  .next (if k < s.slotCount d then s.slotWord d k (setBits w 1 0 2) else s)

/-- A 4-byte write to ANCHOR_IN (R133, R135). -/
def execSlotAnchorContrib (d : Fin 4) (k : Nat) (w : Word) (s : State) : Ans :=
  .next (if k < s.slotCount d then s.slotContrib d k 0x60 (leBytes 4 w.toNat) else s)

/-- A write of bytes from offset 0 of a slot: a record or an FP32 value (R133–R135). -/
def execSlotRecordContrib (d : Fin 4) (k : Nat) (data : List Byte) (s : State) : Ans :=
  .next (if k < s.slotCount d ∧ data ≠ [] then s.slotContrib d k 0 data else s)

end Sys2Proof.Machine
end

