-- ==== Sys2Proof/Machine/Sync.lean ====
section
/-! DEFINITION. The sync channel (R340–R342), operations on sync objects (R347–R349), herd rounds (R358–R365), the drove
clock (R368–R375), herd pacing (R379–R382). A timer row is the engine's own statement that its time has come. -/

namespace Sys2Proof.Machine

open Sys2Proof

/-! ## The sync channel -/

/-- A SYNC ACK arrives. -/
def execSyncAck (p : Fin 16) (h : SHdr) (s : State) : Ans := .next (if s.linkActive p then s.syncAcked p h else s)

/-- LACK has not advanced for 500 ns. -/
def execSyncResendTimer (p : Fin 16) (s : State) : Ans := .next (if s.linkActive p then s.resendSync p else s)

/-- An acceptance has gone 100 ns unacknowledged. -/
def execSyncAckTimer (p : Fin 16) (s : State) : Ans :=
  .next (if s.linkActive p && (s.link p).sDue && (s.link p).syncQ.isEmpty then s.syncFlit p 0 false .ack else s)

/-! ## The drove clock -/

/-- The clock steps forward (R372): counted and raised; offsets taken before it no longer hold; a pending AT commit whose T
it passes is late by it (R377). -/
def State.stepDrove (s : State) (n : Nat) : State :=
  if n = 0 then s else
  let next := s.drove + n
  let mark := fun (c : Commit) =>
    if !c.now && s.drove < c.at_ && c.at_ < next then { c with cause := 3, reached := some next } else c
  let s := { s with drove := next, stepped := s.stepped + n, commits := s.commits.map (fun (e : Nat × Commit) => (e.1, mark e.2)),
                    links := s.links.map (fun (e : Nat × LinkSt) => (e.1, { e.2 with offs := [], inBand := 0 })) }
  (s.bump (.sync 0) Reg.SYNC.DROVE_STEPS_COUNT).raise (.sync 0) Evt.SYNC.DROVE_STEP

/-- Half an integer; how an odd one is rounded is a free value. -/
def State.half (s : State) (x : Int) : Int × State :=
  (x / 2 + (if x % 2 = 0 then 0 else ((Config.freeNat s.freeCtr % 2 : Nat) : Int)), s.tickFree)

/-- A value put into a rising list. -/
def insertRising (x : Int) : List Int → List Int
  | [] => [x]
  | y :: l => if x ≤ y then x :: y :: l else y :: insertRising x l

/-- The median of offsets; of an even number, between the middle two a free value decides. -/
def State.median (s : State) (l : List Int) : Int × State :=
  let r := l.foldl (fun r x => insertRising x r) []
  let lo := r.getD ((r.length - 1) / 2) 0
  let hi := r.getD (r.length / 2) 0
  if lo = hi then (lo, s) else (lo + ((Config.freeNat s.freeCtr : Int) % (hi - lo + 1)), s.tickFree)

/-- A TIME_REQ arrives and is answered. -/
def execTimeReq (p : Fin 16) (h : SHdr) (t1 : Nat) (s : State) : Ans :=
  .next (if s.linkActive p then (s.syncAcked p h).sendSync p (.timeRsp t1 s.drove s.drove) else s)

/-- The port is the one the package follows. -/
def State.follows (s : State) (p : Fin 16) : Bool :=
  s.admitted p && s.clk.master.isSome && !s.isSet (.sync 0) Reg.SYNC.DROVE_STAT_MASTER &&
    s.getF (.sync 0) Reg.SYNC.DROVE_STAT_PARENT == p.val

/-- The clock is corrected by the median offset to the parent (R372); rate changes are timing. -/
def State.correct (s : State) (p : Fin 16) (med : Int) : State :=
  let s := s.setF (.sync 0) Reg.SYNC.DROVE_OFFSET_NS (toTwos 32 med)
  let s := s.setDrove (if 8 ≤ (s.link p).inBand then 2 else 1)
  if 1000 < med then
    let s := s.stepDrove med.toNat
    let s := { s with clk := { s.clk with lead := 0 } }
    s.setDrove 1
  else { s with clk := { s.clk with lead := if med < -1000 then (-med).toNat else 0 } }

/-- A TIME_RSP arrives: the offset to the partner and the link's delay are logged, and a follower corrects its clock by its parent's. -/
def execTimeRsp (p : Fin 16) (h : SHdr) (t1 t2 t3 : Nat) (s : State) : Ans :=
  .next (
    if !s.linkActive p then s else
    let s := s.syncAcked p h
    let (off, s) := s.half (((t2 : Int) - t1) - ((s.drove : Int) - t3))
    let (delay, s) := s.half (((s.drove : Int) - t1) - ((t3 : Int) - t2))
    let l := s.link p
    let offs := (off :: l.offs).take 8
    let s := s.setLink p { l with offs := offs, delay := delay, inBand := if off.natAbs ≤ 5 then l.inBand + 1 else 0 }
    if s.follows p then
      let (med, s) := s.median offs
      s.correct p med
    else s)

/-- Every 10 µs a link in QUARANTINED, HALF or ADMITTED sends a TIME_REQ. -/
def execTimeExchangeTick (p : Fin 16) (s : State) : Ans :=
  .next (if s.linkActive p && decide (2 ≤ s.admitState p) then s.sendSync p (.timeReq s.drove) else s)

/-- The leads a package passes on (R372): the largest of its own and those of the ports that follow it. -/
def State.leadOut (s : State) : Nat :=
  let depth := s.getF (.sync 0) Reg.SYNC.DROVE_STAT_DEPTH
  (s.freshAnns.filter (fun a => some a.2.serial = s.clk.master && a.2.depth = depth + 1)).foldl
    (fun m a => max m a.2.lead) s.clk.lead

/-- MASTER is sent on every ADMITTED port. Without a master DEPTH is 63 and the serial a free value. -/
def execMasterAnnounce (s : State) : Ans :=
  .next (
    let locked := s.getF (.sync 0) Reg.SYNC.DROVE_STAT_STATE == 2
    let depth := s.getF (.sync 0) Reg.SYNC.DROVE_STAT_DEPTH
    let own := s.isSet (.sync 0) Reg.SYNC.DROVE_STAT_MASTER
    let parent : Fin 16 := ⟨s.getF (.sync 0) Reg.SYNC.DROVE_STAT_PARENT % 16, by omega⟩
    let heard := match (s.link parent).ann with
      | some a => a.m.mseq
      | none => 0
    let s := if own then { s with clk := { s.clk with mseq := (s.clk.mseq + 1) % 2 ^ 32 } } else s
    let (m, s) : MasterMsg × State := match s.clk.master with
      | some ser => (⟨ser, if own then s.clk.mseq else heard, depth, locked, s.leadOut⟩, s)
      | none => (⟨Config.freeNat s.freeCtr, heard, 63, locked, s.leadOut⟩, s.tickFree)
    (allPorts.filter (fun p => s.admitted p)).foldl (fun s p => s.sendSync p (.master m)) s)

/-- A MASTER announcement arrives (R370); a master that receives a lead steps forward (R372). -/
def execMasterMsg (p : Fin 16) (h : SHdr) (m : MasterMsg) (s : State) : Ans :=
  .next (
    let (s, ok) := s.syncTake p h
    if !ok then s else
    let l := s.link p
    let rises := fun (a : Ann) => a.m.serial != m.serial || decide (0 < (m.mseq + 2 ^ 32 - a.m.mseq) % 2 ^ 32 ∧ (m.mseq + 2 ^ 32 - a.m.mseq) % 2 ^ 32 < 2 ^ 31)
    let ann : Ann := match l.ann with
      | some a => if rises a then ⟨m, false⟩ else ⟨m, a.stale⟩
      | none => ⟨m, false⟩
    let s := s.setLink p { l with ann := some ann }
    let s := if m.locked then { s with clk := { s.clk with quiet := false } } else s
    let s := s.elect
    if s.isSet (.sync 0) Reg.SYNC.DROVE_STAT_MASTER && s.clk.master == some m.serial && m.depth == 1 && decide (0 < m.lead) then
      s.stepDrove (m.lead + 1000)
    else s)

/-- An announcement's MSEQ has not risen for 1 ms. -/
def execMasterStale (p : Fin 16) (s : State) : Ans :=
  .next (match (s.link p).ann with
    | some a => (s.setLink p { s.link p with ann := some { a with stale := true } }).elect
    | none => s)

/-- No LOCKED announcement has been heard for 1 ms (R370 rule 2). -/
def execMasterEligible (s : State) : Ans := .next (State.elect { s with clk := { s.clk with quiet := true } })

/-! ## Herd rounds -/

/-- A PARTIAL arrives on a port. -/
def execPartialMsg (p : Fin 16) (h : SHdr) (m : PartialMsg) (s : State) : Ans :=
  .next (
    let (s, ok) := s.syncTake p h
    if ok then s.takePartial (some p) m else s)

/-- The limit of one round, ns (R346). -/
def Obj.roundLimit (b : Obj) : Nat := 1000 * (if b.timeoutUs = 0 then 1000 else b.timeoutUs)

/-- A round has waited longer than TIMEOUT_US (R365). -/
def execRoundTimeout (o : Fin 1024) (s : State) : Ans :=
  .next (
    let b := s.obj o
    let act := getBits (s.planRound b.plan b.round) 2 0
    if b.state ≠ 2 ∨ 16 ≤ b.round ∨ !(act = 1 ∨ act = 3 ∨ act = 5) ∨ s.elapsed ≤ b.roundAt + b.roundLimit then s else
    let y := UnitId.sync (objHub o)
    let s := (s.bump y Reg.SYNC.ROUND_LOST_COUNT).raise y Evt.SYNC.ROUND_LOST
    let b := { b with lost := min 65535 (b.lost + 1), status := b.status ||| ObjSt.lost,
                      doneRounds := b.doneRounds ++ [b.round] }
    if act = 5 then ((s.setObj o b).endRounds o).rounds o
    else (s.setObj o { b.nextRound with roundAt := s.elapsed }).rounds o)

/-- A partial has stayed unacknowledged on its link for 2 µs (R363). -/
def execPartialDetour (p : Fin 16) (lseq : BitVec 8) (s : State) : Ans :=
  .next (match (s.link p).sOut.find? (fun m => m.lseq == lseq.toNat) with
    | some ⟨_, .herd m⟩ => s.detour m
    | _ => s)

/-! ## Herd pacing -/

/-- The herd pace registers follow the origin table; a change raises PACE_CHANGE and moves the PACE ceilings (R381, R382). -/
def State.setPace (s : State) (l : List PaceEntry) : State :=
  let y := UnitId.sync 0
  let old := s
  let best := l.foldl (fun (b : Nat × Nat) e => if e.mhz < b.1 then (e.mhz, e.origin) else b) (2500, 0)
  let s := { s with clk := { s.clk with pace := l } }
  let s := s.setF y Reg.SYNC.PACE_STAT_HERD_MHZ best.1
  let s := s.setF y Reg.SYNC.PACE_STAT_ORIGINS l.length
  let s := s.setPair y Reg.SYNC.PACE_ORIGIN_LO Reg.SYNC.PACE_ORIGIN_HI best.2
  if best.1 = old.getF y Reg.SYNC.PACE_STAT_HERD_MHZ then s else (s.raise y Evt.SYNC.PACE_CHANGE).ceilsFrom old

/-- The origin table after a post, if the post changes it (R381). -/
def paceEnter (l : List PaceEntry) (m : PaceMsg) : Option (List PaceEntry) :=
  match l.find? (fun e => e.origin = m.origin) with
  | some e =>
    let ahead := (m.oseq + 65536 - e.oseq % 65536) % 65536
    if 2500 ≤ m.mhz then some (l.filter (fun e => e.origin ≠ m.origin))
    else if ahead = 0 ∨ 32768 ≤ ahead then none
    else some (l.map (fun e => if e.origin = m.origin then ⟨m.origin, m.oseq, m.mhz⟩ else e))
  | none =>
    if 2500 ≤ m.mhz then none
    else if l.length < 8 then some (l ++ [⟨m.origin, m.oseq, m.mhz⟩])
    else
      let top := l.foldl (fun t e => max t e.mhz) 0
      match l.reverse.find? (fun e => e.mhz = top) with
      | some e => if m.mhz < top then some (l.erase e ++ [⟨m.origin, m.oseq, m.mhz⟩]) else none
      | none => none

/-- A PACE message arrives. -/
def execPace (p : Fin 16) (h : SHdr) (m : PaceMsg) (s : State) : Ans :=
  .next (
    let (s, ok) := s.syncTake p h
    if !ok || s.jobTag = 0 || m.tag != s.jobTag then s else
    match paceEnter s.clk.pace m with
    | none => s
    | some l => (allPorts.filter (fun q => s.admitted q && q != p)).foldl (fun s q => s.sendSync q (.pace m)) (s.setPace l))

/-- The own pace is posted on every ADMITTED port (R380). -/
def State.postPace (s : State) : State :=
  if !s.isSet (.sync 0) Reg.SYNC.PACE_CFG_POST || s.jobTag = 0 then s else
  let n := (s.clk.oseq + 1) % 65536
  let m : PaceMsg := ⟨s.serial, n, s.ownPace, s.jobTag⟩
  (allPorts.filter (fun p => s.admitted p)).foldl (fun s p => s.sendSync p (.pace m)) { s with clk := { s.clk with oseq := n } }

/-- The own pace has changed. -/
def execPacePost (s : State) : Ans := .next s.postPace

/-- Every 100 µs while the own pace is below 2,500 MHz. -/
def execPaceRepost (s : State) : Ans := .next (if s.ownPace < 2500 then s.postPace else s)

/-- An origin has not refreshed its entry for 300 µs. -/
def execPaceEntryExpire (origin : BitVec 64) (s : State) : Ans :=
  .next (if s.clk.pace.any (fun e => e.origin = origin.toNat) then
      s.setPace (s.clk.pace.filter (fun e => e.origin ≠ origin.toNat))
    else s)

/-! ## Operations on objects (R345, R347, R348) -/

/-- The object a hub's page has selected, where it is homed there (R383). -/
def State.selObj (s : State) (h : Fin 2) : Option Nat :=
  let o := s.getF (.sync h) Reg.SYNC.OBJ_SEL_OBJ
  if objHub o = h && s.pageOpen (.sync h) then some o else none

/-- A host's OBJ_CMD with ARM; `errs`, what the read of the descriptor finds. -/
def execObjArm (h : Fin 2) (errs : LineErrs) (s : State) : Ans :=
  .next (match s.selObj h with
    | some o => (s.findErrs errs).armObj o
    | none => s)

/-- A host's OBJ_CMD with DISARM. -/
def execObjDisarm (h : Fin 2) (s : State) : Ans :=
  .next (match s.selObj h with
    | some o => s.disarm o
    | none => s)

/-- A kernel of the slot runs and may call a service. -/
def State.serves (s : State) (d t k : Nat) : Bool :=
  if h : d < 4 ∧ t < 104 ∧ k < 2 then s.kernelRuns ⟨d, h.1⟩ ⟨t, h.2.1⟩ ⟨k, h.2.2⟩ else false

/-- An operation from a source: the host's acts on the object its page selects, a kernel's service returns OK or
BAD_MODE. -/
def State.objOp (s : State) (src : SyncSrc) (o : Nat) (f : State → State × Bool) : State :=
  match src with
  | .host => if s.selObj (objHub o) = some o then (f s).1 else s
  | .task d t k => if s.serves d t k then
      let (s, ok) := f s
      s.emit (.service d t k (if ok then 0 else St.badMode) [])
    else s
  | _ => (f s).1

/-- SIGNAL n. -/
def execObjSignal (src : SyncSrc) (o n : BitVec 16) (s : State) : Ans :=
  .next (s.objOp src o.toNat (fun s => s.signal o.toNat n.toNat src 0 0))

/-- SET. -/
def execObjSet (src : SyncSrc) (o : BitVec 16) (s : State) : Ans :=
  .next (s.objOp src o.toNat (fun s => s.setEvent o.toNat src))

/-- CLEAR. -/
def execObjClear (src : SyncSrc) (o : BitVec 16) (s : State) : Ans :=
  .next (s.objOp src o.toNat (fun s => s.clearObj o.toNat src))

/-- A kernel's CONTRIB. -/
def execSyncContrib (d : Fin 4) (t : Fin 104) (k : Fin 2) (o : BitVec 16) (data : List Byte) (s : State) : Ans :=
  .next (s.objOp (.task d t k) o.toNat (fun s => s.contrib o.toNat (.task d t k) data))

/-- A kernel's WAIT (R349): it returns at once, or waits until the object allows it. -/
def execSyncWait (d : Fin 4) (t : Fin 104) (k : Fin 2) (o : BitVec 16) (s : State) : Ans :=
  .next (
    let b := s.obj o.toNat
    if !s.kernelRuns d t k then s
    else if b.state = 0 then s.emit (.service d t k St.badMode [])
    else if !s.srcAllowed b (.task d t k) then (s.syncRefuse (objHub o.toNat)).emit (.service d t k St.badMode [])
    else if b.kind = 1 ∧ 1 ≤ b.count then
      (s.setObj o.toNat { b with count := b.count - 1 }).emit (.service d t k 0 [])
    else if b.kind = 3 ∧ b.isSet then s.emit (.service d t k 0 [])
    else s.setObj o.toNat { b with waiters := b.waiters ++ [⟨d, t, k, b.gen⟩] })

/-- What READ returns of an object: its present fields in the order of R348's table; then, of a barrier or reduction, those of the last
result record (R354). -/
def Obj.readFields (b : Obj) : List Nat :=
  if b.kind = 1 then [b.count, b.state, b.status, b.fenced]
  else if b.kind = 2 then [b.count, b.gen, b.status, b.fenced, b.skew] ++ b.result
  else if b.kind = 3 then [b.count, if b.isSet then 1 else 0]
  else [b.phase, b.gen, b.status, b.fenced] ++ b.result

/-- A kernel's READ. -/
def execSyncRead (d : Fin 4) (t : Fin 104) (k : Fin 2) (o : BitVec 16) (s : State) : Ans :=
  .next (
    let b := s.obj o.toNat
    if !s.kernelRuns d t k then s
    else if b.state ≠ 0 ∧ !s.srcAllowed b (.task d t k) then
      (s.syncRefuse (objHub o.toNat)).emit (.service d t k St.badMode [])
    else s.emit (.objRead d t k b.readFields (if b.kind = 4 then (b.record b.phase b.gen b.skew s.drove).take 96 else [])))

end Sys2Proof.Machine
end

