-- ==== Sys2Proof/Machine/Dispatch.lean ====
section
/-! DEFINITION. One arm per row of the opcode table: the command's effect on everything but the queue. -/

namespace Sys2Proof.Machine

open Sys2Proof

def exec (i : Instr) (s : State) : Host.Outcome State Fault Refusal :=
  match i with
  | .registerWrite page off width w => Sys2Proof.Machine.execRegisterWrite page off width w s
  | .loRegisterRead page off width => Sys2Proof.Machine.execLoRegisterRead page off width s
  | .rcRegisterRead page off width same => Sys2Proof.Machine.execRcRegisterRead page off width same s
  | .summaryPropagate u => Sys2Proof.Machine.execSummaryPropagate u s
  | .dieLinkOut l replays stuck => Sys2Proof.Machine.execDieLinkOut l replays stuck s
  | .fenceCmd => Sys2Proof.Machine.execFenceCmd s
  | .evtPendClear u w raised => Sys2Proof.Machine.execEvtPendClear u w raised s
  | .evtMaskWrite u w => Sys2Proof.Machine.execEvtMaskWrite u w s
  | .evtForce u w => Sys2Proof.Machine.execEvtForce u w s
  | .watermarkWrite pwr hi v => Sys2Proof.Machine.execWatermarkWrite pwr hi v s
  | .tileFailure d t cause own lines => Sys2Proof.Machine.execTileFailure d t cause own lines s
  | .tileWatchdogExpire d t lines => Sys2Proof.Machine.execTileWatchdogExpire d t lines s
  | .tileControllerParity d t lines => Sys2Proof.Machine.execTileControllerParity d t lines s
  | .tileLost d => Sys2Proof.Machine.execTileLost d s
  | .spareSelftestDone d pass => Sys2Proof.Machine.execSpareSelftestDone d pass s
  | .tileSpared d => Sys2Proof.Machine.execTileSpared d s
  | .failureFuseBlow d t => Sys2Proof.Machine.execFailureFuseBlow d t s
  | .lsRowRetest d t row pass lines => Sys2Proof.Machine.execLsRowRetest d t row pass lines s
  | .kernelLoadDone d t k errs => Sys2Proof.Machine.execKernelLoadDone d t k errs s
  | .mopIssue d t k addr errs lines => Sys2Proof.Machine.execMopIssue d t k addr errs lines s
  | .mopIssueResume d t k errs lines => Sys2Proof.Machine.execMopIssueResume d t k errs lines s
  | .mopComplete d t k errs residue lines => Sys2Proof.Machine.execMopComplete d t k errs residue lines s
  | .vectorInstruction d t k op errs lines => Sys2Proof.Machine.execVectorInstruction d t k op errs lines s
  | .dmCopy d t k addr errs lines => Sys2Proof.Machine.execDmCopy d t k addr errs lines s
  | .dmGather d t k addr errs lines => Sys2Proof.Machine.execDmGather d t k addr errs lines s
  | .dmScatter d t k addr errs lines => Sys2Proof.Machine.execDmScatter d t k addr errs lines s
  | .dmFill d t k addr errs lines => Sys2Proof.Machine.execDmFill d t k addr errs lines s
  | .dmIssueResume d t k errs lines => Sys2Proof.Machine.execDmIssueResume d t k errs lines s
  | .dmComplete d t k n errs lines => Sys2Proof.Machine.execDmComplete d t k n errs lines s
  | .windowOpen d t n syncObj => Sys2Proof.Machine.execWindowOpen d t n syncObj s
  | .windowClose d t n => Sys2Proof.Machine.execWindowClose d t n s
  | .tileDrain d t on => Sys2Proof.Machine.execTileDrain d t on s
  | .tileRetire d t lines => Sys2Proof.Machine.execTileRetire d t lines s
  | .slotArm d k w => Sys2Proof.Machine.execSlotArm d k w s
  | .slotRelease d k w => Sys2Proof.Machine.execSlotRelease d k w s
  | .slotAnchorContrib d k w => Sys2Proof.Machine.execSlotAnchorContrib d k w s
  | .slotRecordContrib d k data => Sys2Proof.Machine.execSlotRecordContrib d k data s
  | .poolDoorbell p count => Sys2Proof.Machine.execPoolDoorbell p count s
  | .poolCqHeadWrite p v errs => Sys2Proof.Machine.execPoolCqHeadWrite p v errs s
  | .poolEnable => Sys2Proof.Machine.execPoolEnable s
  | .poolDisable => Sys2Proof.Machine.execPoolDisable s
  | .poolFlush errs => Sys2Proof.Machine.execPoolFlush errs s
  | .poolReload errs => Sys2Proof.Machine.execPoolReload errs s
  | .poolClear => Sys2Proof.Machine.execPoolClear s
  | .searchTierOpen d t n => Sys2Proof.Machine.execSearchTierOpen d t n s
  | .fullHold p => Sys2Proof.Machine.execFullHold p s
  | .taskTake d t rivals errs => Sys2Proof.Machine.execTaskTake d t rivals errs s
  | .taskStart d t k => Sys2Proof.Machine.execTaskStart d t k s
  | .taskExit d t k same lines => Sys2Proof.Machine.execTaskExit d t k same lines s
  | .taskAbort d t k code same lines => Sys2Proof.Machine.execTaskAbort d t k code same lines s
  | .taskTimeout d t k same lines => Sys2Proof.Machine.execTaskTimeout d t k same lines s
  | .partnerEnd d t k lines => Sys2Proof.Machine.execPartnerEnd d t k lines s
  | .kernelPost d t k p count => Sys2Proof.Machine.execKernelPost d t k p count s
  | .channelTrainDone m ch check pass c => Sys2Proof.Machine.execChannelTrainDone m ch check pass c s
  | .memoryFillDone m ch => Sys2Proof.Machine.execMemoryFillDone m ch s
  | .scrubLine m ch f line err => Sys2Proof.Machine.execScrubLine m ch f line err s
  | .channelTrack m ch retries onDie => Sys2Proof.Machine.execChannelTrack m ch retries onDie s
  | .channelRetrain m ch => Sys2Proof.Machine.execChannelRetrain m ch s
  | .channelRetrainDone m ch pass => Sys2Proof.Machine.execChannelRetrainDone m ch pass s
  | .mchnRetrain m ch => Sys2Proof.Machine.execMchnRetrain m ch s
  | .mchnRetire m ch => Sys2Proof.Machine.execMchnRetire m ch s
  | .channelDrainDone m ch => Sys2Proof.Machine.execChannelDrainDone m ch s
  | .stackTempRead m degC => Sys2Proof.Machine.execStackTempRead m degC s
  | .placeAlloc pin die spillFirst => Sys2Proof.Machine.execPlaceAlloc pin die spillFirst s
  | .placeFree pin die spillFirst => Sys2Proof.Machine.execPlaceFree pin die spillFirst s
  | .placeSetPin pin die spillFirst => Sys2Proof.Machine.execPlaceSetPin pin die spillFirst s
  | .placeQuery pin die spillFirst => Sys2Proof.Machine.execPlaceQuery pin die spillFirst s
  | .placeFreeGuests pin die spillFirst => Sys2Proof.Machine.execPlaceFreeGuests pin die spillFirst s
  | .placeReqReserved seven pin die spillFirst => Sys2Proof.Machine.execPlaceReqReserved seven pin die spillFirst s
  | .placeReqDone => Sys2Proof.Machine.execPlaceReqDone s
  | .placeEpochEnd => Sys2Proof.Machine.execPlaceEpochEnd s
  | .heatCountFlush cache page => Sys2Proof.Machine.execHeatCountFlush cache page s
  | .movePassDone guest page errs => Sys2Proof.Machine.execMovePassDone guest page errs s
  | .pageMoveDone guest page errs => Sys2Proof.Machine.execPageMoveDone guest page errs s
  | .frameZeroDone frame => Sys2Proof.Machine.execFrameZeroDone frame s
  | .drainResume m ch => Sys2Proof.Machine.execDrainResume m ch s
  | .lostScan from_ => Sys2Proof.Machine.execLostScan from_ s
  | .guest h pk => Sys2Proof.Machine.execGuest h pk s
  | .guestRsp h pk room => Sys2Proof.Machine.execGuestRsp h pk room s
  | .helloSend p => Sys2Proof.Machine.execHelloSend p s
  | .helloReceive p hdr h same => Sys2Proof.Machine.execHelloReceive p hdr h same s
  | .helloSilence p => Sys2Proof.Machine.execHelloSilence p s
  | .dtabLoad h => Sys2Proof.Machine.execDtabLoad h s
  | .dtabEdit h => Sys2Proof.Machine.execDtabEdit h s
  | .dtabLoadDone h errs => Sys2Proof.Machine.execDtabLoadDone h errs s
  | .dtabBankCopyDone h errs => Sys2Proof.Machine.execDtabBankCopyDone h errs s
  | .linkEnableWrite p on => Sys2Proof.Machine.execLinkEnableWrite p on s
  | .linkRetrain p => Sys2Proof.Machine.execLinkRetrain p s
  | .linkTestSelect p v => Sys2Proof.Machine.execLinkTestSelect p v s
  | .prbsConfigWrite p pattern gen chk lanes => Sys2Proof.Machine.execPrbsConfigWrite p pattern gen chk lanes s
  | .trainingFrame p lane f power rx => Sys2Proof.Machine.execTrainingFrame p lane f power rx s
  | .linkSignalDetected p => Sys2Proof.Machine.execLinkSignalDetected p s
  | .linkTrained p => Sys2Proof.Machine.execLinkTrained p s
  | .linkCdrLocked p => Sys2Proof.Machine.execLinkCdrLocked p s
  | .linkAligned p => Sys2Proof.Machine.execLinkAligned p s
  | .capFlit p ack level minLevel idle farLoop => Sys2Proof.Machine.execCapFlit p ack level minLevel idle farLoop s
  | .linkUp p => Sys2Proof.Machine.execLinkUp p s
  | .linkStepTimeout p => Sys2Proof.Machine.execLinkStepTimeout p s
  | .dataFlit p cwhs flit => Sys2Proof.Machine.execDataFlit p cwhs flit s
  | .uncorrectableCodeword p cwhs => Sys2Proof.Machine.execUncorrectableCodeword p cwhs s
  | .linkAck p ack => Sys2Proof.Machine.execLinkAck p ack s
  | .linkNak p ack => Sys2Proof.Machine.execLinkNak p ack s
  | .creditFlit p ack l0 l1 l2 l3 l4 => Sys2Proof.Machine.execCreditFlit p ack l0 l1 l2 l3 l4 s
  | .linkRejectFlit p ack => Sys2Proof.Machine.execLinkRejectFlit p ack s
  | .idleEnterFlit p ack => Sys2Proof.Machine.execIdleEnterFlit p ack s
  | .loopReqFlit p ack => Sys2Proof.Machine.execLoopReqFlit p ack s
  | .loopExitFlit p ack => Sys2Proof.Machine.execLoopExitFlit p ack s
  | .farLoopTimeout p => Sys2Proof.Machine.execFarLoopTimeout p s
  | .nakResendTimer p => Sys2Proof.Machine.execNakResendTimer p s
  | .linkFlitTimer p t => Sys2Proof.Machine.execLinkFlitTimer p t s
  | .idleEntry p => Sys2Proof.Machine.execIdleEntry p s
  | .idleExit p => Sys2Proof.Machine.execIdleExit p s
  | .laneSignalLoss p => Sys2Proof.Machine.execLaneSignalLoss p s
  | .signalReturn p => Sys2Proof.Machine.execSignalReturn p s
  | .losHoldExpire p => Sys2Proof.Machine.execLosHoldExpire p s
  | .cdrLockLoss p => Sys2Proof.Machine.execCdrLockLoss p s
  | .laserTrip p why => Sys2Proof.Machine.execLaserTrip p why s
  | .laserSwitchCmd p => Sys2Proof.Machine.execLaserSwitchCmd p s
  | .standbyClaimCheck p good => Sys2Proof.Machine.execStandbyClaimCheck p good s
  | .laserSwitchComplete p => Sys2Proof.Machine.execLaserSwitchComplete p s
  | .laserCalDone p bias power temp cal => Sys2Proof.Machine.execLaserCalDone p bias power temp cal s
  | .packetCommit p => Sys2Proof.Machine.execPacketCommit p s
  | .penReset p v => Sys2Proof.Machine.execPenReset p v s
  | .packetRoute src errs room => Sys2Proof.Machine.execPacketRoute src errs room s
  | .escWaitExpire src => Sys2Proof.Machine.execEscWaitExpire src s
  | .penAgeDrop src => Sys2Proof.Machine.execPenAgeDrop src s
  | .transitWindowTick => Sys2Proof.Machine.execTransitWindowTick s
  | .write h pk errs => Sys2Proof.Machine.execWrite h pk errs s
  | .haloWrite h pk => Sys2Proof.Machine.execHaloWrite h pk s
  | .readReq h pk errs => Sys2Proof.Machine.execReadReq h pk errs s
  | .atomic h pk errs => Sys2Proof.Machine.execAtomic h pk errs s
  | .mcWrite p pk errs => Sys2Proof.Machine.execMcWrite p pk errs s
  | .syncFrag h pk => Sys2Proof.Machine.execSyncFrag h pk s
  | .cktWrite p pk errs => Sys2Proof.Machine.execCktWrite p pk errs s
  | .cktHalo p pk => Sys2Proof.Machine.execCktHalo p pk s
  | .readRsp h pk errs => Sys2Proof.Machine.execReadRsp h pk errs s
  | .atomicRsp h pk => Sys2Proof.Machine.execAtomicRsp h pk s
  | .ack h pk => Sys2Proof.Machine.execAck h pk s
  | .reject h pk => Sys2Proof.Machine.execReject h pk s
  | .mcAck h pk => Sys2Proof.Machine.execMcAck h pk s
  | .cktAck h pk => Sys2Proof.Machine.execCktAck h pk s
  | .flowRto c seq => Sys2Proof.Machine.execFlowRto c seq s
  | .flowAckTimer ckt c => Sys2Proof.Machine.execFlowAckTimer ckt c s
  | .flowEnable h errs => Sys2Proof.Machine.execFlowEnable h errs s
  | .flowDisable h => Sys2Proof.Machine.execFlowDisable h s
  | .cktRto c => Sys2Proof.Machine.execCktRto c s
  | .mcRoundRto c msgId => Sys2Proof.Machine.execMcRoundRto c msgId s
  | .kernelAtomic d t k flow addr x cmp aop => Sys2Proof.Machine.execKernelAtomic d t k flow addr x cmp aop s
  | .syncAck p h => Sys2Proof.Machine.execSyncAck p h s
  | .syncResendTimer p => Sys2Proof.Machine.execSyncResendTimer p s
  | .syncAckTimer p => Sys2Proof.Machine.execSyncAckTimer p s
  | .timeReq p h t1 => Sys2Proof.Machine.execTimeReq p h t1 s
  | .timeRsp p h t1 t2 t3 => Sys2Proof.Machine.execTimeRsp p h t1 t2 t3 s
  | .timeExchangeTick p => Sys2Proof.Machine.execTimeExchangeTick p s
  | .masterMsg p h m => Sys2Proof.Machine.execMasterMsg p h m s
  | .masterAnnounce => Sys2Proof.Machine.execMasterAnnounce s
  | .masterStale p => Sys2Proof.Machine.execMasterStale p s
  | .partialMsg p h m => Sys2Proof.Machine.execPartialMsg p h m s
  | .roundTimeout o => Sys2Proof.Machine.execRoundTimeout o s
  | .partialDetour p lseq => Sys2Proof.Machine.execPartialDetour p lseq s
  | .pace p h m => Sys2Proof.Machine.execPace p h m s
  | .pacePost => Sys2Proof.Machine.execPacePost s
  | .paceRepost => Sys2Proof.Machine.execPaceRepost s
  | .paceEntryExpire origin => Sys2Proof.Machine.execPaceEntryExpire origin s
  | .objArm h errs => Sys2Proof.Machine.execObjArm h errs s
  | .objDisarm h => Sys2Proof.Machine.execObjDisarm h s
  | .objSignal src o n => Sys2Proof.Machine.execObjSignal src o n s
  | .objSet src o => Sys2Proof.Machine.execObjSet src o s
  | .objClear src o => Sys2Proof.Machine.execObjClear src o s
  | .syncContrib d t k o data => Sys2Proof.Machine.execSyncContrib d t k o data s
  | .syncWait d t k o => Sys2Proof.Machine.execSyncWait d t k o s
  | .syncRead d t k o => Sys2Proof.Machine.execSyncRead d t k o s
  | .stagedWrite u off w => Sys2Proof.Machine.execStagedWrite u off w s
  | .stageCheckDone u errs => Sys2Proof.Machine.execStageCheckDone u errs s
  | .commitNow u errs => Sys2Proof.Machine.execCommitNow u errs s
  | .commitAt u => Sys2Proof.Machine.execCommitAt u s
  | .commitCancel u => Sys2Proof.Machine.execCommitCancel u s
  | .commitAtReached u errs => Sys2Proof.Machine.execCommitAtReached u errs s
  | .powerSample v a => Sys2Proof.Machine.execPowerSample v a s
  | .shareRecompute others mean0 mean1 mean2 mean3 => Sys2Proof.Machine.execShareRecompute others mean0 mean1 mean2 mean3 s
  | .phaseLearn d est mean obs => Sys2Proof.Machine.execPhaseLearn d est mean obs s
  | .phaseForget => Sys2Proof.Machine.execPhaseForget s
  | .droopDetect d t above => Sys2Proof.Machine.execDroopDetect d t above s
  | .droopStretchEnd d t above => Sys2Proof.Machine.execDroopStretchEnd d t above s
  | .droopCeilRise d t => Sys2Proof.Machine.execDroopCeilRise d t s
  | .freqSlewStep d t => Sys2Proof.Machine.execFreqSlewStep d t s
  | .freqDeferEnd d t => Sys2Proof.Machine.execFreqDeferEnd d t s
  | .railRampStep d c => Sys2Proof.Machine.execRailRampStep d c s
  | .railFallHoldExpire d c => Sys2Proof.Machine.execRailFallHoldExpire d c s
  | .sensorSample hs a b load m => Sys2Proof.Machine.execSensorSample hs a b load m s
  | .capThermAdjust same => Sys2Proof.Machine.execCapThermAdjust same s
  | .thermalTrip sensor => Sys2Proof.Machine.execThermalTrip sensor s
  | .coolant seq inlet outlet flow ok rsvd same => Sys2Proof.Machine.execCoolant seq inlet outlet flow ok rsvd same s
  | .coolantMissing => Sys2Proof.Machine.execCoolantMissing s
  | .flowCheck => Sys2Proof.Machine.execFlowCheck s
  | .thermalCycleSample die => Sys2Proof.Machine.execThermalCycleSample die s
  | .remarginVisit d t => Sys2Proof.Machine.execRemarginVisit d t s
  | .remarginVisitDone d t table ring lines => Sys2Proof.Machine.execRemarginVisitDone d t table ring lines s
  | .rmarginLate d t => Sys2Proof.Machine.execRmarginLate d t s
  | .marginBump d t lines => Sys2Proof.Machine.execMarginBump d t lines s
  | .assayStart => Sys2Proof.Machine.execAssayStart s
  | .hallmarkIntervalEnd samples ns temp refBad since => Sys2Proof.Machine.execHallmarkIntervalEnd samples ns temp refBad since s
  | .hallmarkCopy crcOk => Sys2Proof.Machine.execHallmarkCopy crcOk s
  | .assayLinkLost => Sys2Proof.Machine.execAssayLinkLost s
  | .droveTimeToAssay => Sys2Proof.Machine.execDroveTimeToAssay s
  | .bar2Read off n errs => Sys2Proof.Machine.execBar2Read off n errs s
  | .bar2Write off data errs => Sys2Proof.Machine.execBar2Write off data errs s
  | .poisonedTlp kind q n data => Sys2Proof.Machine.execPoisonedTlp kind q n data s
  | .sqDoorbell q v => Sys2Proof.Machine.execSqDoorbell q v s
  | .hostCqHeadWrite q v => Sys2Proof.Machine.execHostCqHeadWrite q v s
  | .queueEnable => Sys2Proof.Machine.execQueueEnable s
  | .queueDisable => Sys2Proof.Machine.execQueueDisable s
  | .queueClean => Sys2Proof.Machine.execQueueClean s
  | .commandFetch q raw err => Sys2Proof.Machine.execCommandFetch q raw err s
  | .nop q n => Sys2Proof.Machine.execNop q n s
  | .copyH2d q n data errs err => Sys2Proof.Machine.execCopyH2d q n data errs err s
  | .copyD2h q n errs part err => Sys2Proof.Machine.execCopyD2h q n errs part err s
  | .hostFill q n errs part => Sys2Proof.Machine.execHostFill q n errs part s
  | .postTasks q n data err => Sys2Proof.Machine.execPostTasks q n data err s
  | .hostSignal q n => Sys2Proof.Machine.execHostSignal q n s
  | .waitSync q n => Sys2Proof.Machine.execWaitSync q n s
  | .waitSyncRelease q n => Sys2Proof.Machine.execWaitSyncRelease q n s
  | .waitSyncTimeout q n => Sys2Proof.Machine.execWaitSyncTimeout q n s
  | .hostCommandDone q n => Sys2Proof.Machine.execHostCommandDone q n s
  | .msixHoldoffEnd v => Sys2Proof.Machine.execMsixHoldoffEnd v s
  | .flr => Sys2Proof.Machine.execFlr s
  | .hotReset => Sys2Proof.Machine.execHotReset s
  | .perstN => Sys2Proof.Machine.execPerstN s
  | .pcieLinkDown => Sys2Proof.Machine.execPcieLinkDown s
  | .pcieLinkUp gen width flit => Sys2Proof.Machine.execPcieLinkUp gen width flit s
  | .functionReady => Sys2Proof.Machine.execFunctionReady s
  | .bootGo => Sys2Proof.Machine.execBootGo s
  | .bootVerifyDone => Sys2Proof.Machine.execBootVerifyDone s
  | .powerOn => Sys2Proof.Machine.execPowerOn s
  | .inputPowerLoss => Sys2Proof.Machine.execInputPowerLoss s
  | .pkgResetAssert => Sys2Proof.Machine.execPkgResetAssert s
  | .pkgResetRelease sel rot => Sys2Proof.Machine.execPkgResetRelease sel rot s
  | .softReset key sel rot => Sys2Proof.Machine.execSoftReset key sel rot s
  | .pkgIsolate => Sys2Proof.Machine.execPkgIsolate s
  | .hctlWatchdog restarted => Sys2Proof.Machine.execHctlWatchdog restarted s
  | .hctlRestartDone => Sys2Proof.Machine.execHctlRestartDone s
  | .startReady => Sys2Proof.Machine.execStartReady s
  | .startFailed cause => Sys2Proof.Machine.execStartFailed cause s
  | .mgmtLinkChange up => Sys2Proof.Machine.execMgmtLinkChange up s
  | .mgmtFrameDiscard dst payload => Sys2Proof.Machine.execMgmtFrameDiscard dst payload s
  | .rackOrder src serial oseq watts park sig same => Sys2Proof.Machine.execRackOrder src serial oseq watts park sig same s
  | .heartbeat => Sys2Proof.Machine.execHeartbeat s
  | .heartbeatLost bm => Sys2Proof.Machine.execHeartbeatLost bm s
  | .hallmarkReq src from_ count ident => Sys2Proof.Machine.execHallmarkReq src from_ count ident s
  | .statusBroadcast => Sys2Proof.Machine.execStatusBroadcast s
  | .bootReqSend => Sys2Proof.Machine.execBootReqSend s
  | .i3cPrivateWrite bytes => Sys2Proof.Machine.execI3cPrivateWrite bytes s
  | .i3cPrivateRead n => Sys2Proof.Machine.execI3cPrivateRead n s
  | .i3cEntdaa addr => Sys2Proof.Machine.execI3cEntdaa addr s
  | .settingsGroupWrite ok bytes blocks erased => Sys2Proof.Machine.execSettingsGroupWrite ok bytes blocks erased s
  | .storeForget => Sys2Proof.Machine.execStoreForget s
  | .xferStart src setId epoch chunks => Sys2Proof.Machine.execXferStart src setId epoch chunks s
  | .xferPiece src setId chunk piece data => Sys2Proof.Machine.execXferPiece src setId chunk piece data s
  | .xferQuery src setId => Sys2Proof.Machine.execXferQuery src setId s
  | .xferAbort src setId => Sys2Proof.Machine.execXferAbort src setId s
  | .chunkWriteDone c ok => Sys2Proof.Machine.execChunkWriteDone c ok s
  | .slotVerifyDone bad => Sys2Proof.Machine.execSlotVerifyDone bad s
  | .fwPrepare => Sys2Proof.Machine.execFwPrepare s
  | .fwPrepareDone bad => Sys2Proof.Machine.execFwPrepareDone bad s
  | .fwDiscard => Sys2Proof.Machine.execFwDiscard s
  | .fwMark => Sys2Proof.Machine.execFwMark s
  | .fwSeal => Sys2Proof.Machine.execFwSeal s
  | .fwImageConfirm kind inst => Sys2Proof.Machine.execFwImageConfirm kind inst s
  | .fwHandoverTimeout refused restarted => Sys2Proof.Machine.execFwHandoverTimeout refused restarted s
  | .fwSelectionWritten => Sys2Proof.Machine.execFwSelectionWritten s
  | .tileTmcSwitch d t => Sys2Proof.Machine.execTileTmcSwitch d t s
  | .fwTileWaitExpire => Sys2Proof.Machine.execFwTileWaitExpire s
  | .recoverySetWritten ok0 ok1 => Sys2Proof.Machine.execRecoverySetWritten ok0 ok1 s
  | .flitCrcError p cwhs data flit => Sys2Proof.Machine.execFlitCrcError p cwhs data flit s
  | .masterEligible => Sys2Proof.Machine.execMasterEligible s
  | .internalRailsGood sel rot => Sys2Proof.Machine.execInternalRailsGood sel rot s
  | .auxRailGood => Sys2Proof.Machine.execAuxRailGood s
  | .xtabReadDone h errs => Sys2Proof.Machine.execXtabReadDone h errs s
  | .configSpaceWrite bme d3hot fnMask cfg => Sys2Proof.Machine.execConfigSpaceWrite bme d3hot fnMask cfg s
  | .bootSlotWriteDone => Sys2Proof.Machine.execBootSlotWriteDone s
  | .stateMemoryUe => Sys2Proof.Machine.execStateMemoryUe s
  | .fcastModeChange => Sys2Proof.Machine.execFcastModeChange s
  | .imagesLoaded => Sys2Proof.Machine.execImagesLoaded s
  | .settingsRestored => Sys2Proof.Machine.execSettingsRestored s
  | .farLoopLosTimeout p => Sys2Proof.Machine.execFarLoopLosTimeout p s
  | .prbsLock p lane bits errs => Sys2Proof.Machine.execPrbsLock p lane bits errs s
  | .prbsLockLoss p lane bits errs => Sys2Proof.Machine.execPrbsLockLoss p lane bits errs s

end Sys2Proof.Machine
end

