-- ==== Sys2Proof/Safety.lean ====
section
/-! DEFINITION. What a safe run keeps: the canonical form of package memory, and the relation every command keeps between
the state it is given and the state it leaves. -/

namespace Sys2Proof

/-- Package memory is in its canonical form: addresses rise strictly, and no listed byte equals what an unlisted one reads
(R184, R201). -/
abbrev Memory.wf (m : Map Byte) : Prop := m.Rising ∧ ∀ e ∈ m, e.2 ≠ 0

namespace Machine

/-- What every command keeps: the queue behind it, the canonical form of package memory, every failure fuse that is blown
(R116), everything already sent out, the count of free values taken. -/
structure Kept (s t : State) : Prop where
  pending : t.pending = s.pending
  mem : Memory.wf s.mm.mem → Memory.wf t.mm.mem
  fuses : ∀ k, s.fuses.getD k false = true → t.fuses.getD k false = true
  out : s.out <+: t.out
  free : s.freeCtr ≤ t.freeCtr

end Machine

end Sys2Proof
end

