-- ==== Sys2Proof/Certificates/Slice0/Obligations.lean ====
section
/-! DEFINITION. The statements of this model: what each command does, in the manual's words and rules, and what every
step keeps. -/

open Sys2Proof Sys2Proof.Machine

/-- Register writes and reads: an access of the wrong width writes nothing, a write in range takes effect, a LO read latches its HI half (00_scope.md, 18_errors_faults.md, R10, R11, R12, R536). -/
def Obligations.RegisterAccessCompletes : Prop :=
  (∀ (s : State) (page off width : Nat) (w : Word),
    width ≠ 4 ∨ off % 4 ≠ 0 →
    exec (.registerWrite page off width w) s = .next s) ∧
  (∀ (s : State) (w : Word),
    exec (.registerWrite 0 0x110 4 w) s = .next (s.setF .pkg Reg.PKG.POOL_SEL_POOL (getBits w 11 0))) ∧
  (∀ (s : State) (w : Word),
    s.ready = true →
    exec (.registerWrite 0x5B 0x040 4 w) s =
      .next (if 1000 ≤ getBits w 15 0 ∧ getBits w 15 0 ≤ 60000 then s.setF .place Reg.PLACE.EPOCH_US (getBits w 15 0) else s)) ∧
  (∀ (s : State),
    s.ready = true →
    exec (.loRegisterRead 0x59 0x04C 4) s =
      .next ({ s with latch := s.latch.put (regKey (.sync 0) 0x050) (BitVec.ofNat 32 (s.drove / 2 ^ 32)) }.emit
        (.regRead 0x59 0x04C (BitVec.ofNat 32 s.drove)))) ∧
  (∀ (s : State) (w : Word),
    s.ready = true →
    s.latch.find (regKey (.sync 0) 0x050) = some w →
    exec (.loRegisterRead 0x59 0x050 4) s =
      .next ({ s with latch := s.latch.del (regKey (.sync 0) 0x050) }.emit (.regRead 0x59 0x050 w))) ∧
  (∀ (s t : State) (b same : Nat),
    s.getF .pkg Reg.EVT_CNT_SEL_BIT = b →
    16 ≤ b ∧ b ≤ 20 →
    t = { s with evtCnt := s.evtCnt.putD (evtKey .pkg b) (min (same - 1) 0xFFFF) 0 } →
    exec (.rcRegisterRead 0 0x038 4 same) s =
      .next ((if same = 0 then t else (t.raise .pkg b).pkgSummary (s.unmasked .pkg)).emit
        (.regRead 0 0x038 (BitVec.ofNat 32 (s.evtCnt.getD (evtKey .pkg b) 0)))))

/-- Event bits: what clears, masks, forces and propagates them; the driver fence; the loss of an on-package link (18_errors_faults.md, 01_architecture_overview.md, R20, R21, R535, R536, R537, R543, R546, R547, R548). -/
def Obligations.EventsAndFences : Prop :=
  (∀ (s : State) (u : UnitId) (w raised : Word),
    s.pageOpen u = true →
    u ≠ .pkg →
    exec (.evtPendClear u w raised) s =
      .next ((s.setW u 0x014 (s.getW u 0x014 &&& ~~~(w &&& BitVec.ofNat 32 u.ownMask))).raiseMask u raised)) ∧
  (∀ (s : State) (u : UnitId) (w : Word),
    s.pageOpen u = true →
    u ≠ .pkg →
    s.getW u 0x014 &&& s.getW u 0x018 &&& ~~~w = 0 →
    exec (.evtMaskWrite u w) s = .next (s.setW u 0x018 w)) ∧
  (∀ (s : State) (u : UnitId) (w : Word),
    s.pageOpen u = true →
    u ≠ .pkg →
    exec (.evtForce u w) s =
      .next (((List.range 32).filter (fun b => u.raises b && w.getLsbD b)).foldl (fun s b => s.raise u b) s)) ∧
  (∀ (s : State) (p : Fin 16) (a b : State),
    a = s.setF (.port p) Reg.HEALTH_HEALTH (s.getF (.port p) Reg.HEALTH_OWN) →
    (b = a.setW (.hub ⟨p / 8, by omega⟩) 0x014 (setBits (a.getW (.hub ⟨p / 8, by omega⟩) 0x014) (p % 8) (p % 8)
      (if a.unmasked (.port p) then 1 else 0))) →
    exec (.summaryPropagate (.port p)) s =
      .next (b.setF (.hub ⟨p / 8, by omega⟩) Reg.HEALTH_HEALTH (b.worstHealth (.hub ⟨p / 8, by omega⟩)))) ∧
  (∀ (s : State),
    s.fenced = false →
    s.mg.resetLow = false →
    s.objs = [] →
    s.getF .hctl Reg.HCTL.FCAST_MODE = 0 →
    exec .fenceCmd s = .next (((((s.setF .pkg Reg.PKG.FENCE_CAUSE 1).setPair .pkg Reg.PKG.FENCE_TIME_LO Reg.PKG.FENCE_TIME_HI s.drove).setF
      .pkg Reg.PKG.FENCE_FENCED 1).setOwn .pkg
      (if s.getF .pkg Reg.PKG.START_STATE = 6 then 3 else 2)).raisePkg Evt.PKG.FENCED)) ∧
  (∀ (s : State),
    s.fenced = true →
    exec .fenceCmd s = .next s) ∧
  (∀ (s t : State) (l : Fin 9) (replays up : Nat) (stuck : Bool) (log : List Nat),
    up = s.getF .pkg Reg.PKG.DIE_LINKS_UP →
    (log = ((s.mg.dieLog.getD l.val []).filter (fun at_ => decide (s.elapsed ≤ at_ + 1000000000))) ++ List.replicate (min replays 1001) s.elapsed) →
    t = { s.bumpBy .pkg Reg.PKG.DIE_LINK_RETRY_COUNT replays with mg := { s.mg with dieLog := s.mg.dieLog.putD l.val log [] } } →
    up / 2 ^ l.val % 2 = 0 ∨ (stuck = false ∧ log.length ≤ 1000) →
    exec (.dieLinkOut l replays stuck) s = .next t) ∧
  (∀ (s t : State) (l : Fin 9) (replays up : Nat) (stuck : Bool) (log : List Nat),
    s.fenced = false →
    s.getF .pkg Reg.PKG.START_STATE ≠ 6 →
    up = s.getF .pkg Reg.PKG.DIE_LINKS_UP →
    (log = ((s.mg.dieLog.getD l.val []).filter (fun at_ => decide (s.elapsed ≤ at_ + 1000000000))) ++ List.replicate (min replays 1001) s.elapsed) →
    t = { s.bumpBy .pkg Reg.PKG.DIE_LINK_RETRY_COUNT replays with mg := { s.mg with dieLog := s.mg.dieLog.putD l.val log [] } } →
    up / 2 ^ l.val % 2 = 1 →
    stuck = true ∨ 1000 < log.length →
    dieLinkCause (up - 2 ^ l.val) = 0 →
    exec (.dieLinkOut l replays stuck) s =
      .next (((t.setF .pkg Reg.PKG.DIE_LINKS_UP (up - 2 ^ l.val)).setOwn .pkg 1).raisePkg Evt.PKG.DIE_LINK))

/-- A watermark written past the present level raises its crossing, and only then (18_errors_faults.md, 12_power.md, R539, R406). -/
def Obligations.WatermarkWrite : Prop :=
  (∀ (s : State) (v : BitVec 16),
    s.getF .hctl Reg.HCTL.PWR_LEVEL_WATTS < s.getF .hctl Reg.HCTL.PWR_WM_HI_WATTS →
    v.toNat % 4096 ≤ s.getF .hctl Reg.HCTL.PWR_LEVEL_WATTS →
    exec (.watermarkWrite true true v) s =
      .next ((s.setF .hctl Reg.HCTL.PWR_WM_HI_WATTS (v.toNat % 4096)).raise .hctl Evt.HCTL.PWR_CROSSED_UP)) ∧
  (∀ (s : State) (v : BitVec 16),
    s.getF .hctl Reg.HCTL.PWR_WM_HI_WATTS ≤ s.getF .hctl Reg.HCTL.PWR_LEVEL_WATTS ∨
      s.getF .hctl Reg.HCTL.PWR_LEVEL_WATTS < v.toNat % 4096 →
    exec (.watermarkWrite true true v) s = .next (s.setF .hctl Reg.HCTL.PWR_WM_HI_WATTS (v.toNat % 4096))) ∧
  (∀ (s : State) (v : BitVec 16),
    s.ready = true →
    s.getF .place Reg.PLACE.SPILL_RATIO_WM_LO < s.getF .place Reg.PLACE.SPILL_RATIO_LEVEL →
    s.getF .place Reg.PLACE.SPILL_RATIO_LEVEL ≤ v.toNat % (Reg.PLACE.SPILL_RATIO_WM_LO.max + 1) →
    exec (.watermarkWrite false false v) s =
      .next ((s.setF .place Reg.PLACE.SPILL_RATIO_WM_LO (v.toNat % (Reg.PLACE.SPILL_RATIO_WM_LO.max + 1))).raise .place
        Evt.PLACE.SPILL_CROSSED_DOWN))

/-- A tile failure takes the tile out, a spare is tested and takes the slot, a slot is lost (03_compute_tiles.md, R76, R109, R111, R112, R116, 18_errors_faults.md, R113, R545). -/
def Obligations.TileFailuresAndSpares : Prop :=
  (∀ (s0 s a : State) (d : Fin 4) (t : Fin 104) (cmd : Instr) (cause n : Nat) (own : Option (Fin 2)) (lines : LineErrs),
    s = s0.findErrs lines →
    (cmd = .tileFailure d t cause own lines ∧ cause ≤ 4) ∨ (cmd = .tileWatchdogExpire d t lines ∧ cause = 3) ∨
      (cmd = .tileControllerParity d t lines ∧ cause = 3) ∨ (cmd = .tileRetire d t lines ∧ cause = 5 ∧ s0.pageOpen (.tile d t) = true) →
    s.tileActive d t = true →
    (s.tile d t).slot0 = none →
    (s.tile d t).slot1 = none →
    n = s.slotOf d t →
    n < 100 →
    s.mg.fw.tmcOn = false →
    a = ((s.setFails d (s.fails d ++ [⟨t, n, cause, none, false⟩])).setF (.cdie d) (Reg.CDIE.SLOT_VALID n) 0).tileFailed d t →
    exec cmd s0 = .next ((((List.range 4).foldl (fun s n => s.setF (.tile d t) (Reg.TILE.WIN_CTL_STATE n) 0)
        (a.setTile d t { a.tile d t with stopped := true })).refreshCluster d (clusterOf t)).ceilsOf d)) ∧
  (∀ (s0 s a : State) (d : Fin 4) (t : Fin 104) (own : Option (Fin 2)) (lines : LineErrs),
    s = s0.findErrs lines →
    s.tileState d t = 1 →
    a = s.tileFailed d t →
    exec (.tileFailure d t 0 own lines) s0 = .next ((a.setF (.cdie d) Reg.CDIE.SPARES_LEFT (a.getF (.cdie d) Reg.CDIE.SPARES_LEFT - 1)).raise
      (.cdie d) Evt.CDIE.SPARE_BAD)) ∧
  (∀ (s : State) (d : Fin 4) (f : Failing) (rest : List Failing) (sp : Nat),
    s.fails d = f :: rest →
    s.nextSpare d = some sp →
    f.loading = false →
    exec (.spareSelftestDone d true) s = .next (s.setFails d ({ f with spare := some sp, loading := true } :: rest))) ∧
  (∀ (s : State) (d : Fin 4) (f : Failing) (rest : List Failing) (sp : Nat),
    s.fails d = f :: rest →
    s.nextSpare d = some sp →
    f.loading = false →
    exec (.spareSelftestDone d false) s = .next (((s.tileFailed d sp).setF (.cdie d) Reg.CDIE.SPARES_LEFT
      ((s.tileFailed d sp).getF (.cdie d) Reg.CDIE.SPARES_LEFT - 1)).raise (.cdie d) Evt.CDIE.SPARE_BAD)) ∧
  (∀ (s a b : State) (d : Fin 4) (sp : Fin 104) (f : Failing) (rest : List Failing),
    s.fails d = f :: rest →
    f.loading = true →
    f.spare = some sp.val →
    f.slot < 100 →
    (s.pw.spots.getD (104 * d + sp) .init).failA = false →
    (s.pw.spots.getD (104 * d + sp) .init).failB = false →
    s.tileState d sp = 1 →
    a = ((s.setFails d rest).setTileState d sp 0).setTile d sp { Tile.init with
      newTmc := s.mg.fw.tmcOn, ceilTherm := (s.tile d sp).ceilTherm, visitDue := (s.tile d sp).visitDue, idleAt := s.elapsed } →
    b = ((((a.setF (.cdie d) Reg.CDIE.SPARES_LEFT (a.getF (.cdie d) Reg.CDIE.SPARES_LEFT - 1)).setF (.tile d sp) Reg.TILE.IDENT_SLOT f.slot).setF
      (.cdie d) (Reg.CDIE.SLOT_PHYS f.slot) sp).setF (.cdie d) (Reg.CDIE.SLOT_VALID f.slot) 1) →
    exec (.tileSpared d) s = .next ((((((((b.setF (.cdie d) Reg.CDIE.LAST_REMAP_FAILED f.tile).setF (.cdie d) Reg.CDIE.LAST_REMAP_SPARE sp).setF
      (.cdie d) Reg.CDIE.LAST_REMAP_SLOT f.slot).setF (.cdie d) Reg.CDIE.LAST_REMAP_CAUSE f.cause).raise (.cdie d)
      Evt.CDIE.TILE_SPARED).refreshCluster d (clusterOf sp)).ceilsOf d).stopFalls s)) ∧
  (∀ (s a b c : State) (d : Fin 4) (f : Failing) (rest : List Failing) (n : Nat),
    s.fails d = f :: rest →
    s.nextSpare d = none →
    a = ((((((s.setFails d rest).setF (.cdie d) Reg.CDIE.LAST_REMAP_FAILED f.tile).setF (.cdie d) Reg.CDIE.LAST_REMAP_SPARE 0x7F).setF
      (.cdie d) Reg.CDIE.LAST_REMAP_SLOT f.slot).setF (.cdie d) Reg.CDIE.LAST_REMAP_CAUSE f.cause).raise (.cdie d) Evt.CDIE.TILE_LOST) →
    b = (a.setF (.cdie d) Reg.CDIE.ACTIVE_TILES (a.getF (.cdie d) Reg.CDIE.ACTIVE_TILES - 1)).setOwn (.cdie d) 1 →
    (n = ((List.finRange 4).map (fun e => b.getF (.cdie e) Reg.CDIE.ACTIVE_TILES)).sum) →
    (c = (if n < b.getF .pkg Reg.PKG.RATING_TILES then (b.setF .pkg Reg.PKG.RATING_TILES n).raisePkg Evt.PKG.RATING else b)) →
    c.getF (.cdie d) Reg.CDIE.ACTIVE_TILES ≠ 0 →
    exec (.tileLost d) s = .next c) ∧
  (∀ (s : State) (d : Fin 4) (t : Fin 104),
    s.fuseDue.getD (tileKey d t) false = true →
    exec (.failureFuseBlow d t) s =
      .next { s with fuses := s.fuses.put (tileKey d t) true, fuseDue := s.fuseDue.del (tileKey d t) }) ∧
  (∀ (s : State) (d : Fin 4) (t : Fin 104),
    s.fuseDue.getD (tileKey d t) false = false →
    exec (.failureFuseBlow d t) s = .next s)

/-- A row is retested, a kernel is loaded, halo windows open and close, a tile drains (03_compute_tiles.md, R73, R77, R78, R105, R103, R107, R115). -/
def Obligations.RetestsKernelLoadsAndWindows : Prop :=
  (∀ (s a b : State) (d : Fin 4) (t : Fin 104) (row : Nat) (v : List Byte) (lines : LineErrs),
    s.tileActive d t = true →
    row ∈ (s.tile d t).badRows →
    a = s.setTile d t { s.tile d t with badRows := (s.tile d t).badRows.erase row } →
    a.freeBytes 64 = (v, b) →
    exec (.lsRowRetest d t row true lines) s = .next (((b.lsWrite d t (64 * row) v).raise (.tile d t) Evt.TILE.LS_UE).setOwn (.tile d t) 1)) ∧
  (∀ (s a : State) (d : Fin 4) (t : Fin 104) (k : Fin 2) (w : Task) (e : KEntry) (l : List KEntry),
    (s.tile d t).slot k = some w →
    w.start = none →
    (s.tile d t).cached w = none →
    s.loadKernel d t w = (a, 0, e) →
    (l = e :: (a.tile d t).kcache.filter (fun o => o.id ≠ e.id || !o.users.isEmpty)) →
    exec (.kernelLoadDone d t k []) s = .next (a.setTile d t { a.tile d t with kcache := evict (a.tile d t).kernelUsed l l.length })) ∧
  (∀ (s a : State) (d : Fin 4) (t : Fin 104) (k : Fin 2) (w : Task) (e : KEntry) (st : Nat),
    (s.tile d t).slot k = some w →
    w.start = none →
    (s.tile d t).cached w = none →
    s.loadKernel d t w = (a, st, e) →
    st ≠ 0 →
    exec (.kernelLoadDone d t k []) s = .next ((a.raise (.tile d t) Evt.TILE.KERNEL_BAD).endTask d t k 1 st)) ∧
  (∀ (s a : State) (d : Fin 4) (t : Fin 104) (n : Fin 4) (obj base len expect : Nat),
    s.tileActive d t = true →
    s.pageOpen (.tile d t) = true →
    a = s.setF (.tile d t) (Reg.TILE.WIN_CTL_SYNC_OBJ n) obj →
    a.getF (.tile d t) (Reg.TILE.WIN_CTL_STATE n) = 0 →
    a.getF (.tile d t) (Reg.TILE.WIN_BASE n) = base →
    a.getF (.tile d t) (Reg.TILE.WIN_LEN n) = len →
    a.getF (.tile d t) (Reg.TILE.WIN_EXPECT n) = expect →
    base % 64 = 0 ∧ len % 64 = 0 ∧ inData base len = true ∧ expect ≤ len →
    expect ≠ 0 →
    exec (.windowOpen d t n obj) s =
      .next (((a.setF (.tile d t) (Reg.TILE.WIN_RCVD n) 0).setF (.tile d t) (Reg.TILE.WIN_CTL_STATE n) 1).showWindows d t)) ∧
  (∀ (s a : State) (d : Fin 4) (t : Fin 104) (n : Fin 4) (obj base len expect : Nat),
    s.tileActive d t = true →
    s.pageOpen (.tile d t) = true →
    a = s.setF (.tile d t) (Reg.TILE.WIN_CTL_SYNC_OBJ n) obj →
    a.getF (.tile d t) (Reg.TILE.WIN_CTL_STATE n) = 0 →
    a.getF (.tile d t) (Reg.TILE.WIN_BASE n) = base →
    a.getF (.tile d t) (Reg.TILE.WIN_LEN n) = len →
    a.getF (.tile d t) (Reg.TILE.WIN_EXPECT n) = expect →
    base % 64 ≠ 0 ∨ len % 64 ≠ 0 ∨ inData base len = false ∨ len < expect →
    exec (.windowOpen d t n obj) s = .next (a.raise (.tile d t) Evt.TILE.WIN_BAD)) ∧
  (∀ (s : State) (d : Fin 4) (t : Fin 104) (n : Fin 4),
    s.tileActive d t = true →
    s.pageOpen (.tile d t) = true →
    exec (.windowClose d t n) s = .next ((s.setF (.tile d t) (Reg.TILE.WIN_CTL_STATE n) 0).showWindows d t)) ∧
  (∀ (s : State) (d : Fin 4) (t : Fin 104) (on : Bool),
    s.tileActive d t = true →
    s.pageOpen (.tile d t) = true →
    exec (.tileDrain d t on) s = .next ((s.setF (.tile d t) Reg.TILE.CTL_DRAIN on.toNat).drained d t))

/-- Matrix operations: issue, stall, check and completion (03_compute_tiles.md, R72, R82, R83, R88, R105, R106, R107). -/
def Obligations.MatrixOperations : Prop :=
  (∀ (s0 s : State) (d : Fin 4) (t : Fin 104) (k : Fin 2) (addr : Nat) (w : Task) (lines : LineErrs),
    s = s0.findErrs lines →
    s.kernelRuns d t k = true →
    ((s.tile d t).mops k).length < 4 →
    descHome k addr 64 = true →
    (s.tile d t).slot k = some w →
    (s.tile d t).badIn addr 64 = false →
    mopCheck (MopD.ofBytes ((s.tile d t).read addr 64)) w k = 0 →
    exec (.mopIssue d t k addr [] lines) s0 = .next (s.setTile d t ((s.tile d t).setMops k ((s.tile d t).mops k ++ [⟨addr, (s.tile d t).read addr 64⟩])))) ∧
  (∀ (s0 s : State) (d : Fin 4) (t : Fin 104) (k : Fin 2) (addr st : Nat) (w : Task) (lines : LineErrs),
    s = s0.findErrs lines →
    s.kernelRuns d t k = true →
    ((s.tile d t).mops k).length < 4 →
    descHome k addr 64 = true →
    (s.tile d t).slot k = some w →
    (s.tile d t).badIn addr 64 = false →
    mopCheck (MopD.ofBytes ((s.tile d t).read addr 64)) w k = st →
    st ≠ 0 →
    exec (.mopIssue d t k addr [] lines) s0 = .next ((s.lsWrite d t (addr + 0x0E) [BitVec.ofNat 8 st]).endTask d t k 1 st)) ∧
  (∀ (s0 s : State) (d : Fin 4) (t : Fin 104) (k : Fin 2) (addr : Nat) (lines : LineErrs),
    s = s0.findErrs lines →
    s.kernelRuns d t k = true →
    4 ≤ ((s.tile d t).mops k).length →
    exec (.mopIssue d t k addr [] lines) s0 = .next (s.setTile d t ((s.tile d t).setStallMop k (some addr)))) ∧
  (∀ (s0 s : State) (d : Fin 4) (t : Fin 104) (k : Fin 2) (addr : Nat) (x : Tile) (w : Task) (lines : LineErrs),
    s = s0.findErrs lines →
    (s.tile d t).stallMop k = some addr →
    ((s.tile d t).mops k).length < 4 →
    x = (s.tile d t).setStallMop k none →
    descHome k addr 64 = true →
    x.slot k = some w →
    x.badIn addr 64 = false →
    mopCheck (MopD.ofBytes (x.read addr 64)) w k = 0 →
    exec (.mopIssueResume d t k [] lines) s0 =
      .next ((s.setTile d t x).setTile d t (x.setMops k (x.mops k ++ [⟨addr, x.read addr 64⟩])))) ∧
  (∀ (s0 s : State) (d : Fin 4) (t : Fin 104) (k : Fin 2) (w : Task) (m : Mop) (rest : List Mop) (o : MopD) (fa fb fc : FSpec) (mode : RMode) (ls : Map Byte)
      (fl : FFlags) (wide : Nat) (lines : LineErrs),
    s = s0.findErrs lines →
    (s.tile d t).slot k = some w →
    (s.tile d t).mops k = m :: rest →
    o = MopD.ofBytes m.desc →
    o.a = some fa ∧ o.b = some fb ∧ o.c = some fc ∧ o.rmode = some mode →
    badBlock (s.tile d t) o fa fb fc w.blockWidth = none →
    mopRun (s.tile d t).ls o fa fb fc mode w.seed w.blockWidth none = (ls, 0, fl, wide) →
    exec (.mopComplete d t k [] none lines) s0 = .next ((((s.setTile d t { (s.tile d t).setMops k rest with ls := ls }).setSlot d t k
        (some { w with flags := w.flags ||| fl, wide := min (2 ^ 32 - 1) (w.wide + wide) })).addPair (.tile d t) Reg.TILE.ME_BUSY_LO
        Reg.TILE.ME_BUSY_HI (mopCycles o fa fb fc w.blockWidth)).lsWrite d t (m.addr + 0x0E) [0]))

/-- Vector instructions: loads, stores and the operations on registers (03_compute_tiles.md, R72, R93, R94, R105, R106). -/
def Obligations.VectorInstructions : Prop :=
  (∀ (s0 s : State) (d : Fin 4) (t : Fin 104) (k : Fin 2) (w : Task) (r addr n : Nat) (lines : LineErrs),
    s = s0.findErrs lines →
    s.kernelRuns d t k = true →
    (s.tile d t).slot k = some w →
    r < (s.tile d t).vregCount k →
    n ≤ 1024 →
    mayRead k addr n = true →
    (s.tile d t).badIn addr n = false →
    exec (.vectorInstruction d t k (.load r addr n) [] lines) s0 =
      .next (s.setTile d t { s.tile d t with vreg := (s.tile d t).vreg.writeBytes (vregBase k r) ((s.tile d t).ls.readBytes addr n) })) ∧
  (∀ (s0 s : State) (d : Fin 4) (t : Fin 104) (k : Fin 2) (w : Task) (r addr n : Nat) (lines : LineErrs),
    s = s0.findErrs lines →
    s.kernelRuns d t k = true →
    (s.tile d t).slot k = some w →
    r < (s.tile d t).vregCount k →
    n ≤ 1024 →
    w.mayWrite k addr n = true →
    exec (.vectorInstruction d t k (.store r addr n) [] lines) s0 =
      .next (s.lsWrite d t addr ((s.tile d t).vreg.readBytes (vregBase k r) n))) ∧
  (∀ (s0 s : State) (d : Fin 4) (t : Fin 104) (k : Fin 2) (w : Task) (r addr n : Nat) (lines : LineErrs),
    s = s0.findErrs lines →
    s.kernelRuns d t k = true →
    (s.tile d t).slot k = some w →
    r < (s.tile d t).vregCount k →
    n ≤ 1024 →
    (mayRead k addr n = false → exec (.vectorInstruction d t k (.load r addr n) [] lines) s0 = .next (s.endTask d t k 1 St.outOfRange)) ∧
      (w.mayWrite k addr n = false → exec (.vectorInstruction d t k (.store r addr n) [] lines) s0 = .next (s.endTask d t k 1 St.outOfRange))) ∧
  (∀ (s0 s : State) (d : Fin 4) (t : Fin 104) (k : Fin 2) (w : Task) (op : VOp) (mode : RMode) (st : Nat) (o : VecOut) (lines : LineErrs),
    s = s0.findErrs lines →
    s.kernelRuns d t k = true →
    (s.tile d t).slot k = some w →
    ((vecRegs op).any (fun r => (s.tile d t).vregCount k ≤ r)) = false →
    (∀ r a n, op ≠ .load r a n ∧ op ≠ .store r a n) →
    RMode.ofCode w.rmode = some mode →
    vecRun op (s.tile d t).vreg k mode w.seed = (st, o) →
    exec (.vectorInstruction d t k op [] lines) s0 = .next (if st = 0 then (s.setTile d t { s.tile d t with vreg := o.regs }).setSlot d t k
        (some { w with flags := w.flags ||| o.flags, wide := min (2 ^ 32 - 1) (w.wide + o.wide) }) else s.endTask d t k 1 st))

/-- Data-mover descriptors: issue, immediate ends, stalls and completion (03_compute_tiles.md, R96, R97, R98, R100, R105, R106). -/
def Obligations.DataMoverIssue : Prop :=
  (∀ (s : State) (d : Fin 4) (t : Fin 104) (k : Fin 2) (addr op : Nat) (cmd : Instr) (w : Task) (x : Tile),
    (cmd = .dmCopy d t k addr [] [] ∧ op = 1) ∨ (cmd = .dmGather d t k addr [] [] ∧ op = 2) ∨
      (cmd = .dmScatter d t k addr [] [] ∧ op = 3) ∨ (cmd = .dmFill d t k addr [] [] ∧ op = 4) →
    s.dmOpAt d t k addr = some op →
    s.kernelRuns d t k = true →
    ((s.tile d t).dms k).length < 8 →
    x = s.tile d t →
    x.slot k = some w →
    x.badIn addr 128 = false →
    dmCheck (DmD.ofBytes (x.read addr 128)) w k = none →
    exec cmd s = .next ((s.setTile d t { x.setDms k (x.dms k ++ [⟨x.dmNext, addr, x.read addr 128, false, 0, 0, false, 0, [], 0⟩]) with
        dmNext := x.dmNext + 1 }).dmGo d t)) ∧
  (∀ (s : State) (d : Fin 4) (t : Fin 104) (k : Fin 2) (addr op st : Nat) (cmd : Instr) (w : Task),
    (cmd = .dmCopy d t k addr [] [] ∧ op = 1) ∨ (cmd = .dmGather d t k addr [] [] ∧ op = 2) ∨
      (cmd = .dmScatter d t k addr [] [] ∧ op = 3) ∨ (cmd = .dmFill d t k addr [] [] ∧ op = 4) →
    s.dmOpAt d t k addr = some op →
    s.kernelRuns d t k = true →
    ((s.tile d t).dms k).length < 8 →
    (s.tile d t).slot k = some w →
    (s.tile d t).badIn addr 128 = false →
    dmCheck (DmD.ofBytes ((s.tile d t).read addr 128)) w k = some st →
    exec cmd s = .next (s.dmEnd d t k addr (DmD.ofBytes ((s.tile d t).read addr 128)) st 0)) ∧
  (∀ (s : State) (d : Fin 4) (t : Fin 104) (addr op : Nat) (cmd : Instr),
    (cmd = .dmCopy d t 1 addr [] [] ∧ op = 1) ∨ (cmd = .dmGather d t 1 addr [] [] ∧ op = 2) ∨
      (cmd = .dmScatter d t 1 addr [] [] ∧ op = 3) ∨ (cmd = .dmFill d t 1 addr [] [] ∧ op = 4) →
    s.dmOpAt d t 1 addr = some op →
    s.kernelRuns d t 1 = true →
    8 ≤ ((s.tile d t).dms 1).length →
    exec cmd s = .next (s.setTile d t { s.tile d t with stallDm1 := some addr })) ∧
  (∀ (s : State) (d : Fin 4) (t : Fin 104) (addr : Nat) (w : Task) (x : Tile),
    (s.tile d t).stallDm0 = some addr →
    ((s.tile d t).dms0).length < 8 →
    x = { s.tile d t with stallDm0 := none } →
    descHome 0 addr 128 = true →
    x.slot0 = some w →
    x.badIn addr 128 = false →
    dmCheck (DmD.ofBytes (x.read addr 128)) w 0 = none →
    exec (.dmIssueResume d t 0 [] []) s = .next (((s.setTile d t x).setTile d t { x with
        dms0 := x.dms0 ++ [⟨x.dmNext, addr, x.read addr 128, false, 0, 0, false, 0, [], 0⟩], dmNext := x.dmNext + 1 }).dmGo d t)) ∧
  (∀ (s : State) (d : Fin 4) (t : Fin 104) (k : Fin 2) (n : Nat) (m : Dm) (x : Tile),
    x = s.tile d t →
    (x.dms k)[n]? = some m →
    m.started = true →
    m.remote = false →
    exec (.dmComplete d t k n [] []) s = .next (((((s.setTile d t (x.setDms k ((x.dms k).filter (fun o => o.id ≠ m.id)))).dmEnd d t k m.addr
        (DmD.ofBytes m.desc) m.status m.fenced).postGo d t k).dmGo d t)))

/-- Bay reduction slots: ARM, RELEASE and contributions (04_exact_reduction.md, R130, R131, R132, R133, R135, R352, 11_synchronisation.md). -/
def Obligations.ReductionSlots : Prop :=
  (∀ (s a : State) (d : Fin 4) (k : Nat) (w : Word) (b : BSlot),
    k < s.slotCount d →
    (s.bslot d k).state = 0 ∨ (s.bslot d k).state = 3 →
    (b = if (s.bslot d k).state = 0 then { s.bslot d k with mode := getBits w 7 5, syncObj := getBits w 31 16 } else s.bslot d k) →
    (a = if (s.bslot d k).state = 0 then s.setBslot d k b else s) →
    b.expect ≠ 0 →
    b.mode < 6 →
    exec (.slotArm d k w) s = .next (a.setBslot d k { b with
        ing := Ingot.empty (if b.mode = 0 then shortAnchor else if b.mode = 3 then b.anchorDecl else anchorNone), armed := true
        arrived := 0, status := 0, state := if b.mode = 1 ∨ b.mode = 2 then 1 else 2 })) ∧
  (∀ (s : State) (d : Fin 4) (k : Nat) (w : Word) (b : BSlot),
    k < s.slotCount d →
    b = s.bslot d k →
    b.state = 3 →
    b.expect = 0 ∨ 6 ≤ b.mode →
    exec (.slotArm d k w) s = .next (((s.setBslot d k { b with state := 0, status := 4 }).setF (.cdie d) Reg.CDIE.RSLOT_LAST_SLOT k).setF
      (.cdie d) Reg.CDIE.RSLOT_LAST_STATUS 4)) ∧
  (∀ (s : State) (d : Fin 4) (k : Nat) (w : Word),
    k < s.slotCount d →
    (s.bslot d k).state = 1 ∨ (s.bslot d k).state = 2 →
    exec (.slotArm d k w) s = .next s ∧ exec (.slotRelease d k w) s = .next (s.setBslot d k { s.bslot d k with state := 0 })) ∧
  (∀ (s : State) (d : Fin 4) (k : Nat) (w : Word) (b : BSlot),
    k < s.slotCount d →
    b = s.bslot d k →
    b.state = 1 →
    b.arrived + 1 < b.expect →
    exec (.slotAnchorContrib d k w) s = .next (s.setBslot d k { b with
        ing := { b.ing with anchor := anchorMax b.ing.anchor (BitVec.ofNat 16 (leNat ((leBytes 4 w.toNat).take 2))) }
        arrived := b.arrived + 1 })) ∧
  (∀ (s : State) (d : Fin 4) (k : Nat) (w : Word) (b : BSlot),
    k < s.slotCount d →
    b = s.bslot d k →
    b.state = 1 →
    b.mode = 1 →
    b.expect = b.arrived + 1 →
    exec (.slotAnchorContrib d k w) s = .next ((s.setBslot d k { b with
        ing := { b.ing with anchor := anchorMax b.ing.anchor (BitVec.ofNat 16 (leNat ((leBytes 4 w.toNat).take 2))) }
        arrived := 0, state := 2 }).signal b.syncObj 1 (.die d) (if b.status = 0 then 0 else ObjSt.badContrib) 0).1) ∧
  (∀ (s : State) (d : Fin 4) (k : Nat) (data : List Byte) (b : BSlot) (g : Ingot),
    k < s.slotCount d →
    b = s.bslot d k →
    b.state = 2 →
    b.mode ≠ 5 →
    data.length = 96 →
    combineRecord b.mode b.ing (Ingot.ofBytes data) = (g, false) →
    b.arrived + 1 < b.expect →
    exec (.slotRecordContrib d k data) s = .next (s.setBslot d k { b with ing := g, arrived := b.arrived + 1 })) ∧
  (∀ (s : State) (d : Fin 4) (k : Nat) (data : List Byte) (b : BSlot),
    k < s.slotCount d →
    b = s.bslot d k →
    b.state = 2 →
    b.mode = 5 →
    data.length = 4 →
    b.expect = b.arrived + 1 →
    exec (.slotRecordContrib d k data) s = .next ((s.setBslot d k { b.putFp32 (fp32Add b.fp32 (leNat data)).1 with
        arrived := b.arrived + 1, state := 3 }).signal b.syncObj 1 (.die d)
          (if b.status = 0 then 0 else ObjSt.badContrib) 0).1) ∧
  (∀ (s a : State) (d : Fin 4) (k : Nat) (w : Word) (b : BSlot),
    k < s.slotCount d →
    b = s.bslot d k →
    b.state = 0 ∨ b.state = 3 →
    b.status ≠ 0 →
    a = (s.bump (.cdie d) Reg.CDIE.RSLOT_DISCARD_COUNT).raise (.cdie d) Evt.CDIE.RSLOT_ERR →
    exec (.slotAnchorContrib d k w) s =
      .next ((a.setF (.cdie d) Reg.CDIE.RSLOT_LAST_SLOT k).setF (.cdie d) Reg.CDIE.RSLOT_LAST_STATUS 3))

/-- Pool doorbells, CQ_HEAD, and ENABLE, DISABLE, RELOAD, CLEAR and FLUSH of a pool (05_work_dispatch.md, R145, R147, R171, R143, R144, R168). -/
def Obligations.PoolCommands : Prop :=
  (∀ (s : State) (p : Fin 4096) (n : Nat),
    s.ready = true →
    n ≠ 0 →
    (s.pool p).state ≠ 2 →
    (s.pool p).untaken + n ≤ 2 ^ (s.pool p).ringLog →
    (s.pool p).untaken ≠ 0 →
    exec (.poolDoorbell p n) s = .next (s.setPool p { s.pool p with tail := ((s.pool p).tail + n) % 2 ^ 32 })) ∧
  (∀ (s : State) (p : Fin 4096) (n : Nat),
    s.ready = true →
    n ≠ 0 →
    (s.pool p).state ≠ 2 →
    n ≤ 2 ^ (s.pool p).ringLog →
    (s.pool p).untaken = 0 →
    exec (.poolDoorbell p n) s = .next ((s.setPool p { s.pool p with tail := ((s.pool p).tail + n) % 2 ^ 32 }).headArrives p)) ∧
  (∀ (s : State) (p : Fin 4096) (n : Nat) (x : Pool),
    s.ready = true →
    n ≠ 0 →
    x = s.pool p →
    x.state ≠ 2 →
    2 ^ x.ringLog < x.untaken + n →
    exec (.poolDoorbell p n) s = .next (((s.setPool p { x with state := 2, err := 3, held := false }).setF (.cdie x.home)
      Reg.CDIE.DISP_LAST_POOL p).raise (.cdie x.home) Evt.CDIE.POOL_ERR)) ∧
  (∀ (s : State) (p : Fin 4096) (n : Nat),
    n = 0 ∨ (s.pool p).state = 2 →
    exec (.poolDoorbell p n) s = .next s) ∧
  (∀ (s : State) (p : Fin 4096) (v : Word) (x : Pool) (errs : LineErrs),
    s.ready = true →
    x = s.pool p →
    (v.toNat + 2 ^ 32 - x.cqHead) % 2 ^ 32 ≤ (x.cqTail + 2 ^ 32 - x.cqHead) % 2 ^ 32 →
    exec (.poolCqHeadWrite p v errs) s = .next (((s.setPool p { x with cqHead := v.toNat }).findErrs errs).goCancelled p) ∧
      (x.cancelled = [] → exec (.poolCqHeadWrite p v []) s = .next (s.setPool p { x with cqHead := v.toNat }))) ∧
  (∀ (s : State) (p : Fin 4096) (v : Word) (x : Pool) (errs : LineErrs),
    s.ready = true →
    x = s.pool p →
    (x.cqTail + 2 ^ 32 - x.cqHead) % 2 ^ 32 < (v.toNat + 2 ^ 32 - x.cqHead) % 2 ^ 32 →
    exec (.poolCqHeadWrite p v errs) s = .next (((s.setPool p { x with state := 2, err := 4, held := false }).setF (.cdie x.home)
      Reg.CDIE.DISP_LAST_POOL p).raise (.cdie x.home) Evt.CDIE.POOL_ERR)) ∧
  (∀ (s : State) (x : Pool),
    x = s.pool s.poolSel →
    exec .poolEnable s = .next (if x.state = 0 then s.setPool s.poolSel { x with state := 1 } else s) ∧
      exec .poolDisable s = .next (if x.state = 1 then s.setPool s.poolSel { x with state := 0 } else s)) ∧
  (∀ (s : State) (errs : LineErrs),
    (s.pool s.poolSel).state ≠ 1 →
    (s.pool s.poolSel).running = 0 →
    exec (.poolReload errs) s = .next ((s.findErrs errs).readEntry s.poolSel)) ∧
  (∀ (s : State) (errs : LineErrs),
    (s.pool s.poolSel).state = 1 ∨ (s.pool s.poolSel).running ≠ 0 →
    exec (.poolReload errs) s = .next s) ∧
  (∀ (s : State),
    (s.pool s.poolSel).state = 2 →
    (s.pool s.poolSel).running = 0 →
    exec .poolClear s = .next (s.setPool s.poolSel { Pool.init with
      entry := (s.pool s.poolSel).entry, granted := (s.pool s.poolSel).granted })) ∧
  (∀ (s0 s b : State) (p : Nat) (x : Pool) (lines : LineErrs),
    s = s0.findErrs lines →
    p = s.poolSel →
    x = s.pool p →
    (b = (List.range (x.untaken - 1)).foldl (fun a i => a.ringRead x ((x.head + i + 1) % 2 ^ 32)) s) →
    exec (.poolFlush lines) s0 = .next ((b.setPool p { x with
        head := x.tail, held := x.held && !x.retries.isEmpty, waitGen := none
        cancelled := x.cancelled ++ (List.range x.untaken).map (fun i => (s.drove, s.ringDesc x ((x.head + i) % 2 ^ 32))) }).goCancelled p)) ∧
  (∀ (s0 s : State) (x : Pool) (lines : LineErrs),
    s = s0.findErrs lines →
    x = s.pool s.poolSel →
    x.untaken = 0 →
    x.cancelled = [] →
    x.retries = [] →
    exec (.poolFlush lines) s0 = .next (s.setPool s.poolSel { x with head := x.tail, held := false, waitGen := none }))

/-- An idle tile takes a task, opens a search tier, and a FULL head is held (05_work_dispatch.md, R145, R150, R152, R153, R155, R158, R159). -/
def Obligations.TaskTakes : Prop :=
  (∀ (s : State) (d : Fin 4) (t : Fin 104) (p : Nat) (rest : List Nat) (w : Task) (x : Pool),
    s.mayTake d t = true →
    (s.tile d t).slot0 = none ∧ (s.tile d t).slot1 = none →
    s.poolOrder d t = p :: rest →
    s.headEligible p = true →
    x = s.pool p →
    x.partnerEn = false →
    s.poolHead p = .fresh w →
    w.check = 0 →
    exec (.taskTake d t [] []) s = .next ((((((s.setPool p { x with head := (x.head + 1) % 2 ^ 32, running := x.running + 1, held := false }).acquire w).headArrives p).placeTask d t 0 w).tookFrom d t p))) ∧
  (∀ (s a : State) (d : Fin 4) (t : Fin 104) (p : Nat) (rest : List Nat) (w : Task) (x : Pool),
    s.mayTake d t = true →
    (s.tile d t).slot0 = none ∧ (s.tile d t).slot1 = none →
    s.poolOrder d t = p :: rest →
    s.headEligible p = true →
    x = s.pool p →
    x.partnerEn = false →
    s.poolHead p = .fresh w →
    w.check ≠ 0 →
    a = ((s.setPool p { x with head := (x.head + 1) % 2 ^ 32, running := x.running + 1, held := false }).acquire w).headArrives p →
    exec (.taskTake d t [] []) s = .next ((a.badDesc d t 0 w 5 w.check).tookFrom d t p)) ∧
  (∀ (s : State) (d : Fin 4) (t : Fin 104),
    s.mayTake d t = false ∨ s.poolOrder d t = [] →
    exec (.taskTake d t [] []) s = .next s) ∧
  (∀ (s : State) (d : Fin 4) (t : Fin 104) (n : Fin 6) (x : Tile),
    s.tileActive d t = true →
    x = s.tile d t →
    x.room = true →
    2 ≤ n.val →
    n.val ∉ x.tiers →
    x.idleAt + s.tierAfter n ≤ s.elapsed →
    exec (.searchTierOpen d t n) s = .next (s.setTile d t { x with tiers := x.tiers ++ [n.val] })) ∧
  (∀ (s : State) (p : Fin 4096) (w : Task) (x : Pool),
    x = s.pool p →
    x.held = false →
    x.partnerEn = false →
    s.headEligible p = true →
    headTask (s.poolHead p) = some w →
    w.engine = 2 →
    exec (.fullHold p) s = .next ((s.setPool p { x with held := true }).raise (.cdie x.home) Evt.CDIE.FULL_HOLD))

/-- A kernel starts; tasks end by exit, abort, time limit and with their partner; POST rings a doorbell (05_work_dispatch.md, R78, R147, R150, R159, R160, R161, R163, R164, R165, R167, 03_compute_tiles.md). -/
def Obligations.TaskStartsAndEnds : Prop :=
  (∀ (s a b : State) (d : Fin 4) (t : Fin 104) (k : Fin 2) (w : Task) (e : KEntry) (x : Tile),
    x = s.tile d t →
    x.slot k = some w →
    x.cached w = some e →
    w.start = none →
    e.engine = w.engine →
    (s.pool w.pool).home = d →
    a = s.setTile d t { x with kcache := { e with users := e.users ++ [k.val] } :: x.kcache.erase e } →
    (b = (match x.engineTo with | some g => (a.setTile d t { a.tile d t with engineTo := none }).setF (.tile d t) Reg.TILE.STATE_ENGINE g | none => a)) →
    exec (.taskStart d t k) s = .next ((b.setSlot d t k (some { w with start := some b.elapsed })).addPair (.cdie d)
      Reg.CDIE.DISP_TAKEN_LO Reg.CDIE.DISP_TAKEN_HI 1)) ∧
  (∀ (s0 s : State) (d : Fin 4) (t : Fin 104) (k : Fin 2) (w : Task) (cmd : Instr) (code : BitVec 8) (same : List TaskEnd) (e : TaskEnd)
      (status cause : Nat) (lines : LineErrs),
    s = s0.findErrs lines →
    (cmd = .taskExit d t k same lines ∧ e = .exit ∧ status = 0 ∧ cause = 0) ∨
      (cmd = .taskAbort d t k code same lines ∧ e = .abort code ∧ status = 4 ∧ cause = code.toNat) ∨
      (cmd = .taskTimeout d t k same lines ∧ e = .timeout ∧ status = 3 ∧ cause = 0) →
    firstEnd ((e :: same).filter (s.endGood d t k)) = some e →
    (s.tile d t).slot k = some w →
    w.pair = false →
    w.held = none →
    exec cmd s0 = .next (if w.retries status cause then (s.clearSlot d t k).requeue w
      else (s.clearSlot d t k).finish w status cause d (s.slotOf d t) k s.drove (.task d t k) true)) ∧
  (∀ (s0 s : State) (d : Fin 4) (t : Fin 104) (k : Fin 2) (cmd : Instr) (code : BitVec 8) (same : List TaskEnd) (e : TaskEnd) (c : Nat) (lines : LineErrs),
    s = s0.findErrs lines →
    (cmd = .taskExit d t k same lines ∧ e = .exit) ∨ (cmd = .taskAbort d t k code same lines ∧ e = .abort code) ∨
      (cmd = .taskTimeout d t k same lines ∧ e = .timeout) →
    (firstEnd ((e :: same).filter (s.endGood d t k)) = some (.fault c) → exec cmd s0 = .next (s.endTask d t k 1 c)) ∧
      (firstEnd ((e :: same).filter (s.endGood d t k)) = some (.tileFailed c) → exec cmd s0 = .next (s.failTile d t c none))) ∧
  (∀ (s0 s : State) (d : Fin 4) (t : Fin 104) (k : Fin 2) (w : Task) (st : Nat) (lines : LineErrs),
    s = s0.findErrs lines →
    (s.tile d t).slot k = some w →
    w.pair = true →
    w.fate = some st →
    (s.partnerOf d t k).bind Task.held = none →
    exec (.partnerEnd d t k lines) s0 = .next ((s.clearSlot d t k).finish w 6 st d (s.slotOf d t) k s.drove (.task d t k) true)) ∧
  (∀ (s : State) (d : Fin 4) (t : Fin 104) (k : Fin 2) (p : Fin 4096) (n : Nat) (w : Task) (a : State),
    s.kernelRuns d t k = true →
    (s.tile d t).slot k = some w →
    a = s.setSlot d t k (some { w with post := some (p.val, n) }) →
    (s.tile d t).dms k ≠ [] →
    exec (.kernelPost d t k p n) s = .next a)

/-- A memory channel starts up; the scrubber reads its lines (06_memory.md, R183, R184, R185, R193, R196, R546, 18_errors_faults.md, R188, R189, R190, R191). -/
def Obligations.ChannelsAndTheirLines : Prop :=
  (∀ (s t a : State) (m : Fin 12) (ch : Fin 16) (check ok full : Bool) (k : Calib),
    s.chanState (chanNo m ch) = 1 →
    s.mm.trained.getD (chanNo m ch) false = false →
    full = !(s.calFits (chanNo m ch) k && check) →
    full = false ∨ ok = true →
    t = s.raise (.mstk m) Evt.MSTK.TRAIN_FULL →
    (a = if full then { t with mm := { t.mm with cal := t.mm.cal.put (chanNo m ch) k } } else s) →
    (a.startFrames (chanNo m ch)).chanState (chanNo m ch) = 1 →
    exec (.channelTrainDone m ch check ok k) s = .next { a.startFrames (chanNo m ch) with
        mm := { (a.startFrames (chanNo m ch)).mm with trained := (a.startFrames (chanNo m ch)).mm.trained.put (chanNo m ch) true } }) ∧
  (∀ (s : State) (m : Fin 12) (ch : Fin 16) (check : Bool) (k : Calib),
    s.chanState (chanNo m ch) = 1 →
    s.mm.trained.getD (chanNo m ch) false = false →
    (s.calFits (chanNo m ch) k && check) = false →
    exec (.channelTrainDone m ch check false k) s =
      .next ((((s.raise (.mstk m) Evt.MSTK.TRAIN_FULL).chanFail (chanNo m ch)).emptyUe (chanNo m ch)).fenceIfNoMemory)) ∧
  (∀ (s a : State) (m : Fin 12) (ch : Fin 16),
    s.chanState (chanNo m ch) = 1 →
    s.mm.trained.getD (chanNo m ch) false = true →
    a = (s.setF (.mchn m ch) Reg.MCHN.STATE_STATE 2).setF (.mchn m ch) Reg.MCHN.STATE_CAUSE 0 →
    exec (.memoryFillDone m ch) s = .next (((({ a with mm := { a.mm with trained := a.mm.trained.del (chanNo m ch) } } : State).setOwn (.mchn m ch) 0).frameCounts).placeCounts)) ∧
  (∀ (s a : State) (m : Fin 12) (ch : Fin 16) (f : Fin 3072) (line : Fin 32768) (u : UnitId),
    s.serving (chanNo m ch) = true →
    s.frameLive (frameId m ch f) = true →
    s.mm.ue.getD (lineKey (frameId m ch f) line) false = false →
    u = chanUnit (frameChan (frameId m ch f)) →
    a = (State.lastErr ((s.bump u Reg.MCHN.CE_COUNT_COUNT).raise u Evt.MCHN.CE) (frameId m ch f) line false).addPair u Reg.MCHN.WR_BYTES_LO Reg.MCHN.WR_BYTES_HI 64 →
    ((a.mm.ce.put (lineKey (frameId m ch f) line) s.elapsed).filter (fun e => e.1 / 2 ^ 15 == frameId m ch f && decide (s.elapsed ≤ e.2 + ns24h))).length < 8 →
    exec (.scrubLine m ch f line none) s = .next s ∧
      exec (.scrubLine m ch f line (some false)) s = .next { a with mm := { a.mm with ce := a.mm.ce.put (lineKey (frameId m ch f) line) s.elapsed } }) ∧
  (∀ (s a b : State) (m : Fin 12) (ch : Fin 16) (f : Fin 3072) (line : Fin 32768) (u : UnitId),
    s.serving (chanNo m ch) = true →
    s.frameLive (frameId m ch f) = true →
    s.mm.ue.getD (lineKey (frameId m ch f) line) false = false →
    u = chanUnit (frameChan (frameId m ch f)) →
    a = State.lastErr ((s.bump u Reg.MCHN.UE_COUNT_COUNT).raise u Evt.MCHN.UE) (frameId m ch f) line true →
    a.getF u Reg.MCHN.UE_TAB_USED < 64 →
    b = { a with mm := { a.mm with ue := a.mm.ue.put (lineKey (frameId m ch f) line) true } } →
    exec (.scrubLine m ch f line (some true)) s = .next ((b.setF u Reg.MCHN.UE_TAB_USED (b.getF u Reg.MCHN.UE_TAB_USED + 1)).markRetire (frameId m ch f)))

/-- Tracking, retries and retrains of a channel in service (06_memory.md, R185, R196, R197, R546, 18_errors_faults.md). -/
def Obligations.ChannelLinksAndTraining : Prop :=
  (∀ (s : State) (m : Fin 12) (ch : Fin 16) (n : Nat),
    s.serving (chanNo m ch) = true →
    (s.mg.fw.hptTo.any (fun w => decide (s.elapsed < w)) = false) →
    exec (.channelTrack m ch 0 n) s = .next (s.bumpBy (.mchn m ch) Reg.MCHN.ODE_COUNT_COUNT n)) ∧
  (∀ (s : State) (m : Fin 12) (ch : Fin 16) (r n : Nat),
    (s.mg.fw.hptTo.any (fun w => decide (s.elapsed < w)) = true) →
    exec (.channelTrack m ch r n) s = .next s) ∧
  (∀ (s a : State) (m : Fin 12) (ch : Fin 16) (r n : Nat) (log : List Nat),
    s.serving (chanNo m ch) = true →
    r ≠ 0 →
    a = s.bumpBy (chanUnit (chanNo m ch)) Reg.MCHN.LINK_RETRY_COUNT r →
    (log = ((a.mm.retryLog.getD (chanNo m ch) []).filter (fun t => decide (a.elapsed ≤ t + ns1s))) ++ List.replicate (min r 1001) a.elapsed) →
    log.length ≤ 1000 →
    (s.mg.fw.hptTo.any (fun w => decide (s.elapsed < w)) = false) →
    exec (.channelTrack m ch r n) s = .next (({ a with mm := { a.mm with retryLog := a.mm.retryLog.putD (chanNo m ch) log [] } } : State).bumpBy
        (.mchn m ch) Reg.MCHN.ODE_COUNT_COUNT n)) ∧
  (∀ (s a : State) (m : Fin 12) (ch : Fin 16),
    s.serving (chanNo m ch) = true →
    a = s.retried (chanNo m ch) 1 →
    a.serving (chanNo m ch) = true →
    exec (.channelRetrain m ch) s = .next { a with mm := { a.mm with retraining := a.mm.retraining.put (chanNo m ch) true } }) ∧
  (∀ (s : State) (m : Fin 12) (ch : Fin 16),
    s.ready = true →
    s.serving (chanNo m ch) = true →
    exec (.mchnRetrain m ch) s = .next { s with mm := { s.mm with retraining := s.mm.retraining.put (chanNo m ch) true } }) ∧
  (∀ (s a b : State) (m : Fin 12) (ch : Fin 16),
    s.mm.retraining.getD (chanNo m ch) false = true →
    s.serving (chanNo m ch) = true →
    a = { s with mm := { s.mm with retraining := s.mm.retraining.del (chanNo m ch) } } →
    b = (a.bump (.mchn m ch) Reg.MCHN.RETRAINS_COUNT).raise (.mchn m ch) Evt.MCHN.RETRAIN →
    exec (.channelRetrainDone m ch true) s = .next { b with mm := { b.mm with
        retrainLog := b.mm.retrainLog.put (chanNo m ch) (((b.mm.retrainLog.getD (chanNo m ch) []).filter (fun t => decide (b.elapsed ≤ t + ns24h))) ++ [b.elapsed]) } } ∧
      exec (.channelRetrainDone m ch false) s = .next ((a.chanFail (chanNo m ch)).fenceIfNoMemory))

/-- A channel is retired, its drain ends or goes on; a stack's temperature sets its refresh (06_memory.md, 07_data_placement.md, R186, R195, R197, R224). -/
def Obligations.ChannelDrainsAndHeat : Prop :=
  (∀ (s a : State) (m : Fin 12) (ch : Fin 16) (u : UnitId),
    s.ready = true →
    s.chanState (chanNo m ch) = 2 →
    u = chanUnit (chanNo m ch) →
    a = ((((s.setF u Reg.MCHN.STATE_STATE 3).setF u Reg.MCHN.STATE_CAUSE 4).setOwn u 1).raise u Evt.MCHN.STATE_CHANGE).frameCounts →
    exec (.mchnRetire m ch) s = .next (((a.abandonTo (chanNo m ch)).placeCounts).drainStep (chanNo m ch))) ∧
  (∀ (s : State) (m : Fin 12) (ch : Fin 16),
    s.chanState (chanNo m ch) ≠ 2 →
    exec (.mchnRetire m ch) s = .next s) ∧
  (∀ (s : State) (m : Fin 12) (ch : Fin 16),
    s.chanState (chanNo m ch) = 3 →
    s.drainOrder (chanNo m ch) = [] →
    exec (.channelDrainDone m ch) s = .next ((s.chanOut (chanNo m ch) 4).fenceIfNoMemory)) ∧
  (∀ (s : State) (m : Fin 12) (ch : Fin 16),
    s.chanState (16 * m.val + ch.val) = 3 →
    s.mm.drainStalled.getD (16 * m.val + ch.val) false = true →
    0 < s.freeFrames ∨ s.spillBar s.victims = none →
    exec (.drainResume m ch) s = .next (({ s with mm := { s.mm with drainStalled := s.mm.drainStalled.del (16 * m.val + ch.val) } } : State).drainStep (16 * m.val + ch.val))) ∧
  (∀ (s a : State) (m : Fin 12) (v : BitVec 8) (r : Nat),
    r = refreshRate (s.getF (.mstk m) Reg.MSTK.TEMP_REFRESH) v.toNat →
    a = (s.setF (.mstk m) Reg.MSTK.TEMP_DEGC v.toNat).setF (.mstk m) Reg.MSTK.TEMP_REFRESH r →
    exec (.stackTempRead m v) s = .next (if r = 2 ∧ s.getF (.mstk m) Reg.MSTK.TEMP_REFRESH ≠ 2 then a.raise (.mstk m) Evt.MSTK.MEM_HOT else a))

/-- Placement requests are checked and begun one at a time, and end (07_data_placement.md, R203, R204, R205, R206, R207, R208, R210, R219). -/
def Obligations.PlacementRequestLife : Prop :=
  (∀ (s a : State) (cmd : Instr) (op : Nat) (pin die : Fin 4) (sf : Bool) (q : PlaceReq) (st : Nat),
    (cmd = .placeAlloc pin die sf ∧ op = 1) ∨ (cmd = .placeFree pin die sf ∧ op = 2) ∨ (cmd = .placeSetPin pin die sf ∧ op = 3) ∨
      (cmd = .placeQuery pin die sf ∧ op = 4) ∨ (cmd = .placeFreeGuests pin die sf ∧ op = 5) ∨
      (∃ v, cmd = .placeReqReserved v pin die sf ∧ op = if v then 7 else 6) →
    s.ready = true →
    s.isSet .place Reg.PLACE.REQ_STAT_BUSY = false →
    a.hcAway = false →
    a = ((((s.setF .place Reg.PLACE.REQ_CTL_OP op).setF .place Reg.PLACE.REQ_CTL_PIN pin).setF .place Reg.PLACE.REQ_CTL_DIE die).setF
      .place Reg.PLACE.REQ_CTL_SPILL_FIRST sf.toNat).setF .place Reg.PLACE.REQ_STAT_BUSY 1 →
    q = ⟨op, a.getF .place Reg.PLACE.REQ_PAGE_PAGE, a.getF .place Reg.PLACE.REQ_COUNT_COUNT, pin, die, sf, 0, none, 0, [], [], false, false⟩ →
    a.reqCheck q = st →
    st ≠ 0 →
    exec cmd s = .next (a.setReq { q with status := some st, doneOut := 0 })) ∧
  (∀ (s a : State) (cmd : Instr) (op n : Nat) (pin die : Fin 4) (sf : Bool) (q : PlaceReq),
    (cmd = .placeAlloc pin die sf ∧ op = 1) ∨ (cmd = .placeFree pin die sf ∧ op = 2) ∨ (cmd = .placeSetPin pin die sf ∧ op = 3) ∨
      (cmd = .placeQuery pin die sf ∧ op = 4) ∨ (cmd = .placeFreeGuests pin die sf ∧ op = 5) ∨
      (∃ v, cmd = .placeReqReserved v pin die sf ∧ op = if v then 7 else 6) →
    s.ready = true →
    s.isSet .place Reg.PLACE.REQ_STAT_BUSY = false →
    a.hcAway = false →
    a = ((((s.setF .place Reg.PLACE.REQ_CTL_OP op).setF .place Reg.PLACE.REQ_CTL_PIN pin).setF .place Reg.PLACE.REQ_CTL_DIE die).setF
      .place Reg.PLACE.REQ_CTL_SPILL_FIRST sf.toNat).setF .place Reg.PLACE.REQ_STAT_BUSY 1 →
    q = ⟨op, a.getF .place Reg.PLACE.REQ_PAGE_PAGE, a.getF .place Reg.PLACE.REQ_COUNT_COUNT, pin, die, sf, 0, none, 0, [], [], false, false⟩ →
    a.reqCheck q = 0 →
    (op = 2 ∧ n = q.count) ∨ (op = 4 ∧ n = 1) ∨ (op = 5 ∧ n = a.mm.guests.length) ∨
      (op = 1 ∧ sf = false ∧ pin ≠ 2 ∧ q.count ≤ a.freeFrames ∧ n = q.count) →
    exec cmd s = .next (a.setReq { q with status := some 0, doneOut := n })) ∧
  (∀ (s a : State) (pin die : Fin 4) (sf : Bool) (q : PlaceReq) (cmd : Instr) (op : Nat),
    (cmd = .placeAlloc pin die sf ∧ op = 1) ∨ (cmd = .placeFree pin die sf ∧ op = 2) ∨ (cmd = .placeSetPin pin die sf ∧ op = 3) ∨
      (cmd = .placeQuery pin die sf ∧ op = 4) ∨ (cmd = .placeFreeGuests pin die sf ∧ op = 5) ∨
      (∃ v, cmd = .placeReqReserved v pin die sf ∧ op = if v then 7 else 6) →
    s.ready = true →
    s.isSet .place Reg.PLACE.REQ_STAT_BUSY = false →
    a.hcAway = false →
    a = ((((s.setF .place Reg.PLACE.REQ_CTL_OP op).setF .place Reg.PLACE.REQ_CTL_PIN pin).setF .place Reg.PLACE.REQ_CTL_DIE die).setF
      .place Reg.PLACE.REQ_CTL_SPILL_FIRST sf.toNat).setF .place Reg.PLACE.REQ_STAT_BUSY 1 →
    q = ⟨op, a.getF .place Reg.PLACE.REQ_PAGE_PAGE, a.getF .place Reg.PLACE.REQ_COUNT_COUNT, pin, die, sf, 0, none, 0, [], [], false, false⟩ →
    a.reqCheck q = 0 →
    op = 3 →
    exec cmd s = .next ((a.setReq q).pinStep (2 * q.count + 2))) ∧
  (∀ (s : State) (cmd : Instr) (op : Nat) (pin die : Fin 4) (sf : Bool),
    (cmd = .placeAlloc pin die sf ∧ op = 1) ∨ (cmd = .placeFree pin die sf ∧ op = 2) ∨ (cmd = .placeSetPin pin die sf ∧ op = 3) ∨
      (cmd = .placeQuery pin die sf ∧ op = 4) ∨ (cmd = .placeFreeGuests pin die sf ∧ op = 5) ∨
      (∃ v, cmd = .placeReqReserved v pin die sf ∧ op = if v then 7 else 6) →
    s.isSet .place Reg.PLACE.REQ_STAT_BUSY = true →
    exec cmd s = .next s) ∧
  (∀ (s : State) (q : PlaceReq),
    s.mm.req = some q →
    q.status = some 0 →
    s.hcAway = false →
    s.reqReady q = true →
    q.op ≠ 5 →
    exec .placeReqDone s =
      .next ((((((({ s with mm := { s.mm with req := none } } : State).reqEffect q).setF .place Reg.PLACE.REQ_DONE_PAGES q.doneOut).setF .place Reg.PLACE.REQ_SHORT_PAGES 0).setF .place
        Reg.PLACE.REQ_STAT_STATUS 0).setF .place Reg.PLACE.REQ_STAT_BUSY 0).placeCounts)) ∧
  (∀ (s : State) (q : PlaceReq) (st : Nat),
    s.mm.req = some q →
    q.status = some st →
    st ≠ 0 →
    s.hcAway = false →
    q.spillFirst = false →
    exec .placeReqDone s =
      .next (((((((({ s with mm := { s.mm with req := none } } : State).setF .place Reg.PLACE.REQ_DONE_PAGES q.doneOut).setF .place Reg.PLACE.REQ_SHORT_PAGES (if q.op = 1 ∧ (st = 1 ∨ st = 2) then q.count - q.doneOut else 0)).setF .place
        Reg.PLACE.REQ_STAT_STATUS st).setF .place Reg.PLACE.REQ_STAT_BUSY 0).raise .place Evt.PLACE.ALLOC_FAIL)).placeCounts)) ∧
  (∀ (s : State),
    s.mm.req = none →
    exec .placeReqDone s = .next s)

/-- Epochs, heat counts, lost-page scans and zeroed frames (07_data_placement.md, R202, R207, R211, R212). -/
def Obligations.HeatAndScans : Prop :=
  (∀ (s : State) (c : Fin 6) (p : Fin 1048576) (e : XEntry) (x : Page),
    s.mm.xlat.find (c * 2 ^ 20 + p) = some e →
    x = s.page p →
    x.st ≠ .free →
    exec (.heatCountFlush c p) s = .next (({ s with mm := { s.mm with xlat := s.mm.xlat.del (c * 2 ^ 20 + p) } } : State).setPg (.own p) { x with
        cnt := x.cnt.plus e.cnt, byFid := e.byFid.foldl (fun m x => m.put x.1 (m.getD x.1 0 + x.2)) x.byFid })) ∧
  (∀ (s a : State),
    (a = { s.flushAll with mm := { s.flushAll.mm with
      pages := s.flushAll.mm.pages.map (fun (e : Nat × Page) => (e.1, e.2.epoch))
      guests := s.flushAll.mm.guests.map (fun (e : Nat × Page) => (e.1, e.2.epoch))
      epochBytes := 0 } }) →
    a.hcAway = false →
    exec .placeEpochEnd s =
      .next (a.startCands (a.getF .place Reg.PLACE.MIG_BUDGET_GBPS * 1000 * a.getF .place Reg.PLACE.EPOCH_US) a.candidates)) ∧
  (∀ (s : State) (f : Fin 1048576) (p : Nat) (x : Page),
    s.ready = true →
    (s.mm.pages.find? (fun e => decide (f.val ≤ e.1) && e.2.st = .lost)) = some (p, x) →
    ∃ t, exec (.lostScan f) s = .next t ∧ t.lostNext = p + 2 ^ 31 ∧
      t = ((s.setF .place Reg.PLACE.LOST_SCAN_FROM f).setF .place Reg.PLACE.LOST_NEXT_PAGE (Config.freeNat s.freeCtr % 2 ^ 20)).tickFree) ∧
  (∀ (s a : State) (f : Fin 1048576),
    s.mm.zeroing.getD f false = true →
    a = s.addPair (chanUnit (frameChan f)) Reg.MCHN.WR_BYTES_LO Reg.MCHN.WR_BYTES_HI (2 ^ 21) →
    exec (.frameZeroDone f) s = .next (((({ a with mm := { a.mm with zeroing := a.mm.zeroing.del f } } : State).retireWaiting (frameChan f)).drainAll).reqStep))

/-- The passes of a page move, and its end (07_data_placement.md, R197, R213, R214, 06_memory.md). -/
def Obligations.PageMoves : Prop :=
  (∀ (s a : State) (g : Bool) (k : Nat) (m : Move) (p : Page),
    p = s.pg (pgRef g k) →
    p.move = some m →
    m.granted = true →
    m.pass < 4 →
    s.spillBusy (pgRef g k) = false →
    (a = s.copyBytes p m (if m.pass = 1 then 32768 else m.todo.length)) →
    s.pageListed p = false →
    exec (.movePassDone g k []) s = .next ((a.setPg (pgRef g k) { p with move := some { m with
        pass := if m.pass = 3 ∨ m.marked.length ≤ 64 then 4 else m.pass + 1
        todo := m.marked, marked := [] } }).copyMarked (pgRef g k) m.marked)) ∧
  (∀ (s a b : State) (k id new : Nat) (m : Move) (p : Page),
    p = s.page k →
    p.move = some m →
    m.granted = true →
    m.pass = 4 →
    m.dest = .frame new →
    s.pageOfFrame new = none →
    s.mm.zeroing.getD new false = false →
    p.place = .frame id →
    m.why ≠ .retire →
    s.spillBusy (.own k) = false →
    b = s.copyBytes p m m.todo.length →
    a = (b.invalidate k) →
    (a.page k).frame? = some id →
    (a.page k).place = .frame id →
    s.pageListed p = false →
    exec (.pageMoveDone false k []) s = .next (((((((a.setPg (.own k) { a.page k with st := .loc, place := .frame new, move := none }).releaseHeld m
        (.frame new)).addPair .place
        Reg.PLACE.MOVES_LO Reg.PLACE.MOVES_HI 1).leaveFrame id).drainStep (frameChan id)).placeCounts).reqStep))

/-- HELLO frames sent and received; LOAD and EDIT of a destination table (08_fabric_topology.md, R233, R241, R242, R243, R246, R249, R236, R238, R257). -/
def Obligations.HelloFramesAndDestinationTables : Prop :=
  (∀ (s a b : State) (p : Fin 16),
    s.linkActive p = true →
    s.inGap p = false →
    s.farLoop p = false →
    a = s.setLink p { s.link p with helloSeq := ((s.link p).helloSeq + 1) % 2 ^ 32 } →
    b = (a.wakePort p).emit (.sync p (syncFlits 0 (a.link p).sRx (a.link p).sNak (.hello (s.helloOf p)))) →
    exec (.helloSend p) s = .next (b.setLink p { b.link p with sDue := false, sNak := false })) ∧
  (∀ (s : State) (p : Fin 16),
    s.linkActive p = true →
    s.inGap p = true →
    s.farLoop p = false →
    exec (.helloSend p) s = .next (s.setLink p { s.link p with helloDue := true })) ∧
  (∀ (s a b c d : State) (p : Fin 16) (hdr : SHdr) (h : Hello) (sees same : Bool),
    s.linkActive p = true →
    a = s.syncAcked p hdr →
    helloGood h = true →
    d = ((((((((((a.setPair (.port p) Reg.PORT.NBR_SERIAL_LO Reg.PORT.NBR_SERIAL_HI h.serial).setF (.port p) Reg.PORT.NBR_INFO_PORT h.port).setF
        (.port p) Reg.PORT.NBR_INFO_KIND h.kind).setF (.port p) Reg.PORT.NBR_INFO_REACH h.reach.toNat).setF (.port p) Reg.PORT.NBR_INFO_FID_VALID
        h.fidValid.toNat).setF (.port p) Reg.PORT.NBR_INFO_STATE h.state).setF (.port p) Reg.PORT.NBR_INFO_VALID 1).setF (.port p)
        Reg.PORT.NBR_FID_FID h.fid).setF (.port p) Reg.PORT.NBR_EPOCH h.fwEpoch)) →
    (b = (if h.kind = 1 then d else (d.setF (.port p) Reg.PORT.NBR_INFO_DIMS h.dims).setF (.port p) Reg.PORT.NBR_POS_POS h.pos).bump (.port p) Reg.PORT.HELLO_RX_COUNT) →
    (c = if a.nbrDiffers p h then b.raise (.port p) Evt.PORT.NBR_CHANGE else b) →
    sees = (h.seenValid && h.seenSerial == c.serial && h.seenPort == p.val) →
    exec (.helloReceive p hdr h same) s = .next (let e := c.setLink p { c.link p with
        heard := true, seesUs := sees, seen := true, tr := { (c.link p).tr with serial := h.serial } }
      if same then e else e.judgeAdmit p sees)) ∧
  (∀ (s : State) (p : Fin 16) (hdr : SHdr) (h : Hello) (same : Bool),
    s.linkActive p = true →
    helloGood h = false →
    exec (.helloReceive p hdr h same) s = .next ((s.syncAcked p hdr).bump (.port p) Reg.PORT.HELLO_BAD_COUNT)) ∧
  (∀ (s : State) (p : Fin 16),
    s.linkActive p = true →
    exec (.helloSilence p) s = .next ((s.setLink p { s.link p with heard := false, loopSilent := s.farLoop p }).readmit p)) ∧
  (∀ (s : State) (h : Fin 2) (cmd : Instr) (n : Nat),
    (cmd = .dtabLoad h ∧ n = 1) ∨ (cmd = .dtabEdit h ∧ n = 2) →
    s.ready = true →
    exec cmd s = .next (if (s.rout h).dbusy = 0 then ((((s.setRout h { s.rout h with dbusy := n }).setF (.rout h)
        Reg.ROUT.DTAB_STAT_BUSY 1)).stageMark (.rout h)) else s)) ∧
  (∀ (s a : State) (h : Fin 2),
    (s.rout h).dbusy = 2 →
    a = s.setRout h { s.rout h with dshadow := (s.rout h).dshadow.putD (s.getF (.rout h) Reg.ROUT.DTAB_EDIT_ID_FID) (s.getW (.rout h) Reg.ROUT.DTAB_EDIT_VAL.off) 0, dstaged := true, crcs := { (s.rout h).crcs with shadow := true } } →
    exec (.dtabLoadDone h []) s = .next ((a.setRout h { a.rout h with dbusy := 0 }).setF (.rout h) Reg.ROUT.DTAB_STAT_BUSY 0)) ∧
  (∀ (s a b : State) (h : Fin 2) (src st : Nat),
    (s.rout h).dbusy = 1 →
    src = s.getPair (.rout h) Reg.ROUT.DTAB_SRC_LO Reg.ROUT.DTAB_SRC_HI →
    s.imageStatus src (2 ^ 22) 4096 = st →
    a = ((s.setRout h { s.rout h with dbusy := 0 }).setF (.rout h) Reg.ROUT.DTAB_STAT_BUSY 0).setF (.rout h) Reg.ROUT.DTAB_STAT_RESULT st →
    b = a.countImage (.hub h) src (2 ^ 22) →
    exec (.dtabLoadDone h []) s = .next (match st with
      | 0 => (b.setRout h { a.rout h with dshadow := wordsAt b.mm.mem src (2 ^ 22), dstaged := true, dundef := false, crcs := { (a.rout h).crcs with shadow := true } }).raise
          (.rout h) Evt.ROUT.DTAB_LOADED
      | 1 => a.raise (.rout h) Evt.ROUT.DTAB_FAIL
      | _ => (a.setRout h { a.rout h with dundef := true, dstaged := true }).raise (.rout h) Evt.ROUT.DTAB_FAIL))

/-- LINK_CTL and the PRBS patterns of a port (09_fabric_links.md, R271, R273, R276, R278, R286). -/
def Obligations.LinkControls : Prop :=
  (∀ (s : State) (p : Fin 16),
    s.ready = true →
    s.isSet (.port p) Reg.PORT.LINK_CTL_ENABLE = false →
    exec (.linkEnableWrite p true) s = .next ((s.setF (.port p) Reg.PORT.LINK_CTL_ENABLE 1).toStep1 p)) ∧
  (∀ (s a : State) (p : Fin 16),
    s.ready = true →
    s.isSet (.port p) Reg.PORT.LINK_CTL_ENABLE = true →
    a = s.setF (.port p) Reg.PORT.LINK_CTL_ENABLE 0 →
    a.inGap p = false →
    a.linkActive p = true →
    exec (.linkEnableWrite p false) s = .next (((((((((a.carriedNow p).bump (.port p) Reg.PORT.LINK_DOWN_COUNT).setF (.port p) Reg.PORT.LINK_STAT_CAUSE 9).toStep1 p).raise (.port p)
        Evt.PORT.LINK_DOWN).detourAll p).readmit p)).readmit p)) ∧
  (∀ (s : State) (p : Fin 16),
    s.ready = true →
    s.inGap p = false →
    s.linkActive p = true →
    exec (.linkRetrain p) s = .next (((((((s.carriedNow p).bump (.port p) Reg.PORT.LINK_DOWN_COUNT).setF (.port p) Reg.PORT.LINK_STAT_CAUSE 6).toStep1 p).raise (.port p)
        Evt.PORT.LINK_DOWN).detourAll p).readmit p)) ∧
  (∀ (s : State) (p : Fin 16) (v : Fin 8),
    s.ready = true →
    s.inGap p = true →
    v.val < 5 →
    exec (.linkRetrain p) s = .next (s.setLink p { s.link p with heldRetrain := true }) ∧
      exec (.linkTestSelect p v) s = .next (s.setLink p { s.link p with heldTest := some v.val })) ∧
  (∀ (s a b : State) (p : Fin 16) (v : Fin 8),
    s.ready = true →
    s.inGap p = false →
    v.val < 5 →
    s.admitState p ≠ 3 ∧ s.admitState p ≠ 4 →
    v.val ≠ s.testMode p →
    (b = if s.testMode p = 3 ∧ s.codewords p = true then s.sendLink p 0x04 false 0 else s) →
    b.linkActive p = false →
    a = ((b.setF (.port p) Reg.PORT.LINK_CTL_TEST v.val).toStep1 p).setF (.port p) Reg.PORT.PRBS_STAT_LOCKED 0 →
    exec (.linkTestSelect p v) s = .next (a.readmit p)) ∧
  (∀ (s a : State) (p : Fin 16) (pat : Fin 4) (gen : Bool) (lanes : BitVec 8),
    s.ready = true →
    a = ((s.setF (.port p) Reg.PORT.PRBS_CFG_PATTERN pat).setF (.port p) Reg.PORT.PRBS_CFG_GEN gen.toNat) →
    exec (.prbsConfigWrite p pat gen false lanes) s = .next (((a.setF (.port p) Reg.PORT.PRBS_CFG_CHK 0).setF (.port p) Reg.PORT.PRBS_CFG_LANES lanes.toNat).setF (.port p) Reg.PORT.PRBS_STAT_LOCKED 0)) ∧
  (∀ (s a : State) (p : Fin 16) (pat : Fin 4) (gen : Bool) (lanes : BitVec 8),
    s.ready = true →
    s.getF (.port p) Reg.PORT.PRBS_CFG_PATTERN ≠ pat.val →
    a = ((s.setF (.port p) Reg.PORT.PRBS_CFG_PATTERN pat).setF (.port p) Reg.PORT.PRBS_CFG_GEN gen.toNat) →
    exec (.prbsConfigWrite p pat gen true lanes) s = .next (((((a.setF (.port p) Reg.PORT.PRBS_CFG_CHK 1).setF (.port p) Reg.PORT.PRBS_CFG_LANES lanes.toNat)).setPair (.port p)
      Reg.PORT.PRBS_BITS_LO Reg.PORT.PRBS_BITS_HI 0).setF (.port p) Reg.PORT.PRBS_STAT_LOCKED 0)) ∧
  (∀ (s a : State) (p : Fin 16) (pat : Fin 4) (gen : Bool) (lanes : BitVec 8),
    s.ready = true →
    s.getF (.port p) Reg.PORT.PRBS_CFG_PATTERN = pat.val →
    a = (((((s.setF (.port p) Reg.PORT.PRBS_CFG_PATTERN pat).setF (.port p) Reg.PORT.PRBS_CFG_GEN gen.toNat).setF (.port p) Reg.PORT.PRBS_CFG_CHK 1).setF (.port p) Reg.PORT.PRBS_CFG_LANES lanes.toNat)).setPair (.port p) Reg.PORT.PRBS_BITS_LO Reg.PORT.PRBS_BITS_HI 0 →
    exec (.prbsConfigWrite p pat gen true lanes) s = .next (a.setF (.port p) Reg.PORT.PRBS_STAT_LOCKED
      (a.getF (.port p) Reg.PORT.PRBS_STAT_LOCKED &&& lanes.toNat))) ∧
  (∀ (s : State) (p : Fin 16) (lane : Fin 8) (bits errs : Nat),
    s.prbsOn p lane = true →
    s.getF (.port p) Reg.PORT.PRBS_STAT_LOCKED / 2 ^ lane.val % 2 = 1 →
    exec (.prbsLock p lane bits errs) s = .next (s.prbsCount p lane bits errs)) ∧
  (∀ (s : State) (p : Fin 16) (lane : Fin 8) (bits errs : Nat),
    s.prbsOn p lane = true →
    s.getF (.port p) Reg.PORT.PRBS_STAT_LOCKED / 2 ^ lane.val % 2 ≠ 1 →
    exec (.prbsLock p lane bits errs) s =
      .next (s.setF (.port p) Reg.PORT.PRBS_STAT_LOCKED (s.getF (.port p) Reg.PORT.PRBS_STAT_LOCKED ||| 2 ^ lane.val))) ∧
  (∀ (s a : State) (p : Fin 16) (lane : Fin 8) (bits errs locked : Nat),
    s.prbsOn p lane = true →
    locked = s.getF (.port p) Reg.PORT.PRBS_STAT_LOCKED →
    locked / 2 ^ lane.val % 2 = 1 →
    a = (s.setF (.port p) Reg.PORT.PRBS_STAT_LOCKED (locked - 2 ^ lane.val)).bumpBy (.port p) (Reg.PORT.LANE_PRBS_ERR_COUNT lane) errs →
    exec (.prbsLockLoss p lane bits errs) s = .next (a.setPair (.port p) Reg.PORT.PRBS_BITS_LO Reg.PORT.PRBS_BITS_HI
      (max (a.getPair (.port p) Reg.PORT.PRBS_BITS_LO Reg.PORT.PRBS_BITS_HI) bits)))

/-- Bring-up of a link, step by step, up to ACTIVE (09_fabric_links.md, R262, R269, R270, R271, R272, R303, 10_fabric_routing.md). -/
def Obligations.LinkBringUp : Prop :=
  (∀ (s a b c : State) (p : Fin 16) (lane : Fin 8) (f : TrainFrame) (w : BitVec 16) (rx : LaneRx),
    s.linkState p ≠ 0 →
    (s.link p).step < 5 →
    a = s.setF (.port p) (Reg.PORT.LANE_RXPWR_DBM lane) w.toNat →
    (b = if (s.link p).step < 2 then a.setF (.port p) Reg.PORT.LINK_STAT_RX_LOCK (a.getF (.port p) Reg.PORT.LINK_STAT_RX_LOCK) else
      a.setF (.port p) Reg.PORT.LINK_STAT_RX_LOCK (laneBit (BitVec.ofNat 8 (a.getF (.port p) Reg.PORT.LINK_STAT_RX_LOCK)) lane rx.locked).toNat) →
    (c = b.setLink p { s.link p with partner := if b.nearTest p then s.ownFrame p else f, tr := (s.link p).tr.lane (s.link p).step lane rx }) →
    exec (.trainingFrame p lane f w rx) s = .next ((if c.ownFrame p = s.ownFrame p then c else c.sendFrame p).startCodewords p)) ∧
  (∀ (s : State) (p : Fin 16),
    s.atStep p 4 = true →
    (s.ownFrame p).ready = true →
    (s.link p).partner.ready = true →
    s.startCodewords p = if (s.link p).fr.txCw = 0 then (s.sendFrame p).txCodewords p 1 else s) ∧
  (∀ (s : State) (p : Fin 16),
    s.atStep p 1 = true →
    s.isSet (.port p) Reg.PORT.LINK_CTL_ENABLE = true →
    s.isSet (.port p) Reg.PORT.LINK_CTL_TEST = false →
    exec (.linkSignalDetected p) s = .next (((s.setLink p { s.link p with step := 2, tr := { (s.link p).tr with cur := if s.calStored p then (s.link p).tr.eq else [] } }).setF (.port p) Reg.PORT.LINK_STAT_STATE 2).sendFrame p)) ∧
  (∀ (s : State) (p : Fin 16),
    s.atStep p 2 = true →
    s.isSet (.port p) Reg.PORT.LINK_CTL_ENABLE = true →
    s.isSet (.port p) Reg.PORT.LINK_CTL_TEST = false →
    (s.link p).tr.trained = 0xFF →
    (s.link p).partner.trained = 0xFF →
    (s.link p).partner.test = false →
    exec (.linkTrained p) s = .next (((s.setLink p { s.link p with step := 3 }).setF (.port p) Reg.PORT.LINK_STAT_STATE 3).sendFrame p)) ∧
  (∀ (s : State) (p : Fin 16),
    s.atStep p 3 = true →
    s.isSet (.port p) Reg.PORT.LINK_CTL_ENABLE = true →
    s.isSet (.port p) Reg.PORT.LINK_CTL_TEST = false →
    (s.ownFrame p).locked = true →
    (s.link p).partner.locked = true →
    exec (.linkCdrLocked p) s = .next (((s.setLink p { s.link p with step := 4 }).setF (.port p) Reg.PORT.LINK_STAT_STATE 4).sendFrame p)) ∧
  (∀ (s a b : State) (p : Fin 16),
    s.atStep p 4 = true →
    s.isSet (.port p) Reg.PORT.LINK_CTL_ENABLE = true →
    s.isSet (.port p) Reg.PORT.LINK_CTL_TEST = false →
    (s.ownFrame p).ready = true →
    (s.link p).partner.ready = true →
    0 < (s.link p).fr.txCw →
    b = (s.setLink p { s.link p with step := 5 }).setF (.port p) Reg.PORT.LINK_STAT_STATE 5 →
    a = b.setLink p { b.link p with capRx := false, capAcked := false, rxNum := 0, fr := { Framing.init with rxCw := 8, txCw := (b.link p).fr.txCw } } →
    a.testMode p = 0 →
    exec (.linkAligned p) s = .next (a.sendCap p)) ∧
  (∀ (s0 s a : State) (p : Fin 16) (ack : Fin 1048576) (lv mn : BitVec 8) (idle fl : Bool),
    (s0.fromSelf p (fun g => g == flitOf .link (linkBody 0x01 ack false (capBody lv.toNat mn.toNat idle fl))) = some s) →
    s.atStep p 5 = true →
    s.running p = false →
    a = ((((s.setF (.port p) Reg.PORT.CAP_NBR_LEVEL lv.toNat).setF (.port p) Reg.PORT.CAP_NBR_MIN_LEVEL mn.toNat).setF (.port p) Reg.PORT.CAP_NBR_IDLE idle.toNat).setF (.port p) Reg.PORT.CAP_NBR_FAR_LOOP fl.toNat) →
    min (a.getF (.port p) Reg.PORT.CAP_OWN_LEVEL) lv.toNat ≥ max (a.getF (.port p) Reg.PORT.CAP_OWN_MIN_LEVEL) mn.toNat →
    exec (.capFlit p ack lv mn idle fl) s0 = .next ((a.setLink p { a.link p with capRx := true }).sendLink p 0x00 false 0)) ∧
  (∀ (s0 s a : State) (p : Fin 16) (ack : Fin 1048576) (lv mn : BitVec 8) (idle fl : Bool),
    (s0.fromSelf p (fun g => g == flitOf .link (linkBody 0x01 ack false (capBody lv.toNat mn.toNat idle fl))) = some s) →
    s.atStep p 5 = true →
    s.running p = false →
    a = ((((s.setF (.port p) Reg.PORT.CAP_NBR_LEVEL lv.toNat).setF (.port p) Reg.PORT.CAP_NBR_MIN_LEVEL mn.toNat).setF (.port p) Reg.PORT.CAP_NBR_IDLE idle.toNat).setF (.port p) Reg.PORT.CAP_NBR_FAR_LOOP fl.toNat) →
    a.running p = false →
    min (a.getF (.port p) Reg.PORT.CAP_OWN_LEVEL) lv.toNat < max (a.getF (.port p) Reg.PORT.CAP_OWN_MIN_LEVEL) mn.toNat →
    exec (.capFlit p ack lv mn idle fl) s0 = .next ((a.failStep p 7).raise (.port p) Evt.PORT.CAP_FAIL)) ∧
  (∀ (s a b : State) (p : Fin 16),
    s.atStep p 5 = true →
    s.isSet (.port p) Reg.PORT.LINK_CTL_ENABLE = true →
    s.isSet (.port p) Reg.PORT.LINK_CTL_TEST = false →
    (s.link p).capRx = true →
    (s.link p).capAcked = true →
    a = s.setLink p { s.link p with
      txNum := 0, rxNum := 0, rxFlits := [], advert := [], sent := [], limit := [], replay := [], sTx := 0, sRx := 0, sOut := [], sDue := false, sNak := false, ueLog := [] } →
    b = (a.showStep p 6).sendCredit p →
    b.linkActive p = true →
    exec (.linkUp p) s = .next ((b.raise (.port p) Evt.PORT.LINK_UP).readmit p)) ∧
  (∀ (s a : State) (p : Fin 16) (n : Nat),
    n = (s.link p).step →
    s.linkState p ≠ 0 →
    s.farLoop p = false →
    1 ≤ n →
    n ≤ 5 →
    a = ((s.bump (.port p) Reg.PORT.TRAIN_FAIL_COUNT).setF (.port p) Reg.PORT.LINK_STAT_CAUSE (10 + n)).toStep1 p →
    exec (.linkStepTimeout p) s = .next a)

/-- DATA flits in order, repeated, missing and impossible; flits and codewords in error (09_fabric_links.md, 10_fabric_routing.md, R261, R263, R265, R267, R268, R273, R303, R306, R332). -/
def Obligations.DataFlits : Prop :=
  (∀ (s0 s a b : State) (p : Fin 16) (cwhs : List (Fin 1048576)) (flit body : List Byte) (n v : Nat) (l : LinkSt),
    s0.codewords p = true →
    s0.ownFlit p flit = some s →
    a = (s.rxWake p).rxCodewords p cwhs →
    a.codewords p = true →
    a.running p = true →
    flitKind flit = some .data →
    body = flitBody flit →
    (a.link p).fr.realign = false →
    (a.link p).fr.seqKnown = true →
    n = (a.link p).fr.rxSeq →
    n < 2 ^ 20 →
    b = a.setLink p { a.link p with fr := { (a.link p).fr with rxSeq := (n + 1) % 2 ^ 20 } } →
    n = (b.link p).rxNum →
    (b.link p).skip = 0 →
    (b.link p).partLeft = 0 →
    headerOk body = true →
    bitsOf (leNat (body.take 4)) 14 8 = 1 →
    v = bitsOf (leNat (body.take 4)) 7 5 →
    l = { b.link p with rxNum := ((b.link p).rxNum + 1) % 2 ^ 20, nakOut := false, naks := 0 } →
    l.inLimit v = true →
    exec (.dataFlit p cwhs flit) s0 = .next ((b.setLink p { l.penAdd v with arrived := (l.penAdd v).arrived ++ [(v, body)] }).creditDue p)) ∧
  (∀ (s0 s a b : State) (p : Fin 16) (cwhs : List (Fin 1048576)) (flit : List Byte) (n up down : Nat),
    s0.codewords p = true →
    s0.ownFlit p flit = some s →
    a = (s.rxWake p).rxCodewords p cwhs →
    a.codewords p = true →
    a.running p = true →
    flitKind flit = some .data →
    (a.link p).fr.realign = false →
    (a.link p).fr.seqKnown = true →
    n = (a.link p).fr.rxSeq →
    b = a.setLink p { a.link p with fr := { (a.link p).fr with rxSeq := (n + 1) % 2 ^ 20 } } →
    up = (n + 2 ^ 20 - (a.link p).rxNum) % 2 ^ 20 →
    down = ((a.link p).rxNum + 2 ^ 20 - n) % 2 ^ 20 →
    up ≠ 0 →
    exec (.dataFlit p cwhs flit) s0 = .next (if down ≤ 98304 then b else if up ≤ 98304 then b.nakOnce p else b.violate p 0x02 0 n)) ∧
  (∀ (s0 s a : State) (p : Fin 16) (cwhs : List (Fin 1048576)) (flit : List Byte),
    s0.codewords p = true →
    s0.ownFlit p flit = some s →
    a = (s.rxWake p).rxCodewords p cwhs →
    a.codewords p = true →
    flitKind flit = none →
    exec (.dataFlit p cwhs flit) s0 = .next (a.crcError p true)) ∧
  (∀ (s0 s a : State) (p : Fin 16) (cwhs : List (Fin 1048576)) (flit : List Byte),
    s0.codewords p = true →
    s0.ownFlit p flit = some s →
    a = (s.rxWake p).rxCodewords p cwhs →
    a.codewords p = true →
    flitKind flit = some .idle →
    exec (.dataFlit p cwhs flit) s0 = .next a) ∧
  (∀ (s : State) (p : Fin 16) (cwhs : List (Fin 1048576)) (flit : List Byte),
    s.codewords p = true →
    s.ownFlit p flit = none →
    exec (.dataFlit p cwhs flit) s = .next s) ∧
  (∀ (s0 s a : State) (p : Fin 16) (cwhs : List (Fin 1048576)) (flit : List Byte) (c : Nat),
    s0.codewords p = true →
    s0.ownFlit p flit = some s →
    a = (s.rxWake p).rxCodewords p cwhs →
    a.codewords p = true →
    flitKind flit = some .link →
    linkCode (flitBody flit) = some c →
    exec (.dataFlit p cwhs flit) s0 = .next (a.violate p c 0 0)) ∧
  (∀ (s0 s a : State) (p : Fin 16) (cwhs : List (Fin 1048576)) (flit : List Byte),
    s0.codewords p = true →
    s0.ownFlit p flit = some s →
    a = (s.rxWake p).rxCodewords p cwhs →
    a.codewords p = true →
    a.running p = true →
    flitKind flit = some .sync →
    syncBroken (flitBody flit) = true →
    exec (.dataFlit p cwhs flit) s0 = .next (a.violate p 0x07 0 0)) ∧
  (∀ (s a : State) (p : Fin 16) (cwhs : List (Fin 1048576)) (data : Bool) (flit : List Byte),
    s.codewords p = true →
    flitKind flit = none →
    a = s.rxCodewords p cwhs →
    a.codewords p = true →
    exec (.flitCrcError p cwhs data flit) s = .next (a.crcError p data)) ∧
  (∀ (s a b : State) (p : Fin 16) (data : Bool),
    a = s.bump (.port p) Reg.PORT.CRC_ERR_COUNT →
    b = a.setLink p { a.link p with fr := { (a.link p).fr with rxSeq := ((a.link p).fr.rxSeq + 1) % 2 ^ 20 } } →
    s.crcError p data = if data = true ∧ a.running p = true then b.nakOnce p else a) ∧
  (∀ (s a b c : State) (p : Fin 16) (cwhs : List (Fin 1048576)) (log : List Nat),
    s.codewords p = true →
    a = s.rxCodewords p cwhs →
    a.codewords p = true →
    b = (((a.addPair (.port p) Reg.PORT.FEC_CW_LO Reg.PORT.FEC_CW_HI 1).bump (.port p) Reg.PORT.FEC_UE_COUNT).raise (.port p) Evt.PORT.FEC_UE) →
    (log = b.elapsed :: (b.link p).ueLog.filter (fun t => decide (b.elapsed ≤ t + ns1ms))) →
    c = b.setLink p { b.link p with ueLog := log, fr := (b.link p).fr.lose } →
    exec (.uncorrectableCodeword p cwhs) s = .next (if 3 ≤ (c.link p).fr.burst then c.retrainFor p 2
      else if (c.link p).fr.lost = true then c.retrainFor p 3
      else if c.getF (.port p) Reg.PORT.LINK_CFG_UE_LIMIT < log.length then c.retrainFor p 4
      else if c.running p = true then c.nakOnce p else c)) ∧
  (∀ (s a : State) (p : Fin 16),
    s.running p = true →
    (s.link p).nakOut = true →
    (s.link p).naks < 16 →
    a = s.setLink p { s.link p with nakOut := true, naks := (s.link p).naks + 1 } →
    exec (.nakResendTimer p) s = .next (a.sendLink p 0x00 true 0)) ∧
  (∀ (s : State) (p : Fin 16),
    s.linkActive p = true →
    (s.link p).nakOut = true →
    16 ≤ (s.link p).naks →
    exec (.nakResendTimer p) s = .next (((((((if s.inGap p = true then s else s.carriedNow p).bump (.port p) Reg.PORT.LINK_DOWN_COUNT).setF (.port p) Reg.PORT.LINK_STAT_CAUSE 5).toStep1 p).raise (.port p)
        Evt.PORT.LINK_DOWN).detourAll p).readmit p))

/-- Acknowledgements, NAKs, credits, rejects and idle entry on an ACTIVE link (09_fabric_links.md, 10_fabric_routing.md, R264, R266, R268, R271, R275, R289, R303, R304, R333). -/
def Obligations.LinkFlits : Prop :=
  (∀ (s0 s : State) (p : Fin 16) (ack : Fin 1048576),
    s0.fromSelf p (linkIs 0x00 ack false) = some s →
    s.atStep p 5 = true →
    exec (.linkAck p ack) s0 = .next (s.setLink p { s.link p with capAcked := true })) ∧
  (∀ (s : State) (p : Fin 16) (ack : Fin 1048576) (lv mn : BitVec 8) (idle fl : Bool) (l0 l1 l2 l3 l4 : BitVec 32),
    (∀ f, s.fromSelf p f = none) →
    exec (.linkAck p ack) s = .next s ∧ exec (.linkNak p ack) s = .next s ∧ exec (.capFlit p ack lv mn idle fl) s = .next s ∧
      exec (.creditFlit p ack l0 l1 l2 l3 l4) s = .next s ∧ exec (.linkRejectFlit p ack) s = .next s ∧ exec (.idleEnterFlit p ack) s = .next s ∧
      exec (.loopReqFlit p ack) s = .next s ∧ exec (.loopExitFlit p ack) s = .next s) ∧
  (∀ (s0 s a : State) (p : Fin 16) (ack : Fin 1048576) (first n : Nat),
    s0.fromSelf p (linkIs 0x00 ack false) = some s →
    s.atStep p 5 = false →
    s.running p = true →
    a = s.rxWake p →
    (first = (match (a.link p).replay with | [] => (a.link p).txNum | f :: _ => f.num)) →
    n = (ack.val + 2 ^ 20 - first) % 2 ^ 20 →
    n ≤ (a.link p).replay.length →
    exec (.linkAck p ack) s0 = .next (a.setLink p { a.link p with replay := (a.link p).replay.drop n })) ∧
  (∀ (s0 s a : State) (p : Fin 16) (ack : Fin 1048576) (first n : Nat),
    s0.running p = true →
    s0.fromSelf p (linkIs 0x00 ack true) = some s →
    a = s.rxWake p →
    (first = (match (a.link p).replay with | [] => (a.link p).txNum | f :: _ => f.num)) →
    n = (ack.val + 2 ^ 20 - first) % 2 ^ 20 →
    exec (.linkNak p ack) s0 = .next (if n ≤ (a.link p).replay.length then
        ((((a.setLink p { a.link p with replay := (a.link p).replay.drop n }).replayAll p).bump (.port p)
          Reg.PORT.REPLAY_COUNT).raise (.port p) Evt.PORT.REPLAY)
      else a.violate p 0x03 0 0)) ∧
  (∀ (s0 s a b : State) (p : Fin 16) (ack : Fin 1048576) (l0 l1 l2 l3 l4 : BitVec 32),
    s0.running p = true →
    (s0.fromSelf p (fun g => g == flitOf .link (linkBody 0x10 ack false (l0.toNat + l1.toNat * 2 ^ 32 + l2.toNat * 2 ^ 64 + l3.toNat * 2 ^ 96 + l4.toNat * 2 ^ 128))) = some s) →
    b = s.rxWake p →
    ([l0.toNat, l1.toNat, l2.toNat, l3.toNat, l4.toNat].zipIdx).find? (fun e => !(b.link p).limitOk e.2 e.1) = none →
    a = b.linkRx p ack →
    exec (.creditFlit p ack l0 l1 l2 l3 l4) s0 =
      .next (a.setLink p { a.link p with limit := ([l0.toNat, l1.toNat, l2.toNat, l3.toNat, l4.toNat].zipIdx).foldl (fun m e => m.put e.2 e.1) (a.link p).limit })) ∧
  (∀ (s0 s a : State) (p : Fin 16) (ack : Fin 1048576) (l0 l1 l2 l3 l4 : BitVec 32) (bad : Nat × Nat),
    s0.running p = true →
    (s0.fromSelf p (fun g => g == flitOf .link (linkBody 0x10 ack false (l0.toNat + l1.toNat * 2 ^ 32 + l2.toNat * 2 ^ 64 + l3.toNat * 2 ^ 96 + l4.toNat * 2 ^ 128))) = some s) →
    a = s.rxWake p →
    ([l0.toNat, l1.toNat, l2.toNat, l3.toNat, l4.toNat].zipIdx).find? (fun e => !(a.link p).limitOk e.2 e.1) = some bad →
    exec (.creditFlit p ack l0 l1 l2 l3 l4) s0 = .next (a.violate p 0x05 bad.2 0)) ∧
  (∀ (s0 s a : State) (p : Fin 16) (ack : Fin 1048576),
    s0.running p = true →
    s0.fromSelf p (linkIs 0x02 ack false) = some s →
    a = (s.linkRx p ack).setF (.port p) Reg.PORT.LINK_STAT_IDLE_RX 1 →
    exec (.idleEnterFlit p ack) s0 = .next (a.setLink p { a.link p with fr := { (a.link p).fr with burst := 1 } })) ∧
  (∀ (s0 s : State) (p : Fin 16) (ack : Fin 1048576),
    s0.codewords p = true →
    s0.fromSelf p (linkIs 0x11 ack false) = some s →
    exec (.linkRejectFlit p ack) s0 = .next ((s.linkRx p ack).bump (.port p) Reg.PORT.PV_RX_COUNT)) ∧
  (∀ (s : State) (p : Fin 16) (ack : Nat),
    s.linkRx p ack = if s.running p = true then (s.rxWake p).ackTo p ack else s) ∧
  (∀ (s m a b c d : State) (p : Fin 16) (t : LinkTick),
    m = s.linkMeasures p t →
    m.codewords p = true →
    a = m.rxCodewords p t.cwhs →
    a.codewords p = true →
    b = a.linkCounts p t →
    (c = if b.isSet (.port p) Reg.PORT.LINK_STAT_IDLE_TX = true ∨ b.inGap p = true ∨ b.farLoop p = true then b else b.txCodewords p t.sent) →
    (d = if c.testMode p = 3 then c.sendLink p 0x03 false 0 else c) →
    exec (.linkFlitTimer p t) s = .next (if d.running p = true then d.sendCredit p else d.sendCap p)) ∧
  (∀ (s m : State) (p : Fin 16) (t : LinkTick),
    m = s.linkMeasures p t →
    m.codewords p = false →
    exec (.linkFlitTimer p t) s = .next m) ∧
  (∀ (s a b : State) (p : Fin 16) (t : LinkTick),
    a = s.addPair (.port p) Reg.PORT.FEC_CORR_LO Reg.PORT.FEC_CORR_HI t.corrected →
    (b = (t.syms.take 8).zipIdx.foldl (fun s e => s.bumpBy (.port p) (Reg.PORT.LANE_SYMERR_COUNT e.2) e.1) a) →
    s.linkCounts p t = if t.warn then b.raise (.port p) Evt.PORT.BER_WARN else b) ∧
  (∀ (s c : State) (p : Fin 16) (t : LinkTick),
    (c = (t.power.take 8).zipIdx.foldl (fun s e => s.setF (.port p) (Reg.PORT.LANE_RXPWR_DBM e.2) e.1.toNat) s) →
    s.linkMeasures p t = (c.setMon p 0 (t.bias.getD 0 0) (t.output.getD 0 0) (t.temp.getD 0 0)).setMon p 1 (t.bias.getD 1 0) (t.output.getD 1 0) (t.temp.getD 1 0))

/-- Far-end loopback, electrical idle, loss of signal and of lock (09_fabric_links.md, R273, R275, R277, R283). -/
def Obligations.LoopbackIdleAndSignal : Prop :=
  (∀ (s0 s a : State) (p : Fin 16) (ack : Fin 1048576),
    s0.fromSelf p (linkIs 0x03 ack false) = some s →
    a = s.linkRx p ack →
    a.linkState p ≠ 0 →
    a.isSet (.port p) Reg.PORT.LINK_CTL_FAR_LOOP_ALLOW = true →
    a.testMode p = 0 →
    exec (.loopReqFlit p ack) s0 = .next (a.setF (.port p) Reg.PORT.LINK_STAT_FAR_LOOP 1)) ∧
  (∀ (s0 s a b : State) (p : Fin 16) (ack : Fin 1048576),
    s0.fromSelf p (linkIs 0x04 ack false) = some s →
    a = s.linkRx p ack →
    a.farLoop p = true →
    b = a.setF (.port p) Reg.PORT.LINK_STAT_FAR_LOOP 0 →
    exec (.loopExitFlit p ack) s0 = .next (((b.setLink p { b.link p with loopSilent := false }).readmit p).sendFrame p)) ∧
  (∀ (s b : State) (p : Fin 16),
    s.farLoop p = true →
    b = s.setF (.port p) Reg.PORT.LINK_STAT_FAR_LOOP 0 →
    exec (.farLoopLosTimeout p) s = .next (((b.setLink p { b.link p with loopSilent := false }).readmit p).sendFrame p)) ∧
  (∀ (s a : State) (p : Fin 16),
    s.linkState p = 7 →
    s.testMode p = 3 →
    a = ((s.bump (.port p) Reg.PORT.TRAIN_FAIL_COUNT).setF (.port p) Reg.PORT.LINK_STAT_CAUSE 14).toStep1 p →
    exec (.farLoopTimeout p) s = .next a) ∧
  (∀ (s : State) (p : Fin 16),
    s.linkActive p = true →
    s.inGap p = false ∧ s.farLoop p = false ∧ s.nearLoop p = false →
    s.isSet (.port p) Reg.PORT.LINK_CTL_IDLE_EN = true →
    s.isSet (.port p) Reg.PORT.CAP_NBR_IDLE = true →
    s.isSet (.port p) Reg.PORT.LINK_STAT_IDLE_TX = false →
    exec (.idleEntry p) s = 
      .next ((s.emit (.link p (flitOf .link (linkBody 0x02 (s.link p).rxNum false 0)))).setF (.port p) Reg.PORT.LINK_STAT_IDLE_TX 1)) ∧
  (∀ (s : State) (p : Fin 16),
    s.linkActive p = true →
    s.inGap p = false →
    s.isSet (.port p) Reg.PORT.LINK_STAT_IDLE_TX = true →
    exec (.idleExit p) s = .next ((s.setF (.port p) Reg.PORT.LINK_STAT_IDLE_TX 0).emit (.burst p))) ∧
  (∀ (s : State) (p : Fin 16),
    s.linkActive p = true →
    s.isSet (.port p) Reg.PORT.LINK_STAT_LOS_HOLD = false →
    exec (.laneSignalLoss p) s = .next ((s.setF (.port p) Reg.PORT.LINK_STAT_LOS_HOLD 1).raise (.port p) Evt.PORT.LOS_HOLD)) ∧
  (∀ (s a b c : State) (p : Fin 16),
    s.linkActive p = true →
    s.isSet (.port p) Reg.PORT.LINK_STAT_LOS_HOLD = true →
    a = (s.setF (.port p) Reg.PORT.LINK_STAT_LOS_HOLD 0).setF (.port p) Reg.PORT.LINK_STAT_IDLE_RX 0 →
    b = a.setLink p { a.link p with fr := { (a.link p).fr with realign := true, seqKnown := false, run := 0, burst := 1 } } →
    c = b.setLink p { b.link p with nakOut := true, naks := (b.link p).naks + 1 } →
    exec (.signalReturn p) s = .next (c.sendLink p 0x00 true 0) ∧
      exec (.losHoldExpire p) s = .next (((((((if s.inGap p = true then s else s.carriedNow p).bump (.port p) Reg.PORT.LINK_DOWN_COUNT).setF (.port p) Reg.PORT.LINK_STAT_CAUSE 1).toStep1 p).raise (.port p)
        Evt.PORT.LINK_DOWN).detourAll p).readmit p)) ∧
  (∀ (s : State) (p : Fin 16),
    s.linkActive p = true →
    exec (.cdrLockLoss p) s = .next (((((((if s.inGap p = true then s else s.carriedNow p).bump (.port p) Reg.PORT.LINK_DOWN_COUNT).setF (.port p) Reg.PORT.LINK_STAT_CAUSE 2).toStep1 p).raise (.port p)
        Evt.PORT.LINK_DOWN).detourAll p).readmit p))

/-- Laser trips, switch-overs and calibrations (09_fabric_links.md, R281, R282, R284, R285, R286, R287). -/
def Obligations.Lasers : Prop :=
  (∀ (s a : State) (p : Fin 16) (why : Fin 3) (n : Nat),
    s.linkState p ≠ 0 →
    n = s.activeLaser p →
    s.laser p n = 0 →
    s.inGap p = false ∨ (s.link p).gapClaimed = true →
    (a = (((s.setLaser p n 2).setLas p n (fun x => { x with cause := why + 1 })).setF (.port p) Reg.PORT.LASER_STAT_TRIP_CAUSE (why + 1)).raise (.port p) Evt.PORT.LASER_FAIL) →
    exec (.laserTrip p why) s = .next ((if a.laser p (1 - n) = 1 then (if a.inGap p = true then a.moveGap p else a.startGap p true)
      else if a.inGap p = true then a.gapDark p 10 else a.relink p 10).laserHealth p)) ∧
  (∀ (s : State) (p : Fin 16),
    s.ready = true →
    s.linkState p ≠ 0 →
    s.inGap p = false →
    s.laser p (1 - s.activeLaser p) = 1 →
    s.laser p (s.activeLaser p) ≠ 2 →
    exec (.laserSwitchCmd p) s = .next ((((s.setLaser p (s.activeLaser p) 1).setF (.port p) Reg.PORT.LASER_STAT_TRIP_CAUSE 4).startGap p false).laserHealth p)) ∧
  (∀ (s a b : State) (p : Fin 16) (n : Nat),
    s.inGap p = true →
    (s.link p).gapClaimed = false →
    n = s.activeLaser p →
    (a = ((s.setLaser p n 2).setLas p n (fun x => { x with cause := 5 })).setF (.port p) Reg.PORT.LASER_STAT_TRIP_CAUSE 5) →
    b = a.raise (.port p) Evt.PORT.LASER_FAIL →
    exec (.standbyClaimCheck p true) s = .next (s.setLink p { s.link p with gapClaimed := true }) ∧
      exec (.standbyClaimCheck p false) s = .next (b.gapDark p 10)) ∧
  (∀ (s a b : State) (p : Fin 16),
    s.inGap p = true →
    (s.link p).gapClaimed = true →
    a = ((((s.clearGap p).bump (.port p) Reg.PORT.LASER_SWITCHES_COUNT).raise (.port p) Evt.PORT.LASER_SWITCH).setF (.port p) Reg.PORT.LASER_STAT_CAL_PEND 1) →
    b = (a.laserTested p).dropHeld p →
    exec (.laserSwitchComplete p) s = .next ((if b.codewords p = true ∧ b.nearTest p = false then b.flushGap p (s.link p) else b.sendFrame p).applyHeld p (s.link p))) ∧
  (∀ (s a b : State) (p : Fin 16) (l : LinkSt),
    s.farLoop p = false →
    a = (((s.setF (.port p) Reg.PORT.LINK_STAT_IDLE_TX 0).emit (.burst p)).txResume p) →
    l.syncQ = [] →
    l.sHeld = [] →
    l.helloDue = false →
    (b = (l.gapQ.filter (fun o => !(match o with | .data _ _ _ => true | _ => false))).foldl (fun s o => s.sendFlit p o) a) →
    s.flushGap p l = (l.gapQ.filter (fun o => match o with | .data _ _ _ => true | _ => false)).foldl (fun s o => s.sendFlit p o) b) ∧
  (∀ (s a : State) (p : Fin 16) (bias power : BitVec 16) (temp : BitVec 8) (cal n : Nat),
    s.isSet (.port p) Reg.PORT.LASER_STAT_CAL_PEND = true →
    a = (s.setF (.port p) Reg.PORT.LASER_STAT_CAL_PEND 0).raise (.port p) Evt.PORT.CAL_DONE →
    n = a.activeLaser p →
    exec (.laserCalDone p bias power temp cal) s = .next ((a.setLas p n (fun x => { x with cal := cal })).setMon p n bias power temp)) ∧
  (∀ (s : State) (p : Fin 16) (bias power : BitVec 16) (temp : BitVec 8),
    s.setMon p 0 bias power temp =
        ((s.setF (.port p) Reg.PORT.LASER0_MON_BIAS bias.toNat).setF (.port p) Reg.PORT.LASER0_MON_POWER power.toNat).setF (.port p)
          Reg.PORT.LASER_TEMP_L0 temp.toNat ∧
      s.setMon p 1 bias power temp =
        (s.setF (.port p) Reg.PORT.LASER1_MON (bias.toNat + power.toNat * 2 ^ 16)).setF (.port p) Reg.PORT.LASER_TEMP_L1 temp.toNat)

/-- A flit reads back as the kind and body it was made of; a LINK flit's fields stand where the manual puts them (09_fabric_links.md, R261, R263, R264). -/
def Obligations.FlitsAndLinkBodies : Prop :=
  (∀ (k : FlitKind) (body : List Byte),
    body.length = 60 →
    (flitOf k body).length = 64 ∧ flitBody (flitOf k body) = body ∧ flitKind (flitOf k body) = some k) ∧
  (∀ (f : List Byte) (k : FlitKind),
    flitKind f = some k ↔ crc32c (flitBody f) ^^^ k.mask = leNat ((f.drop 60).take 4)) ∧
  (∀ (t a b : Nat) (nak : Bool) (w : Nat),
    t < 64 →
    a < 2 ^ 20 →
    b < 2 ^ 448 →
    w = leNat (linkBody t a nak b) →
    (linkBody t a nak b).length = 60 ∧ bitsOf w 5 0 = t ∧ bitsOf w 25 6 = a ∧ bitsOf w 26 26 = (if nak then 1 else 0) ∧ bitsOf w 31 27 = 0 ∧ bitsOf w 479 32 = b) ∧
  (∀ (j : Fin 8) (i : Fin 20),
    (commaCwh j).testBit i = commaBlock.testBit (20 * j + i))

/-- Commit, reset, age and escape of a pen; the route of a request or reply (10_fabric_routing.md, R295, R296, R298, R299, R300, R301, R302, R306, R307). -/
def Obligations.PensAndRoutes : Prop :=
  (∀ (s a : State) (p : Fin 16) (v : Nat) (b : List Byte) (rest : List (Nat × List Byte)),
    (s.link p).arrived = (v, b) :: rest →
    a = s.setLink p { s.link p with arrived := rest } →
    exec (.packetCommit p) s = .next (if a.admitted p = false then (a.penFree p v (b.length / 60)).portLost p 1
      else if pcrcGood b then a.setLink p ((a.link p).setPen v
        { (a.link p).pen v with pkts := ((a.link p).pen v).pkts ++ [Packet.ofBytes b] })
      else ((a.penFree p v (b.length / 60)).bump (.port p) Reg.PORT.PEN_CRC_COUNT).raise (.port p) Evt.PORT.PEN_ERR)) ∧
  (∀ (s a : State) (p : Fin 16) (v : Fin 5) (l : LinkSt),
    (l = { s.link p with arrived := (s.link p).arrived.filter (fun y => y.1 ≠ v.val) }) →
    ¬ ((s.link p).partVc = v.val ∧ 0 < (s.link p).partLeft) →
    a = s.setLink p (l.setPen v { l.pen v with pkts := [], esc := false, gone := [] }) →
    exec (.penReset p v) s = .next ((((a.penFree p v (l.pen v).used).bump (.port p) Reg.PORT.PEN_RESET_COUNT).setF (.port p)
      Reg.PORT.PEN_LAST_VC v).raise (.port p) Evt.PORT.PEN_ERR)) ∧
  (∀ (s : State) (src : PenSrc) (pk : Packet) (rest : List Packet),
    (s.penAt src).pkts = pk :: rest →
    opNet pk.op ≠ some 2 →
    exec (.escWaitExpire src) s = .next (s.setPenAt src { s.penAt src with esc := true })) ∧
  (∀ (s : State) (src : PenSrc) (pk : Packet) (rest : List Packet),
    (s.penAt src).pkts = pk :: rest →
    exec (.penAgeDrop src) s = .next (((s.popPen src).bump (.rout (PenSrcHub src)) Reg.ROUT.AGE_DROP_COUNT).raise (.rout (PenSrcHub src)) Evt.ROUT.PKT_DROP)) ∧
  (∀ (s : State),
    ∃ t, exec .transitWindowTick s = .next t ∧ ∀ p : Fin 16, t.link p = { s.link p with transit := 0 }) ∧
  (∀ (s : State) (p : Fin 16) (v : Fin 5) (pk : Packet) (rest : List Packet) (errs : LineErrs) (room : Nat),
    (s.penAt (.port p v)).pkts = pk :: rest →
    s.getF (.rout (portHub p)) Reg.ROUT.ROUTE_CFG_HOP_LIMIT ≤ pk.hops →
    exec (.packetRoute (.port p v) errs room) s =
      .next (((s.popPen (.port p v)).bump (.rout (portHub p)) Reg.ROUT.HOP_DROP_COUNT).raise (.rout (portHub p)) Evt.ROUT.PKT_DROP)) ∧
  (∀ (s : State) (src : PenSrc) (pk : Packet) (rest : List Packet) (errs : LineErrs) (room : Nat) (w : Word),
    (s.penAt src).pkts = pk :: rest →
    (match src with | .port _ _ => decide (s.getF (.rout (PenSrcHub src)) Reg.ROUT.ROUTE_CFG_HOP_LIMIT ≤ pk.hops) | .inject _ _ => false) = false →
    opNet pk.op ≠ some 2 →
    pk.op ≠ 0x05 →
    w = s.dEntry (PenSrcHub src) pk.dstFid →
    (dValid w && dLocal w) = true →
    exec (.packetRoute src errs room) s = .next ((s.popPen src).deliver (PenSrcHub src) pk errs room)) ∧
  (∀ (s : State) (src : PenSrc) (pk : Packet) (rest : List Packet) (errs : LineErrs) (room : Nat) (w : Word),
    (s.penAt src).pkts = pk :: rest →
    (match src with | .port _ _ => decide (s.getF (.rout (PenSrcHub src)) Reg.ROUT.ROUTE_CFG_HOP_LIMIT ≤ pk.hops) | .inject _ _ => false) = false →
    opNet pk.op ≠ some 2 →
    pk.op ≠ 0x05 →
    s.myTurn src = true →
    w = s.dEntry (PenSrcHub src) pk.dstFid →
    (dValid w && dLocal w) = false →
    s.hasRoute (PenSrcHub src) pk.dstFid = false →
    exec (.packetRoute src errs room) s = .next ((s.popPen src).noRoute (PenSrcHub src) pk)) ∧
  (∀ (s a : State) (src : PenSrc) (pk : Packet) (rest : List Packet) (errs : LineErrs) (room v : Nat) (w : Word) (q : Fin 16),
    (s.penAt src).pkts = pk :: rest →
    (match src with | .port _ _ => decide (s.getF (.rout (PenSrcHub src)) Reg.ROUT.ROUTE_CFG_HOP_LIMIT ≤ pk.hops) | .inject _ _ => false) = false →
    opNet pk.op ≠ some 2 →
    pk.op ≠ 0x05 →
    s.myTurn src = true →
    w = s.dEntry (PenSrcHub src) pk.dstFid →
    (dValid w && dLocal w) = false →
    s.hasRoute (PenSrcHub src) pk.dstFid = true →
    (v = if opNet pk.op = some 0 then 0 else 2) →
    s.pickPort (PenSrcHub src) v pk w = some q →
    a = (s.popPen src).forward (PenSrcHub src) q v pk →
    exec (.packetRoute src errs room) s = .next ((a.setRout (PenSrcHub src) { a.rout (PenSrcHub src) with rot := q }).turnAfter src [q])) ∧
  (∀ (s : State) (src : PenSrc) (pk : Packet) (rest : List Packet) (errs : LineErrs) (room v : Nat) (w : Word) (q : Fin 16),
    (s.penAt src).pkts = pk :: rest →
    (match src with | .port _ _ => decide (s.getF (.rout (PenSrcHub src)) Reg.ROUT.ROUTE_CFG_HOP_LIMIT ≤ pk.hops) | .inject _ _ => false) = false →
    opNet pk.op ≠ some 2 →
    pk.op ≠ 0x05 →
    s.myTurn src = true →
    w = s.dEntry (PenSrcHub src) pk.dstFid →
    (dValid w && dLocal w) = false →
    s.hasRoute (PenSrcHub src) pk.dstFid = true →
    (v = if opNet pk.op = some 0 then 0 else 2) →
    s.pickPort (PenSrcHub src) v pk w = none →
    s.escPort w = some q →
    ((s.penAt src).esc && q ≠ 13 && s.portFree q (v + 1) pk) = true →
    exec (.packetRoute src errs room) s = .next ((((s.popPen src).forward (PenSrcHub src) q (v + 1) pk).addPair (.rout (PenSrcHub src))
      Reg.ROUT.ESC_PKTS_LO Reg.ROUT.ESC_PKTS_HI 1).turnAfter src [q])) ∧
  (∀ (s : State) (src : PenSrc) (pk : Packet) (rest : List Packet) (errs : LineErrs) (room : Nat),
    (s.penAt src).pkts = pk :: rest →
    (match src with | .port _ _ => decide (s.getF (.rout (PenSrcHub src)) Reg.ROUT.ROUTE_CFG_HOP_LIMIT ≤ pk.hops) | .inject _ _ => false) = false →
    pk.op ≠ 0x05 →
    s.myTurn src = false →
    exec (.packetRoute src errs room) s = .next s)

/-- Timers of flows, circuits and multicast rounds; FLOW_CTL; the ATOMIC service; tables read into a shadow (10_fabric_routing.md, R313, R314, R316, R319, R326, R331, R337, R294). -/
def Obligations.FlowsAndTheirTimers : Prop :=
  (∀ (s a : State) (c : Fin 262144) (seq : BitVec 32) (x : SentPkt),
    (s.flow c).out.find? (fun y => y.pkt.seq == seq.toNat) = some x →
    (s.flow c).state = 1 →
    x.tries < (s.flow c).retryMax →
    (a = s.setFlow c { s.flow c with out := (s.flow c).out.map (fun y => if y.pkt.seq = seq.toNat then { y with tries := y.tries + 1 } else y) }) →
    exec (.flowRto c seq) s = .next ((a.bump (.rout (flowHub c)) Reg.ROUT.RETX_COUNT).inject (flowHub c) 0 x.pkt)) ∧
  (∀ (s : State) (c : Fin 262144) (seq : BitVec 32) (x : SentPkt),
    (s.flow c).out.find? (fun y => y.pkt.seq == seq.toNat) = some x →
    (s.flow c).state = 1 →
    (s.flow c).retryMax ≤ x.tries →
    exec (.flowRto c seq) s = .next (s.failFlow c)) ∧
  (∀ (s : State) (c : Fin 262144),
    (s.flow c).state = 1 →
    (s.flow c).kind = 2 →
    0 < (s.flow c).fresh →
    exec (.flowAckTimer false c) s = .next (s.sendAck c)) ∧
  (∀ (s : State) (c : Fin 262144),
    cktValid (s.cktEntry 0 (c % 1024)) = true →
    cktRole (s.cktEntry 0 (c % 1024)) = 3 →
    0 < (s.cktSt (c % 1024)).fresh →
    exec (.flowAckTimer true c) s = .next (s.sendCktAck (portHub ⟨cktIn (s.cktEntry 0 (c % 1024)) % 16, by omega⟩) (c % 1024))) ∧
  (∀ (s a b : State) (h : Fin 2) (errs : LineErrs) (c st : Nat) (bs : List Byte),
    s.ready = true →
    c = s.getF (.rout h) Reg.ROUT.FLOW_SEL_CTX →
    flowHub c = h →
    a = s.endFlow c 0 →
    (a.findErrs errs).readMem (.hub h) (s.getPair (.rout h) Reg.ROUT.FLOW_TAB_LO Reg.ROUT.FLOW_TAB_HI + 32 * c) 32 = (b, st, bs) →
    exec (.flowEnable h errs) s = .next (b.setFlow c (if st ≠ 0 then { Flow.init with state := 3 } else b.flowOfEntry c bs)) ∧
      exec (.flowDisable h) s = .next a) ∧
  (∀ (s : State) (c : Fin 1024),
    cktValid (s.cktEntry 0 c) = true →
    cktRole (s.cktEntry 0 c) = 1 →
    (s.cktSt c).failed = false →
    exec (.cktRto c) s = .next (s.cktResend c)) ∧
  (∀ (s a : State) (c : Fin 262144) (msgId : BitVec 8) (m : McastMsg) (x1 x2 : List SentPkt),
    (s.flow c).mcast.find? (fun y => y.msgId == msgId.toNat) = some m →
    (s.flow c).state = 1 →
    (s.flow c).kind = 3 →
    m.round < (s.flow c).retryMax →
    m.left ≠ [] →
    m.round < 7 →
    (x1 = (s.flow c).out.map (fun x => if x.pkt.msgId = m.msgId then { x with pkt := { x.pkt with tryN := m.round + 1 } } else x)) →
    (x2 = (s.flow c).wait.map (fun x => if x.pkt.msgId = m.msgId then { x with pkt := { x.pkt with tryN := m.round + 1 } } else x)) →
    (a = s.setFlow c { s.flow c with
      mcast := (s.flow c).mcast.map (fun y => if y.msgId = m.msgId then { y with round := y.round + 1 } else y), out := x1, wait := x2 }) →
    exec (.mcRoundRto c msgId) s = .next ((x1.filter (fun x => x.pkt.msgId = m.msgId)).foldl (fun (s : State) x =>
      (s.bump (.rout (flowHub c)) Reg.ROUT.RETX_COUNT).inject (flowHub c) 0 x.pkt) a)) ∧
  (∀ (s : State) (c : Fin 262144) (msgId : BitVec 8) (m : McastMsg),
    (s.flow c).mcast.find? (fun y => y.msgId == msgId.toNat) = some m →
    (s.flow c).state = 1 →
    (s.flow c).kind = 3 →
    (s.flow c).retryMax ≤ m.round →
    exec (.mcRoundRto c msgId) s = .next (s.mcEnd c { m with fenced := m.fenced + m.left.length, left := [] })) ∧
  (∀ (s : State) (d : Fin 4) (t : Fin 104) (k : Fin 2) (flow : Fin 262144) (addr x cmp : BitVec 64) (aop : Fin 16),
    s.kernelRuns d t k = true →
    (s.flow flow).state = 1 →
    (s.flow flow).kind = 1 →
    exec (.kernelAtomic d t k flow addr x cmp aop) s = .next (s.sendOnFlow flow (.atomic d t k) { s.blankPacket 0x04 0 with
        addr := addr.toNat, aop := aop, arg := cmp.toNat, msgBytes := 8, payload := leBytes 8 x.toNat })) ∧
  (∀ (s : State) (d : Fin 4) (t : Fin 104) (k : Fin 2) (flow : Fin 262144) (addr x cmp : BitVec 64) (aop : Fin 16),
    s.kernelRuns d t k = true →
    (s.flow flow).state ≠ 1 ∨ (s.flow flow).kind ≠ 1 →
    exec (.kernelAtomic d t k flow addr x cmp aop) s =
      .next (s.emit (.service d t k (if (s.flow flow).state ≠ 1 then St.destFenced else St.badMode) []))) ∧
  (∀ (s a b : State) (h : Fin 2) (errs : LineErrs) (rest : List Nat) (src st : Nat),
    (s.rout h).xbusy = 1 :: rest →
    src = s.getSh (.rout h) Reg.ROUT.CKT_TAB_LO + 2 ^ 32 * s.getSh (.rout h) Reg.ROUT.CKT_TAB_HI →
    (src % 4096 = 0 && src + 16384 ≤ 2 ^ 41) = true →
    (a = ((s.setRout h { s.rout h with xbusy := rest }).setF (.rout h) Reg.ROUT.XTAB_STAT_BUSY (if rest.isEmpty then 0 else 1)).findErrs errs) →
    st = a.imageStatus src 16384 4096 →
    b = a.setF (.rout h) Reg.ROUT.XTAB_STAT_RESULT st →
    exec (.xtabReadDone h errs) s = .next (if st ≠ 0 then b.raise (.rout h) Evt.ROUT.XTAB_FAIL else
      (b.countImage (.hub h) src 16384).setRout h { (b.countImage (.hub h) src 16384).rout h with
        cktShadow := entriesAt (b.countImage (.hub h) src 16384).mm.mem src 16384 4, cktStaged := true,
        crcs := { ((b.countImage (.hub h) src 16384).rout h).crcs with ckt := true } }))

/-- Requests of flows at their receiver: refusals, duplicates, the window, and the operation of each (10_fabric_routing.md, R294, R309, R310, R315, R316, R317, R318, R321, R221, 07_data_placement.md). -/
def Obligations.RequestsDelivered : Prop :=
  (∀ (c : Instr) (s : State) (h : Fin 2) (pk : Packet) (errs : LineErrs),
    (c = .write h pk errs ∧ isOp 0x01 pk = true) ∨ (c = .haloWrite h pk ∧ isOp 0x02 pk = true) ∨ (c = .readReq h pk errs ∧ isOp 0x03 pk = true) ∨
        (c = .atomic h pk errs ∧ isOp 0x04 pk = true) ∨ (c = .guest h pk ∧ isOp 0x06 pk = true) ∨ (c = .syncFrag h pk ∧ isOp 0x07 pk = true) →
    s.jobTag = 0 ∨ pk.jobTag ≠ s.jobTag →
    exec c s = .next ((s.guestTurned pk).refuse h pk St.tagReject)) ∧
  (∀ (c : Instr) (s : State) (h : Fin 2) (pk : Packet) (errs : LineErrs),
    (c = .write h pk errs ∧ isOp 0x01 pk = true) ∨ (c = .haloWrite h pk ∧ isOp 0x02 pk = true) ∨ (c = .readReq h pk errs ∧ isOp 0x03 pk = true) ∨
        (c = .atomic h pk errs ∧ isOp 0x04 pk = true) ∨ (c = .guest h pk ∧ isOp 0x06 pk = true) ∨ (c = .syncFrag h pk ∧ isOp 0x07 pk = true) →
    s.jobTag ≠ 0 →
    pk.jobTag = s.jobTag →
    s.fenced = true →
    exec c s = .next (s.refuse h pk St.destFenced)) ∧
  (∀ (s : State) (pk : Packet),
    s.guestTurned pk = if pk.op = 0x06 ∧ pk.arg % 16 = 1 ∧ s.admitRequest pk = St.tagReject then
      (s.bump .place Reg.PLACE.GUEST_REFUSED_COUNT).raise .place Evt.PLACE.GUEST_REFUSED else s) ∧
  (∀ (c : Instr) (s : State) (h : Fin 2) (pk : Packet) (errs : LineErrs),
    (c = .write h pk errs ∧ isOp 0x01 pk = true) ∨ (c = .haloWrite h pk ∧ isOp 0x02 pk = true) ∨ (c = .readReq h pk errs ∧ isOp 0x03 pk = true) ∨
        (c = .atomic h pk errs ∧ isOp 0x04 pk = true) ∨ (c = .guest h pk ∧ isOp 0x06 pk = true) ∨ (c = .syncFrag h pk ∧ isOp 0x07 pk = true) →
    s.jobTag ≠ 0 →
    pk.jobTag = s.jobTag →
    s.fenced = false →
    (s.flow pk.ctx).state ≠ 1 ∨ (s.flow pk.ctx).kind ≠ 2 ∨ (s.flow pk.ctx).peerFid ≠ pk.srcFid →
    exec c s = .next (s.ctxDrop h pk)) ∧
  (∀ (c : Instr) (s : State) (h : Fin 2) (pk : Packet) (errs : LineErrs),
    (c = .write h pk errs ∧ isOp 0x01 pk = true) ∨ (c = .haloWrite h pk ∧ isOp 0x02 pk = true) ∨ (c = .syncFrag h pk ∧ isOp 0x07 pk = true) ∨ (c = .guest h pk ∧ isOp 0x06 pk = true) →
    s.jobTag ≠ 0 →
    pk.jobTag = s.jobTag →
    s.fenced = false →
    (s.flow pk.ctx).state = 1 →
    (s.flow pk.ctx).kind = 2 →
    (s.flow pk.ctx).peerFid = pk.srcFid →
    seqBefore pk.seq (s.flow pk.ctx).next = true ∨ (s.flow pk.ctx).got.contains pk.seq = true →
    exec c s = .next ((s.bump (.rout (flowHub pk.ctx)) Reg.ROUT.DUP_COUNT).sendAck pk.ctx)) ∧
  (∀ (c : Instr) (s : State) (h : Fin 2) (pk : Packet) (errs : LineErrs),
    (c = .write h pk errs ∧ isOp 0x01 pk = true) ∨ (c = .haloWrite h pk ∧ isOp 0x02 pk = true) ∨ (c = .readReq h pk errs ∧ isOp 0x03 pk = true) ∨
        (c = .atomic h pk errs ∧ isOp 0x04 pk = true) ∨ (c = .guest h pk ∧ isOp 0x06 pk = true) ∨ (c = .syncFrag h pk ∧ isOp 0x07 pk = true) →
    s.jobTag ≠ 0 →
    pk.jobTag = s.jobTag →
    s.fenced = false →
    (s.flow pk.ctx).state = 1 →
    (s.flow pk.ctx).kind = 2 →
    (s.flow pk.ctx).peerFid = pk.srcFid →
    seqBefore pk.seq (s.flow pk.ctx).next = false →
    (s.flow pk.ctx).got.contains pk.seq = false →
    2 ^ (s.flow pk.ctx).winLog ≤ (pk.seq + 2 ^ 32 - (s.flow pk.ctx).next) % 2 ^ 32 →
    exec c s = .next (s.bump (.rout (flowHub pk.ctx)) Reg.ROUT.FLOW_OOW_COUNT)) ∧
  (∀ (s a b : State) (h : Fin 2) (pk : Packet) (errs : LineErrs),
    isOp 0x01 pk = true →
    s.jobTag ≠ 0 →
    pk.jobTag = s.jobTag →
    s.fenced = false →
    (s.flow pk.ctx).state = 1 →
    (s.flow pk.ctx).kind = 2 →
    (s.flow pk.ctx).peerFid = pk.srcFid →
    pk.seq = (s.flow pk.ctx).next →
    (s.flow pk.ctx).got.contains pk.seq = false →
    fifth (s.flow pk.ctx).openMsgs pk = false →
    a = s.setFlow pk.ctx ((s.flow pk.ctx).receive pk.seq) →
    b = a.flowMessage h pk errs →
    exec (.write h pk errs) s = .next (if 0 < (b.flow pk.ctx).fresh ∧ 2 ^ (b.flow pk.ctx).winLog / 2 ≤ (b.flow pk.ctx).fresh then b.sendAck pk.ctx else b)) ∧
  (∀ (s a b : State) (h : Fin 2) (pk : Packet),
    isOp 0x02 pk = true →
    s.jobTag ≠ 0 →
    pk.jobTag = s.jobTag →
    s.fenced = false →
    (s.flow pk.ctx).state = 1 →
    (s.flow pk.ctx).kind = 2 →
    (s.flow pk.ctx).peerFid = pk.srcFid →
    pk.seq = (s.flow pk.ctx).next →
    (s.flow pk.ctx).got.contains pk.seq = false →
    fifth (s.flow pk.ctx).openMsgs pk = false →
    a = s.setFlow pk.ctx ((s.flow pk.ctx).receive pk.seq) →
    b = a.flowMessage h pk [] →
    exec (.haloWrite h pk) s = .next (if 0 < (b.flow pk.ctx).fresh ∧ 2 ^ (b.flow pk.ctx).winLog / 2 ≤ (b.flow pk.ctx).fresh then b.sendAck pk.ctx else b)) ∧
  (∀ (s a b : State) (h : Fin 2) (pk : Packet),
    isOp 0x07 pk = true →
    s.jobTag ≠ 0 →
    pk.jobTag = s.jobTag →
    s.fenced = false →
    (s.flow pk.ctx).state = 1 →
    (s.flow pk.ctx).kind = 2 →
    (s.flow pk.ctx).peerFid = pk.srcFid →
    pk.seq = (s.flow pk.ctx).next →
    (s.flow pk.ctx).got.contains pk.seq = false →
    fifth (s.flow pk.ctx).openMsgs pk = false →
    a = s.setFlow pk.ctx ((s.flow pk.ctx).receive pk.seq) →
    b = a.flowMessage h pk [] →
    exec (.syncFrag h pk) s = .next (if 0 < (b.flow pk.ctx).fresh ∧ 2 ^ (b.flow pk.ctx).winLog / 2 ≤ (b.flow pk.ctx).fresh then b.sendAck pk.ctx else b)) ∧
  (∀ (s a b : State) (h : Fin 2) (pk : Packet) (errs : LineErrs),
    isOp 0x03 pk = true →
    s.jobTag ≠ 0 →
    pk.jobTag = s.jobTag →
    s.fenced = false →
    (s.flow pk.ctx).state = 1 →
    (s.flow pk.ctx).kind = 2 →
    (s.flow pk.ctx).peerFid = pk.srcFid →
    pk.seq = (s.flow pk.ctx).next →
    (s.flow pk.ctx).got.contains pk.seq = false →
    a = s.setFlow pk.ctx ((s.flow pk.ctx).receive pk.seq) →
    b = a.readRequest h pk errs →
    exec (.readReq h pk errs) s = .next (if 0 < (b.flow pk.ctx).fresh ∧ 2 ^ (b.flow pk.ctx).winLog / 2 ≤ (b.flow pk.ctx).fresh then b.sendAck pk.ctx else b)) ∧
  (∀ (s a b : State) (h : Fin 2) (pk : Packet) (errs : LineErrs),
    isOp 0x04 pk = true →
    s.jobTag ≠ 0 →
    pk.jobTag = s.jobTag →
    s.fenced = false →
    (s.flow pk.ctx).state = 1 →
    (s.flow pk.ctx).kind = 2 →
    (s.flow pk.ctx).peerFid = pk.srcFid →
    pk.seq = (s.flow pk.ctx).next →
    (s.flow pk.ctx).got.contains pk.seq = false →
    a = s.setFlow pk.ctx ((s.flow pk.ctx).receive pk.seq) →
    b = a.atomicRequest h pk errs →
    exec (.atomic h pk errs) s = .next (if 0 < (b.flow pk.ctx).fresh ∧ 2 ^ (b.flow pk.ctx).winLog / 2 ≤ (b.flow pk.ctx).fresh then b.sendAck pk.ctx else b)) ∧
  (∀ (s a b : State) (h : Fin 2) (pk : Packet),
    isOp 0x06 pk = true →
    s.jobTag ≠ 0 →
    pk.jobTag = s.jobTag →
    s.fenced = false →
    (s.flow pk.ctx).state = 1 →
    (s.flow pk.ctx).kind = 2 →
    (s.flow pk.ctx).peerFid = pk.srcFid →
    pk.seq = (s.flow pk.ctx).next →
    (s.flow pk.ctx).got.contains pk.seq = false →
    a = s.setFlow pk.ctx ((s.flow pk.ctx).receive pk.seq) →
    b = a.guestRequest h pk →
    exec (.guest h pk) s = .next (if 0 < (b.flow pk.ctx).fresh ∧ 2 ^ (b.flow pk.ctx).winLog / 2 ≤ (b.flow pk.ctx).fresh then b.sendAck pk.ctx else b))

/-- Replies at the sender: ACK, READ_RSP, ATOMIC_RSP, GUEST_RSP, REJECT, MC_ACK and CKT_ACK (10_fabric_routing.md, R309, R314, R318, R319, R322, R326, R331). -/
def Obligations.RepliesDelivered : Prop :=
  (∀ (c : Instr) (s0 s : State) (h : Fin 2) (pk : Packet) (errs : LineErrs) (room : Nat),
    (c = .readRsp h pk errs ∧ isOp 0x10 pk = true) ∨ errs = [] ∧ ((c = .atomicRsp h pk ∧ isOp 0x11 pk = true) ∨ (c = .ack h pk ∧ isOp 0x12 pk = true) ∨
        (c = .reject h pk ∧ isOp 0x13 pk = true) ∨ (c = .mcAck h pk ∧ isOp 0x14 pk = true) ∨ (c = .cktAck h pk ∧ isOp 0x15 pk = true) ∨
        (c = .guestRsp h pk room ∧ isOp 0x16 pk = true)) →
    s = s0.findErrs errs →
    (s.jobTag = 0 ∨ pk.jobTag ≠ s.jobTag) →
    exec c s0 = .next (s.bump (.rout (pktHub h pk)) Reg.ROUT.TAG_DROP_COUNT)) ∧
  (∀ (s : State) (h : Fin 2) (pk : Packet),
    pk.op = 0x12 →
    payOk 0x12 pk.payload.length = true →
    s.jobTag ≠ 0 →
    pk.jobTag = s.jobTag →
    (s.flow pk.ctx).expects pk.srcFid = true →
    exec (.ack h pk) s = .next (s.takeAck pk.ctx pk)) ∧
  (∀ (s0 s : State) (h : Fin 2) (pk : Packet) (lines : LineErrs),
    s = s0.findErrs lines →
    pk.op = 0x10 →
    payOk 0x10 pk.payload.length = true →
    s.jobTag ≠ 0 →
    pk.jobTag = s.jobTag →
    (s.flow pk.ctx).expects pk.srcFid = true →
    (s.flow pk.ctx).kind ≠ 3 →
    exec (.readRsp h pk lines) s0 = .next (s.takeRead pk.ctx pk)) ∧
  (∀ (s : State) (h : Fin 2) (pk : Packet),
    pk.op = 0x11 →
    payOk 0x11 pk.payload.length = true →
    s.jobTag ≠ 0 →
    pk.jobTag = s.jobTag →
    (s.flow pk.ctx).expects pk.srcFid = true →
    (s.flow pk.ctx).kind ≠ 3 →
    exec (.atomicRsp h pk) s = .next (s.takeAtomic pk.ctx pk)) ∧
  (∀ (s : State) (h : Fin 2) (pk : Packet) (room : Nat),
    pk.op = 0x16 →
    payOk 0x16 pk.payload.length = true →
    s.jobTag ≠ 0 →
    pk.jobTag = s.jobTag →
    (s.flow pk.ctx).expects pk.srcFid = true →
    (s.flow pk.ctx).kind ≠ 3 →
    exec (.guestRsp h pk room) s = .next (s.takeGuest pk.ctx pk room)) ∧
  (∀ (s : State) (h : Fin 2) (pk : Packet),
    pk.op = 0x14 →
    payOk 0x14 pk.payload.length = true →
    s.jobTag ≠ 0 →
    pk.jobTag = s.jobTag →
    exec (.mcAck h pk) s = .next (s.takeMcAck h pk)) ∧
  (∀ (s : State) (h : Fin 2) (pk : Packet),
    pk.op = 0x15 →
    payOk 0x15 pk.payload.length = true →
    s.jobTag ≠ 0 →
    pk.jobTag = s.jobTag →
    exec (.cktAck h pk) s = .next (s.takeCktAck h pk)) ∧
  (∀ (s : State) (h : Fin 2) (pk : Packet) (c : Nat) (x : SentPkt),
    pk.op = 0x13 →
    pk.payload = [] →
    s.jobTag ≠ 0 →
    pk.jobTag = s.jobTag →
    s.covered h pk = some (.flow c x) →
    exec (.reject h pk) s = .next (s.flowRejected c x (pk.arg % 256))) ∧
  (∀ (s : State) (h : Fin 2) (pk : Packet) (c : Nat) (x : SentPkt),
    pk.op = 0x13 →
    pk.payload = [] →
    s.jobTag ≠ 0 →
    pk.jobTag = s.jobTag →
    s.covered h pk = some (.ckt c x) →
    exec (.reject h pk) s = .next (if notTaken (pk.arg % 256) = true then (s.cktClose c x.pkt.msgId (pk.arg % 256)).dmGoAll else s)) ∧
  (∀ (s : State) (h : Fin 2) (pk : Packet),
    pk.op = 0x13 →
    pk.payload = [] →
    s.jobTag ≠ 0 →
    pk.jobTag = s.jobTag →
    s.covered h pk = none →
    exec (.reject h pk) s = .next (if (s.flow pk.ctx).expects pk.srcFid = true ∨ s.cktSource h pk.ctx pk.srcFid = true then s else s.ctxDrop h pk)) ∧
  (∀ (c : Instr) (s0 s : State) (h : Fin 2) (pk : Packet) (errs : LineErrs) (room : Nat),
    (c = .readRsp h pk errs ∧ isOp 0x10 pk = true) ∨ errs = [] ∧ ((c = .atomicRsp h pk ∧ isOp 0x11 pk = true) ∨ (c = .ack h pk ∧ isOp 0x12 pk = true) ∨
        (c = .guestRsp h pk room ∧ isOp 0x16 pk = true)) →
    s = s0.findErrs errs →
    s.jobTag ≠ 0 →
    pk.jobTag = s.jobTag →
    (s.flow pk.ctx).expects pk.srcFid = false ∨ ((s.flow pk.ctx).kind = 3 ∧ pk.op ≠ 0x12) →
    exec c s0 = .next (s.ctxDrop h pk))

/-- Circuit packets at their sink and multicast packets at a package of their line (10_fabric_routing.md, R309, R325, R326, R329, R330). -/
def Obligations.CircuitAndMulticastPackets : Prop :=
  (∀ (c : Instr) (s : State) (p : Fin 16) (pk : Packet) (errs : LineErrs),
    (c = .cktWrite p pk errs ∧ isOp 0x08 pk = true) ∨ (c = .cktHalo p pk ∧ errs = [] ∧ isOp 0x09 pk = true) →
    cktValid (s.cktEntry (portHub p) (pk.ctx % 1024)) = false ∨ cktRole (s.cktEntry (portHub p) (pk.ctx % 1024)) ≠ 3 ∨ cktIn (s.cktEntry (portHub p) (pk.ctx % 1024)) ≠ p.val ∨ pk.jobTag ≠ s.jobTag →
    exec c s = .next (s.bump (.rout (portHub p)) Reg.ROUT.CKT_DROP_COUNT)) ∧
  (∀ (c : Instr) (s : State) (p : Fin 16) (pk : Packet) (errs : LineErrs),
    (c = .cktWrite p pk errs ∧ isOp 0x08 pk = true) ∨ (c = .cktHalo p pk ∧ errs = [] ∧ isOp 0x09 pk = true) →
    cktValid (s.cktEntry (portHub p) (pk.ctx % 1024)) = true →
    cktRole (s.cktEntry (portHub p) (pk.ctx % 1024)) = 3 →
    cktIn (s.cktEntry (portHub p) (pk.ctx % 1024)) = p.val →
    cktPeer (s.cktEntry (portHub p) (pk.ctx % 1024)) = pk.srcFid →
    s.jobTag ≠ 0 →
    pk.jobTag = s.jobTag →
    s.fenced = false →
    seqBefore pk.seq (s.cktSt (pk.ctx % 1024)).next = true →
    exec c s = .next ((s.bump (.rout (portHub p)) Reg.ROUT.DUP_COUNT).sendCktAck (portHub p) (pk.ctx % 1024))) ∧
  (∀ (c : Instr) (s : State) (p : Fin 16) (pk : Packet) (errs : LineErrs),
    (c = .cktWrite p pk errs ∧ isOp 0x08 pk = true) ∨ (c = .cktHalo p pk ∧ errs = [] ∧ isOp 0x09 pk = true) →
    cktValid (s.cktEntry (portHub p) (pk.ctx % 1024)) = true →
    cktRole (s.cktEntry (portHub p) (pk.ctx % 1024)) = 3 →
    cktIn (s.cktEntry (portHub p) (pk.ctx % 1024)) = p.val →
    cktPeer (s.cktEntry (portHub p) (pk.ctx % 1024)) = pk.srcFid →
    s.jobTag ≠ 0 →
    pk.jobTag = s.jobTag →
    s.fenced = false →
    seqBefore pk.seq (s.cktSt (pk.ctx % 1024)).next = false →
    pk.seq ≠ (s.cktSt (pk.ctx % 1024)).next →
    exec c s = .next (if (s.cktSt (pk.ctx % 1024)).gapSent then s else (s.setCkt (pk.ctx % 1024) { s.cktSt (pk.ctx % 1024) with gapSent := true }).sendCktAck (portHub p) (pk.ctx % 1024))) ∧
  (∀ (c : Instr) (s a b d : State) (p : Fin 16) (pk : Packet) (errs : LineErrs) (r : MsgStep),
    (c = .cktWrite p pk errs ∧ isOp 0x08 pk = true) ∨ (c = .cktHalo p pk ∧ errs = [] ∧ isOp 0x09 pk = true) →
    cktValid (s.cktEntry (portHub p) (pk.ctx % 1024)) = true →
    cktRole (s.cktEntry (portHub p) (pk.ctx % 1024)) = 3 →
    cktIn (s.cktEntry (portHub p) (pk.ctx % 1024)) = p.val →
    cktPeer (s.cktEntry (portHub p) (pk.ctx % 1024)) = pk.srcFid →
    s.jobTag ≠ 0 →
    pk.jobTag = s.jobTag →
    s.fenced = false →
    pk.seq = (s.cktSt (pk.ctx % 1024)).next →
    fifth (s.cktSt (pk.ctx % 1024)).openMsgs pk = false →
    breaksBytes (s.cktSt (pk.ctx % 1024)).openMsgs pk = false →
    a = s.setCkt (pk.ctx % 1024) { s.cktSt (pk.ctx % 1024) with
      next := ((s.cktSt (pk.ctx % 1024)).next + 1) % 2 ^ 32, gapSent := false, fresh := (s.cktSt (pk.ctx % 1024)).fresh + 1 } →
    a.packetOp (portHub p) pk errs = (b, 0) →
    r = msgTake (b.cktSt (pk.ctx % 1024)).openMsgs pk 0 →
    d = b.setCkt (pk.ctx % 1024) { b.cktSt (pk.ctx % 1024) with openMsgs := r.openMsgs } →
    exec c s = .next (match r.ended with
      | some (m, st) =>
        ((d.msgSignal m st).setCkt (pk.ctx % 1024) { (d.msgSignal m st).cktSt (pk.ctx % 1024) with
          done := ((m.msgId, st) :: ((d.msgSignal m st).cktSt (pk.ctx % 1024)).done).take 4 }).sendCktAck (portHub p) (pk.ctx % 1024)
      | none => if 2 ^ cktWin (s.cktEntry (portHub p) (pk.ctx % 1024)) / 2 ≤ (d.cktSt (pk.ctx % 1024)).fresh
        then d.sendCktAck (portHub p) (pk.ctx % 1024) else d)) ∧
  (∀ (s : State) (p : Fin 16) (pk : Packet) (errs : LineErrs),
    isOp 0x05 pk = true →
    s.getF (.rout (portHub p)) Reg.ROUT.ROUTE_CFG_HOP_LIMIT ≤ pk.hops →
    exec (.mcWrite p pk errs) s = .next ((s.bump (.rout (portHub p)) Reg.ROUT.HOP_DROP_COUNT).raise (.rout (portHub p)) Evt.ROUT.PKT_DROP)) ∧
  (∀ (s a : State) (p : Fin 16) (pk : Packet) (errs : LineErrs) (x : Pen),
    isOp 0x05 pk = true →
    pk.hops < s.getF (.rout (portHub p)) Reg.ROUT.ROUTE_CFG_HOP_LIMIT →
    x = (s.link p).pen 0 →
    a = s.setLink p ((s.link p).setPen 0 { x with pkts := x.pkts ++ [pk], used := x.used + pk.flits }) →
    exec (.mcWrite p pk errs) s = .next (if x.pkts = [] then a.routeMc (.port p 0) pk errs else a)) ∧
  (∀ (s a : State) (src : PenSrc) (pk : Packet) (errs : LineErrs),
    a = s.mcForward src pk →
    mcLeft (a.penAt src) pk ≠ [] →
    s.routeMc src pk errs = a) ∧
  (∀ (s a b : State) (p : Fin 16) (v : Fin 5) (pk : Packet) (errs : LineErrs),
    a = s.mcForward (.port p v) pk →
    mcLeft (a.penAt (.port p v)) pk = [] →
    b = a.popPen (.port p v) →
    s.routeMc (.port p v) pk errs = b.mcTake (portHub p) pk errs) ∧
  (∀ (a b : State) (h : Fin 2) (pk : Packet) (errs : LineErrs) (w : Nat) (expected job : Bool),
    w = a.mcEntry h (pk.ctx % 4096) →
    expected = (mcValid w && mcMember w && mcRoot w == pk.srcFid) →
    job = (a.jobTag ≠ 0 && pk.jobTag == a.jobTag) →
    expected = false ∨ job = false ∨ a.fenced = true →
    (b = if job = true ∧ a.fenced = false ∧ expected = false then a.ctxDrop h pk else a) →
    b.fenced = a.fenced →
    pk.last = true →
    a.mcTake h pk errs = b.sendMcAck h pk b.pos (if expected = true ∧ job = true then 2 else 1) 0 0) ∧
  (∀ (a : State) (h : Fin 2) (pk : Packet) (errs : LineErrs) (w : Nat),
    w = a.mcEntry h (pk.ctx % 4096) →
    (mcValid w && mcMember w && mcRoot w == pk.srcFid) = true →
    (a.jobTag ≠ 0 && pk.jobTag == a.jobTag) = true →
    a.fenced = false →
    a.mcTake h pk errs = a.mcMemberTake h pk w errs) ∧
  (∀ (s : State) (h : Fin 2) (pk : Packet) (errs : LineErrs) (w : Nat) (r : Nat × Nat × Nat),
    (s.group (pk.ctx % 4096)).completed pk = some r →
    s.mcMemberTake h pk w errs = if pk.last then s.sendMcAck h pk s.pos 0 0 r.2.1 else s)

/-- What each reply does at the sender, where it is expected (10_fabric_routing.md, R309, R314, R318, R319, R322, R326, R331). -/
def Obligations.RepliesComplete : Prop :=
  (∀ (s a b : State) (h : Fin 2) (pk : Packet) (base : Nat) (sack : Nat → Bool) (hit : SentPkt → Bool),
    isOp 0x12 pk = true →
    s.jobTag ≠ 0 →
    pk.jobTag = s.jobTag →
    (s.flow pk.ctx).expects pk.srcFid = true →
    base = pk.arg % 2 ^ 32 →
    (sack = fun q => decide ((q + 2 ^ 32 - (base + 1) % 2 ^ 32) % 2 ^ 32 < 255) && (pk.payload.getD ((q + 2 ^ 32 - (base + 1) % 2 ^ 32) % 2 ^ 32 / 8) 0).toNat / 2 ^ ((q + 2 ^ 32 - (base + 1) % 2 ^ 32) % 2 ^ 32 % 8) % 2 == 1) →
    (hit = fun y => ackable y.pkt.op && (seqBefore y.pkt.seq base || sack y.pkt.seq)) →
    (a = s.setFlow pk.ctx { s.flow pk.ctx with out := (s.flow pk.ctx).out.filter (fun y => !hit y), asks := (s.flow pk.ctx).asks ++ (s.flow pk.ctx).out.filter (fun y => hit y && y.pkt.op == 0x06 && y.owner != .frag) }) →
    (b = (doneOf (pk.payload.drop 32)).foldl (fun t y => t.closeMsg pk.ctx y.1 y.2) a) →
    exec (.ack h pk) s = .next ((b.pumpFlow pk.ctx).dmGoAll)) ∧
  (∀ (s0 s  : State) (h : Fin 2) (pk : Packet) (x : SentPkt) (lines : LineErrs),
    s = s0.findErrs lines →
    isOp 0x10 pk = true →
    s.jobTag ≠ 0 →
    pk.jobTag = s.jobTag →
    (s.flow pk.ctx).expects pk.srcFid = true →
    (s.flow pk.ctx).kind ≠ 3 →
    (s.flow pk.ctx).out.find? (fun y => y.pkt.seq == pk.seq && y.pkt.op == 0x03) = some x →
    exec (.readRsp h pk lines) s0 = .next (s.readReply pk.ctx x (pk.arg % 256) (pk.payload.take (x.pkt.arg % 1024)))) ∧
  (∀ (s a b : State) (c st : Nat) (x : SentPkt) (by_ : List Byte) (d : Fin 4) (t : Fin 104) (k : Fin 2) (i idx dst : Nat),
    x.owner = .read d t k i idx dst →
    (a = s.setFlow c { s.flow c with out := (s.flow c).out.filter (fun y => y.pkt.seq ≠ x.pkt.seq) }) →
    (b = if (s.flow c).msgs.any (fun y => y.msgId == x.pkt.msgId) = true then a.dmReply d t k i ⟨idx, dst, st, by_⟩ else a) →
    s.readReply c x st by_ = ((if (((s.flow c).out.filter (fun y => y.pkt.seq ≠ x.pkt.seq)) ++ (s.flow c).wait).any
        (fun y => y.pkt.op == 0x03 && y.pkt.msgId == x.pkt.msgId) = true then b else b.closeMsg c x.pkt.msgId 0).pumpFlow c).dmGoAll) ∧
  (∀ (s a : State) (h : Fin 2) (pk : Packet) (x : SentPkt) (d : Fin 4) (t : Fin 104) (k : Fin 2),
    isOp 0x11 pk = true →
    s.jobTag ≠ 0 →
    pk.jobTag = s.jobTag →
    (s.flow pk.ctx).expects pk.srcFid = true →
    (s.flow pk.ctx).kind ≠ 3 →
    (s.flow pk.ctx).out.find? (fun y => y.pkt.seq == pk.seq && y.pkt.op == 0x04) = some x →
    x.owner = .atomic d t k →
    (a = s.setFlow pk.ctx { s.flow pk.ctx with out := (s.flow pk.ctx).out.filter (fun y => y.pkt.seq ≠ pk.seq) }) →
    exec (.atomicRsp h pk) s = .next ((a.emit (.service d t k (pk.arg % 256) pk.payload)).pumpFlow pk.ctx)) ∧
  (∀ (s a : State) (h : Fin 2) (pk : Packet) (room page k : Nat) (x : SentPkt),
    isOp 0x16 pk = true →
    s.jobTag ≠ 0 →
    pk.jobTag = s.jobTag →
    (s.flow pk.ctx).expects pk.srcFid = true →
    (s.flow pk.ctx).kind ≠ 3 →
    ((s.flow pk.ctx).out ++ (s.flow pk.ctx).asks).find? (fun y => y.pkt.seq == pk.seq && y.pkt.op == 0x06) = some x →
    x.owner = .guest page k →
    (a = s.setFlow pk.ctx { s.flow pk.ctx with out := (s.flow pk.ctx).out.map (fun y => if y.pkt.seq = pk.seq then { y with owner := .frag } else y), asks := (s.flow pk.ctx).asks.filter (fun y => y.pkt.seq ≠ pk.seq) }) →
    exec (.guestRsp h pk room) s = .next (a.guestAnswer (x.pkt.arg % 16) page k (pk.arg % 256) room)) ∧
  (∀ (s a : State) (h : Fin 2) (pk : Packet) (c : Nat) (x : SentPkt) (i : Nat) (d : Fin 4) (t : Fin 104) (k : Fin 2),
    isOp 0x13 pk = true →
    s.jobTag ≠ 0 →
    pk.jobTag = s.jobTag →
    s.covered h pk = some (.flow c x) →
    x.pkt.op ≠ 0x03 →
    x.owner = .dm d t k i ∨ x.owner = .frag →
    (a = s.setFlow c { s.flow c with out := (s.flow c).out.filter (fun y => y.pkt.seq ≠ x.pkt.seq) }) →
    exec (.reject h pk) s = .next (((if notTaken (pk.arg % 256) = true ∧ (s.flow c).kind = 1 then a.closeMsg c x.pkt.msgId (pk.arg % 256) else a).pumpFlow c).dmGoAll)) ∧
  (∀ (s  : State) (h : Fin 2) (pk : Packet) (m n : McastMsg) (kind : Nat) (marks hits : List Nat),
    isOp 0x14 pk = true →
    s.jobTag ≠ 0 →
    pk.jobTag = s.jobTag →
    (s.flow pk.ctx).state = 1 ∧ (s.flow pk.ctx).kind = 3 →
    (s.flow pk.ctx).mcast.find? (fun y => y.msgId == pk.msgId) = some m →
    kind = bitsOf pk.arg 15 13 →
    (marks = if kind = 3 then linePositions (bitsOf pk.arg 12 0) (bitsOf pk.arg 28 16) else [bitsOf pk.arg 12 0]) →
    (hits = m.left.filter (fun y => marks.contains y)) →
    (n = { m with left := m.left.filter (fun y => !marks.contains y), fenced := m.fenced + (if kind = 2 ∨ kind = 3 then hits.length else 0) }) →
    exec (.mcAck h pk) s = .next (if n.left = [] then s.mcEnd pk.ctx n else
        s.setFlow pk.ctx { s.flow pk.ctx with mcast := (s.flow pk.ctx).mcast.map (fun y => if y.msgId = m.msgId then n else y) })) ∧
  (∀ (s a b : State) (h : Fin 2) (pk : Packet) (c next : Nat) (gap : Bool),
    isOp 0x15 pk = true →
    s.jobTag ≠ 0 →
    pk.jobTag = s.jobTag →
    c = pk.ctx % 1024 →
    cktValid (s.cktEntry h c) = true ∧ cktRole (s.cktEntry h c) = 1 ∧ cktPeer (s.cktEntry h c) = pk.srcFid →
    next = pk.arg % 2 ^ 32 →
    (gap = (match (s.cktSt c).out with | y :: _ => y.pkt.seq == next | [] => false)) →
    (a = s.setCkt c { s.cktSt c with out := (s.cktSt c).out.filter (fun y => !seqBefore y.pkt.seq next) }) →
    (b = (doneOf pk.payload).foldl (fun t y => t.cktClose c y.1 y.2) a) →
    exec (.cktAck h pk) s = .next (((if gap then b.cktResend c else b).pumpCkt c).dmGoAll))

/-- The sync channel's numbering and timers; time exchange, announcements and election of the drove clock (11_synchronisation.md, R341, R342, R370, R371, R372). -/
def Obligations.SyncChannelAndDroveClock : Prop :=
  (∀ (s : State) (p : Fin 16) (h : SHdr),
    s.linkActive p = true →
    exec (.syncAck p h) s = .next (s.syncAcked p h) ∧ exec (.syncResendTimer p) s = .next (s.resendSync p)) ∧
  (∀ (s : State) (p : Fin 16),
    s.linkActive p = true →
    (s.link p).sDue = true →
    (s.link p).syncQ = [] →
    exec (.syncAckTimer p) s = .next (s.syncFlit p 0 false .ack)) ∧
  (∀ (s a : State) (p : Fin 16) (h : SHdr) (t1 : Nat),
    s.linkActive p = true →
    a = s.syncAcked p h →
    exec (.timeReq p h t1) s = .next (a.sendSync p (.timeRsp t1 s.drove s.drove))) ∧
  (∀ (s a b : State) (p : Fin 16) (h : SHdr) (t1 t2 t3 : Nat) (o w : Int),
    s.linkActive p = true →
    a = s.syncAcked p h →
    ((t2 : Int) - t1) - ((a.drove : Int) - t3) = 2 * o →
    ((a.drove : Int) - t1) - ((t3 : Int) - t2) = 2 * w →
    (b = a.tickFree.tickFree.setLink p { a.link p with
      offs := (o :: (a.link p).offs).take 8, delay := w, inBand := if o.natAbs ≤ 5 then (a.link p).inBand + 1 else 0 }) →
    b.follows p = false →
    exec (.timeRsp p h t1 t2 t3) s = .next b) ∧
  (∀ (s : State) (p : Fin 16),
    s.linkActive p = true →
    2 ≤ s.admitState p →
    exec (.timeExchangeTick p) s = .next (s.sendSync p (.timeReq s.drove))) ∧
  (∀ (c : Instr) (s a : State) (p : Fin 16) (h : SHdr) (m : MasterMsg) (f : PartialMsg) (q : PaceMsg),
    (c = .masterMsg p h m) ∨ (c = .partialMsg p h f) ∨ (c = .pace p h q) →
    a = s.syncAcked p h →
    a.admitted p = false →
    exec c s = .next (a.syncRefuse (portHub p))) ∧
  (∀ (c : Instr) (s a : State) (p : Fin 16) (h : SHdr) (m : MasterMsg) (f : PartialMsg) (q : PaceMsg),
    (c = .masterMsg p h m) ∨ (c = .partialMsg p h f) ∨ (c = .pace p h q) →
    a = s.syncAcked p h →
    a.admitted p = true →
    h.lseq ≠ (a.link p).sRx →
    exec c s = .next (if ((a.link p).sRx + 256 - h.lseq % 256) % 256 ≤ 64 then a
      else if a.syncOpen p .ack then a.syncFlit p 0 true .ack else a.setLink p { a.link p with sNak := true })) ∧
  (∀ (s a b d e : State) (p : Fin 16) (h : SHdr) (m : MasterMsg),
    a = s.syncAcked p h →
    a.admitted p = true →
    h.lseq = (a.link p).sRx →
    b = a.setLink p { a.link p with sRx := ((a.link p).sRx + 1) % 256, sDue := true } →
    ((b.link p).ann = none) →
    d = b.setLink p { b.link p with ann := some ⟨m, false⟩ } →
    (e = State.elect (if m.locked then { d with clk := { d.clk with quiet := false } } else d)) →
    m.lead = 0 →
    exec (.masterMsg p h m) s = .next e) ∧
  (∀ (s : State) (p : Fin 16) (x : Ann),
    (s.link p).ann = some x →
    exec (.masterStale p) s = .next (State.elect (s.setLink p { s.link p with ann := some { x with stale := true } })) ∧
      exec .masterEligible s = .next (State.elect { s with clk := { s.clk with quiet := true } })) ∧
  (∀ (s a : State) (m : MasterMsg),
    s.isSet (.sync 0) Reg.SYNC.DROVE_STAT_MASTER = true →
    s.clk.master = some m.serial →
    a = { s with clk := { s.clk with mseq := (s.clk.mseq + 1) % 2 ^ 32 } } →
    m = ⟨m.serial, a.clk.mseq, s.getF (.sync 0) Reg.SYNC.DROVE_STAT_DEPTH, s.getF (.sync 0) Reg.SYNC.DROVE_STAT_STATE == 2, a.leadOut⟩ →
    exec .masterAnnounce s = .next ((allPorts.filter (fun p => a.admitted p)).foldl (fun (t : State) p => t.sendSync p (.master m)) a))

/-- Operations on sync objects: ARM, DISARM, SIGNAL, SET, CLEAR, CONTRIB, WAIT and READ (11_synchronisation.md, R344, R345, R347, R348, R349, R351, R352, R362). -/
def Obligations.SyncObjects : Prop :=
  (∀ (s : State) (h : Fin 2) (o : Nat) (errs : LineErrs),
    s.selObj h = some o →
    exec (.objArm h errs) s = .next ((s.findErrs errs).armObj o) ∧ exec (.objDisarm h) s = .next (s.disarm o)) ∧
  (∀ (s : State) (o n : BitVec 16) (b : Obj),
    s.selObj (objHub o.toNat) = some o.toNat →
    b = s.obj o.toNat →
    b.kind = 1 →
    b.state ≠ 0 →
    n ≠ 0 →
    2 ≤ b.scope →
    exec (.objSignal .host o n) s = .next ((s.setObj o.toNat { b with
      count := min (b.count + n.toNat) (2 ^ 31 - 1), fenced := min 16383 (b.fenced + 0),
      status := b.status ||| 0 ||| (if 2 ^ 31 - 1 < b.count + n.toNat then ObjSt.overflow else 0) }).wake o.toNat)) ∧
  (∀ (s : State) (o n : BitVec 16) (b : Obj),
    s.selObj (objHub o.toNat) = some o.toNat →
    b = s.obj o.toNat →
    b.state = 0 ∨ n = 0 ∨ b.kind = 4 ∨ b.scope < 2 →
    exec (.objSignal .host o n) s = .next (s.syncRefuse (objHub o.toNat))) ∧
  (∀ (s a : State) (o : BitVec 16) (b : Obj),
    s.selObj (objHub o.toNat) = some o.toNat →
    b = s.obj o.toNat →
    b.kind = 3 →
    b.state ≠ 0 →
    2 ≤ b.scope →
    a = s.setObj o.toNat { b with isSet := true, count := b.init % 65536 } →
    exec (.objSet .host o) s = .next ((if b.isSet then a else a.objMsi o.toNat).wake o.toNat)) ∧
  (∀ (s : State) (o : BitVec 16) (b : Obj),
    s.selObj (objHub o.toNat) = some o.toNat →
    b = s.obj o.toNat →
    b.kind = 3 ∨ b.kind = 1 →
    b.state ≠ 0 →
    2 ≤ b.scope →
    exec (.objClear .host o) s = .next (s.setObj o.toNat { b with isSet := false, count := 0 })) ∧
  (∀ (s a : State) (d : Fin 4) (t : Fin 104) (k : Fin 2) (o : BitVec 16) (data : List Byte) (b : Obj),
    s.kernelRuns d t k = true →
    b = s.obj o.toNat →
    b.kind = 4 →
    b.state = 1 →
    b.phase = 3 →
    b.scope = 2 →
    data.length = 4 →
    a = s.setObj o.toNat { b with fp32 := (fp32Add b.fp32 (leNat data)).1, status := b.status ||| 0, count := b.count + 1, first := some s.drove, last := some s.drove } →
    b.count + 1 ≠ b.init % 65536 →
    exec (.syncContrib d t k o data) s = .next (a.emit (.service d t k 0 []))) ∧
  (∀ (s : State) (d : Fin 4) (t : Fin 104) (k : Fin 2) (o : BitVec 16) (b : Obj),
    s.kernelRuns d t k = true →
    b = s.obj o.toNat →
    b.state ≠ 0 →
    s.srcAllowed b (.task d t k) = true →
    exec (.syncWait d t k o) s = .next (if b.kind = 1 ∧ 1 ≤ b.count then
        (s.setObj o.toNat { b with count := b.count - 1 }).emit (.service d t k 0 [])
      else if b.kind = 3 ∧ b.isSet then s.emit (.service d t k 0 [])
      else s.setObj o.toNat { b with waiters := b.waiters ++ [⟨d, t, k, b.gen⟩] }) ∧
      exec (.syncRead d t k o) s = .next (s.emit (.objRead d t k b.readFields
        (if b.kind = 4 then (b.record b.phase b.gen b.skew s.drove).take 96 else [])))) ∧
  (∀ (s : State) (d : Fin 4) (t : Fin 104) (k : Fin 2) (o : BitVec 16) (b : Obj),
    s.kernelRuns d t k = true →
    b = s.obj o.toNat →
    b.state ≠ 0 →
    s.srcAllowed b (.task d t k) = false →
    exec (.syncWait d t k o) s = .next ((s.syncRefuse (objHub o.toNat)).emit (.service d t k St.badMode [])) ∧
      exec (.syncRead d t k o) s = .next ((s.syncRefuse (objHub o.toNat)).emit (.service d t k St.badMode [])))

/-- Herd partials, rounds that time out, detours, and the herd's pace (11_synchronisation.md, R358, R360, R363, R365, R380, R381, R382). -/
def Obligations.HerdRoundsAndPace : Prop :=
  (∀ (s a b : State) (p : Fin 16) (h : SHdr) (m : PartialMsg),
    a = s.syncAcked p h →
    a.admitted p = true →
    h.lseq = (a.link p).sRx →
    b = a.setLink p { a.link p with sRx := ((a.link p).sRx + 1) % 256, sDue := true } →
    exec (.partialMsg p h m) s = .next (b.takePartial (some p) m)) ∧
  (∀ (s a : State) (o : Fin 1024) (b : Obj) (act : Nat),
    b = s.obj o →
    act = getBits (s.planRound b.plan b.round) 2 0 →
    b.state = 2 →
    b.round < 16 →
    act = 1 ∨ act = 3 ∨ act = 5 →
    b.roundAt + b.roundLimit < s.elapsed →
    a = (s.bump (.sync (objHub o)) Reg.SYNC.ROUND_LOST_COUNT).raise (.sync (objHub o)) Evt.SYNC.ROUND_LOST →
    exec (.roundTimeout o) s = .next (if act = 5 then ((a.setObj o { b with lost := min 65535 (b.lost + 1), status := b.status ||| ObjSt.lost, doneRounds := b.doneRounds ++ [b.round] }).endRounds o).rounds o
      else (a.setObj o { b with lost := min 65535 (b.lost + 1), status := b.status ||| ObjSt.lost, doneRounds := b.doneRounds ++ [b.round], round := b.round + 1, sent := false, roundAt := a.elapsed }).rounds o)) ∧
  (∀ (s : State) (p : Fin 16) (lseq : BitVec 8) (n : Nat) (m : PartialMsg),
    (s.link p).sOut.find? (fun x => x.lseq == lseq.toNat) = some ⟨n, .herd m⟩ →
    exec (.partialDetour p lseq) s = .next (s.detour m)) ∧
  (∀ (s a b : State) (p : Fin 16) (h : SHdr) (m : PaceMsg),
    a = s.syncAcked p h →
    a.admitted p = true →
    h.lseq = (a.link p).sRx →
    b = a.setLink p { a.link p with sRx := ((a.link p).sRx + 1) % 256, sDue := true } →
    b.jobTag = 0 ∨ m.tag ≠ b.jobTag ∨ paceEnter b.clk.pace m = none →
    exec (.pace p h m) s = .next b) ∧
  (∀ (s a b : State) (p : Fin 16) (h : SHdr) (m : PaceMsg) (l : List PaceEntry),
    a = s.syncAcked p h →
    a.admitted p = true →
    h.lseq = (a.link p).sRx →
    b = a.setLink p { a.link p with sRx := ((a.link p).sRx + 1) % 256, sDue := true } →
    b.jobTag ≠ 0 →
    m.tag = b.jobTag →
    paceEnter b.clk.pace m = some l →
    exec (.pace p h m) s = .next ((allPorts.filter (fun q => b.admitted q && q != p)).foldl (fun (t : State) q => t.sendSync q (.pace m)) (b.setPace l))) ∧
  (∀ (s : State) (m : PaceMsg),
    s.isSet (.sync 0) Reg.SYNC.PACE_CFG_POST = true →
    s.jobTag ≠ 0 →
    m = ⟨s.serial, (s.clk.oseq + 1) % 65536, s.ownPace, s.jobTag⟩ →
    exec .pacePost s = .next ((allPorts.filter (fun p => s.admitted p)).foldl (fun (t : State) p => t.sendSync p (.pace m))
      { s with clk := { s.clk with oseq := (s.clk.oseq + 1) % 65536 } })) ∧
  (∀ (s : State) (m : PaceMsg),
    s.ownPace < 2500 →
    s.isSet (.sync 0) Reg.SYNC.PACE_CFG_POST = true →
    s.jobTag ≠ 0 →
    m = ⟨s.serial, (s.clk.oseq + 1) % 65536, s.ownPace, s.jobTag⟩ →
    exec .paceRepost s = .next ((allPorts.filter (fun p => s.admitted p)).foldl (fun (t : State) p => t.sendSync p (.pace m))
      { s with clk := { s.clk with oseq := (s.clk.oseq + 1) % 65536 } })) ∧
  (∀ (s : State) (origin : BitVec 64),
    (s.clk.pace.any (fun x => x.origin = origin.toNat) = true) →
    exec (.paceEntryExpire origin) s = .next (s.setPace (s.clk.pace.filter (fun x => x.origin ≠ origin.toNat))))

/-- Input power samples, the shares of the compute budget, and what is learned of phases (12_power.md, R388, R394, R396, R402, R403). -/
def Obligations.PowerSamplesAndShares : Prop :=
  (∀ (s a b c : State) (v i : BitVec 16) (l : List Nat),
    a = (s.setF .hctl Reg.HCTL.VIN_VALUE v.toNat).setF .hctl Reg.HCTL.IIN_VALUE i.toNat →
    l = ((v.toNat * i.toNat) :: s.pw.samples).take 1000000 →
    b = (a.setPw { a.pw with samples := l }).moveLevel pwrLevel (min 4095 (avgWatts l 1000)) →
    c = (b.setF .hctl Reg.HCTL.PWR_1S_WATTS (min 4095 (avgWatts l 1000000))).setF .hctl Reg.HCTL.PWR_2MS_PEAK_WATTS (max ((b.setF .hctl Reg.HCTL.PWR_1S_WATTS (min 4095 (avgWatts l 1000000))).getF .hctl Reg.HCTL.PWR_2MS_PEAK_WATTS) (min 4095 (avgWatts l 2000))) →
    exec (.powerSample v i) s = .next ((c.peakStep.ocStep i.toNat).holdStep)) ∧
  (∀ (s z a b : State) (ot m0 m1 m2 m3 : Nat) (busy l : List Share),
    z = s.setPw { s.pw with meanPwr := [(0, m0), (1, m1), (2, m2), (3, m3)] } →
    (busy = (List.finRange 4).flatMap (fun d => (List.range 13).filterMap (fun c => if (z.clusterTasks d c).isEmpty then none else
      some ⟨d, c, (z.clusterTasks d c).map (fun w => (z.learned d w.phaseTag ([m0, m1, m2, m3].getD d 0)).1),
        (z.clusterTasks d c).map (fun w => (z.learned d w.phaseTag ([m0, m1, m2, m3].getD d 0)).2), 400⟩))) →
    l = shareSteps (z.isSet .hctl Reg.HCTL.SHARE_CFG_ENABLE) (z.capLimit ot - 1000 * ot) busy 4368 →
    (a = z.setPw { z.pw with budget := (l.filter (fun x => x.mhz < 2500)).foldl (fun (m : Map Nat) x => m.put (clusKey x.die x.clus) x.mhz) [] }) →
    (b = (List.finRange 4).foldl (fun (t : State) (d : Fin 4) =>
      (t.setF .hctl (Reg.HCTL.DIE_BUDGET_WATTS d) (min 4095 (((l.filter (fun x => x.die = d)).map Share.watts).sum / 1000))).setF (.cdie d)
        Reg.CDIE.PWR_BUDGET_WATTS (min 4095 (((l.filter (fun x => x.die = d)).map Share.watts).sum / 1000))) a) →
    exec (.shareRecompute ot m0 m1 m2 m3) s = .next (b.ceilsFrom z)) ∧
  (∀ (s a : State) (d : Fin 4) (est mean : Nat) (ph sc : BitVec 8) (p : BitVec 16) (o : Nat × Nat),
    a = (s.setF (.cdie d) Reg.CDIE.PWR_EST_WATTS (min 4095 est)).setPw { s.pw with meanPwr := s.pw.meanPwr.put d mean } →
    o = a.learned d ph.toNat mean →
    exec (.phaseLearn d est mean [(ph, p, sc)]) s = .next (a.tickFree.setPw { a.pw with
      phases := a.pw.phases.put (256 * d.val + ph.toNat) (a.eighth o.1 p.toNat, a.eighth o.2 (min 100 sc.toNat)) })) ∧
  (∀ (s : State) (d : Fin 4) (est mean : Nat) (o : PhaseObs) (obs : List PhaseObs),
    ∃ t, exec (.phaseLearn d est mean (obs ++ [o])) s = .next t ∧
      ∃ q, exec (.phaseLearn d est mean obs) s = .next q ∧
        t = q.tickFree.setPw { q.pw with phases := q.pw.phases.put (256 * d.val + o.1.toNat) (q.eighth (q.learned d o.1.toNat mean).1 o.2.1.toNat, q.eighth (q.learned d o.1.toNat mean).2 (min 100 o.2.2.toNat)) }) ∧
  (∀ (s : State),
    exec .phaseForget s = .next (s.setPw { s.pw with phases := [] }))

/-- Clock stretches, the DROOP ceiling, frequency steps and rail steps (12_power.md, R391, R398, R399, R401). -/
def Obligations.DroopSlewAndRails : Prop :=
  (∀ (s a : State) (d : Fin 4) (t : Fin 104) (above : Bool),
    s.clockRuns d t = true →
    (s.tile d t).stretching = false →
    a = ((s.setTile d t { s.tile d t with stretching := true, settling := false }).bump (.tile d t) Reg.TILE.STRETCH_COUNT).bump (.cdie d) Reg.CDIE.STRETCH_EVT_COUNT →
    a.getF (.tile d t) Reg.TILE.CLK_MHZ = (a.islandCeil d t true).1 →
    exec (.droopDetect d t above) s = .next (if above then a.droopFall d t else a)) ∧
  (∀ (s a : State) (d : Fin 4) (t : Fin 104) (above : Bool),
    (s.tile d t).stretching = true →
    (a = if above then s.droopFall d t else s) →
    exec (.droopStretchEnd d t above) s = .next (a.setTile d t { a.tile d t with stretching := false, settling := true })) ∧
  (∀ (s : State) (d : Fin 4) (t : Fin 104),
    (s.tile d t).ceilDroop < 2500 →
    exec (.droopCeilRise d t) s = .next (s.setDroop d t (min 2500 ((s.tile d t).ceilDroop + 25)))) ∧
  (∀ (s : State) (d : Fin 4) (t : Fin 104),
    (s.tile d t).settling = true →
    (s.tile d t).stretching = false →
    exec (.freqDeferEnd d t) s = .next (s.setTile d t { s.tile d t with settling := false, deferred := false })) ∧
  (∀ (s : State) (d : Fin 4) (t : Fin 104) (goal now : Nat),
    s.tileActive d t = true →
    (s.tile d t).deferred = false →
    goal = (s.islandCeil d t true).1 →
    now = s.getF (.tile d t) Reg.TILE.CLK_MHZ →
    goal ≤ now →
    exec (.freqSlewStep d t) s = .next (s.setF (.tile d t) Reg.TILE.CLK_MHZ (max goal (now - 100)))) ∧
  (∀ (s : State) (d : Fin 4) (t : Fin 104) (goal now : Nat),
    s.tileActive d t = true →
    (s.tile d t).deferred = false →
    goal = (s.islandCeil d t true).1 →
    now = s.getF (.tile d t) Reg.TILE.CLK_MHZ →
    now < goal →
    exec (.freqSlewStep d t) s = .next (s.setF (.tile d t) Reg.TILE.CLK_MHZ (([now + 25, now + 50, now + 75, now + 100].takeWhile
      (fun f => decide (f ≤ goal) && decide (s.need d t f ≤ s.rail d (t / 8)))).getLast?.getD now))) ∧
  (∀ (s a : State) (d : Fin 4) (c : Fin 13) (k need v : Nat),
    k = clusKey d c →
    need = min 360 (max 200 (s.railNeed d c)) →
    (v = if s.rail d c < need then min need (s.rail d c + 4)
        else if need < s.rail d c ∧ s.pw.railFall.getD k false = true then max need (s.rail d c - 4) else s.rail d c) →
    a = s.setPw { s.pw with rails := s.pw.rails.putD k v 300, railFall := s.pw.railFall.putD k (decide (need < v) && s.pw.railFall.getD k false) false } →
    exec (.railRampStep d c) s = .next (a.setF (.cdie d) (Reg.CDIE.CLUS_CEIL_RAIL_MV c) (v * 5 / 2))) ∧
  (∀ (s : State) (d : Fin 4) (c : Fin 13),
    s.railNeed d c < s.rail d c →
    exec (.railFallHoldExpire d c) s = .next (s.setPw { s.pw with railFall := s.pw.railFall.putD (clusKey d c) true false }))

/-- Temperature samples, the thermal cap, the thermal trip and thermal cycles (13_thermal_cooling_ageing.md, R411, R412, R413, R414, R415, R416, R426). -/
def Obligations.SensorsAndThermalCap : Prop :=
  (∀ (s a b g : State) (hs : Fin 440) (ra rb : Option Int × Nat × Option Nat) (ia ib m : Int) (load : Nat) (p q : Bool) (x y z w : Spot),
    x = (s.spot hs).sampled ia ib load →
    (ra = if x.failA then (x.lastA, x.jumpA, none) else sensorStep x.lastA x.jumpA ia (x.stuck (fun e => e.1))) →
    (rb = if x.failB then (x.lastB, x.jumpB, none) else sensorStep x.lastB x.jumpB ib (x.stuck (fun e => e.2.1))) →
    y = { x with lastA := ra.1, jumpA := ra.2.1, failA := x.failA || ra.2.2.isSome, lastB := rb.1, jumpB := rb.2.1, failB := x.failB || rb.2.2.isSome } →
    (a = match ra.2.2 with | some c => s.sensorFail hs false c | none => s) →
    (b = match rb.2.2 with | some c => a.sensorFail hs true c | none => a) →
    y.judgePair = (z, p) →
    z.judgeDrift m = (w, q) →
    p = false →
    q = false →
    g = b.setSpot hs { w with tctl := max (w.formH m) (s.forecast hs m - 24), fore := s.forecast hs m } →
    exec (.sensorSample hs ia ib load m) s = .next ((match spotTile hs with | some (d, t) => g.thermIsland hs d t | none => g).showSpots hs)) ∧
  (∀ (s : State) (same : Bool),
    exec (.capThermAdjust same) s = .next (if same then (State.capTherm (s.setPw { s.pw with capWait := true })).setPw
      { (State.capTherm (s.setPw { s.pw with capWait := true })).pw with capWait := false } else s.capTherm)) ∧
  (∀ (s : State) (w : Nat),
    w = s.getF .hctl Reg.HCTL.CAP_THERM_WATTS →
    s.within 839 799 799 = false ∨ 100 < s.thermLimited →
    s.capTherm = (((s.setPw { s.pw with capMs := 0 }).setF .hctl Reg.HCTL.CAP_THERM_WATTS (max 600 (w - 100))).capResolve)) ∧
  (∀ (s : State) (w : Nat),
    w = s.getF .hctl Reg.HCTL.CAP_THERM_WATTS →
    s.within 839 799 799 = true →
    s.within 736 720 720 = true →
    s.thermLimited ≤ 10 →
    s.capTherm = (if s.pw.capMs < 9 then s.setPw { s.pw with capMs := s.pw.capMs + 1 }
      else ((s.setPw { s.pw with capMs := 0 }).setF .hctl Reg.HCTL.CAP_THERM_WATTS (min 2400 (w + 50))).capResolve)) ∧
  (∀ (s : State),
    s.within 839 799 799 = true →
    s.thermLimited ≤ 100 →
    s.within 736 720 720 = false ∨ 10 < s.thermLimited →
    s.capTherm = (s.setPw { s.pw with capMs := 0 })) ∧
  (∀ (s a : State) (sensor : Fin 880),
    s.mg.tripped = false →
    (if sensor.val % 2 = 0 then (s.spot (sensor / 2)).failA || decide ((s.spot (sensor / 2)).hotA < 2) else (s.spot (sensor / 2)).failB || decide ((s.spot (sensor / 2)).hotB < 2)) = false →
    a = { s with mg := { s.mg with tripped := true, rails := false } } →
    exec (.thermalTrip sensor) s = .next (((a.wipeFor 2).setF .hctl Reg.HCTL.TRIP_LAST_SENSOR sensor).setF .hctl Reg.HCTL.TRIP_LAST_VALID 1)) ∧
  (∀ (s : State) (sensor : Fin 880),
    (s.mg.tripped = true ∨ (if sensor.val % 2 = 0 then (s.spot (sensor / 2)).failA || decide ((s.spot (sensor / 2)).hotA < 2) else (s.spot (sensor / 2)).failB || decide ((s.spot (sensor / 2)).hotB < 2)) = true) →
    exec (.thermalTrip sensor) s = .next s) ∧
  (∀ (s a b : State) (die : Fin 6) (x : Int),
    x = (s.hottest Spot.tctl (dieSpots die)).1 →
    x ≤ 760 →
    a = s.cycleStep die x →
    b = a.tickFree →
    exec (.thermalCycleSample die) s = .next (b.setF .hctl (Reg.HCTL.TMAX_DEGC die) (max (b.getF .hctl (Reg.HCTL.TMAX_DEGC die)) (if x < 0 then 0 else a.degC x))))

/-- Coolant reports, their loss, the check of the flow sensor, and the forecast mode (13_thermal_cooling_ageing.md, R417, R418, R419, R420, R421, R422, R423, R424). -/
def Obligations.Coolant : Prop :=
  (∀ (s : State) (seq : BitVec 32) (tin tout fl : BitVec 16) (ok : BitVec 8) (rsvd : Bool),
    exec (.coolant seq tin tout fl ok rsvd false) s = .next (State.coolReport seq tin tout fl ok rsvd s) ∧
      exec (.coolant seq tin tout fl ok rsvd true) s =
        .next ((State.coolReport seq tin tout fl ok rsvd (s.setPw { s.pw with capWait := true })).setPw
          { (State.coolReport seq tin tout fl ok rsvd (s.setPw { s.pw with capWait := true })).pw with capWait := false })) ∧
  (∀ (s : State) (seq : BitVec 32) (tin tout fl : BitVec 16) (ok : BitVec 8) (rsvd : Bool),
    s.mg.up = true →
    s.coolValid seq tin.toInt tout.toInt ok rsvd = false →
    State.coolReport seq tin tout fl ok rsvd s = (s.bump .hctl Reg.HCTL.COOL_BAD_COUNT).setPw { s.pw with coolRun := 0 }) ∧
  (∀ (s a b : State) (seq : BitVec 32) (tin tout fl : BitVec 16) (ok : BitVec 8) (f : Nat),
    s.mg.up = true →
    s.coolValid seq tin.toInt tout.toInt ok false = true →
    ok = 7 →
    a = (((s.setF .hctl Reg.HCTL.COOL_INLET_TEMP tin.toNat).setF .hctl Reg.HCTL.COOL_OUTLET_TEMP tout.toNat).setF .hctl Reg.HCTL.COOL_FLOW_MLMIN fl.toNat).setF .hctl Reg.HCTL.COOL_STAT_VALID 1 →
    (b = a.setPw { s.pw with coolSeq := some seq.toNat, coolAt := some s.elapsed, inlet := some tin.toInt, outlet := some tout.toInt, flow := some fl.toNat, coolFlows := (s.elapsed, fl.toNat) :: s.pw.coolFlows.filter (fun x => decide (s.elapsed ≤ x.1 + 100000000)) }) →
    b.isSet .hctl Reg.HCTL.COOL_STAT_FLOW_BAD = false →
    f = fl.toNat →
    State.coolReport seq tin tout fl ok false s = (b.setPw { b.pw with flowAt := some b.elapsed }).useFlow f tin.toInt true) ∧
  (∀ (s a : State) (fl : Nat) (ti : Int) (report : Bool),
    (a = if s.gone50 s.pw.coolAt = true then s.setF .hctl Reg.HCTL.COOL_STAT_VALID 0 else s) →
    exec .coolantMissing s = .next (if a.gone50 a.pw.flowAt = true then ((a.setPw { a.pw with flowAt := none }).raise .hctl Evt.HCTL.COOL_MISSING).floorOn 3 else a) ∧
      (s.floorCause fl ti ≠ 0 → s.useFlow fl ti report = s.floorOn (s.floorCause fl ti))) ∧
  (∀ (s a : State) (o : Int) (q : Nat),
    s.pw.outlet = some o →
    s.inferFlow (s.pw.inlet.getD 4500) o = (q, a) →
    a.pw.flow = none →
    exec .flowCheck s = .next ((a.setF .hctl Reg.HCTL.FLOW_EST_MLMIN q).setPw { a.pw with overSince := none, okSince := none })) ∧
  (∀ (s : State),
    exec .fcastModeChange s = .next (s.setFcast s.fcastNow))

/-- Visits of the re-margin pass, islands without a safe voltage, and margin bumps (13_thermal_cooling_ageing.md, R428, R429, R430, R431). -/
def Obligations.RemarginPass : Prop :=
  (∀ (s : State) (d : Fin 4) (t : Fin 104),
    s.isDue d t = true →
    s.slotsEmpty d t = true →
    s.tileState d t ≠ 2 →
    (List.finRange 104).all (fun x => !(s.tile d x).visiting) = true →
    exec (.remarginVisit d t) s = .next (s.setTile d t { s.tile d t with visiting := true })) ∧
  (∀ (s0 s a b : State) (d : Fin 4) (t : Fin 104) (table : Vector Nat 8) (ring : Nat) (lines : LineErrs),
    s = s0.findErrs lines →
    (s0.tile d t).visiting = true →
    b = ((s.setTile d t { s.tile d t with visiting := false, visitDue := none, innerDrain := false }).setF (.tile d t) Reg.TILE.AGE_PPM (min 65535 (s.slowPpm (Config.ringTest (tileKey d t)) ring))).tickFree →
    (a = b.setPw { b.pw with toVisit := b.pw.toVisit.filter (fun k => k ≠ tileKey d t) }) →
    (table.toList.all (fun v => decide (v ≤ 360)) = true) →
    exec (.remarginVisitDone d t table ring lines) s0 = .next (a.putMargin d t ⟨table.toList, (a.spot (islandSpot d t)).tctl, a.elapsed, ring⟩)) ∧
  (∀ (s0 s a b : State) (d : Fin 4) (t : Fin 104) (table : Vector Nat 8) (ring : Nat) (lines : LineErrs),
    s = s0.findErrs lines →
    (s0.tile d t).visiting = true →
    b = ((s.setTile d t { s.tile d t with visiting := false, visitDue := none, innerDrain := false }).setF (.tile d t) Reg.TILE.AGE_PPM (min 65535 (s.slowPpm (Config.ringTest (tileKey d t)) ring))).tickFree →
    (a = b.setPw { b.pw with toVisit := b.pw.toVisit.filter (fun k => k ≠ tileKey d t) }) →
    (table.toList.any (fun v => decide (360 < v)) = true) →
    s.tileState d t ≠ 1 →
    exec (.remarginVisitDone d t table ring lines) s0 = .next (a.failTile d t 4 none)) ∧
  (∀ (s : State) (d : Fin 4) (t : Fin 104),
    s.tileActive d t = true →
    s.isLate d t = true →
    s.slotsEmpty d t = false →
    (s.tile d t).innerDrain = false →
    exec (.rmarginLate d t) s = .next (((s.setTile d t { s.tile d t with innerDrain := true }).bump (.cdie d) Reg.CDIE.RMARGIN_LATE_COUNT).raise (.cdie d)
      Evt.CDIE.RMARGIN_LATE)) ∧
  (∀ (s a : State) (d : Fin 4) (t : Fin 104) (lines : LineErrs) (m : List Nat),
    s.clockRuns d t = true →
    (s.tile d t).stretching = false →
    (s.tile d t).settling = false →
    (m = (s.marginOf d t).table.map (fun v => v + 4)) →
    a = (s.setTile d t { s.tile d t with visitDue := some ((s.tile d t).visitDue.getD s.elapsed) }).raise (.tile d t) Evt.TILE.MARGIN_BUMP →
    exec (.marginBump d t lines) s = .next (if m.any (fun v => decide (360 < v)) then (a.findErrs lines).failTile d t 4 none else a.putMargin d t { s.marginOf d t with table := m }))

/-- BAR2 reads and writes, doorbells, completion heads, and enabling, cleaning and disabling of command queues (15_host_interface.md, 06_memory.md, R191, R459, R460, R462, R463, R472, R492, 16_management_reset_boot.md). -/
def Obligations.Bar2AndCommandQueues : Prop :=
  (∀ (s a b : State) (off : Fin 68719476736) (n st : Nat) (errs : LineErrs) (bs : List Byte),
    s.bootWindow = false →
    a = s.findErrs errs →
    a.readMem Req.host (a.winAddr off) n = (b, st, bs) →
    exec (.bar2Read off n errs) s = .next (if st = 0 then b.emit (.bar2Read off bs)
      else ((b.bump .pcie Reg.PCIE.BAR2_ERR_COUNT).raise .pcie Evt.PCIE.BAR2_ERR).emit (.bar2Abort off))) ∧
  (∀ (s a b : State) (off : Fin 68719476736) (data : List Byte) (errs : LineErrs) (st : Nat),
    s.bootWindow = false →
    a = s.findRmw (s.winAddr off) data.length errs →
    a.writeWhole Req.host (a.winAddr off) data = (b, st) →
    exec (.bar2Write off data errs) s = .next (if st = 0 then b else
      ((b.writeDrop s errs (b.winAddr off) data.length).bump .pcie Reg.PCIE.BAR2_DROP_COUNT).raise .pcie Evt.PCIE.BAR2_ERR)) ∧
  (∀ (s old : State) (errs : LineErrs) (n addr id : Nat),
    ((List.range (lineCount addr n)).map (fun i => 64 * (addr / 64 + i))).findSome? (fun x =>
      match (s.page (x / 2 ^ 21)).frame? with
      | some f => if partLine addr n x && (s.mm.ue.getD (lineKey f (x % 2 ^ 21 / 64)) false ||
          ((old.page (x / 2 ^ 21)).st ≠ .lost && errs.any (fun e => e.1 / 64 == x / 64 && e.2 == .uncorrectable))) then some f else none
      | none => none) = some id →
    s.writeDrop old errs addr n = (s.bump (chanUnit (frameChan id)) Reg.MCHN.WRITE_DROP_COUNT).raise (chanUnit (frameChan id)) Evt.MCHN.WRITE_DROP) ∧
  (∀ (s : State) (off : Fin 68719476736) (data : List Byte) (n : Nat) (errs : LineErrs),
    s.bootWindow = true →
    s.getF .pcie Reg.PCIE.BOOT_STAT_STATE ≠ 2 →
    off.val + data.length ≤ 0x400000 →
    exec (.bar2Write off data errs) s = .next { s with mg := { s.mg with bootBuf := s.mg.bootBuf.writeBytes off data } } ∧
      exec (.bar2Read off n errs) s = .next (s.emit (.bar2Read off (List.replicate n 0)))) ∧
  (∀ (s : State) (q : Fin 64) (v : Word) (n : Nat),
    s.ready = true →
    (s.hq q).state ≠ 0 →
    n = (v.toNat + 2 ^ 32 - (s.hq q).sqHead) % 2 ^ 32 →
    exec (.sqDoorbell q v) s = .next (if 2 ^ (s.hq q).sqLog < n ∨ n < (s.hq q).waiting then s.queueErr q 2
      else s.setHq q { s.hq q with sqTail := v.toNat })) ∧
  (∀ (s : State) (q : Fin 64) (v : Word),
    s.ready = true →
    (s.hq q).state ≠ 0 →
    exec (.hostCqHeadWrite q v) s = .next (if (s.hq q).unread < (v.toNat + 2 ^ 32 - (s.hq q).cqHead) % 2 ^ 32 then s.queueErr q 3
      else s.setHq q { s.hq q with cqHead := v.toNat })) ∧
  (∀ (s a : State) (x : HostQ),
    (s.hq s.qsel).state = 0 →
    x = { s.hq s.qsel with sqTail := 0, sqHead := 0, cqTail := 0, cqHead := 0 } →
    a = s.setHq s.qsel x →
    a.queueOk x = true →
    exec .queueEnable s = .next (a.setHq s.qsel { x with state := 1 })) ∧
  (∀ (s a b c : State) (x : HostQ) (st : Nat) (z : List Byte),
    z = List.replicate 32768 0 →
    (s.hq s.qsel).state = 0 →
    x = { s.hq s.qsel with sqTail := 0, sqHead := 0, cqTail := 0, cqHead := 0 } →
    a = s.setHq s.qsel x →
    a.queueOk x = true →
    b = a.setHq s.qsel { x with state := 1, clean := true, high := 0 } →
    b.writeMem Req.host (b.recordAddr s.qsel 0) z = (c, st) →
    exec .queueClean s = .next (if st = 0 then c else c.recordLost)) ∧
  (∀ (s a : State) (x : HostQ),
    (s.hq s.qsel).state = 0 →
    x = { s.hq s.qsel with sqTail := 0, sqHead := 0, cqTail := 0, cqHead := 0 } →
    a = s.setHq s.qsel x →
    a.queueOk x = false →
    exec .queueEnable s = .next (a.queueErr s.qsel 1) ∧ exec .queueClean s = .next (a.queueErr s.qsel 1)) ∧
  (∀ (s : State),
    (s.hq s.qsel).state ≠ 0 →
    exec .queueDisable s = .next (s.queueStop s.qsel))

/-- Host commands: fetching and sorting by CMD_ID, each operation, and completion (15_host_interface.md, R464, R465, R466, R467, R468, R469, R470, R471, R222, 07_data_placement.md). -/
def Obligations.HostCommands : Prop :=
  (∀ (s : State) (q : Fin 64) (raw : Vector Byte 64),
    s.mayStart q raw.toList = true →
    exec (.commandFetch q raw true) s = .next (s.dmaErr.queueErr q 4)) ∧
  (∀ (s a b : State) (q : Fin 64) (raw : Vector Byte 64) (x : HostQ) (id : Nat),
    s.mayStart q raw.toList = true →
    a = { s with host := { s.host with turn := q } } →
    b = a.setHq q { s.hq q with sqHead := ((s.hq q).sqHead + 1) % 2 ^ 32 } →
    x = b.hq q →
    id = descF raw.toList 8 8 →
    exec (.commandFetch q raw false) s = .next (if x.clean then (b.setHq q { x with clean := false, high := id, first := id }).startCmd q raw.toList
      else if id = x.high + 1 then (b.setHq q { x with high := id }).startCmd q raw.toList
      else if x.high < id then b.refuseCmd q raw.toList 0x07
      else if id + 1024 ≤ x.high ∨ id < x.first then b.refuseCmd q raw.toList 0x06
      else if x.run.any (fun c => c.fresh && c.id == id) then b.repeatCmd q raw.toList
      else b.runAgain q (b.recordAddr q id) raw.toList)) ∧
  (∀ (s a : State) (q at_ st : Nat) (raw rec : List Byte),
    s.readMem Req.host at_ 32 = (a, st, rec) →
    s.runAgain q at_ raw = (if st ≠ 0 then (a.refuseCmd q raw 0x06).recordLost
      else if descF rec 8 1 = 0x0C then a.startCmd q raw else a.repeatCmd q raw)) ∧
  (∀ (s : State) (q : Fin 64) (n : Nat) (c : HostCmd),
    s.openCmd q n 0 = some c →
    exec (.nop q n) s = .next (s.hostEnd q n 0 0 0)) ∧
  (∀ (s a b : State) (q : Fin 64) (n st dn : Nat) (c : HostCmd) (data bs : List Byte) (errs : LineErrs) (err : Fin 5),
    s.openCmd q n 1 = some c →
    s.dmaOpen = true →
    bs = data.take c.left →
    a = s.findRmw (c.dst + c.moved) bs.length errs →
    a.copyIn (c.dst + c.moved) bs 0 (lineCount (c.dst + c.moved) bs.length) = (b, st, dn) →
    exec (.copyH2d q n data errs err) s = .next (if st = 0 ∧ bs.length < c.left ∧ err ≠ 0 then b.dmaErr.hostEnd q n 0x05 err (c.moved + dn)
      else if st ≠ 0 then b.hostEnd q n (hostStatus st) (hostDetail st) (c.moved + dn)
      else if c.moved + dn < c.len then b.movedTo q n (c.moved + dn) else b.hostEnd q n 0 0 c.len)) ∧
  (∀ (s a e b : State) (q : Fin 64) (n st dn want : Nat) (c : HostCmd) (errs : LineErrs) (part : Option Nat) (err : Fin 5) (got : List Byte),
    s.openCmd q n 2 = some c →
    s.dmaOpen = true →
    a = s.findErrs errs →
    want = min (part.getD c.left) c.left →
    a.copyOut (c.src + c.moved) want [] (lineCount (c.src + c.moved) want) = (e, st, got) →
    b = e.emit (.hostWrite (c.dst + c.moved) got) →
    dn = got.length →
    exec (.copyD2h q n errs part err) s = .next (if st = 0 ∧ err ≠ 0 ∧ want < c.left then b.dmaErr.hostEnd q n 0x05 err (c.moved + dn)
      else if st ≠ 0 then b.hostEnd q n (hostStatus st) (hostDetail st) (c.moved + dn)
      else if c.moved + dn < c.len then b.movedTo q n (c.moved + dn) else b.hostEnd q n 0 0 c.len)) ∧
  (∀ (s a b : State) (q : Fin 64) (n st dn : Nat) (c : HostCmd) (data : List Byte) (errs : LineErrs) (part : Option Nat),
    s.openCmd q n 3 = some c →
    (data = (((List.range (c.len / 8)).flatMap (fun _ => leBytes 8 c.arg0)).drop c.moved).take (part.getD c.left)) →
    a = s.findRmw (c.dst + c.moved) data.length errs →
    a.copyIn (c.dst + c.moved) data 0 (lineCount (c.dst + c.moved) data.length) = (b, st, dn) →
    exec (.hostFill q n errs part) s = .next (if st ≠ 0 then b.hostEnd q n (hostStatus st) (hostDetail st) (c.moved + dn)
      else if c.moved + dn < c.len then b.movedTo q n (c.moved + dn) else b.hostEnd q n 0 0 c.len)) ∧
  (∀ (s b : State) (q : Fin 64) (n p st : Nat) (c : HostCmd) (data : List Byte) (err : Fin 5),
    s.openCmd q n 4 = some c →
    p = c.arg0 % 4096 →
    (s.pool p).state = 1 →
    (s.pool p).untaken + c.len ≤ 2 ^ (s.pool p).ringLog →
    s.dmaOpen = true →
    128 * c.len ≤ data.length →
    s.postDescs (s.pool p) (s.pool p).tail data c.len = (b, st) →
    exec (.postTasks q n data err) s = .next (if st ≠ 0 then b.hostEnd q n (hostStatus st) (hostDetail st) 0 else (b.doorbell p c.len).hostEnd q n 0 0 c.len)) ∧
  (∀ (s b : State) (q : Fin 64) (n : Nat) (c : HostCmd) (ok : Bool),
    s.openCmd q n 5 = some c →
    s.signal (c.arg0 % 65536) (c.arg1 % 65536) .host 0 0 = (b, ok) →
    exec (.hostSignal q n) s = .next (b.hostEnd q n (if ok then 0 else 0x0A) 0 0)) ∧
  (∀ (s a : State) (q : Fin 64) (n : Nat) (c : HostCmd) (b : Obj),
    s.openCmd q n 6 = some c →
    c.waitGen = none →
    b = s.obj (c.arg0 % 65536) →
    b.state = 0 ∨ s.srcAllowed b .host = true →
    (a = s.setHq q { s.hq q with run := (s.hq q).run.mapIdx (fun i d => if i = n then { d with waitGen := some b.gen, waitAt := s.elapsed } else d) }) →
    exec (.waitSync q n) s = .next (a.judgeWait q n c b.gen)) ∧
  (∀ (s : State) (q : Fin 64) (n : Nat) (c : HostCmd) (g : Nat),
    s.openCmd q n 6 = some c →
    c.waitGen = some g →
    c.arg1 % 2 ^ 32 ≠ 0 →
    c.waitAt + 1000 * (c.arg1 % 2 ^ 32) ≤ s.elapsed →
    exec (.waitSyncRelease q n) s = .next (s.judgeWait q n c g) ∧ exec (.waitSyncTimeout q n) s = .next (s.hostEnd q n 0x0B 0 0)) ∧
  (∀ (s a : State) (q : Fin 64) (n : Nat) (c : HostCmd),
    (s.hq q).run[n]? = some c →
    c.orphan = false →
    c.copy = false →
    s.dmaOpen = true →
    c.result ≠ none →
    a = s.setHq q { s.hq q with run := (s.hq q).run.eraseIdx n } →
    exec (.hostCommandDone q n) s = .next ((if c.fresh then a.record q c else a).complete q c ((s.hq q).compOf c))) ∧
  (∀ (s a : State) (q : Fin 64) (n : Nat) (c : HostCmd),
    (s.hq q).run[n]? = some c →
    c.orphan = true →
    c.result ≠ none →
    a = s.setHq q { s.hq q with run := (s.hq q).run.eraseIdx n } →
    exec (.hostCommandDone q n) s = .next (a.record q c))

/-- Poisoned packets, vectors, configuration writes, resets of the host connection and its link (15_host_interface.md, 16_management_reset_boot.md, R453, R454, R473, R474, R475, R476, R492). -/
def Obligations.HostConnection : Prop :=
  (∀ (s : State) (q : Fin 64) (n : Nat) (data : List Byte),
    exec (.poisonedTlp 0 q n data) s = .next ((s.bump .pcie Reg.PCIE.POISON_RX_COUNT).raise .pcie Evt.PCIE.POISON_RX) ∧
      exec (.poisonedTlp 2 q n data) s = .next (if (((s.bump .pcie Reg.PCIE.POISON_RX_COUNT).raise .pcie Evt.PCIE.POISON_RX).hq q).state = 1 then ((s.bump .pcie Reg.PCIE.POISON_RX_COUNT).raise .pcie Evt.PCIE.POISON_RX).dmaErr.queueErr q 4 else ((s.bump .pcie Reg.PCIE.POISON_RX_COUNT).raise .pcie Evt.PCIE.POISON_RX))) ∧
  (∀ (s a : State) (q : Fin 64) (n : Nat) (data : List Byte) (c : HostCmd),
    a = ((s.bump .pcie Reg.PCIE.POISON_RX_COUNT).raise .pcie Evt.PCIE.POISON_RX) →
    a.openCmd q n 1 = some c →
    exec (.poisonedTlp 1 q n data) s = .next (a.copyHost q n c (data.take (c.left - 1)) [] 4)) ∧
  (∀ (s : State) (v : Fin 2048),
    exec (.msixHoldoffEnd v) s = .next (s.sendVector v)) ∧
  (∀ (s a : State) (bm d3 fm : Bool) (hc : HostCfg),
    s.host.crs = false →
    (a = (State.setF { s with host := { s.host with bme := bm, d3hot := d3, fnMask := fm, cfg := hc } } .pcie Reg.PCIE.LINK_DSTATE (if d3 then 1 else 0))) →
    exec (.configSpaceWrite bm d3 fm hc) s = .next ((if a.dmaOpen then a else a.hostTargetsDown).flushVectors)) ∧
  (∀ (s a : State),
    a = (((State.setF { s.queuesStop with host := s.queuesStop.host.cleared } .pcie Reg.PCIE.LINK_DSTATE 0).bump .pcie Reg.PCIE.FN_RESETS_COUNT).raise .pcie
      Evt.PCIE.FN_RESET).bootAgain.hostTargetsDown →
    exec .flr s = .next a ∧ exec .hotReset s = .next a.pcieDown ∧ exec .perstN s = .next a.pcieDown ∧ exec .pcieLinkDown s = .next a.pcieDown) ∧
  (∀ (s : State) (gen width : Fin 8) (flit : Bool),
    exec (.pcieLinkUp gen width flit) s = .next ((((s.setF .pcie Reg.PCIE.LINK_GEN gen).setF .pcie Reg.PCIE.LINK_WIDTH width).setF .pcie Reg.PCIE.LINK_FLIT
      (if flit then 1 else 0)).raise .pcie Evt.PCIE.LINK_UP) ∧
      exec .functionReady s = .next { s with host := { s.host with crs := false } }) ∧
  (∀ (s : State),
    s.configId.vendor = 0x2B7E ∧ s.configId.device = 0x9A09 ∧ s.configId.revision = 0xB0 ∧ s.configId.classCode = 0x120000 ∧
      s.configId.subVendor = 0x2B7E ∧ s.configId.subsystem = (if s.getF .pkg Reg.PKG.PART_ORDER = 1 then 1 else 2) ∧
      s.configId.serialLo = s.getF .pkg Reg.PKG.SERIAL_LO_SERIAL ∧ s.configId.serialHi = s.getF .pkg Reg.PKG.SERIAL_HI_SERIAL ∧
      s.configId.caps = [.pciExpress, .powerManagement, .msix 2048 0 0x1FFF0000 0 0x1FFF8000, .aer, .deviceSerial, .secondaryPcie,
        .dataLinkFeature, .physical16, .physical32, .physical64, .flitLogging] ∧
      s.configId.bar0 = ⟨2 ^ 29, true, false, s.host.cfg.bar0.toNat / 2 ^ 29 * 2 ^ 29⟩ ∧
      s.configId.bar2 = ⟨2 ^ 36, true, true, s.host.cfg.bar2.toNat / 2 ^ 36 * 2 ^ 36⟩ ∧ s.configId.bar4 = 0 ∧ s.configId.bar5 = 0) ∧
  (∀ (s : State),
    s.getF .pcie Reg.PCIE.BOOT_STAT_STATE = 1 ∨ s.getF .pcie Reg.PCIE.BOOT_STAT_STATE = 4 →
    exec .bootGo s = .next (s.setF .pcie Reg.PCIE.BOOT_STAT_STATE 2)) ∧
  (∀ (s : State),
    s.getF .pcie Reg.PCIE.BOOT_STAT_STATE = 2 →
    exec .bootVerifyDone s = .next (if s.bootSetOk then (s.setF .pcie Reg.PCIE.BOOT_STAT_STATE 3).memStart else s.setF .pcie Reg.PCIE.BOOT_STAT_STATE 4)) ∧
  (∀ (s a : State) (k : Nat),
    s.mg.fw.writing = true →
    k = 1 - s.mg.flash.active →
    a = ((((s.bootToSlot k).select k).setF .hctl Reg.HCTL.FW_STAT_RUN_SLOT k).setF .pkg Reg.PKG.START_SLOT k) →
    exec .bootSlotWriteDone s = .next (a.setFw { a.mg.fw with writing := false }))

/-- The assay die: its start, drove time sent to it, the hallmark of an interval, and copies that reach H0 (14_assay_meter.md, R439, R440, R441, R444, R445, R446, R448, R449). -/
def Obligations.AssayDie : Prop :=
  (∀ (s : State),
    s.assay.running = false →
    exec .assayStart s = .next { s with assay := { s.assay with
        running := true, restart := true, copy := none, locked := false, jump := false, base := none } }) ∧
  (∀ (s : State) (lk bk : Bool),
    s.assay.running = true →
    s.mg.up = true →
    lk = (s.getF (.sync 0) Reg.SYNC.DROVE_STAT_STATE == 2) →
    (bk = (match s.assay.copy with | some c => decide (s.drove < c) | none => false)) →
    exec .droveTimeToAssay s = .next { s with assay := { s.assay with
        copy := some s.drove, locked := lk, jump := s.assay.jump || bk, base := some (s.assay.base.getD s.drove) } }) ∧
  (∀ (s : State) (samples : List (Nat × Nat)) (pj eInt ns since c fl ups : Nat) (temp : Int) (rb : Bool) (body : List Byte),
    s.assay.running = true →
    s.assay.copy = some c →
    (pj = (samples.map (fun x => x.1 * x.2)).sum) →
    eInt = (s.assay.carry + pj) / 1000000000 →
    (ups = if s.assay.restart then s.assay.powerUps + 1 else s.assay.powerUps) →
    fl = hallmarkFlags s.assay.restart (decide (10000000 < since) || !s.assay.locked) (s.assay.jump || s.assay.leapt ns)
      (decide (pj < 240 * 1000 * ns)) (beyondScale samples) (s.assay.refFail || rb) (inputOut samples) →
    body = hallmarkBody fl ups s.serial (s.assay.hseq + 1) (c + since) (s.assay.eTotal + eInt) eInt (peakOf samples) ns (meanVolt samples) temp →
    exec (.hallmarkIntervalEnd samples ns temp rb since) s = .next { s with assay := { s.assay with
        restart := false, hseq := s.assay.hseq + 1, eTotal := s.assay.eTotal + eInt, powerUps := ups, refFail := s.assay.refFail || rb, carry := (s.assay.carry + pj) % 1000000000, jump := false, base := s.assay.copy,
        last := some (body ++ ed25519Sign Config.assayKey body) } }) ∧
  (∀ (s : State) (hm : List Byte),
    s.assay.last = some hm →
    s.mg.up = true →
    exec (.hallmarkCopy false) s = .next (s.bump .assay Reg.ASSAY.LINK_ERR_COUNT) ∧
      exec (.hallmarkCopy true) s = .next (if s.hallmarkHeld hm then s else s.keepHallmark hm)) ∧
  (∀ (s a : State) (t : Nat),
    s.mg.up = true →
    s.assay.heard = some t →
    t + 3000000000 ≤ s.elapsed →
    a = { s with assay := { s.assay with heard := none } } →
    exec .assayLinkLost s = .next ((a.setF .assay Reg.ASSAY.STAT_LINK_OK 0).raise .assay Evt.ASSAY.LINK_LOST))

/-- Power, the reset and isolation pins, the soft reset key, and the internal rails (16_management_reset_boot.md, 12_power.md, R386, R389, R416, R482, R483, R484, R486, R499, 13_thermal_cooling_ageing.md). -/
def Obligations.ResetsAndPower : Prop :=
  (∀ (s a : State),
    a = { s with mg := { s.mg with rails := false, tripped := false, isolated := false } } →
    exec .powerOn s = .next ((a.wipeFor 0).setF .hctl Reg.HCTL.TRIP_LAST_VALID 0)) ∧
  (∀ (s a : State),
    a = { s with mg := { s.mg with rails := false, aux := false, tripped := false, i3cAddr := none, i3cOff := 0 }, assay := { s.assay with running := false } } →
    exec .inputPowerLoss s = .next ((a.wipeFor 0).setW .hctl 0x2BC 0)) ∧
  (∀ (s a : State),
    a = { s with mg := { s.mg with resetLow := true, tripped := false } } →
    exec .pkgResetAssert s = .next (if s.mg.tripped then a.wipeFor 2 else (a.wipeFor 1).setF .hctl Reg.HCTL.TRIP_LAST_VALID 0)) ∧
  (∀ (s a : State) (sel : Fin 4) (rot : StoreRot),
    s.mg.resetLow = true →
    a = { s with mg := { s.mg with resetLow := false } } →
    exec (.pkgResetRelease sel rot) s = .next (if a.mg.up then a.startBoot sel rot else a)) ∧
  (∀ (s a : State) (sel : Fin 4) (rot : StoreRot),
    s.mg.rails = false →
    s.mg.tripped = false →
    a = { s with mg := { s.mg with rails := true } } →
    exec (.internalRailsGood sel rot) s = .next (if a.mg.up then a.startBoot sel rot else a) ∧
      exec .auxRailGood s = .next { s with mg := { s.mg with aux := true } }) ∧
  (∀ (s : State) (key : Word) (sel : Fin 4) (rot : StoreRot),
    s.mg.up = true →
    exec (.softReset key sel rot) s = .next (if key = 0xA5C3 then
      ((s.wipeFor 3).setF .hctl Reg.HCTL.TRIP_LAST_VALID 0).startBoot sel rot else s)) ∧
  (∀ (s a b : State),
    s.mg.isolated = false →
    (a = (List.finRange 4).foldl (fun (s : State) d => (List.finRange 104).foldl (fun (s : State) (t : Fin 104) =>
      s.setTile d t { s.tile d t with stopped := true }) s) { s with mg := { s.mg with isolated := true } }) →
    (b = (List.finRange 16).foldl (fun (s : State) p => (s.setF (.port p) Reg.PORT.LINK_STAT_STATE 0).readmit p) a) →
    exec .pkgIsolate s = .next (if b.startState < 4 then b.setF .pkg Reg.PKG.START_STATE 0 else b))

/-- Start-up stage by stage, its failures, the hub controller's restart, and a state memory in error (16_management_reset_boot.md, 18_errors_faults.md, R182, R485, R486, R487, R488, R489, R490, R491, R546, 06_memory.md). -/
def Obligations.StartUp : Prop :=
  (∀ (s : State) (sel : Nat),
    s.startState = 1 →
    s.mg.up = true →
    sel = s.getF .pkg Reg.PKG.START_BOOT_SEL →
    sel = 0 ∨ (sel = 1 ∧ s.getF .pcie Reg.PCIE.BOOT_STAT_STATE = 3) →
    exec .imagesLoaded s = .next (if sel = 0 then (match s.bootSlot with
        | none => s
        | some k => ((((s.loaded (s.slotChunk k 0)).setF .hctl Reg.HCTL.FW_STAT_RUN_SLOT k).setF .pkg Reg.PKG.START_SLOT k).showSealed.setF .pkg
            Reg.PKG.START_STATE 2).restoreXfer.memStart)
      else ((s.loaded (s.bootChunk 0)).startPushed.showSealed.setF .pkg Reg.PKG.START_STATE 2).restoreXfer.memStart)) ∧
  (∀ (s : State) (m : List Byte),
    (s.loaded m).mg.fw.running = m ∧ (s.loaded m).mg.fw.levels = (List.range 16).map (fun p => (p, oecOffer m p)) ∧
      (s.loaded m).getF .hctl Reg.HCTL.FW_STAT_ACTIVE_SLOT = s.mg.flash.active % 2 ∧ (s.loaded m).getF .pkg Reg.PKG.FW_EPOCH_EPOCH = mEpoch m % 2 ^ 32) ∧
  (∀ (s a : State),
    s.startState = 2 →
    s.mg.up = true →
    a = s.replaySettings.applyFuses.startHealth →
    exec .settingsRestored s = .next ((allPorts.foldl State.readmit a.capResolve.enablePorts).railsUp.visitAll.setF .pkg Reg.PKG.START_STATE 3)) ∧
  (∀ (s a : State),
    s.startState = 3 →
    s.mg.up = true →
    s.startDone = true →
    a = s.setF .pkg Reg.PKG.START_STATE 4 →
    exec .startReady s = .next ((a.setPw { a.pw with quietAt := a.elapsed }).raisePkg Evt.PKG.READY)) ∧
  (∀ (s a : State) (cause : Fin 6),
    s.mg.up = true →
    s.startCause cause = true →
    a = (s.setF .pkg Reg.PKG.START_CAUSE cause).setF .hctl Reg.HCTL.ALERT_STAT_START_FAIL 1 →
    exec (.startFailed cause) s = .next ((if cause.val ≤ 2 then a.setF .pkg Reg.PKG.START_STATE 5
      else (a.setF .pkg Reg.PKG.START_STATE 6).setOwn .pkg (a.setF .pkg Reg.PKG.START_STATE 6).pkgOwn).raisePkg Evt.PKG.START_FAIL)) ∧
  (∀ (s a b : State) (rs : List (Fin 5 × Fin 32)) (log : List Nat),
    2 ≤ s.startState →
    s.startState ≠ 5 →
    s.mg.hcDown = false →
    (log = s.mg.hcLog.filter (fun t => decide (s.elapsed ≤ t + 10000000000)) ++ [s.elapsed]) →
    a = (State.bump { s with mg := { s.mg with hcDown := true, hcLog := log } } .hctl Reg.HCTL.HCTL_RESTARTS_COUNT).raise .hctl Evt.HCTL.HCTL_RESTART →
    b = a.setFw { a.mg.fw with pieces := [] } →
    exec (.hctlWatchdog rs) s = .next ((if b.handingOver then b.levelsBack.fwAbandon 3 rs else b).loopFence) ∧
      ((3 ≤ log.length ∧ b.handingOver = false) → exec (.hctlWatchdog rs) s = .next (b.doFence 6))) ∧
  (∀ (s a : State),
    s.mg.hcDown = true →
    a = { s with mg := { s.mg with hcDown := false } } →
    exec .hctlRestartDone s = .next a.hcBack) ∧
  (∀ (s : State),
    exec .stateMemoryUe s = .next (s.doFence 7))

/-- Management messages: link, frames, rack orders, heartbeats, hallmark requests, status and boot requests (16_management_reset_boot.md, R500, R501, R504, R505, R506, R507, R491). -/
def Obligations.ManagementMessages : Prop :=
  (∀ (s : State) (up : Bool),
    s.isSet .hctl Reg.HCTL.MGMT_STAT_LINK ≠ up →
    exec (.mgmtLinkChange up) s = .next ((s.setF .hctl Reg.HCTL.MGMT_STAT_LINK (if up then 1 else 0)).raise .hctl Evt.HCTL.MGMT_LINK)) ∧
  (∀ (s : State) (dst : BitVec 48) (bytes : List Byte),
    mgmtForm bytes = false →
    (s.mgmtServing || s.romTransfer) = true →
    exec (.mgmtFrameDiscard dst bytes) s = .next (if (dst.toNat = s.mac ∨ dst.toNat = macBroadcast) ∧
      (descF bytes 4 8 = 0 ∨ descF bytes 4 8 = s.serial) then s.mgmtBad else s)) ∧
  (∀ (s : State) (dst : BitVec 48) (bytes : List Byte),
    (s.mgmtServing || s.romTransfer) = false →
    exec (.mgmtFrameDiscard dst bytes) s = .next s) ∧
  (∀ (s a b : State) (src : BitVec 48) (serial oseq : BitVec 64) (watts : BitVec 12) (park : Bool) (sig : List Byte) (st : Nat),
    s.mgmtServing = true →
    serial ≠ 0 →
    serial.toNat = s.serial →
    st = s.orderStatus serial.toNat oseq.toNat watts.toNat park sig →
    (a = if st = 0 then (((s.setPair .hctl Reg.HCTL.RACK_OSEQ_LO Reg.HCTL.RACK_OSEQ_HI oseq.toNat).setF .hctl Reg.HCTL.CAP_RACK_WATTS watts.toNat).setF .hctl
      Reg.HCTL.CAP_RACK_PARK (if park then 1 else 0)).capResolve else s.raise .hctl Evt.HCTL.ORDER_REFUSED) →
    (b = if a.pw.capWait then (a.setPw { a.pw with capWait := false }).capResolve else a) →
    State.rackOrder src serial oseq watts park sig s = a.sendMgmt src.toNat 0x03 (b.orderAck oseq.toNat st)) ∧
  (∀ (s a b : State) (src : BitVec 48) (serial oseq : BitVec 64) (watts : BitVec 12) (park same : Bool) (sig : List Byte),
    (a = if same then s.setPw { s.pw with capWait := true } else s) →
    b = State.rackOrder src serial oseq watts park sig a →
    exec (.rackOrder src serial oseq watts park sig same) s = .next (if same then b.setPw { b.pw with capWait := false } else b)) ∧
  (∀ (s a : State),
    s.mgmtServing = true →
    a = s.setF .hctl Reg.HCTL.HB_STAT_RACK_LOST 0 →
    exec .heartbeat s = .next { a with mg := { a.mg with rackSeen := some a.elapsed } } ∧ exec .statusBroadcast s = .next (s.sendMgmt macBroadcast 0x05 s.statusBytes)) ∧
  (∀ (s a : State) (bm : Bool) (t : Nat),
    (if bm then s.mg.bmSeen else s.mg.rackSeen) = some t →
    t + 5000000000 ≤ s.elapsed →
    (a = { s with mg := if bm then { s.mg with bmSeen := none } else { s.mg with rackSeen := none } }) →
    exec (.heartbeatLost bm) s = .next ((a.setF .hctl (if bm then Reg.HCTL.HB_STAT_BM_LOST else Reg.HCTL.HB_STAT_RACK_LOST) 1).raise .hctl Evt.HCTL.HB_LOST)) ∧
  (∀ (s a : State) (src : BitVec 48) (frm : BitVec 64) (count : BitVec 8) (ident : Bool) (log : List Nat) (recs : List (List Byte)),
    s.mgmtServing = true →
    count ≠ 0 →
    count.toNat ≤ 8 →
    (log = s.mg.reqLog.filter (fun t => decide (s.elapsed < t + 1000000000))) →
    log.length < 100 →
    a = { s with mg := { s.mg with reqLog := log ++ [s.elapsed] } } →
    recs = s.hallmarksFrom frm.toNat count.toNat →
    exec (.hallmarkReq src frm count ident) s = .next (a.sendMgmt src.toNat 0x07 (leBytes 1 ((if ident then [a.ident] else []) ++ recs).length ++
      leBytes 1 (if recs.length < count.toNat then 1 else 0) ++ leBytes 2 0 ++ ((if ident then [a.ident] else []) ++ recs).flatten))) ∧
  (∀ (s : State) (rec : Bool),
    rec = (s.startState == 5) →
    rec = true ∨ (s.romTransfer = true ∧ s.fwState = 0) →
    exec .bootReqSend s = .next (s.sendMgmt macBroadcast 0x08 (leBytes 2 (s.getF .hctl Reg.HCTL.FW_ROM_VER) ++ leBytes 1 (boolAt rec 0))))

/-- The I3C target and the settings log (16_management_reset_boot.md, R494, R495, R497, R498, R508, R509). -/
def Obligations.I3cAndSettings : Prop :=
  (∀ (s : State) (addr : BitVec 7),
    s.mg.aux = true →
    s.mg.i3cAddr = none →
    exec (.i3cEntdaa addr) s = .next { s with mg := { s.mg with i3cAddr := some addr.toNat } }) ∧
  (∀ (s a b : State) (o : Byte) (data : List Byte),
    s.i3cOn = true →
    a = { s with mg := { s.mg with i3cOff := o.toNat } } →
    b = a.setF .hctl Reg.HCTL.HB_STAT_BM_LOST 0 →
    exec (.i3cPrivateWrite (o :: data)) s = .next (if o = 0x30 ∧ data ≠ [] ∧ a.startState ≠ 0 then { b with mg := { b.mg with bmSeen := some b.elapsed } } else a)) ∧
  (∀ (s a : State) (n : Nat),
    s.i3cOn = true →
    (a = s.emit (.i3cRead ((List.range n).map (fun i => s.i3cByte ((s.mg.i3cOff + i) % 256))))) →
    exec (.i3cPrivateRead n) s = .next { a with mg := { a.mg with i3cOff := (s.mg.i3cOff + n) % 256 } }) ∧
  (∀ (s a : State) (ok : Bool) (bytes : Nat) (blocks erased : List (Fin 96)) (bl er : List Nat),
    s.mgmtServing = true →
    s.startState ≠ 2 →
    bl = blocks.map Fin.val →
    er = erased.map Fin.val →
    (bl ++ er).any (fun b => s.mg.flash.retired.contains b) = false →
    (logChain s.mg.flash.log).any (fun g => g.blocks.any (fun b => er.contains b)) = false →
    a = (s.eraseBlocks er).showWear →
    exec (.settingsGroupWrite ok bytes blocks erased) s = .next (if ok then a.groupWritten bytes bl else a.groupFailed (bl.headD 0))) ∧
  (∀ (s : State) (f : Flash) (bytes : Nat) (bl : List Nat),
    f = s.mg.flash →
    s.groupWritten bytes bl = State.hctlOwn { s.setFlash { f with log := f.log ++ [⟨f.snapDue bytes, bytes, bl, true, s.settingsNow⟩] } with
        mg := { (s.setFlash { f with log := f.log ++ [⟨f.snapDue bytes, bytes, bl, true, s.settingsNow⟩] }).mg with storeFail := none } }) ∧
  (∀ (s : State) (n : Nat),
    n = s.mg.flash.wear →
    n < 800 ∨ 800 ≤ s.getF .hctl Reg.HCTL.STORE_STAT_WEAR →
    s.showWear = s.setF .hctl Reg.HCTL.STORE_STAT_WEAR n) ∧
  (∀ (s : State) (n : Nat),
    n = s.mg.flash.wear →
    800 ≤ n →
    s.getF .hctl Reg.HCTL.STORE_STAT_WEAR < 800 →
    s.showWear = (s.setF .hctl Reg.HCTL.STORE_STAT_WEAR n).raise .hctl Evt.HCTL.STORE_WEAR) ∧
  (∀ (s : State),
    s.startState ≠ 0 →
    s.mg.up = true →
    exec .storeForget s = .next ((s.setFlash { s.mg.flash with forgotten := true }).setF .hctl Reg.HCTL.STORE_STAT_FORGOTTEN 1))

/-- The transfer of a firmware set: start, pieces, queries, abort, chunks written, verification and discard (17_firmware_update.md, R517, R519, R520, R521, R522). -/
def Obligations.FirmwareTransfer : Prop :=
  (∀ (s a : State) (src : BitVec 48) (setId : BitVec 64) (epoch : BitVec 32) (chunks : BitVec 8),
    s.xferServing = true →
    chunks ≠ 0 →
    chunks.toNat ≤ 63 →
    s.fwState = 0 ∨ s.fwState = 6 →
    a = s.setFw { s.mg.fw with server := src.toNat, pieces := [] } →
    exec (.xferStart src setId epoch chunks) s = .next ((a.setXfer (some ⟨setId.toNat, epoch.toNat, chunks.toNat, []⟩)).toFwState 1 0)) ∧
  (∀ (s : State) (src : BitVec 48) (setId : BitVec 64) (epoch : BitVec 32) (chunks : BitVec 8),
    s.xferServing = true →
    chunks ≠ 0 →
    chunks.toNat ≤ 63 →
    s.fwState ≠ 0 →
    s.fwState ≠ 6 →
    exec (.xferStart src setId epoch chunks) s = .next (if s.mg.fw.xfer.any (fun x => x.setId == setId.toNat) then (s.setFw { s.mg.fw with server := src.toNat }).tellServer
      else s.sendStatus src.toNat 10)) ∧
  (∀ (s : State) (src : BitVec 48) (setId : BitVec 64) (chunk piece : Fin 64) (data : List Byte) (x : Xfer),
    s.xferServing = true →
    data.length = 1024 →
    s.mg.fw.xfer = some x →
    s.fwState = 1 →
    x.setId = setId.toNat →
    chunk.val ≤ x.chunks →
    exec (.xferPiece src setId chunk piece data) s = .next (if x.done.contains chunk.val || (!s.heldChunks.contains chunk.val && decide (4 ≤ s.heldChunks.length))
      then s.bump .hctl Reg.HCTL.FW_PIECE_DROP_COUNT
      else s.setFw { s.mg.fw with server := src.toNat, pieces := s.mg.fw.pieces.put (64 * chunk + piece) data })) ∧
  (∀ (s : State) (src : BitVec 48) (setId : BitVec 64),
    s.xferServing = true →
    exec (.xferQuery src setId) s = .next (s.sendStatus src.toNat (s.getF .hctl Reg.HCTL.FW_STAT_CAUSE))) ∧
  (∀ (s a : State) (src : BitVec 48) (setId : BitVec 64),
    s.xferServing = true →
    (a = if s.mg.fw.xfer.any (fun x => x.setId == setId.toNat) ∧ (s.fwState = 1 ∨ s.fwState = 2 ∨ s.fwState = 6) then s.dropSet else s) →
    exec (.xferAbort src setId) s = .next (a.sendStatus src.toNat (a.getF .hctl Reg.HCTL.FW_STAT_CAUSE))) ∧
  (∀ (s : State) (c : Fin 64) (ok : Bool) (x : Xfer),
    s.xferServing = true →
    s.mg.fw.xfer = some x →
    s.fwState = 1 →
    (s.piecesOf c).length = 64 →
    c ≠ 0 →
    x.done.contains 0 = true →
    exec (.chunkWriteDone c ok) s = .next (if chunkGood s.newManifest c (s.chunkHeld c) then s.chunkDone x c (s.chunkHeld c) ok
      else (s.dropPieces c).bump .hctl Reg.HCTL.FW_CHUNK_BAD_COUNT)) ∧
  (∀ (s : State) (ok : Bool) (x : Xfer) (b : List Byte) (cause : Nat),
    s.xferServing = true →
    s.mg.fw.xfer = some x →
    s.fwState = 1 →
    (s.piecesOf 0).length = 64 →
    b = s.chunkHeld 0 →
    cause = s.setCause b x.setId (!s.romTransfer) →
    exec (.chunkWriteDone 0 ok) s = .next (if cause ≠ 0 then s.fwReject cause
      else (s.eraseAbove (mChunks b)).chunkDone { x with chunks := mChunks b, epoch := mEpoch b } 0 b ok)) ∧
  (∀ (s : State) (bad : BitVec 64) (x : Xfer),
    s.fwServing = true →
    s.mg.fw.xfer = some x →
    s.fwState = 1 →
    x.whole = true →
    exec (.slotVerifyDone bad) s = .next (if x.done.filter (s.chunkFails bad) = [] then (s.toFwState 2 0).raise .hctl Evt.HCTL.FW_STAGED
      else (s.setXfer (some { x with done := x.done.filter (fun c => !s.chunkFails bad c) })).tellServer)) ∧
  (∀ (s : State) (bad : BitVec 64) (c : Nat) (m : List Byte),
    m = s.newManifest →
    s.chunkFails bad c = (bad.getLsbD c || (if c = 0 then s.setCause m (mSetId m) false != 0 else !chunkGood m c (s.slotChunk s.idleSlot c)))) ∧
  (∀ (s : State),
    s.xferServing = true →
    s.fwState = 1 ∨ s.fwState = 2 ∨ s.fwState = 6 →
    exec .fwDiscard s = .next s.dropSet.tellServer)

/-- Preparing, handing over and selecting a firmware set; tiles that switch; sealing, marking and recovery (17_firmware_update.md, R523, R524, R525, R527, R528, R530, R531, R532). -/
def Obligations.FirmwareActivation : Prop :=
  (∀ (s : State),
    s.fwServing = true →
    s.fwState = 2 →
    exec .fwPrepare s = .next (s.toFwState 3 0) ∧ exec .fwMark s = .next (s.select s.idleSlot).clearXfer.tellServer) ∧
  (∀ (s : State) (bad : BitVec 64) (m : List Byte),
    s.fwState = 3 →
    m = s.newManifest →
    exec (.fwPrepareDone bad) s = .next (if (List.range (mChunks m + 1)).any (s.chunkFails bad) then (s.toFwState 2 8).raise .hctl Evt.HCTL.FW_REJECTED
      else if stateCompat s.mg.fw.running m then (s.setFw { s.mg.fw with second := s.secondBanks s.idleSlot }).toFwState 4 0
      else (s.toFwState 2 9).raise .hctl Evt.HCTL.FW_REJECTED)) ∧
  (∀ (s a : State) (kind : Fin 5) (inst : Fin 32) (x : FwSt),
    s.handingOver = true →
    kind ≠ 1 →
    imagePairs.contains (kind.val, inst.val) = true →
    s.imageHeld kind inst = false →
    s.mg.fw.confirmed.contains (256 * kind.val + inst.val) = false →
    x = { s.mg.fw with confirmed := s.mg.fw.confirmed ++ [256 * kind.val + inst.val] } →
    (a = if 256 * kind.val + inst.val = 0 then (s.setFw x).hcBack else if kind = 2 then (s.setFw x).freeCeils
      else if kind = 3 ∧ inst.val % 2 = 0 then (s.setFw x).setFw { (s.setFw x).mg.fw with levels := (s.setFw x).mg.fw.levels.put (inst.val / 2) (oecOffer (s.setFw x).newManifest (inst.val / 2)) } else s.setFw x) →
    exec (.fwImageConfirm kind inst) s = .next (if x.allConfirmed then a.commitPoint else a)) ∧
  (∀ (s a : State) (refused : Bool) (rs : List (Fin 5 × Fin 32)),
    s.handingOver = true →
    (a = s.levelsBack.fwAbandon (if refused then 2 else 1) rs) →
    exec (.fwHandoverTimeout refused rs) s = .next (if a.mg.hcDown then a.loopFence else a.hcBack)) ∧
  (∀ (s a b : State) (k : Nat) (m : List Byte),
    s.fwState = 5 →
    s.mg.fw.committed = true →
    k = s.idleSlot →
    m = s.slotChunk k 0 →
    a = ((((((s.select k).setF .hctl Reg.HCTL.FW_STAT_RUN_SLOT k).setF .pkg Reg.PKG.START_SLOT k).setF .pkg Reg.PKG.FW_EPOCH_EPOCH (mEpoch m)).setF .hctl
      Reg.HCTL.FW_ACT_STAT_RESULT 1).setF .hctl Reg.HCTL.FW_ACT_GO 0) →
    b = (a.setFw { a.mg.fw with running := m, confirmed := [], committed := false }).showSealed →
    exec .fwSelectionWritten s = .next (b.clearXfer.tellServer.raise .hctl Evt.HCTL.FW_DONE)) ∧
  (∀ (s : State) (d : Fin 4) (t : Fin 104),
    s.mg.fw.tmcOn = true →
    s.tileActive d t = true →
    (s.tile d t).newTmc = false →
    (s.tile d t).slot0 = none →
    (s.tile d t).slot1 = none →
    exec (.tileTmcSwitch d t) s = .next (s.setTile d t { s.tile d t with newTmc := true }).tmcCount ∧
      exec .fwTileWaitExpire s = .next (s.setFw { s.mg.fw with tileWait := true })) ∧
  (∀ (s : State),
    s.fwServing = true →
    s.fwState = 0 →
    s.runSlot = s.mg.flash.active →
    exec .fwSeal s = .next ((List.range 5).foldl (fun (a : State) k => a.setF .hctl (Reg.HCTL.FW_FUSE_COUNT k)
      (max (a.fwFuse k) (mTopRb s.mg.fw.running k))) s).showSealed) ∧
  (∀ (s a b : State) (ok0 ok1 : Bool),
    s.startState = 5 →
    s.fwState = 1 →
    s.mg.fw.xfer.any Xfer.whole = true →
    (a = if ok0 then s.bootToSlot 0 else s.spoilSlot 0) →
    (b = if ok1 then a.bootToSlot 1 else a.spoilSlot 1) →
    exec (.recoverySetWritten ok0 ok1) s = .next (if ok0 then (b.select 0).toFwState 7 0 else if ok1 then (b.select 1).toFwState 7 0 else b.fwReject 7))

/-- Staged writes, commit commands and the end of a bank copy (19_register_map.md, 11_synchronisation.md, 08_fabric_topology.md, R376, R557, R559, R240). -/
def Obligations.StagingAndCommits : Prop :=
  (∀ (s : State) (u : UnitId) (off : Nat) (w : Word),
    s.pageOpen u = true →
    stagedHere u = true →
    stMask u off ≠ 0 →
    (∀ h, u ≠ .rout h) →
    s.commits = [] →
    exec (.stagedWrite u off w) s =
      .next (State.stageMark { s with
        shadow := s.shadow.put (regKey u off) ((s.getShadow u off &&& ~~~(stMask u off)) ||| (w &&& stMask u off)) } u)) ∧
  (∀ (s : State) (u : UnitId) (errs : LineErrs),
    s.getF u Reg.CHECK_RESULT = 3 →
    s.commit? u = none →
    exec (.stageCheckDone u errs) s = .next (s.showCheck u)) ∧
  (∀ (s : State) (u : UnitId),
    s.pageOpen u = true →
    s.commits = [] →
    s.ready = true →
    exec (.commitAt u) s = .next ((((s.putCommit ⟨u, s.getPair u Reg.COMMIT_AT_LO Reg.COMMIT_AT_HI, false, true, false, 0, none, []⟩).setF u
      Reg.COMMIT_STATE 1).setF u Reg.CHECK_RESULT 3).setF u Reg.CHECK_CAUSE 0)) ∧
  (∀ (s : State) (u : UnitId),
    s.pageOpen u = true →
    s.ready = false →
    exec (.commitAt u) s = .next ((s.showCheck u).setF u Reg.COMMIT_STATE 4)) ∧
  (∀ (s : State) (u : UnitId) (c : Commit),
    s.pageOpen u = true →
    s.covering u = none →
    s.commit? u = some c →
    s.drove < c.at_ →
    exec (.commitCancel u) s = .next ((s.dropCommit u).setStates c 0)) ∧
  (∀ (s t : State) (u : UnitId) (errs : LineErrs),
    s.pageOpen u = true →
    s.commits = [] →
    s.copyHeld u = false →
    t = s.findErrs errs →
    (t.dropCommit u).checkFail u = none →
    exec (.commitNow u errs) s = .next (((((t.dropCommit u).showCheck u).applySet u).setF u Reg.COMMIT_STATE 2))) ∧
  (∀ (s t : State) (u : UnitId) (c : Commit) (errs : LineErrs),
    s.commit? u = some c →
    c.unit = u →
    c.joined = [] →
    c.now = false →
    c.running = false →
    c.cause = 0 →
    c.at_ ≤ s.drove →
    s.copyHeld u = false →
    s.getF (.sync 0) Reg.SYNC.DROVE_STAT_STATE = 2 →
    t = s.findErrs errs →
    (t.dropCommit u).checkFail u = none →
    exec (.commitAtReached u errs) s = .next (((((t.dropCommit u).showCheck u).applySet u).setF u Reg.COMMIT_STATE 2))) ∧
  (∀ (s : State) (h : Fin 2) (errs : LineErrs),
    (s.rout h).dbusy = 3 →
    s.commits = [] →
    exec (.dtabBankCopyDone h errs) s =
      .next ((s.setRout h { s.rout h with dshadow := (s.rout h).dtab, dundef := false, crcs := { (s.rout h).crcs with shadow := (s.rout h).crcs.active } }).dtabBusy h 0))

/-- Applying the shadows of a page puts every staged word in force and empties the shadow (19_register_map.md, R557, R559). -/
def Obligations.StagedSetGoesIntoForce : Prop :=
  ∀ (s : State) (u v : UnitId) (off : Nat) (w : Word),
      s.shadow.Rising → off % 4 = 0 → off < 4096 →
      (s.shadow.find (regKey u off) = some w → off ≠ 0x020 → (s.takeShadows u).getW u off = w) ∧
      (s.takeShadows u).shadow.find (regKey u off) = none ∧
      (s.takeShadows u).getF u Reg.STAGE_OWN = 0 ∧
      (v ≠ u → (s.takeShadows u).getW v off = s.getW v off)

/-- A step runs the command at the front of the queue; on an empty queue 1 ns passes; no word spells a command (00_scope.md, 95_what_each_step_holds.md). -/
def Obligations.QueueRunsOneCommandAtATime : Prop :=
  (∀ (s : State) (c : Instr) (rest : List Instr),
    s.pending = c :: rest →
    step s = exec c { s with pending := rest }) ∧
  (∀ (s : State) (c : Instr),
    step { s with pending := c :: s.pending } = exec c s) ∧
  (∀ (s : State),
    s.pending = [] →
    s.getF .pkg Reg.PKG.START_STATE ≠ 0 →
    step s = .next { s with drove := s.drove + 1 }) ∧
  (∀ (s : State),
    s.pending = [] →
    s.getF .pkg Reg.PKG.START_STATE = 0 →
    step s = .next s) ∧
  (∀ (s : State) (nbits w : Nat),
    decodeTableWord nbits w = none ∧ s.withFetchWord nbits w = s)

/-- What reset leaves: caps, drove clock, router banks, memory, queue, fence and the spares (13_thermal_cooling_ageing.md, 11_synchronisation.md, 08_fabric_topology.md, 03_compute_tiles.md, R415, R422, R375, R240). -/
def Obligations.ResetLeavesTheValuesTheManualGives : Prop :=
  State.reset.getF .hctl Reg.HCTL.CAP_THERM_WATTS = 2400 ∧ State.reset.getF .hctl Reg.HCTL.CAP_FLOW_WATTS = 600 ∧
  State.reset.drove = 0 ∧ State.reset.getF (.sync 0) Reg.SYNC.DROVE_STAT_STATE = 0 ∧
  (∀ (h : Fin 2), (State.reset.rout h).dtab = [] ∧ (State.reset.rout h).dshadow = []) ∧
  (∀ (u : UnitId) (b : Nat), State.reset.pend u b = false) ∧ State.reset.evtCnt = [] ∧
  (∀ (p : Fin 16), State.reset.linkActive p = false) ∧
  State.reset.fenced = false ∧
  (∀ (d : Fin 4), State.reset.getF (.cdie d) Reg.CDIE.SPARES_LEFT = 4 ∧ State.reset.getF (.cdie d) Reg.CDIE.ACTIVE_TILES = 100) ∧
  State.reset.pending = [] ∧ Memory.wf State.reset.mm.mem

/-- Every step keeps package memory in its canonical form (06_memory.md, 95_what_each_step_holds.md). -/
def Obligations.StepKeepsMemoryCanonical : Prop :=
  ∀ (s t : State), Memory.wf s.mm.mem → step s = .next t → Memory.wf t.mm.mem

/-- Every command completes in every state and keeps what no command may undo (95_what_each_step_holds.md, 03_compute_tiles.md, R116). -/
def Obligations.EveryCommandCompletes : Prop :=
  ∀ (c : Instr) (s : State), ∃ t, exec c s = .next t ∧
      t.pending = s.pending ∧
      (∀ k, s.fuses.getD k false = true → t.fuses.getD k false = true) ∧
      s.out <+: t.out ∧ s.freeCtr ≤ t.freeCtr ∧
      (Memory.wf s.mm.mem → Memory.wf t.mm.mem)

/-- A register field and a run of bytes read back as written; every other field and byte reads as before (00_scope.md, 19_register_map.md, 06_memory.md, R9). -/
def Obligations.StorageReadsBack : Prop :=
  (∀ (s : State) (u : UnitId) (f : Fld) (v : Nat),
    f.lo ≤ f.hi →
    f.hi < 32 →
    f.off < 4096 →
    (s.setF u f v).getF u f = v % 2 ^ (f.hi + 1 - f.lo)) ∧
  (∀ (s : State) (u v : UnitId) (f g : Fld) (x : Nat),
    f.hi < 32 →
    g.lo ≤ g.hi →
    g.hi < 32 →
    f.off < 4096 →
    g.off < 4096 →
    u ≠ v ∨ f.off / 4 ≠ g.off / 4 ∨ (f.off = g.off ∧ (f.hi < g.lo ∨ g.hi < f.lo)) →
    (s.setF u f x).getF v g = s.getF v g) ∧
  (∀ (m : Map Byte) (a : Nat) (bs : List Byte),
    Memory.wf m →
    Memory.wf (m.writeBytes a bs) ∧ (m.writeBytes a bs).readBytes a bs.length = bs ∧
      (∀ j, j < a ∨ a + bs.length ≤ j → (m.writeBytes a bs).getD j 0 = m.getD j 0)) ∧
  (∀ (n v : Nat),
    (leBytes n v).length = n ∧ leNat (leBytes n v) = v % 256 ^ n ∧ (∀ i, i < n → ((leBytes n v)[i]?).map BitVec.toNat = some (v / 256 ^ i % 256)))

/-- A SIGNAL above 2^31 − 1 leaves the semaphore's count there and sets OVERFLOW (R350). -/
def Obligations.SemaphoreSignalSaturates : Prop :=
  (∀ (s : State) (o n st fenced : Nat) (src : SyncSrc) (b : Obj),
    b = s.obj o →
    b.state ≠ 0 →
    b.kind = 1 →
    n ≠ 0 →
    s.srcAllowed b src = true →
    2 ^ 31 - 1 < b.count + n →
    s.signal o n src st fenced = ((s.setObj o { b with
      count := 2 ^ 31 - 1, fenced := min 16383 (b.fenced + fenced), status := b.status ||| st ||| 0x20 }).wake o, true)) ∧
  (∀ (s : State) (o n : BitVec 16) (b : Obj),
    b = s.obj o.toNat →
    s.selObj (objHub o.toNat) = some o.toNat →
    b.state ≠ 0 →
    b.kind = 1 →
    n ≠ 0 →
    s.srcAllowed b .host = true →
    2 ^ 31 - 1 < b.count + n.toNat →
    exec (.objSignal .host o n) s = .next ((s.setObj o.toNat { b with
      count := 2 ^ 31 - 1, fenced := min 16383 b.fenced, status := b.status ||| 0x20 }).wake o.toNat))

/-- A retirement that finds no spare frame left starts the drain of its channel, cause RESERVE_OUT (R194). -/
def Obligations.RetirementWithoutReserveStartsADrain : Prop :=
  (∀ (s a t : State) (id : Nat),
    s.mm.toRetire.getD id false = true →
    s.hcAway = false →
    s.getF (chanUnit (frameChan id)) Reg.MCHN.FRAMES_SPARE_LEFT = 0 →
    (a = (match s.pageOfFrame id with
      | some (pr, p) => if s.frameListed id && p.st ≠ PageSt.lost then s.abandonMove pr else s
      | none => s)) →
    a.chanState (frameChan id) = 2 →
    t = ((((a.setF (chanUnit (frameChan id)) Reg.MCHN.STATE_STATE 3).setF (chanUnit (frameChan id)) Reg.MCHN.STATE_CAUSE 1).setOwn
      (chanUnit (frameChan id)) 1).raise (chanUnit (frameChan id)) Evt.MCHN.STATE_CHANGE).frameCounts →
    s.tryRetire id = ((({ t with mm := { t.mm with drainFirst := t.mm.drainFirst.put (frameChan id) id } }).abandonTo (frameChan id)).placeCounts).drainStep (frameChan id))

/-- A spill takes the coldest LOCAL page with PIN NONE and no listed line, ties to the lowest page number (06_memory.md, 07_data_placement.md, R193, R215). -/
def Obligations.SpillVictimIsTheColdestLocalPage : Prop :=
  (∀ (s : State) (e : Nat × Page), e ∈ s.victims ↔ e ∈ s.mm.pages ∧ e.2.st = .loc ∧ e.2.pin = 0 ∧ s.pageListed e.2 = false) ∧
  (∀ (s t : State), s.mm.pages.Rising → s.spillOne = some t →
      ∃ (n : Nat) (p : Page) (pl : Place) (r : State), (n, p) ∈ s.mm.pages ∧ p.st = .loc ∧ p.pin = 0 ∧ s.pageListed p = false ∧
        (∀ e ∈ s.mm.pages, e.2.st = .loc → e.2.pin = 0 → s.pageListed e.2 = false → e.1 ≠ n →
          p.heat.total < e.2.heat.total ∨ (p.heat.total = e.2.heat.total ∧ n < e.1)) ∧
        t = r.startMove (.own n) pl .spill)
end

