-- ==== Sys2Proof/Laws/Sparse.lean ====
section
/-! SUPPORT. Laws of sparse data: what a read gives after a write, and that every operation keeps the canonical form. -/

set_option Elab.async false

namespace Sys2Proof

variable {α : Type}

theorem Map.find_put (m : Map α) (k j : Nat) (v : α) :
    (m.put k v).find j = if k = j then some v else m.find j := by
  induction m with
  | nil => simp [Map.put, Map.find]
  | cons e m ih =>
    obtain ⟨k', v'⟩ := e
    simp only [Map.put]
    split
    · subst_vars; simp only [Map.find]; split <;> rfl
    · split
      · simp [Map.find]
      · simp only [Map.find, ih]; split <;> split <;> simp_all

theorem Map.find_filter (m : Map α) (p : Nat → Bool) (j : Nat) :
    Map.find (m.filter (fun e => p e.1)) j = if p j then m.find j else none := by
  induction m with
  | nil => simp [Map.find]
  | cons e m ih =>
    simp only [List.filter_cons]
    by_cases h : p e.1 <;> by_cases hj : e.1 = j <;> simp_all [Map.find]

theorem Map.find_del (m : Map α) (k j : Nat) : (m.del k).find j = if k = j then none else m.find j := by
  have := Map.find_filter m (fun x => decide (x ≠ k)) j
  simp only [Map.del, this, decide_eq_true_eq, ne_eq]
  by_cases h : k = j
  · simp [h]
  · simp [h, Ne.symm h]

theorem Map.find_delRange (m : Map α) (a b j : Nat) :
    (m.delRange a b).find j = if j < a ∨ b ≤ j then m.find j else none := by
  have := Map.find_filter m (fun x => decide (x < a ∨ b ≤ x)) j
  simp only [Map.delRange, this, decide_eq_true_eq]

/-- A read after a write with a default: the value written at its key, what it was at every other. -/
theorem Map.getD_putD [DecidableEq α] (m : Map α) (k j : Nat) (v d : α) :
    (m.putD k v d).getD j d = if k = j then v else m.getD j d := by
  simp only [Map.getD, Map.putD]
  split
  · rw [Map.find_del]; split <;> simp_all
  · rw [Map.find_put]; split <;> simp

/-- As `getD_putD`, at another key, whatever the defaults. -/
theorem Map.getD_putD_ne [DecidableEq α] (m : Map α) {k j : Nat} (v d d' : α) (h : k ≠ j) :
    (m.putD k v d).getD j d' = m.getD j d' := by
  simp only [Map.getD, Map.putD]
  split
  · rw [Map.find_del, if_neg h]
  · rw [Map.find_put, if_neg h]

theorem Map.getD_put (m : Map α) (k j : Nat) (v d : α) :
    (m.put k v).getD j d = if k = j then v else m.getD j d := by
  simp only [Map.getD, Map.find_put]; split <;> simp

theorem Map.mem_put {m : Map α} {k : Nat} {v : α} {e : Nat × α} (h : e ∈ m.put k v) : e = (k, v) ∨ e ∈ m := by
  induction m with
  | nil => simpa [Map.put] using h
  | cons x m ih =>
    simp only [Map.put] at h
    split at h
    · simp at h ⊢; tauto
    · split at h
      · simp at h ⊢; tauto
      · simp at h ⊢
        rcases h with h | h
        · tauto
        · rcases ih h with h | h <;> tauto

theorem Map.Rising.put {m : Map α} (h : m.Rising) (k : Nat) (v : α) : (m.put k v).Rising := by
  induction m with
  | nil => simp [Map.put, Map.Rising]
  | cons x m ih =>
    rw [Map.Rising, List.pairwise_cons] at h
    simp only [Map.put]
    split
    · rename_i hk
      exact List.pairwise_cons.2 ⟨fun a ha => by simpa [← hk] using h.1 a ha, h.2⟩
    · split
      · refine List.pairwise_cons.2 ⟨fun a ha => ?_, List.pairwise_cons.2 h⟩
        rcases List.mem_cons.1 ha with rfl | ha
        · assumption
        · exact lt_trans (by assumption) (h.1 a ha)
      · refine List.pairwise_cons.2 ⟨fun a ha => ?_, ih h.2⟩
        rcases Map.mem_put ha with rfl | ha
        · simp only; omega
        · exact h.1 a ha

theorem Map.Rising.filter {m : Map α} (h : m.Rising) (p : Nat × α → Bool) : Map.Rising (m.filter p) :=
  List.Pairwise.filter p h

theorem Map.Rising.del {m : Map α} (h : m.Rising) (k : Nat) : (m.del k).Rising := h.filter _

theorem Map.Rising.putD [DecidableEq α] {m : Map α} (h : m.Rising) (k : Nat) (v d : α) : (m.putD k v d).Rising := by
  unfold Map.putD; split
  · exact h.del k
  · exact h.put k v

theorem Memory.wf_nil : Memory.wf [] := ⟨List.Pairwise.nil, by simp⟩

/-- Writing a byte keeps the canonical form. -/
theorem Memory.wf_putD {m : Map Byte} (h : Memory.wf m) (a : Nat) (b : Byte) : Memory.wf (m.putD a b 0) := by
  refine ⟨h.1.putD a b 0, fun e he => ?_⟩
  unfold Map.putD at he
  split at he
  · exact h.2 e (List.mem_filter.1 he).1
  · rcases Map.mem_put he with rfl | he
    · assumption
    · exact h.2 e he

/-- Writing bytes keeps the canonical form. -/
theorem Memory.wf_writeBytes (bs : List Byte) : ∀ {m : Map Byte} (_ : Memory.wf m) (a : Nat), Memory.wf (m.writeBytes a bs) := by
  induction bs with
  | nil => intro m h a; exact h
  | cons b bs ih => intro m h a; exact ih (Memory.wf_putD h a b) (a + 1)

/-- Dropping a range of addresses keeps the canonical form. -/
theorem Memory.wf_delRange {m : Map Byte} (h : Memory.wf m) (a b : Nat) : Memory.wf (m.delRange a b) :=
  ⟨h.1.filter _, fun e he => h.2 e (List.mem_filter.1 he).1⟩

/-- Writing bytes leaves every byte outside them as it was. -/
theorem Map.getD_writeBytes_outside (bs : List Byte) : ∀ (m : Map Byte) (a j : Nat), (j < a ∨ a + bs.length ≤ j) →
    (m.writeBytes a bs).getD j 0 = m.getD j 0 := by
  induction bs with
  | nil => intro m a j _; rfl
  | cons b bs ih =>
    intro m a j h
    rw [List.length_cons] at h
    have hw : m.writeBytes a (b :: bs) = (m.putD a b 0).writeBytes (a + 1) bs := rfl
    rw [hw, ih _ _ _ (by omega), Map.getD_putD, if_neg (by omega)]

/-- A byte written reads as written. -/
theorem Map.getD_writeBytes_inside (bs : List Byte) : ∀ (m : Map Byte) (a i : Nat) (h : i < bs.length),
    (m.writeBytes a bs).getD (a + i) 0 = bs[i] := by
  induction bs with
  | nil => intro m a i h; simp at h
  | cons b bs ih =>
    intro m a i h
    have hw : m.writeBytes a (b :: bs) = (m.putD a b 0).writeBytes (a + 1) bs := rfl
    rw [hw]
    cases i with
    | zero => rw [Map.getD_writeBytes_outside bs _ _ _ (by omega), Map.getD_putD]; simp
    | succ i =>
      have := ih (m.putD a b 0) (a + 1) i (by simpa using h)
      rw [show a + 1 + i = a + (i + 1) from by omega] at this
      rw [this]; rfl

end Sys2Proof
end

