-- ==== Sys2Proof/Laws/Kept.lean ====
section
/-! SUPPORT. The relation every command keeps (Safety.lean): its own laws, by which the lemma of each operation is put
together. -/

set_option Elab.async false
set_option linter.tactic.unusedName false
set_option linter.unusedTactic false

namespace Sys2Proof.Machine

open Sys2Proof

namespace Kept

theorem refl (s : State) : Kept s s :=
  ⟨rfl, id, fun _ => id, List.prefix_rfl, Nat.le_refl _⟩

/-- An update that leaves the five things alone. -/
theorem upd {s0 s : State} {regs : Map Word} {shadow : Map Word} {latch : Map Word} {evtCnt : Map Nat} {drove : Nat} {stepped : Nat} {tiles
    : Map Tile} {failing : Map (List Failing)} {fuseDue : Map Bool} {bay : Map Byte} {bslots : Map BSlot} {pools : Map Pool} {lastPool :
    Map Nat} {mm : MemSt} {objs : Map Obj} {links : Map LinkSt} {net : NetSt} {clk : ClockSt} {commits : Map Commit}
    {pw : PwrSt} {host : HostSt} {assay : AssaySt} {mg : MgmtSt}
    (h : Kept s0 s) (hm : mm.mem = s.mm.mem) :
    Kept s0 ⟨s.pending, regs, shadow, latch, evtCnt, drove, s.freeCtr, stepped, s.out, tiles, failing, s.fuses, fuseDue, bay, bslots, pools, lastPool, mm, objs, links, net, clk, commits, pw, host, assay, mg⟩ :=
  ⟨h.1, fun w => hm ▸ h.2 w, h.3, h.4, h.5⟩

/-- An update that takes free values. -/
theorem tick {s0 s : State} {regs : Map Word} {shadow : Map Word} {latch : Map Word} {evtCnt : Map Nat} {drove : Nat} {stepped : Nat} {tiles
    : Map Tile} {failing : Map (List Failing)} {fuseDue : Map Bool} {bay : Map Byte} {bslots : Map BSlot} {pools : Map Pool} {lastPool :
    Map Nat} {mm : MemSt} {objs : Map Obj} {links : Map LinkSt} {net : NetSt} {clk : ClockSt} {commits : Map Commit}
    {pw : PwrSt} {host : HostSt} {assay : AssaySt} {mg : MgmtSt}
    {freeCtr : Nat} (h : Kept s0 s) (hm : mm.mem = s.mm.mem) (hc : s.freeCtr ≤ freeCtr) :
    Kept s0 ⟨s.pending, regs, shadow, latch, evtCnt, drove, freeCtr, stepped, s.out, tiles, failing, s.fuses, fuseDue, bay, bslots, pools, lastPool, mm, objs, links, net, clk, commits, pw, host, assay, mg⟩ :=
  ⟨h.1, fun w => hm ▸ h.2 w, h.3, h.4, h.5.trans hc⟩

theorem ite {s0 a b : State} {p : Prop} [Decidable p] (ha : Kept s0 a) (hb : Kept s0 b) : Kept s0 (if p then a else b) := by
  split <;> assumption

theorem foldl {β : Type} {s0 : State} {f : State → β → State} (l : List β) :
    ∀ {s : State} (_ : Kept s0 s) (_ : ∀ s b, Kept s0 s → Kept s0 (f s b)), Kept s0 (l.foldl f s) := by
  induction l with
  | nil => intro s h _; exact h
  | cons b l ih => intro s h hf; exact ih (hf s b h) hf

theorem foldl1 {β γ : Type} {s0 : State} {f : State × γ → β → State × γ} (l : List β) :
    ∀ {x : State × γ} (_ : Kept s0 x.1) (_ : ∀ x b, Kept s0 x.1 → Kept s0 (f x b).1), Kept s0 (l.foldl f x).1 := by
  induction l with
  | nil => intro s h _; exact h
  | cons b l ih => intro s h hf; exact ih (hf s b h) hf

theorem foldl2 {β γ : Type} {s0 : State} {f : γ × State → β → γ × State} (l : List β) :
    ∀ {x : γ × State} (_ : Kept s0 x.2) (_ : ∀ x b, Kept s0 x.2 → Kept s0 (f x b).2), Kept s0 (l.foldl f x).2 := by
  induction l with
  | nil => intro s h _; exact h
  | cons b l ih => intro s h hf; exact ih (hf s b h) hf

/-- To go on from an intermediate state, it is enough that it is kept. -/
theorem via {s0 t : State} (s : State) (h : Kept s0 s) (k : Kept s0 s → Kept s0 t) : Kept s0 t := k h

/-- An update of memory that keeps its canonical form. -/
theorem updMem {s0 s : State} {mm : MemSt} (h : Kept s0 s) (hm : Memory.wf s.mm.mem → Memory.wf mm.mem) :
    Kept s0 { s with mm := mm } :=
  ⟨h.1, fun w => hm (h.2 w), h.3, h.4, h.5⟩

theorem via1 {γ : Type} {s0 t : State} (x : State × γ) (h : Kept s0 x.1) (k : Kept s0 x.1 → Kept s0 t) : Kept s0 t := k h

theorem via2 {γ : Type} {s0 t : State} (x : γ × State) (h : Kept s0 x.2) (k : Kept s0 x.2 → Kept s0 t) : Kept s0 t := k h

/-- A copy of the memory state keeps its bytes. -/
theorem viaMem {s0 s t : State} (x : MemSt) (e : x.mem = s.mm.mem) (k : x.mem = s.mm.mem → Kept s0 t) : Kept s0 t := k e

theorem viaFst {γ : Type} {s0 t u : State} {x : State × γ} {c : γ} (e : x = (t, c)) (h : Kept s0 x.1)
    (k : Kept s0 t → Kept s0 u) : Kept s0 u := by
  subst e; exact k h

theorem viaSnd {γ : Type} {s0 t u : State} {x : γ × State} {c : γ} (e : x = (c, t)) (h : Kept s0 x.2)
    (k : Kept s0 t → Kept s0 u) : Kept s0 u := by
  subst e; exact k h

end Kept

/-- An operation that may give a state keeps what every command keeps when it does. -/
def KeptOpt (s0 : State) (o : Option State) : Prop := ∀ t, o = some t → Kept s0 t

/-- The same for an operation that gives a state beside something else. -/
def KeptOpt2 {γ : Type} (s0 : State) (o : Option (γ × State)) : Prop := ∀ r, o = some r → Kept s0 r.2

theorem KeptOpt.none {s0 : State} : KeptOpt s0 .none := by intro t h; cases h

theorem KeptOpt.some {s0 t : State} (h : Kept s0 t) : KeptOpt s0 (.some t) := by intro u e; cases e; exact h

theorem KeptOpt2.none {γ : Type} {s0 : State} : KeptOpt2 (γ := γ) s0 .none := by intro t h; cases h

theorem KeptOpt2.some {γ : Type} {s0 : State} {r : γ × State} (h : Kept s0 r.2) : KeptOpt2 s0 (.some r) := by
  intro u e; cases e; exact h

theorem KeptOpt.getD {s0 s : State} {o : Option State} (ho : KeptOpt s0 o) (h : Kept s0 s) : Kept s0 (o.getD s) := by
  cases o with
  | none => exact h
  | some t => exact ho t rfl

theorem KeptOpt2.map {α γ : Type} {s0 : State} {o : Option α} {g : α → γ × State} (h : ∀ a, Kept s0 (g a).2) :
    KeptOpt2 s0 (o.map g) := by
  intro r e
  cases o with
  | none => cases e
  | some a => cases e; exact h a

theorem KeptOpt2.findSome {α γ : Type} {s0 : State} {f : α → Option (γ × State)} (l : List α)
    (h : ∀ a, KeptOpt2 s0 (f a)) : KeptOpt2 s0 (l.findSome? f) := by
  intro r e
  obtain ⟨a, _, ha⟩ := List.exists_of_findSome?_eq_some e
  exact h a r ha

theorem KeptOpt.via {s0 t u : State} {x : Option State} (e : x = .some t) (h : KeptOpt s0 x)
    (k : Kept s0 t → Kept s0 u) : Kept s0 u := k (h t e)

theorem KeptOpt2.via {γ : Type} {s0 t u : State} {c : γ} {x : Option (γ × State)} (e : x = .some (c, t))
    (h : KeptOpt2 s0 x) (k : Kept s0 t → Kept s0 u) : Kept s0 u := k (h _ e)

theorem KeptOpt.viaFst {γ : Type} {s0 t : State} {o : Option State} {x : γ × State} {c : γ} (e : x = (c, t))
    (h : Kept s0 x.2) (k : Kept s0 t → KeptOpt s0 o) : KeptOpt s0 o := by
  subst e; exact k h

theorem KeptOpt.viaState {s0 : State} {o : Option State} (s : State) (h : Kept s0 s)
    (k : Kept s0 s → KeptOpt s0 o) : KeptOpt s0 o := k h

theorem KeptOpt2.viaState {γ : Type} {s0 : State} {o : Option (γ × State)} (s : State) (h : Kept s0 s)
    (k : Kept s0 s → KeptOpt2 s0 o) : KeptOpt2 s0 o := k h

/-- What a try at a pool comes to keeps what every command keeps. -/
def KeptTry (s0 : State) : Try → Prop
  | .pass t => Kept s0 t
  | .took t => Kept s0 t

theorem KeptTry.pass {s0 t : State} (h : Kept s0 t) : KeptTry s0 (.pass t) := h

theorem KeptTry.took {s0 t : State} (h : Kept s0 t) : KeptTry s0 (.took t) := h

theorem KeptTry.viaTook {s0 t u : State} {x : Try} (e : x = .took t) (h : KeptTry s0 x) (k : Kept s0 t → Kept s0 u) :
    Kept s0 u := by
  subst e; exact k h

theorem KeptTry.viaPass {s0 t u : State} {x : Try} (e : x = .pass t) (h : KeptTry s0 x) (k : Kept s0 t → Kept s0 u) :
    Kept s0 u := by
  subst e; exact k h

theorem KeptTry.via {γ : Type} {s0 t : State} {c : γ} {x : Option (γ × State)} {y : Try} (e : x = .some (c, t))
    (h : KeptOpt2 s0 x) (k : Kept s0 t → KeptTry s0 y) : KeptTry s0 y := k (h _ e)

/-- A meaning that answers a next state keeps what every command keeps. -/
def KeptAns (s0 : State) (a : Ans) : Prop := ∀ t, a = .next t → Kept s0 t

theorem KeptAns.next {s0 t : State} (h : Kept s0 t) : KeptAns s0 (.next t) := by
  intro t' e; injection e with e; exact e ▸ h

end Sys2Proof.Machine
end

