-- ==== Sys2Proof/Laws/KeptOps.lean ====
section
/-! SUPPORT. Each operation and meaning of Machine/Ops.lean keeps what every command keeps (Safety.lean). -/

set_option Elab.async false
set_option linter.tactic.unusedName false
set_option linter.unusedTactic false

namespace Sys2Proof.Machine

open Sys2Proof

theorem State.setW_kept {s0 s : State} (h : Kept s0 s) (u : UnitId) (off : Nat) (w : Word) :
    Kept s0 (State.setW s u off w) := by
  unfold State.setW
  repeat' (with_reducible exact Kept.upd (by assumption) rfl)

theorem State.setF_kept {s0 s : State} (h : Kept s0 s) (u : UnitId) (f : Fld) (v : Nat) :
    Kept s0 (State.setF s u f v) := by
  unfold State.setF
  repeat' (first
    | with_reducible assumption
    | with_reducible refine State.setW_kept ?_ ..)

theorem State.emit_kept {s0 s : State} (h : Kept s0 s) (o : Out) :
    Kept s0 (State.emit s o) := by
  exact ⟨h.1, h.2, h.3, h.4.trans (List.prefix_append _ _), h.5⟩

theorem State.setTileState_kept {s0 s : State} (h : Kept s0 s) (d : Fin 4) (t : Nat) (v : Nat) :
    Kept s0 (State.setTileState s d t v) := by
  unfold State.setTileState
  repeat' (first
    | with_reducible assumption
    | with_reducible refine State.setW_kept ?_ ..)

theorem State.alertHealth_kept {s0 s : State} (h : Kept s0 s) :
    Kept s0 (State.alertHealth s) := by
  unfold State.alertHealth
  repeat' (first
    | with_reducible assumption
    | with_reducible refine State.setF_kept ?_ ..)

theorem State.setOwn_kept {s0 s : State} (h : Kept s0 s) (u : UnitId) (v : Nat) :
    Kept s0 (State.setOwn s u v) := by
  unfold State.setOwn
  repeat' (first
    | with_reducible assumption
    | (extract_lets +onlyGivenNames x; refine Kept.via x ?_ (fun hx => ?_); subst x; rotate_left; clear_value x)
    | with_reducible refine State.setF_kept ?_ ..
    | with_reducible refine State.alertHealth_kept ?_ ..
    | split)

theorem State.raise_kept {s0 s : State} (h : Kept s0 s) (u : UnitId) (b : Nat) :
    Kept s0 (State.raise s u b) := by
  unfold State.raise
  repeat' (first
    | with_reducible assumption
    | (extract_lets +onlyGivenNames x; refine Kept.via x ?_ (fun hx => ?_); subst x; rotate_left; clear_value x)
    | with_reducible refine State.setW_kept ?_ ..
    | with_reducible exact Kept.upd (by assumption) rfl)

theorem State.setPair_kept {s0 s : State} (h : Kept s0 s) (u : UnitId) (lo : Fld) (hi : Fld) (v : Nat) :
    Kept s0 (State.setPair s u lo hi v) := by
  unfold State.setPair
  repeat' (first
    | with_reducible assumption
    | (extract_lets +onlyGivenNames x)
    | with_reducible refine State.setF_kept ?_ ..)

theorem State.addPair_kept {s0 s : State} (h : Kept s0 s) (u : UnitId) (lo : Fld) (hi : Fld) (n : Nat) :
    Kept s0 (State.addPair s u lo hi n) := by
  unfold State.addPair
  repeat' (first
    | with_reducible assumption
    | with_reducible refine State.setPair_kept ?_ ..)

theorem State.tickFree_kept {s0 s : State} (h : Kept s0 s) :
    Kept s0 (State.tickFree s) := by
  unfold State.tickFree
  repeat' (with_reducible exact Kept.tick (by assumption) rfl (by omega))

theorem State.bumpBy_kept {s0 s : State} (h : Kept s0 s) (u : UnitId) (f : Fld) (n : Nat) :
    Kept s0 (State.bumpBy s u f n) := by
  unfold State.bumpBy
  repeat' (first
    | with_reducible assumption
    | with_reducible refine State.setF_kept ?_ ..)

theorem State.bump_kept {s0 s : State} (h : Kept s0 s) (u : UnitId) (f : Fld) :
    Kept s0 (State.bump s u f) := by
  unfold State.bump
  repeat' (first
    | with_reducible assumption
    | with_reducible refine State.bumpBy_kept ?_ ..)

theorem State.judgeLevel_kept {s0 s : State} (h : Kept s0 s) (L : LevelRegs) (l0 : Nat) (hi0 : Nat) (lo0 : Nat) :
    Kept s0 (State.judgeLevel s L l0 hi0 lo0) := by
  unfold State.judgeLevel
  repeat' (first
    | with_reducible assumption
    | (extract_lets +onlyGivenNames x; first
          | (refine Kept.via x ?_ (fun hx => ?_); subst x; rotate_left; clear_value x)
          | clear_value x)
    | with_reducible refine State.raise_kept ?_ ..
    | split)

theorem State.moveLevel_kept {s0 s : State} (h : Kept s0 s) (L : LevelRegs) (v : Nat) :
    Kept s0 (State.moveLevel s L v) := by
  unfold State.moveLevel
  repeat' (first
    | with_reducible assumption
    | (extract_lets +onlyGivenNames x; first
          | (refine Kept.via x ?_ (fun hx => ?_); subst x; rotate_left; clear_value x)
          | clear_value x)
    | with_reducible refine State.setF_kept ?_ ..
    | with_reducible refine State.judgeLevel_kept ?_ ..)

theorem State.sendVector_kept {s0 s : State} (h : Kept s0 s) (v : Nat) :
    Kept s0 (State.sendVector s v) := by
  unfold State.sendVector
  repeat' (first
    | with_reducible assumption
    | (extract_lets +onlyGivenNames x; first
          | (refine Kept.via x ?_ (fun hx => ?_); subst x; rotate_left; clear_value x)
          | clear_value x)
    | with_reducible refine State.emit_kept ?_ ..
    | split
    | with_reducible exact Kept.upd (by assumption) rfl)

theorem State.raiseVector_kept {s0 s : State} (h : Kept s0 s) (v : Nat) :
    Kept s0 (State.raiseVector s v) := by
  unfold State.raiseVector
  repeat' (first
    | (extract_lets +onlyGivenNames x; first
          | clear_value x
          | skip)
    | with_reducible refine State.sendVector_kept ?_ ..
    | with_reducible exact Kept.upd (by assumption) rfl)

theorem State.flushVectors_kept {s0 s : State} (h : Kept s0 s) :
    Kept s0 (State.flushVectors s) := by
  unfold State.flushVectors
  repeat' (first
    | with_reducible assumption
    | (extract_lets +onlyGivenNames x)
    | with_reducible refine State.sendVector_kept ?_ ..
    | with_reducible refine Kept.foldl _ ?_ ?_
    | (intro _ _ _; beta_reduce))

theorem State.pkgSummary_kept {s0 s : State} (h : Kept s0 s) (was : Bool) :
    Kept s0 (State.pkgSummary s was) := by
  unfold State.pkgSummary
  repeat' (first
    | with_reducible assumption
    | with_reducible refine State.raiseVector_kept ?_ ..
    | split)

theorem State.propagate_kept {s0 s : State} (h : Kept s0 s) (u : UnitId) :
    Kept s0 (State.propagate s u) := by
  unfold State.propagate
  repeat' (first
    | with_reducible assumption
    | (extract_lets +onlyGivenNames x; first
          | (refine Kept.via x ?_ (fun hx => ?_); subst x; rotate_left; clear_value x)
          | clear_value x
          | skip)
    | with_reducible refine State.setF_kept ?_ ..
    | with_reducible refine State.pkgSummary_kept ?_ ..
    | with_reducible refine State.setW_kept ?_ ..
    | with_reducible refine State.alertHealth_kept ?_ ..
    | split)

theorem State.raisePkg_kept {s0 s : State} (h : Kept s0 s) (b : Nat) :
    Kept s0 (State.raisePkg s b) := by
  unfold State.raisePkg
  repeat' (first
    | with_reducible assumption
    | (extract_lets +onlyGivenNames x; first
          | clear_value x
          | skip)
    | with_reducible refine State.pkgSummary_kept ?_ ..
    | with_reducible refine State.raise_kept ?_ ..)

theorem State.writeMark_kept {s0 s : State} (h : Kept s0 s) (L : LevelRegs) (hi : Bool) (v : Nat) :
    Kept s0 (State.writeMark s L hi v) := by
  unfold State.writeMark
  repeat' (first
    | with_reducible assumption
    | (extract_lets +onlyGivenNames x; first
          | (refine Kept.via x ?_ (fun hx => ?_); subst x; rotate_left; clear_value x)
          | clear_value x)
    | with_reducible refine State.setF_kept ?_ ..
    | with_reducible refine State.judgeLevel_kept ?_ ..)

end Sys2Proof.Machine
end

