-- ==== Sys2Proof/Laws/KeptFlowOps.lean ====
section
/-! SUPPORT. Each operation and meaning of Machine/FlowOps.lean keeps what every command keeps (Safety.lean). -/

set_option Elab.async false
set_option linter.tactic.unusedName false
set_option linter.unusedTactic false

namespace Sys2Proof.Machine

open Sys2Proof

theorem State.setFlow_kept {s0 s : State} (h : Kept s0 s) (c : Nat) (f : Flow) :
    Kept s0 (State.setFlow s c f) := by
  unfold State.setFlow
  repeat' (first
    | (extract_lets +onlyGivenNames x; clear_value x)
    | with_reducible exact Kept.upd (by assumption) rfl)

theorem State.setRout_kept {s0 s : State} (h : Kept s0 s) (h : Fin 2) (r : RoutSt) :
    Kept s0 (State.setRout s h r) := by
  unfold State.setRout
  repeat' (first
    | (extract_lets +onlyGivenNames x; clear_value x)
    | split
    | with_reducible exact Kept.upd (by assumption) rfl)

theorem State.inject_kept {s0 s : State} (h : Kept s0 s) (h : Fin 2) (net : Nat) (pk : Packet) :
    Kept s0 (State.inject s h net pk) := by
  unfold State.inject
  repeat' (first
    | with_reducible assumption
    | (extract_lets +onlyGivenNames x; first
          | (have hx := fun a => x a; clear hx; subst x; beta_reduce)
          | clear_value x)
    | with_reducible refine State.setRout_kept ?_ ..)

theorem State.pumpFlow_kept {s0 s : State} (h : Kept s0 s) (c : Nat) :
    Kept s0 (State.pumpFlow s c) := by
  unfold State.pumpFlow
  repeat' (first
    | with_reducible assumption
    | (extract_lets +onlyGivenNames x)
    | with_reducible refine State.setFlow_kept ?_ ..
    | with_reducible refine State.inject_kept ?_ ..
    | with_reducible refine Kept.foldl _ ?_ ?_
    | (intro _ _ _; beta_reduce))

theorem State.sendOnFlow_kept {s0 s : State} (h : Kept s0 s) (c : Nat) (owner : Owner) (pk : Packet) :
    Kept s0 (State.sendOnFlow s c owner pk) := by
  unfold State.sendOnFlow
  repeat' (first
    | with_reducible assumption
    | (extract_lets +onlyGivenNames x; first
          | clear_value x
          | skip)
    | with_reducible refine State.setFlow_kept ?_ ..
    | with_reducible refine State.pumpFlow_kept ?_ ..)

theorem State.openMessage_kept {s0 s : State} (h : Kept s0 s) (c : Nat) (owner : Owner) :
    Kept s0 (State.openMessage s c owner).2 := by
  unfold State.openMessage
  repeat' (first
    | with_reducible assumption
    | (extract_lets +onlyGivenNames x; clear_value x)
    | with_reducible refine State.setFlow_kept ?_ ..)

theorem State.openLater_kept {s0 s : State} (h : Kept s0 s) (c : Nat) (a0 : Nat) :
    Kept s0 (State.openLater s c a0) := by
  induction a0 generalizing s c with
  | zero =>
    unfold State.openLater
    repeat' (with_reducible assumption)
  | succ n ih =>
    unfold State.openLater
    repeat' (first
      | with_reducible assumption
      | (extract_lets +onlyGivenNames x; first
            | clear_value x
            | skip)
      | with_reducible refine ih ?_ ..
      | with_reducible refine State.setFlow_kept ?_ ..
      | with_reducible refine State.sendOnFlow_kept ?_ ..
      | with_reducible refine State.openMessage_kept ?_ ..
      | with_reducible refine Kept.foldl _ ?_ ?_
      | split
      | (intro _ _ _; beta_reduce))

theorem State.sendMessage_kept {s0 s : State} (h : Kept s0 s) (c : Nat) (o : Owner) (pks : List Packet) :
    Kept s0 (State.sendMessage s c o pks) := by
  unfold State.sendMessage
  repeat' (first
    | with_reducible assumption
    | (extract_lets +onlyGivenNames x; first
          | clear_value x
          | skip)
    | with_reducible refine State.setFlow_kept ?_ ..
    | with_reducible refine State.openLater_kept ?_ ..
    | split)

end Sys2Proof.Machine
end

