-- ==== Sys2Proof/Laws/KeptMemOps.lean ====
section
/-! SUPPORT. Each operation and meaning of Machine/MemOps.lean keeps what every command keeps (Safety.lean). -/

set_option Elab.async false
set_option linter.tactic.unusedName false
set_option linter.unusedTactic false

namespace Sys2Proof.Machine

open Sys2Proof

theorem State.setPg_kept {s0 s : State} (h : Kept s0 s) (r : PgRef) (v : Page) :
    Kept s0 (State.setPg s r v) := by
  unfold State.setPg
  repeat' (first
    | (extract_lets +onlyGivenNames x; refine Kept.viaMem x rfl (fun hx => ?_); clear_value x)
    | split
    | with_reducible exact Kept.upd (by assumption) (by assumption))

theorem State.holdAccess_kept {s0 s : State} (h : Kept s0 s) (addr : Nat) (n : Nat) (bs : List Byte) :
    Kept s0 (State.holdAccess s addr n bs) := by
  unfold State.holdAccess
  repeat' (first
    | with_reducible assumption
    | (extract_lets +onlyGivenNames x; clear_value x)
    | with_reducible refine State.setPg_kept ?_ ..
    | split)

theorem State.readHost_kept {s0 s : State} (h : Kept s0 s) (a : Nat) (n : Nat) :
    Kept s0 (State.readHost s a n) := by
  unfold State.readHost
  repeat' (first
    | with_reducible assumption
    | with_reducible refine State.emit_kept ?_ ..)

theorem State.readAt_kept {s0 s : State} (h : Kept s0 s) (pl : Place) (addr : Nat) (n : Nat) :
    Kept s0 (State.readAt s pl addr n) := by
  unfold State.readAt
  repeat' (first
    | with_reducible assumption
    | with_reducible refine State.sendMessage_kept ?_ ..
    | with_reducible refine State.readHost_kept ?_ ..
    | split)

theorem State.awayPage_kept {s0 s : State} (h : Kept s0 s) (addr : Nat) (n : Nat) :
    Kept s0 (State.awayPage s addr n) := by
  unfold State.awayPage
  repeat' (first
    | with_reducible assumption
    | (extract_lets +onlyGivenNames x; clear_value x)
    | with_reducible refine State.holdAccess_kept ?_ ..
    | with_reducible refine State.readAt_kept ?_ ..
    | split)

theorem State.awayRead_kept {s0 s : State} (h : Kept s0 s) (addr : Nat) (n : Nat) (a0 : Nat) :
    Kept s0 (State.awayRead s addr n a0) := by
  induction a0 generalizing s addr n with
  | zero =>
    unfold State.awayRead
    repeat' (with_reducible assumption)
  | succ n ih =>
    unfold State.awayRead
    repeat' (first
      | with_reducible assumption
      | (extract_lets +onlyGivenNames x; first
            | clear_value x
            | skip)
      | with_reducible refine ih ?_ ..
      | with_reducible refine State.awayPage_kept ?_ ..
      | split)

theorem State.countBytes_kept {s0 s : State} (h : Kept s0 s) (page : Nat) (write : Bool) (n : Nat) :
    Kept s0 (State.countBytes s page write n) := by
  unfold State.countBytes
  repeat' (first
    | with_reducible assumption
    | (extract_lets +onlyGivenNames x; clear_value x)
    | with_reducible refine State.addPair_kept ?_ ..
    | split)

theorem State.flushEntry_kept {s0 s : State} (h : Kept s0 s) (key : Nat) :
    Kept s0 (State.flushEntry s key) := by
  unfold State.flushEntry
  repeat' (first
    | with_reducible assumption
    | (extract_lets +onlyGivenNames x; first
          | (refine Kept.via x ?_ (fun hx => ?_); subst x; rotate_left; clear_value x)
          | (refine Kept.viaMem x rfl (fun hx => ?_); clear_value x)
          | clear_value x)
    | with_reducible refine State.setPg_kept ?_ ..
    | split
    | with_reducible exact Kept.upd (by assumption) (by assumption))

theorem State.evictXlat_kept {s0 s : State} (h : Kept s0 s) (cache : Nat) :
    Kept s0 (State.evictXlat s cache) := by
  unfold State.evictXlat
  repeat' (first
    | with_reducible assumption
    | (extract_lets +onlyGivenNames x; first
          | clear_value x
          | skip)
    | with_reducible refine State.flushEntry_kept ?_ ..
    | with_reducible refine State.tickFree_kept ?_ ..
    | split)

theorem State.countAccesses_kept {s0 s : State} (h : Kept s0 s) (q : Req) (page : Nat) (n : Nat) :
    Kept s0 (State.countAccesses s q page n) := by
  unfold State.countAccesses
  repeat' (first
    | with_reducible assumption
    | (extract_lets +onlyGivenNames x; first
          | (refine Kept.via x ?_ (fun hx => ?_); subst x; rotate_left; clear_value x)
          | (refine Kept.viaMem x rfl (fun hx => ?_); clear_value x)
          | clear_value x
          | skip)
    | with_reducible refine State.evictXlat_kept ?_ ..
    | with_reducible refine State.bump_kept ?_ ..
    | split
    | with_reducible exact Kept.upd (by assumption) (by assumption))

theorem State.countAccess_kept {s0 s : State} (h : Kept s0 s) (q : Req) (page : Nat) :
    Kept s0 (State.countAccess s q page) := by
  unfold State.countAccess
  repeat' (first
    | with_reducible assumption
    | with_reducible refine State.countAccesses_kept ?_ ..)

theorem State.readLines_kept {s0 s : State} (h : Kept s0 s) (q : Req) (line : Nat) (a0 : Nat) :
    Kept s0 (State.readLines s q line a0) := by
  induction a0 generalizing s q line with
  | zero =>
    unfold State.readLines
    repeat' (with_reducible assumption)
  | succ n ih =>
    unfold State.readLines
    repeat' (first
      | with_reducible assumption
      | (extract_lets +onlyGivenNames x; first
            | (refine Kept.via x ?_ (fun hx => ?_); subst x; rotate_left; clear_value x)
            | skip)
      | with_reducible refine ih ?_ ..
      | with_reducible refine State.countBytes_kept ?_ ..
      | with_reducible refine State.countAccess_kept ?_ ..)

theorem State.poisonOver_kept {s0 s : State} (h : Kept s0 s) (addr : Nat) (st : Nat) :
    Kept s0 (State.poisonOver s addr st) := by
  unfold State.poisonOver
  repeat' (first
    | with_reducible assumption
    | (extract_lets +onlyGivenNames x; clear_value x)
    | with_reducible refine State.setPg_kept ?_ ..
    | split)

theorem State.readMem_kept {s0 s : State} (h : Kept s0 s) (q : Req) (addr : Nat) (n : Nat) :
    Kept s0 (State.readMem s q addr n).1 := by
  unfold State.readMem
  repeat' (first
    | with_reducible assumption
    | (extract_lets +onlyGivenNames x; first
          | clear_value x
          | skip)
    | with_reducible refine State.awayRead_kept ?_ ..
    | with_reducible refine State.readLines_kept ?_ ..
    | with_reducible refine State.poisonOver_kept ?_ ..
    | split)

theorem State.copyPeer_kept {s0 s : State} (h : Kept s0 s) (n : Nat) (runs : List (Nat × Nat)) :
    Kept s0 (State.copyPeer s n runs) := by
  unfold State.copyPeer
  repeat' (first
    | with_reducible assumption
    | (extract_lets +onlyGivenNames x; first
          | (refine Kept.via x ?_ (fun hx => ?_); subst x; rotate_left; clear_value x)
          | clear_value x)
    | with_reducible refine State.sendMessage_kept ?_ ..
    | split)

theorem State.copyAll_kept {s0 s : State} (h : Kept s0 s) (r : PgRef) :
    Kept s0 (State.copyAll s r) := by
  unfold State.copyAll
  repeat' (first
    | with_reducible assumption
    | (extract_lets +onlyGivenNames x; refine Kept.via x ?_ (fun hx => ?_); subst x; rotate_left; clear_value x)
    | with_reducible refine State.copyPeer_kept ?_ ..
    | with_reducible refine State.readHost_kept ?_ ..
    | split)

theorem State.zeroFrame_kept {s0 s : State} (h : Kept s0 s) (id : Nat) :
    Kept s0 (State.zeroFrame s id) := by
  unfold State.zeroFrame
  repeat' (first
    | (extract_lets +onlyGivenNames x; refine Kept.viaMem x rfl (fun hx => ?_); clear_value x)
    | with_reducible exact Kept.upd (by assumption) (by assumption))

theorem State.guestSend_kept {s0 s : State} (h : Kept s0 s) (op : Nat) (page : Nat) (k : Nat) :
    Kept s0 (State.guestSend s op page k) := by
  unfold State.guestSend
  repeat' (first
    | with_reducible assumption
    | (extract_lets +onlyGivenNames x; clear_value x)
    | with_reducible refine State.sendOnFlow_kept ?_ ..
    | split)

theorem State.writeAt_kept {s0 s : State} (h : Kept s0 s) (pl : Place) (addr : Nat) (bs : List Byte) :
    Kept s0 (State.writeAt s pl addr bs) := by
  unfold State.writeAt
  repeat' (first
    | with_reducible assumption
    | with_reducible refine State.sendMessage_kept ?_ ..
    | with_reducible refine State.emit_kept ?_ ..
    | split)

theorem State.releaseHeld_kept {s0 s : State} (h : Kept s0 s) (m : Move) (pl : Place) :
    Kept s0 (State.releaseHeld s m pl) := by
  unfold State.releaseHeld
  repeat' (first
    | with_reducible assumption
    | (extract_lets +onlyGivenNames x)
    | with_reducible refine State.readAt_kept ?_ ..
    | with_reducible refine State.writeAt_kept ?_ ..
    | with_reducible refine Kept.foldl _ ?_ ?_
    | split
    | (intro _ _ _; beta_reduce))

theorem State.placeCounts_kept {s0 s : State} (h : Kept s0 s) :
    Kept s0 (State.placeCounts s) := by
  unfold State.placeCounts
  repeat' (first
    | with_reducible assumption
    | (extract_lets +onlyGivenNames x; first
          | (refine Kept.via x ?_ (fun hx => ?_); subst x; rotate_left; clear_value x)
          | clear_value x
          | skip)
    | with_reducible refine State.moveLevel_kept ?_ ..
    | with_reducible refine State.setF_kept ?_ ..
    | with_reducible refine Kept.foldl _ ?_ ?_
    | (intro _ _ _; beta_reduce))

theorem State.abandonOne_kept {s0 s : State} (h : Kept s0 s) (r : PgRef) :
    Kept s0 (State.abandonOne s r) := by
  unfold State.abandonOne
  repeat' (first
    | with_reducible assumption
    | (extract_lets +onlyGivenNames x; first
          | (refine Kept.via x ?_ (fun hx => ?_); subst x; rotate_left; clear_value x)
          | clear_value x
          | skip)
    | with_reducible refine State.bump_kept ?_ ..
    | with_reducible refine State.zeroFrame_kept ?_ ..
    | with_reducible refine State.guestSend_kept ?_ ..
    | with_reducible refine State.releaseHeld_kept ?_ ..
    | with_reducible refine State.raise_kept ?_ ..
    | with_reducible refine State.setPg_kept ?_ ..
    | with_reducible refine State.placeCounts_kept ?_ ..
    | split)

theorem State.abandonMove_kept {s0 s : State} (h : Kept s0 s) (r : PgRef) :
    Kept s0 (State.abandonMove s r) := by
  unfold State.abandonMove
  repeat' (first
    | with_reducible assumption
    | (extract_lets +onlyGivenNames x; first
          | (refine Kept.via x ?_ (fun hx => ?_); subst x; rotate_left; clear_value x)
          | clear_value x
          | skip)
    | with_reducible refine State.abandonOne_kept ?_ ..
    | with_reducible refine Kept.foldl _ ?_ ?_
    | split
    | (intro _ _ _; beta_reduce))

theorem State.targetDown_kept {s0 s : State} (h : Kept s0 s) (k : Nat) :
    Kept s0 (State.targetDown s k) := by
  unfold State.targetDown
  repeat' (first
    | with_reducible assumption
    | (extract_lets +onlyGivenNames x; first
          | (refine Kept.via x ?_ (fun hx => ?_); subst x; rotate_left; clear_value x)
          | (refine Kept.viaMem x rfl (fun hx => ?_); clear_value x)
          | (have hx := fun a => x a; clear hx; subst x; beta_reduce)
          | clear_value x
          | skip)
    | with_reducible refine State.setF_kept ?_ ..
    | with_reducible refine State.abandonMove_kept ?_ ..
    | with_reducible refine State.raise_kept ?_ ..
    | with_reducible refine State.setPg_kept ?_ ..
    | with_reducible refine State.placeCounts_kept ?_ ..
    | with_reducible refine Kept.foldl _ ?_ ?_
    | split
    | (intro _ _ _; beta_reduce)
    | with_reducible exact Kept.upd (by assumption) (by assumption))

theorem State.startMove_kept {s0 s : State} (h : Kept s0 s) (r : PgRef) (dest : Place) (why : MoveWhy) :
    Kept s0 (State.startMove s r dest why) := by
  unfold State.startMove
  repeat' (first
    | with_reducible assumption
    | (extract_lets +onlyGivenNames x; first
          | (refine Kept.via x ?_ (fun hx => ?_); subst x; rotate_left; clear_value x)
          | clear_value x
          | skip)
    | with_reducible refine State.copyAll_kept ?_ ..
    | with_reducible refine State.targetDown_kept ?_ ..
    | with_reducible refine State.guestSend_kept ?_ ..
    | with_reducible refine State.setPg_kept ?_ ..
    | with_reducible refine State.placeCounts_kept ?_ ..
    | split)

theorem State.targetPlace_kept {s0 s : State} (h : Kept s0 s) (k : Nat) :
    Kept s0 (State.targetPlace s k).2 := by
  unfold State.targetPlace
  repeat' (first
    | with_reducible assumption
    | (extract_lets +onlyGivenNames x; refine Kept.viaMem x rfl (fun hx => ?_); clear_value x)
    | split
    | with_reducible exact Kept.upd (by assumption) (by assumption))

theorem State.spillFrom_kept {s0 s : State} (h : Kept s0 s) (victims : List (Nat × Page)) :
    KeptOpt s0 (State.spillFrom s victims) := by
  unfold State.spillFrom
  repeat' (first
    | with_reducible assumption
    | (extract_lets +onlyGivenNames x)
    | with_reducible refine State.startMove_kept ?_ ..
    | with_reducible refine State.targetPlace_kept ?_ ..
    | with_reducible exact KeptOpt.none
    | with_reducible refine KeptOpt.some ?_
    | split)

theorem State.spillOne_kept {s0 s : State} (h : Kept s0 s) :
    KeptOpt s0 (State.spillOne s) := by
  unfold State.spillOne
  repeat' (first
    | with_reducible assumption
    | with_reducible refine State.spillFrom_kept ?_ ..)

theorem State.spillTry_kept {s0 s : State} (h : Kept s0 s) (a0 : Nat) :
    Kept s0 (State.spillTry s a0) := by
  induction a0 generalizing s with
  | zero =>
    unfold State.spillTry
    repeat' (with_reducible assumption)
  | succ n ih =>
    unfold State.spillTry
    repeat' (first
      | with_reducible assumption
      | (extract_lets +onlyGivenNames x)
      | with_reducible refine ih ?_ ..
      | with_reducible refine State.spillOne_kept ?_ ..
      | (split <;> first
            | (rename_i e; refine KeptOpt.via e ?_ (fun _ => ?_))
            | skip))

theorem State.gotPage_kept {s0 s : State} (h : Kept s0 s) (c : Nat) :
    Kept s0 (State.gotPage s c) := by
  unfold State.gotPage
  repeat' (first
    | (extract_lets +onlyGivenNames x; refine Kept.viaMem x rfl (fun hx => ?_); clear_value x)
    | with_reducible exact Kept.upd (by assumption) (by assumption))

theorem State.takeFrame_kept {s0 s : State} (h : Kept s0 s) (dies : List Nat) :
    KeptOpt2 s0 (State.takeFrame s dies) := by
  exact KeptOpt2.findSome _ (fun _ => KeptOpt2.map (fun _ => Kept.upd h rfl))

theorem State.drainStep_kept {s0 s : State} (h : Kept s0 s) (c : Nat) :
    Kept s0 (State.drainStep s c) := by
  unfold State.drainStep
  repeat' (first
    | with_reducible assumption
    | (extract_lets +onlyGivenNames x; first
          | (refine Kept.via x ?_ (fun hx => ?_); subst x; rotate_left; clear_value x)
          | (refine Kept.viaMem x rfl (fun hx => ?_); clear_value x)
          | clear_value x
          | skip)
    | with_reducible refine State.startMove_kept ?_ ..
    | with_reducible refine State.spillTry_kept ?_ ..
    | with_reducible refine State.raise_kept ?_ ..
    | with_reducible refine State.takeFrame_kept ?_ ..
    | (split <;> first
          | (rename_i e; refine KeptOpt2.via e ?_ (fun _ => ?_))
          | skip)
    | with_reducible exact Kept.upd (by assumption) (by assumption))

theorem State.drainAll_kept {s0 s : State} (h : Kept s0 s) :
    Kept s0 (State.drainAll s) := by
  unfold State.drainAll
  repeat' (first
    | with_reducible assumption
    | (extract_lets +onlyGivenNames x)
    | with_reducible refine State.drainStep_kept ?_ ..
    | with_reducible refine Kept.foldl _ ?_ ?_
    | split
    | (intro _ _ _; beta_reduce))

theorem State.loseTarget_kept {s0 s : State} (h : Kept s0 s) (k : Nat) :
    Kept s0 (State.loseTarget s k) := by
  unfold State.loseTarget
  repeat' (first
    | with_reducible assumption
    | (extract_lets +onlyGivenNames x)
    | with_reducible refine State.drainAll_kept ?_ ..
    | with_reducible refine State.targetDown_kept ?_ ..)

theorem State.setHq_kept {s0 s : State} (h : Kept s0 s) (q : Nat) (v : HostQ) :
    Kept s0 (State.setHq s q v) := by
  unfold State.setHq
  repeat' (first
    | (extract_lets +onlyGivenNames x; clear_value x)
    | with_reducible exact Kept.upd (by assumption) rfl)

theorem State.queueErr_kept {s0 s : State} (h : Kept s0 s) (q : Nat) (cause : Nat) :
    Kept s0 (State.queueErr s q cause) := by
  unfold State.queueErr
  repeat' (first
    | with_reducible assumption
    | (extract_lets +onlyGivenNames x; first
          | (refine Kept.via x ?_ (fun hx => ?_); subst x; rotate_left; clear_value x)
          | clear_value x)
    | with_reducible refine State.raise_kept ?_ ..
    | with_reducible refine State.setHq_kept ?_ ..
    | split)

theorem State.recordLost_kept {s0 s : State} (h : Kept s0 s) :
    Kept s0 (State.recordLost s) := by
  unfold State.recordLost
  repeat' (first
    | with_reducible assumption
    | (extract_lets +onlyGivenNames x)
    | with_reducible refine State.queueErr_kept ?_ ..
    | with_reducible refine Kept.foldl _ ?_ ?_
    | split
    | (intro _ _ _; beta_reduce))

theorem State.losePage_kept {s0 s : State} (h : Kept s0 s) (r : PgRef) :
    Kept s0 (State.losePage s r) := by
  unfold State.losePage
  repeat' (first
    | with_reducible assumption
    | (extract_lets +onlyGivenNames x; first
          | (refine Kept.via x ?_ (fun hx => ?_); subst x; rotate_left; clear_value x)
          | clear_value x
          | skip)
    | with_reducible refine State.abandonMove_kept ?_ ..
    | with_reducible refine State.recordLost_kept ?_ ..
    | with_reducible refine State.raise_kept ?_ ..
    | with_reducible refine State.setPg_kept ?_ ..
    | with_reducible refine State.placeCounts_kept ?_ ..
    | split)

theorem State.peerAnswer_kept {s0 s : State} (h : Kept s0 s) (page : Nat) (k : Nat) (a0 : LineErr) :
    Kept s0 (State.peerAnswer s page k a0) := by
  unfold State.peerAnswer
  repeat' (first
    | with_reducible assumption
    | (extract_lets +onlyGivenNames x; clear_value x)
    | with_reducible refine State.loseTarget_kept ?_ ..
    | with_reducible refine State.losePage_kept ?_ ..
    | with_reducible refine State.setPg_kept ?_ ..
    | split)

theorem State.hostPoison_kept {s0 s : State} (h : Kept s0 s) (page : Nat) :
    Kept s0 (State.hostPoison s page) := by
  unfold State.hostPoison
  repeat' (first
    | with_reducible assumption
    | (extract_lets +onlyGivenNames x; first
          | (refine Kept.via x ?_ (fun hx => ?_); subst x; rotate_left; clear_value x)
          | clear_value x
          | skip)
    | with_reducible refine State.bump_kept ?_ ..
    | with_reducible refine State.raise_kept ?_ ..
    | with_reducible refine State.tickFree_kept ?_ ..
    | with_reducible refine State.setPg_kept ?_ ..)

theorem State.lastErr_kept {s0 s : State} (h : Kept s0 s) (id : Nat) (line : Nat) (ue : Bool) :
    Kept s0 (State.lastErr s id line ue) := by
  unfold State.lastErr
  repeat' (first
    | with_reducible assumption
    | (extract_lets +onlyGivenNames x; first
          | (refine Kept.via x ?_ (fun hx => ?_); subst x; rotate_left; clear_value x)
          | clear_value x)
    | with_reducible refine State.setF_kept ?_ ..)

theorem State.retireFrame_kept {s0 s : State} (h : Kept s0 s) (id : Nat) (r : Nat) :
    Kept s0 (State.retireFrame s id r) := by
  unfold State.retireFrame
  repeat' (first
    | with_reducible assumption
    | (extract_lets +onlyGivenNames x; first
          | (refine Kept.via x ?_ (fun hx => ?_); subst x; rotate_left; clear_value x)
          | (refine Kept.viaMem x rfl (fun hx => ?_); clear_value x)
          | clear_value x)
    | with_reducible refine State.setF_kept ?_ ..
    | with_reducible refine State.raise_kept ?_ ..
    | with_reducible exact Kept.upd (by assumption) (by assumption))

theorem State.frameCounts_kept {s0 s : State} (h : Kept s0 s) :
    Kept s0 (State.frameCounts s) := by
  unfold State.frameCounts
  repeat' (first
    | with_reducible assumption
    | (extract_lets +onlyGivenNames x; first
          | (refine Kept.via x ?_ (fun hx => ?_); subst x; rotate_left; clear_value x)
          | (have hx := fun a => x a; clear hx; subst x; beta_reduce)
          | skip)
    | with_reducible refine State.setF_kept ?_ ..
    | with_reducible refine Kept.foldl _ ?_ ?_
    | (intro _ _ _; beta_reduce))

theorem State.abandonTo_kept {s0 s : State} (h : Kept s0 s) (c : Nat) :
    Kept s0 (State.abandonTo s c) := by
  unfold State.abandonTo
  repeat' (first
    | with_reducible assumption
    | (extract_lets +onlyGivenNames x)
    | with_reducible refine State.abandonMove_kept ?_ ..
    | with_reducible refine Kept.foldl _ ?_ ?_
    | split
    | (intro _ _ _; beta_reduce))

theorem State.drainStart_kept {s0 s : State} (h : Kept s0 s) (c : Nat) (cause : Nat) (first : Option Nat) :
    Kept s0 (State.drainStart s c cause first) := by
  unfold State.drainStart
  repeat' (first
    | with_reducible assumption
    | (extract_lets +onlyGivenNames x; first
          | (refine Kept.via x ?_ (fun hx => ?_); subst x; rotate_left; clear_value x)
          | (refine Kept.viaMem x rfl (fun hx => ?_); clear_value x)
          | skip)
    | with_reducible refine State.frameCounts_kept ?_ ..
    | with_reducible refine State.setF_kept ?_ ..
    | with_reducible refine State.setOwn_kept ?_ ..
    | with_reducible refine State.drainStep_kept ?_ ..
    | with_reducible refine State.raise_kept ?_ ..
    | with_reducible refine State.abandonTo_kept ?_ ..
    | with_reducible refine State.placeCounts_kept ?_ ..
    | split
    | with_reducible exact Kept.upd (by assumption) (by assumption))

theorem State.tryRetire_kept {s0 s : State} (h : Kept s0 s) (id : Nat) :
    Kept s0 (State.tryRetire s id) := by
  unfold State.tryRetire
  repeat' (first
    | with_reducible assumption
    | (extract_lets +onlyGivenNames x; first
          | (refine Kept.via x ?_ (fun hx => ?_); subst x; rotate_left; clear_value x)
          | clear_value x
          | skip)
    | with_reducible refine State.startMove_kept ?_ ..
    | with_reducible refine State.retireFrame_kept ?_ ..
    | with_reducible refine State.drainStart_kept ?_ ..
    | with_reducible refine State.abandonMove_kept ?_ ..
    | split)

theorem State.markRetire_kept {s0 s : State} (h : Kept s0 s) (id : Nat) :
    Kept s0 (State.markRetire s id) := by
  unfold State.markRetire
  repeat' (first
    | with_reducible assumption
    | (extract_lets +onlyGivenNames x; first
          | (refine Kept.via x ?_ (fun hx => ?_); subst x; rotate_left; clear_value x)
          | (refine Kept.viaMem x rfl (fun hx => ?_); clear_value x)
          | skip)
    | with_reducible refine State.abandonMove_kept ?_ ..
    | with_reducible refine State.tryRetire_kept ?_ ..
    | with_reducible refine Kept.foldl _ ?_ ?_
    | (intro _ _ _; beta_reduce)
    | with_reducible exact Kept.upd (by assumption) (by assumption))

theorem State.lineCE_kept {s0 s : State} (h : Kept s0 s) (id : Nat) (line : Nat) :
    Kept s0 (State.lineCE s id line) := by
  unfold State.lineCE
  repeat' (first
    | with_reducible assumption
    | (extract_lets +onlyGivenNames x; first
          | (refine Kept.via x ?_ (fun hx => ?_); subst x; rotate_left; clear_value x)
          | (refine Kept.viaMem x rfl (fun hx => ?_); clear_value x)
          | clear_value x
          | skip)
    | with_reducible refine State.bump_kept ?_ ..
    | with_reducible refine State.lastErr_kept ?_ ..
    | with_reducible refine State.addPair_kept ?_ ..
    | with_reducible refine State.markRetire_kept ?_ ..
    | with_reducible refine State.raise_kept ?_ ..
    | split
    | with_reducible exact Kept.upd (by assumption) (by assumption))

theorem State.lineUE_kept {s0 s : State} (h : Kept s0 s) (id : Nat) (line : Nat) :
    Kept s0 (State.lineUE s id line) := by
  unfold State.lineUE
  repeat' (first
    | with_reducible assumption
    | (extract_lets +onlyGivenNames x; first
          | (refine Kept.via x ?_ (fun hx => ?_); subst x; rotate_left; clear_value x)
          | (refine Kept.viaMem x rfl (fun hx => ?_); clear_value x)
          | clear_value x
          | skip)
    | with_reducible refine State.bump_kept ?_ ..
    | with_reducible refine State.setF_kept ?_ ..
    | with_reducible refine State.lastErr_kept ?_ ..
    | with_reducible refine State.drainStart_kept ?_ ..
    | with_reducible refine State.markRetire_kept ?_ ..
    | with_reducible refine State.raise_kept ?_ ..
    | with_reducible refine State.losePage_kept ?_ ..
    | split
    | with_reducible exact Kept.upd (by assumption) (by assumption))

theorem State.frameErr_kept {s0 s : State} (h : Kept s0 s) (id : Nat) (line : Nat) (a0 : LineErr) :
    Kept s0 (State.frameErr s id line a0) := by
  unfold State.frameErr
  repeat' (first
    | with_reducible assumption
    | with_reducible refine State.lineCE_kept ?_ ..
    | with_reducible refine State.lineUE_kept ?_ ..
    | split)

theorem State.findErrs_kept {s0 s : State} (h : Kept s0 s) (errs : LineErrs) :
    Kept s0 (State.findErrs s errs) := by
  unfold State.findErrs
  repeat' (first
    | with_reducible assumption
    | (extract_lets +onlyGivenNames x; first
          | clear_value x
          | skip)
    | with_reducible refine State.peerAnswer_kept ?_ ..
    | with_reducible refine State.hostPoison_kept ?_ ..
    | with_reducible refine State.frameErr_kept ?_ ..
    | with_reducible refine Kept.foldl _ ?_ ?_
    | split
    | (intro _ _ _; beta_reduce))

theorem State.findRmw_kept {s0 s : State} (h : Kept s0 s) (addr : Nat) (n : Nat) (errs : LineErrs) :
    Kept s0 (State.findRmw s addr n errs) := by
  unfold State.findRmw
  repeat' (first
    | with_reducible assumption
    | with_reducible refine State.findErrs_kept ?_ ..)

theorem State.lineWritten_kept {s0 s : State} (h : Kept s0 s) (id : Nat) (line : Nat) :
    Kept s0 (State.lineWritten s id line) := by
  unfold State.lineWritten
  repeat' (first
    | with_reducible assumption
    | (extract_lets +onlyGivenNames x; first
          | (refine Kept.via x ?_ (fun hx => ?_); subst x; rotate_left; clear_value x)
          | (refine Kept.viaMem x rfl (fun hx => ?_); clear_value x)
          | clear_value x)
    | with_reducible refine State.setF_kept ?_ ..
    | with_reducible refine State.drainStep_kept ?_ ..
    | with_reducible refine State.tryRetire_kept ?_ ..
    | split
    | with_reducible exact Kept.upd (by assumption) (by assumption))

theorem State.markLine_kept {s0 s : State} (h : Kept s0 s) (r : PgRef) (line : Nat) :
    Kept s0 (State.markLine s r line) := by
  unfold State.markLine
  repeat' (first
    | with_reducible assumption
    | (extract_lets +onlyGivenNames x; first
          | (have hx := fun a => x a; clear hx; subst x; beta_reduce)
          | clear_value x
          | skip)
    | with_reducible refine State.tickFree_kept ?_ ..
    | with_reducible refine State.setPg_kept ?_ ..
    | split)

theorem State.awayWrite_kept {s0 s : State} (h : Kept s0 s) (addr : Nat) (bs : List Byte) :
    Kept s0 (State.awayWrite s addr bs) := by
  unfold State.awayWrite
  repeat' (first
    | with_reducible assumption
    | (extract_lets +onlyGivenNames x; clear_value x)
    | with_reducible refine State.holdAccess_kept ?_ ..
    | with_reducible refine State.writeAt_kept ?_ ..
    | split)

theorem State.writeLine_kept {s0 s : State} (h : Kept s0 s) (q : Req) (addr : Nat) (bs : List Byte) :
    Kept s0 (State.writeLine s q addr bs).1 := by
  unfold State.writeLine
  repeat' (first
    | with_reducible assumption
    | with_reducible refine Kept.updMem (by assumption) (fun w => Memory.wf_writeBytes _ w _)
    | (extract_lets +onlyGivenNames x; first
          | (refine Kept.via x ?_ (fun hx => ?_); subst x; rotate_left; clear_value x)
          | (refine Kept.viaMem x rfl (fun hx => ?_); clear_value x)
          | clear_value x
          | skip)
    | with_reducible refine State.countBytes_kept ?_ ..
    | with_reducible refine State.countAccess_kept ?_ ..
    | with_reducible refine State.lineWritten_kept ?_ ..
    | with_reducible refine State.markLine_kept ?_ ..
    | with_reducible refine State.awayWrite_kept ?_ ..
    | split)

theorem State.writeLines_kept {s0 s : State} (h : Kept s0 s) (q : Req) (addr : Nat) (bs : List Byte) (a0 : Nat) :
    Kept s0 (State.writeLines s q addr bs a0).1 := by
  induction a0 generalizing s q addr bs with
  | zero =>
    unfold State.writeLines
    repeat' (with_reducible assumption)
  | succ n ih =>
    unfold State.writeLines
    repeat' (first
      | with_reducible assumption
      | (extract_lets +onlyGivenNames x; first
            | clear_value x
            | skip)
      | with_reducible refine ih ?_ ..
      | with_reducible refine State.writeLine_kept ?_ ..
      | (split <;> first
            | (rename_i e; refine Kept.viaFst e ?_ (fun _ => ?_))
            | skip))

theorem State.writeMem_kept {s0 s : State} (h : Kept s0 s) (q : Req) (addr : Nat) (bs : List Byte) :
    Kept s0 (State.writeMem s q addr bs).1 := by
  unfold State.writeMem
  repeat' (first
    | with_reducible assumption
    | with_reducible refine State.writeLines_kept ?_ ..)

theorem State.writeWhole_kept {s0 s : State} (h : Kept s0 s) (q : Req) (addr : Nat) (bs : List Byte) :
    Kept s0 (State.writeWhole s q addr bs).1 := by
  unfold State.writeWhole
  repeat' (first
    | with_reducible assumption
    | (extract_lets +onlyGivenNames x; clear_value x)
    | with_reducible refine State.writeMem_kept ?_ ..
    | split)

theorem State.emptyUe_kept {s0 s : State} (h : Kept s0 s) (c : Nat) :
    Kept s0 (State.emptyUe s c) := by
  unfold State.emptyUe
  repeat' (first
    | with_reducible assumption
    | (extract_lets +onlyGivenNames x; first
          | (refine Kept.via x ?_ (fun hx => ?_); subst x; rotate_left; clear_value x)
          | (refine Kept.viaMem x rfl (fun hx => ?_); clear_value x))
    | with_reducible refine State.setF_kept ?_ ..
    | with_reducible exact Kept.upd (by assumption) (by assumption))

theorem State.retireWaiting_kept {s0 s : State} (h : Kept s0 s) (c : Nat) :
    Kept s0 (State.retireWaiting s c) := by
  unfold State.retireWaiting
  repeat' (first
    | with_reducible assumption
    | (extract_lets +onlyGivenNames x)
    | with_reducible refine State.tryRetire_kept ?_ ..
    | with_reducible refine Kept.foldl _ ?_ ?_
    | (intro _ _ _; beta_reduce))

theorem State.copyMarked_kept {s0 s : State} (h : Kept s0 s) (r : PgRef) (lines : List Nat) :
    Kept s0 (State.copyMarked s r lines) := by
  unfold State.copyMarked
  repeat' (first
    | with_reducible assumption
    | with_reducible refine State.copyPeer_kept ?_ ..
    | split)

theorem State.chanOut_kept {s0 s : State} (h : Kept s0 s) (c : Nat) (st : Nat) :
    Kept s0 (State.chanOut s c st) := by
  unfold State.chanOut
  repeat' (first
    | with_reducible assumption
    | (extract_lets +onlyGivenNames x; first
          | (refine Kept.via x ?_ (fun hx => ?_); subst x; rotate_left; clear_value x)
          | (refine Kept.viaMem x rfl (fun hx => ?_); clear_value x)
          | clear_value x
          | skip)
    | with_reducible refine State.frameCounts_kept ?_ ..
    | with_reducible refine State.setF_kept ?_ ..
    | with_reducible refine State.setOwn_kept ?_ ..
    | with_reducible refine State.raise_kept ?_ ..
    | with_reducible refine State.placeCounts_kept ?_ ..
    | split
    | with_reducible exact Kept.upd (by assumption) (by assumption))

theorem State.chanFail_kept {s0 s : State} (h : Kept s0 s) (c : Nat) :
    Kept s0 (State.chanFail s c) := by
  unfold State.chanFail
  repeat' (first
    | with_reducible assumption
    | (extract_lets +onlyGivenNames x; first
          | (refine Kept.via x ?_ (fun hx => ?_); subst x; rotate_left; clear_value x)
          | skip)
    | with_reducible refine State.setF_kept ?_ ..
    | with_reducible refine State.losePage_kept ?_ ..
    | with_reducible refine State.abandonTo_kept ?_ ..
    | with_reducible refine State.chanOut_kept ?_ ..
    | with_reducible refine Kept.foldl _ ?_ ?_
    | split
    | (intro _ _ _; beta_reduce))

end Sys2Proof.Machine
end

