-- ==== Sys2Proof/Laws/KeptPortOps.lean ====
section
/-! SUPPORT. Each operation and meaning of Machine/PortOps.lean keeps what every command keeps (Safety.lean). -/

set_option Elab.async false
set_option linter.tactic.unusedName false
set_option linter.unusedTactic false

namespace Sys2Proof.Machine

open Sys2Proof

theorem State.wakePort_kept {s0 s : State} (h : Kept s0 s) (p : Fin 16) :
    Kept s0 (State.wakePort s p) := by
  unfold State.wakePort
  repeat' (first
    | with_reducible assumption
    | (extract_lets +onlyGivenNames x)
    | with_reducible refine State.setF_kept ?_ ..
    | with_reducible refine State.emit_kept ?_ ..
    | split)

theorem State.setLink_kept {s0 s : State} (h : Kept s0 s) (p : Fin 16) (l : LinkSt) :
    Kept s0 (State.setLink s p l) := by
  unfold State.setLink
  repeat' (with_reducible exact Kept.upd (by assumption) rfl)

theorem State.sendFlit_kept {s0 s : State} (h : Kept s0 s) (p : Fin 16) (o : Out) :
    Kept s0 (State.sendFlit s p o) := by
  unfold State.sendFlit
  repeat' (first
    | with_reducible assumption
    | (extract_lets +onlyGivenNames x; first
          | clear_value x
          | skip)
    | with_reducible refine State.wakePort_kept ?_ ..
    | with_reducible refine State.setLink_kept ?_ ..
    | with_reducible refine State.emit_kept ?_ ..
    | split)

theorem State.sendLink_kept {s0 s : State} (h : Kept s0 s) (p : Fin 16) (ltype : Nat) (nak : Bool) (body : Nat) :
    Kept s0 (State.sendLink s p ltype nak body) := by
  unfold State.sendLink
  repeat' (first
    | with_reducible assumption
    | with_reducible refine State.sendFlit_kept ?_ ..)

theorem State.showStep_kept {s0 s : State} (h : Kept s0 s) (p : Fin 16) (step : Nat) :
    Kept s0 (State.showStep s p step) := by
  unfold State.showStep
  repeat' (first
    | with_reducible assumption
    | (extract_lets +onlyGivenNames x; first
          | (refine Kept.via x ?_ (fun hx => ?_); subst x; rotate_left; clear_value x)
          | clear_value x)
    | with_reducible refine State.setF_kept ?_ ..
    | with_reducible refine State.setLink_kept ?_ ..)

theorem State.portLost_kept {s0 s : State} (h : Kept s0 s) (p : Fin 16) (n : Nat) :
    Kept s0 (State.portLost s p n) := by
  unfold State.portLost
  repeat' (first
    | with_reducible assumption
    | (extract_lets +onlyGivenNames x)
    | with_reducible refine State.bumpBy_kept ?_ ..
    | with_reducible refine State.raise_kept ?_ ..
    | split)

theorem State.syncRefuse_kept {s0 s : State} (h : Kept s0 s) (h : Fin 2) :
    Kept s0 (State.syncRefuse s h) := by
  unfold State.syncRefuse
  repeat' (first
    | with_reducible assumption
    | (extract_lets +onlyGivenNames x)
    | with_reducible refine State.bump_kept ?_ ..
    | with_reducible refine State.raise_kept ?_ ..)

theorem State.sendFrag_kept {s0 s : State} (h : Kept s0 s) (c : Nat) (m : PartialMsg) :
    Kept s0 (State.sendFrag s c m) := by
  unfold State.sendFrag
  repeat' (first
    | with_reducible assumption
    | (extract_lets +onlyGivenNames x; clear_value x)
    | with_reducible refine State.sendMessage_kept ?_ ..
    | split)

theorem State.syncEmit_kept {s0 s : State} (h : Kept s0 s) (p : Fin 16) (q : QSync) :
    Kept s0 (State.syncEmit s p q) := by
  unfold State.syncEmit
  repeat' (first
    | with_reducible assumption
    | (extract_lets +onlyGivenNames x; first
          | (refine Kept.via x ?_ (fun hx => ?_); subst x; rotate_left; clear_value x)
          | clear_value x
          | skip)
    | with_reducible refine State.wakePort_kept ?_ ..
    | with_reducible refine State.setLink_kept ?_ ..
    | with_reducible refine State.emit_kept ?_ ..)

theorem State.syncFlit_kept {s0 s : State} (h : Kept s0 s) (p : Fin 16) (lseq : Nat) (lnak : Bool) (m : SyncMsg) :
    Kept s0 (State.syncFlit s p lseq lnak m) := by
  unfold State.syncFlit
  repeat' (first
    | with_reducible assumption
    | with_reducible refine State.syncEmit_kept ?_ ..
    | with_reducible refine State.setLink_kept ?_ ..
    | split)

theorem State.sendSync_kept {s0 s : State} (h : Kept s0 s) (p : Fin 16) (m : SyncMsg) :
    Kept s0 (State.sendSync s p m) := by
  unfold State.sendSync
  repeat' (first
    | with_reducible assumption
    | (extract_lets +onlyGivenNames x; first
          | (refine Kept.via x ?_ (fun hx => ?_); subst x; rotate_left; clear_value x)
          | clear_value x)
    | with_reducible refine State.syncFlit_kept ?_ ..
    | with_reducible refine State.setLink_kept ?_ ..
    | split)

theorem State.setDrove_kept {s0 s : State} (h : Kept s0 s) (v : Nat) :
    Kept s0 (State.setDrove s v) := by
  unfold State.setDrove
  repeat' (first
    | with_reducible assumption
    | (extract_lets +onlyGivenNames x; first
          | (refine Kept.via x ?_ (fun hx => ?_); subst x; rotate_left; clear_value x)
          | clear_value x)
    | with_reducible refine State.setF_kept ?_ ..
    | with_reducible refine State.raise_kept ?_ ..
    | split)

theorem State.elect_kept {s0 s : State} (h : Kept s0 s) :
    Kept s0 (State.elect s) := by
  unfold State.elect
  repeat' (first
    | with_reducible assumption
    | (extract_lets +onlyGivenNames x; first
          | (refine Kept.via x ?_ (fun hx => ?_); subst x; rotate_left; clear_value x)
          | clear_value x)
    | with_reducible refine State.setDrove_kept ?_ ..
    | with_reducible refine State.setF_kept ?_ ..
    | with_reducible refine State.raise_kept ?_ ..
    | with_reducible refine State.setPair_kept ?_ ..
    | split
    | with_reducible exact Kept.upd (by assumption) rfl)

theorem State.sendFrame_kept {s0 s : State} (h : Kept s0 s) (p : Fin 16) :
    Kept s0 (State.sendFrame s p) := by
  unfold State.sendFrame
  repeat' (first
    | with_reducible assumption
    | with_reducible refine State.emit_kept ?_ ..
    | split)

theorem State.routesLost_kept {s0 s : State} (h : Kept s0 s) (old : State) :
    Kept s0 (State.routesLost s old) := by
  unfold State.routesLost
  repeat' (first
    | with_reducible assumption
    | (extract_lets +onlyGivenNames x)
    | with_reducible refine State.loseTarget_kept ?_ ..
    | with_reducible refine Kept.foldl _ ?_ ?_
    | split
    | (intro _ _ _; beta_reduce))

theorem State.pumpSync_kept {s0 s : State} (h : Kept s0 s) (p : Fin 16) (a0 : Nat) :
    Kept s0 (State.pumpSync s p a0) := by
  induction a0 generalizing s p with
  | zero =>
    unfold State.pumpSync
    repeat' (with_reducible assumption)
  | succ n ih =>
    unfold State.pumpSync
    repeat' (first
      | with_reducible assumption
      | (extract_lets +onlyGivenNames x; first
            | clear_value x
            | skip)
      | with_reducible refine ih ?_ ..
      | with_reducible refine State.setLink_kept ?_ ..
      | with_reducible refine State.sendSync_kept ?_ ..
      | split)

theorem State.judgeAdmit_kept {s0 s : State} (h : Kept s0 s) (p : Fin 16) (seesUs : Bool) :
    Kept s0 (State.judgeAdmit s p seesUs) := by
  unfold State.judgeAdmit
  repeat' (first
    | with_reducible assumption
    | (extract_lets +onlyGivenNames x; first
          | (refine Kept.via x ?_ (fun hx => ?_); subst x; rotate_left; clear_value x)
          | clear_value x
          | skip)
    | with_reducible refine State.routesLost_kept ?_ ..
    | with_reducible refine State.setF_kept ?_ ..
    | with_reducible refine State.elect_kept ?_ ..
    | with_reducible refine State.pumpSync_kept ?_ ..
    | with_reducible refine State.raise_kept ?_ ..
    | with_reducible refine State.setLink_kept ?_ ..
    | split)

theorem State.readmit_kept {s0 s : State} (h : Kept s0 s) (p : Fin 16) :
    Kept s0 (State.readmit s p) := by
  unfold State.readmit
  repeat' (first
    | with_reducible assumption
    | with_reducible refine State.judgeAdmit_kept ?_ ..)

theorem State.endLoop_kept {s0 s : State} (h : Kept s0 s) (p : Fin 16) :
    Kept s0 (State.endLoop s p) := by
  unfold State.endLoop
  repeat' (first
    | with_reducible assumption
    | (extract_lets +onlyGivenNames x; first
          | (refine Kept.via x ?_ (fun hx => ?_); subst x; rotate_left; clear_value x)
          | clear_value x
          | skip)
    | with_reducible refine State.setF_kept ?_ ..
    | with_reducible refine State.sendFrame_kept ?_ ..
    | with_reducible refine State.readmit_kept ?_ ..
    | with_reducible refine State.setLink_kept ?_ ..)

theorem State.detour_kept {s0 s : State} (h : Kept s0 s) (m : PartialMsg) :
    Kept s0 (State.detour s m) := by
  unfold State.detour
  repeat' (first
    | with_reducible assumption
    | (extract_lets +onlyGivenNames x; clear_value x)
    | with_reducible refine State.sendFrag_kept ?_ ..
    | split)

theorem State.toStep1_kept {s0 s : State} (h : Kept s0 s) (p : Fin 16) :
    Kept s0 (State.toStep1 s p) := by
  unfold State.toStep1
  repeat' (first
    | with_reducible assumption
    | (extract_lets +onlyGivenNames x; first
          | (refine Kept.via x ?_ (fun hx => ?_); subst x; rotate_left; clear_value x)
          | clear_value x
          | skip)
    | with_reducible refine State.setF_kept ?_ ..
    | with_reducible refine State.sendFrame_kept ?_ ..
    | with_reducible refine State.showStep_kept ?_ ..
    | with_reducible refine State.setLink_kept ?_ ..
    | with_reducible refine State.portLost_kept ?_ ..
    | split)

theorem State.carriedNow_kept {s0 s : State} (h : Kept s0 s) (p : Fin 16) :
    Kept s0 (State.carriedNow s p) := by
  unfold State.carriedNow
  repeat' (first
    | with_reducible assumption
    | (extract_lets +onlyGivenNames x; clear_value x)
    | with_reducible refine State.setLink_kept ?_ ..)

theorem State.detourAll_kept {s0 s : State} (h : Kept s0 s) (p : Fin 16) :
    Kept s0 (State.detourAll s p) := by
  unfold State.detourAll
  repeat' (first
    | with_reducible assumption
    | (extract_lets +onlyGivenNames x; first
          | (refine Kept.via x ?_ (fun hx => ?_); subst x; rotate_left; clear_value x)
          | (have hx := fun a => x a; clear hx; subst x; beta_reduce)
          | clear_value x
          | skip)
    | with_reducible refine State.detour_kept ?_ ..
    | with_reducible refine State.setLink_kept ?_ ..
    | with_reducible refine Kept.foldl _ ?_ ?_
    | (intro _ _ _; beta_reduce))

theorem State.linkDrop_kept {s0 s : State} (h : Kept s0 s) (p : Fin 16) (cause : Nat) :
    Kept s0 (State.linkDrop s p cause) := by
  unfold State.linkDrop
  repeat' (first
    | with_reducible assumption
    | (extract_lets +onlyGivenNames x; first
          | (refine Kept.via x ?_ (fun hx => ?_); subst x; rotate_left; clear_value x)
          | clear_value x
          | skip)
    | with_reducible refine State.bump_kept ?_ ..
    | with_reducible refine State.setF_kept ?_ ..
    | with_reducible refine State.toStep1_kept ?_ ..
    | with_reducible refine State.carriedNow_kept ?_ ..
    | with_reducible refine State.raise_kept ?_ ..
    | with_reducible refine State.readmit_kept ?_ ..
    | with_reducible refine State.detourAll_kept ?_ ..
    | split)

theorem State.retrainFor_kept {s0 s : State} (h : Kept s0 s) (p : Fin 16) (cause : Nat) :
    Kept s0 (State.retrainFor s p cause) := by
  unfold State.retrainFor
  repeat' (first
    | with_reducible assumption
    | (extract_lets +onlyGivenNames x)
    | with_reducible refine State.setF_kept ?_ ..
    | with_reducible refine State.toStep1_kept ?_ ..
    | with_reducible refine State.linkDrop_kept ?_ ..
    | split)

theorem State.rxWake_kept {s0 s : State} (h : Kept s0 s) (p : Fin 16) :
    Kept s0 (State.rxWake s p) := by
  unfold State.rxWake
  repeat' (first
    | with_reducible assumption
    | with_reducible refine State.setF_kept ?_ ..)

theorem State.fromSelf_kept {s0 s : State} (h : Kept s0 s) (p : Fin 16) (is : List Byte → Bool) :
    KeptOpt s0 (State.fromSelf s p is) := by
  unfold State.fromSelf
  repeat' (first
    | with_reducible assumption
    | (extract_lets +onlyGivenNames x; first
          | clear_value x
          | skip)
    | with_reducible refine State.setLink_kept ?_ ..
    | with_reducible exact KeptOpt.none
    | with_reducible refine KeptOpt.some ?_
    | split)

theorem State.violate_kept {s0 s : State} (h : Kept s0 s) (p : Fin 16) (code : Nat) (vc : Nat) (dnum : Nat) :
    Kept s0 (State.violate s p code vc dnum) := by
  unfold State.violate
  repeat' (first
    | with_reducible assumption
    | (extract_lets +onlyGivenNames x; first
          | (refine Kept.via x ?_ (fun hx => ?_); subst x; rotate_left; clear_value x)
          | clear_value x
          | skip)
    | with_reducible refine State.bump_kept ?_ ..
    | with_reducible refine State.setF_kept ?_ ..
    | with_reducible refine State.raise_kept ?_ ..
    | with_reducible refine State.readmit_kept ?_ ..
    | with_reducible refine State.sendLink_kept ?_ ..
    | with_reducible refine State.setLink_kept ?_ ..
    | split)

theorem State.sendCredit_kept {s0 s : State} (h : Kept s0 s) (p : Fin 16) :
    Kept s0 (State.sendCredit s p) := by
  unfold State.sendCredit
  repeat' (first
    | with_reducible assumption
    | (extract_lets +onlyGivenNames x; first
          | (refine Kept.via x ?_ (fun hx => ?_); subst x; rotate_left; clear_value x)
          | clear_value x)
    | with_reducible refine State.sendLink_kept ?_ ..
    | with_reducible refine State.setLink_kept ?_ ..)

theorem State.creditDue_kept {s0 s : State} (h : Kept s0 s) (p : Fin 16) :
    Kept s0 (State.creditDue s p) := by
  unfold State.creditDue
  repeat' (first
    | with_reducible assumption
    | with_reducible refine State.sendCredit_kept ?_ ..
    | split)

theorem State.setLaser_kept {s0 s : State} (h : Kept s0 s) (p : Fin 16) (n : Nat) (v : Nat) :
    Kept s0 (State.setLaser s p n v) := by
  unfold State.setLaser
  repeat' (first
    | with_reducible assumption
    | with_reducible refine State.setF_kept ?_ ..)

theorem State.resendSync_kept {s0 s : State} (h : Kept s0 s) (p : Fin 16) :
    Kept s0 (State.resendSync s p) := by
  unfold State.resendSync
  repeat' (first
    | with_reducible assumption
    | (extract_lets +onlyGivenNames x)
    | with_reducible refine State.bump_kept ?_ ..
    | with_reducible refine State.syncFlit_kept ?_ ..
    | with_reducible refine Kept.foldl _ ?_ ?_
    | split
    | (intro _ _ _; beta_reduce))

theorem State.syncAcked_kept {s0 s : State} (h : Kept s0 s) (p : Fin 16) (h : SHdr) :
    Kept s0 (State.syncAcked s p h) := by
  unfold State.syncAcked
  repeat' (first
    | with_reducible assumption
    | (extract_lets +onlyGivenNames x; first
          | (refine Kept.via x ?_ (fun hx => ?_); subst x; rotate_left; clear_value x)
          | clear_value x
          | skip)
    | with_reducible refine State.rxWake_kept ?_ ..
    | with_reducible refine State.pumpSync_kept ?_ ..
    | with_reducible refine State.setLink_kept ?_ ..
    | with_reducible refine State.resendSync_kept ?_ ..
    | split)

theorem State.penFree_kept {s0 s : State} (h : Kept s0 s) (p : Fin 16) (v : Nat) (n : Nat) :
    Kept s0 (State.penFree s p v n) := by
  unfold State.penFree
  repeat' (first
    | with_reducible assumption
    | (extract_lets +onlyGivenNames x; first
          | clear_value x
          | skip)
    | with_reducible refine State.creditDue_kept ?_ ..
    | with_reducible refine State.setLink_kept ?_ ..)

theorem State.relink_kept {s0 s : State} (h : Kept s0 s) (p : Fin 16) (cause : Nat) :
    Kept s0 (State.relink s p cause) := by
  unfold State.relink
  repeat' (first
    | with_reducible assumption
    | with_reducible refine State.toStep1_kept ?_ ..
    | with_reducible refine State.linkDrop_kept ?_ ..
    | split)

theorem State.syncTake_kept {s0 s : State} (h : Kept s0 s) (p : Fin 16) (h : SHdr) :
    Kept s0 (State.syncTake s p h).1 := by
  unfold State.syncTake
  repeat' (first
    | with_reducible assumption
    | (extract_lets +onlyGivenNames x; first
          | (refine Kept.via x ?_ (fun hx => ?_); subst x; rotate_left; clear_value x)
          | clear_value x)
    | with_reducible refine State.syncAcked_kept ?_ ..
    | with_reducible refine State.syncRefuse_kept ?_ ..
    | with_reducible refine State.syncFlit_kept ?_ ..
    | with_reducible refine State.setLink_kept ?_ ..
    | split)

theorem State.sendPacket_kept {s0 s : State} (h : Kept s0 s) (p : Fin 16) (v : Nat) (pk : Packet) :
    Kept s0 (State.sendPacket s p v pk) := by
  unfold State.sendPacket
  repeat' (first
    | with_reducible assumption
    | (extract_lets +onlyGivenNames x; first
          | (refine Kept.via x ?_ (fun hx => ?_); subst x; rotate_left; clear_value x)
          | clear_value x
          | skip)
    | with_reducible refine State.sendFlit_kept ?_ ..
    | with_reducible refine State.setLink_kept ?_ ..
    | with_reducible refine Kept.foldl _ ?_ ?_
    | (intro _ _ _; beta_reduce))

end Sys2Proof.Machine
end

