-- ==== Sys2Proof/Laws/KeptSyncOps.lean ====
section
/-! SUPPORT. Each operation and meaning of Machine/SyncOps.lean keeps what every command keeps (Safety.lean). -/

set_option Elab.async false
set_option linter.tactic.unusedName false
set_option linter.unusedTactic false

namespace Sys2Proof.Machine

open Sys2Proof

theorem State.objMsi_kept {s0 s : State} (h : Kept s0 s) (o : Nat) :
    Kept s0 (State.objMsi s o) := by
  unfold State.objMsi
  repeat' (first
    | with_reducible assumption
    | with_reducible refine State.raiseVector_kept ?_ ..
    | split)

theorem State.setObj_kept {s0 s : State} (h : Kept s0 s) (o : Nat) (v : Obj) :
    Kept s0 (State.setObj s o v) := by
  unfold State.setObj
  repeat' (with_reducible exact Kept.upd (by assumption) rfl)

theorem State.wakeOne_kept {s0 s : State} (h : Kept s0 s) (w : Waiter) (status : Nat) :
    Kept s0 (State.wakeOne s w status) := by
  unfold State.wakeOne
  repeat' (first
    | with_reducible assumption
    | with_reducible refine State.emit_kept ?_ ..)

theorem State.wakeSem_kept {s0 s : State} (h : Kept s0 s) (o : Nat) (a0 : Nat) :
    Kept s0 (State.wakeSem s o a0) := by
  induction a0 generalizing s o with
  | zero =>
    unfold State.wakeSem
    repeat' (with_reducible assumption)
  | succ n ih =>
    unfold State.wakeSem
    repeat' (first
      | with_reducible assumption
      | (extract_lets +onlyGivenNames x; first
            | clear_value x
            | skip)
      | with_reducible refine ih ?_ ..
      | with_reducible refine State.setObj_kept ?_ ..
      | with_reducible refine State.wakeOne_kept ?_ ..
      | split)

theorem State.wake_kept {s0 s : State} (h : Kept s0 s) (o : Nat) :
    Kept s0 (State.wake s o) := by
  unfold State.wake
  repeat' (first
    | with_reducible assumption
    | (extract_lets +onlyGivenNames x; first
          | (refine Kept.via x ?_ (fun hx => ?_); subst x; rotate_left; clear_value x)
          | (have hx := fun a => x a; clear hx; subst x; beta_reduce)
          | clear_value x
          | skip)
    | with_reducible refine State.setObj_kept ?_ ..
    | with_reducible refine State.wakeOne_kept ?_ ..
    | with_reducible refine State.wakeSem_kept ?_ ..
    | with_reducible refine Kept.foldl _ ?_ ?_
    | split
    | (intro _ _ _; beta_reduce))

theorem State.genAdvance_kept {s0 s : State} (h : Kept s0 s) (o : Nat) :
    Kept s0 (State.genAdvance s o) := by
  unfold State.genAdvance
  repeat' (first
    | with_reducible assumption
    | (extract_lets +onlyGivenNames x; first
          | (refine Kept.via x ?_ (fun hx => ?_); subst x; rotate_left; clear_value x)
          | clear_value x
          | skip)
    | with_reducible refine State.objMsi_kept ?_ ..
    | with_reducible refine State.wake_kept ?_ ..
    | with_reducible refine State.setObj_kept ?_ ..
    | with_reducible refine State.raise_kept ?_ ..
    | with_reducible refine State.writeWhole_kept ?_ ..
    | (split <;> first
          | (rename_i e; refine Kept.viaFst e ?_ (fun _ => ?_))
          | skip))

theorem State.enterRounds_kept {s0 s : State} (h : Kept s0 s) (o : Nat) :
    Kept s0 (State.enterRounds s o) := by
  unfold State.enterRounds
  repeat' (first
    | with_reducible assumption
    | (extract_lets +onlyGivenNames x; clear_value x)
    | with_reducible refine State.setObj_kept ?_ ..)

theorem State.sendPartial_kept {s0 s : State} (h : Kept s0 s) (o : Nat) (w : Word) (result : Bool) :
    Kept s0 (State.sendPartial s o w result) := by
  unfold State.sendPartial
  repeat' (first
    | with_reducible assumption
    | (extract_lets +onlyGivenNames x; clear_value x)
    | with_reducible refine State.sendFrag_kept ?_ ..
    | with_reducible refine State.sendSync_kept ?_ ..
    | split)

theorem State.endRounds_kept {s0 s : State} (h : Kept s0 s) (o : Nat) :
    Kept s0 (State.endRounds s o) := by
  unfold State.endRounds
  repeat' (first
    | with_reducible assumption
    | (extract_lets +onlyGivenNames x; first
          | (refine Kept.via x ?_ (fun hx => ?_); subst x; rotate_left; clear_value x)
          | clear_value x)
    | with_reducible refine State.genAdvance_kept ?_ ..
    | with_reducible refine State.enterRounds_kept ?_ ..
    | split)

theorem State.runRounds_kept {s0 s : State} (h : Kept s0 s) (o : Nat) (a0 : Nat) :
    Kept s0 (State.runRounds s o a0) := by
  induction a0 generalizing s o with
  | zero =>
    unfold State.runRounds
    repeat' (with_reducible assumption)
  | succ n ih =>
    unfold State.runRounds
    repeat' (first
      | with_reducible assumption
      | (extract_lets +onlyGivenNames x; first
            | (refine Kept.via x ?_ (fun hx => ?_); subst x; rotate_left; clear_value x)
            | clear_value x
            | skip)
      | with_reducible refine ih ?_ ..
      | with_reducible refine State.setObj_kept ?_ ..
      | with_reducible refine State.sendPartial_kept ?_ ..
      | with_reducible refine State.endRounds_kept ?_ ..
      | split)

theorem State.rounds_kept {s0 s : State} (h : Kept s0 s) (o : Nat) :
    Kept s0 (State.rounds s o) := by
  unfold State.rounds
  repeat' (first
    | with_reducible assumption
    | with_reducible refine State.runRounds_kept ?_ ..)

theorem State.localDone_kept {s0 s : State} (h : Kept s0 s) (o : Nat) :
    Kept s0 (State.localDone s o) := by
  unfold State.localDone
  repeat' (first
    | with_reducible assumption
    | (extract_lets +onlyGivenNames x; first
          | clear_value x
          | skip)
    | with_reducible refine State.genAdvance_kept ?_ ..
    | with_reducible refine State.enterRounds_kept ?_ ..
    | with_reducible refine State.rounds_kept ?_ ..
    | split)

theorem State.signal_kept {s0 s : State} (h : Kept s0 s) (o : Nat) (n : Nat) (src : SyncSrc) (st : Nat) (fenced : Nat) :
    Kept s0 (State.signal s o n src st fenced).1 := by
  unfold State.signal
  repeat' (first
    | with_reducible assumption
    | (extract_lets +onlyGivenNames x; first
          | (refine Kept.via x ?_ (fun hx => ?_); subst x; rotate_left; clear_value x)
          | (refine Kept.via1 x ?_ (fun hx => ?_); subst x; rotate_left; clear_value x)
          | clear_value x
          | skip)
    | with_reducible refine State.objMsi_kept ?_ ..
    | with_reducible refine State.wake_kept ?_ ..
    | with_reducible refine State.setObj_kept ?_ ..
    | with_reducible refine State.syncRefuse_kept ?_ ..
    | with_reducible refine State.localDone_kept ?_ ..
    | split)

theorem State.takePartial_kept {s0 s : State} (h : Kept s0 s) (inPort : Option (Fin 16)) (m : PartialMsg) :
    Kept s0 (State.takePartial s inPort m) := by
  unfold State.takePartial
  repeat' (first
    | with_reducible assumption
    | (extract_lets +onlyGivenNames x; first
          | clear_value x
          | skip)
    | with_reducible refine State.setObj_kept ?_ ..
    | with_reducible refine State.syncRefuse_kept ?_ ..
    | with_reducible refine State.rounds_kept ?_ ..
    | split)

theorem State.clearObj_kept {s0 s : State} (h : Kept s0 s) (o : Nat) (src : SyncSrc) :
    Kept s0 (State.clearObj s o src).1 := by
  unfold State.clearObj
  repeat' (first
    | with_reducible assumption
    | (extract_lets +onlyGivenNames x; clear_value x)
    | with_reducible refine State.setObj_kept ?_ ..
    | with_reducible refine State.syncRefuse_kept ?_ ..
    | split)

theorem State.fenceObjs_kept {s0 s : State} (h : Kept s0 s) :
    Kept s0 (State.fenceObjs s) := by
  unfold State.fenceObjs
  repeat' (first
    | with_reducible assumption
    | (extract_lets +onlyGivenNames x; first
          | clear_value x
          | skip)
    | with_reducible refine State.enterRounds_kept ?_ ..
    | with_reducible refine State.rounds_kept ?_ ..
    | with_reducible refine Kept.foldl _ ?_ ?_
    | split
    | (intro _ _ _; beta_reduce))

theorem State.disarm_kept {s0 s : State} (h : Kept s0 s) (o : Nat) :
    Kept s0 (State.disarm s o) := by
  unfold State.disarm
  repeat' (first
    | with_reducible assumption
    | (extract_lets +onlyGivenNames x; first
          | (refine Kept.via x ?_ (fun hx => ?_); subst x; rotate_left; clear_value x)
          | clear_value x
          | skip)
    | with_reducible refine State.setObj_kept ?_ ..
    | with_reducible refine State.wakeOne_kept ?_ ..
    | with_reducible refine Kept.foldl _ ?_ ?_
    | (intro _ _ _; beta_reduce))

theorem State.armObj_kept {s0 s : State} (h : Kept s0 s) (o : Nat) :
    Kept s0 (State.armObj s o) := by
  unfold State.armObj
  repeat' (first
    | with_reducible assumption
    | (extract_lets +onlyGivenNames x; first
          | (refine Kept.via x ?_ (fun hx => ?_); subst x; rotate_left; clear_value x)
          | clear_value x
          | skip)
    | with_reducible refine State.setObj_kept ?_ ..
    | with_reducible refine State.disarm_kept ?_ ..
    | with_reducible refine State.raise_kept ?_ ..
    | with_reducible refine State.enterRounds_kept ?_ ..
    | with_reducible refine State.rounds_kept ?_ ..
    | with_reducible refine State.readMem_kept ?_ ..
    | (split <;> first
          | (rename_i e; refine Kept.viaFst e ?_ (fun _ => ?_))
          | skip))

theorem State.contrib_kept {s0 s : State} (h : Kept s0 s) (o : Nat) (src : SyncSrc) (data : List Byte) :
    Kept s0 (State.contrib s o src data).1 := by
  unfold State.contrib
  repeat' (first
    | with_reducible assumption
    | (extract_lets +onlyGivenNames x; first
          | (refine Kept.via x ?_ (fun hx => ?_); subst x; rotate_left; clear_value x)
          | clear_value x)
    | with_reducible refine State.setObj_kept ?_ ..
    | with_reducible refine State.syncRefuse_kept ?_ ..
    | with_reducible refine State.localDone_kept ?_ ..
    | split)

theorem State.setEvent_kept {s0 s : State} (h : Kept s0 s) (o : Nat) (src : SyncSrc) :
    Kept s0 (State.setEvent s o src).1 := by
  unfold State.setEvent
  repeat' (first
    | with_reducible assumption
    | (extract_lets +onlyGivenNames x; first
          | (refine Kept.via x ?_ (fun hx => ?_); subst x; rotate_left; clear_value x)
          | clear_value x
          | skip)
    | with_reducible refine State.objMsi_kept ?_ ..
    | with_reducible refine State.wake_kept ?_ ..
    | with_reducible refine State.setObj_kept ?_ ..
    | with_reducible refine State.syncRefuse_kept ?_ ..
    | split)

end Sys2Proof.Machine
end

