-- ==== Sys2Proof/Laws/KeptCeilOps.lean ====
section
/-! SUPPORT. Each operation and meaning of Machine/CeilOps.lean keeps what every command keeps (Safety.lean). -/

set_option Elab.async false
set_option linter.tactic.unusedName false
set_option linter.unusedTactic false

namespace Sys2Proof.Machine

open Sys2Proof

theorem State.setTile_kept {s0 s : State} (h : Kept s0 s) (d : Fin 4) (t : Fin 104) (x : Tile) :
    Kept s0 (State.setTile s d t x) := by
  unfold State.setTile
  repeat' (with_reducible exact Kept.upd (by assumption) rfl)

theorem State.showCeils_kept {s0 s : State} (h : Kept s0 s) (d : Fin 4) :
    Kept s0 (State.showCeils s d) := by
  unfold State.showCeils
  repeat' (first
    | with_reducible assumption
    | (extract_lets +onlyGivenNames x; first
          | (refine Kept.via x ?_ (fun hx => ?_); subst x; rotate_left; clear_value x)
          | clear_value x
          | skip)
    | with_reducible refine State.setF_kept ?_ ..
    | with_reducible refine Kept.foldl _ ?_ ?_
    | (intro _ _ _; beta_reduce))

theorem State.ceilsOf_kept {s0 s : State} (h : Kept s0 s) (d : Fin 4) :
    Kept s0 (State.ceilsOf s d) := by
  unfold State.ceilsOf
  repeat' (first
    | with_reducible assumption
    | (extract_lets +onlyGivenNames x; refine Kept.via x ?_ (fun hx => ?_); subst x; rotate_left; clear_value x)
    | with_reducible refine State.setF_kept ?_ ..
    | with_reducible refine State.showCeils_kept ?_ ..)

theorem State.setPw_kept {s0 s : State} (h : Kept s0 s) (p : PwrSt) :
    Kept s0 (State.setPw s p) := by
  unfold State.setPw
  repeat' (with_reducible exact Kept.upd (by assumption) rfl)

theorem State.holdCeils_kept {s0 s : State} (h : Kept s0 s) (to_ : Option Nat) :
    Kept s0 (State.holdCeils s to_) := by
  unfold State.holdCeils
  repeat' (first
    | (extract_lets +onlyGivenNames x; clear_value x)
    | with_reducible exact Kept.upd (by assumption) rfl)

theorem State.deferChange_kept {s0 s : State} (h : Kept s0 s) (d : Fin 4) (t : Fin 104) :
    Kept s0 (State.deferChange s d t) := by
  unfold State.deferChange
  repeat' (first
    | with_reducible assumption
    | (extract_lets +onlyGivenNames x; first
          | clear_value x
          | skip)
    | with_reducible refine State.bump_kept ?_ ..
    | with_reducible refine State.setTile_kept ?_ ..
    | split)

theorem State.stopFalls_kept {s0 s : State} (h : Kept s0 s) (old : State) :
    Kept s0 (State.stopFalls s old) := by
  unfold State.stopFalls
  repeat' (first
    | with_reducible assumption
    | (extract_lets +onlyGivenNames x; clear_value x)
    | with_reducible refine State.setPw_kept ?_ ..)

theorem State.ceilsFrom_kept {s0 s : State} (h : Kept s0 s) (old : State) :
    Kept s0 (State.ceilsFrom s old) := by
  unfold State.ceilsFrom
  repeat' (first
    | with_reducible assumption
    | (extract_lets +onlyGivenNames x; first
          | (refine Kept.via x ?_ (fun hx => ?_); subst x; rotate_left; clear_value x)
          | skip)
    | with_reducible refine State.deferChange_kept ?_ ..
    | with_reducible refine State.stopFalls_kept ?_ ..
    | with_reducible refine State.ceilsOf_kept ?_ ..
    | with_reducible refine Kept.foldl _ ?_ ?_
    | split
    | (intro _ _ _; beta_reduce))

theorem State.freeCeils_kept {s0 s : State} (h : Kept s0 s) :
    Kept s0 (State.freeCeils s) := by
  unfold State.freeCeils
  repeat' (first
    | with_reducible assumption
    | (extract_lets +onlyGivenNames x; first
          | (refine Kept.via x ?_ (fun hx => ?_); subst x; rotate_left; clear_value x)
          | clear_value x)
    | with_reducible refine State.ceilsFrom_kept ?_ ..
    | split
    | with_reducible exact Kept.upd (by assumption) rfl)

end Sys2Proof.Machine
end

