-- ==== Sys2Proof/Laws/KeptTaskOps.lean ====
section
/-! SUPPORT. Each operation and meaning of Machine/TaskOps.lean keeps what every command keeps (Safety.lean). -/

set_option Elab.async false
set_option linter.tactic.unusedName false
set_option linter.unusedTactic false

namespace Sys2Proof.Machine

open Sys2Proof

theorem State.setFails_kept {s0 s : State} (h : Kept s0 s) (d : Fin 4) (l : List Failing) :
    Kept s0 (State.setFails s d l) := by
  unfold State.setFails
  repeat' (with_reducible exact Kept.upd (by assumption) rfl)

theorem State.refreshCluster_kept {s0 s : State} (h : Kept s0 s) (d : Fin 4) (c : Fin 13) :
    Kept s0 (State.refreshCluster s d c) := by
  unfold State.refreshCluster
  repeat' (first
    | with_reducible assumption
    | (extract_lets +onlyGivenNames x; first
          | (refine Kept.via x ?_ (fun hx => ?_); subst x; rotate_left; clear_value x)
          | clear_value x)
    | with_reducible refine State.setF_kept ?_ ..
    | with_reducible refine State.setW_kept ?_ ..)

theorem State.setPool_kept {s0 s : State} (h : Kept s0 s) (p : Nat) (v : Pool) :
    Kept s0 (State.setPool s p v) := by
  unfold State.setPool
  repeat' (with_reducible exact Kept.upd (by assumption) rfl)

theorem State.ringRead_kept {s0 s : State} (h : Kept s0 s) (x : Pool) (n : Nat) :
    Kept s0 (State.ringRead s x n) := by
  unfold State.ringRead
  repeat' (first
    | with_reducible assumption
    | with_reducible refine State.readMem_kept ?_ ..)

theorem State.headArrives_kept {s0 s : State} (h : Kept s0 s) (p : Nat) :
    Kept s0 (State.headArrives s p) := by
  unfold State.headArrives
  repeat' (first
    | with_reducible assumption
    | (extract_lets +onlyGivenNames x; first
          | clear_value x
          | skip)
    | with_reducible refine State.setPool_kept ?_ ..
    | with_reducible refine State.ringRead_kept ?_ ..
    | split)

theorem State.lsWrite_kept {s0 s : State} (h : Kept s0 s) (d : Fin 4) (t : Fin 104) (a : Nat) (b : List Byte) :
    Kept s0 (State.lsWrite s d t a b) := by
  unfold State.lsWrite
  repeat' (first
    | with_reducible assumption
    | (extract_lets +onlyGivenNames x; clear_value x)
    | with_reducible refine State.setTile_kept ?_ ..)

theorem State.tileFailed_kept {s0 s : State} (h : Kept s0 s) (d : Fin 4) (t : Nat) :
    Kept s0 (State.tileFailed s d t) := by
  unfold State.tileFailed
  repeat' (first
    | with_reducible assumption
    | (extract_lets +onlyGivenNames x; refine Kept.via x ?_ (fun hx => ?_); subst x; rotate_left; clear_value x)
    | with_reducible refine State.setTileState_kept ?_ ..
    | with_reducible exact Kept.upd (by assumption) rfl)

theorem State.spareBad_kept {s0 s : State} (h : Kept s0 s) (d : Fin 4) (t : Nat) :
    Kept s0 (State.spareBad s d t) := by
  unfold State.spareBad
  repeat' (first
    | with_reducible assumption
    | (extract_lets +onlyGivenNames x; refine Kept.via x ?_ (fun hx => ?_); subst x; rotate_left; clear_value x)
    | with_reducible refine State.tileFailed_kept ?_ ..
    | with_reducible refine State.setF_kept ?_ ..
    | with_reducible refine State.raise_kept ?_ ..)

theorem State.tmcCount_kept {s0 s : State} (h : Kept s0 s) :
    Kept s0 (State.tmcCount s) := by
  unfold State.tmcCount
  repeat' (first
    | with_reducible assumption
    | (extract_lets +onlyGivenNames x; first
          | (refine Kept.via x ?_ (fun hx => ?_); subst x; rotate_left; clear_value x)
          | clear_value x
          | skip)
    | with_reducible refine State.setF_kept ?_ ..
    | with_reducible refine State.raise_kept ?_ ..
    | split
    | with_reducible exact Kept.upd (by assumption) rfl)

theorem State.requeue_kept {s0 s : State} (h : Kept s0 s) (x : Task) :
    Kept s0 (State.requeue s x) := by
  unfold State.requeue
  repeat' (first
    | with_reducible assumption
    | (extract_lets +onlyGivenNames x; first
          | (refine Kept.via x ?_ (fun hx => ?_); subst x; rotate_left; clear_value x)
          | clear_value x)
    | with_reducible refine State.bump_kept ?_ ..
    | with_reducible refine State.setPool_kept ?_ ..)

theorem State.dropWaits_kept {s0 s : State} (h : Kept s0 s) (d : Fin 4) (t : Fin 104) (k : Fin 2) :
    Kept s0 (State.dropWaits s d t k) := by
  unfold State.dropWaits
  repeat' (with_reducible exact Kept.upd (by assumption) rfl)

theorem State.stopOps_kept {s0 s : State} (h : Kept s0 s) (d : Fin 4) (t : Fin 104) (k : Fin 2) :
    Kept s0 (State.stopOps s d t k) := by
  unfold State.stopOps
  repeat' (first
    | with_reducible assumption
    | (extract_lets +onlyGivenNames x; first
          | clear_value x
          | skip)
    | with_reducible refine State.setTile_kept ?_ ..
    | with_reducible refine State.dropWaits_kept ?_ ..)

theorem State.drained_kept {s0 s : State} (h : Kept s0 s) (d : Fin 4) (t : Fin 104) :
    Kept s0 (State.drained s d t) := by
  unfold State.drained
  repeat' (first
    | with_reducible assumption
    | (extract_lets +onlyGivenNames x; clear_value x)
    | with_reducible refine State.setF_kept ?_ ..)

theorem State.setSlot_kept {s0 s : State} (h : Kept s0 s) (d : Fin 4) (t : Fin 104) (k : Fin 2) (v : Option Task) :
    Kept s0 (State.setSlot s d t k v) := by
  unfold State.setSlot
  repeat' (first
    | with_reducible assumption
    | (extract_lets +onlyGivenNames x; first
          | (refine Kept.via x ?_ (fun hx => ?_); subst x; rotate_left; clear_value x)
          | clear_value x)
    | with_reducible refine State.setF_kept ?_ ..
    | with_reducible refine State.setTile_kept ?_ ..
    | with_reducible refine State.drained_kept ?_ ..)

theorem State.engineDone_kept {s0 s : State} (h : Kept s0 s) (d : Fin 4) (t : Fin 104) :
    Kept s0 (State.engineDone s d t) := by
  unfold State.engineDone
  repeat' (first
    | with_reducible assumption
    | (extract_lets +onlyGivenNames x; first
          | clear_value x
          | skip)
    | with_reducible refine State.setF_kept ?_ ..
    | with_reducible refine State.setTile_kept ?_ ..
    | split)

theorem State.clearSlot_kept {s0 s : State} (h : Kept s0 s) (d : Fin 4) (t : Fin 104) (k : Fin 2) :
    Kept s0 (State.clearSlot s d t k) := by
  unfold State.clearSlot
  repeat' (first
    | with_reducible assumption
    | (extract_lets +onlyGivenNames x; first
          | (refine Kept.via x ?_ (fun hx => ?_); subst x; rotate_left; clear_value x)
          | clear_value x
          | skip)
    | with_reducible refine State.stopOps_kept ?_ ..
    | with_reducible refine State.setSlot_kept ?_ ..
    | with_reducible refine State.setTile_kept ?_ ..
    | with_reducible refine State.engineDone_kept ?_ ..
    | split
    | with_reducible exact Kept.upd (by assumption) rfl)

theorem State.finish_kept {s0 s : State} (h : Kept s0 s) (x : Task) (status : Nat) (cause : Nat) (die : Nat) (slot : Nat) (tslot : Nat) (at_ : Nat) (src : SyncSrc) (ran : Bool) :
    Kept s0 (State.finish s x status cause die slot tslot at_ src ran) := by
  unfold State.finish
  repeat' (first
    | with_reducible assumption
    | (extract_lets +onlyGivenNames x; first
          | (refine Kept.via x ?_ (fun hx => ?_); subst x; rotate_left; clear_value x)
          | clear_value x
          | skip)
    | with_reducible refine State.setF_kept ?_ ..
    | with_reducible refine State.raise_kept ?_ ..
    | with_reducible refine State.signal_kept ?_ ..
    | with_reducible refine State.raiseVector_kept ?_ ..
    | with_reducible refine State.setPool_kept ?_ ..
    | with_reducible refine State.writeWhole_kept ?_ ..
    | (split <;> first
          | (rename_i e; refine Kept.viaFst e ?_ (fun _ => ?_))
          | skip))

theorem State.finishRan_kept {s0 s : State} (h : Kept s0 s) (d : Fin 4) (t : Fin 104) (k : Fin 2) (slot : Nat) (x : Task) (e : TaskStop) :
    Kept s0 (State.finishRan s d t k slot x e) := by
  unfold State.finishRan
  repeat' (first
    | with_reducible assumption
    | with_reducible refine State.finish_kept ?_ ..)

theorem State.tellPartner_kept {s0 s : State} (h : Kept s0 s) (d : Fin 4) (t : Fin 104) (k : Fin 2) (status : Nat) :
    Kept s0 (State.tellPartner s d t k status) := by
  unfold State.tellPartner
  repeat' (first
    | with_reducible assumption
    | with_reducible refine State.setSlot_kept ?_ ..
    | split)

theorem State.endPaired_kept {s0 s : State} (h : Kept s0 s) (d : Fin 4) (t : Fin 104) (k : Fin 2) (x : Task) (status : Nat) (cause : Nat) :
    Kept s0 (State.endPaired s d t k x status cause) := by
  unfold State.endPaired
  repeat' (first
    | with_reducible assumption
    | (extract_lets +onlyGivenNames x; first
          | (refine Kept.via x ?_ (fun hx => ?_); subst x; rotate_left; clear_value x)
          | clear_value x
          | skip)
    | with_reducible refine State.stopOps_kept ?_ ..
    | with_reducible refine State.tellPartner_kept ?_ ..
    | with_reducible refine State.setSlot_kept ?_ ..
    | with_reducible refine State.requeue_kept ?_ ..
    | with_reducible refine State.clearSlot_kept ?_ ..
    | with_reducible refine State.finishRan_kept ?_ ..
    | split)

theorem State.endTask_kept {s0 s : State} (h : Kept s0 s) (d : Fin 4) (t : Fin 104) (k : Fin 2) (status : Nat) (cause : Nat) :
    Kept s0 (State.endTask s d t k status cause) := by
  unfold State.endTask
  repeat' (first
    | with_reducible assumption
    | (extract_lets +onlyGivenNames x)
    | with_reducible refine State.requeue_kept ?_ ..
    | with_reducible refine State.clearSlot_kept ?_ ..
    | with_reducible refine State.finishRan_kept ?_ ..
    | with_reducible refine State.endPaired_kept ?_ ..
    | split)

theorem State.endBoth_kept {s0 s : State} (h : Kept s0 s) (d : Fin 4) (t : Fin 104) (st : Fin 2 → Nat × Nat) :
    Kept s0 (State.endBoth s d t st) := by
  unfold State.endBoth
  repeat' (first
    | with_reducible assumption
    | (extract_lets +onlyGivenNames x; first
          | (refine Kept.via x ?_ (fun hx => ?_); subst x; rotate_left; clear_value x)
          | clear_value x
          | skip)
    | with_reducible refine State.requeue_kept ?_ ..
    | with_reducible refine State.clearSlot_kept ?_ ..
    | with_reducible refine State.finishRan_kept ?_ ..
    | with_reducible refine State.endTask_kept ?_ ..
    | split)

theorem State.failTile_kept {s0 s : State} (h : Kept s0 s) (d : Fin 4) (t : Fin 104) (cause : Nat) (own : Option (Fin 2 × Nat)) :
    Kept s0 (State.failTile s d t cause own) := by
  unfold State.failTile
  repeat' (first
    | with_reducible assumption
    | (extract_lets +onlyGivenNames x; first
          | (refine Kept.via x ?_ (fun hx => ?_); subst x; rotate_left; clear_value x)
          | (have hx := fun a => x a; clear hx; subst x; beta_reduce)
          | clear_value x
          | skip)
    | with_reducible refine State.tileFailed_kept ?_ ..
    | with_reducible refine State.setF_kept ?_ ..
    | with_reducible refine State.tmcCount_kept ?_ ..
    | with_reducible refine State.setFails_kept ?_ ..
    | with_reducible refine State.endBoth_kept ?_ ..
    | with_reducible refine State.setTile_kept ?_ ..
    | with_reducible refine State.ceilsOf_kept ?_ ..
    | with_reducible refine State.refreshCluster_kept ?_ ..
    | with_reducible refine Kept.foldl _ ?_ ?_
    | split
    | (intro _ _ _; beta_reduce))

theorem State.poolErr_kept {s0 s : State} (h : Kept s0 s) (p : Nat) (cause : Nat) :
    Kept s0 (State.poolErr s p cause) := by
  unfold State.poolErr
  repeat' (first
    | with_reducible assumption
    | (extract_lets +onlyGivenNames x; first
          | (refine Kept.via x ?_ (fun hx => ?_); subst x; rotate_left; clear_value x)
          | clear_value x)
    | with_reducible refine State.setF_kept ?_ ..
    | with_reducible refine State.raise_kept ?_ ..
    | with_reducible refine State.setPool_kept ?_ ..)

theorem State.doorbell_kept {s0 s : State} (h : Kept s0 s) (p : Nat) (n : Nat) :
    Kept s0 (State.doorbell s p n) := by
  unfold State.doorbell
  repeat' (first
    | with_reducible assumption
    | (extract_lets +onlyGivenNames x; first
          | (refine Kept.via x ?_ (fun hx => ?_); subst x; rotate_left; clear_value x)
          | clear_value x)
    | with_reducible refine State.poolErr_kept ?_ ..
    | with_reducible refine State.headArrives_kept ?_ ..
    | with_reducible refine State.setPool_kept ?_ ..
    | split)

theorem State.fillWindow_kept {s0 s : State} (h : Kept s0 s) (d : Fin 4) (t : Fin 104) (n : Nat) :
    Kept s0 (State.fillWindow s d t n) := by
  unfold State.fillWindow
  repeat' (first
    | with_reducible assumption
    | (extract_lets +onlyGivenNames x; first
          | (refine Kept.via x ?_ (fun hx => ?_); subst x; rotate_left; clear_value x)
          | clear_value x)
    | with_reducible refine State.setF_kept ?_ ..
    | with_reducible refine State.signal_kept ?_ ..)

theorem State.showWindows_kept {s0 s : State} (h : Kept s0 s) (d : Fin 4) (t : Fin 104) :
    Kept s0 (State.showWindows s d t) := by
  unfold State.showWindows
  repeat' (first
    | with_reducible assumption
    | (extract_lets +onlyGivenNames x; clear_value x)
    | with_reducible refine State.setF_kept ?_ ..)

theorem State.opFault_kept {s0 s : State} (h : Kept s0 s) (d : Fin 4) (t : Fin 104) (k : Fin 2) (status : Nat) :
    Kept s0 (State.opFault s d t k status) := by
  unfold State.opFault
  repeat' (first
    | with_reducible assumption
    | with_reducible refine State.endTask_kept ?_ ..
    | split)

theorem State.findRows_kept {s0 s : State} (h : Kept s0 s) (d : Fin 4) (t : Fin 104) (own : Option (Fin 2)) (errs : RowErrs) :
    Kept s0 (State.findRows s d t own errs) := by
  unfold State.findRows
  repeat' (first
    | with_reducible assumption
    | (extract_lets +onlyGivenNames x; first
          | (refine Kept.via x ?_ (fun hx => ?_); subst x; rotate_left; clear_value x)
          | clear_value x
          | skip)
    | with_reducible refine State.bump_kept ?_ ..
    | with_reducible refine State.setTile_kept ?_ ..
    | with_reducible refine State.raise_kept ?_ ..
    | with_reducible refine State.failTile_kept ?_ ..
    | with_reducible refine Kept.foldl _ ?_ ?_
    | split
    | (intro _ _ _; beta_reduce))

theorem State.judgeEntry_kept {s0 s : State} (h : Kept s0 s) (p : Nat) :
    Kept s0 (State.judgeEntry s p) := by
  unfold State.judgeEntry
  repeat' (first
    | with_reducible assumption
    | with_reducible refine State.poolErr_kept ?_ ..
    | split)

theorem State.loadEntry_kept {s0 s : State} (h : Kept s0 s) (p : Nat) :
    Kept s0 (State.loadEntry s p) := by
  unfold State.loadEntry
  repeat' (first
    | with_reducible assumption
    | (extract_lets +onlyGivenNames x)
    | with_reducible refine State.setPool_kept ?_ ..
    | with_reducible refine State.readMem_kept ?_ ..)

theorem State.readTable_kept {s0 s : State} (h : Kept s0 s) :
    Kept s0 (State.readTable s) := by
  unfold State.readTable
  repeat' (first
    | with_reducible assumption
    | (extract_lets +onlyGivenNames x)
    | with_reducible refine State.judgeEntry_kept ?_ ..
    | with_reducible refine State.loadEntry_kept ?_ ..
    | with_reducible refine Kept.foldl _ ?_ ?_
    | (intro _ _ _; beta_reduce))

theorem State.readEntry_kept {s0 s : State} (h : Kept s0 s) (p : Nat) :
    Kept s0 (State.readEntry s p) := by
  unfold State.readEntry
  repeat' (first
    | with_reducible assumption
    | (extract_lets +onlyGivenNames x)
    | with_reducible refine State.judgeEntry_kept ?_ ..
    | with_reducible refine State.loadEntry_kept ?_ ..)

end Sys2Proof.Machine
end

