-- ==== Sys2Proof/Laws/KeptSlotOps.lean ====
section
/-! SUPPORT. Each operation and meaning of Machine/SlotOps.lean keeps what every command keeps (Safety.lean). -/

set_option Elab.async false
set_option linter.tactic.unusedName false
set_option linter.unusedTactic false

namespace Sys2Proof.Machine

open Sys2Proof

theorem State.setBslot_kept {s0 s : State} (h : Kept s0 s) (d : Fin 4) (k : Nat) (b : BSlot) :
    Kept s0 (State.setBslot s d k b) := by
  unfold State.setBslot
  repeat' (with_reducible exact Kept.upd (by assumption) rfl)

theorem State.slotStatus_kept {s0 s : State} (h : Kept s0 s) (d : Fin 4) (k : Nat) (st : Nat) :
    Kept s0 (State.slotStatus s d k st) := by
  unfold State.slotStatus
  repeat' (first
    | with_reducible assumption
    | (extract_lets +onlyGivenNames x; first
          | (refine Kept.via x ?_ (fun hx => ?_); subst x; rotate_left; clear_value x)
          | clear_value x)
    | with_reducible refine State.setF_kept ?_ ..
    | with_reducible refine State.setBslot_kept ?_ ..
    | split)

theorem State.slotArrive_kept {s0 s : State} (h : Kept s0 s) (d : Fin 4) (k : Nat) (b : BSlot) :
    Kept s0 (State.slotArrive s d k b) := by
  unfold State.slotArrive
  repeat' (first
    | with_reducible assumption
    | (extract_lets +onlyGivenNames x; first
          | (refine Kept.via x ?_ (fun hx => ?_); subst x; rotate_left; clear_value x)
          | skip)
    | with_reducible refine State.setBslot_kept ?_ ..
    | with_reducible refine State.signal_kept ?_ ..
    | split)

theorem State.slotRecord_kept {s0 s : State} (h : Kept s0 s) (d : Fin 4) (k : Nat) (data : List Byte) :
    Kept s0 (State.slotRecord s d k data) := by
  unfold State.slotRecord
  repeat' (first
    | with_reducible assumption
    | (extract_lets +onlyGivenNames x; first
          | clear_value x
          | skip)
    | with_reducible refine State.slotStatus_kept ?_ ..
    | with_reducible refine State.slotArrive_kept ?_ ..
    | split)

theorem State.slotAnchor_kept {s0 s : State} (h : Kept s0 s) (d : Fin 4) (k : Nat) (v : BitVec 16) :
    Kept s0 (State.slotAnchor s d k v) := by
  unfold State.slotAnchor
  repeat' (first
    | with_reducible assumption
    | (extract_lets +onlyGivenNames x; clear_value x)
    | with_reducible refine State.slotArrive_kept ?_ ..)

theorem State.slotDiscard_kept {s0 s : State} (h : Kept s0 s) (d : Fin 4) (k : Nat) (st : Nat) :
    Kept s0 (State.slotDiscard s d k st) := by
  unfold State.slotDiscard
  repeat' (first
    | with_reducible assumption
    | (extract_lets +onlyGivenNames x; first
          | (refine Kept.via x ?_ (fun hx => ?_); subst x; rotate_left; clear_value x)
          | skip)
    | with_reducible refine State.bump_kept ?_ ..
    | with_reducible refine State.slotStatus_kept ?_ ..
    | with_reducible refine State.raise_kept ?_ ..)

theorem State.slotContrib_kept {s0 s : State} (h : Kept s0 s) (d : Fin 4) (k : Nat) (off : Nat) (data : List Byte) :
    Kept s0 (State.slotContrib s d k off data) := by
  unfold State.slotContrib
  repeat' (first
    | with_reducible assumption
    | (extract_lets +onlyGivenNames x; first
          | clear_value x
          | skip)
    | with_reducible refine State.slotRecord_kept ?_ ..
    | with_reducible refine State.slotAnchor_kept ?_ ..
    | with_reducible refine State.slotDiscard_kept ?_ ..
    | split)

theorem State.slotCmd_kept {s0 s : State} (h : Kept s0 s) (d : Fin 4) (k : Nat) (cmd : Nat) :
    Kept s0 (State.slotCmd s d k cmd) := by
  unfold State.slotCmd
  repeat' (first
    | with_reducible assumption
    | (extract_lets +onlyGivenNames x; first
          | (refine Kept.via x ?_ (fun hx => ?_); subst x; rotate_left; clear_value x)
          | clear_value x)
    | with_reducible refine State.setF_kept ?_ ..
    | with_reducible refine State.setBslot_kept ?_ ..
    | split)

theorem State.slotWrite_kept {s0 s : State} (h : Kept s0 s) (d : Fin 4) (k : Nat) (off : Nat) (data : List Byte) :
    Kept s0 (State.slotWrite s d k off data) := by
  unfold State.slotWrite
  repeat' (first
    | with_reducible assumption
    | (extract_lets +onlyGivenNames x; first
          | (refine Kept.via x ?_ (fun hx => ?_); subst x; rotate_left; clear_value x)
          | (have hx := fun a => x a; clear hx; subst x; beta_reduce)
          | clear_value x)
    | with_reducible refine State.setBslot_kept ?_ ..
    | with_reducible refine State.slotContrib_kept ?_ ..
    | with_reducible refine State.slotCmd_kept ?_ ..
    | with_reducible refine State.slotDiscard_kept ?_ ..
    | split)

theorem State.bayWrite_kept {s0 s : State} (h : Kept s0 s) (d : Fin 4) (a : Nat) (data : List Byte) (a0 : Nat) :
    Kept s0 (State.bayWrite s d a data a0) := by
  induction a0 generalizing s d a data with
  | zero =>
    unfold State.bayWrite
    repeat' (with_reducible assumption)
  | succ n ih =>
    unfold State.bayWrite
    repeat' (first
      | with_reducible assumption
      | (extract_lets +onlyGivenNames x; first
            | (refine Kept.via x ?_ (fun hx => ?_); subst x; rotate_left; clear_value x)
            | clear_value x)
      | with_reducible refine ih ?_ ..
      | with_reducible refine State.slotWrite_kept ?_ ..
      | split
      | with_reducible exact Kept.upd (by assumption) rfl)

theorem State.slotWord_kept {s0 s : State} (h : Kept s0 s) (d : Fin 4) (k : Nat) (w : Word) :
    Kept s0 (State.slotWord s d k w) := by
  unfold State.slotWord
  repeat' (first
    | with_reducible assumption
    | (extract_lets +onlyGivenNames x; first
          | (refine Kept.via x ?_ (fun hx => ?_); subst x; rotate_left; clear_value x)
          | clear_value x)
    | with_reducible refine State.setBslot_kept ?_ ..
    | with_reducible refine State.slotCmd_kept ?_ ..
    | split)

end Sys2Proof.Machine
end

