-- ==== Sys2Proof/Laws/KeptDmOps.lean ====
section
/-! SUPPORT. Each operation and meaning of Machine/DmOps.lean keeps what every command keeps (Safety.lean). -/

set_option Elab.async false
set_option linter.tactic.unusedName false
set_option linter.unusedTactic false

namespace Sys2Proof.Machine

open Sys2Proof

theorem State.sendMcast_kept {s0 s : State} (h : Kept s0 s) (x : DmD) (owner : Owner) (ps : List Piece) (total : Nat) :
    Kept s0 (State.sendMcast s x owner ps total) := by
  unfold State.sendMcast
  repeat' (first
    | with_reducible assumption
    | (extract_lets +onlyGivenNames x; first
          | (refine Kept.via x ?_ (fun hx => ?_); subst x; rotate_left; clear_value x)
          | clear_value x)
    | with_reducible refine State.setFlow_kept ?_ ..
    | with_reducible refine State.pumpFlow_kept ?_ ..)

theorem State.setCkt_kept {s0 s : State} (h : Kept s0 s) (c : Nat) (v : Ckt) :
    Kept s0 (State.setCkt s c v) := by
  unfold State.setCkt
  repeat' (first
    | (extract_lets +onlyGivenNames x; clear_value x)
    | with_reducible exact Kept.upd (by assumption) rfl)

theorem State.pumpCkt_kept {s0 s : State} (h : Kept s0 s) (c : Nat) :
    Kept s0 (State.pumpCkt s c) := by
  unfold State.pumpCkt
  repeat' (first
    | with_reducible assumption
    | (extract_lets +onlyGivenNames x; first
          | clear_value x
          | skip)
    | with_reducible refine State.inject_kept ?_ ..
    | with_reducible refine State.setCkt_kept ?_ ..
    | with_reducible refine Kept.foldl _ ?_ ?_
    | (intro _ _ _; beta_reduce))

theorem State.sendCircuit_kept {s0 s : State} (h : Kept s0 s) (x : DmD) (owner : Owner) (ps : List Piece) (total : Nat) :
    Kept s0 (State.sendCircuit s x owner ps total) := by
  unfold State.sendCircuit
  repeat' (first
    | with_reducible assumption
    | (extract_lets +onlyGivenNames x; first
          | (refine Kept.via x ?_ (fun hx => ?_); subst x; rotate_left; clear_value x)
          | clear_value x)
    | with_reducible refine State.pumpCkt_kept ?_ ..
    | with_reducible refine State.setCkt_kept ?_ ..)

theorem State.sendFlowWrite_kept {s0 s : State} (h : Kept s0 s) (x : DmD) (owner : Owner) (ps : List Piece) (total : Nat) :
    Kept s0 (State.sendFlowWrite s x owner ps total) := by
  unfold State.sendFlowWrite
  repeat' (first
    | with_reducible assumption
    | (extract_lets +onlyGivenNames x; first
          | clear_value x
          | skip)
    | with_reducible refine State.sendOnFlow_kept ?_ ..
    | with_reducible refine State.openMessage_kept ?_ ..
    | with_reducible refine Kept.foldl _ ?_ ?_
    | split
    | (intro _ _ _; beta_reduce))

theorem State.mixBytes_kept {s0 s : State} (h : Kept s0 s) (a0 : List Byte) (a1 : List Byte) :
    Kept s0 (State.mixBytes s a0 a1).2 := by
  fun_induction State.mixBytes s a0 a1 with
  | case1 s a as b bs c cs t e ih =>
    simpa [e] using ih (Kept.tick h rfl (Nat.le_succ _))
  | case2 => exact h

theorem State.partLines_kept {s0 s : State} (h : Kept s0 s) (q : Req) (addr : Nat) (old : List Byte) (new : List Byte) (a0 : Nat) :
    Kept s0 (State.partLines s q addr old new a0) := by
  induction a0 generalizing s q addr old new with
  | zero =>
    unfold State.partLines
    repeat' (with_reducible assumption)
  | succ n ih =>
    unfold State.partLines
    repeat' (first
      | with_reducible assumption
      | (extract_lets +onlyGivenNames x; first
            | (refine Kept.via x ?_ (fun hx => ?_); subst x; rotate_left; clear_value x)
            | clear_value x
            | skip)
      | with_reducible refine ih ?_ ..
      | with_reducible refine State.mixBytes_kept ?_ ..
      | with_reducible refine State.tickFree_kept ?_ ..
      | with_reducible refine State.writeLine_kept ?_ ..
      | split)

theorem State.partRow_kept {s0 s : State} (h : Kept s0 s) (d : Fin 4) (t : Fin 104) (x : DmD) (sp : Nat) (a : Nat) (new : List Byte) :
    Kept s0 (State.partRow s d t x sp a new) := by
  unfold State.partRow
  repeat' (first
    | with_reducible assumption
    | (extract_lets +onlyGivenNames x; first
          | clear_value x
          | skip)
    | with_reducible refine State.lsWrite_kept ?_ ..
    | with_reducible refine State.partLines_kept ?_ ..
    | with_reducible refine State.mixBytes_kept ?_ ..
    | with_reducible refine State.bayWrite_kept ?_ ..
    | split)

theorem State.spaceWrite_kept {s0 s : State} (h : Kept s0 s) (d : Fin 4) (t : Fin 104) (x : DmD) (sp : Nat) (a : Nat) (b : List Byte) :
    Kept s0 (State.spaceWrite s d t x sp a b).1 := by
  unfold State.spaceWrite
  repeat' (first
    | with_reducible assumption
    | with_reducible refine State.lsWrite_kept ?_ ..
    | with_reducible refine State.writeMem_kept ?_ ..
    | with_reducible refine State.bayWrite_kept ?_ ..
    | split)

theorem State.spaceWriteRow_kept {s0 s : State} (h : Kept s0 s) (d : Fin 4) (t : Fin 104) (x : DmD) (sp : Nat) (a : Nat) (b : List Byte) :
    Kept s0 (State.spaceWriteRow s d t x sp a b).1 := by
  unfold State.spaceWriteRow
  repeat' (first
    | with_reducible assumption
    | (extract_lets +onlyGivenNames x)
    | with_reducible refine State.partRow_kept ?_ ..
    | with_reducible refine State.spaceWrite_kept ?_ ..
    | (split <;> first
          | (rename_i e; refine Kept.viaFst e ?_ (fun _ => ?_))
          | skip))

theorem State.spaceRead_kept {s0 s : State} (h : Kept s0 s) (d : Fin 4) (t : Fin 104) (x : DmD) (sp : Nat) (a : Nat) (n : Nat) :
    Kept s0 (State.spaceRead s d t x sp a n).1 := by
  unfold State.spaceRead
  repeat' (first
    | with_reducible assumption
    | with_reducible refine State.readMem_kept ?_ ..
    | split)

theorem State.overlapRow_kept {s0 s : State} (h : Kept s0 s) (first : State) (d : Fin 4) (t : Fin 104) (x : DmD) (rows : List (Nat × Nat)) (sa : Nat) (da : Nat) (b : List Byte) :
    Kept s0 (State.overlapRow s first d t x rows sa da b).2 := by
  unfold State.overlapRow
  repeat' (first
    | with_reducible assumption
    | (extract_lets +onlyGivenNames x; first
          | clear_value x
          | skip)
    | with_reducible refine State.mixBytes_kept ?_ ..)

theorem State.dmMove_kept {s0 s : State} (h : Kept s0 s) (d : Fin 4) (t : Fin 104) (k : Fin 2) (x : DmD) (w : Task) :
    Kept s0 (State.dmMove s d t k x w).1 := by
  unfold State.dmMove
  repeat' (first
    | with_reducible assumption
    | (extract_lets +onlyGivenNames x; first
          | (refine Kept.via x ?_ (fun hx => ?_); subst x; rotate_left; clear_value x)
          | clear_value x
          | skip)
    | with_reducible refine State.spaceWriteRow_kept ?_ ..
    | with_reducible refine State.spaceRead_kept ?_ ..
    | with_reducible refine State.overlapRow_kept ?_ ..
    | with_reducible refine State.addPair_kept ?_ ..
    | with_reducible refine State.partRow_kept ?_ ..
    | with_reducible refine Kept.foldl1 _ ?_ ?_
    | (split <;> first
          | (rename_i e; refine Kept.viaFst e ?_ (fun _ => ?_))
          | (rename_i e; refine Kept.viaSnd e ?_ (fun _ => ?_))
          | skip)
    | (intro _ _ _; beta_reduce))

theorem State.sendReads_kept {s0 s : State} (h : Kept s0 s) (x : DmD) (owner : Nat → Nat → Owner) (msg : Owner) (ps : List Piece) (total : Nat) :
    Kept s0 (State.sendReads s x owner msg ps total) := by
  unfold State.sendReads
  repeat' (first
    | with_reducible assumption
    | (extract_lets +onlyGivenNames x; first
          | clear_value x
          | skip)
    | with_reducible refine State.sendOnFlow_kept ?_ ..
    | with_reducible refine State.openMessage_kept ?_ ..
    | with_reducible refine Kept.foldl _ ?_ ?_
    | (intro _ _ _; beta_reduce))

theorem State.updDm_kept {s0 s : State} (h : Kept s0 s) (d : Fin 4) (t : Fin 104) (k : Fin 2) (id : Nat) (f : Dm → Dm) :
    Kept s0 (State.updDm s d t k id f) := by
  unfold State.updDm
  repeat' (first
    | with_reducible assumption
    | (extract_lets +onlyGivenNames x; clear_value x)
    | with_reducible refine State.setTile_kept ?_ ..)

theorem State.dmRun_kept {s0 s : State} (h : Kept s0 s) (d : Fin 4) (t : Fin 104) (k : Fin 2) (m : Dm) (w : Task) :
    Kept s0 (State.dmRun s d t k m w) := by
  unfold State.dmRun
  repeat' (first
    | with_reducible assumption
    | (extract_lets +onlyGivenNames x; first
          | (refine Kept.via x ?_ (fun hx => ?_); subst x; rotate_left; clear_value x)
          | (have hx := fun a => x a; clear hx; subst x; beta_reduce)
          | clear_value x
          | skip)
    | with_reducible refine State.sendMcast_kept ?_ ..
    | with_reducible refine State.sendCircuit_kept ?_ ..
    | with_reducible refine State.sendFlowWrite_kept ?_ ..
    | with_reducible refine State.dmMove_kept ?_ ..
    | with_reducible refine State.sendReads_kept ?_ ..
    | with_reducible refine State.addPair_kept ?_ ..
    | with_reducible refine State.updDm_kept ?_ ..
    | (split <;> first
          | (rename_i e; refine Kept.viaFst e ?_ (fun _ => ?_))
          | skip))

theorem State.dmPump_kept {s0 s : State} (h : Kept s0 s) (d : Fin 4) (t : Fin 104) (a0 : Nat) :
    Kept s0 (State.dmPump s d t a0) := by
  induction a0 generalizing s d t with
  | zero =>
    unfold State.dmPump
    repeat' (with_reducible assumption)
  | succ n ih =>
    unfold State.dmPump
    repeat' (first
      | with_reducible assumption
      | (extract_lets +onlyGivenNames x; first
            | (refine Kept.via x ?_ (fun hx => ?_); subst x; rotate_left; clear_value x)
            | clear_value x
            | skip)
      | with_reducible refine ih ?_ ..
      | with_reducible refine State.setTile_kept ?_ ..
      | with_reducible refine State.dmRun_kept ?_ ..
      | split)

theorem State.dmGo_kept {s0 s : State} (h : Kept s0 s) (d : Fin 4) (t : Fin 104) :
    Kept s0 (State.dmGo s d t) := by
  unfold State.dmGo
  repeat' (first
    | with_reducible assumption
    | with_reducible refine State.dmPump_kept ?_ ..)

theorem State.dmGoAll_kept {s0 s : State} (h : Kept s0 s) :
    Kept s0 (State.dmGoAll s) := by
  unfold State.dmGoAll
  repeat' (first
    | with_reducible assumption
    | (extract_lets +onlyGivenNames x)
    | with_reducible refine State.dmGo_kept ?_ ..
    | with_reducible refine Kept.foldl _ ?_ ?_
    | split
    | (intro _ _ _; beta_reduce))

theorem State.dmRemoteEnd_kept {s0 s : State} (h : Kept s0 s) (d : Nat) (t : Nat) (k : Nat) (id : Nat) (status : Nat) (fenced : Nat) :
    Kept s0 (State.dmRemoteEnd s d t k id status fenced) := by
  unfold State.dmRemoteEnd
  repeat' (first
    | with_reducible assumption
    | with_reducible refine State.updDm_kept ?_ ..
    | split)

theorem State.postGo_kept {s0 s : State} (h : Kept s0 s) (d : Fin 4) (t : Fin 104) (k : Fin 2) :
    Kept s0 (State.postGo s d t k) := by
  unfold State.postGo
  repeat' (first
    | with_reducible assumption
    | (extract_lets +onlyGivenNames x; first
          | clear_value x
          | skip)
    | with_reducible refine State.doorbell_kept ?_ ..
    | with_reducible refine State.setSlot_kept ?_ ..
    | split)

theorem State.dmEnd_kept {s0 s : State} (h : Kept s0 s) (d : Fin 4) (t : Fin 104) (k : Fin 2) (addr : Nat) (x : DmD) (status : Nat) (fenced : Nat) :
    Kept s0 (State.dmEnd s d t k addr x status fenced) := by
  unfold State.dmEnd
  repeat' (first
    | with_reducible assumption
    | (extract_lets +onlyGivenNames x; refine Kept.via x ?_ (fun hx => ?_); subst x; rotate_left; clear_value x)
    | with_reducible refine State.lsWrite_kept ?_ ..
    | with_reducible refine State.signal_kept ?_ ..
    | with_reducible refine State.opFault_kept ?_ ..
    | split)

theorem State.dmFind_kept {s0 s : State} (h : Kept s0 s) (d : Fin 4) (t : Fin 104) (k : Fin 2) (x : DmD) (errs : RowErrs) (lines : LineErrs) :
    Kept s0 (State.dmFind s d t k x errs lines) := by
  unfold State.dmFind
  repeat' (first
    | with_reducible assumption
    | (extract_lets +onlyGivenNames x; refine Kept.via x ?_ (fun hx => ?_); subst x; rotate_left; clear_value x)
    | with_reducible refine State.findRows_kept ?_ ..
    | with_reducible refine State.findErrs_kept ?_ ..
    | split)

theorem State.dmIssue_kept {s0 s : State} (h : Kept s0 s) (d : Fin 4) (t : Fin 104) (k : Fin 2) (addr : Nat) (errs : RowErrs) (lines : LineErrs) :
    Kept s0 (State.dmIssue s d t k addr errs lines) := by
  unfold State.dmIssue
  repeat' (first
    | with_reducible assumption
    | (extract_lets +onlyGivenNames x; first
          | (refine Kept.via x ?_ (fun hx => ?_); subst x; rotate_left; clear_value x)
          | clear_value x)
    | with_reducible refine State.dmEnd_kept ?_ ..
    | with_reducible refine State.dmGo_kept ?_ ..
    | with_reducible refine State.setTile_kept ?_ ..
    | with_reducible refine State.dmFind_kept ?_ ..
    | with_reducible refine State.opFault_kept ?_ ..
    | split)

theorem State.dmCall_kept {s0 s : State} (h : Kept s0 s) (d : Fin 4) (t : Fin 104) (k : Fin 2) (addr : Nat) (errs : RowErrs) (lines : LineErrs) :
    Kept s0 (State.dmCall s d t k addr errs lines) := by
  unfold State.dmCall
  repeat' (first
    | with_reducible assumption
    | (extract_lets +onlyGivenNames x; clear_value x)
    | with_reducible refine State.setTile_kept ?_ ..
    | with_reducible refine State.dmIssue_kept ?_ ..
    | split)

theorem State.readDrain_kept {s0 s : State} (h : Kept s0 s) (d : Fin 4) (t : Fin 104) (k : Fin 2) (id : Nat) (a0 : Nat) :
    Kept s0 (State.readDrain s d t k id a0) := by
  induction a0 generalizing s d t k id with
  | zero =>
    unfold State.readDrain
    repeat' (with_reducible assumption)
  | succ n ih =>
    unfold State.readDrain
    repeat' (first
      | with_reducible assumption
      | (extract_lets +onlyGivenNames x; first
            | clear_value x
            | skip)
      | with_reducible refine ih ?_ ..
      | with_reducible refine State.spaceWriteRow_kept ?_ ..
      | with_reducible refine State.addPair_kept ?_ ..
      | with_reducible refine State.updDm_kept ?_ ..
      | (split <;> first
            | (rename_i e; refine Kept.viaFst e ?_ (fun _ => ?_))
            | skip))

theorem State.dmReply_kept {s0 s : State} (h : Kept s0 s) (d : Nat) (t : Nat) (k : Nat) (id : Nat) (r : Reply) :
    Kept s0 (State.dmReply s d t k id r) := by
  unfold State.dmReply
  repeat' (first
    | with_reducible assumption
    | (extract_lets +onlyGivenNames x; refine Kept.via x ?_ (fun hx => ?_); subst x; rotate_left; clear_value x)
    | with_reducible refine State.readDrain_kept ?_ ..
    | with_reducible refine State.updDm_kept ?_ ..
    | split)

theorem State.dmComplete_kept {s0 s : State} (h : Kept s0 s) (d : Fin 4) (t : Fin 104) (k : Fin 2) (m : Dm) :
    Kept s0 (State.dmComplete s d t k m) := by
  unfold State.dmComplete
  repeat' (first
    | with_reducible assumption
    | (extract_lets +onlyGivenNames x; first
          | (refine Kept.via x ?_ (fun hx => ?_); subst x; rotate_left; clear_value x)
          | clear_value x
          | skip)
    | with_reducible refine State.dmEnd_kept ?_ ..
    | with_reducible refine State.postGo_kept ?_ ..
    | with_reducible refine State.dmGo_kept ?_ ..
    | with_reducible refine State.setTile_kept ?_ ..)

end Sys2Proof.Machine
end

