-- ==== Sys2Proof/Laws/KeptFenceOps.lean ====
section
/-! SUPPORT. Each operation and meaning of Machine/FenceOps.lean keeps what every command keeps (Safety.lean). -/

set_option Elab.async false
set_option linter.tactic.unusedName false
set_option linter.unusedTactic false

namespace Sys2Proof.Machine

open Sys2Proof

theorem State.setFcast_kept {s0 s : State} (h : Kept s0 s) (v : Nat) :
    Kept s0 (State.setFcast s v) := by
  unfold State.setFcast
  repeat' (first
    | with_reducible assumption
    | (extract_lets +onlyGivenNames x)
    | with_reducible refine State.setF_kept ?_ ..
    | with_reducible refine State.raise_kept ?_ ..
    | split)

theorem State.doFence_kept {s0 s : State} (h : Kept s0 s) (cause : Nat) :
    Kept s0 (State.doFence s cause) := by
  unfold State.doFence
  repeat' (first
    | with_reducible assumption
    | (extract_lets +onlyGivenNames x; first
          | (refine Kept.via x ?_ (fun hx => ?_); subst x; rotate_left; clear_value x)
          | skip)
    | with_reducible refine State.setF_kept ?_ ..
    | with_reducible refine State.fenceObjs_kept ?_ ..
    | with_reducible refine State.setOwn_kept ?_ ..
    | with_reducible refine State.setFcast_kept ?_ ..
    | with_reducible refine State.raisePkg_kept ?_ ..
    | with_reducible refine State.setPair_kept ?_ ..
    | split)

theorem State.fenceIfNoMemory_kept {s0 s : State} (h : Kept s0 s) :
    Kept s0 (State.fenceIfNoMemory s) := by
  unfold State.fenceIfNoMemory
  repeat' (first
    | with_reducible assumption
    | with_reducible refine State.doFence_kept ?_ ..
    | split)

theorem State.tick_kept {s0 s : State} (h : Kept s0 s) :
    Kept s0 (State.tick s) := by
  unfold State.tick
  repeat' (first
    | with_reducible assumption
    | split
    | with_reducible exact Kept.upd (by assumption) rfl)

end Sys2Proof.Machine
end

