-- ==== Sys2Proof/Laws/KeptAssay.lean ====
section
/-! SUPPORT. Each operation and meaning of Machine/Assay.lean keeps what every command keeps (Safety.lean). -/

set_option Elab.async false
set_option linter.tactic.unusedName false
set_option linter.unusedTactic false

namespace Sys2Proof.Machine

open Sys2Proof

theorem State.mailbox_kept {s0 s : State} (h : Kept s0 s) (k : Nat) (hm : List Byte) :
    Kept s0 (State.mailbox s k hm) := by
  unfold State.mailbox
  repeat' (first
    | with_reducible assumption
    | (extract_lets +onlyGivenNames x)
    | with_reducible refine State.setW_kept ?_ ..
    | with_reducible refine Kept.foldl _ ?_ ?_
    | (intro _ _ _; beta_reduce))

theorem State.keepHallmark_kept {s0 s : State} (h : Kept s0 s) (hm : List Byte) :
    Kept s0 (State.keepHallmark s hm) := by
  unfold State.keepHallmark
  repeat' (first
    | with_reducible assumption
    | (extract_lets +onlyGivenNames x; first
          | (refine Kept.via x ?_ (fun hx => ?_); subst x; rotate_left; clear_value x)
          | (have hx := fun a => x a; clear hx; subst x; beta_reduce)
          | clear_value x)
    | with_reducible refine State.mailbox_kept ?_ ..
    | with_reducible refine State.setF_kept ?_ ..
    | with_reducible refine State.raise_kept ?_ ..
    | with_reducible refine State.setPair_kept ?_ ..
    | split
    | with_reducible exact Kept.upd (by assumption) rfl)

theorem execHallmarkCopy_kept {s0 s : State} (h : Kept s0 s) (crcOk : Bool) :
    KeptAns s0 (execHallmarkCopy crcOk s) := by
  unfold execHallmarkCopy
  refine KeptAns.next ?_
  repeat' (first
    | with_reducible assumption
    | (extract_lets +onlyGivenNames x)
    | with_reducible refine State.bump_kept ?_ ..
    | with_reducible refine State.keepHallmark_kept ?_ ..
    | split)

theorem execHallmarkIntervalEnd_kept {s0 s : State} (h : Kept s0 s) (samples : List (Nat × Nat)) (ns : Nat) (temp : Int) (refBad : Bool) (since : Nat) :
    KeptAns s0 (execHallmarkIntervalEnd samples ns temp refBad since s) := by
  unfold execHallmarkIntervalEnd
  refine KeptAns.next ?_
  repeat' (first
    | with_reducible assumption
    | (extract_lets +onlyGivenNames x; first
          | (refine Kept.via x ?_ (fun hx => ?_); subst x; rotate_left; clear_value x)
          | clear_value x)
    | with_reducible refine State.tickFree_kept ?_ ..
    | split
    | with_reducible exact Kept.upd (by assumption) rfl)

theorem execAssayLinkLost_kept {s0 s : State} (h : Kept s0 s) :
    KeptAns s0 (execAssayLinkLost s) := by
  unfold execAssayLinkLost
  refine KeptAns.next ?_
  repeat' (first
    | with_reducible assumption
    | (extract_lets +onlyGivenNames x; first
          | (refine Kept.via x ?_ (fun hx => ?_); subst x; rotate_left; clear_value x)
          | clear_value x
          | skip)
    | with_reducible refine State.setF_kept ?_ ..
    | with_reducible refine State.raise_kept ?_ ..
    | split
    | with_reducible exact Kept.upd (by assumption) rfl)

theorem execAssayStart_kept {s0 s : State} (h : Kept s0 s) :
    KeptAns s0 (execAssayStart s) := by
  unfold execAssayStart
  refine KeptAns.next ?_
  repeat' (first
    | with_reducible assumption
    | (extract_lets +onlyGivenNames x; clear_value x)
    | split
    | with_reducible exact Kept.upd (by assumption) rfl)

theorem execDroveTimeToAssay_kept {s0 s : State} (h : Kept s0 s) :
    KeptAns s0 (execDroveTimeToAssay s) := by
  unfold execDroveTimeToAssay
  refine KeptAns.next ?_
  repeat' (first
    | with_reducible assumption
    | (extract_lets +onlyGivenNames x; clear_value x)
    | split
    | with_reducible exact Kept.upd (by assumption) rfl)

end Sys2Proof.Machine
end

