-- ==== Sys2Proof/Laws/KeptChannels.lean ====
section
/-! SUPPORT. Each operation and meaning of Machine/Channels.lean keeps what every command keeps (Safety.lean). -/

set_option Elab.async false
set_option linter.tactic.unusedName false
set_option linter.unusedTactic false

namespace Sys2Proof.Machine

open Sys2Proof

theorem execMchnRetire_kept {s0 s : State} (h : Kept s0 s) (m : Fin 12) (ch : Fin 16) :
    KeptAns s0 (execMchnRetire m ch s) := by
  unfold execMchnRetire
  refine KeptAns.next ?_
  repeat' (first
    | with_reducible assumption
    | (extract_lets +onlyGivenNames x)
    | with_reducible refine State.drainStart_kept ?_ ..
    | split)

theorem State.retried_kept {s0 s : State} (h : Kept s0 s) (c : Nat) (n : Nat) :
    Kept s0 (State.retried s c n) := by
  unfold State.retried
  repeat' (first
    | with_reducible assumption
    | (extract_lets +onlyGivenNames x; first
          | (refine Kept.via x ?_ (fun hx => ?_); subst x; rotate_left; clear_value x)
          | (refine Kept.viaMem x rfl (fun hx => ?_); clear_value x)
          | clear_value x)
    | with_reducible refine State.bumpBy_kept ?_ ..
    | with_reducible refine State.drainStart_kept ?_ ..
    | split
    | with_reducible exact Kept.upd (by assumption) (by assumption))

theorem execStackTempRead_kept {s0 s : State} (h : Kept s0 s) (m : Fin 12) (degC : BitVec 8) :
    KeptAns s0 (execStackTempRead m degC s) := by
  unfold execStackTempRead
  refine KeptAns.next ?_
  repeat' (first
    | with_reducible assumption
    | (extract_lets +onlyGivenNames x; first
          | (refine Kept.via x ?_ (fun hx => ?_); subst x; rotate_left; clear_value x)
          | clear_value x
          | skip)
    | with_reducible refine State.setF_kept ?_ ..
    | with_reducible refine State.raise_kept ?_ ..
    | split)

theorem State.startRetire_kept {s0 s : State} (h : Kept s0 s) (id : Nat) :
    Kept s0 (State.startRetire s id) := by
  unfold State.startRetire
  repeat' (first
    | with_reducible assumption
    | (extract_lets +onlyGivenNames x; first
          | clear_value x
          | skip)
    | with_reducible refine State.setF_kept ?_ ..
    | with_reducible refine State.retireFrame_kept ?_ ..
    | with_reducible refine State.chanOut_kept ?_ ..
    | split)

theorem execMemoryFillDone_kept {s0 s : State} (h : Kept s0 s) (m : Fin 12) (ch : Fin 16) :
    KeptAns s0 (execMemoryFillDone m ch s) := by
  unfold execMemoryFillDone
  refine KeptAns.next ?_
  repeat' (first
    | with_reducible assumption
    | (extract_lets +onlyGivenNames x; first
          | (refine Kept.via x ?_ (fun hx => ?_); subst x; rotate_left; clear_value x)
          | (refine Kept.viaMem x rfl (fun hx => ?_); clear_value x)
          | clear_value x
          | skip)
    | with_reducible refine State.frameCounts_kept ?_ ..
    | with_reducible refine State.setF_kept ?_ ..
    | with_reducible refine State.setOwn_kept ?_ ..
    | with_reducible refine State.placeCounts_kept ?_ ..
    | split
    | with_reducible exact Kept.upd (by assumption) (by assumption))

theorem State.startFrames_kept {s0 s : State} (h : Kept s0 s) (c : Nat) :
    Kept s0 (State.startFrames s c) := by
  unfold State.startFrames
  repeat' (first
    | with_reducible assumption
    | (extract_lets +onlyGivenNames x)
    | with_reducible refine State.emptyUe_kept ?_ ..
    | with_reducible refine State.startRetire_kept ?_ ..
    | with_reducible refine Kept.foldl _ ?_ ?_
    | split
    | (intro _ _ _; beta_reduce))

theorem execChannelTrainDone_kept {s0 s : State} (h : Kept s0 s) (m : Fin 12) (ch : Fin 16) (check : Bool) (pass : Bool) (k : Calib) :
    KeptAns s0 (execChannelTrainDone m ch check pass k s) := by
  unfold execChannelTrainDone
  refine KeptAns.next ?_
  repeat' (first
    | with_reducible assumption
    | (extract_lets +onlyGivenNames x; first
          | (refine Kept.via x ?_ (fun hx => ?_); subst x; rotate_left; clear_value x)
          | (refine Kept.viaMem x rfl (fun hx => ?_); clear_value x)
          | clear_value x
          | skip)
    | with_reducible refine State.fenceIfNoMemory_kept ?_ ..
    | with_reducible refine State.emptyUe_kept ?_ ..
    | with_reducible refine State.chanFail_kept ?_ ..
    | with_reducible refine State.raise_kept ?_ ..
    | with_reducible refine State.startFrames_kept ?_ ..
    | split
    | with_reducible exact Kept.upd (by assumption) (by assumption))

theorem State.beginRetrain_kept {s0 s : State} (h : Kept s0 s) (c : Nat) :
    Kept s0 (State.beginRetrain s c) := by
  unfold State.beginRetrain
  repeat' (first
    | with_reducible assumption
    | (extract_lets +onlyGivenNames x; refine Kept.viaMem x rfl (fun hx => ?_); clear_value x)
    | split
    | with_reducible exact Kept.upd (by assumption) (by assumption))

theorem execMchnRetrain_kept {s0 s : State} (h : Kept s0 s) (m : Fin 12) (ch : Fin 16) :
    KeptAns s0 (execMchnRetrain m ch s) := by
  unfold execMchnRetrain
  refine KeptAns.next ?_
  repeat' (first
    | with_reducible assumption
    | (extract_lets +onlyGivenNames x)
    | with_reducible refine State.beginRetrain_kept ?_ ..
    | split)

theorem execChannelRetrain_kept {s0 s : State} (h : Kept s0 s) (m : Fin 12) (ch : Fin 16) :
    KeptAns s0 (execChannelRetrain m ch s) := by
  unfold execChannelRetrain
  refine KeptAns.next ?_
  repeat' (first
    | with_reducible assumption
    | (extract_lets +onlyGivenNames x; first
          | clear_value x
          | skip)
    | with_reducible refine State.beginRetrain_kept ?_ ..
    | with_reducible refine State.retried_kept ?_ ..
    | split)

theorem execChannelDrainDone_kept {s0 s : State} (h : Kept s0 s) (m : Fin 12) (ch : Fin 16) :
    KeptAns s0 (execChannelDrainDone m ch s) := by
  unfold execChannelDrainDone
  refine KeptAns.next ?_
  repeat' (first
    | with_reducible assumption
    | (extract_lets +onlyGivenNames x; first
          | clear_value x
          | skip)
    | with_reducible refine State.fenceIfNoMemory_kept ?_ ..
    | with_reducible refine State.chanOut_kept ?_ ..
    | split)

theorem execScrubLine_kept {s0 s : State} (h : Kept s0 s) (m : Fin 12) (ch : Fin 16) (f : Fin 3072) (line : Fin 32768) (err : Option Bool) :
    KeptAns s0 (execScrubLine m ch f line err s) := by
  unfold execScrubLine
  refine KeptAns.next ?_
  repeat' (first
    | with_reducible assumption
    | (extract_lets +onlyGivenNames x; clear_value x)
    | with_reducible refine State.lineCE_kept ?_ ..
    | with_reducible refine State.lineUE_kept ?_ ..
    | split)

theorem execChannelTrack_kept {s0 s : State} (h : Kept s0 s) (m : Fin 12) (ch : Fin 16) (retries : Nat) (onDie : Nat) :
    KeptAns s0 (execChannelTrack m ch retries onDie s) := by
  unfold execChannelTrack
  refine KeptAns.next ?_
  repeat' (first
    | with_reducible assumption
    | (extract_lets +onlyGivenNames x; first
          | clear_value x
          | skip)
    | with_reducible refine State.bumpBy_kept ?_ ..
    | with_reducible refine State.retried_kept ?_ ..
    | split)

theorem execChannelRetrainDone_kept {s0 s : State} (h : Kept s0 s) (m : Fin 12) (ch : Fin 16) (pass : Bool) :
    KeptAns s0 (execChannelRetrainDone m ch pass s) := by
  unfold execChannelRetrainDone
  refine KeptAns.next ?_
  repeat' (first
    | with_reducible assumption
    | (extract_lets +onlyGivenNames x; first
          | (refine Kept.via x ?_ (fun hx => ?_); subst x; rotate_left; clear_value x)
          | (refine Kept.viaMem x rfl (fun hx => ?_); clear_value x)
          | clear_value x
          | skip)
    | with_reducible refine State.bump_kept ?_ ..
    | with_reducible refine State.fenceIfNoMemory_kept ?_ ..
    | with_reducible refine State.chanFail_kept ?_ ..
    | with_reducible refine State.raise_kept ?_ ..
    | split
    | with_reducible exact Kept.upd (by assumption) (by assumption))

end Sys2Proof.Machine
end

