-- ==== Sys2Proof/Laws/KeptFwOps.lean ====
section
/-! SUPPORT. Each operation and meaning of Machine/FwOps.lean keeps what every command keeps (Safety.lean). -/

set_option Elab.async false
set_option linter.tactic.unusedName false
set_option linter.unusedTactic false

namespace Sys2Proof.Machine

open Sys2Proof

theorem State.sendMgmt_kept {s0 s : State} (h : Kept s0 s) (dst : Nat) (mtype : Nat) (content : List Byte) :
    Kept s0 (State.sendMgmt s dst mtype content) := by
  unfold State.sendMgmt
  repeat' (first
    | with_reducible assumption
    | (extract_lets +onlyGivenNames x; first
          | (refine Kept.via x ?_ (fun hx => ?_); subst x; rotate_left; clear_value x)
          | clear_value x)
    | with_reducible refine State.emit_kept ?_ ..
    | with_reducible exact Kept.upd (by assumption) rfl)

theorem State.sendStatus_kept {s0 s : State} (h : Kept s0 s) (dst : Nat) (cause : Nat) :
    Kept s0 (State.sendStatus s dst cause) := by
  unfold State.sendStatus
  repeat' (first
    | with_reducible assumption
    | with_reducible refine State.sendMgmt_kept ?_ ..)

theorem State.tellServer_kept {s0 s : State} (h : Kept s0 s) :
    Kept s0 (State.tellServer s) := by
  unfold State.tellServer
  repeat' (first
    | with_reducible assumption
    | with_reducible refine State.sendStatus_kept ?_ ..)

theorem State.putFwState_kept {s0 s : State} (h : Kept s0 s) (st : Nat) (cause : Nat) :
    Kept s0 (State.putFwState s st cause) := by
  unfold State.putFwState
  repeat' (first
    | with_reducible assumption
    | (extract_lets +onlyGivenNames x)
    | with_reducible refine State.setF_kept ?_ ..)

theorem State.toFwState_kept {s0 s : State} (h : Kept s0 s) (st : Nat) (cause : Nat) :
    Kept s0 (State.toFwState s st cause) := by
  unfold State.toFwState
  repeat' (first
    | with_reducible assumption
    | (extract_lets +onlyGivenNames x)
    | with_reducible refine State.tellServer_kept ?_ ..
    | with_reducible refine State.putFwState_kept ?_ ..)

theorem State.setFw_kept {s0 s : State} (h : Kept s0 s) (x : FwSt) :
    Kept s0 (State.setFw s x) := by
  unfold State.setFw
  repeat' (first
    | (extract_lets +onlyGivenNames x; clear_value x)
    | with_reducible exact Kept.upd (by assumption) rfl)

theorem State.fwGo_kept {s0 s : State} (h : Kept s0 s) :
    Kept s0 (State.fwGo s) := by
  unfold State.fwGo
  repeat' (first
    | with_reducible assumption
    | (extract_lets +onlyGivenNames x; first
          | (refine Kept.via x ?_ (fun hx => ?_); subst x; rotate_left; clear_value x)
          | clear_value x)
    | with_reducible refine State.toFwState_kept ?_ ..
    | with_reducible refine State.setF_kept ?_ ..
    | with_reducible refine State.holdCeils_kept ?_ ..
    | with_reducible refine State.setFw_kept ?_ ..)

theorem State.hcRestart_kept {s0 s : State} (h : Kept s0 s) :
    Kept s0 (State.hcRestart s) := by
  unfold State.hcRestart
  repeat' (first
    | with_reducible assumption
    | (extract_lets +onlyGivenNames x; first
          | (refine Kept.via x ?_ (fun hx => ?_); subst x; rotate_left; clear_value x)
          | clear_value x
          | skip)
    | with_reducible refine State.bump_kept ?_ ..
    | with_reducible refine State.raise_kept ?_ ..
    | with_reducible refine State.setFw_kept ?_ ..
    | with_reducible exact Kept.upd (by assumption) rfl)

theorem State.showXfer_kept {s0 s : State} (h : Kept s0 s) :
    Kept s0 (State.showXfer s) := by
  unfold State.showXfer
  repeat' (first
    | with_reducible assumption
    | (extract_lets +onlyGivenNames x; first
          | (refine Kept.via x ?_ (fun hx => ?_); subst x; rotate_left; clear_value x)
          | clear_value x)
    | with_reducible refine State.setF_kept ?_ ..
    | with_reducible refine State.setPair_kept ?_ ..)

theorem State.setFlash_kept {s0 s : State} (h : Kept s0 s) (x : Flash) :
    Kept s0 (State.setFlash s x) := by
  unfold State.setFlash
  repeat' (first
    | (extract_lets +onlyGivenNames x; clear_value x)
    | with_reducible exact Kept.upd (by assumption) rfl)

theorem State.setXfer_kept {s0 s : State} (h : Kept s0 s) (x : Option Xfer) :
    Kept s0 (State.setXfer s x) := by
  unfold State.setXfer
  repeat' (first
    | with_reducible assumption
    | (extract_lets +onlyGivenNames x; first
          | (refine Kept.via x ?_ (fun hx => ?_); subst x; rotate_left; clear_value x)
          | clear_value x)
    | with_reducible refine State.showXfer_kept ?_ ..
    | with_reducible refine State.setFw_kept ?_ ..
    | with_reducible refine State.setFlash_kept ?_ ..
    | split)

theorem State.clearXfer_kept {s0 s : State} (h : Kept s0 s) :
    Kept s0 (State.clearXfer s) := by
  unfold State.clearXfer
  repeat' (first
    | with_reducible assumption
    | (extract_lets +onlyGivenNames x; first
          | clear_value x
          | skip)
    | with_reducible refine State.setXfer_kept ?_ ..
    | with_reducible refine State.putFwState_kept ?_ ..
    | with_reducible refine State.setFw_kept ?_ ..)

theorem State.barSlot_kept {s0 s : State} (h : Kept s0 s) (k : Nat) (bar : Bool) :
    Kept s0 (State.barSlot s k bar) := by
  unfold State.barSlot
  repeat' (first
    | with_reducible assumption
    | (extract_lets +onlyGivenNames x; clear_value x)
    | with_reducible refine State.setFlash_kept ?_ ..)

theorem State.dropSet_kept {s0 s : State} (h : Kept s0 s) :
    Kept s0 (State.dropSet s) := by
  unfold State.dropSet
  repeat' (first
    | with_reducible assumption
    | (extract_lets +onlyGivenNames x; first
          | clear_value x
          | skip)
    | with_reducible refine State.clearXfer_kept ?_ ..
    | with_reducible refine State.barSlot_kept ?_ ..
    | split)

theorem State.putChunk_kept {s0 s : State} (h : Kept s0 s) (k : Nat) (c : Nat) (b : List Byte) :
    Kept s0 (State.putChunk s k c b) := by
  unfold State.putChunk
  repeat' (first
    | with_reducible assumption
    | (extract_lets +onlyGivenNames x; clear_value x)
    | with_reducible refine State.setFlash_kept ?_ ..)

theorem State.spoilChunk_kept {s0 s : State} (h : Kept s0 s) (k : Nat) (c : Nat) :
    Kept s0 (State.spoilChunk s k c) := by
  unfold State.spoilChunk
  repeat' (first
    | with_reducible assumption
    | (extract_lets +onlyGivenNames x)
    | with_reducible refine State.putChunk_kept ?_ ..
    | with_reducible refine State.tickFree_kept ?_ ..)

theorem State.loopFence_kept {s0 s : State} (h : Kept s0 s) :
    Kept s0 (State.loopFence s) := by
  unfold State.loopFence
  repeat' (first
    | with_reducible assumption
    | with_reducible refine State.doFence_kept ?_ ..
    | split)

theorem State.mgmtBad_kept {s0 s : State} (h : Kept s0 s) :
    Kept s0 (State.mgmtBad s) := by
  unfold State.mgmtBad
  repeat' (first
    | with_reducible assumption
    | with_reducible refine State.bump_kept ?_ ..)

theorem State.showSealed_kept {s0 s : State} (h : Kept s0 s) :
    Kept s0 (State.showSealed s) := by
  unfold State.showSealed
  repeat' (first
    | with_reducible assumption
    | (extract_lets +onlyGivenNames x; clear_value x)
    | with_reducible refine State.setF_kept ?_ ..)

theorem State.select_kept {s0 s : State} (h : Kept s0 s) (k : Nat) :
    Kept s0 (State.select s k) := by
  unfold State.select
  repeat' (first
    | with_reducible assumption
    | (extract_lets +onlyGivenNames x)
    | with_reducible refine State.setF_kept ?_ ..
    | with_reducible refine State.setFlash_kept ?_ ..)

theorem State.bootToSlot_kept {s0 s : State} (h : Kept s0 s) (k : Nat) :
    Kept s0 (State.bootToSlot s k) := by
  unfold State.bootToSlot
  repeat' (first
    | with_reducible assumption
    | (extract_lets +onlyGivenNames x; first
          | clear_value x
          | skip)
    | with_reducible refine State.putChunk_kept ?_ ..
    | with_reducible refine State.barSlot_kept ?_ ..
    | with_reducible refine Kept.foldl _ ?_ ?_
    | (intro _ _ _; beta_reduce))

theorem State.fwReject_kept {s0 s : State} (h : Kept s0 s) (cause : Nat) :
    Kept s0 (State.fwReject s cause) := by
  unfold State.fwReject
  repeat' (first
    | with_reducible assumption
    | (extract_lets +onlyGivenNames x; first
          | clear_value x
          | skip)
    | with_reducible refine State.toFwState_kept ?_ ..
    | with_reducible refine State.raise_kept ?_ ..
    | with_reducible refine State.setFw_kept ?_ ..)

theorem State.restoreXfer_kept {s0 s : State} (h : Kept s0 s) :
    Kept s0 (State.restoreXfer s) := by
  unfold State.restoreXfer
  repeat' (first
    | with_reducible assumption
    | (extract_lets +onlyGivenNames x; first
          | (refine Kept.via x ?_ (fun hx => ?_); subst x; rotate_left; clear_value x)
          | clear_value x)
    | with_reducible refine State.putFwState_kept ?_ ..
    | with_reducible refine State.showXfer_kept ?_ ..
    | with_reducible refine State.setFw_kept ?_ ..
    | split)

theorem State.imageRestart_kept {s0 s : State} (h : Kept s0 s) (kind : Nat) :
    Kept s0 (State.imageRestart s kind) := by
  unfold State.imageRestart
  repeat' (first
    | with_reducible assumption
    | (extract_lets +onlyGivenNames x; clear_value x)
    | with_reducible refine State.hcRestart_kept ?_ ..
    | with_reducible refine State.holdCeils_kept ?_ ..
    | with_reducible refine State.setFw_kept ?_ ..
    | split)

theorem State.fwAbandon_kept {s0 s : State} (h : Kept s0 s) (cause : Nat) (restarted : List (Fin 5 × Fin 32)) :
    Kept s0 (State.fwAbandon s cause restarted) := by
  unfold State.fwAbandon
  repeat' (first
    | with_reducible assumption
    | (extract_lets +onlyGivenNames x; first
          | (refine Kept.via x ?_ (fun hx => ?_); subst x; rotate_left; clear_value x)
          | clear_value x
          | skip)
    | with_reducible refine State.toFwState_kept ?_ ..
    | with_reducible refine State.freeCeils_kept ?_ ..
    | with_reducible refine State.setF_kept ?_ ..
    | with_reducible refine State.raise_kept ?_ ..
    | with_reducible refine State.setFw_kept ?_ ..
    | with_reducible refine State.imageRestart_kept ?_ ..
    | with_reducible refine Kept.foldl _ ?_ ?_
    | (intro _ _ _; beta_reduce))

theorem State.levelsBack_kept {s0 s : State} (h : Kept s0 s) :
    Kept s0 (State.levelsBack s) := by
  unfold State.levelsBack
  repeat' (first
    | with_reducible assumption
    | (extract_lets +onlyGivenNames x; clear_value x)
    | with_reducible refine State.setFw_kept ?_ ..)

end Sys2Proof.Machine
end

