-- ==== Sys2Proof/Laws/KeptHostIf.lean ====
section
/-! SUPPORT. Each operation and meaning of Machine/HostIf.lean keeps what every command keeps (Safety.lean). -/

set_option Elab.async false
set_option linter.tactic.unusedName false
set_option linter.unusedTactic false

namespace Sys2Proof.Machine

open Sys2Proof

theorem State.movedTo_kept {s0 s : State} (h : Kept s0 s) (q : Nat) (n : Nat) (done : Nat) :
    Kept s0 (State.movedTo s q n done) := by
  unfold State.movedTo
  repeat' (first
    | with_reducible assumption
    | (extract_lets +onlyGivenNames x; clear_value x)
    | with_reducible refine State.setHq_kept ?_ ..)

theorem State.hostEnd_kept {s0 s : State} (h : Kept s0 s) (q : Nat) (n : Nat) (status : Nat) (detail : Nat) (done : Nat) :
    Kept s0 (State.hostEnd s q n status detail done) := by
  unfold State.hostEnd
  repeat' (first
    | with_reducible assumption
    | (extract_lets +onlyGivenNames x; clear_value x)
    | with_reducible refine State.setHq_kept ?_ ..)

theorem State.copyGoes_kept {s0 s : State} (h : Kept s0 s) (q : Nat) (n : Nat) (c : HostCmd) (st : Nat) (done : Nat) :
    Kept s0 (State.copyGoes s q n c st done) := by
  unfold State.copyGoes
  repeat' (first
    | with_reducible assumption
    | with_reducible refine State.movedTo_kept ?_ ..
    | with_reducible refine State.hostEnd_kept ?_ ..
    | split)

theorem State.dmaErr_kept {s0 s : State} (h : Kept s0 s) :
    Kept s0 (State.dmaErr s) := by
  unfold State.dmaErr
  repeat' (first
    | with_reducible assumption
    | (extract_lets +onlyGivenNames x)
    | with_reducible refine State.bump_kept ?_ ..
    | with_reducible refine State.raise_kept ?_ ..)

theorem State.copyIn_kept {s0 s : State} (h : Kept s0 s) (addr : Nat) (bs : List Byte) (done : Nat) (a0 : Nat) :
    Kept s0 (State.copyIn s addr bs done a0).1 := by
  induction a0 generalizing s addr bs done with
  | zero =>
    unfold State.copyIn
    repeat' (with_reducible assumption)
  | succ n ih =>
    unfold State.copyIn
    repeat' (first
      | with_reducible assumption
      | (extract_lets +onlyGivenNames x; first
            | clear_value x
            | skip)
      | with_reducible refine ih ?_ ..
      | with_reducible refine State.writeLine_kept ?_ ..
      | (split <;> first
            | (rename_i e; refine Kept.viaFst e ?_ (fun _ => ?_))
            | skip))

theorem State.copyHost_kept {s0 s : State} (h : Kept s0 s) (q : Nat) (n : Nat) (c : HostCmd) (data : List Byte) (errs : LineErrs) (err : Nat) :
    Kept s0 (State.copyHost s q n c data errs err) := by
  unfold State.copyHost
  repeat' (first
    | with_reducible assumption
    | (extract_lets +onlyGivenNames x; first
          | (refine Kept.via x ?_ (fun hx => ?_); subst x; rotate_left; clear_value x)
          | clear_value x
          | skip)
    | with_reducible refine State.findRmw_kept ?_ ..
    | with_reducible refine State.copyGoes_kept ?_ ..
    | with_reducible refine State.hostEnd_kept ?_ ..
    | with_reducible refine State.dmaErr_kept ?_ ..
    | with_reducible refine State.copyIn_kept ?_ ..
    | (split <;> first
          | (rename_i e; refine Kept.viaFst e ?_ (fun _ => ?_))
          | skip))

theorem execCopyH2d_kept {s0 s : State} (h : Kept s0 s) (q : Fin 64) (n : Nat) (data : List Byte) (errs : LineErrs) (err : Fin 5) :
    KeptAns s0 (execCopyH2d q n data errs err s) := by
  unfold execCopyH2d
  refine KeptAns.next ?_
  repeat' (first
    | with_reducible assumption
    | (extract_lets +onlyGivenNames x)
    | with_reducible refine State.copyHost_kept ?_ ..
    | split)

theorem State.pcieDown_kept {s0 s : State} (h : Kept s0 s) :
    Kept s0 (State.pcieDown s) := by
  unfold State.pcieDown
  repeat' (first
    | with_reducible assumption
    | (extract_lets +onlyGivenNames x; first
          | (refine Kept.via x ?_ (fun hx => ?_); subst x; rotate_left; clear_value x)
          | skip)
    | with_reducible refine State.setF_kept ?_ ..
    | with_reducible refine State.raise_kept ?_ ..)

theorem State.bootAgain_kept {s0 s : State} (h : Kept s0 s) :
    Kept s0 (State.bootAgain s) := by
  unfold State.bootAgain
  repeat' (first
    | with_reducible assumption
    | (extract_lets +onlyGivenNames x; first
          | (refine Kept.via x ?_ (fun hx => ?_); subst x; rotate_left; clear_value x)
          | clear_value x)
    | with_reducible refine State.setF_kept ?_ ..
    | split
    | with_reducible exact Kept.upd (by assumption) rfl)

theorem State.record_kept {s0 s : State} (h : Kept s0 s) (q : Nat) (c : HostCmd) :
    Kept s0 (State.record s q c) := by
  unfold State.record
  repeat' (first
    | with_reducible assumption
    | (extract_lets +onlyGivenNames x)
    | with_reducible refine State.recordLost_kept ?_ ..
    | with_reducible refine State.writeWhole_kept ?_ ..
    | (split <;> first
          | (rename_i e; refine Kept.viaFst e ?_ (fun _ => ?_))
          | skip))

theorem State.queueStop_kept {s0 s : State} (h : Kept s0 s) (q : Nat) :
    Kept s0 (State.queueStop s q) := by
  unfold State.queueStop
  repeat' (first
    | with_reducible assumption
    | (extract_lets +onlyGivenNames x; first
          | (refine Kept.via x ?_ (fun hx => ?_); subst x; rotate_left; clear_value x)
          | (have hx := fun a => x a; clear hx; subst x; beta_reduce)
          | clear_value x
          | skip)
    | with_reducible refine State.record_kept ?_ ..
    | with_reducible refine State.setHq_kept ?_ ..
    | with_reducible refine Kept.foldl _ ?_ ?_
    | (intro _ _ _; beta_reduce))

theorem State.queuesStop_kept {s0 s : State} (h : Kept s0 s) :
    Kept s0 (State.queuesStop s) := by
  unfold State.queuesStop
  repeat' (first
    | with_reducible assumption
    | (extract_lets +onlyGivenNames x)
    | with_reducible refine State.queueStop_kept ?_ ..
    | with_reducible refine Kept.foldl _ ?_ ?_
    | split
    | (intro _ _ _; beta_reduce))

theorem State.hostTargetsDown_kept {s0 s : State} (h : Kept s0 s) :
    Kept s0 (State.hostTargetsDown s) := by
  unfold State.hostTargetsDown
  repeat' (first
    | with_reducible assumption
    | (extract_lets +onlyGivenNames x)
    | with_reducible refine State.loseTarget_kept ?_ ..
    | with_reducible refine Kept.foldl _ ?_ ?_
    | split
    | (intro _ _ _; beta_reduce))

theorem State.fnReset_kept {s0 s : State} (h : Kept s0 s) :
    Kept s0 (State.fnReset s) := by
  unfold State.fnReset
  repeat' (first
    | with_reducible assumption
    | (extract_lets +onlyGivenNames x; first
          | (refine Kept.via x ?_ (fun hx => ?_); subst x; rotate_left; clear_value x)
          | skip)
    | with_reducible refine State.bump_kept ?_ ..
    | with_reducible refine State.bootAgain_kept ?_ ..
    | with_reducible refine State.setF_kept ?_ ..
    | with_reducible refine State.raise_kept ?_ ..
    | with_reducible refine State.queuesStop_kept ?_ ..
    | with_reducible refine State.hostTargetsDown_kept ?_ ..
    | with_reducible exact Kept.upd (by assumption) rfl)

theorem execPerstN_kept {s0 s : State} (h : Kept s0 s) :
    KeptAns s0 (execPerstN s) := by
  unfold execPerstN
  refine KeptAns.next ?_
  repeat' (first
    | with_reducible assumption
    | (extract_lets +onlyGivenNames x)
    | with_reducible refine State.pcieDown_kept ?_ ..
    | with_reducible refine State.fnReset_kept ?_ ..)

theorem State.judgeWait_kept {s0 s : State} (h : Kept s0 s) (q : Nat) (n : Nat) (c : HostCmd) (since : Nat) :
    Kept s0 (State.judgeWait s q n c since) := by
  unfold State.judgeWait
  repeat' (first
    | with_reducible assumption
    | (extract_lets +onlyGivenNames x; first
          | clear_value x
          | skip)
    | with_reducible refine State.setObj_kept ?_ ..
    | with_reducible refine State.hostEnd_kept ?_ ..
    | split)

theorem execSqDoorbell_kept {s0 s : State} (h : Kept s0 s) (q : Fin 64) (v : Word) :
    KeptAns s0 (execSqDoorbell q v s) := by
  unfold execSqDoorbell
  refine KeptAns.next ?_
  repeat' (first
    | with_reducible assumption
    | (extract_lets +onlyGivenNames x; clear_value x)
    | with_reducible refine State.queueErr_kept ?_ ..
    | with_reducible refine State.setHq_kept ?_ ..
    | split)

theorem State.refuseCmd_kept {s0 s : State} (h : Kept s0 s) (q : Nat) (raw : List Byte) (status : Nat) :
    Kept s0 (State.refuseCmd s q raw status) := by
  unfold State.refuseCmd
  repeat' (first
    | with_reducible assumption
    | (extract_lets +onlyGivenNames x; clear_value x)
    | with_reducible refine State.setHq_kept ?_ ..)

theorem State.repeatCmd_kept {s0 s : State} (h : Kept s0 s) (q : Nat) (raw : List Byte) :
    Kept s0 (State.repeatCmd s q raw) := by
  unfold State.repeatCmd
  repeat' (first
    | with_reducible assumption
    | (extract_lets +onlyGivenNames x; clear_value x)
    | with_reducible refine State.setHq_kept ?_ ..)

theorem State.startCmd_kept {s0 s : State} (h : Kept s0 s) (q : Nat) (raw : List Byte) :
    Kept s0 (State.startCmd s q raw) := by
  unfold State.startCmd
  repeat' (first
    | with_reducible assumption
    | (extract_lets +onlyGivenNames x; clear_value x)
    | with_reducible refine State.setHq_kept ?_ ..)

theorem State.runAgain_kept {s0 s : State} (h : Kept s0 s) (q : Nat) (at_ : Nat) (raw : List Byte) :
    Kept s0 (State.runAgain s q at_ raw) := by
  unfold State.runAgain
  repeat' (first
    | with_reducible assumption
    | (extract_lets +onlyGivenNames x)
    | with_reducible refine State.refuseCmd_kept ?_ ..
    | with_reducible refine State.repeatCmd_kept ?_ ..
    | with_reducible refine State.startCmd_kept ?_ ..
    | with_reducible refine State.recordLost_kept ?_ ..
    | with_reducible refine State.readMem_kept ?_ ..
    | (split <;> first
          | (rename_i e; refine Kept.viaFst e ?_ (fun _ => ?_))
          | skip))

theorem State.sortCmd_kept {s0 s : State} (h : Kept s0 s) (q : Nat) (raw : List Byte) :
    Kept s0 (State.sortCmd s q raw) := by
  unfold State.sortCmd
  repeat' (first
    | with_reducible assumption
    | (extract_lets +onlyGivenNames x; first
          | clear_value x
          | skip)
    | with_reducible refine State.refuseCmd_kept ?_ ..
    | with_reducible refine State.runAgain_kept ?_ ..
    | with_reducible refine State.repeatCmd_kept ?_ ..
    | with_reducible refine State.startCmd_kept ?_ ..
    | with_reducible refine State.setHq_kept ?_ ..
    | split)

theorem execCommandFetch_kept {s0 s : State} (h : Kept s0 s) (q : Fin 64) (raw : Vector Byte 64) (err : Bool) :
    KeptAns s0 (execCommandFetch q raw err s) := by
  unfold execCommandFetch
  refine KeptAns.next ?_
  repeat' (first
    | with_reducible assumption
    | (extract_lets +onlyGivenNames x; first
          | (refine Kept.via x ?_ (fun hx => ?_); subst x; rotate_left; clear_value x)
          | clear_value x
          | skip)
    | with_reducible refine State.queueErr_kept ?_ ..
    | with_reducible refine State.setHq_kept ?_ ..
    | with_reducible refine State.dmaErr_kept ?_ ..
    | with_reducible refine State.sortCmd_kept ?_ ..
    | split
    | with_reducible exact Kept.upd (by assumption) rfl)

theorem execConfigSpaceWrite_kept {s0 s : State} (h : Kept s0 s) (bme : Bool) (d3hot : Bool) (fnMask : Bool) (cfg : HostCfg) :
    KeptAns s0 (execConfigSpaceWrite bme d3hot fnMask cfg s) := by
  unfold execConfigSpaceWrite
  refine KeptAns.next ?_
  repeat' (first
    | with_reducible assumption
    | (extract_lets +onlyGivenNames x; first
          | (refine Kept.via x ?_ (fun hx => ?_); subst x; rotate_left; clear_value x)
          | clear_value x
          | skip)
    | with_reducible refine State.setF_kept ?_ ..
    | with_reducible refine State.hostTargetsDown_kept ?_ ..
    | with_reducible refine State.flushVectors_kept ?_ ..
    | split
    | with_reducible exact Kept.upd (by assumption) rfl)

theorem execFunctionReady_kept {s0 s : State} (h : Kept s0 s) :
    KeptAns s0 (execFunctionReady s) := by
  unfold execFunctionReady
  refine KeptAns.next ?_
  repeat' (first
    | (extract_lets +onlyGivenNames x; clear_value x)
    | with_reducible exact Kept.upd (by assumption) rfl)

theorem State.queueEnable_kept {s0 s : State} (h : Kept s0 s) (q : Nat) (clean : Bool) :
    Kept s0 (State.queueEnable s q clean) := by
  unfold State.queueEnable
  repeat' (first
    | with_reducible assumption
    | (extract_lets +onlyGivenNames x; first
          | (refine Kept.via x ?_ (fun hx => ?_); subst x; rotate_left; clear_value x)
          | clear_value x
          | skip)
    | with_reducible refine State.writeMem_kept ?_ ..
    | with_reducible refine State.queueErr_kept ?_ ..
    | with_reducible refine State.recordLost_kept ?_ ..
    | with_reducible refine State.setHq_kept ?_ ..
    | (split <;> first
          | (rename_i e; refine Kept.viaFst e ?_ (fun _ => ?_))
          | skip))

theorem execQueueClean_kept {s0 s : State} (h : Kept s0 s) :
    KeptAns s0 (execQueueClean s) := by
  unfold execQueueClean
  refine KeptAns.next ?_
  repeat' (first
    | with_reducible assumption
    | (extract_lets +onlyGivenNames x)
    | with_reducible refine State.queueEnable_kept ?_ ..
    | split)

theorem execHostSignal_kept {s0 s : State} (h : Kept s0 s) (q : Fin 64) (n : Nat) :
    KeptAns s0 (execHostSignal q n s) := by
  unfold execHostSignal
  refine KeptAns.next ?_
  repeat' (first
    | with_reducible assumption
    | (extract_lets +onlyGivenNames x)
    | with_reducible refine State.hostEnd_kept ?_ ..
    | with_reducible refine State.signal_kept ?_ ..
    | split)

theorem execWaitSyncTimeout_kept {s0 s : State} (h : Kept s0 s) (q : Fin 64) (n : Nat) :
    KeptAns s0 (execWaitSyncTimeout q n s) := by
  unfold execWaitSyncTimeout
  refine KeptAns.next ?_
  repeat' (first
    | with_reducible assumption
    | (extract_lets +onlyGivenNames x)
    | with_reducible refine State.hostEnd_kept ?_ ..
    | split)

theorem execHostFill_kept {s0 s : State} (h : Kept s0 s) (q : Fin 64) (n : Nat) (errs : LineErrs) (part : Option Nat) :
    KeptAns s0 (execHostFill q n errs part s) := by
  unfold execHostFill
  refine KeptAns.next ?_
  repeat' (first
    | with_reducible assumption
    | (extract_lets +onlyGivenNames x; first
          | (refine Kept.via x ?_ (fun hx => ?_); subst x; rotate_left; clear_value x)
          | clear_value x
          | skip)
    | with_reducible refine State.findRmw_kept ?_ ..
    | with_reducible refine State.copyGoes_kept ?_ ..
    | with_reducible refine State.copyIn_kept ?_ ..
    | split)

theorem execQueueDisable_kept {s0 s : State} (h : Kept s0 s) :
    KeptAns s0 (execQueueDisable s) := by
  unfold execQueueDisable
  refine KeptAns.next ?_
  repeat' (first
    | with_reducible assumption
    | (extract_lets +onlyGivenNames x)
    | with_reducible refine State.queueStop_kept ?_ ..
    | split)

theorem execPoisonedTlp_kept {s0 s : State} (h : Kept s0 s) (kind : Fin 3) (q : Fin 64) (n : Nat) (data : List Byte) :
    KeptAns s0 (execPoisonedTlp kind q n data s) := by
  unfold execPoisonedTlp
  refine KeptAns.next ?_
  repeat' (first
    | with_reducible assumption
    | (extract_lets +onlyGivenNames x; first
          | (refine Kept.via x ?_ (fun hx => ?_); subst x; rotate_left; clear_value x)
          | skip)
    | with_reducible refine State.bump_kept ?_ ..
    | with_reducible refine State.queueErr_kept ?_ ..
    | with_reducible refine State.copyHost_kept ?_ ..
    | with_reducible refine State.raise_kept ?_ ..
    | with_reducible refine State.hostEnd_kept ?_ ..
    | with_reducible refine State.dmaErr_kept ?_ ..
    | split)

theorem State.postDescs_kept {s0 s : State} (h : Kept s0 s) (x : Pool) (tail : Nat) (data : List Byte) (a0 : Nat) :
    Kept s0 (State.postDescs s x tail data a0).1 := by
  induction a0 generalizing s x tail data with
  | zero =>
    unfold State.postDescs
    repeat' (with_reducible assumption)
  | succ n ih =>
    unfold State.postDescs
    repeat' (first
      | with_reducible assumption
      | (extract_lets +onlyGivenNames x)
      | with_reducible refine ih ?_ ..
      | with_reducible refine State.writeMem_kept ?_ ..
      | (split <;> first
            | (rename_i e; refine Kept.viaFst e ?_ (fun _ => ?_))
            | skip))

theorem execPostTasks_kept {s0 s : State} (h : Kept s0 s) (q : Fin 64) (n : Nat) (data : List Byte) (err : Fin 5) :
    KeptAns s0 (execPostTasks q n data err s) := by
  unfold execPostTasks
  refine KeptAns.next ?_
  repeat' (first
    | with_reducible assumption
    | (extract_lets +onlyGivenNames x; first
          | clear_value x
          | skip)
    | with_reducible refine State.doorbell_kept ?_ ..
    | with_reducible refine State.postDescs_kept ?_ ..
    | with_reducible refine State.hostEnd_kept ?_ ..
    | with_reducible refine State.dmaErr_kept ?_ ..
    | (split <;> first
          | (rename_i e; refine Kept.viaFst e ?_ (fun _ => ?_))
          | skip))

theorem execBar2Read_kept {s0 s : State} (h : Kept s0 s) (off : Fin 68719476736) (n : Nat) (errs : LineErrs) :
    KeptAns s0 (execBar2Read off n errs s) := by
  unfold execBar2Read
  refine KeptAns.next ?_
  repeat' (first
    | with_reducible assumption
    | (extract_lets +onlyGivenNames x; first
          | (refine Kept.via x ?_ (fun hx => ?_); subst x; rotate_left; clear_value x)
          | skip)
    | with_reducible refine State.bump_kept ?_ ..
    | with_reducible refine State.findErrs_kept ?_ ..
    | with_reducible refine State.raise_kept ?_ ..
    | with_reducible refine State.readMem_kept ?_ ..
    | with_reducible refine State.emit_kept ?_ ..
    | (split <;> first
          | (rename_i e; refine Kept.viaFst e ?_ (fun _ => ?_))
          | skip))

theorem execPcieLinkDown_kept {s0 s : State} (h : Kept s0 s) :
    KeptAns s0 (execPcieLinkDown s) := by
  unfold execPcieLinkDown
  refine KeptAns.next ?_
  repeat' (first
    | with_reducible assumption
    | (extract_lets +onlyGivenNames x)
    | with_reducible refine State.pcieDown_kept ?_ ..
    | with_reducible refine State.fnReset_kept ?_ ..)

theorem execMsixHoldoffEnd_kept {s0 s : State} (h : Kept s0 s) (v : Fin 2048) :
    KeptAns s0 (execMsixHoldoffEnd v s) := by
  unfold execMsixHoldoffEnd
  refine KeptAns.next ?_
  repeat' (first
    | with_reducible assumption
    | (extract_lets +onlyGivenNames x)
    | with_reducible refine State.sendVector_kept ?_ ..)

theorem execWaitSyncRelease_kept {s0 s : State} (h : Kept s0 s) (q : Fin 64) (n : Nat) :
    KeptAns s0 (execWaitSyncRelease q n s) := by
  unfold execWaitSyncRelease
  refine KeptAns.next ?_
  repeat' (first
    | with_reducible assumption
    | (extract_lets +onlyGivenNames x)
    | with_reducible refine State.judgeWait_kept ?_ ..
    | split)

theorem State.copyOut_kept {s0 s : State} (h : Kept s0 s) (addr : Nat) (n : Nat) (got : List Byte) (a0 : Nat) :
    Kept s0 (State.copyOut s addr n got a0).1 := by
  induction a0 generalizing s addr n got with
  | zero =>
    unfold State.copyOut
    repeat' (with_reducible assumption)
  | succ n ih =>
    unfold State.copyOut
    repeat' (first
      | with_reducible assumption
      | (extract_lets +onlyGivenNames x; first
            | clear_value x
            | skip)
      | with_reducible refine ih ?_ ..
      | with_reducible refine State.readMem_kept ?_ ..
      | (split <;> first
            | (rename_i e; refine Kept.viaFst e ?_ (fun _ => ?_))
            | skip))

theorem execCopyD2h_kept {s0 s : State} (h : Kept s0 s) (q : Fin 64) (n : Nat) (errs : LineErrs) (part : Option Nat) (err : Fin 5) :
    KeptAns s0 (execCopyD2h q n errs part err s) := by
  unfold execCopyD2h
  refine KeptAns.next ?_
  repeat' (first
    | with_reducible assumption
    | (extract_lets +onlyGivenNames x; first
          | (refine Kept.via x ?_ (fun hx => ?_); subst x; rotate_left; clear_value x)
          | clear_value x
          | skip)
    | with_reducible refine State.findErrs_kept ?_ ..
    | with_reducible refine State.copyGoes_kept ?_ ..
    | with_reducible refine State.copyOut_kept ?_ ..
    | with_reducible refine State.hostEnd_kept ?_ ..
    | with_reducible refine State.dmaErr_kept ?_ ..
    | with_reducible refine State.emit_kept ?_ ..
    | (split <;> first
          | (rename_i e; refine Kept.viaFst e ?_ (fun _ => ?_))
          | skip))

theorem execHotReset_kept {s0 s : State} (h : Kept s0 s) :
    KeptAns s0 (execHotReset s) := by
  unfold execHotReset
  refine KeptAns.next ?_
  repeat' (first
    | with_reducible assumption
    | (extract_lets +onlyGivenNames x)
    | with_reducible refine State.pcieDown_kept ?_ ..
    | with_reducible refine State.fnReset_kept ?_ ..)

theorem execNop_kept {s0 s : State} (h : Kept s0 s) (q : Fin 64) (n : Nat) :
    KeptAns s0 (execNop q n s) := by
  unfold execNop
  refine KeptAns.next ?_
  repeat' (first
    | with_reducible assumption
    | (extract_lets +onlyGivenNames x)
    | with_reducible refine State.hostEnd_kept ?_ ..
    | split)

theorem State.writeDrop_kept {s0 s : State} (h : Kept s0 s) (old : State) (errs : LineErrs) (addr : Nat) (n : Nat) :
    Kept s0 (State.writeDrop s old errs addr n) := by
  unfold State.writeDrop
  repeat' (first
    | with_reducible assumption
    | (extract_lets +onlyGivenNames x; first
          | clear_value x
          | skip)
    | with_reducible refine State.bump_kept ?_ ..
    | with_reducible refine State.raise_kept ?_ ..
    | split)

theorem execBar2Write_kept {s0 s : State} (h : Kept s0 s) (off : Fin 68719476736) (data : List Byte) (errs : LineErrs) :
    KeptAns s0 (execBar2Write off data errs s) := by
  unfold execBar2Write
  refine KeptAns.next ?_
  repeat' (first
    | with_reducible assumption
    | (extract_lets +onlyGivenNames x; first
          | (refine Kept.via x ?_ (fun hx => ?_); subst x; rotate_left; clear_value x)
          | clear_value x
          | skip)
    | with_reducible refine State.bump_kept ?_ ..
    | with_reducible refine State.findRmw_kept ?_ ..
    | with_reducible refine State.raise_kept ?_ ..
    | with_reducible refine State.writeDrop_kept ?_ ..
    | with_reducible refine State.writeWhole_kept ?_ ..
    | (split <;> first
          | (rename_i e; refine Kept.viaFst e ?_ (fun _ => ?_))
          | skip)
    | with_reducible exact Kept.upd (by assumption) rfl)

theorem execQueueEnable_kept {s0 s : State} (h : Kept s0 s) :
    KeptAns s0 (execQueueEnable s) := by
  unfold execQueueEnable
  refine KeptAns.next ?_
  repeat' (first
    | with_reducible assumption
    | (extract_lets +onlyGivenNames x)
    | with_reducible refine State.queueEnable_kept ?_ ..
    | split)

theorem execHostCqHeadWrite_kept {s0 s : State} (h : Kept s0 s) (q : Fin 64) (v : Word) :
    KeptAns s0 (execHostCqHeadWrite q v s) := by
  unfold execHostCqHeadWrite
  refine KeptAns.next ?_
  repeat' (first
    | with_reducible assumption
    | (extract_lets +onlyGivenNames x; clear_value x)
    | with_reducible refine State.queueErr_kept ?_ ..
    | with_reducible refine State.setHq_kept ?_ ..
    | split)

theorem execFlr_kept {s0 s : State} (h : Kept s0 s) :
    KeptAns s0 (execFlr s) := by
  unfold execFlr
  refine KeptAns.next ?_
  repeat' (first
    | with_reducible assumption
    | (extract_lets +onlyGivenNames x)
    | with_reducible refine State.fnReset_kept ?_ ..)

theorem State.complete_kept {s0 s : State} (h : Kept s0 s) (q : Nat) (c : HostCmd) (bytes : List Byte) :
    Kept s0 (State.complete s q c bytes) := by
  unfold State.complete
  repeat' (first
    | with_reducible assumption
    | (extract_lets +onlyGivenNames x; first
          | (refine Kept.via x ?_ (fun hx => ?_); subst x; rotate_left; clear_value x)
          | clear_value x)
    | with_reducible refine State.setHq_kept ?_ ..
    | with_reducible refine State.raiseVector_kept ?_ ..
    | with_reducible refine State.emit_kept ?_ ..
    | split)

theorem execHostCommandDone_kept {s0 s : State} (h : Kept s0 s) (q : Fin 64) (n : Nat) :
    KeptAns s0 (execHostCommandDone q n s) := by
  unfold execHostCommandDone
  refine KeptAns.next ?_
  repeat' (first
    | with_reducible assumption
    | (extract_lets +onlyGivenNames x; first
          | (refine Kept.via x ?_ (fun hx => ?_); subst x; rotate_left; clear_value x)
          | clear_value x
          | skip)
    | with_reducible refine State.complete_kept ?_ ..
    | with_reducible refine State.record_kept ?_ ..
    | with_reducible refine State.recordLost_kept ?_ ..
    | with_reducible refine State.setHq_kept ?_ ..
    | with_reducible refine State.readMem_kept ?_ ..
    | (split <;> first
          | (rename_i e; refine Kept.viaFst e ?_ (fun _ => ?_))
          | skip))

theorem execWaitSync_kept {s0 s : State} (h : Kept s0 s) (q : Fin 64) (n : Nat) :
    KeptAns s0 (execWaitSync q n s) := by
  unfold execWaitSync
  refine KeptAns.next ?_
  repeat' (first
    | with_reducible assumption
    | (extract_lets +onlyGivenNames x; first
          | (refine Kept.via x ?_ (fun hx => ?_); subst x; rotate_left; clear_value x)
          | clear_value x
          | skip)
    | with_reducible refine State.syncRefuse_kept ?_ ..
    | with_reducible refine State.setHq_kept ?_ ..
    | with_reducible refine State.judgeWait_kept ?_ ..
    | with_reducible refine State.hostEnd_kept ?_ ..
    | split)

theorem execPcieLinkUp_kept {s0 s : State} (h : Kept s0 s) (gen : Fin 8) (width : Fin 8) (flit : Bool) :
    KeptAns s0 (execPcieLinkUp gen width flit s) := by
  unfold execPcieLinkUp
  refine KeptAns.next ?_
  repeat' (first
    | with_reducible assumption
    | (extract_lets +onlyGivenNames x; first
          | (refine Kept.via x ?_ (fun hx => ?_); subst x; rotate_left; clear_value x)
          | skip)
    | with_reducible refine State.setF_kept ?_ ..
    | with_reducible refine State.raise_kept ?_ ..)

end Sys2Proof.Machine
end

