-- ==== Sys2Proof/Laws/KeptPowerOps.lean ====
section
/-! SUPPORT. Each operation and meaning of Machine/PowerOps.lean keeps what every command keeps (Safety.lean). -/

set_option Elab.async false
set_option linter.tactic.unusedName false
set_option linter.unusedTactic false

namespace Sys2Proof.Machine

open Sys2Proof

theorem State.capResolve_kept {s0 s : State} (h : Kept s0 s) :
    Kept s0 (State.capResolve s) := by
  unfold State.capResolve
  repeat' (first
    | with_reducible assumption
    | (extract_lets +onlyGivenNames x; first
          | (refine Kept.via x ?_ (fun hx => ?_); subst x; rotate_left; clear_value x)
          | (have hx := fun a => x a; clear hx; subst x; beta_reduce)
          | clear_value x
          | skip)
    | with_reducible refine State.setPw_kept ?_ ..
    | with_reducible refine State.setF_kept ?_ ..
    | with_reducible refine State.raise_kept ?_ ..
    | split)

theorem State.setCapFlow_kept {s0 s : State} (h : Kept s0 s) (w : Nat) :
    Kept s0 (State.setCapFlow s w) := by
  unfold State.setCapFlow
  repeat' (first
    | with_reducible assumption
    | (extract_lets +onlyGivenNames x)
    | with_reducible refine State.capResolve_kept ?_ ..
    | with_reducible refine State.setF_kept ?_ ..)

theorem State.inCycle_kept {s0 s : State} {f : State → State} (h : Kept s0 s) (hf : ∀ {s}, Kept s0 s → Kept s0 (f s)) (same : Bool) :
    Kept s0 (State.inCycle same f s) := by
  unfold State.inCycle
  refine Kept.ite ?_ (hf h)
  exact State.setPw_kept (hf (State.setPw_kept h _)) _

theorem State.followFlow_kept {s0 s : State} (h : Kept s0 s) (flow : Nat) (inlet : Int) (report : Bool) :
    Kept s0 (State.followFlow s flow inlet report) := by
  unfold State.followFlow
  repeat' (first
    | with_reducible assumption
    | (extract_lets +onlyGivenNames x; first
          | (refine Kept.via x ?_ (fun hx => ?_); subst x; rotate_left; clear_value x)
          | clear_value x
          | skip)
    | with_reducible refine State.setPw_kept ?_ ..
    | with_reducible refine State.setCapFlow_kept ?_ ..
    | with_reducible refine State.tickFree_kept ?_ ..
    | split)

theorem State.floorOn_kept {s0 s : State} (h : Kept s0 s) (cause : Nat) :
    Kept s0 (State.floorOn s cause) := by
  unfold State.floorOn
  repeat' (first
    | with_reducible assumption
    | (extract_lets +onlyGivenNames x; first
          | (refine Kept.via x ?_ (fun hx => ?_); subst x; rotate_left; clear_value x)
          | clear_value x
          | skip)
    | with_reducible refine State.setPw_kept ?_ ..
    | with_reducible refine State.setF_kept ?_ ..
    | with_reducible refine State.setFcast_kept ?_ ..
    | with_reducible refine State.raise_kept ?_ ..
    | with_reducible refine State.setCapFlow_kept ?_ ..
    | split)

theorem State.useFlow_kept {s0 s : State} (h : Kept s0 s) (flow : Nat) (inlet : Int) (report : Bool) :
    Kept s0 (State.useFlow s flow inlet report) := by
  unfold State.useFlow
  repeat' (first
    | with_reducible assumption
    | (extract_lets +onlyGivenNames x; first
          | (refine Kept.via x ?_ (fun hx => ?_); subst x; rotate_left; clear_value x)
          | clear_value x
          | skip)
    | with_reducible refine State.setPw_kept ?_ ..
    | with_reducible refine State.setF_kept ?_ ..
    | with_reducible refine State.followFlow_kept ?_ ..
    | with_reducible refine State.floorOn_kept ?_ ..
    | split)

theorem State.inferFlow_kept {s0 s : State} (h : Kept s0 s) (inlet : Int) (outlet : Int) :
    Kept s0 (State.inferFlow s inlet outlet).2 := by
  unfold State.inferFlow
  repeat' (first
    | with_reducible assumption
    | (extract_lets +onlyGivenNames x; clear_value x)
    | with_reducible refine State.tickFree_kept ?_ ..)

end Sys2Proof.Machine
end

