-- ==== Sys2Proof/Laws/KeptPlaceOps.lean ====
section
/-! SUPPORT. Each operation and meaning of Machine/PlaceOps.lean keeps what every command keeps (Safety.lean). -/

set_option Elab.async false
set_option linter.tactic.unusedName false
set_option linter.unusedTactic false

namespace Sys2Proof.Machine

open Sys2Proof

theorem State.setReq_kept {s0 s : State} (h : Kept s0 s) (q : PlaceReq) :
    Kept s0 (State.setReq s q) := by
  unfold State.setReq
  repeat' (first
    | (extract_lets +onlyGivenNames x; refine Kept.viaMem x rfl (fun hx => ?_); clear_value x)
    | with_reducible exact Kept.upd (by assumption) (by assumption))

theorem State.reqEnd_kept {s0 s : State} (h : Kept s0 s) (q : PlaceReq) (st : Nat) (n : Nat) :
    Kept s0 (State.reqEnd s q st n) := by
  unfold State.reqEnd
  repeat' (first
    | with_reducible assumption
    | with_reducible refine State.setReq_kept ?_ ..)

theorem State.guestAnswer_kept {s0 s : State} (h : Kept s0 s) (op : Nat) (page : Nat) (k : Nat) (status : Nat) (room : Nat) :
    Kept s0 (State.guestAnswer s op page k status room) := by
  unfold State.guestAnswer
  repeat' (first
    | with_reducible assumption
    | (extract_lets +onlyGivenNames x; first
          | (refine Kept.via x ?_ (fun hx => ?_); subst x; rotate_left; clear_value x)
          | (refine Kept.viaMem x rfl (fun hx => ?_); clear_value x)
          | clear_value x
          | skip)
    | with_reducible refine State.reqEnd_kept ?_ ..
    | with_reducible refine State.copyAll_kept ?_ ..
    | with_reducible refine State.drainAll_kept ?_ ..
    | with_reducible refine State.setReq_kept ?_ ..
    | with_reducible refine State.guestSend_kept ?_ ..
    | with_reducible refine State.abandonMove_kept ?_ ..
    | with_reducible refine State.setPg_kept ?_ ..
    | split
    | with_reducible exact Kept.upd (by assumption) (by assumption))

theorem State.spillMany_kept {s0 s : State} (h : Kept s0 s) (a0 : Nat) :
    Kept s0 (State.spillMany s a0) := by
  induction a0 generalizing s with
  | zero =>
    unfold State.spillMany
    repeat' (with_reducible assumption)
  | succ n ih =>
    unfold State.spillMany
    repeat' (first
      | with_reducible assumption
      | (extract_lets +onlyGivenNames x)
      | with_reducible refine ih ?_ ..
      | with_reducible refine State.spillOne_kept ?_ ..
      | (split <;> first
            | (rename_i e; refine KeptOpt.via e ?_ (fun _ => ?_))
            | skip))

theorem State.allocStep_kept {s0 s : State} (h : Kept s0 s) (q : PlaceReq) (first : Bool) :
    Kept s0 (State.allocStep s q first) := by
  unfold State.allocStep
  repeat' (first
    | with_reducible assumption
    | (extract_lets +onlyGivenNames x; clear_value x)
    | with_reducible refine State.reqEnd_kept ?_ ..
    | with_reducible refine State.spillMany_kept ?_ ..
    | split)

theorem State.spotAll_kept {s0 s : State} (h : Kept s0 s) (q : PlaceReq) (a0 : List Nat) :
    Kept s0 (State.spotAll s q a0) := by
  induction a0 generalizing s q with
  | nil =>
    unfold State.spotAll
    repeat' (first
      | with_reducible assumption
      | with_reducible refine State.setReq_kept ?_ ..)
  | cons b l ih =>
    unfold State.spotAll
    repeat' (first
      | with_reducible assumption
      | (extract_lets +onlyGivenNames x; first
            | (have hx := fun a => x a; clear hx; subst x; beta_reduce)
            | clear_value x
            | skip)
      | with_reducible refine ih ?_ ..
      | with_reducible refine State.reqEnd_kept ?_ ..
      | with_reducible refine State.setReq_kept ?_ ..
      | with_reducible refine State.targetDown_kept ?_ ..
      | with_reducible refine State.guestSend_kept ?_ ..
      | with_reducible refine State.targetPlace_kept ?_ ..
      | (split <;> first
            | (rename_i e; refine Kept.viaSnd e ?_ (fun _ => ?_))
            | skip))

theorem State.spillFirstStart_kept {s0 s : State} (h : Kept s0 s) (q : PlaceReq) :
    Kept s0 (State.spillFirstStart s q) := by
  unfold State.spillFirstStart
  repeat' (first
    | with_reducible assumption
    | (extract_lets +onlyGivenNames x; first
          | clear_value x
          | skip)
    | with_reducible refine State.reqEnd_kept ?_ ..
    | with_reducible refine State.spotAll_kept ?_ ..
    | with_reducible refine State.setReq_kept ?_ ..
    | split)

theorem State.pinStep_kept {s0 s : State} (h : Kept s0 s) (a0 : Nat) :
    Kept s0 (State.pinStep s a0) := by
  induction a0 generalizing s with
  | zero =>
    unfold State.pinStep
    repeat' (with_reducible assumption)
  | succ n ih =>
    unfold State.pinStep
    repeat' (first
      | with_reducible assumption
      | (extract_lets +onlyGivenNames x; first
            | (have hx := fun a => x a; clear hx; subst x; beta_reduce)
            | clear_value x
            | skip)
      | with_reducible refine ih ?_ ..
      | with_reducible refine State.reqEnd_kept ?_ ..
      | with_reducible refine State.setReq_kept ?_ ..
      | with_reducible refine State.startMove_kept ?_ ..
      | with_reducible refine State.setPg_kept ?_ ..
      | with_reducible refine State.spillFrom_kept ?_ ..
      | with_reducible refine State.takeFrame_kept ?_ ..
      | with_reducible refine KeptOpt.getD ?_ ?_
      | (split <;> first
            | (rename_i e; refine KeptOpt2.via e ?_ (fun _ => ?_))
            | skip))

theorem State.reqServe_kept {s0 s : State} (h : Kept s0 s) (q : PlaceReq) :
    Kept s0 (State.reqServe s q) := by
  unfold State.reqServe
  repeat' (first
    | with_reducible assumption
    | (extract_lets +onlyGivenNames x; first
          | clear_value x
          | skip)
    | with_reducible refine State.allocStep_kept ?_ ..
    | with_reducible refine State.reqEnd_kept ?_ ..
    | with_reducible refine State.setReq_kept ?_ ..
    | with_reducible refine State.spillFirstStart_kept ?_ ..
    | with_reducible refine State.pinStep_kept ?_ ..
    | split)

theorem State.reqStep_kept {s0 s : State} (h : Kept s0 s) :
    Kept s0 (State.reqStep s) := by
  unfold State.reqStep
  repeat' (first
    | with_reducible assumption
    | with_reducible refine State.allocStep_kept ?_ ..
    | with_reducible refine State.reqServe_kept ?_ ..
    | with_reducible refine State.pinStep_kept ?_ ..
    | split)

theorem State.placeGoOn_kept {s0 s : State} (h : Kept s0 s) :
    Kept s0 (State.placeGoOn s) := by
  unfold State.placeGoOn
  repeat' (first
    | with_reducible assumption
    | (extract_lets +onlyGivenNames x)
    | with_reducible refine State.drainAll_kept ?_ ..
    | with_reducible refine State.reqStep_kept ?_ ..)

theorem State.spillEnd_kept {s0 s : State} (h : Kept s0 s) (page : Nat) (st : Nat) :
    Kept s0 (State.spillEnd s page st) := by
  unfold State.spillEnd
  repeat' (first
    | with_reducible assumption
    | (extract_lets +onlyGivenNames x; first
          | clear_value x
          | skip)
    | with_reducible refine State.placeGoOn_kept ?_ ..
    | with_reducible refine State.targetDown_kept ?_ ..
    | with_reducible refine State.abandonMove_kept ?_ ..
    | with_reducible refine State.losePage_kept ?_ ..
    | split)

theorem State.reqStart_kept {s0 s : State} (h : Kept s0 s) (op : Nat) (pin : Nat) (die : Nat) (spillFirst : Bool) :
    Kept s0 (State.reqStart s op pin die spillFirst) := by
  unfold State.reqStart
  repeat' (first
    | with_reducible assumption
    | (extract_lets +onlyGivenNames x; first
          | (refine Kept.via x ?_ (fun hx => ?_); subst x; rotate_left; clear_value x)
          | clear_value x)
    | with_reducible refine State.setF_kept ?_ ..
    | with_reducible refine State.setReq_kept ?_ ..
    | with_reducible refine State.reqServe_kept ?_ ..
    | split)

theorem State.dropBytes_kept {s0 s : State} (h : Kept s0 s) (a0 : PgRef) :
    Kept s0 (State.dropBytes s a0) := by
  unfold State.dropBytes
  split
  · exact Kept.updMem h (fun w => Memory.wf_delRange w _ _)
  · exact Kept.upd h rfl

theorem State.allocSpots_kept {s0 s : State} (h : Kept s0 s) (q : PlaceReq) :
    Kept s0 (State.allocSpots s q) := by
  unfold State.allocSpots
  repeat' (first
    | with_reducible assumption
    | (extract_lets +onlyGivenNames x; first
          | (refine Kept.via x ?_ (fun hx => ?_); subst x; rotate_left; clear_value x)
          | clear_value x
          | skip)
    | with_reducible refine State.setPg_kept ?_ ..
    | with_reducible refine State.emit_kept ?_ ..
    | with_reducible refine State.dropBytes_kept ?_ ..
    | with_reducible refine Kept.foldl _ ?_ ?_
    | split
    | (intro _ _ _; beta_reduce))

theorem State.takeAny_kept {s0 s : State} (h : Kept s0 s) :
    KeptOpt2 s0 (State.takeAny s) := by
  exact KeptOpt2.findSome _ (fun _ => KeptOpt2.map (fun _ => Kept.upd h rfl))

theorem State.clearFrameUe_kept {s0 s : State} (h : Kept s0 s) (id : Nat) :
    Kept s0 (State.clearFrameUe s id) := by
  unfold State.clearFrameUe
  repeat' (first
    | with_reducible assumption
    | (extract_lets +onlyGivenNames x; first
          | (refine Kept.via x ?_ (fun hx => ?_); subst x; rotate_left; clear_value x)
          | (refine Kept.viaMem x rfl (fun hx => ?_); clear_value x))
    | with_reducible refine State.setF_kept ?_ ..
    | with_reducible exact Kept.upd (by assumption) (by assumption))

theorem State.leaveFrame_kept {s0 s : State} (h : Kept s0 s) (id : Nat) :
    Kept s0 (State.leaveFrame s id) := by
  unfold State.leaveFrame
  repeat' (first
    | with_reducible assumption
    | (extract_lets +onlyGivenNames x; first
          | (refine Kept.via x ?_ (fun hx => ?_); subst x; rotate_left; clear_value x)
          | clear_value x
          | skip)
    | with_reducible refine State.zeroFrame_kept ?_ ..
    | with_reducible refine State.drainStep_kept ?_ ..
    | with_reducible refine State.clearFrameUe_kept ?_ ..
    | with_reducible refine State.tryRetire_kept ?_ ..
    | split)

theorem State.freePage_kept {s0 s : State} (h : Kept s0 s) (r : PgRef) :
    Kept s0 (State.freePage s r) := by
  unfold State.freePage
  repeat' (first
    | with_reducible assumption
    | (extract_lets +onlyGivenNames x; first
          | (refine Kept.via x ?_ (fun hx => ?_); subst x; rotate_left; clear_value x)
          | (refine Kept.viaMem x rfl (fun hx => ?_); clear_value x)
          | clear_value x
          | skip)
    | with_reducible refine State.guestSend_kept ?_ ..
    | with_reducible refine State.abandonMove_kept ?_ ..
    | with_reducible refine State.setPg_kept ?_ ..
    | with_reducible refine State.leaveFrame_kept ?_ ..
    | with_reducible refine State.dropBytes_kept ?_ ..
    | split
    | with_reducible exact Kept.upd (by assumption) (by assumption))

theorem State.freePages_kept {s0 s : State} (h : Kept s0 s) (l : List PgRef) :
    Kept s0 (State.freePages s l) := by
  unfold State.freePages
  repeat' (first
    | with_reducible assumption
    | (extract_lets +onlyGivenNames x)
    | with_reducible refine State.placeCounts_kept ?_ ..
    | with_reducible refine State.freePage_kept ?_ ..
    | with_reducible refine Kept.foldl _ ?_ ?_
    | (intro _ _ _; beta_reduce))

theorem State.guestServe_kept {s0 s : State} (h : Kept s0 s) (owner : Nat) (page : Nat) (op : Nat) :
    Kept s0 (State.guestServe s owner page op).1 := by
  unfold State.guestServe
  repeat' (first
    | with_reducible assumption
    | (extract_lets +onlyGivenNames x; first
          | (have hx := fun a => x a; clear hx; subst x; beta_reduce)
          | clear_value x
          | skip)
    | with_reducible refine State.bump_kept ?_ ..
    | with_reducible refine State.raise_kept ?_ ..
    | with_reducible refine State.tickFree_kept ?_ ..
    | with_reducible refine State.setPg_kept ?_ ..
    | with_reducible refine State.freePages_kept ?_ ..
    | with_reducible refine State.placeCounts_kept ?_ ..
    | with_reducible refine State.dropBytes_kept ?_ ..
    | with_reducible refine State.takeAny_kept ?_ ..
    | (split <;> first
          | (rename_i e; refine KeptOpt2.via e ?_ (fun _ => ?_))
          | skip))

theorem State.pickF_kept {s0 s : State} (h : Kept s0 s) (f : Fld) (v : Option Nat) :
    Kept s0 (State.pickF s f v) := by
  unfold State.pickF
  repeat' (first
    | with_reducible assumption
    | (extract_lets +onlyGivenNames x)
    | with_reducible refine State.setF_kept ?_ ..
    | with_reducible refine State.tickFree_kept ?_ ..
    | split)

theorem State.loadQ_kept {s0 s : State} (h : Kept s0 s) (page : Nat) :
    Kept s0 (State.loadQ s page) := by
  unfold State.loadQ
  repeat' (first
    | with_reducible assumption
    | (extract_lets +onlyGivenNames x; first
          | (refine Kept.via x ?_ (fun hx => ?_); subst x; rotate_left; clear_value x)
          | clear_value x)
    | with_reducible refine State.pickF_kept ?_ ..
    | with_reducible refine State.setF_kept ?_ ..)

theorem State.allocPages_kept {s0 s : State} (h : Kept s0 s) (q : PlaceReq) :
    Kept s0 (State.allocPages s q) := by
  unfold State.allocPages
  repeat' (first
    | with_reducible assumption
    | (extract_lets +onlyGivenNames x; first
          | clear_value x
          | skip)
    | with_reducible refine State.setPg_kept ?_ ..
    | with_reducible refine State.dropBytes_kept ?_ ..
    | with_reducible refine State.takeFrame_kept ?_ ..
    | with_reducible refine Kept.foldl _ ?_ ?_
    | (split <;> first
          | (rename_i e; refine KeptOpt2.via e ?_ (fun _ => ?_))
          | skip)
    | (intro _ _ _; beta_reduce))

theorem State.reqEffect_kept {s0 s : State} (h : Kept s0 s) (q : PlaceReq) :
    Kept s0 (State.reqEffect s q) := by
  unfold State.reqEffect
  repeat' (first
    | with_reducible assumption
    | with_reducible refine State.loadQ_kept ?_ ..
    | with_reducible refine State.allocPages_kept ?_ ..
    | with_reducible refine State.allocSpots_kept ?_ ..
    | with_reducible refine State.freePages_kept ?_ ..
    | split)

theorem State.releaseSpots_kept {s0 s : State} (h : Kept s0 s) (q : PlaceReq) :
    Kept s0 (State.releaseSpots s q) := by
  unfold State.releaseSpots
  repeat' (first
    | with_reducible assumption
    | (extract_lets +onlyGivenNames x)
    | with_reducible refine State.guestSend_kept ?_ ..
    | with_reducible refine Kept.foldl _ ?_ ?_
    | split
    | (intro _ _ _; beta_reduce))

theorem State.reqFinish_kept {s0 s : State} (h : Kept s0 s) (q : PlaceReq) (st : Nat) :
    Kept s0 (State.reqFinish s q st) := by
  unfold State.reqFinish
  repeat' (first
    | with_reducible assumption
    | (extract_lets +onlyGivenNames x; first
          | (refine Kept.via x ?_ (fun hx => ?_); subst x; rotate_left; clear_value x)
          | (refine Kept.viaMem x rfl (fun hx => ?_); clear_value x)
          | clear_value x
          | skip)
    | with_reducible refine State.reqEffect_kept ?_ ..
    | with_reducible refine State.setF_kept ?_ ..
    | with_reducible refine State.raise_kept ?_ ..
    | with_reducible refine State.releaseSpots_kept ?_ ..
    | with_reducible refine State.placeCounts_kept ?_ ..
    | split
    | with_reducible exact Kept.upd (by assumption) (by assumption))

theorem State.reqDone_kept {s0 s : State} (h : Kept s0 s) :
    Kept s0 (State.reqDone s) := by
  unfold State.reqDone
  repeat' (first
    | with_reducible assumption
    | (extract_lets +onlyGivenNames x; refine Kept.via x ?_ (fun hx => ?_); subst x; rotate_left; clear_value x)
    | with_reducible refine State.setReq_kept ?_ ..
    | with_reducible refine State.reqFinish_kept ?_ ..
    | with_reducible refine State.reqStep_kept ?_ ..
    | split)

theorem State.hcBack_kept {s0 s : State} (h : Kept s0 s) :
    Kept s0 (State.hcBack s) := by
  unfold State.hcBack
  repeat' (first
    | with_reducible assumption
    | (extract_lets +onlyGivenNames x; first
          | (refine Kept.via x ?_ (fun hx => ?_); subst x; rotate_left; clear_value x)
          | skip)
    | with_reducible refine State.drainAll_kept ?_ ..
    | with_reducible refine State.reqStep_kept ?_ ..
    | with_reducible refine State.tryRetire_kept ?_ ..
    | with_reducible refine Kept.foldl _ ?_ ?_
    | (intro _ _ _; beta_reduce))

theorem State.invalidate_kept {s0 s : State} (h : Kept s0 s) (page : Nat) :
    Kept s0 (State.invalidate s page) := by
  unfold State.invalidate
  repeat' (first
    | with_reducible assumption
    | (extract_lets +onlyGivenNames x)
    | with_reducible refine State.flushEntry_kept ?_ ..
    | with_reducible refine Kept.foldl _ ?_ ?_
    | (intro _ _ _; beta_reduce))

theorem State.copyBytes_kept {s0 s : State} (h : Kept s0 s) (p : Page) (m : Move) (lines : Nat) :
    Kept s0 (State.copyBytes s p m lines) := by
  unfold State.copyBytes
  repeat' (first
    | with_reducible assumption
    | (extract_lets +onlyGivenNames x; refine Kept.via x ?_ (fun hx => ?_); subst x; rotate_left; clear_value x)
    | with_reducible refine State.addPair_kept ?_ ..
    | split)

theorem State.moveDone_kept {s0 s : State} (h : Kept s0 s) (r : PgRef) :
    Kept s0 (State.moveDone s r) := by
  unfold State.moveDone
  repeat' (first
    | with_reducible assumption
    | (extract_lets +onlyGivenNames x; first
          | (refine Kept.via x ?_ (fun hx => ?_); subst x; rotate_left; clear_value x)
          | clear_value x
          | skip)
    | with_reducible refine State.invalidate_kept ?_ ..
    | with_reducible refine State.addPair_kept ?_ ..
    | with_reducible refine State.drainStep_kept ?_ ..
    | with_reducible refine State.retireFrame_kept ?_ ..
    | with_reducible refine State.guestSend_kept ?_ ..
    | with_reducible refine State.releaseHeld_kept ?_ ..
    | with_reducible refine State.retireWaiting_kept ?_ ..
    | with_reducible refine State.setPg_kept ?_ ..
    | with_reducible refine State.reqStep_kept ?_ ..
    | with_reducible refine State.leaveFrame_kept ?_ ..
    | with_reducible refine State.placeCounts_kept ?_ ..
    | with_reducible refine State.copyBytes_kept ?_ ..
    | with_reducible refine State.emit_kept ?_ ..
    | split)

theorem State.copyErrs_kept {s0 s : State} (h : Kept s0 s) (r : PgRef) (errs : LineErrs) :
    Kept s0 (State.copyErrs s r errs).1 := by
  unfold State.copyErrs
  repeat' (first
    | with_reducible assumption
    | (extract_lets +onlyGivenNames x; first
          | (refine Kept.via x ?_ (fun hx => ?_); subst x; rotate_left; clear_value x)
          | clear_value x
          | skip)
    | with_reducible refine State.losePage_kept ?_ ..
    | with_reducible refine State.frameErr_kept ?_ ..
    | with_reducible refine Kept.foldl _ ?_ ?_
    | split
    | (intro _ _ _; beta_reduce))

theorem State.startCand_kept {s0 s : State} (h : Kept s0 s) (c : Cand) :
    KeptOpt s0 (State.startCand s c) := by
  unfold State.startCand
  repeat' (first
    | with_reducible assumption
    | (extract_lets +onlyGivenNames x)
    | with_reducible refine State.startMove_kept ?_ ..
    | with_reducible refine State.targetPlace_kept ?_ ..
    | with_reducible refine State.takeFrame_kept ?_ ..
    | with_reducible exact KeptOpt.none
    | with_reducible refine KeptOpt.some ?_
    | split
    | refine KeptOpt2.via (by assumption) ?_ id)

theorem State.startCands_kept {s0 s : State} (h : Kept s0 s) (budget : Nat) (a0 : List Cand) :
    Kept s0 (State.startCands s budget a0) := by
  induction a0 generalizing s budget with
  | nil =>
    unfold State.startCands
    repeat' (with_reducible assumption)
  | cons b l ih =>
    unfold State.startCands
    repeat' (first
      | with_reducible assumption
      | (extract_lets +onlyGivenNames x; first
            | (refine Kept.viaMem x rfl (fun hx => ?_); clear_value x)
            | clear_value x
            | skip)
      | with_reducible refine ih ?_ ..
      | with_reducible refine State.bump_kept ?_ ..
      | with_reducible refine State.bumpBy_kept ?_ ..
      | with_reducible refine State.startCand_kept ?_ ..
      | (split <;> first
            | (rename_i e; refine KeptOpt.via e ?_ (fun _ => ?_))
            | skip)
      | with_reducible exact Kept.upd (by assumption) (by assumption))

theorem State.flushAll_kept {s0 s : State} (h : Kept s0 s) :
    Kept s0 (State.flushAll s) := by
  unfold State.flushAll
  repeat' (first
    | with_reducible assumption
    | (extract_lets +onlyGivenNames x; first
          | (refine Kept.via x ?_ (fun hx => ?_); subst x; rotate_left; clear_value x)
          | (refine Kept.viaMem x rfl (fun hx => ?_); clear_value x)
          | skip)
    | with_reducible refine State.flushEntry_kept ?_ ..
    | with_reducible refine Kept.foldl _ ?_ ?_
    | (intro _ _ _; beta_reduce)
    | with_reducible exact Kept.upd (by assumption) (by assumption))

theorem State.epochEnd_kept {s0 s : State} (h : Kept s0 s) :
    Kept s0 (State.epochEnd s) := by
  unfold State.epochEnd
  repeat' (first
    | with_reducible assumption
    | (extract_lets +onlyGivenNames x; first
          | (refine Kept.via x ?_ (fun hx => ?_); subst x; rotate_left; clear_value x)
          | (refine Kept.viaMem x rfl (fun hx => ?_); clear_value x))
    | with_reducible refine State.flushAll_kept ?_ ..
    | with_reducible refine State.startCands_kept ?_ ..
    | split
    | with_reducible exact Kept.upd (by assumption) (by assumption))

theorem State.passDone_kept {s0 s : State} (h : Kept s0 s) (r : PgRef) (errs : LineErrs) :
    Kept s0 (State.passDone s r errs) := by
  unfold State.passDone
  repeat' (first
    | with_reducible assumption
    | (extract_lets +onlyGivenNames x; first
          | (refine Kept.via x ?_ (fun hx => ?_); subst x; rotate_left; clear_value x)
          | clear_value x
          | skip)
    | with_reducible refine State.placeGoOn_kept ?_ ..
    | with_reducible refine State.abandonMove_kept ?_ ..
    | with_reducible refine State.copyMarked_kept ?_ ..
    | with_reducible refine State.copyErrs_kept ?_ ..
    | with_reducible refine State.setPg_kept ?_ ..
    | with_reducible refine State.copyBytes_kept ?_ ..
    | (split <;> first
          | (rename_i e; refine Kept.viaFst e ?_ (fun _ => ?_))
          | skip))

end Sys2Proof.Machine
end

