-- ==== Sys2Proof/Laws/KeptStageOps.lean ====
section
/-! SUPPORT. Each operation and meaning of Machine/StageOps.lean keeps what every command keeps (Safety.lean). -/

set_option Elab.async false
set_option linter.tactic.unusedName false
set_option linter.unusedTactic false

namespace Sys2Proof.Machine

open Sys2Proof

theorem State.stageMark_kept {s0 s : State} (h : Kept s0 s) (u : UnitId) :
    Kept s0 (State.stageMark s u) := by
  unfold State.stageMark
  repeat' (first
    | with_reducible assumption
    | (extract_lets +onlyGivenNames x; first
          | (refine Kept.via x ?_ (fun hx => ?_); subst x; rotate_left; clear_value x)
          | skip)
    | with_reducible refine State.setF_kept ?_ ..
    | with_reducible refine Kept.foldl _ ?_ ?_
    | (intro _ _ _; beta_reduce))

theorem State.stageW_kept {s0 s : State} (h : Kept s0 s) (u : UnitId) (off : Nat) (w : Word) :
    Kept s0 (State.stageW s u off w) := by
  unfold State.stageW
  repeat' (first
    | (extract_lets +onlyGivenNames x)
    | with_reducible refine State.stageMark_kept ?_ ..
    | with_reducible exact Kept.upd (by assumption) rfl)

end Sys2Proof.Machine
end

