-- ==== Sys2Proof/Laws/KeptDeliverOps.lean ====
section
/-! SUPPORT. Each operation and meaning of Machine/DeliverOps.lean keeps what every command keeps (Safety.lean). -/

set_option Elab.async false
set_option linter.tactic.unusedName false
set_option linter.unusedTactic false

namespace Sys2Proof.Machine

open Sys2Proof

theorem State.atomicReply_kept {s0 s : State} (h : Kept s0 s) (h : Fin 2) (pk : Packet) (old : Nat) (st : Nat) :
    Kept s0 (State.atomicReply s h pk old st) := by
  unfold State.atomicReply
  repeat' (first
    | with_reducible assumption
    | (extract_lets +onlyGivenNames x; clear_value x)
    | with_reducible refine State.inject_kept ?_ ..)

theorem State.atomicAgain_kept {s0 s : State} (h : Kept s0 s) (h : Fin 2) (pk : Packet) :
    Kept s0 (State.atomicAgain s h pk) := by
  unfold State.atomicAgain
  repeat' (first
    | with_reducible assumption
    | (extract_lets +onlyGivenNames x; first
          | clear_value x
          | skip)
    | with_reducible refine State.atomicReply_kept ?_ ..
    | with_reducible refine State.readMem_kept ?_ ..
    | (split <;> first
          | (rename_i e; refine Kept.viaFst e ?_ (fun _ => ?_))
          | skip))

theorem State.guestFailed_kept {s0 s : State} (h : Kept s0 s) (c : Nat) (x : SentPkt) (st : Nat) :
    Kept s0 (State.guestFailed s c x st) := by
  unfold State.guestFailed
  repeat' (first
    | with_reducible assumption
    | with_reducible refine State.guestAnswer_kept ?_ ..
    | split)

theorem State.ownerEnd_kept {s0 s : State} (h : Kept s0 s) (o : Owner) (st : Nat) (fenced : Nat) :
    Kept s0 (State.ownerEnd s o st fenced) := by
  unfold State.ownerEnd
  repeat' (first
    | with_reducible assumption
    | with_reducible refine State.dmRemoteEnd_kept ?_ ..
    | with_reducible refine State.spillEnd_kept ?_ ..
    | with_reducible refine State.emit_kept ?_ ..
    | split)

theorem State.endFlow_kept {s0 s : State} (h : Kept s0 s) (c : Nat) (v : Nat) :
    Kept s0 (State.endFlow s c v) := by
  unfold State.endFlow
  repeat' (first
    | with_reducible assumption
    | (extract_lets +onlyGivenNames x; first
          | (refine Kept.via x ?_ (fun hx => ?_); subst x; rotate_left; clear_value x)
          | clear_value x
          | skip)
    | with_reducible refine State.setFlow_kept ?_ ..
    | with_reducible refine State.guestFailed_kept ?_ ..
    | with_reducible refine State.dmGoAll_kept ?_ ..
    | with_reducible refine State.ownerEnd_kept ?_ ..
    | with_reducible refine State.emit_kept ?_ ..
    | with_reducible refine Kept.foldl _ ?_ ?_
    | split
    | (intro _ _ _; beta_reduce))

theorem State.failFlow_kept {s0 s : State} (h : Kept s0 s) (c : Nat) :
    Kept s0 (State.failFlow s c) := by
  unfold State.failFlow
  repeat' (first
    | with_reducible assumption
    | (extract_lets +onlyGivenNames x; first
          | (refine Kept.via x ?_ (fun hx => ?_); subst x; rotate_left; clear_value x)
          | clear_value x
          | skip)
    | with_reducible refine State.loseTarget_kept ?_ ..
    | with_reducible refine State.setF_kept ?_ ..
    | with_reducible refine State.endFlow_kept ?_ ..
    | with_reducible refine State.raise_kept ?_ ..
    | split)

theorem State.guestBytes_kept {s0 s : State} (h : Kept s0 s) (r : PgRef) (write : Bool) (n : Nat) :
    Kept s0 (State.guestBytes s r write n) := by
  unfold State.guestBytes
  repeat' (first
    | with_reducible assumption
    | (extract_lets +onlyGivenNames x; clear_value x)
    | with_reducible refine State.addPair_kept ?_ ..
    | split)

theorem State.guestCount_kept {s0 s : State} (h : Kept s0 s) (h : Fin 2) (fid : Nat) (addr : Nat) (write : Bool) (n : Nat) :
    Kept s0 (State.guestCount s h fid addr write n) := by
  unfold State.guestCount
  repeat' (first
    | with_reducible assumption
    | (extract_lets +onlyGivenNames x; first
          | clear_value x
          | skip)
    | with_reducible refine State.guestBytes_kept ?_ ..
    | with_reducible refine State.setPg_kept ?_ ..)

theorem State.guestLineWrite_kept {s0 s : State} (h : Kept s0 s) (h : Fin 2) (fid : Nat) (addr : Nat) (bs : List Byte) :
    Kept s0 (State.guestLineWrite s h fid addr bs).1 := by
  unfold State.guestLineWrite
  repeat' (first
    | with_reducible assumption
    | (extract_lets +onlyGivenNames x; first
          | (refine Kept.via x ?_ (fun hx => ?_); subst x; rotate_left; clear_value x)
          | (refine Kept.viaMem x rfl (fun hx => ?_); clear_value x)
          | clear_value x)
    | with_reducible refine State.guestBytes_kept ?_ ..
    | with_reducible refine State.guestCount_kept ?_ ..
    | with_reducible refine State.lineWritten_kept ?_ ..
    | with_reducible refine State.markLine_kept ?_ ..
    | split
    | with_reducible exact Kept.upd (by assumption) (by assumption))

theorem State.guestWrite_kept {s0 s : State} (h : Kept s0 s) (h : Fin 2) (fid : Nat) (addr : Nat) (bs : List Byte) (a0 : Nat) :
    Kept s0 (State.guestWrite s h fid addr bs a0).1 := by
  induction a0 generalizing s h fid addr bs with
  | zero =>
    unfold State.guestWrite
    repeat' (with_reducible assumption)
  | succ n ih =>
    unfold State.guestWrite
    repeat' (first
      | with_reducible assumption
      | (extract_lets +onlyGivenNames x; first
            | clear_value x
            | skip)
      | with_reducible refine ih ?_ ..
      | with_reducible refine State.guestLineWrite_kept ?_ ..
      | (split <;> first
            | (rename_i e; refine Kept.viaFst e ?_ (fun _ => ?_))
            | skip))

theorem State.writeFor_kept {s0 s : State} (h : Kept s0 s) (h : Fin 2) (pk : Packet) (addr : Nat) (bs : List Byte) :
    Kept s0 (State.writeFor s h pk addr bs).1 := by
  unfold State.writeFor
  repeat' (first
    | with_reducible assumption
    | (extract_lets +onlyGivenNames x; have hx := fun a => x a; clear hx; subst x; beta_reduce)
    | with_reducible refine State.writeMem_kept ?_ ..
    | with_reducible refine State.guestWrite_kept ?_ ..
    | split)

theorem State.findGuestErrs_kept {s0 s : State} (h : Kept s0 s) (fid : Nat) (errs : LineErrs) :
    Kept s0 (State.findGuestErrs s fid errs) := by
  unfold State.findGuestErrs
  repeat' (first
    | with_reducible assumption
    | (extract_lets +onlyGivenNames x)
    | with_reducible refine State.frameErr_kept ?_ ..
    | with_reducible refine Kept.foldl _ ?_ ?_
    | split
    | (intro _ _ _; beta_reduce))

theorem State.storeFor_kept {s0 s : State} (h : Kept s0 s) (h : Fin 2) (pk : Packet) (addr : Nat) (errs : LineErrs) :
    Kept s0 (State.storeFor s h pk addr errs).1 := by
  unfold State.storeFor
  repeat' (first
    | with_reducible assumption
    | (extract_lets +onlyGivenNames x; first
          | clear_value x
          | skip)
    | with_reducible refine State.writeFor_kept ?_ ..
    | with_reducible refine State.findRmw_kept ?_ ..
    | with_reducible refine State.findGuestErrs_kept ?_ ..
    | split)

theorem State.haloDeliver_kept {s0 s : State} (h : Kept s0 s) (addr : Nat) (bs : List Byte) :
    Kept s0 (State.haloDeliver s addr bs).1 := by
  unfold State.haloDeliver
  repeat' (first
    | with_reducible assumption
    | (extract_lets +onlyGivenNames x; first
          | (refine Kept.via x ?_ (fun hx => ?_); subst x; rotate_left; clear_value x)
          | (have hx := fun a => x a; clear hx; subst x; beta_reduce)
          | clear_value x
          | skip)
    | with_reducible refine State.bump_kept ?_ ..
    | with_reducible refine State.lsWrite_kept ?_ ..
    | with_reducible refine State.setF_kept ?_ ..
    | with_reducible refine State.fillWindow_kept ?_ ..
    | with_reducible refine State.raise_kept ?_ ..
    | with_reducible refine State.showWindows_kept ?_ ..
    | split)

theorem State.sendCktAck_kept {s0 s : State} (h : Kept s0 s) (h : Fin 2) (c : Nat) :
    Kept s0 (State.sendCktAck s h c) := by
  unfold State.sendCktAck
  repeat' (first
    | with_reducible assumption
    | (extract_lets +onlyGivenNames x; first
          | (refine Kept.via x ?_ (fun hx => ?_); subst x; rotate_left; clear_value x)
          | clear_value x)
    | with_reducible refine State.inject_kept ?_ ..
    | with_reducible refine State.setCkt_kept ?_ ..)

theorem State.ctxDrop_kept {s0 s : State} (h : Kept s0 s) (h : Fin 2) (pk : Packet) :
    Kept s0 (State.ctxDrop s h pk) := by
  unfold State.ctxDrop
  repeat' (first
    | with_reducible assumption
    | with_reducible refine State.bump_kept ?_ ..)

theorem State.findFor_kept {s0 s : State} (h : Kept s0 s) (pk : Packet) (errs : LineErrs) :
    Kept s0 (State.findFor s pk errs) := by
  unfold State.findFor
  repeat' (first
    | with_reducible assumption
    | with_reducible refine State.findErrs_kept ?_ ..
    | with_reducible refine State.findGuestErrs_kept ?_ ..
    | split)

theorem State.noteReject_kept {s0 s : State} (h : Kept s0 s) (h : Fin 2) (fid : Nat) (st : Nat) :
    Kept s0 (State.noteReject s h fid st) := by
  unfold State.noteReject
  repeat' (first
    | with_reducible assumption
    | (extract_lets +onlyGivenNames x; first
          | (refine Kept.via x ?_ (fun hx => ?_); subst x; rotate_left; clear_value x)
          | clear_value x
          | skip)
    | with_reducible refine State.bump_kept ?_ ..
    | with_reducible refine State.setF_kept ?_ ..
    | with_reducible refine State.raise_kept ?_ ..)

theorem State.refuse_kept {s0 s : State} (h : Kept s0 s) (h : Fin 2) (pk : Packet) (st : Nat) :
    Kept s0 (State.refuse s h pk st) := by
  unfold State.refuse
  repeat' (first
    | with_reducible assumption
    | (extract_lets +onlyGivenNames x; first
          | clear_value x
          | skip)
    | with_reducible refine State.inject_kept ?_ ..
    | with_reducible refine State.noteReject_kept ?_ ..)

theorem State.guestRead_kept {s0 s : State} (h : Kept s0 s) (h : Fin 2) (fid : Nat) (addr : Nat) (n : Nat) :
    Kept s0 (State.guestRead s h fid addr n).1 := by
  unfold State.guestRead
  repeat' (first
    | with_reducible assumption
    | (extract_lets +onlyGivenNames x; first
          | clear_value x
          | skip)
    | with_reducible refine State.guestCount_kept ?_ ..
    | with_reducible refine Kept.foldl _ ?_ ?_
    | split
    | (intro _ _ _; beta_reduce))

theorem State.readFor_kept {s0 s : State} (h : Kept s0 s) (h : Fin 2) (pk : Packet) (addr : Nat) (n : Nat) :
    Kept s0 (State.readFor s h pk addr n).1 := by
  unfold State.readFor
  repeat' (first
    | with_reducible assumption
    | with_reducible refine State.readMem_kept ?_ ..
    | with_reducible refine State.guestRead_kept ?_ ..
    | split)

theorem State.readRequest_kept {s0 s : State} (h : Kept s0 s) (h : Fin 2) (pk : Packet) (errs : LineErrs) :
    Kept s0 (State.readRequest s h pk errs) := by
  unfold State.readRequest
  repeat' (first
    | with_reducible assumption
    | (extract_lets +onlyGivenNames x; first
          | (refine Kept.via x ?_ (fun hx => ?_); subst x; rotate_left; clear_value x)
          | clear_value x
          | skip)
    | with_reducible refine State.findFor_kept ?_ ..
    | with_reducible refine State.inject_kept ?_ ..
    | with_reducible refine State.refuse_kept ?_ ..
    | with_reducible refine State.tickFree_kept ?_ ..
    | with_reducible refine State.readFor_kept ?_ ..
    | (split <;> first
          | (rename_i e; refine Kept.viaFst e ?_ (fun _ => ?_))
          | skip))

theorem State.sendAck_kept {s0 s : State} (h : Kept s0 s) (c : Nat) :
    Kept s0 (State.sendAck s c) := by
  unfold State.sendAck
  repeat' (first
    | with_reducible assumption
    | (extract_lets +onlyGivenNames x; first
          | (refine Kept.via x ?_ (fun hx => ?_); subst x; rotate_left; clear_value x)
          | clear_value x)
    | with_reducible refine State.setFlow_kept ?_ ..
    | with_reducible refine State.inject_kept ?_ ..)

theorem State.atomicRequest_kept {s0 s : State} (h : Kept s0 s) (h : Fin 2) (pk : Packet) (errs : LineErrs) :
    Kept s0 (State.atomicRequest s h pk errs) := by
  unfold State.atomicRequest
  repeat' (first
    | with_reducible assumption
    | (extract_lets +onlyGivenNames x; first
          | (refine Kept.via x ?_ (fun hx => ?_); subst x; rotate_left; clear_value x)
          | clear_value x
          | skip)
    | with_reducible refine State.findFor_kept ?_ ..
    | with_reducible refine State.writeFor_kept ?_ ..
    | with_reducible refine State.writeMem_kept ?_ ..
    | with_reducible refine State.refuse_kept ?_ ..
    | with_reducible refine State.atomicReply_kept ?_ ..
    | with_reducible refine State.readFor_kept ?_ ..
    | (split <;> first
          | (rename_i e; refine Kept.viaFst e ?_ (fun _ => ?_))
          | skip))

theorem State.guestRequest_kept {s0 s : State} (h : Kept s0 s) (h : Fin 2) (pk : Packet) :
    Kept s0 (State.guestRequest s h pk) := by
  unfold State.guestRequest
  repeat' (first
    | with_reducible assumption
    | (extract_lets +onlyGivenNames x; first
          | clear_value x
          | skip)
    | with_reducible refine State.inject_kept ?_ ..
    | with_reducible refine State.refuse_kept ?_ ..
    | with_reducible refine State.guestServe_kept ?_ ..
    | split)

theorem State.guestTurned_kept {s0 s : State} (h : Kept s0 s) (pk : Packet) :
    Kept s0 (State.guestTurned s pk) := by
  unfold State.guestTurned
  repeat' (first
    | with_reducible assumption
    | (extract_lets +onlyGivenNames x)
    | with_reducible refine State.bump_kept ?_ ..
    | with_reducible refine State.raise_kept ?_ ..
    | split)

theorem State.packetOp_kept {s0 s : State} (h : Kept s0 s) (h : Fin 2) (pk : Packet) (errs : LineErrs) :
    Kept s0 (State.packetOp s h pk errs).1 := by
  unfold State.packetOp
  repeat' (first
    | with_reducible assumption
    | with_reducible refine State.takePartial_kept ?_ ..
    | with_reducible refine State.storeFor_kept ?_ ..
    | with_reducible refine State.haloDeliver_kept ?_ ..
    | split)

theorem State.msgSignal_kept {s0 s : State} (h : Kept s0 s) (m : OpenMsg) (st : Nat) :
    Kept s0 (State.msgSignal s m st) := by
  unfold State.msgSignal
  repeat' (first
    | with_reducible assumption
    | with_reducible refine State.signal_kept ?_ ..
    | split)

theorem State.flowMessage_kept {s0 s : State} (h : Kept s0 s) (h : Fin 2) (pk : Packet) (errs : LineErrs) :
    Kept s0 (State.flowMessage s h pk errs) := by
  unfold State.flowMessage
  repeat' (first
    | with_reducible assumption
    | (extract_lets +onlyGivenNames x; first
          | (refine Kept.via x ?_ (fun hx => ?_); subst x; rotate_left; clear_value x)
          | clear_value x
          | skip)
    | with_reducible refine State.packetOp_kept ?_ ..
    | with_reducible refine State.setFlow_kept ?_ ..
    | with_reducible refine State.refuse_kept ?_ ..
    | with_reducible refine State.sendAck_kept ?_ ..
    | with_reducible refine State.msgSignal_kept ?_ ..
    | (split <;> first
          | (rename_i e; refine Kept.viaFst e ?_ (fun _ => ?_))
          | skip))

theorem State.flowRequest_kept {s0 s : State} (h : Kept s0 s) (h : Fin 2) (pk : Packet) (errs : LineErrs) :
    Kept s0 (State.flowRequest s h pk errs) := by
  unfold State.flowRequest
  repeat' (first
    | with_reducible assumption
    | (extract_lets +onlyGivenNames x; first
          | (refine Kept.via x ?_ (fun hx => ?_); subst x; rotate_left; clear_value x)
          | clear_value x
          | skip)
    | with_reducible refine State.ctxDrop_kept ?_ ..
    | with_reducible refine State.bump_kept ?_ ..
    | with_reducible refine State.setFlow_kept ?_ ..
    | with_reducible refine State.readRequest_kept ?_ ..
    | with_reducible refine State.refuse_kept ?_ ..
    | with_reducible refine State.sendAck_kept ?_ ..
    | with_reducible refine State.atomicRequest_kept ?_ ..
    | with_reducible refine State.guestRequest_kept ?_ ..
    | with_reducible refine State.guestTurned_kept ?_ ..
    | with_reducible refine State.flowMessage_kept ?_ ..
    | with_reducible refine State.atomicAgain_kept ?_ ..
    | split)

theorem State.cktDeliver_kept {s0 s : State} (h : Kept s0 s) (p : Fin 16) (pk : Packet) (errs : LineErrs) :
    Kept s0 (State.cktDeliver s p pk errs) := by
  unfold State.cktDeliver
  repeat' (first
    | with_reducible assumption
    | (extract_lets +onlyGivenNames x; first
          | (refine Kept.via x ?_ (fun hx => ?_); subst x; rotate_left; clear_value x)
          | clear_value x
          | skip)
    | with_reducible refine State.ctxDrop_kept ?_ ..
    | with_reducible refine State.bump_kept ?_ ..
    | with_reducible refine State.packetOp_kept ?_ ..
    | with_reducible refine State.refuse_kept ?_ ..
    | with_reducible refine State.sendCktAck_kept ?_ ..
    | with_reducible refine State.msgSignal_kept ?_ ..
    | with_reducible refine State.setCkt_kept ?_ ..
    | (split <;> first
          | (rename_i e; refine Kept.viaFst e ?_ (fun _ => ?_))
          | skip))

theorem State.closeMsg_kept {s0 s : State} (h : Kept s0 s) (c : Nat) (id : Nat) (st : Nat) :
    Kept s0 (State.closeMsg s c id st) := by
  unfold State.closeMsg
  repeat' (first
    | with_reducible assumption
    | (extract_lets +onlyGivenNames x; first
          | clear_value x
          | skip)
    | with_reducible refine State.setFlow_kept ?_ ..
    | with_reducible refine State.openLater_kept ?_ ..
    | with_reducible refine State.ownerEnd_kept ?_ ..
    | split)

theorem State.readReply_kept {s0 s : State} (h : Kept s0 s) (c : Nat) (x : SentPkt) (st : Nat) (b : List Byte) :
    Kept s0 (State.readReply s c x st b) := by
  unfold State.readReply
  repeat' (first
    | with_reducible assumption
    | (extract_lets +onlyGivenNames x; first
          | (refine Kept.via x ?_ (fun hx => ?_); subst x; rotate_left; clear_value x)
          | clear_value x
          | skip)
    | with_reducible refine State.setFlow_kept ?_ ..
    | with_reducible refine State.dmGoAll_kept ?_ ..
    | with_reducible refine State.dmReply_kept ?_ ..
    | with_reducible refine State.spillEnd_kept ?_ ..
    | with_reducible refine State.closeMsg_kept ?_ ..
    | with_reducible refine State.pumpFlow_kept ?_ ..
    | split)

theorem State.mcEnd_kept {s0 s : State} (h : Kept s0 s) (c : Nat) (m : McastMsg) :
    Kept s0 (State.mcEnd s c m) := by
  unfold State.mcEnd
  repeat' (first
    | with_reducible assumption
    | (extract_lets +onlyGivenNames x; first
          | (refine Kept.via x ?_ (fun hx => ?_); subst x; rotate_left; clear_value x)
          | (have hx := fun a => x a; clear hx; subst x; beta_reduce)
          | clear_value x
          | skip)
    | with_reducible refine State.setFlow_kept ?_ ..
    | with_reducible refine State.dmGoAll_kept ?_ ..
    | with_reducible refine State.ownerEnd_kept ?_ ..
    | with_reducible refine State.pumpFlow_kept ?_ ..)

theorem State.endCkt_kept {s0 s : State} (h : Kept s0 s) (c : Nat) (failed : Bool) :
    Kept s0 (State.endCkt s c failed) := by
  unfold State.endCkt
  repeat' (first
    | with_reducible assumption
    | (extract_lets +onlyGivenNames x; first
          | (refine Kept.via x ?_ (fun hx => ?_); subst x; rotate_left; clear_value x)
          | clear_value x
          | skip)
    | with_reducible refine State.dmGoAll_kept ?_ ..
    | with_reducible refine State.setCkt_kept ?_ ..
    | with_reducible refine State.ownerEnd_kept ?_ ..
    | with_reducible refine Kept.foldl _ ?_ ?_
    | (intro _ _ _; beta_reduce))

theorem State.takeMcAck_kept {s0 s : State} (h : Kept s0 s) (h : Fin 2) (pk : Packet) :
    Kept s0 (State.takeMcAck s h pk) := by
  unfold State.takeMcAck
  repeat' (first
    | with_reducible assumption
    | (extract_lets +onlyGivenNames x; clear_value x)
    | with_reducible refine State.ctxDrop_kept ?_ ..
    | with_reducible refine State.setFlow_kept ?_ ..
    | with_reducible refine State.mcEnd_kept ?_ ..
    | split)

theorem State.flowRejected_kept {s0 s : State} (h : Kept s0 s) (c : Nat) (x : SentPkt) (st : Nat) :
    Kept s0 (State.flowRejected s c x st) := by
  unfold State.flowRejected
  repeat' (first
    | with_reducible assumption
    | (extract_lets +onlyGivenNames x; first
          | (refine Kept.via x ?_ (fun hx => ?_); subst x; rotate_left; clear_value x)
          | clear_value x
          | skip)
    | with_reducible refine State.setFlow_kept ?_ ..
    | with_reducible refine State.readReply_kept ?_ ..
    | with_reducible refine State.guestFailed_kept ?_ ..
    | with_reducible refine State.loseTarget_kept ?_ ..
    | with_reducible refine State.dmGoAll_kept ?_ ..
    | with_reducible refine State.closeMsg_kept ?_ ..
    | with_reducible refine State.emit_kept ?_ ..
    | with_reducible refine State.pumpFlow_kept ?_ ..
    | split)

theorem State.takeGuest_kept {s0 s : State} (h : Kept s0 s) (c : Nat) (pk : Packet) (room : Nat) :
    Kept s0 (State.takeGuest s c pk room) := by
  unfold State.takeGuest
  repeat' (first
    | with_reducible assumption
    | (extract_lets +onlyGivenNames x; first
          | (refine Kept.via x ?_ (fun hx => ?_); subst x; rotate_left; clear_value x)
          | clear_value x)
    | with_reducible refine State.guestAnswer_kept ?_ ..
    | with_reducible refine State.setFlow_kept ?_ ..
    | split)

theorem State.cktClose_kept {s0 s : State} (h : Kept s0 s) (c : Nat) (id : Nat) (st : Nat) :
    Kept s0 (State.cktClose s c id st) := by
  unfold State.cktClose
  repeat' (first
    | with_reducible assumption
    | (extract_lets +onlyGivenNames x; first
          | clear_value x
          | skip)
    | with_reducible refine State.setCkt_kept ?_ ..
    | with_reducible refine State.ownerEnd_kept ?_ ..
    | split)

theorem State.takeAck_kept {s0 s : State} (h : Kept s0 s) (c : Nat) (pk : Packet) :
    Kept s0 (State.takeAck s c pk) := by
  unfold State.takeAck
  repeat' (first
    | with_reducible assumption
    | (extract_lets +onlyGivenNames x; first
          | (refine Kept.via x ?_ (fun hx => ?_); subst x; rotate_left; clear_value x)
          | (have hx := fun a => x a; clear hx; subst x; beta_reduce)
          | clear_value x
          | skip)
    | with_reducible refine State.setFlow_kept ?_ ..
    | with_reducible refine State.dmGoAll_kept ?_ ..
    | with_reducible refine State.closeMsg_kept ?_ ..
    | with_reducible refine State.pumpFlow_kept ?_ ..
    | with_reducible refine Kept.foldl _ ?_ ?_
    | (intro _ _ _; beta_reduce))

theorem State.failCkt_kept {s0 s : State} (h : Kept s0 s) (c : Nat) :
    Kept s0 (State.failCkt s c) := by
  unfold State.failCkt
  repeat' (first
    | with_reducible assumption
    | (extract_lets +onlyGivenNames x; first
          | (refine Kept.via x ?_ (fun hx => ?_); subst x; rotate_left; clear_value x)
          | clear_value x
          | skip)
    | with_reducible refine State.endCkt_kept ?_ ..
    | with_reducible refine State.setF_kept ?_ ..
    | with_reducible refine State.raise_kept ?_ ..)

theorem State.cktResend_kept {s0 s : State} (h : Kept s0 s) (c : Nat) :
    Kept s0 (State.cktResend s c) := by
  unfold State.cktResend
  repeat' (first
    | with_reducible assumption
    | (extract_lets +onlyGivenNames x; first
          | (refine Kept.via x ?_ (fun hx => ?_); subst x; rotate_left; clear_value x)
          | clear_value x
          | skip)
    | with_reducible refine State.bump_kept ?_ ..
    | with_reducible refine State.inject_kept ?_ ..
    | with_reducible refine State.failCkt_kept ?_ ..
    | with_reducible refine State.setCkt_kept ?_ ..
    | with_reducible refine Kept.foldl _ ?_ ?_
    | split
    | (intro _ _ _; beta_reduce))

theorem State.takeCktAck_kept {s0 s : State} (h : Kept s0 s) (h : Fin 2) (pk : Packet) :
    Kept s0 (State.takeCktAck s h pk) := by
  unfold State.takeCktAck
  repeat' (first
    | with_reducible assumption
    | (extract_lets +onlyGivenNames x; first
          | (refine Kept.via x ?_ (fun hx => ?_); subst x; rotate_left; clear_value x)
          | clear_value x
          | skip)
    | with_reducible refine State.ctxDrop_kept ?_ ..
    | with_reducible refine State.cktClose_kept ?_ ..
    | with_reducible refine State.dmGoAll_kept ?_ ..
    | with_reducible refine State.pumpCkt_kept ?_ ..
    | with_reducible refine State.cktResend_kept ?_ ..
    | with_reducible refine State.setCkt_kept ?_ ..
    | with_reducible refine Kept.foldl _ ?_ ?_
    | split
    | (intro _ _ _; beta_reduce))

theorem State.takeAtomic_kept {s0 s : State} (h : Kept s0 s) (c : Nat) (pk : Packet) :
    Kept s0 (State.takeAtomic s c pk) := by
  unfold State.takeAtomic
  repeat' (first
    | with_reducible assumption
    | (extract_lets +onlyGivenNames x; first
          | (refine Kept.via x ?_ (fun hx => ?_); subst x; rotate_left; clear_value x)
          | clear_value x)
    | with_reducible refine State.setFlow_kept ?_ ..
    | with_reducible refine State.emit_kept ?_ ..
    | with_reducible refine State.pumpFlow_kept ?_ ..
    | split)

theorem State.takeRead_kept {s0 s : State} (h : Kept s0 s) (c : Nat) (pk : Packet) :
    Kept s0 (State.takeRead s c pk) := by
  unfold State.takeRead
  repeat' (first
    | with_reducible assumption
    | with_reducible refine State.readReply_kept ?_ ..
    | split)

theorem State.deliverReply_kept {s0 s : State} (h : Kept s0 s) (h : Fin 2) (pk : Packet) (room : Nat) :
    Kept s0 (State.deliverReply s h pk room) := by
  unfold State.deliverReply
  repeat' (first
    | with_reducible assumption
    | (extract_lets +onlyGivenNames x; first
          | clear_value x
          | skip)
    | with_reducible refine State.ctxDrop_kept ?_ ..
    | with_reducible refine State.takeGuest_kept ?_ ..
    | with_reducible refine State.bump_kept ?_ ..
    | with_reducible refine State.cktClose_kept ?_ ..
    | with_reducible refine State.takeAck_kept ?_ ..
    | with_reducible refine State.dmGoAll_kept ?_ ..
    | with_reducible refine State.takeMcAck_kept ?_ ..
    | with_reducible refine State.takeCktAck_kept ?_ ..
    | with_reducible refine State.flowRejected_kept ?_ ..
    | with_reducible refine State.takeAtomic_kept ?_ ..
    | with_reducible refine State.takeRead_kept ?_ ..
    | split)

theorem State.sendMcAck_kept {s0 s : State} (h : Kept s0 s) (h : Fin 2) (pk : Packet) (pos : Nat) (kind : Nat) (mask : Nat) (st : Nat) :
    Kept s0 (State.sendMcAck s h pk pos kind mask st) := by
  unfold State.sendMcAck
  repeat' (first
    | with_reducible assumption
    | (extract_lets +onlyGivenNames x; clear_value x)
    | with_reducible refine State.inject_kept ?_ ..)

theorem State.setGroup_kept {s0 s : State} (h : Kept s0 s) (g : Nat) (v : McGroup) :
    Kept s0 (State.setGroup s g v) := by
  unfold State.setGroup
  repeat' (first
    | (extract_lets +onlyGivenNames x; clear_value x)
    | with_reducible exact Kept.upd (by assumption) rfl)

theorem State.mcRefuse_kept {s0 s : State} (h : Kept s0 s) (h : Fin 2) (pk : Packet) (st : Nat) :
    Kept s0 (State.mcRefuse s h pk st) := by
  unfold State.mcRefuse
  repeat' (first
    | with_reducible assumption
    | (extract_lets +onlyGivenNames x; first
          | clear_value x
          | skip)
    | with_reducible refine State.inject_kept ?_ ..
    | with_reducible refine State.noteReject_kept ?_ ..)

theorem State.mcMemberTake_kept {s0 s : State} (h : Kept s0 s) (h : Fin 2) (pk : Packet) (e : Nat) (errs : LineErrs) :
    Kept s0 (State.mcMemberTake s h pk e errs) := by
  unfold State.mcMemberTake
  repeat' (first
    | with_reducible assumption
    | (extract_lets +onlyGivenNames x; first
          | (refine Kept.via x ?_ (fun hx => ?_); subst x; rotate_left; clear_value x)
          | clear_value x
          | skip)
    | with_reducible refine State.setGroup_kept ?_ ..
    | with_reducible refine State.storeFor_kept ?_ ..
    | with_reducible refine State.mcRefuse_kept ?_ ..
    | with_reducible refine State.signal_kept ?_ ..
    | with_reducible refine State.sendMcAck_kept ?_ ..
    | with_reducible refine State.haloDeliver_kept ?_ ..
    | (split <;> first
          | (rename_i e; refine Kept.viaFst e ?_ (fun _ => ?_))
          | skip))

theorem State.mcTake_kept {s0 s : State} (h : Kept s0 s) (h : Fin 2) (pk : Packet) (errs : LineErrs) :
    Kept s0 (State.mcTake s h pk errs) := by
  unfold State.mcTake
  repeat' (first
    | with_reducible assumption
    | (extract_lets +onlyGivenNames x; first
          | (refine Kept.via x ?_ (fun hx => ?_); subst x; rotate_left; clear_value x)
          | clear_value x)
    | with_reducible refine State.ctxDrop_kept ?_ ..
    | with_reducible refine State.sendMcAck_kept ?_ ..
    | with_reducible refine State.mcMemberTake_kept ?_ ..
    | split)

theorem State.deliver_kept {s0 s : State} (h : Kept s0 s) (h : Fin 2) (pk : Packet) (errs : LineErrs) (room : Nat) :
    Kept s0 (State.deliver s h pk errs room) := by
  unfold State.deliver
  repeat' (first
    | with_reducible assumption
    | (extract_lets +onlyGivenNames x)
    | with_reducible refine State.deliverReply_kept ?_ ..
    | with_reducible refine State.findErrs_kept ?_ ..
    | with_reducible refine State.flowRequest_kept ?_ ..
    | split)

end Sys2Proof.Machine
end

