-- ==== Sys2Proof/Laws/KeptFabric.lean ====
section
/-! SUPPORT. Each operation and meaning of Machine/Fabric.lean keeps what every command keeps (Safety.lean). -/

set_option Elab.async false
set_option linter.tactic.unusedName false
set_option linter.unusedTactic false

namespace Sys2Proof.Machine

open Sys2Proof

theorem State.countImage_kept {s0 s : State} (h : Kept s0 s) (q : Req) (src : Nat) (n : Nat) :
    Kept s0 (State.countImage s q src n) := by
  unfold State.countImage
  repeat' (first
    | with_reducible assumption
    | (extract_lets +onlyGivenNames x; first
          | clear_value x
          | skip)
    | with_reducible refine State.countAccesses_kept ?_ ..
    | with_reducible refine State.countBytes_kept ?_ ..
    | with_reducible refine State.awayRead_kept ?_ ..
    | with_reducible refine Kept.foldl _ ?_ ?_
    | (intro _ _ _; beta_reduce))

theorem State.dtabBusy_kept {s0 s : State} (h : Kept s0 s) (h : Fin 2) (n : Nat) :
    Kept s0 (State.dtabBusy s h n) := by
  unfold State.dtabBusy
  repeat' (first
    | with_reducible assumption
    | (extract_lets +onlyGivenNames x; first
          | clear_value x
          | skip)
    | with_reducible refine State.setRout_kept ?_ ..
    | with_reducible refine State.setF_kept ?_ ..)

theorem execHelloSilence_kept {s0 s : State} (h : Kept s0 s) (p : Fin 16) :
    KeptAns s0 (execHelloSilence p s) := by
  unfold execHelloSilence
  refine KeptAns.next ?_
  repeat' (first
    | with_reducible assumption
    | (extract_lets +onlyGivenNames x; first
          | clear_value x
          | skip)
    | with_reducible refine State.readmit_kept ?_ ..
    | with_reducible refine State.setLink_kept ?_ ..)

theorem execDtabLoadDone_kept {s0 s : State} (h : Kept s0 s) (h : Fin 2) (errs : LineErrs) :
    KeptAns s0 (execDtabLoadDone h errs s) := by
  unfold execDtabLoadDone
  refine KeptAns.next ?_
  repeat' (first
    | with_reducible assumption
    | (extract_lets +onlyGivenNames x; first
          | (refine Kept.via x ?_ (fun hx => ?_); subst x; rotate_left; clear_value x)
          | clear_value x)
    | with_reducible refine State.setRout_kept ?_ ..
    | with_reducible refine State.setF_kept ?_ ..
    | with_reducible refine State.countImage_kept ?_ ..
    | with_reducible refine State.dtabBusy_kept ?_ ..
    | with_reducible refine State.findErrs_kept ?_ ..
    | with_reducible refine State.raise_kept ?_ ..
    | split)

theorem execDtabLoad_kept {s0 s : State} (h : Kept s0 s) (h : Fin 2) :
    KeptAns s0 (execDtabLoad h s) := by
  unfold execDtabLoad
  refine KeptAns.next ?_
  repeat' (first
    | with_reducible assumption
    | (extract_lets +onlyGivenNames x)
    | with_reducible refine State.stageMark_kept ?_ ..
    | with_reducible refine State.dtabBusy_kept ?_ ..
    | split)

theorem State.sendHello_kept {s0 s : State} (h : Kept s0 s) (p : Fin 16) :
    Kept s0 (State.sendHello s p) := by
  unfold State.sendHello
  repeat' (first
    | with_reducible assumption
    | (extract_lets +onlyGivenNames x; first
          | (refine Kept.via x ?_ (fun hx => ?_); subst x; rotate_left; clear_value x)
          | clear_value x)
    | with_reducible refine State.setLink_kept ?_ ..
    | with_reducible refine State.sendSync_kept ?_ ..)

theorem State.storeHello_kept {s0 s : State} (h : Kept s0 s) (p : Fin 16) (h : Hello) :
    Kept s0 (State.storeHello s p h) := by
  unfold State.storeHello
  repeat' (first
    | with_reducible assumption
    | (extract_lets +onlyGivenNames x; first
          | (refine Kept.via x ?_ (fun hx => ?_); subst x; rotate_left; clear_value x)
          | clear_value x
          | skip)
    | with_reducible refine State.setF_kept ?_ ..
    | with_reducible refine State.setPair_kept ?_ ..
    | split)

theorem execHelloReceive_kept {s0 s : State} (h : Kept s0 s) (p : Fin 16) (hdr : SHdr) (h : Hello) (same : Bool) :
    KeptAns s0 (execHelloReceive p hdr h same s) := by
  unfold execHelloReceive
  refine KeptAns.next ?_
  repeat' (first
    | with_reducible assumption
    | (extract_lets +onlyGivenNames x; first
          | (refine Kept.via x ?_ (fun hx => ?_); subst x; rotate_left; clear_value x)
          | clear_value x
          | skip)
    | with_reducible refine State.bump_kept ?_ ..
    | with_reducible refine State.syncAcked_kept ?_ ..
    | with_reducible refine State.storeHello_kept ?_ ..
    | with_reducible refine State.judgeAdmit_kept ?_ ..
    | with_reducible refine State.raise_kept ?_ ..
    | with_reducible refine State.setLink_kept ?_ ..
    | split)

theorem execHelloSend_kept {s0 s : State} (h : Kept s0 s) (p : Fin 16) :
    KeptAns s0 (execHelloSend p s) := by
  unfold execHelloSend
  refine KeptAns.next ?_
  repeat' (first
    | with_reducible assumption
    | (extract_lets +onlyGivenNames x; clear_value x)
    | with_reducible refine State.sendHello_kept ?_ ..
    | with_reducible refine State.setLink_kept ?_ ..
    | split)

theorem execDtabEdit_kept {s0 s : State} (h : Kept s0 s) (h : Fin 2) :
    KeptAns s0 (execDtabEdit h s) := by
  unfold execDtabEdit
  refine KeptAns.next ?_
  repeat' (first
    | with_reducible assumption
    | (extract_lets +onlyGivenNames x)
    | with_reducible refine State.stageMark_kept ?_ ..
    | with_reducible refine State.dtabBusy_kept ?_ ..
    | split)

end Sys2Proof.Machine
end

