-- ==== Sys2Proof/Laws/KeptLinks.lean ====
section
/-! SUPPORT. Each operation and meaning of Machine/Links.lean keeps what every command keeps (Safety.lean). -/

set_option Elab.async false
set_option linter.tactic.unusedName false
set_option linter.unusedTactic false

namespace Sys2Proof.Machine

open Sys2Proof

theorem State.sendCap_kept {s0 s : State} (h : Kept s0 s) (p : Fin 16) :
    Kept s0 (State.sendCap s p) := by
  unfold State.sendCap
  repeat' (first
    | with_reducible assumption
    | (extract_lets +onlyGivenNames x; clear_value x)
    | with_reducible refine State.sendLink_kept ?_ ..)

theorem execLinkAligned_kept {s0 s : State} (h : Kept s0 s) (p : Fin 16) :
    KeptAns s0 (execLinkAligned p s) := by
  unfold execLinkAligned
  refine KeptAns.next ?_
  repeat' (first
    | with_reducible assumption
    | (extract_lets +onlyGivenNames x; first
          | (refine Kept.via x ?_ (fun hx => ?_); subst x; rotate_left; clear_value x)
          | clear_value x)
    | with_reducible refine State.sendCap_kept ?_ ..
    | with_reducible refine State.showStep_kept ?_ ..
    | with_reducible refine State.sendLink_kept ?_ ..
    | with_reducible refine State.setLink_kept ?_ ..
    | split)

theorem State.rxCodewords_kept {s0 s : State} (h : Kept s0 s) (p : Fin 16) (cwhs : List (Fin 1048576)) :
    Kept s0 (State.rxCodewords s p cwhs) := by
  unfold State.rxCodewords
  repeat' (first
    | with_reducible assumption
    | (extract_lets +onlyGivenNames x; first
          | (refine Kept.via x ?_ (fun hx => ?_); subst x; rotate_left; clear_value x)
          | clear_value x)
    | with_reducible refine State.retrainFor_kept ?_ ..
    | with_reducible refine State.addPair_kept ?_ ..
    | with_reducible refine State.setLink_kept ?_ ..
    | split)

theorem State.sendNak_kept {s0 s : State} (h : Kept s0 s) (p : Fin 16) :
    Kept s0 (State.sendNak s p) := by
  unfold State.sendNak
  repeat' (first
    | with_reducible assumption
    | (extract_lets +onlyGivenNames x; first
          | (refine Kept.via x ?_ (fun hx => ?_); subst x; rotate_left; clear_value x)
          | clear_value x)
    | with_reducible refine State.sendLink_kept ?_ ..
    | with_reducible refine State.setLink_kept ?_ ..)

theorem State.nakOnce_kept {s0 s : State} (h : Kept s0 s) (p : Fin 16) :
    Kept s0 (State.nakOnce s p) := by
  unfold State.nakOnce
  repeat' (first
    | with_reducible assumption
    | with_reducible refine State.sendNak_kept ?_ ..
    | split)

theorem State.crcError_kept {s0 s : State} (h : Kept s0 s) (p : Fin 16) (data : Bool) :
    Kept s0 (State.crcError s p data) := by
  unfold State.crcError
  repeat' (first
    | with_reducible assumption
    | (extract_lets +onlyGivenNames x; first
          | (refine Kept.via x ?_ (fun hx => ?_); subst x; rotate_left; clear_value x)
          | clear_value x
          | skip)
    | with_reducible refine State.bump_kept ?_ ..
    | with_reducible refine State.setLink_kept ?_ ..
    | with_reducible refine State.nakOnce_kept ?_ ..
    | split)

theorem State.ownFlit_kept {s0 s : State} (h : Kept s0 s) (p : Fin 16) (flit : List Byte) :
    KeptOpt s0 (State.ownFlit s p flit) := by
  unfold State.ownFlit
  repeat' (first
    | with_reducible assumption
    | with_reducible refine State.fromSelf_kept ?_ ..
    | with_reducible refine KeptOpt.some ?_
    | split)

theorem State.acceptData_kept {s0 s : State} (h : Kept s0 s) (p : Fin 16) (dnum : Nat) (body : List Byte) :
    Kept s0 (State.acceptData s p dnum body) := by
  unfold State.acceptData
  repeat' (first
    | with_reducible assumption
    | (extract_lets +onlyGivenNames x; first
          | clear_value x
          | skip)
    | with_reducible refine State.setLink_kept ?_ ..
    | with_reducible refine State.violate_kept ?_ ..
    | split)

theorem State.takeData_kept {s0 s : State} (h : Kept s0 s) (p : Fin 16) (body : List Byte) :
    Kept s0 (State.takeData s p body) := by
  unfold State.takeData
  repeat' (first
    | with_reducible assumption
    | (extract_lets +onlyGivenNames x; first
          | (refine Kept.via x ?_ (fun hx => ?_); subst x; rotate_left; clear_value x)
          | clear_value x
          | skip)
    | with_reducible refine State.acceptData_kept ?_ ..
    | with_reducible refine State.creditDue_kept ?_ ..
    | with_reducible refine State.setLink_kept ?_ ..
    | with_reducible refine State.nakOnce_kept ?_ ..
    | with_reducible refine State.violate_kept ?_ ..
    | split)

theorem execDataFlit_kept {s0 s : State} (h : Kept s0 s) (p : Fin 16) (cwhs : List (Fin 1048576)) (flit : List Byte) :
    KeptAns s0 (execDataFlit p cwhs flit s) := by
  unfold execDataFlit
  refine KeptAns.next ?_
  repeat' (first
    | with_reducible assumption
    | (extract_lets +onlyGivenNames x; first
          | (refine Kept.via x ?_ (fun hx => ?_); subst x; rotate_left; clear_value x)
          | skip)
    | with_reducible refine State.rxCodewords_kept ?_ ..
    | with_reducible refine State.crcError_kept ?_ ..
    | with_reducible refine State.rxWake_kept ?_ ..
    | with_reducible refine State.takeData_kept ?_ ..
    | with_reducible refine State.violate_kept ?_ ..
    | with_reducible refine State.ownFlit_kept ?_ ..
    | (split <;> first
          | (rename_i e; refine KeptOpt.via e ?_ (fun _ => ?_))
          | skip))

theorem State.laserHealth_kept {s0 s : State} (h : Kept s0 s) (p : Fin 16) :
    Kept s0 (State.laserHealth s p) := by
  unfold State.laserHealth
  repeat' (first
    | with_reducible assumption
    | (extract_lets +onlyGivenNames x; clear_value x)
    | with_reducible refine State.setOwn_kept ?_ ..)

theorem State.startGap_kept {s0 s : State} (h : Kept s0 s) (p : Fin 16) (trip : Bool) :
    Kept s0 (State.startGap s p trip) := by
  unfold State.startGap
  repeat' (first
    | with_reducible assumption
    | (extract_lets +onlyGivenNames x; first
          | (refine Kept.via x ?_ (fun hx => ?_); subst x; rotate_left; clear_value x)
          | clear_value x)
    | with_reducible refine State.setF_kept ?_ ..
    | with_reducible refine State.setLaser_kept ?_ ..
    | with_reducible refine State.toStep1_kept ?_ ..
    | with_reducible refine State.carriedNow_kept ?_ ..
    | with_reducible refine State.setLink_kept ?_ ..
    | split)

theorem execLaserSwitchCmd_kept {s0 s : State} (h : Kept s0 s) (p : Fin 16) :
    KeptAns s0 (execLaserSwitchCmd p s) := by
  unfold execLaserSwitchCmd
  refine KeptAns.next ?_
  repeat' (first
    | with_reducible assumption
    | (extract_lets +onlyGivenNames x; first
          | (refine Kept.via x ?_ (fun hx => ?_); subst x; rotate_left; clear_value x)
          | clear_value x
          | skip)
    | with_reducible refine State.setF_kept ?_ ..
    | with_reducible refine State.setLaser_kept ?_ ..
    | with_reducible refine State.laserHealth_kept ?_ ..
    | with_reducible refine State.startGap_kept ?_ ..
    | split)

theorem State.txCodewords_kept {s0 s : State} (h : Kept s0 s) (p : Fin 16) (k : Nat) :
    Kept s0 (State.txCodewords s p k) := by
  unfold State.txCodewords
  repeat' (first
    | with_reducible assumption
    | (extract_lets +onlyGivenNames x; first
          | (refine Kept.via x ?_ (fun hx => ?_); subst x; rotate_left; clear_value x)
          | clear_value x
          | skip)
    | with_reducible refine State.setLink_kept ?_ ..
    | with_reducible refine State.emit_kept ?_ ..
    | with_reducible refine Kept.foldl _ ?_ ?_
    | split
    | (intro _ _ _; beta_reduce))

theorem State.setMon_kept {s0 s : State} (h : Kept s0 s) (p : Fin 16) (n : Nat) (bias : BitVec 16) (power : BitVec 16) (temp : BitVec 8) :
    Kept s0 (State.setMon s p n bias power temp) := by
  unfold State.setMon
  repeat' (first
    | with_reducible assumption
    | (extract_lets +onlyGivenNames x; first
          | clear_value x
          | skip)
    | with_reducible refine State.setF_kept ?_ ..
    | split)

theorem State.linkMeasures_kept {s0 s : State} (h : Kept s0 s) (p : Fin 16) (t : LinkTick) :
    Kept s0 (State.linkMeasures s p t) := by
  unfold State.linkMeasures
  repeat' (first
    | with_reducible assumption
    | (extract_lets +onlyGivenNames x; first
          | (refine Kept.via x ?_ (fun hx => ?_); subst x; rotate_left; clear_value x)
          | skip)
    | with_reducible refine State.setF_kept ?_ ..
    | with_reducible refine State.setMon_kept ?_ ..
    | with_reducible refine Kept.foldl _ ?_ ?_
    | (intro _ _ _; beta_reduce))

theorem State.linkCounts_kept {s0 s : State} (h : Kept s0 s) (p : Fin 16) (t : LinkTick) :
    Kept s0 (State.linkCounts s p t) := by
  unfold State.linkCounts
  repeat' (first
    | with_reducible assumption
    | (extract_lets +onlyGivenNames x; first
          | (refine Kept.via x ?_ (fun hx => ?_); subst x; rotate_left; clear_value x)
          | clear_value x
          | skip)
    | with_reducible refine State.bumpBy_kept ?_ ..
    | with_reducible refine State.addPair_kept ?_ ..
    | with_reducible refine State.raise_kept ?_ ..
    | with_reducible refine Kept.foldl _ ?_ ?_
    | split
    | (intro _ _ _; beta_reduce))

theorem execLinkFlitTimer_kept {s0 s : State} (h : Kept s0 s) (p : Fin 16) (t : LinkTick) :
    KeptAns s0 (execLinkFlitTimer p t s) := by
  unfold execLinkFlitTimer
  refine KeptAns.next ?_
  repeat' (first
    | with_reducible assumption
    | (extract_lets +onlyGivenNames x; first
          | (refine Kept.via x ?_ (fun hx => ?_); subst x; rotate_left; clear_value x)
          | clear_value x)
    | with_reducible refine State.sendCap_kept ?_ ..
    | with_reducible refine State.txCodewords_kept ?_ ..
    | with_reducible refine State.rxCodewords_kept ?_ ..
    | with_reducible refine State.linkMeasures_kept ?_ ..
    | with_reducible refine State.sendCredit_kept ?_ ..
    | with_reducible refine State.linkCounts_kept ?_ ..
    | with_reducible refine State.sendLink_kept ?_ ..
    | split)

theorem State.clearGap_kept {s0 s : State} (h : Kept s0 s) (p : Fin 16) :
    Kept s0 (State.clearGap s p) := by
  unfold State.clearGap
  repeat' (first
    | with_reducible assumption
    | (extract_lets +onlyGivenNames x; refine Kept.via x ?_ (fun hx => ?_); subst x; rotate_left; clear_value x)
    | with_reducible refine State.setF_kept ?_ ..)

theorem State.laserTested_kept {s0 s : State} (h : Kept s0 s) (p : Fin 16) :
    Kept s0 (State.laserTested s p) := by
  unfold State.laserTested
  repeat' (first
    | with_reducible assumption
    | (extract_lets +onlyGivenNames x; clear_value x)
    | with_reducible refine State.setPair_kept ?_ ..
    | split)

theorem State.selectTest_kept {s0 s : State} (h : Kept s0 s) (p : Fin 16) (v : Nat) :
    Kept s0 (State.selectTest s p v) := by
  unfold State.selectTest
  repeat' (first
    | with_reducible assumption
    | (extract_lets +onlyGivenNames x; first
          | (refine Kept.via x ?_ (fun hx => ?_); subst x; rotate_left; clear_value x)
          | skip)
    | with_reducible refine State.setF_kept ?_ ..
    | with_reducible refine State.toStep1_kept ?_ ..
    | with_reducible refine State.linkDrop_kept ?_ ..
    | with_reducible refine State.readmit_kept ?_ ..
    | with_reducible refine State.sendLink_kept ?_ ..
    | split)

theorem State.applyHeld_kept {s0 s : State} (h : Kept s0 s) (p : Fin 16) (l : LinkSt) :
    Kept s0 (State.applyHeld s p l) := by
  unfold State.applyHeld
  repeat' (first
    | with_reducible assumption
    | (extract_lets +onlyGivenNames x; refine Kept.via x ?_ (fun hx => ?_); subst x; rotate_left; clear_value x)
    | with_reducible refine State.linkDrop_kept ?_ ..
    | with_reducible refine State.selectTest_kept ?_ ..
    | split)

theorem State.dropHeld_kept {s0 s : State} (h : Kept s0 s) (p : Fin 16) :
    Kept s0 (State.dropHeld s p) := by
  unfold State.dropHeld
  repeat' (first
    | with_reducible assumption
    | (extract_lets +onlyGivenNames x; clear_value x)
    | with_reducible refine State.setLink_kept ?_ ..)

theorem State.gapDark_kept {s0 s : State} (h : Kept s0 s) (p : Fin 16) (cause : Nat) :
    Kept s0 (State.gapDark s p cause) := by
  unfold State.gapDark
  repeat' (first
    | with_reducible assumption
    | (extract_lets +onlyGivenNames x; first
          | clear_value x
          | skip)
    | with_reducible refine State.clearGap_kept ?_ ..
    | with_reducible refine State.laserHealth_kept ?_ ..
    | with_reducible refine State.laserTested_kept ?_ ..
    | with_reducible refine State.applyHeld_kept ?_ ..
    | with_reducible refine State.relink_kept ?_ ..
    | with_reducible refine State.readmit_kept ?_ ..
    | with_reducible refine State.dropHeld_kept ?_ ..)

theorem execLinkEnableWrite_kept {s0 s : State} (h : Kept s0 s) (p : Fin 16) (on : Bool) :
    KeptAns s0 (execLinkEnableWrite p on s) := by
  unfold execLinkEnableWrite
  refine KeptAns.next ?_
  repeat' (first
    | with_reducible assumption
    | (extract_lets +onlyGivenNames x; first
          | (refine Kept.via x ?_ (fun hx => ?_); subst x; rotate_left; clear_value x)
          | clear_value x
          | skip)
    | with_reducible refine State.setF_kept ?_ ..
    | with_reducible refine State.toStep1_kept ?_ ..
    | with_reducible refine State.gapDark_kept ?_ ..
    | with_reducible refine State.relink_kept ?_ ..
    | with_reducible refine State.readmit_kept ?_ ..
    | split)

theorem State.setLas_kept {s0 s : State} (h : Kept s0 s) (p : Fin 16) (n : Nat) (f : Laser → Laser) :
    Kept s0 (State.setLas s p n f) := by
  unfold State.setLas
  repeat' (first
    | with_reducible assumption
    | (extract_lets +onlyGivenNames x; clear_value x)
    | with_reducible refine State.setLink_kept ?_ ..)

theorem execLaserCalDone_kept {s0 s : State} (h : Kept s0 s) (p : Fin 16) (bias : BitVec 16) (power : BitVec 16) (temp : BitVec 8) (cal : Nat) :
    KeptAns s0 (execLaserCalDone p bias power temp cal s) := by
  unfold execLaserCalDone
  refine KeptAns.next ?_
  repeat' (first
    | with_reducible assumption
    | (extract_lets +onlyGivenNames x; first
          | (refine Kept.via x ?_ (fun hx => ?_); subst x; rotate_left; clear_value x)
          | clear_value x
          | skip)
    | with_reducible refine State.setF_kept ?_ ..
    | with_reducible refine State.setLas_kept ?_ ..
    | with_reducible refine State.raise_kept ?_ ..
    | with_reducible refine State.setMon_kept ?_ ..
    | split)

theorem execCdrLockLoss_kept {s0 s : State} (h : Kept s0 s) (p : Fin 16) :
    KeptAns s0 (execCdrLockLoss p s) := by
  unfold execCdrLockLoss
  refine KeptAns.next ?_
  repeat' (first
    | with_reducible assumption
    | (extract_lets +onlyGivenNames x)
    | with_reducible refine State.retrainFor_kept ?_ ..)

theorem execNakResendTimer_kept {s0 s : State} (h : Kept s0 s) (p : Fin 16) :
    KeptAns s0 (execNakResendTimer p s) := by
  unfold execNakResendTimer
  refine KeptAns.next ?_
  repeat' (first
    | with_reducible assumption
    | (extract_lets +onlyGivenNames x; clear_value x)
    | with_reducible refine State.sendNak_kept ?_ ..
    | with_reducible refine State.retrainFor_kept ?_ ..
    | split)

theorem State.failStep_kept {s0 s : State} (h : Kept s0 s) (p : Fin 16) (cause : Nat) :
    Kept s0 (State.failStep s p cause) := by
  unfold State.failStep
  repeat' (first
    | with_reducible assumption
    | (extract_lets +onlyGivenNames x; first
          | (refine Kept.via x ?_ (fun hx => ?_); subst x; rotate_left; clear_value x)
          | skip)
    | with_reducible refine State.bump_kept ?_ ..
    | with_reducible refine State.setF_kept ?_ ..
    | with_reducible refine State.toStep1_kept ?_ ..)

theorem State.ackTo_kept {s0 s : State} (h : Kept s0 s) (p : Fin 16) (ack : Nat) :
    Kept s0 (State.ackTo s p ack) := by
  unfold State.ackTo
  repeat' (first
    | with_reducible assumption
    | (extract_lets +onlyGivenNames x; clear_value x)
    | with_reducible refine State.setLink_kept ?_ ..
    | split)

theorem State.linkRx_kept {s0 s : State} (h : Kept s0 s) (p : Fin 16) (ack : Nat) :
    Kept s0 (State.linkRx s p ack) := by
  unfold State.linkRx
  repeat' (first
    | with_reducible assumption
    | (extract_lets +onlyGivenNames x)
    | with_reducible refine State.ackTo_kept ?_ ..
    | with_reducible refine State.rxWake_kept ?_ ..
    | split)

theorem execCapFlit_kept {s0 s : State} (h : Kept s0 s) (p : Fin 16) (ack : Fin 1048576) (level : BitVec 8) (minLevel : BitVec 8) (idle : Bool) (farLoop : Bool) :
    KeptAns s0 (execCapFlit p ack level minLevel idle farLoop s) := by
  unfold execCapFlit
  refine KeptAns.next ?_
  repeat' (first
    | with_reducible assumption
    | (extract_lets +onlyGivenNames x; first
          | (refine Kept.via x ?_ (fun hx => ?_); subst x; rotate_left; clear_value x)
          | clear_value x
          | skip)
    | with_reducible refine State.setF_kept ?_ ..
    | with_reducible refine State.failStep_kept ?_ ..
    | with_reducible refine State.raise_kept ?_ ..
    | with_reducible refine State.sendLink_kept ?_ ..
    | with_reducible refine State.setLink_kept ?_ ..
    | with_reducible refine State.linkRx_kept ?_ ..
    | with_reducible refine State.fromSelf_kept ?_ ..
    | (split <;> first
          | (rename_i e; refine KeptOpt.via e ?_ (fun _ => ?_))
          | skip))

theorem execFlitCrcError_kept {s0 s : State} (h : Kept s0 s) (p : Fin 16) (cwhs : List (Fin 1048576)) (data : Bool) (flit : List Byte) :
    KeptAns s0 (execFlitCrcError p cwhs data flit s) := by
  unfold execFlitCrcError
  refine KeptAns.next ?_
  repeat' (first
    | with_reducible assumption
    | (extract_lets +onlyGivenNames x; refine Kept.via x ?_ (fun hx => ?_); subst x; rotate_left; clear_value x)
    | with_reducible refine State.rxCodewords_kept ?_ ..
    | with_reducible refine State.crcError_kept ?_ ..
    | split)

theorem State.moveGap_kept {s0 s : State} (h : Kept s0 s) (p : Fin 16) :
    Kept s0 (State.moveGap s p) := by
  unfold State.moveGap
  repeat' (first
    | with_reducible assumption
    | (extract_lets +onlyGivenNames x; first
          | (refine Kept.via x ?_ (fun hx => ?_); subst x; rotate_left; clear_value x)
          | clear_value x
          | skip)
    | with_reducible refine State.setF_kept ?_ ..
    | with_reducible refine State.setLaser_kept ?_ ..
    | with_reducible refine State.setLink_kept ?_ ..)

theorem execSignalReturn_kept {s0 s : State} (h : Kept s0 s) (p : Fin 16) :
    KeptAns s0 (execSignalReturn p s) := by
  unfold execSignalReturn
  refine KeptAns.next ?_
  repeat' (first
    | with_reducible assumption
    | (extract_lets +onlyGivenNames x; first
          | (refine Kept.via x ?_ (fun hx => ?_); subst x; rotate_left; clear_value x)
          | clear_value x
          | skip)
    | with_reducible refine State.sendNak_kept ?_ ..
    | with_reducible refine State.setF_kept ?_ ..
    | with_reducible refine State.rxWake_kept ?_ ..
    | with_reducible refine State.setLink_kept ?_ ..
    | split)

theorem execLinkSignalDetected_kept {s0 s : State} (h : Kept s0 s) (p : Fin 16) :
    KeptAns s0 (execLinkSignalDetected p s) := by
  unfold execLinkSignalDetected
  refine KeptAns.next ?_
  repeat' (first
    | with_reducible assumption
    | (extract_lets +onlyGivenNames x)
    | with_reducible refine State.sendFrame_kept ?_ ..
    | with_reducible refine State.showStep_kept ?_ ..
    | split)

theorem State.txResume_kept {s0 s : State} (h : Kept s0 s) (p : Fin 16) :
    Kept s0 (State.txResume s p) := by
  unfold State.txResume
  repeat' (first
    | with_reducible assumption
    | (extract_lets +onlyGivenNames x; first
          | clear_value x
          | skip)
    | with_reducible refine State.txCodewords_kept ?_ ..
    | with_reducible refine State.setLink_kept ?_ ..)

theorem State.flushGap_kept {s0 s : State} (h : Kept s0 s) (p : Fin 16) (l : LinkSt) :
    Kept s0 (State.flushGap s p l) := by
  unfold State.flushGap
  repeat' (first
    | with_reducible assumption
    | (extract_lets +onlyGivenNames x; first
          | (refine Kept.via x ?_ (fun hx => ?_); subst x; rotate_left; clear_value x)
          | (have hx := fun a => x a; clear hx; subst x; beta_reduce)
          | skip)
    | with_reducible refine State.sendHello_kept ?_ ..
    | with_reducible refine State.setF_kept ?_ ..
    | with_reducible refine State.syncEmit_kept ?_ ..
    | with_reducible refine State.pumpSync_kept ?_ ..
    | with_reducible refine State.sendFlit_kept ?_ ..
    | with_reducible refine State.txResume_kept ?_ ..
    | with_reducible refine State.emit_kept ?_ ..
    | with_reducible refine Kept.foldl _ ?_ ?_
    | split
    | (intro _ _ _; beta_reduce))

theorem execLinkTestSelect_kept {s0 s : State} (h : Kept s0 s) (p : Fin 16) (v : Fin 8) :
    KeptAns s0 (execLinkTestSelect p v s) := by
  unfold execLinkTestSelect
  refine KeptAns.next ?_
  repeat' (first
    | with_reducible assumption
    | (extract_lets +onlyGivenNames x; clear_value x)
    | with_reducible refine State.setLink_kept ?_ ..
    | with_reducible refine State.selectTest_kept ?_ ..
    | split)

theorem execFarLoopLosTimeout_kept {s0 s : State} (h : Kept s0 s) (p : Fin 16) :
    KeptAns s0 (execFarLoopLosTimeout p s) := by
  unfold execFarLoopLosTimeout
  refine KeptAns.next ?_
  repeat' (first
    | with_reducible assumption
    | (extract_lets +onlyGivenNames x)
    | with_reducible refine State.endLoop_kept ?_ ..
    | split)

theorem State.startCodewords_kept {s0 s : State} (h : Kept s0 s) (p : Fin 16) :
    Kept s0 (State.startCodewords s p) := by
  unfold State.startCodewords
  repeat' (first
    | with_reducible assumption
    | (extract_lets +onlyGivenNames x)
    | with_reducible refine State.txCodewords_kept ?_ ..
    | with_reducible refine State.sendFrame_kept ?_ ..
    | split)

theorem execTrainingFrame_kept {s0 s : State} (h : Kept s0 s) (p : Fin 16) (lane : Fin 8) (f : TrainFrame) (power : BitVec 16) (rx : LaneRx) :
    KeptAns s0 (execTrainingFrame p lane f power rx s) := by
  unfold execTrainingFrame
  refine KeptAns.next ?_
  repeat' (first
    | with_reducible assumption
    | (extract_lets +onlyGivenNames x; first
          | (refine Kept.via x ?_ (fun hx => ?_); subst x; rotate_left; clear_value x)
          | clear_value x
          | skip)
    | with_reducible refine State.startCodewords_kept ?_ ..
    | with_reducible refine State.setF_kept ?_ ..
    | with_reducible refine State.sendFrame_kept ?_ ..
    | with_reducible refine State.setLink_kept ?_ ..
    | split)

theorem execLaneSignalLoss_kept {s0 s : State} (h : Kept s0 s) (p : Fin 16) :
    KeptAns s0 (execLaneSignalLoss p s) := by
  unfold execLaneSignalLoss
  refine KeptAns.next ?_
  repeat' (first
    | with_reducible assumption
    | (extract_lets +onlyGivenNames x; first
          | clear_value x
          | skip)
    | with_reducible refine State.setF_kept ?_ ..
    | with_reducible refine State.raise_kept ?_ ..
    | split)

theorem execLoopExitFlit_kept {s0 s : State} (h : Kept s0 s) (p : Fin 16) (ack : Fin 1048576) :
    KeptAns s0 (execLoopExitFlit p ack s) := by
  unfold execLoopExitFlit
  refine KeptAns.next ?_
  repeat' (first
    | with_reducible assumption
    | (extract_lets +onlyGivenNames x; first
          | (refine Kept.via x ?_ (fun hx => ?_); subst x; rotate_left; clear_value x)
          | skip)
    | with_reducible refine State.endLoop_kept ?_ ..
    | with_reducible refine State.linkRx_kept ?_ ..
    | with_reducible refine State.fromSelf_kept ?_ ..
    | (split <;> first
          | (rename_i e; refine KeptOpt.via e ?_ (fun _ => ?_))
          | skip))

theorem execUncorrectableCodeword_kept {s0 s : State} (h : Kept s0 s) (p : Fin 16) (cwhs : List (Fin 1048576)) :
    KeptAns s0 (execUncorrectableCodeword p cwhs s) := by
  unfold execUncorrectableCodeword
  refine KeptAns.next ?_
  repeat' (first
    | with_reducible assumption
    | (extract_lets +onlyGivenNames x; first
          | (refine Kept.via x ?_ (fun hx => ?_); subst x; rotate_left; clear_value x)
          | clear_value x
          | skip)
    | with_reducible refine State.bump_kept ?_ ..
    | with_reducible refine State.rxCodewords_kept ?_ ..
    | with_reducible refine State.retrainFor_kept ?_ ..
    | with_reducible refine State.addPair_kept ?_ ..
    | with_reducible refine State.raise_kept ?_ ..
    | with_reducible refine State.setLink_kept ?_ ..
    | with_reducible refine State.nakOnce_kept ?_ ..
    | split)

theorem State.replayAll_kept {s0 s : State} (h : Kept s0 s) (p : Fin 16) :
    Kept s0 (State.replayAll s p) := by
  unfold State.replayAll
  repeat' (first
    | with_reducible assumption
    | (extract_lets +onlyGivenNames x; first
          | (refine Kept.via x ?_ (fun hx => ?_); subst x; rotate_left; clear_value x)
          | (have hx := fun a => x a; clear hx; subst x; beta_reduce)
          | clear_value x
          | skip)
    | with_reducible refine State.sendFlit_kept ?_ ..
    | with_reducible refine State.setLink_kept ?_ ..
    | with_reducible refine Kept.foldl _ ?_ ?_
    | (intro _ _ _; beta_reduce))

theorem execCreditFlit_kept {s0 s : State} (h : Kept s0 s) (p : Fin 16) (ack : Fin 1048576) (l0 : BitVec 32) (l1 : BitVec 32) (l2 : BitVec 32) (l3 : BitVec 32) (l4 : BitVec 32) :
    KeptAns s0 (execCreditFlit p ack l0 l1 l2 l3 l4 s) := by
  unfold execCreditFlit
  refine KeptAns.next ?_
  repeat' (first
    | with_reducible assumption
    | (extract_lets +onlyGivenNames x; first
          | (refine Kept.via x ?_ (fun hx => ?_); subst x; rotate_left; clear_value x)
          | clear_value x
          | skip)
    | with_reducible refine State.rxWake_kept ?_ ..
    | with_reducible refine State.setLink_kept ?_ ..
    | with_reducible refine State.linkRx_kept ?_ ..
    | with_reducible refine State.violate_kept ?_ ..
    | with_reducible refine State.fromSelf_kept ?_ ..
    | (split <;> first
          | (rename_i e; refine KeptOpt.via e ?_ (fun _ => ?_))
          | skip))

theorem execLinkTrained_kept {s0 s : State} (h : Kept s0 s) (p : Fin 16) :
    KeptAns s0 (execLinkTrained p s) := by
  unfold execLinkTrained
  refine KeptAns.next ?_
  repeat' (first
    | with_reducible assumption
    | (extract_lets +onlyGivenNames x; first
          | clear_value x
          | skip)
    | with_reducible refine State.sendFrame_kept ?_ ..
    | with_reducible refine State.showStep_kept ?_ ..
    | split)

theorem State.prbsCount_kept {s0 s : State} (h : Kept s0 s) (p : Fin 16) (lane : Fin 8) (bits : Nat) (errs : Nat) :
    Kept s0 (State.prbsCount s p lane bits errs) := by
  unfold State.prbsCount
  repeat' (first
    | with_reducible assumption
    | (extract_lets +onlyGivenNames x; first
          | (refine Kept.via x ?_ (fun hx => ?_); subst x; rotate_left; clear_value x)
          | clear_value x)
    | with_reducible refine State.bumpBy_kept ?_ ..
    | with_reducible refine State.setPair_kept ?_ ..)

theorem execLoopReqFlit_kept {s0 s : State} (h : Kept s0 s) (p : Fin 16) (ack : Fin 1048576) :
    KeptAns s0 (execLoopReqFlit p ack s) := by
  unfold execLoopReqFlit
  refine KeptAns.next ?_
  repeat' (first
    | with_reducible assumption
    | (extract_lets +onlyGivenNames x; first
          | (refine Kept.via x ?_ (fun hx => ?_); subst x; rotate_left; clear_value x)
          | clear_value x
          | skip)
    | with_reducible refine State.setF_kept ?_ ..
    | with_reducible refine State.linkRx_kept ?_ ..
    | with_reducible refine State.fromSelf_kept ?_ ..
    | (split <;> first
          | (rename_i e; refine KeptOpt.via e ?_ (fun _ => ?_))
          | skip))

theorem execPrbsConfigWrite_kept {s0 s : State} (h : Kept s0 s) (p : Fin 16) (pattern : Fin 4) (gen : Bool) (chk : Bool) (lanes : BitVec 8) :
    KeptAns s0 (execPrbsConfigWrite p pattern gen chk lanes s) := by
  unfold execPrbsConfigWrite
  refine KeptAns.next ?_
  repeat' (first
    | with_reducible assumption
    | (extract_lets +onlyGivenNames x; first
          | (refine Kept.via x ?_ (fun hx => ?_); subst x; rotate_left; clear_value x)
          | clear_value x)
    | with_reducible refine State.setF_kept ?_ ..
    | with_reducible refine State.setPair_kept ?_ ..
    | split)

theorem execLinkNak_kept {s0 s : State} (h : Kept s0 s) (p : Fin 16) (ack : Fin 1048576) :
    KeptAns s0 (execLinkNak p ack s) := by
  unfold execLinkNak
  refine KeptAns.next ?_
  repeat' (first
    | with_reducible assumption
    | (extract_lets +onlyGivenNames x; first
          | (refine Kept.via x ?_ (fun hx => ?_); subst x; rotate_left; clear_value x)
          | clear_value x
          | skip)
    | with_reducible refine State.bump_kept ?_ ..
    | with_reducible refine State.ackTo_kept ?_ ..
    | with_reducible refine State.rxWake_kept ?_ ..
    | with_reducible refine State.replayAll_kept ?_ ..
    | with_reducible refine State.raise_kept ?_ ..
    | with_reducible refine State.violate_kept ?_ ..
    | with_reducible refine State.fromSelf_kept ?_ ..
    | (split <;> first
          | (rename_i e; refine KeptOpt.via e ?_ (fun _ => ?_))
          | skip))

theorem execFarLoopTimeout_kept {s0 s : State} (h : Kept s0 s) (p : Fin 16) :
    KeptAns s0 (execFarLoopTimeout p s) := by
  unfold execFarLoopTimeout
  refine KeptAns.next ?_
  repeat' (first
    | with_reducible assumption
    | (extract_lets +onlyGivenNames x)
    | with_reducible refine State.failStep_kept ?_ ..
    | split)

theorem execLinkCdrLocked_kept {s0 s : State} (h : Kept s0 s) (p : Fin 16) :
    KeptAns s0 (execLinkCdrLocked p s) := by
  unfold execLinkCdrLocked
  refine KeptAns.next ?_
  repeat' (first
    | with_reducible assumption
    | (extract_lets +onlyGivenNames x)
    | with_reducible refine State.sendFrame_kept ?_ ..
    | with_reducible refine State.showStep_kept ?_ ..
    | split)

theorem execIdleEntry_kept {s0 s : State} (h : Kept s0 s) (p : Fin 16) :
    KeptAns s0 (execIdleEntry p s) := by
  unfold execIdleEntry
  refine KeptAns.next ?_
  repeat' (first
    | with_reducible assumption
    | (extract_lets +onlyGivenNames x; first
          | clear_value x
          | skip)
    | with_reducible refine State.setF_kept ?_ ..
    | with_reducible refine State.sendLink_kept ?_ ..
    | split)

theorem execLinkRejectFlit_kept {s0 s : State} (h : Kept s0 s) (p : Fin 16) (ack : Fin 1048576) :
    KeptAns s0 (execLinkRejectFlit p ack s) := by
  unfold execLinkRejectFlit
  refine KeptAns.next ?_
  repeat' (first
    | with_reducible assumption
    | (extract_lets +onlyGivenNames x)
    | with_reducible refine State.bump_kept ?_ ..
    | with_reducible refine State.linkRx_kept ?_ ..
    | with_reducible refine State.fromSelf_kept ?_ ..
    | (split <;> first
          | (rename_i e; refine KeptOpt.via e ?_ (fun _ => ?_))
          | skip))

theorem execLinkStepTimeout_kept {s0 s : State} (h : Kept s0 s) (p : Fin 16) :
    KeptAns s0 (execLinkStepTimeout p s) := by
  unfold execLinkStepTimeout
  refine KeptAns.next ?_
  repeat' (first
    | with_reducible assumption
    | (extract_lets +onlyGivenNames x; clear_value x)
    | with_reducible refine State.failStep_kept ?_ ..
    | split)

theorem execPrbsLockLoss_kept {s0 s : State} (h : Kept s0 s) (p : Fin 16) (lane : Fin 8) (bits : Nat) (errs : Nat) :
    KeptAns s0 (execPrbsLockLoss p lane bits errs s) := by
  unfold execPrbsLockLoss
  refine KeptAns.next ?_
  repeat' (first
    | with_reducible assumption
    | (extract_lets +onlyGivenNames x; first
          | clear_value x
          | skip)
    | with_reducible refine State.setF_kept ?_ ..
    | with_reducible refine State.prbsCount_kept ?_ ..
    | split)

theorem execLaserTrip_kept {s0 s : State} (h : Kept s0 s) (p : Fin 16) (why : Fin 3) :
    KeptAns s0 (execLaserTrip p why s) := by
  unfold execLaserTrip
  refine KeptAns.next ?_
  repeat' (first
    | with_reducible assumption
    | (extract_lets +onlyGivenNames x; first
          | (refine Kept.via x ?_ (fun hx => ?_); subst x; rotate_left; clear_value x)
          | clear_value x
          | skip)
    | with_reducible refine State.setF_kept ?_ ..
    | with_reducible refine State.setLaser_kept ?_ ..
    | with_reducible refine State.laserHealth_kept ?_ ..
    | with_reducible refine State.gapDark_kept ?_ ..
    | with_reducible refine State.moveGap_kept ?_ ..
    | with_reducible refine State.setLas_kept ?_ ..
    | with_reducible refine State.raise_kept ?_ ..
    | with_reducible refine State.relink_kept ?_ ..
    | with_reducible refine State.startGap_kept ?_ ..
    | split)

theorem execLinkUp_kept {s0 s : State} (h : Kept s0 s) (p : Fin 16) :
    KeptAns s0 (execLinkUp p s) := by
  unfold execLinkUp
  refine KeptAns.next ?_
  repeat' (first
    | with_reducible assumption
    | (extract_lets +onlyGivenNames x; first
          | (refine Kept.via x ?_ (fun hx => ?_); subst x; rotate_left; clear_value x)
          | clear_value x
          | skip)
    | with_reducible refine State.showStep_kept ?_ ..
    | with_reducible refine State.sendCredit_kept ?_ ..
    | with_reducible refine State.raise_kept ?_ ..
    | with_reducible refine State.readmit_kept ?_ ..
    | with_reducible refine State.setLink_kept ?_ ..
    | split)

theorem execLinkAck_kept {s0 s : State} (h : Kept s0 s) (p : Fin 16) (ack : Fin 1048576) :
    KeptAns s0 (execLinkAck p ack s) := by
  unfold execLinkAck
  refine KeptAns.next ?_
  repeat' (first
    | with_reducible assumption
    | (extract_lets +onlyGivenNames x; first
          | clear_value x
          | skip)
    | with_reducible refine State.setLink_kept ?_ ..
    | with_reducible refine State.linkRx_kept ?_ ..
    | with_reducible refine State.fromSelf_kept ?_ ..
    | (split <;> first
          | (rename_i e; refine KeptOpt.via e ?_ (fun _ => ?_))
          | skip))

theorem execLosHoldExpire_kept {s0 s : State} (h : Kept s0 s) (p : Fin 16) :
    KeptAns s0 (execLosHoldExpire p s) := by
  unfold execLosHoldExpire
  refine KeptAns.next ?_
  repeat' (first
    | with_reducible assumption
    | (extract_lets +onlyGivenNames x)
    | with_reducible refine State.linkDrop_kept ?_ ..
    | split)

theorem execStandbyClaimCheck_kept {s0 s : State} (h : Kept s0 s) (p : Fin 16) (good : Bool) :
    KeptAns s0 (execStandbyClaimCheck p good s) := by
  unfold execStandbyClaimCheck
  refine KeptAns.next ?_
  repeat' (first
    | with_reducible assumption
    | (extract_lets +onlyGivenNames x; first
          | (refine Kept.via x ?_ (fun hx => ?_); subst x; rotate_left; clear_value x)
          | clear_value x
          | skip)
    | with_reducible refine State.setF_kept ?_ ..
    | with_reducible refine State.setLaser_kept ?_ ..
    | with_reducible refine State.gapDark_kept ?_ ..
    | with_reducible refine State.setLas_kept ?_ ..
    | with_reducible refine State.raise_kept ?_ ..
    | with_reducible refine State.setLink_kept ?_ ..
    | split)

theorem execIdleEnterFlit_kept {s0 s : State} (h : Kept s0 s) (p : Fin 16) (ack : Fin 1048576) :
    KeptAns s0 (execIdleEnterFlit p ack s) := by
  unfold execIdleEnterFlit
  refine KeptAns.next ?_
  repeat' (first
    | with_reducible assumption
    | (extract_lets +onlyGivenNames x; first
          | (refine Kept.via x ?_ (fun hx => ?_); subst x; rotate_left; clear_value x)
          | clear_value x
          | skip)
    | with_reducible refine State.setF_kept ?_ ..
    | with_reducible refine State.setLink_kept ?_ ..
    | with_reducible refine State.linkRx_kept ?_ ..
    | with_reducible refine State.fromSelf_kept ?_ ..
    | (split <;> first
          | (rename_i e; refine KeptOpt.via e ?_ (fun _ => ?_))
          | skip))

theorem execLaserSwitchComplete_kept {s0 s : State} (h : Kept s0 s) (p : Fin 16) :
    KeptAns s0 (execLaserSwitchComplete p s) := by
  unfold execLaserSwitchComplete
  refine KeptAns.next ?_
  repeat' (first
    | with_reducible assumption
    | (extract_lets +onlyGivenNames x; first
          | (refine Kept.via x ?_ (fun hx => ?_); subst x; rotate_left; clear_value x)
          | clear_value x
          | skip)
    | with_reducible refine State.clearGap_kept ?_ ..
    | with_reducible refine State.bump_kept ?_ ..
    | with_reducible refine State.flushGap_kept ?_ ..
    | with_reducible refine State.setF_kept ?_ ..
    | with_reducible refine State.sendFrame_kept ?_ ..
    | with_reducible refine State.laserTested_kept ?_ ..
    | with_reducible refine State.applyHeld_kept ?_ ..
    | with_reducible refine State.raise_kept ?_ ..
    | with_reducible refine State.dropHeld_kept ?_ ..
    | split)

theorem execPrbsLock_kept {s0 s : State} (h : Kept s0 s) (p : Fin 16) (lane : Fin 8) (bits : Nat) (errs : Nat) :
    KeptAns s0 (execPrbsLock p lane bits errs s) := by
  unfold execPrbsLock
  refine KeptAns.next ?_
  repeat' (first
    | with_reducible assumption
    | (extract_lets +onlyGivenNames x; clear_value x)
    | with_reducible refine State.setF_kept ?_ ..
    | with_reducible refine State.prbsCount_kept ?_ ..
    | split)

theorem execIdleExit_kept {s0 s : State} (h : Kept s0 s) (p : Fin 16) :
    KeptAns s0 (execIdleExit p s) := by
  unfold execIdleExit
  refine KeptAns.next ?_
  repeat' (first
    | with_reducible assumption
    | (extract_lets +onlyGivenNames x)
    | with_reducible refine State.wakePort_kept ?_ ..
    | split)

theorem execLinkRetrain_kept {s0 s : State} (h : Kept s0 s) (p : Fin 16) :
    KeptAns s0 (execLinkRetrain p s) := by
  unfold execLinkRetrain
  refine KeptAns.next ?_
  repeat' (first
    | with_reducible assumption
    | (extract_lets +onlyGivenNames x; clear_value x)
    | with_reducible refine State.linkDrop_kept ?_ ..
    | with_reducible refine State.setLink_kept ?_ ..
    | split)

end Sys2Proof.Machine
end

