-- ==== Sys2Proof/Laws/KeptRouting.lean ====
section
/-! SUPPORT. Each operation and meaning of Machine/Routing.lean keeps what every command keeps (Safety.lean). -/

set_option Elab.async false
set_option linter.tactic.unusedName false
set_option linter.unusedTactic false

namespace Sys2Proof.Machine

open Sys2Proof

theorem State.setPenAt_kept {s0 s : State} (h : Kept s0 s) (src : PenSrc) (x : Pen) :
    Kept s0 (State.setPenAt s src x) := by
  unfold State.setPenAt
  repeat' (first
    | with_reducible assumption
    | (extract_lets +onlyGivenNames x; clear_value x)
    | with_reducible refine State.setRout_kept ?_ ..
    | with_reducible refine State.setLink_kept ?_ ..
    | split)

theorem execSyncFrag_kept {s0 s : State} (h : Kept s0 s) (h : Fin 2) (pk : Packet) :
    KeptAns s0 (execSyncFrag h pk s) := by
  unfold execSyncFrag
  refine KeptAns.next ?_
  repeat' (first
    | with_reducible assumption
    | (extract_lets +onlyGivenNames x)
    | with_reducible refine State.flowRequest_kept ?_ ..
    | split)

theorem State.noRoute_kept {s0 s : State} (h : Kept s0 s) (h : Fin 2) (pk : Packet) :
    Kept s0 (State.noRoute s h pk) := by
  unfold State.noRoute
  repeat' (first
    | with_reducible assumption
    | (extract_lets +onlyGivenNames x; first
          | (refine Kept.via x ?_ (fun hx => ?_); subst x; rotate_left; clear_value x)
          | clear_value x
          | skip)
    | with_reducible refine State.bump_kept ?_ ..
    | with_reducible refine State.inject_kept ?_ ..
    | with_reducible refine State.loseTarget_kept ?_ ..
    | with_reducible refine State.setF_kept ?_ ..
    | with_reducible refine State.raise_kept ?_ ..
    | split)

theorem execPacketCommit_kept {s0 s : State} (h : Kept s0 s) (p : Fin 16) :
    KeptAns s0 (execPacketCommit p s) := by
  unfold execPacketCommit
  refine KeptAns.next ?_
  repeat' (first
    | with_reducible assumption
    | (extract_lets +onlyGivenNames x; first
          | (refine Kept.via x ?_ (fun hx => ?_); subst x; rotate_left; clear_value x)
          | clear_value x
          | skip)
    | with_reducible refine State.bump_kept ?_ ..
    | with_reducible refine State.raise_kept ?_ ..
    | with_reducible refine State.setLink_kept ?_ ..
    | with_reducible refine State.penFree_kept ?_ ..
    | with_reducible refine State.portLost_kept ?_ ..
    | split)

theorem execKernelAtomic_kept {s0 s : State} (h : Kept s0 s) (d : Fin 4) (t : Fin 104) (k : Fin 2) (flow : Fin 262144) (addr : BitVec 64) (x : BitVec 64) (cmp : BitVec 64) (aop : Fin 16) :
    KeptAns s0 (execKernelAtomic d t k flow addr x cmp aop s) := by
  unfold execKernelAtomic
  refine KeptAns.next ?_
  repeat' (first
    | with_reducible assumption
    | (extract_lets +onlyGivenNames x; clear_value x)
    | with_reducible refine State.sendOnFlow_kept ?_ ..
    | with_reducible refine State.emit_kept ?_ ..
    | split)

theorem execMcRoundRto_kept {s0 s : State} (h : Kept s0 s) (c : Fin 262144) (msgId : BitVec 8) :
    KeptAns s0 (execMcRoundRto c msgId s) := by
  unfold execMcRoundRto
  refine KeptAns.next ?_
  repeat' (first
    | with_reducible assumption
    | (extract_lets +onlyGivenNames x; first
          | (refine Kept.via x ?_ (fun hx => ?_); subst x; rotate_left; clear_value x)
          | (have hx := fun a => x a; clear hx; subst x; beta_reduce)
          | clear_value x
          | skip)
    | with_reducible refine State.bump_kept ?_ ..
    | with_reducible refine State.setFlow_kept ?_ ..
    | with_reducible refine State.inject_kept ?_ ..
    | with_reducible refine State.tickFree_kept ?_ ..
    | with_reducible refine State.mcEnd_kept ?_ ..
    | with_reducible refine Kept.foldl _ ?_ ?_
    | split
    | (intro _ _ _; beta_reduce))

theorem State.cktArrive_kept {s0 s : State} (h : Kept s0 s) (p : Fin 16) (pk : Packet) (errs : LineErrs) :
    Kept s0 (State.cktArrive s p pk errs) := by
  unfold State.cktArrive
  repeat' (first
    | with_reducible assumption
    | (extract_lets +onlyGivenNames x; clear_value x)
    | with_reducible refine State.bump_kept ?_ ..
    | with_reducible refine State.cktDeliver_kept ?_ ..
    | split)

theorem execXtabReadDone_kept {s0 s : State} (h : Kept s0 s) (h : Fin 2) (errs : LineErrs) :
    KeptAns s0 (execXtabReadDone h errs s) := by
  unfold execXtabReadDone
  refine KeptAns.next ?_
  repeat' (first
    | with_reducible assumption
    | (extract_lets +onlyGivenNames x; first
          | (refine Kept.via x ?_ (fun hx => ?_); subst x; rotate_left; clear_value x)
          | clear_value x)
    | with_reducible refine State.setRout_kept ?_ ..
    | with_reducible refine State.setF_kept ?_ ..
    | with_reducible refine State.countImage_kept ?_ ..
    | with_reducible refine State.findErrs_kept ?_ ..
    | with_reducible refine State.raise_kept ?_ ..
    | split)

theorem State.popPen_kept {s0 s : State} (h : Kept s0 s) (src : PenSrc) :
    Kept s0 (State.popPen s src) := by
  unfold State.popPen
  repeat' (first
    | with_reducible assumption
    | (extract_lets +onlyGivenNames x; first
          | (refine Kept.via x ?_ (fun hx => ?_); subst x; rotate_left; clear_value x)
          | clear_value x)
    | with_reducible refine State.setPenAt_kept ?_ ..
    | with_reducible refine State.penFree_kept ?_ ..
    | split)

theorem execPenAgeDrop_kept {s0 s : State} (h : Kept s0 s) (src : PenSrc) :
    KeptAns s0 (execPenAgeDrop src s) := by
  unfold execPenAgeDrop
  refine KeptAns.next ?_
  repeat' (first
    | with_reducible assumption
    | (extract_lets +onlyGivenNames x; first
          | clear_value x
          | skip)
    | with_reducible refine State.bump_kept ?_ ..
    | with_reducible refine State.popPen_kept ?_ ..
    | with_reducible refine State.raise_kept ?_ ..
    | split)

theorem execFlowAckTimer_kept {s0 s : State} (h : Kept s0 s) (ckt : Bool) (c : Fin 262144) :
    KeptAns s0 (execFlowAckTimer ckt c s) := by
  unfold execFlowAckTimer
  refine KeptAns.next ?_
  repeat' (first
    | with_reducible assumption
    | (extract_lets +onlyGivenNames x; first
          | clear_value x
          | skip)
    | with_reducible refine State.sendAck_kept ?_ ..
    | with_reducible refine State.sendCktAck_kept ?_ ..
    | split)

theorem execReadRsp_kept {s0 s : State} (h : Kept s0 s) (h : Fin 2) (pk : Packet) (errs : LineErrs) :
    KeptAns s0 (execReadRsp h pk errs s) := by
  unfold execReadRsp
  refine KeptAns.next ?_
  repeat' (first
    | with_reducible assumption
    | (extract_lets +onlyGivenNames x)
    | with_reducible refine State.deliverReply_kept ?_ ..
    | with_reducible refine State.findErrs_kept ?_ ..
    | split)

theorem execFlowDisable_kept {s0 s : State} (h : Kept s0 s) (h : Fin 2) :
    KeptAns s0 (execFlowDisable h s) := by
  unfold execFlowDisable
  refine KeptAns.next ?_
  repeat' (first
    | with_reducible assumption
    | (extract_lets +onlyGivenNames x; clear_value x)
    | with_reducible refine State.endFlow_kept ?_ ..
    | split)

theorem State.forward_kept {s0 s : State} (h : Kept s0 s) (h : Fin 2) (p : Fin 16) (v : Nat) (pk : Packet) :
    Kept s0 (State.forward s h p v pk) := by
  unfold State.forward
  repeat' (first
    | with_reducible assumption
    | (extract_lets +onlyGivenNames x; first
          | (refine Kept.via x ?_ (fun hx => ?_); subst x; rotate_left; clear_value x)
          | clear_value x
          | skip)
    | with_reducible refine State.addPair_kept ?_ ..
    | with_reducible refine State.sendPacket_kept ?_ ..
    | with_reducible refine State.setLink_kept ?_ ..
    | split)

theorem State.routeCkt_kept {s0 s : State} (h : Kept s0 s) (src : PenSrc) (pk : Packet) (errs : LineErrs) :
    Kept s0 (State.routeCkt s src pk errs) := by
  unfold State.routeCkt
  repeat' (first
    | with_reducible assumption
    | (extract_lets +onlyGivenNames x; first
          | (have hx := fun a => x a; clear hx; subst x; beta_reduce)
          | clear_value x
          | skip)
    | with_reducible refine State.bump_kept ?_ ..
    | with_reducible refine State.cktDeliver_kept ?_ ..
    | with_reducible refine State.popPen_kept ?_ ..
    | with_reducible refine State.forward_kept ?_ ..
    | split)

theorem execWrite_kept {s0 s : State} (h : Kept s0 s) (h : Fin 2) (pk : Packet) (errs : LineErrs) :
    KeptAns s0 (execWrite h pk errs s) := by
  unfold execWrite
  refine KeptAns.next ?_
  repeat' (first
    | with_reducible assumption
    | (extract_lets +onlyGivenNames x)
    | with_reducible refine State.flowRequest_kept ?_ ..
    | split)

theorem execFlowEnable_kept {s0 s : State} (h : Kept s0 s) (h : Fin 2) (errs : LineErrs) :
    KeptAns s0 (execFlowEnable h errs s) := by
  unfold execFlowEnable
  refine KeptAns.next ?_
  repeat' (first
    | with_reducible assumption
    | (extract_lets +onlyGivenNames x; first
          | clear_value x
          | skip)
    | with_reducible refine State.setFlow_kept ?_ ..
    | with_reducible refine State.endFlow_kept ?_ ..
    | with_reducible refine State.findErrs_kept ?_ ..
    | with_reducible refine State.readMem_kept ?_ ..
    | split)

theorem execAtomicRsp_kept {s0 s : State} (h : Kept s0 s) (h : Fin 2) (pk : Packet) :
    KeptAns s0 (execAtomicRsp h pk s) := by
  unfold execAtomicRsp
  refine KeptAns.next ?_
  repeat' (first
    | with_reducible assumption
    | (extract_lets +onlyGivenNames x)
    | with_reducible refine State.deliverReply_kept ?_ ..
    | split)

theorem execPenReset_kept {s0 s : State} (h : Kept s0 s) (p : Fin 16) (v : Fin 5) :
    KeptAns s0 (execPenReset p v s) := by
  unfold execPenReset
  refine KeptAns.next ?_
  repeat' (first
    | with_reducible assumption
    | (extract_lets +onlyGivenNames x; first
          | (refine Kept.via x ?_ (fun hx => ?_); subst x; rotate_left; clear_value x)
          | clear_value x
          | skip)
    | with_reducible refine State.bump_kept ?_ ..
    | with_reducible refine State.setF_kept ?_ ..
    | with_reducible refine State.raise_kept ?_ ..
    | with_reducible refine State.setLink_kept ?_ ..
    | with_reducible refine State.penFree_kept ?_ ..)

theorem execAtomic_kept {s0 s : State} (h : Kept s0 s) (h : Fin 2) (pk : Packet) (errs : LineErrs) :
    KeptAns s0 (execAtomic h pk errs s) := by
  unfold execAtomic
  refine KeptAns.next ?_
  repeat' (first
    | with_reducible assumption
    | (extract_lets +onlyGivenNames x)
    | with_reducible refine State.flowRequest_kept ?_ ..
    | split)

theorem execEscWaitExpire_kept {s0 s : State} (h : Kept s0 s) (src : PenSrc) :
    KeptAns s0 (execEscWaitExpire src s) := by
  unfold execEscWaitExpire
  refine KeptAns.next ?_
  repeat' (first
    | with_reducible assumption
    | (extract_lets +onlyGivenNames x; clear_value x)
    | with_reducible refine State.setPenAt_kept ?_ ..
    | split)

theorem execFlowRto_kept {s0 s : State} (h : Kept s0 s) (c : Fin 262144) (seq : BitVec 32) :
    KeptAns s0 (execFlowRto c seq s) := by
  unfold execFlowRto
  refine KeptAns.next ?_
  repeat' (first
    | with_reducible assumption
    | (extract_lets +onlyGivenNames x; first
          | (refine Kept.via x ?_ (fun hx => ?_); subst x; rotate_left; clear_value x)
          | clear_value x
          | skip)
    | with_reducible refine State.bump_kept ?_ ..
    | with_reducible refine State.setFlow_kept ?_ ..
    | with_reducible refine State.inject_kept ?_ ..
    | with_reducible refine State.failFlow_kept ?_ ..
    | split)

theorem State.turnAfter_kept {s0 s : State} (h : Kept s0 s) (src : PenSrc) (ps : List (Fin 16)) :
    Kept s0 (State.turnAfter s src ps) := by
  unfold State.turnAfter
  repeat' (first
    | with_reducible assumption
    | (extract_lets +onlyGivenNames x; first
          | clear_value x
          | skip)
    | with_reducible refine State.setLink_kept ?_ ..
    | with_reducible refine Kept.foldl _ ?_ ?_
    | (intro _ _ _; beta_reduce))

theorem execAck_kept {s0 s : State} (h : Kept s0 s) (h : Fin 2) (pk : Packet) :
    KeptAns s0 (execAck h pk s) := by
  unfold execAck
  refine KeptAns.next ?_
  repeat' (first
    | with_reducible assumption
    | (extract_lets +onlyGivenNames x)
    | with_reducible refine State.deliverReply_kept ?_ ..
    | split)

theorem execHaloWrite_kept {s0 s : State} (h : Kept s0 s) (h : Fin 2) (pk : Packet) :
    KeptAns s0 (execHaloWrite h pk s) := by
  unfold execHaloWrite
  refine KeptAns.next ?_
  repeat' (first
    | with_reducible assumption
    | (extract_lets +onlyGivenNames x)
    | with_reducible refine State.flowRequest_kept ?_ ..
    | split)

theorem execReadReq_kept {s0 s : State} (h : Kept s0 s) (h : Fin 2) (pk : Packet) (errs : LineErrs) :
    KeptAns s0 (execReadReq h pk errs s) := by
  unfold execReadReq
  refine KeptAns.next ?_
  repeat' (first
    | with_reducible assumption
    | (extract_lets +onlyGivenNames x)
    | with_reducible refine State.flowRequest_kept ?_ ..
    | split)

theorem execCktRto_kept {s0 s : State} (h : Kept s0 s) (c : Fin 1024) :
    KeptAns s0 (execCktRto c s) := by
  unfold execCktRto
  refine KeptAns.next ?_
  repeat' (first
    | with_reducible assumption
    | (extract_lets +onlyGivenNames x)
    | with_reducible refine State.cktResend_kept ?_ ..
    | split)

theorem execCktWrite_kept {s0 s : State} (h : Kept s0 s) (p : Fin 16) (pk : Packet) (errs : LineErrs) :
    KeptAns s0 (execCktWrite p pk errs s) := by
  unfold execCktWrite
  refine KeptAns.next ?_
  repeat' (first
    | with_reducible assumption
    | (extract_lets +onlyGivenNames x)
    | with_reducible refine State.cktArrive_kept ?_ ..
    | split)

theorem execGuestRsp_kept {s0 s : State} (h : Kept s0 s) (h : Fin 2) (pk : Packet) (room : Nat) :
    KeptAns s0 (execGuestRsp h pk room s) := by
  unfold execGuestRsp
  refine KeptAns.next ?_
  repeat' (first
    | with_reducible assumption
    | (extract_lets +onlyGivenNames x)
    | with_reducible refine State.deliverReply_kept ?_ ..
    | split)

theorem execReject_kept {s0 s : State} (h : Kept s0 s) (h : Fin 2) (pk : Packet) :
    KeptAns s0 (execReject h pk s) := by
  unfold execReject
  refine KeptAns.next ?_
  repeat' (first
    | with_reducible assumption
    | (extract_lets +onlyGivenNames x)
    | with_reducible refine State.deliverReply_kept ?_ ..
    | split)

theorem execMcAck_kept {s0 s : State} (h : Kept s0 s) (h : Fin 2) (pk : Packet) :
    KeptAns s0 (execMcAck h pk s) := by
  unfold execMcAck
  refine KeptAns.next ?_
  repeat' (first
    | with_reducible assumption
    | (extract_lets +onlyGivenNames x)
    | with_reducible refine State.deliverReply_kept ?_ ..
    | split)

theorem State.mcForward_kept {s0 s : State} (h : Kept s0 s) (src : PenSrc) (pk : Packet) :
    Kept s0 (State.mcForward s src pk) := by
  unfold State.mcForward
  repeat' (first
    | with_reducible assumption
    | (extract_lets +onlyGivenNames x; first
          | (have hx := fun a => x a; clear hx; subst x; beta_reduce)
          | clear_value x
          | skip)
    | with_reducible refine State.setPenAt_kept ?_ ..
    | with_reducible refine State.turnAfter_kept ?_ ..
    | with_reducible refine State.forward_kept ?_ ..
    | with_reducible refine State.sendMcAck_kept ?_ ..
    | with_reducible refine Kept.foldl _ ?_ ?_
    | split
    | (intro _ _ _; beta_reduce))

theorem State.routeMc_kept {s0 s : State} (h : Kept s0 s) (src : PenSrc) (pk : Packet) (errs : LineErrs) :
    Kept s0 (State.routeMc s src pk errs) := by
  unfold State.routeMc
  repeat' (first
    | with_reducible assumption
    | (extract_lets +onlyGivenNames x; refine Kept.via x ?_ (fun hx => ?_); subst x; rotate_left; clear_value x)
    | with_reducible refine State.mcForward_kept ?_ ..
    | with_reducible refine State.mcTake_kept ?_ ..
    | with_reducible refine State.popPen_kept ?_ ..
    | split)

theorem execPacketRoute_kept {s0 s : State} (h : Kept s0 s) (src : PenSrc) (errs : LineErrs) (room : Nat) :
    KeptAns s0 (execPacketRoute src errs room s) := by
  unfold execPacketRoute
  refine KeptAns.next ?_
  repeat' (first
    | with_reducible assumption
    | (extract_lets +onlyGivenNames x; first
          | (refine Kept.via x ?_ (fun hx => ?_); subst x; rotate_left; clear_value x)
          | clear_value x
          | skip)
    | with_reducible refine State.setRout_kept ?_ ..
    | with_reducible refine State.bump_kept ?_ ..
    | with_reducible refine State.noRoute_kept ?_ ..
    | with_reducible refine State.routeMc_kept ?_ ..
    | with_reducible refine State.addPair_kept ?_ ..
    | with_reducible refine State.popPen_kept ?_ ..
    | with_reducible refine State.routeCkt_kept ?_ ..
    | with_reducible refine State.raise_kept ?_ ..
    | with_reducible refine State.turnAfter_kept ?_ ..
    | with_reducible refine State.forward_kept ?_ ..
    | with_reducible refine State.deliver_kept ?_ ..
    | split)

theorem execMcWrite_kept {s0 s : State} (h : Kept s0 s) (p : Fin 16) (pk : Packet) (errs : LineErrs) :
    KeptAns s0 (execMcWrite p pk errs s) := by
  unfold execMcWrite
  refine KeptAns.next ?_
  repeat' (first
    | with_reducible assumption
    | (extract_lets +onlyGivenNames x; first
          | (refine Kept.via x ?_ (fun hx => ?_); subst x; rotate_left; clear_value x)
          | clear_value x
          | skip)
    | with_reducible refine State.bump_kept ?_ ..
    | with_reducible refine State.routeMc_kept ?_ ..
    | with_reducible refine State.raise_kept ?_ ..
    | with_reducible refine State.setLink_kept ?_ ..
    | split)

theorem execCktAck_kept {s0 s : State} (h : Kept s0 s) (h : Fin 2) (pk : Packet) :
    KeptAns s0 (execCktAck h pk s) := by
  unfold execCktAck
  refine KeptAns.next ?_
  repeat' (first
    | with_reducible assumption
    | (extract_lets +onlyGivenNames x)
    | with_reducible refine State.deliverReply_kept ?_ ..
    | split)

theorem execCktHalo_kept {s0 s : State} (h : Kept s0 s) (p : Fin 16) (pk : Packet) :
    KeptAns s0 (execCktHalo p pk s) := by
  unfold execCktHalo
  refine KeptAns.next ?_
  repeat' (first
    | with_reducible assumption
    | (extract_lets +onlyGivenNames x)
    | with_reducible refine State.cktArrive_kept ?_ ..
    | split)

theorem execGuest_kept {s0 s : State} (h : Kept s0 s) (h : Fin 2) (pk : Packet) :
    KeptAns s0 (execGuest h pk s) := by
  unfold execGuest
  refine KeptAns.next ?_
  repeat' (first
    | with_reducible assumption
    | (extract_lets +onlyGivenNames x)
    | with_reducible refine State.flowRequest_kept ?_ ..
    | split)

theorem execTransitWindowTick_kept {s0 s : State} (h : Kept s0 s) :
    KeptAns s0 (execTransitWindowTick s) := by
  unfold execTransitWindowTick
  refine KeptAns.next ?_
  repeat' (first
    | with_reducible assumption
    | (extract_lets +onlyGivenNames x; first
          | clear_value x
          | skip)
    | with_reducible refine State.setLink_kept ?_ ..
    | with_reducible refine Kept.foldl _ ?_ ?_
    | (intro _ _ _; beta_reduce))

end Sys2Proof.Machine
end

