-- ==== Sys2Proof/Laws/KeptCommitOps.lean ====
section
/-! SUPPORT. Each operation and meaning of Machine/CommitOps.lean keeps what every command keeps (Safety.lean). -/

set_option Elab.async false
set_option linter.tactic.unusedName false
set_option linter.unusedTactic false

namespace Sys2Proof.Machine

open Sys2Proof

theorem State.dropCommit_kept {s0 s : State} (h : Kept s0 s) (u : UnitId) :
    Kept s0 (State.dropCommit s u) := by
  unfold State.dropCommit
  repeat' (with_reducible exact Kept.upd (by assumption) rfl)

theorem State.joinBelow_kept {s0 s : State} (h : Kept s0 s) (c : Commit) :
    Kept s0 (State.joinBelow s c).1 := by
  unfold State.joinBelow
  repeat' (first
    | with_reducible assumption
    | (extract_lets +onlyGivenNames x; first
          | clear_value x
          | skip)
    | with_reducible refine State.dropCommit_kept ?_ ..
    | with_reducible refine State.setF_kept ?_ ..
    | with_reducible refine Kept.foldl1 _ ?_ ?_
    | split
    | (intro _ _ _; beta_reduce))

theorem State.putCommit_kept {s0 s : State} (h : Kept s0 s) (c : Commit) :
    Kept s0 (State.putCommit s c) := by
  unfold State.putCommit
  repeat' (with_reducible exact Kept.upd (by assumption) rfl)

theorem State.showCheck_kept {s0 s : State} (h : Kept s0 s) (root : UnitId) :
    Kept s0 (State.showCheck s root) := by
  unfold State.showCheck
  repeat' (first
    | with_reducible assumption
    | (extract_lets +onlyGivenNames x; first
          | (refine Kept.via x ?_ (fun hx => ?_); subst x; rotate_left; clear_value x)
          | skip)
    | with_reducible refine State.setF_kept ?_ ..)

theorem State.joinUnder_kept {s0 s : State} (h : Kept s0 s) (a : UnitId) (u : UnitId) :
    Kept s0 (State.joinUnder s a u) := by
  unfold State.joinUnder
  repeat' (first
    | with_reducible assumption
    | (extract_lets +onlyGivenNames x)
    | with_reducible refine State.setF_kept ?_ ..
    | with_reducible refine State.putCommit_kept ?_ ..
    | split)

theorem State.hctlApply_kept {s0 s : State} (h : Kept s0 s) (old : State) :
    Kept s0 (State.hctlApply s old) := by
  unfold State.hctlApply
  repeat' (first
    | with_reducible assumption
    | (extract_lets +onlyGivenNames x; first
          | (refine Kept.via x ?_ (fun hx => ?_); subst x; rotate_left; clear_value x)
          | (have hx := fun a => x a; clear hx; subst x; beta_reduce)
          | clear_value x)
    | with_reducible refine State.setPw_kept ?_ ..
    | with_reducible refine State.capResolve_kept ?_ ..
    | with_reducible refine State.fwGo_kept ?_ ..
    | with_reducible refine State.countImage_kept ?_ ..
    | with_reducible refine State.setPair_kept ?_ ..
    | split)

theorem State.routApply_kept {s0 s : State} (h : Kept s0 s) (old : State) (h : Fin 2) :
    Kept s0 (State.routApply s old h) := by
  unfold State.routApply
  repeat' (first
    | with_reducible assumption
    | (extract_lets +onlyGivenNames x; first
          | clear_value x
          | skip)
    | with_reducible refine State.setRout_kept ?_ ..
    | with_reducible refine State.dtabBusy_kept ?_ ..
    | split)

theorem State.startXtab_kept {s0 s : State} (h : Kept s0 s) (u : UnitId) (off : Nat) :
    Kept s0 (State.startXtab s u off) := by
  unfold State.startXtab
  repeat' (first
    | with_reducible assumption
    | (extract_lets +onlyGivenNames x; first
          | clear_value x
          | skip)
    | with_reducible refine State.setRout_kept ?_ ..
    | with_reducible refine State.setF_kept ?_ ..
    | split)

theorem State.setStates_kept {s0 s : State} (h : Kept s0 s) (c : Commit) (v : Nat) :
    Kept s0 (State.setStates s c v) := by
  unfold State.setStates
  repeat' (first
    | with_reducible assumption
    | (extract_lets +onlyGivenNames x)
    | with_reducible refine State.setF_kept ?_ ..
    | with_reducible refine Kept.foldl _ ?_ ?_
    | (intro _ _ _; beta_reduce))

theorem State.showBelow_kept {s0 s : State} (h : Kept s0 s) :
    Kept s0 (State.showBelow s) := by
  unfold State.showBelow
  repeat' (first
    | with_reducible assumption
    | (extract_lets +onlyGivenNames x)
    | with_reducible refine State.setF_kept ?_ ..
    | with_reducible refine Kept.foldl _ ?_ ?_
    | (intro _ _ _; beta_reduce))

theorem State.targetsApply_kept {s0 s : State} (h : Kept s0 s) (old : State) (swapped : Bool) :
    Kept s0 (State.targetsApply s old swapped) := by
  unfold State.targetsApply
  repeat' (first
    | with_reducible assumption
    | (extract_lets +onlyGivenNames x; first
          | (refine Kept.via x ?_ (fun hx => ?_); subst x; rotate_left; clear_value x)
          | (refine Kept.viaMem x rfl (fun hx => ?_); clear_value x)
          | clear_value x
          | skip)
    | with_reducible refine State.loseTarget_kept ?_ ..
    | with_reducible refine State.setF_kept ?_ ..
    | with_reducible refine Kept.foldl _ ?_ ?_
    | split
    | (intro _ _ _; beta_reduce)
    | with_reducible exact Kept.upd (by assumption) (by assumption))

theorem State.clearHolds_kept {s0 s : State} (h : Kept s0 s) (p : Fin 16) :
    Kept s0 (State.clearHolds s p) := by
  unfold State.clearHolds
  repeat' (first
    | with_reducible assumption
    | (extract_lets +onlyGivenNames x; clear_value x)
    | with_reducible refine State.setLink_kept ?_ ..)

theorem State.staleKernels_kept {s0 s : State} (h : Kept s0 s) (d : Fin 4) :
    Kept s0 (State.staleKernels s d) := by
  unfold State.staleKernels
  repeat' (with_reducible exact Kept.upd (by assumption) rfl)

theorem State.freeBay_kept {s0 s : State} (h : Kept s0 s) (d : Fin 4) (a : Nat) (b : Nat) :
    Kept s0 (State.freeBay s d a b) := by
  unfold State.freeBay
  exact Kept.tick h rfl (Nat.le_add_right _ _)

theorem State.resizeSlots_kept {s0 s : State} (h : Kept s0 s) (d : Fin 4) (was : Nat) (now : Nat) :
    Kept s0 (State.resizeSlots s d was now) := by
  unfold State.resizeSlots
  repeat' (first
    | with_reducible assumption
    | (extract_lets +onlyGivenNames x; refine Kept.via x ?_ (fun hx => ?_); subst x; rotate_left; clear_value x)
    | with_reducible refine State.freeBay_kept ?_ ..
    | split
    | with_reducible exact Kept.upd (by assumption) rfl)

theorem State.unitApply_kept {s0 s : State} (h : Kept s0 s) (old : State) (u : UnitId) :
    Kept s0 (State.unitApply s old u) := by
  unfold State.unitApply
  repeat' (first
    | with_reducible assumption
    | (extract_lets +onlyGivenNames x; refine Kept.via x ?_ (fun hx => ?_); subst x; rotate_left; clear_value x)
    | with_reducible refine State.clearHolds_kept ?_ ..
    | with_reducible refine State.staleKernels_kept ?_ ..
    | with_reducible refine State.readTable_kept ?_ ..
    | with_reducible refine State.resizeSlots_kept ?_ ..
    | with_reducible refine State.hctlApply_kept ?_ ..
    | with_reducible refine State.routApply_kept ?_ ..
    | split)

theorem State.endChanged_kept {s0 s : State} (h : Kept s0 s) (old : State) (tabs : Bool) :
    Kept s0 (State.endChanged s old tabs) := by
  unfold State.endChanged
  repeat' (first
    | with_reducible assumption
    | (extract_lets +onlyGivenNames x; first
          | clear_value x
          | skip)
    | with_reducible refine State.endCkt_kept ?_ ..
    | with_reducible refine State.setCkt_kept ?_ ..
    | with_reducible refine Kept.foldl _ ?_ ?_
    | split
    | (intro _ _ _; beta_reduce))

theorem State.takeShadows_kept {s0 s : State} (h : Kept s0 s) (u : UnitId) :
    Kept s0 (State.takeShadows s u) := by
  unfold State.takeShadows
  repeat' (first
    | with_reducible assumption
    | (extract_lets +onlyGivenNames x; first
          | (refine Kept.via x ?_ (fun hx => ?_); subst x; rotate_left; clear_value x)
          | clear_value x
          | skip)
    | with_reducible refine State.setF_kept ?_ ..
    | with_reducible refine State.setW_kept ?_ ..
    | with_reducible refine Kept.foldl _ ?_ ?_
    | (intro _ _ _; beta_reduce)
    | with_reducible exact Kept.upd (by assumption) rfl)

theorem State.applySet_kept {s0 s : State} (h : Kept s0 s) (root : UnitId) :
    Kept s0 (State.applySet s root) := by
  unfold State.applySet
  repeat' (first
    | with_reducible assumption
    | (extract_lets +onlyGivenNames x; first
          | (refine Kept.via x ?_ (fun hx => ?_); subst x; rotate_left; clear_value x)
          | clear_value x
          | skip)
    | with_reducible refine State.showBelow_kept ?_ ..
    | with_reducible refine State.targetsApply_kept ?_ ..
    | with_reducible refine State.unitApply_kept ?_ ..
    | with_reducible refine State.endChanged_kept ?_ ..
    | with_reducible refine State.readmit_kept ?_ ..
    | with_reducible refine State.takeShadows_kept ?_ ..
    | with_reducible refine Kept.foldl _ ?_ ?_
    | (intro _ _ _; beta_reduce))

theorem State.lateReport_kept {s0 s : State} (h : Kept s0 s) (c : Commit) (cause : Nat) :
    Kept s0 (State.lateReport s c cause) := by
  unfold State.lateReport
  repeat' (first
    | with_reducible assumption
    | (extract_lets +onlyGivenNames x; first
          | (refine Kept.via x ?_ (fun hx => ?_); subst x; rotate_left; clear_value x)
          | clear_value x
          | skip)
    | with_reducible refine State.bump_kept ?_ ..
    | with_reducible refine State.setF_kept ?_ ..
    | with_reducible refine State.raise_kept ?_ ..)

theorem State.applyCommit_kept {s0 s : State} (h : Kept s0 s) (c : Commit) (cause : Nat) :
    Kept s0 (State.applyCommit s c cause) := by
  unfold State.applyCommit
  repeat' (first
    | with_reducible assumption
    | (extract_lets +onlyGivenNames x; first
          | (refine Kept.via x ?_ (fun hx => ?_); subst x; rotate_left; clear_value x)
          | clear_value x)
    | with_reducible refine State.dropCommit_kept ?_ ..
    | with_reducible refine State.showCheck_kept ?_ ..
    | with_reducible refine State.applySet_kept ?_ ..
    | with_reducible refine State.setStates_kept ?_ ..
    | with_reducible refine State.lateReport_kept ?_ ..
    | split)

theorem State.rerunChecks_kept {s0 s : State} (h : Kept s0 s) (u : UnitId) :
    Kept s0 (State.rerunChecks s u) := by
  unfold State.rerunChecks
  repeat' (first
    | with_reducible assumption
    | (extract_lets +onlyGivenNames x)
    | with_reducible refine Kept.foldl _ ?_ ?_
    | split
    | (intro _ _ _; beta_reduce)
    | with_reducible exact Kept.upd (by assumption) rfl)

theorem State.scoped_kept {s0 s : State} (h : Kept s0 s) (root : UnitId) :
    Kept s0 (State.scoped s root) := by
  unfold State.scoped
  repeat' (first
    | with_reducible assumption
    | (extract_lets +onlyGivenNames x; clear_value x)
    | split
    | with_reducible exact Kept.upd (by assumption) rfl)

theorem State.stagedWrite_kept {s0 s : State} (h : Kept s0 s) (u : UnitId) (off : Nat) (w : Word) :
    Kept s0 (State.stagedWrite s u off w) := by
  unfold State.stagedWrite
  repeat' (first
    | with_reducible assumption
    | (extract_lets +onlyGivenNames x; first
          | (refine Kept.via x ?_ (fun hx => ?_); subst x; rotate_left; clear_value x)
          | clear_value x
          | skip)
    | with_reducible refine State.rerunChecks_kept ?_ ..
    | with_reducible refine State.startXtab_kept ?_ ..
    | with_reducible refine State.stageW_kept ?_ ..
    | split)

end Sys2Proof.Machine
end

