-- ==== Sys2Proof/Laws/KeptCommits.lean ====
section
/-! SUPPORT. Each operation and meaning of Machine/Commits.lean keeps what every command keeps (Safety.lean). -/

set_option Elab.async false
set_option linter.tactic.unusedName false
set_option linter.unusedTactic false

namespace Sys2Proof.Machine

open Sys2Proof

theorem execCommitAt_kept {s0 s : State} (h : Kept s0 s) (u : UnitId) :
    KeptAns s0 (execCommitAt u s) := by
  unfold execCommitAt
  refine KeptAns.next ?_
  repeat' (first
    | with_reducible assumption
    | (extract_lets +onlyGivenNames x)
    | with_reducible refine State.joinBelow_kept ?_ ..
    | with_reducible refine State.setF_kept ?_ ..
    | with_reducible refine State.putCommit_kept ?_ ..
    | with_reducible refine State.showCheck_kept ?_ ..
    | with_reducible refine State.joinUnder_kept ?_ ..
    | split)

theorem execCommitCancel_kept {s0 s : State} (h : Kept s0 s) (u : UnitId) :
    KeptAns s0 (execCommitCancel u s) := by
  unfold execCommitCancel
  refine KeptAns.next ?_
  repeat' (first
    | with_reducible assumption
    | (extract_lets +onlyGivenNames x)
    | with_reducible refine State.dropCommit_kept ?_ ..
    | with_reducible refine State.joinUnder_kept ?_ ..
    | with_reducible refine State.setStates_kept ?_ ..
    | split)

theorem execCommitAtReached_kept {s0 s : State} (h : Kept s0 s) (u : UnitId) (errs : LineErrs) :
    KeptAns s0 (execCommitAtReached u errs s) := by
  unfold execCommitAtReached
  refine KeptAns.next ?_
  repeat' (first
    | with_reducible assumption
    | (extract_lets +onlyGivenNames x)
    | with_reducible refine State.applyCommit_kept ?_ ..
    | with_reducible refine State.findErrs_kept ?_ ..
    | split)

theorem execDtabBankCopyDone_kept {s0 s : State} (h : Kept s0 s) (h : Fin 2) (errs : LineErrs) :
    KeptAns s0 (execDtabBankCopyDone h errs s) := by
  unfold execDtabBankCopyDone
  refine KeptAns.next ?_
  repeat' (first
    | with_reducible assumption
    | (extract_lets +onlyGivenNames x; first
          | (refine Kept.via x ?_ (fun hx => ?_); subst x; rotate_left; clear_value x)
          | clear_value x
          | skip)
    | with_reducible refine State.setRout_kept ?_ ..
    | with_reducible refine State.dtabBusy_kept ?_ ..
    | with_reducible refine State.applyCommit_kept ?_ ..
    | with_reducible refine State.findErrs_kept ?_ ..
    | with_reducible refine Kept.foldl _ ?_ ?_
    | split
    | (intro _ _ _; beta_reduce))

theorem execCommitNow_kept {s0 s : State} (h : Kept s0 s) (u : UnitId) (errs : LineErrs) :
    KeptAns s0 (execCommitNow u errs s) := by
  unfold execCommitNow
  refine KeptAns.next ?_
  repeat' (first
    | with_reducible assumption
    | (extract_lets +onlyGivenNames x)
    | with_reducible refine State.joinBelow_kept ?_ ..
    | with_reducible refine State.setF_kept ?_ ..
    | with_reducible refine State.putCommit_kept ?_ ..
    | with_reducible refine State.applyCommit_kept ?_ ..
    | with_reducible refine State.findErrs_kept ?_ ..
    | with_reducible refine State.joinUnder_kept ?_ ..
    | (split <;> first
          | (rename_i e; refine Kept.viaFst e ?_ (fun _ => ?_))
          | skip))

theorem execStageCheckDone_kept {s0 s : State} (h : Kept s0 s) (u : UnitId) (errs : LineErrs) :
    KeptAns s0 (execStageCheckDone u errs s) := by
  unfold execStageCheckDone
  refine KeptAns.next ?_
  repeat' (first
    | with_reducible assumption
    | (extract_lets +onlyGivenNames x; first
          | (refine Kept.via x ?_ (fun hx => ?_); subst x; rotate_left; clear_value x)
          | clear_value x
          | skip)
    | with_reducible refine State.putCommit_kept ?_ ..
    | with_reducible refine State.showCheck_kept ?_ ..
    | with_reducible refine State.applyCommit_kept ?_ ..
    | with_reducible refine State.findErrs_kept ?_ ..
    | split)

theorem execStagedWrite_kept {s0 s : State} (h : Kept s0 s) (u : UnitId) (off : Nat) (w : Word) :
    KeptAns s0 (execStagedWrite u off w s) := by
  unfold execStagedWrite
  refine KeptAns.next ?_
  repeat' (first
    | with_reducible assumption
    | (extract_lets +onlyGivenNames x)
    | with_reducible refine State.stagedWrite_kept ?_ ..
    | split)

end Sys2Proof.Machine
end

