-- ==== Sys2Proof/Laws/KeptThermal.lean ====
section
/-! SUPPORT. Each operation and meaning of Machine/Thermal.lean keeps what every command keeps (Safety.lean). -/

set_option Elab.async false
set_option linter.tactic.unusedName false
set_option linter.unusedTactic false

namespace Sys2Proof.Machine

open Sys2Proof

theorem State.noVoltage_kept {s0 s : State} (h : Kept s0 s) (d : Fin 4) (t : Fin 104) :
    Kept s0 (State.noVoltage s d t) := by
  unfold State.noVoltage
  repeat' (first
    | with_reducible assumption
    | with_reducible refine State.spareBad_kept ?_ ..
    | with_reducible refine State.failTile_kept ?_ ..
    | split)

theorem State.putMargin_kept {s0 s : State} (h : Kept s0 s) (d : Fin 4) (t : Fin 104) (m : Margin) :
    Kept s0 (State.putMargin s d t m) := by
  unfold State.putMargin
  repeat' (first
    | with_reducible assumption
    | (extract_lets +onlyGivenNames x; first
          | (refine Kept.via x ?_ (fun hx => ?_); subst x; rotate_left; clear_value x)
          | clear_value x
          | skip)
    | with_reducible refine State.setPw_kept ?_ ..
    | with_reducible refine State.setF_kept ?_ ..
    | with_reducible refine State.tickFree_kept ?_ ..)

theorem execRemarginVisitDone_kept {s0 s : State} (h : Kept s0 s) (d : Fin 4) (t : Fin 104) (table : Vector Nat 8) (ring : Nat) (lines : LineErrs) :
    KeptAns s0 (execRemarginVisitDone d t table ring lines s) := by
  unfold execRemarginVisitDone
  refine KeptAns.next ?_
  repeat' (first
    | with_reducible assumption
    | (extract_lets +onlyGivenNames x; first
          | (refine Kept.via x ?_ (fun hx => ?_); subst x; rotate_left; clear_value x)
          | clear_value x
          | skip)
    | with_reducible refine State.setPw_kept ?_ ..
    | with_reducible refine State.setF_kept ?_ ..
    | with_reducible refine State.findErrs_kept ?_ ..
    | with_reducible refine State.setTile_kept ?_ ..
    | with_reducible refine State.noVoltage_kept ?_ ..
    | with_reducible refine State.tickFree_kept ?_ ..
    | with_reducible refine State.putMargin_kept ?_ ..
    | split)

theorem State.countCycle_kept {s0 s : State} (h : Kept s0 s) (die : Fin 6) (r : Nat) (n : Nat) :
    Kept s0 (State.countCycle s die r n) := by
  unfold State.countCycle
  repeat' (first
    | with_reducible assumption
    | with_reducible refine State.bumpBy_kept ?_ ..
    | split)

theorem State.rainflow_kept {s0 s : State} (h : Kept s0 s) (die : Fin 6) (a0 : List Int) (a1 : Nat) :
    Kept s0 (State.rainflow s die a0 a1).1 := by
  fun_induction State.rainflow s die a0 a1 with
  | case1 => exact State.countCycle_kept h ..
  | case2 s a b c rest n h1 h2 ih => exact ih (State.countCycle_kept h ..)
  | case3 => exact h
  | case4 => exact h

theorem execFlowCheck_kept {s0 s : State} (h : Kept s0 s) :
    KeptAns s0 (execFlowCheck s) := by
  unfold execFlowCheck
  refine KeptAns.next ?_
  repeat' (first
    | with_reducible assumption
    | (extract_lets +onlyGivenNames x; first
          | (refine Kept.via x ?_ (fun hx => ?_); subst x; rotate_left; clear_value x)
          | (have hx := fun a => x a; clear hx; subst x; beta_reduce)
          | clear_value x
          | skip)
    | with_reducible refine State.setPw_kept ?_ ..
    | with_reducible refine State.setF_kept ?_ ..
    | with_reducible refine State.useFlow_kept ?_ ..
    | with_reducible refine State.raise_kept ?_ ..
    | with_reducible refine State.inferFlow_kept ?_ ..
    | (split <;> first
          | (rename_i e; refine Kept.viaSnd e ?_ (fun _ => ?_))
          | skip))

theorem State.showDeg_kept {s0 s : State} (h : Kept s0 s) (u : UnitId) (f : Fld) (t : Int) :
    Kept s0 (State.showDeg s u f t) := by
  unfold State.showDeg
  repeat' (first
    | with_reducible assumption
    | (extract_lets +onlyGivenNames x)
    | with_reducible refine State.setF_kept ?_ ..
    | with_reducible refine State.tickFree_kept ?_ ..)

theorem State.setSpot_kept {s0 s : State} (h : Kept s0 s) (n : Nat) (x : Spot) :
    Kept s0 (State.setSpot s n x) := by
  unfold State.setSpot
  repeat' (first
    | with_reducible assumption
    | (extract_lets +onlyGivenNames x; clear_value x)
    | with_reducible refine State.setPw_kept ?_ ..)

theorem State.thermIsland_kept {s0 s : State} (h : Kept s0 s) (hs : Fin 440) (d : Fin 4) (t : Fin 104) :
    Kept s0 (State.thermIsland s hs d t) := by
  unfold State.thermIsland
  repeat' (first
    | with_reducible assumption
    | (extract_lets +onlyGivenNames x; first
          | (refine Kept.via x ?_ (fun hx => ?_); subst x; rotate_left; clear_value x)
          | clear_value x
          | skip)
    | with_reducible refine State.ceilsFrom_kept ?_ ..
    | with_reducible refine State.setSpot_kept ?_ ..
    | with_reducible refine State.setTile_kept ?_ ..
    | with_reducible refine State.raise_kept ?_ ..
    | split)

theorem State.flowInUse_kept {s0 s : State} (h : Kept s0 s) :
    Kept s0 (State.flowInUse s).2 := by
  unfold State.flowInUse
  repeat' (first
    | with_reducible assumption
    | (extract_lets +onlyGivenNames x; clear_value x)
    | with_reducible refine State.inferFlow_kept ?_ ..
    | split)

theorem State.coolReport_kept {s0 s : State} (h : Kept s0 s) (seq : BitVec 32) (inlet : BitVec 16) (outlet : BitVec 16) (flow : BitVec 16) (ok : BitVec 8) (rsvd : Bool) :
    Kept s0 (State.coolReport seq inlet outlet flow ok rsvd s) := by
  unfold State.coolReport
  repeat' (first
    | with_reducible assumption
    | (extract_lets +onlyGivenNames x; first
          | (refine Kept.via x ?_ (fun hx => ?_); subst x; rotate_left; clear_value x)
          | (have hx := fun a => x a; clear hx; subst x; beta_reduce)
          | clear_value x
          | skip)
    | with_reducible refine State.setPw_kept ?_ ..
    | with_reducible refine State.bump_kept ?_ ..
    | with_reducible refine State.setF_kept ?_ ..
    | with_reducible refine State.useFlow_kept ?_ ..
    | with_reducible refine State.flowInUse_kept ?_ ..
    | with_reducible refine State.floorOn_kept ?_ ..
    | (split <;> first
          | (rename_i e; refine Kept.viaSnd e ?_ (fun _ => ?_))
          | skip))

theorem execRmarginLate_kept {s0 s : State} (h : Kept s0 s) (d : Fin 4) (t : Fin 104) :
    KeptAns s0 (execRmarginLate d t s) := by
  unfold execRmarginLate
  refine KeptAns.next ?_
  repeat' (first
    | with_reducible assumption
    | (extract_lets +onlyGivenNames x; first
          | (refine Kept.via x ?_ (fun hx => ?_); subst x; rotate_left; clear_value x)
          | clear_value x
          | skip)
    | with_reducible refine State.bump_kept ?_ ..
    | with_reducible refine State.setTile_kept ?_ ..
    | with_reducible refine State.raise_kept ?_ ..
    | split)

theorem State.showSpots_kept {s0 s : State} (h : Kept s0 s) (hs : Fin 440) :
    Kept s0 (State.showSpots s hs) := by
  unfold State.showSpots
  repeat' (first
    | with_reducible assumption
    | (extract_lets +onlyGivenNames x; first
          | (refine Kept.via x ?_ (fun hx => ?_); subst x; rotate_left; clear_value x)
          | clear_value x)
    | with_reducible refine State.setF_kept ?_ ..
    | with_reducible refine State.showDeg_kept ?_ ..
    | split)

theorem execCoolantMissing_kept {s0 s : State} (h : Kept s0 s) :
    KeptAns s0 (execCoolantMissing s) := by
  unfold execCoolantMissing
  refine KeptAns.next ?_
  repeat' (first
    | with_reducible assumption
    | (extract_lets +onlyGivenNames x; first
          | (refine Kept.via x ?_ (fun hx => ?_); subst x; rotate_left; clear_value x)
          | clear_value x
          | skip)
    | with_reducible refine State.setPw_kept ?_ ..
    | with_reducible refine State.setF_kept ?_ ..
    | with_reducible refine State.raise_kept ?_ ..
    | with_reducible refine State.floorOn_kept ?_ ..
    | split)

theorem State.sensorFail_kept {s0 s : State} (h : Kept s0 s) (hs : Fin 440) (b : Bool) (cause : Nat) :
    Kept s0 (State.sensorFail s hs b cause) := by
  unfold State.sensorFail
  repeat' (first
    | with_reducible assumption
    | (extract_lets +onlyGivenNames x; refine Kept.via x ?_ (fun hx => ?_); subst x; rotate_left; clear_value x)
    | with_reducible refine State.bump_kept ?_ ..
    | with_reducible refine State.setF_kept ?_ ..
    | with_reducible refine State.setOwn_kept ?_ ..
    | with_reducible refine State.raise_kept ?_ ..
    | split)

theorem execSensorSample_kept {s0 s : State} (h : Kept s0 s) (hs : Fin 440) (a : Int) (b : Int) (load : Nat) (m : Int) :
    KeptAns s0 (execSensorSample hs a b load m s) := by
  unfold execSensorSample
  refine KeptAns.next ?_
  repeat' (first
    | with_reducible assumption
    | (extract_lets +onlyGivenNames x; first
          | (refine Kept.via x ?_ (fun hx => ?_); subst x; rotate_left; clear_value x)
          | clear_value x
          | skip)
    | with_reducible refine State.setSpot_kept ?_ ..
    | with_reducible refine State.showSpots_kept ?_ ..
    | with_reducible refine State.raise_kept ?_ ..
    | with_reducible refine State.thermIsland_kept ?_ ..
    | with_reducible refine State.sensorFail_kept ?_ ..
    | split)

theorem State.cycleStep_kept {s0 s : State} (h : Kept s0 s) (die : Fin 6) (x : Int) :
    Kept s0 (State.cycleStep s die x) := by
  unfold State.cycleStep
  repeat' (first
    | with_reducible assumption
    | (extract_lets +onlyGivenNames x; first
          | (have hx := fun a => x a; clear hx; subst x; beta_reduce)
          | clear_value x
          | skip)
    | with_reducible refine State.setPw_kept ?_ ..
    | with_reducible refine State.rainflow_kept ?_ ..
    | split)

theorem execRemarginVisit_kept {s0 s : State} (h : Kept s0 s) (d : Fin 4) (t : Fin 104) :
    KeptAns s0 (execRemarginVisit d t s) := by
  unfold execRemarginVisit
  refine KeptAns.next ?_
  repeat' (first
    | with_reducible assumption
    | (extract_lets +onlyGivenNames x; clear_value x)
    | with_reducible refine State.setTile_kept ?_ ..
    | split)

theorem execFcastModeChange_kept {s0 s : State} (h : Kept s0 s) :
    KeptAns s0 (execFcastModeChange s) := by
  unfold execFcastModeChange
  refine KeptAns.next ?_
  repeat' (first
    | with_reducible assumption
    | (extract_lets +onlyGivenNames x)
    | with_reducible refine State.setFcast_kept ?_ ..)

theorem execCoolant_kept {s0 s : State} (h : Kept s0 s) (seq : BitVec 32) (inlet : BitVec 16) (outlet : BitVec 16) (flow : BitVec 16) (ok : BitVec 8) (rsvd : Bool) (same : Bool) :
    KeptAns s0 (execCoolant seq inlet outlet flow ok rsvd same s) := by
  unfold execCoolant
  refine KeptAns.next ?_
  repeat' (first
    | with_reducible assumption
    | (extract_lets +onlyGivenNames x)
    | with_reducible refine State.inCycle_kept ?_ ?_ ..
    | with_reducible refine State.coolReport_kept ?_ ..
    | (intro _ _; beta_reduce))

theorem execMarginBump_kept {s0 s : State} (h : Kept s0 s) (d : Fin 4) (t : Fin 104) (lines : LineErrs) :
    KeptAns s0 (execMarginBump d t lines s) := by
  unfold execMarginBump
  refine KeptAns.next ?_
  repeat' (first
    | with_reducible assumption
    | (extract_lets +onlyGivenNames x; first
          | (refine Kept.via x ?_ (fun hx => ?_); subst x; rotate_left; clear_value x)
          | clear_value x
          | skip)
    | with_reducible refine State.findErrs_kept ?_ ..
    | with_reducible refine State.setTile_kept ?_ ..
    | with_reducible refine State.raise_kept ?_ ..
    | with_reducible refine State.failTile_kept ?_ ..
    | with_reducible refine State.putMargin_kept ?_ ..
    | split)

theorem execThermalCycleSample_kept {s0 s : State} (h : Kept s0 s) (die : Fin 6) :
    KeptAns s0 (execThermalCycleSample die s) := by
  unfold execThermalCycleSample
  refine KeptAns.next ?_
  repeat' (first
    | with_reducible assumption
    | (extract_lets +onlyGivenNames x; first
          | (refine Kept.via x ?_ (fun hx => ?_); subst x; rotate_left; clear_value x)
          | clear_value x)
    | with_reducible refine State.setPw_kept ?_ ..
    | with_reducible refine State.bump_kept ?_ ..
    | with_reducible refine State.setF_kept ?_ ..
    | with_reducible refine State.tickFree_kept ?_ ..
    | with_reducible refine State.cycleStep_kept ?_ ..
    | split)

theorem State.capTherm_kept {s0 s : State} (h : Kept s0 s) :
    Kept s0 (State.capTherm s) := by
  unfold State.capTherm
  repeat' (first
    | with_reducible assumption
    | (extract_lets +onlyGivenNames x; first
          | clear_value x
          | skip)
    | with_reducible refine State.setPw_kept ?_ ..
    | with_reducible refine State.capResolve_kept ?_ ..
    | with_reducible refine State.setF_kept ?_ ..
    | split)

theorem execCapThermAdjust_kept {s0 s : State} (h : Kept s0 s) (same : Bool) :
    KeptAns s0 (execCapThermAdjust same s) := by
  unfold execCapThermAdjust
  refine KeptAns.next ?_
  repeat' (first
    | with_reducible assumption
    | (extract_lets +onlyGivenNames x)
    | with_reducible refine State.inCycle_kept ?_ ?_ ..
    | with_reducible refine State.capTherm_kept ?_ ..
    | (intro _ _; beta_reduce))

end Sys2Proof.Machine
end

