-- ==== Sys2Proof/Laws/KeptMgmtOps.lean ====
section
/-! SUPPORT. Each operation and meaning of Machine/MgmtOps.lean keeps what every command keeps (Safety.lean). -/

set_option Elab.async false
set_option linter.tactic.unusedName false
set_option linter.unusedTactic false

namespace Sys2Proof.Machine

open Sys2Proof

theorem State.wipe_kept {s0 s : State} (h : Kept s0 s) :
    Kept s0 (State.wipe s) := by
  unfold State.wipe
  have h1 : Kept s0 { State.reset with
      pending := s.pending, freeCtr := s.freeCtr, out := s.out, fuses := s.fuses, fuseDue := s.fuseDue, assay := s.assay.lasting, mg := s.mg.lasting } :=
    ⟨h.1, fun _ => Memory.wf_nil, h.3, h.4, h.5⟩
  exact State.setF_kept (State.setF_kept (State.setW_kept (State.setF_kept (Kept.foldl _ h1 (fun s b hs => State.setW_kept hs ..)) ..) ..) ..) ..

theorem State.wipeFor_kept {s0 s : State} (h : Kept s0 s) (cause : Nat) :
    Kept s0 (State.wipeFor s cause) := by
  unfold State.wipeFor
  repeat' (first
    | with_reducible assumption
    | (extract_lets +onlyGivenNames x)
    | with_reducible refine State.setF_kept ?_ ..
    | with_reducible refine State.wipe_kept ?_ ..)

theorem State.replay_kept {s0 s : State} (h : Kept s0 s) (log : Map Word) (units : List UnitId) :
    Kept s0 (State.replay s log units) := by
  unfold State.replay
  repeat' (first
    | with_reducible assumption
    | (extract_lets +onlyGivenNames x)
    | with_reducible refine State.setW_kept ?_ ..
    | with_reducible refine Kept.foldl _ ?_ ?_
    | (intro _ _ _; beta_reduce))

theorem State.railsUp_kept {s0 s : State} (h : Kept s0 s) :
    Kept s0 (State.railsUp s) := by
  unfold State.railsUp
  repeat' (first
    | with_reducible assumption
    | (extract_lets +onlyGivenNames x; first
          | clear_value x
          | skip)
    | with_reducible refine State.setPw_kept ?_ ..
    | with_reducible refine State.setF_kept ?_ ..
    | with_reducible refine State.ceilsOf_kept ?_ ..
    | with_reducible refine Kept.foldl _ ?_ ?_
    | (intro _ _ _; beta_reduce))

theorem State.restorePort_kept {s0 s : State} (h : Kept s0 s) (p : Fin 16) (k : PortKeep) :
    Kept s0 (State.restorePort s p k) := by
  unfold State.restorePort
  repeat' (first
    | with_reducible assumption
    | (extract_lets +onlyGivenNames x; clear_value x)
    | with_reducible refine State.setLink_kept ?_ ..)

theorem State.fusedLasers_kept {s0 s : State} (h : Kept s0 s) :
    Kept s0 (State.fusedLasers s) := by
  unfold State.fusedLasers
  repeat' (first
    | with_reducible assumption
    | (extract_lets +onlyGivenNames x)
    | with_reducible refine State.setLaser_kept ?_ ..
    | with_reducible refine Kept.foldl _ ?_ ?_
    | (intro _ _ _; beta_reduce))

theorem State.replaySettings_kept {s0 s : State} (h : Kept s0 s) :
    Kept s0 (State.replaySettings s) := by
  unfold State.replaySettings
  repeat' (first
    | with_reducible assumption
    | (extract_lets +onlyGivenNames x; first
          | (refine Kept.via x ?_ (fun hx => ?_); subst x; rotate_left; clear_value x)
          | clear_value x
          | skip)
    | with_reducible refine State.setPw_kept ?_ ..
    | with_reducible refine State.replay_kept ?_ ..
    | with_reducible refine State.setF_kept ?_ ..
    | with_reducible refine State.restorePort_kept ?_ ..
    | with_reducible refine State.fusedLasers_kept ?_ ..
    | with_reducible refine Kept.foldl _ ?_ ?_
    | split
    | (intro _ _ _; beta_reduce))

theorem State.channelOff_kept {s0 s : State} (h : Kept s0 s) (c : Nat) :
    Kept s0 (State.channelOff s c) := by
  unfold State.channelOff
  repeat' (first
    | with_reducible assumption
    | (extract_lets +onlyGivenNames x; first
          | (refine Kept.via x ?_ (fun hx => ?_); subst x; rotate_left; clear_value x)
          | clear_value x
          | skip)
    | with_reducible refine State.emptyUe_kept ?_ ..
    | with_reducible refine State.setF_kept ?_ ..
    | with_reducible refine State.setOwn_kept ?_ ..
    | split)

theorem State.replayMemory_kept {s0 s : State} (h : Kept s0 s) :
    Kept s0 (State.replayMemory s) := by
  unfold State.replayMemory
  repeat' (first
    | with_reducible assumption
    | (extract_lets +onlyGivenNames x; first
          | (refine Kept.via x ?_ (fun hx => ?_); subst x; rotate_left; clear_value x)
          | (refine Kept.viaMem x rfl (fun hx => ?_); clear_value x)
          | skip)
    | with_reducible refine State.replay_kept ?_ ..
    | with_reducible refine State.channelOff_kept ?_ ..
    | with_reducible refine Kept.foldl _ ?_ ?_
    | split
    | (intro _ _ _; beta_reduce)
    | with_reducible exact Kept.upd (by assumption) (by assumption))

theorem State.memStart_kept {s0 s : State} (h : Kept s0 s) :
    Kept s0 (State.memStart s) := by
  unfold State.memStart
  repeat' (first
    | with_reducible assumption
    | (extract_lets +onlyGivenNames x; first
          | (refine Kept.via x ?_ (fun hx => ?_); subst x; rotate_left; clear_value x)
          | clear_value x
          | skip)
    | with_reducible refine State.setF_kept ?_ ..
    | with_reducible refine Kept.foldl _ ?_ ?_
    | split
    | (intro _ _ _; beta_reduce)
    | with_reducible exact Kept.upd (by assumption) rfl)

theorem State.storeFound_kept {s0 s : State} (h : Kept s0 s) (rot : StoreRot) :
    Kept s0 (State.storeFound s rot) := by
  unfold State.storeFound
  repeat' (first
    | with_reducible assumption
    | (extract_lets +onlyGivenNames x; first
          | (refine Kept.via x ?_ (fun hx => ?_); subst x; rotate_left; clear_value x)
          | clear_value x
          | skip)
    | with_reducible refine State.spoilChunk_kept ?_ ..
    | with_reducible refine State.setFlash_kept ?_ ..
    | with_reducible refine Kept.foldl _ ?_ ?_
    | (intro _ _ _; beta_reduce))

theorem State.startBoot_kept {s0 s : State} (h : Kept s0 s) (sel : Fin 4) (rot : StoreRot) :
    Kept s0 (State.startBoot s sel rot) := by
  unfold State.startBoot
  repeat' (first
    | with_reducible assumption
    | (extract_lets +onlyGivenNames x; first
          | (refine Kept.via x ?_ (fun hx => ?_); subst x; rotate_left; clear_value x)
          | skip)
    | with_reducible refine State.replayMemory_kept ?_ ..
    | with_reducible refine State.setF_kept ?_ ..
    | with_reducible refine State.memStart_kept ?_ ..
    | with_reducible refine State.storeFound_kept ?_ ..
    | split
    | with_reducible exact Kept.upd (by assumption) rfl)

theorem State.hctlOwn_kept {s0 s : State} (h : Kept s0 s) :
    Kept s0 (State.hctlOwn s) := by
  unfold State.hctlOwn
  repeat' (first
    | with_reducible assumption
    | (extract_lets +onlyGivenNames x; clear_value x)
    | with_reducible refine State.setOwn_kept ?_ ..)

theorem State.startHealth_kept {s0 s : State} (h : Kept s0 s) :
    Kept s0 (State.startHealth s) := by
  unfold State.startHealth
  repeat' (first
    | with_reducible assumption
    | (extract_lets +onlyGivenNames x; first
          | (refine Kept.via x ?_ (fun hx => ?_); subst x; rotate_left; clear_value x)
          | skip)
    | with_reducible refine State.setOwn_kept ?_ ..
    | with_reducible refine State.laserHealth_kept ?_ ..
    | with_reducible refine State.hctlOwn_kept ?_ ..
    | with_reducible refine State.refreshCluster_kept ?_ ..
    | with_reducible refine Kept.foldl _ ?_ ?_
    | split
    | (intro _ _ _; beta_reduce))

theorem State.enablePorts_kept {s0 s : State} (h : Kept s0 s) :
    Kept s0 (State.enablePorts s) := by
  unfold State.enablePorts
  repeat' (first
    | with_reducible assumption
    | (extract_lets +onlyGivenNames x)
    | with_reducible refine State.toStep1_kept ?_ ..
    | with_reducible refine Kept.foldl _ ?_ ?_
    | split
    | (intro _ _ _; beta_reduce))

theorem State.applyFuses_kept {s0 s : State} (h : Kept s0 s) :
    Kept s0 (State.applyFuses s) := by
  unfold State.applyFuses
  repeat' (first
    | with_reducible assumption
    | (extract_lets +onlyGivenNames x; first
          | clear_value x
          | skip)
    | with_reducible refine State.tileFailed_kept ?_ ..
    | with_reducible refine State.setF_kept ?_ ..
    | with_reducible refine State.setFails_kept ?_ ..
    | with_reducible refine State.failTile_kept ?_ ..
    | with_reducible refine Kept.foldl _ ?_ ?_
    | split
    | (intro _ _ _; beta_reduce))

theorem State.visitAll_kept {s0 s : State} (h : Kept s0 s) :
    Kept s0 (State.visitAll s) := by
  unfold State.visitAll
  repeat' (first
    | with_reducible assumption
    | (extract_lets +onlyGivenNames x; clear_value x)
    | with_reducible refine State.setPw_kept ?_ ..)

end Sys2Proof.Machine
end

