-- ==== Sys2Proof/Laws/KeptFirmware.lean ====
section
/-! SUPPORT. Each operation and meaning of Machine/Firmware.lean keeps what every command keeps (Safety.lean). -/

set_option Elab.async false
set_option linter.tactic.unusedName false
set_option linter.unusedTactic false

namespace Sys2Proof.Machine

open Sys2Proof

theorem execXferAbort_kept {s0 s : State} (h : Kept s0 s) (src : BitVec 48) (setId : BitVec 64) :
    KeptAns s0 (execXferAbort src setId s) := by
  unfold execXferAbort
  refine KeptAns.next ?_
  repeat' (first
    | with_reducible assumption
    | (extract_lets +onlyGivenNames x; first
          | (refine Kept.via x ?_ (fun hx => ?_); subst x; rotate_left; clear_value x)
          | clear_value x)
    | with_reducible refine State.sendStatus_kept ?_ ..
    | with_reducible refine State.dropSet_kept ?_ ..
    | split)

theorem execXferQuery_kept {s0 s : State} (h : Kept s0 s) (src : BitVec 48) (_setId : BitVec 64) :
    KeptAns s0 (execXferQuery src _setId s) := by
  unfold execXferQuery
  refine KeptAns.next ?_
  repeat' (first
    | with_reducible assumption
    | (extract_lets +onlyGivenNames x)
    | with_reducible refine State.sendStatus_kept ?_ ..
    | split)

theorem execXferPiece_kept {s0 s : State} (h : Kept s0 s) (src : BitVec 48) (setId : BitVec 64) (chunk : Fin 64) (piece : Fin 64) (data : List Byte) :
    KeptAns s0 (execXferPiece src setId chunk piece data s) := by
  unfold execXferPiece
  refine KeptAns.next ?_
  repeat' (first
    | with_reducible assumption
    | (extract_lets +onlyGivenNames x; clear_value x)
    | with_reducible refine State.bump_kept ?_ ..
    | with_reducible refine State.mgmtBad_kept ?_ ..
    | with_reducible refine State.setFw_kept ?_ ..
    | split)

theorem execXferStart_kept {s0 s : State} (h : Kept s0 s) (src : BitVec 48) (setId : BitVec 64) (epoch : BitVec 32) (chunks : BitVec 8) :
    KeptAns s0 (execXferStart src setId epoch chunks s) := by
  unfold execXferStart
  refine KeptAns.next ?_
  repeat' (first
    | with_reducible assumption
    | (extract_lets +onlyGivenNames x; first
          | (refine Kept.via x ?_ (fun hx => ?_); subst x; rotate_left; clear_value x)
          | clear_value x
          | skip)
    | with_reducible refine State.toFwState_kept ?_ ..
    | with_reducible refine State.tellServer_kept ?_ ..
    | with_reducible refine State.sendStatus_kept ?_ ..
    | with_reducible refine State.mgmtBad_kept ?_ ..
    | with_reducible refine State.setXfer_kept ?_ ..
    | with_reducible refine State.setFw_kept ?_ ..
    | split)

theorem execFwPrepare_kept {s0 s : State} (h : Kept s0 s) :
    KeptAns s0 (execFwPrepare s) := by
  unfold execFwPrepare
  refine KeptAns.next ?_
  repeat' (first
    | with_reducible assumption
    | (extract_lets +onlyGivenNames x)
    | with_reducible refine State.toFwState_kept ?_ ..
    | split)

theorem execFwDiscard_kept {s0 s : State} (h : Kept s0 s) :
    KeptAns s0 (execFwDiscard s) := by
  unfold execFwDiscard
  refine KeptAns.next ?_
  repeat' (first
    | with_reducible assumption
    | (extract_lets +onlyGivenNames x; first
          | clear_value x
          | skip)
    | with_reducible refine State.tellServer_kept ?_ ..
    | with_reducible refine State.dropSet_kept ?_ ..
    | split)

theorem execTileTmcSwitch_kept {s0 s : State} (h : Kept s0 s) (d : Fin 4) (t : Fin 104) :
    KeptAns s0 (execTileTmcSwitch d t s) := by
  unfold execTileTmcSwitch
  refine KeptAns.next ?_
  repeat' (first
    | with_reducible assumption
    | (extract_lets +onlyGivenNames x; first
          | clear_value x
          | skip)
    | with_reducible refine State.tmcCount_kept ?_ ..
    | with_reducible refine State.setTile_kept ?_ ..
    | split)

theorem State.dropPieces_kept {s0 s : State} (h : Kept s0 s) (c : Nat) :
    Kept s0 (State.dropPieces s c) := by
  unfold State.dropPieces
  repeat' (first
    | with_reducible assumption
    | (extract_lets +onlyGivenNames x; clear_value x)
    | with_reducible refine State.setFw_kept ?_ ..)

theorem execFwHandoverTimeout_kept {s0 s : State} (h : Kept s0 s) (refused : Bool) (restarted : List (Fin 5 × Fin 32)) :
    KeptAns s0 (execFwHandoverTimeout refused restarted s) := by
  unfold execFwHandoverTimeout
  refine KeptAns.next ?_
  repeat' (first
    | with_reducible assumption
    | (extract_lets +onlyGivenNames x; first
          | (refine Kept.via x ?_ (fun hx => ?_); subst x; rotate_left; clear_value x)
          | skip)
    | with_reducible refine State.hcBack_kept ?_ ..
    | with_reducible refine State.fwAbandon_kept ?_ ..
    | with_reducible refine State.levelsBack_kept ?_ ..
    | with_reducible refine State.loopFence_kept ?_ ..
    | split)

theorem execFwSelectionWritten_kept {s0 s : State} (h : Kept s0 s) :
    KeptAns s0 (execFwSelectionWritten s) := by
  unfold execFwSelectionWritten
  refine KeptAns.next ?_
  repeat' (first
    | with_reducible assumption
    | (extract_lets +onlyGivenNames x; first
          | (refine Kept.via x ?_ (fun hx => ?_); subst x; rotate_left; clear_value x)
          | clear_value x
          | skip)
    | with_reducible refine State.showSealed_kept ?_ ..
    | with_reducible refine State.tellServer_kept ?_ ..
    | with_reducible refine State.setF_kept ?_ ..
    | with_reducible refine State.clearXfer_kept ?_ ..
    | with_reducible refine State.raise_kept ?_ ..
    | with_reducible refine State.setFw_kept ?_ ..
    | with_reducible refine State.select_kept ?_ ..
    | split)

theorem execFwSeal_kept {s0 s : State} (h : Kept s0 s) :
    KeptAns s0 (execFwSeal s) := by
  unfold execFwSeal
  refine KeptAns.next ?_
  repeat' (first
    | with_reducible assumption
    | (extract_lets +onlyGivenNames x; first
          | clear_value x
          | skip)
    | with_reducible refine State.showSealed_kept ?_ ..
    | with_reducible refine State.setF_kept ?_ ..
    | with_reducible refine Kept.foldl _ ?_ ?_
    | split
    | (intro _ _ _; beta_reduce))

theorem execFwMark_kept {s0 s : State} (h : Kept s0 s) :
    KeptAns s0 (execFwMark s) := by
  unfold execFwMark
  refine KeptAns.next ?_
  repeat' (first
    | with_reducible assumption
    | (extract_lets +onlyGivenNames x)
    | with_reducible refine State.tellServer_kept ?_ ..
    | with_reducible refine State.clearXfer_kept ?_ ..
    | with_reducible refine State.select_kept ?_ ..
    | split)

theorem execFwTileWaitExpire_kept {s0 s : State} (h : Kept s0 s) :
    KeptAns s0 (execFwTileWaitExpire s) := by
  unfold execFwTileWaitExpire
  refine KeptAns.next ?_
  repeat' (first
    | with_reducible assumption
    | (extract_lets +onlyGivenNames x; clear_value x)
    | with_reducible refine State.setFw_kept ?_ ..
    | split)

theorem State.spoilSlot_kept {s0 s : State} (h : Kept s0 s) (k : Nat) :
    Kept s0 (State.spoilSlot s k) := by
  unfold State.spoilSlot
  repeat' (first
    | with_reducible assumption
    | (extract_lets +onlyGivenNames x)
    | with_reducible refine State.spoilChunk_kept ?_ ..
    | with_reducible refine Kept.foldl _ ?_ ?_
    | (intro _ _ _; beta_reduce))

theorem execRecoverySetWritten_kept {s0 s : State} (h : Kept s0 s) (ok0 : Bool) (ok1 : Bool) :
    KeptAns s0 (execRecoverySetWritten ok0 ok1 s) := by
  unfold execRecoverySetWritten
  refine KeptAns.next ?_
  repeat' (first
    | with_reducible assumption
    | (extract_lets +onlyGivenNames x; first
          | (refine Kept.via x ?_ (fun hx => ?_); subst x; rotate_left; clear_value x)
          | skip)
    | with_reducible refine State.toFwState_kept ?_ ..
    | with_reducible refine State.spoilSlot_kept ?_ ..
    | with_reducible refine State.fwReject_kept ?_ ..
    | with_reducible refine State.select_kept ?_ ..
    | with_reducible refine State.bootToSlot_kept ?_ ..
    | split)

theorem State.commitPoint_kept {s0 s : State} (h : Kept s0 s) :
    Kept s0 (State.commitPoint s) := by
  unfold State.commitPoint
  repeat' (first
    | with_reducible assumption
    | (extract_lets +onlyGivenNames x; first
          | (refine Kept.via x ?_ (fun hx => ?_); subst x; rotate_left; clear_value x)
          | clear_value x)
    | with_reducible refine State.tmcCount_kept ?_ ..
    | with_reducible refine State.setFw_kept ?_ ..
    | with_reducible exact Kept.upd (by assumption) rfl)

theorem execFwImageConfirm_kept {s0 s : State} (h : Kept s0 s) (kind : Fin 5) (inst : Fin 32) :
    KeptAns s0 (execFwImageConfirm kind inst s) := by
  unfold execFwImageConfirm
  refine KeptAns.next ?_
  repeat' (first
    | with_reducible assumption
    | (extract_lets +onlyGivenNames x; first
          | (refine Kept.via x ?_ (fun hx => ?_); subst x; rotate_left; clear_value x)
          | clear_value x)
    | with_reducible refine State.hcBack_kept ?_ ..
    | with_reducible refine State.freeCeils_kept ?_ ..
    | with_reducible refine State.commitPoint_kept ?_ ..
    | with_reducible refine State.setFw_kept ?_ ..
    | split)

theorem State.storeChunk_kept {s0 s : State} (h : Kept s0 s) (c : Nat) (b : List Byte) (ok : Bool) :
    Kept s0 (State.storeChunk s c b ok).1 := by
  unfold State.storeChunk
  repeat' (first
    | with_reducible assumption
    | (extract_lets +onlyGivenNames x; clear_value x)
    | with_reducible refine State.putChunk_kept ?_ ..
    | with_reducible refine State.spoilChunk_kept ?_ ..
    | split
    | with_reducible exact Kept.upd (by assumption) rfl)

theorem State.netMemStart_kept {s0 s : State} (h : Kept s0 s) (x : Xfer) :
    Kept s0 (State.netMemStart s x) := by
  unfold State.netMemStart
  repeat' (first
    | with_reducible assumption
    | with_reducible refine State.memStart_kept ?_ ..
    | split)

theorem State.chunkDone_kept {s0 s : State} (h : Kept s0 s) (x : Xfer) (c : Nat) (b : List Byte) (ok : Bool) :
    Kept s0 (State.chunkDone s x c b ok) := by
  unfold State.chunkDone
  repeat' (first
    | with_reducible assumption
    | (extract_lets +onlyGivenNames x; first
          | (refine Kept.via x ?_ (fun hx => ?_); subst x; rotate_left; clear_value x)
          | clear_value x
          | skip)
    | with_reducible refine State.tellServer_kept ?_ ..
    | with_reducible refine State.storeChunk_kept ?_ ..
    | with_reducible refine State.netMemStart_kept ?_ ..
    | with_reducible refine State.dropPieces_kept ?_ ..
    | with_reducible refine State.fwReject_kept ?_ ..
    | with_reducible refine State.setXfer_kept ?_ ..
    | with_reducible refine State.barSlot_kept ?_ ..
    | (split <;> first
          | (rename_i e; refine Kept.viaFst e ?_ (fun _ => ?_))
          | skip))

theorem State.eraseAbove_kept {s0 s : State} (h : Kept s0 s) (n : Nat) :
    Kept s0 (State.eraseAbove s n) := by
  unfold State.eraseAbove
  repeat' (first
    | with_reducible assumption
    | (extract_lets +onlyGivenNames x)
    | with_reducible refine State.putChunk_kept ?_ ..
    | with_reducible refine Kept.foldl _ ?_ ?_
    | split
    | (intro _ _ _; beta_reduce))

theorem execChunkWriteDone_kept {s0 s : State} (h : Kept s0 s) (c : Fin 64) (ok : Bool) :
    KeptAns s0 (execChunkWriteDone c ok s) := by
  unfold execChunkWriteDone
  refine KeptAns.next ?_
  repeat' (first
    | with_reducible assumption
    | (extract_lets +onlyGivenNames x; first
          | clear_value x
          | skip)
    | with_reducible refine State.bump_kept ?_ ..
    | with_reducible refine State.chunkDone_kept ?_ ..
    | with_reducible refine State.eraseAbove_kept ?_ ..
    | with_reducible refine State.dropPieces_kept ?_ ..
    | with_reducible refine State.fwReject_kept ?_ ..
    | split)

theorem execSlotVerifyDone_kept {s0 s : State} (h : Kept s0 s) (bad : BitVec 64) :
    KeptAns s0 (execSlotVerifyDone bad s) := by
  unfold execSlotVerifyDone
  refine KeptAns.next ?_
  repeat' (first
    | with_reducible assumption
    | (extract_lets +onlyGivenNames x; first
          | clear_value x
          | skip)
    | with_reducible refine State.toFwState_kept ?_ ..
    | with_reducible refine State.tellServer_kept ?_ ..
    | with_reducible refine State.setXfer_kept ?_ ..
    | with_reducible refine State.raise_kept ?_ ..
    | split)

theorem execFwPrepareDone_kept {s0 s : State} (h : Kept s0 s) (bad : BitVec 64) :
    KeptAns s0 (execFwPrepareDone bad s) := by
  unfold execFwPrepareDone
  refine KeptAns.next ?_
  repeat' (first
    | with_reducible assumption
    | (extract_lets +onlyGivenNames x; first
          | clear_value x
          | skip)
    | with_reducible refine State.toFwState_kept ?_ ..
    | with_reducible refine State.raise_kept ?_ ..
    | with_reducible refine State.setFw_kept ?_ ..
    | split)

end Sys2Proof.Machine
end

