-- ==== Sys2Proof/Laws/KeptViewOps.lean ====
section
/-! SUPPORT. Each operation and meaning of Machine/ViewOps.lean keeps what every command keeps (Safety.lean). -/

set_option Elab.async false
set_option linter.tactic.unusedName false
set_option linter.unusedTactic false

namespace Sys2Proof.Machine

open Sys2Proof

theorem State.afterWrite_kept {s0 s : State} (h : Kept s0 s) (old : State) (u : UnitId) (off : Nat) :
    Kept s0 (State.afterWrite s old u off) := by
  unfold State.afterWrite
  repeat' (first
    | with_reducible assumption
    | with_reducible refine State.ceilsFrom_kept ?_ ..
    | with_reducible refine State.elect_kept ?_ ..
    | with_reducible refine State.setFcast_kept ?_ ..
    | with_reducible refine State.endLoop_kept ?_ ..
    | with_reducible refine State.flushVectors_kept ?_ ..
    | split)

theorem State.plainFields_kept {s0 s : State} (h : Kept s0 s) (u : UnitId) (off : Nat) (w : Word) :
    Kept s0 (State.plainFields s u off w) := by
  unfold State.plainFields
  repeat' (first
    | with_reducible assumption
    | (extract_lets +onlyGivenNames x)
    | with_reducible refine State.setF_kept ?_ ..
    | with_reducible refine Kept.foldl _ ?_ ?_
    | split
    | (intro _ _ _; beta_reduce))

theorem State.rcClear_kept {s0 s : State} (h : Kept s0 s) (u : UnitId) (off : Nat) (same : Nat) :
    Kept s0 (State.rcClear s u off same) := by
  unfold State.rcClear
  repeat' (first
    | with_reducible assumption
    | (extract_lets +onlyGivenNames x; first
          | (refine Kept.via x ?_ (fun hx => ?_); subst x; rotate_left; clear_value x)
          | clear_value x
          | skip)
    | with_reducible refine State.moveLevel_kept ?_ ..
    | with_reducible refine State.bumpBy_kept ?_ ..
    | with_reducible refine State.setF_kept ?_ ..
    | with_reducible refine State.pkgSummary_kept ?_ ..
    | with_reducible refine State.raise_kept ?_ ..
    | with_reducible refine Kept.foldl _ ?_ ?_
    | split
    | (intro _ _ _; beta_reduce)
    | with_reducible exact Kept.upd (by assumption) rfl)

theorem State.latched_kept {s0 s : State} (h : Kept s0 s) (u : UnitId) (off : Nat) :
    Kept s0 (State.latched s u off).2 := by
  unfold State.latched
  repeat' (first
    | with_reducible assumption
    | split
    | with_reducible exact Kept.upd (by assumption) rfl)

theorem State.readReg_kept {s0 s : State} (h : Kept s0 s) (page : Nat) (off : Nat) (width : Nat) (same : Nat) :
    Kept s0 (State.readReg s page off width same).2 := by
  unfold State.readReg
  repeat' (first
    | with_reducible assumption
    | (extract_lets +onlyGivenNames x; first
          | (refine Kept.via x ?_ (fun hx => ?_); subst x; rotate_left; clear_value x)
          | skip)
    | with_reducible refine State.latched_kept ?_ ..
    | with_reducible refine State.rcClear_kept ?_ ..
    | with_reducible refine State.tickFree_kept ?_ ..
    | (split <;> first
          | (rename_i e; refine Kept.viaSnd e ?_ (fun _ => ?_))
          | skip))

theorem State.queueWrite_kept {s0 s : State} (h : Kept s0 s) (off : Nat) (w : Word) :
    Kept s0 (State.queueWrite s off w) := by
  unfold State.queueWrite
  repeat' (first
    | with_reducible assumption
    | (extract_lets +onlyGivenNames x; clear_value x)
    | with_reducible refine State.setHq_kept ?_ ..
    | split)

theorem State.plainWrite_kept {s0 s : State} (h : Kept s0 s) (u : UnitId) (off : Nat) (w : Word) :
    Kept s0 (State.plainWrite s u off w) := by
  unfold State.plainWrite
  repeat' (first
    | with_reducible assumption
    | (extract_lets +onlyGivenNames x)
    | with_reducible refine State.plainFields_kept ?_ ..
    | with_reducible refine State.stagedWrite_kept ?_ ..
    | with_reducible refine State.afterWrite_kept ?_ ..
    | with_reducible refine State.queueWrite_kept ?_ ..
    | split)

theorem State.msixWrite_kept {s0 s : State} (h : Kept s0 s) (k : Nat) (w : Word) :
    Kept s0 (State.msixWrite s k w) := by
  unfold State.msixWrite
  repeat' (first
    | (extract_lets +onlyGivenNames x; first
          | clear_value x
          | skip)
    | with_reducible refine State.flushVectors_kept ?_ ..
    | split
    | with_reducible exact Kept.upd (by assumption) rfl)

end Sys2Proof.Machine
end

