-- ==== Sys2Proof/Laws/KeptHeader.lean ====
section
/-! SUPPORT. Each operation and meaning of Machine/Header.lean keeps what every command keeps (Safety.lean). -/

set_option Elab.async false
set_option linter.tactic.unusedName false
set_option linter.unusedTactic false

namespace Sys2Proof.Machine

open Sys2Proof

theorem execSummaryPropagate_kept {s0 s : State} (h : Kept s0 s) (u : UnitId) :
    KeptAns s0 (execSummaryPropagate u s) := by
  unfold execSummaryPropagate
  refine KeptAns.next ?_
  repeat' (first
    | with_reducible assumption
    | (extract_lets +onlyGivenNames x)
    | with_reducible refine State.propagate_kept ?_ ..)

theorem execWatermarkWrite_kept {s0 s : State} (h : Kept s0 s) (pwr : Bool) (hi : Bool) (v : BitVec 16) :
    KeptAns s0 (execWatermarkWrite pwr hi v s) := by
  unfold execWatermarkWrite
  refine KeptAns.next ?_
  repeat' (first
    | with_reducible assumption
    | (extract_lets +onlyGivenNames x; clear_value x)
    | with_reducible refine State.writeMark_kept ?_ ..
    | split)

theorem State.afterSummary_kept {s0 s : State} (h : Kept s0 s) (u : UnitId) (was : Bool) :
    Kept s0 (State.afterSummary s u was) := by
  unfold State.afterSummary
  repeat' (first
    | with_reducible assumption
    | with_reducible refine State.pkgSummary_kept ?_ ..
    | split)

theorem execRcRegisterRead_kept {s0 s : State} (h : Kept s0 s) (page : Nat) (off : Nat) (width : Nat) (same : Nat) :
    KeptAns s0 (execRcRegisterRead page off width same s) := by
  unfold execRcRegisterRead
  refine KeptAns.next ?_
  repeat' (first
    | with_reducible assumption
    | (extract_lets +onlyGivenNames x)
    | with_reducible refine State.readReg_kept ?_ ..
    | with_reducible refine State.emit_kept ?_ ..)

theorem execLoRegisterRead_kept {s0 s : State} (h : Kept s0 s) (page : Nat) (off : Nat) (width : Nat) :
    KeptAns s0 (execLoRegisterRead page off width s) := by
  unfold execLoRegisterRead
  refine KeptAns.next ?_
  repeat' (first
    | with_reducible assumption
    | (extract_lets +onlyGivenNames x)
    | with_reducible refine State.readReg_kept ?_ ..
    | with_reducible refine State.emit_kept ?_ ..)

theorem execFenceCmd_kept {s0 s : State} (h : Kept s0 s) :
    KeptAns s0 (execFenceCmd s) := by
  unfold execFenceCmd
  refine KeptAns.next ?_
  repeat' (first
    | with_reducible assumption
    | (extract_lets +onlyGivenNames x)
    | with_reducible refine State.doFence_kept ?_ ..)

theorem execDieLinkOut_kept {s0 s : State} (h : Kept s0 s) (l : Fin 9) (replays : Nat) (stuck : Bool) :
    KeptAns s0 (execDieLinkOut l replays stuck s) := by
  unfold execDieLinkOut
  refine KeptAns.next ?_
  repeat' (first
    | with_reducible assumption
    | (extract_lets +onlyGivenNames x; first
          | (refine Kept.via x ?_ (fun hx => ?_); subst x; rotate_left; clear_value x)
          | clear_value x
          | skip)
    | with_reducible refine State.bumpBy_kept ?_ ..
    | with_reducible refine State.setF_kept ?_ ..
    | with_reducible refine State.setOwn_kept ?_ ..
    | with_reducible refine State.raisePkg_kept ?_ ..
    | with_reducible refine State.doFence_kept ?_ ..
    | split
    | with_reducible exact Kept.upd (by assumption) rfl)

theorem State.raiseMask_kept {s0 s : State} (h : Kept s0 s) (u : UnitId) (m : Word) :
    Kept s0 (State.raiseMask s u m) := by
  unfold State.raiseMask
  repeat' (first
    | with_reducible assumption
    | (extract_lets +onlyGivenNames x)
    | with_reducible refine State.raise_kept ?_ ..
    | with_reducible refine Kept.foldl _ ?_ ?_
    | (intro _ _ _; beta_reduce))

theorem execEvtPendClear_kept {s0 s : State} (h : Kept s0 s) (u : UnitId) (w : Word) (raised : Word) :
    KeptAns s0 (execEvtPendClear u w raised s) := by
  unfold execEvtPendClear
  refine KeptAns.next ?_
  repeat' (first
    | with_reducible assumption
    | (extract_lets +onlyGivenNames x; first
          | (refine Kept.via x ?_ (fun hx => ?_); subst x; rotate_left; clear_value x)
          | clear_value x
          | skip)
    | with_reducible refine State.afterSummary_kept ?_ ..
    | with_reducible refine State.raiseMask_kept ?_ ..
    | with_reducible refine State.setW_kept ?_ ..
    | split)

theorem execEvtForce_kept {s0 s : State} (h : Kept s0 s) (u : UnitId) (w : Word) :
    KeptAns s0 (execEvtForce u w s) := by
  unfold execEvtForce
  refine KeptAns.next ?_
  repeat' (first
    | with_reducible assumption
    | (extract_lets +onlyGivenNames x)
    | with_reducible refine State.afterSummary_kept ?_ ..
    | with_reducible refine State.raiseMask_kept ?_ ..
    | split)

theorem execRegisterWrite_kept {s0 s : State} (h : Kept s0 s) (page : Nat) (off : Nat) (width : Nat) (w : Word) :
    KeptAns s0 (execRegisterWrite page off width w s) := by
  unfold execRegisterWrite
  refine KeptAns.next ?_
  repeat' (first
    | with_reducible assumption
    | (extract_lets +onlyGivenNames x)
    | with_reducible refine State.plainWrite_kept ?_ ..
    | with_reducible refine State.msixWrite_kept ?_ ..
    | split)

theorem execEvtMaskWrite_kept {s0 s : State} (h : Kept s0 s) (u : UnitId) (w : Word) :
    KeptAns s0 (execEvtMaskWrite u w s) := by
  unfold execEvtMaskWrite
  refine KeptAns.next ?_
  repeat' (first
    | with_reducible assumption
    | (extract_lets +onlyGivenNames x; first
          | (refine Kept.via x ?_ (fun hx => ?_); subst x; rotate_left; clear_value x)
          | clear_value x)
    | with_reducible refine State.afterSummary_kept ?_ ..
    | with_reducible refine State.setW_kept ?_ ..
    | with_reducible refine State.propagate_kept ?_ ..
    | split)

end Sys2Proof.Machine
end

