-- ==== Sys2Proof/Laws/KeptMgmt.lean ====
section
/-! SUPPORT. Each operation and meaning of Machine/Mgmt.lean keeps what every command keeps (Safety.lean). -/

set_option Elab.async false
set_option linter.tactic.unusedName false
set_option linter.unusedTactic false

namespace Sys2Proof.Machine

open Sys2Proof

theorem execThermalTrip_kept {s0 s : State} (h : Kept s0 s) (sensor : Fin 880) :
    KeptAns s0 (execThermalTrip sensor s) := by
  unfold execThermalTrip
  refine KeptAns.next ?_
  repeat' (first
    | with_reducible assumption
    | (extract_lets +onlyGivenNames x; first
          | (refine Kept.via x ?_ (fun hx => ?_); subst x; rotate_left; clear_value x)
          | clear_value x
          | skip)
    | with_reducible refine State.setF_kept ?_ ..
    | with_reducible refine State.wipeFor_kept ?_ ..
    | split
    | with_reducible exact Kept.upd (by assumption) rfl)

theorem State.groupFailed_kept {s0 s : State} (h : Kept s0 s) (b : Nat) :
    Kept s0 (State.groupFailed s b) := by
  unfold State.groupFailed
  repeat' (first
    | with_reducible assumption
    | (extract_lets +onlyGivenNames x; first
          | (refine Kept.via x ?_ (fun hx => ?_); subst x; rotate_left; clear_value x)
          | clear_value x
          | skip)
    | with_reducible refine State.bump_kept ?_ ..
    | with_reducible refine State.hctlOwn_kept ?_ ..
    | with_reducible refine State.raise_kept ?_ ..
    | with_reducible refine State.setFlash_kept ?_ ..
    | with_reducible exact Kept.upd (by assumption) rfl)

theorem execHeartbeatLost_kept {s0 s : State} (h : Kept s0 s) (bm : Bool) :
    KeptAns s0 (execHeartbeatLost bm s) := by
  unfold execHeartbeatLost
  refine KeptAns.next ?_
  repeat' (first
    | with_reducible assumption
    | (extract_lets +onlyGivenNames x; first
          | (refine Kept.via x ?_ (fun hx => ?_); subst x; rotate_left; clear_value x)
          | clear_value x
          | skip)
    | with_reducible refine State.setF_kept ?_ ..
    | with_reducible refine State.raise_kept ?_ ..
    | split
    | with_reducible exact Kept.upd (by assumption) rfl)

theorem execPowerOn_kept {s0 s : State} (h : Kept s0 s) :
    KeptAns s0 (execPowerOn s) := by
  unfold execPowerOn
  refine KeptAns.next ?_
  repeat' (first
    | with_reducible assumption
    | (extract_lets +onlyGivenNames x; first
          | (refine Kept.via x ?_ (fun hx => ?_); subst x; rotate_left; clear_value x)
          | clear_value x
          | skip)
    | with_reducible refine State.setF_kept ?_ ..
    | with_reducible refine State.wipeFor_kept ?_ ..
    | with_reducible exact Kept.upd (by assumption) rfl)

theorem execI3cEntdaa_kept {s0 s : State} (h : Kept s0 s) (addr : BitVec 7) :
    KeptAns s0 (execI3cEntdaa addr s) := by
  unfold execI3cEntdaa
  refine KeptAns.next ?_
  repeat' (first
    | with_reducible assumption
    | (extract_lets +onlyGivenNames x; clear_value x)
    | split
    | with_reducible exact Kept.upd (by assumption) rfl)

theorem execBootGo_kept {s0 s : State} (h : Kept s0 s) :
    KeptAns s0 (execBootGo s) := by
  unfold execBootGo
  refine KeptAns.next ?_
  repeat' (first
    | with_reducible assumption
    | (extract_lets +onlyGivenNames x; clear_value x)
    | with_reducible refine State.setF_kept ?_ ..
    | split)

theorem execInternalRailsGood_kept {s0 s : State} (h : Kept s0 s) (sel : Fin 4) (rot : StoreRot) :
    KeptAns s0 (execInternalRailsGood sel rot s) := by
  unfold execInternalRailsGood
  refine KeptAns.next ?_
  repeat' (first
    | with_reducible assumption
    | (extract_lets +onlyGivenNames x; first
          | (refine Kept.via x ?_ (fun hx => ?_); subst x; rotate_left; clear_value x)
          | clear_value x)
    | with_reducible refine State.startBoot_kept ?_ ..
    | split
    | with_reducible exact Kept.upd (by assumption) rfl)

theorem State.loaded_kept {s0 s : State} (h : Kept s0 s) (m : List Byte) :
    Kept s0 (State.loaded s m) := by
  unfold State.loaded
  repeat' (first
    | with_reducible assumption
    | (extract_lets +onlyGivenNames x; first
          | (refine Kept.via x ?_ (fun hx => ?_); subst x; rotate_left; clear_value x)
          | clear_value x)
    | with_reducible refine State.setF_kept ?_ ..
    | with_reducible refine State.setFw_kept ?_ ..)

theorem execStartReady_kept {s0 s : State} (h : Kept s0 s) :
    KeptAns s0 (execStartReady s) := by
  unfold execStartReady
  refine KeptAns.next ?_
  repeat' (first
    | with_reducible assumption
    | (extract_lets +onlyGivenNames x; first
          | (refine Kept.via x ?_ (fun hx => ?_); subst x; rotate_left; clear_value x)
          | clear_value x
          | skip)
    | with_reducible refine State.setPw_kept ?_ ..
    | with_reducible refine State.setF_kept ?_ ..
    | with_reducible refine State.raisePkg_kept ?_ ..
    | split)

theorem execBootSlotWriteDone_kept {s0 s : State} (h : Kept s0 s) :
    KeptAns s0 (execBootSlotWriteDone s) := by
  unfold execBootSlotWriteDone
  refine KeptAns.next ?_
  repeat' (first
    | with_reducible assumption
    | (extract_lets +onlyGivenNames x; first
          | (refine Kept.via x ?_ (fun hx => ?_); subst x; rotate_left; clear_value x)
          | clear_value x
          | skip)
    | with_reducible refine State.setF_kept ?_ ..
    | with_reducible refine State.setFw_kept ?_ ..
    | with_reducible refine State.select_kept ?_ ..
    | with_reducible refine State.bootToSlot_kept ?_ ..
    | split)

theorem execPkgResetAssert_kept {s0 s : State} (h : Kept s0 s) :
    KeptAns s0 (execPkgResetAssert s) := by
  unfold execPkgResetAssert
  refine KeptAns.next ?_
  repeat' (first
    | with_reducible assumption
    | (extract_lets +onlyGivenNames x; first
          | (refine Kept.via x ?_ (fun hx => ?_); subst x; rotate_left; clear_value x)
          | clear_value x
          | skip)
    | with_reducible refine State.setF_kept ?_ ..
    | with_reducible refine State.wipeFor_kept ?_ ..
    | split
    | with_reducible exact Kept.upd (by assumption) rfl)

theorem execInputPowerLoss_kept {s0 s : State} (h : Kept s0 s) :
    KeptAns s0 (execInputPowerLoss s) := by
  unfold execInputPowerLoss
  refine KeptAns.next ?_
  repeat' (first
    | with_reducible assumption
    | (extract_lets +onlyGivenNames x; first
          | (refine Kept.via x ?_ (fun hx => ?_); subst x; rotate_left; clear_value x)
          | clear_value x
          | skip)
    | with_reducible refine State.setW_kept ?_ ..
    | with_reducible refine State.wipeFor_kept ?_ ..
    | with_reducible exact Kept.upd (by assumption) rfl)

theorem State.startPushed_kept {s0 s : State} (h : Kept s0 s) :
    Kept s0 (State.startPushed s) := by
  unfold State.startPushed
  repeat' (first
    | with_reducible assumption
    | (extract_lets +onlyGivenNames x; first
          | (refine Kept.via x ?_ (fun hx => ?_); subst x; rotate_left; clear_value x)
          | clear_value x
          | skip)
    | with_reducible refine State.setF_kept ?_ ..
    | with_reducible refine State.tickFree_kept ?_ ..
    | with_reducible refine State.setFw_kept ?_ ..
    | with_reducible refine State.setFlash_kept ?_ ..
    | split)

theorem State.eraseBlocks_kept {s0 s : State} (h : Kept s0 s) (l : List Nat) :
    Kept s0 (State.eraseBlocks s l) := by
  unfold State.eraseBlocks
  repeat' (first
    | with_reducible assumption
    | (extract_lets +onlyGivenNames x; clear_value x)
    | with_reducible refine State.setFlash_kept ?_ ..)

theorem execPkgIsolate_kept {s0 s : State} (h : Kept s0 s) :
    KeptAns s0 (execPkgIsolate s) := by
  unfold execPkgIsolate
  refine KeptAns.next ?_
  repeat' (first
    | with_reducible assumption
    | (extract_lets +onlyGivenNames x; first
          | (refine Kept.via x ?_ (fun hx => ?_); subst x; rotate_left; clear_value x)
          | clear_value x
          | skip)
    | with_reducible refine State.setF_kept ?_ ..
    | with_reducible refine State.setTile_kept ?_ ..
    | with_reducible refine State.readmit_kept ?_ ..
    | with_reducible refine Kept.foldl _ ?_ ?_
    | split
    | (intro _ _ _; beta_reduce)
    | with_reducible exact Kept.upd (by assumption) rfl)

theorem execSoftReset_kept {s0 s : State} (h : Kept s0 s) (key : Word) (sel : Fin 4) (rot : StoreRot) :
    KeptAns s0 (execSoftReset key sel rot s) := by
  unfold execSoftReset
  refine KeptAns.next ?_
  repeat' (first
    | with_reducible assumption
    | (extract_lets +onlyGivenNames x)
    | with_reducible refine State.setF_kept ?_ ..
    | with_reducible refine State.startBoot_kept ?_ ..
    | with_reducible refine State.wipeFor_kept ?_ ..
    | split)

theorem execI3cPrivateRead_kept {s0 s : State} (h : Kept s0 s) (n : Nat) :
    KeptAns s0 (execI3cPrivateRead n s) := by
  unfold execI3cPrivateRead
  refine KeptAns.next ?_
  repeat' (first
    | with_reducible assumption
    | (extract_lets +onlyGivenNames x; first
          | (refine Kept.via x ?_ (fun hx => ?_); subst x; rotate_left; clear_value x)
          | clear_value x)
    | with_reducible refine State.emit_kept ?_ ..
    | split
    | with_reducible exact Kept.upd (by assumption) rfl)

theorem State.applyOrder_kept {s0 s : State} (h : Kept s0 s) (oseq : Nat) (watts : Nat) (park : Bool) :
    Kept s0 (State.applyOrder s oseq watts park) := by
  unfold State.applyOrder
  repeat' (first
    | with_reducible assumption
    | (extract_lets +onlyGivenNames x; first
          | (refine Kept.via x ?_ (fun hx => ?_); subst x; rotate_left; clear_value x)
          | skip)
    | with_reducible refine State.capResolve_kept ?_ ..
    | with_reducible refine State.setF_kept ?_ ..
    | with_reducible refine State.setPair_kept ?_ ..)

theorem State.rackOrder_kept {s0 s : State} (h : Kept s0 s) (src : BitVec 48) (serial : BitVec 64) (oseq : BitVec 64) (watts : BitVec 12) (park : Bool) (sig : List Byte) :
    Kept s0 (State.rackOrder src serial oseq watts park sig s) := by
  unfold State.rackOrder
  repeat' (first
    | with_reducible assumption
    | (extract_lets +onlyGivenNames x; first
          | (refine Kept.via x ?_ (fun hx => ?_); subst x; rotate_left; clear_value x)
          | clear_value x
          | skip)
    | with_reducible refine State.setPw_kept ?_ ..
    | with_reducible refine State.sendMgmt_kept ?_ ..
    | with_reducible refine State.capResolve_kept ?_ ..
    | with_reducible refine State.mgmtBad_kept ?_ ..
    | with_reducible refine State.raise_kept ?_ ..
    | with_reducible refine State.applyOrder_kept ?_ ..
    | split)

theorem execRackOrder_kept {s0 s : State} (h : Kept s0 s) (src : BitVec 48) (serial : BitVec 64) (oseq : BitVec 64) (watts : BitVec 12) (park : Bool) (sig : List Byte) (same : Bool) :
    KeptAns s0 (execRackOrder src serial oseq watts park sig same s) := by
  unfold execRackOrder
  refine KeptAns.next ?_
  repeat' (first
    | with_reducible assumption
    | (extract_lets +onlyGivenNames x)
    | with_reducible refine State.inCycle_kept ?_ ?_ ..
    | with_reducible refine State.rackOrder_kept ?_ ..
    | (intro _ _; beta_reduce))

theorem execMgmtLinkChange_kept {s0 s : State} (h : Kept s0 s) (up : Bool) :
    KeptAns s0 (execMgmtLinkChange up s) := by
  unfold execMgmtLinkChange
  refine KeptAns.next ?_
  repeat' (first
    | with_reducible assumption
    | (extract_lets +onlyGivenNames x)
    | with_reducible refine State.setF_kept ?_ ..
    | with_reducible refine State.raise_kept ?_ ..
    | split)

theorem execSettingsRestored_kept {s0 s : State} (h : Kept s0 s) :
    KeptAns s0 (execSettingsRestored s) := by
  unfold execSettingsRestored
  refine KeptAns.next ?_
  repeat' (first
    | with_reducible assumption
    | (extract_lets +onlyGivenNames x; first
          | (refine Kept.via x ?_ (fun hx => ?_); subst x; rotate_left; clear_value x)
          | skip)
    | with_reducible refine State.replaySettings_kept ?_ ..
    | with_reducible refine State.enablePorts_kept ?_ ..
    | with_reducible refine State.capResolve_kept ?_ ..
    | with_reducible refine State.setF_kept ?_ ..
    | with_reducible refine State.applyFuses_kept ?_ ..
    | with_reducible refine State.readmit_kept ?_ ..
    | with_reducible refine State.visitAll_kept ?_ ..
    | with_reducible refine State.startHealth_kept ?_ ..
    | with_reducible refine State.railsUp_kept ?_ ..
    | with_reducible refine Kept.foldl _ ?_ ?_
    | split
    | (intro _ _ _; beta_reduce))

theorem execImagesLoaded_kept {s0 s : State} (h : Kept s0 s) :
    KeptAns s0 (execImagesLoaded s) := by
  unfold execImagesLoaded
  refine KeptAns.next ?_
  repeat' (first
    | with_reducible assumption
    | (extract_lets +onlyGivenNames x; first
          | (refine Kept.via x ?_ (fun hx => ?_); subst x; rotate_left; clear_value x)
          | clear_value x
          | skip)
    | with_reducible refine State.showSealed_kept ?_ ..
    | with_reducible refine State.setF_kept ?_ ..
    | with_reducible refine State.restoreXfer_kept ?_ ..
    | with_reducible refine State.memStart_kept ?_ ..
    | with_reducible refine State.startPushed_kept ?_ ..
    | with_reducible refine State.loaded_kept ?_ ..
    | split)

theorem State.groupWritten_kept {s0 s : State} (h : Kept s0 s) (bytes : Nat) (blocks : List Nat) :
    Kept s0 (State.groupWritten s bytes blocks) := by
  unfold State.groupWritten
  repeat' (first
    | with_reducible assumption
    | (extract_lets +onlyGivenNames x; first
          | (refine Kept.via x ?_ (fun hx => ?_); subst x; rotate_left; clear_value x)
          | clear_value x
          | skip)
    | with_reducible refine State.hctlOwn_kept ?_ ..
    | with_reducible refine State.setFlash_kept ?_ ..
    | with_reducible exact Kept.upd (by assumption) rfl)

theorem execHallmarkReq_kept {s0 s : State} (h : Kept s0 s) (src : BitVec 48) (from_ : BitVec 64) (count : BitVec 8) (ident : Bool) :
    KeptAns s0 (execHallmarkReq src from_ count ident s) := by
  unfold execHallmarkReq
  refine KeptAns.next ?_
  repeat' (first
    | with_reducible assumption
    | (extract_lets +onlyGivenNames x; first
          | (refine Kept.via x ?_ (fun hx => ?_); subst x; rotate_left; clear_value x)
          | clear_value x)
    | with_reducible refine State.sendMgmt_kept ?_ ..
    | with_reducible refine State.mgmtBad_kept ?_ ..
    | split
    | with_reducible exact Kept.upd (by assumption) rfl)

theorem execBootVerifyDone_kept {s0 s : State} (h : Kept s0 s) :
    KeptAns s0 (execBootVerifyDone s) := by
  unfold execBootVerifyDone
  refine KeptAns.next ?_
  repeat' (first
    | with_reducible assumption
    | (extract_lets +onlyGivenNames x)
    | with_reducible refine State.setF_kept ?_ ..
    | with_reducible refine State.memStart_kept ?_ ..
    | split)

theorem State.showWear_kept {s0 s : State} (h : Kept s0 s) :
    Kept s0 (State.showWear s) := by
  unfold State.showWear
  repeat' (first
    | with_reducible assumption
    | (extract_lets +onlyGivenNames x; first
          | (refine Kept.via x ?_ (fun hx => ?_); subst x; rotate_left; clear_value x)
          | clear_value x)
    | with_reducible refine State.setF_kept ?_ ..
    | with_reducible refine State.raise_kept ?_ ..
    | split)

theorem execStateMemoryUe_kept {s0 s : State} (h : Kept s0 s) :
    KeptAns s0 (execStateMemoryUe s) := by
  unfold execStateMemoryUe
  refine KeptAns.next ?_
  repeat' (first
    | with_reducible assumption
    | (extract_lets +onlyGivenNames x)
    | with_reducible refine State.doFence_kept ?_ ..)

theorem execHctlRestartDone_kept {s0 s : State} (h : Kept s0 s) :
    KeptAns s0 (execHctlRestartDone s) := by
  unfold execHctlRestartDone
  refine KeptAns.next ?_
  repeat' (first
    | with_reducible assumption
    | (extract_lets +onlyGivenNames x; first
          | clear_value x
          | skip)
    | with_reducible refine State.hcBack_kept ?_ ..
    | split
    | with_reducible exact Kept.upd (by assumption) rfl)

theorem execStartFailed_kept {s0 s : State} (h : Kept s0 s) (cause : Fin 6) :
    KeptAns s0 (execStartFailed cause s) := by
  unfold execStartFailed
  refine KeptAns.next ?_
  repeat' (first
    | with_reducible assumption
    | (extract_lets +onlyGivenNames x; refine Kept.via x ?_ (fun hx => ?_); subst x; rotate_left; clear_value x)
    | with_reducible refine State.setF_kept ?_ ..
    | with_reducible refine State.setOwn_kept ?_ ..
    | with_reducible refine State.raisePkg_kept ?_ ..
    | split)

theorem execStatusBroadcast_kept {s0 s : State} (h : Kept s0 s) :
    KeptAns s0 (execStatusBroadcast s) := by
  unfold execStatusBroadcast
  refine KeptAns.next ?_
  repeat' (first
    | with_reducible assumption
    | (extract_lets +onlyGivenNames x)
    | with_reducible refine State.sendMgmt_kept ?_ ..
    | split)

theorem execAuxRailGood_kept {s0 s : State} (h : Kept s0 s) :
    KeptAns s0 (execAuxRailGood s) := by
  unfold execAuxRailGood
  refine KeptAns.next ?_
  repeat' (first
    | (extract_lets +onlyGivenNames x; clear_value x)
    | with_reducible exact Kept.upd (by assumption) rfl)

theorem execSettingsGroupWrite_kept {s0 s : State} (h : Kept s0 s) (ok : Bool) (bytes : Nat) (blocks : List (Fin 96)) (erased : List (Fin 96)) :
    KeptAns s0 (execSettingsGroupWrite ok bytes blocks erased s) := by
  unfold execSettingsGroupWrite
  refine KeptAns.next ?_
  repeat' (first
    | with_reducible assumption
    | (extract_lets +onlyGivenNames x; first
          | (refine Kept.via x ?_ (fun hx => ?_); subst x; rotate_left; clear_value x)
          | clear_value x
          | skip)
    | with_reducible refine State.groupWritten_kept ?_ ..
    | with_reducible refine State.eraseBlocks_kept ?_ ..
    | with_reducible refine State.groupFailed_kept ?_ ..
    | with_reducible refine State.showWear_kept ?_ ..
    | split)

theorem execStoreForget_kept {s0 s : State} (h : Kept s0 s) :
    KeptAns s0 (execStoreForget s) := by
  unfold execStoreForget
  refine KeptAns.next ?_
  repeat' (first
    | with_reducible assumption
    | (extract_lets +onlyGivenNames x; first
          | clear_value x
          | skip)
    | with_reducible refine State.setF_kept ?_ ..
    | with_reducible refine State.setFlash_kept ?_ ..
    | split)

theorem execI3cPrivateWrite_kept {s0 s : State} (h : Kept s0 s) (bytes : List Byte) :
    KeptAns s0 (execI3cPrivateWrite bytes s) := by
  unfold execI3cPrivateWrite
  refine KeptAns.next ?_
  split
  · exact h
  · refine Kept.ite h ?_
    have h1 : Kept s0 { s with mg := { s.mg with i3cOff := BitVec.toNat ‹Byte› } } := Kept.upd h rfl
    exact Kept.ite (Kept.upd (State.setF_kept h1 ..) rfl) h1

theorem execHctlWatchdog_kept {s0 s : State} (h : Kept s0 s) (restarted : List (Fin 5 × Fin 32)) :
    KeptAns s0 (execHctlWatchdog restarted s) := by
  unfold execHctlWatchdog
  refine KeptAns.next ?_
  repeat' (first
    | with_reducible assumption
    | (extract_lets +onlyGivenNames x; first
          | (refine Kept.via x ?_ (fun hx => ?_); subst x; rotate_left; clear_value x)
          | skip)
    | with_reducible refine State.hcRestart_kept ?_ ..
    | with_reducible refine State.fwAbandon_kept ?_ ..
    | with_reducible refine State.levelsBack_kept ?_ ..
    | with_reducible refine State.loopFence_kept ?_ ..
    | split)

theorem execBootReqSend_kept {s0 s : State} (h : Kept s0 s) :
    KeptAns s0 (execBootReqSend s) := by
  unfold execBootReqSend
  refine KeptAns.next ?_
  repeat' (first
    | with_reducible assumption
    | (extract_lets +onlyGivenNames x; clear_value x)
    | with_reducible refine State.sendMgmt_kept ?_ ..
    | split)

theorem execPkgResetRelease_kept {s0 s : State} (h : Kept s0 s) (sel : Fin 4) (rot : StoreRot) :
    KeptAns s0 (execPkgResetRelease sel rot s) := by
  unfold execPkgResetRelease
  refine KeptAns.next ?_
  repeat' (first
    | with_reducible assumption
    | (extract_lets +onlyGivenNames x; first
          | (refine Kept.via x ?_ (fun hx => ?_); subst x; rotate_left; clear_value x)
          | clear_value x)
    | with_reducible refine State.startBoot_kept ?_ ..
    | split
    | with_reducible exact Kept.upd (by assumption) rfl)

theorem execHeartbeat_kept {s0 s : State} (h : Kept s0 s) :
    KeptAns s0 (execHeartbeat s) := by
  unfold execHeartbeat
  refine KeptAns.next ?_
  repeat' (first
    | with_reducible assumption
    | (extract_lets +onlyGivenNames x; first
          | (refine Kept.via x ?_ (fun hx => ?_); subst x; rotate_left; clear_value x)
          | clear_value x)
    | with_reducible refine State.setF_kept ?_ ..
    | split
    | with_reducible exact Kept.upd (by assumption) rfl)

theorem execMgmtFrameDiscard_kept {s0 s : State} (h : Kept s0 s) (dst : BitVec 48) (payload : List Byte) :
    KeptAns s0 (execMgmtFrameDiscard dst payload s) := by
  unfold execMgmtFrameDiscard
  refine KeptAns.next ?_
  repeat' (first
    | with_reducible assumption
    | (extract_lets +onlyGivenNames x; clear_value x)
    | with_reducible refine State.mgmtBad_kept ?_ ..
    | split)

end Sys2Proof.Machine
end

