-- ==== Sys2Proof/Laws/KeptPlacement.lean ====
section
/-! SUPPORT. Each operation and meaning of Machine/Placement.lean keeps what every command keeps (Safety.lean). -/

set_option Elab.async false
set_option linter.tactic.unusedName false
set_option linter.unusedTactic false

namespace Sys2Proof.Machine

open Sys2Proof

theorem execPlaceSetPin_kept {s0 s : State} (h : Kept s0 s) (pin : Fin 4) (die : Fin 4) (spillFirst : Bool) :
    KeptAns s0 (execPlaceSetPin pin die spillFirst s) := by
  unfold execPlaceSetPin
  refine KeptAns.next ?_
  repeat' (first
    | with_reducible assumption
    | (extract_lets +onlyGivenNames x)
    | with_reducible refine State.reqStart_kept ?_ ..)

theorem execHeatCountFlush_kept {s0 s : State} (h : Kept s0 s) (cache : Fin 6) (page : Fin 1048576) :
    KeptAns s0 (execHeatCountFlush cache page s) := by
  unfold execHeatCountFlush
  refine KeptAns.next ?_
  repeat' (first
    | with_reducible assumption
    | (extract_lets +onlyGivenNames x)
    | with_reducible refine State.flushEntry_kept ?_ ..)

theorem execPlaceFree_kept {s0 s : State} (h : Kept s0 s) (pin : Fin 4) (die : Fin 4) (spillFirst : Bool) :
    KeptAns s0 (execPlaceFree pin die spillFirst s) := by
  unfold execPlaceFree
  refine KeptAns.next ?_
  repeat' (first
    | with_reducible assumption
    | (extract_lets +onlyGivenNames x)
    | with_reducible refine State.reqStart_kept ?_ ..)

theorem execPlaceReqDone_kept {s0 s : State} (h : Kept s0 s) :
    KeptAns s0 (execPlaceReqDone s) := by
  unfold execPlaceReqDone
  refine KeptAns.next ?_
  repeat' (first
    | with_reducible assumption
    | (extract_lets +onlyGivenNames x)
    | with_reducible refine State.reqDone_kept ?_ ..)

theorem execPageMoveDone_kept {s0 s : State} (h : Kept s0 s) (guest : Bool) (page : Nat) (errs : LineErrs) :
    KeptAns s0 (execPageMoveDone guest page errs s) := by
  unfold execPageMoveDone
  refine KeptAns.next ?_
  repeat' (first
    | with_reducible assumption
    | (extract_lets +onlyGivenNames x; first
          | clear_value x
          | skip)
    | with_reducible refine State.placeGoOn_kept ?_ ..
    | with_reducible refine State.moveDone_kept ?_ ..
    | with_reducible refine State.abandonMove_kept ?_ ..
    | with_reducible refine State.copyErrs_kept ?_ ..
    | (split <;> first
          | (rename_i e; refine Kept.viaFst e ?_ (fun _ => ?_))
          | skip))

theorem execPlaceFreeGuests_kept {s0 s : State} (h : Kept s0 s) (pin : Fin 4) (die : Fin 4) (spillFirst : Bool) :
    KeptAns s0 (execPlaceFreeGuests pin die spillFirst s) := by
  unfold execPlaceFreeGuests
  refine KeptAns.next ?_
  repeat' (first
    | with_reducible assumption
    | (extract_lets +onlyGivenNames x)
    | with_reducible refine State.reqStart_kept ?_ ..)

theorem execLostScan_kept {s0 s : State} (h : Kept s0 s) (from_ : Fin 1048576) :
    KeptAns s0 (execLostScan from_ s) := by
  unfold execLostScan
  refine KeptAns.next ?_
  repeat' (first
    | with_reducible assumption
    | (extract_lets +onlyGivenNames x)
    | with_reducible refine State.setF_kept ?_ ..
    | with_reducible refine State.tickFree_kept ?_ ..
    | split)

theorem execFrameZeroDone_kept {s0 s : State} (h : Kept s0 s) (frame : Fin 1048576) :
    KeptAns s0 (execFrameZeroDone frame s) := by
  unfold execFrameZeroDone
  refine KeptAns.next ?_
  repeat' (first
    | with_reducible assumption
    | (extract_lets +onlyGivenNames x; first
          | (refine Kept.via x ?_ (fun hx => ?_); subst x; rotate_left; clear_value x)
          | (refine Kept.viaMem x rfl (fun hx => ?_); clear_value x)
          | clear_value x
          | skip)
    | with_reducible refine State.drainAll_kept ?_ ..
    | with_reducible refine State.addPair_kept ?_ ..
    | with_reducible refine State.retireWaiting_kept ?_ ..
    | with_reducible refine State.reqStep_kept ?_ ..
    | split
    | with_reducible exact Kept.upd (by assumption) (by assumption))

theorem execDrainResume_kept {s0 s : State} (h : Kept s0 s) (m : Fin 12) (ch : Fin 16) :
    KeptAns s0 (execDrainResume m ch s) := by
  unfold execDrainResume
  refine KeptAns.next ?_
  repeat' (first
    | with_reducible assumption
    | (extract_lets +onlyGivenNames x; first
          | (refine Kept.viaMem x rfl (fun hx => ?_); clear_value x)
          | clear_value x
          | skip)
    | with_reducible refine State.drainStep_kept ?_ ..
    | split
    | with_reducible exact Kept.upd (by assumption) (by assumption))

theorem execPlaceEpochEnd_kept {s0 s : State} (h : Kept s0 s) :
    KeptAns s0 (execPlaceEpochEnd s) := by
  unfold execPlaceEpochEnd
  refine KeptAns.next ?_
  repeat' (first
    | with_reducible assumption
    | (extract_lets +onlyGivenNames x)
    | with_reducible refine State.epochEnd_kept ?_ ..)

theorem execPlaceQuery_kept {s0 s : State} (h : Kept s0 s) (pin : Fin 4) (die : Fin 4) (spillFirst : Bool) :
    KeptAns s0 (execPlaceQuery pin die spillFirst s) := by
  unfold execPlaceQuery
  refine KeptAns.next ?_
  repeat' (first
    | with_reducible assumption
    | (extract_lets +onlyGivenNames x)
    | with_reducible refine State.reqStart_kept ?_ ..)

theorem execPlaceReqReserved_kept {s0 s : State} (h : Kept s0 s) (seven : Bool) (pin : Fin 4) (die : Fin 4) (spillFirst : Bool) :
    KeptAns s0 (execPlaceReqReserved seven pin die spillFirst s) := by
  unfold execPlaceReqReserved
  refine KeptAns.next ?_
  repeat' (first
    | with_reducible assumption
    | (extract_lets +onlyGivenNames x)
    | with_reducible refine State.reqStart_kept ?_ ..)

theorem execPlaceAlloc_kept {s0 s : State} (h : Kept s0 s) (pin : Fin 4) (die : Fin 4) (spillFirst : Bool) :
    KeptAns s0 (execPlaceAlloc pin die spillFirst s) := by
  unfold execPlaceAlloc
  refine KeptAns.next ?_
  repeat' (first
    | with_reducible assumption
    | (extract_lets +onlyGivenNames x)
    | with_reducible refine State.reqStart_kept ?_ ..)

theorem execMovePassDone_kept {s0 s : State} (h : Kept s0 s) (guest : Bool) (page : Nat) (errs : LineErrs) :
    KeptAns s0 (execMovePassDone guest page errs s) := by
  unfold execMovePassDone
  refine KeptAns.next ?_
  repeat' (first
    | with_reducible assumption
    | (extract_lets +onlyGivenNames x)
    | with_reducible refine State.passDone_kept ?_ ..)

end Sys2Proof.Machine
end

