-- ==== Sys2Proof/Laws/KeptTiles.lean ====
section
/-! SUPPORT. Each operation and meaning of Machine/Tiles.lean keeps what every command keeps (Safety.lean). -/

set_option Elab.async false
set_option linter.tactic.unusedName false
set_option linter.unusedTactic false

namespace Sys2Proof.Machine

open Sys2Proof

theorem State.lastRemap_kept {s0 s : State} (h : Kept s0 s) (d : Fin 4) (failed : Nat) (spare : Nat) (slot : Nat) (cause : Nat) :
    Kept s0 (State.lastRemap s d failed spare slot cause) := by
  unfold State.lastRemap
  repeat' (first
    | with_reducible assumption
    | (extract_lets +onlyGivenNames x; first
          | (refine Kept.via x ?_ (fun hx => ?_); subst x; rotate_left; clear_value x)
          | clear_value x)
    | with_reducible refine State.setF_kept ?_ ..)

theorem State.spareIn_kept {s0 old : State} (h : Kept s0 old) (d : Fin 4) (f : Failing) (rest : List Failing) (sp : Fin 104) :
    Kept s0 (State.spareIn old d f rest sp) := by
  unfold State.spareIn
  repeat' (first
    | with_reducible assumption
    | (extract_lets +onlyGivenNames x; first
          | (refine Kept.via x ?_ (fun hx => ?_); subst x; rotate_left; clear_value x)
          | clear_value x
          | skip)
    | with_reducible refine State.setTileState_kept ?_ ..
    | with_reducible refine State.setF_kept ?_ ..
    | with_reducible refine State.setOwn_kept ?_ ..
    | with_reducible refine State.setFails_kept ?_ ..
    | with_reducible refine State.stopFalls_kept ?_ ..
    | with_reducible refine State.setTile_kept ?_ ..
    | with_reducible refine State.raise_kept ?_ ..
    | with_reducible refine State.ceilsOf_kept ?_ ..
    | with_reducible refine State.refreshCluster_kept ?_ ..
    | with_reducible refine State.lastRemap_kept ?_ ..
    | split)

theorem execDmFill_kept {s0 s : State} (h : Kept s0 s) (d : Fin 4) (t : Fin 104) (k : Fin 2) (addr : Nat) (errs : RowErrs) (lines : LineErrs) :
    KeptAns s0 (execDmFill d t k addr errs lines s) := by
  unfold execDmFill
  refine KeptAns.next ?_
  repeat' (first
    | with_reducible assumption
    | (extract_lets +onlyGivenNames x)
    | with_reducible refine State.dmCall_kept ?_ ..
    | split)

theorem State.freeBytes_kept {s0 s : State} (h : Kept s0 s) (a0 : Nat) :
    Kept s0 (State.freeBytes s a0).2 := by
  induction a0 generalizing s with
  | zero =>
    unfold State.freeBytes
    repeat' (with_reducible assumption)
  | succ n ih =>
    unfold State.freeBytes
    repeat' (first
      | with_reducible assumption
      | (extract_lets +onlyGivenNames x; first
            | clear_value x
            | skip)
      | with_reducible refine ih ?_ ..
      | with_reducible refine State.tickFree_kept ?_ ..)

theorem execDmScatter_kept {s0 s : State} (h : Kept s0 s) (d : Fin 4) (t : Fin 104) (k : Fin 2) (addr : Nat) (errs : RowErrs) (lines : LineErrs) :
    KeptAns s0 (execDmScatter d t k addr errs lines s) := by
  unfold execDmScatter
  refine KeptAns.next ?_
  repeat' (first
    | with_reducible assumption
    | (extract_lets +onlyGivenNames x)
    | with_reducible refine State.dmCall_kept ?_ ..
    | split)

theorem State.vecIssue_kept {s0 s : State} (h : Kept s0 s) (d : Fin 4) (t : Fin 104) (k : Fin 2) (w : Task) (op : VOp) :
    Kept s0 (State.vecIssue s d t k w op) := by
  unfold State.vecIssue
  repeat' (first
    | with_reducible assumption
    | (extract_lets +onlyGivenNames x; first
          | (refine Kept.via x ?_ (fun hx => ?_); subst x; rotate_left; clear_value x)
          | clear_value x)
    | with_reducible refine State.lsWrite_kept ?_ ..
    | with_reducible refine State.setSlot_kept ?_ ..
    | with_reducible refine State.setTile_kept ?_ ..
    | with_reducible refine State.opFault_kept ?_ ..
    | split)

theorem execVectorInstruction_kept {s0 s : State} (h : Kept s0 s) (d : Fin 4) (t : Fin 104) (k : Fin 2) (op : VOp) (errs : RowErrs) (lines : LineErrs) :
    KeptAns s0 (execVectorInstruction d t k op errs lines s) := by
  unfold execVectorInstruction
  refine KeptAns.next ?_
  repeat' (first
    | with_reducible assumption
    | (extract_lets +onlyGivenNames x; refine Kept.via x ?_ (fun hx => ?_); subst x; rotate_left; clear_value x)
    | with_reducible refine State.findRows_kept ?_ ..
    | with_reducible refine State.findErrs_kept ?_ ..
    | with_reducible refine State.vecIssue_kept ?_ ..
    | split)

theorem State.residueFault_kept {s0 s : State} (h : Kept s0 s) (d : Fin 4) (t : Fin 104) (k : Fin 2) :
    Kept s0 (State.residueFault s d t k) := by
  unfold State.residueFault
  repeat' (first
    | with_reducible assumption
    | (extract_lets +onlyGivenNames x; first
          | (refine Kept.via x ?_ (fun hx => ?_); subst x; rotate_left; clear_value x)
          | clear_value x)
    | with_reducible refine State.setTile_kept ?_ ..
    | with_reducible refine State.raise_kept ?_ ..
    | with_reducible refine State.failTile_kept ?_ ..
    | split)

theorem execTileFailure_kept {s0 s : State} (h : Kept s0 s) (d : Fin 4) (t : Fin 104) (cause : Nat) (own : Option (Fin 2)) (lines : LineErrs) :
    KeptAns s0 (execTileFailure d t cause own lines s) := by
  unfold execTileFailure
  refine KeptAns.next ?_
  repeat' (first
    | with_reducible assumption
    | (extract_lets +onlyGivenNames x; refine Kept.via x ?_ (fun hx => ?_); subst x; rotate_left; clear_value x)
    | with_reducible refine State.spareBad_kept ?_ ..
    | with_reducible refine State.findErrs_kept ?_ ..
    | with_reducible refine State.failTile_kept ?_ ..
    | split)

theorem State.mopIssueAt_kept {s0 s : State} (h : Kept s0 s) (d : Fin 4) (t : Fin 104) (k : Fin 2) (addr : Nat) (errs : RowErrs) :
    Kept s0 (State.mopIssueAt s d t k addr errs) := by
  unfold State.mopIssueAt
  repeat' (first
    | with_reducible assumption
    | (extract_lets +onlyGivenNames x; first
          | (refine Kept.via x ?_ (fun hx => ?_); subst x; rotate_left; clear_value x)
          | clear_value x
          | skip)
    | with_reducible refine State.lsWrite_kept ?_ ..
    | with_reducible refine State.findRows_kept ?_ ..
    | with_reducible refine State.setTile_kept ?_ ..
    | with_reducible refine State.opFault_kept ?_ ..
    | split)

theorem execDmComplete_kept {s0 s : State} (h : Kept s0 s) (d : Fin 4) (t : Fin 104) (k : Fin 2) (n : Nat) (errs : RowErrs) (lines : LineErrs) :
    KeptAns s0 (execDmComplete d t k n errs lines s) := by
  unfold execDmComplete
  refine KeptAns.next ?_
  repeat' (first
    | with_reducible assumption
    | (extract_lets +onlyGivenNames x; first
          | (refine Kept.via x ?_ (fun hx => ?_); subst x; rotate_left; clear_value x)
          | skip)
    | with_reducible refine State.findRows_kept ?_ ..
    | with_reducible refine State.findErrs_kept ?_ ..
    | with_reducible refine State.dmComplete_kept ?_ ..
    | split)

theorem State.loadKernel_kept {s0 s : State} (h : Kept s0 s) (d : Fin 4) (t : Fin 104) (w : Task) :
    Kept s0 (State.loadKernel s d t w).1 := by
  unfold State.loadKernel
  repeat' (first
    | with_reducible assumption
    | (extract_lets +onlyGivenNames x; first
          | (refine Kept.via x ?_ (fun hx => ?_); subst x; rotate_left; clear_value x)
          | clear_value x
          | skip)
    | with_reducible refine State.addPair_kept ?_ ..
    | with_reducible refine State.readMem_kept ?_ ..
    | (split <;> first
          | (rename_i e; refine Kept.viaFst e ?_ (fun _ => ?_))
          | skip))

theorem State.kernelFault_kept {s0 s : State} (h : Kept s0 s) (d : Fin 4) (t : Fin 104) (k : Fin 2) (st : Nat) :
    Kept s0 (State.kernelFault s d t k st) := by
  unfold State.kernelFault
  repeat' (first
    | with_reducible assumption
    | (extract_lets +onlyGivenNames x)
    | with_reducible refine State.raise_kept ?_ ..
    | with_reducible refine State.endTask_kept ?_ ..)

theorem execKernelLoadDone_kept {s0 s : State} (h : Kept s0 s) (d : Fin 4) (t : Fin 104) (k : Fin 2) (errs : LineErrs) :
    KeptAns s0 (execKernelLoadDone d t k errs s) := by
  unfold execKernelLoadDone
  refine KeptAns.next ?_
  repeat' (first
    | with_reducible assumption
    | (extract_lets +onlyGivenNames x; first
          | clear_value x
          | skip)
    | with_reducible refine State.loadKernel_kept ?_ ..
    | with_reducible refine State.kernelFault_kept ?_ ..
    | with_reducible refine State.findErrs_kept ?_ ..
    | with_reducible refine State.setTile_kept ?_ ..
    | (split <;> first
          | (rename_i e; refine Kept.viaFst e ?_ (fun _ => ?_))
          | skip))

theorem execDmIssueResume_kept {s0 s : State} (h : Kept s0 s) (d : Fin 4) (t : Fin 104) (k : Fin 2) (errs : RowErrs) (lines : LineErrs) :
    KeptAns s0 (execDmIssueResume d t k errs lines s) := by
  unfold execDmIssueResume
  refine KeptAns.next ?_
  repeat' (first
    | with_reducible assumption
    | (extract_lets +onlyGivenNames x; first
          | clear_value x
          | skip)
    | with_reducible refine State.setTile_kept ?_ ..
    | with_reducible refine State.dmIssue_kept ?_ ..
    | split)

theorem execTileDrain_kept {s0 s : State} (h : Kept s0 s) (d : Fin 4) (t : Fin 104) (on : Bool) :
    KeptAns s0 (execTileDrain d t on s) := by
  unfold execTileDrain
  refine KeptAns.next ?_
  repeat' (first
    | with_reducible assumption
    | (extract_lets +onlyGivenNames x)
    | with_reducible refine State.setF_kept ?_ ..
    | with_reducible refine State.drained_kept ?_ ..
    | split)

theorem State.mopEnd_kept {s0 s : State} (h : Kept s0 s) (d : Fin 4) (t : Fin 104) (k : Fin 2) (w : Task) (m : Mop) (rest : List Mop) (residue : Option Nat) :
    Kept s0 (State.mopEnd s d t k w m rest residue) := by
  unfold State.mopEnd
  repeat' (first
    | with_reducible assumption
    | (extract_lets +onlyGivenNames x; first
          | (refine Kept.via x ?_ (fun hx => ?_); subst x; rotate_left; clear_value x)
          | clear_value x
          | skip)
    | with_reducible refine State.lsWrite_kept ?_ ..
    | with_reducible refine State.residueFault_kept ?_ ..
    | with_reducible refine State.addPair_kept ?_ ..
    | with_reducible refine State.setSlot_kept ?_ ..
    | with_reducible refine State.setTile_kept ?_ ..
    | with_reducible refine State.tickFree_kept ?_ ..
    | with_reducible refine State.opFault_kept ?_ ..
    | (split <;> first
          | (rename_i e; refine Kept.viaSnd e ?_ (fun _ => ?_))
          | skip))

theorem execMopComplete_kept {s0 s : State} (h : Kept s0 s) (d : Fin 4) (t : Fin 104) (k : Fin 2) (errs : RowErrs) (residue : Option Nat) (lines : LineErrs) :
    KeptAns s0 (execMopComplete d t k errs residue lines s) := by
  unfold execMopComplete
  refine KeptAns.next ?_
  repeat' (first
    | with_reducible assumption
    | (extract_lets +onlyGivenNames x; first
          | (refine Kept.via x ?_ (fun hx => ?_); subst x; rotate_left; clear_value x)
          | clear_value x
          | skip)
    | with_reducible refine State.findRows_kept ?_ ..
    | with_reducible refine State.findErrs_kept ?_ ..
    | with_reducible refine State.mopEnd_kept ?_ ..
    | split)

theorem execTileWatchdogExpire_kept {s0 s : State} (h : Kept s0 s) (d : Fin 4) (t : Fin 104) (lines : LineErrs) :
    KeptAns s0 (execTileWatchdogExpire d t lines s) := by
  unfold execTileWatchdogExpire
  refine KeptAns.next ?_
  repeat' (first
    | with_reducible assumption
    | (extract_lets +onlyGivenNames x)
    | with_reducible refine State.findErrs_kept ?_ ..
    | with_reducible refine State.failTile_kept ?_ ..)

theorem execDmGather_kept {s0 s : State} (h : Kept s0 s) (d : Fin 4) (t : Fin 104) (k : Fin 2) (addr : Nat) (errs : RowErrs) (lines : LineErrs) :
    KeptAns s0 (execDmGather d t k addr errs lines s) := by
  unfold execDmGather
  refine KeptAns.next ?_
  repeat' (first
    | with_reducible assumption
    | (extract_lets +onlyGivenNames x)
    | with_reducible refine State.dmCall_kept ?_ ..
    | split)

theorem execFailureFuseBlow_kept {s0 s : State} (h : Kept s0 s) (d : Fin 4) (t : Fin 104) :
    KeptAns s0 (execFailureFuseBlow d t s) := by
  unfold execFailureFuseBlow
  refine KeptAns.next (Kept.ite ⟨h.1, h.2, fun k w => ?_, h.4, h.5⟩ h)
  rw [Map.getD_put]
  split
  · rfl
  · exact h.3 k w

theorem execDmCopy_kept {s0 s : State} (h : Kept s0 s) (d : Fin 4) (t : Fin 104) (k : Fin 2) (addr : Nat) (errs : RowErrs) (lines : LineErrs) :
    KeptAns s0 (execDmCopy d t k addr errs lines s) := by
  unfold execDmCopy
  refine KeptAns.next ?_
  repeat' (first
    | with_reducible assumption
    | (extract_lets +onlyGivenNames x)
    | with_reducible refine State.dmCall_kept ?_ ..
    | split)

theorem State.loseSlot_kept {s0 s : State} (h : Kept s0 s) (d : Fin 4) (f : Failing) (rest : List Failing) :
    Kept s0 (State.loseSlot s d f rest) := by
  unfold State.loseSlot
  repeat' (first
    | with_reducible assumption
    | (extract_lets +onlyGivenNames x; first
          | (refine Kept.via x ?_ (fun hx => ?_); subst x; rotate_left; clear_value x)
          | clear_value x
          | skip)
    | with_reducible refine State.setF_kept ?_ ..
    | with_reducible refine State.setOwn_kept ?_ ..
    | with_reducible refine State.setFails_kept ?_ ..
    | with_reducible refine State.raisePkg_kept ?_ ..
    | with_reducible refine State.raise_kept ?_ ..
    | with_reducible refine State.lastRemap_kept ?_ ..
    | with_reducible refine State.doFence_kept ?_ ..
    | split)

theorem execLsRowRetest_kept {s0 s : State} (h : Kept s0 s) (d : Fin 4) (t : Fin 104) (row : Nat) (pass : Bool) (lines : LineErrs) :
    KeptAns s0 (execLsRowRetest d t row pass lines s) := by
  unfold execLsRowRetest
  refine KeptAns.next ?_
  repeat' (first
    | with_reducible assumption
    | (extract_lets +onlyGivenNames x; first
          | (refine Kept.via x ?_ (fun hx => ?_); subst x; rotate_left; clear_value x)
          | clear_value x
          | skip)
    | with_reducible refine State.lsWrite_kept ?_ ..
    | with_reducible refine State.freeBytes_kept ?_ ..
    | with_reducible refine State.setOwn_kept ?_ ..
    | with_reducible refine State.findErrs_kept ?_ ..
    | with_reducible refine State.setTile_kept ?_ ..
    | with_reducible refine State.raise_kept ?_ ..
    | with_reducible refine State.failTile_kept ?_ ..
    | split)

theorem execTileLost_kept {s0 s : State} (h : Kept s0 s) (d : Fin 4) :
    KeptAns s0 (execTileLost d s) := by
  unfold execTileLost
  refine KeptAns.next ?_
  repeat' (first
    | with_reducible assumption
    | (extract_lets +onlyGivenNames x)
    | with_reducible refine State.loseSlot_kept ?_ ..
    | split)

theorem execWindowClose_kept {s0 s : State} (h : Kept s0 s) (d : Fin 4) (t : Fin 104) (n : Fin 4) :
    KeptAns s0 (execWindowClose d t n s) := by
  unfold execWindowClose
  refine KeptAns.next ?_
  repeat' (first
    | with_reducible assumption
    | (extract_lets +onlyGivenNames x)
    | with_reducible refine State.setF_kept ?_ ..
    | with_reducible refine State.showWindows_kept ?_ ..
    | split)

theorem execSpareSelftestDone_kept {s0 s : State} (h : Kept s0 s) (d : Fin 4) (pass : Bool) :
    KeptAns s0 (execSpareSelftestDone d pass s) := by
  unfold execSpareSelftestDone
  refine KeptAns.next ?_
  repeat' (first
    | with_reducible assumption
    | (extract_lets +onlyGivenNames x)
    | with_reducible refine State.spareBad_kept ?_ ..
    | with_reducible refine State.setFails_kept ?_ ..
    | split)

theorem execTileSpared_kept {s0 s : State} (h : Kept s0 s) (d : Fin 4) :
    KeptAns s0 (execTileSpared d s) := by
  unfold execTileSpared
  refine KeptAns.next ?_
  repeat' (first
    | with_reducible assumption
    | (extract_lets +onlyGivenNames x)
    | with_reducible refine State.spareIn_kept ?_ ..
    | with_reducible refine State.setFails_kept ?_ ..
    | split)

theorem execMopIssueResume_kept {s0 s : State} (h : Kept s0 s) (d : Fin 4) (t : Fin 104) (k : Fin 2) (errs : RowErrs) (lines : LineErrs) :
    KeptAns s0 (execMopIssueResume d t k errs lines s) := by
  unfold execMopIssueResume
  refine KeptAns.next ?_
  repeat' (first
    | with_reducible assumption
    | (extract_lets +onlyGivenNames x; first
          | (refine Kept.via x ?_ (fun hx => ?_); subst x; rotate_left; clear_value x)
          | clear_value x
          | skip)
    | with_reducible refine State.mopIssueAt_kept ?_ ..
    | with_reducible refine State.findErrs_kept ?_ ..
    | with_reducible refine State.setTile_kept ?_ ..
    | split)

theorem execWindowOpen_kept {s0 s : State} (h : Kept s0 s) (d : Fin 4) (t : Fin 104) (n : Fin 4) (syncObj : Nat) :
    KeptAns s0 (execWindowOpen d t n syncObj s) := by
  unfold execWindowOpen
  refine KeptAns.next ?_
  repeat' (first
    | with_reducible assumption
    | (extract_lets +onlyGivenNames x; first
          | (refine Kept.via x ?_ (fun hx => ?_); subst x; rotate_left; clear_value x)
          | clear_value x
          | skip)
    | with_reducible refine State.setF_kept ?_ ..
    | with_reducible refine State.fillWindow_kept ?_ ..
    | with_reducible refine State.raise_kept ?_ ..
    | with_reducible refine State.showWindows_kept ?_ ..
    | split)

theorem execMopIssue_kept {s0 s : State} (h : Kept s0 s) (d : Fin 4) (t : Fin 104) (k : Fin 2) (addr : Nat) (errs : RowErrs) (lines : LineErrs) :
    KeptAns s0 (execMopIssue d t k addr errs lines s) := by
  unfold execMopIssue
  refine KeptAns.next ?_
  repeat' (first
    | with_reducible assumption
    | (extract_lets +onlyGivenNames x; first
          | (refine Kept.via x ?_ (fun hx => ?_); subst x; rotate_left; clear_value x)
          | clear_value x)
    | with_reducible refine State.mopIssueAt_kept ?_ ..
    | with_reducible refine State.findErrs_kept ?_ ..
    | with_reducible refine State.setTile_kept ?_ ..
    | split)

theorem execTileRetire_kept {s0 s : State} (h : Kept s0 s) (d : Fin 4) (t : Fin 104) (lines : LineErrs) :
    KeptAns s0 (execTileRetire d t lines s) := by
  unfold execTileRetire
  refine KeptAns.next ?_
  repeat' (first
    | with_reducible assumption
    | (extract_lets +onlyGivenNames x)
    | with_reducible refine State.findErrs_kept ?_ ..
    | with_reducible refine State.failTile_kept ?_ ..
    | split)

theorem execTileControllerParity_kept {s0 s : State} (h : Kept s0 s) (d : Fin 4) (t : Fin 104) (lines : LineErrs) :
    KeptAns s0 (execTileControllerParity d t lines s) := by
  unfold execTileControllerParity
  refine KeptAns.next ?_
  repeat' (first
    | with_reducible assumption
    | (extract_lets +onlyGivenNames x)
    | with_reducible refine State.findErrs_kept ?_ ..
    | with_reducible refine State.failTile_kept ?_ ..)

end Sys2Proof.Machine
end

