-- ==== Sys2Proof/Laws/KeptPools.lean ====
section
/-! SUPPORT. Each operation and meaning of Machine/Pools.lean keeps what every command keeps (Safety.lean). -/

set_option Elab.async false
set_option linter.tactic.unusedName false
set_option linter.unusedTactic false

namespace Sys2Proof.Machine

open Sys2Proof

theorem execKernelPost_kept {s0 s : State} (h : Kept s0 s) (d : Fin 4) (t : Fin 104) (k : Fin 2) (p : Fin 4096) (count : Nat) :
    KeptAns s0 (execKernelPost d t k p count s) := by
  unfold execKernelPost
  refine KeptAns.next ?_
  repeat' (first
    | with_reducible assumption
    | (extract_lets +onlyGivenNames x)
    | with_reducible refine State.setSlot_kept ?_ ..
    | with_reducible refine State.postGo_kept ?_ ..
    | split)

theorem State.placeTask_kept {s0 s : State} (h : Kept s0 s) (d : Fin 4) (t : Fin 104) (k : Fin 2) (w : Task) :
    Kept s0 (State.placeTask s d t k w) := by
  unfold State.placeTask
  repeat' (first
    | with_reducible assumption
    | (extract_lets +onlyGivenNames x; first
          | (refine Kept.via x ?_ (fun hx => ?_); subst x; rotate_left; clear_value x)
          | clear_value x
          | skip)
    | with_reducible refine State.lsWrite_kept ?_ ..
    | with_reducible refine State.setF_kept ?_ ..
    | with_reducible refine State.setSlot_kept ?_ ..
    | with_reducible refine State.setTile_kept ?_ ..
    | split)

theorem State.cancelOne_kept {s0 s : State} (h : Kept s0 s) (p : Nat) (at_ : Nat) (desc : Option (List Byte)) :
    Kept s0 (State.cancelOne s p at_ desc) := by
  unfold State.cancelOne
  repeat' (first
    | (extract_lets +onlyGivenNames x; first
          | (have hx := fun a => x a; clear hx; subst x; beta_reduce)
          | clear_value x
          | skip)
    | with_reducible refine State.finish_kept ?_ ..
    | with_reducible exact Kept.tick (by assumption) rfl (by omega))

theorem State.drainCancelled_kept {s0 s : State} (h : Kept s0 s) (p : Nat) (a0 : Nat) :
    Kept s0 (State.drainCancelled s p a0) := by
  induction a0 generalizing s p with
  | zero =>
    unfold State.drainCancelled
    repeat' (with_reducible assumption)
  | succ n ih =>
    unfold State.drainCancelled
    repeat' (first
      | with_reducible assumption
      | (extract_lets +onlyGivenNames x; first
            | clear_value x
            | skip)
      | with_reducible refine ih ?_ ..
      | with_reducible refine State.cancelOne_kept ?_ ..
      | with_reducible refine State.setPool_kept ?_ ..
      | split)

theorem State.goCancelled_kept {s0 s : State} (h : Kept s0 s) (p : Nat) :
    Kept s0 (State.goCancelled s p) := by
  unfold State.goCancelled
  repeat' (first
    | with_reducible assumption
    | with_reducible refine State.drainCancelled_kept ?_ ..)

theorem execPoolFlush_kept {s0 s : State} (h : Kept s0 s) (errs : LineErrs) :
    KeptAns s0 (execPoolFlush errs s) := by
  unfold execPoolFlush
  refine KeptAns.next ?_
  repeat' (first
    | with_reducible assumption
    | (extract_lets +onlyGivenNames x; first
          | (refine Kept.via x ?_ (fun hx => ?_); subst x; rotate_left; clear_value x)
          | clear_value x
          | skip)
    | with_reducible refine State.findErrs_kept ?_ ..
    | with_reducible refine State.setPool_kept ?_ ..
    | with_reducible refine State.goCancelled_kept ?_ ..
    | with_reducible refine State.ringRead_kept ?_ ..
    | with_reducible refine Kept.foldl _ ?_ ?_
    | (intro _ _ _; beta_reduce))

theorem execPoolCqHeadWrite_kept {s0 s : State} (h : Kept s0 s) (p : Fin 4096) (v : Word) (errs : LineErrs) :
    KeptAns s0 (execPoolCqHeadWrite p v errs s) := by
  unfold execPoolCqHeadWrite
  refine KeptAns.next ?_
  repeat' (first
    | with_reducible assumption
    | (extract_lets +onlyGivenNames x; first
          | clear_value x
          | skip)
    | with_reducible refine State.poolErr_kept ?_ ..
    | with_reducible refine State.findErrs_kept ?_ ..
    | with_reducible refine State.setPool_kept ?_ ..
    | with_reducible refine State.goCancelled_kept ?_ ..
    | split)

theorem State.acquire_kept {s0 s : State} (h : Kept s0 s) (w : Task) :
    Kept s0 (State.acquire s w) := by
  unfold State.acquire
  repeat' (first
    | with_reducible assumption
    | (extract_lets +onlyGivenNames x; clear_value x)
    | with_reducible refine State.setObj_kept ?_ ..
    | split)

theorem State.popHead_kept {s0 s : State} (h : Kept s0 s) (p : Nat) :
    KeptOpt2 s0 (State.popHead s p) := by
  unfold State.popHead
  repeat' (first
    | with_reducible assumption
    | (extract_lets +onlyGivenNames x; first
          | (refine KeptOpt2.viaState x ?_ (fun hx => ?_); subst x; rotate_left; clear_value x)
          | clear_value x
          | skip)
    | with_reducible refine State.acquire_kept ?_ ..
    | with_reducible refine State.headArrives_kept ?_ ..
    | with_reducible refine State.setPool_kept ?_ ..
    | with_reducible exact KeptOpt2.none
    | with_reducible refine KeptOpt2.some ?_
    | split)

theorem State.badDesc_kept {s0 s : State} (h : Kept s0 s) (d : Fin 4) (t : Fin 104) (k : Fin 2) (w : Task) (status : Nat) (cause : Nat) :
    Kept s0 (State.badDesc s d t k w status cause) := by
  unfold State.badDesc
  repeat' (first
    | with_reducible assumption
    | with_reducible refine State.finish_kept ?_ ..)

theorem State.tookFrom_kept {s0 s : State} (h : Kept s0 s) (d : Fin 4) (t : Fin 104) (p : Nat) :
    Kept s0 (State.tookFrom s d t p) := by
  unfold State.tookFrom
  repeat' (first
    | with_reducible assumption
    | (extract_lets +onlyGivenNames x; first
          | (refine Kept.via x ?_ (fun hx => ?_); subst x; rotate_left; clear_value x)
          | clear_value x)
    | with_reducible refine State.setTile_kept ?_ ..
    | with_reducible refine State.setPool_kept ?_ ..
    | with_reducible exact Kept.upd (by assumption) rfl)

theorem State.trySingle_kept {s0 s : State} (h : Kept s0 s) (d : Fin 4) (t : Fin 104) (p : Nat) :
    KeptTry s0 (State.trySingle s d t p) := by
  unfold State.trySingle
  repeat' (first
    | with_reducible assumption
    | (extract_lets +onlyGivenNames x; first
          | clear_value x
          | skip)
    | with_reducible refine State.bump_kept ?_ ..
    | with_reducible refine State.poolErr_kept ?_ ..
    | with_reducible refine State.badDesc_kept ?_ ..
    | with_reducible refine State.placeTask_kept ?_ ..
    | with_reducible refine State.tookFrom_kept ?_ ..
    | with_reducible refine State.popHead_kept ?_ ..
    | with_reducible refine KeptTry.pass ?_
    | (split <;> first
          | (rename_i e; refine KeptOpt2.via e ?_ (fun _ => ?_))
          | skip))

theorem State.tryPair_kept {s0 s : State} (h : Kept s0 s) (d : Fin 4) (t : Fin 104) (p : Nat) (q : Nat) :
    KeptTry s0 (State.tryPair s d t p q) := by
  unfold State.tryPair
  repeat' (first
    | with_reducible assumption
    | (extract_lets +onlyGivenNames x; first
          | clear_value x
          | skip)
    | with_reducible refine State.poolErr_kept ?_ ..
    | with_reducible refine State.badDesc_kept ?_ ..
    | with_reducible refine State.placeTask_kept ?_ ..
    | with_reducible refine State.tookFrom_kept ?_ ..
    | with_reducible refine State.popHead_kept ?_ ..
    | with_reducible refine KeptTry.pass ?_
    | with_reducible refine KeptTry.took ?_
    | (split <;> first
          | (rename_i e; refine KeptTry.via e ?_ (fun _ => ?_))
          | skip))

theorem State.tryPool_kept {s0 s : State} (h : Kept s0 s) (d : Fin 4) (t : Fin 104) (p : Nat) :
    KeptTry s0 (State.tryPool s d t p) := by
  unfold State.tryPool
  repeat' (first
    | with_reducible assumption
    | with_reducible refine State.tryPair_kept ?_ ..
    | with_reducible refine State.trySingle_kept ?_ ..
    | with_reducible refine KeptTry.pass ?_
    | split)

theorem State.settle_kept {s0 s : State} (h : Kept s0 s) (d : Fin 4) (t : Fin 104) (a0 : List Nat) :
    Kept s0 (State.settle s d t a0).1 := by
  induction a0 generalizing s d t with
  | nil =>
    unfold State.settle
    repeat' (with_reducible assumption)
  | cons b l ih =>
    unfold State.settle
    repeat' (first
      | with_reducible assumption
      | (extract_lets +onlyGivenNames x)
      | with_reducible refine ih ?_ ..
      | with_reducible refine State.tryPool_kept ?_ ..
      | (split <;> first
            | (rename_i e; refine KeptTry.viaTook e ?_ (fun _ => ?_))
            | (rename_i e; refine KeptTry.viaPass e ?_ (fun _ => ?_))))

theorem execPoolEnable_kept {s0 s : State} (h : Kept s0 s) :
    KeptAns s0 (execPoolEnable s) := by
  unfold execPoolEnable
  refine KeptAns.next ?_
  repeat' (first
    | with_reducible assumption
    | (extract_lets +onlyGivenNames x; clear_value x)
    | with_reducible refine State.setPool_kept ?_ ..
    | split)

theorem State.endFirst_kept {s0 s : State} (h : Kept s0 s) (d : Fin 4) (t : Fin 104) (k : Fin 2) (l : List TaskEnd) :
    Kept s0 (State.endFirst s d t k l) := by
  unfold State.endFirst
  repeat' (first
    | with_reducible assumption
    | with_reducible refine State.failTile_kept ?_ ..
    | with_reducible refine State.endTask_kept ?_ ..
    | split)

theorem execTaskAbort_kept {s0 s : State} (h : Kept s0 s) (d : Fin 4) (t : Fin 104) (k : Fin 2) (code : BitVec 8) (same : List TaskEnd) (lines : LineErrs) :
    KeptAns s0 (execTaskAbort d t k code same lines s) := by
  unfold execTaskAbort
  refine KeptAns.next ?_
  repeat' (first
    | with_reducible assumption
    | (extract_lets +onlyGivenNames x)
    | with_reducible refine State.findErrs_kept ?_ ..
    | with_reducible refine State.endFirst_kept ?_ ..)

theorem execFullHold_kept {s0 s : State} (h : Kept s0 s) (p : Fin 4096) :
    KeptAns s0 (execFullHold p s) := by
  unfold execFullHold
  refine KeptAns.next ?_
  repeat' (first
    | with_reducible assumption
    | (extract_lets +onlyGivenNames x; first
          | (refine Kept.via x ?_ (fun hx => ?_); subst x; rotate_left; clear_value x)
          | clear_value x)
    | with_reducible refine State.raise_kept ?_ ..
    | with_reducible refine State.setPool_kept ?_ ..
    | split)

theorem execTaskExit_kept {s0 s : State} (h : Kept s0 s) (d : Fin 4) (t : Fin 104) (k : Fin 2) (same : List TaskEnd) (lines : LineErrs) :
    KeptAns s0 (execTaskExit d t k same lines s) := by
  unfold execTaskExit
  refine KeptAns.next ?_
  repeat' (first
    | with_reducible assumption
    | (extract_lets +onlyGivenNames x)
    | with_reducible refine State.findErrs_kept ?_ ..
    | with_reducible refine State.endFirst_kept ?_ ..)

theorem execPoolDisable_kept {s0 s : State} (h : Kept s0 s) :
    KeptAns s0 (execPoolDisable s) := by
  unfold execPoolDisable
  refine KeptAns.next ?_
  repeat' (first
    | with_reducible assumption
    | (extract_lets +onlyGivenNames x; clear_value x)
    | with_reducible refine State.setPool_kept ?_ ..
    | split)

theorem State.settleAll_kept {s0 s : State} (h : Kept s0 s) (a0 : List Asker) :
    Kept s0 (State.settleAll s a0).1 := by
  induction a0 generalizing s with
  | nil =>
    unfold State.settleAll
    repeat' (with_reducible assumption)
  | cons b l ih =>
    unfold State.settleAll
    repeat' (first
      | with_reducible assumption
      | (extract_lets +onlyGivenNames x)
      | with_reducible refine ih ?_ ..
      | with_reducible refine State.settle_kept ?_ ..)

theorem State.grantAll_kept {s0 s : State} (h : Kept s0 s) (l : List Asker) (a0 : Nat) :
    Kept s0 (State.grantAll s l a0) := by
  induction a0 generalizing s l with
  | zero =>
    unfold State.grantAll
    repeat' (with_reducible assumption)
  | succ n ih =>
    unfold State.grantAll
    repeat' (first
      | with_reducible assumption
      | (extract_lets +onlyGivenNames x; first
            | clear_value x
            | skip)
      | with_reducible refine ih ?_ ..
      | with_reducible refine State.settleAll_kept ?_ ..
      | with_reducible refine State.tryPool_kept ?_ ..
      | (split <;> first
            | (rename_i e; refine Kept.viaFst e ?_ (fun _ => ?_))
            | (rename_i e; refine KeptTry.viaTook e ?_ (fun _ => ?_))
            | (rename_i e; refine KeptTry.viaPass e ?_ (fun _ => ?_))
            | skip))

theorem execTaskTimeout_kept {s0 s : State} (h : Kept s0 s) (d : Fin 4) (t : Fin 104) (k : Fin 2) (same : List TaskEnd) (lines : LineErrs) :
    KeptAns s0 (execTaskTimeout d t k same lines s) := by
  unfold execTaskTimeout
  refine KeptAns.next ?_
  repeat' (first
    | with_reducible assumption
    | (extract_lets +onlyGivenNames x)
    | with_reducible refine State.findErrs_kept ?_ ..
    | with_reducible refine State.endFirst_kept ?_ ..)

theorem execTaskTake_kept {s0 s : State} (h : Kept s0 s) (d : Fin 4) (t : Fin 104) (rivals : List (Fin 4 × Fin 104)) (errs : LineErrs) :
    KeptAns s0 (execTaskTake d t rivals errs s) := by
  unfold execTaskTake
  refine KeptAns.next ?_
  repeat' (first
    | with_reducible assumption
    | (extract_lets +onlyGivenNames x; first
          | (refine Kept.via x ?_ (fun hx => ?_); subst x; rotate_left; clear_value x)
          | clear_value x)
    | with_reducible refine State.grantAll_kept ?_ ..
    | with_reducible refine State.findErrs_kept ?_ ..
    | split)

theorem execTaskStart_kept {s0 s : State} (h : Kept s0 s) (d : Fin 4) (t : Fin 104) (k : Fin 2) :
    KeptAns s0 (execTaskStart d t k s) := by
  unfold execTaskStart
  refine KeptAns.next ?_
  repeat' (first
    | with_reducible assumption
    | (extract_lets +onlyGivenNames x; first
          | (refine Kept.via x ?_ (fun hx => ?_); subst x; rotate_left; clear_value x)
          | clear_value x)
    | with_reducible refine State.addPair_kept ?_ ..
    | with_reducible refine State.kernelFault_kept ?_ ..
    | with_reducible refine State.setSlot_kept ?_ ..
    | with_reducible refine State.setTile_kept ?_ ..
    | with_reducible refine State.engineDone_kept ?_ ..
    | split)

theorem execPartnerEnd_kept {s0 s : State} (h : Kept s0 s) (d : Fin 4) (t : Fin 104) (k : Fin 2) (lines : LineErrs) :
    KeptAns s0 (execPartnerEnd d t k lines s) := by
  unfold execPartnerEnd
  refine KeptAns.next ?_
  repeat' (first
    | with_reducible assumption
    | (extract_lets +onlyGivenNames x; first
          | (refine Kept.via x ?_ (fun hx => ?_); subst x; rotate_left; clear_value x)
          | clear_value x
          | skip)
    | with_reducible refine State.clearSlot_kept ?_ ..
    | with_reducible refine State.findErrs_kept ?_ ..
    | with_reducible refine State.finishRan_kept ?_ ..
    | split)

theorem execPoolClear_kept {s0 s : State} (h : Kept s0 s) :
    KeptAns s0 (execPoolClear s) := by
  unfold execPoolClear
  refine KeptAns.next ?_
  repeat' (first
    | with_reducible assumption
    | (extract_lets +onlyGivenNames x; clear_value x)
    | with_reducible refine State.setPool_kept ?_ ..
    | split)

theorem execPoolReload_kept {s0 s : State} (h : Kept s0 s) (errs : LineErrs) :
    KeptAns s0 (execPoolReload errs s) := by
  unfold execPoolReload
  refine KeptAns.next ?_
  repeat' (first
    | with_reducible assumption
    | (extract_lets +onlyGivenNames x; first
          | clear_value x
          | skip)
    | with_reducible refine State.readEntry_kept ?_ ..
    | with_reducible refine State.findErrs_kept ?_ ..
    | split)

theorem execPoolDoorbell_kept {s0 s : State} (h : Kept s0 s) (p : Fin 4096) (count : Nat) :
    KeptAns s0 (execPoolDoorbell p count s) := by
  unfold execPoolDoorbell
  refine KeptAns.next ?_
  repeat' (first
    | with_reducible assumption
    | (extract_lets +onlyGivenNames x)
    | with_reducible refine State.doorbell_kept ?_ ..
    | split)

theorem execSearchTierOpen_kept {s0 s : State} (h : Kept s0 s) (d : Fin 4) (t : Fin 104) (n : Fin 6) :
    KeptAns s0 (execSearchTierOpen d t n s) := by
  unfold execSearchTierOpen
  refine KeptAns.next ?_
  repeat' (first
    | with_reducible assumption
    | (extract_lets +onlyGivenNames x; clear_value x)
    | with_reducible refine State.setTile_kept ?_ ..
    | split)

end Sys2Proof.Machine
end

