-- ==== Sys2Proof/Laws/KeptPower.lean ====
section
/-! SUPPORT. Each operation and meaning of Machine/Power.lean keeps what every command keeps (Safety.lean). -/

set_option Elab.async false
set_option linter.tactic.unusedName false
set_option linter.unusedTactic false

namespace Sys2Proof.Machine

open Sys2Proof

theorem execFreqSlewStep_kept {s0 s : State} (h : Kept s0 s) (d : Fin 4) (t : Fin 104) :
    KeptAns s0 (execFreqSlewStep d t s) := by
  unfold execFreqSlewStep
  refine KeptAns.next ?_
  repeat' (first
    | with_reducible assumption
    | (extract_lets +onlyGivenNames x; clear_value x)
    | with_reducible refine State.setF_kept ?_ ..
    | split)

theorem State.setDroop_kept {s0 s : State} (h : Kept s0 s) (d : Fin 4) (t : Fin 104) (mhz : Nat) :
    Kept s0 (State.setDroop s d t mhz) := by
  unfold State.setDroop
  repeat' (first
    | with_reducible assumption
    | (extract_lets +onlyGivenNames x; first
          | clear_value x
          | skip)
    | with_reducible refine State.ceilsFrom_kept ?_ ..
    | with_reducible refine State.setTile_kept ?_ ..)

theorem State.droopFall_kept {s0 s : State} (h : Kept s0 s) (d : Fin 4) (t : Fin 104) :
    Kept s0 (State.droopFall s d t) := by
  unfold State.droopFall
  repeat' (first
    | with_reducible assumption
    | (extract_lets +onlyGivenNames x)
    | with_reducible refine State.raise_kept ?_ ..
    | with_reducible refine State.setDroop_kept ?_ ..)

theorem execDroopStretchEnd_kept {s0 s : State} (h : Kept s0 s) (d : Fin 4) (t : Fin 104) (above : Bool) :
    KeptAns s0 (execDroopStretchEnd d t above s) := by
  unfold execDroopStretchEnd
  refine KeptAns.next ?_
  repeat' (first
    | with_reducible assumption
    | (extract_lets +onlyGivenNames x; first
          | (refine Kept.via x ?_ (fun hx => ?_); subst x; rotate_left; clear_value x)
          | clear_value x)
    | with_reducible refine State.droopFall_kept ?_ ..
    | with_reducible refine State.setTile_kept ?_ ..
    | split)

theorem State.holdStep_kept {s0 s : State} (h : Kept s0 s) :
    Kept s0 (State.holdStep s) := by
  unfold State.holdStep
  repeat' (first
    | with_reducible assumption
    | (extract_lets +onlyGivenNames x; first
          | (refine Kept.via x ?_ (fun hx => ?_); subst x; rotate_left; clear_value x)
          | clear_value x
          | skip)
    | with_reducible refine State.setPw_kept ?_ ..
    | with_reducible refine State.bump_kept ?_ ..
    | with_reducible refine State.setF_kept ?_ ..
    | with_reducible refine State.setFcast_kept ?_ ..
    | with_reducible refine State.raise_kept ?_ ..
    | split)

theorem State.peakStep_kept {s0 s : State} (h : Kept s0 s) :
    Kept s0 (State.peakStep s) := by
  unfold State.peakStep
  repeat' (first
    | with_reducible assumption
    | (extract_lets +onlyGivenNames x; first
          | (refine Kept.via x ?_ (fun hx => ?_); subst x; rotate_left; clear_value x)
          | clear_value x
          | skip)
    | with_reducible refine State.setPw_kept ?_ ..
    | with_reducible refine State.bump_kept ?_ ..
    | with_reducible refine State.ceilsFrom_kept ?_ ..
    | with_reducible refine State.raise_kept ?_ ..
    | with_reducible refine State.tickFree_kept ?_ ..
    | split)

theorem State.ocStep_kept {s0 s : State} (h : Kept s0 s) (i : Nat) :
    Kept s0 (State.ocStep s i) := by
  unfold State.ocStep
  repeat' (first
    | with_reducible assumption
    | (extract_lets +onlyGivenNames x; first
          | (refine Kept.via x ?_ (fun hx => ?_); subst x; rotate_left; clear_value x)
          | clear_value x
          | skip)
    | with_reducible refine State.setPw_kept ?_ ..
    | with_reducible refine State.raise_kept ?_ ..
    | split)

theorem execPowerSample_kept {s0 s : State} (h : Kept s0 s) (v : BitVec 16) (a : BitVec 16) :
    KeptAns s0 (execPowerSample v a s) := by
  unfold execPowerSample
  refine KeptAns.next ?_
  repeat' (first
    | with_reducible assumption
    | (extract_lets +onlyGivenNames x; first
          | (refine Kept.via x ?_ (fun hx => ?_); subst x; rotate_left; clear_value x)
          | clear_value x
          | skip)
    | with_reducible refine State.setPw_kept ?_ ..
    | with_reducible refine State.holdStep_kept ?_ ..
    | with_reducible refine State.moveLevel_kept ?_ ..
    | with_reducible refine State.peakStep_kept ?_ ..
    | with_reducible refine State.setF_kept ?_ ..
    | with_reducible refine State.ocStep_kept ?_ ..)

theorem execDroopCeilRise_kept {s0 s : State} (h : Kept s0 s) (d : Fin 4) (t : Fin 104) :
    KeptAns s0 (execDroopCeilRise d t s) := by
  unfold execDroopCeilRise
  refine KeptAns.next ?_
  repeat' (first
    | with_reducible assumption
    | (extract_lets +onlyGivenNames x)
    | with_reducible refine State.setDroop_kept ?_ ..
    | split)

theorem execPhaseLearn_kept {s0 s : State} (h : Kept s0 s) (d : Fin 4) (est : Nat) (mean : Nat) (obs : List PhaseObs) :
    KeptAns s0 (execPhaseLearn d est mean obs s) := by
  unfold execPhaseLearn
  refine KeptAns.next ?_
  repeat' (first
    | with_reducible assumption
    | (extract_lets +onlyGivenNames x; first
          | (refine Kept.via x ?_ (fun hx => ?_); subst x; rotate_left; clear_value x)
          | clear_value x
          | skip)
    | with_reducible refine State.setPw_kept ?_ ..
    | with_reducible refine State.setF_kept ?_ ..
    | with_reducible refine State.tickFree_kept ?_ ..
    | with_reducible refine Kept.foldl _ ?_ ?_
    | (intro _ _ _; beta_reduce))

theorem execRailFallHoldExpire_kept {s0 s : State} (h : Kept s0 s) (d : Fin 4) (c : Fin 13) :
    KeptAns s0 (execRailFallHoldExpire d c s) := by
  unfold execRailFallHoldExpire
  refine KeptAns.next ?_
  repeat' (first
    | with_reducible assumption
    | (extract_lets +onlyGivenNames x; clear_value x)
    | with_reducible refine State.setPw_kept ?_ ..
    | split)

theorem execDroopDetect_kept {s0 s : State} (h : Kept s0 s) (d : Fin 4) (t : Fin 104) (above : Bool) :
    KeptAns s0 (execDroopDetect d t above s) := by
  unfold execDroopDetect
  refine KeptAns.next ?_
  repeat' (first
    | with_reducible assumption
    | (extract_lets +onlyGivenNames x; first
          | (refine Kept.via x ?_ (fun hx => ?_); subst x; rotate_left; clear_value x)
          | clear_value x
          | skip)
    | with_reducible refine State.bump_kept ?_ ..
    | with_reducible refine State.deferChange_kept ?_ ..
    | with_reducible refine State.droopFall_kept ?_ ..
    | with_reducible refine State.setTile_kept ?_ ..
    | split)

theorem execFreqDeferEnd_kept {s0 s : State} (h : Kept s0 s) (d : Fin 4) (t : Fin 104) :
    KeptAns s0 (execFreqDeferEnd d t s) := by
  unfold execFreqDeferEnd
  refine KeptAns.next ?_
  repeat' (first
    | with_reducible assumption
    | (extract_lets +onlyGivenNames x; clear_value x)
    | with_reducible refine State.setTile_kept ?_ ..
    | split)

theorem execPhaseForget_kept {s0 s : State} (h : Kept s0 s) :
    KeptAns s0 (execPhaseForget s) := by
  unfold execPhaseForget
  refine KeptAns.next ?_
  repeat' (first
    | with_reducible assumption
    | (extract_lets +onlyGivenNames x; clear_value x)
    | with_reducible refine State.setPw_kept ?_ ..)

theorem execShareRecompute_kept {s0 s : State} (h : Kept s0 s) (others : Nat) (mean0 : Nat) (mean1 : Nat) (mean2 : Nat) (mean3 : Nat) :
    KeptAns s0 (execShareRecompute others mean0 mean1 mean2 mean3 s) := by
  unfold execShareRecompute
  refine KeptAns.next ?_
  repeat' (first
    | with_reducible assumption
    | (extract_lets +onlyGivenNames x; first
          | (refine Kept.via x ?_ (fun hx => ?_); subst x; rotate_left; clear_value x)
          | (have hx := fun a => x a; clear hx; subst x; beta_reduce)
          | clear_value x
          | skip)
    | with_reducible refine State.setPw_kept ?_ ..
    | with_reducible refine State.ceilsFrom_kept ?_ ..
    | with_reducible refine State.setF_kept ?_ ..
    | with_reducible refine Kept.foldl _ ?_ ?_
    | (intro _ _ _; beta_reduce))

theorem execRailRampStep_kept {s0 s : State} (h : Kept s0 s) (d : Fin 4) (c : Fin 13) :
    KeptAns s0 (execRailRampStep d c s) := by
  unfold execRailRampStep
  refine KeptAns.next ?_
  repeat' (first
    | with_reducible assumption
    | (extract_lets +onlyGivenNames x; first
          | (refine Kept.via x ?_ (fun hx => ?_); subst x; rotate_left; clear_value x)
          | clear_value x)
    | with_reducible refine State.setPw_kept ?_ ..
    | with_reducible refine State.setF_kept ?_ ..)

end Sys2Proof.Machine
end

