-- ==== Sys2Proof/Laws/KeptSlots.lean ====
section
/-! SUPPORT. Each operation and meaning of Machine/Slots.lean keeps what every command keeps (Safety.lean). -/

set_option Elab.async false
set_option linter.tactic.unusedName false
set_option linter.unusedTactic false

namespace Sys2Proof.Machine

open Sys2Proof

theorem execSlotRelease_kept {s0 s : State} (h : Kept s0 s) (d : Fin 4) (k : Nat) (w : Word) :
    KeptAns s0 (execSlotRelease d k w s) := by
  unfold execSlotRelease
  refine KeptAns.next ?_
  repeat' (first
    | with_reducible assumption
    | (extract_lets +onlyGivenNames x)
    | with_reducible refine State.slotWord_kept ?_ ..
    | split)

theorem execSlotArm_kept {s0 s : State} (h : Kept s0 s) (d : Fin 4) (k : Nat) (w : Word) :
    KeptAns s0 (execSlotArm d k w s) := by
  unfold execSlotArm
  refine KeptAns.next ?_
  repeat' (first
    | with_reducible assumption
    | (extract_lets +onlyGivenNames x)
    | with_reducible refine State.slotWord_kept ?_ ..
    | split)

theorem execSlotRecordContrib_kept {s0 s : State} (h : Kept s0 s) (d : Fin 4) (k : Nat) (data : List Byte) :
    KeptAns s0 (execSlotRecordContrib d k data s) := by
  unfold execSlotRecordContrib
  refine KeptAns.next ?_
  repeat' (first
    | with_reducible assumption
    | (extract_lets +onlyGivenNames x)
    | with_reducible refine State.slotContrib_kept ?_ ..
    | split)

theorem execSlotAnchorContrib_kept {s0 s : State} (h : Kept s0 s) (d : Fin 4) (k : Nat) (w : Word) :
    KeptAns s0 (execSlotAnchorContrib d k w s) := by
  unfold execSlotAnchorContrib
  refine KeptAns.next ?_
  repeat' (first
    | with_reducible assumption
    | (extract_lets +onlyGivenNames x)
    | with_reducible refine State.slotContrib_kept ?_ ..
    | split)

end Sys2Proof.Machine
end

