-- ==== Sys2Proof/Laws/KeptSync.lean ====
section
/-! SUPPORT. Each operation and meaning of Machine/Sync.lean keeps what every command keeps (Safety.lean). -/

set_option Elab.async false
set_option linter.tactic.unusedName false
set_option linter.unusedTactic false

namespace Sys2Proof.Machine

open Sys2Proof

theorem State.setPace_kept {s0 s : State} (h : Kept s0 s) (l : List PaceEntry) :
    Kept s0 (State.setPace s l) := by
  unfold State.setPace
  repeat' (first
    | with_reducible assumption
    | (extract_lets +onlyGivenNames x; first
          | (refine Kept.via x ?_ (fun hx => ?_); subst x; rotate_left; clear_value x)
          | clear_value x
          | skip)
    | with_reducible refine State.ceilsFrom_kept ?_ ..
    | with_reducible refine State.setF_kept ?_ ..
    | with_reducible refine State.raise_kept ?_ ..
    | with_reducible refine State.setPair_kept ?_ ..
    | split
    | with_reducible exact Kept.upd (by assumption) rfl)

theorem State.objOp_kept {s0 s : State} {f : State → State × Bool} (h : Kept s0 s) (hf : ∀ {s}, Kept s0 s → Kept s0 (f s).1)
    (src : SyncSrc) (o : Nat) : Kept s0 (State.objOp s src o f) := by
  unfold State.objOp
  split
  · exact Kept.ite (hf h) h
  · refine Kept.ite ?_ h
    split
    rename_i e
    exact State.emit_kept (Kept.viaFst e (hf h) id) ..
  · exact hf h

theorem execSyncAck_kept {s0 s : State} (h : Kept s0 s) (p : Fin 16) (h : SHdr) :
    KeptAns s0 (execSyncAck p h s) := by
  unfold execSyncAck
  refine KeptAns.next ?_
  repeat' (first
    | with_reducible assumption
    | (extract_lets +onlyGivenNames x)
    | with_reducible refine State.syncAcked_kept ?_ ..
    | split)

theorem execMasterEligible_kept {s0 s : State} (h : Kept s0 s) :
    KeptAns s0 (execMasterEligible s) := by
  unfold execMasterEligible
  refine KeptAns.next ?_
  repeat' (first
    | (extract_lets +onlyGivenNames x; first
          | clear_value x
          | skip)
    | with_reducible refine State.elect_kept ?_ ..
    | with_reducible exact Kept.upd (by assumption) rfl)

theorem execObjClear_kept {s0 s : State} (h : Kept s0 s) (src : SyncSrc) (o : BitVec 16) :
    KeptAns s0 (execObjClear src o s) := by
  unfold execObjClear
  refine KeptAns.next ?_
  repeat' (first
    | with_reducible assumption
    | (extract_lets +onlyGivenNames x)
    | with_reducible refine State.clearObj_kept ?_ ..
    | with_reducible refine State.objOp_kept ?_ ?_ ..
    | (intro _ _; beta_reduce))

theorem execMasterAnnounce_kept {s0 s : State} (h : Kept s0 s) :
    KeptAns s0 (execMasterAnnounce s) := by
  unfold execMasterAnnounce
  refine KeptAns.next ?_
  repeat' (first
    | with_reducible assumption
    | (extract_lets +onlyGivenNames x; first
          | (refine Kept.via x ?_ (fun hx => ?_); subst x; rotate_left; clear_value x)
          | clear_value x
          | skip)
    | with_reducible refine State.tickFree_kept ?_ ..
    | with_reducible refine State.sendSync_kept ?_ ..
    | with_reducible refine Kept.foldl _ ?_ ?_
    | split
    | (intro _ _ _; beta_reduce)
    | with_reducible exact Kept.upd (by assumption) rfl)

theorem execObjArm_kept {s0 s : State} (h : Kept s0 s) (h : Fin 2) (errs : LineErrs) :
    KeptAns s0 (execObjArm h errs s) := by
  unfold execObjArm
  refine KeptAns.next ?_
  repeat' (first
    | with_reducible assumption
    | (extract_lets +onlyGivenNames x)
    | with_reducible refine State.armObj_kept ?_ ..
    | with_reducible refine State.findErrs_kept ?_ ..
    | split)

theorem State.postPace_kept {s0 s : State} (h : Kept s0 s) :
    Kept s0 (State.postPace s) := by
  unfold State.postPace
  repeat' (first
    | with_reducible assumption
    | (extract_lets +onlyGivenNames x; first
          | clear_value x
          | skip)
    | with_reducible refine State.sendSync_kept ?_ ..
    | with_reducible refine Kept.foldl _ ?_ ?_
    | split
    | (intro _ _ _; beta_reduce)
    | with_reducible exact Kept.upd (by assumption) rfl)

theorem execObjDisarm_kept {s0 s : State} (h : Kept s0 s) (h : Fin 2) :
    KeptAns s0 (execObjDisarm h s) := by
  unfold execObjDisarm
  refine KeptAns.next ?_
  repeat' (first
    | with_reducible assumption
    | (extract_lets +onlyGivenNames x)
    | with_reducible refine State.disarm_kept ?_ ..
    | split)

theorem execPace_kept {s0 s : State} (h : Kept s0 s) (p : Fin 16) (h : SHdr) (m : PaceMsg) :
    KeptAns s0 (execPace p h m s) := by
  unfold execPace
  refine KeptAns.next ?_
  repeat' (first
    | with_reducible assumption
    | (extract_lets +onlyGivenNames x)
    | with_reducible refine State.syncTake_kept ?_ ..
    | with_reducible refine State.sendSync_kept ?_ ..
    | with_reducible refine State.setPace_kept ?_ ..
    | with_reducible refine Kept.foldl _ ?_ ?_
    | (split <;> first
          | (rename_i e; refine Kept.viaFst e ?_ (fun _ => ?_))
          | skip)
    | (intro _ _ _; beta_reduce))

theorem execPartialMsg_kept {s0 s : State} (h : Kept s0 s) (p : Fin 16) (h : SHdr) (m : PartialMsg) :
    KeptAns s0 (execPartialMsg p h m s) := by
  unfold execPartialMsg
  refine KeptAns.next ?_
  repeat' (first
    | with_reducible assumption
    | (extract_lets +onlyGivenNames x)
    | with_reducible refine State.takePartial_kept ?_ ..
    | with_reducible refine State.syncTake_kept ?_ ..
    | (split <;> first
          | (rename_i e; refine Kept.viaFst e ?_ (fun _ => ?_))
          | skip))

theorem State.half_kept {s0 s : State} (h : Kept s0 s) (x : Int) :
    Kept s0 (State.half s x).2 := by
  unfold State.half
  repeat' (first
    | with_reducible assumption
    | with_reducible refine State.tickFree_kept ?_ ..)

theorem State.stepDrove_kept {s0 s : State} (h : Kept s0 s) (n : Nat) :
    Kept s0 (State.stepDrove s n) := by
  unfold State.stepDrove
  repeat' (first
    | with_reducible assumption
    | (extract_lets +onlyGivenNames x; first
          | (refine Kept.via x ?_ (fun hx => ?_); subst x; rotate_left; clear_value x)
          | (have hx := fun a => x a; clear hx; subst x; beta_reduce)
          | clear_value x
          | skip)
    | with_reducible refine State.bump_kept ?_ ..
    | with_reducible refine State.raise_kept ?_ ..
    | split
    | with_reducible exact Kept.upd (by assumption) rfl)

theorem State.correct_kept {s0 s : State} (h : Kept s0 s) (p : Fin 16) (med : Int) :
    Kept s0 (State.correct s p med) := by
  unfold State.correct
  repeat' (first
    | with_reducible assumption
    | (extract_lets +onlyGivenNames x; first
          | (refine Kept.via x ?_ (fun hx => ?_); subst x; rotate_left; clear_value x)
          | clear_value x)
    | with_reducible refine State.stepDrove_kept ?_ ..
    | with_reducible refine State.setDrove_kept ?_ ..
    | with_reducible refine State.setF_kept ?_ ..
    | split
    | with_reducible exact Kept.upd (by assumption) rfl)

theorem State.median_kept {s0 s : State} (h : Kept s0 s) (l : List Int) :
    Kept s0 (State.median s l).2 := by
  unfold State.median
  repeat' (first
    | with_reducible assumption
    | (extract_lets +onlyGivenNames x; clear_value x)
    | with_reducible refine State.tickFree_kept ?_ ..
    | split)

theorem execTimeRsp_kept {s0 s : State} (h : Kept s0 s) (p : Fin 16) (h : SHdr) (t1 : Nat) (t2 : Nat) (t3 : Nat) :
    KeptAns s0 (execTimeRsp p h t1 t2 t3 s) := by
  unfold execTimeRsp
  refine KeptAns.next ?_
  repeat' (first
    | with_reducible assumption
    | (extract_lets +onlyGivenNames x; first
          | (refine Kept.via x ?_ (fun hx => ?_); subst x; rotate_left; clear_value x)
          | clear_value x
          | skip)
    | with_reducible refine State.syncAcked_kept ?_ ..
    | with_reducible refine State.half_kept ?_ ..
    | with_reducible refine State.correct_kept ?_ ..
    | with_reducible refine State.setLink_kept ?_ ..
    | with_reducible refine State.median_kept ?_ ..
    | (split <;> first
          | (rename_i e; refine Kept.viaSnd e ?_ (fun _ => ?_))
          | skip))

theorem execObjSignal_kept {s0 s : State} (h : Kept s0 s) (src : SyncSrc) (o : BitVec 16) (n : BitVec 16) :
    KeptAns s0 (execObjSignal src o n s) := by
  unfold execObjSignal
  refine KeptAns.next ?_
  repeat' (first
    | with_reducible assumption
    | (extract_lets +onlyGivenNames x)
    | with_reducible refine State.signal_kept ?_ ..
    | with_reducible refine State.objOp_kept ?_ ?_ ..
    | (intro _ _; beta_reduce))

theorem execPaceRepost_kept {s0 s : State} (h : Kept s0 s) :
    KeptAns s0 (execPaceRepost s) := by
  unfold execPaceRepost
  refine KeptAns.next ?_
  repeat' (first
    | with_reducible assumption
    | (extract_lets +onlyGivenNames x)
    | with_reducible refine State.postPace_kept ?_ ..
    | split)

theorem execObjSet_kept {s0 s : State} (h : Kept s0 s) (src : SyncSrc) (o : BitVec 16) :
    KeptAns s0 (execObjSet src o s) := by
  unfold execObjSet
  refine KeptAns.next ?_
  repeat' (first
    | with_reducible assumption
    | (extract_lets +onlyGivenNames x)
    | with_reducible refine State.setEvent_kept ?_ ..
    | with_reducible refine State.objOp_kept ?_ ?_ ..
    | (intro _ _; beta_reduce))

theorem execPacePost_kept {s0 s : State} (h : Kept s0 s) :
    KeptAns s0 (execPacePost s) := by
  unfold execPacePost
  refine KeptAns.next ?_
  repeat' (first
    | with_reducible assumption
    | (extract_lets +onlyGivenNames x)
    | with_reducible refine State.postPace_kept ?_ ..)

theorem execMasterStale_kept {s0 s : State} (h : Kept s0 s) (p : Fin 16) :
    KeptAns s0 (execMasterStale p s) := by
  unfold execMasterStale
  refine KeptAns.next ?_
  repeat' (first
    | with_reducible assumption
    | (extract_lets +onlyGivenNames x; first
          | clear_value x
          | skip)
    | with_reducible refine State.elect_kept ?_ ..
    | with_reducible refine State.setLink_kept ?_ ..
    | split)

theorem execMasterMsg_kept {s0 s : State} (h : Kept s0 s) (p : Fin 16) (h : SHdr) (m : MasterMsg) :
    KeptAns s0 (execMasterMsg p h m s) := by
  unfold execMasterMsg
  refine KeptAns.next ?_
  repeat' (first
    | with_reducible assumption
    | (extract_lets +onlyGivenNames x; first
          | (refine Kept.via x ?_ (fun hx => ?_); subst x; rotate_left; clear_value x)
          | (have hx := fun a => x a; clear hx; subst x; beta_reduce)
          | clear_value x
          | skip)
    | with_reducible refine State.stepDrove_kept ?_ ..
    | with_reducible refine State.elect_kept ?_ ..
    | with_reducible refine State.syncTake_kept ?_ ..
    | with_reducible refine State.setLink_kept ?_ ..
    | (split <;> first
          | (rename_i e; refine Kept.viaFst e ?_ (fun _ => ?_))
          | skip)
    | with_reducible exact Kept.upd (by assumption) rfl)

theorem execRoundTimeout_kept {s0 s : State} (h : Kept s0 s) (o : Fin 1024) :
    KeptAns s0 (execRoundTimeout o s) := by
  unfold execRoundTimeout
  refine KeptAns.next ?_
  repeat' (first
    | with_reducible assumption
    | (extract_lets +onlyGivenNames x; first
          | (refine Kept.via x ?_ (fun hx => ?_); subst x; rotate_left; clear_value x)
          | clear_value x
          | skip)
    | with_reducible refine State.bump_kept ?_ ..
    | with_reducible refine State.setObj_kept ?_ ..
    | with_reducible refine State.raise_kept ?_ ..
    | with_reducible refine State.endRounds_kept ?_ ..
    | with_reducible refine State.rounds_kept ?_ ..
    | split)

theorem execTimeReq_kept {s0 s : State} (h : Kept s0 s) (p : Fin 16) (h : SHdr) (t1 : Nat) :
    KeptAns s0 (execTimeReq p h t1 s) := by
  unfold execTimeReq
  refine KeptAns.next ?_
  repeat' (first
    | with_reducible assumption
    | (extract_lets +onlyGivenNames x)
    | with_reducible refine State.syncAcked_kept ?_ ..
    | with_reducible refine State.sendSync_kept ?_ ..
    | split)

theorem execSyncAckTimer_kept {s0 s : State} (h : Kept s0 s) (p : Fin 16) :
    KeptAns s0 (execSyncAckTimer p s) := by
  unfold execSyncAckTimer
  refine KeptAns.next ?_
  repeat' (first
    | with_reducible assumption
    | (extract_lets +onlyGivenNames x)
    | with_reducible refine State.syncFlit_kept ?_ ..
    | split)

theorem execSyncContrib_kept {s0 s : State} (h : Kept s0 s) (d : Fin 4) (t : Fin 104) (k : Fin 2) (o : BitVec 16) (data : List Byte) :
    KeptAns s0 (execSyncContrib d t k o data s) := by
  unfold execSyncContrib
  refine KeptAns.next ?_
  repeat' (first
    | with_reducible assumption
    | (extract_lets +onlyGivenNames x)
    | with_reducible refine State.contrib_kept ?_ ..
    | with_reducible refine State.objOp_kept ?_ ?_ ..
    | (intro _ _; beta_reduce))

theorem execTimeExchangeTick_kept {s0 s : State} (h : Kept s0 s) (p : Fin 16) :
    KeptAns s0 (execTimeExchangeTick p s) := by
  unfold execTimeExchangeTick
  refine KeptAns.next ?_
  repeat' (first
    | with_reducible assumption
    | (extract_lets +onlyGivenNames x)
    | with_reducible refine State.sendSync_kept ?_ ..
    | split)

theorem execSyncWait_kept {s0 s : State} (h : Kept s0 s) (d : Fin 4) (t : Fin 104) (k : Fin 2) (o : BitVec 16) :
    KeptAns s0 (execSyncWait d t k o s) := by
  unfold execSyncWait
  refine KeptAns.next ?_
  repeat' (first
    | with_reducible assumption
    | (extract_lets +onlyGivenNames x; first
          | clear_value x
          | skip)
    | with_reducible refine State.setObj_kept ?_ ..
    | with_reducible refine State.syncRefuse_kept ?_ ..
    | with_reducible refine State.emit_kept ?_ ..
    | split)

theorem execSyncResendTimer_kept {s0 s : State} (h : Kept s0 s) (p : Fin 16) :
    KeptAns s0 (execSyncResendTimer p s) := by
  unfold execSyncResendTimer
  refine KeptAns.next ?_
  repeat' (first
    | with_reducible assumption
    | (extract_lets +onlyGivenNames x)
    | with_reducible refine State.resendSync_kept ?_ ..
    | split)

theorem execPartialDetour_kept {s0 s : State} (h : Kept s0 s) (p : Fin 16) (lseq : BitVec 8) :
    KeptAns s0 (execPartialDetour p lseq s) := by
  unfold execPartialDetour
  refine KeptAns.next ?_
  repeat' (first
    | with_reducible assumption
    | (extract_lets +onlyGivenNames x)
    | with_reducible refine State.detour_kept ?_ ..
    | split)

theorem execPaceEntryExpire_kept {s0 s : State} (h : Kept s0 s) (origin : BitVec 64) :
    KeptAns s0 (execPaceEntryExpire origin s) := by
  unfold execPaceEntryExpire
  refine KeptAns.next ?_
  repeat' (first
    | with_reducible assumption
    | (extract_lets +onlyGivenNames x)
    | with_reducible refine State.setPace_kept ?_ ..
    | split)

theorem execSyncRead_kept {s0 s : State} (h : Kept s0 s) (d : Fin 4) (t : Fin 104) (k : Fin 2) (o : BitVec 16) :
    KeptAns s0 (execSyncRead d t k o s) := by
  unfold execSyncRead
  refine KeptAns.next ?_
  repeat' (first
    | with_reducible assumption
    | (extract_lets +onlyGivenNames x; first
          | clear_value x
          | skip)
    | with_reducible refine State.syncRefuse_kept ?_ ..
    | with_reducible refine State.emit_kept ?_ ..
    | split)

end Sys2Proof.Machine
end

