-- ==== Sys2Proof/Laws/State.lean ====
section
/-! SUPPORT. Every field after every plain update: one lemma per field per update, true by definition. -/

set_option Elab.async false

namespace Sys2Proof.Machine

open Sys2Proof

/-! ## setW -/

@[simp] theorem State.setW_pending (s : State) (u : UnitId) (off : Nat) (w : Word) :
    (s.setW u off w).pending = s.pending := rfl
@[simp] theorem State.setW_shadow (s : State) (u : UnitId) (off : Nat) (w : Word) :
    (s.setW u off w).shadow = s.shadow := rfl
@[simp] theorem State.setW_latch (s : State) (u : UnitId) (off : Nat) (w : Word) :
    (s.setW u off w).latch = s.latch := rfl
@[simp] theorem State.setW_evtCnt (s : State) (u : UnitId) (off : Nat) (w : Word) :
    (s.setW u off w).evtCnt = s.evtCnt := rfl
@[simp] theorem State.setW_drove (s : State) (u : UnitId) (off : Nat) (w : Word) :
    (s.setW u off w).drove = s.drove := rfl
@[simp] theorem State.setW_freeCtr (s : State) (u : UnitId) (off : Nat) (w : Word) :
    (s.setW u off w).freeCtr = s.freeCtr := rfl
@[simp] theorem State.setW_stepped (s : State) (u : UnitId) (off : Nat) (w : Word) :
    (s.setW u off w).stepped = s.stepped := rfl
@[simp] theorem State.setW_out (s : State) (u : UnitId) (off : Nat) (w : Word) :
    (s.setW u off w).out = s.out := rfl
@[simp] theorem State.setW_tiles (s : State) (u : UnitId) (off : Nat) (w : Word) :
    (s.setW u off w).tiles = s.tiles := rfl
@[simp] theorem State.setW_failing (s : State) (u : UnitId) (off : Nat) (w : Word) :
    (s.setW u off w).failing = s.failing := rfl
@[simp] theorem State.setW_fuses (s : State) (u : UnitId) (off : Nat) (w : Word) :
    (s.setW u off w).fuses = s.fuses := rfl
@[simp] theorem State.setW_fuseDue (s : State) (u : UnitId) (off : Nat) (w : Word) :
    (s.setW u off w).fuseDue = s.fuseDue := rfl
@[simp] theorem State.setW_bay (s : State) (u : UnitId) (off : Nat) (w : Word) :
    (s.setW u off w).bay = s.bay := rfl
@[simp] theorem State.setW_bslots (s : State) (u : UnitId) (off : Nat) (w : Word) :
    (s.setW u off w).bslots = s.bslots := rfl
@[simp] theorem State.setW_pools (s : State) (u : UnitId) (off : Nat) (w : Word) :
    (s.setW u off w).pools = s.pools := rfl
@[simp] theorem State.setW_lastPool (s : State) (u : UnitId) (off : Nat) (w : Word) :
    (s.setW u off w).lastPool = s.lastPool := rfl
@[simp] theorem State.setW_mm (s : State) (u : UnitId) (off : Nat) (w : Word) :
    (s.setW u off w).mm = s.mm := rfl
@[simp] theorem State.setW_objs (s : State) (u : UnitId) (off : Nat) (w : Word) :
    (s.setW u off w).objs = s.objs := rfl
@[simp] theorem State.setW_links (s : State) (u : UnitId) (off : Nat) (w : Word) :
    (s.setW u off w).links = s.links := rfl
@[simp] theorem State.setW_net (s : State) (u : UnitId) (off : Nat) (w : Word) :
    (s.setW u off w).net = s.net := rfl
@[simp] theorem State.setW_clk (s : State) (u : UnitId) (off : Nat) (w : Word) :
    (s.setW u off w).clk = s.clk := rfl
@[simp] theorem State.setW_commits (s : State) (u : UnitId) (off : Nat) (w : Word) :
    (s.setW u off w).commits = s.commits := rfl
@[simp] theorem State.setW_pw (s : State) (u : UnitId) (off : Nat) (w : Word) :
    (s.setW u off w).pw = s.pw := rfl
@[simp] theorem State.setW_host (s : State) (u : UnitId) (off : Nat) (w : Word) :
    (s.setW u off w).host = s.host := rfl
@[simp] theorem State.setW_assay (s : State) (u : UnitId) (off : Nat) (w : Word) :
    (s.setW u off w).assay = s.assay := rfl
@[simp] theorem State.setW_mg (s : State) (u : UnitId) (off : Nat) (w : Word) :
    (s.setW u off w).mg = s.mg := rfl

/-! ## setF -/

@[simp] theorem State.setF_pending (s : State) (u : UnitId) (f : Fld) (v : Nat) :
    (s.setF u f v).pending = s.pending := rfl
@[simp] theorem State.setF_shadow (s : State) (u : UnitId) (f : Fld) (v : Nat) :
    (s.setF u f v).shadow = s.shadow := rfl
@[simp] theorem State.setF_latch (s : State) (u : UnitId) (f : Fld) (v : Nat) :
    (s.setF u f v).latch = s.latch := rfl
@[simp] theorem State.setF_evtCnt (s : State) (u : UnitId) (f : Fld) (v : Nat) :
    (s.setF u f v).evtCnt = s.evtCnt := rfl
@[simp] theorem State.setF_drove (s : State) (u : UnitId) (f : Fld) (v : Nat) :
    (s.setF u f v).drove = s.drove := rfl
@[simp] theorem State.setF_freeCtr (s : State) (u : UnitId) (f : Fld) (v : Nat) :
    (s.setF u f v).freeCtr = s.freeCtr := rfl
@[simp] theorem State.setF_stepped (s : State) (u : UnitId) (f : Fld) (v : Nat) :
    (s.setF u f v).stepped = s.stepped := rfl
@[simp] theorem State.setF_out (s : State) (u : UnitId) (f : Fld) (v : Nat) :
    (s.setF u f v).out = s.out := rfl
@[simp] theorem State.setF_tiles (s : State) (u : UnitId) (f : Fld) (v : Nat) :
    (s.setF u f v).tiles = s.tiles := rfl
@[simp] theorem State.setF_failing (s : State) (u : UnitId) (f : Fld) (v : Nat) :
    (s.setF u f v).failing = s.failing := rfl
@[simp] theorem State.setF_fuses (s : State) (u : UnitId) (f : Fld) (v : Nat) :
    (s.setF u f v).fuses = s.fuses := rfl
@[simp] theorem State.setF_fuseDue (s : State) (u : UnitId) (f : Fld) (v : Nat) :
    (s.setF u f v).fuseDue = s.fuseDue := rfl
@[simp] theorem State.setF_bay (s : State) (u : UnitId) (f : Fld) (v : Nat) :
    (s.setF u f v).bay = s.bay := rfl
@[simp] theorem State.setF_bslots (s : State) (u : UnitId) (f : Fld) (v : Nat) :
    (s.setF u f v).bslots = s.bslots := rfl
@[simp] theorem State.setF_pools (s : State) (u : UnitId) (f : Fld) (v : Nat) :
    (s.setF u f v).pools = s.pools := rfl
@[simp] theorem State.setF_lastPool (s : State) (u : UnitId) (f : Fld) (v : Nat) :
    (s.setF u f v).lastPool = s.lastPool := rfl
@[simp] theorem State.setF_mm (s : State) (u : UnitId) (f : Fld) (v : Nat) :
    (s.setF u f v).mm = s.mm := rfl
@[simp] theorem State.setF_objs (s : State) (u : UnitId) (f : Fld) (v : Nat) :
    (s.setF u f v).objs = s.objs := rfl
@[simp] theorem State.setF_links (s : State) (u : UnitId) (f : Fld) (v : Nat) :
    (s.setF u f v).links = s.links := rfl
@[simp] theorem State.setF_net (s : State) (u : UnitId) (f : Fld) (v : Nat) :
    (s.setF u f v).net = s.net := rfl
@[simp] theorem State.setF_clk (s : State) (u : UnitId) (f : Fld) (v : Nat) :
    (s.setF u f v).clk = s.clk := rfl
@[simp] theorem State.setF_commits (s : State) (u : UnitId) (f : Fld) (v : Nat) :
    (s.setF u f v).commits = s.commits := rfl
@[simp] theorem State.setF_pw (s : State) (u : UnitId) (f : Fld) (v : Nat) :
    (s.setF u f v).pw = s.pw := rfl
@[simp] theorem State.setF_host (s : State) (u : UnitId) (f : Fld) (v : Nat) :
    (s.setF u f v).host = s.host := rfl
@[simp] theorem State.setF_assay (s : State) (u : UnitId) (f : Fld) (v : Nat) :
    (s.setF u f v).assay = s.assay := rfl
@[simp] theorem State.setF_mg (s : State) (u : UnitId) (f : Fld) (v : Nat) :
    (s.setF u f v).mg = s.mg := rfl

/-! ## setPair -/

@[simp] theorem State.setPair_pending (s : State) (u : UnitId) (lo hi : Fld) (v : Nat) :
    (s.setPair u lo hi v).pending = s.pending := rfl
@[simp] theorem State.setPair_shadow (s : State) (u : UnitId) (lo hi : Fld) (v : Nat) :
    (s.setPair u lo hi v).shadow = s.shadow := rfl
@[simp] theorem State.setPair_latch (s : State) (u : UnitId) (lo hi : Fld) (v : Nat) :
    (s.setPair u lo hi v).latch = s.latch := rfl
@[simp] theorem State.setPair_evtCnt (s : State) (u : UnitId) (lo hi : Fld) (v : Nat) :
    (s.setPair u lo hi v).evtCnt = s.evtCnt := rfl
@[simp] theorem State.setPair_drove (s : State) (u : UnitId) (lo hi : Fld) (v : Nat) :
    (s.setPair u lo hi v).drove = s.drove := rfl
@[simp] theorem State.setPair_freeCtr (s : State) (u : UnitId) (lo hi : Fld) (v : Nat) :
    (s.setPair u lo hi v).freeCtr = s.freeCtr := rfl
@[simp] theorem State.setPair_stepped (s : State) (u : UnitId) (lo hi : Fld) (v : Nat) :
    (s.setPair u lo hi v).stepped = s.stepped := rfl
@[simp] theorem State.setPair_out (s : State) (u : UnitId) (lo hi : Fld) (v : Nat) :
    (s.setPair u lo hi v).out = s.out := rfl
@[simp] theorem State.setPair_tiles (s : State) (u : UnitId) (lo hi : Fld) (v : Nat) :
    (s.setPair u lo hi v).tiles = s.tiles := rfl
@[simp] theorem State.setPair_failing (s : State) (u : UnitId) (lo hi : Fld) (v : Nat) :
    (s.setPair u lo hi v).failing = s.failing := rfl
@[simp] theorem State.setPair_fuses (s : State) (u : UnitId) (lo hi : Fld) (v : Nat) :
    (s.setPair u lo hi v).fuses = s.fuses := rfl
@[simp] theorem State.setPair_fuseDue (s : State) (u : UnitId) (lo hi : Fld) (v : Nat) :
    (s.setPair u lo hi v).fuseDue = s.fuseDue := rfl
@[simp] theorem State.setPair_bay (s : State) (u : UnitId) (lo hi : Fld) (v : Nat) :
    (s.setPair u lo hi v).bay = s.bay := rfl
@[simp] theorem State.setPair_bslots (s : State) (u : UnitId) (lo hi : Fld) (v : Nat) :
    (s.setPair u lo hi v).bslots = s.bslots := rfl
@[simp] theorem State.setPair_pools (s : State) (u : UnitId) (lo hi : Fld) (v : Nat) :
    (s.setPair u lo hi v).pools = s.pools := rfl
@[simp] theorem State.setPair_lastPool (s : State) (u : UnitId) (lo hi : Fld) (v : Nat) :
    (s.setPair u lo hi v).lastPool = s.lastPool := rfl
@[simp] theorem State.setPair_mm (s : State) (u : UnitId) (lo hi : Fld) (v : Nat) :
    (s.setPair u lo hi v).mm = s.mm := rfl
@[simp] theorem State.setPair_objs (s : State) (u : UnitId) (lo hi : Fld) (v : Nat) :
    (s.setPair u lo hi v).objs = s.objs := rfl
@[simp] theorem State.setPair_links (s : State) (u : UnitId) (lo hi : Fld) (v : Nat) :
    (s.setPair u lo hi v).links = s.links := rfl
@[simp] theorem State.setPair_net (s : State) (u : UnitId) (lo hi : Fld) (v : Nat) :
    (s.setPair u lo hi v).net = s.net := rfl
@[simp] theorem State.setPair_clk (s : State) (u : UnitId) (lo hi : Fld) (v : Nat) :
    (s.setPair u lo hi v).clk = s.clk := rfl
@[simp] theorem State.setPair_commits (s : State) (u : UnitId) (lo hi : Fld) (v : Nat) :
    (s.setPair u lo hi v).commits = s.commits := rfl
@[simp] theorem State.setPair_pw (s : State) (u : UnitId) (lo hi : Fld) (v : Nat) :
    (s.setPair u lo hi v).pw = s.pw := rfl
@[simp] theorem State.setPair_host (s : State) (u : UnitId) (lo hi : Fld) (v : Nat) :
    (s.setPair u lo hi v).host = s.host := rfl
@[simp] theorem State.setPair_assay (s : State) (u : UnitId) (lo hi : Fld) (v : Nat) :
    (s.setPair u lo hi v).assay = s.assay := rfl
@[simp] theorem State.setPair_mg (s : State) (u : UnitId) (lo hi : Fld) (v : Nat) :
    (s.setPair u lo hi v).mg = s.mg := rfl

/-! ## bumpBy -/

@[simp] theorem State.bumpBy_pending (s : State) (u : UnitId) (f : Fld) (n : Nat) :
    (s.bumpBy u f n).pending = s.pending := rfl
@[simp] theorem State.bumpBy_shadow (s : State) (u : UnitId) (f : Fld) (n : Nat) :
    (s.bumpBy u f n).shadow = s.shadow := rfl
@[simp] theorem State.bumpBy_latch (s : State) (u : UnitId) (f : Fld) (n : Nat) :
    (s.bumpBy u f n).latch = s.latch := rfl
@[simp] theorem State.bumpBy_evtCnt (s : State) (u : UnitId) (f : Fld) (n : Nat) :
    (s.bumpBy u f n).evtCnt = s.evtCnt := rfl
@[simp] theorem State.bumpBy_drove (s : State) (u : UnitId) (f : Fld) (n : Nat) :
    (s.bumpBy u f n).drove = s.drove := rfl
@[simp] theorem State.bumpBy_freeCtr (s : State) (u : UnitId) (f : Fld) (n : Nat) :
    (s.bumpBy u f n).freeCtr = s.freeCtr := rfl
@[simp] theorem State.bumpBy_stepped (s : State) (u : UnitId) (f : Fld) (n : Nat) :
    (s.bumpBy u f n).stepped = s.stepped := rfl
@[simp] theorem State.bumpBy_out (s : State) (u : UnitId) (f : Fld) (n : Nat) :
    (s.bumpBy u f n).out = s.out := rfl
@[simp] theorem State.bumpBy_tiles (s : State) (u : UnitId) (f : Fld) (n : Nat) :
    (s.bumpBy u f n).tiles = s.tiles := rfl
@[simp] theorem State.bumpBy_failing (s : State) (u : UnitId) (f : Fld) (n : Nat) :
    (s.bumpBy u f n).failing = s.failing := rfl
@[simp] theorem State.bumpBy_fuses (s : State) (u : UnitId) (f : Fld) (n : Nat) :
    (s.bumpBy u f n).fuses = s.fuses := rfl
@[simp] theorem State.bumpBy_fuseDue (s : State) (u : UnitId) (f : Fld) (n : Nat) :
    (s.bumpBy u f n).fuseDue = s.fuseDue := rfl
@[simp] theorem State.bumpBy_bay (s : State) (u : UnitId) (f : Fld) (n : Nat) :
    (s.bumpBy u f n).bay = s.bay := rfl
@[simp] theorem State.bumpBy_bslots (s : State) (u : UnitId) (f : Fld) (n : Nat) :
    (s.bumpBy u f n).bslots = s.bslots := rfl
@[simp] theorem State.bumpBy_pools (s : State) (u : UnitId) (f : Fld) (n : Nat) :
    (s.bumpBy u f n).pools = s.pools := rfl
@[simp] theorem State.bumpBy_lastPool (s : State) (u : UnitId) (f : Fld) (n : Nat) :
    (s.bumpBy u f n).lastPool = s.lastPool := rfl
@[simp] theorem State.bumpBy_mm (s : State) (u : UnitId) (f : Fld) (n : Nat) :
    (s.bumpBy u f n).mm = s.mm := rfl
@[simp] theorem State.bumpBy_objs (s : State) (u : UnitId) (f : Fld) (n : Nat) :
    (s.bumpBy u f n).objs = s.objs := rfl
@[simp] theorem State.bumpBy_links (s : State) (u : UnitId) (f : Fld) (n : Nat) :
    (s.bumpBy u f n).links = s.links := rfl
@[simp] theorem State.bumpBy_net (s : State) (u : UnitId) (f : Fld) (n : Nat) :
    (s.bumpBy u f n).net = s.net := rfl
@[simp] theorem State.bumpBy_clk (s : State) (u : UnitId) (f : Fld) (n : Nat) :
    (s.bumpBy u f n).clk = s.clk := rfl
@[simp] theorem State.bumpBy_commits (s : State) (u : UnitId) (f : Fld) (n : Nat) :
    (s.bumpBy u f n).commits = s.commits := rfl
@[simp] theorem State.bumpBy_pw (s : State) (u : UnitId) (f : Fld) (n : Nat) :
    (s.bumpBy u f n).pw = s.pw := rfl
@[simp] theorem State.bumpBy_host (s : State) (u : UnitId) (f : Fld) (n : Nat) :
    (s.bumpBy u f n).host = s.host := rfl
@[simp] theorem State.bumpBy_assay (s : State) (u : UnitId) (f : Fld) (n : Nat) :
    (s.bumpBy u f n).assay = s.assay := rfl
@[simp] theorem State.bumpBy_mg (s : State) (u : UnitId) (f : Fld) (n : Nat) :
    (s.bumpBy u f n).mg = s.mg := rfl

/-! ## bump -/

@[simp] theorem State.bump_pending (s : State) (u : UnitId) (f : Fld) :
    (s.bump u f).pending = s.pending := rfl
@[simp] theorem State.bump_shadow (s : State) (u : UnitId) (f : Fld) :
    (s.bump u f).shadow = s.shadow := rfl
@[simp] theorem State.bump_latch (s : State) (u : UnitId) (f : Fld) :
    (s.bump u f).latch = s.latch := rfl
@[simp] theorem State.bump_evtCnt (s : State) (u : UnitId) (f : Fld) :
    (s.bump u f).evtCnt = s.evtCnt := rfl
@[simp] theorem State.bump_drove (s : State) (u : UnitId) (f : Fld) :
    (s.bump u f).drove = s.drove := rfl
@[simp] theorem State.bump_freeCtr (s : State) (u : UnitId) (f : Fld) :
    (s.bump u f).freeCtr = s.freeCtr := rfl
@[simp] theorem State.bump_stepped (s : State) (u : UnitId) (f : Fld) :
    (s.bump u f).stepped = s.stepped := rfl
@[simp] theorem State.bump_out (s : State) (u : UnitId) (f : Fld) :
    (s.bump u f).out = s.out := rfl
@[simp] theorem State.bump_tiles (s : State) (u : UnitId) (f : Fld) :
    (s.bump u f).tiles = s.tiles := rfl
@[simp] theorem State.bump_failing (s : State) (u : UnitId) (f : Fld) :
    (s.bump u f).failing = s.failing := rfl
@[simp] theorem State.bump_fuses (s : State) (u : UnitId) (f : Fld) :
    (s.bump u f).fuses = s.fuses := rfl
@[simp] theorem State.bump_fuseDue (s : State) (u : UnitId) (f : Fld) :
    (s.bump u f).fuseDue = s.fuseDue := rfl
@[simp] theorem State.bump_bay (s : State) (u : UnitId) (f : Fld) :
    (s.bump u f).bay = s.bay := rfl
@[simp] theorem State.bump_bslots (s : State) (u : UnitId) (f : Fld) :
    (s.bump u f).bslots = s.bslots := rfl
@[simp] theorem State.bump_pools (s : State) (u : UnitId) (f : Fld) :
    (s.bump u f).pools = s.pools := rfl
@[simp] theorem State.bump_lastPool (s : State) (u : UnitId) (f : Fld) :
    (s.bump u f).lastPool = s.lastPool := rfl
@[simp] theorem State.bump_mm (s : State) (u : UnitId) (f : Fld) :
    (s.bump u f).mm = s.mm := rfl
@[simp] theorem State.bump_objs (s : State) (u : UnitId) (f : Fld) :
    (s.bump u f).objs = s.objs := rfl
@[simp] theorem State.bump_links (s : State) (u : UnitId) (f : Fld) :
    (s.bump u f).links = s.links := rfl
@[simp] theorem State.bump_net (s : State) (u : UnitId) (f : Fld) :
    (s.bump u f).net = s.net := rfl
@[simp] theorem State.bump_clk (s : State) (u : UnitId) (f : Fld) :
    (s.bump u f).clk = s.clk := rfl
@[simp] theorem State.bump_commits (s : State) (u : UnitId) (f : Fld) :
    (s.bump u f).commits = s.commits := rfl
@[simp] theorem State.bump_pw (s : State) (u : UnitId) (f : Fld) :
    (s.bump u f).pw = s.pw := rfl
@[simp] theorem State.bump_host (s : State) (u : UnitId) (f : Fld) :
    (s.bump u f).host = s.host := rfl
@[simp] theorem State.bump_assay (s : State) (u : UnitId) (f : Fld) :
    (s.bump u f).assay = s.assay := rfl
@[simp] theorem State.bump_mg (s : State) (u : UnitId) (f : Fld) :
    (s.bump u f).mg = s.mg := rfl

/-! ## addPair -/

@[simp] theorem State.addPair_pending (s : State) (u : UnitId) (lo hi : Fld) (n : Nat) :
    (s.addPair u lo hi n).pending = s.pending := rfl
@[simp] theorem State.addPair_shadow (s : State) (u : UnitId) (lo hi : Fld) (n : Nat) :
    (s.addPair u lo hi n).shadow = s.shadow := rfl
@[simp] theorem State.addPair_latch (s : State) (u : UnitId) (lo hi : Fld) (n : Nat) :
    (s.addPair u lo hi n).latch = s.latch := rfl
@[simp] theorem State.addPair_evtCnt (s : State) (u : UnitId) (lo hi : Fld) (n : Nat) :
    (s.addPair u lo hi n).evtCnt = s.evtCnt := rfl
@[simp] theorem State.addPair_drove (s : State) (u : UnitId) (lo hi : Fld) (n : Nat) :
    (s.addPair u lo hi n).drove = s.drove := rfl
@[simp] theorem State.addPair_freeCtr (s : State) (u : UnitId) (lo hi : Fld) (n : Nat) :
    (s.addPair u lo hi n).freeCtr = s.freeCtr := rfl
@[simp] theorem State.addPair_stepped (s : State) (u : UnitId) (lo hi : Fld) (n : Nat) :
    (s.addPair u lo hi n).stepped = s.stepped := rfl
@[simp] theorem State.addPair_out (s : State) (u : UnitId) (lo hi : Fld) (n : Nat) :
    (s.addPair u lo hi n).out = s.out := rfl
@[simp] theorem State.addPair_tiles (s : State) (u : UnitId) (lo hi : Fld) (n : Nat) :
    (s.addPair u lo hi n).tiles = s.tiles := rfl
@[simp] theorem State.addPair_failing (s : State) (u : UnitId) (lo hi : Fld) (n : Nat) :
    (s.addPair u lo hi n).failing = s.failing := rfl
@[simp] theorem State.addPair_fuses (s : State) (u : UnitId) (lo hi : Fld) (n : Nat) :
    (s.addPair u lo hi n).fuses = s.fuses := rfl
@[simp] theorem State.addPair_fuseDue (s : State) (u : UnitId) (lo hi : Fld) (n : Nat) :
    (s.addPair u lo hi n).fuseDue = s.fuseDue := rfl
@[simp] theorem State.addPair_bay (s : State) (u : UnitId) (lo hi : Fld) (n : Nat) :
    (s.addPair u lo hi n).bay = s.bay := rfl
@[simp] theorem State.addPair_bslots (s : State) (u : UnitId) (lo hi : Fld) (n : Nat) :
    (s.addPair u lo hi n).bslots = s.bslots := rfl
@[simp] theorem State.addPair_pools (s : State) (u : UnitId) (lo hi : Fld) (n : Nat) :
    (s.addPair u lo hi n).pools = s.pools := rfl
@[simp] theorem State.addPair_lastPool (s : State) (u : UnitId) (lo hi : Fld) (n : Nat) :
    (s.addPair u lo hi n).lastPool = s.lastPool := rfl
@[simp] theorem State.addPair_mm (s : State) (u : UnitId) (lo hi : Fld) (n : Nat) :
    (s.addPair u lo hi n).mm = s.mm := rfl
@[simp] theorem State.addPair_objs (s : State) (u : UnitId) (lo hi : Fld) (n : Nat) :
    (s.addPair u lo hi n).objs = s.objs := rfl
@[simp] theorem State.addPair_links (s : State) (u : UnitId) (lo hi : Fld) (n : Nat) :
    (s.addPair u lo hi n).links = s.links := rfl
@[simp] theorem State.addPair_net (s : State) (u : UnitId) (lo hi : Fld) (n : Nat) :
    (s.addPair u lo hi n).net = s.net := rfl
@[simp] theorem State.addPair_clk (s : State) (u : UnitId) (lo hi : Fld) (n : Nat) :
    (s.addPair u lo hi n).clk = s.clk := rfl
@[simp] theorem State.addPair_commits (s : State) (u : UnitId) (lo hi : Fld) (n : Nat) :
    (s.addPair u lo hi n).commits = s.commits := rfl
@[simp] theorem State.addPair_pw (s : State) (u : UnitId) (lo hi : Fld) (n : Nat) :
    (s.addPair u lo hi n).pw = s.pw := rfl
@[simp] theorem State.addPair_host (s : State) (u : UnitId) (lo hi : Fld) (n : Nat) :
    (s.addPair u lo hi n).host = s.host := rfl
@[simp] theorem State.addPair_assay (s : State) (u : UnitId) (lo hi : Fld) (n : Nat) :
    (s.addPair u lo hi n).assay = s.assay := rfl
@[simp] theorem State.addPair_mg (s : State) (u : UnitId) (lo hi : Fld) (n : Nat) :
    (s.addPair u lo hi n).mg = s.mg := rfl

/-! ## setTileState -/

@[simp] theorem State.setTileState_pending (s : State) (d : Fin 4) (t v : Nat) :
    (s.setTileState d t v).pending = s.pending := rfl
@[simp] theorem State.setTileState_shadow (s : State) (d : Fin 4) (t v : Nat) :
    (s.setTileState d t v).shadow = s.shadow := rfl
@[simp] theorem State.setTileState_latch (s : State) (d : Fin 4) (t v : Nat) :
    (s.setTileState d t v).latch = s.latch := rfl
@[simp] theorem State.setTileState_evtCnt (s : State) (d : Fin 4) (t v : Nat) :
    (s.setTileState d t v).evtCnt = s.evtCnt := rfl
@[simp] theorem State.setTileState_drove (s : State) (d : Fin 4) (t v : Nat) :
    (s.setTileState d t v).drove = s.drove := rfl
@[simp] theorem State.setTileState_freeCtr (s : State) (d : Fin 4) (t v : Nat) :
    (s.setTileState d t v).freeCtr = s.freeCtr := rfl
@[simp] theorem State.setTileState_stepped (s : State) (d : Fin 4) (t v : Nat) :
    (s.setTileState d t v).stepped = s.stepped := rfl
@[simp] theorem State.setTileState_out (s : State) (d : Fin 4) (t v : Nat) :
    (s.setTileState d t v).out = s.out := rfl
@[simp] theorem State.setTileState_tiles (s : State) (d : Fin 4) (t v : Nat) :
    (s.setTileState d t v).tiles = s.tiles := rfl
@[simp] theorem State.setTileState_failing (s : State) (d : Fin 4) (t v : Nat) :
    (s.setTileState d t v).failing = s.failing := rfl
@[simp] theorem State.setTileState_fuses (s : State) (d : Fin 4) (t v : Nat) :
    (s.setTileState d t v).fuses = s.fuses := rfl
@[simp] theorem State.setTileState_fuseDue (s : State) (d : Fin 4) (t v : Nat) :
    (s.setTileState d t v).fuseDue = s.fuseDue := rfl
@[simp] theorem State.setTileState_bay (s : State) (d : Fin 4) (t v : Nat) :
    (s.setTileState d t v).bay = s.bay := rfl
@[simp] theorem State.setTileState_bslots (s : State) (d : Fin 4) (t v : Nat) :
    (s.setTileState d t v).bslots = s.bslots := rfl
@[simp] theorem State.setTileState_pools (s : State) (d : Fin 4) (t v : Nat) :
    (s.setTileState d t v).pools = s.pools := rfl
@[simp] theorem State.setTileState_lastPool (s : State) (d : Fin 4) (t v : Nat) :
    (s.setTileState d t v).lastPool = s.lastPool := rfl
@[simp] theorem State.setTileState_mm (s : State) (d : Fin 4) (t v : Nat) :
    (s.setTileState d t v).mm = s.mm := rfl
@[simp] theorem State.setTileState_objs (s : State) (d : Fin 4) (t v : Nat) :
    (s.setTileState d t v).objs = s.objs := rfl
@[simp] theorem State.setTileState_links (s : State) (d : Fin 4) (t v : Nat) :
    (s.setTileState d t v).links = s.links := rfl
@[simp] theorem State.setTileState_net (s : State) (d : Fin 4) (t v : Nat) :
    (s.setTileState d t v).net = s.net := rfl
@[simp] theorem State.setTileState_clk (s : State) (d : Fin 4) (t v : Nat) :
    (s.setTileState d t v).clk = s.clk := rfl
@[simp] theorem State.setTileState_commits (s : State) (d : Fin 4) (t v : Nat) :
    (s.setTileState d t v).commits = s.commits := rfl
@[simp] theorem State.setTileState_pw (s : State) (d : Fin 4) (t v : Nat) :
    (s.setTileState d t v).pw = s.pw := rfl
@[simp] theorem State.setTileState_host (s : State) (d : Fin 4) (t v : Nat) :
    (s.setTileState d t v).host = s.host := rfl
@[simp] theorem State.setTileState_assay (s : State) (d : Fin 4) (t v : Nat) :
    (s.setTileState d t v).assay = s.assay := rfl
@[simp] theorem State.setTileState_mg (s : State) (d : Fin 4) (t v : Nat) :
    (s.setTileState d t v).mg = s.mg := rfl

/-! ## raise -/

@[simp] theorem State.raise_pending (s : State) (u : UnitId) (b : Nat) :
    (s.raise u b).pending = s.pending := rfl
@[simp] theorem State.raise_shadow (s : State) (u : UnitId) (b : Nat) :
    (s.raise u b).shadow = s.shadow := rfl
@[simp] theorem State.raise_latch (s : State) (u : UnitId) (b : Nat) :
    (s.raise u b).latch = s.latch := rfl
@[simp] theorem State.raise_drove (s : State) (u : UnitId) (b : Nat) :
    (s.raise u b).drove = s.drove := rfl
@[simp] theorem State.raise_freeCtr (s : State) (u : UnitId) (b : Nat) :
    (s.raise u b).freeCtr = s.freeCtr := rfl
@[simp] theorem State.raise_stepped (s : State) (u : UnitId) (b : Nat) :
    (s.raise u b).stepped = s.stepped := rfl
@[simp] theorem State.raise_out (s : State) (u : UnitId) (b : Nat) :
    (s.raise u b).out = s.out := rfl
@[simp] theorem State.raise_tiles (s : State) (u : UnitId) (b : Nat) :
    (s.raise u b).tiles = s.tiles := rfl
@[simp] theorem State.raise_failing (s : State) (u : UnitId) (b : Nat) :
    (s.raise u b).failing = s.failing := rfl
@[simp] theorem State.raise_fuses (s : State) (u : UnitId) (b : Nat) :
    (s.raise u b).fuses = s.fuses := rfl
@[simp] theorem State.raise_fuseDue (s : State) (u : UnitId) (b : Nat) :
    (s.raise u b).fuseDue = s.fuseDue := rfl
@[simp] theorem State.raise_bay (s : State) (u : UnitId) (b : Nat) :
    (s.raise u b).bay = s.bay := rfl
@[simp] theorem State.raise_bslots (s : State) (u : UnitId) (b : Nat) :
    (s.raise u b).bslots = s.bslots := rfl
@[simp] theorem State.raise_pools (s : State) (u : UnitId) (b : Nat) :
    (s.raise u b).pools = s.pools := rfl
@[simp] theorem State.raise_lastPool (s : State) (u : UnitId) (b : Nat) :
    (s.raise u b).lastPool = s.lastPool := rfl
@[simp] theorem State.raise_mm (s : State) (u : UnitId) (b : Nat) :
    (s.raise u b).mm = s.mm := rfl
@[simp] theorem State.raise_objs (s : State) (u : UnitId) (b : Nat) :
    (s.raise u b).objs = s.objs := rfl
@[simp] theorem State.raise_links (s : State) (u : UnitId) (b : Nat) :
    (s.raise u b).links = s.links := rfl
@[simp] theorem State.raise_net (s : State) (u : UnitId) (b : Nat) :
    (s.raise u b).net = s.net := rfl
@[simp] theorem State.raise_clk (s : State) (u : UnitId) (b : Nat) :
    (s.raise u b).clk = s.clk := rfl
@[simp] theorem State.raise_commits (s : State) (u : UnitId) (b : Nat) :
    (s.raise u b).commits = s.commits := rfl
@[simp] theorem State.raise_pw (s : State) (u : UnitId) (b : Nat) :
    (s.raise u b).pw = s.pw := rfl
@[simp] theorem State.raise_host (s : State) (u : UnitId) (b : Nat) :
    (s.raise u b).host = s.host := rfl
@[simp] theorem State.raise_assay (s : State) (u : UnitId) (b : Nat) :
    (s.raise u b).assay = s.assay := rfl
@[simp] theorem State.raise_mg (s : State) (u : UnitId) (b : Nat) :
    (s.raise u b).mg = s.mg := rfl

/-! ## emit -/

@[simp] theorem State.emit_pending (s : State) (o : Out) :
    (s.emit o).pending = s.pending := rfl
@[simp] theorem State.emit_regs (s : State) (o : Out) :
    (s.emit o).regs = s.regs := rfl
@[simp] theorem State.emit_shadow (s : State) (o : Out) :
    (s.emit o).shadow = s.shadow := rfl
@[simp] theorem State.emit_latch (s : State) (o : Out) :
    (s.emit o).latch = s.latch := rfl
@[simp] theorem State.emit_evtCnt (s : State) (o : Out) :
    (s.emit o).evtCnt = s.evtCnt := rfl
@[simp] theorem State.emit_drove (s : State) (o : Out) :
    (s.emit o).drove = s.drove := rfl
@[simp] theorem State.emit_freeCtr (s : State) (o : Out) :
    (s.emit o).freeCtr = s.freeCtr := rfl
@[simp] theorem State.emit_stepped (s : State) (o : Out) :
    (s.emit o).stepped = s.stepped := rfl
@[simp] theorem State.emit_tiles (s : State) (o : Out) :
    (s.emit o).tiles = s.tiles := rfl
@[simp] theorem State.emit_failing (s : State) (o : Out) :
    (s.emit o).failing = s.failing := rfl
@[simp] theorem State.emit_fuses (s : State) (o : Out) :
    (s.emit o).fuses = s.fuses := rfl
@[simp] theorem State.emit_fuseDue (s : State) (o : Out) :
    (s.emit o).fuseDue = s.fuseDue := rfl
@[simp] theorem State.emit_bay (s : State) (o : Out) :
    (s.emit o).bay = s.bay := rfl
@[simp] theorem State.emit_bslots (s : State) (o : Out) :
    (s.emit o).bslots = s.bslots := rfl
@[simp] theorem State.emit_pools (s : State) (o : Out) :
    (s.emit o).pools = s.pools := rfl
@[simp] theorem State.emit_lastPool (s : State) (o : Out) :
    (s.emit o).lastPool = s.lastPool := rfl
@[simp] theorem State.emit_mm (s : State) (o : Out) :
    (s.emit o).mm = s.mm := rfl
@[simp] theorem State.emit_objs (s : State) (o : Out) :
    (s.emit o).objs = s.objs := rfl
@[simp] theorem State.emit_links (s : State) (o : Out) :
    (s.emit o).links = s.links := rfl
@[simp] theorem State.emit_net (s : State) (o : Out) :
    (s.emit o).net = s.net := rfl
@[simp] theorem State.emit_clk (s : State) (o : Out) :
    (s.emit o).clk = s.clk := rfl
@[simp] theorem State.emit_commits (s : State) (o : Out) :
    (s.emit o).commits = s.commits := rfl
@[simp] theorem State.emit_pw (s : State) (o : Out) :
    (s.emit o).pw = s.pw := rfl
@[simp] theorem State.emit_host (s : State) (o : Out) :
    (s.emit o).host = s.host := rfl
@[simp] theorem State.emit_assay (s : State) (o : Out) :
    (s.emit o).assay = s.assay := rfl
@[simp] theorem State.emit_mg (s : State) (o : Out) :
    (s.emit o).mg = s.mg := rfl

/-! ## tickFree -/

@[simp] theorem State.tickFree_pending (s : State) :
    (s.tickFree).pending = s.pending := rfl
@[simp] theorem State.tickFree_regs (s : State) :
    (s.tickFree).regs = s.regs := rfl
@[simp] theorem State.tickFree_shadow (s : State) :
    (s.tickFree).shadow = s.shadow := rfl
@[simp] theorem State.tickFree_latch (s : State) :
    (s.tickFree).latch = s.latch := rfl
@[simp] theorem State.tickFree_evtCnt (s : State) :
    (s.tickFree).evtCnt = s.evtCnt := rfl
@[simp] theorem State.tickFree_drove (s : State) :
    (s.tickFree).drove = s.drove := rfl
@[simp] theorem State.tickFree_stepped (s : State) :
    (s.tickFree).stepped = s.stepped := rfl
@[simp] theorem State.tickFree_out (s : State) :
    (s.tickFree).out = s.out := rfl
@[simp] theorem State.tickFree_tiles (s : State) :
    (s.tickFree).tiles = s.tiles := rfl
@[simp] theorem State.tickFree_failing (s : State) :
    (s.tickFree).failing = s.failing := rfl
@[simp] theorem State.tickFree_fuses (s : State) :
    (s.tickFree).fuses = s.fuses := rfl
@[simp] theorem State.tickFree_fuseDue (s : State) :
    (s.tickFree).fuseDue = s.fuseDue := rfl
@[simp] theorem State.tickFree_bay (s : State) :
    (s.tickFree).bay = s.bay := rfl
@[simp] theorem State.tickFree_bslots (s : State) :
    (s.tickFree).bslots = s.bslots := rfl
@[simp] theorem State.tickFree_pools (s : State) :
    (s.tickFree).pools = s.pools := rfl
@[simp] theorem State.tickFree_lastPool (s : State) :
    (s.tickFree).lastPool = s.lastPool := rfl
@[simp] theorem State.tickFree_mm (s : State) :
    (s.tickFree).mm = s.mm := rfl
@[simp] theorem State.tickFree_objs (s : State) :
    (s.tickFree).objs = s.objs := rfl
@[simp] theorem State.tickFree_links (s : State) :
    (s.tickFree).links = s.links := rfl
@[simp] theorem State.tickFree_net (s : State) :
    (s.tickFree).net = s.net := rfl
@[simp] theorem State.tickFree_clk (s : State) :
    (s.tickFree).clk = s.clk := rfl
@[simp] theorem State.tickFree_commits (s : State) :
    (s.tickFree).commits = s.commits := rfl
@[simp] theorem State.tickFree_pw (s : State) :
    (s.tickFree).pw = s.pw := rfl
@[simp] theorem State.tickFree_host (s : State) :
    (s.tickFree).host = s.host := rfl
@[simp] theorem State.tickFree_assay (s : State) :
    (s.tickFree).assay = s.assay := rfl
@[simp] theorem State.tickFree_mg (s : State) :
    (s.tickFree).mg = s.mg := rfl

/-! ## setTile -/

@[simp] theorem State.setTile_pending (s : State) (d : Fin 4) (t : Fin 104) (x : Tile) :
    (s.setTile d t x).pending = s.pending := rfl
@[simp] theorem State.setTile_regs (s : State) (d : Fin 4) (t : Fin 104) (x : Tile) :
    (s.setTile d t x).regs = s.regs := rfl
@[simp] theorem State.setTile_shadow (s : State) (d : Fin 4) (t : Fin 104) (x : Tile) :
    (s.setTile d t x).shadow = s.shadow := rfl
@[simp] theorem State.setTile_latch (s : State) (d : Fin 4) (t : Fin 104) (x : Tile) :
    (s.setTile d t x).latch = s.latch := rfl
@[simp] theorem State.setTile_evtCnt (s : State) (d : Fin 4) (t : Fin 104) (x : Tile) :
    (s.setTile d t x).evtCnt = s.evtCnt := rfl
@[simp] theorem State.setTile_drove (s : State) (d : Fin 4) (t : Fin 104) (x : Tile) :
    (s.setTile d t x).drove = s.drove := rfl
@[simp] theorem State.setTile_freeCtr (s : State) (d : Fin 4) (t : Fin 104) (x : Tile) :
    (s.setTile d t x).freeCtr = s.freeCtr := rfl
@[simp] theorem State.setTile_stepped (s : State) (d : Fin 4) (t : Fin 104) (x : Tile) :
    (s.setTile d t x).stepped = s.stepped := rfl
@[simp] theorem State.setTile_out (s : State) (d : Fin 4) (t : Fin 104) (x : Tile) :
    (s.setTile d t x).out = s.out := rfl
@[simp] theorem State.setTile_failing (s : State) (d : Fin 4) (t : Fin 104) (x : Tile) :
    (s.setTile d t x).failing = s.failing := rfl
@[simp] theorem State.setTile_fuses (s : State) (d : Fin 4) (t : Fin 104) (x : Tile) :
    (s.setTile d t x).fuses = s.fuses := rfl
@[simp] theorem State.setTile_fuseDue (s : State) (d : Fin 4) (t : Fin 104) (x : Tile) :
    (s.setTile d t x).fuseDue = s.fuseDue := rfl
@[simp] theorem State.setTile_bay (s : State) (d : Fin 4) (t : Fin 104) (x : Tile) :
    (s.setTile d t x).bay = s.bay := rfl
@[simp] theorem State.setTile_bslots (s : State) (d : Fin 4) (t : Fin 104) (x : Tile) :
    (s.setTile d t x).bslots = s.bslots := rfl
@[simp] theorem State.setTile_pools (s : State) (d : Fin 4) (t : Fin 104) (x : Tile) :
    (s.setTile d t x).pools = s.pools := rfl
@[simp] theorem State.setTile_lastPool (s : State) (d : Fin 4) (t : Fin 104) (x : Tile) :
    (s.setTile d t x).lastPool = s.lastPool := rfl
@[simp] theorem State.setTile_mm (s : State) (d : Fin 4) (t : Fin 104) (x : Tile) :
    (s.setTile d t x).mm = s.mm := rfl
@[simp] theorem State.setTile_objs (s : State) (d : Fin 4) (t : Fin 104) (x : Tile) :
    (s.setTile d t x).objs = s.objs := rfl
@[simp] theorem State.setTile_links (s : State) (d : Fin 4) (t : Fin 104) (x : Tile) :
    (s.setTile d t x).links = s.links := rfl
@[simp] theorem State.setTile_net (s : State) (d : Fin 4) (t : Fin 104) (x : Tile) :
    (s.setTile d t x).net = s.net := rfl
@[simp] theorem State.setTile_clk (s : State) (d : Fin 4) (t : Fin 104) (x : Tile) :
    (s.setTile d t x).clk = s.clk := rfl
@[simp] theorem State.setTile_commits (s : State) (d : Fin 4) (t : Fin 104) (x : Tile) :
    (s.setTile d t x).commits = s.commits := rfl
@[simp] theorem State.setTile_pw (s : State) (d : Fin 4) (t : Fin 104) (x : Tile) :
    (s.setTile d t x).pw = s.pw := rfl
@[simp] theorem State.setTile_host (s : State) (d : Fin 4) (t : Fin 104) (x : Tile) :
    (s.setTile d t x).host = s.host := rfl
@[simp] theorem State.setTile_assay (s : State) (d : Fin 4) (t : Fin 104) (x : Tile) :
    (s.setTile d t x).assay = s.assay := rfl
@[simp] theorem State.setTile_mg (s : State) (d : Fin 4) (t : Fin 104) (x : Tile) :
    (s.setTile d t x).mg = s.mg := rfl

/-! ## setFails -/

@[simp] theorem State.setFails_pending (s : State) (d : Fin 4) (l : List Failing) :
    (s.setFails d l).pending = s.pending := rfl
@[simp] theorem State.setFails_regs (s : State) (d : Fin 4) (l : List Failing) :
    (s.setFails d l).regs = s.regs := rfl
@[simp] theorem State.setFails_shadow (s : State) (d : Fin 4) (l : List Failing) :
    (s.setFails d l).shadow = s.shadow := rfl
@[simp] theorem State.setFails_latch (s : State) (d : Fin 4) (l : List Failing) :
    (s.setFails d l).latch = s.latch := rfl
@[simp] theorem State.setFails_evtCnt (s : State) (d : Fin 4) (l : List Failing) :
    (s.setFails d l).evtCnt = s.evtCnt := rfl
@[simp] theorem State.setFails_drove (s : State) (d : Fin 4) (l : List Failing) :
    (s.setFails d l).drove = s.drove := rfl
@[simp] theorem State.setFails_freeCtr (s : State) (d : Fin 4) (l : List Failing) :
    (s.setFails d l).freeCtr = s.freeCtr := rfl
@[simp] theorem State.setFails_stepped (s : State) (d : Fin 4) (l : List Failing) :
    (s.setFails d l).stepped = s.stepped := rfl
@[simp] theorem State.setFails_out (s : State) (d : Fin 4) (l : List Failing) :
    (s.setFails d l).out = s.out := rfl
@[simp] theorem State.setFails_tiles (s : State) (d : Fin 4) (l : List Failing) :
    (s.setFails d l).tiles = s.tiles := rfl
@[simp] theorem State.setFails_fuses (s : State) (d : Fin 4) (l : List Failing) :
    (s.setFails d l).fuses = s.fuses := rfl
@[simp] theorem State.setFails_fuseDue (s : State) (d : Fin 4) (l : List Failing) :
    (s.setFails d l).fuseDue = s.fuseDue := rfl
@[simp] theorem State.setFails_bay (s : State) (d : Fin 4) (l : List Failing) :
    (s.setFails d l).bay = s.bay := rfl
@[simp] theorem State.setFails_bslots (s : State) (d : Fin 4) (l : List Failing) :
    (s.setFails d l).bslots = s.bslots := rfl
@[simp] theorem State.setFails_pools (s : State) (d : Fin 4) (l : List Failing) :
    (s.setFails d l).pools = s.pools := rfl
@[simp] theorem State.setFails_lastPool (s : State) (d : Fin 4) (l : List Failing) :
    (s.setFails d l).lastPool = s.lastPool := rfl
@[simp] theorem State.setFails_mm (s : State) (d : Fin 4) (l : List Failing) :
    (s.setFails d l).mm = s.mm := rfl
@[simp] theorem State.setFails_objs (s : State) (d : Fin 4) (l : List Failing) :
    (s.setFails d l).objs = s.objs := rfl
@[simp] theorem State.setFails_links (s : State) (d : Fin 4) (l : List Failing) :
    (s.setFails d l).links = s.links := rfl
@[simp] theorem State.setFails_net (s : State) (d : Fin 4) (l : List Failing) :
    (s.setFails d l).net = s.net := rfl
@[simp] theorem State.setFails_clk (s : State) (d : Fin 4) (l : List Failing) :
    (s.setFails d l).clk = s.clk := rfl
@[simp] theorem State.setFails_commits (s : State) (d : Fin 4) (l : List Failing) :
    (s.setFails d l).commits = s.commits := rfl
@[simp] theorem State.setFails_pw (s : State) (d : Fin 4) (l : List Failing) :
    (s.setFails d l).pw = s.pw := rfl
@[simp] theorem State.setFails_host (s : State) (d : Fin 4) (l : List Failing) :
    (s.setFails d l).host = s.host := rfl
@[simp] theorem State.setFails_assay (s : State) (d : Fin 4) (l : List Failing) :
    (s.setFails d l).assay = s.assay := rfl
@[simp] theorem State.setFails_mg (s : State) (d : Fin 4) (l : List Failing) :
    (s.setFails d l).mg = s.mg := rfl

/-! ## setBslot -/

@[simp] theorem State.setBslot_pending (s : State) (d : Fin 4) (k : Nat) (b : BSlot) :
    (s.setBslot d k b).pending = s.pending := rfl
@[simp] theorem State.setBslot_regs (s : State) (d : Fin 4) (k : Nat) (b : BSlot) :
    (s.setBslot d k b).regs = s.regs := rfl
@[simp] theorem State.setBslot_shadow (s : State) (d : Fin 4) (k : Nat) (b : BSlot) :
    (s.setBslot d k b).shadow = s.shadow := rfl
@[simp] theorem State.setBslot_latch (s : State) (d : Fin 4) (k : Nat) (b : BSlot) :
    (s.setBslot d k b).latch = s.latch := rfl
@[simp] theorem State.setBslot_evtCnt (s : State) (d : Fin 4) (k : Nat) (b : BSlot) :
    (s.setBslot d k b).evtCnt = s.evtCnt := rfl
@[simp] theorem State.setBslot_drove (s : State) (d : Fin 4) (k : Nat) (b : BSlot) :
    (s.setBslot d k b).drove = s.drove := rfl
@[simp] theorem State.setBslot_freeCtr (s : State) (d : Fin 4) (k : Nat) (b : BSlot) :
    (s.setBslot d k b).freeCtr = s.freeCtr := rfl
@[simp] theorem State.setBslot_stepped (s : State) (d : Fin 4) (k : Nat) (b : BSlot) :
    (s.setBslot d k b).stepped = s.stepped := rfl
@[simp] theorem State.setBslot_out (s : State) (d : Fin 4) (k : Nat) (b : BSlot) :
    (s.setBslot d k b).out = s.out := rfl
@[simp] theorem State.setBslot_tiles (s : State) (d : Fin 4) (k : Nat) (b : BSlot) :
    (s.setBslot d k b).tiles = s.tiles := rfl
@[simp] theorem State.setBslot_failing (s : State) (d : Fin 4) (k : Nat) (b : BSlot) :
    (s.setBslot d k b).failing = s.failing := rfl
@[simp] theorem State.setBslot_fuses (s : State) (d : Fin 4) (k : Nat) (b : BSlot) :
    (s.setBslot d k b).fuses = s.fuses := rfl
@[simp] theorem State.setBslot_fuseDue (s : State) (d : Fin 4) (k : Nat) (b : BSlot) :
    (s.setBslot d k b).fuseDue = s.fuseDue := rfl
@[simp] theorem State.setBslot_bay (s : State) (d : Fin 4) (k : Nat) (b : BSlot) :
    (s.setBslot d k b).bay = s.bay := rfl
@[simp] theorem State.setBslot_pools (s : State) (d : Fin 4) (k : Nat) (b : BSlot) :
    (s.setBslot d k b).pools = s.pools := rfl
@[simp] theorem State.setBslot_lastPool (s : State) (d : Fin 4) (k : Nat) (b : BSlot) :
    (s.setBslot d k b).lastPool = s.lastPool := rfl
@[simp] theorem State.setBslot_mm (s : State) (d : Fin 4) (k : Nat) (b : BSlot) :
    (s.setBslot d k b).mm = s.mm := rfl
@[simp] theorem State.setBslot_objs (s : State) (d : Fin 4) (k : Nat) (b : BSlot) :
    (s.setBslot d k b).objs = s.objs := rfl
@[simp] theorem State.setBslot_links (s : State) (d : Fin 4) (k : Nat) (b : BSlot) :
    (s.setBslot d k b).links = s.links := rfl
@[simp] theorem State.setBslot_net (s : State) (d : Fin 4) (k : Nat) (b : BSlot) :
    (s.setBslot d k b).net = s.net := rfl
@[simp] theorem State.setBslot_clk (s : State) (d : Fin 4) (k : Nat) (b : BSlot) :
    (s.setBslot d k b).clk = s.clk := rfl
@[simp] theorem State.setBslot_commits (s : State) (d : Fin 4) (k : Nat) (b : BSlot) :
    (s.setBslot d k b).commits = s.commits := rfl
@[simp] theorem State.setBslot_pw (s : State) (d : Fin 4) (k : Nat) (b : BSlot) :
    (s.setBslot d k b).pw = s.pw := rfl
@[simp] theorem State.setBslot_host (s : State) (d : Fin 4) (k : Nat) (b : BSlot) :
    (s.setBslot d k b).host = s.host := rfl
@[simp] theorem State.setBslot_assay (s : State) (d : Fin 4) (k : Nat) (b : BSlot) :
    (s.setBslot d k b).assay = s.assay := rfl
@[simp] theorem State.setBslot_mg (s : State) (d : Fin 4) (k : Nat) (b : BSlot) :
    (s.setBslot d k b).mg = s.mg := rfl

/-! ## setPool -/

@[simp] theorem State.setPool_pending (s : State) (p : Nat) (x : Pool) :
    (s.setPool p x).pending = s.pending := rfl
@[simp] theorem State.setPool_regs (s : State) (p : Nat) (x : Pool) :
    (s.setPool p x).regs = s.regs := rfl
@[simp] theorem State.setPool_shadow (s : State) (p : Nat) (x : Pool) :
    (s.setPool p x).shadow = s.shadow := rfl
@[simp] theorem State.setPool_latch (s : State) (p : Nat) (x : Pool) :
    (s.setPool p x).latch = s.latch := rfl
@[simp] theorem State.setPool_evtCnt (s : State) (p : Nat) (x : Pool) :
    (s.setPool p x).evtCnt = s.evtCnt := rfl
@[simp] theorem State.setPool_drove (s : State) (p : Nat) (x : Pool) :
    (s.setPool p x).drove = s.drove := rfl
@[simp] theorem State.setPool_freeCtr (s : State) (p : Nat) (x : Pool) :
    (s.setPool p x).freeCtr = s.freeCtr := rfl
@[simp] theorem State.setPool_stepped (s : State) (p : Nat) (x : Pool) :
    (s.setPool p x).stepped = s.stepped := rfl
@[simp] theorem State.setPool_out (s : State) (p : Nat) (x : Pool) :
    (s.setPool p x).out = s.out := rfl
@[simp] theorem State.setPool_tiles (s : State) (p : Nat) (x : Pool) :
    (s.setPool p x).tiles = s.tiles := rfl
@[simp] theorem State.setPool_failing (s : State) (p : Nat) (x : Pool) :
    (s.setPool p x).failing = s.failing := rfl
@[simp] theorem State.setPool_fuses (s : State) (p : Nat) (x : Pool) :
    (s.setPool p x).fuses = s.fuses := rfl
@[simp] theorem State.setPool_fuseDue (s : State) (p : Nat) (x : Pool) :
    (s.setPool p x).fuseDue = s.fuseDue := rfl
@[simp] theorem State.setPool_bay (s : State) (p : Nat) (x : Pool) :
    (s.setPool p x).bay = s.bay := rfl
@[simp] theorem State.setPool_bslots (s : State) (p : Nat) (x : Pool) :
    (s.setPool p x).bslots = s.bslots := rfl
@[simp] theorem State.setPool_lastPool (s : State) (p : Nat) (x : Pool) :
    (s.setPool p x).lastPool = s.lastPool := rfl
@[simp] theorem State.setPool_mm (s : State) (p : Nat) (x : Pool) :
    (s.setPool p x).mm = s.mm := rfl
@[simp] theorem State.setPool_objs (s : State) (p : Nat) (x : Pool) :
    (s.setPool p x).objs = s.objs := rfl
@[simp] theorem State.setPool_links (s : State) (p : Nat) (x : Pool) :
    (s.setPool p x).links = s.links := rfl
@[simp] theorem State.setPool_net (s : State) (p : Nat) (x : Pool) :
    (s.setPool p x).net = s.net := rfl
@[simp] theorem State.setPool_clk (s : State) (p : Nat) (x : Pool) :
    (s.setPool p x).clk = s.clk := rfl
@[simp] theorem State.setPool_commits (s : State) (p : Nat) (x : Pool) :
    (s.setPool p x).commits = s.commits := rfl
@[simp] theorem State.setPool_pw (s : State) (p : Nat) (x : Pool) :
    (s.setPool p x).pw = s.pw := rfl
@[simp] theorem State.setPool_host (s : State) (p : Nat) (x : Pool) :
    (s.setPool p x).host = s.host := rfl
@[simp] theorem State.setPool_assay (s : State) (p : Nat) (x : Pool) :
    (s.setPool p x).assay = s.assay := rfl
@[simp] theorem State.setPool_mg (s : State) (p : Nat) (x : Pool) :
    (s.setPool p x).mg = s.mg := rfl

/-! ## setObj -/

@[simp] theorem State.setObj_pending (s : State) (o : Nat) (x : Obj) :
    (s.setObj o x).pending = s.pending := rfl
@[simp] theorem State.setObj_regs (s : State) (o : Nat) (x : Obj) :
    (s.setObj o x).regs = s.regs := rfl
@[simp] theorem State.setObj_shadow (s : State) (o : Nat) (x : Obj) :
    (s.setObj o x).shadow = s.shadow := rfl
@[simp] theorem State.setObj_latch (s : State) (o : Nat) (x : Obj) :
    (s.setObj o x).latch = s.latch := rfl
@[simp] theorem State.setObj_evtCnt (s : State) (o : Nat) (x : Obj) :
    (s.setObj o x).evtCnt = s.evtCnt := rfl
@[simp] theorem State.setObj_drove (s : State) (o : Nat) (x : Obj) :
    (s.setObj o x).drove = s.drove := rfl
@[simp] theorem State.setObj_freeCtr (s : State) (o : Nat) (x : Obj) :
    (s.setObj o x).freeCtr = s.freeCtr := rfl
@[simp] theorem State.setObj_stepped (s : State) (o : Nat) (x : Obj) :
    (s.setObj o x).stepped = s.stepped := rfl
@[simp] theorem State.setObj_out (s : State) (o : Nat) (x : Obj) :
    (s.setObj o x).out = s.out := rfl
@[simp] theorem State.setObj_tiles (s : State) (o : Nat) (x : Obj) :
    (s.setObj o x).tiles = s.tiles := rfl
@[simp] theorem State.setObj_failing (s : State) (o : Nat) (x : Obj) :
    (s.setObj o x).failing = s.failing := rfl
@[simp] theorem State.setObj_fuses (s : State) (o : Nat) (x : Obj) :
    (s.setObj o x).fuses = s.fuses := rfl
@[simp] theorem State.setObj_fuseDue (s : State) (o : Nat) (x : Obj) :
    (s.setObj o x).fuseDue = s.fuseDue := rfl
@[simp] theorem State.setObj_bay (s : State) (o : Nat) (x : Obj) :
    (s.setObj o x).bay = s.bay := rfl
@[simp] theorem State.setObj_bslots (s : State) (o : Nat) (x : Obj) :
    (s.setObj o x).bslots = s.bslots := rfl
@[simp] theorem State.setObj_pools (s : State) (o : Nat) (x : Obj) :
    (s.setObj o x).pools = s.pools := rfl
@[simp] theorem State.setObj_lastPool (s : State) (o : Nat) (x : Obj) :
    (s.setObj o x).lastPool = s.lastPool := rfl
@[simp] theorem State.setObj_mm (s : State) (o : Nat) (x : Obj) :
    (s.setObj o x).mm = s.mm := rfl
@[simp] theorem State.setObj_links (s : State) (o : Nat) (x : Obj) :
    (s.setObj o x).links = s.links := rfl
@[simp] theorem State.setObj_net (s : State) (o : Nat) (x : Obj) :
    (s.setObj o x).net = s.net := rfl
@[simp] theorem State.setObj_clk (s : State) (o : Nat) (x : Obj) :
    (s.setObj o x).clk = s.clk := rfl
@[simp] theorem State.setObj_commits (s : State) (o : Nat) (x : Obj) :
    (s.setObj o x).commits = s.commits := rfl
@[simp] theorem State.setObj_pw (s : State) (o : Nat) (x : Obj) :
    (s.setObj o x).pw = s.pw := rfl
@[simp] theorem State.setObj_host (s : State) (o : Nat) (x : Obj) :
    (s.setObj o x).host = s.host := rfl
@[simp] theorem State.setObj_assay (s : State) (o : Nat) (x : Obj) :
    (s.setObj o x).assay = s.assay := rfl
@[simp] theorem State.setObj_mg (s : State) (o : Nat) (x : Obj) :
    (s.setObj o x).mg = s.mg := rfl

/-! ## setLink -/

@[simp] theorem State.setLink_pending (s : State) (p : Fin 16) (l : LinkSt) :
    (s.setLink p l).pending = s.pending := rfl
@[simp] theorem State.setLink_regs (s : State) (p : Fin 16) (l : LinkSt) :
    (s.setLink p l).regs = s.regs := rfl
@[simp] theorem State.setLink_shadow (s : State) (p : Fin 16) (l : LinkSt) :
    (s.setLink p l).shadow = s.shadow := rfl
@[simp] theorem State.setLink_latch (s : State) (p : Fin 16) (l : LinkSt) :
    (s.setLink p l).latch = s.latch := rfl
@[simp] theorem State.setLink_evtCnt (s : State) (p : Fin 16) (l : LinkSt) :
    (s.setLink p l).evtCnt = s.evtCnt := rfl
@[simp] theorem State.setLink_drove (s : State) (p : Fin 16) (l : LinkSt) :
    (s.setLink p l).drove = s.drove := rfl
@[simp] theorem State.setLink_freeCtr (s : State) (p : Fin 16) (l : LinkSt) :
    (s.setLink p l).freeCtr = s.freeCtr := rfl
@[simp] theorem State.setLink_stepped (s : State) (p : Fin 16) (l : LinkSt) :
    (s.setLink p l).stepped = s.stepped := rfl
@[simp] theorem State.setLink_out (s : State) (p : Fin 16) (l : LinkSt) :
    (s.setLink p l).out = s.out := rfl
@[simp] theorem State.setLink_tiles (s : State) (p : Fin 16) (l : LinkSt) :
    (s.setLink p l).tiles = s.tiles := rfl
@[simp] theorem State.setLink_failing (s : State) (p : Fin 16) (l : LinkSt) :
    (s.setLink p l).failing = s.failing := rfl
@[simp] theorem State.setLink_fuses (s : State) (p : Fin 16) (l : LinkSt) :
    (s.setLink p l).fuses = s.fuses := rfl
@[simp] theorem State.setLink_fuseDue (s : State) (p : Fin 16) (l : LinkSt) :
    (s.setLink p l).fuseDue = s.fuseDue := rfl
@[simp] theorem State.setLink_bay (s : State) (p : Fin 16) (l : LinkSt) :
    (s.setLink p l).bay = s.bay := rfl
@[simp] theorem State.setLink_bslots (s : State) (p : Fin 16) (l : LinkSt) :
    (s.setLink p l).bslots = s.bslots := rfl
@[simp] theorem State.setLink_pools (s : State) (p : Fin 16) (l : LinkSt) :
    (s.setLink p l).pools = s.pools := rfl
@[simp] theorem State.setLink_lastPool (s : State) (p : Fin 16) (l : LinkSt) :
    (s.setLink p l).lastPool = s.lastPool := rfl
@[simp] theorem State.setLink_mm (s : State) (p : Fin 16) (l : LinkSt) :
    (s.setLink p l).mm = s.mm := rfl
@[simp] theorem State.setLink_objs (s : State) (p : Fin 16) (l : LinkSt) :
    (s.setLink p l).objs = s.objs := rfl
@[simp] theorem State.setLink_net (s : State) (p : Fin 16) (l : LinkSt) :
    (s.setLink p l).net = s.net := rfl
@[simp] theorem State.setLink_clk (s : State) (p : Fin 16) (l : LinkSt) :
    (s.setLink p l).clk = s.clk := rfl
@[simp] theorem State.setLink_commits (s : State) (p : Fin 16) (l : LinkSt) :
    (s.setLink p l).commits = s.commits := rfl
@[simp] theorem State.setLink_pw (s : State) (p : Fin 16) (l : LinkSt) :
    (s.setLink p l).pw = s.pw := rfl
@[simp] theorem State.setLink_host (s : State) (p : Fin 16) (l : LinkSt) :
    (s.setLink p l).host = s.host := rfl
@[simp] theorem State.setLink_assay (s : State) (p : Fin 16) (l : LinkSt) :
    (s.setLink p l).assay = s.assay := rfl
@[simp] theorem State.setLink_mg (s : State) (p : Fin 16) (l : LinkSt) :
    (s.setLink p l).mg = s.mg := rfl

/-! ## setFlow -/

@[simp] theorem State.setFlow_pending (s : State) (c : Nat) (x : Flow) :
    (s.setFlow c x).pending = s.pending := rfl
@[simp] theorem State.setFlow_regs (s : State) (c : Nat) (x : Flow) :
    (s.setFlow c x).regs = s.regs := rfl
@[simp] theorem State.setFlow_shadow (s : State) (c : Nat) (x : Flow) :
    (s.setFlow c x).shadow = s.shadow := rfl
@[simp] theorem State.setFlow_latch (s : State) (c : Nat) (x : Flow) :
    (s.setFlow c x).latch = s.latch := rfl
@[simp] theorem State.setFlow_evtCnt (s : State) (c : Nat) (x : Flow) :
    (s.setFlow c x).evtCnt = s.evtCnt := rfl
@[simp] theorem State.setFlow_drove (s : State) (c : Nat) (x : Flow) :
    (s.setFlow c x).drove = s.drove := rfl
@[simp] theorem State.setFlow_freeCtr (s : State) (c : Nat) (x : Flow) :
    (s.setFlow c x).freeCtr = s.freeCtr := rfl
@[simp] theorem State.setFlow_stepped (s : State) (c : Nat) (x : Flow) :
    (s.setFlow c x).stepped = s.stepped := rfl
@[simp] theorem State.setFlow_out (s : State) (c : Nat) (x : Flow) :
    (s.setFlow c x).out = s.out := rfl
@[simp] theorem State.setFlow_tiles (s : State) (c : Nat) (x : Flow) :
    (s.setFlow c x).tiles = s.tiles := rfl
@[simp] theorem State.setFlow_failing (s : State) (c : Nat) (x : Flow) :
    (s.setFlow c x).failing = s.failing := rfl
@[simp] theorem State.setFlow_fuses (s : State) (c : Nat) (x : Flow) :
    (s.setFlow c x).fuses = s.fuses := rfl
@[simp] theorem State.setFlow_fuseDue (s : State) (c : Nat) (x : Flow) :
    (s.setFlow c x).fuseDue = s.fuseDue := rfl
@[simp] theorem State.setFlow_bay (s : State) (c : Nat) (x : Flow) :
    (s.setFlow c x).bay = s.bay := rfl
@[simp] theorem State.setFlow_bslots (s : State) (c : Nat) (x : Flow) :
    (s.setFlow c x).bslots = s.bslots := rfl
@[simp] theorem State.setFlow_pools (s : State) (c : Nat) (x : Flow) :
    (s.setFlow c x).pools = s.pools := rfl
@[simp] theorem State.setFlow_lastPool (s : State) (c : Nat) (x : Flow) :
    (s.setFlow c x).lastPool = s.lastPool := rfl
@[simp] theorem State.setFlow_mm (s : State) (c : Nat) (x : Flow) :
    (s.setFlow c x).mm = s.mm := rfl
@[simp] theorem State.setFlow_objs (s : State) (c : Nat) (x : Flow) :
    (s.setFlow c x).objs = s.objs := rfl
@[simp] theorem State.setFlow_links (s : State) (c : Nat) (x : Flow) :
    (s.setFlow c x).links = s.links := rfl
@[simp] theorem State.setFlow_clk (s : State) (c : Nat) (x : Flow) :
    (s.setFlow c x).clk = s.clk := rfl
@[simp] theorem State.setFlow_commits (s : State) (c : Nat) (x : Flow) :
    (s.setFlow c x).commits = s.commits := rfl
@[simp] theorem State.setFlow_pw (s : State) (c : Nat) (x : Flow) :
    (s.setFlow c x).pw = s.pw := rfl
@[simp] theorem State.setFlow_host (s : State) (c : Nat) (x : Flow) :
    (s.setFlow c x).host = s.host := rfl
@[simp] theorem State.setFlow_assay (s : State) (c : Nat) (x : Flow) :
    (s.setFlow c x).assay = s.assay := rfl
@[simp] theorem State.setFlow_mg (s : State) (c : Nat) (x : Flow) :
    (s.setFlow c x).mg = s.mg := rfl

/-! ## setCkt -/

@[simp] theorem State.setCkt_pending (s : State) (c : Nat) (x : Ckt) :
    (s.setCkt c x).pending = s.pending := rfl
@[simp] theorem State.setCkt_regs (s : State) (c : Nat) (x : Ckt) :
    (s.setCkt c x).regs = s.regs := rfl
@[simp] theorem State.setCkt_shadow (s : State) (c : Nat) (x : Ckt) :
    (s.setCkt c x).shadow = s.shadow := rfl
@[simp] theorem State.setCkt_latch (s : State) (c : Nat) (x : Ckt) :
    (s.setCkt c x).latch = s.latch := rfl
@[simp] theorem State.setCkt_evtCnt (s : State) (c : Nat) (x : Ckt) :
    (s.setCkt c x).evtCnt = s.evtCnt := rfl
@[simp] theorem State.setCkt_drove (s : State) (c : Nat) (x : Ckt) :
    (s.setCkt c x).drove = s.drove := rfl
@[simp] theorem State.setCkt_freeCtr (s : State) (c : Nat) (x : Ckt) :
    (s.setCkt c x).freeCtr = s.freeCtr := rfl
@[simp] theorem State.setCkt_stepped (s : State) (c : Nat) (x : Ckt) :
    (s.setCkt c x).stepped = s.stepped := rfl
@[simp] theorem State.setCkt_out (s : State) (c : Nat) (x : Ckt) :
    (s.setCkt c x).out = s.out := rfl
@[simp] theorem State.setCkt_tiles (s : State) (c : Nat) (x : Ckt) :
    (s.setCkt c x).tiles = s.tiles := rfl
@[simp] theorem State.setCkt_failing (s : State) (c : Nat) (x : Ckt) :
    (s.setCkt c x).failing = s.failing := rfl
@[simp] theorem State.setCkt_fuses (s : State) (c : Nat) (x : Ckt) :
    (s.setCkt c x).fuses = s.fuses := rfl
@[simp] theorem State.setCkt_fuseDue (s : State) (c : Nat) (x : Ckt) :
    (s.setCkt c x).fuseDue = s.fuseDue := rfl
@[simp] theorem State.setCkt_bay (s : State) (c : Nat) (x : Ckt) :
    (s.setCkt c x).bay = s.bay := rfl
@[simp] theorem State.setCkt_bslots (s : State) (c : Nat) (x : Ckt) :
    (s.setCkt c x).bslots = s.bslots := rfl
@[simp] theorem State.setCkt_pools (s : State) (c : Nat) (x : Ckt) :
    (s.setCkt c x).pools = s.pools := rfl
@[simp] theorem State.setCkt_lastPool (s : State) (c : Nat) (x : Ckt) :
    (s.setCkt c x).lastPool = s.lastPool := rfl
@[simp] theorem State.setCkt_mm (s : State) (c : Nat) (x : Ckt) :
    (s.setCkt c x).mm = s.mm := rfl
@[simp] theorem State.setCkt_objs (s : State) (c : Nat) (x : Ckt) :
    (s.setCkt c x).objs = s.objs := rfl
@[simp] theorem State.setCkt_links (s : State) (c : Nat) (x : Ckt) :
    (s.setCkt c x).links = s.links := rfl
@[simp] theorem State.setCkt_clk (s : State) (c : Nat) (x : Ckt) :
    (s.setCkt c x).clk = s.clk := rfl
@[simp] theorem State.setCkt_commits (s : State) (c : Nat) (x : Ckt) :
    (s.setCkt c x).commits = s.commits := rfl
@[simp] theorem State.setCkt_pw (s : State) (c : Nat) (x : Ckt) :
    (s.setCkt c x).pw = s.pw := rfl
@[simp] theorem State.setCkt_host (s : State) (c : Nat) (x : Ckt) :
    (s.setCkt c x).host = s.host := rfl
@[simp] theorem State.setCkt_assay (s : State) (c : Nat) (x : Ckt) :
    (s.setCkt c x).assay = s.assay := rfl
@[simp] theorem State.setCkt_mg (s : State) (c : Nat) (x : Ckt) :
    (s.setCkt c x).mg = s.mg := rfl

/-! ## setGroup -/

@[simp] theorem State.setGroup_pending (s : State) (g : Nat) (v : McGroup) :
    (s.setGroup g v).pending = s.pending := rfl
@[simp] theorem State.setGroup_regs (s : State) (g : Nat) (v : McGroup) :
    (s.setGroup g v).regs = s.regs := rfl
@[simp] theorem State.setGroup_shadow (s : State) (g : Nat) (v : McGroup) :
    (s.setGroup g v).shadow = s.shadow := rfl
@[simp] theorem State.setGroup_latch (s : State) (g : Nat) (v : McGroup) :
    (s.setGroup g v).latch = s.latch := rfl
@[simp] theorem State.setGroup_evtCnt (s : State) (g : Nat) (v : McGroup) :
    (s.setGroup g v).evtCnt = s.evtCnt := rfl
@[simp] theorem State.setGroup_drove (s : State) (g : Nat) (v : McGroup) :
    (s.setGroup g v).drove = s.drove := rfl
@[simp] theorem State.setGroup_freeCtr (s : State) (g : Nat) (v : McGroup) :
    (s.setGroup g v).freeCtr = s.freeCtr := rfl
@[simp] theorem State.setGroup_stepped (s : State) (g : Nat) (v : McGroup) :
    (s.setGroup g v).stepped = s.stepped := rfl
@[simp] theorem State.setGroup_out (s : State) (g : Nat) (v : McGroup) :
    (s.setGroup g v).out = s.out := rfl
@[simp] theorem State.setGroup_tiles (s : State) (g : Nat) (v : McGroup) :
    (s.setGroup g v).tiles = s.tiles := rfl
@[simp] theorem State.setGroup_failing (s : State) (g : Nat) (v : McGroup) :
    (s.setGroup g v).failing = s.failing := rfl
@[simp] theorem State.setGroup_fuses (s : State) (g : Nat) (v : McGroup) :
    (s.setGroup g v).fuses = s.fuses := rfl
@[simp] theorem State.setGroup_fuseDue (s : State) (g : Nat) (v : McGroup) :
    (s.setGroup g v).fuseDue = s.fuseDue := rfl
@[simp] theorem State.setGroup_bay (s : State) (g : Nat) (v : McGroup) :
    (s.setGroup g v).bay = s.bay := rfl
@[simp] theorem State.setGroup_bslots (s : State) (g : Nat) (v : McGroup) :
    (s.setGroup g v).bslots = s.bslots := rfl
@[simp] theorem State.setGroup_pools (s : State) (g : Nat) (v : McGroup) :
    (s.setGroup g v).pools = s.pools := rfl
@[simp] theorem State.setGroup_lastPool (s : State) (g : Nat) (v : McGroup) :
    (s.setGroup g v).lastPool = s.lastPool := rfl
@[simp] theorem State.setGroup_mm (s : State) (g : Nat) (v : McGroup) :
    (s.setGroup g v).mm = s.mm := rfl
@[simp] theorem State.setGroup_objs (s : State) (g : Nat) (v : McGroup) :
    (s.setGroup g v).objs = s.objs := rfl
@[simp] theorem State.setGroup_links (s : State) (g : Nat) (v : McGroup) :
    (s.setGroup g v).links = s.links := rfl
@[simp] theorem State.setGroup_clk (s : State) (g : Nat) (v : McGroup) :
    (s.setGroup g v).clk = s.clk := rfl
@[simp] theorem State.setGroup_commits (s : State) (g : Nat) (v : McGroup) :
    (s.setGroup g v).commits = s.commits := rfl
@[simp] theorem State.setGroup_pw (s : State) (g : Nat) (v : McGroup) :
    (s.setGroup g v).pw = s.pw := rfl
@[simp] theorem State.setGroup_host (s : State) (g : Nat) (v : McGroup) :
    (s.setGroup g v).host = s.host := rfl
@[simp] theorem State.setGroup_assay (s : State) (g : Nat) (v : McGroup) :
    (s.setGroup g v).assay = s.assay := rfl
@[simp] theorem State.setGroup_mg (s : State) (g : Nat) (v : McGroup) :
    (s.setGroup g v).mg = s.mg := rfl

/-! ## setSpot -/

@[simp] theorem State.setSpot_pending (s : State) (n : Nat) (x : Spot) :
    (s.setSpot n x).pending = s.pending := rfl
@[simp] theorem State.setSpot_regs (s : State) (n : Nat) (x : Spot) :
    (s.setSpot n x).regs = s.regs := rfl
@[simp] theorem State.setSpot_shadow (s : State) (n : Nat) (x : Spot) :
    (s.setSpot n x).shadow = s.shadow := rfl
@[simp] theorem State.setSpot_latch (s : State) (n : Nat) (x : Spot) :
    (s.setSpot n x).latch = s.latch := rfl
@[simp] theorem State.setSpot_evtCnt (s : State) (n : Nat) (x : Spot) :
    (s.setSpot n x).evtCnt = s.evtCnt := rfl
@[simp] theorem State.setSpot_drove (s : State) (n : Nat) (x : Spot) :
    (s.setSpot n x).drove = s.drove := rfl
@[simp] theorem State.setSpot_freeCtr (s : State) (n : Nat) (x : Spot) :
    (s.setSpot n x).freeCtr = s.freeCtr := rfl
@[simp] theorem State.setSpot_stepped (s : State) (n : Nat) (x : Spot) :
    (s.setSpot n x).stepped = s.stepped := rfl
@[simp] theorem State.setSpot_out (s : State) (n : Nat) (x : Spot) :
    (s.setSpot n x).out = s.out := rfl
@[simp] theorem State.setSpot_tiles (s : State) (n : Nat) (x : Spot) :
    (s.setSpot n x).tiles = s.tiles := rfl
@[simp] theorem State.setSpot_failing (s : State) (n : Nat) (x : Spot) :
    (s.setSpot n x).failing = s.failing := rfl
@[simp] theorem State.setSpot_fuses (s : State) (n : Nat) (x : Spot) :
    (s.setSpot n x).fuses = s.fuses := rfl
@[simp] theorem State.setSpot_fuseDue (s : State) (n : Nat) (x : Spot) :
    (s.setSpot n x).fuseDue = s.fuseDue := rfl
@[simp] theorem State.setSpot_bay (s : State) (n : Nat) (x : Spot) :
    (s.setSpot n x).bay = s.bay := rfl
@[simp] theorem State.setSpot_bslots (s : State) (n : Nat) (x : Spot) :
    (s.setSpot n x).bslots = s.bslots := rfl
@[simp] theorem State.setSpot_pools (s : State) (n : Nat) (x : Spot) :
    (s.setSpot n x).pools = s.pools := rfl
@[simp] theorem State.setSpot_lastPool (s : State) (n : Nat) (x : Spot) :
    (s.setSpot n x).lastPool = s.lastPool := rfl
@[simp] theorem State.setSpot_mm (s : State) (n : Nat) (x : Spot) :
    (s.setSpot n x).mm = s.mm := rfl
@[simp] theorem State.setSpot_objs (s : State) (n : Nat) (x : Spot) :
    (s.setSpot n x).objs = s.objs := rfl
@[simp] theorem State.setSpot_links (s : State) (n : Nat) (x : Spot) :
    (s.setSpot n x).links = s.links := rfl
@[simp] theorem State.setSpot_net (s : State) (n : Nat) (x : Spot) :
    (s.setSpot n x).net = s.net := rfl
@[simp] theorem State.setSpot_clk (s : State) (n : Nat) (x : Spot) :
    (s.setSpot n x).clk = s.clk := rfl
@[simp] theorem State.setSpot_commits (s : State) (n : Nat) (x : Spot) :
    (s.setSpot n x).commits = s.commits := rfl
@[simp] theorem State.setSpot_host (s : State) (n : Nat) (x : Spot) :
    (s.setSpot n x).host = s.host := rfl
@[simp] theorem State.setSpot_assay (s : State) (n : Nat) (x : Spot) :
    (s.setSpot n x).assay = s.assay := rfl
@[simp] theorem State.setSpot_mg (s : State) (n : Nat) (x : Spot) :
    (s.setSpot n x).mg = s.mg := rfl

/-! ## setPw -/

@[simp] theorem State.setPw_pending (s : State) (x : PwrSt) :
    (s.setPw x).pending = s.pending := rfl
@[simp] theorem State.setPw_regs (s : State) (x : PwrSt) :
    (s.setPw x).regs = s.regs := rfl
@[simp] theorem State.setPw_shadow (s : State) (x : PwrSt) :
    (s.setPw x).shadow = s.shadow := rfl
@[simp] theorem State.setPw_latch (s : State) (x : PwrSt) :
    (s.setPw x).latch = s.latch := rfl
@[simp] theorem State.setPw_evtCnt (s : State) (x : PwrSt) :
    (s.setPw x).evtCnt = s.evtCnt := rfl
@[simp] theorem State.setPw_drove (s : State) (x : PwrSt) :
    (s.setPw x).drove = s.drove := rfl
@[simp] theorem State.setPw_freeCtr (s : State) (x : PwrSt) :
    (s.setPw x).freeCtr = s.freeCtr := rfl
@[simp] theorem State.setPw_stepped (s : State) (x : PwrSt) :
    (s.setPw x).stepped = s.stepped := rfl
@[simp] theorem State.setPw_out (s : State) (x : PwrSt) :
    (s.setPw x).out = s.out := rfl
@[simp] theorem State.setPw_tiles (s : State) (x : PwrSt) :
    (s.setPw x).tiles = s.tiles := rfl
@[simp] theorem State.setPw_failing (s : State) (x : PwrSt) :
    (s.setPw x).failing = s.failing := rfl
@[simp] theorem State.setPw_fuses (s : State) (x : PwrSt) :
    (s.setPw x).fuses = s.fuses := rfl
@[simp] theorem State.setPw_fuseDue (s : State) (x : PwrSt) :
    (s.setPw x).fuseDue = s.fuseDue := rfl
@[simp] theorem State.setPw_bay (s : State) (x : PwrSt) :
    (s.setPw x).bay = s.bay := rfl
@[simp] theorem State.setPw_bslots (s : State) (x : PwrSt) :
    (s.setPw x).bslots = s.bslots := rfl
@[simp] theorem State.setPw_pools (s : State) (x : PwrSt) :
    (s.setPw x).pools = s.pools := rfl
@[simp] theorem State.setPw_lastPool (s : State) (x : PwrSt) :
    (s.setPw x).lastPool = s.lastPool := rfl
@[simp] theorem State.setPw_mm (s : State) (x : PwrSt) :
    (s.setPw x).mm = s.mm := rfl
@[simp] theorem State.setPw_objs (s : State) (x : PwrSt) :
    (s.setPw x).objs = s.objs := rfl
@[simp] theorem State.setPw_links (s : State) (x : PwrSt) :
    (s.setPw x).links = s.links := rfl
@[simp] theorem State.setPw_net (s : State) (x : PwrSt) :
    (s.setPw x).net = s.net := rfl
@[simp] theorem State.setPw_clk (s : State) (x : PwrSt) :
    (s.setPw x).clk = s.clk := rfl
@[simp] theorem State.setPw_commits (s : State) (x : PwrSt) :
    (s.setPw x).commits = s.commits := rfl
@[simp] theorem State.setPw_host (s : State) (x : PwrSt) :
    (s.setPw x).host = s.host := rfl
@[simp] theorem State.setPw_assay (s : State) (x : PwrSt) :
    (s.setPw x).assay = s.assay := rfl
@[simp] theorem State.setPw_mg (s : State) (x : PwrSt) :
    (s.setPw x).mg = s.mg := rfl

/-! ## setHq -/

@[simp] theorem State.setHq_pending (s : State) (q : Nat) (x : HostQ) :
    (s.setHq q x).pending = s.pending := rfl
@[simp] theorem State.setHq_regs (s : State) (q : Nat) (x : HostQ) :
    (s.setHq q x).regs = s.regs := rfl
@[simp] theorem State.setHq_shadow (s : State) (q : Nat) (x : HostQ) :
    (s.setHq q x).shadow = s.shadow := rfl
@[simp] theorem State.setHq_latch (s : State) (q : Nat) (x : HostQ) :
    (s.setHq q x).latch = s.latch := rfl
@[simp] theorem State.setHq_evtCnt (s : State) (q : Nat) (x : HostQ) :
    (s.setHq q x).evtCnt = s.evtCnt := rfl
@[simp] theorem State.setHq_drove (s : State) (q : Nat) (x : HostQ) :
    (s.setHq q x).drove = s.drove := rfl
@[simp] theorem State.setHq_freeCtr (s : State) (q : Nat) (x : HostQ) :
    (s.setHq q x).freeCtr = s.freeCtr := rfl
@[simp] theorem State.setHq_stepped (s : State) (q : Nat) (x : HostQ) :
    (s.setHq q x).stepped = s.stepped := rfl
@[simp] theorem State.setHq_out (s : State) (q : Nat) (x : HostQ) :
    (s.setHq q x).out = s.out := rfl
@[simp] theorem State.setHq_tiles (s : State) (q : Nat) (x : HostQ) :
    (s.setHq q x).tiles = s.tiles := rfl
@[simp] theorem State.setHq_failing (s : State) (q : Nat) (x : HostQ) :
    (s.setHq q x).failing = s.failing := rfl
@[simp] theorem State.setHq_fuses (s : State) (q : Nat) (x : HostQ) :
    (s.setHq q x).fuses = s.fuses := rfl
@[simp] theorem State.setHq_fuseDue (s : State) (q : Nat) (x : HostQ) :
    (s.setHq q x).fuseDue = s.fuseDue := rfl
@[simp] theorem State.setHq_bay (s : State) (q : Nat) (x : HostQ) :
    (s.setHq q x).bay = s.bay := rfl
@[simp] theorem State.setHq_bslots (s : State) (q : Nat) (x : HostQ) :
    (s.setHq q x).bslots = s.bslots := rfl
@[simp] theorem State.setHq_pools (s : State) (q : Nat) (x : HostQ) :
    (s.setHq q x).pools = s.pools := rfl
@[simp] theorem State.setHq_lastPool (s : State) (q : Nat) (x : HostQ) :
    (s.setHq q x).lastPool = s.lastPool := rfl
@[simp] theorem State.setHq_mm (s : State) (q : Nat) (x : HostQ) :
    (s.setHq q x).mm = s.mm := rfl
@[simp] theorem State.setHq_objs (s : State) (q : Nat) (x : HostQ) :
    (s.setHq q x).objs = s.objs := rfl
@[simp] theorem State.setHq_links (s : State) (q : Nat) (x : HostQ) :
    (s.setHq q x).links = s.links := rfl
@[simp] theorem State.setHq_net (s : State) (q : Nat) (x : HostQ) :
    (s.setHq q x).net = s.net := rfl
@[simp] theorem State.setHq_clk (s : State) (q : Nat) (x : HostQ) :
    (s.setHq q x).clk = s.clk := rfl
@[simp] theorem State.setHq_commits (s : State) (q : Nat) (x : HostQ) :
    (s.setHq q x).commits = s.commits := rfl
@[simp] theorem State.setHq_pw (s : State) (q : Nat) (x : HostQ) :
    (s.setHq q x).pw = s.pw := rfl
@[simp] theorem State.setHq_assay (s : State) (q : Nat) (x : HostQ) :
    (s.setHq q x).assay = s.assay := rfl
@[simp] theorem State.setHq_mg (s : State) (q : Nat) (x : HostQ) :
    (s.setHq q x).mg = s.mg := rfl

/-! ## setFw -/

@[simp] theorem State.setFw_pending (s : State) (x : FwSt) :
    (s.setFw x).pending = s.pending := rfl
@[simp] theorem State.setFw_regs (s : State) (x : FwSt) :
    (s.setFw x).regs = s.regs := rfl
@[simp] theorem State.setFw_shadow (s : State) (x : FwSt) :
    (s.setFw x).shadow = s.shadow := rfl
@[simp] theorem State.setFw_latch (s : State) (x : FwSt) :
    (s.setFw x).latch = s.latch := rfl
@[simp] theorem State.setFw_evtCnt (s : State) (x : FwSt) :
    (s.setFw x).evtCnt = s.evtCnt := rfl
@[simp] theorem State.setFw_drove (s : State) (x : FwSt) :
    (s.setFw x).drove = s.drove := rfl
@[simp] theorem State.setFw_freeCtr (s : State) (x : FwSt) :
    (s.setFw x).freeCtr = s.freeCtr := rfl
@[simp] theorem State.setFw_stepped (s : State) (x : FwSt) :
    (s.setFw x).stepped = s.stepped := rfl
@[simp] theorem State.setFw_out (s : State) (x : FwSt) :
    (s.setFw x).out = s.out := rfl
@[simp] theorem State.setFw_tiles (s : State) (x : FwSt) :
    (s.setFw x).tiles = s.tiles := rfl
@[simp] theorem State.setFw_failing (s : State) (x : FwSt) :
    (s.setFw x).failing = s.failing := rfl
@[simp] theorem State.setFw_fuses (s : State) (x : FwSt) :
    (s.setFw x).fuses = s.fuses := rfl
@[simp] theorem State.setFw_fuseDue (s : State) (x : FwSt) :
    (s.setFw x).fuseDue = s.fuseDue := rfl
@[simp] theorem State.setFw_bay (s : State) (x : FwSt) :
    (s.setFw x).bay = s.bay := rfl
@[simp] theorem State.setFw_bslots (s : State) (x : FwSt) :
    (s.setFw x).bslots = s.bslots := rfl
@[simp] theorem State.setFw_pools (s : State) (x : FwSt) :
    (s.setFw x).pools = s.pools := rfl
@[simp] theorem State.setFw_lastPool (s : State) (x : FwSt) :
    (s.setFw x).lastPool = s.lastPool := rfl
@[simp] theorem State.setFw_mm (s : State) (x : FwSt) :
    (s.setFw x).mm = s.mm := rfl
@[simp] theorem State.setFw_objs (s : State) (x : FwSt) :
    (s.setFw x).objs = s.objs := rfl
@[simp] theorem State.setFw_links (s : State) (x : FwSt) :
    (s.setFw x).links = s.links := rfl
@[simp] theorem State.setFw_net (s : State) (x : FwSt) :
    (s.setFw x).net = s.net := rfl
@[simp] theorem State.setFw_clk (s : State) (x : FwSt) :
    (s.setFw x).clk = s.clk := rfl
@[simp] theorem State.setFw_commits (s : State) (x : FwSt) :
    (s.setFw x).commits = s.commits := rfl
@[simp] theorem State.setFw_pw (s : State) (x : FwSt) :
    (s.setFw x).pw = s.pw := rfl
@[simp] theorem State.setFw_host (s : State) (x : FwSt) :
    (s.setFw x).host = s.host := rfl
@[simp] theorem State.setFw_assay (s : State) (x : FwSt) :
    (s.setFw x).assay = s.assay := rfl

/-! ## setFlash -/

@[simp] theorem State.setFlash_pending (s : State) (x : Flash) :
    (s.setFlash x).pending = s.pending := rfl
@[simp] theorem State.setFlash_regs (s : State) (x : Flash) :
    (s.setFlash x).regs = s.regs := rfl
@[simp] theorem State.setFlash_shadow (s : State) (x : Flash) :
    (s.setFlash x).shadow = s.shadow := rfl
@[simp] theorem State.setFlash_latch (s : State) (x : Flash) :
    (s.setFlash x).latch = s.latch := rfl
@[simp] theorem State.setFlash_evtCnt (s : State) (x : Flash) :
    (s.setFlash x).evtCnt = s.evtCnt := rfl
@[simp] theorem State.setFlash_drove (s : State) (x : Flash) :
    (s.setFlash x).drove = s.drove := rfl
@[simp] theorem State.setFlash_freeCtr (s : State) (x : Flash) :
    (s.setFlash x).freeCtr = s.freeCtr := rfl
@[simp] theorem State.setFlash_stepped (s : State) (x : Flash) :
    (s.setFlash x).stepped = s.stepped := rfl
@[simp] theorem State.setFlash_out (s : State) (x : Flash) :
    (s.setFlash x).out = s.out := rfl
@[simp] theorem State.setFlash_tiles (s : State) (x : Flash) :
    (s.setFlash x).tiles = s.tiles := rfl
@[simp] theorem State.setFlash_failing (s : State) (x : Flash) :
    (s.setFlash x).failing = s.failing := rfl
@[simp] theorem State.setFlash_fuses (s : State) (x : Flash) :
    (s.setFlash x).fuses = s.fuses := rfl
@[simp] theorem State.setFlash_fuseDue (s : State) (x : Flash) :
    (s.setFlash x).fuseDue = s.fuseDue := rfl
@[simp] theorem State.setFlash_bay (s : State) (x : Flash) :
    (s.setFlash x).bay = s.bay := rfl
@[simp] theorem State.setFlash_bslots (s : State) (x : Flash) :
    (s.setFlash x).bslots = s.bslots := rfl
@[simp] theorem State.setFlash_pools (s : State) (x : Flash) :
    (s.setFlash x).pools = s.pools := rfl
@[simp] theorem State.setFlash_lastPool (s : State) (x : Flash) :
    (s.setFlash x).lastPool = s.lastPool := rfl
@[simp] theorem State.setFlash_mm (s : State) (x : Flash) :
    (s.setFlash x).mm = s.mm := rfl
@[simp] theorem State.setFlash_objs (s : State) (x : Flash) :
    (s.setFlash x).objs = s.objs := rfl
@[simp] theorem State.setFlash_links (s : State) (x : Flash) :
    (s.setFlash x).links = s.links := rfl
@[simp] theorem State.setFlash_net (s : State) (x : Flash) :
    (s.setFlash x).net = s.net := rfl
@[simp] theorem State.setFlash_clk (s : State) (x : Flash) :
    (s.setFlash x).clk = s.clk := rfl
@[simp] theorem State.setFlash_commits (s : State) (x : Flash) :
    (s.setFlash x).commits = s.commits := rfl
@[simp] theorem State.setFlash_pw (s : State) (x : Flash) :
    (s.setFlash x).pw = s.pw := rfl
@[simp] theorem State.setFlash_host (s : State) (x : Flash) :
    (s.setFlash x).host = s.host := rfl
@[simp] theorem State.setFlash_assay (s : State) (x : Flash) :
    (s.setFlash x).assay = s.assay := rfl

/-! ## setReq -/

@[simp] theorem State.setReq_pending (s : State) (q : PlaceReq) :
    (s.setReq q).pending = s.pending := rfl
@[simp] theorem State.setReq_regs (s : State) (q : PlaceReq) :
    (s.setReq q).regs = s.regs := rfl
@[simp] theorem State.setReq_shadow (s : State) (q : PlaceReq) :
    (s.setReq q).shadow = s.shadow := rfl
@[simp] theorem State.setReq_latch (s : State) (q : PlaceReq) :
    (s.setReq q).latch = s.latch := rfl
@[simp] theorem State.setReq_evtCnt (s : State) (q : PlaceReq) :
    (s.setReq q).evtCnt = s.evtCnt := rfl
@[simp] theorem State.setReq_drove (s : State) (q : PlaceReq) :
    (s.setReq q).drove = s.drove := rfl
@[simp] theorem State.setReq_freeCtr (s : State) (q : PlaceReq) :
    (s.setReq q).freeCtr = s.freeCtr := rfl
@[simp] theorem State.setReq_stepped (s : State) (q : PlaceReq) :
    (s.setReq q).stepped = s.stepped := rfl
@[simp] theorem State.setReq_out (s : State) (q : PlaceReq) :
    (s.setReq q).out = s.out := rfl
@[simp] theorem State.setReq_tiles (s : State) (q : PlaceReq) :
    (s.setReq q).tiles = s.tiles := rfl
@[simp] theorem State.setReq_failing (s : State) (q : PlaceReq) :
    (s.setReq q).failing = s.failing := rfl
@[simp] theorem State.setReq_fuses (s : State) (q : PlaceReq) :
    (s.setReq q).fuses = s.fuses := rfl
@[simp] theorem State.setReq_fuseDue (s : State) (q : PlaceReq) :
    (s.setReq q).fuseDue = s.fuseDue := rfl
@[simp] theorem State.setReq_bay (s : State) (q : PlaceReq) :
    (s.setReq q).bay = s.bay := rfl
@[simp] theorem State.setReq_bslots (s : State) (q : PlaceReq) :
    (s.setReq q).bslots = s.bslots := rfl
@[simp] theorem State.setReq_pools (s : State) (q : PlaceReq) :
    (s.setReq q).pools = s.pools := rfl
@[simp] theorem State.setReq_lastPool (s : State) (q : PlaceReq) :
    (s.setReq q).lastPool = s.lastPool := rfl
@[simp] theorem State.setReq_objs (s : State) (q : PlaceReq) :
    (s.setReq q).objs = s.objs := rfl
@[simp] theorem State.setReq_links (s : State) (q : PlaceReq) :
    (s.setReq q).links = s.links := rfl
@[simp] theorem State.setReq_net (s : State) (q : PlaceReq) :
    (s.setReq q).net = s.net := rfl
@[simp] theorem State.setReq_clk (s : State) (q : PlaceReq) :
    (s.setReq q).clk = s.clk := rfl
@[simp] theorem State.setReq_commits (s : State) (q : PlaceReq) :
    (s.setReq q).commits = s.commits := rfl
@[simp] theorem State.setReq_pw (s : State) (q : PlaceReq) :
    (s.setReq q).pw = s.pw := rfl
@[simp] theorem State.setReq_host (s : State) (q : PlaceReq) :
    (s.setReq q).host = s.host := rfl
@[simp] theorem State.setReq_assay (s : State) (q : PlaceReq) :
    (s.setReq q).assay = s.assay := rfl
@[simp] theorem State.setReq_mg (s : State) (q : PlaceReq) :
    (s.setReq q).mg = s.mg := rfl

/-! ## putCommit -/

@[simp] theorem State.putCommit_pending (s : State) (c : Commit) :
    (s.putCommit c).pending = s.pending := rfl
@[simp] theorem State.putCommit_regs (s : State) (c : Commit) :
    (s.putCommit c).regs = s.regs := rfl
@[simp] theorem State.putCommit_shadow (s : State) (c : Commit) :
    (s.putCommit c).shadow = s.shadow := rfl
@[simp] theorem State.putCommit_latch (s : State) (c : Commit) :
    (s.putCommit c).latch = s.latch := rfl
@[simp] theorem State.putCommit_evtCnt (s : State) (c : Commit) :
    (s.putCommit c).evtCnt = s.evtCnt := rfl
@[simp] theorem State.putCommit_drove (s : State) (c : Commit) :
    (s.putCommit c).drove = s.drove := rfl
@[simp] theorem State.putCommit_freeCtr (s : State) (c : Commit) :
    (s.putCommit c).freeCtr = s.freeCtr := rfl
@[simp] theorem State.putCommit_stepped (s : State) (c : Commit) :
    (s.putCommit c).stepped = s.stepped := rfl
@[simp] theorem State.putCommit_out (s : State) (c : Commit) :
    (s.putCommit c).out = s.out := rfl
@[simp] theorem State.putCommit_tiles (s : State) (c : Commit) :
    (s.putCommit c).tiles = s.tiles := rfl
@[simp] theorem State.putCommit_failing (s : State) (c : Commit) :
    (s.putCommit c).failing = s.failing := rfl
@[simp] theorem State.putCommit_fuses (s : State) (c : Commit) :
    (s.putCommit c).fuses = s.fuses := rfl
@[simp] theorem State.putCommit_fuseDue (s : State) (c : Commit) :
    (s.putCommit c).fuseDue = s.fuseDue := rfl
@[simp] theorem State.putCommit_bay (s : State) (c : Commit) :
    (s.putCommit c).bay = s.bay := rfl
@[simp] theorem State.putCommit_bslots (s : State) (c : Commit) :
    (s.putCommit c).bslots = s.bslots := rfl
@[simp] theorem State.putCommit_pools (s : State) (c : Commit) :
    (s.putCommit c).pools = s.pools := rfl
@[simp] theorem State.putCommit_lastPool (s : State) (c : Commit) :
    (s.putCommit c).lastPool = s.lastPool := rfl
@[simp] theorem State.putCommit_mm (s : State) (c : Commit) :
    (s.putCommit c).mm = s.mm := rfl
@[simp] theorem State.putCommit_objs (s : State) (c : Commit) :
    (s.putCommit c).objs = s.objs := rfl
@[simp] theorem State.putCommit_links (s : State) (c : Commit) :
    (s.putCommit c).links = s.links := rfl
@[simp] theorem State.putCommit_net (s : State) (c : Commit) :
    (s.putCommit c).net = s.net := rfl
@[simp] theorem State.putCommit_clk (s : State) (c : Commit) :
    (s.putCommit c).clk = s.clk := rfl
@[simp] theorem State.putCommit_pw (s : State) (c : Commit) :
    (s.putCommit c).pw = s.pw := rfl
@[simp] theorem State.putCommit_host (s : State) (c : Commit) :
    (s.putCommit c).host = s.host := rfl
@[simp] theorem State.putCommit_assay (s : State) (c : Commit) :
    (s.putCommit c).assay = s.assay := rfl
@[simp] theorem State.putCommit_mg (s : State) (c : Commit) :
    (s.putCommit c).mg = s.mg := rfl

/-! ## dropCommit -/

@[simp] theorem State.dropCommit_pending (s : State) (u : UnitId) :
    (s.dropCommit u).pending = s.pending := rfl
@[simp] theorem State.dropCommit_regs (s : State) (u : UnitId) :
    (s.dropCommit u).regs = s.regs := rfl
@[simp] theorem State.dropCommit_shadow (s : State) (u : UnitId) :
    (s.dropCommit u).shadow = s.shadow := rfl
@[simp] theorem State.dropCommit_latch (s : State) (u : UnitId) :
    (s.dropCommit u).latch = s.latch := rfl
@[simp] theorem State.dropCommit_evtCnt (s : State) (u : UnitId) :
    (s.dropCommit u).evtCnt = s.evtCnt := rfl
@[simp] theorem State.dropCommit_drove (s : State) (u : UnitId) :
    (s.dropCommit u).drove = s.drove := rfl
@[simp] theorem State.dropCommit_freeCtr (s : State) (u : UnitId) :
    (s.dropCommit u).freeCtr = s.freeCtr := rfl
@[simp] theorem State.dropCommit_stepped (s : State) (u : UnitId) :
    (s.dropCommit u).stepped = s.stepped := rfl
@[simp] theorem State.dropCommit_out (s : State) (u : UnitId) :
    (s.dropCommit u).out = s.out := rfl
@[simp] theorem State.dropCommit_tiles (s : State) (u : UnitId) :
    (s.dropCommit u).tiles = s.tiles := rfl
@[simp] theorem State.dropCommit_failing (s : State) (u : UnitId) :
    (s.dropCommit u).failing = s.failing := rfl
@[simp] theorem State.dropCommit_fuses (s : State) (u : UnitId) :
    (s.dropCommit u).fuses = s.fuses := rfl
@[simp] theorem State.dropCommit_fuseDue (s : State) (u : UnitId) :
    (s.dropCommit u).fuseDue = s.fuseDue := rfl
@[simp] theorem State.dropCommit_bay (s : State) (u : UnitId) :
    (s.dropCommit u).bay = s.bay := rfl
@[simp] theorem State.dropCommit_bslots (s : State) (u : UnitId) :
    (s.dropCommit u).bslots = s.bslots := rfl
@[simp] theorem State.dropCommit_pools (s : State) (u : UnitId) :
    (s.dropCommit u).pools = s.pools := rfl
@[simp] theorem State.dropCommit_lastPool (s : State) (u : UnitId) :
    (s.dropCommit u).lastPool = s.lastPool := rfl
@[simp] theorem State.dropCommit_mm (s : State) (u : UnitId) :
    (s.dropCommit u).mm = s.mm := rfl
@[simp] theorem State.dropCommit_objs (s : State) (u : UnitId) :
    (s.dropCommit u).objs = s.objs := rfl
@[simp] theorem State.dropCommit_links (s : State) (u : UnitId) :
    (s.dropCommit u).links = s.links := rfl
@[simp] theorem State.dropCommit_net (s : State) (u : UnitId) :
    (s.dropCommit u).net = s.net := rfl
@[simp] theorem State.dropCommit_clk (s : State) (u : UnitId) :
    (s.dropCommit u).clk = s.clk := rfl
@[simp] theorem State.dropCommit_pw (s : State) (u : UnitId) :
    (s.dropCommit u).pw = s.pw := rfl
@[simp] theorem State.dropCommit_host (s : State) (u : UnitId) :
    (s.dropCommit u).host = s.host := rfl
@[simp] theorem State.dropCommit_assay (s : State) (u : UnitId) :
    (s.dropCommit u).assay = s.assay := rfl
@[simp] theorem State.dropCommit_mg (s : State) (u : UnitId) :
    (s.dropCommit u).mg = s.mg := rfl

end Sys2Proof.Machine
end

