-- ==== Sys2Proof/Laws/Registers.lean ====
section
/-! SUPPORT. Laws of the register file: a field reads as written, every other field as before. -/

set_option Elab.async false

namespace Sys2Proof.Machine

open Sys2Proof

/-! ## Fields of a word -/

theorem testBit_getBits (w : Word) (hi lo i : Nat) (h : lo ≤ hi) (h' : hi < 32) :
    (getBits w hi lo).testBit i = (decide (i < hi + 1 - lo) && w.getLsbD (lo + i)) := by
  unfold getBits
  rw [BitVec.testBit_toNat, BitVec.getLsbD_and, BitVec.getLsbD_ushiftRight, BitVec.getLsbD_ofNat,
    Nat.testBit_two_pow_sub_one]
  by_cases hi' : i < hi + 1 - lo
  · have : i < 32 := by omega
    simp [hi', this]
  · simp [hi']

theorem getLsbD_fieldMask (hi lo i : Nat) (h' : hi < 32) :
    (fieldMask hi lo).getLsbD i = (decide (lo ≤ i) && decide (i ≤ hi)) := by
  unfold fieldMask
  rw [BitVec.getLsbD_ofNat, Nat.testBit_mul_two_pow, Nat.testBit_two_pow_sub_one]
  by_cases h1 : lo ≤ i <;> by_cases h2 : i ≤ hi <;> simp [h1, h2] <;> omega

theorem getLsbD_setBits (w : Word) (hi lo v i : Nat) (h' : hi < 32) :
    (setBits w hi lo v).getLsbD i =
      if lo ≤ i ∧ i ≤ hi then v.testBit (i - lo) else w.getLsbD i := by
  unfold setBits
  rw [BitVec.getLsbD_or, BitVec.getLsbD_and, BitVec.getLsbD_and, BitVec.getLsbD_not, getLsbD_fieldMask _ _ _ h',
    BitVec.getLsbD_ofNat, Nat.testBit_mul_two_pow]
  by_cases h1 : lo ≤ i <;> by_cases h2 : i ≤ hi
  · have : i < 32 := by omega
    simp [h1, h2, this]
  · simp [h1, h2]
    intro h; exact BitVec.lt_of_getLsbD h
  · simp [h1, h2]
    intro h; exact BitVec.lt_of_getLsbD h
  · simp [h1, h2]
    intro h; exact BitVec.lt_of_getLsbD h

/-- A field reads as written, to its width. -/
theorem getBits_setBits (w : Word) (hi lo v : Nat) (h : lo ≤ hi) (h' : hi < 32) :
    getBits (setBits w hi lo v) hi lo = v % 2 ^ (hi + 1 - lo) := by
  apply Nat.eq_of_testBit_eq
  intro i
  rw [testBit_getBits _ _ _ _ h h', getLsbD_setBits _ _ _ _ _ h', Nat.testBit_mod_two_pow]
  by_cases hi' : i < hi + 1 - lo
  · rw [if_pos (by omega)]; simp
  · simp [hi']

/-- Writing one field leaves a field beside it. -/
theorem getBits_setBits_ne (w : Word) (hi lo v hi' lo' : Nat) (h : lo' ≤ hi') (h1 : hi < 32) (h2 : hi' < 32)
    (hd : hi < lo' ∨ hi' < lo) : getBits (setBits w hi lo v) hi' lo' = getBits w hi' lo' := by
  apply Nat.eq_of_testBit_eq
  intro i
  rw [testBit_getBits _ _ _ _ h h2, testBit_getBits _ _ _ _ h h2, getLsbD_setBits _ _ _ _ _ h1]
  by_cases hi' : i < hi' + 1 - lo'
  · rw [if_neg (by omega)]
  · simp [hi']

/-! ## Words -/

theorem UnitId.key_injective {u v : UnitId} (h : u.key = v.key) : u = v := by
  cases u <;> cases v <;> simp only [UnitId.key] at h <;>
    simp only [UnitId.cdie.injEq, UnitId.hub.injEq, UnitId.clus.injEq, UnitId.mstk.injEq, UnitId.port.injEq,
      UnitId.rout.injEq, UnitId.sync.injEq, UnitId.tile.injEq, UnitId.mchn.injEq, Fin.ext_iff, reduceCtorEq] <;>
    (try split at h) <;> (try split at h) <;> omega

/-- Two registers at different places have different keys. -/
theorem regKey_ne {u v : UnitId} {a b : Nat} (ha : a < 4096) (hb : b < 4096) (h : u ≠ v ∨ a / 4 ≠ b / 4) :
    regKey u a ≠ regKey v b := by
  unfold regKey
  intro e
  have hk : u.key = v.key := by omega
  rcases h with h | h
  · exact h (UnitId.key_injective hk)
  · omega

@[simp] theorem State.getW_setW (s : State) (u : UnitId) (a : Nat) (w : Word) : (s.setW u a w).getW u a = w := by
  unfold State.getW State.setW
  rw [Map.getD_putD]; simp

theorem State.getW_setW_ne (s : State) {u v : UnitId} {a b : Nat} (w : Word) (h : regKey u a ≠ regKey v b) :
    (s.setW u a w).getW v b = s.getW v b := by
  unfold State.getW State.setW
  exact Map.getD_putD_ne _ _ _ _ h

/-! ## Fields -/

/-- A field within its word and page. -/
def Fld.ok (f : Fld) : Prop := f.lo ≤ f.hi ∧ f.hi < 32 ∧ f.off < 4096

/-- Two fields do not overlap: other words, or other bits of one word. -/
def Fld.apart (f g : Fld) : Prop := f.off / 4 ≠ g.off / 4 ∨ (f.off = g.off ∧ (f.hi < g.lo ∨ g.hi < f.lo))

/-- A field reads as written, to its width. -/
theorem State.getF_setF (s : State) (u : UnitId) (f : Fld) (v : Nat) (h : f.ok) :
    (s.setF u f v).getF u f = v % 2 ^ (f.hi + 1 - f.lo) := by
  unfold State.getF State.setF
  rw [State.getW_setW]
  exact getBits_setBits _ _ _ _ h.1 h.2.1

/-- A field of another page reads as before. -/
theorem State.getF_setF_unit (s : State) {u v : UnitId} (f g : Fld) (x : Nat) (hf : f.ok) (hg : g.ok) (h : u ≠ v) :
    (s.setF u f x).getF v g = s.getF v g := by
  unfold State.getF State.setF
  rw [State.getW_setW_ne _ _ (regKey_ne hf.2.2 hg.2.2 (Or.inl h))]

/-- A field that does not overlap reads as before. -/
theorem State.getF_setF_apart (s : State) (u : UnitId) {f g : Fld} (x : Nat) (hf : f.ok) (hg : g.ok) (h : f.apart g) :
    (s.setF u f x).getF u g = s.getF u g := by
  unfold State.getF State.setF
  rcases h with h | ⟨e, h⟩
  · rw [State.getW_setW_ne _ _ (regKey_ne hf.2.2 hg.2.2 (Or.inr h))]
  · rw [e, State.getW_setW]
    exact getBits_setBits_ne _ _ _ _ _ _ hg.1 hf.2.1 hg.2.1 h

/-- The word of another register reads as before. -/
theorem State.getW_setF_ne (s : State) {u v : UnitId} {f : Fld} {b : Nat} (x : Nat) (h : regKey u f.off ≠ regKey v b) :
    (s.setF u f x).getW v b = s.getW v b := State.getW_setW_ne _ _ h

end Sys2Proof.Machine
end

