-- ==== Sys2Proof/Laws/Ops.lean ====
section
/-! SUPPORT. What each shared operation of Machine/Ops.lean can do, said once. -/

set_option Elab.async false

namespace Sys2Proof.Machine

open Sys2Proof

theorem State.getW_congr {s t : State} (h : t.regs = s.regs) (u : UnitId) (a : Nat) : t.getW u a = s.getW u a := by
  unfold State.getW; rw [h]

theorem State.getF_congr {s t : State} (h : t.regs = s.regs) (u : UnitId) (f : Fld) : t.getF u f = s.getF u f := by
  unfold State.getF; rw [State.getW_congr h]

/-! ## Vectors -/

/-- Sending a vector touches the host connection and what goes out, nothing else. -/
theorem State.sendVector_only (s : State) (v : Nat) : ∃ h o, s.sendVector v = { s with host := h, out := o } := by
  unfold State.sendVector
  split
  · exact ⟨_, _, rfl⟩
  · exact ⟨s.host, s.out, rfl⟩

theorem State.raiseVector_only (s : State) (v : Nat) : ∃ h o, s.raiseVector v = { s with host := h, out := o } := by
  obtain ⟨h, o, e⟩ := State.sendVector_only { s with host := { s.host with msixPend := s.host.msixPend.put v true } } v
  exact ⟨h, o, e⟩

theorem State.pkgSummary_only (s : State) (was : Bool) : ∃ h o, s.pkgSummary was = { s with host := h, out := o } := by
  unfold State.pkgSummary
  split
  · exact State.raiseVector_only _ _
  · exact ⟨s.host, s.out, rfl⟩

/-- Raising an event of PKG raises the bit and its count, and may send a vector. -/
theorem State.raisePkg_only (s : State) (b : Nat) : ∃ h o, s.raisePkg b = { s.raise .pkg b with host := h, out := o } :=
  State.pkgSummary_only _ _

/-! ## Events -/

/-- Raising an event changes no field of another word than EVT_PEND. -/
theorem State.getF_raise (s : State) (u v : UnitId) (b : Nat) (g : Fld) (hg : g.off < 4096) (h : u ≠ v ∨ 0x014 / 4 ≠ g.off / 4) :
    (s.raise u b).getF v g = s.getF v g := by
  unfold State.getF
  have : (s.raise u b).getW v g.off = s.getW v g.off :=
    State.getW_setW_ne s _ (regKey_ne (by decide) hg h)
  rw [this]

theorem State.getF_raisePkg (s : State) (v : UnitId) (b : Nat) (g : Fld) (hg : g.off < 4096)
    (h : UnitId.pkg ≠ v ∨ 0x014 / 4 ≠ g.off / 4) : (s.raisePkg b).getF v g = s.getF v g := by
  obtain ⟨hh, o, e⟩ := s.raisePkg_only b
  rw [e]
  exact (State.getF_congr rfl v g).trans (s.getF_raise .pkg v b g hg h)

/-- Raising an event sets its bit. -/
theorem State.pend_raise (s : State) (u : UnitId) (b : Nat) (h : b < 32) : (s.raise u b).pend u b = true := by
  show ((s.setW u 0x014 (s.getW u 0x014 ||| BitVec.ofNat 32 (2 ^ b))).getW u 0x014).getLsbD b = true
  rw [State.getW_setW, BitVec.getLsbD_or, BitVec.getLsbD_ofNat, Nat.testBit_two_pow]
  simp [h]

/-- Raising an event counts it, up to 0xFFFF. -/
theorem State.evtCnt_raise (s : State) (u : UnitId) (b : Nat) :
    (s.raise u b).evtCnt.getD (evtKey u b) 0 = min (s.evtCnt.getD (evtKey u b) 0 + 1) 0xFFFF := by
  show ((s.setW u 0x014 _).evtCnt.putD _ _ 0).getD _ 0 = _
  rw [Map.getD_putD, if_pos rfl]; rfl

/-! ## Conditions -/

/-- Setting a unit's own condition changes HEALTH registers only. -/
theorem State.getF_setOwn (s : State) (u v : UnitId) (x : Nat) (g : Fld) (hg : g.ok)
    (h : (u ≠ v ∨ 0x010 / 4 ≠ g.off / 4) ∧ (u ≠ .pkg ∨ UnitId.hctl ≠ v ∨ Reg.HCTL.ALERT_STAT_DEGRADED.apart g)) :
    (s.setOwn u x).getF v g = s.getF v g := by
  have h1 : ∀ (t : State) (f : Fld) (y : Nat), f.off = 0x010 → f.ok → (t.setF u f y).getF v g = t.getF v g := by
    intro t f y e ok
    rcases h.1 with h1 | h1
    · exact t.getF_setF_unit f g y ok hg h1
    · by_cases e' : u = v
      · subst e'; exact t.getF_setF_apart u y ok hg (Or.inl (by rw [e]; exact h1))
      · exact t.getF_setF_unit f g y ok hg e'
  have hO : Reg.HEALTH_OWN.ok := ⟨by decide, by decide, by decide⟩
  have hH : Reg.HEALTH_HEALTH.ok := ⟨by decide, by decide, by decide⟩
  unfold State.setOwn
  extract_lets a b
  have hb : b.getF v g = s.getF v g := (h1 a _ _ rfl hH).trans (h1 s _ _ rfl hO)
  split
  · rename_i e
    unfold State.alertHealth
    rcases h.2 with h2 | h2 | h2
    · exact absurd e h2
    · rw [State.getF_setF_unit b _ _ _ ⟨by decide, by decide, by decide⟩ hg h2, hb]
    · by_cases e' : UnitId.hctl = v
      · subst e'
        rw [State.getF_setF_apart b _ _ ⟨by decide, by decide, by decide⟩ hg h2, hb]
      · rw [State.getF_setF_unit b _ _ _ ⟨by decide, by decide, by decide⟩ hg e', hb]
  · exact hb

/-! ## Ports -/

/-- A port's link state is what was last put there. -/
@[simp] theorem State.link_setLink (s : State) (p : Fin 16) (l : LinkSt) : (s.setLink p l).link p = l := by
  show (s.links.putD p l .init).getD p .init = l
  rw [Map.getD_putD, if_pos rfl]

/-- Another port's link state stays. -/
theorem State.link_setLink_ne (s : State) {p q : Fin 16} (l : LinkSt) (h : p ≠ q) : (s.setLink p l).link q = s.link q := by
  show (s.links.putD p l .init).getD q .init = _
  rw [Map.getD_putD, if_neg (fun e => h (Fin.ext e))]; rfl

@[simp] theorem State.findErrs_nil (s : State) : s.findErrs [] = s := rfl

/-- A copy that finds no bad line stops only at a line listed before (R193, R214). -/
theorem State.copyErrs_nil (s : State) (r : PgRef) : s.copyErrs r [] = (s, s.pageListed (s.pg r)) := by
  unfold State.copyErrs State.pageListed
  cases (s.pg r).frame? with
  | some id => rfl
  | none => cases (s.pg r).away? with
    | none => rfl
    | some q => cases q <;> rfl

/-- The registers of a die's ceilings follow, nothing else. -/
theorem State.ceilsOf_only (s : State) (d : Fin 4) : ∃ r, s.ceilsOf d = { s with regs := r } := by
  have fold : ∀ (f : State → Nat → State) (_ : ∀ s c, ∃ r, f s c = { s with regs := r }) (l : List Nat) (s : State),
      ∃ r, l.foldl f s = { s with regs := r } := by
    intro f hf l
    induction l with
    | nil => exact fun s => ⟨s.regs, rfl⟩
    | cons c l ih =>
      intro s
      obtain ⟨r, e⟩ := hf s c
      obtain ⟨r', e'⟩ := ih (f s c)
      exact ⟨r', by rw [List.foldl_cons, e', e]⟩
  have show_only : ∃ r, s.showCeils d = { s with regs := r } := by
    unfold State.showCeils
    extract_lets u lo a
    obtain ⟨r, e⟩ : ∃ r, (List.range 13).foldl _ a = { a with regs := r } := fold _ (fun _ _ => ⟨_, rfl⟩) _ _
    exact ⟨r, e⟩
  obtain ⟨r, e⟩ := show_only
  unfold State.ceilsOf
  rw [e]
  generalize State.ownPace _ = v
  exact ⟨_, rfl⟩

theorem State.ceilsOf_mg (s : State) (d : Fin 4) : (s.ceilsOf d).mg = s.mg := by
  obtain ⟨r, e⟩ := s.ceilsOf_only d
  rw [e]

end Sys2Proof.Machine
end

