-- ==== Sys2Proof/WellFormed.lean ====
section
/-! DEFINITION. Which commands are well formed: every operand fits the field or the structure it stands for. A command that
is not is no happening of the package; the meanings are total on it all the same. -/

namespace Sys2Proof

/-- A word access of BAR0 that the package serves (R10, R552): below page 131,072, an aligned word. -/
def accessOk (page off width : Nat) : Bool := decide (page < 131072) && decide (off < 4096) && off % 4 == 0 && width == 4

/-- A row of 64 bytes of a local store (R68). -/
def rowOk (row : Nat) : Bool := decide (row < 19520)

/-- Rows found bad lie in the local store. -/
def rowsOk (errs : RowErrs) : Bool := errs.all (fun e => rowOk e.1)

/-- Lines found bad lie in package memory (R176). -/
def linesOk (errs : LineErrs) : Bool := errs.all (fun e => decide (e.1 < 2 ^ 41))

/-- An address a tile controller can name. -/
def lsAddrOk (a : Nat) : Bool := decide (a < 2 ^ 32)

/-- A bay reduction slot (R130). -/
def slotOk (k : Nat) : Bool := decide (k < 8192)

/-- A page of this package, or of a guest by its owner's fabric ID and page (R176, R221). -/
def pageOk (guest : Bool) (page : Nat) : Bool := decide (page < if guest then 2 ^ 40 else 1048576)

/-- What a port has measured: 8 lanes, 2 lasers. -/
def LinkTick.wf (t : LinkTick) : Bool :=
  decide (t.corrected ≤ t.cwhs.length) && t.syms.length == 8 && t.power.length == 8 && t.bias.length == 2 &&
    t.output.length == 2 && t.temp.length == 2

/-- A command in progress of a queue: at most 16 are (R464). -/
def cmdOk (n : Nat) : Bool := decide (n < 16)

/-- A sample of a sensor, in 1/8 °C of a 12-bit conversion (R410). -/
def tempOk (t : Int) : Bool := decide (-2048 ≤ t ∧ t < 2048)

/-- The fields of a packet fit (R293). -/
def Packet.wf (p : Packet) : Bool :=
  decide (p.op < 32 ∧ p.vc < 5 ∧ p.hops < 16 ∧ p.msgId < 256 ∧ p.jobTag < 2 ^ 16 ∧ p.tryN < 8 ∧ p.dstFid < 2 ^ 20 ∧
    p.srcFid < 2 ^ 20 ∧ p.seq < 2 ^ 32 ∧ p.ctx < 2 ^ 18) &&
  decide (p.addr < 2 ^ 64 ∧ p.msgBytes < 2 ^ 32 ∧ p.dstSync < 2 ^ 16 ∧ p.aop < 16 ∧ p.arg < 2 ^ 64 ∧ p.payload.length ≤ 4096)

/-- The link numbers of a SYNC flit fit (R340). -/
def SHdr.wf (h : SHdr) : Bool := decide (h.lseq < 256 ∧ h.lack < 256)

/-- The fields of a HELLO frame fit (R242). -/
def Hello.wf (h : Hello) : Bool :=
  decide (h.typ < 256 ∧ h.version < 256 ∧ h.fwEpoch < 2 ^ 32 ∧ h.serial < 2 ^ 64 ∧ h.port < 16 ∧ h.kind < 4 ∧ h.state < 8) &&
  decide (h.fid < 2 ^ 20 ∧ h.dims < 16 ∧ h.pos < 2 ^ 13 ∧ h.seq < 2 ^ 32 ∧ h.seenSerial < 2 ^ 64 ∧ h.seenPort < 16)

/-- The fields of a master announcement fit (R370). -/
def MasterMsg.wf (m : MasterMsg) : Bool := decide (m.serial < 2 ^ 64 ∧ m.mseq < 2 ^ 32 ∧ m.depth < 64 ∧ m.lead < 2 ^ 64)

/-- The fields of a pace post fit (R380). -/
def PaceMsg.wf (m : PaceMsg) : Bool := decide (m.origin < 2 ^ 64 ∧ m.oseq < 2 ^ 16 ∧ m.mhz < 4096 ∧ m.tag < 2 ^ 16)

/-- The fields of a partial fit (R359). -/
def PartialMsg.wf (m : PartialMsg) : Bool :=
  decide (m.obj < 2 ^ 16 ∧ m.round < 16 ∧ m.gen < 2 ∧ m.phase < 4 ∧ m.status < 256 ∧ m.fenced < 2 ^ 14 ∧ m.tag < 2 ^ 16) &&
  decide (m.first < 2 ^ 32 ∧ m.last < 2 ^ 32 ∧ m.fp32 < 2 ^ 32) && (m.record.length == 96 || m.record.length == 0)

/-- The well-formed commands. -/
def Instr.wf : Instr → Bool
  | .registerWrite page off width _ => accessOk page off width
  | .loRegisterRead page off width => accessOk page off width
  | .rcRegisterRead page off width _ => accessOk page off width
  | .tileFailure _ _ cause _ lines => cause ≤ 4 && linesOk lines
  | .tileWatchdogExpire _ _ lines => linesOk lines
  | .tileControllerParity _ _ lines => linesOk lines
  | .lsRowRetest _ _ row _ lines => rowOk row && linesOk lines
  | .kernelLoadDone _ _ _ errs => linesOk errs
  | .mopIssue _ _ _ addr errs lines => lsAddrOk addr && rowsOk errs && linesOk lines
  | .mopIssueResume _ _ _ errs lines => rowsOk errs && linesOk lines
  | .mopComplete _ _ _ errs _ lines => rowsOk errs && linesOk lines
  | .vectorInstruction _ _ _ _ errs lines => rowsOk errs && linesOk lines
  | .dmCopy _ _ _ addr errs lines => lsAddrOk addr && rowsOk errs && linesOk lines
  | .dmGather _ _ _ addr errs lines => lsAddrOk addr && rowsOk errs && linesOk lines
  | .dmScatter _ _ _ addr errs lines => lsAddrOk addr && rowsOk errs && linesOk lines
  | .dmFill _ _ _ addr errs lines => lsAddrOk addr && rowsOk errs && linesOk lines
  | .dmIssueResume _ _ _ errs lines => rowsOk errs && linesOk lines
  | .dmComplete _ _ _ _ errs lines => rowsOk errs && linesOk lines
  | .windowOpen _ _ _ syncObj => decide (syncObj < 65536)
  | .slotArm _ k _ => slotOk k
  | .slotRelease _ k _ => slotOk k
  | .slotAnchorContrib _ k _ => slotOk k
  | .slotRecordContrib _ k data => slotOk k && (data.length == 96 || data.length == 4)
  | .poolDoorbell _ count => decide (count < 131072)
  | .taskTake _ _ _ errs => linesOk errs
  | .tileRetire _ _ lines => linesOk lines
  | .poolCqHeadWrite _ _ errs => linesOk errs
  | .poolFlush errs => linesOk errs
  | .poolReload errs => linesOk errs
  | .taskExit _ _ _ _ lines => linesOk lines
  | .taskAbort _ _ _ _ _ lines => linesOk lines
  | .taskTimeout _ _ _ _ lines => linesOk lines
  | .partnerEnd _ _ _ lines => linesOk lines
  | .flowEnable _ errs => linesOk errs
  | .objArm _ errs => linesOk errs
  | .commitNow _ errs => linesOk errs
  | .commitAtReached _ errs => linesOk errs
  | .stageCheckDone _ errs => linesOk errs
  | .dtabBankCopyDone _ errs => linesOk errs
  | .remarginVisitDone _ _ _ _ lines => linesOk lines
  | .marginBump _ _ lines => linesOk lines
  | .kernelPost _ _ _ _ count => decide (count < 131072)
  | .movePassDone own page errs => pageOk own page && linesOk errs
  | .pageMoveDone own page errs => pageOk own page && linesOk errs
  | .guest _ pk => pk.wf
  | .guestRsp _ pk room => pk.wf && decide (room < 1048576)
  | .helloReceive _ hdr h _ => hdr.wf && h.wf
  | .dtabLoadDone _ errs => linesOk errs
  | .dataFlit _ _ flit => flit.length == 64
  | .flitCrcError _ _ _ flit => flit.length == 64
  | .linkFlitTimer _ t => t.wf
  | .packetRoute _ errs room => linesOk errs && decide (room < 1048576)
  | .write _ pk errs => pk.wf && linesOk errs
  | .haloWrite _ pk => pk.wf
  | .readReq _ pk errs => pk.wf && linesOk errs
  | .atomic _ pk errs => pk.wf && linesOk errs
  | .mcWrite _ pk errs => pk.wf && linesOk errs
  | .syncFrag _ pk => pk.wf
  | .cktWrite _ pk errs => pk.wf && linesOk errs
  | .cktHalo _ pk => pk.wf
  | .readRsp _ pk errs => pk.wf && linesOk errs
  | .atomicRsp _ pk => pk.wf
  | .ack _ pk => pk.wf
  | .reject _ pk => pk.wf
  | .mcAck _ pk => pk.wf
  | .cktAck _ pk => pk.wf
  | .syncAck _ h => h.wf
  | .timeReq _ h _ => h.wf
  | .timeRsp _ h _ _ _ => h.wf
  | .masterMsg _ h m => h.wf && m.wf
  | .partialMsg _ h m => h.wf && m.wf
  | .pace _ h m => h.wf && m.wf
  | .syncContrib _ _ _ _ data => data.length == 96 || data.length == 4
  | .stagedWrite _ off _ => decide (off < 4096) && off % 4 == 0
  | .sensorSample _ a b _ _ => tempOk a && tempOk b
  | .bar2Read off n errs => decide (off.val + n ≤ 68719476736) && linesOk errs
  | .bar2Write off data errs => decide (off.val + data.length ≤ 68719476736) && linesOk errs
  | .poisonedTlp _ _ n _ => cmdOk n
  | .nop _ n => cmdOk n
  | .copyH2d _ n _ errs _ => cmdOk n && linesOk errs
  | .copyD2h _ n errs _ _ => cmdOk n && linesOk errs
  | .hostFill _ n errs _ => cmdOk n && linesOk errs
  | .postTasks _ n _ _ => cmdOk n
  | .hostSignal _ n => cmdOk n
  | .waitSync _ n => cmdOk n
  | .waitSyncRelease _ n => cmdOk n
  | .waitSyncTimeout _ n => cmdOk n
  | .hostCommandDone _ n => cmdOk n
  | .mgmtFrameDiscard _ payload => decide (payload.length ≤ 1500)
  | .rackOrder _ _ _ _ _ sig _ => sig.length == 64
  | .hallmarkIntervalEnd samples ns temp _ _ =>
      samples.all (fun x => decide (x.1 < 2 ^ 17 ∧ x.2 < 2 ^ 17)) && decide (ns < 2 ^ 32 ∧ -2 ^ 15 ≤ temp ∧ temp < 2 ^ 15)
  | .i3cPrivateWrite bytes => bytes.length != 0
  | .settingsGroupWrite _ bytes blocks _ => decide (0 < bytes ∧ bytes ≤ 0x600000) && !blocks.isEmpty
  | .pcieLinkUp gen width flit => gen.val != 0 && (width.val == 1 || width.val == 2 || width.val == 4) && (flit || decide (gen.val < 6))
  | .xferPiece _ _ _ _ data => data.length == 1024
  | .xtabReadDone _ errs => linesOk errs
  | .summaryPropagate _
  | .dieLinkOut _ _ _
  | .fenceCmd
  | .evtPendClear _ _ _
  | .evtMaskWrite _ _
  | .evtForce _ _
  | .watermarkWrite _ _ _
  | .tileLost _
  | .spareSelftestDone _ _
  | .tileSpared _
  | .failureFuseBlow _ _
  | .windowClose _ _ _
  | .tileDrain _ _ _
  | .poolEnable
  | .poolDisable
  | .poolClear
  | .searchTierOpen _ _ _
  | .fullHold _
  | .taskStart _ _ _
  | .channelTrainDone _ _ _ _ _
  | .memoryFillDone _ _
  | .scrubLine _ _ _ _ _
  | .channelTrack _ _ _ _
  | .channelRetrain _ _
  | .channelRetrainDone _ _ _
  | .mchnRetrain _ _
  | .mchnRetire _ _
  | .channelDrainDone _ _
  | .stackTempRead _ _
  | .placeAlloc _ _ _
  | .placeFree _ _ _
  | .placeSetPin _ _ _
  | .placeQuery _ _ _
  | .placeFreeGuests _ _ _
  | .placeReqReserved _ _ _ _
  | .placeReqDone
  | .placeEpochEnd
  | .heatCountFlush _ _
  | .frameZeroDone _
  | .drainResume _ _
  | .lostScan _
  | .helloSend _
  | .helloSilence _
  | .dtabLoad _
  | .dtabEdit _
  | .linkEnableWrite _ _
  | .linkRetrain _
  | .linkTestSelect _ _
  | .prbsConfigWrite _ _ _ _ _
  | .trainingFrame _ _ _ _ _
  | .linkSignalDetected _
  | .linkTrained _
  | .linkCdrLocked _
  | .linkAligned _
  | .capFlit _ _ _ _ _ _
  | .linkUp _
  | .linkStepTimeout _
  | .uncorrectableCodeword _ _
  | .linkAck _ _
  | .linkNak _ _
  | .creditFlit _ _ _ _ _ _ _
  | .linkRejectFlit _ _
  | .idleEnterFlit _ _
  | .loopReqFlit _ _
  | .loopExitFlit _ _
  | .farLoopTimeout _
  | .nakResendTimer _
  | .idleEntry _
  | .idleExit _
  | .laneSignalLoss _
  | .signalReturn _
  | .losHoldExpire _
  | .cdrLockLoss _
  | .laserTrip _ _
  | .laserSwitchCmd _
  | .standbyClaimCheck _ _
  | .laserSwitchComplete _
  | .laserCalDone _ _ _ _ _
  | .packetCommit _
  | .penReset _ _
  | .escWaitExpire _
  | .penAgeDrop _
  | .transitWindowTick
  | .flowRto _ _
  | .flowAckTimer _ _
  | .flowDisable _
  | .cktRto _
  | .mcRoundRto _ _
  | .kernelAtomic _ _ _ _ _ _ _ _
  | .syncResendTimer _
  | .syncAckTimer _
  | .timeExchangeTick _
  | .masterAnnounce
  | .masterStale _
  | .roundTimeout _
  | .partialDetour _ _
  | .pacePost
  | .paceRepost
  | .paceEntryExpire _
  | .objDisarm _
  | .objSignal _ _ _
  | .objSet _ _
  | .objClear _ _
  | .syncWait _ _ _ _
  | .syncRead _ _ _ _
  | .commitAt _
  | .commitCancel _
  | .powerSample _ _
  | .shareRecompute _ _ _ _ _
  | .phaseLearn _ _ _ _
  | .phaseForget
  | .droopDetect _ _ _
  | .droopStretchEnd _ _ _
  | .droopCeilRise _ _
  | .freqSlewStep _ _
  | .freqDeferEnd _ _
  | .railRampStep _ _
  | .railFallHoldExpire _ _
  | .capThermAdjust _
  | .thermalTrip _
  | .coolant _ _ _ _ _ _ _
  | .coolantMissing
  | .flowCheck
  | .thermalCycleSample _
  | .remarginVisit _ _
  | .rmarginLate _ _
  | .assayStart
  | .hallmarkCopy _
  | .assayLinkLost
  | .droveTimeToAssay
  | .sqDoorbell _ _
  | .hostCqHeadWrite _ _
  | .queueEnable
  | .queueDisable
  | .queueClean
  | .commandFetch _ _ _
  | .msixHoldoffEnd _
  | .flr
  | .hotReset
  | .perstN
  | .pcieLinkDown
  | .functionReady
  | .bootGo
  | .bootVerifyDone
  | .powerOn
  | .inputPowerLoss
  | .pkgResetAssert
  | .pkgResetRelease _ _
  | .softReset _ _ _
  | .pkgIsolate
  | .hctlWatchdog _
  | .hctlRestartDone
  | .startReady
  | .startFailed _
  | .mgmtLinkChange _
  | .heartbeat
  | .heartbeatLost _
  | .hallmarkReq _ _ _ _
  | .statusBroadcast
  | .bootReqSend
  | .i3cPrivateRead _
  | .i3cEntdaa _
  | .storeForget
  | .xferStart _ _ _ _
  | .xferQuery _ _
  | .xferAbort _ _
  | .chunkWriteDone _ _
  | .slotVerifyDone _
  | .fwPrepare
  | .fwPrepareDone _
  | .fwDiscard
  | .fwMark
  | .fwSeal
  | .fwImageConfirm _ _
  | .fwHandoverTimeout _ _
  | .fwSelectionWritten
  | .tileTmcSwitch _ _
  | .fwTileWaitExpire
  | .recoverySetWritten _ _
  | .masterEligible
  | .internalRailsGood _ _
  | .auxRailGood
  | .configSpaceWrite _ _ _ _
  | .bootSlotWriteDone
  | .stateMemoryUe
  | .fcastModeChange
  | .imagesLoaded
  | .settingsRestored
  | .farLoopLosTimeout _
  | .prbsLock _ _ _ _
  | .prbsLockLoss _ _ _ _ => true

end Sys2Proof
end

