-- ==== Sys2Proof/Tests/Slice0.lean ====
section
/-! SUPPORT. Small states, and for every statement that has hypotheses a state and operands that meet them; ill-formed operands
and what refuses them. -/

set_option Elab.async false

namespace Sys2Proof.Machine

open Sys2Proof

/-- The package READY, all else as after reset. -/
def Tests.up : State := State.reset.setF .pkg Reg.PKG.START_STATE 4
/-- The package READY with one tile, 0 of compute die 0, as given. -/
def Tests.tileS (x : Tile) : State := { Tests.up with tiles := [(0, x)] }
/-- A running task of pool 0 for the full engine that may write all of the data region. -/
def Tests.task : Task :=
  { Task.fresh 0 (leBytes 4 0x20000 ++ List.replicate 28 0 ++ leBytes 4 0xA000 ++ leBytes 4 0x131000 ++
      leBytes 4 0xA000 ++ leBytes 4 0xA000 ++ List.replicate 80 0) with start := some 0 }
/-- A tile that runs it in slot 0, with bytes in its local store. -/
def Tests.busy (a : Nat) (b : List Byte) : Tile := { Tile.init with slot0 := some Tests.task, ls := Map.writeBytes [] a b }
/-- A matrix operation of one element in FP32, fast. -/
def Tests.mop : List Byte :=
  leBytes 4 0x08010101 ++ leBytes 2 1 ++ leBytes 2 1 ++ leBytes 4 1 ++ leBytes 4 0 ++ leBytes 4 0xA000 ++ leBytes 4 0xA040 ++
    leBytes 4 0xA080 ++ leBytes 4 0 ++ leBytes 8 0 ++ leBytes 4 16 ++ leBytes 4 16 ++ leBytes 4 16 ++ leBytes 12 0
/-- A descriptor of an OP that moves 64 bytes within the local store. -/
def Tests.dmDesc (op : Nat) : List Byte :=
  leBytes 4 (op + (if op = 2 ∨ op = 3 then 0x200 else 0x100)) ++ leBytes 4 0 ++ leBytes 8 0xB000 ++ leBytes 8 0xC000 ++ leBytes 4 64 ++
    leBytes 4 1 ++ leBytes 80 0 ++ leBytes 8 0xA000 ++ leBytes 8 0
/-- An enabled pool 0 of compute die 0 with rings of 16 in its first pages, for every cluster. -/
def Tests.pool : Pool :=
  { Pool.init with
    entry := leBytes 8 0x100000 ++ leBytes 8 0x180000 ++ leBytes 4 0x404 ++ leBytes 4 0x1FFF ++ leBytes 40 0
    state := 1 }
/-- The package READY with one memory channel, 0 of stack 0, in a state. -/
def Tests.chS (st : Nat) (mm : MemSt) : State := { Tests.up.setF (.mchn 0 0) Reg.MCHN.STATE_STATE st with mm := mm }
/-- One page of its first frame. -/
def Tests.page : Page := { Page.free with st := .loc, place := .frame 0 }
/-- A placement request. -/
def Tests.req (op count : Nat) (status : Option Nat) : PlaceReq := ⟨op, 0, count, 0, 0, false, 0, status, 0, [], [], false, false⟩
/-- The package READY with port 3 enabled at a link state. -/
def Tests.linkS (st : Nat) (l : LinkSt) : State :=
  { (Tests.up.setF (.port 3) Reg.PORT.LINK_CTL_ENABLE 1).setF (.port 3) Reg.PORT.LINK_STAT_STATE st with links := [(3, l)] }
/-- The package READY with a router state of hub 1. -/
def Tests.routS (r : RoutSt) : State := { Tests.up with net := { NetSt.reset with r1 := r } }
/-- A HELLO frame of a neighbour. -/
def Tests.hello : Hello := ⟨1, 1, 0, 7, 2, 0, false, true, 2, 5, 4, 1, 9, 0, 0, false⟩
/-- A packet of an operation from fabric ID 9 to this package, for job 7 and context 5. -/
def Tests.pk (op : Nat) (payload : List Byte) : Packet :=
  ⟨op, 0, true, 0, false, 1, 7, 0, 0xFFFFF, 9, 0, 5, 0x1000, payload.length, 0, false, 0, 0, payload⟩
/-- The package READY in job 7 with flow context 5. -/
def Tests.flowS (f : Flow) : State :=
  { Tests.up.setF .pkg Reg.PKG.JOB_TAG_TAG 7 with net := { NetSt.reset with flows := [(5, f)] } }
/-- An enabled context of a kind, its peer fabric ID 9. -/
def Tests.flow (kind : Nat) : Flow :=
  { Flow.init with state := 1, kind := kind, winLog := 4, retryMax := 3, rtoUs := 100, peerFid := 9, peerCtx := 5, replyAddr := 0x4000 }
/-- The package READY with a packet at the head of pen 0 of port 3, and a destination entry of hub 0. -/
def Tests.penS (pk : Packet) (w : Word) (esc : Bool) : State :=
  { Tests.linkS 6 { LinkSt.init with pens := [(0, ⟨[pk], pk.flits, esc, 0, []⟩)] } with
    net := { NetSt.reset with r0 := { RoutSt.init with dtab := [(0xFFFFF, w)] } } }
/-- That package with port 4 of hub 0 ADMITTED too, its neighbour's pens empty. -/
def Tests.routable (w : Word) (esc : Bool) : State :=
  let s := (Tests.penS (Tests.pk 1 [7]) w esc).setF (.rout 0) Reg.ROUT.ROUTE_CFG_HOP_LIMIT 12
  let s := ((s.setF (.port 4) Reg.PORT.LINK_CTL_ENABLE 1).setF (.port 4) Reg.PORT.LINK_STAT_STATE 6).setF (.port 4)
    Reg.PORT.ADMIT_STATE_STATE 4
  (s.setLink 4 { LinkSt.init with limit := [(0, 9), (1, 9)] }).setF .pkg Reg.PKG.JOB_TAG_TAG 7
/-- The package READY in job 7 with entry 5 of the circuit table, and a packet of its circuit received. -/
def Tests.cktS (w : Nat) : State :=
  { Tests.up.setF .pkg Reg.PKG.JOB_TAG_TAG 7 with
    net := { NetSt.reset with r0 := { RoutSt.init with ckt := [(5, w)] }, ckts := [(5, { Ckt.init with fresh := 1 })] } }
/-- The package READY in job 7, the sink of circuit 5 that comes in on port 3. -/
def Tests.cktIn (k : Ckt) : State :=
  { Tests.up.setF .pkg Reg.PKG.JOB_TAG_TAG 7 with
    mm := { MemSt.reset with pages := [(0, Tests.page)] },
    net := { NetSt.reset with r0 := { RoutSt.init with ckt := [(5, 0x90000001F + 4 * 2 ^ 64)] }, ckts := [(5, k)] } }
/-- The package READY in job 7, a member of multicast group 5 rooted at fabric ID 9. -/
def Tests.mcS : State :=
  { Tests.up.setF .pkg Reg.PKG.JOB_TAG_TAG 7 with net := { NetSt.reset with r0 := { RoutSt.init with mc := [(5, 0x909)] } } }
/-- The package READY in job 7 with port 3 ADMITTED on an ACTIVE link, and object 5 as given. -/
def Tests.syncS (o : Obj) (l : LinkSt) : State :=
  { ((Tests.linkS 6 l).setF (.port 3) Reg.PORT.ADMIT_STATE_STATE 4).setF .pkg Reg.PKG.JOB_TAG_TAG 7 with objs := [(5, o)] }
/-- An armed object of a kind that any source may use. -/
def Tests.obj (kind : Nat) : Obj := { Obj.idle with kind := kind, scope := 2, state := 1, init := 2, phase := if kind = 4 then 3 else 0 }
/-- A master's announcement, a pace post and a partial. -/
def Tests.master : MasterMsg := ⟨7, 1, 0, true, 0⟩
def Tests.paceM : PaceMsg := ⟨9, 1, 2000, 7⟩
def Tests.part : PartialMsg := ⟨5, 0, 0, 0, false, 0, 0, false, 7, 0, 0, 0, 0, []⟩
/-- One tile at 2,500 MHz. -/
def Tests.clocked : State := (Tests.tileS Tile.init).setF (.tile 0 0) Reg.TILE.CLK_MHZ 2500
/-- Cluster 0 of compute die 0 without active tiles. -/
def Tests.noIslands : State := (List.range 8).foldl (fun (s : State) t => s.setTileState 0 t 1) Tests.up
/-- The package READY, powered and out of reset. -/
def Tests.runS : State := { Tests.up with mg := { Tests.up.mg with rails := true, aux := true } }
/-- The package READY with host queue 2 as given, Bus Master Enable set, page 0 allocated. -/
def Tests.hostS (q : HostQ) : State :=
  { Tests.up with
    host := { HostSt.reset with bme := true, queues := [(2, q)] }, mm := { MemSt.reset with pages := [(0, Tests.page)] } }
/-- An enabled queue with one command in progress, of an operation with a length and two arguments. -/
def Tests.cmd (opc len arg0 arg1 : Nat) : HostCmd :=
  ⟨leBytes 4 opc ++ leBytes 4 len ++ leBytes 8 1 ++ leBytes 8 0x1000 ++ leBytes 8 0x1000 ++ leBytes 8 arg0 ++ leBytes 8 arg1 ++
    leBytes 16 0, true, false, none, 0, none, 0, false, 0⟩
def Tests.queue (run : List HostCmd) : HostQ := { HostQ.init with state := 1, run := run }
/-- The package READY with its assay die measuring. -/
def Tests.assayS (a : AssaySt) : State := { Tests.up with assay := { a with running := true } }
/-- A package whose START.STATE is given, out of reset with its rails up. -/
def Tests.startS (st : Nat) : State :=
  let s := State.reset.setF .pkg Reg.PKG.START_STATE st
  { s with mg := { s.mg with rails := true, aux := true } }
/-- The package READY with a firmware transfer in hand and FW_STAT.STATE given. -/
def Tests.fwS (st : Nat) (x : FwSt) : State :=
  let s := Tests.up.setF .hctl Reg.HCTL.FW_STAT_STATE st
  { s with mg := { s.mg with rails := true, fw := x } }
/-- A start-up in INIT with every channel out or serving. -/
def Tests.trained : State := (Tests.startS 3).setF (.mchn 0 0) Reg.MCHN.STATE_STATE 2
/-- The package READY with its rails up: management is served. -/
def Tests.upM : State := Tests.startS 4

theorem test_meets_RegisterAccessCompletes :
    ((8 : Nat) ≠ 4 ∨ (0x110 : Nat) % 4 ≠ 0) ∧
    ((Tests.up).ready = true) ∧
    ((Tests.up).ready = true) ∧
    (({ Tests.up with latch := [(regKey (.sync 0) 0x050, 7)] } : State).ready = true) ∧ (({ Tests.up with latch := [(regKey (.sync 0) 0x050, 7)] } : State).latch.find (regKey (.sync 0) 0x050) = some (7 : Word)) ∧
    ((Tests.up.setF .pkg Reg.EVT_CNT_SEL_BIT 20).getF .pkg Reg.EVT_CNT_SEL_BIT = (20 : Nat)) ∧ (16 ≤ (20 : Nat) ∧ (20 : Nat) ≤ 20) ∧ (({ (Tests.up.setF .pkg Reg.EVT_CNT_SEL_BIT 20) with evtCnt := (Tests.up.setF .pkg Reg.EVT_CNT_SEL_BIT 20).evtCnt.putD (evtKey .pkg (20 : Nat)) (min ((3 : Nat) - 1) 0xFFFF) 0 } : State) = { (Tests.up.setF .pkg Reg.EVT_CNT_SEL_BIT 20) with evtCnt := (Tests.up.setF .pkg Reg.EVT_CNT_SEL_BIT 20).evtCnt.putD (evtKey .pkg (20 : Nat)) (min ((3 : Nat) - 1) 0xFFFF) 0 }) := by decide +kernel

theorem test_meets_EventsAndFences_1 :
    ((Tests.up).pageOpen (.hctl : UnitId) = true) ∧ ((.hctl : UnitId) ≠ .pkg) ∧
    ((Tests.up).pageOpen (.hctl : UnitId) = true) ∧ ((.hctl : UnitId) ≠ .pkg) ∧ ((Tests.up).getW (.hctl : UnitId) 0x014 &&& (Tests.up).getW (.hctl : UnitId) 0x018 &&& ~~~(0xFF : Word) = 0) ∧
    ((Tests.up).pageOpen (.hctl : UnitId) = true) ∧ ((.hctl : UnitId) ≠ .pkg) ∧
    ((Tests.up.setF (.port 9) Reg.HEALTH_HEALTH (Tests.up.getF (.port 9) Reg.HEALTH_OWN)) = (Tests.up).setF (.port (9 : Fin 16)) Reg.HEALTH_HEALTH ((Tests.up).getF (.port (9 : Fin 16)) Reg.HEALTH_OWN)) ∧ ((((Tests.up.setF (.port 9) Reg.HEALTH_HEALTH (Tests.up.getF (.port 9) Reg.HEALTH_OWN)).setW (.hub 1) 0x014 (setBits ((Tests.up.setF (.port 9) Reg.HEALTH_HEALTH (Tests.up.getF (.port 9) Reg.HEALTH_OWN)).getW (.hub 1) 0x014) 1 1 0)) = (Tests.up.setF (.port 9) Reg.HEALTH_HEALTH (Tests.up.getF (.port 9) Reg.HEALTH_OWN)).setW (.hub ⟨(9 : Fin 16) / 8, by omega⟩) 0x014 (setBits ((Tests.up.setF (.port 9) Reg.HEALTH_HEALTH (Tests.up.getF (.port 9) Reg.HEALTH_OWN)).getW (.hub ⟨(9 : Fin 16) / 8, by omega⟩) 0x014) ((9 : Fin 16) % 8) ((9 : Fin 16) % 8)
      (if (Tests.up.setF (.port 9) Reg.HEALTH_HEALTH (Tests.up.getF (.port 9) Reg.HEALTH_OWN)).unmasked (.port (9 : Fin 16)) then 1 else 0)))) ∧
    ((Tests.up).fenced = false) ∧ ((Tests.up).mg.resetLow = false) ∧ ((Tests.up).objs = []) ∧ ((Tests.up).getF .hctl Reg.HCTL.FCAST_MODE = 0) ∧
    ((Tests.up.setF .pkg Reg.PKG.FENCE_FENCED 1).fenced = true) := by decide +kernel

theorem test_meets_EventsAndFences_2 :
    ((0x1FF : Nat) = (Tests.up).getF .pkg Reg.PKG.DIE_LINKS_UP) ∧ (((List.replicate 5 0 : List Nat) = (((Tests.up).mg.dieLog.getD (4 : Fin 9).val []).filter (fun at_ => decide ((Tests.up).elapsed ≤ at_ + 1000000000))) ++ List.replicate (min (5 : Nat) 1001) (Tests.up).elapsed)) ∧ (({ (Tests.up).bumpBy .pkg Reg.PKG.DIE_LINK_RETRY_COUNT (5 : Nat) with mg := { (Tests.up).mg with dieLog := (Tests.up).mg.dieLog.putD (4 : Fin 9).val (List.replicate 5 0 : List Nat) [] } } : State) = { (Tests.up).bumpBy .pkg Reg.PKG.DIE_LINK_RETRY_COUNT (5 : Nat) with mg := { (Tests.up).mg with dieLog := (Tests.up).mg.dieLog.putD (4 : Fin 9).val (List.replicate 5 0 : List Nat) [] } }) ∧ ((0x1FF : Nat) / 2 ^ (4 : Fin 9).val % 2 = 0 ∨ ((false : Bool) = false ∧ (List.replicate 5 0 : List Nat).length ≤ 1000)) ∧
    ((0x1FE : Nat) = (Tests.up.setF .pkg Reg.PKG.DIE_LINKS_UP 0x1FE).getF .pkg Reg.PKG.DIE_LINKS_UP) ∧ (((List.replicate 5 0 : List Nat) = (((Tests.up.setF .pkg Reg.PKG.DIE_LINKS_UP 0x1FE).mg.dieLog.getD (0 : Fin 9).val []).filter (fun at_ => decide ((Tests.up.setF .pkg Reg.PKG.DIE_LINKS_UP 0x1FE).elapsed ≤ at_ + 1000000000))) ++ List.replicate (min (5 : Nat) 1001) (Tests.up.setF .pkg Reg.PKG.DIE_LINKS_UP 0x1FE).elapsed)) ∧ (({ (Tests.up.setF .pkg Reg.PKG.DIE_LINKS_UP 0x1FE).bumpBy .pkg Reg.PKG.DIE_LINK_RETRY_COUNT (5 : Nat) with mg := { (Tests.up.setF .pkg Reg.PKG.DIE_LINKS_UP 0x1FE).mg with dieLog := (Tests.up.setF .pkg Reg.PKG.DIE_LINKS_UP 0x1FE).mg.dieLog.putD (0 : Fin 9).val (List.replicate 5 0 : List Nat) [] } } : State) = { (Tests.up.setF .pkg Reg.PKG.DIE_LINKS_UP 0x1FE).bumpBy .pkg Reg.PKG.DIE_LINK_RETRY_COUNT (5 : Nat) with mg := { (Tests.up.setF .pkg Reg.PKG.DIE_LINKS_UP 0x1FE).mg with dieLog := (Tests.up.setF .pkg Reg.PKG.DIE_LINKS_UP 0x1FE).mg.dieLog.putD (0 : Fin 9).val (List.replicate 5 0 : List Nat) [] } }) ∧ ((0x1FE : Nat) / 2 ^ (0 : Fin 9).val % 2 = 0 ∨ ((true : Bool) = false ∧ (List.replicate 5 0 : List Nat).length ≤ 1000)) := by decide +kernel

theorem test_meets_EventsAndFences_3 :
    ((Tests.up).fenced = false) ∧ ((Tests.up).getF .pkg Reg.PKG.START_STATE ≠ 6) ∧ ((0x1FF : Nat) = (Tests.up).getF .pkg Reg.PKG.DIE_LINKS_UP) ∧ (((List.replicate 8 0 : List Nat) = (((Tests.up).mg.dieLog.getD (4 : Fin 9).val []).filter (fun at_ => decide ((Tests.up).elapsed ≤ at_ + 1000000000))) ++ List.replicate (min (8 : Nat) 1001) (Tests.up).elapsed)) ∧ (({ (Tests.up).bumpBy .pkg Reg.PKG.DIE_LINK_RETRY_COUNT (8 : Nat) with mg := { (Tests.up).mg with dieLog := (Tests.up).mg.dieLog.putD (4 : Fin 9).val (List.replicate 8 0 : List Nat) [] } } : State) = { (Tests.up).bumpBy .pkg Reg.PKG.DIE_LINK_RETRY_COUNT (8 : Nat) with mg := { (Tests.up).mg with dieLog := (Tests.up).mg.dieLog.putD (4 : Fin 9).val (List.replicate 8 0 : List Nat) [] } }) ∧ ((0x1FF : Nat) / 2 ^ (4 : Fin 9).val % 2 = 1) ∧ ((true : Bool) = true ∨ 1000 < (List.replicate 8 0 : List Nat).length) ∧ (dieLinkCause ((0x1FF : Nat) - 2 ^ (4 : Fin 9).val) = 0) := by decide +kernel

theorem test_meets_EventsAndFences_4 :
    ((Tests.up).fenced = false) ∧ ((Tests.up).getF .pkg Reg.PKG.START_STATE ≠ 6) ∧ ((0x1FF : Nat) = (Tests.up).getF .pkg Reg.PKG.DIE_LINKS_UP) ∧ (((List.replicate 1001 0 : List Nat) = (((Tests.up).mg.dieLog.getD (4 : Fin 9).val []).filter (fun at_ => decide ((Tests.up).elapsed ≤ at_ + 1000000000))) ++ List.replicate (min (1001 : Nat) 1001) (Tests.up).elapsed)) ∧ (({ (Tests.up).bumpBy .pkg Reg.PKG.DIE_LINK_RETRY_COUNT (1001 : Nat) with mg := { (Tests.up).mg with dieLog := (Tests.up).mg.dieLog.putD (4 : Fin 9).val (List.replicate 1001 0 : List Nat) [] } } : State) = { (Tests.up).bumpBy .pkg Reg.PKG.DIE_LINK_RETRY_COUNT (1001 : Nat) with mg := { (Tests.up).mg with dieLog := (Tests.up).mg.dieLog.putD (4 : Fin 9).val (List.replicate 1001 0 : List Nat) [] } }) ∧ ((0x1FF : Nat) / 2 ^ (4 : Fin 9).val % 2 = 1) ∧ ((false : Bool) = true ∨ 1000 < (List.replicate 1001 0 : List Nat).length) ∧ (dieLinkCause ((0x1FF : Nat) - 2 ^ (4 : Fin 9).val) = 0) := by decide +kernel

theorem test_meets_WatermarkWrite :
    ((Tests.up).getF .hctl Reg.HCTL.PWR_LEVEL_WATTS < (Tests.up).getF .hctl Reg.HCTL.PWR_WM_HI_WATTS) ∧ ((0 : BitVec 16).toNat % 4096 ≤ (Tests.up).getF .hctl Reg.HCTL.PWR_LEVEL_WATTS) ∧
    ((Tests.up).getF .hctl Reg.HCTL.PWR_WM_HI_WATTS ≤ (Tests.up).getF .hctl Reg.HCTL.PWR_LEVEL_WATTS ∨
      (Tests.up).getF .hctl Reg.HCTL.PWR_LEVEL_WATTS < (1 : BitVec 16).toNat % 4096) ∧
    ((Tests.up.setF .place Reg.PLACE.SPILL_RATIO_LEVEL 5).ready = true) ∧ ((Tests.up.setF .place Reg.PLACE.SPILL_RATIO_LEVEL 5).getF .place Reg.PLACE.SPILL_RATIO_WM_LO < (Tests.up.setF .place Reg.PLACE.SPILL_RATIO_LEVEL 5).getF .place Reg.PLACE.SPILL_RATIO_LEVEL) ∧ ((Tests.up.setF .place Reg.PLACE.SPILL_RATIO_LEVEL 5).getF .place Reg.PLACE.SPILL_RATIO_LEVEL ≤ (5 : BitVec 16).toNat % (Reg.PLACE.SPILL_RATIO_WM_LO.max + 1)) := by decide +kernel

theorem test_meets_TileFailuresAndSpares_1 :
    (((Tests.up).findErrs ([] : LineErrs)) = (Tests.up).findErrs ([] : LineErrs)) ∧ (((.tileFailure 1 3 4 (some 1) [] : Instr) = .tileFailure (1 : Fin 4) (3 : Fin 104) (4 : Nat) (some 1) ([] : LineErrs) ∧ (4 : Nat) ≤ 4) ∨ ((.tileFailure 1 3 4 (some 1) [] : Instr) = .tileWatchdogExpire (1 : Fin 4) (3 : Fin 104) ([] : LineErrs) ∧ (4 : Nat) = 3) ∨
      ((.tileFailure 1 3 4 (some 1) [] : Instr) = .tileControllerParity (1 : Fin 4) (3 : Fin 104) ([] : LineErrs) ∧ (4 : Nat) = 3) ∨ ((.tileFailure 1 3 4 (some 1) [] : Instr) = .tileRetire (1 : Fin 4) (3 : Fin 104) ([] : LineErrs) ∧ (4 : Nat) = 5 ∧ (Tests.up).pageOpen (.tile (1 : Fin 4) (3 : Fin 104)) = true)) ∧ (((Tests.up).findErrs ([] : LineErrs)).tileActive (1 : Fin 4) (3 : Fin 104) = true) ∧ ((((Tests.up).findErrs ([] : LineErrs)).tile (1 : Fin 4) (3 : Fin 104)).slot0 = none) ∧ ((((Tests.up).findErrs ([] : LineErrs)).tile (1 : Fin 4) (3 : Fin 104)).slot1 = none) ∧ ((3 : Nat) = ((Tests.up).findErrs ([] : LineErrs)).slotOf (1 : Fin 4) (3 : Fin 104)) ∧ ((3 : Nat) < 100) ∧ (((Tests.up).findErrs ([] : LineErrs)).mg.fw.tmcOn = false) ∧ ((((Tests.up.setFails 1 (Tests.up.fails 1 ++ [⟨3, 3, 4, none, false⟩])).setF (.cdie 1) (Reg.CDIE.SLOT_VALID 3) 0).tileFailed 1 3) = ((((Tests.up).findErrs ([] : LineErrs)).setFails (1 : Fin 4) (((Tests.up).findErrs ([] : LineErrs)).fails (1 : Fin 4) ++ [⟨(3 : Fin 104), (3 : Nat), (4 : Nat), none, false⟩])).setF (.cdie (1 : Fin 4)) (Reg.CDIE.SLOT_VALID (3 : Nat)) 0).tileFailed (1 : Fin 4) (3 : Fin 104)) := by decide +kernel

theorem test_meets_TileFailuresAndSpares_2 :
    (((Tests.up).findErrs ([] : LineErrs)) = (Tests.up).findErrs ([] : LineErrs)) ∧ (((.tileWatchdogExpire 1 3 [] : Instr) = .tileFailure (1 : Fin 4) (3 : Fin 104) (3 : Nat) (some 1) ([] : LineErrs) ∧ (3 : Nat) ≤ 4) ∨ ((.tileWatchdogExpire 1 3 [] : Instr) = .tileWatchdogExpire (1 : Fin 4) (3 : Fin 104) ([] : LineErrs) ∧ (3 : Nat) = 3) ∨
      ((.tileWatchdogExpire 1 3 [] : Instr) = .tileControllerParity (1 : Fin 4) (3 : Fin 104) ([] : LineErrs) ∧ (3 : Nat) = 3) ∨ ((.tileWatchdogExpire 1 3 [] : Instr) = .tileRetire (1 : Fin 4) (3 : Fin 104) ([] : LineErrs) ∧ (3 : Nat) = 5 ∧ (Tests.up).pageOpen (.tile (1 : Fin 4) (3 : Fin 104)) = true)) ∧ (((Tests.up).findErrs ([] : LineErrs)).tileActive (1 : Fin 4) (3 : Fin 104) = true) ∧ ((((Tests.up).findErrs ([] : LineErrs)).tile (1 : Fin 4) (3 : Fin 104)).slot0 = none) ∧ ((((Tests.up).findErrs ([] : LineErrs)).tile (1 : Fin 4) (3 : Fin 104)).slot1 = none) ∧ ((3 : Nat) = ((Tests.up).findErrs ([] : LineErrs)).slotOf (1 : Fin 4) (3 : Fin 104)) ∧ ((3 : Nat) < 100) ∧ (((Tests.up).findErrs ([] : LineErrs)).mg.fw.tmcOn = false) ∧ ((((Tests.up.setFails 1 (Tests.up.fails 1 ++ [⟨3, 3, 3, none, false⟩])).setF (.cdie 1) (Reg.CDIE.SLOT_VALID 3) 0).tileFailed 1 3) = ((((Tests.up).findErrs ([] : LineErrs)).setFails (1 : Fin 4) (((Tests.up).findErrs ([] : LineErrs)).fails (1 : Fin 4) ++ [⟨(3 : Fin 104), (3 : Nat), (3 : Nat), none, false⟩])).setF (.cdie (1 : Fin 4)) (Reg.CDIE.SLOT_VALID (3 : Nat)) 0).tileFailed (1 : Fin 4) (3 : Fin 104)) := by decide +kernel

theorem test_meets_TileFailuresAndSpares_3 :
    (((Tests.up).findErrs ([] : LineErrs)) = (Tests.up).findErrs ([] : LineErrs)) ∧ (((.tileControllerParity 1 3 [] : Instr) = .tileFailure (1 : Fin 4) (3 : Fin 104) (3 : Nat) (some 1) ([] : LineErrs) ∧ (3 : Nat) ≤ 4) ∨ ((.tileControllerParity 1 3 [] : Instr) = .tileWatchdogExpire (1 : Fin 4) (3 : Fin 104) ([] : LineErrs) ∧ (3 : Nat) = 3) ∨
      ((.tileControllerParity 1 3 [] : Instr) = .tileControllerParity (1 : Fin 4) (3 : Fin 104) ([] : LineErrs) ∧ (3 : Nat) = 3) ∨ ((.tileControllerParity 1 3 [] : Instr) = .tileRetire (1 : Fin 4) (3 : Fin 104) ([] : LineErrs) ∧ (3 : Nat) = 5 ∧ (Tests.up).pageOpen (.tile (1 : Fin 4) (3 : Fin 104)) = true)) ∧ (((Tests.up).findErrs ([] : LineErrs)).tileActive (1 : Fin 4) (3 : Fin 104) = true) ∧ ((((Tests.up).findErrs ([] : LineErrs)).tile (1 : Fin 4) (3 : Fin 104)).slot0 = none) ∧ ((((Tests.up).findErrs ([] : LineErrs)).tile (1 : Fin 4) (3 : Fin 104)).slot1 = none) ∧ ((3 : Nat) = ((Tests.up).findErrs ([] : LineErrs)).slotOf (1 : Fin 4) (3 : Fin 104)) ∧ ((3 : Nat) < 100) ∧ (((Tests.up).findErrs ([] : LineErrs)).mg.fw.tmcOn = false) ∧ ((((Tests.up.setFails 1 (Tests.up.fails 1 ++ [⟨3, 3, 3, none, false⟩])).setF (.cdie 1) (Reg.CDIE.SLOT_VALID 3) 0).tileFailed 1 3) = ((((Tests.up).findErrs ([] : LineErrs)).setFails (1 : Fin 4) (((Tests.up).findErrs ([] : LineErrs)).fails (1 : Fin 4) ++ [⟨(3 : Fin 104), (3 : Nat), (3 : Nat), none, false⟩])).setF (.cdie (1 : Fin 4)) (Reg.CDIE.SLOT_VALID (3 : Nat)) 0).tileFailed (1 : Fin 4) (3 : Fin 104)) := by decide +kernel

theorem test_meets_TileFailuresAndSpares_4 :
    (((Tests.up).findErrs ([] : LineErrs)) = (Tests.up).findErrs ([] : LineErrs)) ∧ (((.tileRetire 1 3 [] : Instr) = .tileFailure (1 : Fin 4) (3 : Fin 104) (5 : Nat) (some 1) ([] : LineErrs) ∧ (5 : Nat) ≤ 4) ∨ ((.tileRetire 1 3 [] : Instr) = .tileWatchdogExpire (1 : Fin 4) (3 : Fin 104) ([] : LineErrs) ∧ (5 : Nat) = 3) ∨
      ((.tileRetire 1 3 [] : Instr) = .tileControllerParity (1 : Fin 4) (3 : Fin 104) ([] : LineErrs) ∧ (5 : Nat) = 3) ∨ ((.tileRetire 1 3 [] : Instr) = .tileRetire (1 : Fin 4) (3 : Fin 104) ([] : LineErrs) ∧ (5 : Nat) = 5 ∧ (Tests.up).pageOpen (.tile (1 : Fin 4) (3 : Fin 104)) = true)) ∧ (((Tests.up).findErrs ([] : LineErrs)).tileActive (1 : Fin 4) (3 : Fin 104) = true) ∧ ((((Tests.up).findErrs ([] : LineErrs)).tile (1 : Fin 4) (3 : Fin 104)).slot0 = none) ∧ ((((Tests.up).findErrs ([] : LineErrs)).tile (1 : Fin 4) (3 : Fin 104)).slot1 = none) ∧ ((3 : Nat) = ((Tests.up).findErrs ([] : LineErrs)).slotOf (1 : Fin 4) (3 : Fin 104)) ∧ ((3 : Nat) < 100) ∧ (((Tests.up).findErrs ([] : LineErrs)).mg.fw.tmcOn = false) ∧ ((((Tests.up.setFails 1 (Tests.up.fails 1 ++ [⟨3, 3, 5, none, false⟩])).setF (.cdie 1) (Reg.CDIE.SLOT_VALID 3) 0).tileFailed 1 3) = ((((Tests.up).findErrs ([] : LineErrs)).setFails (1 : Fin 4) (((Tests.up).findErrs ([] : LineErrs)).fails (1 : Fin 4) ++ [⟨(3 : Fin 104), (3 : Nat), (5 : Nat), none, false⟩])).setF (.cdie (1 : Fin 4)) (Reg.CDIE.SLOT_VALID (3 : Nat)) 0).tileFailed (1 : Fin 4) (3 : Fin 104)) := by decide +kernel

theorem test_meets_TileFailuresAndSpares_5 :
    (((Tests.up.setTileState 1 100 1).findErrs ([] : LineErrs)) = (Tests.up.setTileState 1 100 1).findErrs ([] : LineErrs)) ∧ (((Tests.up.setTileState 1 100 1).findErrs ([] : LineErrs)).tileState (1 : Fin 4) (100 : Fin 104) = 1) ∧ (((Tests.up.setTileState 1 100 1).tileFailed 1 100) = ((Tests.up.setTileState 1 100 1).findErrs ([] : LineErrs)).tileFailed (1 : Fin 4) (100 : Fin 104)) ∧
    (({ Tests.up with failing := [(1, [⟨3, 3, 4, none, false⟩])] }.setTileState 1 100 1 : State).fails (1 : Fin 4) = (⟨3, 3, 4, none, false⟩ : Failing) :: ([] : List Failing)) ∧ (({ Tests.up with failing := [(1, [⟨3, 3, 4, none, false⟩])] }.setTileState 1 100 1 : State).nextSpare (1 : Fin 4) = some (100 : Nat)) ∧ ((⟨3, 3, 4, none, false⟩ : Failing).loading = false) ∧
    (({ Tests.up with failing := [(1, [⟨3, 3, 4, none, false⟩])] }.setTileState 1 100 1 : State).fails (1 : Fin 4) = (⟨3, 3, 4, none, false⟩ : Failing) :: ([] : List Failing)) ∧ (({ Tests.up with failing := [(1, [⟨3, 3, 4, none, false⟩])] }.setTileState 1 100 1 : State).nextSpare (1 : Fin 4) = some (100 : Nat)) ∧ ((⟨3, 3, 4, none, false⟩ : Failing).loading = false) := by decide +kernel

theorem test_meets_TileFailuresAndSpares_6 :
    (({ Tests.up with failing := [(1, [⟨3, 3, 4, some 100, true⟩])] }.setTileState 1 100 1 : State).fails (1 : Fin 4) = (⟨3, 3, 4, some 100, true⟩ : Failing) :: ([] : List Failing)) ∧ ((⟨3, 3, 4, some 100, true⟩ : Failing).loading = true) ∧ ((⟨3, 3, 4, some 100, true⟩ : Failing).spare = some (100 : Fin 104).val) ∧ ((⟨3, 3, 4, some 100, true⟩ : Failing).slot < 100) ∧ ((({ Tests.up with failing := [(1, [⟨3, 3, 4, some 100, true⟩])] }.setTileState 1 100 1 : State).pw.spots.getD (104 * (1 : Fin 4) + (100 : Fin 104)) .init).failA = false) ∧ ((({ Tests.up with failing := [(1, [⟨3, 3, 4, some 100, true⟩])] }.setTileState 1 100 1 : State).pw.spots.getD (104 * (1 : Fin 4) + (100 : Fin 104)) .init).failB = false) ∧ (({ Tests.up with failing := [(1, [⟨3, 3, 4, some 100, true⟩])] }.setTileState 1 100 1 : State).tileState (1 : Fin 4) (100 : Fin 104) = 1) ∧ ((((({ Tests.up with failing := [(1, [⟨3, 3, 4, some 100, true⟩])] }.setTileState 1 100 1).setFails 1 []).setTileState 1 100 0).setTile 1 100 { Tile.init with newTmc := false, ceilTherm := 2500, visitDue := none, idleAt := 0 } : State) = ((({ Tests.up with failing := [(1, [⟨3, 3, 4, some 100, true⟩])] }.setTileState 1 100 1 : State).setFails (1 : Fin 4) ([] : List Failing)).setTileState (1 : Fin 4) (100 : Fin 104) 0).setTile (1 : Fin 4) (100 : Fin 104) { Tile.init with
      newTmc := ({ Tests.up with failing := [(1, [⟨3, 3, 4, some 100, true⟩])] }.setTileState 1 100 1 : State).mg.fw.tmcOn, ceilTherm := (({ Tests.up with failing := [(1, [⟨3, 3, 4, some 100, true⟩])] }.setTileState 1 100 1 : State).tile (1 : Fin 4) (100 : Fin 104)).ceilTherm, visitDue := (({ Tests.up with failing := [(1, [⟨3, 3, 4, some 100, true⟩])] }.setTileState 1 100 1 : State).tile (1 : Fin 4) (100 : Fin 104)).visitDue, idleAt := ({ Tests.up with failing := [(1, [⟨3, 3, 4, some 100, true⟩])] }.setTileState 1 100 1 : State).elapsed }) ∧ ((let a := ((({ Tests.up with failing := [(1, [⟨3, 3, 4, some 100, true⟩])] }.setTileState 1 100 1).setFails 1 []).setTileState 1 100 0).setTile 1 100 { Tile.init with newTmc := false, ceilTherm := 2500, visitDue := none, idleAt := 0 }
      (((a.setF (.cdie 1) Reg.CDIE.SPARES_LEFT (a.getF (.cdie 1) Reg.CDIE.SPARES_LEFT - 1)).setF (.tile 1 100) Reg.TILE.IDENT_SLOT 3).setF (.cdie 1) (Reg.CDIE.SLOT_PHYS 3) 100).setF (.cdie 1) (Reg.CDIE.SLOT_VALID 3) 1 : State) = (((((((({ Tests.up with failing := [(1, [⟨3, 3, 4, some 100, true⟩])] }.setTileState 1 100 1).setFails 1 []).setTileState 1 100 0).setTile 1 100 { Tile.init with newTmc := false, ceilTherm := 2500, visitDue := none, idleAt := 0 } : State).setF (.cdie (1 : Fin 4)) Reg.CDIE.SPARES_LEFT ((((({ Tests.up with failing := [(1, [⟨3, 3, 4, some 100, true⟩])] }.setTileState 1 100 1).setFails 1 []).setTileState 1 100 0).setTile 1 100 { Tile.init with newTmc := false, ceilTherm := 2500, visitDue := none, idleAt := 0 } : State).getF (.cdie (1 : Fin 4)) Reg.CDIE.SPARES_LEFT - 1)).setF (.tile (1 : Fin 4) (100 : Fin 104)) Reg.TILE.IDENT_SLOT (⟨3, 3, 4, some 100, true⟩ : Failing).slot).setF
      (.cdie (1 : Fin 4)) (Reg.CDIE.SLOT_PHYS (⟨3, 3, 4, some 100, true⟩ : Failing).slot) (100 : Fin 104)).setF (.cdie (1 : Fin 4)) (Reg.CDIE.SLOT_VALID (⟨3, 3, 4, some 100, true⟩ : Failing).slot) 1)) := by decide +kernel

theorem test_meets_TileFailuresAndSpares_7 :
    ((((({ Tests.up with failing := [(1, [⟨3, 3, 4, none, false⟩])] }.setTileState 1 100 0).setTileState 1 101 0).setTileState 1 102 0).setTileState 1 103 0 : State).fails (1 : Fin 4) = (⟨3, 3, 4, none, false⟩ : Failing) :: ([] : List Failing)) ∧ ((((({ Tests.up with failing := [(1, [⟨3, 3, 4, none, false⟩])] }.setTileState 1 100 0).setTileState 1 101 0).setTileState 1 102 0).setTileState 1 103 0 : State).nextSpare (1 : Fin 4) = none) ∧ ((let s := ((({ Tests.up with failing := [(1, [⟨3, 3, 4, none, false⟩])] }.setTileState 1 100 0).setTileState 1 101 0).setTileState 1 102 0).setTileState 1 103 0
      (((((s.setFails 1 []).setF (.cdie 1) Reg.CDIE.LAST_REMAP_FAILED 3).setF (.cdie 1) Reg.CDIE.LAST_REMAP_SPARE 0x7F).setF (.cdie 1) Reg.CDIE.LAST_REMAP_SLOT 3).setF (.cdie 1) Reg.CDIE.LAST_REMAP_CAUSE 4).raise (.cdie 1) Evt.CDIE.TILE_LOST : State) = (((((((((({ Tests.up with failing := [(1, [⟨3, 3, 4, none, false⟩])] }.setTileState 1 100 0).setTileState 1 101 0).setTileState 1 102 0).setTileState 1 103 0 : State).setFails (1 : Fin 4) ([] : List Failing)).setF (.cdie (1 : Fin 4)) Reg.CDIE.LAST_REMAP_FAILED (⟨3, 3, 4, none, false⟩ : Failing).tile).setF (.cdie (1 : Fin 4)) Reg.CDIE.LAST_REMAP_SPARE 0x7F).setF
      (.cdie (1 : Fin 4)) Reg.CDIE.LAST_REMAP_SLOT (⟨3, 3, 4, none, false⟩ : Failing).slot).setF (.cdie (1 : Fin 4)) Reg.CDIE.LAST_REMAP_CAUSE (⟨3, 3, 4, none, false⟩ : Failing).cause).raise (.cdie (1 : Fin 4)) Evt.CDIE.TILE_LOST)) ∧ ((let s := ((({ Tests.up with failing := [(1, [⟨3, 3, 4, none, false⟩])] }.setTileState 1 100 0).setTileState 1 101 0).setTileState 1 102 0).setTileState 1 103 0
      let a := (((((s.setFails 1 []).setF (.cdie 1) Reg.CDIE.LAST_REMAP_FAILED 3).setF (.cdie 1) Reg.CDIE.LAST_REMAP_SPARE 0x7F).setF (.cdie 1) Reg.CDIE.LAST_REMAP_SLOT 3).setF (.cdie 1) Reg.CDIE.LAST_REMAP_CAUSE 4).raise (.cdie 1) Evt.CDIE.TILE_LOST
      (a.setF (.cdie 1) Reg.CDIE.ACTIVE_TILES (a.getF (.cdie 1) Reg.CDIE.ACTIVE_TILES - 1)).setOwn (.cdie 1) 1 : State) = ((let s := ((({ Tests.up with failing := [(1, [⟨3, 3, 4, none, false⟩])] }.setTileState 1 100 0).setTileState 1 101 0).setTileState 1 102 0).setTileState 1 103 0
      (((((s.setFails 1 []).setF (.cdie 1) Reg.CDIE.LAST_REMAP_FAILED 3).setF (.cdie 1) Reg.CDIE.LAST_REMAP_SPARE 0x7F).setF (.cdie 1) Reg.CDIE.LAST_REMAP_SLOT 3).setF (.cdie 1) Reg.CDIE.LAST_REMAP_CAUSE 4).raise (.cdie 1) Evt.CDIE.TILE_LOST : State).setF (.cdie (1 : Fin 4)) Reg.CDIE.ACTIVE_TILES ((let s := ((({ Tests.up with failing := [(1, [⟨3, 3, 4, none, false⟩])] }.setTileState 1 100 0).setTileState 1 101 0).setTileState 1 102 0).setTileState 1 103 0
      (((((s.setFails 1 []).setF (.cdie 1) Reg.CDIE.LAST_REMAP_FAILED 3).setF (.cdie 1) Reg.CDIE.LAST_REMAP_SPARE 0x7F).setF (.cdie 1) Reg.CDIE.LAST_REMAP_SLOT 3).setF (.cdie 1) Reg.CDIE.LAST_REMAP_CAUSE 4).raise (.cdie 1) Evt.CDIE.TILE_LOST : State).getF (.cdie (1 : Fin 4)) Reg.CDIE.ACTIVE_TILES - 1)).setOwn (.cdie (1 : Fin 4)) 1) ∧ (((399 : Nat) = ((List.finRange 4).map (fun e => (let s := ((({ Tests.up with failing := [(1, [⟨3, 3, 4, none, false⟩])] }.setTileState 1 100 0).setTileState 1 101 0).setTileState 1 102 0).setTileState 1 103 0
      let a := (((((s.setFails 1 []).setF (.cdie 1) Reg.CDIE.LAST_REMAP_FAILED 3).setF (.cdie 1) Reg.CDIE.LAST_REMAP_SPARE 0x7F).setF (.cdie 1) Reg.CDIE.LAST_REMAP_SLOT 3).setF (.cdie 1) Reg.CDIE.LAST_REMAP_CAUSE 4).raise (.cdie 1) Evt.CDIE.TILE_LOST
      (a.setF (.cdie 1) Reg.CDIE.ACTIVE_TILES (a.getF (.cdie 1) Reg.CDIE.ACTIVE_TILES - 1)).setOwn (.cdie 1) 1 : State).getF (.cdie e) Reg.CDIE.ACTIVE_TILES)).sum)) ∧ (((let s := ((({ Tests.up with failing := [(1, [⟨3, 3, 4, none, false⟩])] }.setTileState 1 100 0).setTileState 1 101 0).setTileState 1 102 0).setTileState 1 103 0
      let a := (((((s.setFails 1 []).setF (.cdie 1) Reg.CDIE.LAST_REMAP_FAILED 3).setF (.cdie 1) Reg.CDIE.LAST_REMAP_SPARE 0x7F).setF (.cdie 1) Reg.CDIE.LAST_REMAP_SLOT 3).setF (.cdie 1) Reg.CDIE.LAST_REMAP_CAUSE 4).raise (.cdie 1) Evt.CDIE.TILE_LOST
      let b := (a.setF (.cdie 1) Reg.CDIE.ACTIVE_TILES (a.getF (.cdie 1) Reg.CDIE.ACTIVE_TILES - 1)).setOwn (.cdie 1) 1
      (b.setF .pkg Reg.PKG.RATING_TILES 399).raisePkg Evt.PKG.RATING : State) = (if (399 : Nat) < (let s := ((({ Tests.up with failing := [(1, [⟨3, 3, 4, none, false⟩])] }.setTileState 1 100 0).setTileState 1 101 0).setTileState 1 102 0).setTileState 1 103 0
      let a := (((((s.setFails 1 []).setF (.cdie 1) Reg.CDIE.LAST_REMAP_FAILED 3).setF (.cdie 1) Reg.CDIE.LAST_REMAP_SPARE 0x7F).setF (.cdie 1) Reg.CDIE.LAST_REMAP_SLOT 3).setF (.cdie 1) Reg.CDIE.LAST_REMAP_CAUSE 4).raise (.cdie 1) Evt.CDIE.TILE_LOST
      (a.setF (.cdie 1) Reg.CDIE.ACTIVE_TILES (a.getF (.cdie 1) Reg.CDIE.ACTIVE_TILES - 1)).setOwn (.cdie 1) 1 : State).getF .pkg Reg.PKG.RATING_TILES then ((let s := ((({ Tests.up with failing := [(1, [⟨3, 3, 4, none, false⟩])] }.setTileState 1 100 0).setTileState 1 101 0).setTileState 1 102 0).setTileState 1 103 0
      let a := (((((s.setFails 1 []).setF (.cdie 1) Reg.CDIE.LAST_REMAP_FAILED 3).setF (.cdie 1) Reg.CDIE.LAST_REMAP_SPARE 0x7F).setF (.cdie 1) Reg.CDIE.LAST_REMAP_SLOT 3).setF (.cdie 1) Reg.CDIE.LAST_REMAP_CAUSE 4).raise (.cdie 1) Evt.CDIE.TILE_LOST
      (a.setF (.cdie 1) Reg.CDIE.ACTIVE_TILES (a.getF (.cdie 1) Reg.CDIE.ACTIVE_TILES - 1)).setOwn (.cdie 1) 1 : State).setF .pkg Reg.PKG.RATING_TILES (399 : Nat)).raisePkg Evt.PKG.RATING else (let s := ((({ Tests.up with failing := [(1, [⟨3, 3, 4, none, false⟩])] }.setTileState 1 100 0).setTileState 1 101 0).setTileState 1 102 0).setTileState 1 103 0
      let a := (((((s.setFails 1 []).setF (.cdie 1) Reg.CDIE.LAST_REMAP_FAILED 3).setF (.cdie 1) Reg.CDIE.LAST_REMAP_SPARE 0x7F).setF (.cdie 1) Reg.CDIE.LAST_REMAP_SLOT 3).setF (.cdie 1) Reg.CDIE.LAST_REMAP_CAUSE 4).raise (.cdie 1) Evt.CDIE.TILE_LOST
      (a.setF (.cdie 1) Reg.CDIE.ACTIVE_TILES (a.getF (.cdie 1) Reg.CDIE.ACTIVE_TILES - 1)).setOwn (.cdie 1) 1 : State)))) ∧ ((let s := ((({ Tests.up with failing := [(1, [⟨3, 3, 4, none, false⟩])] }.setTileState 1 100 0).setTileState 1 101 0).setTileState 1 102 0).setTileState 1 103 0
      let a := (((((s.setFails 1 []).setF (.cdie 1) Reg.CDIE.LAST_REMAP_FAILED 3).setF (.cdie 1) Reg.CDIE.LAST_REMAP_SPARE 0x7F).setF (.cdie 1) Reg.CDIE.LAST_REMAP_SLOT 3).setF (.cdie 1) Reg.CDIE.LAST_REMAP_CAUSE 4).raise (.cdie 1) Evt.CDIE.TILE_LOST
      let b := (a.setF (.cdie 1) Reg.CDIE.ACTIVE_TILES (a.getF (.cdie 1) Reg.CDIE.ACTIVE_TILES - 1)).setOwn (.cdie 1) 1
      (b.setF .pkg Reg.PKG.RATING_TILES 399).raisePkg Evt.PKG.RATING : State).getF (.cdie (1 : Fin 4)) Reg.CDIE.ACTIVE_TILES ≠ 0) ∧
    ((Tests.up.tileFailed 1 3).fuseDue.getD (tileKey (1 : Fin 4) (3 : Fin 104)) false = true) ∧
    ((Tests.up).fuseDue.getD (tileKey (1 : Fin 4) (3 : Fin 104)) false = false) := by decide +kernel

theorem test_meets_RetestsKernelLoadsAndWindows_1 :
    (((Tests.tileS { Tile.init with slot0 := some { Tests.task with start := none } } : State).tile (0 : Fin 4) (0 : Fin 104)).slot (0 : Fin 2) = some ({ Tests.task with start := none } : Task)) ∧ (({ Tests.task with start := none } : Task).start = none) ∧ (((Tests.tileS { Tile.init with slot0 := some { Tests.task with start := none } } : State).tile (0 : Fin 4) (0 : Fin 104)).cached ({ Tests.task with start := none } : Task) = none) ∧ ((Tests.tileS { Tile.init with slot0 := some { Tests.task with start := none } } : State).loadKernel (0 : Fin 4) (0 : Fin 104) ({ Tests.task with start := none } : Task) = ((Tests.tileS { Tile.init with slot0 := some { Tests.task with start := none } } : State), (0xF : Nat), (⟨0, 0, 0, false, []⟩ : KEntry))) ∧ ((0xF : Nat) ≠ 0) := by decide +kernel

theorem test_meets_RetestsKernelLoadsAndWindows_2 :
    ((((Tests.up.setF (.tile 0 0) (Reg.TILE.WIN_BASE 3) 0xA000).setF (.tile 0 0) (Reg.TILE.WIN_LEN 3) 0x127000).setF (.tile 0 0) (Reg.TILE.WIN_EXPECT 3) 0x127000).tileActive (0 : Fin 4) (0 : Fin 104) = true) ∧ ((((Tests.up.setF (.tile 0 0) (Reg.TILE.WIN_BASE 3) 0xA000).setF (.tile 0 0) (Reg.TILE.WIN_LEN 3) 0x127000).setF (.tile 0 0) (Reg.TILE.WIN_EXPECT 3) 0x127000).pageOpen (.tile (0 : Fin 4) (0 : Fin 104)) = true) ∧ (((((Tests.up.setF (.tile 0 0) (Reg.TILE.WIN_BASE 3) 0xA000).setF (.tile 0 0) (Reg.TILE.WIN_LEN 3) 0x127000).setF (.tile 0 0) (Reg.TILE.WIN_EXPECT 3) 0x127000).setF (.tile 0 0) (Reg.TILE.WIN_CTL_SYNC_OBJ 3) 5) = (((Tests.up.setF (.tile 0 0) (Reg.TILE.WIN_BASE 3) 0xA000).setF (.tile 0 0) (Reg.TILE.WIN_LEN 3) 0x127000).setF (.tile 0 0) (Reg.TILE.WIN_EXPECT 3) 0x127000).setF (.tile (0 : Fin 4) (0 : Fin 104)) (Reg.TILE.WIN_CTL_SYNC_OBJ (3 : Fin 4)) (5 : Nat)) ∧ (((((Tests.up.setF (.tile 0 0) (Reg.TILE.WIN_BASE 3) 0xA000).setF (.tile 0 0) (Reg.TILE.WIN_LEN 3) 0x127000).setF (.tile 0 0) (Reg.TILE.WIN_EXPECT 3) 0x127000).setF (.tile 0 0) (Reg.TILE.WIN_CTL_SYNC_OBJ 3) 5).getF (.tile (0 : Fin 4) (0 : Fin 104)) (Reg.TILE.WIN_CTL_STATE (3 : Fin 4)) = 0) ∧ (((((Tests.up.setF (.tile 0 0) (Reg.TILE.WIN_BASE 3) 0xA000).setF (.tile 0 0) (Reg.TILE.WIN_LEN 3) 0x127000).setF (.tile 0 0) (Reg.TILE.WIN_EXPECT 3) 0x127000).setF (.tile 0 0) (Reg.TILE.WIN_CTL_SYNC_OBJ 3) 5).getF (.tile (0 : Fin 4) (0 : Fin 104)) (Reg.TILE.WIN_BASE (3 : Fin 4)) = (0xA000 : Nat)) ∧ (((((Tests.up.setF (.tile 0 0) (Reg.TILE.WIN_BASE 3) 0xA000).setF (.tile 0 0) (Reg.TILE.WIN_LEN 3) 0x127000).setF (.tile 0 0) (Reg.TILE.WIN_EXPECT 3) 0x127000).setF (.tile 0 0) (Reg.TILE.WIN_CTL_SYNC_OBJ 3) 5).getF (.tile (0 : Fin 4) (0 : Fin 104)) (Reg.TILE.WIN_LEN (3 : Fin 4)) = (0x127000 : Nat)) ∧ (((((Tests.up.setF (.tile 0 0) (Reg.TILE.WIN_BASE 3) 0xA000).setF (.tile 0 0) (Reg.TILE.WIN_LEN 3) 0x127000).setF (.tile 0 0) (Reg.TILE.WIN_EXPECT 3) 0x127000).setF (.tile 0 0) (Reg.TILE.WIN_CTL_SYNC_OBJ 3) 5).getF (.tile (0 : Fin 4) (0 : Fin 104)) (Reg.TILE.WIN_EXPECT (3 : Fin 4)) = (0x127000 : Nat)) ∧ ((0xA000 : Nat) % 64 = 0 ∧ (0x127000 : Nat) % 64 = 0 ∧ inData (0xA000 : Nat) (0x127000 : Nat) = true ∧ (0x127000 : Nat) ≤ (0x127000 : Nat)) ∧ ((0x127000 : Nat) ≠ 0) := by decide +kernel

theorem test_meets_RetestsKernelLoadsAndWindows_3 :
    ((Tests.up).tileActive (0 : Fin 4) (0 : Fin 104) = true) ∧ ((Tests.up).pageOpen (.tile (0 : Fin 4) (0 : Fin 104)) = true) ∧ ((Tests.up.setF (.tile 0 0) (Reg.TILE.WIN_CTL_SYNC_OBJ 3) 5) = (Tests.up).setF (.tile (0 : Fin 4) (0 : Fin 104)) (Reg.TILE.WIN_CTL_SYNC_OBJ (3 : Fin 4)) (5 : Nat)) ∧ ((Tests.up.setF (.tile 0 0) (Reg.TILE.WIN_CTL_SYNC_OBJ 3) 5).getF (.tile (0 : Fin 4) (0 : Fin 104)) (Reg.TILE.WIN_CTL_STATE (3 : Fin 4)) = 0) ∧ ((Tests.up.setF (.tile 0 0) (Reg.TILE.WIN_CTL_SYNC_OBJ 3) 5).getF (.tile (0 : Fin 4) (0 : Fin 104)) (Reg.TILE.WIN_BASE (3 : Fin 4)) = (0 : Nat)) ∧ ((Tests.up.setF (.tile 0 0) (Reg.TILE.WIN_CTL_SYNC_OBJ 3) 5).getF (.tile (0 : Fin 4) (0 : Fin 104)) (Reg.TILE.WIN_LEN (3 : Fin 4)) = (0 : Nat)) ∧ ((Tests.up.setF (.tile 0 0) (Reg.TILE.WIN_CTL_SYNC_OBJ 3) 5).getF (.tile (0 : Fin 4) (0 : Fin 104)) (Reg.TILE.WIN_EXPECT (3 : Fin 4)) = (0 : Nat)) ∧ ((0 : Nat) % 64 ≠ 0 ∨ (0 : Nat) % 64 ≠ 0 ∨ inData (0 : Nat) (0 : Nat) = false ∨ (0 : Nat) < (0 : Nat)) ∧
    ((Tests.up).tileActive (0 : Fin 4) (0 : Fin 104) = true) ∧ ((Tests.up).pageOpen (.tile (0 : Fin 4) (0 : Fin 104)) = true) ∧
    ((Tests.up).tileActive (0 : Fin 4) (0 : Fin 104) = true) ∧ ((Tests.up).pageOpen (.tile (0 : Fin 4) (0 : Fin 104)) = true) ∧
    (let s := Tests.tileS { Tile.init with badRows := [5] }
    s.tileActive 0 0 = true ∧ 5 ∈ (s.tile 0 0).badRows) := by decide +kernel

theorem test_meets_RetestsKernelLoadsAndWindows_4 :
    (let s := ((Tests.tileS { Tile.init with slot0 := some { Tests.task with start := none } }).setF (.cdie 0) Reg.CDIE.KTAB_COUNT_COUNT 1)
    (s.tile 0 0).slot 0 = some { Tests.task with start := none } ∧ (s.tile 0 0).cached { Tests.task with start := none } = none) := by decide +kernel

theorem test_meets_MatrixOperations_1 :
    (((Tests.tileS (Tests.busy 0xB000 Tests.mop)).findErrs ([] : LineErrs)) = (Tests.tileS (Tests.busy 0xB000 Tests.mop)).findErrs ([] : LineErrs)) ∧ (((Tests.tileS (Tests.busy 0xB000 Tests.mop)).findErrs ([] : LineErrs)).kernelRuns (0 : Fin 4) (0 : Fin 104) (0 : Fin 2) = true) ∧ (((((Tests.tileS (Tests.busy 0xB000 Tests.mop)).findErrs ([] : LineErrs)).tile (0 : Fin 4) (0 : Fin 104)).mops (0 : Fin 2)).length < 4) ∧ (descHome (0 : Fin 2) (0xB000 : Nat) 64 = true) ∧ ((((Tests.tileS (Tests.busy 0xB000 Tests.mop)).findErrs ([] : LineErrs)).tile (0 : Fin 4) (0 : Fin 104)).slot (0 : Fin 2) = some (Tests.task : Task)) ∧ ((((Tests.tileS (Tests.busy 0xB000 Tests.mop)).findErrs ([] : LineErrs)).tile (0 : Fin 4) (0 : Fin 104)).badIn (0xB000 : Nat) 64 = false) ∧ (mopCheck (MopD.ofBytes ((((Tests.tileS (Tests.busy 0xB000 Tests.mop)).findErrs ([] : LineErrs)).tile (0 : Fin 4) (0 : Fin 104)).read (0xB000 : Nat) 64)) (Tests.task : Task) (0 : Fin 2) = 0) := by decide +kernel

theorem test_meets_MatrixOperations_2 :
    (((Tests.tileS (Tests.busy 0xB000 [0xFF])).findErrs ([] : LineErrs)) = (Tests.tileS (Tests.busy 0xB000 [0xFF])).findErrs ([] : LineErrs)) ∧ (((Tests.tileS (Tests.busy 0xB000 [0xFF])).findErrs ([] : LineErrs)).kernelRuns (0 : Fin 4) (0 : Fin 104) (0 : Fin 2) = true) ∧ (((((Tests.tileS (Tests.busy 0xB000 [0xFF])).findErrs ([] : LineErrs)).tile (0 : Fin 4) (0 : Fin 104)).mops (0 : Fin 2)).length < 4) ∧ (descHome (0 : Fin 2) (0xB000 : Nat) 64 = true) ∧ ((((Tests.tileS (Tests.busy 0xB000 [0xFF])).findErrs ([] : LineErrs)).tile (0 : Fin 4) (0 : Fin 104)).slot (0 : Fin 2) = some (Tests.task : Task)) ∧ ((((Tests.tileS (Tests.busy 0xB000 [0xFF])).findErrs ([] : LineErrs)).tile (0 : Fin 4) (0 : Fin 104)).badIn (0xB000 : Nat) 64 = false) ∧ (mopCheck (MopD.ofBytes ((((Tests.tileS (Tests.busy 0xB000 [0xFF])).findErrs ([] : LineErrs)).tile (0 : Fin 4) (0 : Fin 104)).read (0xB000 : Nat) 64)) (Tests.task : Task) (0 : Fin 2) = (1 : Nat)) ∧ ((1 : Nat) ≠ 0) ∧
    (((Tests.tileS { Tests.busy 0 [] with mops0 := List.replicate 4 ⟨0, []⟩ } : State).findErrs ([] : LineErrs) : State) = (Tests.tileS { Tests.busy 0 [] with mops0 := List.replicate 4 ⟨0, []⟩ } : State).findErrs ([] : LineErrs)) ∧ (((Tests.tileS { Tests.busy 0 [] with mops0 := List.replicate 4 ⟨0, []⟩ } : State).findErrs ([] : LineErrs) : State).kernelRuns (0 : Fin 4) (0 : Fin 104) (0 : Fin 2) = true) ∧ (4 ≤ ((((Tests.tileS { Tests.busy 0 [] with mops0 := List.replicate 4 ⟨0, []⟩ } : State).findErrs ([] : LineErrs) : State).tile (0 : Fin 4) (0 : Fin 104)).mops (0 : Fin 2)).length) := by decide +kernel

theorem test_meets_MatrixOperations_3 :
    (((Tests.tileS { Tests.busy 0xB000 Tests.mop with stallMop0 := some 0xB000 } : State).findErrs ([] : LineErrs) : State) = (Tests.tileS { Tests.busy 0xB000 Tests.mop with stallMop0 := some 0xB000 } : State).findErrs ([] : LineErrs)) ∧ ((((Tests.tileS { Tests.busy 0xB000 Tests.mop with stallMop0 := some 0xB000 } : State).findErrs ([] : LineErrs) : State).tile (0 : Fin 4) (0 : Fin 104)).stallMop (0 : Fin 2) = some (0xB000 : Nat)) ∧ (((((Tests.tileS { Tests.busy 0xB000 Tests.mop with stallMop0 := some 0xB000 } : State).findErrs ([] : LineErrs) : State).tile (0 : Fin 4) (0 : Fin 104)).mops (0 : Fin 2)).length < 4) ∧ ((Tests.busy 0xB000 Tests.mop : Tile) = (((Tests.tileS { Tests.busy 0xB000 Tests.mop with stallMop0 := some 0xB000 } : State).findErrs ([] : LineErrs) : State).tile (0 : Fin 4) (0 : Fin 104)).setStallMop (0 : Fin 2) none) ∧ (descHome (0 : Fin 2) (0xB000 : Nat) 64 = true) ∧ ((Tests.busy 0xB000 Tests.mop : Tile).slot (0 : Fin 2) = some (Tests.task : Task)) ∧ ((Tests.busy 0xB000 Tests.mop : Tile).badIn (0xB000 : Nat) 64 = false) ∧ (mopCheck (MopD.ofBytes ((Tests.busy 0xB000 Tests.mop : Tile).read (0xB000 : Nat) 64)) (Tests.task : Task) (0 : Fin 2) = 0) := by decide +kernel

theorem test_meets_MatrixOperations_4 :
    (let x : Tile := { Tests.busy 0xB000 Tests.mop with mops0 := [⟨0xB000, Tests.mop⟩] }
    let o := MopD.ofBytes Tests.mop
    let f : FSpec := ⟨.fp32, false, false⟩
    ((Tests.tileS x).tile 0 0).mops 0 = [⟨0xB000, Tests.mop⟩] ∧ (o.a = some f ∧ o.b = some f ∧ o.c = some f ∧ o.rmode = some .rne) ∧
    badBlock x o f f f 32 = none ∧ (mopRun x.ls o f f f .rne 0 32 none).2.1 = 0) := by decide +kernel

theorem test_meets_VectorInstructions_1 :
    (((Tests.tileS (Tests.busy 0xB000 [7])).findErrs ([] : LineErrs)) = (Tests.tileS (Tests.busy 0xB000 [7])).findErrs ([] : LineErrs)) ∧ (((Tests.tileS (Tests.busy 0xB000 [7])).findErrs ([] : LineErrs)).kernelRuns (0 : Fin 4) (0 : Fin 104) (0 : Fin 2) = true) ∧ ((((Tests.tileS (Tests.busy 0xB000 [7])).findErrs ([] : LineErrs)).tile (0 : Fin 4) (0 : Fin 104)).slot (0 : Fin 2) = some (Tests.task : Task)) ∧ ((31 : Nat) < (((Tests.tileS (Tests.busy 0xB000 [7])).findErrs ([] : LineErrs)).tile (0 : Fin 4) (0 : Fin 104)).vregCount (0 : Fin 2)) ∧ ((1024 : Nat) ≤ 1024) ∧ (mayRead (0 : Fin 2) (0xB000 : Nat) (1024 : Nat) = true) ∧ ((((Tests.tileS (Tests.busy 0xB000 [7])).findErrs ([] : LineErrs)).tile (0 : Fin 4) (0 : Fin 104)).badIn (0xB000 : Nat) (1024 : Nat) = false) ∧
    (((Tests.tileS (Tests.busy 0xB000 [7])).findErrs ([] : LineErrs)) = (Tests.tileS (Tests.busy 0xB000 [7])).findErrs ([] : LineErrs)) ∧ (((Tests.tileS (Tests.busy 0xB000 [7])).findErrs ([] : LineErrs)).kernelRuns (0 : Fin 4) (0 : Fin 104) (0 : Fin 2) = true) ∧ ((((Tests.tileS (Tests.busy 0xB000 [7])).findErrs ([] : LineErrs)).tile (0 : Fin 4) (0 : Fin 104)).slot (0 : Fin 2) = some (Tests.task : Task)) ∧ ((31 : Nat) < (((Tests.tileS (Tests.busy 0xB000 [7])).findErrs ([] : LineErrs)).tile (0 : Fin 4) (0 : Fin 104)).vregCount (0 : Fin 2)) ∧ ((1024 : Nat) ≤ 1024) ∧ ((Tests.task : Task).mayWrite (0 : Fin 2) (0x130C00 : Nat) (1024 : Nat) = true) := by decide +kernel

theorem test_meets_VectorInstructions_2 :
    (((Tests.tileS (Tests.busy 0xB000 [7])).findErrs ([] : LineErrs)) = (Tests.tileS (Tests.busy 0xB000 [7])).findErrs ([] : LineErrs)) ∧ (((Tests.tileS (Tests.busy 0xB000 [7])).findErrs ([] : LineErrs)).kernelRuns (0 : Fin 4) (0 : Fin 104) (0 : Fin 2) = true) ∧ ((((Tests.tileS (Tests.busy 0xB000 [7])).findErrs ([] : LineErrs)).tile (0 : Fin 4) (0 : Fin 104)).slot (0 : Fin 2) = some (Tests.task : Task)) ∧ ((31 : Nat) < (((Tests.tileS (Tests.busy 0xB000 [7])).findErrs ([] : LineErrs)).tile (0 : Fin 4) (0 : Fin 104)).vregCount (0 : Fin 2)) ∧ ((1024 : Nat) ≤ 1024) ∧
    (let s := Tests.tileS (Tests.busy 0xB000 [])
    s.kernelRuns 0 0 0 = true ∧ (s.tile 0 0).slot 0 = some Tests.task ∧
    ((vecRegs (.ingotAdd true 0 0 1 0)).any (fun r => (s.tile 0 0).vregCount 0 ≤ r)) = false ∧ RMode.ofCode Tests.task.rmode = some .rne) := by decide +kernel

theorem test_meets_DataMoverIssue_1 :
    (((.dmCopy 0 0 0 0xD000 [] [] : Instr) = .dmCopy (0 : Fin 4) (0 : Fin 104) (0 : Fin 2) (0xD000 : Nat) [] [] ∧ (1 : Nat) = 1) ∨ ((.dmCopy 0 0 0 0xD000 [] [] : Instr) = .dmGather (0 : Fin 4) (0 : Fin 104) (0 : Fin 2) (0xD000 : Nat) [] [] ∧ (1 : Nat) = 2) ∨
      ((.dmCopy 0 0 0 0xD000 [] [] : Instr) = .dmScatter (0 : Fin 4) (0 : Fin 104) (0 : Fin 2) (0xD000 : Nat) [] [] ∧ (1 : Nat) = 3) ∨ ((.dmCopy 0 0 0 0xD000 [] [] : Instr) = .dmFill (0 : Fin 4) (0 : Fin 104) (0 : Fin 2) (0xD000 : Nat) [] [] ∧ (1 : Nat) = 4)) ∧ ((Tests.tileS (Tests.busy 0xD000 (Tests.dmDesc 1))).dmOpAt (0 : Fin 4) (0 : Fin 104) (0 : Fin 2) (0xD000 : Nat) = some (1 : Nat)) ∧ ((Tests.tileS (Tests.busy 0xD000 (Tests.dmDesc 1))).kernelRuns (0 : Fin 4) (0 : Fin 104) (0 : Fin 2) = true) ∧ ((((Tests.tileS (Tests.busy 0xD000 (Tests.dmDesc 1))).tile (0 : Fin 4) (0 : Fin 104)).dms (0 : Fin 2)).length < 8) ∧ ((Tests.busy 0xD000 (Tests.dmDesc 1) : Tile) = (Tests.tileS (Tests.busy 0xD000 (Tests.dmDesc 1))).tile (0 : Fin 4) (0 : Fin 104)) ∧ ((Tests.busy 0xD000 (Tests.dmDesc 1) : Tile).slot (0 : Fin 2) = some (Tests.task : Task)) ∧ ((Tests.busy 0xD000 (Tests.dmDesc 1) : Tile).badIn (0xD000 : Nat) 128 = false) ∧ (dmCheck (DmD.ofBytes ((Tests.busy 0xD000 (Tests.dmDesc 1) : Tile).read (0xD000 : Nat) 128)) (Tests.task : Task) (0 : Fin 2) = none) := by decide +kernel

theorem test_meets_DataMoverIssue_2 :
    (((.dmGather 0 0 0 0xD000 [] [] : Instr) = .dmCopy (0 : Fin 4) (0 : Fin 104) (0 : Fin 2) (0xD000 : Nat) [] [] ∧ (2 : Nat) = 1) ∨ ((.dmGather 0 0 0 0xD000 [] [] : Instr) = .dmGather (0 : Fin 4) (0 : Fin 104) (0 : Fin 2) (0xD000 : Nat) [] [] ∧ (2 : Nat) = 2) ∨
      ((.dmGather 0 0 0 0xD000 [] [] : Instr) = .dmScatter (0 : Fin 4) (0 : Fin 104) (0 : Fin 2) (0xD000 : Nat) [] [] ∧ (2 : Nat) = 3) ∨ ((.dmGather 0 0 0 0xD000 [] [] : Instr) = .dmFill (0 : Fin 4) (0 : Fin 104) (0 : Fin 2) (0xD000 : Nat) [] [] ∧ (2 : Nat) = 4)) ∧ ((Tests.tileS (Tests.busy 0xD000 (Tests.dmDesc 2))).dmOpAt (0 : Fin 4) (0 : Fin 104) (0 : Fin 2) (0xD000 : Nat) = some (2 : Nat)) ∧ ((Tests.tileS (Tests.busy 0xD000 (Tests.dmDesc 2))).kernelRuns (0 : Fin 4) (0 : Fin 104) (0 : Fin 2) = true) ∧ ((((Tests.tileS (Tests.busy 0xD000 (Tests.dmDesc 2))).tile (0 : Fin 4) (0 : Fin 104)).dms (0 : Fin 2)).length < 8) ∧ ((Tests.busy 0xD000 (Tests.dmDesc 2) : Tile) = (Tests.tileS (Tests.busy 0xD000 (Tests.dmDesc 2))).tile (0 : Fin 4) (0 : Fin 104)) ∧ ((Tests.busy 0xD000 (Tests.dmDesc 2) : Tile).slot (0 : Fin 2) = some (Tests.task : Task)) ∧ ((Tests.busy 0xD000 (Tests.dmDesc 2) : Tile).badIn (0xD000 : Nat) 128 = false) ∧ (dmCheck (DmD.ofBytes ((Tests.busy 0xD000 (Tests.dmDesc 2) : Tile).read (0xD000 : Nat) 128)) (Tests.task : Task) (0 : Fin 2) = none) := by decide +kernel

theorem test_meets_DataMoverIssue_3 :
    (((.dmScatter 0 0 0 0xD000 [] [] : Instr) = .dmCopy (0 : Fin 4) (0 : Fin 104) (0 : Fin 2) (0xD000 : Nat) [] [] ∧ (3 : Nat) = 1) ∨ ((.dmScatter 0 0 0 0xD000 [] [] : Instr) = .dmGather (0 : Fin 4) (0 : Fin 104) (0 : Fin 2) (0xD000 : Nat) [] [] ∧ (3 : Nat) = 2) ∨
      ((.dmScatter 0 0 0 0xD000 [] [] : Instr) = .dmScatter (0 : Fin 4) (0 : Fin 104) (0 : Fin 2) (0xD000 : Nat) [] [] ∧ (3 : Nat) = 3) ∨ ((.dmScatter 0 0 0 0xD000 [] [] : Instr) = .dmFill (0 : Fin 4) (0 : Fin 104) (0 : Fin 2) (0xD000 : Nat) [] [] ∧ (3 : Nat) = 4)) ∧ ((Tests.tileS (Tests.busy 0xD000 (Tests.dmDesc 3))).dmOpAt (0 : Fin 4) (0 : Fin 104) (0 : Fin 2) (0xD000 : Nat) = some (3 : Nat)) ∧ ((Tests.tileS (Tests.busy 0xD000 (Tests.dmDesc 3))).kernelRuns (0 : Fin 4) (0 : Fin 104) (0 : Fin 2) = true) ∧ ((((Tests.tileS (Tests.busy 0xD000 (Tests.dmDesc 3))).tile (0 : Fin 4) (0 : Fin 104)).dms (0 : Fin 2)).length < 8) ∧ ((Tests.busy 0xD000 (Tests.dmDesc 3) : Tile) = (Tests.tileS (Tests.busy 0xD000 (Tests.dmDesc 3))).tile (0 : Fin 4) (0 : Fin 104)) ∧ ((Tests.busy 0xD000 (Tests.dmDesc 3) : Tile).slot (0 : Fin 2) = some (Tests.task : Task)) ∧ ((Tests.busy 0xD000 (Tests.dmDesc 3) : Tile).badIn (0xD000 : Nat) 128 = false) ∧ (dmCheck (DmD.ofBytes ((Tests.busy 0xD000 (Tests.dmDesc 3) : Tile).read (0xD000 : Nat) 128)) (Tests.task : Task) (0 : Fin 2) = none) := by decide +kernel

theorem test_meets_DataMoverIssue_4 :
    (((.dmFill 0 0 0 0xD000 [] [] : Instr) = .dmCopy (0 : Fin 4) (0 : Fin 104) (0 : Fin 2) (0xD000 : Nat) [] [] ∧ (4 : Nat) = 1) ∨ ((.dmFill 0 0 0 0xD000 [] [] : Instr) = .dmGather (0 : Fin 4) (0 : Fin 104) (0 : Fin 2) (0xD000 : Nat) [] [] ∧ (4 : Nat) = 2) ∨
      ((.dmFill 0 0 0 0xD000 [] [] : Instr) = .dmScatter (0 : Fin 4) (0 : Fin 104) (0 : Fin 2) (0xD000 : Nat) [] [] ∧ (4 : Nat) = 3) ∨ ((.dmFill 0 0 0 0xD000 [] [] : Instr) = .dmFill (0 : Fin 4) (0 : Fin 104) (0 : Fin 2) (0xD000 : Nat) [] [] ∧ (4 : Nat) = 4)) ∧ ((Tests.tileS (Tests.busy 0xD000 (Tests.dmDesc 4))).dmOpAt (0 : Fin 4) (0 : Fin 104) (0 : Fin 2) (0xD000 : Nat) = some (4 : Nat)) ∧ ((Tests.tileS (Tests.busy 0xD000 (Tests.dmDesc 4))).kernelRuns (0 : Fin 4) (0 : Fin 104) (0 : Fin 2) = true) ∧ ((((Tests.tileS (Tests.busy 0xD000 (Tests.dmDesc 4))).tile (0 : Fin 4) (0 : Fin 104)).dms (0 : Fin 2)).length < 8) ∧ ((Tests.busy 0xD000 (Tests.dmDesc 4) : Tile) = (Tests.tileS (Tests.busy 0xD000 (Tests.dmDesc 4))).tile (0 : Fin 4) (0 : Fin 104)) ∧ ((Tests.busy 0xD000 (Tests.dmDesc 4) : Tile).slot (0 : Fin 2) = some (Tests.task : Task)) ∧ ((Tests.busy 0xD000 (Tests.dmDesc 4) : Tile).badIn (0xD000 : Nat) 128 = false) ∧ (dmCheck (DmD.ofBytes ((Tests.busy 0xD000 (Tests.dmDesc 4) : Tile).read (0xD000 : Nat) 128)) (Tests.task : Task) (0 : Fin 2) = none) := by decide +kernel

theorem test_meets_DataMoverIssue_5 :
    (((.dmFill 0 0 0 0xD000 [] [] : Instr) = .dmCopy (0 : Fin 4) (0 : Fin 104) (0 : Fin 2) (0xD000 : Nat) [] [] ∧ (4 : Nat) = 1) ∨ ((.dmFill 0 0 0 0xD000 [] [] : Instr) = .dmGather (0 : Fin 4) (0 : Fin 104) (0 : Fin 2) (0xD000 : Nat) [] [] ∧ (4 : Nat) = 2) ∨
      ((.dmFill 0 0 0 0xD000 [] [] : Instr) = .dmScatter (0 : Fin 4) (0 : Fin 104) (0 : Fin 2) (0xD000 : Nat) [] [] ∧ (4 : Nat) = 3) ∨ ((.dmFill 0 0 0 0xD000 [] [] : Instr) = .dmFill (0 : Fin 4) (0 : Fin 104) (0 : Fin 2) (0xD000 : Nat) [] [] ∧ (4 : Nat) = 4)) ∧ ((Tests.tileS (Tests.busy 0xD000 [4])).dmOpAt (0 : Fin 4) (0 : Fin 104) (0 : Fin 2) (0xD000 : Nat) = some (4 : Nat)) ∧ ((Tests.tileS (Tests.busy 0xD000 [4])).kernelRuns (0 : Fin 4) (0 : Fin 104) (0 : Fin 2) = true) ∧ ((((Tests.tileS (Tests.busy 0xD000 [4])).tile (0 : Fin 4) (0 : Fin 104)).dms (0 : Fin 2)).length < 8) ∧ (((Tests.tileS (Tests.busy 0xD000 [4])).tile (0 : Fin 4) (0 : Fin 104)).slot (0 : Fin 2) = some (Tests.task : Task)) ∧ (((Tests.tileS (Tests.busy 0xD000 [4])).tile (0 : Fin 4) (0 : Fin 104)).badIn (0xD000 : Nat) 128 = false) ∧ (dmCheck (DmD.ofBytes (((Tests.tileS (Tests.busy 0xD000 [4])).tile (0 : Fin 4) (0 : Fin 104)).read (0xD000 : Nat) 128)) (Tests.task : Task) (0 : Fin 2) = some (2 : Nat)) := by decide +kernel

theorem test_meets_DataMoverIssue_6 :
    (((.dmCopy 0 0 1 0xD000 [] [] : Instr) = .dmCopy (0 : Fin 4) (0 : Fin 104) 1 (0xD000 : Nat) [] [] ∧ (1 : Nat) = 1) ∨ ((.dmCopy 0 0 1 0xD000 [] [] : Instr) = .dmGather (0 : Fin 4) (0 : Fin 104) 1 (0xD000 : Nat) [] [] ∧ (1 : Nat) = 2) ∨
      ((.dmCopy 0 0 1 0xD000 [] [] : Instr) = .dmScatter (0 : Fin 4) (0 : Fin 104) 1 (0xD000 : Nat) [] [] ∧ (1 : Nat) = 3) ∨ ((.dmCopy 0 0 1 0xD000 [] [] : Instr) = .dmFill (0 : Fin 4) (0 : Fin 104) 1 (0xD000 : Nat) [] [] ∧ (1 : Nat) = 4)) ∧ ((Tests.tileS { (Tests.busy 0xD000 [1]) with slot1 := some Tests.task, dms1 := List.replicate 8 ⟨0, 0, [], false, 0, 0, false, 0, [], 0⟩ } : State).dmOpAt (0 : Fin 4) (0 : Fin 104) 1 (0xD000 : Nat) = some (1 : Nat)) ∧ ((Tests.tileS { (Tests.busy 0xD000 [1]) with slot1 := some Tests.task, dms1 := List.replicate 8 ⟨0, 0, [], false, 0, 0, false, 0, [], 0⟩ } : State).kernelRuns (0 : Fin 4) (0 : Fin 104) 1 = true) ∧ (8 ≤ (((Tests.tileS { (Tests.busy 0xD000 [1]) with slot1 := some Tests.task, dms1 := List.replicate 8 ⟨0, 0, [], false, 0, 0, false, 0, [], 0⟩ } : State).tile (0 : Fin 4) (0 : Fin 104)).dms 1).length) := by decide +kernel

theorem test_meets_DataMoverIssue_7 :
    (((Tests.tileS { Tests.busy 0xD000 (Tests.dmDesc 1) with stallDm0 := some 0xD000 } : State).tile (0 : Fin 4) (0 : Fin 104)).stallDm0 = some (0xD000 : Nat)) ∧ ((((Tests.tileS { Tests.busy 0xD000 (Tests.dmDesc 1) with stallDm0 := some 0xD000 } : State).tile (0 : Fin 4) (0 : Fin 104)).dms0).length < 8) ∧ ((Tests.busy 0xD000 (Tests.dmDesc 1) : Tile) = { (Tests.tileS { Tests.busy 0xD000 (Tests.dmDesc 1) with stallDm0 := some 0xD000 } : State).tile (0 : Fin 4) (0 : Fin 104) with stallDm0 := none }) ∧ (descHome 0 (0xD000 : Nat) 128 = true) ∧ ((Tests.busy 0xD000 (Tests.dmDesc 1) : Tile).slot0 = some (Tests.task : Task)) ∧ ((Tests.busy 0xD000 (Tests.dmDesc 1) : Tile).badIn (0xD000 : Nat) 128 = false) ∧ (dmCheck (DmD.ofBytes ((Tests.busy 0xD000 (Tests.dmDesc 1) : Tile).read (0xD000 : Nat) 128)) (Tests.task : Task) 0 = none) ∧
    (({ Tests.busy 0xD000 (Tests.dmDesc 1) with dms0 := [⟨0, 0xD000, Tests.dmDesc 1, true, 0, 0, false, 0, [], 0⟩] } : Tile) = (Tests.tileS { Tests.busy 0xD000 (Tests.dmDesc 1) with dms0 := [⟨0, 0xD000, Tests.dmDesc 1, true, 0, 0, false, 0, [], 0⟩] } : State).tile (0 : Fin 4) (0 : Fin 104)) ∧ ((({ Tests.busy 0xD000 (Tests.dmDesc 1) with dms0 := [⟨0, 0xD000, Tests.dmDesc 1, true, 0, 0, false, 0, [], 0⟩] } : Tile).dms (0 : Fin 2))[(0 : Nat)]? = some (⟨0, 0xD000, Tests.dmDesc 1, true, 0, 0, false, 0, [], 0⟩ : Dm)) ∧ ((⟨0, 0xD000, Tests.dmDesc 1, true, 0, 0, false, 0, [], 0⟩ : Dm).started = true) ∧ ((⟨0, 0xD000, Tests.dmDesc 1, true, 0, 0, false, 0, [], 0⟩ : Dm).remote = false) := by decide +kernel

theorem test_meets_ReductionSlots_1 :
    ((5 : Nat) < (({ Tests.up.setF (.cdie 2) Reg.CDIE.RSLOT_CFG_COUNT 8192 with bslots := [(2 * 8192 + 5, { BSlot.init with expect := 3 })] } : State) : State).slotCount (2 : Fin 4)) ∧ (((({ Tests.up.setF (.cdie 2) Reg.CDIE.RSLOT_CFG_COUNT 8192 with bslots := [(2 * 8192 + 5, { BSlot.init with expect := 3 })] } : State) : State).bslot (2 : Fin 4) (5 : Nat)).state = 0 ∨ ((({ Tests.up.setF (.cdie 2) Reg.CDIE.RSLOT_CFG_COUNT 8192 with bslots := [(2 * 8192 + 5, { BSlot.init with expect := 3 })] } : State) : State).bslot (2 : Fin 4) (5 : Nat)).state = 3) ∧ ((({ BSlot.init with expect := 3, mode := 5 } : BSlot) = if ((({ Tests.up.setF (.cdie 2) Reg.CDIE.RSLOT_CFG_COUNT 8192 with bslots := [(2 * 8192 + 5, { BSlot.init with expect := 3 })] } : State) : State).bslot (2 : Fin 4) (5 : Nat)).state = 0 then { (({ Tests.up.setF (.cdie 2) Reg.CDIE.RSLOT_CFG_COUNT 8192 with bslots := [(2 * 8192 + 5, { BSlot.init with expect := 3 })] } : State) : State).bslot (2 : Fin 4) (5 : Nat) with mode := getBits (0xA0 : Word) 7 5, syncObj := getBits (0xA0 : Word) 31 16 } else (({ Tests.up.setF (.cdie 2) Reg.CDIE.RSLOT_CFG_COUNT 8192 with bslots := [(2 * 8192 + 5, { BSlot.init with expect := 3 })] } : State) : State).bslot (2 : Fin 4) (5 : Nat))) ∧ ((((({ Tests.up.setF (.cdie 2) Reg.CDIE.RSLOT_CFG_COUNT 8192 with bslots := [(2 * 8192 + 5, { BSlot.init with expect := 3 })] } : State)).setBslot 2 5 { BSlot.init with expect := 3, mode := 5 } : State) = if ((({ Tests.up.setF (.cdie 2) Reg.CDIE.RSLOT_CFG_COUNT 8192 with bslots := [(2 * 8192 + 5, { BSlot.init with expect := 3 })] } : State) : State).bslot (2 : Fin 4) (5 : Nat)).state = 0 then (({ Tests.up.setF (.cdie 2) Reg.CDIE.RSLOT_CFG_COUNT 8192 with bslots := [(2 * 8192 + 5, { BSlot.init with expect := 3 })] } : State) : State).setBslot (2 : Fin 4) (5 : Nat) ({ BSlot.init with expect := 3, mode := 5 } : BSlot) else (({ Tests.up.setF (.cdie 2) Reg.CDIE.RSLOT_CFG_COUNT 8192 with bslots := [(2 * 8192 + 5, { BSlot.init with expect := 3 })] } : State) : State))) ∧ (({ BSlot.init with expect := 3, mode := 5 } : BSlot).expect ≠ 0) ∧ (({ BSlot.init with expect := 3, mode := 5 } : BSlot).mode < 6) ∧
    ((5 : Nat) < (({ Tests.up.setF (.cdie 2) Reg.CDIE.RSLOT_CFG_COUNT 8192 with bslots := [(2 * 8192 + 5, { BSlot.init with expect := 3, state := 3, mode := 2 })] } : State) : State).slotCount (2 : Fin 4)) ∧ (((({ Tests.up.setF (.cdie 2) Reg.CDIE.RSLOT_CFG_COUNT 8192 with bslots := [(2 * 8192 + 5, { BSlot.init with expect := 3, state := 3, mode := 2 })] } : State) : State).bslot (2 : Fin 4) (5 : Nat)).state = 0 ∨ ((({ Tests.up.setF (.cdie 2) Reg.CDIE.RSLOT_CFG_COUNT 8192 with bslots := [(2 * 8192 + 5, { BSlot.init with expect := 3, state := 3, mode := 2 })] } : State) : State).bslot (2 : Fin 4) (5 : Nat)).state = 3) ∧ ((({ BSlot.init with expect := 3, state := 3, mode := 2 } : BSlot) = if ((({ Tests.up.setF (.cdie 2) Reg.CDIE.RSLOT_CFG_COUNT 8192 with bslots := [(2 * 8192 + 5, { BSlot.init with expect := 3, state := 3, mode := 2 })] } : State) : State).bslot (2 : Fin 4) (5 : Nat)).state = 0 then { (({ Tests.up.setF (.cdie 2) Reg.CDIE.RSLOT_CFG_COUNT 8192 with bslots := [(2 * 8192 + 5, { BSlot.init with expect := 3, state := 3, mode := 2 })] } : State) : State).bslot (2 : Fin 4) (5 : Nat) with mode := getBits (0xA0 : Word) 7 5, syncObj := getBits (0xA0 : Word) 31 16 } else (({ Tests.up.setF (.cdie 2) Reg.CDIE.RSLOT_CFG_COUNT 8192 with bslots := [(2 * 8192 + 5, { BSlot.init with expect := 3, state := 3, mode := 2 })] } : State) : State).bslot (2 : Fin 4) (5 : Nat))) ∧ (((({ Tests.up.setF (.cdie 2) Reg.CDIE.RSLOT_CFG_COUNT 8192 with bslots := [(2 * 8192 + 5, { BSlot.init with expect := 3, state := 3, mode := 2 })] } : State) : State) = if ((({ Tests.up.setF (.cdie 2) Reg.CDIE.RSLOT_CFG_COUNT 8192 with bslots := [(2 * 8192 + 5, { BSlot.init with expect := 3, state := 3, mode := 2 })] } : State) : State).bslot (2 : Fin 4) (5 : Nat)).state = 0 then (({ Tests.up.setF (.cdie 2) Reg.CDIE.RSLOT_CFG_COUNT 8192 with bslots := [(2 * 8192 + 5, { BSlot.init with expect := 3, state := 3, mode := 2 })] } : State) : State).setBslot (2 : Fin 4) (5 : Nat) ({ BSlot.init with expect := 3, state := 3, mode := 2 } : BSlot) else (({ Tests.up.setF (.cdie 2) Reg.CDIE.RSLOT_CFG_COUNT 8192 with bslots := [(2 * 8192 + 5, { BSlot.init with expect := 3, state := 3, mode := 2 })] } : State) : State))) ∧ (({ BSlot.init with expect := 3, state := 3, mode := 2 } : BSlot).expect ≠ 0) ∧ (({ BSlot.init with expect := 3, state := 3, mode := 2 } : BSlot).mode < 6) := by decide +kernel

theorem test_meets_ReductionSlots_2 :
    ((5 : Nat) < (({ Tests.up.setF (.cdie 2) Reg.CDIE.RSLOT_CFG_COUNT 8192 with bslots := [(2 * 8192 + 5, { BSlot.init with state := 3, mode := 6 })] } : State) : State).slotCount (2 : Fin 4)) ∧ (({ BSlot.init with state := 3, mode := 6 } : BSlot) = (({ Tests.up.setF (.cdie 2) Reg.CDIE.RSLOT_CFG_COUNT 8192 with bslots := [(2 * 8192 + 5, { BSlot.init with state := 3, mode := 6 })] } : State) : State).bslot (2 : Fin 4) (5 : Nat)) ∧ (({ BSlot.init with state := 3, mode := 6 } : BSlot).state = 3) ∧ (({ BSlot.init with state := 3, mode := 6 } : BSlot).expect = 0 ∨ 6 ≤ ({ BSlot.init with state := 3, mode := 6 } : BSlot).mode) ∧
    ((5 : Nat) < (({ Tests.up.setF (.cdie 2) Reg.CDIE.RSLOT_CFG_COUNT 8192 with bslots := [(2 * 8192 + 5, { BSlot.init with state := 2 })] } : State) : State).slotCount (2 : Fin 4)) ∧ (((({ Tests.up.setF (.cdie 2) Reg.CDIE.RSLOT_CFG_COUNT 8192 with bslots := [(2 * 8192 + 5, { BSlot.init with state := 2 })] } : State) : State).bslot (2 : Fin 4) (5 : Nat)).state = 1 ∨ ((({ Tests.up.setF (.cdie 2) Reg.CDIE.RSLOT_CFG_COUNT 8192 with bslots := [(2 * 8192 + 5, { BSlot.init with state := 2 })] } : State) : State).bslot (2 : Fin 4) (5 : Nat)).state = 2) ∧
    ((5 : Nat) < (({ Tests.up.setF (.cdie 2) Reg.CDIE.RSLOT_CFG_COUNT 8192 with bslots := [(2 * 8192 + 5, { BSlot.init with state := 1, expect := 3 })] } : State) : State).slotCount (2 : Fin 4)) ∧ (({ BSlot.init with state := 1, expect := 3 } : BSlot) = (({ Tests.up.setF (.cdie 2) Reg.CDIE.RSLOT_CFG_COUNT 8192 with bslots := [(2 * 8192 + 5, { BSlot.init with state := 1, expect := 3 })] } : State) : State).bslot (2 : Fin 4) (5 : Nat)) ∧ (({ BSlot.init with state := 1, expect := 3 } : BSlot).state = 1) ∧ (({ BSlot.init with state := 1, expect := 3 } : BSlot).arrived + 1 < ({ BSlot.init with state := 1, expect := 3 } : BSlot).expect) := by decide +kernel

theorem test_meets_ReductionSlots_3 :
    ((5 : Nat) < (({ Tests.up.setF (.cdie 2) Reg.CDIE.RSLOT_CFG_COUNT 8192 with bslots := [(2 * 8192 + 5, { BSlot.init with state := 1, expect := 1, mode := 1 })] } : State) : State).slotCount (2 : Fin 4)) ∧ (({ BSlot.init with state := 1, expect := 1, mode := 1 } : BSlot) = (({ Tests.up.setF (.cdie 2) Reg.CDIE.RSLOT_CFG_COUNT 8192 with bslots := [(2 * 8192 + 5, { BSlot.init with state := 1, expect := 1, mode := 1 })] } : State) : State).bslot (2 : Fin 4) (5 : Nat)) ∧ (({ BSlot.init with state := 1, expect := 1, mode := 1 } : BSlot).state = 1) ∧ (({ BSlot.init with state := 1, expect := 1, mode := 1 } : BSlot).mode = 1) ∧ (({ BSlot.init with state := 1, expect := 1, mode := 1 } : BSlot).expect = ({ BSlot.init with state := 1, expect := 1, mode := 1 } : BSlot).arrived + 1) ∧
    ((5 : Nat) < (({ Tests.up.setF (.cdie 2) Reg.CDIE.RSLOT_CFG_COUNT 8192 with bslots := [(2 * 8192 + 5, { BSlot.init with state := 2, expect := 1, mode := 5 })] } : State) : State).slotCount (2 : Fin 4)) ∧ (({ BSlot.init with state := 2, expect := 1, mode := 5 } : BSlot) = (({ Tests.up.setF (.cdie 2) Reg.CDIE.RSLOT_CFG_COUNT 8192 with bslots := [(2 * 8192 + 5, { BSlot.init with state := 2, expect := 1, mode := 5 })] } : State) : State).bslot (2 : Fin 4) (5 : Nat)) ∧ (({ BSlot.init with state := 2, expect := 1, mode := 5 } : BSlot).state = 2) ∧ (({ BSlot.init with state := 2, expect := 1, mode := 5 } : BSlot).mode = 5) ∧ (([0, 0, 0, 0] : List Byte).length = 4) ∧ (({ BSlot.init with state := 2, expect := 1, mode := 5 } : BSlot).expect = ({ BSlot.init with state := 2, expect := 1, mode := 5 } : BSlot).arrived + 1) := by decide +kernel

theorem test_meets_ReductionSlots_4 :
    ((5 : Nat) < (({ Tests.up.setF (.cdie 2) Reg.CDIE.RSLOT_CFG_COUNT 8192 with bslots := [(2 * 8192 + 5, { BSlot.init with state := 3, status := 2 })] } : State) : State).slotCount (2 : Fin 4)) ∧ (({ BSlot.init with state := 3, status := 2 } : BSlot) = (({ Tests.up.setF (.cdie 2) Reg.CDIE.RSLOT_CFG_COUNT 8192 with bslots := [(2 * 8192 + 5, { BSlot.init with state := 3, status := 2 })] } : State) : State).bslot (2 : Fin 4) (5 : Nat)) ∧ (({ BSlot.init with state := 3, status := 2 } : BSlot).state = 0 ∨ ({ BSlot.init with state := 3, status := 2 } : BSlot).state = 3) ∧ (({ BSlot.init with state := 3, status := 2 } : BSlot).status ≠ 0) ∧ ((((({ Tests.up.setF (.cdie 2) Reg.CDIE.RSLOT_CFG_COUNT 8192 with bslots := [(2 * 8192 + 5, { BSlot.init with state := 3, status := 2 })] } : State)).bump (.cdie 2) Reg.CDIE.RSLOT_DISCARD_COUNT).raise (.cdie 2) Evt.CDIE.RSLOT_ERR : State) = ((({ Tests.up.setF (.cdie 2) Reg.CDIE.RSLOT_CFG_COUNT 8192 with bslots := [(2 * 8192 + 5, { BSlot.init with state := 3, status := 2 })] } : State) : State).bump (.cdie (2 : Fin 4)) Reg.CDIE.RSLOT_DISCARD_COUNT).raise (.cdie (2 : Fin 4)) Evt.CDIE.RSLOT_ERR) ∧
    (5 < (({ Tests.up.setF (.cdie 2) Reg.CDIE.RSLOT_CFG_COUNT 8192 with bslots := [(2 * 8192 + 5, { BSlot.init with state := 2, expect := 2, ing := Ingot.empty shortAnchor })] } : State)).slotCount 2 ∧ ((({ Tests.up.setF (.cdie 2) Reg.CDIE.RSLOT_CFG_COUNT 8192 with bslots := [(2 * 8192 + 5, { BSlot.init with state := 2, expect := 2, ing := Ingot.empty shortAnchor })] } : State)).bslot 2 5).mode = 0 ∧ (combineRecord 0 (Ingot.empty shortAnchor) (Ingot.ofBytes (Ingot.empty shortAnchor).toBytes)).2 = false) := by decide +kernel

theorem test_meets_PoolCommands_1 :
    ((({ Tests.up with pools := [(0, { Tests.pool with tail := 1 })] } : State) : State).ready = true) ∧ ((15 : Nat) ≠ 0) ∧ (((({ Tests.up with pools := [(0, { Tests.pool with tail := 1 })] } : State) : State).pool (0 : Fin 4096)).state ≠ 2) ∧ (((({ Tests.up with pools := [(0, { Tests.pool with tail := 1 })] } : State) : State).pool (0 : Fin 4096)).untaken + (15 : Nat) ≤ 2 ^ ((({ Tests.up with pools := [(0, { Tests.pool with tail := 1 })] } : State) : State).pool (0 : Fin 4096)).ringLog) ∧ (((({ Tests.up with pools := [(0, { Tests.pool with tail := 1 })] } : State) : State).pool (0 : Fin 4096)).untaken ≠ 0) ∧
    ((({ Tests.up with pools := [(0, { Tests.pool with tail := 0 })] } : State) : State).ready = true) ∧ ((16 : Nat) ≠ 0) ∧ (((({ Tests.up with pools := [(0, { Tests.pool with tail := 0 })] } : State) : State).pool (0 : Fin 4096)).state ≠ 2) ∧ ((16 : Nat) ≤ 2 ^ ((({ Tests.up with pools := [(0, { Tests.pool with tail := 0 })] } : State) : State).pool (0 : Fin 4096)).ringLog) ∧ (((({ Tests.up with pools := [(0, { Tests.pool with tail := 0 })] } : State) : State).pool (0 : Fin 4096)).untaken = 0) := by decide +kernel

theorem test_meets_PoolCommands_2 :
    ((({ Tests.up with pools := [(0, { Tests.pool with tail := 1 })] } : State) : State).ready = true) ∧ ((16 : Nat) ≠ 0) ∧ (({ Tests.pool with tail := 1 } : Pool) = (({ Tests.up with pools := [(0, { Tests.pool with tail := 1 })] } : State) : State).pool (0 : Fin 4096)) ∧ (({ Tests.pool with tail := 1 } : Pool).state ≠ 2) ∧ (2 ^ ({ Tests.pool with tail := 1 } : Pool).ringLog < ({ Tests.pool with tail := 1 } : Pool).untaken + (16 : Nat)) ∧
    ((7 : Nat) = 0 ∨ ((({ Tests.up with pools := [(0, { Tests.pool with state := 2 })] } : State) : State).pool (0 : Fin 4096)).state = 2) ∧
    ((({ Tests.up with pools := [(0, { Tests.pool with cqTail := 3 })] } : State) : State).ready = true) ∧ (({ Tests.pool with cqTail := 3 } : Pool) = (({ Tests.up with pools := [(0, { Tests.pool with cqTail := 3 })] } : State) : State).pool (0 : Fin 4096)) ∧ (((3 : Word).toNat + 2 ^ 32 - ({ Tests.pool with cqTail := 3 } : Pool).cqHead) % 2 ^ 32 ≤ (({ Tests.pool with cqTail := 3 } : Pool).cqTail + 2 ^ 32 - ({ Tests.pool with cqTail := 3 } : Pool).cqHead) % 2 ^ 32) ∧
    ((({ Tests.up with pools := [(0, { Tests.pool with cqTail := 3 })] } : State) : State).ready = true) ∧ (({ Tests.pool with cqTail := 3 } : Pool) = (({ Tests.up with pools := [(0, { Tests.pool with cqTail := 3 })] } : State) : State).pool (0 : Fin 4096)) ∧ ((({ Tests.pool with cqTail := 3 } : Pool).cqTail + 2 ^ 32 - ({ Tests.pool with cqTail := 3 } : Pool).cqHead) % 2 ^ 32 < ((4 : Word).toNat + 2 ^ 32 - ({ Tests.pool with cqTail := 3 } : Pool).cqHead) % 2 ^ 32) ∧
    (({ Tests.pool with state := 0 } : Pool) = (({ Tests.up with pools := [(0, { Tests.pool with state := 0 })] } : State) : State).pool (({ Tests.up with pools := [(0, { Tests.pool with state := 0 })] } : State) : State).poolSel) := by decide +kernel

theorem test_meets_PoolCommands_3 :
    (((Tests.up).pool (Tests.up).poolSel).state ≠ 1) ∧ (((Tests.up).pool (Tests.up).poolSel).running = 0) ∧
    (((({ Tests.up with pools := [(0, { Tests.pool with err := 0 })] } : State) : State).pool (({ Tests.up with pools := [(0, { Tests.pool with err := 0 })] } : State) : State).poolSel).state = 1 ∨ ((({ Tests.up with pools := [(0, { Tests.pool with err := 0 })] } : State) : State).pool (({ Tests.up with pools := [(0, { Tests.pool with err := 0 })] } : State) : State).poolSel).running ≠ 0) ∧
    (((({ Tests.up with pools := [(0, { Tests.pool with state := 2 })] } : State) : State).pool (({ Tests.up with pools := [(0, { Tests.pool with state := 2 })] } : State) : State).poolSel).state = 2) ∧ (((({ Tests.up with pools := [(0, { Tests.pool with state := 2 })] } : State) : State).pool (({ Tests.up with pools := [(0, { Tests.pool with state := 2 })] } : State) : State).poolSel).running = 0) ∧
    (((({ Tests.up with pools := [(0, { Tests.pool with tail := 2 })] } : State) : State).findErrs ([] : LineErrs) : State) = (({ Tests.up with pools := [(0, { Tests.pool with tail := 2 })] } : State) : State).findErrs ([] : LineErrs)) ∧ ((0 : Nat) = ((({ Tests.up with pools := [(0, { Tests.pool with tail := 2 })] } : State) : State).findErrs ([] : LineErrs) : State).poolSel) ∧ (({ Tests.pool with tail := 2 } : Pool) = ((({ Tests.up with pools := [(0, { Tests.pool with tail := 2 })] } : State) : State).findErrs ([] : LineErrs) : State).pool (0 : Nat)) ∧ ((((List.range (({ Tests.pool with tail := 2 } : Pool).untaken - 1)).foldl (fun a i => a.ringRead ({ Tests.pool with tail := 2 } : Pool) ((({ Tests.pool with tail := 2 } : Pool).head + i + 1) % 2 ^ 32)) ((({ Tests.up with pools := [(0, { Tests.pool with tail := 2 })] } : State) : State).findErrs ([] : LineErrs) : State) : State) = (List.range (({ Tests.pool with tail := 2 } : Pool).untaken - 1)).foldl (fun a i => a.ringRead ({ Tests.pool with tail := 2 } : Pool) ((({ Tests.pool with tail := 2 } : Pool).head + i + 1) % 2 ^ 32)) ((({ Tests.up with pools := [(0, { Tests.pool with tail := 2 })] } : State) : State).findErrs ([] : LineErrs) : State))) ∧
    (((({ Tests.up with pools := [(0, { Tests.pool with held := true })] } : State) : State).findErrs ([] : LineErrs) : State) = (({ Tests.up with pools := [(0, { Tests.pool with held := true })] } : State) : State).findErrs ([] : LineErrs)) ∧ (({ Tests.pool with held := true } : Pool) = ((({ Tests.up with pools := [(0, { Tests.pool with held := true })] } : State) : State).findErrs ([] : LineErrs) : State).pool ((({ Tests.up with pools := [(0, { Tests.pool with held := true })] } : State) : State).findErrs ([] : LineErrs) : State).poolSel) ∧ (({ Tests.pool with held := true } : Pool).untaken = 0) ∧ (({ Tests.pool with held := true } : Pool).cancelled = []) ∧ (({ Tests.pool with held := true } : Pool).retries = []) := by decide +kernel

theorem test_meets_TaskTakes_1 :
    ((Tests.up).mayTake (0 : Fin 4) (0 : Fin 104) = false ∨ (Tests.up).poolOrder (0 : Fin 4) (0 : Fin 104) = []) ∧
    ((State.reset).mayTake (0 : Fin 4) (0 : Fin 104) = false ∨ (State.reset).poolOrder (0 : Fin 4) (0 : Fin 104) = []) ∧
    (({ Tests.up with drove := 1000000 } : State).tileActive (0 : Fin 4) (0 : Fin 104) = true) ∧ ((Tile.init : Tile) = ({ Tests.up with drove := 1000000 } : State).tile (0 : Fin 4) (0 : Fin 104)) ∧ ((Tile.init : Tile).room = true) ∧ (2 ≤ (5 : Fin 6).val) ∧ ((5 : Fin 6).val ∉ (Tile.init : Tile).tiers) ∧ ((Tile.init : Tile).idleAt + ({ Tests.up with drove := 1000000 } : State).tierAfter (5 : Fin 6) ≤ ({ Tests.up with drove := 1000000 } : State).elapsed) ∧
    (({ Tests.pool with retries := [Tests.task] } : Pool) = (({ Tests.up with pools := [(0, { Tests.pool with retries := [Tests.task] })] } : State) : State).pool (0 : Fin 4096)) ∧ (({ Tests.pool with retries := [Tests.task] } : Pool).held = false) ∧ (({ Tests.pool with retries := [Tests.task] } : Pool).partnerEn = false) ∧ ((({ Tests.up with pools := [(0, { Tests.pool with retries := [Tests.task] })] } : State) : State).headEligible (0 : Fin 4096) = true) ∧ (headTask ((({ Tests.up with pools := [(0, { Tests.pool with retries := [Tests.task] })] } : State) : State).poolHead (0 : Fin 4096)) = some (Tests.task : Task)) ∧ ((Tests.task : Task).engine = 2) := by decide +kernel

theorem test_meets_TaskTakes_2 :
    (let s : State := { Tests.up with
      pools := [(0, { Tests.pool with tail := 1 })]
      mm := { MemSt.reset with pages := [(0, { Page.free with st := .loc, place := .frame 0 })] } }
    s.tileActive 0 0 = true ∧ s.isSet (.tile 0 0) Reg.TILE.CTL_DRAIN = false ∧ s.headEligible 0 = true ∧ (s.pool 0).partnerEn = false ∧
    (match s.poolHead 0 with | .fresh w => w.check == 2 | _ => false) = true) ∧
    (let s : State := { Tests.up with
      pools := [(0, { Tests.pool with tail := 1 })]
      mm := { MemSt.reset with
        mem := Map.writeBytes [] 0x100020 ([0, 0xA0, 0, 0, 0, 0x10, 0x13, 0] ++ [0, 0xA0, 0, 0, 0, 0xA0, 0, 0])
        pages := [(0, { Page.free with st := .loc, place := .frame 0 })] } }
    s.fenced = false ∧ s.noTakes = false ∧ s.headEligible 0 = true ∧ (match s.poolHead 0 with | .fresh w => w.check == 0 | _ => false) = true) := by decide +kernel

theorem test_meets_TaskStartsAndEnds_1 :
    (((Tests.tileS (Tests.busy 0 [])).findErrs ([] : LineErrs)) = (Tests.tileS (Tests.busy 0 [])).findErrs ([] : LineErrs)) ∧ (((.taskExit 0 0 0 [.timeout] [] : Instr) = .taskExit (0 : Fin 4) (0 : Fin 104) (0 : Fin 2) ([.timeout] : List TaskEnd) ([] : LineErrs) ∧ (.exit : TaskEnd) = .exit ∧ (0 : Nat) = 0 ∧ (0 : Nat) = 0) ∨
      ((.taskExit 0 0 0 [.timeout] [] : Instr) = .taskAbort (0 : Fin 4) (0 : Fin 104) (0 : Fin 2) (0 : BitVec 8) ([.timeout] : List TaskEnd) ([] : LineErrs) ∧ (.exit : TaskEnd) = .abort (0 : BitVec 8) ∧ (0 : Nat) = 4 ∧ (0 : Nat) = (0 : BitVec 8).toNat) ∨
      ((.taskExit 0 0 0 [.timeout] [] : Instr) = .taskTimeout (0 : Fin 4) (0 : Fin 104) (0 : Fin 2) ([.timeout] : List TaskEnd) ([] : LineErrs) ∧ (.exit : TaskEnd) = .timeout ∧ (0 : Nat) = 3 ∧ (0 : Nat) = 0)) ∧ (firstEnd (((.exit : TaskEnd) :: ([.timeout] : List TaskEnd)).filter (((Tests.tileS (Tests.busy 0 [])).findErrs ([] : LineErrs)).endGood (0 : Fin 4) (0 : Fin 104) (0 : Fin 2))) = some (.exit : TaskEnd)) ∧ ((((Tests.tileS (Tests.busy 0 [])).findErrs ([] : LineErrs)).tile (0 : Fin 4) (0 : Fin 104)).slot (0 : Fin 2) = some (Tests.task : Task)) ∧ ((Tests.task : Task).pair = false) ∧ ((Tests.task : Task).held = none) := by decide +kernel

theorem test_meets_TaskStartsAndEnds_2 :
    (((Tests.tileS (Tests.busy 0 [])).findErrs ([] : LineErrs)) = (Tests.tileS (Tests.busy 0 [])).findErrs ([] : LineErrs)) ∧ (((.taskAbort 0 0 0 9 [] [] : Instr) = .taskExit (0 : Fin 4) (0 : Fin 104) (0 : Fin 2) ([] : List TaskEnd) ([] : LineErrs) ∧ (.abort 9 : TaskEnd) = .exit ∧ (4 : Nat) = 0 ∧ (9 : Nat) = 0) ∨
      ((.taskAbort 0 0 0 9 [] [] : Instr) = .taskAbort (0 : Fin 4) (0 : Fin 104) (0 : Fin 2) (9 : BitVec 8) ([] : List TaskEnd) ([] : LineErrs) ∧ (.abort 9 : TaskEnd) = .abort (9 : BitVec 8) ∧ (4 : Nat) = 4 ∧ (9 : Nat) = (9 : BitVec 8).toNat) ∨
      ((.taskAbort 0 0 0 9 [] [] : Instr) = .taskTimeout (0 : Fin 4) (0 : Fin 104) (0 : Fin 2) ([] : List TaskEnd) ([] : LineErrs) ∧ (.abort 9 : TaskEnd) = .timeout ∧ (4 : Nat) = 3 ∧ (9 : Nat) = 0)) ∧ (firstEnd (((.abort 9 : TaskEnd) :: ([] : List TaskEnd)).filter (((Tests.tileS (Tests.busy 0 [])).findErrs ([] : LineErrs)).endGood (0 : Fin 4) (0 : Fin 104) (0 : Fin 2))) = some (.abort 9 : TaskEnd)) ∧ ((((Tests.tileS (Tests.busy 0 [])).findErrs ([] : LineErrs)).tile (0 : Fin 4) (0 : Fin 104)).slot (0 : Fin 2) = some (Tests.task : Task)) ∧ ((Tests.task : Task).pair = false) ∧ ((Tests.task : Task).held = none) := by decide +kernel

theorem test_meets_TaskStartsAndEnds_3 :
    (((Tests.tileS (Tests.busy 0 [])).findErrs ([] : LineErrs)) = (Tests.tileS (Tests.busy 0 [])).findErrs ([] : LineErrs)) ∧ (((.taskTimeout 0 0 0 [.fault 2] [] : Instr) = .taskExit (0 : Fin 4) (0 : Fin 104) (0 : Fin 2) ([.fault 2] : List TaskEnd) ([] : LineErrs) ∧ (.timeout : TaskEnd) = .exit) ∨ ((.taskTimeout 0 0 0 [.fault 2] [] : Instr) = .taskAbort (0 : Fin 4) (0 : Fin 104) (0 : Fin 2) (0 : BitVec 8) ([.fault 2] : List TaskEnd) ([] : LineErrs) ∧ (.timeout : TaskEnd) = .abort (0 : BitVec 8)) ∨
      ((.taskTimeout 0 0 0 [.fault 2] [] : Instr) = .taskTimeout (0 : Fin 4) (0 : Fin 104) (0 : Fin 2) ([.fault 2] : List TaskEnd) ([] : LineErrs) ∧ (.timeout : TaskEnd) = .timeout)) ∧
    (((Tests.tileS { Tile.init with slot0 := some { Tests.task with pair := true, fate := some 1 } } : State).findErrs ([] : LineErrs) : State) = (Tests.tileS { Tile.init with slot0 := some { Tests.task with pair := true, fate := some 1 } } : State).findErrs ([] : LineErrs)) ∧ ((((Tests.tileS { Tile.init with slot0 := some { Tests.task with pair := true, fate := some 1 } } : State).findErrs ([] : LineErrs) : State).tile (0 : Fin 4) (0 : Fin 104)).slot (0 : Fin 2) = some ({ Tests.task with pair := true, fate := some 1 } : Task)) ∧ (({ Tests.task with pair := true, fate := some 1 } : Task).pair = true) ∧ (({ Tests.task with pair := true, fate := some 1 } : Task).fate = some (1 : Nat)) ∧ ((((Tests.tileS { Tile.init with slot0 := some { Tests.task with pair := true, fate := some 1 } } : State).findErrs ([] : LineErrs) : State).partnerOf (0 : Fin 4) (0 : Fin 104) (0 : Fin 2)).bind Task.held = none) ∧
    ((Tests.tileS { Tests.busy 0 [] with dms0 := [⟨0, 0, [], false, 0, 0, false, 0, [], 0⟩] } : State).kernelRuns (0 : Fin 4) (0 : Fin 104) (0 : Fin 2) = true) ∧ (((Tests.tileS { Tests.busy 0 [] with dms0 := [⟨0, 0, [], false, 0, 0, false, 0, [], 0⟩] } : State).tile (0 : Fin 4) (0 : Fin 104)).slot (0 : Fin 2) = some (Tests.task : Task)) ∧ ((Tests.tileS { Tests.busy 0 [] with slot0 := some { Tests.task with post := some (7, 1) }, dms0 := [⟨0, 0, [], false, 0, 0, false, 0, [], 0⟩] } |>.setF (.tile 0 0) Reg.TILE.STATE_SLOT0 1 |>.drained 0 0 : State) = (Tests.tileS { Tests.busy 0 [] with dms0 := [⟨0, 0, [], false, 0, 0, false, 0, [], 0⟩] } : State).setSlot (0 : Fin 4) (0 : Fin 104) (0 : Fin 2) (some { (Tests.task : Task) with post := some ((7 : Fin 4096).val, (1 : Nat)) })) ∧ (((Tests.tileS { Tests.busy 0 [] with dms0 := [⟨0, 0, [], false, 0, 0, false, 0, [], 0⟩] } : State).tile (0 : Fin 4) (0 : Fin 104)).dms (0 : Fin 2) ≠ []) := by decide +kernel

theorem test_meets_TaskStartsAndEnds_4 :
    (let e : KEntry := ⟨0, 64, 2, false, []⟩
    let s : State := { Tests.up with pools := [(0, Tests.pool)], tiles := [(0, { Tile.init with
      slot0 := some { Tests.task with start := none }, kcache := [e] })] }
    (s.tile 0 0).slot 0 = some { Tests.task with start := none } ∧ (s.tile 0 0).cached { Tests.task with start := none } = some e ∧
    e.engine = Tests.task.engine ∧ (s.pool 0).home = 0) := by decide +kernel

theorem test_meets_ChannelsAndTheirLines_1 :
    ((Tests.chS 1 { MemSt.reset with cal := [(0, ⟨7, 5, 60⟩)] } : State).chanState (chanNo (0 : Fin 12) (0 : Fin 16)) = 1) ∧ ((Tests.chS 1 { MemSt.reset with cal := [(0, ⟨7, 5, 60⟩)] } : State).mm.trained.getD (chanNo (0 : Fin 12) (0 : Fin 16)) false = false) ∧ ((false : Bool) = !((Tests.chS 1 { MemSt.reset with cal := [(0, ⟨7, 5, 60⟩)] } : State).calFits (chanNo (0 : Fin 12) (0 : Fin 16)) (⟨9, 5, 75⟩ : Calib) && (true : Bool))) ∧ ((false : Bool) = false ∨ (false : Bool) = true) ∧ (((Tests.chS 1 { MemSt.reset with cal := [(0, ⟨7, 5, 60⟩)] } : State).raise (.mstk (0 : Fin 12)) Evt.MSTK.TRAIN_FULL : State) = (Tests.chS 1 { MemSt.reset with cal := [(0, ⟨7, 5, 60⟩)] } : State).raise (.mstk (0 : Fin 12)) Evt.MSTK.TRAIN_FULL) ∧ (((if (false : Bool) then { ((Tests.chS 1 { MemSt.reset with cal := [(0, ⟨7, 5, 60⟩)] } : State).raise (.mstk (0 : Fin 12)) Evt.MSTK.TRAIN_FULL : State) with mm := { ((Tests.chS 1 { MemSt.reset with cal := [(0, ⟨7, 5, 60⟩)] } : State).raise (.mstk (0 : Fin 12)) Evt.MSTK.TRAIN_FULL : State).mm with cal := ((Tests.chS 1 { MemSt.reset with cal := [(0, ⟨7, 5, 60⟩)] } : State).raise (.mstk (0 : Fin 12)) Evt.MSTK.TRAIN_FULL : State).mm.cal.put (chanNo (0 : Fin 12) (0 : Fin 16)) (⟨9, 5, 75⟩ : Calib) } } else (Tests.chS 1 { MemSt.reset with cal := [(0, ⟨7, 5, 60⟩)] } : State) : State) = if (false : Bool) then { ((Tests.chS 1 { MemSt.reset with cal := [(0, ⟨7, 5, 60⟩)] } : State).raise (.mstk (0 : Fin 12)) Evt.MSTK.TRAIN_FULL : State) with mm := { ((Tests.chS 1 { MemSt.reset with cal := [(0, ⟨7, 5, 60⟩)] } : State).raise (.mstk (0 : Fin 12)) Evt.MSTK.TRAIN_FULL : State).mm with cal := ((Tests.chS 1 { MemSt.reset with cal := [(0, ⟨7, 5, 60⟩)] } : State).raise (.mstk (0 : Fin 12)) Evt.MSTK.TRAIN_FULL : State).mm.cal.put (chanNo (0 : Fin 12) (0 : Fin 16)) (⟨9, 5, 75⟩ : Calib) } } else (Tests.chS 1 { MemSt.reset with cal := [(0, ⟨7, 5, 60⟩)] } : State))) ∧ (((if (false : Bool) then { ((Tests.chS 1 { MemSt.reset with cal := [(0, ⟨7, 5, 60⟩)] } : State).raise (.mstk (0 : Fin 12)) Evt.MSTK.TRAIN_FULL : State) with mm := { ((Tests.chS 1 { MemSt.reset with cal := [(0, ⟨7, 5, 60⟩)] } : State).raise (.mstk (0 : Fin 12)) Evt.MSTK.TRAIN_FULL : State).mm with cal := ((Tests.chS 1 { MemSt.reset with cal := [(0, ⟨7, 5, 60⟩)] } : State).raise (.mstk (0 : Fin 12)) Evt.MSTK.TRAIN_FULL : State).mm.cal.put (chanNo (0 : Fin 12) (0 : Fin 16)) (⟨9, 5, 75⟩ : Calib) } } else (Tests.chS 1 { MemSt.reset with cal := [(0, ⟨7, 5, 60⟩)] } : State) : State).startFrames (chanNo (0 : Fin 12) (0 : Fin 16))).chanState (chanNo (0 : Fin 12) (0 : Fin 16)) = 1) ∧
    ((Tests.chS 1 .reset).chanState (chanNo (0 : Fin 12) (0 : Fin 16)) = 1) ∧ ((Tests.chS 1 .reset).mm.trained.getD (chanNo (0 : Fin 12) (0 : Fin 16)) false = false) ∧ ((true : Bool) = !((Tests.chS 1 .reset).calFits (chanNo (0 : Fin 12) (0 : Fin 16)) (⟨9, 5, 75⟩ : Calib) && (true : Bool))) ∧ ((true : Bool) = false ∨ (true : Bool) = true) ∧ (((Tests.chS 1 .reset).raise (.mstk (0 : Fin 12)) Evt.MSTK.TRAIN_FULL) = (Tests.chS 1 .reset).raise (.mstk (0 : Fin 12)) Evt.MSTK.TRAIN_FULL) ∧ (((if (true : Bool) then { ((Tests.chS 1 .reset).raise (.mstk (0 : Fin 12)) Evt.MSTK.TRAIN_FULL) with mm := { ((Tests.chS 1 .reset).raise (.mstk (0 : Fin 12)) Evt.MSTK.TRAIN_FULL).mm with cal := ((Tests.chS 1 .reset).raise (.mstk (0 : Fin 12)) Evt.MSTK.TRAIN_FULL).mm.cal.put (chanNo (0 : Fin 12) (0 : Fin 16)) (⟨9, 5, 75⟩ : Calib) } } else (Tests.chS 1 .reset) : State) = if (true : Bool) then { ((Tests.chS 1 .reset).raise (.mstk (0 : Fin 12)) Evt.MSTK.TRAIN_FULL) with mm := { ((Tests.chS 1 .reset).raise (.mstk (0 : Fin 12)) Evt.MSTK.TRAIN_FULL).mm with cal := ((Tests.chS 1 .reset).raise (.mstk (0 : Fin 12)) Evt.MSTK.TRAIN_FULL).mm.cal.put (chanNo (0 : Fin 12) (0 : Fin 16)) (⟨9, 5, 75⟩ : Calib) } } else (Tests.chS 1 .reset))) ∧ (((if (true : Bool) then { ((Tests.chS 1 .reset).raise (.mstk (0 : Fin 12)) Evt.MSTK.TRAIN_FULL) with mm := { ((Tests.chS 1 .reset).raise (.mstk (0 : Fin 12)) Evt.MSTK.TRAIN_FULL).mm with cal := ((Tests.chS 1 .reset).raise (.mstk (0 : Fin 12)) Evt.MSTK.TRAIN_FULL).mm.cal.put (chanNo (0 : Fin 12) (0 : Fin 16)) (⟨9, 5, 75⟩ : Calib) } } else (Tests.chS 1 .reset) : State).startFrames (chanNo (0 : Fin 12) (0 : Fin 16))).chanState (chanNo (0 : Fin 12) (0 : Fin 16)) = 1) := by decide +kernel

theorem test_meets_ChannelsAndTheirLines_2 :
    ((Tests.chS 1 .reset).chanState (chanNo (0 : Fin 12) (0 : Fin 16)) = 1) ∧ ((Tests.chS 1 .reset).mm.trained.getD (chanNo (0 : Fin 12) (0 : Fin 16)) false = false) ∧ (((Tests.chS 1 .reset).calFits (chanNo (0 : Fin 12) (0 : Fin 16)) (⟨9, 5, 75⟩ : Calib) && (true : Bool)) = false) ∧
    ((Tests.chS 1 { MemSt.reset with cal := [(0, ⟨7, 5, 60⟩)] } : State).chanState (chanNo (0 : Fin 12) (0 : Fin 16)) = 1) ∧ ((Tests.chS 1 { MemSt.reset with cal := [(0, ⟨7, 5, 60⟩)] } : State).mm.trained.getD (chanNo (0 : Fin 12) (0 : Fin 16)) false = false) ∧ (((Tests.chS 1 { MemSt.reset with cal := [(0, ⟨7, 5, 60⟩)] } : State).calFits (chanNo (0 : Fin 12) (0 : Fin 16)) (⟨9, 5, 76⟩ : Calib) && (true : Bool)) = false) ∧
    ((Tests.chS 1 { MemSt.reset with trained := [(0, true)] } : State).chanState (chanNo (0 : Fin 12) (0 : Fin 16)) = 1) ∧ ((Tests.chS 1 { MemSt.reset with trained := [(0, true)] } : State).mm.trained.getD (chanNo (0 : Fin 12) (0 : Fin 16)) false = true) ∧ ((((Tests.chS 1 { MemSt.reset with trained := [(0, true)] }).setF (.mchn 0 0) Reg.MCHN.STATE_STATE 2).setF (.mchn 0 0) Reg.MCHN.STATE_CAUSE 0 : State) = ((Tests.chS 1 { MemSt.reset with trained := [(0, true)] } : State).setF (.mchn (0 : Fin 12) (0 : Fin 16)) Reg.MCHN.STATE_STATE 2).setF (.mchn (0 : Fin 12) (0 : Fin 16)) Reg.MCHN.STATE_CAUSE 0) := by decide +kernel

theorem test_meets_ChannelsAndTheirLines_3 :
    ((Tests.chS 2 .reset).serving (chanNo (0 : Fin 12) (0 : Fin 16)) = true) ∧ ((Tests.chS 2 .reset).frameLive (frameId (0 : Fin 12) (0 : Fin 16) (0 : Fin 3072)) = true) ∧ ((Tests.chS 2 .reset).mm.ue.getD (lineKey (frameId (0 : Fin 12) (0 : Fin 16) (0 : Fin 3072)) (7 : Fin 32768)) false = false) ∧ ((.mchn 0 0 : UnitId) = chanUnit (frameChan (frameId (0 : Fin 12) (0 : Fin 16) (0 : Fin 3072)))) ∧ (((State.lastErr (((Tests.chS 2 .reset).bump (.mchn 0 0) Reg.MCHN.CE_COUNT_COUNT).raise (.mchn 0 0) Evt.MCHN.CE) 0 7 false).addPair (.mchn 0 0) Reg.MCHN.WR_BYTES_LO Reg.MCHN.WR_BYTES_HI 64) = (State.lastErr (((Tests.chS 2 .reset).bump (.mchn 0 0 : UnitId) Reg.MCHN.CE_COUNT_COUNT).raise (.mchn 0 0 : UnitId) Evt.MCHN.CE) (frameId (0 : Fin 12) (0 : Fin 16) (0 : Fin 3072)) (7 : Fin 32768) false).addPair (.mchn 0 0 : UnitId) Reg.MCHN.WR_BYTES_LO Reg.MCHN.WR_BYTES_HI 64) ∧ (((((State.lastErr (((Tests.chS 2 .reset).bump (.mchn 0 0) Reg.MCHN.CE_COUNT_COUNT).raise (.mchn 0 0) Evt.MCHN.CE) 0 7 false).addPair (.mchn 0 0) Reg.MCHN.WR_BYTES_LO Reg.MCHN.WR_BYTES_HI 64).mm.ce.put (lineKey (frameId (0 : Fin 12) (0 : Fin 16) (0 : Fin 3072)) (7 : Fin 32768)) (Tests.chS 2 .reset).elapsed).filter (fun e => e.1 / 2 ^ 15 == frameId (0 : Fin 12) (0 : Fin 16) (0 : Fin 3072) && decide ((Tests.chS 2 .reset).elapsed ≤ e.2 + ns24h))).length < 8) ∧
    ((Tests.chS 2 .reset).serving (chanNo (0 : Fin 12) (0 : Fin 16)) = true) ∧ ((Tests.chS 2 .reset).frameLive (frameId (0 : Fin 12) (0 : Fin 16) (0 : Fin 3072)) = true) ∧ ((Tests.chS 2 .reset).mm.ue.getD (lineKey (frameId (0 : Fin 12) (0 : Fin 16) (0 : Fin 3072)) (7 : Fin 32768)) false = false) ∧ ((.mchn 0 0 : UnitId) = chanUnit (frameChan (frameId (0 : Fin 12) (0 : Fin 16) (0 : Fin 3072)))) ∧ ((State.lastErr (((Tests.chS 2 .reset).bump (.mchn 0 0) Reg.MCHN.UE_COUNT_COUNT).raise (.mchn 0 0) Evt.MCHN.UE) 0 7 true) = State.lastErr (((Tests.chS 2 .reset).bump (.mchn 0 0 : UnitId) Reg.MCHN.UE_COUNT_COUNT).raise (.mchn 0 0 : UnitId) Evt.MCHN.UE) (frameId (0 : Fin 12) (0 : Fin 16) (0 : Fin 3072)) (7 : Fin 32768) true) ∧ ((State.lastErr (((Tests.chS 2 .reset).bump (.mchn 0 0) Reg.MCHN.UE_COUNT_COUNT).raise (.mchn 0 0) Evt.MCHN.UE) 0 7 true).getF (.mchn 0 0 : UnitId) Reg.MCHN.UE_TAB_USED < 64) ∧ ((let a := State.lastErr (((Tests.chS 2 .reset).bump (.mchn 0 0) Reg.MCHN.UE_COUNT_COUNT).raise (.mchn 0 0) Evt.MCHN.UE) 0 7 true; { a with mm := { a.mm with ue := [(7, true)] } } : State) = { (State.lastErr (((Tests.chS 2 .reset).bump (.mchn 0 0) Reg.MCHN.UE_COUNT_COUNT).raise (.mchn 0 0) Evt.MCHN.UE) 0 7 true) with mm := { (State.lastErr (((Tests.chS 2 .reset).bump (.mchn 0 0) Reg.MCHN.UE_COUNT_COUNT).raise (.mchn 0 0) Evt.MCHN.UE) 0 7 true).mm with ue := (State.lastErr (((Tests.chS 2 .reset).bump (.mchn 0 0) Reg.MCHN.UE_COUNT_COUNT).raise (.mchn 0 0) Evt.MCHN.UE) 0 7 true).mm.ue.put (lineKey (frameId (0 : Fin 12) (0 : Fin 16) (0 : Fin 3072)) (7 : Fin 32768)) true } }) := by decide +kernel

theorem test_meets_ChannelLinksAndTraining_1 :
    ((Tests.chS 2 .reset).serving (chanNo (0 : Fin 12) (0 : Fin 16)) = true) ∧ (((Tests.chS 2 .reset).mg.fw.hptTo.any (fun w => decide ((Tests.chS 2 .reset).elapsed < w)) = false)) ∧
    ((({ Tests.chS 2 .reset with mg := { MgmtSt.reset with fw := { MgmtSt.reset.fw with hptTo := some 5 } } } : State).mg.fw.hptTo.any (fun w => decide (({ Tests.chS 2 .reset with mg := { MgmtSt.reset with fw := { MgmtSt.reset.fw with hptTo := some 5 } } } : State).elapsed < w)) = true)) ∧
    ((Tests.chS 2 .reset).serving (chanNo (0 : Fin 12) (0 : Fin 16)) = true) ∧ ((2 : Nat) ≠ 0) ∧ (((Tests.chS 2 .reset).bumpBy (.mchn 0 0) Reg.MCHN.LINK_RETRY_COUNT 2) = (Tests.chS 2 .reset).bumpBy (chanUnit (chanNo (0 : Fin 12) (0 : Fin 16))) Reg.MCHN.LINK_RETRY_COUNT (2 : Nat)) ∧ ((([0, 0] : List Nat) = ((((Tests.chS 2 .reset).bumpBy (.mchn 0 0) Reg.MCHN.LINK_RETRY_COUNT 2).mm.retryLog.getD (chanNo (0 : Fin 12) (0 : Fin 16)) []).filter (fun t => decide (((Tests.chS 2 .reset).bumpBy (.mchn 0 0) Reg.MCHN.LINK_RETRY_COUNT 2).elapsed ≤ t + ns1s))) ++ List.replicate (min (2 : Nat) 1001) ((Tests.chS 2 .reset).bumpBy (.mchn 0 0) Reg.MCHN.LINK_RETRY_COUNT 2).elapsed)) ∧ (([0, 0] : List Nat).length ≤ 1000) ∧ (((Tests.chS 2 .reset).mg.fw.hptTo.any (fun w => decide ((Tests.chS 2 .reset).elapsed < w)) = false)) ∧
    ((Tests.chS 2 .reset).serving (chanNo (0 : Fin 12) (0 : Fin 16)) = true) ∧ (((Tests.chS 2 .reset).retried 0 1) = (Tests.chS 2 .reset).retried (chanNo (0 : Fin 12) (0 : Fin 16)) 1) ∧ (((Tests.chS 2 .reset).retried 0 1).serving (chanNo (0 : Fin 12) (0 : Fin 16)) = true) ∧
    ((Tests.chS 2 .reset).ready = true) ∧ ((Tests.chS 2 .reset).serving (chanNo (0 : Fin 12) (0 : Fin 16)) = true) := by decide +kernel

theorem test_meets_ChannelLinksAndTraining_2 :
    ((Tests.chS 2 { MemSt.reset with retraining := [(0, true)] } : State).mm.retraining.getD (chanNo (0 : Fin 12) (0 : Fin 16)) false = true) ∧ ((Tests.chS 2 { MemSt.reset with retraining := [(0, true)] } : State).serving (chanNo (0 : Fin 12) (0 : Fin 16)) = true) ∧ ((Tests.chS 2 .reset) = { (Tests.chS 2 { MemSt.reset with retraining := [(0, true)] } : State) with mm := { (Tests.chS 2 { MemSt.reset with retraining := [(0, true)] } : State).mm with retraining := (Tests.chS 2 { MemSt.reset with retraining := [(0, true)] } : State).mm.retraining.del (chanNo (0 : Fin 12) (0 : Fin 16)) } }) ∧ ((((Tests.chS 2 .reset).bump (.mchn 0 0) Reg.MCHN.RETRAINS_COUNT).raise (.mchn 0 0) Evt.MCHN.RETRAIN) = ((Tests.chS 2 .reset).bump (.mchn (0 : Fin 12) (0 : Fin 16)) Reg.MCHN.RETRAINS_COUNT).raise (.mchn (0 : Fin 12) (0 : Fin 16)) Evt.MCHN.RETRAIN) := by decide +kernel

theorem test_meets_ChannelDrainsAndHeat :
    ((Tests.chS 4 .reset).chanState (chanNo (0 : Fin 12) (0 : Fin 16)) ≠ 2) ∧
    ((Tests.chS 3 .reset).chanState (chanNo (0 : Fin 12) (0 : Fin 16)) = 3) ∧ ((Tests.chS 3 .reset).drainOrder (chanNo (0 : Fin 12) (0 : Fin 16)) = []) ∧
    ((2 : Nat) = refreshRate ((Tests.up).getF (.mstk (11 : Fin 12)) Reg.MSTK.TEMP_REFRESH) (96 : BitVec 8).toNat) ∧ (((Tests.up.setF (.mstk 11) Reg.MSTK.TEMP_DEGC 96).setF (.mstk 11) Reg.MSTK.TEMP_REFRESH 2) = ((Tests.up).setF (.mstk (11 : Fin 12)) Reg.MSTK.TEMP_DEGC (96 : BitVec 8).toNat).setF (.mstk (11 : Fin 12)) Reg.MSTK.TEMP_REFRESH (2 : Nat)) ∧
    (Tests.chS 2 .reset).ready = true ∧ (Tests.chS 2 .reset).chanState 0 = 2 ∧
    (let s := Tests.chS 3 { MemSt.reset with drainStalled := [(0, true)], pages := [(0, Tests.page)] }
    s.chanState 0 = 3 ∧ s.mm.drainStalled.getD 0 false = true ∧ (0 < (s.setF (.mchn 0 1) Reg.MCHN.STATE_STATE 2).chanFree 1)) := by decide +kernel

theorem test_meets_PlacementRequestLife_1 :
    (({ Tests.up with mm := { MemSt.reset with req := some (Tests.req 2 1 (some 0)) } } : State).mm.req = some (Tests.req 2 1 (some 0) : PlaceReq)) ∧ ((Tests.req 2 1 (some 0) : PlaceReq).status = some 0) ∧ (({ Tests.up with mm := { MemSt.reset with req := some (Tests.req 2 1 (some 0)) } } : State).hcAway = false) ∧ (({ Tests.up with mm := { MemSt.reset with req := some (Tests.req 2 1 (some 0)) } } : State).reqReady (Tests.req 2 1 (some 0) : PlaceReq) = true) ∧ ((Tests.req 2 1 (some 0) : PlaceReq).op ≠ 5) ∧
    (({ Tests.up with mm := { MemSt.reset with req := some (Tests.req 1 9 (some 1)) } } : State).mm.req = some (Tests.req 1 9 (some 1) : PlaceReq)) ∧ ((Tests.req 1 9 (some 1) : PlaceReq).status = some (1 : Nat)) ∧ ((1 : Nat) ≠ 0) ∧ (({ Tests.up with mm := { MemSt.reset with req := some (Tests.req 1 9 (some 1)) } } : State).hcAway = false) ∧ ((Tests.req 1 9 (some 1) : PlaceReq).spillFirst = false) ∧
    ((Tests.up).mm.req = none) := by decide +kernel

theorem test_meets_PlacementRequestLife_2 :
    (let s := Tests.up.setF .place Reg.PLACE.REQ_COUNT_COUNT 1
    let a := s.setF .place Reg.PLACE.REQ_STAT_BUSY 1
    s.ready = true ∧ s.isSet .place Reg.PLACE.REQ_STAT_BUSY = false ∧ a.isSet .place Reg.PLACE.REQ_STAT_BUSY = true ∧
    a.reqCheck (Tests.req 6 1 none) = 6 ∧ a.reqCheck (Tests.req 2 1 none) = 4 ∧ a.reqCheck (Tests.req 4 0 none) = 0 ∧ a.reqCheck (Tests.req 5 0 none) = 0 ∧
    a.reqCheck (Tests.req 1 1 none) = 0 ∧ (Tests.chS 2 .reset).chanFree 0 = 2861) ∧
    State.reqCheck { Tests.up with mm := { MemSt.reset with pages := [(0, Tests.page)] } } (Tests.req 3 1 none) = 0 := by decide +kernel

theorem test_meets_HeatAndScans :
    (({ Tests.up with mm := { MemSt.reset with pages := [(3, Tests.page)], xlat := [(3 + 5 * 2 ^ 20, ⟨⟨1, 0, 0, 0, 0, 2⟩, [(7, 2)]⟩)] } } : State).mm.xlat.find ((5 : Fin 6) * 2 ^ 20 + (3 : Fin 1048576)) = some (⟨⟨1, 0, 0, 0, 0, 2⟩, [(7, 2)]⟩ : XEntry)) ∧ ((Tests.page : Page) = ({ Tests.up with mm := { MemSt.reset with pages := [(3, Tests.page)], xlat := [(3 + 5 * 2 ^ 20, ⟨⟨1, 0, 0, 0, 0, 2⟩, [(7, 2)]⟩)] } } : State).page (3 : Fin 1048576)) ∧ ((Tests.page : Page).st ≠ .free) ∧
    (((Tests.up) = { (Tests.up).flushAll with mm := { (Tests.up).flushAll.mm with
      pages := (Tests.up).flushAll.mm.pages.map (fun (e : Nat × Page) => (e.1, e.2.epoch))
      guests := (Tests.up).flushAll.mm.guests.map (fun (e : Nat × Page) => (e.1, e.2.epoch))
      epochBytes := 0 } })) ∧ ((Tests.up).hcAway = false) ∧
    (({ Tests.up with mm := { MemSt.reset with pages := [(3, { Tests.page with st := .lost })] } } : State).ready = true) ∧ ((({ Tests.up with mm := { MemSt.reset with pages := [(3, { Tests.page with st := .lost })] } } : State).mm.pages.find? (fun e => decide ((3 : Fin 1048576).val ≤ e.1) && e.2.st = .lost)) = some ((3 : Nat), ({ Tests.page with st := .lost } : Page))) ∧
    (({ Tests.up with mm := { MemSt.reset with zeroing := [(5, true)] } } : State).mm.zeroing.getD (5 : Fin 1048576) false = true) ∧ ((({ Tests.up with mm := { MemSt.reset with zeroing := [(5, true)] } } : State).addPair (chanUnit (frameChan 5)) Reg.MCHN.WR_BYTES_LO Reg.MCHN.WR_BYTES_HI (2 ^ 21) : State) = ({ Tests.up with mm := { MemSt.reset with zeroing := [(5, true)] } } : State).addPair (chanUnit (frameChan (5 : Fin 1048576))) Reg.MCHN.WR_BYTES_LO Reg.MCHN.WR_BYTES_HI (2 ^ 21)) := by decide +kernel

theorem test_meets_PageMoves_1 :
    (({ Tests.page with move := some ⟨.frame 5, .migrate, 1, [], [], .loc, true, []⟩ } : Page) = ({ Tests.up with mm := { MemSt.reset with pages := [(3, { Tests.page with move := some ⟨.frame 5, .migrate, 1, [], [], .loc, true, []⟩ })] } } : State).pg (pgRef (false : Bool) (3 : Nat))) ∧ (({ Tests.page with move := some ⟨.frame 5, .migrate, 1, [], [], .loc, true, []⟩ } : Page).move = some (⟨.frame 5, .migrate, 1, [], [], .loc, true, []⟩ : Move)) ∧ ((⟨.frame 5, .migrate, 1, [], [], .loc, true, []⟩ : Move).granted = true) ∧ ((⟨.frame 5, .migrate, 1, [], [], .loc, true, []⟩ : Move).pass < 4) ∧ (({ Tests.up with mm := { MemSt.reset with pages := [(3, { Tests.page with move := some ⟨.frame 5, .migrate, 1, [], [], .loc, true, []⟩ })] } } : State).spillBusy (pgRef (false : Bool) (3 : Nat)) = false) ∧ (((({ Tests.up with mm := { MemSt.reset with pages := [(3, { Tests.page with move := some ⟨.frame 5, .migrate, 1, [], [], .loc, true, []⟩ })] } } : State).copyBytes { Tests.page with move := some ⟨.frame 5, .migrate, 1, [], [], .loc, true, []⟩ } ⟨.frame 5, .migrate, 1, [], [], .loc, true, []⟩ 32768 : State) = ({ Tests.up with mm := { MemSt.reset with pages := [(3, { Tests.page with move := some ⟨.frame 5, .migrate, 1, [], [], .loc, true, []⟩ })] } } : State).copyBytes ({ Tests.page with move := some ⟨.frame 5, .migrate, 1, [], [], .loc, true, []⟩ } : Page) (⟨.frame 5, .migrate, 1, [], [], .loc, true, []⟩ : Move) (if (⟨.frame 5, .migrate, 1, [], [], .loc, true, []⟩ : Move).pass = 1 then 32768 else (⟨.frame 5, .migrate, 1, [], [], .loc, true, []⟩ : Move).todo.length))) ∧ (({ Tests.up with mm := { MemSt.reset with pages := [(3, { Tests.page with move := some ⟨.frame 5, .migrate, 1, [], [], .loc, true, []⟩ })] } } : State).pageListed ({ Tests.page with move := some ⟨.frame 5, .migrate, 1, [], [], .loc, true, []⟩ } : Page) = false) := by decide +kernel

theorem test_meets_PageMoves_2 :
    (({ Tests.page with move := some ⟨.frame 5, .migrate, 4, [], [], .loc, true, []⟩ } : Page) = ({ Tests.up with mm := { MemSt.reset with pages := [(3, { Tests.page with move := some ⟨.frame 5, .migrate, 4, [], [], .loc, true, []⟩ })] } } : State).page (3 : Nat)) ∧ (({ Tests.page with move := some ⟨.frame 5, .migrate, 4, [], [], .loc, true, []⟩ } : Page).move = some (⟨.frame 5, .migrate, 4, [], [], .loc, true, []⟩ : Move)) ∧ ((⟨.frame 5, .migrate, 4, [], [], .loc, true, []⟩ : Move).granted = true) ∧ ((⟨.frame 5, .migrate, 4, [], [], .loc, true, []⟩ : Move).pass = 4) ∧ ((⟨.frame 5, .migrate, 4, [], [], .loc, true, []⟩ : Move).dest = .frame (5 : Nat)) ∧ (({ Tests.up with mm := { MemSt.reset with pages := [(3, { Tests.page with move := some ⟨.frame 5, .migrate, 4, [], [], .loc, true, []⟩ })] } } : State).pageOfFrame (5 : Nat) = none) ∧ (({ Tests.up with mm := { MemSt.reset with pages := [(3, { Tests.page with move := some ⟨.frame 5, .migrate, 4, [], [], .loc, true, []⟩ })] } } : State).mm.zeroing.getD (5 : Nat) false = false) ∧ (({ Tests.page with move := some ⟨.frame 5, .migrate, 4, [], [], .loc, true, []⟩ } : Page).place = .frame (0 : Nat)) ∧ ((⟨.frame 5, .migrate, 4, [], [], .loc, true, []⟩ : Move).why ≠ .retire) ∧ (({ Tests.up with mm := { MemSt.reset with pages := [(3, { Tests.page with move := some ⟨.frame 5, .migrate, 4, [], [], .loc, true, []⟩ })] } } : State).spillBusy (.own (3 : Nat)) = false) ∧ ((({ Tests.up with mm := { MemSt.reset with pages := [(3, { Tests.page with move := some ⟨.frame 5, .migrate, 4, [], [], .loc, true, []⟩ })] } } : State).copyBytes { Tests.page with move := some ⟨.frame 5, .migrate, 4, [], [], .loc, true, []⟩ } ⟨.frame 5, .migrate, 4, [], [], .loc, true, []⟩ 0 : State) = ({ Tests.up with mm := { MemSt.reset with pages := [(3, { Tests.page with move := some ⟨.frame 5, .migrate, 4, [], [], .loc, true, []⟩ })] } } : State).copyBytes ({ Tests.page with move := some ⟨.frame 5, .migrate, 4, [], [], .loc, true, []⟩ } : Page) (⟨.frame 5, .migrate, 4, [], [], .loc, true, []⟩ : Move) (⟨.frame 5, .migrate, 4, [], [], .loc, true, []⟩ : Move).todo.length) ∧ (((({ Tests.up with mm := { MemSt.reset with pages := [(3, { Tests.page with move := some ⟨.frame 5, .migrate, 4, [], [], .loc, true, []⟩ })] } } : State).copyBytes { Tests.page with move := some ⟨.frame 5, .migrate, 4, [], [], .loc, true, []⟩ } ⟨.frame 5, .migrate, 4, [], [], .loc, true, []⟩ 0).invalidate 3 : State) = ((({ Tests.up with mm := { MemSt.reset with pages := [(3, { Tests.page with move := some ⟨.frame 5, .migrate, 4, [], [], .loc, true, []⟩ })] } } : State).copyBytes { Tests.page with move := some ⟨.frame 5, .migrate, 4, [], [], .loc, true, []⟩ } ⟨.frame 5, .migrate, 4, [], [], .loc, true, []⟩ 0 : State).invalidate (3 : Nat))) ∧ ((((({ Tests.up with mm := { MemSt.reset with pages := [(3, { Tests.page with move := some ⟨.frame 5, .migrate, 4, [], [], .loc, true, []⟩ })] } } : State).copyBytes { Tests.page with move := some ⟨.frame 5, .migrate, 4, [], [], .loc, true, []⟩ } ⟨.frame 5, .migrate, 4, [], [], .loc, true, []⟩ 0).invalidate 3 : State).page (3 : Nat)).frame? = some (0 : Nat)) ∧ ((((({ Tests.up with mm := { MemSt.reset with pages := [(3, { Tests.page with move := some ⟨.frame 5, .migrate, 4, [], [], .loc, true, []⟩ })] } } : State).copyBytes { Tests.page with move := some ⟨.frame 5, .migrate, 4, [], [], .loc, true, []⟩ } ⟨.frame 5, .migrate, 4, [], [], .loc, true, []⟩ 0).invalidate 3 : State).page (3 : Nat)).place = .frame (0 : Nat)) ∧ (({ Tests.up with mm := { MemSt.reset with pages := [(3, { Tests.page with move := some ⟨.frame 5, .migrate, 4, [], [], .loc, true, []⟩ })] } } : State).pageListed ({ Tests.page with move := some ⟨.frame 5, .migrate, 4, [], [], .loc, true, []⟩ } : Page) = false) := by decide +kernel

theorem test_meets_HelloFramesAndDestinationTables_1 :
    ((Tests.linkS 6 .init).linkActive (3 : Fin 16) = true) ∧ ((Tests.linkS 6 .init).inGap (3 : Fin 16) = false) ∧ ((Tests.linkS 6 .init).farLoop (3 : Fin 16) = false) ∧ ((Tests.linkS 6 { LinkSt.init with helloSeq := 1 } : State) = (Tests.linkS 6 .init).setLink (3 : Fin 16) { (Tests.linkS 6 .init).link (3 : Fin 16) with helloSeq := (((Tests.linkS 6 .init).link (3 : Fin 16)).helloSeq + 1) % 2 ^ 32 }) ∧ ((((Tests.linkS 6 { LinkSt.init with helloSeq := 1 }).wakePort 3).emit (.sync 3 (syncFlits 0 0 false (.hello ((Tests.linkS 6 .init).helloOf 3)))) : State) = ((Tests.linkS 6 { LinkSt.init with helloSeq := 1 } : State).wakePort (3 : Fin 16)).emit (.sync (3 : Fin 16) (syncFlits 0 ((Tests.linkS 6 { LinkSt.init with helloSeq := 1 } : State).link (3 : Fin 16)).sRx ((Tests.linkS 6 { LinkSt.init with helloSeq := 1 } : State).link (3 : Fin 16)).sNak (.hello ((Tests.linkS 6 .init).helloOf (3 : Fin 16)))))) ∧
    (((Tests.linkS 6 .init).setF (.port 3) Reg.PORT.LASER_STAT_GAP 1).linkActive (3 : Fin 16) = true) ∧ (((Tests.linkS 6 .init).setF (.port 3) Reg.PORT.LASER_STAT_GAP 1).inGap (3 : Fin 16) = true) ∧ (((Tests.linkS 6 .init).setF (.port 3) Reg.PORT.LASER_STAT_GAP 1).farLoop (3 : Fin 16) = false) ∧
    ((Tests.linkS 6 .init).linkActive (3 : Fin 16) = true) ∧ (helloGood ({ Tests.hello with typ := 2 } : Hello) = false) ∧
    ((Tests.linkS 6 .init).linkActive (3 : Fin 16) = true) := by decide +kernel

theorem test_meets_HelloFramesAndDestinationTables_2 :
    (((.dtabLoad 1 : Instr) = .dtabLoad (1 : Fin 2) ∧ (1 : Nat) = 1) ∨ ((.dtabLoad 1 : Instr) = .dtabEdit (1 : Fin 2) ∧ (1 : Nat) = 2)) ∧ ((Tests.up).ready = true) ∧
    (((.dtabEdit 1 : Instr) = .dtabLoad (1 : Fin 2) ∧ (2 : Nat) = 1) ∨ ((.dtabEdit 1 : Instr) = .dtabEdit (1 : Fin 2) ∧ (2 : Nat) = 2)) ∧ ((Tests.up).ready = true) ∧
    (((Tests.routS { RoutSt.init with dbusy := 2 } : State).rout (1 : Fin 2)).dbusy = 2) ∧ ((Tests.routS { RoutSt.init with dbusy := 2, dstaged := true, crcs := { RoutSt.init.crcs with shadow := true } } : State) = (Tests.routS { RoutSt.init with dbusy := 2 } : State).setRout (1 : Fin 2) { (Tests.routS { RoutSt.init with dbusy := 2 } : State).rout (1 : Fin 2) with dshadow := ((Tests.routS { RoutSt.init with dbusy := 2 } : State).rout (1 : Fin 2)).dshadow.putD ((Tests.routS { RoutSt.init with dbusy := 2 } : State).getF (.rout (1 : Fin 2)) Reg.ROUT.DTAB_EDIT_ID_FID) ((Tests.routS { RoutSt.init with dbusy := 2 } : State).getW (.rout (1 : Fin 2)) Reg.ROUT.DTAB_EDIT_VAL.off) 0, dstaged := true, crcs := { ((Tests.routS { RoutSt.init with dbusy := 2 } : State).rout (1 : Fin 2)).crcs with shadow := true } }) ∧
    (Tests.linkS 6 .init).linkActive 3 = true ∧ helloGood Tests.hello = true ∧
    (Tests.routS { RoutSt.init with dbusy := 1 }).ready = true ∧ ((Tests.routS { RoutSt.init with dbusy := 1 }).rout 1).dbusy = 1 := by decide +kernel

theorem test_meets_LinkControls_1 :
    ((Tests.up.setF (.port 3) Reg.PORT.LINK_CTL_ENABLE 0).ready = true) ∧ ((Tests.up.setF (.port 3) Reg.PORT.LINK_CTL_ENABLE 0).isSet (.port (3 : Fin 16)) Reg.PORT.LINK_CTL_ENABLE = false) ∧
    ((Tests.linkS 6 .init).ready = true) ∧ ((Tests.linkS 6 .init).isSet (.port (3 : Fin 16)) Reg.PORT.LINK_CTL_ENABLE = true) ∧ (((Tests.linkS 6 .init).setF (.port 3) Reg.PORT.LINK_CTL_ENABLE 0) = (Tests.linkS 6 .init).setF (.port (3 : Fin 16)) Reg.PORT.LINK_CTL_ENABLE 0) ∧ (((Tests.linkS 6 .init).setF (.port 3) Reg.PORT.LINK_CTL_ENABLE 0).inGap (3 : Fin 16) = false) ∧ (((Tests.linkS 6 .init).setF (.port 3) Reg.PORT.LINK_CTL_ENABLE 0).linkActive (3 : Fin 16) = true) ∧
    ((Tests.linkS 6 .init).ready = true) ∧ ((Tests.linkS 6 .init).inGap (3 : Fin 16) = false) ∧ ((Tests.linkS 6 .init).linkActive (3 : Fin 16) = true) ∧
    (((Tests.linkS 6 .init).setF (.port 3) Reg.PORT.LASER_STAT_GAP 1).ready = true) ∧ (((Tests.linkS 6 .init).setF (.port 3) Reg.PORT.LASER_STAT_GAP 1).inGap (3 : Fin 16) = true) ∧ ((3 : Fin 8).val < 5) := by decide +kernel

theorem test_meets_LinkControls_2 :
    ((Tests.linkS 1 .init).ready = true) ∧ ((Tests.linkS 1 .init).inGap (3 : Fin 16) = false) ∧ ((4 : Fin 8).val < 5) ∧ ((Tests.linkS 1 .init).admitState (3 : Fin 16) ≠ 3 ∧ (Tests.linkS 1 .init).admitState (3 : Fin 16) ≠ 4) ∧ ((4 : Fin 8).val ≠ (Tests.linkS 1 .init).testMode (3 : Fin 16)) ∧ (((Tests.linkS 1 .init) = if (Tests.linkS 1 .init).testMode (3 : Fin 16) = 3 ∧ (Tests.linkS 1 .init).codewords (3 : Fin 16) = true then (Tests.linkS 1 .init).sendLink (3 : Fin 16) 0x04 false 0 else (Tests.linkS 1 .init))) ∧ ((Tests.linkS 1 .init).linkActive (3 : Fin 16) = false) ∧ (((((Tests.linkS 1 .init).setF (.port 3) Reg.PORT.LINK_CTL_TEST 4).toStep1 3).setF (.port 3) Reg.PORT.PRBS_STAT_LOCKED 0) = (((Tests.linkS 1 .init).setF (.port (3 : Fin 16)) Reg.PORT.LINK_CTL_TEST (4 : Fin 8).val).toStep1 (3 : Fin 16)).setF (.port (3 : Fin 16)) Reg.PORT.PRBS_STAT_LOCKED 0) ∧
    ((Tests.up).ready = true) ∧ (((Tests.up.setF (.port 3) Reg.PORT.PRBS_CFG_PATTERN 2).setF (.port 3) Reg.PORT.PRBS_CFG_GEN 1) = (((Tests.up).setF (.port (3 : Fin 16)) Reg.PORT.PRBS_CFG_PATTERN (2 : Fin 4)).setF (.port (3 : Fin 16)) Reg.PORT.PRBS_CFG_GEN (true : Bool).toNat)) := by decide +kernel

theorem test_meets_LinkControls_3 :
    ((Tests.up).ready = true) ∧ ((Tests.up).getF (.port (3 : Fin 16)) Reg.PORT.PRBS_CFG_PATTERN ≠ (2 : Fin 4).val) ∧ (((Tests.up.setF (.port 3) Reg.PORT.PRBS_CFG_PATTERN 2).setF (.port 3) Reg.PORT.PRBS_CFG_GEN 1) = (((Tests.up).setF (.port (3 : Fin 16)) Reg.PORT.PRBS_CFG_PATTERN (2 : Fin 4)).setF (.port (3 : Fin 16)) Reg.PORT.PRBS_CFG_GEN (true : Bool).toNat)) ∧
    ((Tests.up).ready = true) ∧ ((Tests.up).getF (.port (3 : Fin 16)) Reg.PORT.PRBS_CFG_PATTERN = (0 : Fin 4).val) ∧ (((((((Tests.up.setF (.port 3) Reg.PORT.PRBS_CFG_PATTERN 0).setF (.port 3) Reg.PORT.PRBS_CFG_GEN 1).setF (.port 3) Reg.PORT.PRBS_CFG_CHK 1).setF (.port 3) Reg.PORT.PRBS_CFG_LANES 0xFF)).setPair (.port 3) Reg.PORT.PRBS_BITS_LO Reg.PORT.PRBS_BITS_HI 0) = ((((((Tests.up).setF (.port (3 : Fin 16)) Reg.PORT.PRBS_CFG_PATTERN (0 : Fin 4)).setF (.port (3 : Fin 16)) Reg.PORT.PRBS_CFG_GEN (true : Bool).toNat).setF (.port (3 : Fin 16)) Reg.PORT.PRBS_CFG_CHK 1).setF (.port (3 : Fin 16)) Reg.PORT.PRBS_CFG_LANES (0xFF : BitVec 8).toNat)).setPair (.port (3 : Fin 16)) Reg.PORT.PRBS_BITS_LO Reg.PORT.PRBS_BITS_HI 0) ∧
    ((((Tests.up.setF (.port 3) Reg.PORT.LINK_CTL_TEST 4).setF (.port 3) Reg.PORT.PRBS_CFG_CHK 1).setF (.port 3) Reg.PORT.PRBS_CFG_LANES 0x80).prbsOn (3 : Fin 16) (7 : Fin 8) = true) ∧ ((((Tests.up.setF (.port 3) Reg.PORT.LINK_CTL_TEST 4).setF (.port 3) Reg.PORT.PRBS_CFG_CHK 1).setF (.port 3) Reg.PORT.PRBS_CFG_LANES 0x80).getF (.port (3 : Fin 16)) Reg.PORT.PRBS_STAT_LOCKED / 2 ^ (7 : Fin 8).val % 2 ≠ 1) ∧
    (let s := (((Tests.up.setF (.port 3) Reg.PORT.LINK_CTL_TEST 4).setF (.port 3) Reg.PORT.PRBS_CFG_CHK 1).setF (.port 3)
      Reg.PORT.PRBS_CFG_LANES 0x80).setF (.port 3) Reg.PORT.PRBS_STAT_LOCKED 0x80
    s.prbsOn 3 7 = true ∧ s.getF (.port 3) Reg.PORT.PRBS_STAT_LOCKED / 2 ^ 7 % 2 = 1) := by decide +kernel

theorem test_meets_LinkBringUp_1 :
    ((Tests.linkS 2 { LinkSt.init with step := 2 } : State).linkState (3 : Fin 16) ≠ 0) ∧ (((Tests.linkS 2 { LinkSt.init with step := 2 } : State).link (3 : Fin 16)).step < 5) ∧ (((Tests.linkS 2 { LinkSt.init with step := 2 } : State).setF (.port (3 : Fin 16)) (Reg.PORT.LANE_RXPWR_DBM (7 : Fin 8)) (9 : BitVec 16).toNat : State) = (Tests.linkS 2 { LinkSt.init with step := 2 } : State).setF (.port (3 : Fin 16)) (Reg.PORT.LANE_RXPWR_DBM (7 : Fin 8)) (9 : BitVec 16).toNat) ∧ (((if ((Tests.linkS 2 { LinkSt.init with step := 2 } : State).link (3 : Fin 16)).step < 2 then ((Tests.linkS 2 { LinkSt.init with step := 2 } : State).setF (.port (3 : Fin 16)) (Reg.PORT.LANE_RXPWR_DBM (7 : Fin 8)) (9 : BitVec 16).toNat : State).setF (.port (3 : Fin 16)) Reg.PORT.LINK_STAT_RX_LOCK (((Tests.linkS 2 { LinkSt.init with step := 2 } : State).setF (.port (3 : Fin 16)) (Reg.PORT.LANE_RXPWR_DBM (7 : Fin 8)) (9 : BitVec 16).toNat : State).getF (.port (3 : Fin 16)) Reg.PORT.LINK_STAT_RX_LOCK) else ((Tests.linkS 2 { LinkSt.init with step := 2 } : State).setF (.port (3 : Fin 16)) (Reg.PORT.LANE_RXPWR_DBM (7 : Fin 8)) (9 : BitVec 16).toNat : State).setF (.port (3 : Fin 16)) Reg.PORT.LINK_STAT_RX_LOCK (laneBit (BitVec.ofNat 8 (((Tests.linkS 2 { LinkSt.init with step := 2 } : State).setF (.port (3 : Fin 16)) (Reg.PORT.LANE_RXPWR_DBM (7 : Fin 8)) (9 : BitVec 16).toNat : State).getF (.port (3 : Fin 16)) Reg.PORT.LINK_STAT_RX_LOCK)) (7 : Fin 8) (⟨true, 5, true, false⟩ : LaneRx).locked).toNat : State) = if ((Tests.linkS 2 { LinkSt.init with step := 2 } : State).link (3 : Fin 16)).step < 2 then ((Tests.linkS 2 { LinkSt.init with step := 2 } : State).setF (.port (3 : Fin 16)) (Reg.PORT.LANE_RXPWR_DBM (7 : Fin 8)) (9 : BitVec 16).toNat : State).setF (.port (3 : Fin 16)) Reg.PORT.LINK_STAT_RX_LOCK (((Tests.linkS 2 { LinkSt.init with step := 2 } : State).setF (.port (3 : Fin 16)) (Reg.PORT.LANE_RXPWR_DBM (7 : Fin 8)) (9 : BitVec 16).toNat : State).getF (.port (3 : Fin 16)) Reg.PORT.LINK_STAT_RX_LOCK) else
      ((Tests.linkS 2 { LinkSt.init with step := 2 } : State).setF (.port (3 : Fin 16)) (Reg.PORT.LANE_RXPWR_DBM (7 : Fin 8)) (9 : BitVec 16).toNat : State).setF (.port (3 : Fin 16)) Reg.PORT.LINK_STAT_RX_LOCK (laneBit (BitVec.ofNat 8 (((Tests.linkS 2 { LinkSt.init with step := 2 } : State).setF (.port (3 : Fin 16)) (Reg.PORT.LANE_RXPWR_DBM (7 : Fin 8)) (9 : BitVec 16).toNat : State).getF (.port (3 : Fin 16)) Reg.PORT.LINK_STAT_RX_LOCK)) (7 : Fin 8) (⟨true, 5, true, false⟩ : LaneRx).locked).toNat)) ∧ ((((if ((Tests.linkS 2 { LinkSt.init with step := 2 } : State).link (3 : Fin 16)).step < 2 then ((Tests.linkS 2 { LinkSt.init with step := 2 } : State).setF (.port (3 : Fin 16)) (Reg.PORT.LANE_RXPWR_DBM (7 : Fin 8)) (9 : BitVec 16).toNat : State).setF (.port (3 : Fin 16)) Reg.PORT.LINK_STAT_RX_LOCK (((Tests.linkS 2 { LinkSt.init with step := 2 } : State).setF (.port (3 : Fin 16)) (Reg.PORT.LANE_RXPWR_DBM (7 : Fin 8)) (9 : BitVec 16).toNat : State).getF (.port (3 : Fin 16)) Reg.PORT.LINK_STAT_RX_LOCK) else ((Tests.linkS 2 { LinkSt.init with step := 2 } : State).setF (.port (3 : Fin 16)) (Reg.PORT.LANE_RXPWR_DBM (7 : Fin 8)) (9 : BitVec 16).toNat : State).setF (.port (3 : Fin 16)) Reg.PORT.LINK_STAT_RX_LOCK (laneBit (BitVec.ofNat 8 (((Tests.linkS 2 { LinkSt.init with step := 2 } : State).setF (.port (3 : Fin 16)) (Reg.PORT.LANE_RXPWR_DBM (7 : Fin 8)) (9 : BitVec 16).toNat : State).getF (.port (3 : Fin 16)) Reg.PORT.LINK_STAT_RX_LOCK)) (7 : Fin 8) (⟨true, 5, true, false⟩ : LaneRx).locked).toNat : State).setLink (3 : Fin 16) { (Tests.linkS 2 { LinkSt.init with step := 2 } : State).link (3 : Fin 16) with partner := if (if ((Tests.linkS 2 { LinkSt.init with step := 2 } : State).link (3 : Fin 16)).step < 2 then ((Tests.linkS 2 { LinkSt.init with step := 2 } : State).setF (.port (3 : Fin 16)) (Reg.PORT.LANE_RXPWR_DBM (7 : Fin 8)) (9 : BitVec 16).toNat : State).setF (.port (3 : Fin 16)) Reg.PORT.LINK_STAT_RX_LOCK (((Tests.linkS 2 { LinkSt.init with step := 2 } : State).setF (.port (3 : Fin 16)) (Reg.PORT.LANE_RXPWR_DBM (7 : Fin 8)) (9 : BitVec 16).toNat : State).getF (.port (3 : Fin 16)) Reg.PORT.LINK_STAT_RX_LOCK) else ((Tests.linkS 2 { LinkSt.init with step := 2 } : State).setF (.port (3 : Fin 16)) (Reg.PORT.LANE_RXPWR_DBM (7 : Fin 8)) (9 : BitVec 16).toNat : State).setF (.port (3 : Fin 16)) Reg.PORT.LINK_STAT_RX_LOCK (laneBit (BitVec.ofNat 8 (((Tests.linkS 2 { LinkSt.init with step := 2 } : State).setF (.port (3 : Fin 16)) (Reg.PORT.LANE_RXPWR_DBM (7 : Fin 8)) (9 : BitVec 16).toNat : State).getF (.port (3 : Fin 16)) Reg.PORT.LINK_STAT_RX_LOCK)) (7 : Fin 8) (⟨true, 5, true, false⟩ : LaneRx).locked).toNat : State).nearTest (3 : Fin 16) then (Tests.linkS 2 { LinkSt.init with step := 2 } : State).ownFrame (3 : Fin 16) else (⟨255, true, false, false, false⟩ : TrainFrame), tr := ((Tests.linkS 2 { LinkSt.init with step := 2 } : State).link (3 : Fin 16)).tr.lane ((Tests.linkS 2 { LinkSt.init with step := 2 } : State).link (3 : Fin 16)).step (7 : Fin 8) (⟨true, 5, true, false⟩ : LaneRx) } : State) = (if ((Tests.linkS 2 { LinkSt.init with step := 2 } : State).link (3 : Fin 16)).step < 2 then ((Tests.linkS 2 { LinkSt.init with step := 2 } : State).setF (.port (3 : Fin 16)) (Reg.PORT.LANE_RXPWR_DBM (7 : Fin 8)) (9 : BitVec 16).toNat : State).setF (.port (3 : Fin 16)) Reg.PORT.LINK_STAT_RX_LOCK (((Tests.linkS 2 { LinkSt.init with step := 2 } : State).setF (.port (3 : Fin 16)) (Reg.PORT.LANE_RXPWR_DBM (7 : Fin 8)) (9 : BitVec 16).toNat : State).getF (.port (3 : Fin 16)) Reg.PORT.LINK_STAT_RX_LOCK) else ((Tests.linkS 2 { LinkSt.init with step := 2 } : State).setF (.port (3 : Fin 16)) (Reg.PORT.LANE_RXPWR_DBM (7 : Fin 8)) (9 : BitVec 16).toNat : State).setF (.port (3 : Fin 16)) Reg.PORT.LINK_STAT_RX_LOCK (laneBit (BitVec.ofNat 8 (((Tests.linkS 2 { LinkSt.init with step := 2 } : State).setF (.port (3 : Fin 16)) (Reg.PORT.LANE_RXPWR_DBM (7 : Fin 8)) (9 : BitVec 16).toNat : State).getF (.port (3 : Fin 16)) Reg.PORT.LINK_STAT_RX_LOCK)) (7 : Fin 8) (⟨true, 5, true, false⟩ : LaneRx).locked).toNat : State).setLink (3 : Fin 16) { (Tests.linkS 2 { LinkSt.init with step := 2 } : State).link (3 : Fin 16) with partner := if (if ((Tests.linkS 2 { LinkSt.init with step := 2 } : State).link (3 : Fin 16)).step < 2 then ((Tests.linkS 2 { LinkSt.init with step := 2 } : State).setF (.port (3 : Fin 16)) (Reg.PORT.LANE_RXPWR_DBM (7 : Fin 8)) (9 : BitVec 16).toNat : State).setF (.port (3 : Fin 16)) Reg.PORT.LINK_STAT_RX_LOCK (((Tests.linkS 2 { LinkSt.init with step := 2 } : State).setF (.port (3 : Fin 16)) (Reg.PORT.LANE_RXPWR_DBM (7 : Fin 8)) (9 : BitVec 16).toNat : State).getF (.port (3 : Fin 16)) Reg.PORT.LINK_STAT_RX_LOCK) else ((Tests.linkS 2 { LinkSt.init with step := 2 } : State).setF (.port (3 : Fin 16)) (Reg.PORT.LANE_RXPWR_DBM (7 : Fin 8)) (9 : BitVec 16).toNat : State).setF (.port (3 : Fin 16)) Reg.PORT.LINK_STAT_RX_LOCK (laneBit (BitVec.ofNat 8 (((Tests.linkS 2 { LinkSt.init with step := 2 } : State).setF (.port (3 : Fin 16)) (Reg.PORT.LANE_RXPWR_DBM (7 : Fin 8)) (9 : BitVec 16).toNat : State).getF (.port (3 : Fin 16)) Reg.PORT.LINK_STAT_RX_LOCK)) (7 : Fin 8) (⟨true, 5, true, false⟩ : LaneRx).locked).toNat : State).nearTest (3 : Fin 16) then (Tests.linkS 2 { LinkSt.init with step := 2 } : State).ownFrame (3 : Fin 16) else (⟨255, true, false, false, false⟩ : TrainFrame), tr := ((Tests.linkS 2 { LinkSt.init with step := 2 } : State).link (3 : Fin 16)).tr.lane ((Tests.linkS 2 { LinkSt.init with step := 2 } : State).link (3 : Fin 16)).step (7 : Fin 8) (⟨true, 5, true, false⟩ : LaneRx) })) ∧
    ((Tests.linkS 1 { LinkSt.init with step := 1 } : State).atStep (3 : Fin 16) 1 = true) ∧ ((Tests.linkS 1 { LinkSt.init with step := 1 } : State).isSet (.port (3 : Fin 16)) Reg.PORT.LINK_CTL_ENABLE = true) ∧ ((Tests.linkS 1 { LinkSt.init with step := 1 } : State).isSet (.port (3 : Fin 16)) Reg.PORT.LINK_CTL_TEST = false) ∧
    ((Tests.linkS 2 { LinkSt.init with step := 2, partner := ⟨255, true, false, false, false⟩, tr := { LinkSt.init.tr with trained := 0xFF } } : State).atStep (3 : Fin 16) 2 = true) ∧ ((Tests.linkS 2 { LinkSt.init with step := 2, partner := ⟨255, true, false, false, false⟩, tr := { LinkSt.init.tr with trained := 0xFF } } : State).isSet (.port (3 : Fin 16)) Reg.PORT.LINK_CTL_ENABLE = true) ∧ ((Tests.linkS 2 { LinkSt.init with step := 2, partner := ⟨255, true, false, false, false⟩, tr := { LinkSt.init.tr with trained := 0xFF } } : State).isSet (.port (3 : Fin 16)) Reg.PORT.LINK_CTL_TEST = false) ∧ (((Tests.linkS 2 { LinkSt.init with step := 2, partner := ⟨255, true, false, false, false⟩, tr := { LinkSt.init.tr with trained := 0xFF } } : State).link (3 : Fin 16)).tr.trained = 0xFF) ∧ (((Tests.linkS 2 { LinkSt.init with step := 2, partner := ⟨255, true, false, false, false⟩, tr := { LinkSt.init.tr with trained := 0xFF } } : State).link (3 : Fin 16)).partner.trained = 0xFF) ∧ (((Tests.linkS 2 { LinkSt.init with step := 2, partner := ⟨255, true, false, false, false⟩, tr := { LinkSt.init.tr with trained := 0xFF } } : State).link (3 : Fin 16)).partner.test = false) := by decide +kernel

theorem test_meets_LinkBringUp_2 :
    (((Tests.linkS 3 { LinkSt.init with step := 3, partner := ⟨255, true, false, false, false⟩ }).setF (.port 3) Reg.PORT.LINK_STAT_RX_LOCK 0xFF : State).atStep (3 : Fin 16) 3 = true) ∧ (((Tests.linkS 3 { LinkSt.init with step := 3, partner := ⟨255, true, false, false, false⟩ }).setF (.port 3) Reg.PORT.LINK_STAT_RX_LOCK 0xFF : State).isSet (.port (3 : Fin 16)) Reg.PORT.LINK_CTL_ENABLE = true) ∧ (((Tests.linkS 3 { LinkSt.init with step := 3, partner := ⟨255, true, false, false, false⟩ }).setF (.port 3) Reg.PORT.LINK_STAT_RX_LOCK 0xFF : State).isSet (.port (3 : Fin 16)) Reg.PORT.LINK_CTL_TEST = false) ∧ ((((Tests.linkS 3 { LinkSt.init with step := 3, partner := ⟨255, true, false, false, false⟩ }).setF (.port 3) Reg.PORT.LINK_STAT_RX_LOCK 0xFF : State).ownFrame (3 : Fin 16)).locked = true) ∧ ((((Tests.linkS 3 { LinkSt.init with step := 3, partner := ⟨255, true, false, false, false⟩ }).setF (.port 3) Reg.PORT.LINK_STAT_RX_LOCK 0xFF : State).link (3 : Fin 16)).partner.locked = true) ∧
    (let s := Tests.linkS 4 { LinkSt.init with step := 4, partner := ⟨255, true, true, true, false⟩, tr := { LinkSt.init.tr with aligned := 0xFF }, fr := { Framing.init with txCw := 1 } }
    0 < (s.link 3).fr.txCw ∧ (s.ownFrame 3).ready = true ∧ s.atStep 3 4 = true ∧ s.isSet (.port 3) Reg.PORT.LINK_CTL_ENABLE = true ∧ s.isSet (.port 3) Reg.PORT.LINK_CTL_TEST = false ∧
    (s.link 3).partner.ready = true ∧ s.testMode 3 = 0) := by decide +kernel

theorem test_meets_LinkBringUp_3 :
    (let s := Tests.linkS 5 { LinkSt.init with step := 5, capRx := true, capAcked := true }
    s.atStep 3 5 = true ∧ s.running 3 = false ∧ ((s.showStep 3 6).sendCredit 3).linkActive 3 = true ∧
    min (s.getF (.port 3) Reg.PORT.CAP_OWN_LEVEL) 3 ≥ max (s.getF (.port 3) Reg.PORT.CAP_OWN_MIN_LEVEL) 1 ∧
    min (s.getF (.port 3) Reg.PORT.CAP_OWN_LEVEL) 3 < max (s.getF (.port 3) Reg.PORT.CAP_OWN_MIN_LEVEL) 4) ∧
    (let s := Tests.linkS 5 { LinkSt.init with step := 5 }
    (s.link 3).step = 5 ∧ s.linkState 3 ≠ 0 ∧ s.farLoop 3 = false) := by decide +kernel

theorem test_meets_DataFlits_1 :
    ((Tests.linkS 6 { LinkSt.init with nakOut := true, naks := 15 } : State).running (3 : Fin 16) = true) ∧ (((Tests.linkS 6 { LinkSt.init with nakOut := true, naks := 15 } : State).link (3 : Fin 16)).nakOut = true) ∧ (((Tests.linkS 6 { LinkSt.init with nakOut := true, naks := 15 } : State).link (3 : Fin 16)).naks < 16) ∧ ((Tests.linkS 6 { LinkSt.init with nakOut := true, naks := 16 } : State) = (Tests.linkS 6 { LinkSt.init with nakOut := true, naks := 15 } : State).setLink (3 : Fin 16) { (Tests.linkS 6 { LinkSt.init with nakOut := true, naks := 15 } : State).link (3 : Fin 16) with nakOut := true, naks := ((Tests.linkS 6 { LinkSt.init with nakOut := true, naks := 15 } : State).link (3 : Fin 16)).naks + 1 }) ∧
    ((Tests.linkS 6 { LinkSt.init with nakOut := true, naks := 16 } : State).linkActive (3 : Fin 16) = true) ∧ (((Tests.linkS 6 { LinkSt.init with nakOut := true, naks := 16 } : State).link (3 : Fin 16)).nakOut = true) ∧ (16 ≤ ((Tests.linkS 6 { LinkSt.init with nakOut := true, naks := 16 } : State).link (3 : Fin 16)).naks) := by decide +kernel

theorem test_meets_DataFlits_2 :
    (let s := Tests.linkS 6 { LinkSt.init with advert := [(0, 9)], fr := { Framing.init with seqKnown := true } }
    let b := leBytes 4 0x100 ++ List.replicate 56 0
    s.codewords 3 = true ∧ s.running 3 = true ∧ (s.link 3).rxNum = 0 ∧ flitKind (flitOf .data b) = some .data ∧ flitBody (flitOf .data b) = b ∧
    bitsOf (leNat (b.take 4)) 14 8 = 1 ∧ bitsOf (leNat (b.take 4)) 7 5 = 0 ∧ (s.link 3).inLimit 0 = true) ∧
    (let s := Tests.linkS 6 { LinkSt.init with rxNum := 1, fr := { Framing.init with seqKnown := true } }
    s.codewords 3 = true ∧ s.running 3 = true ∧ (s.link 3).fr.rxSeq ≠ (s.link 3).rxNum ∧ flitKind (List.replicate 64 1) = none ∧
    flitKind (flitOf .idle (List.replicate 60 0)) = some .idle) := by decide +kernel

theorem test_meets_DataFlits_3 :
    (let l := flitOf .link (leBytes 60 5)
    flitKind l = some .link ∧ linkCode (flitBody l) = some 1 ∧
    flitKind (flitOf .sync (leBytes 60 7)) = some .sync ∧ syncBroken (leBytes 60 7) = true) := by decide +kernel

theorem test_meets_LinkFlits_1 :
    ((Tests.linkS 5 { LinkSt.init with step := 5 } : State).fromSelf (3 : Fin 16) (linkIs 0x00 (0 : Fin 1048576) false) = some (Tests.linkS 5 { LinkSt.init with step := 5 } : State)) ∧ ((Tests.linkS 5 { LinkSt.init with step := 5 } : State).atStep (3 : Fin 16) 5 = true) ∧
    ((Tests.linkS 6 { LinkSt.init with step := 6, txNum := 0, replay := [⟨1048575, [], true⟩] } : State).fromSelf (3 : Fin 16) (linkIs 0x00 (0 : Fin 1048576) false) = some (Tests.linkS 6 { LinkSt.init with step := 6, txNum := 0, replay := [⟨1048575, [], true⟩] } : State)) ∧ ((Tests.linkS 6 { LinkSt.init with step := 6, txNum := 0, replay := [⟨1048575, [], true⟩] } : State).atStep (3 : Fin 16) 5 = false) ∧ ((Tests.linkS 6 { LinkSt.init with step := 6, txNum := 0, replay := [⟨1048575, [], true⟩] } : State).running (3 : Fin 16) = true) ∧ (((Tests.linkS 6 { LinkSt.init with step := 6, txNum := 0, replay := [⟨1048575, [], true⟩] }).rxWake 3 : State) = (Tests.linkS 6 { LinkSt.init with step := 6, txNum := 0, replay := [⟨1048575, [], true⟩] } : State).rxWake (3 : Fin 16)) ∧ (((1048575 : Nat) = (match (((Tests.linkS 6 { LinkSt.init with step := 6, txNum := 0, replay := [⟨1048575, [], true⟩] }).rxWake 3 : State).link (3 : Fin 16)).replay with | [] => (((Tests.linkS 6 { LinkSt.init with step := 6, txNum := 0, replay := [⟨1048575, [], true⟩] }).rxWake 3 : State).link (3 : Fin 16)).txNum | f :: _ => f.num))) ∧ ((1 : Nat) = ((0 : Fin 1048576).val + 2 ^ 20 - (1048575 : Nat)) % 2 ^ 20) ∧ ((1 : Nat) ≤ (((Tests.linkS 6 { LinkSt.init with step := 6, txNum := 0, replay := [⟨1048575, [], true⟩] }).rxWake 3 : State).link (3 : Fin 16)).replay.length) ∧
    ((Tests.linkS 6 { LinkSt.init with txNum := 0, replay := [⟨1048575, [], true⟩] } : State).running (3 : Fin 16) = true) ∧ ((Tests.linkS 6 { LinkSt.init with txNum := 0, replay := [⟨1048575, [], true⟩] } : State).fromSelf (3 : Fin 16) (linkIs 0x00 (0 : Fin 1048576) true) = some (Tests.linkS 6 { LinkSt.init with txNum := 0, replay := [⟨1048575, [], true⟩] } : State)) ∧ (((Tests.linkS 6 { LinkSt.init with txNum := 0, replay := [⟨1048575, [], true⟩] }).rxWake 3 : State) = (Tests.linkS 6 { LinkSt.init with txNum := 0, replay := [⟨1048575, [], true⟩] } : State).rxWake (3 : Fin 16)) ∧ (((1048575 : Nat) = (match (((Tests.linkS 6 { LinkSt.init with txNum := 0, replay := [⟨1048575, [], true⟩] }).rxWake 3 : State).link (3 : Fin 16)).replay with | [] => (((Tests.linkS 6 { LinkSt.init with txNum := 0, replay := [⟨1048575, [], true⟩] }).rxWake 3 : State).link (3 : Fin 16)).txNum | f :: _ => f.num))) ∧ ((1 : Nat) = ((0 : Fin 1048576).val + 2 ^ 20 - (1048575 : Nat)) % 2 ^ 20) := by decide +kernel

theorem test_meets_LinkFlits_2 :
    ((Tests.linkS 6 .init).running (3 : Fin 16) = true) ∧ (((Tests.linkS 6 .init).fromSelf (3 : Fin 16) (fun g => g == flitOf .link (linkBody 0x10 (0 : Fin 1048576) false ((40960 : BitVec 32).toNat + (2048 : BitVec 32).toNat * 2 ^ 32 + (0 : BitVec 32).toNat * 2 ^ 64 + (0 : BitVec 32).toNat * 2 ^ 96 + (28672 : BitVec 32).toNat * 2 ^ 128))) = some (Tests.linkS 6 .init))) ∧ (((Tests.linkS 6 .init).rxWake 3) = (Tests.linkS 6 .init).rxWake (3 : Fin 16)) ∧ (([(40960 : BitVec 32).toNat, (2048 : BitVec 32).toNat, (0 : BitVec 32).toNat, (0 : BitVec 32).toNat, (28672 : BitVec 32).toNat].zipIdx).find? (fun e => !(((Tests.linkS 6 .init).rxWake 3).link (3 : Fin 16)).limitOk e.2 e.1) = none) ∧ ((((Tests.linkS 6 .init).rxWake 3).linkRx 3 0) = ((Tests.linkS 6 .init).rxWake 3).linkRx (3 : Fin 16) (0 : Fin 1048576)) ∧
    ((Tests.linkS 6 .init).running (3 : Fin 16) = true) ∧ (((Tests.linkS 6 .init).fromSelf (3 : Fin 16) (fun g => g == flitOf .link (linkBody 0x10 (0 : Fin 1048576) false ((40961 : BitVec 32).toNat + (2048 : BitVec 32).toNat * 2 ^ 32 + (0 : BitVec 32).toNat * 2 ^ 64 + (0 : BitVec 32).toNat * 2 ^ 96 + (28672 : BitVec 32).toNat * 2 ^ 128))) = some (Tests.linkS 6 .init))) ∧ (((Tests.linkS 6 .init).rxWake 3) = (Tests.linkS 6 .init).rxWake (3 : Fin 16)) ∧ (([(40961 : BitVec 32).toNat, (2048 : BitVec 32).toNat, (0 : BitVec 32).toNat, (0 : BitVec 32).toNat, (28672 : BitVec 32).toNat].zipIdx).find? (fun e => !(((Tests.linkS 6 .init).rxWake 3).link (3 : Fin 16)).limitOk e.2 e.1) = some ((40961, 0) : Nat × Nat)) ∧
    ((Tests.linkS 6 .init).running (3 : Fin 16) = true) ∧ ((Tests.linkS 6 .init).fromSelf (3 : Fin 16) (linkIs 0x02 (0 : Fin 1048576) false) = some (Tests.linkS 6 .init)) ∧ ((((Tests.linkS 6 .init).linkRx (3 : Fin 16) (0 : Fin 1048576)).setF (.port (3 : Fin 16)) Reg.PORT.LINK_STAT_IDLE_RX 1) = ((Tests.linkS 6 .init).linkRx (3 : Fin 16) (0 : Fin 1048576)).setF (.port (3 : Fin 16)) Reg.PORT.LINK_STAT_IDLE_RX 1) ∧
    ((Tests.linkS 6 .init).codewords (3 : Fin 16) = true) ∧ ((Tests.linkS 6 .init).fromSelf (3 : Fin 16) (linkIs 0x11 (0 : Fin 1048576) false) = some (Tests.linkS 6 .init)) := by decide +kernel

theorem test_meets_LinkFlits_3 :
    (Tests.linkS 6 { LinkSt.init with step := 6 }).atStep 3 5 = false ∧ (Tests.linkS 6 { LinkSt.init with step := 6 }).running 3 = true ∧
    (Tests.linkS 5 { LinkSt.init with step := 5 }).codewords 3 = true := by decide +kernel

theorem test_meets_LoopbackIdleAndSignal_1 :
    (((Tests.linkS 5 { LinkSt.init with step := 5 }).setF (.port 3) Reg.PORT.LINK_CTL_FAR_LOOP_ALLOW 1 : State).fromSelf (3 : Fin 16) (linkIs 0x03 (0 : Fin 1048576) false) = some ((Tests.linkS 5 { LinkSt.init with step := 5 }).setF (.port 3) Reg.PORT.LINK_CTL_FAR_LOOP_ALLOW 1 : State)) ∧ (((Tests.linkS 5 { LinkSt.init with step := 5 }).setF (.port 3) Reg.PORT.LINK_CTL_FAR_LOOP_ALLOW 1 : State) = ((Tests.linkS 5 { LinkSt.init with step := 5 }).setF (.port 3) Reg.PORT.LINK_CTL_FAR_LOOP_ALLOW 1 : State).linkRx (3 : Fin 16) (0 : Fin 1048576)) ∧ (((Tests.linkS 5 { LinkSt.init with step := 5 }).setF (.port 3) Reg.PORT.LINK_CTL_FAR_LOOP_ALLOW 1 : State).linkState (3 : Fin 16) ≠ 0) ∧ (((Tests.linkS 5 { LinkSt.init with step := 5 }).setF (.port 3) Reg.PORT.LINK_CTL_FAR_LOOP_ALLOW 1 : State).isSet (.port (3 : Fin 16)) Reg.PORT.LINK_CTL_FAR_LOOP_ALLOW = true) ∧ (((Tests.linkS 5 { LinkSt.init with step := 5 }).setF (.port 3) Reg.PORT.LINK_CTL_FAR_LOOP_ALLOW 1 : State).testMode (3 : Fin 16) = 0) ∧
    ((((Tests.linkS 6 .init).setF (.port 3) Reg.PORT.LINK_CTL_IDLE_EN 1).setF (.port 3) Reg.PORT.CAP_NBR_IDLE 1).linkActive (3 : Fin 16) = true) ∧ ((((Tests.linkS 6 .init).setF (.port 3) Reg.PORT.LINK_CTL_IDLE_EN 1).setF (.port 3) Reg.PORT.CAP_NBR_IDLE 1).inGap (3 : Fin 16) = false ∧ (((Tests.linkS 6 .init).setF (.port 3) Reg.PORT.LINK_CTL_IDLE_EN 1).setF (.port 3) Reg.PORT.CAP_NBR_IDLE 1).farLoop (3 : Fin 16) = false ∧ (((Tests.linkS 6 .init).setF (.port 3) Reg.PORT.LINK_CTL_IDLE_EN 1).setF (.port 3) Reg.PORT.CAP_NBR_IDLE 1).nearLoop (3 : Fin 16) = false) ∧ ((((Tests.linkS 6 .init).setF (.port 3) Reg.PORT.LINK_CTL_IDLE_EN 1).setF (.port 3) Reg.PORT.CAP_NBR_IDLE 1).isSet (.port (3 : Fin 16)) Reg.PORT.LINK_CTL_IDLE_EN = true) ∧ ((((Tests.linkS 6 .init).setF (.port 3) Reg.PORT.LINK_CTL_IDLE_EN 1).setF (.port 3) Reg.PORT.CAP_NBR_IDLE 1).isSet (.port (3 : Fin 16)) Reg.PORT.CAP_NBR_IDLE = true) ∧ ((((Tests.linkS 6 .init).setF (.port 3) Reg.PORT.LINK_CTL_IDLE_EN 1).setF (.port 3) Reg.PORT.CAP_NBR_IDLE 1).isSet (.port (3 : Fin 16)) Reg.PORT.LINK_STAT_IDLE_TX = false) := by decide +kernel

theorem test_meets_LoopbackIdleAndSignal_2 :
    (((Tests.linkS 6 .init).setF (.port 3) Reg.PORT.LINK_STAT_IDLE_TX 1).linkActive (3 : Fin 16) = true) ∧ (((Tests.linkS 6 .init).setF (.port 3) Reg.PORT.LINK_STAT_IDLE_TX 1).inGap (3 : Fin 16) = false) ∧ (((Tests.linkS 6 .init).setF (.port 3) Reg.PORT.LINK_STAT_IDLE_TX 1).isSet (.port (3 : Fin 16)) Reg.PORT.LINK_STAT_IDLE_TX = true) ∧
    ((Tests.linkS 6 .init).linkActive (3 : Fin 16) = true) ∧ ((Tests.linkS 6 .init).isSet (.port (3 : Fin 16)) Reg.PORT.LINK_STAT_LOS_HOLD = false) ∧
    ((Tests.linkS 6 .init).linkActive (3 : Fin 16) = true) ∧
    (let s := (Tests.linkS 6 .init).setF (.port 3) Reg.PORT.LINK_STAT_LOS_HOLD 1
    s.linkActive 3 = true ∧ s.isSet (.port 3) Reg.PORT.LINK_STAT_LOS_HOLD = true) ∧
    ((Tests.linkS 6 .init).setF (.port 3) Reg.PORT.LINK_STAT_FAR_LOOP 1).farLoop 3 = true ∧
    (let s := (Tests.linkS 7 { LinkSt.init with step := 5 }).setF (.port 3) Reg.PORT.LINK_CTL_TEST 3
    s.linkState 3 = 7 ∧ s.testMode 3 = 3) := by decide +kernel

theorem test_meets_Lasers_1 :
    ((Tests.linkS 6 .init).ready = true) ∧ ((Tests.linkS 6 .init).linkState (3 : Fin 16) ≠ 0) ∧ ((Tests.linkS 6 .init).inGap (3 : Fin 16) = false) ∧ ((Tests.linkS 6 .init).laser (3 : Fin 16) (1 - (Tests.linkS 6 .init).activeLaser (3 : Fin 16)) = 1) ∧ ((Tests.linkS 6 .init).laser (3 : Fin 16) ((Tests.linkS 6 .init).activeLaser (3 : Fin 16)) ≠ 2) ∧
    (let s := ((Tests.linkS 6 { LinkSt.init with gapClaimed := true }).setF (.port 3) Reg.PORT.LASER_STAT_GAP 1).setF (.port 3) Reg.PORT.LASER_STAT_L1_STATE 2
    s.inGap 3 = true ∧ (s.link 3).gapClaimed = true ∧ s.laser 3 (1 - s.activeLaser 3) ≠ 1 ∧ s.linkActive 3 = true) ∧
    (Tests.linkS 6 .init).linkState 3 ≠ 0 ∧ (Tests.linkS 6 .init).laser 3 0 = 0 ∧ (Tests.linkS 6 .init).inGap 3 = false ∧ (LinkSt.init).syncQ = [] ∧ LinkSt.init.helloDue = false := by decide +kernel

theorem test_meets_Lasers_2 :
    ((Tests.linkS 6 .init).setF (.port 3) Reg.PORT.LASER_STAT_GAP 1).inGap 3 = true ∧ LinkSt.init.gapClaimed = false ∧ ((Tests.linkS 6 .init).setF (.port 3) Reg.PORT.LASER_STAT_CAL_PEND 1).isSet (.port 3) Reg.PORT.LASER_STAT_CAL_PEND = true := by decide +kernel

theorem test_meets_FlitsAndLinkBodies :
    ((List.replicate 60 0 : List Byte).length = 60) ∧
    ((63 : Nat) < 64) ∧ ((1048575 : Nat) < 2 ^ 20) ∧ ((7 : Nat) < 2 ^ 448) ∧ ((leNat (linkBody (63 : Nat) (1048575 : Nat) (true : Bool) (7 : Nat)) : Nat) = leNat (linkBody (63 : Nat) (1048575 : Nat) (true : Bool) (7 : Nat))) := by decide +kernel

theorem test_meets_PensAndRoutes_1 :
    (((Tests.linkS 6 { LinkSt.init with arrived := [(0, [7])] } : State).link (3 : Fin 16)).arrived = ((0 : Nat), ([7] : List Byte)) :: ([])) ∧ (((Tests.linkS 6 LinkSt.init).setLink 3 LinkSt.init) = (Tests.linkS 6 { LinkSt.init with arrived := [(0, [7])] } : State).setLink (3 : Fin 16) { (Tests.linkS 6 { LinkSt.init with arrived := [(0, [7])] } : State).link (3 : Fin 16) with arrived := ([]) }) ∧
    (((LinkSt.init : LinkSt) = { (Tests.linkS 6 LinkSt.init).link (3 : Fin 16) with arrived := ((Tests.linkS 6 LinkSt.init).link (3 : Fin 16)).arrived.filter (fun y => y.1 ≠ (0 : Fin 5).val) })) ∧ (¬ (((Tests.linkS 6 LinkSt.init).link (3 : Fin 16)).partVc = (0 : Fin 5).val ∧ 0 < ((Tests.linkS 6 LinkSt.init).link (3 : Fin 16)).partLeft)) ∧ (((Tests.linkS 6 LinkSt.init).setLink 3 LinkSt.init) = (Tests.linkS 6 LinkSt.init).setLink (3 : Fin 16) ((LinkSt.init : LinkSt).setPen (0 : Fin 5) { (LinkSt.init : LinkSt).pen (0 : Fin 5) with pkts := [], esc := false, gone := [] })) ∧
    (((Tests.penS (Tests.pk 1 [7]) 0 false).penAt (.port 3 0 : PenSrc)).pkts = ((Tests.pk 1 [7]) : Packet) :: ([] : List Packet)) ∧ (opNet ((Tests.pk 1 [7]) : Packet).op ≠ some 2) ∧
    (((Tests.penS (Tests.pk 1 [7]) 0 false).penAt (.port 3 0 : PenSrc)).pkts = ((Tests.pk 1 [7]) : Packet) :: ([] : List Packet)) ∧
    ((((Tests.penS { Tests.pk 1 [7] with hops := 12 } 0 false).setF (.rout 0) Reg.ROUT.ROUTE_CFG_HOP_LIMIT 12 : State).penAt (.port (3 : Fin 16) (0 : Fin 5))).pkts = ({ Tests.pk 1 [7] with hops := 12 } : Packet) :: ([] : List Packet)) ∧ (((Tests.penS { Tests.pk 1 [7] with hops := 12 } 0 false).setF (.rout 0) Reg.ROUT.ROUTE_CFG_HOP_LIMIT 12 : State).getF (.rout (portHub (3 : Fin 16))) Reg.ROUT.ROUTE_CFG_HOP_LIMIT ≤ ({ Tests.pk 1 [7] with hops := 12 } : Packet).hops) := by decide +kernel

theorem test_meets_PensAndRoutes_2 :
    ((((Tests.penS (Tests.pk 1 [7]) 0x600000 false).setF (.rout 0) Reg.ROUT.ROUTE_CFG_HOP_LIMIT 12).penAt (.port 3 0 : PenSrc)).pkts = ((Tests.pk 1 [7]) : Packet) :: ([] : List Packet)) ∧ ((match (.port 3 0 : PenSrc) with | .port _ _ => decide (((Tests.penS (Tests.pk 1 [7]) 0x600000 false).setF (.rout 0) Reg.ROUT.ROUTE_CFG_HOP_LIMIT 12).getF (.rout (PenSrcHub (.port 3 0 : PenSrc))) Reg.ROUT.ROUTE_CFG_HOP_LIMIT ≤ ((Tests.pk 1 [7]) : Packet).hops) | .inject _ _ => false) = false) ∧ (opNet ((Tests.pk 1 [7]) : Packet).op ≠ some 2) ∧ (((Tests.pk 1 [7]) : Packet).op ≠ 0x05) ∧ ((0x600000 : Word) = ((Tests.penS (Tests.pk 1 [7]) 0x600000 false).setF (.rout 0) Reg.ROUT.ROUTE_CFG_HOP_LIMIT 12).dEntry (PenSrcHub (.port 3 0 : PenSrc)) ((Tests.pk 1 [7]) : Packet).dstFid) ∧ ((dValid (0x600000 : Word) && dLocal (0x600000 : Word)) = true) ∧
    ((((Tests.penS (Tests.pk 1 [7]) 0 false).setF (.rout 0) Reg.ROUT.ROUTE_CFG_HOP_LIMIT 12).penAt (.port 3 0 : PenSrc)).pkts = ((Tests.pk 1 [7]) : Packet) :: ([] : List Packet)) ∧ ((match (.port 3 0 : PenSrc) with | .port _ _ => decide (((Tests.penS (Tests.pk 1 [7]) 0 false).setF (.rout 0) Reg.ROUT.ROUTE_CFG_HOP_LIMIT 12).getF (.rout (PenSrcHub (.port 3 0 : PenSrc))) Reg.ROUT.ROUTE_CFG_HOP_LIMIT ≤ ((Tests.pk 1 [7]) : Packet).hops) | .inject _ _ => false) = false) ∧ (opNet ((Tests.pk 1 [7]) : Packet).op ≠ some 2) ∧ (((Tests.pk 1 [7]) : Packet).op ≠ 0x05) ∧ (((Tests.penS (Tests.pk 1 [7]) 0 false).setF (.rout 0) Reg.ROUT.ROUTE_CFG_HOP_LIMIT 12).myTurn (.port 3 0 : PenSrc) = true) ∧ ((0 : Word) = ((Tests.penS (Tests.pk 1 [7]) 0 false).setF (.rout 0) Reg.ROUT.ROUTE_CFG_HOP_LIMIT 12).dEntry (PenSrcHub (.port 3 0 : PenSrc)) ((Tests.pk 1 [7]) : Packet).dstFid) ∧ ((dValid (0 : Word) && dLocal (0 : Word)) = false) ∧ (((Tests.penS (Tests.pk 1 [7]) 0 false).setF (.rout 0) Reg.ROUT.ROUTE_CFG_HOP_LIMIT 12).hasRoute (PenSrcHub (.port 3 0 : PenSrc)) ((Tests.pk 1 [7]) : Packet).dstFid = false) := by decide +kernel

theorem test_meets_PensAndRoutes_3 :
    (((Tests.routable 0x400010 false).penAt (.port 3 0 : PenSrc)).pkts = ((Tests.pk 1 [7]) : Packet) :: ([] : List Packet)) ∧ ((match (.port 3 0 : PenSrc) with | .port _ _ => decide ((Tests.routable 0x400010 false).getF (.rout (PenSrcHub (.port 3 0 : PenSrc))) Reg.ROUT.ROUTE_CFG_HOP_LIMIT ≤ ((Tests.pk 1 [7]) : Packet).hops) | .inject _ _ => false) = false) ∧ (opNet ((Tests.pk 1 [7]) : Packet).op ≠ some 2) ∧ (((Tests.pk 1 [7]) : Packet).op ≠ 0x05) ∧ ((Tests.routable 0x400010 false).myTurn (.port 3 0 : PenSrc) = true) ∧ ((0x400010 : Word) = (Tests.routable 0x400010 false).dEntry (PenSrcHub (.port 3 0 : PenSrc)) ((Tests.pk 1 [7]) : Packet).dstFid) ∧ ((dValid (0x400010 : Word) && dLocal (0x400010 : Word)) = false) ∧ ((Tests.routable 0x400010 false).hasRoute (PenSrcHub (.port 3 0 : PenSrc)) ((Tests.pk 1 [7]) : Packet).dstFid = true) ∧ (((0 : Nat) = if opNet ((Tests.pk 1 [7]) : Packet).op = some 0 then 0 else 2)) ∧ ((Tests.routable 0x400010 false).pickPort (PenSrcHub (.port 3 0 : PenSrc)) (0 : Nat) ((Tests.pk 1 [7]) : Packet) (0x400010 : Word) = some (4 : Fin 16)) ∧ ((((Tests.routable 0x400010 false).popPen (.port 3 0)).forward 0 4 0 (Tests.pk 1 [7])) = ((Tests.routable 0x400010 false).popPen (.port 3 0 : PenSrc)).forward (PenSrcHub (.port 3 0 : PenSrc)) (4 : Fin 16) (0 : Nat) ((Tests.pk 1 [7]) : Packet)) := by decide +kernel

theorem test_meets_PensAndRoutes_4 :
    (((Tests.routable 0x540000 true).penAt (.port 3 0 : PenSrc)).pkts = ((Tests.pk 1 [7]) : Packet) :: ([] : List Packet)) ∧ ((match (.port 3 0 : PenSrc) with | .port _ _ => decide ((Tests.routable 0x540000 true).getF (.rout (PenSrcHub (.port 3 0 : PenSrc))) Reg.ROUT.ROUTE_CFG_HOP_LIMIT ≤ ((Tests.pk 1 [7]) : Packet).hops) | .inject _ _ => false) = false) ∧ (opNet ((Tests.pk 1 [7]) : Packet).op ≠ some 2) ∧ (((Tests.pk 1 [7]) : Packet).op ≠ 0x05) ∧ ((Tests.routable 0x540000 true).myTurn (.port 3 0 : PenSrc) = true) ∧ ((0x540000 : Word) = (Tests.routable 0x540000 true).dEntry (PenSrcHub (.port 3 0 : PenSrc)) ((Tests.pk 1 [7]) : Packet).dstFid) ∧ ((dValid (0x540000 : Word) && dLocal (0x540000 : Word)) = false) ∧ ((Tests.routable 0x540000 true).hasRoute (PenSrcHub (.port 3 0 : PenSrc)) ((Tests.pk 1 [7]) : Packet).dstFid = true) ∧ (((0 : Nat) = if opNet ((Tests.pk 1 [7]) : Packet).op = some 0 then 0 else 2)) ∧ ((Tests.routable 0x540000 true).pickPort (PenSrcHub (.port 3 0 : PenSrc)) (0 : Nat) ((Tests.pk 1 [7]) : Packet) (0x540000 : Word) = none) ∧ ((Tests.routable 0x540000 true).escPort (0x540000 : Word) = some (4 : Fin 16)) ∧ ((((Tests.routable 0x540000 true).penAt (.port 3 0 : PenSrc)).esc && (4 : Fin 16) ≠ 13 && (Tests.routable 0x540000 true).portFree (4 : Fin 16) ((0 : Nat) + 1) ((Tests.pk 1 [7]) : Packet)) = true) := by decide +kernel

theorem test_meets_PensAndRoutes_5 :
    ((((Tests.routable 0x400010 false).setLink 3 { (Tests.routable 0x400010 false).link 3 with pens := [(0, ⟨[(Tests.pk 1 [7])], 1, false, 0, []⟩), (2, ⟨[(Tests.pk 1 [7])], 1, false, 0, []⟩)] } : State).penAt (.port 3 2 : PenSrc)).pkts = ((Tests.pk 1 [7]) : Packet) :: ([] : List Packet)) ∧ ((match (.port 3 2 : PenSrc) with | .port _ _ => decide (((Tests.routable 0x400010 false).setLink 3 { (Tests.routable 0x400010 false).link 3 with pens := [(0, ⟨[(Tests.pk 1 [7])], 1, false, 0, []⟩), (2, ⟨[(Tests.pk 1 [7])], 1, false, 0, []⟩)] } : State).getF (.rout (PenSrcHub (.port 3 2 : PenSrc))) Reg.ROUT.ROUTE_CFG_HOP_LIMIT ≤ ((Tests.pk 1 [7]) : Packet).hops) | .inject _ _ => false) = false) ∧ (((Tests.pk 1 [7]) : Packet).op ≠ 0x05) ∧ (((Tests.routable 0x400010 false).setLink 3 { (Tests.routable 0x400010 false).link 3 with pens := [(0, ⟨[(Tests.pk 1 [7])], 1, false, 0, []⟩), (2, ⟨[(Tests.pk 1 [7])], 1, false, 0, []⟩)] } : State).myTurn (.port 3 2 : PenSrc) = false) := by decide +kernel

theorem test_meets_FlowsAndTheirTimers_1 :
    (((Tests.flowS { Tests.flow 1 with out := [⟨(Tests.pk 1 [7]), 2, .frag⟩] } : State).flow (5 : Fin 262144)).out.find? (fun y => y.pkt.seq == (0 : BitVec 32).toNat) = some (⟨(Tests.pk 1 [7]), 2, .frag⟩ : SentPkt)) ∧ (((Tests.flowS { Tests.flow 1 with out := [⟨(Tests.pk 1 [7]), 2, .frag⟩] } : State).flow (5 : Fin 262144)).state = 1) ∧ ((⟨(Tests.pk 1 [7]), 2, .frag⟩ : SentPkt).tries < ((Tests.flowS { Tests.flow 1 with out := [⟨(Tests.pk 1 [7]), 2, .frag⟩] } : State).flow (5 : Fin 262144)).retryMax) ∧ (((Tests.flowS { Tests.flow 1 with out := [⟨(Tests.pk 1 [7]), 3, .frag⟩] } : State) = (Tests.flowS { Tests.flow 1 with out := [⟨(Tests.pk 1 [7]), 2, .frag⟩] } : State).setFlow (5 : Fin 262144) { (Tests.flowS { Tests.flow 1 with out := [⟨(Tests.pk 1 [7]), 2, .frag⟩] } : State).flow (5 : Fin 262144) with out := ((Tests.flowS { Tests.flow 1 with out := [⟨(Tests.pk 1 [7]), 2, .frag⟩] } : State).flow (5 : Fin 262144)).out.map (fun y => if y.pkt.seq = (0 : BitVec 32).toNat then { y with tries := y.tries + 1 } else y) })) ∧
    (((Tests.flowS { Tests.flow 1 with out := [⟨(Tests.pk 1 [7]), 3, .frag⟩] } : State).flow (5 : Fin 262144)).out.find? (fun y => y.pkt.seq == (0 : BitVec 32).toNat) = some (⟨(Tests.pk 1 [7]), 3, .frag⟩ : SentPkt)) ∧ (((Tests.flowS { Tests.flow 1 with out := [⟨(Tests.pk 1 [7]), 3, .frag⟩] } : State).flow (5 : Fin 262144)).state = 1) ∧ (((Tests.flowS { Tests.flow 1 with out := [⟨(Tests.pk 1 [7]), 3, .frag⟩] } : State).flow (5 : Fin 262144)).retryMax ≤ (⟨(Tests.pk 1 [7]), 3, .frag⟩ : SentPkt).tries) ∧
    (((Tests.flowS { Tests.flow 2 with fresh := 1 } : State).flow (5 : Fin 262144)).state = 1) ∧ (((Tests.flowS { Tests.flow 2 with fresh := 1 } : State).flow (5 : Fin 262144)).kind = 2) ∧ (0 < ((Tests.flowS { Tests.flow 2 with fresh := 1 } : State).flow (5 : Fin 262144)).fresh) := by decide +kernel

theorem test_meets_FlowsAndTheirTimers_2 :
    ((Tests.up).ready = true) ∧ ((0 : Nat) = (Tests.up).getF (.rout (0 : Fin 2)) Reg.ROUT.FLOW_SEL_CTX) ∧ (flowHub (0 : Nat) = (0 : Fin 2)) ∧ ((Tests.up.endFlow 0 0) = (Tests.up).endFlow (0 : Nat) 0) ∧ (((Tests.up.endFlow 0 0).findErrs ([] : LineErrs)).readMem (.hub (0 : Fin 2)) ((Tests.up).getPair (.rout (0 : Fin 2)) Reg.ROUT.FLOW_TAB_LO Reg.ROUT.FLOW_TAB_HI + 32 * (0 : Nat)) 32 = ((((Tests.up.endFlow 0 0).readMem (.hub 0) 0 32).1), (((Tests.up.endFlow 0 0).readMem (.hub 0) 0 32).2.1 : Nat), (((Tests.up.endFlow 0 0).readMem (.hub 0) 0 32).2.2 : List Byte))) ∧
    (((Tests.flowS { Tests.flow 3 with mcast := [⟨1, .frag, [(Tests.pk 1 [7])], 2, [4], 0⟩] } : State).flow (5 : Fin 262144)).mcast.find? (fun y => y.msgId == (1 : BitVec 8).toNat) = some (⟨1, .frag, [(Tests.pk 1 [7])], 2, [4], 0⟩ : McastMsg)) ∧ (((Tests.flowS { Tests.flow 3 with mcast := [⟨1, .frag, [(Tests.pk 1 [7])], 2, [4], 0⟩] } : State).flow (5 : Fin 262144)).state = 1) ∧ (((Tests.flowS { Tests.flow 3 with mcast := [⟨1, .frag, [(Tests.pk 1 [7])], 2, [4], 0⟩] } : State).flow (5 : Fin 262144)).kind = 3) ∧ ((⟨1, .frag, [(Tests.pk 1 [7])], 2, [4], 0⟩ : McastMsg).round < ((Tests.flowS { Tests.flow 3 with mcast := [⟨1, .frag, [(Tests.pk 1 [7])], 2, [4], 0⟩] } : State).flow (5 : Fin 262144)).retryMax) ∧ ((⟨1, .frag, [(Tests.pk 1 [7])], 2, [4], 0⟩ : McastMsg).left ≠ []) ∧ ((⟨1, .frag, [(Tests.pk 1 [7])], 2, [4], 0⟩ : McastMsg).round < 7) ∧ ((([] : List SentPkt) = ((Tests.flowS { Tests.flow 3 with mcast := [⟨1, .frag, [(Tests.pk 1 [7])], 2, [4], 0⟩] } : State).flow (5 : Fin 262144)).out.map (fun x => if x.pkt.msgId = (⟨1, .frag, [(Tests.pk 1 [7])], 2, [4], 0⟩ : McastMsg).msgId then { x with pkt := { x.pkt with tryN := (⟨1, .frag, [(Tests.pk 1 [7])], 2, [4], 0⟩ : McastMsg).round + 1 } } else x))) ∧ ((([] : List SentPkt) = ((Tests.flowS { Tests.flow 3 with mcast := [⟨1, .frag, [(Tests.pk 1 [7])], 2, [4], 0⟩] } : State).flow (5 : Fin 262144)).wait.map (fun x => if x.pkt.msgId = (⟨1, .frag, [(Tests.pk 1 [7])], 2, [4], 0⟩ : McastMsg).msgId then { x with pkt := { x.pkt with tryN := (⟨1, .frag, [(Tests.pk 1 [7])], 2, [4], 0⟩ : McastMsg).round + 1 } } else x))) ∧ (((Tests.flowS { Tests.flow 3 with mcast := [⟨1, .frag, [(Tests.pk 1 [7])], 3, [4], 0⟩] } : State) = (Tests.flowS { Tests.flow 3 with mcast := [⟨1, .frag, [(Tests.pk 1 [7])], 2, [4], 0⟩] } : State).setFlow (5 : Fin 262144) { (Tests.flowS { Tests.flow 3 with mcast := [⟨1, .frag, [(Tests.pk 1 [7])], 2, [4], 0⟩] } : State).flow (5 : Fin 262144) with
      mcast := ((Tests.flowS { Tests.flow 3 with mcast := [⟨1, .frag, [(Tests.pk 1 [7])], 2, [4], 0⟩] } : State).flow (5 : Fin 262144)).mcast.map (fun y => if y.msgId = (⟨1, .frag, [(Tests.pk 1 [7])], 2, [4], 0⟩ : McastMsg).msgId then { y with round := y.round + 1 } else y), out := ([] : List SentPkt), wait := ([] : List SentPkt) })) := by decide +kernel

theorem test_meets_FlowsAndTheirTimers_3 :
    (((Tests.flowS { Tests.flow 3 with mcast := [⟨1, .frag, [(Tests.pk 1 [7])], 3, [4], 0⟩] } : State).flow (5 : Fin 262144)).mcast.find? (fun y => y.msgId == (1 : BitVec 8).toNat) = some (⟨1, .frag, [(Tests.pk 1 [7])], 3, [4], 0⟩ : McastMsg)) ∧ (((Tests.flowS { Tests.flow 3 with mcast := [⟨1, .frag, [(Tests.pk 1 [7])], 3, [4], 0⟩] } : State).flow (5 : Fin 262144)).state = 1) ∧ (((Tests.flowS { Tests.flow 3 with mcast := [⟨1, .frag, [(Tests.pk 1 [7])], 3, [4], 0⟩] } : State).flow (5 : Fin 262144)).kind = 3) ∧ (((Tests.flowS { Tests.flow 3 with mcast := [⟨1, .frag, [(Tests.pk 1 [7])], 3, [4], 0⟩] } : State).flow (5 : Fin 262144)).retryMax ≤ (⟨1, .frag, [(Tests.pk 1 [7])], 3, [4], 0⟩ : McastMsg).round) ∧
    (({ Tests.tileS (Tests.busy 0 []) with net := { NetSt.reset with flows := [(5, Tests.flow 1)] } } : State).kernelRuns (0 : Fin 4) (0 : Fin 104) (0 : Fin 2) = true) ∧ ((({ Tests.tileS (Tests.busy 0 []) with net := { NetSt.reset with flows := [(5, Tests.flow 1)] } } : State).flow (5 : Fin 262144)).state = 1) ∧ ((({ Tests.tileS (Tests.busy 0 []) with net := { NetSt.reset with flows := [(5, Tests.flow 1)] } } : State).flow (5 : Fin 262144)).kind = 1) ∧
    ((Tests.tileS (Tests.busy 0 [])).kernelRuns (0 : Fin 4) (0 : Fin 104) (0 : Fin 2) = true) ∧ (((Tests.tileS (Tests.busy 0 [])).flow (5 : Fin 262144)).state ≠ 1 ∨ ((Tests.tileS (Tests.busy 0 [])).flow (5 : Fin 262144)).kind ≠ 1) := by decide +kernel

theorem test_meets_FlowsAndTheirTimers_4 :
    (((Tests.routS { RoutSt.init with xbusy := [1] } : State).rout (1 : Fin 2)).xbusy = 1 :: ([] : List Nat)) ∧ ((0 : Nat) = (Tests.routS { RoutSt.init with xbusy := [1] } : State).getSh (.rout (1 : Fin 2)) Reg.ROUT.CKT_TAB_LO + 2 ^ 32 * (Tests.routS { RoutSt.init with xbusy := [1] } : State).getSh (.rout (1 : Fin 2)) Reg.ROUT.CKT_TAB_HI) ∧ (((0 : Nat) % 4096 = 0 && (0 : Nat) + 16384 ≤ 2 ^ 41) = true) ∧ ((((Tests.routS RoutSt.init).setF (.rout 1) Reg.ROUT.XTAB_STAT_BUSY 0) = (((Tests.routS { RoutSt.init with xbusy := [1] } : State).setRout (1 : Fin 2) { (Tests.routS { RoutSt.init with xbusy := [1] } : State).rout (1 : Fin 2) with xbusy := ([] : List Nat) }).setF (.rout (1 : Fin 2)) Reg.ROUT.XTAB_STAT_BUSY (if ([] : List Nat).isEmpty then 0 else 1)).findErrs ([] : LineErrs))) ∧ ((1 : Nat) = ((Tests.routS RoutSt.init).setF (.rout 1) Reg.ROUT.XTAB_STAT_BUSY 0).imageStatus (0 : Nat) 16384 4096) ∧ ((((Tests.routS RoutSt.init).setF (.rout 1) Reg.ROUT.XTAB_STAT_BUSY 0).setF (.rout 1) Reg.ROUT.XTAB_STAT_RESULT 1) = ((Tests.routS RoutSt.init).setF (.rout 1) Reg.ROUT.XTAB_STAT_BUSY 0).setF (.rout (1 : Fin 2)) Reg.ROUT.XTAB_STAT_RESULT (1 : Nat)) ∧
    (let s := Tests.cktS 0x7
    cktValid (s.cktEntry 0 5) = true ∧ cktRole (s.cktEntry 0 5) = 3 ∧ 0 < (s.cktSt 5).fresh) ∧
    (let s := Tests.cktS 0x3
    cktValid (s.cktEntry 0 5) = true ∧ cktRole (s.cktEntry 0 5) = 1 ∧ (s.cktSt 5).failed = false) := by decide +kernel

theorem test_meets_RequestsDelivered_1 :
    (((.write 0 (Tests.pk 0x01 [7]) [] : Instr) = .write (0 : Fin 2) (Tests.pk 0x01 [7] : Packet) ([] : LineErrs) ∧ isOp 0x01 (Tests.pk 0x01 [7] : Packet) = true) ∨ ((.write 0 (Tests.pk 0x01 [7]) [] : Instr) = .haloWrite (0 : Fin 2) (Tests.pk 0x01 [7] : Packet) ∧ isOp 0x02 (Tests.pk 0x01 [7] : Packet) = true) ∨ ((.write 0 (Tests.pk 0x01 [7]) [] : Instr) = .readReq (0 : Fin 2) (Tests.pk 0x01 [7] : Packet) ([] : LineErrs) ∧ isOp 0x03 (Tests.pk 0x01 [7] : Packet) = true) ∨
        ((.write 0 (Tests.pk 0x01 [7]) [] : Instr) = .atomic (0 : Fin 2) (Tests.pk 0x01 [7] : Packet) ([] : LineErrs) ∧ isOp 0x04 (Tests.pk 0x01 [7] : Packet) = true) ∨ ((.write 0 (Tests.pk 0x01 [7]) [] : Instr) = .guest (0 : Fin 2) (Tests.pk 0x01 [7] : Packet) ∧ isOp 0x06 (Tests.pk 0x01 [7] : Packet) = true) ∨ ((.write 0 (Tests.pk 0x01 [7]) [] : Instr) = .syncFrag (0 : Fin 2) (Tests.pk 0x01 [7] : Packet) ∧ isOp 0x07 (Tests.pk 0x01 [7] : Packet) = true)) ∧ ((Tests.up).jobTag = 0 ∨ (Tests.pk 0x01 [7] : Packet).jobTag ≠ (Tests.up).jobTag) := by decide +kernel

theorem test_meets_RequestsDelivered_2 :
    (((.haloWrite 0 (Tests.pk 0x02 [7]) : Instr) = .write (0 : Fin 2) (Tests.pk 0x02 [7] : Packet) ([] : LineErrs) ∧ isOp 0x01 (Tests.pk 0x02 [7] : Packet) = true) ∨ ((.haloWrite 0 (Tests.pk 0x02 [7]) : Instr) = .haloWrite (0 : Fin 2) (Tests.pk 0x02 [7] : Packet) ∧ isOp 0x02 (Tests.pk 0x02 [7] : Packet) = true) ∨ ((.haloWrite 0 (Tests.pk 0x02 [7]) : Instr) = .readReq (0 : Fin 2) (Tests.pk 0x02 [7] : Packet) ([] : LineErrs) ∧ isOp 0x03 (Tests.pk 0x02 [7] : Packet) = true) ∨
        ((.haloWrite 0 (Tests.pk 0x02 [7]) : Instr) = .atomic (0 : Fin 2) (Tests.pk 0x02 [7] : Packet) ([] : LineErrs) ∧ isOp 0x04 (Tests.pk 0x02 [7] : Packet) = true) ∨ ((.haloWrite 0 (Tests.pk 0x02 [7]) : Instr) = .guest (0 : Fin 2) (Tests.pk 0x02 [7] : Packet) ∧ isOp 0x06 (Tests.pk 0x02 [7] : Packet) = true) ∨ ((.haloWrite 0 (Tests.pk 0x02 [7]) : Instr) = .syncFrag (0 : Fin 2) (Tests.pk 0x02 [7] : Packet) ∧ isOp 0x07 (Tests.pk 0x02 [7] : Packet) = true)) ∧ ((Tests.up).jobTag = 0 ∨ (Tests.pk 0x02 [7] : Packet).jobTag ≠ (Tests.up).jobTag) := by decide +kernel

theorem test_meets_RequestsDelivered_3 :
    (((.readReq 0 (Tests.pk 0x03 []) [] : Instr) = .write (0 : Fin 2) (Tests.pk 0x03 [] : Packet) ([] : LineErrs) ∧ isOp 0x01 (Tests.pk 0x03 [] : Packet) = true) ∨ ((.readReq 0 (Tests.pk 0x03 []) [] : Instr) = .haloWrite (0 : Fin 2) (Tests.pk 0x03 [] : Packet) ∧ isOp 0x02 (Tests.pk 0x03 [] : Packet) = true) ∨ ((.readReq 0 (Tests.pk 0x03 []) [] : Instr) = .readReq (0 : Fin 2) (Tests.pk 0x03 [] : Packet) ([] : LineErrs) ∧ isOp 0x03 (Tests.pk 0x03 [] : Packet) = true) ∨
        ((.readReq 0 (Tests.pk 0x03 []) [] : Instr) = .atomic (0 : Fin 2) (Tests.pk 0x03 [] : Packet) ([] : LineErrs) ∧ isOp 0x04 (Tests.pk 0x03 [] : Packet) = true) ∨ ((.readReq 0 (Tests.pk 0x03 []) [] : Instr) = .guest (0 : Fin 2) (Tests.pk 0x03 [] : Packet) ∧ isOp 0x06 (Tests.pk 0x03 [] : Packet) = true) ∨ ((.readReq 0 (Tests.pk 0x03 []) [] : Instr) = .syncFrag (0 : Fin 2) (Tests.pk 0x03 [] : Packet) ∧ isOp 0x07 (Tests.pk 0x03 [] : Packet) = true)) ∧ ((Tests.up).jobTag = 0 ∨ (Tests.pk 0x03 [] : Packet).jobTag ≠ (Tests.up).jobTag) := by decide +kernel

theorem test_meets_RequestsDelivered_4 :
    (((.atomic 0 (Tests.pk 0x04 (leBytes 8 7)) [] : Instr) = .write (0 : Fin 2) (Tests.pk 0x04 (leBytes 8 7) : Packet) ([] : LineErrs) ∧ isOp 0x01 (Tests.pk 0x04 (leBytes 8 7) : Packet) = true) ∨ ((.atomic 0 (Tests.pk 0x04 (leBytes 8 7)) [] : Instr) = .haloWrite (0 : Fin 2) (Tests.pk 0x04 (leBytes 8 7) : Packet) ∧ isOp 0x02 (Tests.pk 0x04 (leBytes 8 7) : Packet) = true) ∨ ((.atomic 0 (Tests.pk 0x04 (leBytes 8 7)) [] : Instr) = .readReq (0 : Fin 2) (Tests.pk 0x04 (leBytes 8 7) : Packet) ([] : LineErrs) ∧ isOp 0x03 (Tests.pk 0x04 (leBytes 8 7) : Packet) = true) ∨
        ((.atomic 0 (Tests.pk 0x04 (leBytes 8 7)) [] : Instr) = .atomic (0 : Fin 2) (Tests.pk 0x04 (leBytes 8 7) : Packet) ([] : LineErrs) ∧ isOp 0x04 (Tests.pk 0x04 (leBytes 8 7) : Packet) = true) ∨ ((.atomic 0 (Tests.pk 0x04 (leBytes 8 7)) [] : Instr) = .guest (0 : Fin 2) (Tests.pk 0x04 (leBytes 8 7) : Packet) ∧ isOp 0x06 (Tests.pk 0x04 (leBytes 8 7) : Packet) = true) ∨ ((.atomic 0 (Tests.pk 0x04 (leBytes 8 7)) [] : Instr) = .syncFrag (0 : Fin 2) (Tests.pk 0x04 (leBytes 8 7) : Packet) ∧ isOp 0x07 (Tests.pk 0x04 (leBytes 8 7) : Packet) = true)) ∧ ((Tests.up).jobTag = 0 ∨ (Tests.pk 0x04 (leBytes 8 7) : Packet).jobTag ≠ (Tests.up).jobTag) := by decide +kernel

theorem test_meets_RequestsDelivered_5 :
    (((.guest 0 (Tests.pk 0x06 []) : Instr) = .write (0 : Fin 2) (Tests.pk 0x06 [] : Packet) ([] : LineErrs) ∧ isOp 0x01 (Tests.pk 0x06 [] : Packet) = true) ∨ ((.guest 0 (Tests.pk 0x06 []) : Instr) = .haloWrite (0 : Fin 2) (Tests.pk 0x06 [] : Packet) ∧ isOp 0x02 (Tests.pk 0x06 [] : Packet) = true) ∨ ((.guest 0 (Tests.pk 0x06 []) : Instr) = .readReq (0 : Fin 2) (Tests.pk 0x06 [] : Packet) ([] : LineErrs) ∧ isOp 0x03 (Tests.pk 0x06 [] : Packet) = true) ∨
        ((.guest 0 (Tests.pk 0x06 []) : Instr) = .atomic (0 : Fin 2) (Tests.pk 0x06 [] : Packet) ([] : LineErrs) ∧ isOp 0x04 (Tests.pk 0x06 [] : Packet) = true) ∨ ((.guest 0 (Tests.pk 0x06 []) : Instr) = .guest (0 : Fin 2) (Tests.pk 0x06 [] : Packet) ∧ isOp 0x06 (Tests.pk 0x06 [] : Packet) = true) ∨ ((.guest 0 (Tests.pk 0x06 []) : Instr) = .syncFrag (0 : Fin 2) (Tests.pk 0x06 [] : Packet) ∧ isOp 0x07 (Tests.pk 0x06 [] : Packet) = true)) ∧ ((Tests.up).jobTag = 0 ∨ (Tests.pk 0x06 [] : Packet).jobTag ≠ (Tests.up).jobTag) := by decide +kernel

theorem test_meets_RequestsDelivered_6 :
    (((.syncFrag 0 (Tests.pk 0x07 (leBytes 4 7)) : Instr) = .write (0 : Fin 2) (Tests.pk 0x07 (leBytes 4 7) : Packet) ([] : LineErrs) ∧ isOp 0x01 (Tests.pk 0x07 (leBytes 4 7) : Packet) = true) ∨ ((.syncFrag 0 (Tests.pk 0x07 (leBytes 4 7)) : Instr) = .haloWrite (0 : Fin 2) (Tests.pk 0x07 (leBytes 4 7) : Packet) ∧ isOp 0x02 (Tests.pk 0x07 (leBytes 4 7) : Packet) = true) ∨ ((.syncFrag 0 (Tests.pk 0x07 (leBytes 4 7)) : Instr) = .readReq (0 : Fin 2) (Tests.pk 0x07 (leBytes 4 7) : Packet) ([] : LineErrs) ∧ isOp 0x03 (Tests.pk 0x07 (leBytes 4 7) : Packet) = true) ∨
        ((.syncFrag 0 (Tests.pk 0x07 (leBytes 4 7)) : Instr) = .atomic (0 : Fin 2) (Tests.pk 0x07 (leBytes 4 7) : Packet) ([] : LineErrs) ∧ isOp 0x04 (Tests.pk 0x07 (leBytes 4 7) : Packet) = true) ∨ ((.syncFrag 0 (Tests.pk 0x07 (leBytes 4 7)) : Instr) = .guest (0 : Fin 2) (Tests.pk 0x07 (leBytes 4 7) : Packet) ∧ isOp 0x06 (Tests.pk 0x07 (leBytes 4 7) : Packet) = true) ∨ ((.syncFrag 0 (Tests.pk 0x07 (leBytes 4 7)) : Instr) = .syncFrag (0 : Fin 2) (Tests.pk 0x07 (leBytes 4 7) : Packet) ∧ isOp 0x07 (Tests.pk 0x07 (leBytes 4 7) : Packet) = true)) ∧ ((Tests.up).jobTag = 0 ∨ (Tests.pk 0x07 (leBytes 4 7) : Packet).jobTag ≠ (Tests.up).jobTag) := by decide +kernel

theorem test_meets_RequestsDelivered_7 :
    (((.write 0 (Tests.pk 0x01 [7]) [] : Instr) = .write (0 : Fin 2) (Tests.pk 0x01 [7] : Packet) ([] : LineErrs) ∧ isOp 0x01 (Tests.pk 0x01 [7] : Packet) = true) ∨ ((.write 0 (Tests.pk 0x01 [7]) [] : Instr) = .haloWrite (0 : Fin 2) (Tests.pk 0x01 [7] : Packet) ∧ isOp 0x02 (Tests.pk 0x01 [7] : Packet) = true) ∨ ((.write 0 (Tests.pk 0x01 [7]) [] : Instr) = .readReq (0 : Fin 2) (Tests.pk 0x01 [7] : Packet) ([] : LineErrs) ∧ isOp 0x03 (Tests.pk 0x01 [7] : Packet) = true) ∨
        ((.write 0 (Tests.pk 0x01 [7]) [] : Instr) = .atomic (0 : Fin 2) (Tests.pk 0x01 [7] : Packet) ([] : LineErrs) ∧ isOp 0x04 (Tests.pk 0x01 [7] : Packet) = true) ∨ ((.write 0 (Tests.pk 0x01 [7]) [] : Instr) = .guest (0 : Fin 2) (Tests.pk 0x01 [7] : Packet) ∧ isOp 0x06 (Tests.pk 0x01 [7] : Packet) = true) ∨ ((.write 0 (Tests.pk 0x01 [7]) [] : Instr) = .syncFrag (0 : Fin 2) (Tests.pk 0x01 [7] : Packet) ∧ isOp 0x07 (Tests.pk 0x01 [7] : Packet) = true)) ∧ ((Tests.flowS (Tests.flow 2) |>.setF .pkg Reg.PKG.FENCE_FENCED 1).jobTag ≠ 0) ∧ ((Tests.pk 0x01 [7] : Packet).jobTag = (Tests.flowS (Tests.flow 2) |>.setF .pkg Reg.PKG.FENCE_FENCED 1).jobTag) ∧ ((Tests.flowS (Tests.flow 2) |>.setF .pkg Reg.PKG.FENCE_FENCED 1).fenced = true) := by decide +kernel

theorem test_meets_RequestsDelivered_8 :
    (((.haloWrite 0 (Tests.pk 0x02 [7]) : Instr) = .write (0 : Fin 2) (Tests.pk 0x02 [7] : Packet) ([] : LineErrs) ∧ isOp 0x01 (Tests.pk 0x02 [7] : Packet) = true) ∨ ((.haloWrite 0 (Tests.pk 0x02 [7]) : Instr) = .haloWrite (0 : Fin 2) (Tests.pk 0x02 [7] : Packet) ∧ isOp 0x02 (Tests.pk 0x02 [7] : Packet) = true) ∨ ((.haloWrite 0 (Tests.pk 0x02 [7]) : Instr) = .readReq (0 : Fin 2) (Tests.pk 0x02 [7] : Packet) ([] : LineErrs) ∧ isOp 0x03 (Tests.pk 0x02 [7] : Packet) = true) ∨
        ((.haloWrite 0 (Tests.pk 0x02 [7]) : Instr) = .atomic (0 : Fin 2) (Tests.pk 0x02 [7] : Packet) ([] : LineErrs) ∧ isOp 0x04 (Tests.pk 0x02 [7] : Packet) = true) ∨ ((.haloWrite 0 (Tests.pk 0x02 [7]) : Instr) = .guest (0 : Fin 2) (Tests.pk 0x02 [7] : Packet) ∧ isOp 0x06 (Tests.pk 0x02 [7] : Packet) = true) ∨ ((.haloWrite 0 (Tests.pk 0x02 [7]) : Instr) = .syncFrag (0 : Fin 2) (Tests.pk 0x02 [7] : Packet) ∧ isOp 0x07 (Tests.pk 0x02 [7] : Packet) = true)) ∧ ((Tests.flowS (Tests.flow 2) |>.setF .pkg Reg.PKG.FENCE_FENCED 1).jobTag ≠ 0) ∧ ((Tests.pk 0x02 [7] : Packet).jobTag = (Tests.flowS (Tests.flow 2) |>.setF .pkg Reg.PKG.FENCE_FENCED 1).jobTag) ∧ ((Tests.flowS (Tests.flow 2) |>.setF .pkg Reg.PKG.FENCE_FENCED 1).fenced = true) := by decide +kernel

theorem test_meets_RequestsDelivered_9 :
    (((.readReq 0 (Tests.pk 0x03 []) [] : Instr) = .write (0 : Fin 2) (Tests.pk 0x03 [] : Packet) ([] : LineErrs) ∧ isOp 0x01 (Tests.pk 0x03 [] : Packet) = true) ∨ ((.readReq 0 (Tests.pk 0x03 []) [] : Instr) = .haloWrite (0 : Fin 2) (Tests.pk 0x03 [] : Packet) ∧ isOp 0x02 (Tests.pk 0x03 [] : Packet) = true) ∨ ((.readReq 0 (Tests.pk 0x03 []) [] : Instr) = .readReq (0 : Fin 2) (Tests.pk 0x03 [] : Packet) ([] : LineErrs) ∧ isOp 0x03 (Tests.pk 0x03 [] : Packet) = true) ∨
        ((.readReq 0 (Tests.pk 0x03 []) [] : Instr) = .atomic (0 : Fin 2) (Tests.pk 0x03 [] : Packet) ([] : LineErrs) ∧ isOp 0x04 (Tests.pk 0x03 [] : Packet) = true) ∨ ((.readReq 0 (Tests.pk 0x03 []) [] : Instr) = .guest (0 : Fin 2) (Tests.pk 0x03 [] : Packet) ∧ isOp 0x06 (Tests.pk 0x03 [] : Packet) = true) ∨ ((.readReq 0 (Tests.pk 0x03 []) [] : Instr) = .syncFrag (0 : Fin 2) (Tests.pk 0x03 [] : Packet) ∧ isOp 0x07 (Tests.pk 0x03 [] : Packet) = true)) ∧ ((Tests.flowS (Tests.flow 2) |>.setF .pkg Reg.PKG.FENCE_FENCED 1).jobTag ≠ 0) ∧ ((Tests.pk 0x03 [] : Packet).jobTag = (Tests.flowS (Tests.flow 2) |>.setF .pkg Reg.PKG.FENCE_FENCED 1).jobTag) ∧ ((Tests.flowS (Tests.flow 2) |>.setF .pkg Reg.PKG.FENCE_FENCED 1).fenced = true) := by decide +kernel

theorem test_meets_RequestsDelivered_10 :
    (((.atomic 0 (Tests.pk 0x04 (leBytes 8 7)) [] : Instr) = .write (0 : Fin 2) (Tests.pk 0x04 (leBytes 8 7) : Packet) ([] : LineErrs) ∧ isOp 0x01 (Tests.pk 0x04 (leBytes 8 7) : Packet) = true) ∨ ((.atomic 0 (Tests.pk 0x04 (leBytes 8 7)) [] : Instr) = .haloWrite (0 : Fin 2) (Tests.pk 0x04 (leBytes 8 7) : Packet) ∧ isOp 0x02 (Tests.pk 0x04 (leBytes 8 7) : Packet) = true) ∨ ((.atomic 0 (Tests.pk 0x04 (leBytes 8 7)) [] : Instr) = .readReq (0 : Fin 2) (Tests.pk 0x04 (leBytes 8 7) : Packet) ([] : LineErrs) ∧ isOp 0x03 (Tests.pk 0x04 (leBytes 8 7) : Packet) = true) ∨
        ((.atomic 0 (Tests.pk 0x04 (leBytes 8 7)) [] : Instr) = .atomic (0 : Fin 2) (Tests.pk 0x04 (leBytes 8 7) : Packet) ([] : LineErrs) ∧ isOp 0x04 (Tests.pk 0x04 (leBytes 8 7) : Packet) = true) ∨ ((.atomic 0 (Tests.pk 0x04 (leBytes 8 7)) [] : Instr) = .guest (0 : Fin 2) (Tests.pk 0x04 (leBytes 8 7) : Packet) ∧ isOp 0x06 (Tests.pk 0x04 (leBytes 8 7) : Packet) = true) ∨ ((.atomic 0 (Tests.pk 0x04 (leBytes 8 7)) [] : Instr) = .syncFrag (0 : Fin 2) (Tests.pk 0x04 (leBytes 8 7) : Packet) ∧ isOp 0x07 (Tests.pk 0x04 (leBytes 8 7) : Packet) = true)) ∧ ((Tests.flowS (Tests.flow 2) |>.setF .pkg Reg.PKG.FENCE_FENCED 1).jobTag ≠ 0) ∧ ((Tests.pk 0x04 (leBytes 8 7) : Packet).jobTag = (Tests.flowS (Tests.flow 2) |>.setF .pkg Reg.PKG.FENCE_FENCED 1).jobTag) ∧ ((Tests.flowS (Tests.flow 2) |>.setF .pkg Reg.PKG.FENCE_FENCED 1).fenced = true) := by decide +kernel

theorem test_meets_RequestsDelivered_11 :
    (((.guest 0 (Tests.pk 0x06 []) : Instr) = .write (0 : Fin 2) (Tests.pk 0x06 [] : Packet) ([] : LineErrs) ∧ isOp 0x01 (Tests.pk 0x06 [] : Packet) = true) ∨ ((.guest 0 (Tests.pk 0x06 []) : Instr) = .haloWrite (0 : Fin 2) (Tests.pk 0x06 [] : Packet) ∧ isOp 0x02 (Tests.pk 0x06 [] : Packet) = true) ∨ ((.guest 0 (Tests.pk 0x06 []) : Instr) = .readReq (0 : Fin 2) (Tests.pk 0x06 [] : Packet) ([] : LineErrs) ∧ isOp 0x03 (Tests.pk 0x06 [] : Packet) = true) ∨
        ((.guest 0 (Tests.pk 0x06 []) : Instr) = .atomic (0 : Fin 2) (Tests.pk 0x06 [] : Packet) ([] : LineErrs) ∧ isOp 0x04 (Tests.pk 0x06 [] : Packet) = true) ∨ ((.guest 0 (Tests.pk 0x06 []) : Instr) = .guest (0 : Fin 2) (Tests.pk 0x06 [] : Packet) ∧ isOp 0x06 (Tests.pk 0x06 [] : Packet) = true) ∨ ((.guest 0 (Tests.pk 0x06 []) : Instr) = .syncFrag (0 : Fin 2) (Tests.pk 0x06 [] : Packet) ∧ isOp 0x07 (Tests.pk 0x06 [] : Packet) = true)) ∧ ((Tests.flowS (Tests.flow 2) |>.setF .pkg Reg.PKG.FENCE_FENCED 1).jobTag ≠ 0) ∧ ((Tests.pk 0x06 [] : Packet).jobTag = (Tests.flowS (Tests.flow 2) |>.setF .pkg Reg.PKG.FENCE_FENCED 1).jobTag) ∧ ((Tests.flowS (Tests.flow 2) |>.setF .pkg Reg.PKG.FENCE_FENCED 1).fenced = true) := by decide +kernel

theorem test_meets_RequestsDelivered_12 :
    (((.syncFrag 0 (Tests.pk 0x07 (leBytes 4 7)) : Instr) = .write (0 : Fin 2) (Tests.pk 0x07 (leBytes 4 7) : Packet) ([] : LineErrs) ∧ isOp 0x01 (Tests.pk 0x07 (leBytes 4 7) : Packet) = true) ∨ ((.syncFrag 0 (Tests.pk 0x07 (leBytes 4 7)) : Instr) = .haloWrite (0 : Fin 2) (Tests.pk 0x07 (leBytes 4 7) : Packet) ∧ isOp 0x02 (Tests.pk 0x07 (leBytes 4 7) : Packet) = true) ∨ ((.syncFrag 0 (Tests.pk 0x07 (leBytes 4 7)) : Instr) = .readReq (0 : Fin 2) (Tests.pk 0x07 (leBytes 4 7) : Packet) ([] : LineErrs) ∧ isOp 0x03 (Tests.pk 0x07 (leBytes 4 7) : Packet) = true) ∨
        ((.syncFrag 0 (Tests.pk 0x07 (leBytes 4 7)) : Instr) = .atomic (0 : Fin 2) (Tests.pk 0x07 (leBytes 4 7) : Packet) ([] : LineErrs) ∧ isOp 0x04 (Tests.pk 0x07 (leBytes 4 7) : Packet) = true) ∨ ((.syncFrag 0 (Tests.pk 0x07 (leBytes 4 7)) : Instr) = .guest (0 : Fin 2) (Tests.pk 0x07 (leBytes 4 7) : Packet) ∧ isOp 0x06 (Tests.pk 0x07 (leBytes 4 7) : Packet) = true) ∨ ((.syncFrag 0 (Tests.pk 0x07 (leBytes 4 7)) : Instr) = .syncFrag (0 : Fin 2) (Tests.pk 0x07 (leBytes 4 7) : Packet) ∧ isOp 0x07 (Tests.pk 0x07 (leBytes 4 7) : Packet) = true)) ∧ ((Tests.flowS (Tests.flow 2) |>.setF .pkg Reg.PKG.FENCE_FENCED 1).jobTag ≠ 0) ∧ ((Tests.pk 0x07 (leBytes 4 7) : Packet).jobTag = (Tests.flowS (Tests.flow 2) |>.setF .pkg Reg.PKG.FENCE_FENCED 1).jobTag) ∧ ((Tests.flowS (Tests.flow 2) |>.setF .pkg Reg.PKG.FENCE_FENCED 1).fenced = true) := by decide +kernel

theorem test_meets_RequestsDelivered_13 :
    (((.write 0 (Tests.pk 0x01 [7]) [] : Instr) = .write (0 : Fin 2) (Tests.pk 0x01 [7] : Packet) ([] : LineErrs) ∧ isOp 0x01 (Tests.pk 0x01 [7] : Packet) = true) ∨ ((.write 0 (Tests.pk 0x01 [7]) [] : Instr) = .haloWrite (0 : Fin 2) (Tests.pk 0x01 [7] : Packet) ∧ isOp 0x02 (Tests.pk 0x01 [7] : Packet) = true) ∨ ((.write 0 (Tests.pk 0x01 [7]) [] : Instr) = .readReq (0 : Fin 2) (Tests.pk 0x01 [7] : Packet) ([] : LineErrs) ∧ isOp 0x03 (Tests.pk 0x01 [7] : Packet) = true) ∨
        ((.write 0 (Tests.pk 0x01 [7]) [] : Instr) = .atomic (0 : Fin 2) (Tests.pk 0x01 [7] : Packet) ([] : LineErrs) ∧ isOp 0x04 (Tests.pk 0x01 [7] : Packet) = true) ∨ ((.write 0 (Tests.pk 0x01 [7]) [] : Instr) = .guest (0 : Fin 2) (Tests.pk 0x01 [7] : Packet) ∧ isOp 0x06 (Tests.pk 0x01 [7] : Packet) = true) ∨ ((.write 0 (Tests.pk 0x01 [7]) [] : Instr) = .syncFrag (0 : Fin 2) (Tests.pk 0x01 [7] : Packet) ∧ isOp 0x07 (Tests.pk 0x01 [7] : Packet) = true)) ∧ ((Tests.flowS (Tests.flow 1)).jobTag ≠ 0) ∧ ((Tests.pk 0x01 [7] : Packet).jobTag = (Tests.flowS (Tests.flow 1)).jobTag) ∧ ((Tests.flowS (Tests.flow 1)).fenced = false) ∧ (((Tests.flowS (Tests.flow 1)).flow (Tests.pk 0x01 [7] : Packet).ctx).state ≠ 1 ∨ ((Tests.flowS (Tests.flow 1)).flow (Tests.pk 0x01 [7] : Packet).ctx).kind ≠ 2 ∨ ((Tests.flowS (Tests.flow 1)).flow (Tests.pk 0x01 [7] : Packet).ctx).peerFid ≠ (Tests.pk 0x01 [7] : Packet).srcFid) := by decide +kernel

theorem test_meets_RequestsDelivered_14 :
    (((.haloWrite 0 (Tests.pk 0x02 [7]) : Instr) = .write (0 : Fin 2) (Tests.pk 0x02 [7] : Packet) ([] : LineErrs) ∧ isOp 0x01 (Tests.pk 0x02 [7] : Packet) = true) ∨ ((.haloWrite 0 (Tests.pk 0x02 [7]) : Instr) = .haloWrite (0 : Fin 2) (Tests.pk 0x02 [7] : Packet) ∧ isOp 0x02 (Tests.pk 0x02 [7] : Packet) = true) ∨ ((.haloWrite 0 (Tests.pk 0x02 [7]) : Instr) = .readReq (0 : Fin 2) (Tests.pk 0x02 [7] : Packet) ([] : LineErrs) ∧ isOp 0x03 (Tests.pk 0x02 [7] : Packet) = true) ∨
        ((.haloWrite 0 (Tests.pk 0x02 [7]) : Instr) = .atomic (0 : Fin 2) (Tests.pk 0x02 [7] : Packet) ([] : LineErrs) ∧ isOp 0x04 (Tests.pk 0x02 [7] : Packet) = true) ∨ ((.haloWrite 0 (Tests.pk 0x02 [7]) : Instr) = .guest (0 : Fin 2) (Tests.pk 0x02 [7] : Packet) ∧ isOp 0x06 (Tests.pk 0x02 [7] : Packet) = true) ∨ ((.haloWrite 0 (Tests.pk 0x02 [7]) : Instr) = .syncFrag (0 : Fin 2) (Tests.pk 0x02 [7] : Packet) ∧ isOp 0x07 (Tests.pk 0x02 [7] : Packet) = true)) ∧ ((Tests.flowS (Tests.flow 1)).jobTag ≠ 0) ∧ ((Tests.pk 0x02 [7] : Packet).jobTag = (Tests.flowS (Tests.flow 1)).jobTag) ∧ ((Tests.flowS (Tests.flow 1)).fenced = false) ∧ (((Tests.flowS (Tests.flow 1)).flow (Tests.pk 0x02 [7] : Packet).ctx).state ≠ 1 ∨ ((Tests.flowS (Tests.flow 1)).flow (Tests.pk 0x02 [7] : Packet).ctx).kind ≠ 2 ∨ ((Tests.flowS (Tests.flow 1)).flow (Tests.pk 0x02 [7] : Packet).ctx).peerFid ≠ (Tests.pk 0x02 [7] : Packet).srcFid) := by decide +kernel

theorem test_meets_RequestsDelivered_15 :
    (((.readReq 0 (Tests.pk 0x03 []) [] : Instr) = .write (0 : Fin 2) (Tests.pk 0x03 [] : Packet) ([] : LineErrs) ∧ isOp 0x01 (Tests.pk 0x03 [] : Packet) = true) ∨ ((.readReq 0 (Tests.pk 0x03 []) [] : Instr) = .haloWrite (0 : Fin 2) (Tests.pk 0x03 [] : Packet) ∧ isOp 0x02 (Tests.pk 0x03 [] : Packet) = true) ∨ ((.readReq 0 (Tests.pk 0x03 []) [] : Instr) = .readReq (0 : Fin 2) (Tests.pk 0x03 [] : Packet) ([] : LineErrs) ∧ isOp 0x03 (Tests.pk 0x03 [] : Packet) = true) ∨
        ((.readReq 0 (Tests.pk 0x03 []) [] : Instr) = .atomic (0 : Fin 2) (Tests.pk 0x03 [] : Packet) ([] : LineErrs) ∧ isOp 0x04 (Tests.pk 0x03 [] : Packet) = true) ∨ ((.readReq 0 (Tests.pk 0x03 []) [] : Instr) = .guest (0 : Fin 2) (Tests.pk 0x03 [] : Packet) ∧ isOp 0x06 (Tests.pk 0x03 [] : Packet) = true) ∨ ((.readReq 0 (Tests.pk 0x03 []) [] : Instr) = .syncFrag (0 : Fin 2) (Tests.pk 0x03 [] : Packet) ∧ isOp 0x07 (Tests.pk 0x03 [] : Packet) = true)) ∧ ((Tests.flowS (Tests.flow 1)).jobTag ≠ 0) ∧ ((Tests.pk 0x03 [] : Packet).jobTag = (Tests.flowS (Tests.flow 1)).jobTag) ∧ ((Tests.flowS (Tests.flow 1)).fenced = false) ∧ (((Tests.flowS (Tests.flow 1)).flow (Tests.pk 0x03 [] : Packet).ctx).state ≠ 1 ∨ ((Tests.flowS (Tests.flow 1)).flow (Tests.pk 0x03 [] : Packet).ctx).kind ≠ 2 ∨ ((Tests.flowS (Tests.flow 1)).flow (Tests.pk 0x03 [] : Packet).ctx).peerFid ≠ (Tests.pk 0x03 [] : Packet).srcFid) := by decide +kernel

theorem test_meets_RequestsDelivered_16 :
    (((.atomic 0 (Tests.pk 0x04 (leBytes 8 7)) [] : Instr) = .write (0 : Fin 2) (Tests.pk 0x04 (leBytes 8 7) : Packet) ([] : LineErrs) ∧ isOp 0x01 (Tests.pk 0x04 (leBytes 8 7) : Packet) = true) ∨ ((.atomic 0 (Tests.pk 0x04 (leBytes 8 7)) [] : Instr) = .haloWrite (0 : Fin 2) (Tests.pk 0x04 (leBytes 8 7) : Packet) ∧ isOp 0x02 (Tests.pk 0x04 (leBytes 8 7) : Packet) = true) ∨ ((.atomic 0 (Tests.pk 0x04 (leBytes 8 7)) [] : Instr) = .readReq (0 : Fin 2) (Tests.pk 0x04 (leBytes 8 7) : Packet) ([] : LineErrs) ∧ isOp 0x03 (Tests.pk 0x04 (leBytes 8 7) : Packet) = true) ∨
        ((.atomic 0 (Tests.pk 0x04 (leBytes 8 7)) [] : Instr) = .atomic (0 : Fin 2) (Tests.pk 0x04 (leBytes 8 7) : Packet) ([] : LineErrs) ∧ isOp 0x04 (Tests.pk 0x04 (leBytes 8 7) : Packet) = true) ∨ ((.atomic 0 (Tests.pk 0x04 (leBytes 8 7)) [] : Instr) = .guest (0 : Fin 2) (Tests.pk 0x04 (leBytes 8 7) : Packet) ∧ isOp 0x06 (Tests.pk 0x04 (leBytes 8 7) : Packet) = true) ∨ ((.atomic 0 (Tests.pk 0x04 (leBytes 8 7)) [] : Instr) = .syncFrag (0 : Fin 2) (Tests.pk 0x04 (leBytes 8 7) : Packet) ∧ isOp 0x07 (Tests.pk 0x04 (leBytes 8 7) : Packet) = true)) ∧ ((Tests.flowS (Tests.flow 1)).jobTag ≠ 0) ∧ ((Tests.pk 0x04 (leBytes 8 7) : Packet).jobTag = (Tests.flowS (Tests.flow 1)).jobTag) ∧ ((Tests.flowS (Tests.flow 1)).fenced = false) ∧ (((Tests.flowS (Tests.flow 1)).flow (Tests.pk 0x04 (leBytes 8 7) : Packet).ctx).state ≠ 1 ∨ ((Tests.flowS (Tests.flow 1)).flow (Tests.pk 0x04 (leBytes 8 7) : Packet).ctx).kind ≠ 2 ∨ ((Tests.flowS (Tests.flow 1)).flow (Tests.pk 0x04 (leBytes 8 7) : Packet).ctx).peerFid ≠ (Tests.pk 0x04 (leBytes 8 7) : Packet).srcFid) := by decide +kernel

theorem test_meets_RequestsDelivered_17 :
    (((.guest 0 (Tests.pk 0x06 []) : Instr) = .write (0 : Fin 2) (Tests.pk 0x06 [] : Packet) ([] : LineErrs) ∧ isOp 0x01 (Tests.pk 0x06 [] : Packet) = true) ∨ ((.guest 0 (Tests.pk 0x06 []) : Instr) = .haloWrite (0 : Fin 2) (Tests.pk 0x06 [] : Packet) ∧ isOp 0x02 (Tests.pk 0x06 [] : Packet) = true) ∨ ((.guest 0 (Tests.pk 0x06 []) : Instr) = .readReq (0 : Fin 2) (Tests.pk 0x06 [] : Packet) ([] : LineErrs) ∧ isOp 0x03 (Tests.pk 0x06 [] : Packet) = true) ∨
        ((.guest 0 (Tests.pk 0x06 []) : Instr) = .atomic (0 : Fin 2) (Tests.pk 0x06 [] : Packet) ([] : LineErrs) ∧ isOp 0x04 (Tests.pk 0x06 [] : Packet) = true) ∨ ((.guest 0 (Tests.pk 0x06 []) : Instr) = .guest (0 : Fin 2) (Tests.pk 0x06 [] : Packet) ∧ isOp 0x06 (Tests.pk 0x06 [] : Packet) = true) ∨ ((.guest 0 (Tests.pk 0x06 []) : Instr) = .syncFrag (0 : Fin 2) (Tests.pk 0x06 [] : Packet) ∧ isOp 0x07 (Tests.pk 0x06 [] : Packet) = true)) ∧ ((Tests.flowS (Tests.flow 1)).jobTag ≠ 0) ∧ ((Tests.pk 0x06 [] : Packet).jobTag = (Tests.flowS (Tests.flow 1)).jobTag) ∧ ((Tests.flowS (Tests.flow 1)).fenced = false) ∧ (((Tests.flowS (Tests.flow 1)).flow (Tests.pk 0x06 [] : Packet).ctx).state ≠ 1 ∨ ((Tests.flowS (Tests.flow 1)).flow (Tests.pk 0x06 [] : Packet).ctx).kind ≠ 2 ∨ ((Tests.flowS (Tests.flow 1)).flow (Tests.pk 0x06 [] : Packet).ctx).peerFid ≠ (Tests.pk 0x06 [] : Packet).srcFid) := by decide +kernel

theorem test_meets_RequestsDelivered_18 :
    (((.syncFrag 0 (Tests.pk 0x07 (leBytes 4 7)) : Instr) = .write (0 : Fin 2) (Tests.pk 0x07 (leBytes 4 7) : Packet) ([] : LineErrs) ∧ isOp 0x01 (Tests.pk 0x07 (leBytes 4 7) : Packet) = true) ∨ ((.syncFrag 0 (Tests.pk 0x07 (leBytes 4 7)) : Instr) = .haloWrite (0 : Fin 2) (Tests.pk 0x07 (leBytes 4 7) : Packet) ∧ isOp 0x02 (Tests.pk 0x07 (leBytes 4 7) : Packet) = true) ∨ ((.syncFrag 0 (Tests.pk 0x07 (leBytes 4 7)) : Instr) = .readReq (0 : Fin 2) (Tests.pk 0x07 (leBytes 4 7) : Packet) ([] : LineErrs) ∧ isOp 0x03 (Tests.pk 0x07 (leBytes 4 7) : Packet) = true) ∨
        ((.syncFrag 0 (Tests.pk 0x07 (leBytes 4 7)) : Instr) = .atomic (0 : Fin 2) (Tests.pk 0x07 (leBytes 4 7) : Packet) ([] : LineErrs) ∧ isOp 0x04 (Tests.pk 0x07 (leBytes 4 7) : Packet) = true) ∨ ((.syncFrag 0 (Tests.pk 0x07 (leBytes 4 7)) : Instr) = .guest (0 : Fin 2) (Tests.pk 0x07 (leBytes 4 7) : Packet) ∧ isOp 0x06 (Tests.pk 0x07 (leBytes 4 7) : Packet) = true) ∨ ((.syncFrag 0 (Tests.pk 0x07 (leBytes 4 7)) : Instr) = .syncFrag (0 : Fin 2) (Tests.pk 0x07 (leBytes 4 7) : Packet) ∧ isOp 0x07 (Tests.pk 0x07 (leBytes 4 7) : Packet) = true)) ∧ ((Tests.flowS (Tests.flow 1)).jobTag ≠ 0) ∧ ((Tests.pk 0x07 (leBytes 4 7) : Packet).jobTag = (Tests.flowS (Tests.flow 1)).jobTag) ∧ ((Tests.flowS (Tests.flow 1)).fenced = false) ∧ (((Tests.flowS (Tests.flow 1)).flow (Tests.pk 0x07 (leBytes 4 7) : Packet).ctx).state ≠ 1 ∨ ((Tests.flowS (Tests.flow 1)).flow (Tests.pk 0x07 (leBytes 4 7) : Packet).ctx).kind ≠ 2 ∨ ((Tests.flowS (Tests.flow 1)).flow (Tests.pk 0x07 (leBytes 4 7) : Packet).ctx).peerFid ≠ (Tests.pk 0x07 (leBytes 4 7) : Packet).srcFid) := by decide +kernel

theorem test_meets_RequestsDelivered_19 :
    (((.write 0 (Tests.pk 0x01 [7]) [] : Instr) = .write (0 : Fin 2) (Tests.pk 0x01 [7] : Packet) ([] : LineErrs) ∧ isOp 0x01 (Tests.pk 0x01 [7] : Packet) = true) ∨ ((.write 0 (Tests.pk 0x01 [7]) [] : Instr) = .haloWrite (0 : Fin 2) (Tests.pk 0x01 [7] : Packet) ∧ isOp 0x02 (Tests.pk 0x01 [7] : Packet) = true) ∨ ((.write 0 (Tests.pk 0x01 [7]) [] : Instr) = .syncFrag (0 : Fin 2) (Tests.pk 0x01 [7] : Packet) ∧ isOp 0x07 (Tests.pk 0x01 [7] : Packet) = true) ∨ ((.write 0 (Tests.pk 0x01 [7]) [] : Instr) = .guest (0 : Fin 2) (Tests.pk 0x01 [7] : Packet) ∧ isOp 0x06 (Tests.pk 0x01 [7] : Packet) = true)) ∧ ((Tests.flowS { Tests.flow 2 with next := 1 } : State).jobTag ≠ 0) ∧ ((Tests.pk 0x01 [7] : Packet).jobTag = (Tests.flowS { Tests.flow 2 with next := 1 } : State).jobTag) ∧ ((Tests.flowS { Tests.flow 2 with next := 1 } : State).fenced = false) ∧ (((Tests.flowS { Tests.flow 2 with next := 1 } : State).flow (Tests.pk 0x01 [7] : Packet).ctx).state = 1) ∧ (((Tests.flowS { Tests.flow 2 with next := 1 } : State).flow (Tests.pk 0x01 [7] : Packet).ctx).kind = 2) ∧ (((Tests.flowS { Tests.flow 2 with next := 1 } : State).flow (Tests.pk 0x01 [7] : Packet).ctx).peerFid = (Tests.pk 0x01 [7] : Packet).srcFid) ∧ (seqBefore (Tests.pk 0x01 [7] : Packet).seq ((Tests.flowS { Tests.flow 2 with next := 1 } : State).flow (Tests.pk 0x01 [7] : Packet).ctx).next = true ∨ ((Tests.flowS { Tests.flow 2 with next := 1 } : State).flow (Tests.pk 0x01 [7] : Packet).ctx).got.contains (Tests.pk 0x01 [7] : Packet).seq = true) := by decide +kernel

theorem test_meets_RequestsDelivered_20 :
    (((.write 0 ({ Tests.pk 0x01 [7] with seq := 16 }) [] : Instr) = .write (0 : Fin 2) ({ Tests.pk 0x01 [7] with seq := 16 } : Packet) ([] : LineErrs) ∧ isOp 0x01 ({ Tests.pk 0x01 [7] with seq := 16 } : Packet) = true) ∨ ((.write 0 ({ Tests.pk 0x01 [7] with seq := 16 }) [] : Instr) = .haloWrite (0 : Fin 2) ({ Tests.pk 0x01 [7] with seq := 16 } : Packet) ∧ isOp 0x02 ({ Tests.pk 0x01 [7] with seq := 16 } : Packet) = true) ∨ ((.write 0 ({ Tests.pk 0x01 [7] with seq := 16 }) [] : Instr) = .readReq (0 : Fin 2) ({ Tests.pk 0x01 [7] with seq := 16 } : Packet) ([] : LineErrs) ∧ isOp 0x03 ({ Tests.pk 0x01 [7] with seq := 16 } : Packet) = true) ∨
        ((.write 0 ({ Tests.pk 0x01 [7] with seq := 16 }) [] : Instr) = .atomic (0 : Fin 2) ({ Tests.pk 0x01 [7] with seq := 16 } : Packet) ([] : LineErrs) ∧ isOp 0x04 ({ Tests.pk 0x01 [7] with seq := 16 } : Packet) = true) ∨ ((.write 0 ({ Tests.pk 0x01 [7] with seq := 16 }) [] : Instr) = .guest (0 : Fin 2) ({ Tests.pk 0x01 [7] with seq := 16 } : Packet) ∧ isOp 0x06 ({ Tests.pk 0x01 [7] with seq := 16 } : Packet) = true) ∨ ((.write 0 ({ Tests.pk 0x01 [7] with seq := 16 }) [] : Instr) = .syncFrag (0 : Fin 2) ({ Tests.pk 0x01 [7] with seq := 16 } : Packet) ∧ isOp 0x07 ({ Tests.pk 0x01 [7] with seq := 16 } : Packet) = true)) ∧ ((Tests.flowS (Tests.flow 2)).jobTag ≠ 0) ∧ (({ Tests.pk 0x01 [7] with seq := 16 } : Packet).jobTag = (Tests.flowS (Tests.flow 2)).jobTag) ∧ ((Tests.flowS (Tests.flow 2)).fenced = false) ∧ (((Tests.flowS (Tests.flow 2)).flow ({ Tests.pk 0x01 [7] with seq := 16 } : Packet).ctx).state = 1) ∧ (((Tests.flowS (Tests.flow 2)).flow ({ Tests.pk 0x01 [7] with seq := 16 } : Packet).ctx).kind = 2) ∧ (((Tests.flowS (Tests.flow 2)).flow ({ Tests.pk 0x01 [7] with seq := 16 } : Packet).ctx).peerFid = ({ Tests.pk 0x01 [7] with seq := 16 } : Packet).srcFid) ∧ (seqBefore ({ Tests.pk 0x01 [7] with seq := 16 } : Packet).seq ((Tests.flowS (Tests.flow 2)).flow ({ Tests.pk 0x01 [7] with seq := 16 } : Packet).ctx).next = false) ∧ (((Tests.flowS (Tests.flow 2)).flow ({ Tests.pk 0x01 [7] with seq := 16 } : Packet).ctx).got.contains ({ Tests.pk 0x01 [7] with seq := 16 } : Packet).seq = false) ∧ (2 ^ ((Tests.flowS (Tests.flow 2)).flow ({ Tests.pk 0x01 [7] with seq := 16 } : Packet).ctx).winLog ≤ (({ Tests.pk 0x01 [7] with seq := 16 } : Packet).seq + 2 ^ 32 - ((Tests.flowS (Tests.flow 2)).flow ({ Tests.pk 0x01 [7] with seq := 16 } : Packet).ctx).next) % 2 ^ 32) := by decide +kernel

theorem test_meets_RequestsDelivered_21 :
    (((.haloWrite 0 ({ Tests.pk 0x02 [7] with seq := 16 }) : Instr) = .write (0 : Fin 2) ({ Tests.pk 0x02 [7] with seq := 16 } : Packet) ([] : LineErrs) ∧ isOp 0x01 ({ Tests.pk 0x02 [7] with seq := 16 } : Packet) = true) ∨ ((.haloWrite 0 ({ Tests.pk 0x02 [7] with seq := 16 }) : Instr) = .haloWrite (0 : Fin 2) ({ Tests.pk 0x02 [7] with seq := 16 } : Packet) ∧ isOp 0x02 ({ Tests.pk 0x02 [7] with seq := 16 } : Packet) = true) ∨ ((.haloWrite 0 ({ Tests.pk 0x02 [7] with seq := 16 }) : Instr) = .readReq (0 : Fin 2) ({ Tests.pk 0x02 [7] with seq := 16 } : Packet) ([] : LineErrs) ∧ isOp 0x03 ({ Tests.pk 0x02 [7] with seq := 16 } : Packet) = true) ∨
        ((.haloWrite 0 ({ Tests.pk 0x02 [7] with seq := 16 }) : Instr) = .atomic (0 : Fin 2) ({ Tests.pk 0x02 [7] with seq := 16 } : Packet) ([] : LineErrs) ∧ isOp 0x04 ({ Tests.pk 0x02 [7] with seq := 16 } : Packet) = true) ∨ ((.haloWrite 0 ({ Tests.pk 0x02 [7] with seq := 16 }) : Instr) = .guest (0 : Fin 2) ({ Tests.pk 0x02 [7] with seq := 16 } : Packet) ∧ isOp 0x06 ({ Tests.pk 0x02 [7] with seq := 16 } : Packet) = true) ∨ ((.haloWrite 0 ({ Tests.pk 0x02 [7] with seq := 16 }) : Instr) = .syncFrag (0 : Fin 2) ({ Tests.pk 0x02 [7] with seq := 16 } : Packet) ∧ isOp 0x07 ({ Tests.pk 0x02 [7] with seq := 16 } : Packet) = true)) ∧ ((Tests.flowS (Tests.flow 2)).jobTag ≠ 0) ∧ (({ Tests.pk 0x02 [7] with seq := 16 } : Packet).jobTag = (Tests.flowS (Tests.flow 2)).jobTag) ∧ ((Tests.flowS (Tests.flow 2)).fenced = false) ∧ (((Tests.flowS (Tests.flow 2)).flow ({ Tests.pk 0x02 [7] with seq := 16 } : Packet).ctx).state = 1) ∧ (((Tests.flowS (Tests.flow 2)).flow ({ Tests.pk 0x02 [7] with seq := 16 } : Packet).ctx).kind = 2) ∧ (((Tests.flowS (Tests.flow 2)).flow ({ Tests.pk 0x02 [7] with seq := 16 } : Packet).ctx).peerFid = ({ Tests.pk 0x02 [7] with seq := 16 } : Packet).srcFid) ∧ (seqBefore ({ Tests.pk 0x02 [7] with seq := 16 } : Packet).seq ((Tests.flowS (Tests.flow 2)).flow ({ Tests.pk 0x02 [7] with seq := 16 } : Packet).ctx).next = false) ∧ (((Tests.flowS (Tests.flow 2)).flow ({ Tests.pk 0x02 [7] with seq := 16 } : Packet).ctx).got.contains ({ Tests.pk 0x02 [7] with seq := 16 } : Packet).seq = false) ∧ (2 ^ ((Tests.flowS (Tests.flow 2)).flow ({ Tests.pk 0x02 [7] with seq := 16 } : Packet).ctx).winLog ≤ (({ Tests.pk 0x02 [7] with seq := 16 } : Packet).seq + 2 ^ 32 - ((Tests.flowS (Tests.flow 2)).flow ({ Tests.pk 0x02 [7] with seq := 16 } : Packet).ctx).next) % 2 ^ 32) := by decide +kernel

theorem test_meets_RequestsDelivered_22 :
    (((.readReq 0 ({ Tests.pk 0x03 [] with seq := 16 }) [] : Instr) = .write (0 : Fin 2) ({ Tests.pk 0x03 [] with seq := 16 } : Packet) ([] : LineErrs) ∧ isOp 0x01 ({ Tests.pk 0x03 [] with seq := 16 } : Packet) = true) ∨ ((.readReq 0 ({ Tests.pk 0x03 [] with seq := 16 }) [] : Instr) = .haloWrite (0 : Fin 2) ({ Tests.pk 0x03 [] with seq := 16 } : Packet) ∧ isOp 0x02 ({ Tests.pk 0x03 [] with seq := 16 } : Packet) = true) ∨ ((.readReq 0 ({ Tests.pk 0x03 [] with seq := 16 }) [] : Instr) = .readReq (0 : Fin 2) ({ Tests.pk 0x03 [] with seq := 16 } : Packet) ([] : LineErrs) ∧ isOp 0x03 ({ Tests.pk 0x03 [] with seq := 16 } : Packet) = true) ∨
        ((.readReq 0 ({ Tests.pk 0x03 [] with seq := 16 }) [] : Instr) = .atomic (0 : Fin 2) ({ Tests.pk 0x03 [] with seq := 16 } : Packet) ([] : LineErrs) ∧ isOp 0x04 ({ Tests.pk 0x03 [] with seq := 16 } : Packet) = true) ∨ ((.readReq 0 ({ Tests.pk 0x03 [] with seq := 16 }) [] : Instr) = .guest (0 : Fin 2) ({ Tests.pk 0x03 [] with seq := 16 } : Packet) ∧ isOp 0x06 ({ Tests.pk 0x03 [] with seq := 16 } : Packet) = true) ∨ ((.readReq 0 ({ Tests.pk 0x03 [] with seq := 16 }) [] : Instr) = .syncFrag (0 : Fin 2) ({ Tests.pk 0x03 [] with seq := 16 } : Packet) ∧ isOp 0x07 ({ Tests.pk 0x03 [] with seq := 16 } : Packet) = true)) ∧ ((Tests.flowS (Tests.flow 2)).jobTag ≠ 0) ∧ (({ Tests.pk 0x03 [] with seq := 16 } : Packet).jobTag = (Tests.flowS (Tests.flow 2)).jobTag) ∧ ((Tests.flowS (Tests.flow 2)).fenced = false) ∧ (((Tests.flowS (Tests.flow 2)).flow ({ Tests.pk 0x03 [] with seq := 16 } : Packet).ctx).state = 1) ∧ (((Tests.flowS (Tests.flow 2)).flow ({ Tests.pk 0x03 [] with seq := 16 } : Packet).ctx).kind = 2) ∧ (((Tests.flowS (Tests.flow 2)).flow ({ Tests.pk 0x03 [] with seq := 16 } : Packet).ctx).peerFid = ({ Tests.pk 0x03 [] with seq := 16 } : Packet).srcFid) ∧ (seqBefore ({ Tests.pk 0x03 [] with seq := 16 } : Packet).seq ((Tests.flowS (Tests.flow 2)).flow ({ Tests.pk 0x03 [] with seq := 16 } : Packet).ctx).next = false) ∧ (((Tests.flowS (Tests.flow 2)).flow ({ Tests.pk 0x03 [] with seq := 16 } : Packet).ctx).got.contains ({ Tests.pk 0x03 [] with seq := 16 } : Packet).seq = false) ∧ (2 ^ ((Tests.flowS (Tests.flow 2)).flow ({ Tests.pk 0x03 [] with seq := 16 } : Packet).ctx).winLog ≤ (({ Tests.pk 0x03 [] with seq := 16 } : Packet).seq + 2 ^ 32 - ((Tests.flowS (Tests.flow 2)).flow ({ Tests.pk 0x03 [] with seq := 16 } : Packet).ctx).next) % 2 ^ 32) := by decide +kernel

theorem test_meets_RequestsDelivered_23 :
    (((.atomic 0 ({ Tests.pk 0x04 (leBytes 8 7) with seq := 16 }) [] : Instr) = .write (0 : Fin 2) ({ Tests.pk 0x04 (leBytes 8 7) with seq := 16 } : Packet) ([] : LineErrs) ∧ isOp 0x01 ({ Tests.pk 0x04 (leBytes 8 7) with seq := 16 } : Packet) = true) ∨ ((.atomic 0 ({ Tests.pk 0x04 (leBytes 8 7) with seq := 16 }) [] : Instr) = .haloWrite (0 : Fin 2) ({ Tests.pk 0x04 (leBytes 8 7) with seq := 16 } : Packet) ∧ isOp 0x02 ({ Tests.pk 0x04 (leBytes 8 7) with seq := 16 } : Packet) = true) ∨ ((.atomic 0 ({ Tests.pk 0x04 (leBytes 8 7) with seq := 16 }) [] : Instr) = .readReq (0 : Fin 2) ({ Tests.pk 0x04 (leBytes 8 7) with seq := 16 } : Packet) ([] : LineErrs) ∧ isOp 0x03 ({ Tests.pk 0x04 (leBytes 8 7) with seq := 16 } : Packet) = true) ∨
        ((.atomic 0 ({ Tests.pk 0x04 (leBytes 8 7) with seq := 16 }) [] : Instr) = .atomic (0 : Fin 2) ({ Tests.pk 0x04 (leBytes 8 7) with seq := 16 } : Packet) ([] : LineErrs) ∧ isOp 0x04 ({ Tests.pk 0x04 (leBytes 8 7) with seq := 16 } : Packet) = true) ∨ ((.atomic 0 ({ Tests.pk 0x04 (leBytes 8 7) with seq := 16 }) [] : Instr) = .guest (0 : Fin 2) ({ Tests.pk 0x04 (leBytes 8 7) with seq := 16 } : Packet) ∧ isOp 0x06 ({ Tests.pk 0x04 (leBytes 8 7) with seq := 16 } : Packet) = true) ∨ ((.atomic 0 ({ Tests.pk 0x04 (leBytes 8 7) with seq := 16 }) [] : Instr) = .syncFrag (0 : Fin 2) ({ Tests.pk 0x04 (leBytes 8 7) with seq := 16 } : Packet) ∧ isOp 0x07 ({ Tests.pk 0x04 (leBytes 8 7) with seq := 16 } : Packet) = true)) ∧ ((Tests.flowS (Tests.flow 2)).jobTag ≠ 0) ∧ (({ Tests.pk 0x04 (leBytes 8 7) with seq := 16 } : Packet).jobTag = (Tests.flowS (Tests.flow 2)).jobTag) ∧ ((Tests.flowS (Tests.flow 2)).fenced = false) ∧ (((Tests.flowS (Tests.flow 2)).flow ({ Tests.pk 0x04 (leBytes 8 7) with seq := 16 } : Packet).ctx).state = 1) ∧ (((Tests.flowS (Tests.flow 2)).flow ({ Tests.pk 0x04 (leBytes 8 7) with seq := 16 } : Packet).ctx).kind = 2) ∧ (((Tests.flowS (Tests.flow 2)).flow ({ Tests.pk 0x04 (leBytes 8 7) with seq := 16 } : Packet).ctx).peerFid = ({ Tests.pk 0x04 (leBytes 8 7) with seq := 16 } : Packet).srcFid) ∧ (seqBefore ({ Tests.pk 0x04 (leBytes 8 7) with seq := 16 } : Packet).seq ((Tests.flowS (Tests.flow 2)).flow ({ Tests.pk 0x04 (leBytes 8 7) with seq := 16 } : Packet).ctx).next = false) ∧ (((Tests.flowS (Tests.flow 2)).flow ({ Tests.pk 0x04 (leBytes 8 7) with seq := 16 } : Packet).ctx).got.contains ({ Tests.pk 0x04 (leBytes 8 7) with seq := 16 } : Packet).seq = false) ∧ (2 ^ ((Tests.flowS (Tests.flow 2)).flow ({ Tests.pk 0x04 (leBytes 8 7) with seq := 16 } : Packet).ctx).winLog ≤ (({ Tests.pk 0x04 (leBytes 8 7) with seq := 16 } : Packet).seq + 2 ^ 32 - ((Tests.flowS (Tests.flow 2)).flow ({ Tests.pk 0x04 (leBytes 8 7) with seq := 16 } : Packet).ctx).next) % 2 ^ 32) := by decide +kernel

theorem test_meets_RequestsDelivered_24 :
    (((.guest 0 ({ Tests.pk 0x06 [] with seq := 16 }) : Instr) = .write (0 : Fin 2) ({ Tests.pk 0x06 [] with seq := 16 } : Packet) ([] : LineErrs) ∧ isOp 0x01 ({ Tests.pk 0x06 [] with seq := 16 } : Packet) = true) ∨ ((.guest 0 ({ Tests.pk 0x06 [] with seq := 16 }) : Instr) = .haloWrite (0 : Fin 2) ({ Tests.pk 0x06 [] with seq := 16 } : Packet) ∧ isOp 0x02 ({ Tests.pk 0x06 [] with seq := 16 } : Packet) = true) ∨ ((.guest 0 ({ Tests.pk 0x06 [] with seq := 16 }) : Instr) = .readReq (0 : Fin 2) ({ Tests.pk 0x06 [] with seq := 16 } : Packet) ([] : LineErrs) ∧ isOp 0x03 ({ Tests.pk 0x06 [] with seq := 16 } : Packet) = true) ∨
        ((.guest 0 ({ Tests.pk 0x06 [] with seq := 16 }) : Instr) = .atomic (0 : Fin 2) ({ Tests.pk 0x06 [] with seq := 16 } : Packet) ([] : LineErrs) ∧ isOp 0x04 ({ Tests.pk 0x06 [] with seq := 16 } : Packet) = true) ∨ ((.guest 0 ({ Tests.pk 0x06 [] with seq := 16 }) : Instr) = .guest (0 : Fin 2) ({ Tests.pk 0x06 [] with seq := 16 } : Packet) ∧ isOp 0x06 ({ Tests.pk 0x06 [] with seq := 16 } : Packet) = true) ∨ ((.guest 0 ({ Tests.pk 0x06 [] with seq := 16 }) : Instr) = .syncFrag (0 : Fin 2) ({ Tests.pk 0x06 [] with seq := 16 } : Packet) ∧ isOp 0x07 ({ Tests.pk 0x06 [] with seq := 16 } : Packet) = true)) ∧ ((Tests.flowS (Tests.flow 2)).jobTag ≠ 0) ∧ (({ Tests.pk 0x06 [] with seq := 16 } : Packet).jobTag = (Tests.flowS (Tests.flow 2)).jobTag) ∧ ((Tests.flowS (Tests.flow 2)).fenced = false) ∧ (((Tests.flowS (Tests.flow 2)).flow ({ Tests.pk 0x06 [] with seq := 16 } : Packet).ctx).state = 1) ∧ (((Tests.flowS (Tests.flow 2)).flow ({ Tests.pk 0x06 [] with seq := 16 } : Packet).ctx).kind = 2) ∧ (((Tests.flowS (Tests.flow 2)).flow ({ Tests.pk 0x06 [] with seq := 16 } : Packet).ctx).peerFid = ({ Tests.pk 0x06 [] with seq := 16 } : Packet).srcFid) ∧ (seqBefore ({ Tests.pk 0x06 [] with seq := 16 } : Packet).seq ((Tests.flowS (Tests.flow 2)).flow ({ Tests.pk 0x06 [] with seq := 16 } : Packet).ctx).next = false) ∧ (((Tests.flowS (Tests.flow 2)).flow ({ Tests.pk 0x06 [] with seq := 16 } : Packet).ctx).got.contains ({ Tests.pk 0x06 [] with seq := 16 } : Packet).seq = false) ∧ (2 ^ ((Tests.flowS (Tests.flow 2)).flow ({ Tests.pk 0x06 [] with seq := 16 } : Packet).ctx).winLog ≤ (({ Tests.pk 0x06 [] with seq := 16 } : Packet).seq + 2 ^ 32 - ((Tests.flowS (Tests.flow 2)).flow ({ Tests.pk 0x06 [] with seq := 16 } : Packet).ctx).next) % 2 ^ 32) := by decide +kernel

theorem test_meets_RequestsDelivered_25 :
    (((.syncFrag 0 ({ Tests.pk 0x07 (leBytes 4 7) with seq := 16 }) : Instr) = .write (0 : Fin 2) ({ Tests.pk 0x07 (leBytes 4 7) with seq := 16 } : Packet) ([] : LineErrs) ∧ isOp 0x01 ({ Tests.pk 0x07 (leBytes 4 7) with seq := 16 } : Packet) = true) ∨ ((.syncFrag 0 ({ Tests.pk 0x07 (leBytes 4 7) with seq := 16 }) : Instr) = .haloWrite (0 : Fin 2) ({ Tests.pk 0x07 (leBytes 4 7) with seq := 16 } : Packet) ∧ isOp 0x02 ({ Tests.pk 0x07 (leBytes 4 7) with seq := 16 } : Packet) = true) ∨ ((.syncFrag 0 ({ Tests.pk 0x07 (leBytes 4 7) with seq := 16 }) : Instr) = .readReq (0 : Fin 2) ({ Tests.pk 0x07 (leBytes 4 7) with seq := 16 } : Packet) ([] : LineErrs) ∧ isOp 0x03 ({ Tests.pk 0x07 (leBytes 4 7) with seq := 16 } : Packet) = true) ∨
        ((.syncFrag 0 ({ Tests.pk 0x07 (leBytes 4 7) with seq := 16 }) : Instr) = .atomic (0 : Fin 2) ({ Tests.pk 0x07 (leBytes 4 7) with seq := 16 } : Packet) ([] : LineErrs) ∧ isOp 0x04 ({ Tests.pk 0x07 (leBytes 4 7) with seq := 16 } : Packet) = true) ∨ ((.syncFrag 0 ({ Tests.pk 0x07 (leBytes 4 7) with seq := 16 }) : Instr) = .guest (0 : Fin 2) ({ Tests.pk 0x07 (leBytes 4 7) with seq := 16 } : Packet) ∧ isOp 0x06 ({ Tests.pk 0x07 (leBytes 4 7) with seq := 16 } : Packet) = true) ∨ ((.syncFrag 0 ({ Tests.pk 0x07 (leBytes 4 7) with seq := 16 }) : Instr) = .syncFrag (0 : Fin 2) ({ Tests.pk 0x07 (leBytes 4 7) with seq := 16 } : Packet) ∧ isOp 0x07 ({ Tests.pk 0x07 (leBytes 4 7) with seq := 16 } : Packet) = true)) ∧ ((Tests.flowS (Tests.flow 2)).jobTag ≠ 0) ∧ (({ Tests.pk 0x07 (leBytes 4 7) with seq := 16 } : Packet).jobTag = (Tests.flowS (Tests.flow 2)).jobTag) ∧ ((Tests.flowS (Tests.flow 2)).fenced = false) ∧ (((Tests.flowS (Tests.flow 2)).flow ({ Tests.pk 0x07 (leBytes 4 7) with seq := 16 } : Packet).ctx).state = 1) ∧ (((Tests.flowS (Tests.flow 2)).flow ({ Tests.pk 0x07 (leBytes 4 7) with seq := 16 } : Packet).ctx).kind = 2) ∧ (((Tests.flowS (Tests.flow 2)).flow ({ Tests.pk 0x07 (leBytes 4 7) with seq := 16 } : Packet).ctx).peerFid = ({ Tests.pk 0x07 (leBytes 4 7) with seq := 16 } : Packet).srcFid) ∧ (seqBefore ({ Tests.pk 0x07 (leBytes 4 7) with seq := 16 } : Packet).seq ((Tests.flowS (Tests.flow 2)).flow ({ Tests.pk 0x07 (leBytes 4 7) with seq := 16 } : Packet).ctx).next = false) ∧ (((Tests.flowS (Tests.flow 2)).flow ({ Tests.pk 0x07 (leBytes 4 7) with seq := 16 } : Packet).ctx).got.contains ({ Tests.pk 0x07 (leBytes 4 7) with seq := 16 } : Packet).seq = false) ∧ (2 ^ ((Tests.flowS (Tests.flow 2)).flow ({ Tests.pk 0x07 (leBytes 4 7) with seq := 16 } : Packet).ctx).winLog ≤ (({ Tests.pk 0x07 (leBytes 4 7) with seq := 16 } : Packet).seq + 2 ^ 32 - ((Tests.flowS (Tests.flow 2)).flow ({ Tests.pk 0x07 (leBytes 4 7) with seq := 16 } : Packet).ctx).next) % 2 ^ 32) := by decide +kernel

theorem test_meets_RequestsDelivered_26 :
    (isOp 0x01 (Tests.pk 0x01 [7] : Packet) = true) ∧ ((Tests.flowS (Tests.flow 2)).jobTag ≠ 0) ∧ ((Tests.pk 0x01 [7] : Packet).jobTag = (Tests.flowS (Tests.flow 2)).jobTag) ∧ ((Tests.flowS (Tests.flow 2)).fenced = false) ∧ (((Tests.flowS (Tests.flow 2)).flow (Tests.pk 0x01 [7] : Packet).ctx).state = 1) ∧ (((Tests.flowS (Tests.flow 2)).flow (Tests.pk 0x01 [7] : Packet).ctx).kind = 2) ∧ (((Tests.flowS (Tests.flow 2)).flow (Tests.pk 0x01 [7] : Packet).ctx).peerFid = (Tests.pk 0x01 [7] : Packet).srcFid) ∧ ((Tests.pk 0x01 [7] : Packet).seq = ((Tests.flowS (Tests.flow 2)).flow (Tests.pk 0x01 [7] : Packet).ctx).next) ∧ (((Tests.flowS (Tests.flow 2)).flow (Tests.pk 0x01 [7] : Packet).ctx).got.contains (Tests.pk 0x01 [7] : Packet).seq = false) ∧ (fifth ((Tests.flowS (Tests.flow 2)).flow (Tests.pk 0x01 [7] : Packet).ctx).openMsgs (Tests.pk 0x01 [7] : Packet) = false) ∧ ((Tests.flowS ((Tests.flow 2).receive 0)) = (Tests.flowS (Tests.flow 2)).setFlow (Tests.pk 0x01 [7] : Packet).ctx (((Tests.flowS (Tests.flow 2)).flow (Tests.pk 0x01 [7] : Packet).ctx).receive (Tests.pk 0x01 [7] : Packet).seq)) ∧ ((let s := Tests.flowS ((Tests.flow 2).receive 0); let pk := Tests.pk 0x01 [7]; let a := s; let errs : LineErrs := []; let h : Fin 2 := 0; a.flowMessage h pk errs) = (Tests.flowS ((Tests.flow 2).receive 0)).flowMessage (0 : Fin 2) (Tests.pk 0x01 [7] : Packet) ([] : LineErrs)) := by decide +kernel

theorem test_meets_RequestsDelivered_27 :
    (isOp 0x02 (Tests.pk 0x02 [7] : Packet) = true) ∧ ((Tests.flowS (Tests.flow 2)).jobTag ≠ 0) ∧ ((Tests.pk 0x02 [7] : Packet).jobTag = (Tests.flowS (Tests.flow 2)).jobTag) ∧ ((Tests.flowS (Tests.flow 2)).fenced = false) ∧ (((Tests.flowS (Tests.flow 2)).flow (Tests.pk 0x02 [7] : Packet).ctx).state = 1) ∧ (((Tests.flowS (Tests.flow 2)).flow (Tests.pk 0x02 [7] : Packet).ctx).kind = 2) ∧ (((Tests.flowS (Tests.flow 2)).flow (Tests.pk 0x02 [7] : Packet).ctx).peerFid = (Tests.pk 0x02 [7] : Packet).srcFid) ∧ ((Tests.pk 0x02 [7] : Packet).seq = ((Tests.flowS (Tests.flow 2)).flow (Tests.pk 0x02 [7] : Packet).ctx).next) ∧ (((Tests.flowS (Tests.flow 2)).flow (Tests.pk 0x02 [7] : Packet).ctx).got.contains (Tests.pk 0x02 [7] : Packet).seq = false) ∧ (fifth ((Tests.flowS (Tests.flow 2)).flow (Tests.pk 0x02 [7] : Packet).ctx).openMsgs (Tests.pk 0x02 [7] : Packet) = false) ∧ ((Tests.flowS ((Tests.flow 2).receive 0)) = (Tests.flowS (Tests.flow 2)).setFlow (Tests.pk 0x02 [7] : Packet).ctx (((Tests.flowS (Tests.flow 2)).flow (Tests.pk 0x02 [7] : Packet).ctx).receive (Tests.pk 0x02 [7] : Packet).seq)) ∧ ((let s := Tests.flowS ((Tests.flow 2).receive 0); let pk := Tests.pk 0x02 [7]; let a := s; let h : Fin 2 := 0; a.flowMessage h pk []) = (Tests.flowS ((Tests.flow 2).receive 0)).flowMessage (0 : Fin 2) (Tests.pk 0x02 [7] : Packet) []) := by decide +kernel

theorem test_meets_RequestsDelivered_28 :
    (isOp 0x07 (Tests.pk 0x07 (leBytes 4 7) : Packet) = true) ∧ ((Tests.flowS (Tests.flow 2)).jobTag ≠ 0) ∧ ((Tests.pk 0x07 (leBytes 4 7) : Packet).jobTag = (Tests.flowS (Tests.flow 2)).jobTag) ∧ ((Tests.flowS (Tests.flow 2)).fenced = false) ∧ (((Tests.flowS (Tests.flow 2)).flow (Tests.pk 0x07 (leBytes 4 7) : Packet).ctx).state = 1) ∧ (((Tests.flowS (Tests.flow 2)).flow (Tests.pk 0x07 (leBytes 4 7) : Packet).ctx).kind = 2) ∧ (((Tests.flowS (Tests.flow 2)).flow (Tests.pk 0x07 (leBytes 4 7) : Packet).ctx).peerFid = (Tests.pk 0x07 (leBytes 4 7) : Packet).srcFid) ∧ ((Tests.pk 0x07 (leBytes 4 7) : Packet).seq = ((Tests.flowS (Tests.flow 2)).flow (Tests.pk 0x07 (leBytes 4 7) : Packet).ctx).next) ∧ (((Tests.flowS (Tests.flow 2)).flow (Tests.pk 0x07 (leBytes 4 7) : Packet).ctx).got.contains (Tests.pk 0x07 (leBytes 4 7) : Packet).seq = false) ∧ (fifth ((Tests.flowS (Tests.flow 2)).flow (Tests.pk 0x07 (leBytes 4 7) : Packet).ctx).openMsgs (Tests.pk 0x07 (leBytes 4 7) : Packet) = false) ∧ ((Tests.flowS ((Tests.flow 2).receive 0)) = (Tests.flowS (Tests.flow 2)).setFlow (Tests.pk 0x07 (leBytes 4 7) : Packet).ctx (((Tests.flowS (Tests.flow 2)).flow (Tests.pk 0x07 (leBytes 4 7) : Packet).ctx).receive (Tests.pk 0x07 (leBytes 4 7) : Packet).seq)) ∧ ((let s := Tests.flowS ((Tests.flow 2).receive 0); let pk := Tests.pk 0x07 (leBytes 4 7); let a := s; let h : Fin 2 := 0; a.flowMessage h pk []) = (Tests.flowS ((Tests.flow 2).receive 0)).flowMessage (0 : Fin 2) (Tests.pk 0x07 (leBytes 4 7) : Packet) []) := by decide +kernel

theorem test_meets_RequestsDelivered_29 :
    (isOp 0x03 ({ Tests.pk 0x03 [] with arg := 8 } : Packet) = true) ∧ ((Tests.flowS (Tests.flow 2)).jobTag ≠ 0) ∧ (({ Tests.pk 0x03 [] with arg := 8 } : Packet).jobTag = (Tests.flowS (Tests.flow 2)).jobTag) ∧ ((Tests.flowS (Tests.flow 2)).fenced = false) ∧ (((Tests.flowS (Tests.flow 2)).flow ({ Tests.pk 0x03 [] with arg := 8 } : Packet).ctx).state = 1) ∧ (((Tests.flowS (Tests.flow 2)).flow ({ Tests.pk 0x03 [] with arg := 8 } : Packet).ctx).kind = 2) ∧ (((Tests.flowS (Tests.flow 2)).flow ({ Tests.pk 0x03 [] with arg := 8 } : Packet).ctx).peerFid = ({ Tests.pk 0x03 [] with arg := 8 } : Packet).srcFid) ∧ (({ Tests.pk 0x03 [] with arg := 8 } : Packet).seq = ((Tests.flowS (Tests.flow 2)).flow ({ Tests.pk 0x03 [] with arg := 8 } : Packet).ctx).next) ∧ (((Tests.flowS (Tests.flow 2)).flow ({ Tests.pk 0x03 [] with arg := 8 } : Packet).ctx).got.contains ({ Tests.pk 0x03 [] with arg := 8 } : Packet).seq = false) ∧ ((Tests.flowS ((Tests.flow 2).receive 0)) = (Tests.flowS (Tests.flow 2)).setFlow ({ Tests.pk 0x03 [] with arg := 8 } : Packet).ctx (((Tests.flowS (Tests.flow 2)).flow ({ Tests.pk 0x03 [] with arg := 8 } : Packet).ctx).receive ({ Tests.pk 0x03 [] with arg := 8 } : Packet).seq)) ∧ ((let s := Tests.flowS ((Tests.flow 2).receive 0); let pk := { Tests.pk 0x03 [] with arg := 8 }; let a := s; let errs : LineErrs := []; let h : Fin 2 := 0; a.readRequest h pk errs : State) = (Tests.flowS ((Tests.flow 2).receive 0)).readRequest (0 : Fin 2) ({ Tests.pk 0x03 [] with arg := 8 } : Packet) ([] : LineErrs)) := by decide +kernel

theorem test_meets_RequestsDelivered_30 :
    (isOp 0x04 (Tests.pk 0x04 (leBytes 8 7) : Packet) = true) ∧ ((Tests.flowS (Tests.flow 2)).jobTag ≠ 0) ∧ ((Tests.pk 0x04 (leBytes 8 7) : Packet).jobTag = (Tests.flowS (Tests.flow 2)).jobTag) ∧ ((Tests.flowS (Tests.flow 2)).fenced = false) ∧ (((Tests.flowS (Tests.flow 2)).flow (Tests.pk 0x04 (leBytes 8 7) : Packet).ctx).state = 1) ∧ (((Tests.flowS (Tests.flow 2)).flow (Tests.pk 0x04 (leBytes 8 7) : Packet).ctx).kind = 2) ∧ (((Tests.flowS (Tests.flow 2)).flow (Tests.pk 0x04 (leBytes 8 7) : Packet).ctx).peerFid = (Tests.pk 0x04 (leBytes 8 7) : Packet).srcFid) ∧ ((Tests.pk 0x04 (leBytes 8 7) : Packet).seq = ((Tests.flowS (Tests.flow 2)).flow (Tests.pk 0x04 (leBytes 8 7) : Packet).ctx).next) ∧ (((Tests.flowS (Tests.flow 2)).flow (Tests.pk 0x04 (leBytes 8 7) : Packet).ctx).got.contains (Tests.pk 0x04 (leBytes 8 7) : Packet).seq = false) ∧ ((Tests.flowS ((Tests.flow 2).receive 0)) = (Tests.flowS (Tests.flow 2)).setFlow (Tests.pk 0x04 (leBytes 8 7) : Packet).ctx (((Tests.flowS (Tests.flow 2)).flow (Tests.pk 0x04 (leBytes 8 7) : Packet).ctx).receive (Tests.pk 0x04 (leBytes 8 7) : Packet).seq)) ∧ ((let s := Tests.flowS ((Tests.flow 2).receive 0); let pk := Tests.pk 0x04 (leBytes 8 7); let a := s; let errs : LineErrs := []; let h : Fin 2 := 0; a.atomicRequest h pk errs) = (Tests.flowS ((Tests.flow 2).receive 0)).atomicRequest (0 : Fin 2) (Tests.pk 0x04 (leBytes 8 7) : Packet) ([] : LineErrs)) := by decide +kernel

theorem test_meets_RequestsDelivered_31 :
    (isOp 0x06 ({ Tests.pk 0x06 [] with arg := 2 } : Packet) = true) ∧ ((Tests.flowS (Tests.flow 2)).jobTag ≠ 0) ∧ (({ Tests.pk 0x06 [] with arg := 2 } : Packet).jobTag = (Tests.flowS (Tests.flow 2)).jobTag) ∧ ((Tests.flowS (Tests.flow 2)).fenced = false) ∧ (((Tests.flowS (Tests.flow 2)).flow ({ Tests.pk 0x06 [] with arg := 2 } : Packet).ctx).state = 1) ∧ (((Tests.flowS (Tests.flow 2)).flow ({ Tests.pk 0x06 [] with arg := 2 } : Packet).ctx).kind = 2) ∧ (((Tests.flowS (Tests.flow 2)).flow ({ Tests.pk 0x06 [] with arg := 2 } : Packet).ctx).peerFid = ({ Tests.pk 0x06 [] with arg := 2 } : Packet).srcFid) ∧ (({ Tests.pk 0x06 [] with arg := 2 } : Packet).seq = ((Tests.flowS (Tests.flow 2)).flow ({ Tests.pk 0x06 [] with arg := 2 } : Packet).ctx).next) ∧ (((Tests.flowS (Tests.flow 2)).flow ({ Tests.pk 0x06 [] with arg := 2 } : Packet).ctx).got.contains ({ Tests.pk 0x06 [] with arg := 2 } : Packet).seq = false) ∧ ((Tests.flowS ((Tests.flow 2).receive 0)) = (Tests.flowS (Tests.flow 2)).setFlow ({ Tests.pk 0x06 [] with arg := 2 } : Packet).ctx (((Tests.flowS (Tests.flow 2)).flow ({ Tests.pk 0x06 [] with arg := 2 } : Packet).ctx).receive ({ Tests.pk 0x06 [] with arg := 2 } : Packet).seq)) ∧ ((let s := Tests.flowS ((Tests.flow 2).receive 0); let pk := { Tests.pk 0x06 [] with arg := 2 }; let a := s; let h : Fin 2 := 0; a.guestRequest h pk : State) = (Tests.flowS ((Tests.flow 2).receive 0)).guestRequest (0 : Fin 2) ({ Tests.pk 0x06 [] with arg := 2 } : Packet)) := by decide +kernel

theorem test_meets_RepliesDelivered_1 :
    (((.readRsp 0 (Tests.pk 0x10 [7]) [] : Instr) = .readRsp (0 : Fin 2) (Tests.pk 0x10 [7] : Packet) ([] : LineErrs) ∧ isOp 0x10 (Tests.pk 0x10 [7] : Packet) = true) ∨ ([] : LineErrs) = [] ∧ (((.readRsp 0 (Tests.pk 0x10 [7]) [] : Instr) = .atomicRsp (0 : Fin 2) (Tests.pk 0x10 [7] : Packet) ∧ isOp 0x11 (Tests.pk 0x10 [7] : Packet) = true) ∨ ((.readRsp 0 (Tests.pk 0x10 [7]) [] : Instr) = .ack (0 : Fin 2) (Tests.pk 0x10 [7] : Packet) ∧ isOp 0x12 (Tests.pk 0x10 [7] : Packet) = true) ∨
        ((.readRsp 0 (Tests.pk 0x10 [7]) [] : Instr) = .reject (0 : Fin 2) (Tests.pk 0x10 [7] : Packet) ∧ isOp 0x13 (Tests.pk 0x10 [7] : Packet) = true) ∨ ((.readRsp 0 (Tests.pk 0x10 [7]) [] : Instr) = .mcAck (0 : Fin 2) (Tests.pk 0x10 [7] : Packet) ∧ isOp 0x14 (Tests.pk 0x10 [7] : Packet) = true) ∨ ((.readRsp 0 (Tests.pk 0x10 [7]) [] : Instr) = .cktAck (0 : Fin 2) (Tests.pk 0x10 [7] : Packet) ∧ isOp 0x15 (Tests.pk 0x10 [7] : Packet) = true) ∨
        ((.readRsp 0 (Tests.pk 0x10 [7]) [] : Instr) = .guestRsp (0 : Fin 2) (Tests.pk 0x10 [7] : Packet) (0 : Nat) ∧ isOp 0x16 (Tests.pk 0x10 [7] : Packet) = true))) ∧ ((Tests.up) = (Tests.up).findErrs ([] : LineErrs)) ∧ (((Tests.up).jobTag = 0 ∨ (Tests.pk 0x10 [7] : Packet).jobTag ≠ (Tests.up).jobTag)) := by decide +kernel

theorem test_meets_RepliesDelivered_2 :
    (((.atomicRsp 0 (Tests.pk 0x11 (leBytes 8 7)) : Instr) = .readRsp (0 : Fin 2) (Tests.pk 0x11 (leBytes 8 7) : Packet) ([] : LineErrs) ∧ isOp 0x10 (Tests.pk 0x11 (leBytes 8 7) : Packet) = true) ∨ ([] : LineErrs) = [] ∧ (((.atomicRsp 0 (Tests.pk 0x11 (leBytes 8 7)) : Instr) = .atomicRsp (0 : Fin 2) (Tests.pk 0x11 (leBytes 8 7) : Packet) ∧ isOp 0x11 (Tests.pk 0x11 (leBytes 8 7) : Packet) = true) ∨ ((.atomicRsp 0 (Tests.pk 0x11 (leBytes 8 7)) : Instr) = .ack (0 : Fin 2) (Tests.pk 0x11 (leBytes 8 7) : Packet) ∧ isOp 0x12 (Tests.pk 0x11 (leBytes 8 7) : Packet) = true) ∨
        ((.atomicRsp 0 (Tests.pk 0x11 (leBytes 8 7)) : Instr) = .reject (0 : Fin 2) (Tests.pk 0x11 (leBytes 8 7) : Packet) ∧ isOp 0x13 (Tests.pk 0x11 (leBytes 8 7) : Packet) = true) ∨ ((.atomicRsp 0 (Tests.pk 0x11 (leBytes 8 7)) : Instr) = .mcAck (0 : Fin 2) (Tests.pk 0x11 (leBytes 8 7) : Packet) ∧ isOp 0x14 (Tests.pk 0x11 (leBytes 8 7) : Packet) = true) ∨ ((.atomicRsp 0 (Tests.pk 0x11 (leBytes 8 7)) : Instr) = .cktAck (0 : Fin 2) (Tests.pk 0x11 (leBytes 8 7) : Packet) ∧ isOp 0x15 (Tests.pk 0x11 (leBytes 8 7) : Packet) = true) ∨
        ((.atomicRsp 0 (Tests.pk 0x11 (leBytes 8 7)) : Instr) = .guestRsp (0 : Fin 2) (Tests.pk 0x11 (leBytes 8 7) : Packet) (0 : Nat) ∧ isOp 0x16 (Tests.pk 0x11 (leBytes 8 7) : Packet) = true))) ∧ ((Tests.up) = (Tests.up).findErrs ([] : LineErrs)) ∧ (((Tests.up).jobTag = 0 ∨ (Tests.pk 0x11 (leBytes 8 7) : Packet).jobTag ≠ (Tests.up).jobTag)) := by decide +kernel

theorem test_meets_RepliesDelivered_3 :
    (((.ack 0 (Tests.pk 0x12 (List.replicate 48 0)) : Instr) = .readRsp (0 : Fin 2) (Tests.pk 0x12 (List.replicate 48 0) : Packet) ([] : LineErrs) ∧ isOp 0x10 (Tests.pk 0x12 (List.replicate 48 0) : Packet) = true) ∨ ([] : LineErrs) = [] ∧ (((.ack 0 (Tests.pk 0x12 (List.replicate 48 0)) : Instr) = .atomicRsp (0 : Fin 2) (Tests.pk 0x12 (List.replicate 48 0) : Packet) ∧ isOp 0x11 (Tests.pk 0x12 (List.replicate 48 0) : Packet) = true) ∨ ((.ack 0 (Tests.pk 0x12 (List.replicate 48 0)) : Instr) = .ack (0 : Fin 2) (Tests.pk 0x12 (List.replicate 48 0) : Packet) ∧ isOp 0x12 (Tests.pk 0x12 (List.replicate 48 0) : Packet) = true) ∨
        ((.ack 0 (Tests.pk 0x12 (List.replicate 48 0)) : Instr) = .reject (0 : Fin 2) (Tests.pk 0x12 (List.replicate 48 0) : Packet) ∧ isOp 0x13 (Tests.pk 0x12 (List.replicate 48 0) : Packet) = true) ∨ ((.ack 0 (Tests.pk 0x12 (List.replicate 48 0)) : Instr) = .mcAck (0 : Fin 2) (Tests.pk 0x12 (List.replicate 48 0) : Packet) ∧ isOp 0x14 (Tests.pk 0x12 (List.replicate 48 0) : Packet) = true) ∨ ((.ack 0 (Tests.pk 0x12 (List.replicate 48 0)) : Instr) = .cktAck (0 : Fin 2) (Tests.pk 0x12 (List.replicate 48 0) : Packet) ∧ isOp 0x15 (Tests.pk 0x12 (List.replicate 48 0) : Packet) = true) ∨
        ((.ack 0 (Tests.pk 0x12 (List.replicate 48 0)) : Instr) = .guestRsp (0 : Fin 2) (Tests.pk 0x12 (List.replicate 48 0) : Packet) (0 : Nat) ∧ isOp 0x16 (Tests.pk 0x12 (List.replicate 48 0) : Packet) = true))) ∧ ((Tests.up) = (Tests.up).findErrs ([] : LineErrs)) ∧ (((Tests.up).jobTag = 0 ∨ (Tests.pk 0x12 (List.replicate 48 0) : Packet).jobTag ≠ (Tests.up).jobTag)) := by decide +kernel

theorem test_meets_RepliesDelivered_4 :
    (((.reject 0 (Tests.pk 0x13 []) : Instr) = .readRsp (0 : Fin 2) (Tests.pk 0x13 [] : Packet) ([] : LineErrs) ∧ isOp 0x10 (Tests.pk 0x13 [] : Packet) = true) ∨ ([] : LineErrs) = [] ∧ (((.reject 0 (Tests.pk 0x13 []) : Instr) = .atomicRsp (0 : Fin 2) (Tests.pk 0x13 [] : Packet) ∧ isOp 0x11 (Tests.pk 0x13 [] : Packet) = true) ∨ ((.reject 0 (Tests.pk 0x13 []) : Instr) = .ack (0 : Fin 2) (Tests.pk 0x13 [] : Packet) ∧ isOp 0x12 (Tests.pk 0x13 [] : Packet) = true) ∨
        ((.reject 0 (Tests.pk 0x13 []) : Instr) = .reject (0 : Fin 2) (Tests.pk 0x13 [] : Packet) ∧ isOp 0x13 (Tests.pk 0x13 [] : Packet) = true) ∨ ((.reject 0 (Tests.pk 0x13 []) : Instr) = .mcAck (0 : Fin 2) (Tests.pk 0x13 [] : Packet) ∧ isOp 0x14 (Tests.pk 0x13 [] : Packet) = true) ∨ ((.reject 0 (Tests.pk 0x13 []) : Instr) = .cktAck (0 : Fin 2) (Tests.pk 0x13 [] : Packet) ∧ isOp 0x15 (Tests.pk 0x13 [] : Packet) = true) ∨
        ((.reject 0 (Tests.pk 0x13 []) : Instr) = .guestRsp (0 : Fin 2) (Tests.pk 0x13 [] : Packet) (0 : Nat) ∧ isOp 0x16 (Tests.pk 0x13 [] : Packet) = true))) ∧ ((Tests.up) = (Tests.up).findErrs ([] : LineErrs)) ∧ (((Tests.up).jobTag = 0 ∨ (Tests.pk 0x13 [] : Packet).jobTag ≠ (Tests.up).jobTag)) := by decide +kernel

theorem test_meets_RepliesDelivered_5 :
    (((.mcAck 0 (Tests.pk 0x14 []) : Instr) = .readRsp (0 : Fin 2) (Tests.pk 0x14 [] : Packet) ([] : LineErrs) ∧ isOp 0x10 (Tests.pk 0x14 [] : Packet) = true) ∨ ([] : LineErrs) = [] ∧ (((.mcAck 0 (Tests.pk 0x14 []) : Instr) = .atomicRsp (0 : Fin 2) (Tests.pk 0x14 [] : Packet) ∧ isOp 0x11 (Tests.pk 0x14 [] : Packet) = true) ∨ ((.mcAck 0 (Tests.pk 0x14 []) : Instr) = .ack (0 : Fin 2) (Tests.pk 0x14 [] : Packet) ∧ isOp 0x12 (Tests.pk 0x14 [] : Packet) = true) ∨
        ((.mcAck 0 (Tests.pk 0x14 []) : Instr) = .reject (0 : Fin 2) (Tests.pk 0x14 [] : Packet) ∧ isOp 0x13 (Tests.pk 0x14 [] : Packet) = true) ∨ ((.mcAck 0 (Tests.pk 0x14 []) : Instr) = .mcAck (0 : Fin 2) (Tests.pk 0x14 [] : Packet) ∧ isOp 0x14 (Tests.pk 0x14 [] : Packet) = true) ∨ ((.mcAck 0 (Tests.pk 0x14 []) : Instr) = .cktAck (0 : Fin 2) (Tests.pk 0x14 [] : Packet) ∧ isOp 0x15 (Tests.pk 0x14 [] : Packet) = true) ∨
        ((.mcAck 0 (Tests.pk 0x14 []) : Instr) = .guestRsp (0 : Fin 2) (Tests.pk 0x14 [] : Packet) (0 : Nat) ∧ isOp 0x16 (Tests.pk 0x14 [] : Packet) = true))) ∧ ((Tests.up) = (Tests.up).findErrs ([] : LineErrs)) ∧ (((Tests.up).jobTag = 0 ∨ (Tests.pk 0x14 [] : Packet).jobTag ≠ (Tests.up).jobTag)) := by decide +kernel

theorem test_meets_RepliesDelivered_6 :
    (((.cktAck 0 (Tests.pk 0x15 (List.replicate 16 0)) : Instr) = .readRsp (0 : Fin 2) (Tests.pk 0x15 (List.replicate 16 0) : Packet) ([] : LineErrs) ∧ isOp 0x10 (Tests.pk 0x15 (List.replicate 16 0) : Packet) = true) ∨ ([] : LineErrs) = [] ∧ (((.cktAck 0 (Tests.pk 0x15 (List.replicate 16 0)) : Instr) = .atomicRsp (0 : Fin 2) (Tests.pk 0x15 (List.replicate 16 0) : Packet) ∧ isOp 0x11 (Tests.pk 0x15 (List.replicate 16 0) : Packet) = true) ∨ ((.cktAck 0 (Tests.pk 0x15 (List.replicate 16 0)) : Instr) = .ack (0 : Fin 2) (Tests.pk 0x15 (List.replicate 16 0) : Packet) ∧ isOp 0x12 (Tests.pk 0x15 (List.replicate 16 0) : Packet) = true) ∨
        ((.cktAck 0 (Tests.pk 0x15 (List.replicate 16 0)) : Instr) = .reject (0 : Fin 2) (Tests.pk 0x15 (List.replicate 16 0) : Packet) ∧ isOp 0x13 (Tests.pk 0x15 (List.replicate 16 0) : Packet) = true) ∨ ((.cktAck 0 (Tests.pk 0x15 (List.replicate 16 0)) : Instr) = .mcAck (0 : Fin 2) (Tests.pk 0x15 (List.replicate 16 0) : Packet) ∧ isOp 0x14 (Tests.pk 0x15 (List.replicate 16 0) : Packet) = true) ∨ ((.cktAck 0 (Tests.pk 0x15 (List.replicate 16 0)) : Instr) = .cktAck (0 : Fin 2) (Tests.pk 0x15 (List.replicate 16 0) : Packet) ∧ isOp 0x15 (Tests.pk 0x15 (List.replicate 16 0) : Packet) = true) ∨
        ((.cktAck 0 (Tests.pk 0x15 (List.replicate 16 0)) : Instr) = .guestRsp (0 : Fin 2) (Tests.pk 0x15 (List.replicate 16 0) : Packet) (0 : Nat) ∧ isOp 0x16 (Tests.pk 0x15 (List.replicate 16 0) : Packet) = true))) ∧ ((Tests.up) = (Tests.up).findErrs ([] : LineErrs)) ∧ (((Tests.up).jobTag = 0 ∨ (Tests.pk 0x15 (List.replicate 16 0) : Packet).jobTag ≠ (Tests.up).jobTag)) := by decide +kernel

theorem test_meets_RepliesDelivered_7 :
    (((.guestRsp 0 (Tests.pk 0x16 []) 0 : Instr) = .readRsp (0 : Fin 2) (Tests.pk 0x16 [] : Packet) ([] : LineErrs) ∧ isOp 0x10 (Tests.pk 0x16 [] : Packet) = true) ∨ ([] : LineErrs) = [] ∧ (((.guestRsp 0 (Tests.pk 0x16 []) 0 : Instr) = .atomicRsp (0 : Fin 2) (Tests.pk 0x16 [] : Packet) ∧ isOp 0x11 (Tests.pk 0x16 [] : Packet) = true) ∨ ((.guestRsp 0 (Tests.pk 0x16 []) 0 : Instr) = .ack (0 : Fin 2) (Tests.pk 0x16 [] : Packet) ∧ isOp 0x12 (Tests.pk 0x16 [] : Packet) = true) ∨
        ((.guestRsp 0 (Tests.pk 0x16 []) 0 : Instr) = .reject (0 : Fin 2) (Tests.pk 0x16 [] : Packet) ∧ isOp 0x13 (Tests.pk 0x16 [] : Packet) = true) ∨ ((.guestRsp 0 (Tests.pk 0x16 []) 0 : Instr) = .mcAck (0 : Fin 2) (Tests.pk 0x16 [] : Packet) ∧ isOp 0x14 (Tests.pk 0x16 [] : Packet) = true) ∨ ((.guestRsp 0 (Tests.pk 0x16 []) 0 : Instr) = .cktAck (0 : Fin 2) (Tests.pk 0x16 [] : Packet) ∧ isOp 0x15 (Tests.pk 0x16 [] : Packet) = true) ∨
        ((.guestRsp 0 (Tests.pk 0x16 []) 0 : Instr) = .guestRsp (0 : Fin 2) (Tests.pk 0x16 [] : Packet) (0 : Nat) ∧ isOp 0x16 (Tests.pk 0x16 [] : Packet) = true))) ∧ ((Tests.up) = (Tests.up).findErrs ([] : LineErrs)) ∧ (((Tests.up).jobTag = 0 ∨ (Tests.pk 0x16 [] : Packet).jobTag ≠ (Tests.up).jobTag)) := by decide +kernel

theorem test_meets_RepliesDelivered_8 :
    ((Tests.pk 0x12 (List.replicate 48 0) : Packet).op = 0x12) ∧ (payOk 0x12 (Tests.pk 0x12 (List.replicate 48 0) : Packet).payload.length = true) ∧ ((Tests.flowS (Tests.flow 1)).jobTag ≠ 0) ∧ ((Tests.pk 0x12 (List.replicate 48 0) : Packet).jobTag = (Tests.flowS (Tests.flow 1)).jobTag) ∧ (((Tests.flowS (Tests.flow 1)).flow (Tests.pk 0x12 (List.replicate 48 0) : Packet).ctx).expects (Tests.pk 0x12 (List.replicate 48 0) : Packet).srcFid = true) ∧
    (((Tests.flowS (Tests.flow 1)).findErrs ([] : LineErrs)) = (Tests.flowS (Tests.flow 1)).findErrs ([] : LineErrs)) ∧ ((Tests.pk 0x10 [7] : Packet).op = 0x10) ∧ (payOk 0x10 (Tests.pk 0x10 [7] : Packet).payload.length = true) ∧ (((Tests.flowS (Tests.flow 1)).findErrs ([] : LineErrs)).jobTag ≠ 0) ∧ ((Tests.pk 0x10 [7] : Packet).jobTag = ((Tests.flowS (Tests.flow 1)).findErrs ([] : LineErrs)).jobTag) ∧ ((((Tests.flowS (Tests.flow 1)).findErrs ([] : LineErrs)).flow (Tests.pk 0x10 [7] : Packet).ctx).expects (Tests.pk 0x10 [7] : Packet).srcFid = true) ∧ ((((Tests.flowS (Tests.flow 1)).findErrs ([] : LineErrs)).flow (Tests.pk 0x10 [7] : Packet).ctx).kind ≠ 3) := by decide +kernel

theorem test_meets_RepliesDelivered_9 :
    ((Tests.pk 0x11 (leBytes 8 7) : Packet).op = 0x11) ∧ (payOk 0x11 (Tests.pk 0x11 (leBytes 8 7) : Packet).payload.length = true) ∧ ((Tests.flowS (Tests.flow 1)).jobTag ≠ 0) ∧ ((Tests.pk 0x11 (leBytes 8 7) : Packet).jobTag = (Tests.flowS (Tests.flow 1)).jobTag) ∧ (((Tests.flowS (Tests.flow 1)).flow (Tests.pk 0x11 (leBytes 8 7) : Packet).ctx).expects (Tests.pk 0x11 (leBytes 8 7) : Packet).srcFid = true) ∧ (((Tests.flowS (Tests.flow 1)).flow (Tests.pk 0x11 (leBytes 8 7) : Packet).ctx).kind ≠ 3) ∧
    ((Tests.pk 0x16 [] : Packet).op = 0x16) ∧ (payOk 0x16 (Tests.pk 0x16 [] : Packet).payload.length = true) ∧ ((Tests.flowS (Tests.flow 1)).jobTag ≠ 0) ∧ ((Tests.pk 0x16 [] : Packet).jobTag = (Tests.flowS (Tests.flow 1)).jobTag) ∧ (((Tests.flowS (Tests.flow 1)).flow (Tests.pk 0x16 [] : Packet).ctx).expects (Tests.pk 0x16 [] : Packet).srcFid = true) ∧ (((Tests.flowS (Tests.flow 1)).flow (Tests.pk 0x16 [] : Packet).ctx).kind ≠ 3) := by decide +kernel

theorem test_meets_RepliesDelivered_10 :
    ((Tests.pk 0x14 [] : Packet).op = 0x14) ∧ (payOk 0x14 (Tests.pk 0x14 [] : Packet).payload.length = true) ∧ ((Tests.flowS (Tests.flow 1)).jobTag ≠ 0) ∧ ((Tests.pk 0x14 [] : Packet).jobTag = (Tests.flowS (Tests.flow 1)).jobTag) ∧
    ((Tests.pk 0x15 (List.replicate 16 0) : Packet).op = 0x15) ∧ (payOk 0x15 (Tests.pk 0x15 (List.replicate 16 0) : Packet).payload.length = true) ∧ ((Tests.flowS (Tests.flow 1)).jobTag ≠ 0) ∧ ((Tests.pk 0x15 (List.replicate 16 0) : Packet).jobTag = (Tests.flowS (Tests.flow 1)).jobTag) ∧
    ((Tests.pk 0x13 [] : Packet).op = 0x13) ∧ ((Tests.pk 0x13 [] : Packet).payload = []) ∧ ((Tests.flowS { Tests.flow 1 with out := [⟨Tests.pk 1 [7], 0, .frag⟩] } : State).jobTag ≠ 0) ∧ ((Tests.pk 0x13 [] : Packet).jobTag = (Tests.flowS { Tests.flow 1 with out := [⟨Tests.pk 1 [7], 0, .frag⟩] } : State).jobTag) ∧ ((Tests.flowS { Tests.flow 1 with out := [⟨Tests.pk 1 [7], 0, .frag⟩] } : State).covered (0 : Fin 2) (Tests.pk 0x13 [] : Packet) = some (.flow (5 : Nat) (⟨Tests.pk 1 [7], 0, .frag⟩ : SentPkt))) := by decide +kernel

theorem test_meets_RepliesDelivered_11 :
    ((Tests.pk 0x13 [] : Packet).op = 0x13) ∧ ((Tests.pk 0x13 [] : Packet).payload = []) ∧ (((Tests.cktS (1 + 2 * 1 + 9 * 2 ^ 32)).setCkt 5 { Ckt.init with out := [⟨Tests.pk 8 [7], 0, .frag⟩] } : State).jobTag ≠ 0) ∧ ((Tests.pk 0x13 [] : Packet).jobTag = ((Tests.cktS (1 + 2 * 1 + 9 * 2 ^ 32)).setCkt 5 { Ckt.init with out := [⟨Tests.pk 8 [7], 0, .frag⟩] } : State).jobTag) ∧ (((Tests.cktS (1 + 2 * 1 + 9 * 2 ^ 32)).setCkt 5 { Ckt.init with out := [⟨Tests.pk 8 [7], 0, .frag⟩] } : State).covered (0 : Fin 2) (Tests.pk 0x13 [] : Packet) = some (.ckt (5 : Nat) (⟨Tests.pk 8 [7], 0, .frag⟩ : SentPkt))) ∧
    ((Tests.pk 0x13 [] : Packet).op = 0x13) ∧ ((Tests.pk 0x13 [] : Packet).payload = []) ∧ ((Tests.flowS (Tests.flow 1)).jobTag ≠ 0) ∧ ((Tests.pk 0x13 [] : Packet).jobTag = (Tests.flowS (Tests.flow 1)).jobTag) ∧ ((Tests.flowS (Tests.flow 1)).covered (0 : Fin 2) (Tests.pk 0x13 [] : Packet) = none) := by decide +kernel

theorem test_meets_RepliesDelivered_12 :
    (((.readRsp 0 (Tests.pk 0x10 [7]) [] : Instr) = .readRsp (0 : Fin 2) (Tests.pk 0x10 [7] : Packet) ([] : LineErrs) ∧ isOp 0x10 (Tests.pk 0x10 [7] : Packet) = true) ∨ ([] : LineErrs) = [] ∧ (((.readRsp 0 (Tests.pk 0x10 [7]) [] : Instr) = .atomicRsp (0 : Fin 2) (Tests.pk 0x10 [7] : Packet) ∧ isOp 0x11 (Tests.pk 0x10 [7] : Packet) = true) ∨ ((.readRsp 0 (Tests.pk 0x10 [7]) [] : Instr) = .ack (0 : Fin 2) (Tests.pk 0x10 [7] : Packet) ∧ isOp 0x12 (Tests.pk 0x10 [7] : Packet) = true) ∨
        ((.readRsp 0 (Tests.pk 0x10 [7]) [] : Instr) = .guestRsp (0 : Fin 2) (Tests.pk 0x10 [7] : Packet) (0 : Nat) ∧ isOp 0x16 (Tests.pk 0x10 [7] : Packet) = true))) ∧ ((Tests.flowS (Tests.flow 2)) = (Tests.flowS (Tests.flow 2)).findErrs ([] : LineErrs)) ∧ ((Tests.flowS (Tests.flow 2)).jobTag ≠ 0) ∧ ((Tests.pk 0x10 [7] : Packet).jobTag = (Tests.flowS (Tests.flow 2)).jobTag) ∧ (((Tests.flowS (Tests.flow 2)).flow (Tests.pk 0x10 [7] : Packet).ctx).expects (Tests.pk 0x10 [7] : Packet).srcFid = false ∨ (((Tests.flowS (Tests.flow 2)).flow (Tests.pk 0x10 [7] : Packet).ctx).kind = 3 ∧ (Tests.pk 0x10 [7] : Packet).op ≠ 0x12)) := by decide +kernel

theorem test_meets_RepliesDelivered_13 :
    (((.atomicRsp 0 (Tests.pk 0x11 (leBytes 8 7)) : Instr) = .readRsp (0 : Fin 2) (Tests.pk 0x11 (leBytes 8 7) : Packet) ([] : LineErrs) ∧ isOp 0x10 (Tests.pk 0x11 (leBytes 8 7) : Packet) = true) ∨ ([] : LineErrs) = [] ∧ (((.atomicRsp 0 (Tests.pk 0x11 (leBytes 8 7)) : Instr) = .atomicRsp (0 : Fin 2) (Tests.pk 0x11 (leBytes 8 7) : Packet) ∧ isOp 0x11 (Tests.pk 0x11 (leBytes 8 7) : Packet) = true) ∨ ((.atomicRsp 0 (Tests.pk 0x11 (leBytes 8 7)) : Instr) = .ack (0 : Fin 2) (Tests.pk 0x11 (leBytes 8 7) : Packet) ∧ isOp 0x12 (Tests.pk 0x11 (leBytes 8 7) : Packet) = true) ∨
        ((.atomicRsp 0 (Tests.pk 0x11 (leBytes 8 7)) : Instr) = .guestRsp (0 : Fin 2) (Tests.pk 0x11 (leBytes 8 7) : Packet) (0 : Nat) ∧ isOp 0x16 (Tests.pk 0x11 (leBytes 8 7) : Packet) = true))) ∧ ((Tests.flowS (Tests.flow 2)) = (Tests.flowS (Tests.flow 2)).findErrs ([] : LineErrs)) ∧ ((Tests.flowS (Tests.flow 2)).jobTag ≠ 0) ∧ ((Tests.pk 0x11 (leBytes 8 7) : Packet).jobTag = (Tests.flowS (Tests.flow 2)).jobTag) ∧ (((Tests.flowS (Tests.flow 2)).flow (Tests.pk 0x11 (leBytes 8 7) : Packet).ctx).expects (Tests.pk 0x11 (leBytes 8 7) : Packet).srcFid = false ∨ (((Tests.flowS (Tests.flow 2)).flow (Tests.pk 0x11 (leBytes 8 7) : Packet).ctx).kind = 3 ∧ (Tests.pk 0x11 (leBytes 8 7) : Packet).op ≠ 0x12)) := by decide +kernel

theorem test_meets_RepliesDelivered_14 :
    (((.ack 0 (Tests.pk 0x12 (List.replicate 48 0)) : Instr) = .readRsp (0 : Fin 2) (Tests.pk 0x12 (List.replicate 48 0) : Packet) ([] : LineErrs) ∧ isOp 0x10 (Tests.pk 0x12 (List.replicate 48 0) : Packet) = true) ∨ ([] : LineErrs) = [] ∧ (((.ack 0 (Tests.pk 0x12 (List.replicate 48 0)) : Instr) = .atomicRsp (0 : Fin 2) (Tests.pk 0x12 (List.replicate 48 0) : Packet) ∧ isOp 0x11 (Tests.pk 0x12 (List.replicate 48 0) : Packet) = true) ∨ ((.ack 0 (Tests.pk 0x12 (List.replicate 48 0)) : Instr) = .ack (0 : Fin 2) (Tests.pk 0x12 (List.replicate 48 0) : Packet) ∧ isOp 0x12 (Tests.pk 0x12 (List.replicate 48 0) : Packet) = true) ∨
        ((.ack 0 (Tests.pk 0x12 (List.replicate 48 0)) : Instr) = .guestRsp (0 : Fin 2) (Tests.pk 0x12 (List.replicate 48 0) : Packet) (0 : Nat) ∧ isOp 0x16 (Tests.pk 0x12 (List.replicate 48 0) : Packet) = true))) ∧ ((Tests.flowS (Tests.flow 2)) = (Tests.flowS (Tests.flow 2)).findErrs ([] : LineErrs)) ∧ ((Tests.flowS (Tests.flow 2)).jobTag ≠ 0) ∧ ((Tests.pk 0x12 (List.replicate 48 0) : Packet).jobTag = (Tests.flowS (Tests.flow 2)).jobTag) ∧ (((Tests.flowS (Tests.flow 2)).flow (Tests.pk 0x12 (List.replicate 48 0) : Packet).ctx).expects (Tests.pk 0x12 (List.replicate 48 0) : Packet).srcFid = false ∨ (((Tests.flowS (Tests.flow 2)).flow (Tests.pk 0x12 (List.replicate 48 0) : Packet).ctx).kind = 3 ∧ (Tests.pk 0x12 (List.replicate 48 0) : Packet).op ≠ 0x12)) := by decide +kernel

theorem test_meets_RepliesDelivered_15 :
    (((.guestRsp 0 (Tests.pk 0x16 []) 0 : Instr) = .readRsp (0 : Fin 2) (Tests.pk 0x16 [] : Packet) ([] : LineErrs) ∧ isOp 0x10 (Tests.pk 0x16 [] : Packet) = true) ∨ ([] : LineErrs) = [] ∧ (((.guestRsp 0 (Tests.pk 0x16 []) 0 : Instr) = .atomicRsp (0 : Fin 2) (Tests.pk 0x16 [] : Packet) ∧ isOp 0x11 (Tests.pk 0x16 [] : Packet) = true) ∨ ((.guestRsp 0 (Tests.pk 0x16 []) 0 : Instr) = .ack (0 : Fin 2) (Tests.pk 0x16 [] : Packet) ∧ isOp 0x12 (Tests.pk 0x16 [] : Packet) = true) ∨
        ((.guestRsp 0 (Tests.pk 0x16 []) 0 : Instr) = .guestRsp (0 : Fin 2) (Tests.pk 0x16 [] : Packet) (0 : Nat) ∧ isOp 0x16 (Tests.pk 0x16 [] : Packet) = true))) ∧ ((Tests.flowS (Tests.flow 2)) = (Tests.flowS (Tests.flow 2)).findErrs ([] : LineErrs)) ∧ ((Tests.flowS (Tests.flow 2)).jobTag ≠ 0) ∧ ((Tests.pk 0x16 [] : Packet).jobTag = (Tests.flowS (Tests.flow 2)).jobTag) ∧ (((Tests.flowS (Tests.flow 2)).flow (Tests.pk 0x16 [] : Packet).ctx).expects (Tests.pk 0x16 [] : Packet).srcFid = false ∨ (((Tests.flowS (Tests.flow 2)).flow (Tests.pk 0x16 [] : Packet).ctx).kind = 3 ∧ (Tests.pk 0x16 [] : Packet).op ≠ 0x12)) := by decide +kernel

theorem test_meets_CircuitAndMulticastPackets_1 :
    (((.cktWrite 3 (Tests.pk 0x08 [7]) [] : Instr) = .cktWrite (3 : Fin 16) (Tests.pk 0x08 [7] : Packet) ([] : LineErrs) ∧ isOp 0x08 (Tests.pk 0x08 [7] : Packet) = true) ∨ ((.cktWrite 3 (Tests.pk 0x08 [7]) [] : Instr) = .cktHalo (3 : Fin 16) (Tests.pk 0x08 [7] : Packet) ∧ ([] : LineErrs) = [] ∧ isOp 0x09 (Tests.pk 0x08 [7] : Packet) = true)) ∧ (cktValid ((Tests.up).cktEntry (portHub (3 : Fin 16)) ((Tests.pk 0x08 [7] : Packet).ctx % 1024)) = false ∨ cktRole ((Tests.up).cktEntry (portHub (3 : Fin 16)) ((Tests.pk 0x08 [7] : Packet).ctx % 1024)) ≠ 3 ∨ cktIn ((Tests.up).cktEntry (portHub (3 : Fin 16)) ((Tests.pk 0x08 [7] : Packet).ctx % 1024)) ≠ (3 : Fin 16).val ∨ (Tests.pk 0x08 [7] : Packet).jobTag ≠ (Tests.up).jobTag) ∧
    (((.cktHalo 3 (Tests.pk 0x09 [7]) : Instr) = .cktWrite (3 : Fin 16) (Tests.pk 0x09 [7] : Packet) ([] : LineErrs) ∧ isOp 0x08 (Tests.pk 0x09 [7] : Packet) = true) ∨ ((.cktHalo 3 (Tests.pk 0x09 [7]) : Instr) = .cktHalo (3 : Fin 16) (Tests.pk 0x09 [7] : Packet) ∧ ([] : LineErrs) = [] ∧ isOp 0x09 (Tests.pk 0x09 [7] : Packet) = true)) ∧ (cktValid ((Tests.up).cktEntry (portHub (3 : Fin 16)) ((Tests.pk 0x09 [7] : Packet).ctx % 1024)) = false ∨ cktRole ((Tests.up).cktEntry (portHub (3 : Fin 16)) ((Tests.pk 0x09 [7] : Packet).ctx % 1024)) ≠ 3 ∨ cktIn ((Tests.up).cktEntry (portHub (3 : Fin 16)) ((Tests.pk 0x09 [7] : Packet).ctx % 1024)) ≠ (3 : Fin 16).val ∨ (Tests.pk 0x09 [7] : Packet).jobTag ≠ (Tests.up).jobTag) := by decide +kernel

theorem test_meets_CircuitAndMulticastPackets_2 :
    (((.cktWrite 3 (Tests.pk 0x08 [7]) [] : Instr) = .cktWrite (3 : Fin 16) (Tests.pk 0x08 [7] : Packet) ([] : LineErrs) ∧ isOp 0x08 (Tests.pk 0x08 [7] : Packet) = true) ∨ ((.cktWrite 3 (Tests.pk 0x08 [7]) [] : Instr) = .cktHalo (3 : Fin 16) (Tests.pk 0x08 [7] : Packet) ∧ ([] : LineErrs) = [] ∧ isOp 0x09 (Tests.pk 0x08 [7] : Packet) = true)) ∧ (cktValid ((Tests.cktIn { Ckt.init with next := 1 } : State).cktEntry (portHub (3 : Fin 16)) ((Tests.pk 0x08 [7] : Packet).ctx % 1024)) = true) ∧ (cktRole ((Tests.cktIn { Ckt.init with next := 1 } : State).cktEntry (portHub (3 : Fin 16)) ((Tests.pk 0x08 [7] : Packet).ctx % 1024)) = 3) ∧ (cktIn ((Tests.cktIn { Ckt.init with next := 1 } : State).cktEntry (portHub (3 : Fin 16)) ((Tests.pk 0x08 [7] : Packet).ctx % 1024)) = (3 : Fin 16).val) ∧ (cktPeer ((Tests.cktIn { Ckt.init with next := 1 } : State).cktEntry (portHub (3 : Fin 16)) ((Tests.pk 0x08 [7] : Packet).ctx % 1024)) = (Tests.pk 0x08 [7] : Packet).srcFid) ∧ ((Tests.cktIn { Ckt.init with next := 1 } : State).jobTag ≠ 0) ∧ ((Tests.pk 0x08 [7] : Packet).jobTag = (Tests.cktIn { Ckt.init with next := 1 } : State).jobTag) ∧ ((Tests.cktIn { Ckt.init with next := 1 } : State).fenced = false) ∧ (seqBefore (Tests.pk 0x08 [7] : Packet).seq ((Tests.cktIn { Ckt.init with next := 1 } : State).cktSt ((Tests.pk 0x08 [7] : Packet).ctx % 1024)).next = true) := by decide +kernel

theorem test_meets_CircuitAndMulticastPackets_3 :
    (((.cktHalo 3 (Tests.pk 0x09 [7]) : Instr) = .cktWrite (3 : Fin 16) (Tests.pk 0x09 [7] : Packet) ([] : LineErrs) ∧ isOp 0x08 (Tests.pk 0x09 [7] : Packet) = true) ∨ ((.cktHalo 3 (Tests.pk 0x09 [7]) : Instr) = .cktHalo (3 : Fin 16) (Tests.pk 0x09 [7] : Packet) ∧ ([] : LineErrs) = [] ∧ isOp 0x09 (Tests.pk 0x09 [7] : Packet) = true)) ∧ (cktValid ((Tests.cktIn { Ckt.init with next := 1 } : State).cktEntry (portHub (3 : Fin 16)) ((Tests.pk 0x09 [7] : Packet).ctx % 1024)) = true) ∧ (cktRole ((Tests.cktIn { Ckt.init with next := 1 } : State).cktEntry (portHub (3 : Fin 16)) ((Tests.pk 0x09 [7] : Packet).ctx % 1024)) = 3) ∧ (cktIn ((Tests.cktIn { Ckt.init with next := 1 } : State).cktEntry (portHub (3 : Fin 16)) ((Tests.pk 0x09 [7] : Packet).ctx % 1024)) = (3 : Fin 16).val) ∧ (cktPeer ((Tests.cktIn { Ckt.init with next := 1 } : State).cktEntry (portHub (3 : Fin 16)) ((Tests.pk 0x09 [7] : Packet).ctx % 1024)) = (Tests.pk 0x09 [7] : Packet).srcFid) ∧ ((Tests.cktIn { Ckt.init with next := 1 } : State).jobTag ≠ 0) ∧ ((Tests.pk 0x09 [7] : Packet).jobTag = (Tests.cktIn { Ckt.init with next := 1 } : State).jobTag) ∧ ((Tests.cktIn { Ckt.init with next := 1 } : State).fenced = false) ∧ (seqBefore (Tests.pk 0x09 [7] : Packet).seq ((Tests.cktIn { Ckt.init with next := 1 } : State).cktSt ((Tests.pk 0x09 [7] : Packet).ctx % 1024)).next = true) := by decide +kernel

theorem test_meets_CircuitAndMulticastPackets_4 :
    (((.cktWrite 3 ({ Tests.pk 0x08 [7] with seq := 1 }) [] : Instr) = .cktWrite (3 : Fin 16) ({ Tests.pk 0x08 [7] with seq := 1 } : Packet) ([] : LineErrs) ∧ isOp 0x08 ({ Tests.pk 0x08 [7] with seq := 1 } : Packet) = true) ∨ ((.cktWrite 3 ({ Tests.pk 0x08 [7] with seq := 1 }) [] : Instr) = .cktHalo (3 : Fin 16) ({ Tests.pk 0x08 [7] with seq := 1 } : Packet) ∧ ([] : LineErrs) = [] ∧ isOp 0x09 ({ Tests.pk 0x08 [7] with seq := 1 } : Packet) = true)) ∧ (cktValid ((Tests.cktIn Ckt.init).cktEntry (portHub (3 : Fin 16)) (({ Tests.pk 0x08 [7] with seq := 1 } : Packet).ctx % 1024)) = true) ∧ (cktRole ((Tests.cktIn Ckt.init).cktEntry (portHub (3 : Fin 16)) (({ Tests.pk 0x08 [7] with seq := 1 } : Packet).ctx % 1024)) = 3) ∧ (cktIn ((Tests.cktIn Ckt.init).cktEntry (portHub (3 : Fin 16)) (({ Tests.pk 0x08 [7] with seq := 1 } : Packet).ctx % 1024)) = (3 : Fin 16).val) ∧ (cktPeer ((Tests.cktIn Ckt.init).cktEntry (portHub (3 : Fin 16)) (({ Tests.pk 0x08 [7] with seq := 1 } : Packet).ctx % 1024)) = ({ Tests.pk 0x08 [7] with seq := 1 } : Packet).srcFid) ∧ ((Tests.cktIn Ckt.init).jobTag ≠ 0) ∧ (({ Tests.pk 0x08 [7] with seq := 1 } : Packet).jobTag = (Tests.cktIn Ckt.init).jobTag) ∧ ((Tests.cktIn Ckt.init).fenced = false) ∧ (seqBefore ({ Tests.pk 0x08 [7] with seq := 1 } : Packet).seq ((Tests.cktIn Ckt.init).cktSt (({ Tests.pk 0x08 [7] with seq := 1 } : Packet).ctx % 1024)).next = false) ∧ (({ Tests.pk 0x08 [7] with seq := 1 } : Packet).seq ≠ ((Tests.cktIn Ckt.init).cktSt (({ Tests.pk 0x08 [7] with seq := 1 } : Packet).ctx % 1024)).next) := by decide +kernel

theorem test_meets_CircuitAndMulticastPackets_5 :
    (((.cktHalo 3 ({ Tests.pk 0x09 [7] with seq := 1 }) : Instr) = .cktWrite (3 : Fin 16) ({ Tests.pk 0x09 [7] with seq := 1 } : Packet) ([] : LineErrs) ∧ isOp 0x08 ({ Tests.pk 0x09 [7] with seq := 1 } : Packet) = true) ∨ ((.cktHalo 3 ({ Tests.pk 0x09 [7] with seq := 1 }) : Instr) = .cktHalo (3 : Fin 16) ({ Tests.pk 0x09 [7] with seq := 1 } : Packet) ∧ ([] : LineErrs) = [] ∧ isOp 0x09 ({ Tests.pk 0x09 [7] with seq := 1 } : Packet) = true)) ∧ (cktValid ((Tests.cktIn Ckt.init).cktEntry (portHub (3 : Fin 16)) (({ Tests.pk 0x09 [7] with seq := 1 } : Packet).ctx % 1024)) = true) ∧ (cktRole ((Tests.cktIn Ckt.init).cktEntry (portHub (3 : Fin 16)) (({ Tests.pk 0x09 [7] with seq := 1 } : Packet).ctx % 1024)) = 3) ∧ (cktIn ((Tests.cktIn Ckt.init).cktEntry (portHub (3 : Fin 16)) (({ Tests.pk 0x09 [7] with seq := 1 } : Packet).ctx % 1024)) = (3 : Fin 16).val) ∧ (cktPeer ((Tests.cktIn Ckt.init).cktEntry (portHub (3 : Fin 16)) (({ Tests.pk 0x09 [7] with seq := 1 } : Packet).ctx % 1024)) = ({ Tests.pk 0x09 [7] with seq := 1 } : Packet).srcFid) ∧ ((Tests.cktIn Ckt.init).jobTag ≠ 0) ∧ (({ Tests.pk 0x09 [7] with seq := 1 } : Packet).jobTag = (Tests.cktIn Ckt.init).jobTag) ∧ ((Tests.cktIn Ckt.init).fenced = false) ∧ (seqBefore ({ Tests.pk 0x09 [7] with seq := 1 } : Packet).seq ((Tests.cktIn Ckt.init).cktSt (({ Tests.pk 0x09 [7] with seq := 1 } : Packet).ctx % 1024)).next = false) ∧ (({ Tests.pk 0x09 [7] with seq := 1 } : Packet).seq ≠ ((Tests.cktIn Ckt.init).cktSt (({ Tests.pk 0x09 [7] with seq := 1 } : Packet).ctx % 1024)).next) := by decide +kernel

theorem test_meets_CircuitAndMulticastPackets_6 :
    (((.cktWrite 3 (Tests.pk 0x08 [7]) [] : Instr) = .cktWrite (3 : Fin 16) (Tests.pk 0x08 [7] : Packet) ([] : LineErrs) ∧ isOp 0x08 (Tests.pk 0x08 [7] : Packet) = true) ∨ ((.cktWrite 3 (Tests.pk 0x08 [7]) [] : Instr) = .cktHalo (3 : Fin 16) (Tests.pk 0x08 [7] : Packet) ∧ ([] : LineErrs) = [] ∧ isOp 0x09 (Tests.pk 0x08 [7] : Packet) = true)) ∧ (cktValid ((Tests.cktIn Ckt.init).cktEntry (portHub (3 : Fin 16)) ((Tests.pk 0x08 [7] : Packet).ctx % 1024)) = true) ∧ (cktRole ((Tests.cktIn Ckt.init).cktEntry (portHub (3 : Fin 16)) ((Tests.pk 0x08 [7] : Packet).ctx % 1024)) = 3) ∧ (cktIn ((Tests.cktIn Ckt.init).cktEntry (portHub (3 : Fin 16)) ((Tests.pk 0x08 [7] : Packet).ctx % 1024)) = (3 : Fin 16).val) ∧ (cktPeer ((Tests.cktIn Ckt.init).cktEntry (portHub (3 : Fin 16)) ((Tests.pk 0x08 [7] : Packet).ctx % 1024)) = (Tests.pk 0x08 [7] : Packet).srcFid) ∧ ((Tests.cktIn Ckt.init).jobTag ≠ 0) ∧ ((Tests.pk 0x08 [7] : Packet).jobTag = (Tests.cktIn Ckt.init).jobTag) ∧ ((Tests.cktIn Ckt.init).fenced = false) ∧ ((Tests.pk 0x08 [7] : Packet).seq = ((Tests.cktIn Ckt.init).cktSt ((Tests.pk 0x08 [7] : Packet).ctx % 1024)).next) ∧ (fifth ((Tests.cktIn Ckt.init).cktSt ((Tests.pk 0x08 [7] : Packet).ctx % 1024)).openMsgs (Tests.pk 0x08 [7] : Packet) = false) ∧ (breaksBytes ((Tests.cktIn Ckt.init).cktSt ((Tests.pk 0x08 [7] : Packet).ctx % 1024)).openMsgs (Tests.pk 0x08 [7] : Packet) = false) ∧ ((Tests.cktIn { Ckt.init with next := 1, fresh := 1 } : State) = (Tests.cktIn Ckt.init).setCkt ((Tests.pk 0x08 [7] : Packet).ctx % 1024) { (Tests.cktIn Ckt.init).cktSt ((Tests.pk 0x08 [7] : Packet).ctx % 1024) with
      next := (((Tests.cktIn Ckt.init).cktSt ((Tests.pk 0x08 [7] : Packet).ctx % 1024)).next + 1) % 2 ^ 32, gapSent := false, fresh := ((Tests.cktIn Ckt.init).cktSt ((Tests.pk 0x08 [7] : Packet).ctx % 1024)).fresh + 1 }) ∧ ((Tests.cktIn { Ckt.init with next := 1, fresh := 1 } : State).packetOp (portHub (3 : Fin 16)) (Tests.pk 0x08 [7] : Packet) ([] : LineErrs) = ((((Tests.cktIn { Ckt.init with next := 1, fresh := 1 }).packetOp 0 (Tests.pk 0x08 [7]) []).1 : State), 0)) ∧ ((msgTake [] (Tests.pk 0x08 [7]) 0 : MsgStep) = msgTake ((((Tests.cktIn { Ckt.init with next := 1, fresh := 1 }).packetOp 0 (Tests.pk 0x08 [7]) []).1 : State).cktSt ((Tests.pk 0x08 [7] : Packet).ctx % 1024)).openMsgs (Tests.pk 0x08 [7] : Packet) 0) ∧ ((let b := ((Tests.cktIn { Ckt.init with next := 1, fresh := 1 }).packetOp 0 (Tests.pk 0x08 [7]) []).1; b.setCkt 5 { b.cktSt 5 with openMsgs := (msgTake [] (Tests.pk 0x08 [7]) 0).openMsgs } : State) = (((Tests.cktIn { Ckt.init with next := 1, fresh := 1 }).packetOp 0 (Tests.pk 0x08 [7]) []).1 : State).setCkt ((Tests.pk 0x08 [7] : Packet).ctx % 1024) { (((Tests.cktIn { Ckt.init with next := 1, fresh := 1 }).packetOp 0 (Tests.pk 0x08 [7]) []).1 : State).cktSt ((Tests.pk 0x08 [7] : Packet).ctx % 1024) with openMsgs := (msgTake [] (Tests.pk 0x08 [7]) 0 : MsgStep).openMsgs }) := by decide +kernel

theorem test_meets_CircuitAndMulticastPackets_7 :
    (isOp 0x05 ({ Tests.pk 0x05 [7] with hops := 3 } : Packet) = true) ∧ ((Tests.up.setF (.rout 0) Reg.ROUT.ROUTE_CFG_HOP_LIMIT 3).getF (.rout (portHub (2 : Fin 16))) Reg.ROUT.ROUTE_CFG_HOP_LIMIT ≤ ({ Tests.pk 0x05 [7] with hops := 3 } : Packet).hops) ∧
    (isOp 0x05 ({ Tests.pk 0x05 [7] with arg := 8 } : Packet) = true) ∧ (({ Tests.pk 0x05 [7] with arg := 8 } : Packet).hops < (Tests.up.setF (.rout 0) Reg.ROUT.ROUTE_CFG_HOP_LIMIT 12).getF (.rout (portHub (2 : Fin 16))) Reg.ROUT.ROUTE_CFG_HOP_LIMIT) ∧ ((((Tests.up.setF (.rout 0) Reg.ROUT.ROUTE_CFG_HOP_LIMIT 12).link (2 : Fin 16)).pen 0 : Pen) = ((Tests.up.setF (.rout 0) Reg.ROUT.ROUTE_CFG_HOP_LIMIT 12).link (2 : Fin 16)).pen 0) ∧ (((Tests.up.setF (.rout 0) Reg.ROUT.ROUTE_CFG_HOP_LIMIT 12).setLink (2 : Fin 16) (((Tests.up.setF (.rout 0) Reg.ROUT.ROUTE_CFG_HOP_LIMIT 12).link (2 : Fin 16)).setPen 0 { (((Tests.up.setF (.rout 0) Reg.ROUT.ROUTE_CFG_HOP_LIMIT 12).link (2 : Fin 16)).pen 0 : Pen) with pkts := (((Tests.up.setF (.rout 0) Reg.ROUT.ROUTE_CFG_HOP_LIMIT 12).link (2 : Fin 16)).pen 0 : Pen).pkts ++ [({ Tests.pk 0x05 [7] with arg := 8 } : Packet)], used := (((Tests.up.setF (.rout 0) Reg.ROUT.ROUTE_CFG_HOP_LIMIT 12).link (2 : Fin 16)).pen 0 : Pen).used + ({ Tests.pk 0x05 [7] with arg := 8 } : Packet).flits }) : State) = (Tests.up.setF (.rout 0) Reg.ROUT.ROUTE_CFG_HOP_LIMIT 12).setLink (2 : Fin 16) (((Tests.up.setF (.rout 0) Reg.ROUT.ROUTE_CFG_HOP_LIMIT 12).link (2 : Fin 16)).setPen 0 { (((Tests.up.setF (.rout 0) Reg.ROUT.ROUTE_CFG_HOP_LIMIT 12).link (2 : Fin 16)).pen 0 : Pen) with pkts := (((Tests.up.setF (.rout 0) Reg.ROUT.ROUTE_CFG_HOP_LIMIT 12).link (2 : Fin 16)).pen 0 : Pen).pkts ++ [({ Tests.pk 0x05 [7] with arg := 8 } : Packet)], used := (((Tests.up.setF (.rout 0) Reg.ROUT.ROUTE_CFG_HOP_LIMIT 12).link (2 : Fin 16)).pen 0 : Pen).used + ({ Tests.pk 0x05 [7] with arg := 8 } : Packet).flits })) ∧
    ((((Tests.penS {Tests.pk 5 [7] with arg := 8} 0 false).setF (.port 3) Reg.PORT.ADMIT_STATE_STATE 4 : State).mcForward (.port 3 0 : PenSrc) ({ Tests.pk 5 [7] with arg := 8 } : Packet) : State) = ((Tests.penS {Tests.pk 5 [7] with arg := 8} 0 false).setF (.port 3) Reg.PORT.ADMIT_STATE_STATE 4 : State).mcForward (.port 3 0 : PenSrc) ({ Tests.pk 5 [7] with arg := 8 } : Packet)) ∧ (mcLeft ((((Tests.penS {Tests.pk 5 [7] with arg := 8} 0 false).setF (.port 3) Reg.PORT.ADMIT_STATE_STATE 4 : State).mcForward (.port 3 0 : PenSrc) ({ Tests.pk 5 [7] with arg := 8 } : Packet) : State).penAt (.port 3 0 : PenSrc)) ({ Tests.pk 5 [7] with arg := 8 } : Packet) ≠ []) ∧
    ((((Tests.penS {Tests.pk 5 [7] with arg := 0} 0 false).setF (.port 3) Reg.PORT.ADMIT_STATE_STATE 4 : State).mcForward (.port (3 : Fin 16) (0 : Fin 5)) ({ Tests.pk 5 [7] with arg := 0 } : Packet) : State) = ((Tests.penS {Tests.pk 5 [7] with arg := 0} 0 false).setF (.port 3) Reg.PORT.ADMIT_STATE_STATE 4 : State).mcForward (.port (3 : Fin 16) (0 : Fin 5)) ({ Tests.pk 5 [7] with arg := 0 } : Packet)) ∧ (mcLeft ((((Tests.penS {Tests.pk 5 [7] with arg := 0} 0 false).setF (.port 3) Reg.PORT.ADMIT_STATE_STATE 4 : State).mcForward (.port (3 : Fin 16) (0 : Fin 5)) ({ Tests.pk 5 [7] with arg := 0 } : Packet) : State).penAt (.port (3 : Fin 16) (0 : Fin 5))) ({ Tests.pk 5 [7] with arg := 0 } : Packet) = []) ∧ (((((Tests.penS {Tests.pk 5 [7] with arg := 0} 0 false).setF (.port 3) Reg.PORT.ADMIT_STATE_STATE 4 : State).mcForward (.port (3 : Fin 16) (0 : Fin 5)) ({ Tests.pk 5 [7] with arg := 0 } : Packet) : State).popPen (.port (3 : Fin 16) (0 : Fin 5)) : State) = (((Tests.penS {Tests.pk 5 [7] with arg := 0} 0 false).setF (.port 3) Reg.PORT.ADMIT_STATE_STATE 4 : State).mcForward (.port (3 : Fin 16) (0 : Fin 5)) ({ Tests.pk 5 [7] with arg := 0 } : Packet) : State).popPen (.port (3 : Fin 16) (0 : Fin 5))) := by decide +kernel

theorem test_meets_CircuitAndMulticastPackets_8 :
    ((0 : Nat) = (Tests.up).mcEntry (0 : Fin 2) ((Tests.pk 0x05 [7] : Packet).ctx % 4096)) ∧ ((false : Bool) = (mcValid (0 : Nat) && mcMember (0 : Nat) && mcRoot (0 : Nat) == (Tests.pk 0x05 [7] : Packet).srcFid)) ∧ ((false : Bool) = ((Tests.up).jobTag ≠ 0 && (Tests.pk 0x05 [7] : Packet).jobTag == (Tests.up).jobTag)) ∧ ((false : Bool) = false ∨ (false : Bool) = false ∨ (Tests.up).fenced = true) ∧ (((Tests.up) = if (false : Bool) = true ∧ (Tests.up).fenced = false ∧ (false : Bool) = false then (Tests.up).ctxDrop (0 : Fin 2) (Tests.pk 0x05 [7] : Packet) else (Tests.up))) ∧ ((Tests.up).fenced = (Tests.up).fenced) ∧ ((Tests.pk 0x05 [7] : Packet).last = true) := by decide +kernel

theorem test_meets_CircuitAndMulticastPackets_9 :
    ((0 : Nat) = (Tests.up.setF .pkg Reg.PKG.JOB_TAG_TAG 7).mcEntry (0 : Fin 2) ((Tests.pk 0x05 [7] : Packet).ctx % 4096)) ∧ ((false : Bool) = (mcValid (0 : Nat) && mcMember (0 : Nat) && mcRoot (0 : Nat) == (Tests.pk 0x05 [7] : Packet).srcFid)) ∧ ((true : Bool) = ((Tests.up.setF .pkg Reg.PKG.JOB_TAG_TAG 7).jobTag ≠ 0 && (Tests.pk 0x05 [7] : Packet).jobTag == (Tests.up.setF .pkg Reg.PKG.JOB_TAG_TAG 7).jobTag)) ∧ ((false : Bool) = false ∨ (true : Bool) = false ∨ (Tests.up.setF .pkg Reg.PKG.JOB_TAG_TAG 7).fenced = true) ∧ ((((Tests.up.setF .pkg Reg.PKG.JOB_TAG_TAG 7).ctxDrop 0 (Tests.pk 0x05 [7])) = if (true : Bool) = true ∧ (Tests.up.setF .pkg Reg.PKG.JOB_TAG_TAG 7).fenced = false ∧ (false : Bool) = false then (Tests.up.setF .pkg Reg.PKG.JOB_TAG_TAG 7).ctxDrop (0 : Fin 2) (Tests.pk 0x05 [7] : Packet) else (Tests.up.setF .pkg Reg.PKG.JOB_TAG_TAG 7))) ∧ (((Tests.up.setF .pkg Reg.PKG.JOB_TAG_TAG 7).ctxDrop 0 (Tests.pk 0x05 [7])).fenced = (Tests.up.setF .pkg Reg.PKG.JOB_TAG_TAG 7).fenced) ∧ ((Tests.pk 0x05 [7] : Packet).last = true) ∧
    ((0x909 : Nat) = (Tests.mcS).mcEntry (0 : Fin 2) ((Tests.pk 0x05 [7] : Packet).ctx % 4096)) ∧ ((mcValid (0x909 : Nat) && mcMember (0x909 : Nat) && mcRoot (0x909 : Nat) == (Tests.pk 0x05 [7] : Packet).srcFid) = true) ∧ (((Tests.mcS).jobTag ≠ 0 && (Tests.pk 0x05 [7] : Packet).jobTag == (Tests.mcS).jobTag) = true) ∧ ((Tests.mcS).fenced = false) ∧
    (((Tests.mcS.setGroup 5 ⟨[], [(1, 0, 9)]⟩).group ((Tests.pk 0x05 [7] : Packet).ctx % 4096)).completed (Tests.pk 0x05 [7] : Packet) = some ((1, 0, 9) : Nat × Nat × Nat)) := by decide +kernel

theorem test_meets_RepliesComplete_1 :
    (((Tests.flowS { Tests.flow 1 with out := [⟨Tests.pk 0x03 [], 0, .read 0 0 0 1 0 0xB000⟩] } : State).findErrs ([] : LineErrs) : State) = (Tests.flowS { Tests.flow 1 with out := [⟨Tests.pk 0x03 [], 0, .read 0 0 0 1 0 0xB000⟩] } : State).findErrs ([] : LineErrs)) ∧ (isOp 0x10 (Tests.pk 0x10 [7] : Packet) = true) ∧ (((Tests.flowS { Tests.flow 1 with out := [⟨Tests.pk 0x03 [], 0, .read 0 0 0 1 0 0xB000⟩] } : State).findErrs ([] : LineErrs) : State).jobTag ≠ 0) ∧ ((Tests.pk 0x10 [7] : Packet).jobTag = ((Tests.flowS { Tests.flow 1 with out := [⟨Tests.pk 0x03 [], 0, .read 0 0 0 1 0 0xB000⟩] } : State).findErrs ([] : LineErrs) : State).jobTag) ∧ ((((Tests.flowS { Tests.flow 1 with out := [⟨Tests.pk 0x03 [], 0, .read 0 0 0 1 0 0xB000⟩] } : State).findErrs ([] : LineErrs) : State).flow (Tests.pk 0x10 [7] : Packet).ctx).expects (Tests.pk 0x10 [7] : Packet).srcFid = true) ∧ ((((Tests.flowS { Tests.flow 1 with out := [⟨Tests.pk 0x03 [], 0, .read 0 0 0 1 0 0xB000⟩] } : State).findErrs ([] : LineErrs) : State).flow (Tests.pk 0x10 [7] : Packet).ctx).kind ≠ 3) ∧ ((((Tests.flowS { Tests.flow 1 with out := [⟨Tests.pk 0x03 [], 0, .read 0 0 0 1 0 0xB000⟩] } : State).findErrs ([] : LineErrs) : State).flow (Tests.pk 0x10 [7] : Packet).ctx).out.find? (fun y => y.pkt.seq == (Tests.pk 0x10 [7] : Packet).seq && y.pkt.op == 0x03) = some (⟨Tests.pk 0x03 [], 0, .read 0 0 0 1 0 0xB000⟩ : SentPkt)) := by decide +kernel

theorem test_meets_RepliesComplete_2 :
    (isOp 0x11 (Tests.pk 0x11 (leBytes 8 7) : Packet) = true) ∧ ((Tests.flowS { Tests.flow 1 with out := [⟨Tests.pk 0x04 [], 0, .atomic 0 0 0⟩] } : State).jobTag ≠ 0) ∧ ((Tests.pk 0x11 (leBytes 8 7) : Packet).jobTag = (Tests.flowS { Tests.flow 1 with out := [⟨Tests.pk 0x04 [], 0, .atomic 0 0 0⟩] } : State).jobTag) ∧ (((Tests.flowS { Tests.flow 1 with out := [⟨Tests.pk 0x04 [], 0, .atomic 0 0 0⟩] } : State).flow (Tests.pk 0x11 (leBytes 8 7) : Packet).ctx).expects (Tests.pk 0x11 (leBytes 8 7) : Packet).srcFid = true) ∧ (((Tests.flowS { Tests.flow 1 with out := [⟨Tests.pk 0x04 [], 0, .atomic 0 0 0⟩] } : State).flow (Tests.pk 0x11 (leBytes 8 7) : Packet).ctx).kind ≠ 3) ∧ (((Tests.flowS { Tests.flow 1 with out := [⟨Tests.pk 0x04 [], 0, .atomic 0 0 0⟩] } : State).flow (Tests.pk 0x11 (leBytes 8 7) : Packet).ctx).out.find? (fun y => y.pkt.seq == (Tests.pk 0x11 (leBytes 8 7) : Packet).seq && y.pkt.op == 0x04) = some (⟨Tests.pk 0x04 [], 0, .atomic 0 0 0⟩ : SentPkt)) ∧ ((⟨Tests.pk 0x04 [], 0, .atomic 0 0 0⟩ : SentPkt).owner = .atomic (0 : Fin 4) (0 : Fin 104) (0 : Fin 2)) ∧ (((Tests.flowS (Tests.flow 1)) = (Tests.flowS { Tests.flow 1 with out := [⟨Tests.pk 0x04 [], 0, .atomic 0 0 0⟩] } : State).setFlow (Tests.pk 0x11 (leBytes 8 7) : Packet).ctx { (Tests.flowS { Tests.flow 1 with out := [⟨Tests.pk 0x04 [], 0, .atomic 0 0 0⟩] } : State).flow (Tests.pk 0x11 (leBytes 8 7) : Packet).ctx with out := ((Tests.flowS { Tests.flow 1 with out := [⟨Tests.pk 0x04 [], 0, .atomic 0 0 0⟩] } : State).flow (Tests.pk 0x11 (leBytes 8 7) : Packet).ctx).out.filter (fun y => y.pkt.seq ≠ (Tests.pk 0x11 (leBytes 8 7) : Packet).seq) })) := by decide +kernel

theorem test_meets_RepliesComplete_3 :
    (isOp 0x16 (Tests.pk 0x16 [] : Packet) = true) ∧ ((Tests.flowS { Tests.flow 1 with out := [⟨Tests.pk 0x06 [], 0, .guest 1 0⟩] } : State).jobTag ≠ 0) ∧ ((Tests.pk 0x16 [] : Packet).jobTag = (Tests.flowS { Tests.flow 1 with out := [⟨Tests.pk 0x06 [], 0, .guest 1 0⟩] } : State).jobTag) ∧ (((Tests.flowS { Tests.flow 1 with out := [⟨Tests.pk 0x06 [], 0, .guest 1 0⟩] } : State).flow (Tests.pk 0x16 [] : Packet).ctx).expects (Tests.pk 0x16 [] : Packet).srcFid = true) ∧ (((Tests.flowS { Tests.flow 1 with out := [⟨Tests.pk 0x06 [], 0, .guest 1 0⟩] } : State).flow (Tests.pk 0x16 [] : Packet).ctx).kind ≠ 3) ∧ ((((Tests.flowS { Tests.flow 1 with out := [⟨Tests.pk 0x06 [], 0, .guest 1 0⟩] } : State).flow (Tests.pk 0x16 [] : Packet).ctx).out ++ ((Tests.flowS { Tests.flow 1 with out := [⟨Tests.pk 0x06 [], 0, .guest 1 0⟩] } : State).flow (Tests.pk 0x16 [] : Packet).ctx).asks).find? (fun y => y.pkt.seq == (Tests.pk 0x16 [] : Packet).seq && y.pkt.op == 0x06) = some (⟨Tests.pk 0x06 [], 0, .guest 1 0⟩ : SentPkt)) ∧ ((⟨Tests.pk 0x06 [], 0, .guest 1 0⟩ : SentPkt).owner = .guest (1 : Nat) (0 : Nat)) ∧ (((Tests.flowS { Tests.flow 1 with out := [⟨Tests.pk 0x06 [], 0, .frag⟩] } : State) = (Tests.flowS { Tests.flow 1 with out := [⟨Tests.pk 0x06 [], 0, .guest 1 0⟩] } : State).setFlow (Tests.pk 0x16 [] : Packet).ctx { (Tests.flowS { Tests.flow 1 with out := [⟨Tests.pk 0x06 [], 0, .guest 1 0⟩] } : State).flow (Tests.pk 0x16 [] : Packet).ctx with out := ((Tests.flowS { Tests.flow 1 with out := [⟨Tests.pk 0x06 [], 0, .guest 1 0⟩] } : State).flow (Tests.pk 0x16 [] : Packet).ctx).out.map (fun y => if y.pkt.seq = (Tests.pk 0x16 [] : Packet).seq then { y with owner := .frag } else y), asks := ((Tests.flowS { Tests.flow 1 with out := [⟨Tests.pk 0x06 [], 0, .guest 1 0⟩] } : State).flow (Tests.pk 0x16 [] : Packet).ctx).asks.filter (fun y => y.pkt.seq ≠ (Tests.pk 0x16 [] : Packet).seq) })) := by decide +kernel

theorem test_meets_RepliesComplete_4 :
    (isOp 0x13 (Tests.pk 0x13 [] : Packet) = true) ∧ ((Tests.flowS { Tests.flow 1 with out := [⟨Tests.pk 0x01 [], 0, .dm 0 0 0 1⟩] } : State).jobTag ≠ 0) ∧ ((Tests.pk 0x13 [] : Packet).jobTag = (Tests.flowS { Tests.flow 1 with out := [⟨Tests.pk 0x01 [], 0, .dm 0 0 0 1⟩] } : State).jobTag) ∧ ((Tests.flowS { Tests.flow 1 with out := [⟨Tests.pk 0x01 [], 0, .dm 0 0 0 1⟩] } : State).covered (0 : Fin 2) (Tests.pk 0x13 [] : Packet) = some (.flow (5 : Nat) (⟨Tests.pk 0x01 [], 0, .dm 0 0 0 1⟩ : SentPkt))) ∧ ((⟨Tests.pk 0x01 [], 0, .dm 0 0 0 1⟩ : SentPkt).pkt.op ≠ 0x03) ∧ ((⟨Tests.pk 0x01 [], 0, .dm 0 0 0 1⟩ : SentPkt).owner = .dm (0 : Fin 4) (0 : Fin 104) (0 : Fin 2) (1 : Nat) ∨ (⟨Tests.pk 0x01 [], 0, .dm 0 0 0 1⟩ : SentPkt).owner = .frag) ∧ (((Tests.flowS (Tests.flow 1)) = (Tests.flowS { Tests.flow 1 with out := [⟨Tests.pk 0x01 [], 0, .dm 0 0 0 1⟩] } : State).setFlow (5 : Nat) { (Tests.flowS { Tests.flow 1 with out := [⟨Tests.pk 0x01 [], 0, .dm 0 0 0 1⟩] } : State).flow (5 : Nat) with out := ((Tests.flowS { Tests.flow 1 with out := [⟨Tests.pk 0x01 [], 0, .dm 0 0 0 1⟩] } : State).flow (5 : Nat)).out.filter (fun y => y.pkt.seq ≠ (⟨Tests.pk 0x01 [], 0, .dm 0 0 0 1⟩ : SentPkt).pkt.seq) })) ∧
    (isOp 0x13 (Tests.pk 0x13 [] : Packet) = true) ∧ ((Tests.flowS { Tests.flow 1 with out := [⟨Tests.pk 0x01 [], 0, .frag⟩] } : State).jobTag ≠ 0) ∧ ((Tests.pk 0x13 [] : Packet).jobTag = (Tests.flowS { Tests.flow 1 with out := [⟨Tests.pk 0x01 [], 0, .frag⟩] } : State).jobTag) ∧ ((Tests.flowS { Tests.flow 1 with out := [⟨Tests.pk 0x01 [], 0, .frag⟩] } : State).covered (0 : Fin 2) (Tests.pk 0x13 [] : Packet) = some (.flow (5 : Nat) (⟨Tests.pk 0x01 [], 0, .frag⟩ : SentPkt))) ∧ ((⟨Tests.pk 0x01 [], 0, .frag⟩ : SentPkt).pkt.op ≠ 0x03) ∧ ((⟨Tests.pk 0x01 [], 0, .frag⟩ : SentPkt).owner = .dm (0 : Fin 4) (0 : Fin 104) (0 : Fin 2) (1 : Nat) ∨ (⟨Tests.pk 0x01 [], 0, .frag⟩ : SentPkt).owner = .frag) ∧ (((Tests.flowS (Tests.flow 1)) = (Tests.flowS { Tests.flow 1 with out := [⟨Tests.pk 0x01 [], 0, .frag⟩] } : State).setFlow (5 : Nat) { (Tests.flowS { Tests.flow 1 with out := [⟨Tests.pk 0x01 [], 0, .frag⟩] } : State).flow (5 : Nat) with out := ((Tests.flowS { Tests.flow 1 with out := [⟨Tests.pk 0x01 [], 0, .frag⟩] } : State).flow (5 : Nat)).out.filter (fun y => y.pkt.seq ≠ (⟨Tests.pk 0x01 [], 0, .frag⟩ : SentPkt).pkt.seq) })) := by decide +kernel

theorem test_meets_RepliesComplete_5 :
    (isOp 0x14 ({ Tests.pk 0x14 [] with msgId := 0, arg := 0 } : Packet) = true) ∧ ((Tests.flowS { Tests.flow 3 with mcast := [⟨0, .frag, [], 0, [0, 4], 0⟩] } : State).jobTag ≠ 0) ∧ (({ Tests.pk 0x14 [] with msgId := 0, arg := 0 } : Packet).jobTag = (Tests.flowS { Tests.flow 3 with mcast := [⟨0, .frag, [], 0, [0, 4], 0⟩] } : State).jobTag) ∧ (((Tests.flowS { Tests.flow 3 with mcast := [⟨0, .frag, [], 0, [0, 4], 0⟩] } : State).flow ({ Tests.pk 0x14 [] with msgId := 0, arg := 0 } : Packet).ctx).state = 1 ∧ ((Tests.flowS { Tests.flow 3 with mcast := [⟨0, .frag, [], 0, [0, 4], 0⟩] } : State).flow ({ Tests.pk 0x14 [] with msgId := 0, arg := 0 } : Packet).ctx).kind = 3) ∧ (((Tests.flowS { Tests.flow 3 with mcast := [⟨0, .frag, [], 0, [0, 4], 0⟩] } : State).flow ({ Tests.pk 0x14 [] with msgId := 0, arg := 0 } : Packet).ctx).mcast.find? (fun y => y.msgId == ({ Tests.pk 0x14 [] with msgId := 0, arg := 0 } : Packet).msgId) = some (⟨0, .frag, [], 0, [0, 4], 0⟩ : McastMsg)) ∧ ((0 : Nat) = bitsOf ({ Tests.pk 0x14 [] with msgId := 0, arg := 0 } : Packet).arg 15 13) ∧ ((([0] : List Nat) = if (0 : Nat) = 3 then linePositions (bitsOf ({ Tests.pk 0x14 [] with msgId := 0, arg := 0 } : Packet).arg 12 0) (bitsOf ({ Tests.pk 0x14 [] with msgId := 0, arg := 0 } : Packet).arg 28 16) else [bitsOf ({ Tests.pk 0x14 [] with msgId := 0, arg := 0 } : Packet).arg 12 0])) ∧ ((([0] : List Nat) = (⟨0, .frag, [], 0, [0, 4], 0⟩ : McastMsg).left.filter (fun y => ([0] : List Nat).contains y))) ∧ (((⟨0, .frag, [], 0, [4], 0⟩ : McastMsg) = { (⟨0, .frag, [], 0, [0, 4], 0⟩ : McastMsg) with left := (⟨0, .frag, [], 0, [0, 4], 0⟩ : McastMsg).left.filter (fun y => !([0] : List Nat).contains y), fenced := (⟨0, .frag, [], 0, [0, 4], 0⟩ : McastMsg).fenced + (if (0 : Nat) = 2 ∨ (0 : Nat) = 3 then ([0] : List Nat).length else 0) })) := by decide +kernel

theorem test_meets_RepliesComplete_6 :
    (let s := Tests.cktS (1 + 2 * 1 + 9 * 2 ^ 32)
    isOp 0x15 (Tests.pk 0x15 (List.replicate 16 0)) = true ∧ cktValid (s.cktEntry 0 5) = true ∧ cktRole (s.cktEntry 0 5) = 1 ∧ cktPeer (s.cktEntry 0 5) = 9 ∧ s.jobTag = 7) ∧
    (let s := Tests.flowS (Tests.flow 1)
    isOp 0x12 (Tests.pk 0x12 (List.replicate 48 0)) = true ∧ s.jobTag = 7 ∧ (Tests.pk 0x12 []).jobTag = 7 ∧ (s.flow 5).expects 9 = true) := by decide +kernel

theorem test_meets_SyncChannelAndDroveClock_1 :
    ((Tests.syncS Obj.idle LinkSt.init).linkActive (3 : Fin 16) = true) ∧
    ((Tests.syncS Obj.idle { LinkSt.init with sDue := true } : State).linkActive (3 : Fin 16) = true) ∧ (((Tests.syncS Obj.idle { LinkSt.init with sDue := true } : State).link (3 : Fin 16)).sDue = true) ∧ (((Tests.syncS Obj.idle { LinkSt.init with sDue := true } : State).link (3 : Fin 16)).syncQ = []) ∧
    ((Tests.syncS Obj.idle LinkSt.init).linkActive (3 : Fin 16) = true) ∧ (((Tests.syncS Obj.idle LinkSt.init).syncAcked 3 ⟨0, 0, false⟩) = (Tests.syncS Obj.idle LinkSt.init).syncAcked (3 : Fin 16) (⟨0, 0, false⟩ : SHdr)) ∧
    ((Tests.syncS Obj.idle LinkSt.init).linkActive (3 : Fin 16) = true) ∧ (((Tests.syncS Obj.idle LinkSt.init).syncAcked 3 ⟨0, 0, false⟩) = (Tests.syncS Obj.idle LinkSt.init).syncAcked (3 : Fin 16) (⟨0, 0, false⟩ : SHdr)) ∧ ((((8 : Nat) : Int) - (0 : Nat)) - ((((Tests.syncS Obj.idle LinkSt.init).syncAcked 3 ⟨0, 0, false⟩).drove : Int) - (8 : Nat)) = 2 * (8 : Int)) ∧ (((((Tests.syncS Obj.idle LinkSt.init).syncAcked 3 ⟨0, 0, false⟩).drove : Int) - (0 : Nat)) - (((8 : Nat) : Int) - (8 : Nat)) = 2 * (0 : Int)) ∧ (((let a := (Tests.syncS Obj.idle LinkSt.init).syncAcked 3 ⟨0, 0, false⟩; a.tickFree.tickFree.setLink 3 { a.link 3 with offs := [8], inBand := 0 } : State) = ((Tests.syncS Obj.idle LinkSt.init).syncAcked 3 ⟨0, 0, false⟩).tickFree.tickFree.setLink (3 : Fin 16) { ((Tests.syncS Obj.idle LinkSt.init).syncAcked 3 ⟨0, 0, false⟩).link (3 : Fin 16) with
      offs := ((8 : Int) :: (((Tests.syncS Obj.idle LinkSt.init).syncAcked 3 ⟨0, 0, false⟩).link (3 : Fin 16)).offs).take 8, delay := (0 : Int), inBand := if (8 : Int).natAbs ≤ 5 then (((Tests.syncS Obj.idle LinkSt.init).syncAcked 3 ⟨0, 0, false⟩).link (3 : Fin 16)).inBand + 1 else 0 })) ∧ ((let a := (Tests.syncS Obj.idle LinkSt.init).syncAcked 3 ⟨0, 0, false⟩; a.tickFree.tickFree.setLink 3 { a.link 3 with offs := [8], inBand := 0 } : State).follows (3 : Fin 16) = false) ∧
    ((Tests.syncS Obj.idle LinkSt.init).linkActive (3 : Fin 16) = true) ∧ (2 ≤ (Tests.syncS Obj.idle LinkSt.init).admitState (3 : Fin 16)) := by decide +kernel

theorem test_meets_SyncChannelAndDroveClock_2 :
    (((.masterMsg 3 ⟨0, 0, false⟩ Tests.master : Instr) = .masterMsg (3 : Fin 16) (⟨0, 0, false⟩ : SHdr) (Tests.master : MasterMsg)) ∨ ((.masterMsg 3 ⟨0, 0, false⟩ Tests.master : Instr) = .partialMsg (3 : Fin 16) (⟨0, 0, false⟩ : SHdr) (Tests.part : PartialMsg)) ∨ ((.masterMsg 3 ⟨0, 0, false⟩ Tests.master : Instr) = .pace (3 : Fin 16) (⟨0, 0, false⟩ : SHdr) (Tests.paceM : PaceMsg))) ∧ (((Tests.linkS 6 LinkSt.init).syncAcked 3 ⟨0, 0, false⟩) = (Tests.linkS 6 LinkSt.init).syncAcked (3 : Fin 16) (⟨0, 0, false⟩ : SHdr)) ∧ (((Tests.linkS 6 LinkSt.init).syncAcked 3 ⟨0, 0, false⟩).admitted (3 : Fin 16) = false) ∧
    (((.partialMsg 3 ⟨0, 0, false⟩ Tests.part : Instr) = .masterMsg (3 : Fin 16) (⟨0, 0, false⟩ : SHdr) (Tests.master : MasterMsg)) ∨ ((.partialMsg 3 ⟨0, 0, false⟩ Tests.part : Instr) = .partialMsg (3 : Fin 16) (⟨0, 0, false⟩ : SHdr) (Tests.part : PartialMsg)) ∨ ((.partialMsg 3 ⟨0, 0, false⟩ Tests.part : Instr) = .pace (3 : Fin 16) (⟨0, 0, false⟩ : SHdr) (Tests.paceM : PaceMsg))) ∧ (((Tests.linkS 6 LinkSt.init).syncAcked 3 ⟨0, 0, false⟩) = (Tests.linkS 6 LinkSt.init).syncAcked (3 : Fin 16) (⟨0, 0, false⟩ : SHdr)) ∧ (((Tests.linkS 6 LinkSt.init).syncAcked 3 ⟨0, 0, false⟩).admitted (3 : Fin 16) = false) ∧
    (((.pace 3 ⟨0, 0, false⟩ Tests.paceM : Instr) = .masterMsg (3 : Fin 16) (⟨0, 0, false⟩ : SHdr) (Tests.master : MasterMsg)) ∨ ((.pace 3 ⟨0, 0, false⟩ Tests.paceM : Instr) = .partialMsg (3 : Fin 16) (⟨0, 0, false⟩ : SHdr) (Tests.part : PartialMsg)) ∨ ((.pace 3 ⟨0, 0, false⟩ Tests.paceM : Instr) = .pace (3 : Fin 16) (⟨0, 0, false⟩ : SHdr) (Tests.paceM : PaceMsg))) ∧ (((Tests.linkS 6 LinkSt.init).syncAcked 3 ⟨0, 0, false⟩) = (Tests.linkS 6 LinkSt.init).syncAcked (3 : Fin 16) (⟨0, 0, false⟩ : SHdr)) ∧ (((Tests.linkS 6 LinkSt.init).syncAcked 3 ⟨0, 0, false⟩).admitted (3 : Fin 16) = false) ∧
    (((.masterMsg 3 ⟨9, 0, false⟩ Tests.master : Instr) = .masterMsg (3 : Fin 16) (⟨9, 0, false⟩ : SHdr) (Tests.master : MasterMsg)) ∨ ((.masterMsg 3 ⟨9, 0, false⟩ Tests.master : Instr) = .partialMsg (3 : Fin 16) (⟨9, 0, false⟩ : SHdr) (Tests.part : PartialMsg)) ∨ ((.masterMsg 3 ⟨9, 0, false⟩ Tests.master : Instr) = .pace (3 : Fin 16) (⟨9, 0, false⟩ : SHdr) (Tests.paceM : PaceMsg))) ∧ (((Tests.syncS Obj.idle LinkSt.init).syncAcked 3 ⟨9, 0, false⟩) = (Tests.syncS Obj.idle LinkSt.init).syncAcked (3 : Fin 16) (⟨9, 0, false⟩ : SHdr)) ∧ (((Tests.syncS Obj.idle LinkSt.init).syncAcked 3 ⟨9, 0, false⟩).admitted (3 : Fin 16) = true) ∧ ((⟨9, 0, false⟩ : SHdr).lseq ≠ (((Tests.syncS Obj.idle LinkSt.init).syncAcked 3 ⟨9, 0, false⟩).link (3 : Fin 16)).sRx) := by decide +kernel

theorem test_meets_SyncChannelAndDroveClock_3 :
    (((.partialMsg 3 ⟨9, 0, false⟩ Tests.part : Instr) = .masterMsg (3 : Fin 16) (⟨9, 0, false⟩ : SHdr) (Tests.master : MasterMsg)) ∨ ((.partialMsg 3 ⟨9, 0, false⟩ Tests.part : Instr) = .partialMsg (3 : Fin 16) (⟨9, 0, false⟩ : SHdr) (Tests.part : PartialMsg)) ∨ ((.partialMsg 3 ⟨9, 0, false⟩ Tests.part : Instr) = .pace (3 : Fin 16) (⟨9, 0, false⟩ : SHdr) (Tests.paceM : PaceMsg))) ∧ (((Tests.syncS Obj.idle LinkSt.init).syncAcked 3 ⟨9, 0, false⟩) = (Tests.syncS Obj.idle LinkSt.init).syncAcked (3 : Fin 16) (⟨9, 0, false⟩ : SHdr)) ∧ (((Tests.syncS Obj.idle LinkSt.init).syncAcked 3 ⟨9, 0, false⟩).admitted (3 : Fin 16) = true) ∧ ((⟨9, 0, false⟩ : SHdr).lseq ≠ (((Tests.syncS Obj.idle LinkSt.init).syncAcked 3 ⟨9, 0, false⟩).link (3 : Fin 16)).sRx) ∧
    (((.pace 3 ⟨9, 0, false⟩ Tests.paceM : Instr) = .masterMsg (3 : Fin 16) (⟨9, 0, false⟩ : SHdr) (Tests.master : MasterMsg)) ∨ ((.pace 3 ⟨9, 0, false⟩ Tests.paceM : Instr) = .partialMsg (3 : Fin 16) (⟨9, 0, false⟩ : SHdr) (Tests.part : PartialMsg)) ∨ ((.pace 3 ⟨9, 0, false⟩ Tests.paceM : Instr) = .pace (3 : Fin 16) (⟨9, 0, false⟩ : SHdr) (Tests.paceM : PaceMsg))) ∧ (((Tests.syncS Obj.idle LinkSt.init).syncAcked 3 ⟨9, 0, false⟩) = (Tests.syncS Obj.idle LinkSt.init).syncAcked (3 : Fin 16) (⟨9, 0, false⟩ : SHdr)) ∧ (((Tests.syncS Obj.idle LinkSt.init).syncAcked 3 ⟨9, 0, false⟩).admitted (3 : Fin 16) = true) ∧ ((⟨9, 0, false⟩ : SHdr).lseq ≠ (((Tests.syncS Obj.idle LinkSt.init).syncAcked 3 ⟨9, 0, false⟩).link (3 : Fin 16)).sRx) ∧
    (((Tests.syncS Obj.idle { LinkSt.init with ann := some ⟨Tests.master, false⟩ } : State).link (3 : Fin 16)).ann = some (⟨Tests.master, false⟩ : Ann)) ∧
    (let a := (Tests.syncS Obj.idle LinkSt.init).syncAcked 3 ⟨0, 0, false⟩
    let b := a.setLink 3 { a.link 3 with sRx := 1, sDue := true }
    a.admitted 3 = true ∧ (0 = (a.link 3).sRx) ∧ (b.link 3).ann = none ∧ Tests.master.lead = 0) := by decide +kernel

theorem test_meets_SyncChannelAndDroveClock_4 :
    (let s := Tests.up.setF (.sync 0) Reg.SYNC.DROVE_STAT_MASTER 1
    let a : State := { s with clk := { s.clk with master := some 9, mseq := 1 } }
    s.isSet (.sync 0) Reg.SYNC.DROVE_STAT_MASTER = true ∧ a.clk.master = some 9 ∧ s.clk.mseq = 0) := by decide +kernel

theorem test_meets_SyncObjects_1 :
    ((((Tests.syncS (Tests.obj 1) LinkSt.init).setF (.sync 0) Reg.SYNC.OBJ_SEL_OBJ 5)).selObj (0 : Fin 2) = some (5 : Nat)) ∧
    ((((Tests.syncS (Tests.obj 1) LinkSt.init).setF (.sync 0) Reg.SYNC.OBJ_SEL_OBJ 5)).selObj (objHub (5 : BitVec 16).toNat) = some (5 : BitVec 16).toNat) ∧ ((Tests.obj 1 : Obj) = (((Tests.syncS (Tests.obj 1) LinkSt.init).setF (.sync 0) Reg.SYNC.OBJ_SEL_OBJ 5)).obj (5 : BitVec 16).toNat) ∧ ((Tests.obj 1 : Obj).kind = 1) ∧ ((Tests.obj 1 : Obj).state ≠ 0) ∧ ((3 : BitVec 16) ≠ 0) ∧ (2 ≤ (Tests.obj 1 : Obj).scope) ∧
    ((((Tests.syncS (Tests.obj 4) LinkSt.init).setF (.sync 0) Reg.SYNC.OBJ_SEL_OBJ 5)).selObj (objHub (5 : BitVec 16).toNat) = some (5 : BitVec 16).toNat) ∧ ((Tests.obj 4 : Obj) = (((Tests.syncS (Tests.obj 4) LinkSt.init).setF (.sync 0) Reg.SYNC.OBJ_SEL_OBJ 5)).obj (5 : BitVec 16).toNat) ∧ ((Tests.obj 4 : Obj).state = 0 ∨ (3 : BitVec 16) = 0 ∨ (Tests.obj 4 : Obj).kind = 4 ∨ (Tests.obj 4 : Obj).scope < 2) := by decide +kernel

theorem test_meets_SyncObjects_2 :
    ((((Tests.syncS (Tests.obj 3) LinkSt.init).setF (.sync 0) Reg.SYNC.OBJ_SEL_OBJ 5)).selObj (objHub (5 : BitVec 16).toNat) = some (5 : BitVec 16).toNat) ∧ ((Tests.obj 3 : Obj) = (((Tests.syncS (Tests.obj 3) LinkSt.init).setF (.sync 0) Reg.SYNC.OBJ_SEL_OBJ 5)).obj (5 : BitVec 16).toNat) ∧ ((Tests.obj 3 : Obj).kind = 3) ∧ ((Tests.obj 3 : Obj).state ≠ 0) ∧ (2 ≤ (Tests.obj 3 : Obj).scope) ∧ (((((Tests.syncS (Tests.obj 3) LinkSt.init).setF (.sync 0) Reg.SYNC.OBJ_SEL_OBJ 5)).setObj 5 { Tests.obj 3 with isSet := true, count := 2 } : State) = (((Tests.syncS (Tests.obj 3) LinkSt.init).setF (.sync 0) Reg.SYNC.OBJ_SEL_OBJ 5)).setObj (5 : BitVec 16).toNat { (Tests.obj 3 : Obj) with isSet := true, count := (Tests.obj 3 : Obj).init % 65536 }) ∧
    ((((Tests.syncS (Tests.obj 3) LinkSt.init).setF (.sync 0) Reg.SYNC.OBJ_SEL_OBJ 5)).selObj (objHub (5 : BitVec 16).toNat) = some (5 : BitVec 16).toNat) ∧ ((Tests.obj 3 : Obj) = (((Tests.syncS (Tests.obj 3) LinkSt.init).setF (.sync 0) Reg.SYNC.OBJ_SEL_OBJ 5)).obj (5 : BitVec 16).toNat) ∧ ((Tests.obj 3 : Obj).kind = 3 ∨ (Tests.obj 3 : Obj).kind = 1) ∧ ((Tests.obj 3 : Obj).state ≠ 0) ∧ (2 ≤ (Tests.obj 3 : Obj).scope) := by decide +kernel

theorem test_meets_SyncObjects_3 :
    ((((Tests.syncS (Tests.obj 1) LinkSt.init).setF (.sync 0) Reg.SYNC.OBJ_SEL_OBJ 5)).selObj (objHub (5 : BitVec 16).toNat) = some (5 : BitVec 16).toNat) ∧ ((Tests.obj 1 : Obj) = (((Tests.syncS (Tests.obj 1) LinkSt.init).setF (.sync 0) Reg.SYNC.OBJ_SEL_OBJ 5)).obj (5 : BitVec 16).toNat) ∧ ((Tests.obj 1 : Obj).kind = 3 ∨ (Tests.obj 1 : Obj).kind = 1) ∧ ((Tests.obj 1 : Obj).state ≠ 0) ∧ (2 ≤ (Tests.obj 1 : Obj).scope) ∧
    (({ Tests.tileS (Tests.busy 0 []) with objs := [(5, Tests.obj 4)] } : State).kernelRuns (0 : Fin 4) (0 : Fin 104) (0 : Fin 2) = true) ∧ ((Tests.obj 4 : Obj) = ({ Tests.tileS (Tests.busy 0 []) with objs := [(5, Tests.obj 4)] } : State).obj (5 : BitVec 16).toNat) ∧ ((Tests.obj 4 : Obj).kind = 4) ∧ ((Tests.obj 4 : Obj).state = 1) ∧ ((Tests.obj 4 : Obj).phase = 3) ∧ ((Tests.obj 4 : Obj).scope = 2) ∧ ((leBytes 4 0 : List Byte).length = 4) ∧ (((({ Tests.tileS (Tests.busy 0 []) with objs := [(5, Tests.obj 4)] } : State)).setObj 5 { Tests.obj 4 with fp32 := 0, count := 1, first := some 0, last := some 0 } : State) = ({ Tests.tileS (Tests.busy 0 []) with objs := [(5, Tests.obj 4)] } : State).setObj (5 : BitVec 16).toNat { (Tests.obj 4 : Obj) with fp32 := (fp32Add (Tests.obj 4 : Obj).fp32 (leNat (leBytes 4 0 : List Byte))).1, status := (Tests.obj 4 : Obj).status ||| 0, count := (Tests.obj 4 : Obj).count + 1, first := some ({ Tests.tileS (Tests.busy 0 []) with objs := [(5, Tests.obj 4)] } : State).drove, last := some ({ Tests.tileS (Tests.busy 0 []) with objs := [(5, Tests.obj 4)] } : State).drove }) ∧ ((Tests.obj 4 : Obj).count + 1 ≠ (Tests.obj 4 : Obj).init % 65536) := by decide +kernel

theorem test_meets_SyncObjects_4 :
    (({ Tests.tileS (Tests.busy 0 []) with objs := [(5, Tests.obj 1)] } : State).kernelRuns (0 : Fin 4) (0 : Fin 104) (0 : Fin 2) = true) ∧ ((Tests.obj 1 : Obj) = ({ Tests.tileS (Tests.busy 0 []) with objs := [(5, Tests.obj 1)] } : State).obj (5 : BitVec 16).toNat) ∧ ((Tests.obj 1 : Obj).state ≠ 0) ∧ (({ Tests.tileS (Tests.busy 0 []) with objs := [(5, Tests.obj 1)] } : State).srcAllowed (Tests.obj 1 : Obj) (.task (0 : Fin 4) (0 : Fin 104) (0 : Fin 2)) = true) ∧
    (({ Tests.tileS (Tests.busy 0 []) with objs := [(5, Tests.obj 2)] } : State).kernelRuns (0 : Fin 4) (0 : Fin 104) (0 : Fin 2) = true) ∧ ((Tests.obj 2 : Obj) = ({ Tests.tileS (Tests.busy 0 []) with objs := [(5, Tests.obj 2)] } : State).obj (5 : BitVec 16).toNat) ∧ ((Tests.obj 2 : Obj).state ≠ 0) ∧ (({ Tests.tileS (Tests.busy 0 []) with objs := [(5, Tests.obj 2)] } : State).srcAllowed (Tests.obj 2 : Obj) (.task (0 : Fin 4) (0 : Fin 104) (0 : Fin 2)) = true) ∧
    (({ Tests.tileS (Tests.busy 0 []) with objs := [(5, Tests.obj 3)] } : State).kernelRuns (0 : Fin 4) (0 : Fin 104) (0 : Fin 2) = true) ∧ ((Tests.obj 3 : Obj) = ({ Tests.tileS (Tests.busy 0 []) with objs := [(5, Tests.obj 3)] } : State).obj (5 : BitVec 16).toNat) ∧ ((Tests.obj 3 : Obj).state ≠ 0) ∧ (({ Tests.tileS (Tests.busy 0 []) with objs := [(5, Tests.obj 3)] } : State).srcAllowed (Tests.obj 3 : Obj) (.task (0 : Fin 4) (0 : Fin 104) (0 : Fin 2)) = true) := by decide +kernel

theorem test_meets_SyncObjects_5 :
    (({ Tests.tileS (Tests.busy 0 []) with objs := [(5, Tests.obj 4)] } : State).kernelRuns (0 : Fin 4) (0 : Fin 104) (0 : Fin 2) = true) ∧ ((Tests.obj 4 : Obj) = ({ Tests.tileS (Tests.busy 0 []) with objs := [(5, Tests.obj 4)] } : State).obj (5 : BitVec 16).toNat) ∧ ((Tests.obj 4 : Obj).state ≠ 0) ∧ (({ Tests.tileS (Tests.busy 0 []) with objs := [(5, Tests.obj 4)] } : State).srcAllowed (Tests.obj 4 : Obj) (.task (0 : Fin 4) (0 : Fin 104) (0 : Fin 2)) = true) ∧
    (({ Tests.tileS (Tests.busy 0 []) with objs := [(5, { Tests.obj 1 with scope := 1, die := 2 })] } : State).kernelRuns (0 : Fin 4) (0 : Fin 104) (0 : Fin 2) = true) ∧ (({ Tests.obj 1 with scope := 1, die := 2 } : Obj) = ({ Tests.tileS (Tests.busy 0 []) with objs := [(5, { Tests.obj 1 with scope := 1, die := 2 })] } : State).obj (5 : BitVec 16).toNat) ∧ (({ Tests.obj 1 with scope := 1, die := 2 } : Obj).state ≠ 0) ∧ (({ Tests.tileS (Tests.busy 0 []) with objs := [(5, { Tests.obj 1 with scope := 1, die := 2 })] } : State).srcAllowed ({ Tests.obj 1 with scope := 1, die := 2 } : Obj) (.task (0 : Fin 4) (0 : Fin 104) (0 : Fin 2)) = false) := by decide +kernel

theorem test_meets_HerdRoundsAndPace_1 :
    (((Tests.syncS Obj.idle LinkSt.init).syncAcked 3 ⟨0, 0, false⟩) = (Tests.syncS Obj.idle LinkSt.init).syncAcked (3 : Fin 16) (⟨0, 0, false⟩ : SHdr)) ∧ (((Tests.syncS Obj.idle LinkSt.init).syncAcked 3 ⟨0, 0, false⟩).admitted (3 : Fin 16) = true) ∧ ((⟨0, 0, false⟩ : SHdr).lseq = (((Tests.syncS Obj.idle LinkSt.init).syncAcked 3 ⟨0, 0, false⟩).link (3 : Fin 16)).sRx) ∧ ((((Tests.syncS Obj.idle LinkSt.init).syncAcked 3 ⟨0, 0, false⟩).setLink 3 { (((Tests.syncS Obj.idle LinkSt.init).syncAcked 3 ⟨0, 0, false⟩).link 3) with sRx := 1, sDue := true } : State) = ((Tests.syncS Obj.idle LinkSt.init).syncAcked 3 ⟨0, 0, false⟩).setLink (3 : Fin 16) { ((Tests.syncS Obj.idle LinkSt.init).syncAcked 3 ⟨0, 0, false⟩).link (3 : Fin 16) with sRx := ((((Tests.syncS Obj.idle LinkSt.init).syncAcked 3 ⟨0, 0, false⟩).link (3 : Fin 16)).sRx + 1) % 256, sDue := true }) ∧
    (((Tests.syncS Obj.idle { LinkSt.init with sOut := [⟨4, .herd Tests.part⟩] } : State).link (3 : Fin 16)).sOut.find? (fun x => x.lseq == (4 : BitVec 8).toNat) = some ⟨(4 : Nat), .herd (Tests.part : PartialMsg)⟩) ∧
    (((Tests.syncS Obj.idle LinkSt.init).syncAcked 3 ⟨0, 0, false⟩) = (Tests.syncS Obj.idle LinkSt.init).syncAcked (3 : Fin 16) (⟨0, 0, false⟩ : SHdr)) ∧ (((Tests.syncS Obj.idle LinkSt.init).syncAcked 3 ⟨0, 0, false⟩).admitted (3 : Fin 16) = true) ∧ ((⟨0, 0, false⟩ : SHdr).lseq = (((Tests.syncS Obj.idle LinkSt.init).syncAcked 3 ⟨0, 0, false⟩).link (3 : Fin 16)).sRx) ∧ ((((Tests.syncS Obj.idle LinkSt.init).syncAcked 3 ⟨0, 0, false⟩).setLink 3 { (((Tests.syncS Obj.idle LinkSt.init).syncAcked 3 ⟨0, 0, false⟩).link 3) with sRx := 1, sDue := true } : State) = ((Tests.syncS Obj.idle LinkSt.init).syncAcked 3 ⟨0, 0, false⟩).setLink (3 : Fin 16) { ((Tests.syncS Obj.idle LinkSt.init).syncAcked 3 ⟨0, 0, false⟩).link (3 : Fin 16) with sRx := ((((Tests.syncS Obj.idle LinkSt.init).syncAcked 3 ⟨0, 0, false⟩).link (3 : Fin 16)).sRx + 1) % 256, sDue := true }) ∧ ((((Tests.syncS Obj.idle LinkSt.init).syncAcked 3 ⟨0, 0, false⟩).setLink 3 { (((Tests.syncS Obj.idle LinkSt.init).syncAcked 3 ⟨0, 0, false⟩).link 3) with sRx := 1, sDue := true } : State).jobTag = 0 ∨ (⟨9, 1, 2500, 7⟩ : PaceMsg).tag ≠ (((Tests.syncS Obj.idle LinkSt.init).syncAcked 3 ⟨0, 0, false⟩).setLink 3 { (((Tests.syncS Obj.idle LinkSt.init).syncAcked 3 ⟨0, 0, false⟩).link 3) with sRx := 1, sDue := true } : State).jobTag ∨ paceEnter (((Tests.syncS Obj.idle LinkSt.init).syncAcked 3 ⟨0, 0, false⟩).setLink 3 { (((Tests.syncS Obj.idle LinkSt.init).syncAcked 3 ⟨0, 0, false⟩).link 3) with sRx := 1, sDue := true } : State).clk.pace (⟨9, 1, 2500, 7⟩ : PaceMsg) = none) := by decide +kernel

theorem test_meets_HerdRoundsAndPace_2 :
    (((Tests.syncS Obj.idle LinkSt.init).syncAcked 3 ⟨0, 0, false⟩) = (Tests.syncS Obj.idle LinkSt.init).syncAcked (3 : Fin 16) (⟨0, 0, false⟩ : SHdr)) ∧ (((Tests.syncS Obj.idle LinkSt.init).syncAcked 3 ⟨0, 0, false⟩).admitted (3 : Fin 16) = true) ∧ ((⟨0, 0, false⟩ : SHdr).lseq = (((Tests.syncS Obj.idle LinkSt.init).syncAcked 3 ⟨0, 0, false⟩).link (3 : Fin 16)).sRx) ∧ ((((Tests.syncS Obj.idle LinkSt.init).syncAcked 3 ⟨0, 0, false⟩).setLink 3 { (((Tests.syncS Obj.idle LinkSt.init).syncAcked 3 ⟨0, 0, false⟩).link 3) with sRx := 1, sDue := true } : State) = ((Tests.syncS Obj.idle LinkSt.init).syncAcked 3 ⟨0, 0, false⟩).setLink (3 : Fin 16) { ((Tests.syncS Obj.idle LinkSt.init).syncAcked 3 ⟨0, 0, false⟩).link (3 : Fin 16) with sRx := ((((Tests.syncS Obj.idle LinkSt.init).syncAcked 3 ⟨0, 0, false⟩).link (3 : Fin 16)).sRx + 1) % 256, sDue := true }) ∧ ((((Tests.syncS Obj.idle LinkSt.init).syncAcked 3 ⟨0, 0, false⟩).setLink 3 { (((Tests.syncS Obj.idle LinkSt.init).syncAcked 3 ⟨0, 0, false⟩).link 3) with sRx := 1, sDue := true } : State).jobTag ≠ 0) ∧ ((Tests.paceM : PaceMsg).tag = (((Tests.syncS Obj.idle LinkSt.init).syncAcked 3 ⟨0, 0, false⟩).setLink 3 { (((Tests.syncS Obj.idle LinkSt.init).syncAcked 3 ⟨0, 0, false⟩).link 3) with sRx := 1, sDue := true } : State).jobTag) ∧ (paceEnter (((Tests.syncS Obj.idle LinkSt.init).syncAcked 3 ⟨0, 0, false⟩).setLink 3 { (((Tests.syncS Obj.idle LinkSt.init).syncAcked 3 ⟨0, 0, false⟩).link 3) with sRx := 1, sDue := true } : State).clk.pace (Tests.paceM : PaceMsg) = some ([⟨9, 1, 2000⟩] : List PaceEntry)) ∧
    (((Tests.syncS Obj.idle LinkSt.init).setF (.sync 0) Reg.SYNC.PACE_CFG_POST 1).isSet (.sync 0) Reg.SYNC.PACE_CFG_POST = true) ∧ (((Tests.syncS Obj.idle LinkSt.init).setF (.sync 0) Reg.SYNC.PACE_CFG_POST 1).jobTag ≠ 0) ∧ ((⟨0x5A310C27000491E6, 1, 2500, 7⟩ : PaceMsg) = ⟨((Tests.syncS Obj.idle LinkSt.init).setF (.sync 0) Reg.SYNC.PACE_CFG_POST 1).serial, (((Tests.syncS Obj.idle LinkSt.init).setF (.sync 0) Reg.SYNC.PACE_CFG_POST 1).clk.oseq + 1) % 65536, ((Tests.syncS Obj.idle LinkSt.init).setF (.sync 0) Reg.SYNC.PACE_CFG_POST 1).ownPace, ((Tests.syncS Obj.idle LinkSt.init).setF (.sync 0) Reg.SYNC.PACE_CFG_POST 1).jobTag⟩) ∧
    (({ Tests.syncS Obj.idle LinkSt.init with pw := { PwrSt.reset with peakOn := true, peakCeil := 2000 }, regs := ((Tests.syncS Obj.idle LinkSt.init).setF (.sync 0) Reg.SYNC.PACE_CFG_POST 1).regs } : State).ownPace < 2500) ∧ (({ Tests.syncS Obj.idle LinkSt.init with pw := { PwrSt.reset with peakOn := true, peakCeil := 2000 }, regs := ((Tests.syncS Obj.idle LinkSt.init).setF (.sync 0) Reg.SYNC.PACE_CFG_POST 1).regs } : State).isSet (.sync 0) Reg.SYNC.PACE_CFG_POST = true) ∧ (({ Tests.syncS Obj.idle LinkSt.init with pw := { PwrSt.reset with peakOn := true, peakCeil := 2000 }, regs := ((Tests.syncS Obj.idle LinkSt.init).setF (.sync 0) Reg.SYNC.PACE_CFG_POST 1).regs } : State).jobTag ≠ 0) ∧ ((⟨0x5A310C27000491E6, 1, 2000, 7⟩ : PaceMsg) = ⟨({ Tests.syncS Obj.idle LinkSt.init with pw := { PwrSt.reset with peakOn := true, peakCeil := 2000 }, regs := ((Tests.syncS Obj.idle LinkSt.init).setF (.sync 0) Reg.SYNC.PACE_CFG_POST 1).regs } : State).serial, (({ Tests.syncS Obj.idle LinkSt.init with pw := { PwrSt.reset with peakOn := true, peakCeil := 2000 }, regs := ((Tests.syncS Obj.idle LinkSt.init).setF (.sync 0) Reg.SYNC.PACE_CFG_POST 1).regs } : State).clk.oseq + 1) % 65536, ({ Tests.syncS Obj.idle LinkSt.init with pw := { PwrSt.reset with peakOn := true, peakCeil := 2000 }, regs := ((Tests.syncS Obj.idle LinkSt.init).setF (.sync 0) Reg.SYNC.PACE_CFG_POST 1).regs } : State).ownPace, ({ Tests.syncS Obj.idle LinkSt.init with pw := { PwrSt.reset with peakOn := true, peakCeil := 2000 }, regs := ((Tests.syncS Obj.idle LinkSt.init).setF (.sync 0) Reg.SYNC.PACE_CFG_POST 1).regs } : State).jobTag⟩) := by decide +kernel

theorem test_meets_HerdRoundsAndPace_3 :
    ((({ Tests.up with clk := { Tests.up.clk with pace := [⟨9, 1, 2000⟩] } } : State).clk.pace.any (fun x => x.origin = (9 : BitVec 64).toNat) = true)) ∧
    (let s : State := { (Tests.up.setW (.sync 0) 0x200 3).setObj 5 { Tests.obj 2 with state := 2 } with drove := 2000000 }
    let b := s.obj 5
    b.roundAt + b.roundLimit < s.elapsed ∧     b.state = 2 ∧ b.round < 16 ∧ getBits (s.planRound b.plan b.round) 2 0 = 3) := by decide +kernel

theorem test_meets_PowerSamplesAndShares :
    ((((Tests.up).setF .hctl Reg.HCTL.VIN_VALUE (4800 : BitVec 16).toNat).setF .hctl Reg.HCTL.IIN_VALUE (4000 : BitVec 16).toNat) = ((Tests.up).setF .hctl Reg.HCTL.VIN_VALUE (4800 : BitVec 16).toNat).setF .hctl Reg.HCTL.IIN_VALUE (4000 : BitVec 16).toNat) ∧ (((((4800 : BitVec 16).toNat * (4000 : BitVec 16).toNat) :: (Tests.up).pw.samples).take 1000000 : List Nat) = (((4800 : BitVec 16).toNat * (4000 : BitVec 16).toNat) :: (Tests.up).pw.samples).take 1000000) ∧ ((((((Tests.up).setF .hctl Reg.HCTL.VIN_VALUE (4800 : BitVec 16).toNat).setF .hctl Reg.HCTL.IIN_VALUE (4000 : BitVec 16).toNat).setPw { (((Tests.up).setF .hctl Reg.HCTL.VIN_VALUE (4800 : BitVec 16).toNat).setF .hctl Reg.HCTL.IIN_VALUE (4000 : BitVec 16).toNat).pw with samples := ((((4800 : BitVec 16).toNat * (4000 : BitVec 16).toNat) :: (Tests.up).pw.samples).take 1000000 : List Nat) }).moveLevel pwrLevel (min 4095 (avgWatts ((((4800 : BitVec 16).toNat * (4000 : BitVec 16).toNat) :: (Tests.up).pw.samples).take 1000000 : List Nat) 1000)) : State) = ((((Tests.up).setF .hctl Reg.HCTL.VIN_VALUE (4800 : BitVec 16).toNat).setF .hctl Reg.HCTL.IIN_VALUE (4000 : BitVec 16).toNat).setPw { (((Tests.up).setF .hctl Reg.HCTL.VIN_VALUE (4800 : BitVec 16).toNat).setF .hctl Reg.HCTL.IIN_VALUE (4000 : BitVec 16).toNat).pw with samples := ((((4800 : BitVec 16).toNat * (4000 : BitVec 16).toNat) :: (Tests.up).pw.samples).take 1000000 : List Nat) }).moveLevel pwrLevel (min 4095 (avgWatts ((((4800 : BitVec 16).toNat * (4000 : BitVec 16).toNat) :: (Tests.up).pw.samples).take 1000000 : List Nat) 1000))) ∧ ((((((((Tests.up).setF .hctl Reg.HCTL.VIN_VALUE (4800 : BitVec 16).toNat).setF .hctl Reg.HCTL.IIN_VALUE (4000 : BitVec 16).toNat).setPw { (((Tests.up).setF .hctl Reg.HCTL.VIN_VALUE (4800 : BitVec 16).toNat).setF .hctl Reg.HCTL.IIN_VALUE (4000 : BitVec 16).toNat).pw with samples := ((((4800 : BitVec 16).toNat * (4000 : BitVec 16).toNat) :: (Tests.up).pw.samples).take 1000000 : List Nat) }).moveLevel pwrLevel (min 4095 (avgWatts ((((4800 : BitVec 16).toNat * (4000 : BitVec 16).toNat) :: (Tests.up).pw.samples).take 1000000 : List Nat) 1000)) : State).setF .hctl Reg.HCTL.PWR_1S_WATTS (min 4095 (avgWatts ((((4800 : BitVec 16).toNat * (4000 : BitVec 16).toNat) :: (Tests.up).pw.samples).take 1000000 : List Nat) 1000000))).setF .hctl Reg.HCTL.PWR_2MS_PEAK_WATTS (max (((((((Tests.up).setF .hctl Reg.HCTL.VIN_VALUE (4800 : BitVec 16).toNat).setF .hctl Reg.HCTL.IIN_VALUE (4000 : BitVec 16).toNat).setPw { (((Tests.up).setF .hctl Reg.HCTL.VIN_VALUE (4800 : BitVec 16).toNat).setF .hctl Reg.HCTL.IIN_VALUE (4000 : BitVec 16).toNat).pw with samples := ((((4800 : BitVec 16).toNat * (4000 : BitVec 16).toNat) :: (Tests.up).pw.samples).take 1000000 : List Nat) }).moveLevel pwrLevel (min 4095 (avgWatts ((((4800 : BitVec 16).toNat * (4000 : BitVec 16).toNat) :: (Tests.up).pw.samples).take 1000000 : List Nat) 1000)) : State).setF .hctl Reg.HCTL.PWR_1S_WATTS (min 4095 (avgWatts ((((4800 : BitVec 16).toNat * (4000 : BitVec 16).toNat) :: (Tests.up).pw.samples).take 1000000 : List Nat) 1000000))).getF .hctl Reg.HCTL.PWR_2MS_PEAK_WATTS) (min 4095 (avgWatts ((((4800 : BitVec 16).toNat * (4000 : BitVec 16).toNat) :: (Tests.up).pw.samples).take 1000000 : List Nat) 2000))) : State) = ((((((Tests.up).setF .hctl Reg.HCTL.VIN_VALUE (4800 : BitVec 16).toNat).setF .hctl Reg.HCTL.IIN_VALUE (4000 : BitVec 16).toNat).setPw { (((Tests.up).setF .hctl Reg.HCTL.VIN_VALUE (4800 : BitVec 16).toNat).setF .hctl Reg.HCTL.IIN_VALUE (4000 : BitVec 16).toNat).pw with samples := ((((4800 : BitVec 16).toNat * (4000 : BitVec 16).toNat) :: (Tests.up).pw.samples).take 1000000 : List Nat) }).moveLevel pwrLevel (min 4095 (avgWatts ((((4800 : BitVec 16).toNat * (4000 : BitVec 16).toNat) :: (Tests.up).pw.samples).take 1000000 : List Nat) 1000)) : State).setF .hctl Reg.HCTL.PWR_1S_WATTS (min 4095 (avgWatts ((((4800 : BitVec 16).toNat * (4000 : BitVec 16).toNat) :: (Tests.up).pw.samples).take 1000000 : List Nat) 1000000))).setF .hctl Reg.HCTL.PWR_2MS_PEAK_WATTS (max (((((((Tests.up).setF .hctl Reg.HCTL.VIN_VALUE (4800 : BitVec 16).toNat).setF .hctl Reg.HCTL.IIN_VALUE (4000 : BitVec 16).toNat).setPw { (((Tests.up).setF .hctl Reg.HCTL.VIN_VALUE (4800 : BitVec 16).toNat).setF .hctl Reg.HCTL.IIN_VALUE (4000 : BitVec 16).toNat).pw with samples := ((((4800 : BitVec 16).toNat * (4000 : BitVec 16).toNat) :: (Tests.up).pw.samples).take 1000000 : List Nat) }).moveLevel pwrLevel (min 4095 (avgWatts ((((4800 : BitVec 16).toNat * (4000 : BitVec 16).toNat) :: (Tests.up).pw.samples).take 1000000 : List Nat) 1000)) : State).setF .hctl Reg.HCTL.PWR_1S_WATTS (min 4095 (avgWatts ((((4800 : BitVec 16).toNat * (4000 : BitVec 16).toNat) :: (Tests.up).pw.samples).take 1000000 : List Nat) 1000000))).getF .hctl Reg.HCTL.PWR_2MS_PEAK_WATTS) (min 4095 (avgWatts ((((4800 : BitVec 16).toNat * (4000 : BitVec 16).toNat) :: (Tests.up).pw.samples).take 1000000 : List Nat) 2000)))) ∧
    (((Tests.up).setPw { (Tests.up).pw with meanPwr := [(0, (9 : Nat)), (1, (9 : Nat)), (2, (9 : Nat)), (3, (9 : Nat))] } : State) = (Tests.up).setPw { (Tests.up).pw with meanPwr := [(0, (9 : Nat)), (1, (9 : Nat)), (2, (9 : Nat)), (3, (9 : Nat))] }) ∧ ((((List.finRange 4).flatMap (fun d => (List.range 13).filterMap (fun c => if (((Tests.up).setPw { (Tests.up).pw with meanPwr := [(0, (9 : Nat)), (1, (9 : Nat)), (2, (9 : Nat)), (3, (9 : Nat))] } : State).clusterTasks d c).isEmpty then none else some ⟨d, c, (((Tests.up).setPw { (Tests.up).pw with meanPwr := [(0, (9 : Nat)), (1, (9 : Nat)), (2, (9 : Nat)), (3, (9 : Nat))] } : State).clusterTasks d c).map (fun w => (((Tests.up).setPw { (Tests.up).pw with meanPwr := [(0, (9 : Nat)), (1, (9 : Nat)), (2, (9 : Nat)), (3, (9 : Nat))] } : State).learned d w.phaseTag ([(9 : Nat), (9 : Nat), (9 : Nat), (9 : Nat)].getD d 0)).1), (((Tests.up).setPw { (Tests.up).pw with meanPwr := [(0, (9 : Nat)), (1, (9 : Nat)), (2, (9 : Nat)), (3, (9 : Nat))] } : State).clusterTasks d c).map (fun w => (((Tests.up).setPw { (Tests.up).pw with meanPwr := [(0, (9 : Nat)), (1, (9 : Nat)), (2, (9 : Nat)), (3, (9 : Nat))] } : State).learned d w.phaseTag ([(9 : Nat), (9 : Nat), (9 : Nat), (9 : Nat)].getD d 0)).2), 400⟩)) : List Share) = (List.finRange 4).flatMap (fun d => (List.range 13).filterMap (fun c => if (((Tests.up).setPw { (Tests.up).pw with meanPwr := [(0, (9 : Nat)), (1, (9 : Nat)), (2, (9 : Nat)), (3, (9 : Nat))] } : State).clusterTasks d c).isEmpty then none else
      some ⟨d, c, (((Tests.up).setPw { (Tests.up).pw with meanPwr := [(0, (9 : Nat)), (1, (9 : Nat)), (2, (9 : Nat)), (3, (9 : Nat))] } : State).clusterTasks d c).map (fun w => (((Tests.up).setPw { (Tests.up).pw with meanPwr := [(0, (9 : Nat)), (1, (9 : Nat)), (2, (9 : Nat)), (3, (9 : Nat))] } : State).learned d w.phaseTag ([(9 : Nat), (9 : Nat), (9 : Nat), (9 : Nat)].getD d 0)).1),
        (((Tests.up).setPw { (Tests.up).pw with meanPwr := [(0, (9 : Nat)), (1, (9 : Nat)), (2, (9 : Nat)), (3, (9 : Nat))] } : State).clusterTasks d c).map (fun w => (((Tests.up).setPw { (Tests.up).pw with meanPwr := [(0, (9 : Nat)), (1, (9 : Nat)), (2, (9 : Nat)), (3, (9 : Nat))] } : State).learned d w.phaseTag ([(9 : Nat), (9 : Nat), (9 : Nat), (9 : Nat)].getD d 0)).2), 400⟩)))) ∧ ((shareSteps (((Tests.up).setPw { (Tests.up).pw with meanPwr := [(0, (9 : Nat)), (1, (9 : Nat)), (2, (9 : Nat)), (3, (9 : Nat))] } : State).isSet .hctl Reg.HCTL.SHARE_CFG_ENABLE) (((Tests.up).setPw { (Tests.up).pw with meanPwr := [(0, (9 : Nat)), (1, (9 : Nat)), (2, (9 : Nat)), (3, (9 : Nat))] } : State).capLimit (900 : Nat) - 1000 * (900 : Nat)) ((List.finRange 4).flatMap (fun d => (List.range 13).filterMap (fun c => if (((Tests.up).setPw { (Tests.up).pw with meanPwr := [(0, (9 : Nat)), (1, (9 : Nat)), (2, (9 : Nat)), (3, (9 : Nat))] } : State).clusterTasks d c).isEmpty then none else some ⟨d, c, (((Tests.up).setPw { (Tests.up).pw with meanPwr := [(0, (9 : Nat)), (1, (9 : Nat)), (2, (9 : Nat)), (3, (9 : Nat))] } : State).clusterTasks d c).map (fun w => (((Tests.up).setPw { (Tests.up).pw with meanPwr := [(0, (9 : Nat)), (1, (9 : Nat)), (2, (9 : Nat)), (3, (9 : Nat))] } : State).learned d w.phaseTag ([(9 : Nat), (9 : Nat), (9 : Nat), (9 : Nat)].getD d 0)).1), (((Tests.up).setPw { (Tests.up).pw with meanPwr := [(0, (9 : Nat)), (1, (9 : Nat)), (2, (9 : Nat)), (3, (9 : Nat))] } : State).clusterTasks d c).map (fun w => (((Tests.up).setPw { (Tests.up).pw with meanPwr := [(0, (9 : Nat)), (1, (9 : Nat)), (2, (9 : Nat)), (3, (9 : Nat))] } : State).learned d w.phaseTag ([(9 : Nat), (9 : Nat), (9 : Nat), (9 : Nat)].getD d 0)).2), 400⟩)) : List Share) 4368 : List Share) = shareSteps (((Tests.up).setPw { (Tests.up).pw with meanPwr := [(0, (9 : Nat)), (1, (9 : Nat)), (2, (9 : Nat)), (3, (9 : Nat))] } : State).isSet .hctl Reg.HCTL.SHARE_CFG_ENABLE) (((Tests.up).setPw { (Tests.up).pw with meanPwr := [(0, (9 : Nat)), (1, (9 : Nat)), (2, (9 : Nat)), (3, (9 : Nat))] } : State).capLimit (900 : Nat) - 1000 * (900 : Nat)) ((List.finRange 4).flatMap (fun d => (List.range 13).filterMap (fun c => if (((Tests.up).setPw { (Tests.up).pw with meanPwr := [(0, (9 : Nat)), (1, (9 : Nat)), (2, (9 : Nat)), (3, (9 : Nat))] } : State).clusterTasks d c).isEmpty then none else some ⟨d, c, (((Tests.up).setPw { (Tests.up).pw with meanPwr := [(0, (9 : Nat)), (1, (9 : Nat)), (2, (9 : Nat)), (3, (9 : Nat))] } : State).clusterTasks d c).map (fun w => (((Tests.up).setPw { (Tests.up).pw with meanPwr := [(0, (9 : Nat)), (1, (9 : Nat)), (2, (9 : Nat)), (3, (9 : Nat))] } : State).learned d w.phaseTag ([(9 : Nat), (9 : Nat), (9 : Nat), (9 : Nat)].getD d 0)).1), (((Tests.up).setPw { (Tests.up).pw with meanPwr := [(0, (9 : Nat)), (1, (9 : Nat)), (2, (9 : Nat)), (3, (9 : Nat))] } : State).clusterTasks d c).map (fun w => (((Tests.up).setPw { (Tests.up).pw with meanPwr := [(0, (9 : Nat)), (1, (9 : Nat)), (2, (9 : Nat)), (3, (9 : Nat))] } : State).learned d w.phaseTag ([(9 : Nat), (9 : Nat), (9 : Nat), (9 : Nat)].getD d 0)).2), 400⟩)) : List Share) 4368) ∧ (((((Tests.up).setPw { (Tests.up).pw with meanPwr := [(0, (9 : Nat)), (1, (9 : Nat)), (2, (9 : Nat)), (3, (9 : Nat))] } : State).setPw { ((Tests.up).setPw { (Tests.up).pw with meanPwr := [(0, (9 : Nat)), (1, (9 : Nat)), (2, (9 : Nat)), (3, (9 : Nat))] } : State).pw with budget := ((shareSteps (((Tests.up).setPw { (Tests.up).pw with meanPwr := [(0, (9 : Nat)), (1, (9 : Nat)), (2, (9 : Nat)), (3, (9 : Nat))] } : State).isSet .hctl Reg.HCTL.SHARE_CFG_ENABLE) (((Tests.up).setPw { (Tests.up).pw with meanPwr := [(0, (9 : Nat)), (1, (9 : Nat)), (2, (9 : Nat)), (3, (9 : Nat))] } : State).capLimit (900 : Nat) - 1000 * (900 : Nat)) ((List.finRange 4).flatMap (fun d => (List.range 13).filterMap (fun c => if (((Tests.up).setPw { (Tests.up).pw with meanPwr := [(0, (9 : Nat)), (1, (9 : Nat)), (2, (9 : Nat)), (3, (9 : Nat))] } : State).clusterTasks d c).isEmpty then none else some ⟨d, c, (((Tests.up).setPw { (Tests.up).pw with meanPwr := [(0, (9 : Nat)), (1, (9 : Nat)), (2, (9 : Nat)), (3, (9 : Nat))] } : State).clusterTasks d c).map (fun w => (((Tests.up).setPw { (Tests.up).pw with meanPwr := [(0, (9 : Nat)), (1, (9 : Nat)), (2, (9 : Nat)), (3, (9 : Nat))] } : State).learned d w.phaseTag ([(9 : Nat), (9 : Nat), (9 : Nat), (9 : Nat)].getD d 0)).1), (((Tests.up).setPw { (Tests.up).pw with meanPwr := [(0, (9 : Nat)), (1, (9 : Nat)), (2, (9 : Nat)), (3, (9 : Nat))] } : State).clusterTasks d c).map (fun w => (((Tests.up).setPw { (Tests.up).pw with meanPwr := [(0, (9 : Nat)), (1, (9 : Nat)), (2, (9 : Nat)), (3, (9 : Nat))] } : State).learned d w.phaseTag ([(9 : Nat), (9 : Nat), (9 : Nat), (9 : Nat)].getD d 0)).2), 400⟩)) : List Share) 4368 : List Share).filter (fun x => x.mhz < 2500)).foldl (fun (m : Map Nat) x => m.put (clusKey x.die x.clus) x.mhz) [] } : State) = ((Tests.up).setPw { (Tests.up).pw with meanPwr := [(0, (9 : Nat)), (1, (9 : Nat)), (2, (9 : Nat)), (3, (9 : Nat))] } : State).setPw { ((Tests.up).setPw { (Tests.up).pw with meanPwr := [(0, (9 : Nat)), (1, (9 : Nat)), (2, (9 : Nat)), (3, (9 : Nat))] } : State).pw with budget := ((shareSteps (((Tests.up).setPw { (Tests.up).pw with meanPwr := [(0, (9 : Nat)), (1, (9 : Nat)), (2, (9 : Nat)), (3, (9 : Nat))] } : State).isSet .hctl Reg.HCTL.SHARE_CFG_ENABLE) (((Tests.up).setPw { (Tests.up).pw with meanPwr := [(0, (9 : Nat)), (1, (9 : Nat)), (2, (9 : Nat)), (3, (9 : Nat))] } : State).capLimit (900 : Nat) - 1000 * (900 : Nat)) ((List.finRange 4).flatMap (fun d => (List.range 13).filterMap (fun c => if (((Tests.up).setPw { (Tests.up).pw with meanPwr := [(0, (9 : Nat)), (1, (9 : Nat)), (2, (9 : Nat)), (3, (9 : Nat))] } : State).clusterTasks d c).isEmpty then none else some ⟨d, c, (((Tests.up).setPw { (Tests.up).pw with meanPwr := [(0, (9 : Nat)), (1, (9 : Nat)), (2, (9 : Nat)), (3, (9 : Nat))] } : State).clusterTasks d c).map (fun w => (((Tests.up).setPw { (Tests.up).pw with meanPwr := [(0, (9 : Nat)), (1, (9 : Nat)), (2, (9 : Nat)), (3, (9 : Nat))] } : State).learned d w.phaseTag ([(9 : Nat), (9 : Nat), (9 : Nat), (9 : Nat)].getD d 0)).1), (((Tests.up).setPw { (Tests.up).pw with meanPwr := [(0, (9 : Nat)), (1, (9 : Nat)), (2, (9 : Nat)), (3, (9 : Nat))] } : State).clusterTasks d c).map (fun w => (((Tests.up).setPw { (Tests.up).pw with meanPwr := [(0, (9 : Nat)), (1, (9 : Nat)), (2, (9 : Nat)), (3, (9 : Nat))] } : State).learned d w.phaseTag ([(9 : Nat), (9 : Nat), (9 : Nat), (9 : Nat)].getD d 0)).2), 400⟩)) : List Share) 4368 : List Share).filter (fun x => x.mhz < 2500)).foldl (fun (m : Map Nat) x => m.put (clusKey x.die x.clus) x.mhz) [] })) ∧ ((((List.finRange 4).foldl (fun (t : State) (d : Fin 4) => (t.setF .hctl (Reg.HCTL.DIE_BUDGET_WATTS d) (min 4095 ((((shareSteps (((Tests.up).setPw { (Tests.up).pw with meanPwr := [(0, (9 : Nat)), (1, (9 : Nat)), (2, (9 : Nat)), (3, (9 : Nat))] } : State).isSet .hctl Reg.HCTL.SHARE_CFG_ENABLE) (((Tests.up).setPw { (Tests.up).pw with meanPwr := [(0, (9 : Nat)), (1, (9 : Nat)), (2, (9 : Nat)), (3, (9 : Nat))] } : State).capLimit (900 : Nat) - 1000 * (900 : Nat)) ((List.finRange 4).flatMap (fun d => (List.range 13).filterMap (fun c => if (((Tests.up).setPw { (Tests.up).pw with meanPwr := [(0, (9 : Nat)), (1, (9 : Nat)), (2, (9 : Nat)), (3, (9 : Nat))] } : State).clusterTasks d c).isEmpty then none else some ⟨d, c, (((Tests.up).setPw { (Tests.up).pw with meanPwr := [(0, (9 : Nat)), (1, (9 : Nat)), (2, (9 : Nat)), (3, (9 : Nat))] } : State).clusterTasks d c).map (fun w => (((Tests.up).setPw { (Tests.up).pw with meanPwr := [(0, (9 : Nat)), (1, (9 : Nat)), (2, (9 : Nat)), (3, (9 : Nat))] } : State).learned d w.phaseTag ([(9 : Nat), (9 : Nat), (9 : Nat), (9 : Nat)].getD d 0)).1), (((Tests.up).setPw { (Tests.up).pw with meanPwr := [(0, (9 : Nat)), (1, (9 : Nat)), (2, (9 : Nat)), (3, (9 : Nat))] } : State).clusterTasks d c).map (fun w => (((Tests.up).setPw { (Tests.up).pw with meanPwr := [(0, (9 : Nat)), (1, (9 : Nat)), (2, (9 : Nat)), (3, (9 : Nat))] } : State).learned d w.phaseTag ([(9 : Nat), (9 : Nat), (9 : Nat), (9 : Nat)].getD d 0)).2), 400⟩)) : List Share) 4368 : List Share).filter (fun x => x.die = d)).map Share.watts).sum / 1000))).setF (.cdie d) Reg.CDIE.PWR_BUDGET_WATTS (min 4095 ((((shareSteps (((Tests.up).setPw { (Tests.up).pw with meanPwr := [(0, (9 : Nat)), (1, (9 : Nat)), (2, (9 : Nat)), (3, (9 : Nat))] } : State).isSet .hctl Reg.HCTL.SHARE_CFG_ENABLE) (((Tests.up).setPw { (Tests.up).pw with meanPwr := [(0, (9 : Nat)), (1, (9 : Nat)), (2, (9 : Nat)), (3, (9 : Nat))] } : State).capLimit (900 : Nat) - 1000 * (900 : Nat)) ((List.finRange 4).flatMap (fun d => (List.range 13).filterMap (fun c => if (((Tests.up).setPw { (Tests.up).pw with meanPwr := [(0, (9 : Nat)), (1, (9 : Nat)), (2, (9 : Nat)), (3, (9 : Nat))] } : State).clusterTasks d c).isEmpty then none else some ⟨d, c, (((Tests.up).setPw { (Tests.up).pw with meanPwr := [(0, (9 : Nat)), (1, (9 : Nat)), (2, (9 : Nat)), (3, (9 : Nat))] } : State).clusterTasks d c).map (fun w => (((Tests.up).setPw { (Tests.up).pw with meanPwr := [(0, (9 : Nat)), (1, (9 : Nat)), (2, (9 : Nat)), (3, (9 : Nat))] } : State).learned d w.phaseTag ([(9 : Nat), (9 : Nat), (9 : Nat), (9 : Nat)].getD d 0)).1), (((Tests.up).setPw { (Tests.up).pw with meanPwr := [(0, (9 : Nat)), (1, (9 : Nat)), (2, (9 : Nat)), (3, (9 : Nat))] } : State).clusterTasks d c).map (fun w => (((Tests.up).setPw { (Tests.up).pw with meanPwr := [(0, (9 : Nat)), (1, (9 : Nat)), (2, (9 : Nat)), (3, (9 : Nat))] } : State).learned d w.phaseTag ([(9 : Nat), (9 : Nat), (9 : Nat), (9 : Nat)].getD d 0)).2), 400⟩)) : List Share) 4368 : List Share).filter (fun x => x.die = d)).map Share.watts).sum / 1000))) (((Tests.up).setPw { (Tests.up).pw with meanPwr := [(0, (9 : Nat)), (1, (9 : Nat)), (2, (9 : Nat)), (3, (9 : Nat))] } : State).setPw { ((Tests.up).setPw { (Tests.up).pw with meanPwr := [(0, (9 : Nat)), (1, (9 : Nat)), (2, (9 : Nat)), (3, (9 : Nat))] } : State).pw with budget := ((shareSteps (((Tests.up).setPw { (Tests.up).pw with meanPwr := [(0, (9 : Nat)), (1, (9 : Nat)), (2, (9 : Nat)), (3, (9 : Nat))] } : State).isSet .hctl Reg.HCTL.SHARE_CFG_ENABLE) (((Tests.up).setPw { (Tests.up).pw with meanPwr := [(0, (9 : Nat)), (1, (9 : Nat)), (2, (9 : Nat)), (3, (9 : Nat))] } : State).capLimit (900 : Nat) - 1000 * (900 : Nat)) ((List.finRange 4).flatMap (fun d => (List.range 13).filterMap (fun c => if (((Tests.up).setPw { (Tests.up).pw with meanPwr := [(0, (9 : Nat)), (1, (9 : Nat)), (2, (9 : Nat)), (3, (9 : Nat))] } : State).clusterTasks d c).isEmpty then none else some ⟨d, c, (((Tests.up).setPw { (Tests.up).pw with meanPwr := [(0, (9 : Nat)), (1, (9 : Nat)), (2, (9 : Nat)), (3, (9 : Nat))] } : State).clusterTasks d c).map (fun w => (((Tests.up).setPw { (Tests.up).pw with meanPwr := [(0, (9 : Nat)), (1, (9 : Nat)), (2, (9 : Nat)), (3, (9 : Nat))] } : State).learned d w.phaseTag ([(9 : Nat), (9 : Nat), (9 : Nat), (9 : Nat)].getD d 0)).1), (((Tests.up).setPw { (Tests.up).pw with meanPwr := [(0, (9 : Nat)), (1, (9 : Nat)), (2, (9 : Nat)), (3, (9 : Nat))] } : State).clusterTasks d c).map (fun w => (((Tests.up).setPw { (Tests.up).pw with meanPwr := [(0, (9 : Nat)), (1, (9 : Nat)), (2, (9 : Nat)), (3, (9 : Nat))] } : State).learned d w.phaseTag ([(9 : Nat), (9 : Nat), (9 : Nat), (9 : Nat)].getD d 0)).2), 400⟩)) : List Share) 4368 : List Share).filter (fun x => x.mhz < 2500)).foldl (fun (m : Map Nat) x => m.put (clusKey x.die x.clus) x.mhz) [] } : State) : State) = (List.finRange 4).foldl (fun (t : State) (d : Fin 4) =>
      (t.setF .hctl (Reg.HCTL.DIE_BUDGET_WATTS d) (min 4095 ((((shareSteps (((Tests.up).setPw { (Tests.up).pw with meanPwr := [(0, (9 : Nat)), (1, (9 : Nat)), (2, (9 : Nat)), (3, (9 : Nat))] } : State).isSet .hctl Reg.HCTL.SHARE_CFG_ENABLE) (((Tests.up).setPw { (Tests.up).pw with meanPwr := [(0, (9 : Nat)), (1, (9 : Nat)), (2, (9 : Nat)), (3, (9 : Nat))] } : State).capLimit (900 : Nat) - 1000 * (900 : Nat)) ((List.finRange 4).flatMap (fun d => (List.range 13).filterMap (fun c => if (((Tests.up).setPw { (Tests.up).pw with meanPwr := [(0, (9 : Nat)), (1, (9 : Nat)), (2, (9 : Nat)), (3, (9 : Nat))] } : State).clusterTasks d c).isEmpty then none else some ⟨d, c, (((Tests.up).setPw { (Tests.up).pw with meanPwr := [(0, (9 : Nat)), (1, (9 : Nat)), (2, (9 : Nat)), (3, (9 : Nat))] } : State).clusterTasks d c).map (fun w => (((Tests.up).setPw { (Tests.up).pw with meanPwr := [(0, (9 : Nat)), (1, (9 : Nat)), (2, (9 : Nat)), (3, (9 : Nat))] } : State).learned d w.phaseTag ([(9 : Nat), (9 : Nat), (9 : Nat), (9 : Nat)].getD d 0)).1), (((Tests.up).setPw { (Tests.up).pw with meanPwr := [(0, (9 : Nat)), (1, (9 : Nat)), (2, (9 : Nat)), (3, (9 : Nat))] } : State).clusterTasks d c).map (fun w => (((Tests.up).setPw { (Tests.up).pw with meanPwr := [(0, (9 : Nat)), (1, (9 : Nat)), (2, (9 : Nat)), (3, (9 : Nat))] } : State).learned d w.phaseTag ([(9 : Nat), (9 : Nat), (9 : Nat), (9 : Nat)].getD d 0)).2), 400⟩)) : List Share) 4368 : List Share).filter (fun x => x.die = d)).map Share.watts).sum / 1000))).setF (.cdie d)
        Reg.CDIE.PWR_BUDGET_WATTS (min 4095 ((((shareSteps (((Tests.up).setPw { (Tests.up).pw with meanPwr := [(0, (9 : Nat)), (1, (9 : Nat)), (2, (9 : Nat)), (3, (9 : Nat))] } : State).isSet .hctl Reg.HCTL.SHARE_CFG_ENABLE) (((Tests.up).setPw { (Tests.up).pw with meanPwr := [(0, (9 : Nat)), (1, (9 : Nat)), (2, (9 : Nat)), (3, (9 : Nat))] } : State).capLimit (900 : Nat) - 1000 * (900 : Nat)) ((List.finRange 4).flatMap (fun d => (List.range 13).filterMap (fun c => if (((Tests.up).setPw { (Tests.up).pw with meanPwr := [(0, (9 : Nat)), (1, (9 : Nat)), (2, (9 : Nat)), (3, (9 : Nat))] } : State).clusterTasks d c).isEmpty then none else some ⟨d, c, (((Tests.up).setPw { (Tests.up).pw with meanPwr := [(0, (9 : Nat)), (1, (9 : Nat)), (2, (9 : Nat)), (3, (9 : Nat))] } : State).clusterTasks d c).map (fun w => (((Tests.up).setPw { (Tests.up).pw with meanPwr := [(0, (9 : Nat)), (1, (9 : Nat)), (2, (9 : Nat)), (3, (9 : Nat))] } : State).learned d w.phaseTag ([(9 : Nat), (9 : Nat), (9 : Nat), (9 : Nat)].getD d 0)).1), (((Tests.up).setPw { (Tests.up).pw with meanPwr := [(0, (9 : Nat)), (1, (9 : Nat)), (2, (9 : Nat)), (3, (9 : Nat))] } : State).clusterTasks d c).map (fun w => (((Tests.up).setPw { (Tests.up).pw with meanPwr := [(0, (9 : Nat)), (1, (9 : Nat)), (2, (9 : Nat)), (3, (9 : Nat))] } : State).learned d w.phaseTag ([(9 : Nat), (9 : Nat), (9 : Nat), (9 : Nat)].getD d 0)).2), 400⟩)) : List Share) 4368 : List Share).filter (fun x => x.die = d)).map Share.watts).sum / 1000))) (((Tests.up).setPw { (Tests.up).pw with meanPwr := [(0, (9 : Nat)), (1, (9 : Nat)), (2, (9 : Nat)), (3, (9 : Nat))] } : State).setPw { ((Tests.up).setPw { (Tests.up).pw with meanPwr := [(0, (9 : Nat)), (1, (9 : Nat)), (2, (9 : Nat)), (3, (9 : Nat))] } : State).pw with budget := ((shareSteps (((Tests.up).setPw { (Tests.up).pw with meanPwr := [(0, (9 : Nat)), (1, (9 : Nat)), (2, (9 : Nat)), (3, (9 : Nat))] } : State).isSet .hctl Reg.HCTL.SHARE_CFG_ENABLE) (((Tests.up).setPw { (Tests.up).pw with meanPwr := [(0, (9 : Nat)), (1, (9 : Nat)), (2, (9 : Nat)), (3, (9 : Nat))] } : State).capLimit (900 : Nat) - 1000 * (900 : Nat)) ((List.finRange 4).flatMap (fun d => (List.range 13).filterMap (fun c => if (((Tests.up).setPw { (Tests.up).pw with meanPwr := [(0, (9 : Nat)), (1, (9 : Nat)), (2, (9 : Nat)), (3, (9 : Nat))] } : State).clusterTasks d c).isEmpty then none else some ⟨d, c, (((Tests.up).setPw { (Tests.up).pw with meanPwr := [(0, (9 : Nat)), (1, (9 : Nat)), (2, (9 : Nat)), (3, (9 : Nat))] } : State).clusterTasks d c).map (fun w => (((Tests.up).setPw { (Tests.up).pw with meanPwr := [(0, (9 : Nat)), (1, (9 : Nat)), (2, (9 : Nat)), (3, (9 : Nat))] } : State).learned d w.phaseTag ([(9 : Nat), (9 : Nat), (9 : Nat), (9 : Nat)].getD d 0)).1), (((Tests.up).setPw { (Tests.up).pw with meanPwr := [(0, (9 : Nat)), (1, (9 : Nat)), (2, (9 : Nat)), (3, (9 : Nat))] } : State).clusterTasks d c).map (fun w => (((Tests.up).setPw { (Tests.up).pw with meanPwr := [(0, (9 : Nat)), (1, (9 : Nat)), (2, (9 : Nat)), (3, (9 : Nat))] } : State).learned d w.phaseTag ([(9 : Nat), (9 : Nat), (9 : Nat), (9 : Nat)].getD d 0)).2), 400⟩)) : List Share) 4368 : List Share).filter (fun x => x.mhz < 2500)).foldl (fun (m : Map Nat) x => m.put (clusKey x.die x.clus) x.mhz) [] } : State))) ∧
    ((((Tests.up).setF (.cdie (0 : Fin 4)) Reg.CDIE.PWR_EST_WATTS (min 4095 (90 : Nat))).setPw { (Tests.up).pw with meanPwr := (Tests.up).pw.meanPwr.put (0 : Fin 4) (9 : Nat) } : State) = ((Tests.up).setF (.cdie (0 : Fin 4)) Reg.CDIE.PWR_EST_WATTS (min 4095 (90 : Nat))).setPw { (Tests.up).pw with meanPwr := (Tests.up).pw.meanPwr.put (0 : Fin 4) (9 : Nat) }) ∧ (((((Tests.up).setF (.cdie (0 : Fin 4)) Reg.CDIE.PWR_EST_WATTS (min 4095 (90 : Nat))).setPw { (Tests.up).pw with meanPwr := (Tests.up).pw.meanPwr.put (0 : Fin 4) (9 : Nat) } : State).learned (0 : Fin 4) (3 : BitVec 8).toNat (9 : Nat) : Nat × Nat) = (((Tests.up).setF (.cdie (0 : Fin 4)) Reg.CDIE.PWR_EST_WATTS (min 4095 (90 : Nat))).setPw { (Tests.up).pw with meanPwr := (Tests.up).pw.meanPwr.put (0 : Fin 4) (9 : Nat) } : State).learned (0 : Fin 4) (3 : BitVec 8).toNat (9 : Nat)) := by decide +kernel

theorem test_meets_DroopSlewAndRails_1 :
    ((Tests.clocked).clockRuns (0 : Fin 4) (0 : Fin 104) = true) ∧ (((Tests.clocked).tile (0 : Fin 4) (0 : Fin 104)).stretching = false) ∧ ((((Tests.clocked.setTile 0 0 { Tile.init with stretching := true }).bump (.tile 0 0) Reg.TILE.STRETCH_COUNT).bump (.cdie 0) Reg.CDIE.STRETCH_EVT_COUNT : State) = (((Tests.clocked).setTile (0 : Fin 4) (0 : Fin 104) { (Tests.clocked).tile (0 : Fin 4) (0 : Fin 104) with stretching := true, settling := false }).bump (.tile (0 : Fin 4) (0 : Fin 104)) Reg.TILE.STRETCH_COUNT).bump (.cdie (0 : Fin 4)) Reg.CDIE.STRETCH_EVT_COUNT) ∧ ((((Tests.clocked.setTile 0 0 { Tile.init with stretching := true }).bump (.tile 0 0) Reg.TILE.STRETCH_COUNT).bump (.cdie 0) Reg.CDIE.STRETCH_EVT_COUNT : State).getF (.tile (0 : Fin 4) (0 : Fin 104)) Reg.TILE.CLK_MHZ = ((((Tests.clocked.setTile 0 0 { Tile.init with stretching := true }).bump (.tile 0 0) Reg.TILE.STRETCH_COUNT).bump (.cdie 0) Reg.CDIE.STRETCH_EVT_COUNT : State).islandCeil (0 : Fin 4) (0 : Fin 104) true).1) ∧
    (((Tests.tileS { Tile.init with stretching := true } : State).tile (0 : Fin 4) (0 : Fin 104)).stretching = true) ∧ (((Tests.tileS { Tile.init with stretching := true } : State) = if (false : Bool) then (Tests.tileS { Tile.init with stretching := true } : State).droopFall (0 : Fin 4) (0 : Fin 104) else (Tests.tileS { Tile.init with stretching := true } : State))) ∧
    (((Tests.tileS { Tile.init with ceilDroop := 400 } : State).tile (0 : Fin 4) (0 : Fin 104)).ceilDroop < 2500) ∧
    (((Tests.tileS { Tile.init with settling := true } : State).tile (0 : Fin 4) (0 : Fin 104)).settling = true) ∧ (((Tests.tileS { Tile.init with settling := true } : State).tile (0 : Fin 4) (0 : Fin 104)).stretching = false) ∧
    ((Tests.clocked).tileActive (0 : Fin 4) (0 : Fin 104) = true) ∧ (((Tests.clocked).tile (0 : Fin 4) (0 : Fin 104)).deferred = false) ∧ ((2500 : Nat) = ((Tests.clocked).islandCeil (0 : Fin 4) (0 : Fin 104) true).1) ∧ ((2500 : Nat) = (Tests.clocked).getF (.tile (0 : Fin 4) (0 : Fin 104)) Reg.TILE.CLK_MHZ) ∧ ((2500 : Nat) ≤ (2500 : Nat)) := by decide +kernel

theorem test_meets_DroopSlewAndRails_2 :
    (((Tests.tileS Tile.init).setF (.tile 0 0) Reg.TILE.CLK_MHZ 400).tileActive (0 : Fin 4) (0 : Fin 104) = true) ∧ ((((Tests.tileS Tile.init).setF (.tile 0 0) Reg.TILE.CLK_MHZ 400).tile (0 : Fin 4) (0 : Fin 104)).deferred = false) ∧ ((2500 : Nat) = (((Tests.tileS Tile.init).setF (.tile 0 0) Reg.TILE.CLK_MHZ 400).islandCeil (0 : Fin 4) (0 : Fin 104) true).1) ∧ ((400 : Nat) = ((Tests.tileS Tile.init).setF (.tile 0 0) Reg.TILE.CLK_MHZ 400).getF (.tile (0 : Fin 4) (0 : Fin 104)) Reg.TILE.CLK_MHZ) ∧ ((400 : Nat) < (2500 : Nat)) := by decide +kernel

theorem test_meets_DroopSlewAndRails_3 :
    ((clusKey (0 : Fin 4) (0 : Fin 13) : Nat) = clusKey (0 : Fin 4) (0 : Fin 13)) ∧ ((min 360 (max 200 ((Tests.noIslands).railNeed (0 : Fin 4) (0 : Fin 13))) : Nat) = min 360 (max 200 ((Tests.noIslands).railNeed (0 : Fin 4) (0 : Fin 13)))) ∧ (((if (Tests.noIslands).rail (0 : Fin 4) (0 : Fin 13) < (min 360 (max 200 ((Tests.noIslands).railNeed (0 : Fin 4) (0 : Fin 13))) : Nat) then min (min 360 (max 200 ((Tests.noIslands).railNeed (0 : Fin 4) (0 : Fin 13))) : Nat) ((Tests.noIslands).rail (0 : Fin 4) (0 : Fin 13) + 4) else if (min 360 (max 200 ((Tests.noIslands).railNeed (0 : Fin 4) (0 : Fin 13))) : Nat) < (Tests.noIslands).rail (0 : Fin 4) (0 : Fin 13) ∧ (Tests.noIslands).pw.railFall.getD (clusKey (0 : Fin 4) (0 : Fin 13) : Nat) false = true then max (min 360 (max 200 ((Tests.noIslands).railNeed (0 : Fin 4) (0 : Fin 13))) : Nat) ((Tests.noIslands).rail (0 : Fin 4) (0 : Fin 13) - 4) else (Tests.noIslands).rail (0 : Fin 4) (0 : Fin 13) : Nat) = if (Tests.noIslands).rail (0 : Fin 4) (0 : Fin 13) < (min 360 (max 200 ((Tests.noIslands).railNeed (0 : Fin 4) (0 : Fin 13))) : Nat) then min (min 360 (max 200 ((Tests.noIslands).railNeed (0 : Fin 4) (0 : Fin 13))) : Nat) ((Tests.noIslands).rail (0 : Fin 4) (0 : Fin 13) + 4)
        else if (min 360 (max 200 ((Tests.noIslands).railNeed (0 : Fin 4) (0 : Fin 13))) : Nat) < (Tests.noIslands).rail (0 : Fin 4) (0 : Fin 13) ∧ (Tests.noIslands).pw.railFall.getD (clusKey (0 : Fin 4) (0 : Fin 13) : Nat) false = true then max (min 360 (max 200 ((Tests.noIslands).railNeed (0 : Fin 4) (0 : Fin 13))) : Nat) ((Tests.noIslands).rail (0 : Fin 4) (0 : Fin 13) - 4) else (Tests.noIslands).rail (0 : Fin 4) (0 : Fin 13))) ∧ (((Tests.noIslands).setPw { (Tests.noIslands).pw with rails := (Tests.noIslands).pw.rails.putD (clusKey (0 : Fin 4) (0 : Fin 13) : Nat) (if (Tests.noIslands).rail (0 : Fin 4) (0 : Fin 13) < (min 360 (max 200 ((Tests.noIslands).railNeed (0 : Fin 4) (0 : Fin 13))) : Nat) then min (min 360 (max 200 ((Tests.noIslands).railNeed (0 : Fin 4) (0 : Fin 13))) : Nat) ((Tests.noIslands).rail (0 : Fin 4) (0 : Fin 13) + 4) else if (min 360 (max 200 ((Tests.noIslands).railNeed (0 : Fin 4) (0 : Fin 13))) : Nat) < (Tests.noIslands).rail (0 : Fin 4) (0 : Fin 13) ∧ (Tests.noIslands).pw.railFall.getD (clusKey (0 : Fin 4) (0 : Fin 13) : Nat) false = true then max (min 360 (max 200 ((Tests.noIslands).railNeed (0 : Fin 4) (0 : Fin 13))) : Nat) ((Tests.noIslands).rail (0 : Fin 4) (0 : Fin 13) - 4) else (Tests.noIslands).rail (0 : Fin 4) (0 : Fin 13) : Nat) 300, railFall := (Tests.noIslands).pw.railFall.putD (clusKey (0 : Fin 4) (0 : Fin 13) : Nat) (decide ((min 360 (max 200 ((Tests.noIslands).railNeed (0 : Fin 4) (0 : Fin 13))) : Nat) < (if (Tests.noIslands).rail (0 : Fin 4) (0 : Fin 13) < (min 360 (max 200 ((Tests.noIslands).railNeed (0 : Fin 4) (0 : Fin 13))) : Nat) then min (min 360 (max 200 ((Tests.noIslands).railNeed (0 : Fin 4) (0 : Fin 13))) : Nat) ((Tests.noIslands).rail (0 : Fin 4) (0 : Fin 13) + 4) else if (min 360 (max 200 ((Tests.noIslands).railNeed (0 : Fin 4) (0 : Fin 13))) : Nat) < (Tests.noIslands).rail (0 : Fin 4) (0 : Fin 13) ∧ (Tests.noIslands).pw.railFall.getD (clusKey (0 : Fin 4) (0 : Fin 13) : Nat) false = true then max (min 360 (max 200 ((Tests.noIslands).railNeed (0 : Fin 4) (0 : Fin 13))) : Nat) ((Tests.noIslands).rail (0 : Fin 4) (0 : Fin 13) - 4) else (Tests.noIslands).rail (0 : Fin 4) (0 : Fin 13) : Nat)) && (Tests.noIslands).pw.railFall.getD (clusKey (0 : Fin 4) (0 : Fin 13) : Nat) false) false } : State) = (Tests.noIslands).setPw { (Tests.noIslands).pw with rails := (Tests.noIslands).pw.rails.putD (clusKey (0 : Fin 4) (0 : Fin 13) : Nat) (if (Tests.noIslands).rail (0 : Fin 4) (0 : Fin 13) < (min 360 (max 200 ((Tests.noIslands).railNeed (0 : Fin 4) (0 : Fin 13))) : Nat) then min (min 360 (max 200 ((Tests.noIslands).railNeed (0 : Fin 4) (0 : Fin 13))) : Nat) ((Tests.noIslands).rail (0 : Fin 4) (0 : Fin 13) + 4) else if (min 360 (max 200 ((Tests.noIslands).railNeed (0 : Fin 4) (0 : Fin 13))) : Nat) < (Tests.noIslands).rail (0 : Fin 4) (0 : Fin 13) ∧ (Tests.noIslands).pw.railFall.getD (clusKey (0 : Fin 4) (0 : Fin 13) : Nat) false = true then max (min 360 (max 200 ((Tests.noIslands).railNeed (0 : Fin 4) (0 : Fin 13))) : Nat) ((Tests.noIslands).rail (0 : Fin 4) (0 : Fin 13) - 4) else (Tests.noIslands).rail (0 : Fin 4) (0 : Fin 13) : Nat) 300, railFall := (Tests.noIslands).pw.railFall.putD (clusKey (0 : Fin 4) (0 : Fin 13) : Nat) (decide ((min 360 (max 200 ((Tests.noIslands).railNeed (0 : Fin 4) (0 : Fin 13))) : Nat) < (if (Tests.noIslands).rail (0 : Fin 4) (0 : Fin 13) < (min 360 (max 200 ((Tests.noIslands).railNeed (0 : Fin 4) (0 : Fin 13))) : Nat) then min (min 360 (max 200 ((Tests.noIslands).railNeed (0 : Fin 4) (0 : Fin 13))) : Nat) ((Tests.noIslands).rail (0 : Fin 4) (0 : Fin 13) + 4) else if (min 360 (max 200 ((Tests.noIslands).railNeed (0 : Fin 4) (0 : Fin 13))) : Nat) < (Tests.noIslands).rail (0 : Fin 4) (0 : Fin 13) ∧ (Tests.noIslands).pw.railFall.getD (clusKey (0 : Fin 4) (0 : Fin 13) : Nat) false = true then max (min 360 (max 200 ((Tests.noIslands).railNeed (0 : Fin 4) (0 : Fin 13))) : Nat) ((Tests.noIslands).rail (0 : Fin 4) (0 : Fin 13) - 4) else (Tests.noIslands).rail (0 : Fin 4) (0 : Fin 13) : Nat)) && (Tests.noIslands).pw.railFall.getD (clusKey (0 : Fin 4) (0 : Fin 13) : Nat) false) false }) ∧
    ((Tests.noIslands).railNeed (0 : Fin 4) (0 : Fin 13) < (Tests.noIslands).rail (0 : Fin 4) (0 : Fin 13)) := by decide +kernel

theorem test_meets_SensorsAndThermalCap_r1 :
    ((((Tests.up).spot (430 : Fin 440)).sampled (400 : Int) (408 : Int) (5 : Nat) : Spot) = ((Tests.up).spot (430 : Fin 440)).sampled (400 : Int) (408 : Int) (5 : Nat)) ∧
    (((if (((Tests.up).spot (430 : Fin 440)).sampled (400 : Int) (408 : Int) (5 : Nat) : Spot).failA then ((((Tests.up).spot (430 : Fin 440)).sampled (400 : Int) (408 : Int) (5 : Nat) : Spot).lastA, (((Tests.up).spot (430 : Fin 440)).sampled (400 : Int) (408 : Int) (5 : Nat) : Spot).jumpA, none) else sensorStep (((Tests.up).spot (430 : Fin 440)).sampled (400 : Int) (408 : Int) (5 : Nat) : Spot).lastA (((Tests.up).spot (430 : Fin 440)).sampled (400 : Int) (408 : Int) (5 : Nat) : Spot).jumpA (400 : Int) ((((Tests.up).spot (430 : Fin 440)).sampled (400 : Int) (408 : Int) (5 : Nat) : Spot).stuck (fun e => e.1)) : Option Int × Nat × Option Nat) = if (((Tests.up).spot (430 : Fin 440)).sampled (400 : Int) (408 : Int) (5 : Nat) : Spot).failA then ((((Tests.up).spot (430 : Fin 440)).sampled (400 : Int) (408 : Int) (5 : Nat) : Spot).lastA, (((Tests.up).spot (430 : Fin 440)).sampled (400 : Int) (408 : Int) (5 : Nat) : Spot).jumpA, none) else sensorStep (((Tests.up).spot (430 : Fin 440)).sampled (400 : Int) (408 : Int) (5 : Nat) : Spot).lastA (((Tests.up).spot (430 : Fin 440)).sampled (400 : Int) (408 : Int) (5 : Nat) : Spot).jumpA (400 : Int) ((((Tests.up).spot (430 : Fin 440)).sampled (400 : Int) (408 : Int) (5 : Nat) : Spot).stuck (fun e => e.1)))) ∧
    (((if (((Tests.up).spot (430 : Fin 440)).sampled (400 : Int) (408 : Int) (5 : Nat) : Spot).failB then ((((Tests.up).spot (430 : Fin 440)).sampled (400 : Int) (408 : Int) (5 : Nat) : Spot).lastB, (((Tests.up).spot (430 : Fin 440)).sampled (400 : Int) (408 : Int) (5 : Nat) : Spot).jumpB, none) else sensorStep (((Tests.up).spot (430 : Fin 440)).sampled (400 : Int) (408 : Int) (5 : Nat) : Spot).lastB (((Tests.up).spot (430 : Fin 440)).sampled (400 : Int) (408 : Int) (5 : Nat) : Spot).jumpB (408 : Int) ((((Tests.up).spot (430 : Fin 440)).sampled (400 : Int) (408 : Int) (5 : Nat) : Spot).stuck (fun e => e.2.1)) : Option Int × Nat × Option Nat) = if (((Tests.up).spot (430 : Fin 440)).sampled (400 : Int) (408 : Int) (5 : Nat) : Spot).failB then ((((Tests.up).spot (430 : Fin 440)).sampled (400 : Int) (408 : Int) (5 : Nat) : Spot).lastB, (((Tests.up).spot (430 : Fin 440)).sampled (400 : Int) (408 : Int) (5 : Nat) : Spot).jumpB, none) else sensorStep (((Tests.up).spot (430 : Fin 440)).sampled (400 : Int) (408 : Int) (5 : Nat) : Spot).lastB (((Tests.up).spot (430 : Fin 440)).sampled (400 : Int) (408 : Int) (5 : Nat) : Spot).jumpB (408 : Int) ((((Tests.up).spot (430 : Fin 440)).sampled (400 : Int) (408 : Int) (5 : Nat) : Spot).stuck (fun e => e.2.1)))) ∧
    (((match (if (((Tests.up).spot (430 : Fin 440)).sampled (400 : Int) (408 : Int) (5 : Nat) : Spot).failA then ((((Tests.up).spot (430 : Fin 440)).sampled (400 : Int) (408 : Int) (5 : Nat) : Spot).lastA, (((Tests.up).spot (430 : Fin 440)).sampled (400 : Int) (408 : Int) (5 : Nat) : Spot).jumpA, none) else sensorStep (((Tests.up).spot (430 : Fin 440)).sampled (400 : Int) (408 : Int) (5 : Nat) : Spot).lastA (((Tests.up).spot (430 : Fin 440)).sampled (400 : Int) (408 : Int) (5 : Nat) : Spot).jumpA (400 : Int) ((((Tests.up).spot (430 : Fin 440)).sampled (400 : Int) (408 : Int) (5 : Nat) : Spot).stuck (fun e => e.1)) : Option Int × Nat × Option Nat).2.2 with | some c => (Tests.up).sensorFail (430 : Fin 440) false c | none => (Tests.up)) = match (if (((Tests.up).spot (430 : Fin 440)).sampled (400 : Int) (408 : Int) (5 : Nat) : Spot).failA then ((((Tests.up).spot (430 : Fin 440)).sampled (400 : Int) (408 : Int) (5 : Nat) : Spot).lastA, (((Tests.up).spot (430 : Fin 440)).sampled (400 : Int) (408 : Int) (5 : Nat) : Spot).jumpA, none) else sensorStep (((Tests.up).spot (430 : Fin 440)).sampled (400 : Int) (408 : Int) (5 : Nat) : Spot).lastA (((Tests.up).spot (430 : Fin 440)).sampled (400 : Int) (408 : Int) (5 : Nat) : Spot).jumpA (400 : Int) ((((Tests.up).spot (430 : Fin 440)).sampled (400 : Int) (408 : Int) (5 : Nat) : Spot).stuck (fun e => e.1)) : Option Int × Nat × Option Nat).2.2 with | some c => (Tests.up).sensorFail (430 : Fin 440) false c | none => (Tests.up))) ∧
    (((match (if (((Tests.up).spot (430 : Fin 440)).sampled (400 : Int) (408 : Int) (5 : Nat) : Spot).failB then ((((Tests.up).spot (430 : Fin 440)).sampled (400 : Int) (408 : Int) (5 : Nat) : Spot).lastB, (((Tests.up).spot (430 : Fin 440)).sampled (400 : Int) (408 : Int) (5 : Nat) : Spot).jumpB, none) else sensorStep (((Tests.up).spot (430 : Fin 440)).sampled (400 : Int) (408 : Int) (5 : Nat) : Spot).lastB (((Tests.up).spot (430 : Fin 440)).sampled (400 : Int) (408 : Int) (5 : Nat) : Spot).jumpB (408 : Int) ((((Tests.up).spot (430 : Fin 440)).sampled (400 : Int) (408 : Int) (5 : Nat) : Spot).stuck (fun e => e.2.1)) : Option Int × Nat × Option Nat).2.2 with | some c => (match (if (((Tests.up).spot (430 : Fin 440)).sampled (400 : Int) (408 : Int) (5 : Nat) : Spot).failA then ((((Tests.up).spot (430 : Fin 440)).sampled (400 : Int) (408 : Int) (5 : Nat) : Spot).lastA, (((Tests.up).spot (430 : Fin 440)).sampled (400 : Int) (408 : Int) (5 : Nat) : Spot).jumpA, none) else sensorStep (((Tests.up).spot (430 : Fin 440)).sampled (400 : Int) (408 : Int) (5 : Nat) : Spot).lastA (((Tests.up).spot (430 : Fin 440)).sampled (400 : Int) (408 : Int) (5 : Nat) : Spot).jumpA (400 : Int) ((((Tests.up).spot (430 : Fin 440)).sampled (400 : Int) (408 : Int) (5 : Nat) : Spot).stuck (fun e => e.1)) : Option Int × Nat × Option Nat).2.2 with | some c => (Tests.up).sensorFail (430 : Fin 440) false c | none => (Tests.up)).sensorFail (430 : Fin 440) true c | none => (match (if (((Tests.up).spot (430 : Fin 440)).sampled (400 : Int) (408 : Int) (5 : Nat) : Spot).failA then ((((Tests.up).spot (430 : Fin 440)).sampled (400 : Int) (408 : Int) (5 : Nat) : Spot).lastA, (((Tests.up).spot (430 : Fin 440)).sampled (400 : Int) (408 : Int) (5 : Nat) : Spot).jumpA, none) else sensorStep (((Tests.up).spot (430 : Fin 440)).sampled (400 : Int) (408 : Int) (5 : Nat) : Spot).lastA (((Tests.up).spot (430 : Fin 440)).sampled (400 : Int) (408 : Int) (5 : Nat) : Spot).jumpA (400 : Int) ((((Tests.up).spot (430 : Fin 440)).sampled (400 : Int) (408 : Int) (5 : Nat) : Spot).stuck (fun e => e.1)) : Option Int × Nat × Option Nat).2.2 with | some c => (Tests.up).sensorFail (430 : Fin 440) false c | none => (Tests.up))) = match (if (((Tests.up).spot (430 : Fin 440)).sampled (400 : Int) (408 : Int) (5 : Nat) : Spot).failB then ((((Tests.up).spot (430 : Fin 440)).sampled (400 : Int) (408 : Int) (5 : Nat) : Spot).lastB, (((Tests.up).spot (430 : Fin 440)).sampled (400 : Int) (408 : Int) (5 : Nat) : Spot).jumpB, none) else sensorStep (((Tests.up).spot (430 : Fin 440)).sampled (400 : Int) (408 : Int) (5 : Nat) : Spot).lastB (((Tests.up).spot (430 : Fin 440)).sampled (400 : Int) (408 : Int) (5 : Nat) : Spot).jumpB (408 : Int) ((((Tests.up).spot (430 : Fin 440)).sampled (400 : Int) (408 : Int) (5 : Nat) : Spot).stuck (fun e => e.2.1)) : Option Int × Nat × Option Nat).2.2 with | some c => (match (if (((Tests.up).spot (430 : Fin 440)).sampled (400 : Int) (408 : Int) (5 : Nat) : Spot).failA then ((((Tests.up).spot (430 : Fin 440)).sampled (400 : Int) (408 : Int) (5 : Nat) : Spot).lastA, (((Tests.up).spot (430 : Fin 440)).sampled (400 : Int) (408 : Int) (5 : Nat) : Spot).jumpA, none) else sensorStep (((Tests.up).spot (430 : Fin 440)).sampled (400 : Int) (408 : Int) (5 : Nat) : Spot).lastA (((Tests.up).spot (430 : Fin 440)).sampled (400 : Int) (408 : Int) (5 : Nat) : Spot).jumpA (400 : Int) ((((Tests.up).spot (430 : Fin 440)).sampled (400 : Int) (408 : Int) (5 : Nat) : Spot).stuck (fun e => e.1)) : Option Int × Nat × Option Nat).2.2 with | some c => (Tests.up).sensorFail (430 : Fin 440) false c | none => (Tests.up)).sensorFail (430 : Fin 440) true c | none => (match (if (((Tests.up).spot (430 : Fin 440)).sampled (400 : Int) (408 : Int) (5 : Nat) : Spot).failA then ((((Tests.up).spot (430 : Fin 440)).sampled (400 : Int) (408 : Int) (5 : Nat) : Spot).lastA, (((Tests.up).spot (430 : Fin 440)).sampled (400 : Int) (408 : Int) (5 : Nat) : Spot).jumpA, none) else sensorStep (((Tests.up).spot (430 : Fin 440)).sampled (400 : Int) (408 : Int) (5 : Nat) : Spot).lastA (((Tests.up).spot (430 : Fin 440)).sampled (400 : Int) (408 : Int) (5 : Nat) : Spot).jumpA (400 : Int) ((((Tests.up).spot (430 : Fin 440)).sampled (400 : Int) (408 : Int) (5 : Nat) : Spot).stuck (fun e => e.1)) : Option Int × Nat × Option Nat).2.2 with | some c => (Tests.up).sensorFail (430 : Fin 440) false c | none => (Tests.up)))) ∧
    (((match (if (((Tests.up).spot (430 : Fin 440)).sampled (400 : Int) (408 : Int) (5 : Nat) : Spot).failB then ((((Tests.up).spot (430 : Fin 440)).sampled (400 : Int) (408 : Int) (5 : Nat) : Spot).lastB, (((Tests.up).spot (430 : Fin 440)).sampled (400 : Int) (408 : Int) (5 : Nat) : Spot).jumpB, none) else sensorStep (((Tests.up).spot (430 : Fin 440)).sampled (400 : Int) (408 : Int) (5 : Nat) : Spot).lastB (((Tests.up).spot (430 : Fin 440)).sampled (400 : Int) (408 : Int) (5 : Nat) : Spot).jumpB (408 : Int) ((((Tests.up).spot (430 : Fin 440)).sampled (400 : Int) (408 : Int) (5 : Nat) : Spot).stuck (fun e => e.2.1)) : Option Int × Nat × Option Nat).2.2 with | some c => (match (if (((Tests.up).spot (430 : Fin 440)).sampled (400 : Int) (408 : Int) (5 : Nat) : Spot).failA then ((((Tests.up).spot (430 : Fin 440)).sampled (400 : Int) (408 : Int) (5 : Nat) : Spot).lastA, (((Tests.up).spot (430 : Fin 440)).sampled (400 : Int) (408 : Int) (5 : Nat) : Spot).jumpA, none) else sensorStep (((Tests.up).spot (430 : Fin 440)).sampled (400 : Int) (408 : Int) (5 : Nat) : Spot).lastA (((Tests.up).spot (430 : Fin 440)).sampled (400 : Int) (408 : Int) (5 : Nat) : Spot).jumpA (400 : Int) ((((Tests.up).spot (430 : Fin 440)).sampled (400 : Int) (408 : Int) (5 : Nat) : Spot).stuck (fun e => e.1)) : Option Int × Nat × Option Nat).2.2 with | some c => (Tests.up).sensorFail (430 : Fin 440) false c | none => (Tests.up)).sensorFail (430 : Fin 440) true c | none => (match (if (((Tests.up).spot (430 : Fin 440)).sampled (400 : Int) (408 : Int) (5 : Nat) : Spot).failA then ((((Tests.up).spot (430 : Fin 440)).sampled (400 : Int) (408 : Int) (5 : Nat) : Spot).lastA, (((Tests.up).spot (430 : Fin 440)).sampled (400 : Int) (408 : Int) (5 : Nat) : Spot).jumpA, none) else sensorStep (((Tests.up).spot (430 : Fin 440)).sampled (400 : Int) (408 : Int) (5 : Nat) : Spot).lastA (((Tests.up).spot (430 : Fin 440)).sampled (400 : Int) (408 : Int) (5 : Nat) : Spot).jumpA (400 : Int) ((((Tests.up).spot (430 : Fin 440)).sampled (400 : Int) (408 : Int) (5 : Nat) : Spot).stuck (fun e => e.1)) : Option Int × Nat × Option Nat).2.2 with | some c => (Tests.up).sensorFail (430 : Fin 440) false c | none => (Tests.up))).setSpot (430 : Fin 440) { (({ Spot.init with lastA := some 400, lastB := some 408, hist := [(400, 408, 5)] } : Spot) : Spot) with tctl := max ((({ Spot.init with lastA := some 400, lastB := some 408, hist := [(400, 408, 5)] } : Spot) : Spot).formH (400 : Int)) ((Tests.up).forecast (430 : Fin 440) (400 : Int) - 24), fore := (Tests.up).forecast (430 : Fin 440) (400 : Int) } : State) = (match (if (((Tests.up).spot (430 : Fin 440)).sampled (400 : Int) (408 : Int) (5 : Nat) : Spot).failB then ((((Tests.up).spot (430 : Fin 440)).sampled (400 : Int) (408 : Int) (5 : Nat) : Spot).lastB, (((Tests.up).spot (430 : Fin 440)).sampled (400 : Int) (408 : Int) (5 : Nat) : Spot).jumpB, none) else sensorStep (((Tests.up).spot (430 : Fin 440)).sampled (400 : Int) (408 : Int) (5 : Nat) : Spot).lastB (((Tests.up).spot (430 : Fin 440)).sampled (400 : Int) (408 : Int) (5 : Nat) : Spot).jumpB (408 : Int) ((((Tests.up).spot (430 : Fin 440)).sampled (400 : Int) (408 : Int) (5 : Nat) : Spot).stuck (fun e => e.2.1)) : Option Int × Nat × Option Nat).2.2 with | some c => (match (if (((Tests.up).spot (430 : Fin 440)).sampled (400 : Int) (408 : Int) (5 : Nat) : Spot).failA then ((((Tests.up).spot (430 : Fin 440)).sampled (400 : Int) (408 : Int) (5 : Nat) : Spot).lastA, (((Tests.up).spot (430 : Fin 440)).sampled (400 : Int) (408 : Int) (5 : Nat) : Spot).jumpA, none) else sensorStep (((Tests.up).spot (430 : Fin 440)).sampled (400 : Int) (408 : Int) (5 : Nat) : Spot).lastA (((Tests.up).spot (430 : Fin 440)).sampled (400 : Int) (408 : Int) (5 : Nat) : Spot).jumpA (400 : Int) ((((Tests.up).spot (430 : Fin 440)).sampled (400 : Int) (408 : Int) (5 : Nat) : Spot).stuck (fun e => e.1)) : Option Int × Nat × Option Nat).2.2 with | some c => (Tests.up).sensorFail (430 : Fin 440) false c | none => (Tests.up)).sensorFail (430 : Fin 440) true c | none => (match (if (((Tests.up).spot (430 : Fin 440)).sampled (400 : Int) (408 : Int) (5 : Nat) : Spot).failA then ((((Tests.up).spot (430 : Fin 440)).sampled (400 : Int) (408 : Int) (5 : Nat) : Spot).lastA, (((Tests.up).spot (430 : Fin 440)).sampled (400 : Int) (408 : Int) (5 : Nat) : Spot).jumpA, none) else sensorStep (((Tests.up).spot (430 : Fin 440)).sampled (400 : Int) (408 : Int) (5 : Nat) : Spot).lastA (((Tests.up).spot (430 : Fin 440)).sampled (400 : Int) (408 : Int) (5 : Nat) : Spot).jumpA (400 : Int) ((((Tests.up).spot (430 : Fin 440)).sampled (400 : Int) (408 : Int) (5 : Nat) : Spot).stuck (fun e => e.1)) : Option Int × Nat × Option Nat).2.2 with | some c => (Tests.up).sensorFail (430 : Fin 440) false c | none => (Tests.up))).setSpot (430 : Fin 440) { (({ Spot.init with lastA := some 400, lastB := some 408, hist := [(400, 408, 5)] } : Spot) : Spot) with tctl := max ((({ Spot.init with lastA := some 400, lastB := some 408, hist := [(400, 408, 5)] } : Spot) : Spot).formH (400 : Int)) ((Tests.up).forecast (430 : Fin 440) (400 : Int) - 24), fore := (Tests.up).forecast (430 : Fin 440) (400 : Int) }) ∧
    ((({ Spot.init with lastA := some 400, lastB := some 408, hist := [(400, 408, 5)] } : Spot) : Spot) = { (((Tests.up).spot (430 : Fin 440)).sampled (400 : Int) (408 : Int) (5 : Nat) : Spot) with lastA := (if (((Tests.up).spot (430 : Fin 440)).sampled (400 : Int) (408 : Int) (5 : Nat) : Spot).failA then ((((Tests.up).spot (430 : Fin 440)).sampled (400 : Int) (408 : Int) (5 : Nat) : Spot).lastA, (((Tests.up).spot (430 : Fin 440)).sampled (400 : Int) (408 : Int) (5 : Nat) : Spot).jumpA, none) else sensorStep (((Tests.up).spot (430 : Fin 440)).sampled (400 : Int) (408 : Int) (5 : Nat) : Spot).lastA (((Tests.up).spot (430 : Fin 440)).sampled (400 : Int) (408 : Int) (5 : Nat) : Spot).jumpA (400 : Int) ((((Tests.up).spot (430 : Fin 440)).sampled (400 : Int) (408 : Int) (5 : Nat) : Spot).stuck (fun e => e.1)) : Option Int × Nat × Option Nat).1, jumpA := (if (((Tests.up).spot (430 : Fin 440)).sampled (400 : Int) (408 : Int) (5 : Nat) : Spot).failA then ((((Tests.up).spot (430 : Fin 440)).sampled (400 : Int) (408 : Int) (5 : Nat) : Spot).lastA, (((Tests.up).spot (430 : Fin 440)).sampled (400 : Int) (408 : Int) (5 : Nat) : Spot).jumpA, none) else sensorStep (((Tests.up).spot (430 : Fin 440)).sampled (400 : Int) (408 : Int) (5 : Nat) : Spot).lastA (((Tests.up).spot (430 : Fin 440)).sampled (400 : Int) (408 : Int) (5 : Nat) : Spot).jumpA (400 : Int) ((((Tests.up).spot (430 : Fin 440)).sampled (400 : Int) (408 : Int) (5 : Nat) : Spot).stuck (fun e => e.1)) : Option Int × Nat × Option Nat).2.1, failA := (((Tests.up).spot (430 : Fin 440)).sampled (400 : Int) (408 : Int) (5 : Nat) : Spot).failA || (if (((Tests.up).spot (430 : Fin 440)).sampled (400 : Int) (408 : Int) (5 : Nat) : Spot).failA then ((((Tests.up).spot (430 : Fin 440)).sampled (400 : Int) (408 : Int) (5 : Nat) : Spot).lastA, (((Tests.up).spot (430 : Fin 440)).sampled (400 : Int) (408 : Int) (5 : Nat) : Spot).jumpA, none) else sensorStep (((Tests.up).spot (430 : Fin 440)).sampled (400 : Int) (408 : Int) (5 : Nat) : Spot).lastA (((Tests.up).spot (430 : Fin 440)).sampled (400 : Int) (408 : Int) (5 : Nat) : Spot).jumpA (400 : Int) ((((Tests.up).spot (430 : Fin 440)).sampled (400 : Int) (408 : Int) (5 : Nat) : Spot).stuck (fun e => e.1)) : Option Int × Nat × Option Nat).2.2.isSome, lastB := (if (((Tests.up).spot (430 : Fin 440)).sampled (400 : Int) (408 : Int) (5 : Nat) : Spot).failB then ((((Tests.up).spot (430 : Fin 440)).sampled (400 : Int) (408 : Int) (5 : Nat) : Spot).lastB, (((Tests.up).spot (430 : Fin 440)).sampled (400 : Int) (408 : Int) (5 : Nat) : Spot).jumpB, none) else sensorStep (((Tests.up).spot (430 : Fin 440)).sampled (400 : Int) (408 : Int) (5 : Nat) : Spot).lastB (((Tests.up).spot (430 : Fin 440)).sampled (400 : Int) (408 : Int) (5 : Nat) : Spot).jumpB (408 : Int) ((((Tests.up).spot (430 : Fin 440)).sampled (400 : Int) (408 : Int) (5 : Nat) : Spot).stuck (fun e => e.2.1)) : Option Int × Nat × Option Nat).1, jumpB := (if (((Tests.up).spot (430 : Fin 440)).sampled (400 : Int) (408 : Int) (5 : Nat) : Spot).failB then ((((Tests.up).spot (430 : Fin 440)).sampled (400 : Int) (408 : Int) (5 : Nat) : Spot).lastB, (((Tests.up).spot (430 : Fin 440)).sampled (400 : Int) (408 : Int) (5 : Nat) : Spot).jumpB, none) else sensorStep (((Tests.up).spot (430 : Fin 440)).sampled (400 : Int) (408 : Int) (5 : Nat) : Spot).lastB (((Tests.up).spot (430 : Fin 440)).sampled (400 : Int) (408 : Int) (5 : Nat) : Spot).jumpB (408 : Int) ((((Tests.up).spot (430 : Fin 440)).sampled (400 : Int) (408 : Int) (5 : Nat) : Spot).stuck (fun e => e.2.1)) : Option Int × Nat × Option Nat).2.1, failB := (((Tests.up).spot (430 : Fin 440)).sampled (400 : Int) (408 : Int) (5 : Nat) : Spot).failB || (if (((Tests.up).spot (430 : Fin 440)).sampled (400 : Int) (408 : Int) (5 : Nat) : Spot).failB then ((((Tests.up).spot (430 : Fin 440)).sampled (400 : Int) (408 : Int) (5 : Nat) : Spot).lastB, (((Tests.up).spot (430 : Fin 440)).sampled (400 : Int) (408 : Int) (5 : Nat) : Spot).jumpB, none) else sensorStep (((Tests.up).spot (430 : Fin 440)).sampled (400 : Int) (408 : Int) (5 : Nat) : Spot).lastB (((Tests.up).spot (430 : Fin 440)).sampled (400 : Int) (408 : Int) (5 : Nat) : Spot).jumpB (408 : Int) ((((Tests.up).spot (430 : Fin 440)).sampled (400 : Int) (408 : Int) (5 : Nat) : Spot).stuck (fun e => e.2.1)) : Option Int × Nat × Option Nat).2.2.isSome }) ∧
    ((({ Spot.init with lastA := some 400, lastB := some 408, hist := [(400, 408, 5)] } : Spot) : Spot).judgePair = ((({ Spot.init with lastA := some 400, lastB := some 408, hist := [(400, 408, 5)] } : Spot) : Spot), (false : Bool))) ∧
    ((({ Spot.init with lastA := some 400, lastB := some 408, hist := [(400, 408, 5)] } : Spot) : Spot).judgeDrift (400 : Int) = ((({ Spot.init with lastA := some 400, lastB := some 408, hist := [(400, 408, 5)] } : Spot) : Spot), (false : Bool))) ∧
    ((false : Bool) = false) ∧
    ((false : Bool) = false) :=
  ⟨rfl, rfl, rfl, rfl, rfl, rfl, by decide +kernel⟩

theorem test_meets_SensorsAndThermalCap_r2 :
    ((((Tests.up).spot (0 : Fin 440)).sampled (1300 : Int) (408 : Int) (5 : Nat) : Spot) = ((Tests.up).spot (0 : Fin 440)).sampled (1300 : Int) (408 : Int) (5 : Nat)) ∧
    (((if (((Tests.up).spot (0 : Fin 440)).sampled (1300 : Int) (408 : Int) (5 : Nat) : Spot).failA then ((((Tests.up).spot (0 : Fin 440)).sampled (1300 : Int) (408 : Int) (5 : Nat) : Spot).lastA, (((Tests.up).spot (0 : Fin 440)).sampled (1300 : Int) (408 : Int) (5 : Nat) : Spot).jumpA, none) else sensorStep (((Tests.up).spot (0 : Fin 440)).sampled (1300 : Int) (408 : Int) (5 : Nat) : Spot).lastA (((Tests.up).spot (0 : Fin 440)).sampled (1300 : Int) (408 : Int) (5 : Nat) : Spot).jumpA (1300 : Int) ((((Tests.up).spot (0 : Fin 440)).sampled (1300 : Int) (408 : Int) (5 : Nat) : Spot).stuck (fun e => e.1)) : Option Int × Nat × Option Nat) = if (((Tests.up).spot (0 : Fin 440)).sampled (1300 : Int) (408 : Int) (5 : Nat) : Spot).failA then ((((Tests.up).spot (0 : Fin 440)).sampled (1300 : Int) (408 : Int) (5 : Nat) : Spot).lastA, (((Tests.up).spot (0 : Fin 440)).sampled (1300 : Int) (408 : Int) (5 : Nat) : Spot).jumpA, none) else sensorStep (((Tests.up).spot (0 : Fin 440)).sampled (1300 : Int) (408 : Int) (5 : Nat) : Spot).lastA (((Tests.up).spot (0 : Fin 440)).sampled (1300 : Int) (408 : Int) (5 : Nat) : Spot).jumpA (1300 : Int) ((((Tests.up).spot (0 : Fin 440)).sampled (1300 : Int) (408 : Int) (5 : Nat) : Spot).stuck (fun e => e.1)))) ∧
    (((if (((Tests.up).spot (0 : Fin 440)).sampled (1300 : Int) (408 : Int) (5 : Nat) : Spot).failB then ((((Tests.up).spot (0 : Fin 440)).sampled (1300 : Int) (408 : Int) (5 : Nat) : Spot).lastB, (((Tests.up).spot (0 : Fin 440)).sampled (1300 : Int) (408 : Int) (5 : Nat) : Spot).jumpB, none) else sensorStep (((Tests.up).spot (0 : Fin 440)).sampled (1300 : Int) (408 : Int) (5 : Nat) : Spot).lastB (((Tests.up).spot (0 : Fin 440)).sampled (1300 : Int) (408 : Int) (5 : Nat) : Spot).jumpB (408 : Int) ((((Tests.up).spot (0 : Fin 440)).sampled (1300 : Int) (408 : Int) (5 : Nat) : Spot).stuck (fun e => e.2.1)) : Option Int × Nat × Option Nat) = if (((Tests.up).spot (0 : Fin 440)).sampled (1300 : Int) (408 : Int) (5 : Nat) : Spot).failB then ((((Tests.up).spot (0 : Fin 440)).sampled (1300 : Int) (408 : Int) (5 : Nat) : Spot).lastB, (((Tests.up).spot (0 : Fin 440)).sampled (1300 : Int) (408 : Int) (5 : Nat) : Spot).jumpB, none) else sensorStep (((Tests.up).spot (0 : Fin 440)).sampled (1300 : Int) (408 : Int) (5 : Nat) : Spot).lastB (((Tests.up).spot (0 : Fin 440)).sampled (1300 : Int) (408 : Int) (5 : Nat) : Spot).jumpB (408 : Int) ((((Tests.up).spot (0 : Fin 440)).sampled (1300 : Int) (408 : Int) (5 : Nat) : Spot).stuck (fun e => e.2.1)))) ∧
    (((match (if (((Tests.up).spot (0 : Fin 440)).sampled (1300 : Int) (408 : Int) (5 : Nat) : Spot).failA then ((((Tests.up).spot (0 : Fin 440)).sampled (1300 : Int) (408 : Int) (5 : Nat) : Spot).lastA, (((Tests.up).spot (0 : Fin 440)).sampled (1300 : Int) (408 : Int) (5 : Nat) : Spot).jumpA, none) else sensorStep (((Tests.up).spot (0 : Fin 440)).sampled (1300 : Int) (408 : Int) (5 : Nat) : Spot).lastA (((Tests.up).spot (0 : Fin 440)).sampled (1300 : Int) (408 : Int) (5 : Nat) : Spot).jumpA (1300 : Int) ((((Tests.up).spot (0 : Fin 440)).sampled (1300 : Int) (408 : Int) (5 : Nat) : Spot).stuck (fun e => e.1)) : Option Int × Nat × Option Nat).2.2 with | some c => (Tests.up).sensorFail (0 : Fin 440) false c | none => (Tests.up)) = match (if (((Tests.up).spot (0 : Fin 440)).sampled (1300 : Int) (408 : Int) (5 : Nat) : Spot).failA then ((((Tests.up).spot (0 : Fin 440)).sampled (1300 : Int) (408 : Int) (5 : Nat) : Spot).lastA, (((Tests.up).spot (0 : Fin 440)).sampled (1300 : Int) (408 : Int) (5 : Nat) : Spot).jumpA, none) else sensorStep (((Tests.up).spot (0 : Fin 440)).sampled (1300 : Int) (408 : Int) (5 : Nat) : Spot).lastA (((Tests.up).spot (0 : Fin 440)).sampled (1300 : Int) (408 : Int) (5 : Nat) : Spot).jumpA (1300 : Int) ((((Tests.up).spot (0 : Fin 440)).sampled (1300 : Int) (408 : Int) (5 : Nat) : Spot).stuck (fun e => e.1)) : Option Int × Nat × Option Nat).2.2 with | some c => (Tests.up).sensorFail (0 : Fin 440) false c | none => (Tests.up))) ∧
    (((match (if (((Tests.up).spot (0 : Fin 440)).sampled (1300 : Int) (408 : Int) (5 : Nat) : Spot).failB then ((((Tests.up).spot (0 : Fin 440)).sampled (1300 : Int) (408 : Int) (5 : Nat) : Spot).lastB, (((Tests.up).spot (0 : Fin 440)).sampled (1300 : Int) (408 : Int) (5 : Nat) : Spot).jumpB, none) else sensorStep (((Tests.up).spot (0 : Fin 440)).sampled (1300 : Int) (408 : Int) (5 : Nat) : Spot).lastB (((Tests.up).spot (0 : Fin 440)).sampled (1300 : Int) (408 : Int) (5 : Nat) : Spot).jumpB (408 : Int) ((((Tests.up).spot (0 : Fin 440)).sampled (1300 : Int) (408 : Int) (5 : Nat) : Spot).stuck (fun e => e.2.1)) : Option Int × Nat × Option Nat).2.2 with | some c => (match (if (((Tests.up).spot (0 : Fin 440)).sampled (1300 : Int) (408 : Int) (5 : Nat) : Spot).failA then ((((Tests.up).spot (0 : Fin 440)).sampled (1300 : Int) (408 : Int) (5 : Nat) : Spot).lastA, (((Tests.up).spot (0 : Fin 440)).sampled (1300 : Int) (408 : Int) (5 : Nat) : Spot).jumpA, none) else sensorStep (((Tests.up).spot (0 : Fin 440)).sampled (1300 : Int) (408 : Int) (5 : Nat) : Spot).lastA (((Tests.up).spot (0 : Fin 440)).sampled (1300 : Int) (408 : Int) (5 : Nat) : Spot).jumpA (1300 : Int) ((((Tests.up).spot (0 : Fin 440)).sampled (1300 : Int) (408 : Int) (5 : Nat) : Spot).stuck (fun e => e.1)) : Option Int × Nat × Option Nat).2.2 with | some c => (Tests.up).sensorFail (0 : Fin 440) false c | none => (Tests.up)).sensorFail (0 : Fin 440) true c | none => (match (if (((Tests.up).spot (0 : Fin 440)).sampled (1300 : Int) (408 : Int) (5 : Nat) : Spot).failA then ((((Tests.up).spot (0 : Fin 440)).sampled (1300 : Int) (408 : Int) (5 : Nat) : Spot).lastA, (((Tests.up).spot (0 : Fin 440)).sampled (1300 : Int) (408 : Int) (5 : Nat) : Spot).jumpA, none) else sensorStep (((Tests.up).spot (0 : Fin 440)).sampled (1300 : Int) (408 : Int) (5 : Nat) : Spot).lastA (((Tests.up).spot (0 : Fin 440)).sampled (1300 : Int) (408 : Int) (5 : Nat) : Spot).jumpA (1300 : Int) ((((Tests.up).spot (0 : Fin 440)).sampled (1300 : Int) (408 : Int) (5 : Nat) : Spot).stuck (fun e => e.1)) : Option Int × Nat × Option Nat).2.2 with | some c => (Tests.up).sensorFail (0 : Fin 440) false c | none => (Tests.up))) = match (if (((Tests.up).spot (0 : Fin 440)).sampled (1300 : Int) (408 : Int) (5 : Nat) : Spot).failB then ((((Tests.up).spot (0 : Fin 440)).sampled (1300 : Int) (408 : Int) (5 : Nat) : Spot).lastB, (((Tests.up).spot (0 : Fin 440)).sampled (1300 : Int) (408 : Int) (5 : Nat) : Spot).jumpB, none) else sensorStep (((Tests.up).spot (0 : Fin 440)).sampled (1300 : Int) (408 : Int) (5 : Nat) : Spot).lastB (((Tests.up).spot (0 : Fin 440)).sampled (1300 : Int) (408 : Int) (5 : Nat) : Spot).jumpB (408 : Int) ((((Tests.up).spot (0 : Fin 440)).sampled (1300 : Int) (408 : Int) (5 : Nat) : Spot).stuck (fun e => e.2.1)) : Option Int × Nat × Option Nat).2.2 with | some c => (match (if (((Tests.up).spot (0 : Fin 440)).sampled (1300 : Int) (408 : Int) (5 : Nat) : Spot).failA then ((((Tests.up).spot (0 : Fin 440)).sampled (1300 : Int) (408 : Int) (5 : Nat) : Spot).lastA, (((Tests.up).spot (0 : Fin 440)).sampled (1300 : Int) (408 : Int) (5 : Nat) : Spot).jumpA, none) else sensorStep (((Tests.up).spot (0 : Fin 440)).sampled (1300 : Int) (408 : Int) (5 : Nat) : Spot).lastA (((Tests.up).spot (0 : Fin 440)).sampled (1300 : Int) (408 : Int) (5 : Nat) : Spot).jumpA (1300 : Int) ((((Tests.up).spot (0 : Fin 440)).sampled (1300 : Int) (408 : Int) (5 : Nat) : Spot).stuck (fun e => e.1)) : Option Int × Nat × Option Nat).2.2 with | some c => (Tests.up).sensorFail (0 : Fin 440) false c | none => (Tests.up)).sensorFail (0 : Fin 440) true c | none => (match (if (((Tests.up).spot (0 : Fin 440)).sampled (1300 : Int) (408 : Int) (5 : Nat) : Spot).failA then ((((Tests.up).spot (0 : Fin 440)).sampled (1300 : Int) (408 : Int) (5 : Nat) : Spot).lastA, (((Tests.up).spot (0 : Fin 440)).sampled (1300 : Int) (408 : Int) (5 : Nat) : Spot).jumpA, none) else sensorStep (((Tests.up).spot (0 : Fin 440)).sampled (1300 : Int) (408 : Int) (5 : Nat) : Spot).lastA (((Tests.up).spot (0 : Fin 440)).sampled (1300 : Int) (408 : Int) (5 : Nat) : Spot).jumpA (1300 : Int) ((((Tests.up).spot (0 : Fin 440)).sampled (1300 : Int) (408 : Int) (5 : Nat) : Spot).stuck (fun e => e.1)) : Option Int × Nat × Option Nat).2.2 with | some c => (Tests.up).sensorFail (0 : Fin 440) false c | none => (Tests.up)))) ∧
    (((match (if (((Tests.up).spot (0 : Fin 440)).sampled (1300 : Int) (408 : Int) (5 : Nat) : Spot).failB then ((((Tests.up).spot (0 : Fin 440)).sampled (1300 : Int) (408 : Int) (5 : Nat) : Spot).lastB, (((Tests.up).spot (0 : Fin 440)).sampled (1300 : Int) (408 : Int) (5 : Nat) : Spot).jumpB, none) else sensorStep (((Tests.up).spot (0 : Fin 440)).sampled (1300 : Int) (408 : Int) (5 : Nat) : Spot).lastB (((Tests.up).spot (0 : Fin 440)).sampled (1300 : Int) (408 : Int) (5 : Nat) : Spot).jumpB (408 : Int) ((((Tests.up).spot (0 : Fin 440)).sampled (1300 : Int) (408 : Int) (5 : Nat) : Spot).stuck (fun e => e.2.1)) : Option Int × Nat × Option Nat).2.2 with | some c => (match (if (((Tests.up).spot (0 : Fin 440)).sampled (1300 : Int) (408 : Int) (5 : Nat) : Spot).failA then ((((Tests.up).spot (0 : Fin 440)).sampled (1300 : Int) (408 : Int) (5 : Nat) : Spot).lastA, (((Tests.up).spot (0 : Fin 440)).sampled (1300 : Int) (408 : Int) (5 : Nat) : Spot).jumpA, none) else sensorStep (((Tests.up).spot (0 : Fin 440)).sampled (1300 : Int) (408 : Int) (5 : Nat) : Spot).lastA (((Tests.up).spot (0 : Fin 440)).sampled (1300 : Int) (408 : Int) (5 : Nat) : Spot).jumpA (1300 : Int) ((((Tests.up).spot (0 : Fin 440)).sampled (1300 : Int) (408 : Int) (5 : Nat) : Spot).stuck (fun e => e.1)) : Option Int × Nat × Option Nat).2.2 with | some c => (Tests.up).sensorFail (0 : Fin 440) false c | none => (Tests.up)).sensorFail (0 : Fin 440) true c | none => (match (if (((Tests.up).spot (0 : Fin 440)).sampled (1300 : Int) (408 : Int) (5 : Nat) : Spot).failA then ((((Tests.up).spot (0 : Fin 440)).sampled (1300 : Int) (408 : Int) (5 : Nat) : Spot).lastA, (((Tests.up).spot (0 : Fin 440)).sampled (1300 : Int) (408 : Int) (5 : Nat) : Spot).jumpA, none) else sensorStep (((Tests.up).spot (0 : Fin 440)).sampled (1300 : Int) (408 : Int) (5 : Nat) : Spot).lastA (((Tests.up).spot (0 : Fin 440)).sampled (1300 : Int) (408 : Int) (5 : Nat) : Spot).jumpA (1300 : Int) ((((Tests.up).spot (0 : Fin 440)).sampled (1300 : Int) (408 : Int) (5 : Nat) : Spot).stuck (fun e => e.1)) : Option Int × Nat × Option Nat).2.2 with | some c => (Tests.up).sensorFail (0 : Fin 440) false c | none => (Tests.up))).setSpot (0 : Fin 440) { (({ Spot.init with failA := true, lastB := some 408, hist := [(1300, 408, 5)] } : Spot) : Spot) with tctl := max ((({ Spot.init with failA := true, lastB := some 408, hist := [(1300, 408, 5)] } : Spot) : Spot).formH (400 : Int)) ((Tests.up).forecast (0 : Fin 440) (400 : Int) - 24), fore := (Tests.up).forecast (0 : Fin 440) (400 : Int) } : State) = (match (if (((Tests.up).spot (0 : Fin 440)).sampled (1300 : Int) (408 : Int) (5 : Nat) : Spot).failB then ((((Tests.up).spot (0 : Fin 440)).sampled (1300 : Int) (408 : Int) (5 : Nat) : Spot).lastB, (((Tests.up).spot (0 : Fin 440)).sampled (1300 : Int) (408 : Int) (5 : Nat) : Spot).jumpB, none) else sensorStep (((Tests.up).spot (0 : Fin 440)).sampled (1300 : Int) (408 : Int) (5 : Nat) : Spot).lastB (((Tests.up).spot (0 : Fin 440)).sampled (1300 : Int) (408 : Int) (5 : Nat) : Spot).jumpB (408 : Int) ((((Tests.up).spot (0 : Fin 440)).sampled (1300 : Int) (408 : Int) (5 : Nat) : Spot).stuck (fun e => e.2.1)) : Option Int × Nat × Option Nat).2.2 with | some c => (match (if (((Tests.up).spot (0 : Fin 440)).sampled (1300 : Int) (408 : Int) (5 : Nat) : Spot).failA then ((((Tests.up).spot (0 : Fin 440)).sampled (1300 : Int) (408 : Int) (5 : Nat) : Spot).lastA, (((Tests.up).spot (0 : Fin 440)).sampled (1300 : Int) (408 : Int) (5 : Nat) : Spot).jumpA, none) else sensorStep (((Tests.up).spot (0 : Fin 440)).sampled (1300 : Int) (408 : Int) (5 : Nat) : Spot).lastA (((Tests.up).spot (0 : Fin 440)).sampled (1300 : Int) (408 : Int) (5 : Nat) : Spot).jumpA (1300 : Int) ((((Tests.up).spot (0 : Fin 440)).sampled (1300 : Int) (408 : Int) (5 : Nat) : Spot).stuck (fun e => e.1)) : Option Int × Nat × Option Nat).2.2 with | some c => (Tests.up).sensorFail (0 : Fin 440) false c | none => (Tests.up)).sensorFail (0 : Fin 440) true c | none => (match (if (((Tests.up).spot (0 : Fin 440)).sampled (1300 : Int) (408 : Int) (5 : Nat) : Spot).failA then ((((Tests.up).spot (0 : Fin 440)).sampled (1300 : Int) (408 : Int) (5 : Nat) : Spot).lastA, (((Tests.up).spot (0 : Fin 440)).sampled (1300 : Int) (408 : Int) (5 : Nat) : Spot).jumpA, none) else sensorStep (((Tests.up).spot (0 : Fin 440)).sampled (1300 : Int) (408 : Int) (5 : Nat) : Spot).lastA (((Tests.up).spot (0 : Fin 440)).sampled (1300 : Int) (408 : Int) (5 : Nat) : Spot).jumpA (1300 : Int) ((((Tests.up).spot (0 : Fin 440)).sampled (1300 : Int) (408 : Int) (5 : Nat) : Spot).stuck (fun e => e.1)) : Option Int × Nat × Option Nat).2.2 with | some c => (Tests.up).sensorFail (0 : Fin 440) false c | none => (Tests.up))).setSpot (0 : Fin 440) { (({ Spot.init with failA := true, lastB := some 408, hist := [(1300, 408, 5)] } : Spot) : Spot) with tctl := max ((({ Spot.init with failA := true, lastB := some 408, hist := [(1300, 408, 5)] } : Spot) : Spot).formH (400 : Int)) ((Tests.up).forecast (0 : Fin 440) (400 : Int) - 24), fore := (Tests.up).forecast (0 : Fin 440) (400 : Int) }) ∧
    ((({ Spot.init with failA := true, lastB := some 408, hist := [(1300, 408, 5)] } : Spot) : Spot) = { (((Tests.up).spot (0 : Fin 440)).sampled (1300 : Int) (408 : Int) (5 : Nat) : Spot) with lastA := (if (((Tests.up).spot (0 : Fin 440)).sampled (1300 : Int) (408 : Int) (5 : Nat) : Spot).failA then ((((Tests.up).spot (0 : Fin 440)).sampled (1300 : Int) (408 : Int) (5 : Nat) : Spot).lastA, (((Tests.up).spot (0 : Fin 440)).sampled (1300 : Int) (408 : Int) (5 : Nat) : Spot).jumpA, none) else sensorStep (((Tests.up).spot (0 : Fin 440)).sampled (1300 : Int) (408 : Int) (5 : Nat) : Spot).lastA (((Tests.up).spot (0 : Fin 440)).sampled (1300 : Int) (408 : Int) (5 : Nat) : Spot).jumpA (1300 : Int) ((((Tests.up).spot (0 : Fin 440)).sampled (1300 : Int) (408 : Int) (5 : Nat) : Spot).stuck (fun e => e.1)) : Option Int × Nat × Option Nat).1, jumpA := (if (((Tests.up).spot (0 : Fin 440)).sampled (1300 : Int) (408 : Int) (5 : Nat) : Spot).failA then ((((Tests.up).spot (0 : Fin 440)).sampled (1300 : Int) (408 : Int) (5 : Nat) : Spot).lastA, (((Tests.up).spot (0 : Fin 440)).sampled (1300 : Int) (408 : Int) (5 : Nat) : Spot).jumpA, none) else sensorStep (((Tests.up).spot (0 : Fin 440)).sampled (1300 : Int) (408 : Int) (5 : Nat) : Spot).lastA (((Tests.up).spot (0 : Fin 440)).sampled (1300 : Int) (408 : Int) (5 : Nat) : Spot).jumpA (1300 : Int) ((((Tests.up).spot (0 : Fin 440)).sampled (1300 : Int) (408 : Int) (5 : Nat) : Spot).stuck (fun e => e.1)) : Option Int × Nat × Option Nat).2.1, failA := (((Tests.up).spot (0 : Fin 440)).sampled (1300 : Int) (408 : Int) (5 : Nat) : Spot).failA || (if (((Tests.up).spot (0 : Fin 440)).sampled (1300 : Int) (408 : Int) (5 : Nat) : Spot).failA then ((((Tests.up).spot (0 : Fin 440)).sampled (1300 : Int) (408 : Int) (5 : Nat) : Spot).lastA, (((Tests.up).spot (0 : Fin 440)).sampled (1300 : Int) (408 : Int) (5 : Nat) : Spot).jumpA, none) else sensorStep (((Tests.up).spot (0 : Fin 440)).sampled (1300 : Int) (408 : Int) (5 : Nat) : Spot).lastA (((Tests.up).spot (0 : Fin 440)).sampled (1300 : Int) (408 : Int) (5 : Nat) : Spot).jumpA (1300 : Int) ((((Tests.up).spot (0 : Fin 440)).sampled (1300 : Int) (408 : Int) (5 : Nat) : Spot).stuck (fun e => e.1)) : Option Int × Nat × Option Nat).2.2.isSome, lastB := (if (((Tests.up).spot (0 : Fin 440)).sampled (1300 : Int) (408 : Int) (5 : Nat) : Spot).failB then ((((Tests.up).spot (0 : Fin 440)).sampled (1300 : Int) (408 : Int) (5 : Nat) : Spot).lastB, (((Tests.up).spot (0 : Fin 440)).sampled (1300 : Int) (408 : Int) (5 : Nat) : Spot).jumpB, none) else sensorStep (((Tests.up).spot (0 : Fin 440)).sampled (1300 : Int) (408 : Int) (5 : Nat) : Spot).lastB (((Tests.up).spot (0 : Fin 440)).sampled (1300 : Int) (408 : Int) (5 : Nat) : Spot).jumpB (408 : Int) ((((Tests.up).spot (0 : Fin 440)).sampled (1300 : Int) (408 : Int) (5 : Nat) : Spot).stuck (fun e => e.2.1)) : Option Int × Nat × Option Nat).1, jumpB := (if (((Tests.up).spot (0 : Fin 440)).sampled (1300 : Int) (408 : Int) (5 : Nat) : Spot).failB then ((((Tests.up).spot (0 : Fin 440)).sampled (1300 : Int) (408 : Int) (5 : Nat) : Spot).lastB, (((Tests.up).spot (0 : Fin 440)).sampled (1300 : Int) (408 : Int) (5 : Nat) : Spot).jumpB, none) else sensorStep (((Tests.up).spot (0 : Fin 440)).sampled (1300 : Int) (408 : Int) (5 : Nat) : Spot).lastB (((Tests.up).spot (0 : Fin 440)).sampled (1300 : Int) (408 : Int) (5 : Nat) : Spot).jumpB (408 : Int) ((((Tests.up).spot (0 : Fin 440)).sampled (1300 : Int) (408 : Int) (5 : Nat) : Spot).stuck (fun e => e.2.1)) : Option Int × Nat × Option Nat).2.1, failB := (((Tests.up).spot (0 : Fin 440)).sampled (1300 : Int) (408 : Int) (5 : Nat) : Spot).failB || (if (((Tests.up).spot (0 : Fin 440)).sampled (1300 : Int) (408 : Int) (5 : Nat) : Spot).failB then ((((Tests.up).spot (0 : Fin 440)).sampled (1300 : Int) (408 : Int) (5 : Nat) : Spot).lastB, (((Tests.up).spot (0 : Fin 440)).sampled (1300 : Int) (408 : Int) (5 : Nat) : Spot).jumpB, none) else sensorStep (((Tests.up).spot (0 : Fin 440)).sampled (1300 : Int) (408 : Int) (5 : Nat) : Spot).lastB (((Tests.up).spot (0 : Fin 440)).sampled (1300 : Int) (408 : Int) (5 : Nat) : Spot).jumpB (408 : Int) ((((Tests.up).spot (0 : Fin 440)).sampled (1300 : Int) (408 : Int) (5 : Nat) : Spot).stuck (fun e => e.2.1)) : Option Int × Nat × Option Nat).2.2.isSome }) ∧
    ((({ Spot.init with failA := true, lastB := some 408, hist := [(1300, 408, 5)] } : Spot) : Spot).judgePair = ((({ Spot.init with failA := true, lastB := some 408, hist := [(1300, 408, 5)] } : Spot) : Spot), (false : Bool))) ∧
    ((({ Spot.init with failA := true, lastB := some 408, hist := [(1300, 408, 5)] } : Spot) : Spot).judgeDrift (400 : Int) = ((({ Spot.init with failA := true, lastB := some 408, hist := [(1300, 408, 5)] } : Spot) : Spot), (false : Bool))) ∧
    ((false : Bool) = false) ∧
    ((false : Bool) = false) :=
  ⟨rfl, rfl, rfl, rfl, rfl, rfl, by decide +kernel⟩

theorem test_meets_SensorsAndThermalCap_1 :
    ((({ Tests.up with pw := { PwrSt.reset with spots := [(3, { Spot.init with tctl := 840 })] } } : State).getF .hctl Reg.HCTL.CAP_THERM_WATTS : Nat) = ({ Tests.up with pw := { PwrSt.reset with spots := [(3, { Spot.init with tctl := 840 })] } } : State).getF .hctl Reg.HCTL.CAP_THERM_WATTS) ∧ (({ Tests.up with pw := { PwrSt.reset with spots := [(3, { Spot.init with tctl := 840 })] } } : State).within 839 799 799 = false ∨ 100 < ({ Tests.up with pw := { PwrSt.reset with spots := [(3, { Spot.init with tctl := 840 })] } } : State).thermLimited) ∧
    (((Tests.up).getF .hctl Reg.HCTL.CAP_THERM_WATTS : Nat) = (Tests.up).getF .hctl Reg.HCTL.CAP_THERM_WATTS) ∧ ((Tests.up).within 839 799 799 = true) ∧ ((Tests.up).within 736 720 720 = true) ∧ ((Tests.up).thermLimited ≤ 10) ∧
    (({ Tests.up with pw := { PwrSt.reset with spots := [(3, { Spot.init with tctl := 800 })] } } : State).within 839 799 799 = true) ∧ (({ Tests.up with pw := { PwrSt.reset with spots := [(3, { Spot.init with tctl := 800 })] } } : State).thermLimited ≤ 100) ∧ (({ Tests.up with pw := { PwrSt.reset with spots := [(3, { Spot.init with tctl := 800 })] } } : State).within 736 720 720 = false ∨ 10 < ({ Tests.up with pw := { PwrSt.reset with spots := [(3, { Spot.init with tctl := 800 })] } } : State).thermLimited) ∧
    (({ Tests.up with pw := { PwrSt.reset with spots := [(3, { Spot.init with hotB := 2 })] } } : State).mg.tripped = false) ∧ ((if (7 : Fin 880).val % 2 = 0 then (({ Tests.up with pw := { PwrSt.reset with spots := [(3, { Spot.init with hotB := 2 })] } } : State).spot ((7 : Fin 880) / 2)).failA || decide ((({ Tests.up with pw := { PwrSt.reset with spots := [(3, { Spot.init with hotB := 2 })] } } : State).spot ((7 : Fin 880) / 2)).hotA < 2) else (({ Tests.up with pw := { PwrSt.reset with spots := [(3, { Spot.init with hotB := 2 })] } } : State).spot ((7 : Fin 880) / 2)).failB || decide ((({ Tests.up with pw := { PwrSt.reset with spots := [(3, { Spot.init with hotB := 2 })] } } : State).spot ((7 : Fin 880) / 2)).hotB < 2)) = false) ∧ (({ ({ Tests.up with pw := { PwrSt.reset with spots := [(3, { Spot.init with hotB := 2 })] } } : State) with mg := { ({ Tests.up with pw := { PwrSt.reset with spots := [(3, { Spot.init with hotB := 2 })] } } : State).mg with tripped := true, rails := false } } : State) = { ({ Tests.up with pw := { PwrSt.reset with spots := [(3, { Spot.init with hotB := 2 })] } } : State) with mg := { ({ Tests.up with pw := { PwrSt.reset with spots := [(3, { Spot.init with hotB := 2 })] } } : State).mg with tripped := true, rails := false } }) ∧
    (((Tests.up).mg.tripped = true ∨ (if (7 : Fin 880).val % 2 = 0 then ((Tests.up).spot ((7 : Fin 880) / 2)).failA || decide (((Tests.up).spot ((7 : Fin 880) / 2)).hotA < 2) else ((Tests.up).spot ((7 : Fin 880) / 2)).failB || decide (((Tests.up).spot ((7 : Fin 880) / 2)).hotB < 2)) = true)) := by decide +kernel

theorem test_meets_SensorsAndThermalCap_2 :
    ((((Tests.up).hottest Spot.tctl (dieSpots (5 : Fin 6))).1 : Int) = ((Tests.up).hottest Spot.tctl (dieSpots (5 : Fin 6))).1) ∧ ((((Tests.up).hottest Spot.tctl (dieSpots (5 : Fin 6))).1 : Int) ≤ 760) ∧ (((Tests.up).cycleStep (5 : Fin 6) (((Tests.up).hottest Spot.tctl (dieSpots (5 : Fin 6))).1 : Int)) = (Tests.up).cycleStep (5 : Fin 6) (((Tests.up).hottest Spot.tctl (dieSpots (5 : Fin 6))).1 : Int)) ∧ ((((Tests.up).cycleStep (5 : Fin 6) (((Tests.up).hottest Spot.tctl (dieSpots (5 : Fin 6))).1 : Int)).tickFree) = ((Tests.up).cycleStep (5 : Fin 6) (((Tests.up).hottest Spot.tctl (dieSpots (5 : Fin 6))).1 : Int)).tickFree) := by decide +kernel

theorem test_meets_Coolant_1 :
    ((Tests.runS).mg.up = true) ∧ ((Tests.runS).coolValid (1 : BitVec 32) (3000 : BitVec 16).toInt (3500 : BitVec 16).toInt (7 : BitVec 8) (true : Bool) = false) ∧
    ((Tests.runS).mg.up = true) ∧ ((Tests.runS).coolValid (1 : BitVec 32) (3000 : BitVec 16).toInt (2899 : BitVec 16).toInt (7 : BitVec 8) (false : Bool) = false) ∧
    ((Tests.runS).mg.up = true) ∧ ((Tests.runS).coolValid (1 : BitVec 32) (3000 : BitVec 16).toInt (3500 : BitVec 16).toInt (7 : BitVec 8) false = true) ∧ ((7 : BitVec 8) = 7) ∧ ((((((Tests.runS).setF .hctl Reg.HCTL.COOL_INLET_TEMP (3000 : BitVec 16).toNat).setF .hctl Reg.HCTL.COOL_OUTLET_TEMP (3500 : BitVec 16).toNat).setF .hctl Reg.HCTL.COOL_FLOW_MLMIN (1200 : BitVec 16).toNat).setF .hctl Reg.HCTL.COOL_STAT_VALID 1) = ((((Tests.runS).setF .hctl Reg.HCTL.COOL_INLET_TEMP (3000 : BitVec 16).toNat).setF .hctl Reg.HCTL.COOL_OUTLET_TEMP (3500 : BitVec 16).toNat).setF .hctl Reg.HCTL.COOL_FLOW_MLMIN (1200 : BitVec 16).toNat).setF .hctl Reg.HCTL.COOL_STAT_VALID 1) ∧ ((((((((Tests.runS).setF .hctl Reg.HCTL.COOL_INLET_TEMP (3000 : BitVec 16).toNat).setF .hctl Reg.HCTL.COOL_OUTLET_TEMP (3500 : BitVec 16).toNat).setF .hctl Reg.HCTL.COOL_FLOW_MLMIN (1200 : BitVec 16).toNat).setF .hctl Reg.HCTL.COOL_STAT_VALID 1).setPw { (Tests.runS).pw with coolSeq := some (1 : BitVec 32).toNat, coolAt := some (Tests.runS).elapsed, inlet := some (3000 : BitVec 16).toInt, outlet := some (3500 : BitVec 16).toInt, flow := some (1200 : BitVec 16).toNat, coolFlows := ((Tests.runS).elapsed, (1200 : BitVec 16).toNat) :: (Tests.runS).pw.coolFlows.filter (fun x => decide ((Tests.runS).elapsed ≤ x.1 + 100000000)) } : State) = (((((Tests.runS).setF .hctl Reg.HCTL.COOL_INLET_TEMP (3000 : BitVec 16).toNat).setF .hctl Reg.HCTL.COOL_OUTLET_TEMP (3500 : BitVec 16).toNat).setF .hctl Reg.HCTL.COOL_FLOW_MLMIN (1200 : BitVec 16).toNat).setF .hctl Reg.HCTL.COOL_STAT_VALID 1).setPw { (Tests.runS).pw with coolSeq := some (1 : BitVec 32).toNat, coolAt := some (Tests.runS).elapsed, inlet := some (3000 : BitVec 16).toInt, outlet := some (3500 : BitVec 16).toInt, flow := some (1200 : BitVec 16).toNat, coolFlows := ((Tests.runS).elapsed, (1200 : BitVec 16).toNat) :: (Tests.runS).pw.coolFlows.filter (fun x => decide ((Tests.runS).elapsed ≤ x.1 + 100000000)) })) ∧ (((((((Tests.runS).setF .hctl Reg.HCTL.COOL_INLET_TEMP (3000 : BitVec 16).toNat).setF .hctl Reg.HCTL.COOL_OUTLET_TEMP (3500 : BitVec 16).toNat).setF .hctl Reg.HCTL.COOL_FLOW_MLMIN (1200 : BitVec 16).toNat).setF .hctl Reg.HCTL.COOL_STAT_VALID 1).setPw { (Tests.runS).pw with coolSeq := some (1 : BitVec 32).toNat, coolAt := some (Tests.runS).elapsed, inlet := some (3000 : BitVec 16).toInt, outlet := some (3500 : BitVec 16).toInt, flow := some (1200 : BitVec 16).toNat, coolFlows := ((Tests.runS).elapsed, (1200 : BitVec 16).toNat) :: (Tests.runS).pw.coolFlows.filter (fun x => decide ((Tests.runS).elapsed ≤ x.1 + 100000000)) } : State).isSet .hctl Reg.HCTL.COOL_STAT_FLOW_BAD = false) ∧ (((1200 : BitVec 16).toNat : Nat) = (1200 : BitVec 16).toNat) ∧
    (({ Tests.up with pw := { PwrSt.reset with outlet := some 4700 } } : State).pw.outlet = some (4700 : Int)) ∧ (({ Tests.up with pw := { PwrSt.reset with outlet := some 4700 } } : State).inferFlow (({ Tests.up with pw := { PwrSt.reset with outlet := some 4700 } } : State).pw.inlet.getD 4500) (4700 : Int) = ((0 : Nat), (({ Tests.up with pw := { PwrSt.reset with outlet := some 4700 } } : State).tickFree : State))) ∧ ((({ Tests.up with pw := { PwrSt.reset with outlet := some 4700 } } : State).tickFree : State).pw.flow = none) := by decide +kernel

theorem test_meets_Coolant_2 :
    (Tests.runS.gone50 (some 0)) = false := by decide +kernel

theorem test_meets_RemarginPass_r1 :
    (((Tests.tileS { Tile.init with visiting := true } : State).findErrs ([] : LineErrs) : State) = (Tests.tileS { Tile.init with visiting := true } : State).findErrs ([] : LineErrs)) ∧
    ((((((Tests.tileS { Tile.init with visiting := true } : State).findErrs ([] : LineErrs) : State).setTile (0 : Fin 4) (0 : Fin 104) { ((Tests.tileS { Tile.init with visiting := true } : State).findErrs ([] : LineErrs) : State).tile (0 : Fin 4) (0 : Fin 104) with visiting := false, visitDue := none, innerDrain := false }).setF (.tile (0 : Fin 4) (0 : Fin 104)) Reg.TILE.AGE_PPM (min 65535 (((Tests.tileS { Tile.init with visiting := true } : State).findErrs ([] : LineErrs) : State).slowPpm (Config.ringTest (tileKey (0 : Fin 4) (0 : Fin 104))) (5 : Nat)))).tickFree : State) = ((((Tests.tileS { Tile.init with visiting := true } : State).findErrs ([] : LineErrs) : State).setTile (0 : Fin 4) (0 : Fin 104) { ((Tests.tileS { Tile.init with visiting := true } : State).findErrs ([] : LineErrs) : State).tile (0 : Fin 4) (0 : Fin 104) with visiting := false, visitDue := none, innerDrain := false }).setF (.tile (0 : Fin 4) (0 : Fin 104)) Reg.TILE.AGE_PPM (min 65535 (((Tests.tileS { Tile.init with visiting := true } : State).findErrs ([] : LineErrs) : State).slowPpm (Config.ringTest (tileKey (0 : Fin 4) (0 : Fin 104))) (5 : Nat)))).tickFree) ∧
    ((((((((Tests.tileS { Tile.init with visiting := true } : State).findErrs ([] : LineErrs) : State).setTile (0 : Fin 4) (0 : Fin 104) { ((Tests.tileS { Tile.init with visiting := true } : State).findErrs ([] : LineErrs) : State).tile (0 : Fin 4) (0 : Fin 104) with visiting := false, visitDue := none, innerDrain := false }).setF (.tile (0 : Fin 4) (0 : Fin 104)) Reg.TILE.AGE_PPM (min 65535 (((Tests.tileS { Tile.init with visiting := true } : State).findErrs ([] : LineErrs) : State).slowPpm (Config.ringTest (tileKey (0 : Fin 4) (0 : Fin 104))) (5 : Nat)))).tickFree : State).setPw { (((((Tests.tileS { Tile.init with visiting := true } : State).findErrs ([] : LineErrs) : State).setTile (0 : Fin 4) (0 : Fin 104) { ((Tests.tileS { Tile.init with visiting := true } : State).findErrs ([] : LineErrs) : State).tile (0 : Fin 4) (0 : Fin 104) with visiting := false, visitDue := none, innerDrain := false }).setF (.tile (0 : Fin 4) (0 : Fin 104)) Reg.TILE.AGE_PPM (min 65535 (((Tests.tileS { Tile.init with visiting := true } : State).findErrs ([] : LineErrs) : State).slowPpm (Config.ringTest (tileKey (0 : Fin 4) (0 : Fin 104))) (5 : Nat)))).tickFree : State).pw with toVisit := (((((Tests.tileS { Tile.init with visiting := true } : State).findErrs ([] : LineErrs) : State).setTile (0 : Fin 4) (0 : Fin 104) { ((Tests.tileS { Tile.init with visiting := true } : State).findErrs ([] : LineErrs) : State).tile (0 : Fin 4) (0 : Fin 104) with visiting := false, visitDue := none, innerDrain := false }).setF (.tile (0 : Fin 4) (0 : Fin 104)) Reg.TILE.AGE_PPM (min 65535 (((Tests.tileS { Tile.init with visiting := true } : State).findErrs ([] : LineErrs) : State).slowPpm (Config.ringTest (tileKey (0 : Fin 4) (0 : Fin 104))) (5 : Nat)))).tickFree : State).pw.toVisit.filter (fun k => k ≠ tileKey (0 : Fin 4) (0 : Fin 104)) } : State) = (((((Tests.tileS { Tile.init with visiting := true } : State).findErrs ([] : LineErrs) : State).setTile (0 : Fin 4) (0 : Fin 104) { ((Tests.tileS { Tile.init with visiting := true } : State).findErrs ([] : LineErrs) : State).tile (0 : Fin 4) (0 : Fin 104) with visiting := false, visitDue := none, innerDrain := false }).setF (.tile (0 : Fin 4) (0 : Fin 104)) Reg.TILE.AGE_PPM (min 65535 (((Tests.tileS { Tile.init with visiting := true } : State).findErrs ([] : LineErrs) : State).slowPpm (Config.ringTest (tileKey (0 : Fin 4) (0 : Fin 104))) (5 : Nat)))).tickFree : State).setPw { (((((Tests.tileS { Tile.init with visiting := true } : State).findErrs ([] : LineErrs) : State).setTile (0 : Fin 4) (0 : Fin 104) { ((Tests.tileS { Tile.init with visiting := true } : State).findErrs ([] : LineErrs) : State).tile (0 : Fin 4) (0 : Fin 104) with visiting := false, visitDue := none, innerDrain := false }).setF (.tile (0 : Fin 4) (0 : Fin 104)) Reg.TILE.AGE_PPM (min 65535 (((Tests.tileS { Tile.init with visiting := true } : State).findErrs ([] : LineErrs) : State).slowPpm (Config.ringTest (tileKey (0 : Fin 4) (0 : Fin 104))) (5 : Nat)))).tickFree : State).pw with toVisit := (((((Tests.tileS { Tile.init with visiting := true } : State).findErrs ([] : LineErrs) : State).setTile (0 : Fin 4) (0 : Fin 104) { ((Tests.tileS { Tile.init with visiting := true } : State).findErrs ([] : LineErrs) : State).tile (0 : Fin 4) (0 : Fin 104) with visiting := false, visitDue := none, innerDrain := false }).setF (.tile (0 : Fin 4) (0 : Fin 104)) Reg.TILE.AGE_PPM (min 65535 (((Tests.tileS { Tile.init with visiting := true } : State).findErrs ([] : LineErrs) : State).slowPpm (Config.ringTest (tileKey (0 : Fin 4) (0 : Fin 104))) (5 : Nat)))).tickFree : State).pw.toVisit.filter (fun k => k ≠ tileKey (0 : Fin 4) (0 : Fin 104)) })) ∧
    (((Tests.tileS { Tile.init with visiting := true } : State).tile (0 : Fin 4) (0 : Fin 104)).visiting = true) ∧
    (((Vector.replicate 8 300 : Vector Nat 8).toList.all (fun v => decide (v ≤ 360)) = true)) :=
  ⟨rfl, rfl, rfl, by decide +kernel⟩

theorem test_meets_RemarginPass_r2 :
    (((Tests.tileS { Tile.init with visiting := true } : State).findErrs ([] : LineErrs) : State) = (Tests.tileS { Tile.init with visiting := true } : State).findErrs ([] : LineErrs)) ∧
    ((((((Tests.tileS { Tile.init with visiting := true } : State).findErrs ([] : LineErrs) : State).setTile (0 : Fin 4) (0 : Fin 104) { ((Tests.tileS { Tile.init with visiting := true } : State).findErrs ([] : LineErrs) : State).tile (0 : Fin 4) (0 : Fin 104) with visiting := false, visitDue := none, innerDrain := false }).setF (.tile (0 : Fin 4) (0 : Fin 104)) Reg.TILE.AGE_PPM (min 65535 (((Tests.tileS { Tile.init with visiting := true } : State).findErrs ([] : LineErrs) : State).slowPpm (Config.ringTest (tileKey (0 : Fin 4) (0 : Fin 104))) (5 : Nat)))).tickFree : State) = ((((Tests.tileS { Tile.init with visiting := true } : State).findErrs ([] : LineErrs) : State).setTile (0 : Fin 4) (0 : Fin 104) { ((Tests.tileS { Tile.init with visiting := true } : State).findErrs ([] : LineErrs) : State).tile (0 : Fin 4) (0 : Fin 104) with visiting := false, visitDue := none, innerDrain := false }).setF (.tile (0 : Fin 4) (0 : Fin 104)) Reg.TILE.AGE_PPM (min 65535 (((Tests.tileS { Tile.init with visiting := true } : State).findErrs ([] : LineErrs) : State).slowPpm (Config.ringTest (tileKey (0 : Fin 4) (0 : Fin 104))) (5 : Nat)))).tickFree) ∧
    ((((((((Tests.tileS { Tile.init with visiting := true } : State).findErrs ([] : LineErrs) : State).setTile (0 : Fin 4) (0 : Fin 104) { ((Tests.tileS { Tile.init with visiting := true } : State).findErrs ([] : LineErrs) : State).tile (0 : Fin 4) (0 : Fin 104) with visiting := false, visitDue := none, innerDrain := false }).setF (.tile (0 : Fin 4) (0 : Fin 104)) Reg.TILE.AGE_PPM (min 65535 (((Tests.tileS { Tile.init with visiting := true } : State).findErrs ([] : LineErrs) : State).slowPpm (Config.ringTest (tileKey (0 : Fin 4) (0 : Fin 104))) (5 : Nat)))).tickFree : State).setPw { (((((Tests.tileS { Tile.init with visiting := true } : State).findErrs ([] : LineErrs) : State).setTile (0 : Fin 4) (0 : Fin 104) { ((Tests.tileS { Tile.init with visiting := true } : State).findErrs ([] : LineErrs) : State).tile (0 : Fin 4) (0 : Fin 104) with visiting := false, visitDue := none, innerDrain := false }).setF (.tile (0 : Fin 4) (0 : Fin 104)) Reg.TILE.AGE_PPM (min 65535 (((Tests.tileS { Tile.init with visiting := true } : State).findErrs ([] : LineErrs) : State).slowPpm (Config.ringTest (tileKey (0 : Fin 4) (0 : Fin 104))) (5 : Nat)))).tickFree : State).pw with toVisit := (((((Tests.tileS { Tile.init with visiting := true } : State).findErrs ([] : LineErrs) : State).setTile (0 : Fin 4) (0 : Fin 104) { ((Tests.tileS { Tile.init with visiting := true } : State).findErrs ([] : LineErrs) : State).tile (0 : Fin 4) (0 : Fin 104) with visiting := false, visitDue := none, innerDrain := false }).setF (.tile (0 : Fin 4) (0 : Fin 104)) Reg.TILE.AGE_PPM (min 65535 (((Tests.tileS { Tile.init with visiting := true } : State).findErrs ([] : LineErrs) : State).slowPpm (Config.ringTest (tileKey (0 : Fin 4) (0 : Fin 104))) (5 : Nat)))).tickFree : State).pw.toVisit.filter (fun k => k ≠ tileKey (0 : Fin 4) (0 : Fin 104)) } : State) = (((((Tests.tileS { Tile.init with visiting := true } : State).findErrs ([] : LineErrs) : State).setTile (0 : Fin 4) (0 : Fin 104) { ((Tests.tileS { Tile.init with visiting := true } : State).findErrs ([] : LineErrs) : State).tile (0 : Fin 4) (0 : Fin 104) with visiting := false, visitDue := none, innerDrain := false }).setF (.tile (0 : Fin 4) (0 : Fin 104)) Reg.TILE.AGE_PPM (min 65535 (((Tests.tileS { Tile.init with visiting := true } : State).findErrs ([] : LineErrs) : State).slowPpm (Config.ringTest (tileKey (0 : Fin 4) (0 : Fin 104))) (5 : Nat)))).tickFree : State).setPw { (((((Tests.tileS { Tile.init with visiting := true } : State).findErrs ([] : LineErrs) : State).setTile (0 : Fin 4) (0 : Fin 104) { ((Tests.tileS { Tile.init with visiting := true } : State).findErrs ([] : LineErrs) : State).tile (0 : Fin 4) (0 : Fin 104) with visiting := false, visitDue := none, innerDrain := false }).setF (.tile (0 : Fin 4) (0 : Fin 104)) Reg.TILE.AGE_PPM (min 65535 (((Tests.tileS { Tile.init with visiting := true } : State).findErrs ([] : LineErrs) : State).slowPpm (Config.ringTest (tileKey (0 : Fin 4) (0 : Fin 104))) (5 : Nat)))).tickFree : State).pw with toVisit := (((((Tests.tileS { Tile.init with visiting := true } : State).findErrs ([] : LineErrs) : State).setTile (0 : Fin 4) (0 : Fin 104) { ((Tests.tileS { Tile.init with visiting := true } : State).findErrs ([] : LineErrs) : State).tile (0 : Fin 4) (0 : Fin 104) with visiting := false, visitDue := none, innerDrain := false }).setF (.tile (0 : Fin 4) (0 : Fin 104)) Reg.TILE.AGE_PPM (min 65535 (((Tests.tileS { Tile.init with visiting := true } : State).findErrs ([] : LineErrs) : State).slowPpm (Config.ringTest (tileKey (0 : Fin 4) (0 : Fin 104))) (5 : Nat)))).tickFree : State).pw.toVisit.filter (fun k => k ≠ tileKey (0 : Fin 4) (0 : Fin 104)) })) ∧
    (((Tests.tileS { Tile.init with visiting := true } : State).tile (0 : Fin 4) (0 : Fin 104)).visiting = true) ∧
    (((Vector.replicate 8 361 : Vector Nat 8).toList.any (fun v => decide (360 < v)) = true)) ∧
    (((Tests.tileS { Tile.init with visiting := true } : State).findErrs ([] : LineErrs) : State).tileState (0 : Fin 4) (0 : Fin 104) ≠ 1) :=
  ⟨rfl, rfl, rfl, by decide +kernel⟩

theorem test_meets_RemarginPass :
    ((Tests.tileS { Tile.init with visitDue := some 0 } : State).isDue (0 : Fin 4) (0 : Fin 104) = true) ∧ ((Tests.tileS { Tile.init with visitDue := some 0 } : State).slotsEmpty (0 : Fin 4) (0 : Fin 104) = true) ∧ ((Tests.tileS { Tile.init with visitDue := some 0 } : State).tileState (0 : Fin 4) (0 : Fin 104) ≠ 2) ∧ ((List.finRange 104).all (fun x => !((Tests.tileS { Tile.init with visitDue := some 0 } : State).tile (0 : Fin 4) x).visiting) = true) ∧
    (({ Tests.tileS { Tests.busy 0 [] with visitDue := some 0 } with drove := 25 * hourNs } : State).tileActive (0 : Fin 4) (0 : Fin 104) = true) ∧ (({ Tests.tileS { Tests.busy 0 [] with visitDue := some 0 } with drove := 25 * hourNs } : State).isLate (0 : Fin 4) (0 : Fin 104) = true) ∧ (({ Tests.tileS { Tests.busy 0 [] with visitDue := some 0 } with drove := 25 * hourNs } : State).slotsEmpty (0 : Fin 4) (0 : Fin 104) = false) ∧ ((({ Tests.tileS { Tests.busy 0 [] with visitDue := some 0 } with drove := 25 * hourNs } : State).tile (0 : Fin 4) (0 : Fin 104)).innerDrain = false) ∧
    (({ Tests.tileS Tile.init with pw := { PwrSt.reset with margins := [(0, ⟨[300], 0, 0, 9⟩)] } } : State).clockRuns (0 : Fin 4) (0 : Fin 104) = true) ∧ ((({ Tests.tileS Tile.init with pw := { PwrSt.reset with margins := [(0, ⟨[300], 0, 0, 9⟩)] } } : State).tile (0 : Fin 4) (0 : Fin 104)).stretching = false) ∧ ((({ Tests.tileS Tile.init with pw := { PwrSt.reset with margins := [(0, ⟨[300], 0, 0, 9⟩)] } } : State).tile (0 : Fin 4) (0 : Fin 104)).settling = false) ∧ ((((({ Tests.tileS Tile.init with pw := { PwrSt.reset with margins := [(0, ⟨[300], 0, 0, 9⟩)] } } : State).marginOf (0 : Fin 4) (0 : Fin 104)).table.map (fun v => v + 4) : List Nat) = (({ Tests.tileS Tile.init with pw := { PwrSt.reset with margins := [(0, ⟨[300], 0, 0, 9⟩)] } } : State).marginOf (0 : Fin 4) (0 : Fin 104)).table.map (fun v => v + 4))) ∧ (((({ Tests.tileS Tile.init with pw := { PwrSt.reset with margins := [(0, ⟨[300], 0, 0, 9⟩)] } } : State).setTile (0 : Fin 4) (0 : Fin 104) { ({ Tests.tileS Tile.init with pw := { PwrSt.reset with margins := [(0, ⟨[300], 0, 0, 9⟩)] } } : State).tile (0 : Fin 4) (0 : Fin 104) with visitDue := some ((({ Tests.tileS Tile.init with pw := { PwrSt.reset with margins := [(0, ⟨[300], 0, 0, 9⟩)] } } : State).tile (0 : Fin 4) (0 : Fin 104)).visitDue.getD ({ Tests.tileS Tile.init with pw := { PwrSt.reset with margins := [(0, ⟨[300], 0, 0, 9⟩)] } } : State).elapsed) }).raise (.tile (0 : Fin 4) (0 : Fin 104)) Evt.TILE.MARGIN_BUMP : State) = (({ Tests.tileS Tile.init with pw := { PwrSt.reset with margins := [(0, ⟨[300], 0, 0, 9⟩)] } } : State).setTile (0 : Fin 4) (0 : Fin 104) { ({ Tests.tileS Tile.init with pw := { PwrSt.reset with margins := [(0, ⟨[300], 0, 0, 9⟩)] } } : State).tile (0 : Fin 4) (0 : Fin 104) with visitDue := some ((({ Tests.tileS Tile.init with pw := { PwrSt.reset with margins := [(0, ⟨[300], 0, 0, 9⟩)] } } : State).tile (0 : Fin 4) (0 : Fin 104)).visitDue.getD ({ Tests.tileS Tile.init with pw := { PwrSt.reset with margins := [(0, ⟨[300], 0, 0, 9⟩)] } } : State).elapsed) }).raise (.tile (0 : Fin 4) (0 : Fin 104)) Evt.TILE.MARGIN_BUMP) := by decide +kernel

theorem test_meets_Bar2AndCommandQueues_1 :
    ((Tests.up).bootWindow = false) ∧ (((Tests.up).findErrs ([] : LineErrs)) = (Tests.up).findErrs ([] : LineErrs)) ∧ (((Tests.up).findErrs ([] : LineErrs)).readMem Req.host (((Tests.up).findErrs ([] : LineErrs)).winAddr (0 : Fin 68719476736)) (8 : Nat) = ((Tests.up), (5 : Nat), ([] : List Byte))) ∧
    ((Tests.up).bootWindow = false) ∧ ((Tests.up) = (Tests.up).findRmw ((Tests.up).winAddr (0 : Fin 68719476736)) ([7] : List Byte).length ([] : LineErrs)) ∧ ((Tests.up).writeWhole Req.host ((Tests.up).winAddr (0 : Fin 68719476736)) ([7] : List Byte) = ((Tests.up), (5 : Nat))) ∧
    ((Tests.up.setF .pcie Reg.PCIE.BOOT_STAT_STATE 1).bootWindow = true) ∧ ((Tests.up.setF .pcie Reg.PCIE.BOOT_STAT_STATE 1).getF .pcie Reg.PCIE.BOOT_STAT_STATE ≠ 2) ∧ ((0 : Fin 68719476736).val + ([7] : List Byte).length ≤ 0x400000) ∧
    ((Tests.hostS (Tests.queue [])).ready = true) ∧ (((Tests.hostS (Tests.queue [])).hq (2 : Fin 64)).state ≠ 0) ∧ ((((3 : Word).toNat + 2 ^ 32 - ((Tests.hostS (Tests.queue [])).hq (2 : Fin 64)).sqHead) % 2 ^ 32 : Nat) = ((3 : Word).toNat + 2 ^ 32 - ((Tests.hostS (Tests.queue [])).hq (2 : Fin 64)).sqHead) % 2 ^ 32) ∧
    ((Tests.hostS (Tests.queue [])).ready = true) ∧ (((Tests.hostS (Tests.queue [])).hq (2 : Fin 64)).state ≠ 0) := by decide +kernel

theorem test_meets_Bar2AndCommandQueues_2 :
    (((Tests.up).hq (Tests.up).qsel).state = 0) ∧ (({ (Tests.up).hq (Tests.up).qsel with sqTail := 0, sqHead := 0, cqTail := 0, cqHead := 0 } : HostQ) = { (Tests.up).hq (Tests.up).qsel with sqTail := 0, sqHead := 0, cqTail := 0, cqHead := 0 }) ∧ (((Tests.up).setHq (Tests.up).qsel ({ (Tests.up).hq (Tests.up).qsel with sqTail := 0, sqHead := 0, cqTail := 0, cqHead := 0 } : HostQ) : State) = (Tests.up).setHq (Tests.up).qsel ({ (Tests.up).hq (Tests.up).qsel with sqTail := 0, sqHead := 0, cqTail := 0, cqHead := 0 } : HostQ)) ∧ (((Tests.up).setHq (Tests.up).qsel ({ (Tests.up).hq (Tests.up).qsel with sqTail := 0, sqHead := 0, cqTail := 0, cqHead := 0 } : HostQ) : State).queueOk ({ (Tests.up).hq (Tests.up).qsel with sqTail := 0, sqHead := 0, cqTail := 0, cqHead := 0 } : HostQ) = false) ∧
    ((((Tests.hostS (Tests.queue [])).setF .pcie Reg.PCIE.QSEL_Q 2).hq ((Tests.hostS (Tests.queue [])).setF .pcie Reg.PCIE.QSEL_Q 2).qsel).state ≠ 0) ∧
    (let q : HostQ := { HostQ.init with cfg := 0x404 }
    let s := (Tests.hostS q).setF .pcie Reg.PCIE.QSEL_Q 2
    let s := { s with mm := { MemSt.reset with pages := [(0, { Tests.page with pin := 1 })] } }
    (s.hq s.qsel).state = 0 ∧ (s.setHq s.qsel q).queueOk q = true) := by decide +kernel

theorem test_meets_HostCommands_1 :
    ((Tests.hostS { Tests.queue [] with sqTail := 1 } : State).mayStart (2 : Fin 64) (Vector.replicate 64 (1 : Byte) : Vector Byte 64).toList = true) ∧
    ((Tests.hostS { Tests.queue [] with sqTail := 1 } : State).mayStart (2 : Fin 64) (Vector.replicate 64 (1 : Byte) : Vector Byte 64).toList = true) ∧ (({ (Tests.hostS { Tests.queue [] with sqTail := 1 } : State) with host := { (Tests.hostS { Tests.queue [] with sqTail := 1 } : State).host with turn := (2 : Fin 64) } } : State) = { (Tests.hostS { Tests.queue [] with sqTail := 1 } : State) with host := { (Tests.hostS { Tests.queue [] with sqTail := 1 } : State).host with turn := (2 : Fin 64) } }) ∧ ((({ (Tests.hostS { Tests.queue [] with sqTail := 1 } : State) with host := { (Tests.hostS { Tests.queue [] with sqTail := 1 } : State).host with turn := (2 : Fin 64) } } : State).setHq (2 : Fin 64) { (Tests.hostS { Tests.queue [] with sqTail := 1 } : State).hq (2 : Fin 64) with sqHead := (((Tests.hostS { Tests.queue [] with sqTail := 1 } : State).hq (2 : Fin 64)).sqHead + 1) % 2 ^ 32 } : State) = ({ (Tests.hostS { Tests.queue [] with sqTail := 1 } : State) with host := { (Tests.hostS { Tests.queue [] with sqTail := 1 } : State).host with turn := (2 : Fin 64) } } : State).setHq (2 : Fin 64) { (Tests.hostS { Tests.queue [] with sqTail := 1 } : State).hq (2 : Fin 64) with sqHead := (((Tests.hostS { Tests.queue [] with sqTail := 1 } : State).hq (2 : Fin 64)).sqHead + 1) % 2 ^ 32 }) ∧ (((({ (Tests.hostS { Tests.queue [] with sqTail := 1 } : State) with host := { (Tests.hostS { Tests.queue [] with sqTail := 1 } : State).host with turn := (2 : Fin 64) } } : State).setHq (2 : Fin 64) { (Tests.hostS { Tests.queue [] with sqTail := 1 } : State).hq (2 : Fin 64) with sqHead := (((Tests.hostS { Tests.queue [] with sqTail := 1 } : State).hq (2 : Fin 64)).sqHead + 1) % 2 ^ 32 } : State).hq (2 : Fin 64) : HostQ) = (({ (Tests.hostS { Tests.queue [] with sqTail := 1 } : State) with host := { (Tests.hostS { Tests.queue [] with sqTail := 1 } : State).host with turn := (2 : Fin 64) } } : State).setHq (2 : Fin 64) { (Tests.hostS { Tests.queue [] with sqTail := 1 } : State).hq (2 : Fin 64) with sqHead := (((Tests.hostS { Tests.queue [] with sqTail := 1 } : State).hq (2 : Fin 64)).sqHead + 1) % 2 ^ 32 } : State).hq (2 : Fin 64)) ∧ ((descF (Vector.replicate 64 (1 : Byte) : Vector Byte 64).toList 8 8 : Nat) = descF (Vector.replicate 64 (1 : Byte) : Vector Byte 64).toList 8 8) ∧
    ((Tests.up).readMem Req.host (0 : Nat) 32 = (((Tests.up.readMem Req.host 0 32).1), ((Tests.up.readMem Req.host 0 32).2.1 : Nat), ((Tests.up.readMem Req.host 0 32).2.2 : List Byte))) ∧
    ((Tests.hostS (Tests.queue [Tests.cmd 0 8 0 0])).openCmd (2 : Fin 64) (0 : Nat) 0 = some (Tests.cmd 0 8 0 0 : HostCmd)) ∧
    ((Tests.hostS (Tests.queue [Tests.cmd 1 8 0 0])).openCmd (2 : Fin 64) (0 : Nat) 1 = some (Tests.cmd 1 8 0 0 : HostCmd)) ∧ ((Tests.hostS (Tests.queue [Tests.cmd 1 8 0 0])).dmaOpen = true) ∧ (([1, 2, 3, 4, 5, 6, 7, 8] : List Byte) = ([1, 2, 3, 4, 5, 6, 7, 8] : List Byte).take (Tests.cmd 1 8 0 0 : HostCmd).left) ∧ ((Tests.hostS (Tests.queue [Tests.cmd 1 8 0 0])) = (Tests.hostS (Tests.queue [Tests.cmd 1 8 0 0])).findRmw ((Tests.cmd 1 8 0 0 : HostCmd).dst + (Tests.cmd 1 8 0 0 : HostCmd).moved) ([1, 2, 3, 4, 5, 6, 7, 8] : List Byte).length ([] : LineErrs)) ∧ ((Tests.hostS (Tests.queue [Tests.cmd 1 8 0 0])).copyIn ((Tests.cmd 1 8 0 0 : HostCmd).dst + (Tests.cmd 1 8 0 0 : HostCmd).moved) ([1, 2, 3, 4, 5, 6, 7, 8] : List Byte) 0 (lineCount ((Tests.cmd 1 8 0 0 : HostCmd).dst + (Tests.cmd 1 8 0 0 : HostCmd).moved) ([1, 2, 3, 4, 5, 6, 7, 8] : List Byte).length) = ((((Tests.hostS (Tests.queue [Tests.cmd 1 8 0 0])).copyIn 0x1000 [1, 2, 3, 4, 5, 6, 7, 8] 0 1).1), (0 : Nat), (8 : Nat))) := by decide +kernel

theorem test_meets_HostCommands_2 :
    ((Tests.hostS (Tests.queue [Tests.cmd 2 8 0 0])).openCmd (2 : Fin 64) (0 : Nat) 2 = some (Tests.cmd 2 8 0 0 : HostCmd)) ∧ ((Tests.hostS (Tests.queue [Tests.cmd 2 8 0 0])).dmaOpen = true) ∧ (((Tests.hostS (Tests.queue [Tests.cmd 2 8 0 0])).findErrs ([] : LineErrs)) = (Tests.hostS (Tests.queue [Tests.cmd 2 8 0 0])).findErrs ([] : LineErrs)) ∧ ((min ((none : Option Nat).getD (Tests.cmd 2 8 0 0 : HostCmd).left) (Tests.cmd 2 8 0 0 : HostCmd).left : Nat) = min ((none : Option Nat).getD (Tests.cmd 2 8 0 0 : HostCmd).left) (Tests.cmd 2 8 0 0 : HostCmd).left) ∧ (((Tests.hostS (Tests.queue [Tests.cmd 2 8 0 0])).findErrs ([] : LineErrs)).copyOut ((Tests.cmd 2 8 0 0 : HostCmd).src + (Tests.cmd 2 8 0 0 : HostCmd).moved) (min ((none : Option Nat).getD (Tests.cmd 2 8 0 0 : HostCmd).left) (Tests.cmd 2 8 0 0 : HostCmd).left : Nat) [] (lineCount ((Tests.cmd 2 8 0 0 : HostCmd).src + (Tests.cmd 2 8 0 0 : HostCmd).moved) (min ((none : Option Nat).getD (Tests.cmd 2 8 0 0 : HostCmd).left) (Tests.cmd 2 8 0 0 : HostCmd).left : Nat)) = ((((Tests.hostS (Tests.queue [Tests.cmd 2 8 0 0])).copyOut 0x1000 8 [] 1).1), (0 : Nat), ([0, 0, 0, 0, 0, 0, 0, 0] : List Byte))) ∧ (((((Tests.hostS (Tests.queue [Tests.cmd 2 8 0 0])).copyOut 0x1000 8 [] 1).1).emit (.hostWrite ((Tests.cmd 2 8 0 0 : HostCmd).dst + (Tests.cmd 2 8 0 0 : HostCmd).moved) ([0, 0, 0, 0, 0, 0, 0, 0] : List Byte))) = (((Tests.hostS (Tests.queue [Tests.cmd 2 8 0 0])).copyOut 0x1000 8 [] 1).1).emit (.hostWrite ((Tests.cmd 2 8 0 0 : HostCmd).dst + (Tests.cmd 2 8 0 0 : HostCmd).moved) ([0, 0, 0, 0, 0, 0, 0, 0] : List Byte))) ∧ ((([0, 0, 0, 0, 0, 0, 0, 0] : List Byte).length : Nat) = ([0, 0, 0, 0, 0, 0, 0, 0] : List Byte).length) ∧
    ((Tests.hostS (Tests.queue [Tests.cmd 3 8 0 0])).openCmd (2 : Fin 64) (0 : Nat) 3 = some (Tests.cmd 3 8 0 0 : HostCmd)) ∧ (((leBytes 8 0 : List Byte) = (((List.range ((Tests.cmd 3 8 0 0 : HostCmd).len / 8)).flatMap (fun _ => leBytes 8 (Tests.cmd 3 8 0 0 : HostCmd).arg0)).drop (Tests.cmd 3 8 0 0 : HostCmd).moved).take ((none : Option Nat).getD (Tests.cmd 3 8 0 0 : HostCmd).left))) ∧ ((Tests.hostS (Tests.queue [Tests.cmd 3 8 0 0])) = (Tests.hostS (Tests.queue [Tests.cmd 3 8 0 0])).findRmw ((Tests.cmd 3 8 0 0 : HostCmd).dst + (Tests.cmd 3 8 0 0 : HostCmd).moved) (leBytes 8 0 : List Byte).length ([] : LineErrs)) ∧ ((Tests.hostS (Tests.queue [Tests.cmd 3 8 0 0])).copyIn ((Tests.cmd 3 8 0 0 : HostCmd).dst + (Tests.cmd 3 8 0 0 : HostCmd).moved) (leBytes 8 0 : List Byte) 0 (lineCount ((Tests.cmd 3 8 0 0 : HostCmd).dst + (Tests.cmd 3 8 0 0 : HostCmd).moved) (leBytes 8 0 : List Byte).length) = ((((Tests.hostS (Tests.queue [Tests.cmd 3 8 0 0])).copyIn 0x1000 (leBytes 8 0) 0 1).1), (0 : Nat), (8 : Nat))) := by decide +kernel

theorem test_meets_HostCommands_3 :
    (({ Tests.hostS (Tests.queue [Tests.cmd 4 1 5 0]) with pools := [(5, Tests.pool)] } : State).openCmd (2 : Fin 64) (0 : Nat) 4 = some (Tests.cmd 4 1 5 0 : HostCmd)) ∧ (((Tests.cmd 4 1 5 0 : HostCmd).arg0 % 4096 : Nat) = (Tests.cmd 4 1 5 0 : HostCmd).arg0 % 4096) ∧ ((({ Tests.hostS (Tests.queue [Tests.cmd 4 1 5 0]) with pools := [(5, Tests.pool)] } : State).pool ((Tests.cmd 4 1 5 0 : HostCmd).arg0 % 4096 : Nat)).state = 1) ∧ ((({ Tests.hostS (Tests.queue [Tests.cmd 4 1 5 0]) with pools := [(5, Tests.pool)] } : State).pool ((Tests.cmd 4 1 5 0 : HostCmd).arg0 % 4096 : Nat)).untaken + (Tests.cmd 4 1 5 0 : HostCmd).len ≤ 2 ^ (({ Tests.hostS (Tests.queue [Tests.cmd 4 1 5 0]) with pools := [(5, Tests.pool)] } : State).pool ((Tests.cmd 4 1 5 0 : HostCmd).arg0 % 4096 : Nat)).ringLog) ∧ (({ Tests.hostS (Tests.queue [Tests.cmd 4 1 5 0]) with pools := [(5, Tests.pool)] } : State).dmaOpen = true) ∧ (128 * (Tests.cmd 4 1 5 0 : HostCmd).len ≤ (List.replicate 128 0 : List Byte).length) ∧ (({ Tests.hostS (Tests.queue [Tests.cmd 4 1 5 0]) with pools := [(5, Tests.pool)] } : State).postDescs (({ Tests.hostS (Tests.queue [Tests.cmd 4 1 5 0]) with pools := [(5, Tests.pool)] } : State).pool ((Tests.cmd 4 1 5 0 : HostCmd).arg0 % 4096 : Nat)) (({ Tests.hostS (Tests.queue [Tests.cmd 4 1 5 0]) with pools := [(5, Tests.pool)] } : State).pool ((Tests.cmd 4 1 5 0 : HostCmd).arg0 % 4096 : Nat)).tail (List.replicate 128 0 : List Byte) (Tests.cmd 4 1 5 0 : HostCmd).len = (((State.postDescs { Tests.hostS (Tests.queue [Tests.cmd 4 1 5 0]) with pools := [(5, Tests.pool)] } Tests.pool 0 (List.replicate 128 0) 1).1 : State), (0 : Nat))) ∧
    ((Tests.hostS (Tests.queue [Tests.cmd 5 8 0 0])).openCmd (2 : Fin 64) (0 : Nat) 5 = some (Tests.cmd 5 8 0 0 : HostCmd)) ∧ ((Tests.hostS (Tests.queue [Tests.cmd 5 8 0 0])).signal ((Tests.cmd 5 8 0 0 : HostCmd).arg0 % 65536) ((Tests.cmd 5 8 0 0 : HostCmd).arg1 % 65536) .host 0 0 = ((((Tests.hostS (Tests.queue [Tests.cmd 5 8 0 0])).signal 0 0 .host 0 0).1), (false : Bool))) ∧
    ((Tests.hostS (Tests.queue [Tests.cmd 6 8 0 0])).openCmd (2 : Fin 64) (0 : Nat) 6 = some (Tests.cmd 6 8 0 0 : HostCmd)) ∧ ((Tests.cmd 6 8 0 0 : HostCmd).waitGen = none) ∧ ((Obj.idle : Obj) = (Tests.hostS (Tests.queue [Tests.cmd 6 8 0 0])).obj ((Tests.cmd 6 8 0 0 : HostCmd).arg0 % 65536)) ∧ ((Obj.idle : Obj).state = 0 ∨ (Tests.hostS (Tests.queue [Tests.cmd 6 8 0 0])).srcAllowed (Obj.idle : Obj) .host = true) ∧ ((((Tests.hostS (Tests.queue [Tests.cmd 6 8 0 0])).setHq (2 : Fin 64) { (Tests.hostS (Tests.queue [Tests.cmd 6 8 0 0])).hq (2 : Fin 64) with run := ((Tests.hostS (Tests.queue [Tests.cmd 6 8 0 0])).hq (2 : Fin 64)).run.mapIdx (fun i d => if i = (0 : Nat) then { d with waitGen := some (Obj.idle : Obj).gen, waitAt := (Tests.hostS (Tests.queue [Tests.cmd 6 8 0 0])).elapsed } else d) } : State) = (Tests.hostS (Tests.queue [Tests.cmd 6 8 0 0])).setHq (2 : Fin 64) { (Tests.hostS (Tests.queue [Tests.cmd 6 8 0 0])).hq (2 : Fin 64) with run := ((Tests.hostS (Tests.queue [Tests.cmd 6 8 0 0])).hq (2 : Fin 64)).run.mapIdx (fun i d => if i = (0 : Nat) then { d with waitGen := some (Obj.idle : Obj).gen, waitAt := (Tests.hostS (Tests.queue [Tests.cmd 6 8 0 0])).elapsed } else d) })) := by decide +kernel

theorem test_meets_HostCommands_4 :
    (({ Tests.hostS (Tests.queue [{ Tests.cmd 6 0 0 9 with waitGen := some 0 }]) with drove := 9000 } : State).openCmd (2 : Fin 64) (0 : Nat) 6 = some (({ Tests.cmd 6 0 0 9 with waitGen := some 0 } : HostCmd) : HostCmd)) ∧ ((({ Tests.cmd 6 0 0 9 with waitGen := some 0 } : HostCmd) : HostCmd).waitGen = some (0 : Nat)) ∧ ((({ Tests.cmd 6 0 0 9 with waitGen := some 0 } : HostCmd) : HostCmd).arg1 % 2 ^ 32 ≠ 0) ∧ ((({ Tests.cmd 6 0 0 9 with waitGen := some 0 } : HostCmd) : HostCmd).waitAt + 1000 * ((({ Tests.cmd 6 0 0 9 with waitGen := some 0 } : HostCmd) : HostCmd).arg1 % 2 ^ 32) ≤ ({ Tests.hostS (Tests.queue [{ Tests.cmd 6 0 0 9 with waitGen := some 0 }]) with drove := 9000 } : State).elapsed) ∧
    (((Tests.hostS (Tests.queue [{ Tests.cmd 0 0 0 0 with result := some (0, 0, 0) }]) : State).hq (2 : Fin 64)).run[(0 : Nat)]? = some (({ Tests.cmd 0 0 0 0 with result := some (0, 0, 0) } : HostCmd) : HostCmd)) ∧ ((({ Tests.cmd 0 0 0 0 with result := some (0, 0, 0) } : HostCmd) : HostCmd).orphan = false) ∧ ((({ Tests.cmd 0 0 0 0 with result := some (0, 0, 0) } : HostCmd) : HostCmd).copy = false) ∧ ((Tests.hostS (Tests.queue [{ Tests.cmd 0 0 0 0 with result := some (0, 0, 0) }]) : State).dmaOpen = true) ∧ ((({ Tests.cmd 0 0 0 0 with result := some (0, 0, 0) } : HostCmd) : HostCmd).result ≠ none) ∧ (((Tests.hostS (Tests.queue [{ Tests.cmd 0 0 0 0 with result := some (0, 0, 0) }]) : State).setHq (2 : Fin 64) { (Tests.hostS (Tests.queue [{ Tests.cmd 0 0 0 0 with result := some (0, 0, 0) }]) : State).hq (2 : Fin 64) with run := ((Tests.hostS (Tests.queue [{ Tests.cmd 0 0 0 0 with result := some (0, 0, 0) }]) : State).hq (2 : Fin 64)).run.eraseIdx (0 : Nat) } : State) = (Tests.hostS (Tests.queue [{ Tests.cmd 0 0 0 0 with result := some (0, 0, 0) }]) : State).setHq (2 : Fin 64) { (Tests.hostS (Tests.queue [{ Tests.cmd 0 0 0 0 with result := some (0, 0, 0) }]) : State).hq (2 : Fin 64) with run := ((Tests.hostS (Tests.queue [{ Tests.cmd 0 0 0 0 with result := some (0, 0, 0) }]) : State).hq (2 : Fin 64)).run.eraseIdx (0 : Nat) }) ∧
    (((Tests.hostS (Tests.queue [{ Tests.cmd 0 0 0 0 with result := some (0, 0, 0), orphan := true }]) : State).hq (2 : Fin 64)).run[(0 : Nat)]? = some (({ Tests.cmd 0 0 0 0 with result := some (0, 0, 0), orphan := true } : HostCmd) : HostCmd)) ∧ ((({ Tests.cmd 0 0 0 0 with result := some (0, 0, 0), orphan := true } : HostCmd) : HostCmd).orphan = true) ∧ ((({ Tests.cmd 0 0 0 0 with result := some (0, 0, 0), orphan := true } : HostCmd) : HostCmd).result ≠ none) ∧ (((Tests.hostS (Tests.queue [{ Tests.cmd 0 0 0 0 with result := some (0, 0, 0), orphan := true }]) : State).setHq (2 : Fin 64) { (Tests.hostS (Tests.queue [{ Tests.cmd 0 0 0 0 with result := some (0, 0, 0), orphan := true }]) : State).hq (2 : Fin 64) with run := ((Tests.hostS (Tests.queue [{ Tests.cmd 0 0 0 0 with result := some (0, 0, 0), orphan := true }]) : State).hq (2 : Fin 64)).run.eraseIdx (0 : Nat) } : State) = (Tests.hostS (Tests.queue [{ Tests.cmd 0 0 0 0 with result := some (0, 0, 0), orphan := true }]) : State).setHq (2 : Fin 64) { (Tests.hostS (Tests.queue [{ Tests.cmd 0 0 0 0 with result := some (0, 0, 0), orphan := true }]) : State).hq (2 : Fin 64) with run := ((Tests.hostS (Tests.queue [{ Tests.cmd 0 0 0 0 with result := some (0, 0, 0), orphan := true }]) : State).hq (2 : Fin 64)).run.eraseIdx (0 : Nat) }) := by decide +kernel

theorem test_meets_HostConnection :
    (((((Tests.hostS (Tests.queue [Tests.cmd 1 8 0 0])).bump .pcie Reg.PCIE.POISON_RX_COUNT).raise .pcie Evt.PCIE.POISON_RX)) = (((Tests.hostS (Tests.queue [Tests.cmd 1 8 0 0])).bump .pcie Reg.PCIE.POISON_RX_COUNT).raise .pcie Evt.PCIE.POISON_RX)) ∧ (((((Tests.hostS (Tests.queue [Tests.cmd 1 8 0 0])).bump .pcie Reg.PCIE.POISON_RX_COUNT).raise .pcie Evt.PCIE.POISON_RX)).openCmd (2 : Fin 64) (0 : Nat) 1 = some (Tests.cmd 1 8 0 0 : HostCmd)) ∧
    ((Tests.up).host.crs = false) ∧ ((((State.setF { (Tests.up) with host := { (Tests.up).host with bme := (true : Bool), d3hot := (false : Bool), fnMask := (false : Bool), cfg := (hostCfgInit : HostCfg) } } .pcie Reg.PCIE.LINK_DSTATE (if (false : Bool) then 1 else 0)) : State) = (State.setF { (Tests.up) with host := { (Tests.up).host with bme := (true : Bool), d3hot := (false : Bool), fnMask := (false : Bool), cfg := (hostCfgInit : HostCfg) } } .pcie Reg.PCIE.LINK_DSTATE (if (false : Bool) then 1 else 0)))) ∧
    (((((State.setF { (Tests.up).queuesStop with host := (Tests.up).queuesStop.host.cleared } .pcie Reg.PCIE.LINK_DSTATE 0).bump .pcie Reg.PCIE.FN_RESETS_COUNT).raise .pcie Evt.PCIE.FN_RESET).bootAgain.hostTargetsDown : State) = (((State.setF { (Tests.up).queuesStop with host := (Tests.up).queuesStop.host.cleared } .pcie Reg.PCIE.LINK_DSTATE 0).bump .pcie Reg.PCIE.FN_RESETS_COUNT).raise .pcie
      Evt.PCIE.FN_RESET).bootAgain.hostTargetsDown) ∧
    ((Tests.up.setF .pcie Reg.PCIE.BOOT_STAT_STATE 1).getF .pcie Reg.PCIE.BOOT_STAT_STATE = 1 ∨ (Tests.up.setF .pcie Reg.PCIE.BOOT_STAT_STATE 1).getF .pcie Reg.PCIE.BOOT_STAT_STATE = 4) ∧
    ((Tests.up.setF .pcie Reg.PCIE.BOOT_STAT_STATE 4).getF .pcie Reg.PCIE.BOOT_STAT_STATE = 1 ∨ (Tests.up.setF .pcie Reg.PCIE.BOOT_STAT_STATE 4).getF .pcie Reg.PCIE.BOOT_STAT_STATE = 4) ∧
    ((Tests.up.setF .pcie Reg.PCIE.BOOT_STAT_STATE 2).getF .pcie Reg.PCIE.BOOT_STAT_STATE = 2) ∧
    (let s : State := { Tests.up with mg := { Tests.up.mg with fw := { FwSt.init with writing := true } } }
    s.mg.fw.writing = true) := by decide +kernel

theorem test_meets_AssayDie_1 :
    ((Tests.up).assay.running = false) ∧
    (({ Tests.runS with assay := { AssaySt.init with running := true } } : State).assay.running = true) ∧ (({ Tests.runS with assay := { AssaySt.init with running := true } } : State).mg.up = true) ∧ ((false : Bool) = (({ Tests.runS with assay := { AssaySt.init with running := true } } : State).getF (.sync 0) Reg.SYNC.DROVE_STAT_STATE == 2)) ∧ (((false : Bool) = (match ({ Tests.runS with assay := { AssaySt.init with running := true } } : State).assay.copy with | some c => decide (({ Tests.runS with assay := { AssaySt.init with running := true } } : State).drove < c) | none => false))) ∧
    ((Tests.assayS { AssaySt.init with copy := some 100 } : State).assay.running = true) ∧ ((Tests.assayS { AssaySt.init with copy := some 100 } : State).assay.copy = some (100 : Nat)) ∧ ((((([(48000, 9000), (47990, 9100)]).map (fun x => x.1 * x.2)).sum : Nat) = (([(48000, 9000), (47990, 9100)]).map (fun x => x.1 * x.2)).sum)) ∧ ((((Tests.assayS { AssaySt.init with copy := some 100 } : State).assay.carry + ((([(48000, 9000), (47990, 9100)]).map (fun x => x.1 * x.2)).sum : Nat)) / 1000000000 : Nat) = ((Tests.assayS { AssaySt.init with copy := some 100 } : State).assay.carry + ((([(48000, 9000), (47990, 9100)]).map (fun x => x.1 * x.2)).sum : Nat)) / 1000000000) ∧ (((if (Tests.assayS { AssaySt.init with copy := some 100 } : State).assay.restart then (Tests.assayS { AssaySt.init with copy := some 100 } : State).assay.powerUps + 1 else (Tests.assayS { AssaySt.init with copy := some 100 } : State).assay.powerUps : Nat) = if (Tests.assayS { AssaySt.init with copy := some 100 } : State).assay.restart then (Tests.assayS { AssaySt.init with copy := some 100 } : State).assay.powerUps + 1 else (Tests.assayS { AssaySt.init with copy := some 100 } : State).assay.powerUps)) ∧ ((hallmarkFlags (Tests.assayS { AssaySt.init with copy := some 100 } : State).assay.restart (decide (10000000 < (5 : Nat)) || !(Tests.assayS { AssaySt.init with copy := some 100 } : State).assay.locked) ((Tests.assayS { AssaySt.init with copy := some 100 } : State).assay.jump || (Tests.assayS { AssaySt.init with copy := some 100 } : State).assay.leapt (2000 : Nat)) (decide (((([(48000, 9000), (47990, 9100)]).map (fun x => x.1 * x.2)).sum : Nat) < 240 * 1000 * (2000 : Nat))) (beyondScale ([(48000, 9000), (47990, 9100)])) ((Tests.assayS { AssaySt.init with copy := some 100 } : State).assay.refFail || (false : Bool)) (inputOut ([(48000, 9000), (47990, 9100)])) : Nat) = hallmarkFlags (Tests.assayS { AssaySt.init with copy := some 100 } : State).assay.restart (decide (10000000 < (5 : Nat)) || !(Tests.assayS { AssaySt.init with copy := some 100 } : State).assay.locked) ((Tests.assayS { AssaySt.init with copy := some 100 } : State).assay.jump || (Tests.assayS { AssaySt.init with copy := some 100 } : State).assay.leapt (2000 : Nat))
      (decide (((([(48000, 9000), (47990, 9100)]).map (fun x => x.1 * x.2)).sum : Nat) < 240 * 1000 * (2000 : Nat))) (beyondScale ([(48000, 9000), (47990, 9100)])) ((Tests.assayS { AssaySt.init with copy := some 100 } : State).assay.refFail || (false : Bool)) (inputOut ([(48000, 9000), (47990, 9100)]))) ∧ ((hallmarkBody (hallmarkFlags (Tests.assayS { AssaySt.init with copy := some 100 } : State).assay.restart (decide (10000000 < (5 : Nat)) || !(Tests.assayS { AssaySt.init with copy := some 100 } : State).assay.locked) ((Tests.assayS { AssaySt.init with copy := some 100 } : State).assay.jump || (Tests.assayS { AssaySt.init with copy := some 100 } : State).assay.leapt (2000 : Nat)) (decide (((([(48000, 9000), (47990, 9100)]).map (fun x => x.1 * x.2)).sum : Nat) < 240 * 1000 * (2000 : Nat))) (beyondScale ([(48000, 9000), (47990, 9100)])) ((Tests.assayS { AssaySt.init with copy := some 100 } : State).assay.refFail || (false : Bool)) (inputOut ([(48000, 9000), (47990, 9100)])) : Nat) (if (Tests.assayS { AssaySt.init with copy := some 100 } : State).assay.restart then (Tests.assayS { AssaySt.init with copy := some 100 } : State).assay.powerUps + 1 else (Tests.assayS { AssaySt.init with copy := some 100 } : State).assay.powerUps : Nat) (Tests.assayS { AssaySt.init with copy := some 100 } : State).serial ((Tests.assayS { AssaySt.init with copy := some 100 } : State).assay.hseq + 1) ((100 : Nat) + (5 : Nat)) ((Tests.assayS { AssaySt.init with copy := some 100 } : State).assay.eTotal + (((Tests.assayS { AssaySt.init with copy := some 100 } : State).assay.carry + ((([(48000, 9000), (47990, 9100)]).map (fun x => x.1 * x.2)).sum : Nat)) / 1000000000 : Nat)) (((Tests.assayS { AssaySt.init with copy := some 100 } : State).assay.carry + ((([(48000, 9000), (47990, 9100)]).map (fun x => x.1 * x.2)).sum : Nat)) / 1000000000 : Nat) (peakOf ([(48000, 9000), (47990, 9100)])) (2000 : Nat) (meanVolt ([(48000, 9000), (47990, 9100)])) (30 : Int) : List Byte) = hallmarkBody (hallmarkFlags (Tests.assayS { AssaySt.init with copy := some 100 } : State).assay.restart (decide (10000000 < (5 : Nat)) || !(Tests.assayS { AssaySt.init with copy := some 100 } : State).assay.locked) ((Tests.assayS { AssaySt.init with copy := some 100 } : State).assay.jump || (Tests.assayS { AssaySt.init with copy := some 100 } : State).assay.leapt (2000 : Nat)) (decide (((([(48000, 9000), (47990, 9100)]).map (fun x => x.1 * x.2)).sum : Nat) < 240 * 1000 * (2000 : Nat))) (beyondScale ([(48000, 9000), (47990, 9100)])) ((Tests.assayS { AssaySt.init with copy := some 100 } : State).assay.refFail || (false : Bool)) (inputOut ([(48000, 9000), (47990, 9100)])) : Nat) (if (Tests.assayS { AssaySt.init with copy := some 100 } : State).assay.restart then (Tests.assayS { AssaySt.init with copy := some 100 } : State).assay.powerUps + 1 else (Tests.assayS { AssaySt.init with copy := some 100 } : State).assay.powerUps : Nat) (Tests.assayS { AssaySt.init with copy := some 100 } : State).serial ((Tests.assayS { AssaySt.init with copy := some 100 } : State).assay.hseq + 1) ((100 : Nat) + (5 : Nat)) ((Tests.assayS { AssaySt.init with copy := some 100 } : State).assay.eTotal + (((Tests.assayS { AssaySt.init with copy := some 100 } : State).assay.carry + ((([(48000, 9000), (47990, 9100)]).map (fun x => x.1 * x.2)).sum : Nat)) / 1000000000 : Nat)) (((Tests.assayS { AssaySt.init with copy := some 100 } : State).assay.carry + ((([(48000, 9000), (47990, 9100)]).map (fun x => x.1 * x.2)).sum : Nat)) / 1000000000 : Nat) (peakOf ([(48000, 9000), (47990, 9100)])) (2000 : Nat) (meanVolt ([(48000, 9000), (47990, 9100)])) (30 : Int)) ∧
    (({ Tests.runS with assay := { AssaySt.init with last := some [7] } } : State).assay.last = some ([7] : List Byte)) ∧ (({ Tests.runS with assay := { AssaySt.init with last := some [7] } } : State).mg.up = true) := by decide +kernel

theorem test_meets_AssayDie_2 :
    (({ Tests.runS with drove := 3000000000, assay := { AssaySt.init with heard := some 0 } } : State).mg.up = true) ∧ (({ Tests.runS with drove := 3000000000, assay := { AssaySt.init with heard := some 0 } } : State).assay.heard = some (0 : Nat)) ∧ ((0 : Nat) + 3000000000 ≤ ({ Tests.runS with drove := 3000000000, assay := { AssaySt.init with heard := some 0 } } : State).elapsed) ∧ (({ ({ Tests.runS with drove := 3000000000, assay := { AssaySt.init with heard := some 0 } } : State) with assay := { ({ Tests.runS with drove := 3000000000, assay := { AssaySt.init with heard := some 0 } } : State).assay with heard := none } } : State) = { ({ Tests.runS with drove := 3000000000, assay := { AssaySt.init with heard := some 0 } } : State) with assay := { ({ Tests.runS with drove := 3000000000, assay := { AssaySt.init with heard := some 0 } } : State).assay with heard := none } }) := by decide +kernel

theorem test_meets_ResetsAndPower :
    (({ (Tests.up) with mg := { (Tests.up).mg with rails := false, tripped := false, isolated := false } } : State) = { (Tests.up) with mg := { (Tests.up).mg with rails := false, tripped := false, isolated := false } }) ∧
    (({ (Tests.up) with mg := { (Tests.up).mg with rails := false, aux := false, tripped := false, i3cAddr := none, i3cOff := 0 }, assay := { (Tests.up).assay with running := false } } : State) = { (Tests.up) with mg := { (Tests.up).mg with rails := false, aux := false, tripped := false, i3cAddr := none, i3cOff := 0 }, assay := { (Tests.up).assay with running := false } }) ∧
    (({ (Tests.up) with mg := { (Tests.up).mg with resetLow := true, tripped := false } } : State) = { (Tests.up) with mg := { (Tests.up).mg with resetLow := true, tripped := false } }) ∧
    (({ Tests.up with mg := { Tests.up.mg with resetLow := true } } : State).mg.resetLow = true) ∧ (({ ({ Tests.up with mg := { Tests.up.mg with resetLow := true } } : State) with mg := { ({ Tests.up with mg := { Tests.up.mg with resetLow := true } } : State).mg with resetLow := false } } : State) = { ({ Tests.up with mg := { Tests.up.mg with resetLow := true } } : State) with mg := { ({ Tests.up with mg := { Tests.up.mg with resetLow := true } } : State).mg with resetLow := false } }) ∧
    (({ Tests.up with mg := { Tests.up.mg with rails := false } } : State).mg.rails = false) ∧ (({ Tests.up with mg := { Tests.up.mg with rails := false } } : State).mg.tripped = false) ∧ (({ ({ Tests.up with mg := { Tests.up.mg with rails := false } } : State) with mg := { ({ Tests.up with mg := { Tests.up.mg with rails := false } } : State).mg with rails := true } } : State) = { ({ Tests.up with mg := { Tests.up.mg with rails := false } } : State) with mg := { ({ Tests.up with mg := { Tests.up.mg with rails := false } } : State).mg with rails := true } }) ∧
    ((Tests.startS 4).mg.up = true) ∧
    ((Tests.startS 4).mg.up = true) ∧
    Tests.up.mg.isolated = false := by decide +kernel

theorem test_meets_StartUp_1 :
    ((Tests.startS 1).startState = 1) ∧ ((Tests.startS 1).mg.up = true) ∧ (((Tests.startS 1).getF .pkg Reg.PKG.START_BOOT_SEL : Nat) = (Tests.startS 1).getF .pkg Reg.PKG.START_BOOT_SEL) ∧ (((Tests.startS 1).getF .pkg Reg.PKG.START_BOOT_SEL : Nat) = 0 ∨ (((Tests.startS 1).getF .pkg Reg.PKG.START_BOOT_SEL : Nat) = 1 ∧ (Tests.startS 1).getF .pcie Reg.PCIE.BOOT_STAT_STATE = 3)) ∧
    ((((Tests.startS 1).setF .pkg Reg.PKG.START_BOOT_SEL 1).setF .pcie Reg.PCIE.BOOT_STAT_STATE 3).startState = 1) ∧ ((((Tests.startS 1).setF .pkg Reg.PKG.START_BOOT_SEL 1).setF .pcie Reg.PCIE.BOOT_STAT_STATE 3).mg.up = true) ∧ (((((Tests.startS 1).setF .pkg Reg.PKG.START_BOOT_SEL 1).setF .pcie Reg.PCIE.BOOT_STAT_STATE 3).getF .pkg Reg.PKG.START_BOOT_SEL : Nat) = (((Tests.startS 1).setF .pkg Reg.PKG.START_BOOT_SEL 1).setF .pcie Reg.PCIE.BOOT_STAT_STATE 3).getF .pkg Reg.PKG.START_BOOT_SEL) ∧ (((((Tests.startS 1).setF .pkg Reg.PKG.START_BOOT_SEL 1).setF .pcie Reg.PCIE.BOOT_STAT_STATE 3).getF .pkg Reg.PKG.START_BOOT_SEL : Nat) = 0 ∨ (((((Tests.startS 1).setF .pkg Reg.PKG.START_BOOT_SEL 1).setF .pcie Reg.PCIE.BOOT_STAT_STATE 3).getF .pkg Reg.PKG.START_BOOT_SEL : Nat) = 1 ∧ (((Tests.startS 1).setF .pkg Reg.PKG.START_BOOT_SEL 1).setF .pcie Reg.PCIE.BOOT_STAT_STATE 3).getF .pcie Reg.PCIE.BOOT_STAT_STATE = 3)) ∧
    (((Tests.startS 1).setF .pkg Reg.PKG.START_BOOT_SEL 3).mg.up = true) ∧ (((Tests.startS 1).setF .pkg Reg.PKG.START_BOOT_SEL 3).startCause (1 : Fin 6) = true) ∧ (((((Tests.startS 1).setF .pkg Reg.PKG.START_BOOT_SEL 3).setF .pkg Reg.PKG.START_CAUSE (1 : Fin 6)).setF .hctl Reg.HCTL.ALERT_STAT_START_FAIL 1) = (((Tests.startS 1).setF .pkg Reg.PKG.START_BOOT_SEL 3).setF .pkg Reg.PKG.START_CAUSE (1 : Fin 6)).setF .hctl Reg.HCTL.ALERT_STAT_START_FAIL 1) := by decide +kernel

theorem test_meets_StartUp_2 :
    (((Tests.startS 1).setF .pkg Reg.PKG.DIE_LINKS_UP 0).mg.up = true) ∧ (((Tests.startS 1).setF .pkg Reg.PKG.DIE_LINKS_UP 0).startCause (5 : Fin 6) = true) ∧ (((((Tests.startS 1).setF .pkg Reg.PKG.DIE_LINKS_UP 0).setF .pkg Reg.PKG.START_CAUSE (5 : Fin 6)).setF .hctl Reg.HCTL.ALERT_STAT_START_FAIL 1) = (((Tests.startS 1).setF .pkg Reg.PKG.DIE_LINKS_UP 0).setF .pkg Reg.PKG.START_CAUSE (5 : Fin 6)).setF .hctl Reg.HCTL.ALERT_STAT_START_FAIL 1) ∧
    (2 ≤ (Tests.startS 4).startState) ∧ ((Tests.startS 4).startState ≠ 5) ∧ ((Tests.startS 4).mg.hcDown = false) ∧ ((((Tests.startS 4).mg.hcLog.filter (fun t => decide ((Tests.startS 4).elapsed ≤ t + 10000000000)) ++ [(Tests.startS 4).elapsed] : List Nat) = (Tests.startS 4).mg.hcLog.filter (fun t => decide ((Tests.startS 4).elapsed ≤ t + 10000000000)) ++ [(Tests.startS 4).elapsed])) ∧ (((State.bump { (Tests.startS 4) with mg := { (Tests.startS 4).mg with hcDown := true, hcLog := ((Tests.startS 4).mg.hcLog.filter (fun t => decide ((Tests.startS 4).elapsed ≤ t + 10000000000)) ++ [(Tests.startS 4).elapsed] : List Nat) } } .hctl Reg.HCTL.HCTL_RESTARTS_COUNT).raise .hctl Evt.HCTL.HCTL_RESTART : State) = (State.bump { (Tests.startS 4) with mg := { (Tests.startS 4).mg with hcDown := true, hcLog := ((Tests.startS 4).mg.hcLog.filter (fun t => decide ((Tests.startS 4).elapsed ≤ t + 10000000000)) ++ [(Tests.startS 4).elapsed] : List Nat) } } .hctl Reg.HCTL.HCTL_RESTARTS_COUNT).raise .hctl Evt.HCTL.HCTL_RESTART) ∧ ((((State.bump { (Tests.startS 4) with mg := { (Tests.startS 4).mg with hcDown := true, hcLog := ((Tests.startS 4).mg.hcLog.filter (fun t => decide ((Tests.startS 4).elapsed ≤ t + 10000000000)) ++ [(Tests.startS 4).elapsed] : List Nat) } } .hctl Reg.HCTL.HCTL_RESTARTS_COUNT).raise .hctl Evt.HCTL.HCTL_RESTART : State).setFw { ((State.bump { (Tests.startS 4) with mg := { (Tests.startS 4).mg with hcDown := true, hcLog := ((Tests.startS 4).mg.hcLog.filter (fun t => decide ((Tests.startS 4).elapsed ≤ t + 10000000000)) ++ [(Tests.startS 4).elapsed] : List Nat) } } .hctl Reg.HCTL.HCTL_RESTARTS_COUNT).raise .hctl Evt.HCTL.HCTL_RESTART : State).mg.fw with pieces := [] } : State) = ((State.bump { (Tests.startS 4) with mg := { (Tests.startS 4).mg with hcDown := true, hcLog := ((Tests.startS 4).mg.hcLog.filter (fun t => decide ((Tests.startS 4).elapsed ≤ t + 10000000000)) ++ [(Tests.startS 4).elapsed] : List Nat) } } .hctl Reg.HCTL.HCTL_RESTARTS_COUNT).raise .hctl Evt.HCTL.HCTL_RESTART : State).setFw { ((State.bump { (Tests.startS 4) with mg := { (Tests.startS 4).mg with hcDown := true, hcLog := ((Tests.startS 4).mg.hcLog.filter (fun t => decide ((Tests.startS 4).elapsed ≤ t + 10000000000)) ++ [(Tests.startS 4).elapsed] : List Nat) } } .hctl Reg.HCTL.HCTL_RESTARTS_COUNT).raise .hctl Evt.HCTL.HCTL_RESTART : State).mg.fw with pieces := [] }) ∧
    (({ Tests.up with mg := { Tests.up.mg with hcDown := true } } : State).mg.hcDown = true) ∧ (({ ({ Tests.up with mg := { Tests.up.mg with hcDown := true } } : State) with mg := { ({ Tests.up with mg := { Tests.up.mg with hcDown := true } } : State).mg with hcDown := false } } : State) = { ({ Tests.up with mg := { Tests.up.mg with hcDown := true } } : State) with mg := { ({ Tests.up with mg := { Tests.up.mg with hcDown := true } } : State).mg with hcDown := false } }) ∧
    (let s := Tests.startS 1
    s.startState = 1 ∧ s.mg.up = true ∧ s.getF .pkg Reg.PKG.START_BOOT_SEL = 0) := by decide +kernel

theorem test_meets_StartUp_3 :
    (let s := Tests.startS 2
    s.startState = 2 ∧ s.mg.up = true) ∧
    (let s : State := Tests.trained
    s.startState = 3 ∧ s.mg.up = true ∧ s.startDone = true) := by decide +kernel

theorem test_meets_ManagementMessages_1 :
    ((Tests.up).isSet .hctl Reg.HCTL.MGMT_STAT_LINK ≠ (true : Bool)) ∧
    (mgmtForm ([0] : List Byte) = false) ∧ (((Tests.upM).mgmtServing || (Tests.upM).romTransfer) = true) ∧
    (((State.reset).mgmtServing || (State.reset).romTransfer) = false) ∧
    ((Tests.upM).mgmtServing = true) ∧ (((Tests.upM).setF .hctl Reg.HCTL.HB_STAT_RACK_LOST 0) = (Tests.upM).setF .hctl Reg.HCTL.HB_STAT_RACK_LOST 0) ∧
    ((if (true : Bool) then ({ Tests.up with drove := 5000000000, mg := { Tests.up.mg with bmSeen := some 0 } } : State).mg.bmSeen else ({ Tests.up with drove := 5000000000, mg := { Tests.up.mg with bmSeen := some 0 } } : State).mg.rackSeen) = some (0 : Nat)) ∧ ((0 : Nat) + 5000000000 ≤ ({ Tests.up with drove := 5000000000, mg := { Tests.up.mg with bmSeen := some 0 } } : State).elapsed) ∧ ((({ ({ Tests.up with drove := 5000000000, mg := { Tests.up.mg with bmSeen := some 0 } } : State) with mg := if (true : Bool) then { ({ Tests.up with drove := 5000000000, mg := { Tests.up.mg with bmSeen := some 0 } } : State).mg with bmSeen := none } else { ({ Tests.up with drove := 5000000000, mg := { Tests.up.mg with bmSeen := some 0 } } : State).mg with rackSeen := none } } : State) = { ({ Tests.up with drove := 5000000000, mg := { Tests.up.mg with bmSeen := some 0 } } : State) with mg := if (true : Bool) then { ({ Tests.up with drove := 5000000000, mg := { Tests.up.mg with bmSeen := some 0 } } : State).mg with bmSeen := none } else { ({ Tests.up with drove := 5000000000, mg := { Tests.up.mg with bmSeen := some 0 } } : State).mg with rackSeen := none } })) ∧
    ((if (false : Bool) then ({ Tests.up with drove := 5000000000, mg := { Tests.up.mg with rackSeen := some 0 } } : State).mg.bmSeen else ({ Tests.up with drove := 5000000000, mg := { Tests.up.mg with rackSeen := some 0 } } : State).mg.rackSeen) = some (0 : Nat)) ∧ ((0 : Nat) + 5000000000 ≤ ({ Tests.up with drove := 5000000000, mg := { Tests.up.mg with rackSeen := some 0 } } : State).elapsed) ∧ ((({ ({ Tests.up with drove := 5000000000, mg := { Tests.up.mg with rackSeen := some 0 } } : State) with mg := if (false : Bool) then { ({ Tests.up with drove := 5000000000, mg := { Tests.up.mg with rackSeen := some 0 } } : State).mg with bmSeen := none } else { ({ Tests.up with drove := 5000000000, mg := { Tests.up.mg with rackSeen := some 0 } } : State).mg with rackSeen := none } } : State) = { ({ Tests.up with drove := 5000000000, mg := { Tests.up.mg with rackSeen := some 0 } } : State) with mg := if (false : Bool) then { ({ Tests.up with drove := 5000000000, mg := { Tests.up.mg with rackSeen := some 0 } } : State).mg with bmSeen := none } else { ({ Tests.up with drove := 5000000000, mg := { Tests.up.mg with rackSeen := some 0 } } : State).mg with rackSeen := none } })) := by decide +kernel

theorem test_meets_ManagementMessages_2 :
    ((Tests.upM).mgmtServing = true) ∧ ((8 : BitVec 8) ≠ 0) ∧ ((8 : BitVec 8).toNat ≤ 8) ∧ ((((Tests.upM).mg.reqLog.filter (fun t => decide ((Tests.upM).elapsed < t + 1000000000)) : List Nat) = (Tests.upM).mg.reqLog.filter (fun t => decide ((Tests.upM).elapsed < t + 1000000000)))) ∧ (((Tests.upM).mg.reqLog.filter (fun t => decide ((Tests.upM).elapsed < t + 1000000000)) : List Nat).length < 100) ∧ (({ (Tests.upM) with mg := { (Tests.upM).mg with reqLog := ((Tests.upM).mg.reqLog.filter (fun t => decide ((Tests.upM).elapsed < t + 1000000000)) : List Nat) ++ [(Tests.upM).elapsed] } } : State) = { (Tests.upM) with mg := { (Tests.upM).mg with reqLog := ((Tests.upM).mg.reqLog.filter (fun t => decide ((Tests.upM).elapsed < t + 1000000000)) : List Nat) ++ [(Tests.upM).elapsed] } }) ∧ (([]) = (Tests.upM).hallmarksFrom (1 : BitVec 64).toNat (8 : BitVec 8).toNat) ∧
    ((true : Bool) = ((Tests.startS 5).startState == 5)) ∧ ((true : Bool) = true ∨ ((Tests.startS 5).romTransfer = true ∧ (Tests.startS 5).fwState = 0)) ∧
    ((false : Bool) = (((Tests.startS 1).setF .pkg Reg.PKG.START_BOOT_SEL 2).startState == 5)) ∧ ((false : Bool) = true ∨ (((Tests.startS 1).setF .pkg Reg.PKG.START_BOOT_SEL 2).romTransfer = true ∧ ((Tests.startS 1).setF .pkg Reg.PKG.START_BOOT_SEL 2).fwState = 0)) := by decide +kernel

theorem test_meets_ManagementMessages_3 :
    Tests.upM.mgmtServing = true ∧ (0x5A310C27000491E6 : BitVec 64) ≠ 0 ∧ (0x5A310C27000491E6 : BitVec 64).toNat = Tests.upM.serial := by decide +kernel

theorem test_meets_I3cAndSettings_1 :
    (({ Tests.up with mg := { Tests.up.mg with aux := true } } : State).mg.aux = true) ∧ (({ Tests.up with mg := { Tests.up.mg with aux := true } } : State).mg.i3cAddr = none) ∧
    (({ Tests.up with mg := { Tests.up.mg with aux := true, i3cAddr := some 9 } } : State).i3cOn = true) ∧ (({ ({ Tests.up with mg := { Tests.up.mg with aux := true, i3cAddr := some 9 } } : State) with mg := { ({ Tests.up with mg := { Tests.up.mg with aux := true, i3cAddr := some 9 } } : State).mg with i3cOff := (0x30 : Byte).toNat } } : State) = { ({ Tests.up with mg := { Tests.up.mg with aux := true, i3cAddr := some 9 } } : State) with mg := { ({ Tests.up with mg := { Tests.up.mg with aux := true, i3cAddr := some 9 } } : State).mg with i3cOff := (0x30 : Byte).toNat } }) ∧ ((({ ({ Tests.up with mg := { Tests.up.mg with aux := true, i3cAddr := some 9 } } : State) with mg := { ({ Tests.up with mg := { Tests.up.mg with aux := true, i3cAddr := some 9 } } : State).mg with i3cOff := (0x30 : Byte).toNat } } : State).setF .hctl Reg.HCTL.HB_STAT_BM_LOST 0 : State) = ({ ({ Tests.up with mg := { Tests.up.mg with aux := true, i3cAddr := some 9 } } : State) with mg := { ({ Tests.up with mg := { Tests.up.mg with aux := true, i3cAddr := some 9 } } : State).mg with i3cOff := (0x30 : Byte).toNat } } : State).setF .hctl Reg.HCTL.HB_STAT_BM_LOST 0) ∧
    (({ Tests.up with mg := { Tests.up.mg with aux := true, i3cAddr := some 9 } } : State).i3cOn = true) ∧ (((({ Tests.up with mg := { Tests.up.mg with aux := true, i3cAddr := some 9 } } : State).emit (.i3cRead ((List.range (2 : Nat)).map (fun i => ({ Tests.up with mg := { Tests.up.mg with aux := true, i3cAddr := some 9 } } : State).i3cByte ((({ Tests.up with mg := { Tests.up.mg with aux := true, i3cAddr := some 9 } } : State).mg.i3cOff + i) % 256)))) : State) = ({ Tests.up with mg := { Tests.up.mg with aux := true, i3cAddr := some 9 } } : State).emit (.i3cRead ((List.range (2 : Nat)).map (fun i => ({ Tests.up with mg := { Tests.up.mg with aux := true, i3cAddr := some 9 } } : State).i3cByte ((({ Tests.up with mg := { Tests.up.mg with aux := true, i3cAddr := some 9 } } : State).mg.i3cOff + i) % 256)))))) ∧
    ((Tests.upM).mgmtServing = true) ∧ ((Tests.upM).startState ≠ 2) ∧ (((([3] : List (Fin 96))).map Fin.val : List Nat) = (([3] : List (Fin 96))).map Fin.val) ∧ (((([4] : List (Fin 96))).map Fin.val : List Nat) = (([4] : List (Fin 96))).map Fin.val) ∧ ((((([3] : List (Fin 96))).map Fin.val : List Nat) ++ ((([4] : List (Fin 96))).map Fin.val : List Nat)).any (fun b => (Tests.upM).mg.flash.retired.contains b) = false) ∧ ((logChain (Tests.upM).mg.flash.log).any (fun g => g.blocks.any (fun b => ((([4] : List (Fin 96))).map Fin.val : List Nat).contains b)) = false) ∧ ((((Tests.upM).eraseBlocks ((([4] : List (Fin 96))).map Fin.val : List Nat)).showWear) = ((Tests.upM).eraseBlocks ((([4] : List (Fin 96))).map Fin.val : List Nat)).showWear) := by decide +kernel

theorem test_meets_I3cAndSettings_2 :
    (((Tests.upM).mg.flash : Flash) = (Tests.upM).mg.flash) ∧
    (((Tests.upM).mg.flash.wear : Nat) = (Tests.upM).mg.flash.wear) ∧ (((Tests.upM).mg.flash.wear : Nat) < 800 ∨ 800 ≤ (Tests.upM).getF .hctl Reg.HCTL.STORE_STAT_WEAR) ∧
    (((State.setFlash Tests.upM { Tests.upM.mg.flash with erases := [(3, 90000)] } : State).mg.flash.wear : Nat) = (State.setFlash Tests.upM { Tests.upM.mg.flash with erases := [(3, 90000)] } : State).mg.flash.wear) ∧ (800 ≤ ((State.setFlash Tests.upM { Tests.upM.mg.flash with erases := [(3, 90000)] } : State).mg.flash.wear : Nat)) ∧ ((State.setFlash Tests.upM { Tests.upM.mg.flash with erases := [(3, 90000)] } : State).getF .hctl Reg.HCTL.STORE_STAT_WEAR < 800) ∧
    ((Tests.upM).startState ≠ 0) ∧ ((Tests.upM).mg.up = true) := by decide +kernel

theorem test_meets_FirmwareTransfer_1 :
    ((Tests.fwS 0 FwSt.init).xferServing = true) ∧ ((63 : BitVec 8) ≠ 0) ∧ ((63 : BitVec 8).toNat ≤ 63) ∧ ((Tests.fwS 0 FwSt.init).fwState = 0 ∨ (Tests.fwS 0 FwSt.init).fwState = 6) ∧ (((Tests.fwS 0 FwSt.init).setFw { (Tests.fwS 0 FwSt.init).mg.fw with server := (9 : BitVec 48).toNat, pieces := [] } : State) = (Tests.fwS 0 FwSt.init).setFw { (Tests.fwS 0 FwSt.init).mg.fw with server := (9 : BitVec 48).toNat, pieces := [] }) ∧
    ((Tests.fwS 1 FwSt.init).xferServing = true) ∧ ((1 : BitVec 8) ≠ 0) ∧ ((1 : BitVec 8).toNat ≤ 63) ∧ ((Tests.fwS 1 FwSt.init).fwState ≠ 0) ∧ ((Tests.fwS 1 FwSt.init).fwState ≠ 6) := by decide +kernel

theorem test_meets_FirmwareTransfer_2 :
    ((Tests.fwS 1 { FwSt.init with xfer := some ⟨8, 1, 9, []⟩ } : State).xferServing = true) ∧ ((List.replicate 1024 0 : List Byte).length = 1024) ∧ ((Tests.fwS 1 { FwSt.init with xfer := some ⟨8, 1, 9, []⟩ } : State).mg.fw.xfer = some (⟨8, 1, 9, []⟩ : Xfer)) ∧ ((Tests.fwS 1 { FwSt.init with xfer := some ⟨8, 1, 9, []⟩ } : State).fwState = 1) ∧ ((⟨8, 1, 9, []⟩ : Xfer).setId = (8 : BitVec 64).toNat) ∧ ((9 : Fin 64).val ≤ (⟨8, 1, 9, []⟩ : Xfer).chunks) ∧
    ((Tests.fwS 0 FwSt.init).xferServing = true) ∧
    ((Tests.fwS 1 { FwSt.init with xfer := some ⟨8, 1, 9, []⟩ } : State).xferServing = true) ∧ (((if (Tests.fwS 1 { FwSt.init with xfer := some ⟨8, 1, 9, []⟩ } : State).mg.fw.xfer.any (fun x => x.setId == (8 : BitVec 64).toNat) ∧ ((Tests.fwS 1 { FwSt.init with xfer := some ⟨8, 1, 9, []⟩ } : State).fwState = 1 ∨ (Tests.fwS 1 { FwSt.init with xfer := some ⟨8, 1, 9, []⟩ } : State).fwState = 2 ∨ (Tests.fwS 1 { FwSt.init with xfer := some ⟨8, 1, 9, []⟩ } : State).fwState = 6) then (Tests.fwS 1 { FwSt.init with xfer := some ⟨8, 1, 9, []⟩ } : State).dropSet else (Tests.fwS 1 { FwSt.init with xfer := some ⟨8, 1, 9, []⟩ } : State) : State) = if (Tests.fwS 1 { FwSt.init with xfer := some ⟨8, 1, 9, []⟩ } : State).mg.fw.xfer.any (fun x => x.setId == (8 : BitVec 64).toNat) ∧ ((Tests.fwS 1 { FwSt.init with xfer := some ⟨8, 1, 9, []⟩ } : State).fwState = 1 ∨ (Tests.fwS 1 { FwSt.init with xfer := some ⟨8, 1, 9, []⟩ } : State).fwState = 2 ∨ (Tests.fwS 1 { FwSt.init with xfer := some ⟨8, 1, 9, []⟩ } : State).fwState = 6) then (Tests.fwS 1 { FwSt.init with xfer := some ⟨8, 1, 9, []⟩ } : State).dropSet else (Tests.fwS 1 { FwSt.init with xfer := some ⟨8, 1, 9, []⟩ } : State))) := by decide +kernel

theorem test_meets_FirmwareTransfer_3 :
    ((Tests.fwS 1 { FwSt.init with xfer := some ⟨8, 1, 9, [0]⟩, pieces := (List.range 64).map (fun p => (64 * 9 + p, [7])) } : State).xferServing = true) ∧ ((Tests.fwS 1 { FwSt.init with xfer := some ⟨8, 1, 9, [0]⟩, pieces := (List.range 64).map (fun p => (64 * 9 + p, [7])) } : State).mg.fw.xfer = some (⟨8, 1, 9, [0]⟩ : Xfer)) ∧ ((Tests.fwS 1 { FwSt.init with xfer := some ⟨8, 1, 9, [0]⟩, pieces := (List.range 64).map (fun p => (64 * 9 + p, [7])) } : State).fwState = 1) ∧ (((Tests.fwS 1 { FwSt.init with xfer := some ⟨8, 1, 9, [0]⟩, pieces := (List.range 64).map (fun p => (64 * 9 + p, [7])) } : State).piecesOf (9 : Fin 64)).length = 64) ∧ ((9 : Fin 64) ≠ 0) ∧ ((⟨8, 1, 9, [0]⟩ : Xfer).done.contains 0 = true) ∧
    ((Tests.fwS 1 { FwSt.init with xfer := some ⟨8, 1, 1, [0, 1]⟩ } : State).fwServing = true) ∧ ((Tests.fwS 1 { FwSt.init with xfer := some ⟨8, 1, 1, [0, 1]⟩ } : State).mg.fw.xfer = some (⟨8, 1, 1, [0, 1]⟩ : Xfer)) ∧ ((Tests.fwS 1 { FwSt.init with xfer := some ⟨8, 1, 1, [0, 1]⟩ } : State).fwState = 1) ∧ ((⟨8, 1, 1, [0, 1]⟩ : Xfer).whole = true) ∧
    ((Tests.fwS 1 FwSt.init).xferServing = true) ∧ ((Tests.fwS 1 FwSt.init).fwState = 1 ∨ (Tests.fwS 1 FwSt.init).fwState = 2 ∨ (Tests.fwS 1 FwSt.init).fwState = 6) ∧
    ((Tests.fwS 2 FwSt.init).xferServing = true) ∧ ((Tests.fwS 2 FwSt.init).fwState = 1 ∨ (Tests.fwS 2 FwSt.init).fwState = 2 ∨ (Tests.fwS 2 FwSt.init).fwState = 6) := by decide +kernel

theorem test_meets_FirmwareTransfer_4 :
    ((Tests.fwS 6 FwSt.init).xferServing = true) ∧ ((Tests.fwS 6 FwSt.init).fwState = 1 ∨ (Tests.fwS 6 FwSt.init).fwState = 2 ∨ (Tests.fwS 6 FwSt.init).fwState = 6) ∧
    (let s := Tests.fwS 1 { FwSt.init with xfer := some ⟨8, 1, 9, []⟩, pieces := (List.range 64).map (fun p => (p, [7])) }
    s.xferServing = true ∧ s.fwState = 1 ∧ (s.piecesOf 0).length = 64) := by decide +kernel

theorem test_meets_FirmwareActivation_1 :
    ((Tests.fwS 2 FwSt.init).fwServing = true) ∧ ((Tests.fwS 2 FwSt.init).fwState = 2) ∧
    ((Tests.fwS 5 FwSt.init).handingOver = true) ∧ ((3 : Fin 5) ≠ 1) ∧ (imagePairs.contains ((3 : Fin 5).val, (31 : Fin 32).val) = true) ∧ ((Tests.fwS 5 FwSt.init).imageHeld (3 : Fin 5) (31 : Fin 32) = false) ∧ ((Tests.fwS 5 FwSt.init).mg.fw.confirmed.contains (256 * (3 : Fin 5).val + (31 : Fin 32).val) = false) ∧ (({ (Tests.fwS 5 FwSt.init).mg.fw with confirmed := (Tests.fwS 5 FwSt.init).mg.fw.confirmed ++ [256 * (3 : Fin 5).val + (31 : Fin 32).val] } : FwSt) = { (Tests.fwS 5 FwSt.init).mg.fw with confirmed := (Tests.fwS 5 FwSt.init).mg.fw.confirmed ++ [256 * (3 : Fin 5).val + (31 : Fin 32).val] }) ∧ (((if 256 * (3 : Fin 5).val + (31 : Fin 32).val = 0 then ((Tests.fwS 5 FwSt.init).setFw ({ (Tests.fwS 5 FwSt.init).mg.fw with confirmed := (Tests.fwS 5 FwSt.init).mg.fw.confirmed ++ [256 * (3 : Fin 5).val + (31 : Fin 32).val] } : FwSt)).hcBack else if (3 : Fin 5) = 2 then ((Tests.fwS 5 FwSt.init).setFw ({ (Tests.fwS 5 FwSt.init).mg.fw with confirmed := (Tests.fwS 5 FwSt.init).mg.fw.confirmed ++ [256 * (3 : Fin 5).val + (31 : Fin 32).val] } : FwSt)).freeCeils else if (3 : Fin 5) = 3 ∧ (31 : Fin 32).val % 2 = 0 then ((Tests.fwS 5 FwSt.init).setFw ({ (Tests.fwS 5 FwSt.init).mg.fw with confirmed := (Tests.fwS 5 FwSt.init).mg.fw.confirmed ++ [256 * (3 : Fin 5).val + (31 : Fin 32).val] } : FwSt)).setFw { ((Tests.fwS 5 FwSt.init).setFw ({ (Tests.fwS 5 FwSt.init).mg.fw with confirmed := (Tests.fwS 5 FwSt.init).mg.fw.confirmed ++ [256 * (3 : Fin 5).val + (31 : Fin 32).val] } : FwSt)).mg.fw with levels := ((Tests.fwS 5 FwSt.init).setFw ({ (Tests.fwS 5 FwSt.init).mg.fw with confirmed := (Tests.fwS 5 FwSt.init).mg.fw.confirmed ++ [256 * (3 : Fin 5).val + (31 : Fin 32).val] } : FwSt)).mg.fw.levels.put ((31 : Fin 32).val / 2) (oecOffer ((Tests.fwS 5 FwSt.init).setFw ({ (Tests.fwS 5 FwSt.init).mg.fw with confirmed := (Tests.fwS 5 FwSt.init).mg.fw.confirmed ++ [256 * (3 : Fin 5).val + (31 : Fin 32).val] } : FwSt)).newManifest ((31 : Fin 32).val / 2)) } else (Tests.fwS 5 FwSt.init).setFw ({ (Tests.fwS 5 FwSt.init).mg.fw with confirmed := (Tests.fwS 5 FwSt.init).mg.fw.confirmed ++ [256 * (3 : Fin 5).val + (31 : Fin 32).val] } : FwSt) : State) = if 256 * (3 : Fin 5).val + (31 : Fin 32).val = 0 then ((Tests.fwS 5 FwSt.init).setFw ({ (Tests.fwS 5 FwSt.init).mg.fw with confirmed := (Tests.fwS 5 FwSt.init).mg.fw.confirmed ++ [256 * (3 : Fin 5).val + (31 : Fin 32).val] } : FwSt)).hcBack else if (3 : Fin 5) = 2 then ((Tests.fwS 5 FwSt.init).setFw ({ (Tests.fwS 5 FwSt.init).mg.fw with confirmed := (Tests.fwS 5 FwSt.init).mg.fw.confirmed ++ [256 * (3 : Fin 5).val + (31 : Fin 32).val] } : FwSt)).freeCeils
      else if (3 : Fin 5) = 3 ∧ (31 : Fin 32).val % 2 = 0 then ((Tests.fwS 5 FwSt.init).setFw ({ (Tests.fwS 5 FwSt.init).mg.fw with confirmed := (Tests.fwS 5 FwSt.init).mg.fw.confirmed ++ [256 * (3 : Fin 5).val + (31 : Fin 32).val] } : FwSt)).setFw { ((Tests.fwS 5 FwSt.init).setFw ({ (Tests.fwS 5 FwSt.init).mg.fw with confirmed := (Tests.fwS 5 FwSt.init).mg.fw.confirmed ++ [256 * (3 : Fin 5).val + (31 : Fin 32).val] } : FwSt)).mg.fw with levels := ((Tests.fwS 5 FwSt.init).setFw ({ (Tests.fwS 5 FwSt.init).mg.fw with confirmed := (Tests.fwS 5 FwSt.init).mg.fw.confirmed ++ [256 * (3 : Fin 5).val + (31 : Fin 32).val] } : FwSt)).mg.fw.levels.put ((31 : Fin 32).val / 2) (oecOffer ((Tests.fwS 5 FwSt.init).setFw ({ (Tests.fwS 5 FwSt.init).mg.fw with confirmed := (Tests.fwS 5 FwSt.init).mg.fw.confirmed ++ [256 * (3 : Fin 5).val + (31 : Fin 32).val] } : FwSt)).newManifest ((31 : Fin 32).val / 2)) } else (Tests.fwS 5 FwSt.init).setFw ({ (Tests.fwS 5 FwSt.init).mg.fw with confirmed := (Tests.fwS 5 FwSt.init).mg.fw.confirmed ++ [256 * (3 : Fin 5).val + (31 : Fin 32).val] } : FwSt))) ∧
    ((Tests.fwS 5 FwSt.init).handingOver = true) ∧ ((((Tests.fwS 5 FwSt.init).levelsBack.fwAbandon (if (true : Bool) then 2 else 1) ([])) = (Tests.fwS 5 FwSt.init).levelsBack.fwAbandon (if (true : Bool) then 2 else 1) ([]))) := by decide +kernel

theorem test_meets_FirmwareActivation_2 :
    (({ Tests.tileS Tile.init with mg := { Tests.up.mg with fw := { FwSt.init with tmcOn := true } } } : State).mg.fw.tmcOn = true) ∧ (({ Tests.tileS Tile.init with mg := { Tests.up.mg with fw := { FwSt.init with tmcOn := true } } } : State).tileActive (0 : Fin 4) (0 : Fin 104) = true) ∧ ((({ Tests.tileS Tile.init with mg := { Tests.up.mg with fw := { FwSt.init with tmcOn := true } } } : State).tile (0 : Fin 4) (0 : Fin 104)).newTmc = false) ∧ ((({ Tests.tileS Tile.init with mg := { Tests.up.mg with fw := { FwSt.init with tmcOn := true } } } : State).tile (0 : Fin 4) (0 : Fin 104)).slot0 = none) ∧ ((({ Tests.tileS Tile.init with mg := { Tests.up.mg with fw := { FwSt.init with tmcOn := true } } } : State).tile (0 : Fin 4) (0 : Fin 104)).slot1 = none) ∧
    ((Tests.fwS 0 FwSt.init).fwServing = true) ∧ ((Tests.fwS 0 FwSt.init).fwState = 0) ∧ ((Tests.fwS 0 FwSt.init).runSlot = (Tests.fwS 0 FwSt.init).mg.flash.active) ∧
    (let s := Tests.fwS 5 { FwSt.init with committed := true }
    s.fwState = 5 ∧ s.mg.fw.committed = true) ∧
    (let s := (Tests.fwS 1 { FwSt.init with xfer := some ⟨8, 1, 1, [0, 1]⟩ }).setF .pkg Reg.PKG.START_STATE 5
    s.startState = 5 ∧ s.fwState = 1 ∧ s.mg.fw.xfer.any Xfer.whole = true) := by decide +kernel

theorem test_meets_StagingAndCommits_1 :
    ((Tests.up).pageOpen (.hctl : UnitId) = true) ∧ (stagedHere (.hctl : UnitId) = true) ∧ (stMask (.hctl : UnitId) (0x200 : Nat) ≠ 0) ∧ ((∀ h, (.hctl : UnitId) ≠ .rout h)) ∧ ((Tests.up).commits = []) ∧
    ((Tests.up.setF .pkg Reg.CHECK_RESULT 3).getF (.pkg : UnitId) Reg.CHECK_RESULT = 3) ∧ ((Tests.up.setF .pkg Reg.CHECK_RESULT 3).commit? (.pkg : UnitId) = none) ∧
    ((Tests.up).pageOpen (.place : UnitId) = true) ∧ ((Tests.up).commits = []) ∧ ((Tests.up).ready = true) ∧
    ((Tests.up.setF .pkg Reg.PKG.START_STATE 3).pageOpen (.pkg : UnitId) = true) ∧ ((Tests.up.setF .pkg Reg.PKG.START_STATE 3).ready = false) := by decide +kernel

theorem test_meets_StagingAndCommits_2 :
    (({ Tests.up with commits := [(0x5B, ⟨.place, 9, false, true, false, 0, none, []⟩)] } : State).pageOpen (.place : UnitId) = true) ∧ (({ Tests.up with commits := [(0x5B, ⟨.place, 9, false, true, false, 0, none, []⟩)] } : State).covering (.place : UnitId) = none) ∧ (({ Tests.up with commits := [(0x5B, ⟨.place, 9, false, true, false, 0, none, []⟩)] } : State).commit? (.place : UnitId) = some (⟨.place, 9, false, true, false, 0, none, []⟩ : Commit)) ∧ (({ Tests.up with commits := [(0x5B, ⟨.place, 9, false, true, false, 0, none, []⟩)] } : State).drove < (⟨.place, 9, false, true, false, 0, none, []⟩ : Commit).at_) ∧
    ((Tests.up).pageOpen (.place : UnitId) = true) ∧ ((Tests.up).commits = []) ∧ ((Tests.up).copyHeld (.place : UnitId) = false) ∧ (((Tests.up).findErrs ([] : LineErrs)) = (Tests.up).findErrs ([] : LineErrs)) ∧ ((((Tests.up).findErrs ([] : LineErrs)).dropCommit (.place : UnitId)).checkFail (.place : UnitId) = none) := by decide +kernel

theorem test_meets_StagingAndCommits_3 :
    (({ Tests.up.setF (.sync 0) Reg.SYNC.DROVE_STAT_STATE 2 with commits := [(0x5B, ⟨.place, 9, false, false, false, 0, none, []⟩)], drove := 9 } : State).commit? (.place : UnitId) = some (⟨.place, 9, false, false, false, 0, none, []⟩ : Commit)) ∧ ((⟨.place, 9, false, false, false, 0, none, []⟩ : Commit).unit = (.place : UnitId)) ∧ ((⟨.place, 9, false, false, false, 0, none, []⟩ : Commit).joined = []) ∧ ((⟨.place, 9, false, false, false, 0, none, []⟩ : Commit).now = false) ∧ ((⟨.place, 9, false, false, false, 0, none, []⟩ : Commit).running = false) ∧ ((⟨.place, 9, false, false, false, 0, none, []⟩ : Commit).cause = 0) ∧ ((⟨.place, 9, false, false, false, 0, none, []⟩ : Commit).at_ ≤ ({ Tests.up.setF (.sync 0) Reg.SYNC.DROVE_STAT_STATE 2 with commits := [(0x5B, ⟨.place, 9, false, false, false, 0, none, []⟩)], drove := 9 } : State).drove) ∧ (({ Tests.up.setF (.sync 0) Reg.SYNC.DROVE_STAT_STATE 2 with commits := [(0x5B, ⟨.place, 9, false, false, false, 0, none, []⟩)], drove := 9 } : State).copyHeld (.place : UnitId) = false) ∧ (({ Tests.up.setF (.sync 0) Reg.SYNC.DROVE_STAT_STATE 2 with commits := [(0x5B, ⟨.place, 9, false, false, false, 0, none, []⟩)], drove := 9 } : State).getF (.sync 0) Reg.SYNC.DROVE_STAT_STATE = 2) ∧ ((({ Tests.up.setF (.sync 0) Reg.SYNC.DROVE_STAT_STATE 2 with commits := [(0x5B, ⟨.place, 9, false, false, false, 0, none, []⟩)], drove := 9 } : State).findErrs ([] : LineErrs) : State) = ({ Tests.up.setF (.sync 0) Reg.SYNC.DROVE_STAT_STATE 2 with commits := [(0x5B, ⟨.place, 9, false, false, false, 0, none, []⟩)], drove := 9 } : State).findErrs ([] : LineErrs)) ∧ (((({ Tests.up.setF (.sync 0) Reg.SYNC.DROVE_STAT_STATE 2 with commits := [(0x5B, ⟨.place, 9, false, false, false, 0, none, []⟩)], drove := 9 } : State).findErrs ([] : LineErrs) : State).dropCommit (.place : UnitId)).checkFail (.place : UnitId) = none) ∧
    ((({ Tests.up with net := { NetSt.reset with r1 := { RoutSt.init with dbusy := 3 } } } : State).rout (1 : Fin 2)).dbusy = 3) ∧ (({ Tests.up with net := { NetSt.reset with r1 := { RoutSt.init with dbusy := 3 } } } : State).commits = []) := by decide +kernel

theorem test_meets_StagedSetGoesIntoForce :
    ({ Tests.up with shadow := [(regKey .hctl 0x200, 900)] } : State).shadow.Rising ∧
    ({ Tests.up with shadow := [(regKey .hctl 0x200, 900)] } : State).shadow.find (regKey .hctl 0x200) = some 900 := by decide +kernel

theorem test_meets_QueueRunsOneCommandAtATime :
    (({ Tests.up with pending := [.masterEligible] } : State).pending = (.masterEligible : Instr) :: ([] : List Instr)) ∧
    ((Tests.up).pending = []) ∧ ((Tests.up).getF .pkg Reg.PKG.START_STATE ≠ 0) ∧
    ((State.reset.setF .pkg Reg.PKG.START_STATE 0).pending = []) ∧ ((State.reset.setF .pkg Reg.PKG.START_STATE 0).getF .pkg Reg.PKG.START_STATE = 0) := by decide +kernel

theorem test_meets_StepKeepsMemoryCanonical :
    Memory.wf Tests.up.mm.mem ∧ Tests.up.pending = [] := by decide +kernel

theorem test_meets_EveryCommandCompletes :
    ({ Tests.up with fuses := [(3, true)] } : State).fuses.getD 3 false = true := by decide +kernel

theorem test_meets_StorageReadsBack :
    ((Reg.PKG.START_STATE : Fld).lo ≤ (Reg.PKG.START_STATE : Fld).hi) ∧ ((Reg.PKG.START_STATE : Fld).hi < 32) ∧ ((Reg.PKG.START_STATE : Fld).off < 4096) ∧
    ((Reg.HCTL.FW_STAT_STATE : Fld).hi < 32) ∧ ((Reg.HCTL.FW_STAT_CAUSE : Fld).lo ≤ (Reg.HCTL.FW_STAT_CAUSE : Fld).hi) ∧ ((Reg.HCTL.FW_STAT_CAUSE : Fld).hi < 32) ∧ ((Reg.HCTL.FW_STAT_STATE : Fld).off < 4096) ∧ ((Reg.HCTL.FW_STAT_CAUSE : Fld).off < 4096) ∧ ((.pkg : UnitId) ≠ (.pkg : UnitId) ∨ (Reg.HCTL.FW_STAT_STATE : Fld).off / 4 ≠ (Reg.HCTL.FW_STAT_CAUSE : Fld).off / 4 ∨ ((Reg.HCTL.FW_STAT_STATE : Fld).off = (Reg.HCTL.FW_STAT_CAUSE : Fld).off ∧ ((Reg.HCTL.FW_STAT_STATE : Fld).hi < (Reg.HCTL.FW_STAT_CAUSE : Fld).lo ∨ (Reg.HCTL.FW_STAT_CAUSE : Fld).hi < (Reg.HCTL.FW_STAT_STATE : Fld).lo))) ∧
    (Memory.wf ([(3, 1)] : Map Byte)) := by decide +kernel

theorem test_meets_SemaphoreSignalSaturates :
    (({ (Tests.obj 1) with count := 2 ^ 31 - 2 } : Obj) = (Tests.syncS { (Tests.obj 1) with count := 2 ^ 31 - 2 } LinkSt.init : State).obj (5 : Nat)) ∧ (({ (Tests.obj 1) with count := 2 ^ 31 - 2 } : Obj).state ≠ 0) ∧ (({ (Tests.obj 1) with count := 2 ^ 31 - 2 } : Obj).kind = 1) ∧ ((3 : Nat) ≠ 0) ∧ ((Tests.syncS { (Tests.obj 1) with count := 2 ^ 31 - 2 } LinkSt.init : State).srcAllowed ({ (Tests.obj 1) with count := 2 ^ 31 - 2 } : Obj) (.host : SyncSrc) = true) ∧ (2 ^ 31 - 1 < ({ (Tests.obj 1) with count := 2 ^ 31 - 2 } : Obj).count + (3 : Nat)) ∧
    (({ (Tests.obj 1) with count := 2 ^ 31 - 2 } : Obj) = ((Tests.syncS { (Tests.obj 1) with count := 2 ^ 31 - 2 } LinkSt.init).setF (.sync 0) Reg.SYNC.OBJ_SEL_OBJ 5 : State).obj (5 : BitVec 16).toNat) ∧ (((Tests.syncS { (Tests.obj 1) with count := 2 ^ 31 - 2 } LinkSt.init).setF (.sync 0) Reg.SYNC.OBJ_SEL_OBJ 5 : State).selObj (objHub (5 : BitVec 16).toNat) = some (5 : BitVec 16).toNat) ∧ (({ (Tests.obj 1) with count := 2 ^ 31 - 2 } : Obj).state ≠ 0) ∧ (({ (Tests.obj 1) with count := 2 ^ 31 - 2 } : Obj).kind = 1) ∧ ((3 : BitVec 16) ≠ 0) ∧ (((Tests.syncS { (Tests.obj 1) with count := 2 ^ 31 - 2 } LinkSt.init).setF (.sync 0) Reg.SYNC.OBJ_SEL_OBJ 5 : State).srcAllowed ({ (Tests.obj 1) with count := 2 ^ 31 - 2 } : Obj) .host = true) ∧ (2 ^ 31 - 1 < ({ (Tests.obj 1) with count := 2 ^ 31 - 2 } : Obj).count + (3 : BitVec 16).toNat) := by decide +kernel

theorem test_meets_RetirementWithoutReserveStartsADrain :
    (((Tests.chS 2 { MemSt.reset with toRetire := [(0, true)] }).setF (.mchn 0 0) Reg.MCHN.FRAMES_SPARE_LEFT 0 : State).mm.toRetire.getD (0 : Nat) false = true) ∧ (((Tests.chS 2 { MemSt.reset with toRetire := [(0, true)] }).setF (.mchn 0 0) Reg.MCHN.FRAMES_SPARE_LEFT 0 : State).hcAway = false) ∧ (((Tests.chS 2 { MemSt.reset with toRetire := [(0, true)] }).setF (.mchn 0 0) Reg.MCHN.FRAMES_SPARE_LEFT 0 : State).getF (chanUnit (frameChan (0 : Nat))) Reg.MCHN.FRAMES_SPARE_LEFT = 0) ∧ ((((match ((Tests.chS 2 { MemSt.reset with toRetire := [(0, true)] }).setF (.mchn 0 0) Reg.MCHN.FRAMES_SPARE_LEFT 0 : State).pageOfFrame (0 : Nat) with | some (pr, p) => if ((Tests.chS 2 { MemSt.reset with toRetire := [(0, true)] }).setF (.mchn 0 0) Reg.MCHN.FRAMES_SPARE_LEFT 0 : State).frameListed (0 : Nat) && p.st ≠ PageSt.lost then ((Tests.chS 2 { MemSt.reset with toRetire := [(0, true)] }).setF (.mchn 0 0) Reg.MCHN.FRAMES_SPARE_LEFT 0 : State).abandonMove pr else ((Tests.chS 2 { MemSt.reset with toRetire := [(0, true)] }).setF (.mchn 0 0) Reg.MCHN.FRAMES_SPARE_LEFT 0 : State) | none => ((Tests.chS 2 { MemSt.reset with toRetire := [(0, true)] }).setF (.mchn 0 0) Reg.MCHN.FRAMES_SPARE_LEFT 0 : State)) : State) = (match ((Tests.chS 2 { MemSt.reset with toRetire := [(0, true)] }).setF (.mchn 0 0) Reg.MCHN.FRAMES_SPARE_LEFT 0 : State).pageOfFrame (0 : Nat) with
      | some (pr, p) => if ((Tests.chS 2 { MemSt.reset with toRetire := [(0, true)] }).setF (.mchn 0 0) Reg.MCHN.FRAMES_SPARE_LEFT 0 : State).frameListed (0 : Nat) && p.st ≠ PageSt.lost then ((Tests.chS 2 { MemSt.reset with toRetire := [(0, true)] }).setF (.mchn 0 0) Reg.MCHN.FRAMES_SPARE_LEFT 0 : State).abandonMove pr else ((Tests.chS 2 { MemSt.reset with toRetire := [(0, true)] }).setF (.mchn 0 0) Reg.MCHN.FRAMES_SPARE_LEFT 0 : State)
      | none => ((Tests.chS 2 { MemSt.reset with toRetire := [(0, true)] }).setF (.mchn 0 0) Reg.MCHN.FRAMES_SPARE_LEFT 0 : State)))) ∧ (((match ((Tests.chS 2 { MemSt.reset with toRetire := [(0, true)] }).setF (.mchn 0 0) Reg.MCHN.FRAMES_SPARE_LEFT 0 : State).pageOfFrame (0 : Nat) with | some (pr, p) => if ((Tests.chS 2 { MemSt.reset with toRetire := [(0, true)] }).setF (.mchn 0 0) Reg.MCHN.FRAMES_SPARE_LEFT 0 : State).frameListed (0 : Nat) && p.st ≠ PageSt.lost then ((Tests.chS 2 { MemSt.reset with toRetire := [(0, true)] }).setF (.mchn 0 0) Reg.MCHN.FRAMES_SPARE_LEFT 0 : State).abandonMove pr else ((Tests.chS 2 { MemSt.reset with toRetire := [(0, true)] }).setF (.mchn 0 0) Reg.MCHN.FRAMES_SPARE_LEFT 0 : State) | none => ((Tests.chS 2 { MemSt.reset with toRetire := [(0, true)] }).setF (.mchn 0 0) Reg.MCHN.FRAMES_SPARE_LEFT 0 : State)) : State).chanState (frameChan (0 : Nat)) = 2) ∧ ((((((((match ((Tests.chS 2 { MemSt.reset with toRetire := [(0, true)] }).setF (.mchn 0 0) Reg.MCHN.FRAMES_SPARE_LEFT 0 : State).pageOfFrame (0 : Nat) with | some (pr, p) => if ((Tests.chS 2 { MemSt.reset with toRetire := [(0, true)] }).setF (.mchn 0 0) Reg.MCHN.FRAMES_SPARE_LEFT 0 : State).frameListed (0 : Nat) && p.st ≠ PageSt.lost then ((Tests.chS 2 { MemSt.reset with toRetire := [(0, true)] }).setF (.mchn 0 0) Reg.MCHN.FRAMES_SPARE_LEFT 0 : State).abandonMove pr else ((Tests.chS 2 { MemSt.reset with toRetire := [(0, true)] }).setF (.mchn 0 0) Reg.MCHN.FRAMES_SPARE_LEFT 0 : State) | none => ((Tests.chS 2 { MemSt.reset with toRetire := [(0, true)] }).setF (.mchn 0 0) Reg.MCHN.FRAMES_SPARE_LEFT 0 : State)) : State).setF (chanUnit (frameChan (0 : Nat))) Reg.MCHN.STATE_STATE 3).setF (chanUnit (frameChan (0 : Nat))) Reg.MCHN.STATE_CAUSE 1).setOwn (chanUnit (frameChan (0 : Nat))) 1).raise (chanUnit (frameChan (0 : Nat))) Evt.MCHN.STATE_CHANGE).frameCounts : State) = ((((((match ((Tests.chS 2 { MemSt.reset with toRetire := [(0, true)] }).setF (.mchn 0 0) Reg.MCHN.FRAMES_SPARE_LEFT 0 : State).pageOfFrame (0 : Nat) with | some (pr, p) => if ((Tests.chS 2 { MemSt.reset with toRetire := [(0, true)] }).setF (.mchn 0 0) Reg.MCHN.FRAMES_SPARE_LEFT 0 : State).frameListed (0 : Nat) && p.st ≠ PageSt.lost then ((Tests.chS 2 { MemSt.reset with toRetire := [(0, true)] }).setF (.mchn 0 0) Reg.MCHN.FRAMES_SPARE_LEFT 0 : State).abandonMove pr else ((Tests.chS 2 { MemSt.reset with toRetire := [(0, true)] }).setF (.mchn 0 0) Reg.MCHN.FRAMES_SPARE_LEFT 0 : State) | none => ((Tests.chS 2 { MemSt.reset with toRetire := [(0, true)] }).setF (.mchn 0 0) Reg.MCHN.FRAMES_SPARE_LEFT 0 : State)) : State).setF (chanUnit (frameChan (0 : Nat))) Reg.MCHN.STATE_STATE 3).setF (chanUnit (frameChan (0 : Nat))) Reg.MCHN.STATE_CAUSE 1).setOwn
      (chanUnit (frameChan (0 : Nat))) 1).raise (chanUnit (frameChan (0 : Nat))) Evt.MCHN.STATE_CHANGE).frameCounts) := by decide +kernel

theorem test_meets_SpillVictimIsTheColdestLocalPage :
    ({ Tests.up with mm := { Tests.up.mm with pages := [(3, { Page.free with st := .loc }), (9, { Page.free with st := .loc })] } } : State).mm.pages.Rising := by decide +kernel

/-! ## Operands that no happening has are refused; those that one has are taken -/

theorem test_wf_access : Instr.wf (.registerWrite 131072 0 4 0) = false ∧ Instr.wf (.registerWrite 0 4096 4 0) = false ∧
    Instr.wf (.registerWrite 0 2 4 0) = false ∧ Instr.wf (.rcRegisterRead 0 0 8 0) = false ∧
    Instr.wf (.loRegisterRead 131071 4092 4) = true := by decide +kernel

theorem test_wf_tile : Instr.wf (.tileFailure 0 0 5 none []) = false ∧ Instr.wf (.tileFailure 0 0 4 (some 1) []) = true ∧
    Instr.wf (.lsRowRetest 0 0 19520 true []) = false ∧ Instr.wf (.lsRowRetest 0 0 19519 true []) = true ∧
    Instr.wf (.mopIssue 0 0 0 (2 ^ 32) [] []) = false ∧ Instr.wf (.mopIssue 0 0 0 0 [(19520, true)] []) = false ∧
    Instr.wf (.windowOpen 0 0 0 65536) = false ∧ Instr.wf (.taskTake 0 0 [] [(2 ^ 41, .uncorrectable)]) = false := by decide +kernel

theorem test_wf_slots_and_pools : Instr.wf (.slotArm 0 8192 0) = false ∧ Instr.wf (.slotArm 0 8191 0) = true ∧
    Instr.wf (.slotRecordContrib 0 0 [1]) = false ∧ Instr.wf (.slotRecordContrib 0 0 [1, 2, 3, 4]) = true ∧ Instr.wf (.poolDoorbell 0 131072) = false ∧
    Instr.wf (.poolDoorbell 0 131071) = true := by decide +kernel

theorem test_wf_pages : Instr.wf (.movePassDone false 1048576 []) = false ∧ Instr.wf (.movePassDone true 1048576 []) = true ∧
    Instr.wf (.movePassDone true (2 ^ 40) []) = false := by decide +kernel

theorem test_wf_fabric : Instr.wf (.helloReceive 0 ⟨256, 0, false⟩ Tests.hello false) = false ∧
    Instr.wf (.helloReceive 0 ⟨0, 0, false⟩ { Tests.hello with port := 16 } false) = false ∧
    Instr.wf (.helloReceive 0 ⟨0, 0, false⟩ Tests.hello true) = true ∧ Instr.wf (.dataFlit 0 [] [0]) = false ∧
    Instr.wf (.linkFlitTimer 0 ⟨[], 1, 2, [0, 0, 0, 0, 0, 0, 0, 0], false, [], [], [], []⟩) = false ∧
    Instr.wf (.guestRsp 0 (Tests.pk 1 []) 1048576) = false ∧
    Instr.wf (.guestRsp 0 { Tests.pk 1 [] with vc := 5 } 0) = false ∧ Instr.wf (.guestRsp 0 (Tests.pk 1 []) 0) = true := by
  decide +kernel

theorem test_wf_sync : Instr.wf (.masterMsg 0 ⟨0, 0, false⟩ { Tests.master with depth := 64 }) = false ∧
    Instr.wf (.masterMsg 0 ⟨0, 0, false⟩ Tests.master) = true ∧
    Instr.wf (.pace 0 ⟨0, 0, false⟩ { Tests.paceM with mhz := 4096 }) = false ∧
    Instr.wf (.partialMsg 0 ⟨0, 0, false⟩ { Tests.part with round := 16 }) = false ∧
    Instr.wf (.partialMsg 0 ⟨0, 0, false⟩ Tests.part) = true ∧
    Instr.wf (.syncContrib 0 0 0 0 [1, 2, 3]) = false ∧ Instr.wf (.stagedWrite .hctl 2 0) = false := by decide +kernel

theorem test_wf_package : Instr.wf (.sensorSample 0 2048 0 0 0) = false ∧
    Instr.wf (.sensorSample 0 2047 (-2048) 0 0) = true ∧
    Instr.wf (.bar2Read 68719476735 2 []) = false ∧ Instr.wf (.bar2Write 68719476735 [1] []) = true ∧
    Instr.wf (.hostSignal 0 16) = false ∧ Instr.wf (.rackOrder 0 0 0 0 false [1] false) = false ∧
    Instr.wf (.i3cPrivateWrite []) = false ∧ Instr.wf (.settingsGroupWrite true 0 [0] []) = false ∧
    Instr.wf (.xferPiece 0 0 0 0 [1]) = false ∧ Instr.wf (.pcieLinkUp 6 3 true) = false ∧ Instr.wf (.pcieLinkUp 6 4 false) = false ∧
    Instr.wf (.pcieLinkUp 5 4 false) = true := by decide +kernel

/-- The comma block's words 0 and 4 (R263) stand in the first and the last codeword of a group. -/
theorem test_comma_group : commaCwh 0 = 0xA1C93 ∧ commaCwh 7 = 0xC41B7 := by decide +kernel

/-- An ACK flit that asks for a replay from 5: LTYPE 0, ACK_SEQ from bit 6, NAK bit 26 (R264). -/
theorem test_link_ack : (linkBody 0 5 true 0).take 5 = [0x40, 0x01, 0x00, 0x04, 0x00] := by decide +kernel

/-- An idle flit's CHECK is the CRC of 60 zeros as it is; one bit turned over is no kind (R261). -/
theorem test_flit_kind : flitKind (flitOf .idle (List.replicate 60 0)) = some .idle ∧
    flitKind (1 :: (flitOf .idle (List.replicate 60 0)).drop 1) = none := by decide +kernel

theorem test_no_word_spells_a_command : decodeTableWord 32 0 = none := rfl


end Sys2Proof.Machine
end

section
/-! PROOFS. Storage reads back as written: a field among the fields of the register file, a run of bytes among the bytes
of memory, a number among its little-endian bytes (00_scope.md, 19_register_map.md, 06_memory.md, R9). -/

namespace Sys2Proof

/-! ## Bytes of memory -/

@[simp] theorem Map.length_readBytes (m : Map Byte) (a n : Nat) : (m.readBytes a n).length = n := by
  induction n generalizing a with
  | zero => rfl
  | succ n ih => exact congrArg (· + 1) (ih (a + 1))

theorem Map.getElem_readBytes (m : Map Byte) (a n i : Nat) (h : i < (m.readBytes a n).length) :
    (m.readBytes a n)[i] = m.getD (a + i) 0 := by
  induction n generalizing a i with
  | zero => exact absurd h (Nat.not_lt_zero i)
  | succ n ih =>
    cases i with
    | zero => rfl
    | succ i => exact (ih (a + 1) i (Nat.lt_of_succ_lt_succ h)).trans (by rw [Nat.add_right_comm, Nat.add_assoc])

/-- Bytes stored from an address on read back in order. -/
theorem Map.readBytes_writeBytes (m : Map Byte) (a : Nat) (bs : List Byte) :
    (m.writeBytes a bs).readBytes a bs.length = bs := by
  refine List.ext_getElem (Map.length_readBytes _ _ _) fun i _ hi => ?_
  rw [Map.getElem_readBytes, Map.getD_writeBytes_inside bs m a i hi]

/-! ## Little-endian numbers (R9) -/

@[simp] theorem length_leBytes (n v : Nat) : (leBytes n v).length = n := by
  induction n generalizing v with
  | zero => rfl
  | succ n ih => exact congrArg (· + 1) (ih (v / 256))

/-- The bytes of a number are the number again, to their count. -/
theorem leNat_leBytes (n v : Nat) : leNat (leBytes n v) = v % 256 ^ n := by
  induction n generalizing v with
  | zero => exact (Nat.mod_one v).symm
  | succ n ih =>
    calc leNat (leBytes (n + 1) v)
        = v % 256 + 256 * leNat (leBytes n (v / 256)) := by simp [leBytes, leNat]
      _ = v % 256 + 256 * (v / 256 % 256 ^ n) := by rw [ih]
      _ = v % 256 ^ (n + 1) := by rw [pow_succ', Nat.mod_mul]

/-- Byte i of a number is its digit of weight 256^i: the lowest byte comes first. -/
theorem leBytes_getElem? (n v i : Nat) (h : i < n) :
    ((leBytes n v)[i]?).map BitVec.toNat = some (v / 256 ^ i % 256) := by
  induction n generalizing v i with
  | zero => exact absurd h (Nat.not_lt_zero i)
  | succ n ih =>
    cases i with
    | zero => simp [leBytes]
    | succ i =>
      have hdiv : v / 256 / 256 ^ i = v / 256 ^ (i + 1) := by rw [Nat.div_div_eq_div_mul, pow_succ']
      have htail := ih (v / 256) i (Nat.lt_of_succ_lt_succ h)
      rwa [hdiv] at htail

end Sys2Proof

namespace Sys2Proof.Machine

open Sys2Proof

/-! ## Fields -/

/-- Every field that does not overlap the one written reads as before, on whatever page. Of the field written only its
top bit and its word matter: one whose bottom bit lies above its top bit covers no bit at all. -/
theorem State.getF_setF_disjoint (s : State) {u v : UnitId} {f g : Fld} (x : Nat) (hf : f.hi < 32) (hoff : f.off < 4096)
    (hg : g.ok) (h : u ≠ v ∨ f.apart g) : (s.setF u f x).getF v g = s.getF v g := by
  obtain ⟨hglo, hghi, hgoff⟩ := hg
  by_cases hw : u ≠ v ∨ f.off / 4 ≠ g.off / 4
  · unfold State.getF
    rw [State.getW_setF_ne _ _ (regKey_ne hoff hgoff hw)]
  · obtain ⟨hu, hword⟩ := not_or.1 hw
    obtain rfl := not_not.1 hu
    obtain ⟨hsame, hbits⟩ := (h.resolve_left hu).resolve_left hword
    unfold State.getF State.setF
    rw [hsame, State.getW_setW]
    exact getBits_setBits_ne _ _ _ _ _ _ hglo hf hghi hbits

/-- Settles O57: fields by the laws of the register file, bytes by those of sparse memory, numbers by induction on their
bytes. -/
theorem storageReadsBack : Obligations.StorageReadsBack := by
  refine ⟨?_, ?_, ?_, ?_⟩
  · intro s u f v hle hhi hoff
    exact s.getF_setF u f v ⟨hle, hhi, hoff⟩
  · intro s u v f g x hfhi hgle hghi hfoff hgoff h
    exact s.getF_setF_disjoint x hfhi hfoff ⟨hgle, hghi, hgoff⟩ h
  · intro m a bs hwf
    exact ⟨Memory.wf_writeBytes bs hwf a, Map.readBytes_writeBytes m a bs, Map.getD_writeBytes_outside bs m a⟩
  · intro n v
    exact ⟨length_leBytes n v, leNat_leBytes n v, leBytes_getElem? n v⟩

end Sys2Proof.Machine
end

section
/-! PROOFS. Register accesses of the host (00_scope.md, 18_errors_faults.md, R10, R11, R12, R536): what a write of a plain
RW field does, and what a read returns, latches and clears. -/

namespace Sys2Proof.Machine

open Sys2Proof

/-! ## The pages accessed (R553) -/

theorem State.unitAt_pkg (s : State) : s.unitAt 0 = some .pkg := rfl

theorem State.unitAt_place (s : State) : s.unitAt 0x5B = some .place := rfl

theorem State.unitAt_sync (s : State) : s.unitAt 0x59 = some (.sync 0) := rfl

/-! ## Writes (R10) -/

/-- An access that is not an aligned word writes nothing. -/
theorem execRegisterWrite_unaligned (page off width : Nat) (w : Word) (s : State) (h : width ≠ 4 ∨ off % 4 ≠ 0) :
    execRegisterWrite page off width w s = .next s := by
  unfold execRegisterWrite
  rw [if_pos (h.imp_right Or.inl)]

/-- An aligned word written to the page of a unit is that unit's plain write. -/
theorem execRegisterWrite_unit {s : State} {page off : Nat} {u : UnitId} (w : Word) (hoff : off % 4 = 0 ∧ off < 4096)
    (hpage : page < 0x1FFF0) (hu : s.unitAt page = some u) :
    execRegisterWrite page off 4 w s = .next (s.plainWrite u off w) := by
  obtain ⟨haligned, hin⟩ := hoff
  unfold execRegisterWrite
  rw [if_neg (by omega), if_neg (by omega), hu]

/-- The RW fields of a word that a plain write of the unit's own registers sets. -/
def plainFieldsAt (u : UnitId) (off : Nat) : List Fld :=
  u.fields.filter (fun f => f.off = off && f.acc = .rw && !ownRow u f)

/-- A word with one plain field: the field takes the bits written, if the unit takes them. -/
theorem State.plainFields_single (s : State) {u : UnitId} {off : Nat} {f : Fld} (w : Word) (hoff : 0x040 ≤ off)
    (hf : plainFieldsAt u off = [f]) :
    s.plainFields u off w =
      if s.takes u f (getBits w f.hi f.lo) then s.setF u f (getBits w f.hi f.lo) else s := by
  unfold plainFieldsAt at hf
  unfold State.plainFields
  rw [if_neg (Nat.not_lt.2 hoff), hf, List.foldl_cons, List.foldl_nil]

/-- A plain write of a word without staged fields on a page that answers writes its fields, and the unit follows. -/
theorem State.plainWrite_open {s : State} {u : UnitId} {off : Nat} (w : Word) (hopen : s.pageOpen u = true)
    (hhere : syncHere u off = true) (hu : u ≠ .pcie) (hst : stMask u off = 0) (hmask : off ≠ 0x018) :
    s.plainWrite u off w = (s.plainFields u off w).afterWrite s u off := by
  unfold State.plainWrite
  rw [if_neg (by simp [hopen, hhere]), if_neg (fun h => hu h.1), if_neg (not_not.2 hst), if_neg hmask]

/-- A write of POOL_SEL takes effect in every state: every value of the field is in range. -/
theorem execRegisterWrite_poolSel (s : State) (w : Word) :
    execRegisterWrite 0 0x110 4 w s = .next (s.setF .pkg Reg.PKG.POOL_SEL_POOL (getBits w 11 0)) := by
  have hfields : plainFieldsAt .pkg 0x110 = [Reg.PKG.POOL_SEL_POOL] := by decide
  rw [execRegisterWrite_unit w (by decide) (by decide) s.unitAt_pkg,
    State.plainWrite_open w rfl rfl (by decide) (by decide) (by decide),
    State.plainFields_single s w (by decide) hfields]
  rfl

/-- MIG_EPOCH takes 1,000 to 60,000 µs. -/
theorem State.takes_epoch (s : State) (n : Nat) :
    s.takes .place Reg.PLACE.EPOCH_US n = true ↔ 1000 ≤ n ∧ n ≤ 60000 := by
  have h : s.takes .place Reg.PLACE.EPOCH_US n = (decide (1000 ≤ n) && decide (n ≤ 60000)) := rfl
  rw [h, Bool.and_eq_true, decide_eq_true_eq, decide_eq_true_eq]

/-- A write of MIG_EPOCH takes effect in its range, and is ignored outside it (log entry 37). -/
theorem execRegisterWrite_epoch {s : State} (w : Word) (hready : s.ready = true) :
    execRegisterWrite 0x5B 0x040 4 w s = .next (if 1000 ≤ getBits w 15 0 ∧ getBits w 15 0 ≤ 60000
      then s.setF .place Reg.PLACE.EPOCH_US (getBits w 15 0) else s) := by
  have hopen : s.pageOpen .place = true := hready
  have hfields : plainFieldsAt .place 0x040 = [Reg.PLACE.EPOCH_US] := by decide
  rw [execRegisterWrite_unit w (by decide) (by decide) s.unitAt_place,
    State.plainWrite_open w hopen rfl (by decide) (by decide) (by decide),
    State.plainFields_single s w (by decide) hfields]
  simp only [State.takes_epoch]
  rfl

/-! ## Reads (R10, R11) -/

/-- A read of an aligned word of the page of a unit that answers: the word the latch gives, then what the read clears.
DTAB_CRC of a router draws a free value besides; its page is left out. -/
theorem State.readReg_unit {s : State} {page off : Nat} {u : UnitId} (same : Nat) (hoff : off % 4 = 0 ∧ off < 4096)
    (hpage : page < 0x10000) (hu : s.unitAt page = some u) (hopen : s.pageOpen u = true)
    (hrout : ∀ h, u ≠ .rout h) (hhere : syncHere u off = true) :
    s.readReg page off 4 same = ((s.latched u off).1, (s.latched u off).2.rcClear u off same) := by
  obtain ⟨haligned, hin⟩ := hoff
  unfold State.readReg
  rw [if_neg (by omega), if_neg (by omega), hu]
  cases u
  case rout h => exact absurd rfl (hrout h)
  all_goals simp [hopen, hhere]

/-- A word that is formed at the read shows what is formed. -/
theorem State.view_formed {s : State} {u : UnitId} {off v : Nat} (hhere : syncHere u off = true)
    (hv : s.formed u off = some v) : s.view u off = BitVec.ofNat 32 v := by
  unfold State.view
  rw [if_neg (by simp [hhere]), hv]

/-- A read of a LO register returns it and latches its HI half. -/
theorem State.latched_lo {s : State} {u : UnitId} {off : Nat} (h : (loOffs u).contains off = true) :
    s.latched u off =
      (s.view u off, { s with latch := s.latch.put (regKey u (off + 4)) (s.view u (off + 4)) }) := by
  unfold State.latched
  rw [if_pos h]

/-- A read of a HI register whose half is latched returns the latch and empties it. -/
theorem State.latched_hi {s : State} {u : UnitId} {off : Nat} {w : Word} (hlo : (loOffs u).contains off = false)
    (hhi : (4 ≤ off && (loOffs u).contains (off - 4)) = true) (hw : s.latch.find (regKey u off) = some w) :
    s.latched u off = (w, { s with latch := s.latch.del (regKey u off) }) := by
  unfold State.latched
  rw [if_neg (by rw [hlo]; decide), if_pos hhi, hw]

/-- A read of a register of no pair latches nothing. -/
theorem State.latched_plain {s : State} {u : UnitId} {off : Nat} (hlo : (loOffs u).contains off = false)
    (hhi : (4 ≤ off && (loOffs u).contains (off - 4)) = false) : s.latched u off = (s.view u off, s) := by
  unfold State.latched
  rw [if_neg (by rw [hlo]; decide), if_neg (by rw [hhi]; decide)]

/-! ## What a read clears (R12, R536) -/

/-- The read-clears fields of a word, EVT_CNT of the header aside. -/
def clearedFieldsAt (u : UnitId) (off : Nat) : List Fld := u.fields.filter (fun f => f.off = off && f.acc = .rc)

/-- A read of a word without read-clears fields clears nothing. -/
theorem State.rcClear_none (s : State) {u : UnitId} {off : Nat} (same : Nat) (hoff : off ≠ 0x038)
    (hlevel : levelAt u off = none) (hrc : clearedFieldsAt u off = []) : s.rcClear u off same = s := by
  unfold clearedFieldsAt at hrc
  unfold State.rcClear
  simp only [if_neg hoff, hlevel, hrc, List.foldl_nil]

/-- A read of PKG's EVT_CNT at an own event clears the count; the occurrences of the cycle of the read raise the bit and
are counted. -/
theorem State.rcClear_pkgEvtCnt {s t : State} {b same : Nat} (hb : s.getF .pkg Reg.EVT_CNT_SEL_BIT = b)
    (hown : UnitId.pkg.ownBit b = true)
    (ht : t = { s with evtCnt := s.evtCnt.putD (evtKey .pkg b) (min (same - 1) 0xFFFF) 0 }) :
    s.rcClear .pkg 0x038 same = if same = 0 then t else (t.raise .pkg b).pkgSummary (s.unmasked .pkg) := by
  have hraises : UnitId.pkg.raises b = true := hown
  have hlevel : levelAt .pkg 0x038 = none := by decide
  have hrc : clearedFieldsAt .pkg 0x038 = [] := by decide
  unfold clearedFieldsAt at hrc
  subst ht
  unfold State.rcClear
  simp only [hb, hown, hraises, hlevel, hrc, List.foldl_nil, Bool.not_true, Bool.false_eq_true, if_true, if_false]

/-- A read of PKG's EVT_CNT at an own event shows its count. -/
theorem State.view_pkgEvtCnt {s : State} {b : Nat} (hb : s.getF .pkg Reg.EVT_CNT_SEL_BIT = b)
    (hown : UnitId.pkg.ownBit b = true) :
    s.view .pkg 0x038 = BitVec.ofNat 32 (s.evtCnt.getD (evtKey .pkg b) 0) := by
  refine State.view_formed rfl ?_
  unfold State.formed
  simp [hb, hown]

/-! ## Reads of DROVE and of EVT_CNT -/

/-- A host read sends out the word its access returns, and leaves the state that access leaves. -/
theorem execRcRegisterRead_of_readReg {s t : State} {page off width same : Nat} {w : Word}
    (h : s.readReg page off width same = (w, t)) :
    execRcRegisterRead page off width same s = .next (t.emit (.regRead page off w)) := by
  unfold execRcRegisterRead
  rw [h]

/-- A read of a LO register is a read with nothing to count in its cycle. -/
theorem execLoRegisterRead_eq_rc (page off width : Nat) (s : State) :
    execLoRegisterRead page off width s = execRcRegisterRead page off width 0 s := rfl

/-- A read of DROVE_LO returns the low half of the drove count and latches the high half. -/
theorem State.readReg_droveLo {s : State} (hready : s.ready = true) :
    s.readReg 0x59 0x04C 4 0 = (BitVec.ofNat 32 s.drove,
      { s with latch := s.latch.put (regKey (.sync 0) 0x050) (BitVec.ofNat 32 (s.drove / 2 ^ 32)) }) := by
  rw [State.readReg_unit 0 (by decide) (by decide) s.unitAt_sync hready (fun _ => by simp) rfl,
    State.latched_lo (by decide), State.rcClear_none _ 0 (by decide) (by decide) (by decide),
    State.view_formed rfl (show s.formed (.sync 0) 0x04C = some s.drove from rfl),
    State.view_formed rfl (show s.formed (.sync 0) (0x04C + 4) = some (s.drove / 2 ^ 32) from rfl)]

/-- The next read of DROVE_HI returns what was latched. -/
theorem State.readReg_droveHi {s : State} {w : Word} (hready : s.ready = true)
    (hw : s.latch.find (regKey (.sync 0) 0x050) = some w) :
    s.readReg 0x59 0x050 4 0 = (w, { s with latch := s.latch.del (regKey (.sync 0) 0x050) }) := by
  rw [State.readReg_unit 0 (by decide) (by decide) s.unitAt_sync hready (fun _ => by simp) rfl,
    State.latched_hi (by decide) (by decide) hw, State.rcClear_none _ 0 (by decide) (by decide) (by decide)]

/-- A read of PKG's EVT_CNT at an own event returns the count and clears it. -/
theorem State.readReg_pkgEvtCnt {s : State} {b : Nat} (same : Nat) (hb : s.getF .pkg Reg.EVT_CNT_SEL_BIT = b)
    (hown : UnitId.pkg.ownBit b = true) :
    s.readReg 0 0x038 4 same = (BitVec.ofNat 32 (s.evtCnt.getD (evtKey .pkg b) 0), s.rcClear .pkg 0x038 same) := by
  rw [State.readReg_unit same (by decide) (by decide) s.unitAt_pkg rfl (fun _ => by simp) rfl,
    State.latched_plain (by decide) (by decide), State.view_pkgEvtCnt hb hown]

/-- Settles O1, access by access. -/
theorem registerAccessCompletes : Obligations.RegisterAccessCompletes := by
  refine ⟨?_, ?_, ?_, ?_, ?_, ?_⟩
  · intro s page off width w h
    exact execRegisterWrite_unaligned page off width w s h
  · intro s w
    exact execRegisterWrite_poolSel s w
  · intro s w hready
    exact execRegisterWrite_epoch w hready
  · intro s hready
    exact (execLoRegisterRead_eq_rc _ _ _ s).trans (execRcRegisterRead_of_readReg (State.readReg_droveLo hready))
  · intro s w hready hw
    exact (execLoRegisterRead_eq_rc _ _ _ s).trans (execRcRegisterRead_of_readReg (State.readReg_droveHi hready hw))
  · intro s t b same hb hrange ht
    have hown : UnitId.pkg.ownBit b = true := by simpa [UnitId.ownBit] using hrange
    rw [← State.rcClear_pkgEvtCnt hb hown ht]
    exact execRcRegisterRead_of_readReg (State.readReg_pkgEvtCnt same hb hown)

end Sys2Proof.Machine
end

section
/-! PROOFS. Event bits and their summaries, the driver's fence, the loss of an on-package link (18_errors_faults.md,
01_architecture_overview.md, R20, R21, R535, R536, R537, R543, R546, R547, R548). -/

namespace Sys2Proof.Machine

open Sys2Proof

/-! ## Fields -/

/-- A field holds no more than its width. -/
theorem getBits_lt (w : Word) (hi lo : Nat) : getBits w hi lo < 2 ^ (hi + 1 - lo) := by
  have hmask : getBits w hi lo ≤ 2 ^ (hi + 1 - lo) - 1 := by
    unfold getBits
    rw [BitVec.toNat_and, BitVec.toNat_ofNat]
    exact Nat.and_le_right.trans (Nat.mod_le _ _)
  have hpos := Nat.two_pow_pos (hi + 1 - lo)
  omega

theorem State.getF_lt (s : State) (u : UnitId) (f : Fld) : s.getF u f < 2 ^ (f.hi + 1 - f.lo) := getBits_lt _ _ _

/-- A field beside both halves of a register pair reads as before. -/
theorem State.getF_setPair_disjoint (s : State) {u v : UnitId} {lo hi g : Fld} (x : Nat) (hlo : lo.hi < 32 ∧ lo.off < 4096)
    (hhi : hi.hi < 32 ∧ hi.off < 4096) (hg : g.ok) (h : u ≠ v ∨ (lo.apart g ∧ hi.apart g)) :
    (s.setPair u lo hi x).getF v g = s.getF v g := by
  unfold State.setPair
  rw [State.getF_setF_disjoint _ _ hhi.1 hhi.2 hg (h.imp_right And.right),
    State.getF_setF_disjoint _ _ hlo.1 hlo.2 hg (h.imp_right And.left)]

theorem startState_ok : Reg.PKG.START_STATE.ok := ⟨by decide, by decide, by decide⟩

theorem fenceFenced_ok : Reg.PKG.FENCE_FENCED.ok := ⟨by decide, by decide, by decide⟩

theorem dieLinksUp_ok : Reg.PKG.DIE_LINKS_UP.ok := ⟨by decide, by decide, by decide⟩

theorem fcastMode_ok : Reg.HCTL.FCAST_MODE.ok := ⟨by decide, by decide, by decide⟩

/-! ## Sync objects -/

@[simp] theorem State.raisePkg_objs (s : State) (b : Nat) : (s.raisePkg b).objs = s.objs := by
  obtain ⟨h, o, e⟩ := s.raisePkg_only b
  rw [e]; rfl

@[simp] theorem State.setOwn_objs (s : State) (u : UnitId) (v : Nat) : (s.setOwn u v).objs = s.objs := by
  unfold State.setOwn State.alertHealth
  split <;> rfl

theorem State.fenceObjs_of_no_objs {s : State} (h : s.objs = []) : s.fenceObjs = s := by
  unfold State.fenceObjs
  rw [h]; rfl

/-! ## Event bits (R535, R536, R537) -/

/-- Only the summary of PKG raises a vector. -/
theorem State.afterSummary_of_ne_pkg (s : State) {u : UnitId} (was : Bool) (hu : u ≠ .pkg) : s.afterSummary u was = s :=
  if_neg hu

/-- EVT_PEND keeps its word when EVT_MASK is written. -/
theorem State.getW_pend_setW_mask (s : State) (u : UnitId) (w : Word) : (s.setW u 0x018 w).getW u 0x014 = s.getW u 0x014 :=
  s.getW_setW_ne w (regKey_ne (by decide) (by decide) (Or.inr (by decide)))

theorem execEvtPendClear_open {s : State} {u : UnitId} (w raised : Word) (hopen : s.pageOpen u = true) (hu : u ≠ .pkg) :
    execEvtPendClear u w raised s =
      .next ((s.setW u 0x014 (s.getW u 0x014 &&& ~~~(w &&& BitVec.ofNat 32 u.ownMask))).raiseMask u raised) := by
  unfold execEvtPendClear
  rw [if_neg (by simp [hopen]), State.afterSummary_of_ne_pkg _ _ hu]

/-- A mask that uncovers no pending bit is written, and the summary above stays. -/
theorem execEvtMaskWrite_open {s : State} {u : UnitId} {w : Word} (hopen : s.pageOpen u = true) (hu : u ≠ .pkg)
    (hpend : s.getW u 0x014 &&& s.getW u 0x018 &&& ~~~w = 0) : execEvtMaskWrite u w s = .next (s.setW u 0x018 w) := by
  unfold execEvtMaskWrite
  simp only [State.afterSummary_of_ne_pkg _ _ hu, State.getW_pend_setW_mask]
  rw [if_neg (by simp [hopen]), if_neg (not_not.2 hpend)]

theorem execEvtForce_open {s : State} {u : UnitId} (w : Word) (hopen : s.pageOpen u = true) (hu : u ≠ .pkg) :
    execEvtForce u w s = .next (s.raiseMask u w) := by
  unfold execEvtForce
  rw [if_neg (by simp [hopen]), State.afterSummary_of_ne_pkg _ _ hu]

/-! ## Summaries (R20, R21) -/

/-- A port has no children: its worst condition is its own. -/
theorem State.worstHealth_port (s : State) (p : Fin 16) : s.worstHealth (.port p) = s.getF (.port p) Reg.HEALTH_OWN := rfl

/-- The summary of a port reaches the header of its hub: its HEALTH, its bit, the hub's HEALTH. -/
theorem State.propagate_port {s a b : State} {p : Fin 16} {hub : UnitId} (hparent : (UnitId.port p).parent = some hub)
    (ha : a = s.setF (.port p) Reg.HEALTH_HEALTH (s.getF (.port p) Reg.HEALTH_OWN))
    (hb : b = a.setW hub 0x014 (setBits (a.getW hub 0x014) (p % 8) (p % 8) (if a.unmasked (.port p) then 1 else 0))) :
    s.propagate (.port p) = b.setF hub Reg.HEALTH_HEALTH (b.worstHealth hub) := by
  have hchild : s.isChild (.port p) = true := rfl
  have hpos : a.childPos (.port p) = p % 8 := rfl
  have hpkg : hub ≠ .pkg := by
    intro e
    simp [UnitId.parent, e] at hparent
  unfold State.propagate
  rw [if_neg (by simp [hchild]), hparent]
  simp only [State.worstHealth_port, ← ha, hpos, ← hb, if_neg hpkg]

/-! ## The package's own condition (R540) -/

/-- A fenced package is in condition FENCED, unless its start has failed. -/
theorem State.pkgOwn_of_fenced {s : State} (h : s.fenced = true) :
    s.pkgOwn = if s.getF .pkg Reg.PKG.START_STATE = 6 then 3 else 2 := by
  unfold State.pkgOwn
  rw [if_pos h]

/-- A package neither failed nor fenced is degraded once a link of its dies is out. -/
theorem State.pkgOwn_of_link_out {s : State} (hstart : s.getF .pkg Reg.PKG.START_STATE ≠ 6) (hfence : s.fenced = false)
    (hup : s.getF .pkg Reg.PKG.DIE_LINKS_UP ≠ 0x1FF) : s.pkgOwn = 1 := by
  unfold State.pkgOwn
  rw [if_neg hstart, if_neg (by simp [hfence]), if_neg hup]

/-! ## The fence (R546, R547, R548) -/

/-- Cause and time of a fence are latched and the package is fenced. -/
def State.latchFence (s : State) (cause : Nat) : State :=
  ((s.setF .pkg Reg.PKG.FENCE_CAUSE cause).setPair .pkg Reg.PKG.FENCE_TIME_LO Reg.PKG.FENCE_TIME_HI s.drove).setF .pkg
    Reg.PKG.FENCE_FENCED 1

theorem State.latchFence_objs (s : State) (cause : Nat) : (s.latchFence cause).objs = s.objs := rfl

theorem State.fenced_latchFence (s : State) (cause : Nat) : (s.latchFence cause).fenced = true := by
  unfold State.fenced State.isSet State.latchFence
  rw [State.getF_setF _ _ _ _ fenceFenced_ok]
  rfl

/-- The latches of a fence are in the words of FENCE and FENCE_TIME; fields elsewhere read as before. -/
theorem State.getF_latchFence (s : State) (cause : Nat) {v : UnitId} {g : Fld} (hg : g.ok)
    (h : UnitId.pkg ≠ v ∨ (g.off / 4 ≠ 0x070 / 4 ∧ g.off / 4 ≠ 0x078 / 4 ∧ g.off / 4 ≠ 0x07C / 4)) :
    (s.latchFence cause).getF v g = s.getF v g := by
  unfold State.latchFence
  rw [State.getF_setF_disjoint _ _ (by decide) (by decide) hg (h.imp_right fun hw => Or.inl hw.1.symm),
    State.getF_setPair_disjoint _ _ ⟨by decide, by decide⟩ ⟨by decide, by decide⟩ hg
      (h.imp_right fun hw => ⟨Or.inl hw.2.1.symm, Or.inl hw.2.2.symm⟩),
    State.getF_setF_disjoint _ _ (by decide) (by decide) hg (h.imp_right fun hw => Or.inl hw.1.symm)]

/-- A package that is fenced stays as it is. -/
theorem State.doFence_of_fenced {s : State} (cause : Nat) (h : s.fenced = true) : s.doFence cause = s := by
  unfold State.doFence
  rw [if_pos (by simp [h])]

/-- A package that may be fenced latches, takes its condition and raises FENCED; then its objects and its forecast
follow. -/
theorem State.doFence_of_not_fenced {s : State} (cause : Nat) (hfence : s.fenced = false) (hreset : s.mg.resetLow = false) :
    s.doFence cause =
      (((s.latchFence cause).setOwn .pkg (s.latchFence cause).pkgOwn).raisePkg Evt.PKG.FENCED).fenceObjs.setFcast 0 := by
  unfold State.doFence
  rw [if_neg (by simp [hfence, hreset])]
  rfl

/-- The forecast mode asked for is the one in force: nothing changes. -/
theorem State.setFcast_of_mode {s : State} {v : Nat} (h : s.getF .hctl Reg.HCTL.FCAST_MODE = v) : s.setFcast v = s := if_pos h

/-- Setting a condition of PKG and raising an event of it leaves the forecast mode. -/
theorem State.fcastMode_setOwn_raisePkg (s : State) (v b : Nat) :
    ((s.setOwn .pkg v).raisePkg b).getF .hctl Reg.HCTL.FCAST_MODE = s.getF .hctl Reg.HCTL.FCAST_MODE := by
  rw [State.getF_raisePkg _ _ _ _ (by decide) (Or.inl (by decide)),
    State.getF_setOwn _ _ _ _ _ fcastMode_ok ⟨Or.inl (by decide), Or.inr (Or.inr (Or.inl (by decide)))⟩]

/-- With no sync object and the forecast in MODEL, fencing is the latches, the condition and the event. -/
theorem State.doFence_quiet {s : State} (cause : Nat) (hfence : s.fenced = false) (hreset : s.mg.resetLow = false)
    (hobjs : s.objs = []) (hmode : s.getF .hctl Reg.HCTL.FCAST_MODE = 0) :
    s.doFence cause = ((s.latchFence cause).setOwn .pkg
      (if s.getF .pkg Reg.PKG.START_STATE = 6 then 3 else 2)).raisePkg Evt.PKG.FENCED := by
  have hstart : (s.latchFence cause).getF .pkg Reg.PKG.START_STATE = s.getF .pkg Reg.PKG.START_STATE :=
    s.getF_latchFence cause startState_ok (Or.inr (by decide))
  have hfcast : (s.latchFence cause).getF .hctl Reg.HCTL.FCAST_MODE = 0 :=
    (s.getF_latchFence cause fcastMode_ok (Or.inl (by decide))).trans hmode
  rw [State.doFence_of_not_fenced cause hfence hreset, State.pkgOwn_of_fenced (s.fenced_latchFence cause), hstart,
    State.fenceObjs_of_no_objs (by simp [State.latchFence_objs, hobjs]),
    State.setFcast_of_mode ((State.fcastMode_setOwn_raisePkg _ _ _).trans hfcast)]

/-! ## On-package links (R543) -/

/-- The replays of a link within the last second, with those that occur now. -/
def State.replayLog (s : State) (l : Fin 9) (replays : Nat) : List Nat :=
  ((s.mg.dieLog.getD l.val []).filter (fun at_ => decide (s.elapsed ≤ at_ + 1000000000))) ++
    List.replicate (min replays 1001) s.elapsed

/-- Replays on a link are counted and logged. -/
def State.countReplays (s : State) (l : Fin 9) (replays : Nat) : State :=
  { s.bumpBy .pkg Reg.PKG.DIE_LINK_RETRY_COUNT replays with
    mg := { s.mg with dieLog := s.mg.dieLog.putD l.val (s.replayLog l replays) [] } }

/-- Counting replays leaves every field beside RETRY_COUNT. -/
theorem State.getF_countReplays (s : State) (l : Fin 9) (replays : Nat) {g : Fld} (hg : g.ok)
    (h : Reg.PKG.DIE_LINK_RETRY_COUNT.apart g) : (s.countReplays l replays).getF .pkg g = s.getF .pkg g :=
  s.getF_setF_disjoint _ (by decide) (by decide) hg (Or.inr h)

/-- A link goes out of use: its bit clears, the condition of the package follows, DIE_LINK is raised, and a die or hub left
unconnected fences the package. -/
def State.loseLink (s : State) (l : Fin 9) : State :=
  let up := s.getF .pkg Reg.PKG.DIE_LINKS_UP
  let s := s.setF .pkg Reg.PKG.DIE_LINKS_UP (up - 2 ^ l.val)
  let s := (s.setOwn .pkg s.pkgOwn).raisePkg Evt.PKG.DIE_LINK
  match dieLinkCause (up - 2 ^ l.val) with
  | 0 => s
  | c => s.doFence c

/-- With every die and hub still connected the loss of a link fences nothing. -/
theorem State.loseLink_connected {s t : State} {l : Fin 9} {up own : Nat} (hup : s.getF .pkg Reg.PKG.DIE_LINKS_UP = up)
    (hcause : dieLinkCause (up - 2 ^ l.val) = 0) (ht : t = s.setF .pkg Reg.PKG.DIE_LINKS_UP (up - 2 ^ l.val))
    (hown : t.pkgOwn = own) : s.loseLink l = (t.setOwn .pkg own).raisePkg Evt.PKG.DIE_LINK := by
  unfold State.loseLink
  simp only [hup, hcause, ← ht, hown]

/-- Replays are counted; a link in use with a transfer stuck, or with more than 1,000 replays within 1 s, is lost. -/
theorem execDieLinkOut_eq (l : Fin 9) (replays : Nat) (stuck : Bool) (s : State) :
    execDieLinkOut l replays stuck s =
      .next (if (s.countReplays l replays).getF .pkg Reg.PKG.DIE_LINKS_UP / 2 ^ l.val % 2 = 0 ||
          !(stuck || decide (1000 < (s.replayLog l replays).length)) then s.countReplays l replays
        else (s.countReplays l replays).loseLink l) := rfl

/-- DIE_LINKS.UP reads as before once replays are counted. -/
theorem State.dieLinksUp_countReplays (s : State) (l : Fin 9) (replays : Nat) :
    (s.countReplays l replays).getF .pkg Reg.PKG.DIE_LINKS_UP = s.getF .pkg Reg.PKG.DIE_LINKS_UP :=
  s.getF_countReplays l replays dieLinksUp_ok (Or.inl (by decide))

/-- A link that is out already, or stays within its replays, is only counted. -/
theorem execDieLinkOut_counted {s : State} {l : Fin 9} {replays : Nat} {stuck : Bool}
    (h : s.getF .pkg Reg.PKG.DIE_LINKS_UP / 2 ^ l.val % 2 = 0 ∨ (stuck = false ∧ (s.replayLog l replays).length ≤ 1000)) :
    execDieLinkOut l replays stuck s = .next (s.countReplays l replays) := by
  rw [execDieLinkOut_eq, State.dieLinksUp_countReplays, if_pos]
  rcases h with hout | ⟨hstuck, hlog⟩
  · simp [hout]
  · simp [hstuck, hlog]

/-- A link in use that fails is lost. -/
theorem execDieLinkOut_lost {s : State} {l : Fin 9} {replays : Nat} {stuck : Bool}
    (huse : s.getF .pkg Reg.PKG.DIE_LINKS_UP / 2 ^ l.val % 2 = 1)
    (hfail : stuck = true ∨ 1000 < (s.replayLog l replays).length) :
    execDieLinkOut l replays stuck s = .next ((s.countReplays l replays).loseLink l) := by
  rw [execDieLinkOut_eq, State.dieLinksUp_countReplays, if_neg]
  rcases hfail with hstuck | hlog
  · simp [huse, hstuck]
  · simp [huse, hlog]

/-- A link taken from those in use leaves fewer than nine. -/
theorem links_without_one_ne_all {up l : Nat} (hlt : up < 2 ^ 9) (huse : up / 2 ^ l % 2 = 1) :
    (up - 2 ^ l) % 2 ^ 9 ≠ 0x1FF := by
  have hpos := Nat.two_pow_pos l
  have hle : 2 ^ l ≤ up := by
    by_contra hlt'
    rw [Nat.div_eq_of_lt (Nat.lt_of_not_le hlt')] at huse
    exact absurd huse (by decide)
  omega

/-- The package without one of its links is degraded, unless it is failed or fenced. -/
theorem State.pkgOwn_link_lost {s : State} {l : Fin 9} {replays up : Nat} (hfence : s.fenced = false)
    (hstart : s.getF .pkg Reg.PKG.START_STATE ≠ 6) (hup : up = s.getF .pkg Reg.PKG.DIE_LINKS_UP)
    (huse : up / 2 ^ l.val % 2 = 1) :
    ((s.countReplays l replays).setF .pkg Reg.PKG.DIE_LINKS_UP (up - 2 ^ l.val)).pkgOwn = 1 := by
  have hkeep : ∀ {g : Fld}, g.ok → Reg.PKG.DIE_LINK_RETRY_COUNT.apart g → Reg.PKG.DIE_LINKS_UP.apart g →
      ((s.countReplays l replays).setF .pkg Reg.PKG.DIE_LINKS_UP (up - 2 ^ l.val)).getF .pkg g = s.getF .pkg g :=
    fun hg hcount hlinks => (State.getF_setF_disjoint _ _ (by decide) (by decide) hg (Or.inr hlinks)).trans
      (s.getF_countReplays l replays hg hcount)
  refine State.pkgOwn_of_link_out ?_ ?_ ?_
  · rwa [hkeep startState_ok (Or.inl (by decide)) (Or.inl (by decide))]
  · unfold State.fenced State.isSet at hfence ⊢
    rwa [hkeep fenceFenced_ok (Or.inl (by decide)) (Or.inl (by decide))]
  · rw [State.getF_setF _ _ _ _ dieLinksUp_ok]
    exact links_without_one_ne_all (hup ▸ s.getF_lt .pkg Reg.PKG.DIE_LINKS_UP) huse

/-- Settles O2, command by command. -/
theorem eventsAndFences : Obligations.EventsAndFences := by
  refine ⟨?_, ?_, ?_, ?_, ?_, ?_, ?_, ?_⟩
  · intro s u w raised hopen hu
    exact execEvtPendClear_open w raised hopen hu
  · intro s u w hopen hu hpend
    exact execEvtMaskWrite_open hopen hu hpend
  · intro s u w hopen hu
    exact execEvtForce_open w hopen hu
  · intro s p a b ha hb
    exact congrArg Host.Outcome.next (State.propagate_port rfl ha hb)
  · intro s hfence hreset hobjs hmode
    exact congrArg Host.Outcome.next (State.doFence_quiet 1 hfence hreset hobjs hmode)
  · intro s hfence
    exact congrArg Host.Outcome.next (State.doFence_of_fenced 1 hfence)
  · intro s t l replays up stuck log hup hlog ht hstays
    subst hup hlog ht
    exact execDieLinkOut_counted hstays
  · intro s t l replays up stuck log hfence hstart hup hlog ht huse hfail hcause
    subst hlog ht
    have hlost := State.loseLink_connected ((State.dieLinksUp_countReplays s l replays).trans hup.symm) hcause rfl
      (State.pkgOwn_link_lost hfence hstart hup huse)
    exact (execDieLinkOut_lost (hup ▸ huse) hfail).trans (congrArg Host.Outcome.next hlost)

end Sys2Proof.Machine
end

section
/-! PROOFS. Every command of the table answers a next state and keeps what no command may undo: the two facts of `exec` from
which the rules of a whole step follow (95_what_each_step_holds.md). -/

namespace Sys2Proof.Machine

open Sys2Proof

/-- No command ends in a fault or a refusal: each arm of the dispatch answers a next state. -/
theorem exec_next (c : Instr) (s : State) : ∃ t, exec c s = .next t := by
  cases c <;> exact ⟨_, rfl⟩

/-- Every command keeps what no command may undo, by the lemma of its meaning. -/
theorem exec_kept (c : Instr) (s : State) : KeptAns s (exec c s) := by
  cases c with
  | registerWrite => exact execRegisterWrite_kept (.refl s) _ _ _ _
  | loRegisterRead => exact execLoRegisterRead_kept (.refl s) _ _ _
  | rcRegisterRead => exact execRcRegisterRead_kept (.refl s) _ _ _ _
  | summaryPropagate => exact execSummaryPropagate_kept (.refl s) _
  | dieLinkOut => exact execDieLinkOut_kept (.refl s) _ _ _
  | fenceCmd => exact execFenceCmd_kept (.refl s)
  | evtPendClear => exact execEvtPendClear_kept (.refl s) _ _ _
  | evtMaskWrite => exact execEvtMaskWrite_kept (.refl s) _ _
  | evtForce => exact execEvtForce_kept (.refl s) _ _
  | watermarkWrite => exact execWatermarkWrite_kept (.refl s) _ _ _
  | tileFailure => exact execTileFailure_kept (.refl s) _ _ _ _ _
  | tileWatchdogExpire => exact execTileWatchdogExpire_kept (.refl s) _ _ _
  | tileControllerParity => exact execTileControllerParity_kept (.refl s) _ _ _
  | tileLost => exact execTileLost_kept (.refl s) _
  | spareSelftestDone => exact execSpareSelftestDone_kept (.refl s) _ _
  | tileSpared => exact execTileSpared_kept (.refl s) _
  | failureFuseBlow => exact execFailureFuseBlow_kept (.refl s) _ _
  | lsRowRetest => exact execLsRowRetest_kept (.refl s) _ _ _ _ _
  | kernelLoadDone => exact execKernelLoadDone_kept (.refl s) _ _ _ _
  | mopIssue => exact execMopIssue_kept (.refl s) _ _ _ _ _ _
  | mopIssueResume => exact execMopIssueResume_kept (.refl s) _ _ _ _ _
  | mopComplete => exact execMopComplete_kept (.refl s) _ _ _ _ _ _
  | vectorInstruction => exact execVectorInstruction_kept (.refl s) _ _ _ _ _ _
  | dmCopy => exact execDmCopy_kept (.refl s) _ _ _ _ _ _
  | dmGather => exact execDmGather_kept (.refl s) _ _ _ _ _ _
  | dmScatter => exact execDmScatter_kept (.refl s) _ _ _ _ _ _
  | dmFill => exact execDmFill_kept (.refl s) _ _ _ _ _ _
  | dmIssueResume => exact execDmIssueResume_kept (.refl s) _ _ _ _ _
  | dmComplete => exact execDmComplete_kept (.refl s) _ _ _ _ _ _
  | windowOpen => exact execWindowOpen_kept (.refl s) _ _ _ _
  | windowClose => exact execWindowClose_kept (.refl s) _ _ _
  | tileDrain => exact execTileDrain_kept (.refl s) _ _ _
  | tileRetire => exact execTileRetire_kept (.refl s) _ _ _
  | slotArm => exact execSlotArm_kept (.refl s) _ _ _
  | slotRelease => exact execSlotRelease_kept (.refl s) _ _ _
  | slotAnchorContrib => exact execSlotAnchorContrib_kept (.refl s) _ _ _
  | slotRecordContrib => exact execSlotRecordContrib_kept (.refl s) _ _ _
  | poolDoorbell => exact execPoolDoorbell_kept (.refl s) _ _
  | poolCqHeadWrite => exact execPoolCqHeadWrite_kept (.refl s) _ _ _
  | poolEnable => exact execPoolEnable_kept (.refl s)
  | poolDisable => exact execPoolDisable_kept (.refl s)
  | poolFlush => exact execPoolFlush_kept (.refl s) _
  | poolReload => exact execPoolReload_kept (.refl s) _
  | poolClear => exact execPoolClear_kept (.refl s)
  | searchTierOpen => exact execSearchTierOpen_kept (.refl s) _ _ _
  | fullHold => exact execFullHold_kept (.refl s) _
  | taskTake => exact execTaskTake_kept (.refl s) _ _ _ _
  | taskStart => exact execTaskStart_kept (.refl s) _ _ _
  | taskExit => exact execTaskExit_kept (.refl s) _ _ _ _ _
  | taskAbort => exact execTaskAbort_kept (.refl s) _ _ _ _ _ _
  | taskTimeout => exact execTaskTimeout_kept (.refl s) _ _ _ _ _
  | partnerEnd => exact execPartnerEnd_kept (.refl s) _ _ _ _
  | kernelPost => exact execKernelPost_kept (.refl s) _ _ _ _ _
  | channelTrainDone => exact execChannelTrainDone_kept (.refl s) _ _ _ _ _
  | memoryFillDone => exact execMemoryFillDone_kept (.refl s) _ _
  | scrubLine => exact execScrubLine_kept (.refl s) _ _ _ _ _
  | channelTrack => exact execChannelTrack_kept (.refl s) _ _ _ _
  | channelRetrain => exact execChannelRetrain_kept (.refl s) _ _
  | channelRetrainDone => exact execChannelRetrainDone_kept (.refl s) _ _ _
  | mchnRetrain => exact execMchnRetrain_kept (.refl s) _ _
  | mchnRetire => exact execMchnRetire_kept (.refl s) _ _
  | channelDrainDone => exact execChannelDrainDone_kept (.refl s) _ _
  | stackTempRead => exact execStackTempRead_kept (.refl s) _ _
  | placeAlloc => exact execPlaceAlloc_kept (.refl s) _ _ _
  | placeFree => exact execPlaceFree_kept (.refl s) _ _ _
  | placeSetPin => exact execPlaceSetPin_kept (.refl s) _ _ _
  | placeQuery => exact execPlaceQuery_kept (.refl s) _ _ _
  | placeFreeGuests => exact execPlaceFreeGuests_kept (.refl s) _ _ _
  | placeReqReserved => exact execPlaceReqReserved_kept (.refl s) _ _ _ _
  | placeReqDone => exact execPlaceReqDone_kept (.refl s)
  | placeEpochEnd => exact execPlaceEpochEnd_kept (.refl s)
  | heatCountFlush => exact execHeatCountFlush_kept (.refl s) _ _
  | movePassDone => exact execMovePassDone_kept (.refl s) _ _ _
  | pageMoveDone => exact execPageMoveDone_kept (.refl s) _ _ _
  | frameZeroDone => exact execFrameZeroDone_kept (.refl s) _
  | drainResume => exact execDrainResume_kept (.refl s) _ _
  | lostScan => exact execLostScan_kept (.refl s) _
  | guest => exact execGuest_kept (.refl s) _ _
  | guestRsp => exact execGuestRsp_kept (.refl s) _ _ _
  | helloSend => exact execHelloSend_kept (.refl s) _
  | helloReceive => exact execHelloReceive_kept (.refl s) _ _ _ _
  | helloSilence => exact execHelloSilence_kept (.refl s) _
  | dtabLoad => exact execDtabLoad_kept (.refl s) _
  | dtabEdit => exact execDtabEdit_kept (.refl s) _
  | dtabLoadDone => exact execDtabLoadDone_kept (.refl s) _ _
  | dtabBankCopyDone => exact execDtabBankCopyDone_kept (.refl s) _ _
  | linkEnableWrite => exact execLinkEnableWrite_kept (.refl s) _ _
  | linkRetrain => exact execLinkRetrain_kept (.refl s) _
  | linkTestSelect => exact execLinkTestSelect_kept (.refl s) _ _
  | prbsConfigWrite => exact execPrbsConfigWrite_kept (.refl s) _ _ _ _ _
  | trainingFrame => exact execTrainingFrame_kept (.refl s) _ _ _ _ _
  | linkSignalDetected => exact execLinkSignalDetected_kept (.refl s) _
  | linkTrained => exact execLinkTrained_kept (.refl s) _
  | linkCdrLocked => exact execLinkCdrLocked_kept (.refl s) _
  | linkAligned => exact execLinkAligned_kept (.refl s) _
  | capFlit => exact execCapFlit_kept (.refl s) _ _ _ _ _ _
  | linkUp => exact execLinkUp_kept (.refl s) _
  | linkStepTimeout => exact execLinkStepTimeout_kept (.refl s) _
  | dataFlit => exact execDataFlit_kept (.refl s) _ _ _
  | uncorrectableCodeword => exact execUncorrectableCodeword_kept (.refl s) _ _
  | linkAck => exact execLinkAck_kept (.refl s) _ _
  | linkNak => exact execLinkNak_kept (.refl s) _ _
  | creditFlit => exact execCreditFlit_kept (.refl s) _ _ _ _ _ _ _
  | linkRejectFlit => exact execLinkRejectFlit_kept (.refl s) _ _
  | idleEnterFlit => exact execIdleEnterFlit_kept (.refl s) _ _
  | loopReqFlit => exact execLoopReqFlit_kept (.refl s) _ _
  | loopExitFlit => exact execLoopExitFlit_kept (.refl s) _ _
  | farLoopTimeout => exact execFarLoopTimeout_kept (.refl s) _
  | nakResendTimer => exact execNakResendTimer_kept (.refl s) _
  | linkFlitTimer => exact execLinkFlitTimer_kept (.refl s) _ _
  | idleEntry => exact execIdleEntry_kept (.refl s) _
  | idleExit => exact execIdleExit_kept (.refl s) _
  | laneSignalLoss => exact execLaneSignalLoss_kept (.refl s) _
  | signalReturn => exact execSignalReturn_kept (.refl s) _
  | losHoldExpire => exact execLosHoldExpire_kept (.refl s) _
  | cdrLockLoss => exact execCdrLockLoss_kept (.refl s) _
  | laserTrip => exact execLaserTrip_kept (.refl s) _ _
  | laserSwitchCmd => exact execLaserSwitchCmd_kept (.refl s) _
  | standbyClaimCheck => exact execStandbyClaimCheck_kept (.refl s) _ _
  | laserSwitchComplete => exact execLaserSwitchComplete_kept (.refl s) _
  | laserCalDone => exact execLaserCalDone_kept (.refl s) _ _ _ _ _
  | packetCommit => exact execPacketCommit_kept (.refl s) _
  | penReset => exact execPenReset_kept (.refl s) _ _
  | packetRoute => exact execPacketRoute_kept (.refl s) _ _ _
  | escWaitExpire => exact execEscWaitExpire_kept (.refl s) _
  | penAgeDrop => exact execPenAgeDrop_kept (.refl s) _
  | transitWindowTick => exact execTransitWindowTick_kept (.refl s)
  | write => exact execWrite_kept (.refl s) _ _ _
  | haloWrite => exact execHaloWrite_kept (.refl s) _ _
  | readReq => exact execReadReq_kept (.refl s) _ _ _
  | atomic => exact execAtomic_kept (.refl s) _ _ _
  | mcWrite => exact execMcWrite_kept (.refl s) _ _ _
  | syncFrag => exact execSyncFrag_kept (.refl s) _ _
  | cktWrite => exact execCktWrite_kept (.refl s) _ _ _
  | cktHalo => exact execCktHalo_kept (.refl s) _ _
  | readRsp => exact execReadRsp_kept (.refl s) _ _ _
  | atomicRsp => exact execAtomicRsp_kept (.refl s) _ _
  | ack => exact execAck_kept (.refl s) _ _
  | reject => exact execReject_kept (.refl s) _ _
  | mcAck => exact execMcAck_kept (.refl s) _ _
  | cktAck => exact execCktAck_kept (.refl s) _ _
  | flowRto => exact execFlowRto_kept (.refl s) _ _
  | flowAckTimer => exact execFlowAckTimer_kept (.refl s) _ _
  | flowEnable => exact execFlowEnable_kept (.refl s) _ _
  | flowDisable => exact execFlowDisable_kept (.refl s) _
  | cktRto => exact execCktRto_kept (.refl s) _
  | mcRoundRto => exact execMcRoundRto_kept (.refl s) _ _
  | kernelAtomic => exact execKernelAtomic_kept (.refl s) _ _ _ _ _ _ _ _
  | syncAck => exact execSyncAck_kept (.refl s) _ _
  | syncResendTimer => exact execSyncResendTimer_kept (.refl s) _
  | syncAckTimer => exact execSyncAckTimer_kept (.refl s) _
  | timeReq => exact execTimeReq_kept (.refl s) _ _ _
  | timeRsp => exact execTimeRsp_kept (.refl s) _ _ _ _ _
  | timeExchangeTick => exact execTimeExchangeTick_kept (.refl s) _
  | masterMsg => exact execMasterMsg_kept (.refl s) _ _ _
  | masterAnnounce => exact execMasterAnnounce_kept (.refl s)
  | masterStale => exact execMasterStale_kept (.refl s) _
  | partialMsg => exact execPartialMsg_kept (.refl s) _ _ _
  | roundTimeout => exact execRoundTimeout_kept (.refl s) _
  | partialDetour => exact execPartialDetour_kept (.refl s) _ _
  | pace => exact execPace_kept (.refl s) _ _ _
  | pacePost => exact execPacePost_kept (.refl s)
  | paceRepost => exact execPaceRepost_kept (.refl s)
  | paceEntryExpire => exact execPaceEntryExpire_kept (.refl s) _
  | objArm => exact execObjArm_kept (.refl s) _ _
  | objDisarm => exact execObjDisarm_kept (.refl s) _
  | objSignal => exact execObjSignal_kept (.refl s) _ _ _
  | objSet => exact execObjSet_kept (.refl s) _ _
  | objClear => exact execObjClear_kept (.refl s) _ _
  | syncContrib => exact execSyncContrib_kept (.refl s) _ _ _ _ _
  | syncWait => exact execSyncWait_kept (.refl s) _ _ _ _
  | syncRead => exact execSyncRead_kept (.refl s) _ _ _ _
  | stagedWrite => exact execStagedWrite_kept (.refl s) _ _ _
  | stageCheckDone => exact execStageCheckDone_kept (.refl s) _ _
  | commitNow => exact execCommitNow_kept (.refl s) _ _
  | commitAt => exact execCommitAt_kept (.refl s) _
  | commitCancel => exact execCommitCancel_kept (.refl s) _
  | commitAtReached => exact execCommitAtReached_kept (.refl s) _ _
  | powerSample => exact execPowerSample_kept (.refl s) _ _
  | shareRecompute => exact execShareRecompute_kept (.refl s) _ _ _ _ _
  | phaseLearn => exact execPhaseLearn_kept (.refl s) _ _ _ _
  | phaseForget => exact execPhaseForget_kept (.refl s)
  | droopDetect => exact execDroopDetect_kept (.refl s) _ _ _
  | droopStretchEnd => exact execDroopStretchEnd_kept (.refl s) _ _ _
  | droopCeilRise => exact execDroopCeilRise_kept (.refl s) _ _
  | freqSlewStep => exact execFreqSlewStep_kept (.refl s) _ _
  | freqDeferEnd => exact execFreqDeferEnd_kept (.refl s) _ _
  | railRampStep => exact execRailRampStep_kept (.refl s) _ _
  | railFallHoldExpire => exact execRailFallHoldExpire_kept (.refl s) _ _
  | sensorSample => exact execSensorSample_kept (.refl s) _ _ _ _ _
  | capThermAdjust => exact execCapThermAdjust_kept (.refl s) _
  | thermalTrip => exact execThermalTrip_kept (.refl s) _
  | coolant => exact execCoolant_kept (.refl s) _ _ _ _ _ _ _
  | coolantMissing => exact execCoolantMissing_kept (.refl s)
  | flowCheck => exact execFlowCheck_kept (.refl s)
  | thermalCycleSample => exact execThermalCycleSample_kept (.refl s) _
  | remarginVisit => exact execRemarginVisit_kept (.refl s) _ _
  | remarginVisitDone => exact execRemarginVisitDone_kept (.refl s) _ _ _ _ _
  | rmarginLate => exact execRmarginLate_kept (.refl s) _ _
  | marginBump => exact execMarginBump_kept (.refl s) _ _ _
  | assayStart => exact execAssayStart_kept (.refl s)
  | hallmarkIntervalEnd => exact execHallmarkIntervalEnd_kept (.refl s) _ _ _ _ _
  | hallmarkCopy => exact execHallmarkCopy_kept (.refl s) _
  | assayLinkLost => exact execAssayLinkLost_kept (.refl s)
  | droveTimeToAssay => exact execDroveTimeToAssay_kept (.refl s)
  | bar2Read => exact execBar2Read_kept (.refl s) _ _ _
  | bar2Write => exact execBar2Write_kept (.refl s) _ _ _
  | poisonedTlp => exact execPoisonedTlp_kept (.refl s) _ _ _ _
  | sqDoorbell => exact execSqDoorbell_kept (.refl s) _ _
  | hostCqHeadWrite => exact execHostCqHeadWrite_kept (.refl s) _ _
  | queueEnable => exact execQueueEnable_kept (.refl s)
  | queueDisable => exact execQueueDisable_kept (.refl s)
  | queueClean => exact execQueueClean_kept (.refl s)
  | commandFetch => exact execCommandFetch_kept (.refl s) _ _ _
  | nop => exact execNop_kept (.refl s) _ _
  | copyH2d => exact execCopyH2d_kept (.refl s) _ _ _ _ _
  | copyD2h => exact execCopyD2h_kept (.refl s) _ _ _ _ _
  | hostFill => exact execHostFill_kept (.refl s) _ _ _ _
  | postTasks => exact execPostTasks_kept (.refl s) _ _ _ _
  | hostSignal => exact execHostSignal_kept (.refl s) _ _
  | waitSync => exact execWaitSync_kept (.refl s) _ _
  | waitSyncRelease => exact execWaitSyncRelease_kept (.refl s) _ _
  | waitSyncTimeout => exact execWaitSyncTimeout_kept (.refl s) _ _
  | hostCommandDone => exact execHostCommandDone_kept (.refl s) _ _
  | msixHoldoffEnd => exact execMsixHoldoffEnd_kept (.refl s) _
  | flr => exact execFlr_kept (.refl s)
  | hotReset => exact execHotReset_kept (.refl s)
  | perstN => exact execPerstN_kept (.refl s)
  | pcieLinkDown => exact execPcieLinkDown_kept (.refl s)
  | pcieLinkUp => exact execPcieLinkUp_kept (.refl s) _ _ _
  | functionReady => exact execFunctionReady_kept (.refl s)
  | bootGo => exact execBootGo_kept (.refl s)
  | bootVerifyDone => exact execBootVerifyDone_kept (.refl s)
  | powerOn => exact execPowerOn_kept (.refl s)
  | inputPowerLoss => exact execInputPowerLoss_kept (.refl s)
  | pkgResetAssert => exact execPkgResetAssert_kept (.refl s)
  | pkgResetRelease => exact execPkgResetRelease_kept (.refl s) _ _
  | softReset => exact execSoftReset_kept (.refl s) _ _ _
  | pkgIsolate => exact execPkgIsolate_kept (.refl s)
  | hctlWatchdog => exact execHctlWatchdog_kept (.refl s) _
  | hctlRestartDone => exact execHctlRestartDone_kept (.refl s)
  | startReady => exact execStartReady_kept (.refl s)
  | startFailed => exact execStartFailed_kept (.refl s) _
  | mgmtLinkChange => exact execMgmtLinkChange_kept (.refl s) _
  | mgmtFrameDiscard => exact execMgmtFrameDiscard_kept (.refl s) _ _
  | rackOrder => exact execRackOrder_kept (.refl s) _ _ _ _ _ _ _
  | heartbeat => exact execHeartbeat_kept (.refl s)
  | heartbeatLost => exact execHeartbeatLost_kept (.refl s) _
  | hallmarkReq => exact execHallmarkReq_kept (.refl s) _ _ _ _
  | statusBroadcast => exact execStatusBroadcast_kept (.refl s)
  | bootReqSend => exact execBootReqSend_kept (.refl s)
  | i3cPrivateWrite => exact execI3cPrivateWrite_kept (.refl s) _
  | i3cPrivateRead => exact execI3cPrivateRead_kept (.refl s) _
  | i3cEntdaa => exact execI3cEntdaa_kept (.refl s) _
  | settingsGroupWrite => exact execSettingsGroupWrite_kept (.refl s) _ _ _ _
  | storeForget => exact execStoreForget_kept (.refl s)
  | xferStart => exact execXferStart_kept (.refl s) _ _ _ _
  | xferPiece => exact execXferPiece_kept (.refl s) _ _ _ _ _
  | xferQuery _ setId => exact execXferQuery_kept (.refl s) _ setId
  | xferAbort => exact execXferAbort_kept (.refl s) _ _
  | chunkWriteDone => exact execChunkWriteDone_kept (.refl s) _ _
  | slotVerifyDone => exact execSlotVerifyDone_kept (.refl s) _
  | fwPrepare => exact execFwPrepare_kept (.refl s)
  | fwPrepareDone => exact execFwPrepareDone_kept (.refl s) _
  | fwDiscard => exact execFwDiscard_kept (.refl s)
  | fwMark => exact execFwMark_kept (.refl s)
  | fwSeal => exact execFwSeal_kept (.refl s)
  | fwImageConfirm => exact execFwImageConfirm_kept (.refl s) _ _
  | fwHandoverTimeout => exact execFwHandoverTimeout_kept (.refl s) _ _
  | fwSelectionWritten => exact execFwSelectionWritten_kept (.refl s)
  | tileTmcSwitch => exact execTileTmcSwitch_kept (.refl s) _ _
  | fwTileWaitExpire => exact execFwTileWaitExpire_kept (.refl s)
  | recoverySetWritten => exact execRecoverySetWritten_kept (.refl s) _ _
  | flitCrcError => exact execFlitCrcError_kept (.refl s) _ _ _ _
  | masterEligible => exact execMasterEligible_kept (.refl s)
  | internalRailsGood => exact execInternalRailsGood_kept (.refl s) _ _
  | auxRailGood => exact execAuxRailGood_kept (.refl s)
  | xtabReadDone => exact execXtabReadDone_kept (.refl s) _ _
  | configSpaceWrite => exact execConfigSpaceWrite_kept (.refl s) _ _ _ _
  | bootSlotWriteDone => exact execBootSlotWriteDone_kept (.refl s)
  | stateMemoryUe => exact execStateMemoryUe_kept (.refl s)
  | fcastModeChange => exact execFcastModeChange_kept (.refl s)
  | imagesLoaded => exact execImagesLoaded_kept (.refl s)
  | settingsRestored => exact execSettingsRestored_kept (.refl s)
  | farLoopLosTimeout => exact execFarLoopLosTimeout_kept (.refl s) _
  | prbsLock => exact execPrbsLock_kept (.refl s) _ _ _ _
  | prbsLockLoss => exact execPrbsLockLoss_kept (.refl s) _ _ _ _

/-- Settles O56: the command answers a next state, and the lemma of its meaning says what that state keeps. -/
theorem everyCommandCompletes : Obligations.EveryCommandCompletes := by
  intro c s
  obtain ⟨t, hnext⟩ := exec_next c s
  obtain ⟨hpending, hmem, hfuses, hout, hfree⟩ := exec_kept c s t hnext
  exact ⟨t, hnext, hpending, hfuses, hout, hfree, hmem⟩

end Sys2Proof.Machine
end

section
/-! PROOFS. What a tile holds after it is written, by whichever operation: the laws the meanings of chapter 3 are read
with (03_compute_tiles.md, R68, R107, R155). -/

namespace Sys2Proof.Machine

open Sys2Proof

/-! ## The tile written -/

@[simp] theorem State.tile_setTile (s : State) (d : Fin 4) (t : Fin 104) (x : Tile) : (s.setTile d t x).tile d t = x := by
  show (s.tiles.putD (tileKey d t) x .init).getD (tileKey d t) .init = x
  rw [Map.getD_putD, if_pos rfl]

@[simp] theorem State.tile_setF (s : State) (d : Fin 4) (t : Fin 104) (u : UnitId) (f : Fld) (v : Nat) :
    (s.setF u f v).tile d t = s.tile d t := rfl

@[simp] theorem State.tile_drained (s : State) (d e : Fin 4) (t u : Fin 104) :
    (s.drained d t).tile e u = s.tile e u := rfl

/-- Putting a task in a slot changes the slot and nothing else of the tile. -/
theorem State.tile_setSlot (s : State) (d : Fin 4) (t : Fin 104) (k : Fin 2) (v : Option Task) :
    (s.setSlot d t k v).tile d t =
      if k = 0 then { s.tile d t with slot0 := v } else { s.tile d t with slot1 := v } := by
  unfold State.setSlot
  simp only [State.tile_drained, State.tile_setF, State.tile_setTile]

theorem State.dms_setSlot (s : State) (d : Fin 4) (t : Fin 104) (k j : Fin 2) (v : Option Task) :
    ((s.setSlot d t k v).tile d t).dms j = (s.tile d t).dms j := by
  rw [State.tile_setSlot]
  split <;> rfl

/-! ## Ends that reach no task -/

/-- Rows found bad: none. -/
@[simp] theorem State.findRows_nil (s : State) (d : Fin 4) (t : Fin 104) (own : Option (Fin 2)) :
    s.findRows d t own [] = s := rfl

theorem State.endTask_of_empty {s : State} {d : Fin 4} {t : Fin 104} {k : Fin 2} (status cause : Nat)
    (h : (s.tile d t).slot k = none) : s.endTask d t k status cause = s := by
  unfold State.endTask
  rw [h]

theorem State.opFault_ok (s : State) (d : Fin 4) (t : Fin 104) (k : Fin 2) : s.opFault d t k 0 = s := rfl

/-- An operation's status other than OK ends its task with FAULT (R106). -/
theorem State.opFault_of_ne {s : State} {d : Fin 4} {t : Fin 104} {k : Fin 2} {st : Nat} (h : st ≠ 0) :
    s.opFault d t k st = s.endTask d t k 1 st := if_neg h

/-- On a tile without tasks a failure ends none. -/
theorem State.endBoth_of_empty {s : State} {d : Fin 4} {t : Fin 104} (st : Fin 2 → Nat × Nat)
    (h0 : (s.tile d t).slot0 = none) (h1 : (s.tile d t).slot1 = none) : s.endBoth d t st = s := by
  unfold State.endBoth
  simp only [h0]
  rw [State.endTask_of_empty (k := 0) _ _ h0, State.endTask_of_empty (k := 1) _ _ h1]

end Sys2Proof.Machine
end

section
/-! PROOFS. Failures of tiles, spares and lost slots (03_compute_tiles.md, R76, R109, R111, R112, R113, R116,
18_errors_faults.md, R545). -/

namespace Sys2Proof.Machine

open Sys2Proof

/-! ## A tile fails (R111) -/

theorem State.tileState_of_active {s : State} {d : Fin 4} {t : Fin 104} (h : s.tileActive d t = true) :
    s.tileState d t = 0 := by
  unfold State.tileActive at h
  simp only [Bool.and_eq_true, beq_iff_eq] at h
  exact h.1

/-- With no microcode switch on, no tile is counted. -/
theorem State.tmcCount_of_off {s : State} (h : s.mg.fw.tmcOn = false) : s.tmcCount = s := by
  unfold State.tmcCount
  rw [if_pos (by simp [h])]

/-- The island of a tile stops, its windows close, and its cluster shows the children that are left. -/
def State.shutTile (s : State) (d : Fin 4) (t : Fin 104) : State :=
  (((List.range 4).foldl (fun s n => s.setF (.tile d t) (Reg.TILE.WIN_CTL_STATE n) 0)
    (s.setTile d t { s.tile d t with stopped := true })).refreshCluster d (clusterOf t)).ceilsOf d

theorem State.shutTile_mg (s : State) (d : Fin 4) (t : Fin 104) : (s.shutTile d t).mg = s.mg :=
  State.ceilsOf_mg _ d

/-- An active tile without tasks fails: its failure is in line, its slot not valid, and the tile out. -/
theorem State.failTile_of_empty {s a : State} {d : Fin 4} {t : Fin 104} {cause n : Nat} (own : Option (Fin 2 × Nat))
    (hactive : s.tileActive d t = true) (h0 : (s.tile d t).slot0 = none) (h1 : (s.tile d t).slot1 = none)
    (hn : n = s.slotOf d t) (hslot : n < 100) (htmc : s.mg.fw.tmcOn = false)
    (ha : a = ((s.setFails d (s.fails d ++ [⟨t, n, cause, none, false⟩])).setF (.cdie d) (Reg.CDIE.SLOT_VALID n) 0).tileFailed d t) :
    s.failTile d t cause own = a.shutTile d t := by
  have hoff : (a.shutTile d t).mg.fw.tmcOn = false := by
    rw [State.shutTile_mg, ha]
    exact htmc
  unfold State.failTile
  rw [if_neg (by simp [hactive])]
  simp only [State.endBoth_of_empty _ h0 h1, ← hn, if_pos hslot, ← ha]
  exact State.tmcCount_of_off hoff

/-- A failure detected with one of the causes 0 to 4 on an active tile. -/
theorem execTileFailure_active {s : State} {d : Fin 4} {t : Fin 104} {cause : Nat} {lines : LineErrs} (own : Option (Fin 2))
    (hcause : cause ≤ 4) (hactive : (s.findErrs lines).tileActive d t = true) :
    execTileFailure d t cause own lines s =
      .next ((s.findErrs lines).failTile d t cause (own.bind fun k => (ownStatus cause).map fun st => (k, st))) := by
  unfold execTileFailure
  simp only [if_neg (Nat.not_lt.2 hcause), State.tileState_of_active hactive, Nat.zero_ne_one, if_false]

theorem execTileRetire_open {s : State} {d : Fin 4} {t : Fin 104} (lines : LineErrs)
    (hopen : s.pageOpen (.tile d t) = true) :
    execTileRetire d t lines s = .next ((s.findErrs lines).failTile d t 5 none) := by
  unfold execTileRetire
  rw [if_pos hopen]

/-! ## Spares (R111, R116) -/

/-- A spare that fails its self-test at start-up is found bad. -/
theorem execTileFailure_spare {s : State} {d : Fin 4} {t : Fin 104} {lines : LineErrs} (own : Option (Fin 2))
    (hspare : (s.findErrs lines).tileState d t = 1) :
    execTileFailure d t 0 own lines s = .next ((s.findErrs lines).spareBad d t) := by
  unfold execTileFailure
  simp only [if_neg (Nat.not_lt_zero 4 : ¬ 4 < 0), hspare, if_true]

/-- The self-test of a spare that has not begun to load ends. -/
theorem execSpareSelftestDone_tested {s : State} {d : Fin 4} {f : Failing} {rest : List Failing} {sp : Nat} (pass : Bool)
    (hfails : s.fails d = f :: rest) (hspare : s.nextSpare d = some sp) (hloading : f.loading = false) :
    execSpareSelftestDone d pass s = .next (if pass then s.setFails d ({ f with spare := some sp, loading := true } :: rest)
      else s.spareBad d sp) := by
  unfold execSpareSelftestDone
  simp only [hfails, hspare, hloading, Bool.false_eq_true, if_false]

/-- The spare that has loaded, still a spare, takes the slot. -/
theorem execTileSpared_loaded {s : State} {d : Fin 4} {sp : Fin 104} {f : Failing} {rest : List Failing}
    (hfails : s.fails d = f :: rest) (hloading : f.loading = true) (hspare : f.spare = some sp.val)
    (hstate : s.tileState d sp = 1) : execTileSpared d s = .next (s.spareIn d f rest sp) := by
  unfold execTileSpared
  simp only [hfails, hloading, hspare, hstate, sp.isLt, dif_pos, if_true]

/-- The registers show the spare in its slot: it is counted, its slot is its own and valid. -/
def State.showSpare (s : State) (d : Fin 4) (sp : Fin 104) (slot : Nat) : State :=
  (((s.setF (.cdie d) Reg.CDIE.SPARES_LEFT (s.getF (.cdie d) Reg.CDIE.SPARES_LEFT - 1)).setF (.tile d sp)
    Reg.TILE.IDENT_SLOT slot).setF (.cdie d) (Reg.CDIE.SLOT_PHYS slot) sp).setF (.cdie d) (Reg.CDIE.SLOT_VALID slot) 1

/-- The spare takes a slot of the die; with both sensors of its hot spot sound it is not degraded. -/
theorem State.spareIn_sound {s a : State} {d : Fin 4} {f : Failing} {rest : List Failing} {sp : Fin 104}
    (hslot : f.slot < 100) (hA : (s.pw.spots.getD (104 * d + sp) .init).failA = false)
    (hB : (s.pw.spots.getD (104 * d + sp) .init).failB = false)
    (ha : a = ((s.setFails d rest).setTileState d sp 0).setTile d sp { Tile.init with
      newTmc := s.mg.fw.tmcOn, ceilTherm := (s.tile d sp).ceilTherm, visitDue := (s.tile d sp).visitDue, idleAt := s.elapsed }) :
    s.spareIn d f rest sp = ((((((a.showSpare d sp f.slot).lastRemap d f.tile sp f.slot f.cause).raise (.cdie d)
      Evt.CDIE.TILE_SPARED).refreshCluster d (clusterOf sp)).ceilsOf d).stopFalls s) := by
  unfold State.spareIn
  extract_lets u freed benched x init y joined counted named placed remapped raised spot judged
  have hplaced : placed = a.showSpare d sp f.slot := by
    subst ha
    exact if_pos hslot
  have hspot : spot = s.pw.spots.getD (104 * d + sp) .init := by
    show placed.pw.spots.getD (104 * d + sp) .init = _
    rw [hplaced, ha]
    rfl
  have hsound : ¬ (spot.failA || spot.failB) = true := by
    rw [hspot, hA, hB]
    decide
  have hjudged : judged = raised := if_neg hsound
  rw [hjudged, ← hplaced]

/-! ## Lost slots (R111, R545) -/

theorem execTileLost_noSpare {s : State} {d : Fin 4} {f : Failing} {rest : List Failing} (hfails : s.fails d = f :: rest)
    (hspare : s.nextSpare d = none) : execTileLost d s = .next (s.loseSlot d f rest) := by
  unfold execTileLost
  simp only [hfails, hspare, Option.isNone_none, if_true]

/-- While the die keeps an active tile, the loss of a slot fences nothing. -/
theorem State.loseSlot_unfenced {s a b c : State} {d : Fin 4} {f : Failing} {rest : List Failing} {n : Nat}
    (ha : a = ((s.setFails d rest).lastRemap d f.tile 0x7F f.slot f.cause).raise (.cdie d) Evt.CDIE.TILE_LOST)
    (hb : b = (a.setF (.cdie d) Reg.CDIE.ACTIVE_TILES (a.getF (.cdie d) Reg.CDIE.ACTIVE_TILES - 1)).setOwn (.cdie d) 1)
    (hn : n = ((List.finRange 4).map (fun e => b.getF (.cdie e) Reg.CDIE.ACTIVE_TILES)).sum)
    (hc : c = if n < b.getF .pkg Reg.PKG.RATING_TILES then (b.setF .pkg Reg.PKG.RATING_TILES n).raisePkg Evt.PKG.RATING else b)
    (hleft : c.getF (.cdie d) Reg.CDIE.ACTIVE_TILES ≠ 0) : s.loseSlot d f rest = c := by
  unfold State.loseSlot
  simp only [← ha, ← hb, ← hn, ← hc]
  exact if_neg hleft

/-! ## Failure fuses (R116) -/

/-- The fuse of a failed tile is blown if it is due, and no other. -/
theorem execFailureFuseBlow_due {s : State} {d : Fin 4} {t : Fin 104} (h : s.fuseDue.getD (tileKey d t) false = true) :
    execFailureFuseBlow d t s =
      .next { s with fuses := s.fuses.put (tileKey d t) true, fuseDue := s.fuseDue.del (tileKey d t) } := by
  unfold execFailureFuseBlow
  rw [if_pos h]

theorem execFailureFuseBlow_not_due {s : State} {d : Fin 4} {t : Fin 104}
    (h : s.fuseDue.getD (tileKey d t) false = false) : execFailureFuseBlow d t s = .next s := by
  unfold execFailureFuseBlow
  rw [if_neg (by rw [h]; decide)]

/-- Settles O4, command by command. -/
theorem tileFailuresAndSpares : Obligations.TileFailuresAndSpares := by
  refine ⟨?_, ?_, ?_, ?_, ?_, ?_, ?_, ?_⟩
  · intro s0 s a d t cmd cause n own lines hs hcmd hactive h0 h1 hn hslot htmc ha
    subst hs
    have hfail : ∀ o, Host.Outcome.next ((s0.findErrs lines).failTile d t cause o) =
        (Host.Outcome.next (a.shutTile d t) : Ans) := fun o =>
      congrArg Host.Outcome.next (State.failTile_of_empty o hactive h0 h1 hn hslot htmc ha)
    rcases hcmd with ⟨rfl, hcause⟩ | ⟨rfl, rfl⟩ | ⟨rfl, rfl⟩ | ⟨rfl, rfl, hopen⟩
    · exact (execTileFailure_active own hcause hactive).trans (hfail _)
    · exact hfail none
    · exact hfail none
    · exact (execTileRetire_open lines hopen).trans (hfail none)
  · intro s0 s a d t own lines hs hspare ha
    subst hs ha
    exact execTileFailure_spare own hspare
  · intro s d f rest sp hfails hspare hloading
    exact execSpareSelftestDone_tested true hfails hspare hloading
  · intro s d f rest sp hfails hspare hloading
    exact execSpareSelftestDone_tested false hfails hspare hloading
  · intro s a b d sp f rest hfails hloading hspare hslot hA hB hstate ha hb
    subst hb
    exact (execTileSpared_loaded hfails hloading hspare hstate).trans
      (congrArg Host.Outcome.next (State.spareIn_sound hslot hA hB ha))
  · intro s a b c d f rest n hfails hspare ha hb hn hc hleft
    exact (execTileLost_noSpare hfails hspare).trans
      (congrArg Host.Outcome.next (State.loseSlot_unfenced ha hb hn hc hleft))
  · intro s d t hdue
    exact execFailureFuseBlow_due hdue
  · intro s d t hnot
    exact execFailureFuseBlow_not_due hnot

end Sys2Proof.Machine
end

section
/-! PROOFS. Retests of rows, loads of kernels, halo windows, drain (03_compute_tiles.md, R73, R77, R78, R103, R105, R107,
R115). -/

namespace Sys2Proof.Machine

open Sys2Proof

/-! ## Rows (R73) -/

/-- A bad row of an active tile passes its retest: it is known good, and what it holds is not known. -/
theorem execLsRowRetest_pass {s a b : State} {d : Fin 4} {t : Fin 104} {row : Nat} {v : List Byte} (lines : LineErrs)
    (hactive : s.tileActive d t = true) (hrow : row ∈ (s.tile d t).badRows)
    (ha : a = s.setTile d t { s.tile d t with badRows := (s.tile d t).badRows.erase row }) (hv : a.freeBytes 64 = (v, b)) :
    execLsRowRetest d t row true lines s =
      .next (((b.lsWrite d t (64 * row) v).raise (.tile d t) Evt.TILE.LS_UE).setOwn (.tile d t) 1) := by
  unfold execLsRowRetest
  simp only [hactive, List.contains_iff_mem.2 hrow, ← ha, hv, Bool.not_true, Bool.or_self, Bool.false_eq_true, if_false,
    if_true]

/-! ## Kernels (R77, R78) -/

/-- A kernel loaded stands in the cache before the others, and kernels no task uses make room. -/
def State.keepKernel (s : State) (d : Fin 4) (t : Fin 104) (e : KEntry) : State :=
  let x := s.tile d t
  let l := e :: x.kcache.filter (fun o => o.id ≠ e.id || !o.users.isEmpty)
  s.setTile d t { x with kcache := evict x.kernelUsed l l.length }

/-- The fetch of a starting task's kernel ends as its check says: the kernel stands in the cache, or its task faults. -/
theorem execKernelLoadDone_fetched {s a : State} {d : Fin 4} {t : Fin 104} {k : Fin 2} {w : Task} {e : KEntry} {st : Nat}
    (hslot : (s.tile d t).slot k = some w) (hstart : w.start = none) (hcached : (s.tile d t).cached w = none)
    (hload : s.loadKernel d t w = (a, st, e)) :
    execKernelLoadDone d t k [] s = .next (if st ≠ 0 then a.kernelFault d t k st else a.keepKernel d t e) := by
  unfold execKernelLoadDone
  simp only [hslot, hstart, hcached, State.findErrs_nil, hload, Option.isSome_none, Bool.or_self, Bool.false_eq_true,
    if_false]
  rfl

/-! ## Halo windows (R103) -/

/-- The window counts its bytes from 0 and is OPEN. -/
def State.startWindow (s : State) (d : Fin 4) (t : Fin 104) (n : Fin 4) : State :=
  (s.setF (.tile d t) (Reg.TILE.WIN_RCVD n) 0).setF (.tile d t) (Reg.TILE.WIN_CTL_STATE n) 1

/-- OPEN of a closed window on an active tile whose page answers: the place is judged, and the window opens, at once
FILLED where it expects nothing, or WIN_BAD is raised. -/
theorem execWindowOpen_closed {s a : State} {d : Fin 4} {t : Fin 104} {n : Fin 4} {obj base len expect : Nat}
    (hactive : s.tileActive d t = true) (hopen : s.pageOpen (.tile d t) = true)
    (ha : a = s.setF (.tile d t) (Reg.TILE.WIN_CTL_SYNC_OBJ n) obj)
    (hclosed : a.getF (.tile d t) (Reg.TILE.WIN_CTL_STATE n) = 0) (hbase : a.getF (.tile d t) (Reg.TILE.WIN_BASE n) = base)
    (hlen : a.getF (.tile d t) (Reg.TILE.WIN_LEN n) = len) (hexpect : a.getF (.tile d t) (Reg.TILE.WIN_EXPECT n) = expect) :
    execWindowOpen d t n obj s =
      .next (if base % 64 ≠ 0 ∨ len % 64 ≠ 0 ∨ inData base len = false ∨ len < expect then
          a.raise (.tile d t) Evt.TILE.WIN_BAD
        else (if expect = 0 then (a.startWindow d t n).fillWindow d t n else a.startWindow d t n).showWindows d t) := by
  unfold execWindowOpen
  rw [if_neg (by simp [hactive, hopen])]
  simp only [← ha, hclosed, hbase, hlen, hexpect, Bool.not_eq_true', not_true_eq_false, ne_eq, if_false]
  rfl

/-- CLOSE of a window in any state. -/
theorem execWindowClose_active {s : State} {d : Fin 4} {t : Fin 104} (n : Fin 4) (hactive : s.tileActive d t = true)
    (hopen : s.pageOpen (.tile d t) = true) :
    execWindowClose d t n s = .next ((s.setF (.tile d t) (Reg.TILE.WIN_CTL_STATE n) 0).showWindows d t) := by
  unfold execWindowClose
  rw [if_neg (by simp [hactive, hopen])]

/-! ## Drain (R107, R115) -/

/-- DRAIN takes the bit written, and STATE.DRAINED follows. -/
theorem execTileDrain_active {s : State} {d : Fin 4} {t : Fin 104} (on : Bool) (hactive : s.tileActive d t = true)
    (hopen : s.pageOpen (.tile d t) = true) :
    execTileDrain d t on s = .next ((s.setF (.tile d t) Reg.TILE.CTL_DRAIN on.toNat).drained d t) := by
  unfold execTileDrain
  rw [if_neg (by simp [hactive, hopen])]
  cases on <;> rfl

/-- Settles O5, command by command. -/
theorem retestsKernelLoadsAndWindows : Obligations.RetestsKernelLoadsAndWindows := by
  refine ⟨?_, ?_, ?_, ?_, ?_, ?_, ?_⟩
  · intro s a b d t row v lines hactive hrow ha hv
    exact execLsRowRetest_pass lines hactive hrow ha hv
  · intro s a d t k w e l hslot hstart hcached hload hl
    subst hl
    exact execKernelLoadDone_fetched hslot hstart hcached hload
  · intro s a d t k w e st hslot hstart hcached hload hst
    exact (execKernelLoadDone_fetched hslot hstart hcached hload).trans (congrArg Host.Outcome.next (if_pos hst))
  · intro s a d t n obj base len expect hactive hopen ha hclosed hbase hlen hexpect hplace hne
    obtain ⟨hbase64, hlen64, hin, hle⟩ := hplace
    have hgood : ¬ (base % 64 ≠ 0 ∨ len % 64 ≠ 0 ∨ inData base len = false ∨ len < expect) := by
      simp [hbase64, hlen64, hin, hle]
    exact (execWindowOpen_closed hactive hopen ha hclosed hbase hlen hexpect).trans
      (congrArg Host.Outcome.next ((if_neg hgood).trans (congrArg (State.showWindows · d t) (if_neg hne))))
  · intro s a d t n obj base len expect hactive hopen ha hclosed hbase hlen hexpect hplace
    exact (execWindowOpen_closed hactive hopen ha hclosed hbase hlen hexpect).trans
      (congrArg Host.Outcome.next (if_pos hplace))
  · intro s d t n hactive hopen
    exact execWindowClose_active n hactive hopen
  · intro s d t on hactive hopen
    exact execTileDrain_active on hactive hopen

end Sys2Proof.Machine
end

section
/-! PROOFS. Matrix operations: issue, stall, check and completion (03_compute_tiles.md, R72, R82, R83, R88, R105, R106,
R107). -/

namespace Sys2Proof.Machine

open Sys2Proof

/-! ## A kernel that does not run, or stalls (R82) -/

theorem execMopIssue_runs {s : State} {d : Fin 4} {t : Fin 104} {k : Fin 2} {lines : LineErrs} (addr : Nat)
    (errs : RowErrs) (hruns : (s.findErrs lines).kernelRuns d t k = true) :
    execMopIssue d t k addr errs lines s =
      .next (if 4 ≤ (((s.findErrs lines).tile d t).mops k).length then
          (s.findErrs lines).setTile d t (((s.findErrs lines).tile d t).setStallMop k (some addr))
        else (s.findErrs lines).mopIssueAt d t k addr errs) := by
  unfold execMopIssue
  simp only [hruns, Bool.not_true, Bool.false_eq_true, if_false]

/-- A stalled issue goes on once there is room. -/
theorem execMopIssueResume_room {s : State} {d : Fin 4} {t : Fin 104} {k : Fin 2} {addr : Nat} {lines : LineErrs}
    (errs : RowErrs) (hstall : ((s.findErrs lines).tile d t).stallMop k = some addr)
    (hroom : (((s.findErrs lines).tile d t).mops k).length < 4) :
    execMopIssueResume d t k errs lines s =
      .next (((s.findErrs lines).setTile d t (((s.findErrs lines).tile d t).setStallMop k none)).mopIssueAt d t k addr errs) := by
  unfold execMopIssueResume
  simp only [hstall, if_pos hroom]

/-! ## The check (R72, R83) -/

/-- A MOP that a task may issue, at bytes without a bad row, ends as its check says: it is queued, or leaves its status in
its descriptor and faults the task. -/
theorem State.mopIssueAt_checked {s : State} {d : Fin 4} {t : Fin 104} {k : Fin 2} {addr st : Nat} {x : Tile} {w : Task}
    (hx : s.tile d t = x) (hhome : descHome k addr 64 = true) (hslot : x.slot k = some w) (hrows : x.badIn addr 64 = false)
    (hst : mopCheck (MopD.ofBytes (x.read addr 64)) w k = st) :
    s.mopIssueAt d t k addr [] =
      if st ≠ 0 then (s.lsWrite d t (addr + 0x0E) [BitVec.ofNat 8 st]).opFault d t k st
      else s.setTile d t (x.setMops k (x.mops k ++ [⟨addr, x.read addr 64⟩])) := by
  unfold State.mopIssueAt
  simp only [State.findRows_nil, hx, hhome, hslot, hrows, hst, Bool.not_true, Bool.false_eq_true, if_false]

/-! ## Completion (R88) -/

/-- With no bad row and no residue mismatch nothing stops a MOP: one that ends with OK leaves its results, flags, rounded
terms, cycles and status, and faults no task. -/
theorem State.mopEnd_ok {s : State} {d : Fin 4} {t : Fin 104} {k : Fin 2} {w : Task} {m : Mop} {o : MopD}
    {fa fb fc : FSpec} {mode : RMode} {ls : Map Byte} {fl : FFlags} {wide : Nat} (rest : List Mop)
    (ho : o = MopD.ofBytes m.desc) (ha : o.a = some fa) (hb : o.b = some fb) (hc : o.c = some fc)
    (hmode : o.rmode = some mode) (hrows : badBlock (s.tile d t) o fa fb fc w.blockWidth = none)
    (hrun : mopRun (s.tile d t).ls o fa fb fc mode w.seed w.blockWidth none = (ls, 0, fl, wide)) :
    s.mopEnd d t k w m rest none = (((s.setTile d t { (s.tile d t).setMops k rest with ls := ls }).setSlot d t k
      (some { w with flags := w.flags ||| fl, wide := min (2 ^ 32 - 1) (w.wide + wide) })).addPair (.tile d t)
        Reg.TILE.ME_BUSY_LO Reg.TILE.ME_BUSY_HI (mopCycles o fa fb fc w.blockWidth)).lsWrite d t (m.addr + 0x0E) [0] := by
  have hstop : firstStop none none = none := rfl
  have hcheck : ¬ 0 = St.computeCheck := by decide
  unfold State.mopEnd
  simp only [← ho, ha, hb, hc, hmode, hrows, Option.map_none, ite_self, hstop, hrun, if_true, hcheck, if_false,
    State.opFault_ok]
  rfl

theorem execMopComplete_oldest {s : State} {d : Fin 4} {t : Fin 104} {k : Fin 2} {w : Task} {m : Mop} {rest : List Mop}
    {lines : LineErrs} (residue : Option Nat) (hslot : ((s.findErrs lines).tile d t).slot k = some w)
    (hmops : ((s.findErrs lines).tile d t).mops k = m :: rest) :
    execMopComplete d t k [] residue lines s = .next ((s.findErrs lines).mopEnd d t k w m rest residue) := by
  unfold execMopComplete
  simp only [State.findRows_nil, hslot, hmops]

/-- Settles O6, command by command. -/
theorem matrixOperations : Obligations.MatrixOperations := by
  refine ⟨?_, ?_, ?_, ?_, ?_⟩
  · intro s0 s d t k addr w lines hs hruns hroom hhome hslot hrows hgood
    subst hs
    refine (execMopIssue_runs addr [] hruns).trans (congrArg Host.Outcome.next ?_)
    rw [if_neg (Nat.not_le.2 hroom), State.mopIssueAt_checked rfl hhome hslot hrows hgood, if_neg (not_not.2 rfl)]
  · intro s0 s d t k addr st w lines hs hruns hroom hhome hslot hrows hst hne
    subst hs
    refine (execMopIssue_runs addr [] hruns).trans (congrArg Host.Outcome.next ?_)
    rw [if_neg (Nat.not_le.2 hroom), State.mopIssueAt_checked rfl hhome hslot hrows hst, if_pos hne,
      State.opFault_of_ne hne]
  · intro s0 s d t k addr lines hs hruns hfull
    subst hs
    exact (execMopIssue_runs addr [] hruns).trans (congrArg Host.Outcome.next (if_pos hfull))
  · intro s0 s d t k addr x w lines hs hstall hroom hx hhome hslot hrows hgood
    subst hs
    refine (execMopIssueResume_room [] hstall hroom).trans (congrArg Host.Outcome.next ?_)
    rw [← hx, State.mopIssueAt_checked (State.tile_setTile _ d t x) hhome hslot hrows hgood, if_neg (not_not.2 rfl)]
  · intro s0 s d t k w m rest o fa fb fc mode ls fl wide lines hs hslot hmops ho hform hrows hrun
    subst hs
    obtain ⟨ha, hb, hc, hmode⟩ := hform
    exact (execMopComplete_oldest none hslot hmops).trans
      (congrArg Host.Outcome.next (State.mopEnd_ok rest ho ha hb hc hmode hrows hrun))

end Sys2Proof.Machine
end

section
/-! PROOFS. Vector instructions: loads, stores, operations on registers (03_compute_tiles.md, R72, R93, R94, R105, R106). -/

namespace Sys2Proof.Machine

open Sys2Proof

/-- A running kernel's instruction, with no row newly found bad, executes for the task in the slot. -/
theorem execVectorInstruction_runs {s : State} {d : Fin 4} {t : Fin 104} {k : Fin 2} {w : Task} {lines : LineErrs}
    (op : VOp) (hruns : (s.findErrs lines).kernelRuns d t k = true)
    (hslot : ((s.findErrs lines).tile d t).slot k = some w) :
    execVectorInstruction d t k op [] lines s = .next ((s.findErrs lines).vecIssue d t k w op) := by
  unfold execVectorInstruction
  simp only [hruns, Bool.not_true, Bool.false_eq_true, if_false, State.findRows_nil, hslot]

/-! ## Loads and stores (R72, R106) -/

/-- A register below the slot's count is one the slot owns. -/
theorem not_any_vregCount_le {x : Tile} {k : Fin 2} {r : Nat} (h : r < x.vregCount k) :
    ([r].any fun r => decide (x.vregCount k ≤ r)) = false := by
  simp [h]

/-- A load of bytes the task may read fills the register, unless a bad row is among them; of other bytes it is out of
range. -/
theorem State.vecIssue_load {s : State} {d : Fin 4} {t : Fin 104} {k : Fin 2} {r n : Nat} (w : Task) (addr : Nat)
    (hreg : r < (s.tile d t).vregCount k) (hn : n ≤ 1024) :
    s.vecIssue d t k w (.load r addr n) =
      if mayRead k addr n = false then s.opFault d t k St.outOfRange
      else if (s.tile d t).badIn addr n then s.opFault d t k St.lsUe
      else s.setTile d t { s.tile d t with
        vreg := (s.tile d t).vreg.writeBytes (vregBase k r) ((s.tile d t).read addr n) } := by
  have howned : ((vecRegs (.load r addr n)).any fun r => decide ((s.tile d t).vregCount k ≤ r)) = false := not_any_vregCount_le hreg
  unfold State.vecIssue
  simp only [howned, Nat.min_eq_left hn, Bool.false_eq_true, if_false, Bool.not_eq_true']

/-- A store to bytes the task may write puts the register's bytes there; to other bytes it is out of range. -/
theorem State.vecIssue_store {s : State} {d : Fin 4} {t : Fin 104} {k : Fin 2} {r n : Nat} (w : Task) (addr : Nat)
    (hreg : r < (s.tile d t).vregCount k) (hn : n ≤ 1024) :
    s.vecIssue d t k w (.store r addr n) =
      if w.mayWrite k addr n = false then s.opFault d t k St.outOfRange
      else s.lsWrite d t addr ((s.tile d t).vreg.readBytes (vregBase k r) n) := by
  have howned : ((vecRegs (.store r addr n)).any fun r => decide ((s.tile d t).vregCount k ≤ r)) = false := not_any_vregCount_le hreg
  unfold State.vecIssue
  simp only [howned, Nat.min_eq_left hn, Bool.false_eq_true, if_false, Bool.not_eq_true']

/-! ## Operations on registers (R93, R94) -/

/-- An operation on the slot's own registers ends as its run says: with OK the registers, flags and rounded terms it
gives, with another status the fault of its task. -/
theorem State.vecIssue_op {s : State} {d : Fin 4} {t : Fin 104} {k : Fin 2} {w : Task} {op : VOp} {mode : RMode} {st : Nat}
    {o : VecOut} (howned : ((vecRegs op).any fun r => (s.tile d t).vregCount k ≤ r) = false)
    (hop : ∀ r a n, op ≠ .load r a n ∧ op ≠ .store r a n) (hmode : RMode.ofCode w.rmode = some mode)
    (hrun : vecRun op (s.tile d t).vreg k mode w.seed = (st, o)) :
    s.vecIssue d t k w op = if st = 0 then (s.setTile d t { s.tile d t with vreg := o.regs }).setSlot d t k
        (some { w with flags := w.flags ||| o.flags, wide := min (2 ^ 32 - 1) (w.wide + o.wide) })
      else s.endTask d t k 1 st := by
  unfold State.vecIssue
  rw [if_neg (by rw [howned]; decide)]
  split
  case h_1 r addr n => exact absurd rfl (hop r addr n).1
  case h_2 r addr n => exact absurd rfl (hop r addr n).2
  case h_3 =>
    simp only [hmode, hrun]
    by_cases hst : st = 0
    · rw [if_neg (not_not.2 hst), if_pos hst]
    · rw [if_pos hst, if_neg hst, State.opFault_of_ne hst]

/-- Settles O7, by the three forms of an instruction. -/
theorem vectorInstructions : Obligations.VectorInstructions := by
  refine ⟨?_, ?_, ?_, ?_⟩
  · intro s0 s d t k w r addr n lines hs hruns hslot hreg hn hmay hrows
    subst hs
    refine (execVectorInstruction_runs _ hruns hslot).trans (congrArg Host.Outcome.next ?_)
    rw [State.vecIssue_load w addr hreg hn, if_neg (by rw [hmay]; decide), if_neg (by rw [hrows]; decide)]
    rfl
  · intro s0 s d t k w r addr n lines hs hruns hslot hreg hn hmay
    subst hs
    refine (execVectorInstruction_runs _ hruns hslot).trans (congrArg Host.Outcome.next ?_)
    rw [State.vecIssue_store w addr hreg hn, if_neg (by rw [hmay]; decide)]
  · intro s0 s d t k w r addr n lines hs hruns hslot hreg hn
    subst hs
    refine ⟨fun hmay => ?_, fun hmay => ?_⟩ <;>
      refine (execVectorInstruction_runs _ hruns hslot).trans (congrArg Host.Outcome.next ?_)
    · rw [State.vecIssue_load w addr hreg hn, if_pos hmay, State.opFault_of_ne (by decide)]
    · rw [State.vecIssue_store w addr hreg hn, if_pos hmay, State.opFault_of_ne (by decide)]
  · intro s0 s d t k w op mode st o lines hs hruns hslot howned hop hmode hrun
    subst hs
    exact (execVectorInstruction_runs op hruns hslot).trans
      (congrArg Host.Outcome.next (State.vecIssue_op howned hop hmode hrun))

end Sys2Proof.Machine
end

section
/-! PROOFS. Descriptors of the data mover: issue, immediate ends, stalls, completion (03_compute_tiles.md, R96, R97, R98,
R100, R105, R106). -/

namespace Sys2Proof.Machine

open Sys2Proof

/-! ## The check (R98, R100) -/

/-- With no line and no row newly found bad the descriptor's reads find nothing. -/
@[simp] theorem State.dmFind_nil (s : State) (d : Fin 4) (t : Fin 104) (k : Fin 2) (x : DmD) :
    s.dmFind d t k x [] [] = s := by
  unfold State.dmFind
  simp only [State.findErrs_nil, State.findRows_nil]
  split
  · split <;> rfl
  · rfl

/-- A descriptor joins its slot's queue with the next number. -/
def Tile.queueDm (x : Tile) (k : Fin 2) (addr : Nat) : Tile :=
  { x.setDms k (x.dms k ++ [⟨x.dmNext, addr, x.read addr 128, false, 0, 0, false, 0, [], 0⟩]) with dmNext := x.dmNext + 1 }

/-- A descriptor at bytes without a bad row ends as its check says: at once with a status, or it is queued and what may
start is started. -/
theorem State.dmIssue_checked {s : State} {d : Fin 4} {t : Fin 104} {k : Fin 2} {addr : Nat} {x : Tile} {w : Task}
    (hx : s.tile d t = x) (hhome : descHome k addr 128 = true) (hslot : x.slot k = some w) (hrows : x.badIn addr 128 = false) :
    s.dmIssue d t k addr [] [] = match dmCheck (DmD.ofBytes (x.read addr 128)) w k with
      | some st => s.dmEnd d t k addr (DmD.ofBytes (x.read addr 128)) st 0
      | none => (s.setTile d t (x.queueDm k addr)).dmGo d t := by
  unfold State.dmIssue
  simp only [State.dmFind_nil, hx, hhome, hslot, hrows, Bool.not_true, Bool.false_eq_true, if_false]
  cases dmCheck (DmD.ofBytes (x.read addr 128)) w k <;> rfl

/-! ## The four commands (R96) -/

/-- The bytes an OP is read from are bytes a descriptor may stand at. -/
theorem State.descHome_of_dmOpAt {s : State} {d : Fin 4} {t : Fin 104} {k : Fin 2} {addr op : Nat}
    (h : s.dmOpAt d t k addr = some op) : descHome k addr 128 = true := by
  unfold State.dmOpAt at h
  by_contra hhome
  rw [if_neg hhome] at h
  cases h

/-- The command is the one of the OP: COPY 1, GATHER 2, SCATTER 3, FILL 4. -/
def dmCommand (d : Fin 4) (t : Fin 104) (k : Fin 2) (addr op : Nat) (cmd : Instr) : Prop :=
  (cmd = .dmCopy d t k addr [] [] ∧ op = 1) ∨ (cmd = .dmGather d t k addr [] [] ∧ op = 2) ∨
    (cmd = .dmScatter d t k addr [] [] ∧ op = 3) ∨ (cmd = .dmFill d t k addr [] [] ∧ op = 4)

/-- Each of the four calls the data mover where the descriptor's OP is its own. -/
theorem exec_dmCommand {s : State} {d : Fin 4} {t : Fin 104} {k : Fin 2} {addr op : Nat} {cmd : Instr}
    (hcmd : dmCommand d t k addr op cmd) (hop : s.dmOpAt d t k addr = some op) :
    exec cmd s = .next (s.dmCall d t k addr [] []) := by
  rcases hcmd with ⟨rfl, rfl⟩ | ⟨rfl, rfl⟩ | ⟨rfl, rfl⟩ | ⟨rfl, rfl⟩
  · show execDmCopy d t k addr [] [] s = _
    unfold execDmCopy
    rw [hop]; rfl
  · show execDmGather d t k addr [] [] s = _
    unfold execDmGather
    rw [hop]; rfl
  · show execDmScatter d t k addr [] [] s = _
    unfold execDmScatter
    rw [hop]; rfl
  · show execDmFill d t k addr [] [] s = _
    unfold execDmFill
    rw [hop]; rfl

/-- A running kernel's call issues the descriptor while its queue has room. -/
theorem State.dmCall_room {s : State} {d : Fin 4} {t : Fin 104} {k : Fin 2} (addr : Nat) (errs : RowErrs)
    (lines : LineErrs) (hruns : s.kernelRuns d t k = true) (hroom : ((s.tile d t).dms k).length < 8) :
    s.dmCall d t k addr errs lines = s.dmIssue d t k addr errs lines := by
  unfold State.dmCall
  rw [if_neg (by simp [hruns]), if_neg (Nat.not_le.2 hroom)]

/-- With 8 queued the kernel stalls with the address. -/
theorem State.dmCall_full {s : State} {d : Fin 4} {t : Fin 104} {k : Fin 2} (addr : Nat) (errs : RowErrs)
    (lines : LineErrs) (hruns : s.kernelRuns d t k = true) (hfull : 8 ≤ ((s.tile d t).dms k).length) :
    s.dmCall d t k addr errs lines = s.setTile d t (if k = 0 then { s.tile d t with stallDm0 := some addr }
      else { s.tile d t with stallDm1 := some addr }) := by
  unfold State.dmCall
  rw [if_neg (by simp [hruns]), if_pos hfull]

/-! ## Stalls that end and descriptors that complete (R100) -/

/-- A kernel of slot 0 that stalled goes on once there is room. -/
theorem execDmIssueResume_slot0 {s : State} {d : Fin 4} {t : Fin 104} {addr : Nat} (errs : RowErrs) (lines : LineErrs)
    (hstall : (s.tile d t).stallDm0 = some addr) (hroom : ((s.tile d t).dms0).length < 8) :
    execDmIssueResume d t 0 errs lines s =
      .next ((s.setTile d t { s.tile d t with stallDm0 := none }).dmIssue d t 0 addr errs lines) := by
  have hdms : ((s.tile d t).dms 0).length < 8 := hroom
  unfold execDmIssueResume
  simp only [if_true, hstall, if_pos hdms]

/-- A started descriptor that waits for no other package completes. -/
theorem execDmComplete_started {s : State} {d : Fin 4} {t : Fin 104} {k : Fin 2} {n : Nat} {m : Dm}
    (hm : ((s.tile d t).dms k)[n]? = some m) (hstarted : m.started = true) (hremote : m.remote = false) :
    execDmComplete d t k n [] [] s = .next (s.dmComplete d t k m) := by
  unfold execDmComplete
  simp only [State.findErrs_nil, State.findRows_nil, hm, hstarted, hremote, Bool.not_false, Bool.and_self, if_true]

/-- Settles O8, command by command. -/
theorem dataMoverIssue : Obligations.DataMoverIssue := by
  refine ⟨?_, ?_, ?_, ?_, ?_⟩
  · intro s d t k addr op cmd w x hcmd hop hruns hroom hx hslot hrows hgood
    refine (exec_dmCommand hcmd hop).trans (congrArg Host.Outcome.next ?_)
    rw [State.dmCall_room addr [] [] hruns hroom,
      State.dmIssue_checked hx.symm (State.descHome_of_dmOpAt hop) hslot hrows, hgood]
    rfl
  · intro s d t k addr op st cmd w hcmd hop hruns hroom hslot hrows hst
    refine (exec_dmCommand hcmd hop).trans (congrArg Host.Outcome.next ?_)
    rw [State.dmCall_room addr [] [] hruns hroom, State.dmIssue_checked rfl (State.descHome_of_dmOpAt hop) hslot hrows, hst]
  · intro s d t addr op cmd hcmd hop hruns hfull
    exact (exec_dmCommand hcmd hop).trans (congrArg Host.Outcome.next (State.dmCall_full addr [] [] hruns hfull))
  · intro s d t addr w x hstall hroom hx hhome hslot hrows hgood
    refine (execDmIssueResume_slot0 [] [] hstall hroom).trans (congrArg Host.Outcome.next ?_)
    rw [← hx, State.dmIssue_checked (State.tile_setTile s d t x) hhome hslot hrows, hgood]
    rfl
  · intro s d t k n m x hx hm hstarted hremote
    subst hx
    exact execDmComplete_started hm hstarted hremote

end Sys2Proof.Machine
end

section
/-! PROOFS. Tasks start and end; POST waits for the task's descriptors (05_work_dispatch.md, R78, R147, R150, R159, R160,
R161, R163, R164, R165, R167, 03_compute_tiles.md). -/

namespace Sys2Proof.Machine

open Sys2Proof

/-! ## Starts (R78, R159) -/

theorem State.engineDone_none {s : State} {d : Fin 4} {t : Fin 104} (h : (s.tile d t).engineTo = none) :
    s.engineDone d t = s := by
  unfold State.engineDone
  rw [h]

/-- An engine change under way ends with the engine in the mode it goes to (R81). -/
theorem State.engineDone_some {s : State} {d : Fin 4} {t : Fin 104} {g : Nat} (h : (s.tile d t).engineTo = some g) :
    s.engineDone d t =
      (s.setTile d t { s.tile d t with engineTo := none }).setF (.tile d t) Reg.TILE.STATE_ENGINE g := by
  unfold State.engineDone
  rw [h]

@[simp] theorem State.engineDone_pools (s : State) (d : Fin 4) (t : Fin 104) : (s.engineDone d t).pools = s.pools := by
  unfold State.engineDone
  split <;> rfl

@[simp] theorem State.setSlot_pools (s : State) (d : Fin 4) (t : Fin 104) (k : Fin 2) (v : Option Task) :
    (s.setSlot d t k v).pools = s.pools := rfl

/-- A placed task whose kernel is cached and of its ENGINE starts; on its home die it is counted as taken and no more. -/
theorem execTaskStart_home {s a b : State} {d : Fin 4} {t : Fin 104} {k : Fin 2} {w : Task} {e : KEntry}
    (hslot : (s.tile d t).slot k = some w) (hcached : (s.tile d t).cached w = some e) (hstart : w.start = none)
    (hengine : e.engine = w.engine) (hhome : (s.pool w.pool).home = d)
    (ha : a = s.setTile d t { s.tile d t with
      kcache := { e with users := e.users ++ [k.val] } :: (s.tile d t).kcache.erase e })
    (hb : b = a.engineDone d t) :
    execTaskStart d t k s = .next ((b.setSlot d t k (some { w with start := some b.elapsed })).addPair (.cdie d)
      Reg.CDIE.DISP_TAKEN_LO Reg.CDIE.DISP_TAKEN_HI 1) := by
  have hpools : b.pools = s.pools := by
    rw [hb, State.engineDone_pools, ha]
    rfl
  have hcounted : (((b.setSlot d t k (some { w with start := some b.elapsed })).addPair (.cdie d) Reg.CDIE.DISP_TAKEN_LO
      Reg.CDIE.DISP_TAKEN_HI 1).pool w.pool).home = d := by
    unfold State.pool at hhome ⊢
    rwa [State.addPair_pools, State.setSlot_pools, hpools]
  unfold execTaskStart
  simp only [hslot, hcached]
  rw [if_neg (by simp [hstart]), if_neg (not_not.2 hengine)]
  subst hb ha
  exact congrArg Host.Outcome.next (if_pos hcounted)

/-! ## Ends (R160, R163, R165) -/

/-- An end is taken: it fails the tile, or ends the task with its status and cause. -/
def State.takeEnd (s : State) (d : Fin 4) (t : Fin 104) (k : Fin 2) : TaskEnd → State
  | .tileFailed c => s.failTile d t c none
  | .fault c => s.endTask d t k 1 c
  | .abort code => s.endTask d t k 4 code.toNat
  | .timeout => s.endTask d t k 3 0
  | .exit => s.endTask d t k 0 0

/-- Of the ends of a cycle the first by R163 is taken. -/
theorem State.endFirst_of_first {s : State} {d : Fin 4} {t : Fin 104} {k : Fin 2} {l : List TaskEnd} {e : TaskEnd}
    (h : firstEnd (l.filter (s.endGood d t k)) = some e) : s.endFirst d t k l = s.takeEnd d t k e := by
  unfold State.endFirst
  rw [h]
  cases e <;> rfl

/-- A task of no pair, whose attempt has not ended before, is queued again or completes. -/
theorem State.endTask_single {s : State} {d : Fin 4} {t : Fin 104} {k : Fin 2} {w : Task} (status cause : Nat)
    (hslot : (s.tile d t).slot k = some w) (hpair : w.pair = false) (hheld : w.held = none) :
    s.endTask d t k status cause = if w.retries status cause then (s.clearSlot d t k).requeue w
      else (s.clearSlot d t k).finish w status cause d (s.slotOf d t) k s.drove (.task d t k) true := by
  unfold State.endTask
  simp only [hslot, hpair, hheld, Option.isSome_none, Bool.false_eq_true, if_false]
  rfl

/-- A command that brings an end to a task: it exits, it aborts with a code, or its time is up. -/
def endCommand (d : Fin 4) (t : Fin 104) (k : Fin 2) (code : BitVec 8) (same : List TaskEnd) (lines : LineErrs) (cmd : Instr)
    (e : TaskEnd) : Prop :=
  (cmd = .taskExit d t k same lines ∧ e = .exit) ∨ (cmd = .taskAbort d t k code same lines ∧ e = .abort code) ∨
    (cmd = .taskTimeout d t k same lines ∧ e = .timeout)

/-- The end taken is the first by R163 of the one the command brings and those of the same cycle. -/
theorem exec_endCommand {s : State} {d : Fin 4} {t : Fin 104} {k : Fin 2} {code : BitVec 8} {same : List TaskEnd}
    {lines : LineErrs} {cmd : Instr} {e f : TaskEnd} (h : endCommand d t k code same lines cmd e)
    (hfirst : firstEnd ((e :: same).filter ((s.findErrs lines).endGood d t k)) = some f) :
    exec cmd s = .next ((s.findErrs lines).takeEnd d t k f) := by
  rw [← State.endFirst_of_first hfirst]
  rcases h with ⟨rfl, rfl⟩ | ⟨rfl, rfl⟩ | ⟨rfl, rfl⟩ <;> rfl

/-! ## Partners (R167) -/

/-- A task of a pair whose partner has ended, and waits for no end of this one, ends with PARTNER_FAULT. -/
theorem execPartnerEnd_fate {s : State} {d : Fin 4} {t : Fin 104} {k : Fin 2} {w : Task} {st : Nat} {lines : LineErrs}
    (hslot : ((s.findErrs lines).tile d t).slot k = some w) (hpair : w.pair = true) (hfate : w.fate = some st)
    (hpartner : ((s.findErrs lines).partnerOf d t k).bind Task.held = none) :
    execPartnerEnd d t k lines s = .next (((s.findErrs lines).clearSlot d t k).finish w 6 st d
      ((s.findErrs lines).slotOf d t) k (s.findErrs lines).drove (.task d t k) true) := by
  have hwaits : ((s.findErrs lines).partnerOf d t k).bind (fun y => y.held.map (fun h => (y, h))) = none := by
    simpa using hpartner
  unfold execPartnerEnd
  simp only [hslot, hpair, hfate, hwaits]
  rfl

/-! ## POST (R147) -/

/-- A POST waits while the task has descriptors that have not completed. -/
theorem State.postGo_waits {s : State} {d : Fin 4} {t : Fin 104} {k : Fin 2} (h : (s.tile d t).dms k ≠ []) :
    s.postGo d t k = s := by
  have hbusy : ((s.tile d t).dms k).isEmpty = false := by simpa using h
  unfold State.postGo
  simp only [hbusy, Bool.false_eq_true, if_false]
  split
  · split <;> rfl
  · rfl

/-- A running kernel's POST is its task's, to be served. -/
theorem execKernelPost_runs {s : State} {d : Fin 4} {t : Fin 104} {k : Fin 2} {w : Task} (p : Fin 4096) (n : Nat)
    (hruns : s.kernelRuns d t k = true) (hslot : (s.tile d t).slot k = some w) :
    execKernelPost d t k p n s = .next ((s.setSlot d t k (some { w with post := some (p.val, n) })).postGo d t k) := by
  unfold execKernelPost
  simp only [hruns, hslot, Bool.not_true, Bool.false_eq_true, if_false]

/-- Settles O12, command by command. -/
theorem taskStartsAndEnds : Obligations.TaskStartsAndEnds := by
  refine ⟨?_, ?_, ?_, ?_, ?_⟩
  · intro s a b d t k w e x hx hslot hcached hstart hengine hhome ha hb
    subst hx
    have hto : (a.tile d t).engineTo = (s.tile d t).engineTo := by
      rw [ha, State.tile_setTile]
    refine execTaskStart_home hslot hcached hstart hengine hhome ha (hb.trans ?_)
    cases hchange : (s.tile d t).engineTo with
    | none => exact (State.engineDone_none (hto.trans hchange)).symm
    | some g => exact (State.engineDone_some (hto.trans hchange)).symm
  · intro s0 s d t k w cmd code same e status cause lines hs hcmd hfirst hslot hpair hheld
    subst hs
    have htask := State.endTask_single status cause hslot hpair hheld
    rcases hcmd with ⟨hcmd, rfl, rfl, rfl⟩ | ⟨hcmd, rfl, rfl, rfl⟩ | ⟨hcmd, rfl, rfl, rfl⟩
    · exact (exec_endCommand (code := code) (.inl ⟨hcmd, rfl⟩) hfirst).trans (congrArg Host.Outcome.next htask)
    · exact (exec_endCommand (.inr (.inl ⟨hcmd, rfl⟩)) hfirst).trans (congrArg Host.Outcome.next htask)
    · exact (exec_endCommand (code := code) (.inr (.inr ⟨hcmd, rfl⟩)) hfirst).trans (congrArg Host.Outcome.next htask)
  · intro s0 s d t k cmd code same e c lines hs hcmd
    subst hs
    exact ⟨exec_endCommand hcmd, exec_endCommand hcmd⟩
  · intro s0 s d t k w st lines hs hslot hpair hfate hpartner
    subst hs
    exact execPartnerEnd_fate hslot hpair hfate hpartner
  · intro s d t k p n w a hruns hslot ha hdms
    subst ha
    refine (execKernelPost_runs p n hruns hslot).trans (congrArg Host.Outcome.next (State.postGo_waits ?_))
    rwa [State.dms_setSlot]

end Sys2Proof.Machine
end

section
/-! PROOFS. Reduction slots of a bay: the command word, contributions below EXPECT and at it, contributions to a slot that
takes none (04_exact_reduction.md, R130, R131, R132, R133, R135, R352, 11_synchronisation.md). -/

namespace Sys2Proof.Machine

open Sys2Proof

/-! ## The slot written -/

@[simp] theorem State.bslot_setBslot (s : State) (d : Fin 4) (k : Nat) (b : BSlot) : (s.setBslot d k b).bslot d k = b := by
  show (s.bslots.putD (d * 8192 + k) b .init).getD (d * 8192 + k) .init = b
  rw [Map.getD_putD, if_pos rfl]

@[simp] theorem State.bslot_bump (s : State) (d : Fin 4) (k : Nat) (u : UnitId) (f : Fld) :
    (s.bump u f).bslot d k = s.bslot d k := rfl

@[simp] theorem State.bslot_raise (s : State) (d : Fin 4) (k : Nat) (u : UnitId) (n : Nat) :
    (s.raise u n).bslot d k = s.bslot d k := rfl

/-! ## Commands (R132) -/

/-- A slot that ARM takes: the accumulator empty at the anchor of its mode, ARRIVED and STATUS 0, and the state that waits
for anchors in the two modes that find their anchor first. -/
def BSlot.armedSlot (b : BSlot) : BSlot :=
  { b with
    ing := Ingot.empty (if b.mode = 0 then shortAnchor else if b.mode = 3 then b.anchorDecl else anchorNone), armed := true
    arrived := 0, status := 0, state := if b.mode = 1 ∨ b.mode = 2 then 1 else 2 }

/-- RELEASE makes a slot IDLE whatever its state. -/
theorem State.slotCmd_release (s : State) (d : Fin 4) (k : Nat) :
    s.slotCmd d k 2 = s.setBslot d k { s.bslot d k with state := 0 } := rfl

/-- ARM of an IDLE or DONE slot with EXPECT above 0 and a MODE that exists. -/
theorem State.slotCmd_arm {s : State} {d : Fin 4} {k : Nat} {b : BSlot} (hb : s.bslot d k = b)
    (hopen : b.state = 0 ∨ b.state = 3) (hexpect : b.expect ≠ 0) (hmode : b.mode < 6) :
    s.slotCmd d k 1 = s.setBslot d k b.armedSlot := by
  subst hb
  have hgood : ¬((s.bslot d k).expect = 0 ∨ 6 ≤ (s.bslot d k).mode) := by omega
  unfold State.slotCmd
  rw [if_neg (by decide), if_pos ⟨rfl, hopen⟩, if_neg hgood]
  rfl

/-- ARM with EXPECT 0 or a reserved MODE: the slot is IDLE with BAD_ARM, which the CDIE page shows (R135). -/
theorem State.slotCmd_badArm {s : State} {d : Fin 4} {k : Nat} (hopen : (s.bslot d k).state = 0 ∨ (s.bslot d k).state = 3)
    (hbad : (s.bslot d k).expect = 0 ∨ 6 ≤ (s.bslot d k).mode) :
    s.slotCmd d k 1 = ((s.setBslot d k { s.bslot d k with state := 0, status := 4 }).setF (.cdie d) Reg.CDIE.RSLOT_LAST_SLOT
      k).setF (.cdie d) Reg.CDIE.RSLOT_LAST_STATUS 4 := by
  unfold State.slotCmd
  rw [if_neg (by decide), if_pos ⟨rfl, hopen⟩, if_pos hbad]

/-- A slot in a round takes no ARM. -/
theorem State.slotCmd_arm_inRound {s : State} {d : Fin 4} {k : Nat}
    (hround : (s.bslot d k).state = 1 ∨ (s.bslot d k).state = 2) : s.slotCmd d k 1 = s := by
  have hclosed : ¬((s.bslot d k).state = 0 ∨ (s.bslot d k).state = 3) := by omega
  unfold State.slotCmd
  rw [if_neg (by decide), if_neg (fun h => hclosed h.2)]

/-! ## The command word (R131, R132) -/

/-- A slot with MODE and SYNC_OBJ of a command word. -/
def BSlot.withFields (b : BSlot) (w : Word) : BSlot := { b with mode := getBits w 7 5, syncObj := getBits w 31 16 }

/-- CMD stands beside MODE and SYNC_OBJ: a word with another CMD writes the same fields. -/
theorem BSlot.withFields_setCmd (b : BSlot) (w : Word) (c : Nat) : b.withFields (setBits w 1 0 c) = b.withFields w := by
  unfold BSlot.withFields
  rw [getBits_setBits_ne w 1 0 c 7 5 (by decide) (by decide) (by decide) (by decide),
    getBits_setBits_ne w 1 0 c 31 16 (by decide) (by decide) (by decide) (by decide)]

/-- An IDLE slot takes the fields of the word; then the command acts. -/
theorem State.slotWord_setCmd (s : State) (d : Fin 4) (k : Nat) (w : Word) {c : Nat} (hc : c < 4) :
    s.slotWord d k (setBits w 1 0 c) = (if (s.bslot d k).state = 0 then s.setBslot d k ((s.bslot d k).withFields w)
      else s).slotCmd d k c := by
  have hcmd : getBits (setBits w 1 0 c) 1 0 = c :=
    (getBits_setBits w 1 0 c (by decide) (by decide)).trans (Nat.mod_eq_of_lt hc)
  rw [← BSlot.withFields_setCmd _ w c]
  unfold State.slotWord
  rw [hcmd]
  rfl

theorem State.slotWord_idle {s : State} {d : Fin 4} {k : Nat} (w : Word) {c : Nat} (hc : c < 4)
    (hidle : (s.bslot d k).state = 0) :
    s.slotWord d k (setBits w 1 0 c) = (s.setBslot d k ((s.bslot d k).withFields w)).slotCmd d k c := by
  rw [State.slotWord_setCmd s d k w hc, if_pos hidle]

theorem State.slotWord_not_idle {s : State} {d : Fin 4} {k : Nat} (w : Word) {c : Nat} (hc : c < 4)
    (hbusy : (s.bslot d k).state ≠ 0) : s.slotWord d k (setBits w 1 0 c) = s.slotCmd d k c := by
  rw [State.slotWord_setCmd s d k w hc, if_neg hbusy]

theorem execSlotArm_here {s : State} {d : Fin 4} {k : Nat} (w : Word) (hk : k < s.slotCount d) :
    execSlotArm d k w s = .next (s.slotWord d k (setBits w 1 0 1)) := congrArg Host.Outcome.next (if_pos hk)

theorem execSlotRelease_here {s : State} {d : Fin 4} {k : Nat} (w : Word) (hk : k < s.slotCount d) :
    execSlotRelease d k w s = .next (s.slotWord d k (setBits w 1 0 2)) := congrArg Host.Outcome.next (if_pos hk)

/-! ## Contributions counted (R133, R352) -/

/-- Below EXPECT a contribution is counted and no more. -/
theorem State.slotArrive_below (s : State) (d : Fin 4) (k : Nat) {b : BSlot} (h : b.arrived + 1 < b.expect) :
    s.slotArrive d k b = s.setBslot d k { b with arrived := b.arrived + 1 } := if_pos h

/-- The slot signals the end of a round to its object. -/
def State.slotSignal (s : State) (d : Fin 4) (b : BSlot) : State :=
  (s.signal b.syncObj 1 (.die d) (if b.status = 0 then 0 else ObjSt.badContrib) 0).1

/-- The last anchor of a WIDE reduction takes the slot on to records, none of them arrived. -/
theorem State.slotArrive_lastAnchor (s : State) (d : Fin 4) (k : Nat) {b : BSlot} (hfull : b.expect = b.arrived + 1)
    (hmode : b.mode = 1) (hstate : b.state = 1) :
    s.slotArrive d k b = (s.setBslot d k { b with arrived := 0, state := 2 }).slotSignal d b := by
  unfold State.slotArrive
  rw [if_neg (Nat.not_lt.2 hfull.le), if_pos ⟨hmode, hstate⟩]
  rfl

/-- Any other last contribution makes the slot DONE. -/
theorem State.slotArrive_done (s : State) (d : Fin 4) (k : Nat) {b : BSlot} (hfull : b.expect = b.arrived + 1)
    (h : ¬(b.mode = 1 ∧ b.state = 1)) :
    s.slotArrive d k b = (s.setBslot d k { b with arrived := b.arrived + 1, state := 3 }).slotSignal d b := by
  unfold State.slotArrive
  rw [if_neg (Nat.not_lt.2 hfull.le), if_neg h]
  rfl

/-- The last record, or value in FP32 mode, makes the slot DONE, whatever the accumulator has become. -/
theorem State.slotArrive_lastRecord (s : State) (d : Fin 4) (k : Nat) {b : BSlot} (g : Ingot)
    (hfull : b.expect = b.arrived + 1) (hstate : b.state = 2) :
    s.slotArrive d k { b with ing := g } =
      (s.setBslot d k { b with ing := g, arrived := b.arrived + 1, state := 3 }).slotSignal d b := by
  have hrecords : b.state ≠ 1 := by omega
  exact State.slotArrive_done s d k (b := { b with ing := g }) hfull (fun h => hrecords h.2)

/-- A write of the FP32 accumulator changes the slot's accumulator and no other field. -/
theorem BSlot.putFp32_accumulator (b : BSlot) (v : Nat) : ∃ g, b.putFp32 v = { b with ing := g } := ⟨_, rfl⟩

/-! ## Contributions that reach a slot (R133, R134, R135) -/

/-- A slot whose accumulator has taken the larger of its anchor and the one contributed. -/
def BSlot.takeAnchor (b : BSlot) (v : BitVec 16) : BSlot := { b with ing := { b.ing with anchor := anchorMax b.ing.anchor v } }

theorem State.slotContrib_anchor {s : State} {d : Fin 4} {k : Nat} {data : List Byte} (hlen : data.length = 4)
    (hstate : (s.bslot d k).state = 1) :
    s.slotContrib d k 0x60 data =
      s.slotArrive d k ((s.bslot d k).takeAnchor (BitVec.ofNat 16 (leNat (data.take 2)))) := by
  have hround : ¬((s.bslot d k).state = 0 ∨ (s.bslot d k).state = 3) := by omega
  unfold State.slotContrib
  rw [if_neg hround, if_pos hstate, if_pos ⟨rfl, hlen⟩]
  rfl

theorem State.slotContrib_record {s : State} {d : Fin 4} {k : Nat} {data : List Byte}
    (hlen : data.length = if (s.bslot d k).mode = 5 then 4 else 96) (hstate : (s.bslot d k).state = 2) :
    s.slotContrib d k 0 data = s.slotRecord d k data := by
  have hround : ¬((s.bslot d k).state = 0 ∨ (s.bslot d k).state = 3) := by omega
  have hrecords : (s.bslot d k).state ≠ 1 := by omega
  unfold State.slotContrib
  rw [if_neg hround, if_neg hrecords, if_pos ⟨rfl, hlen⟩]

/-- A slot that is in no round discards what is written to it, as LATE. -/
theorem State.slotContrib_late {s : State} {d : Fin 4} {k : Nat} (off : Nat) (data : List Byte)
    (h : (s.bslot d k).state = 0 ∨ (s.bslot d k).state = 3) : s.slotContrib d k off data = s.slotDiscard d k 3 := if_pos h

/-- A record whose anchor agrees is combined and counted. -/
theorem State.slotRecord_combined {s : State} {d : Fin 4} {k : Nat} {data : List Byte} {g : Ingot}
    (hmode : (s.bslot d k).mode ≠ 5)
    (hsum : combineRecord (s.bslot d k).mode (s.bslot d k).ing (Ingot.ofBytes data) = (g, false)) :
    s.slotRecord d k data = s.slotArrive d k { s.bslot d k with ing := g } := by
  unfold State.slotRecord
  rw [if_neg hmode, hsum]
  rfl

/-- In FP32 mode the value is added and counted. -/
theorem State.slotRecord_fp32 {s : State} {d : Fin 4} {k : Nat} (data : List Byte) (hmode : (s.bslot d k).mode = 5) :
    s.slotRecord d k data =
      s.slotArrive d k ((s.bslot d k).putFp32 (fp32Add (s.bslot d k).fp32 (leNat data)).1) := if_pos hmode

/-- A slot keeps its first STATUS other than OK; the CDIE page shows the last one (R137). -/
theorem State.slotStatus_of_ne {s : State} {d : Fin 4} {k : Nat} (st : Nat) (hstatus : (s.bslot d k).status ≠ 0) :
    s.slotStatus d k st =
      (s.setF (.cdie d) Reg.CDIE.RSLOT_LAST_SLOT k).setF (.cdie d) Reg.CDIE.RSLOT_LAST_STATUS st := if_neg hstatus

theorem execSlotAnchorContrib_here {s : State} {d : Fin 4} {k : Nat} (w : Word) (hk : k < s.slotCount d) :
    execSlotAnchorContrib d k w s = .next (s.slotContrib d k 0x60 (leBytes 4 w.toNat)) :=
  congrArg Host.Outcome.next (if_pos hk)

theorem execSlotRecordContrib_here {s : State} {d : Fin 4} {k : Nat} {data : List Byte} (hk : k < s.slotCount d)
    (hdata : data ≠ []) : execSlotRecordContrib d k data s = .next (s.slotContrib d k 0 data) :=
  congrArg Host.Outcome.next (if_pos ⟨hk, hdata⟩)

/-- Settles O9, clause by clause: the command word, then contributions. -/
theorem reductionSlots : Obligations.ReductionSlots := by
  refine ⟨?_, ?_, ?_, ?_, ?_, ?_, ?_, ?_⟩
  · intro s a d k w b hk hopen hb ha hexpect hmode
    refine (execSlotArm_here w hk).trans (congrArg Host.Outcome.next ?_)
    by_cases hidle : (s.bslot d k).state = 0
    · rw [if_pos hidle] at hb ha
      have hslot : a.bslot d k = b := by rw [ha, State.bslot_setBslot]
      have hstill : b.state = 0 := by rw [hb]; exact hidle
      rw [State.slotWord_idle w (by decide) hidle, show (s.bslot d k).withFields w = b from hb.symm, ← ha]
      exact State.slotCmd_arm hslot (.inl hstill) hexpect hmode
    · rw [if_neg hidle] at hb ha
      subst hb ha
      rw [State.slotWord_not_idle w (by decide) hidle]
      exact State.slotCmd_arm rfl hopen hexpect hmode
  · intro s d k w b hk hb hdone hbad
    subst hb
    refine (execSlotArm_here w hk).trans (congrArg Host.Outcome.next ?_)
    rw [State.slotWord_not_idle w (by decide) (by omega), State.slotCmd_badArm (.inr hdone) hbad]
  · intro s d k w hk hround
    have hbusy : (s.bslot d k).state ≠ 0 := by omega
    constructor
    · refine (execSlotArm_here w hk).trans (congrArg Host.Outcome.next ?_)
      rw [State.slotWord_not_idle w (by decide) hbusy, State.slotCmd_arm_inRound hround]
    · refine (execSlotRelease_here w hk).trans (congrArg Host.Outcome.next ?_)
      rw [State.slotWord_not_idle w (by decide) hbusy, State.slotCmd_release]
  · intro s d k w b hk hb hstate hbelow
    subst hb
    refine (execSlotAnchorContrib_here w hk).trans (congrArg Host.Outcome.next ?_)
    rw [State.slotContrib_anchor (length_leBytes 4 _) hstate]
    exact State.slotArrive_below s d k hbelow
  · intro s d k w b hk hb hstate hmode hfull
    subst hb
    refine (execSlotAnchorContrib_here w hk).trans (congrArg Host.Outcome.next ?_)
    rw [State.slotContrib_anchor (length_leBytes 4 _) hstate]
    exact State.slotArrive_lastAnchor s d k hfull hmode hstate
  · intro s d k data b g hk hb hstate hmode hlen hsum hbelow
    subst hb
    have hdata : data ≠ [] := List.ne_nil_of_length_pos (by omega)
    refine (execSlotRecordContrib_here hk hdata).trans (congrArg Host.Outcome.next ?_)
    rw [State.slotContrib_record (by rw [if_neg hmode, hlen]) hstate, State.slotRecord_combined hmode hsum]
    exact State.slotArrive_below s d k hbelow
  · intro s d k data b hk hb hstate hmode hlen hfull
    subst hb
    have hdata : data ≠ [] := List.ne_nil_of_length_pos (by omega)
    refine (execSlotRecordContrib_here hk hdata).trans (congrArg Host.Outcome.next ?_)
    rw [State.slotContrib_record (by rw [if_pos hmode, hlen]) hstate, State.slotRecord_fp32 data hmode]
    obtain ⟨g, hg⟩ := (s.bslot d k).putFp32_accumulator (fp32Add (s.bslot d k).fp32 (leNat data)).1
    rw [hg]
    exact State.slotArrive_lastRecord s d k g hfull hstate
  · intro s a d k w b hk hb hclosed hstatus ha
    subst hb ha
    refine (execSlotAnchorContrib_here w hk).trans (congrArg Host.Outcome.next ?_)
    rw [State.slotContrib_late _ _ hclosed]
    exact State.slotStatus_of_ne 3 (by rwa [State.bslot_raise, State.bslot_bump])

end Sys2Proof.Machine
end

section
/-! PROOFS. Pools: doorbells, CQ_HEAD, and the commands of POOL_CTL (05_work_dispatch.md, R143, R144, R145, R147, R168,
R171). -/

namespace Sys2Proof.Machine

open Sys2Proof

/-! ## The pool written -/

@[simp] theorem State.pool_setPool (s : State) (p : Nat) (x : Pool) : (s.setPool p x).pool p = x := by
  show (s.pools.putD p x .init).getD p .init = x
  rw [Map.getD_putD, if_pos rfl]

/-! ## Doorbells (R145) -/

theorem State.doorbell_ignored {s : State} {p n : Nat} (h : n = 0 ∨ (s.pool p).state = 2) : s.doorbell p n = s :=
  if_pos h

/-- A doorbell that does not fit the ring is not applied: OVERRUN. -/
theorem State.doorbell_overrun {s : State} {p n : Nat} (hn : n ≠ 0) (hstate : (s.pool p).state ≠ 2)
    (hover : 2 ^ (s.pool p).ringLog < (s.pool p).untaken + n) : s.doorbell p n = s.poolErr p 3 := by
  unfold State.doorbell
  rw [if_neg (not_or.2 ⟨hn, hstate⟩), if_pos hover]

/-- One that fits adds to TAIL; into an empty ring it brings a task to the head. -/
theorem State.doorbell_fits {s : State} {p n : Nat} (hn : n ≠ 0) (hstate : (s.pool p).state ≠ 2)
    (hfits : (s.pool p).untaken + n ≤ 2 ^ (s.pool p).ringLog) :
    s.doorbell p n = if (s.pool p).untaken = 0
      then (s.setPool p { s.pool p with tail := ((s.pool p).tail + n) % 2 ^ 32 }).headArrives p
      else s.setPool p { s.pool p with tail := ((s.pool p).tail + n) % 2 ^ 32 } := by
  unfold State.doorbell
  rw [if_neg (not_or.2 ⟨hn, hstate⟩), if_neg (Nat.not_lt.2 hfits)]

/-- The doorbell pages answer from READY on (R489). -/
theorem execPoolDoorbell_ready {s : State} (p : Fin 4096) (n : Nat) (h : s.ready = true) :
    execPoolDoorbell p n s = .next (s.doorbell p n) := congrArg Host.Outcome.next (if_pos h)

/-- A doorbell that pools ignore changes nothing, the package READY or not. -/
theorem execPoolDoorbell_ignored {s : State} {p : Fin 4096} {n : Nat} (h : n = 0 ∨ (s.pool p).state = 2) :
    execPoolDoorbell p n s = .next s := by
  unfold execPoolDoorbell
  rw [State.doorbell_ignored h, ite_self]

/-! ## Records that waited for room (R147) -/

theorem State.goCancelled_of_nil {s : State} {p : Nat} (h : (s.pool p).cancelled = []) : s.goCancelled p = s := by
  unfold State.goCancelled
  rw [h]
  rfl

/-! ## CQ_HEAD (R145) -/

/-- CQ_HEAD moves to a value between its present one and CQ_TAIL. -/
theorem execPoolCqHeadWrite_between {s : State} {p : Fin 4096} {v : Word} (errs : LineErrs) (hready : s.ready = true)
    (hv : (v.toNat + 2 ^ 32 - (s.pool p).cqHead) % 2 ^ 32 ≤ ((s.pool p).cqTail + 2 ^ 32 - (s.pool p).cqHead) % 2 ^ 32) :
    execPoolCqHeadWrite p v errs s =
      .next (((s.setPool p { s.pool p with cqHead := v.toNat }).findErrs errs).goCancelled p) := by
  unfold execPoolCqHeadWrite
  rw [if_neg (by simp [hready]), if_pos hv]

/-- Any other value is ignored: CQ_HEAD_BAD, in every state. -/
theorem execPoolCqHeadWrite_beyond {s : State} {p : Fin 4096} {v : Word} (errs : LineErrs) (hready : s.ready = true)
    (hv : ((s.pool p).cqTail + 2 ^ 32 - (s.pool p).cqHead) % 2 ^ 32 < (v.toNat + 2 ^ 32 - (s.pool p).cqHead) % 2 ^ 32) :
    execPoolCqHeadWrite p v errs s = .next (s.poolErr p 4) := by
  unfold execPoolCqHeadWrite
  rw [if_neg (by simp [hready]), if_neg (Nat.not_le.2 hv)]

/-! ## POOL_CTL (R143, R168, R171) -/

theorem execPoolReload_stopped {s : State} (errs : LineErrs) (hstate : (s.pool s.poolSel).state ≠ 1)
    (hrunning : (s.pool s.poolSel).running = 0) :
    execPoolReload errs s = .next ((s.findErrs errs).readEntry s.poolSel) :=
  congrArg Host.Outcome.next (if_pos ⟨hstate, hrunning⟩)

theorem execPoolReload_busy {s : State} (errs : LineErrs)
    (h : (s.pool s.poolSel).state = 1 ∨ (s.pool s.poolSel).running ≠ 0) : execPoolReload errs s = .next s :=
  congrArg Host.Outcome.next (if_neg (by omega))

theorem execPoolClear_error {s : State} (hstate : (s.pool s.poolSel).state = 2)
    (hrunning : (s.pool s.poolSel).running = 0) :
    execPoolClear s = .next (s.setPool s.poolSel { Pool.init with
      entry := (s.pool s.poolSel).entry, granted := (s.pool s.poolSel).granted }) :=
  congrArg Host.Outcome.next (if_pos ⟨hstate, hrunning⟩)

/-- The flush of a pool without untaken tasks, retries or waiting records writes no record; a hold of its head ends. -/
theorem execPoolFlush_empty {s : State} {errs : LineErrs} {x : Pool} (hx : x = (s.findErrs errs).pool (s.findErrs errs).poolSel)
    (hempty : x.untaken = 0) (hwaiting : x.cancelled = []) (hretries : x.retries = []) :
    execPoolFlush errs s = .next ((s.findErrs errs).setPool (s.findErrs errs).poolSel
      { x with head := x.tail, held := false, waitGen := none }) := by
  unfold execPoolFlush
  simp only [← hx, hempty, hwaiting, hretries, List.range_zero, List.map_nil, List.foldl_nil, List.isEmpty_nil, Bool.not_true,
    Bool.and_false, List.append_nil, Nat.zero_sub]
  rw [State.goCancelled_of_nil (by rw [State.pool_setPool])]

/-- Settles O10, command by command. -/
theorem poolCommands : Obligations.PoolCommands := by
  refine ⟨?_, ?_, ?_, ?_, ?_, ?_, ?_, ?_, ?_, ?_, ?_, ?_⟩
  · intro s p n hready hn hstate hfits htasks
    refine (execPoolDoorbell_ready p n hready).trans (congrArg Host.Outcome.next ?_)
    rw [State.doorbell_fits hn hstate hfits, if_neg htasks]
  · intro s p n hready hn hstate hfits hempty
    refine (execPoolDoorbell_ready p n hready).trans (congrArg Host.Outcome.next ?_)
    rw [State.doorbell_fits hn hstate (by omega), if_pos hempty]
  · intro s p n x hready hn hx hstate hover
    subst hx
    exact (execPoolDoorbell_ready p n hready).trans (congrArg Host.Outcome.next (State.doorbell_overrun hn hstate hover))
  · intro s p n hignored
    exact execPoolDoorbell_ignored hignored
  · intro s p v x errs hready hx hv
    subst hx
    refine ⟨execPoolCqHeadWrite_between errs hready hv, fun hnone => ?_⟩
    refine (execPoolCqHeadWrite_between [] hready hv).trans (congrArg Host.Outcome.next ?_)
    rw [State.findErrs_nil, State.goCancelled_of_nil (by rw [State.pool_setPool]; exact hnone)]
  · intro s p v x errs hready hx hv
    subst hx
    exact execPoolCqHeadWrite_beyond errs hready hv
  · intro s x hx
    subst hx
    exact ⟨rfl, rfl⟩
  · intro s errs hstate hrunning
    exact execPoolReload_stopped errs hstate hrunning
  · intro s errs hbusy
    exact execPoolReload_busy errs hbusy
  · intro s hstate hrunning
    exact execPoolClear_error hstate hrunning
  · intro s0 s b p x lines hs hp hx hb
    subst hs hp hx hb
    rfl
  · intro s0 s x lines hs hx hempty hwaiting hretries
    subst hs
    exact execPoolFlush_empty hx hempty hwaiting hretries

end Sys2Proof.Machine
end

section
/-! PROOFS. The take of a task by a tile that no other tile competes with, search tiers, held heads (05_work_dispatch.md,
R145, R150, R152, R153, R155, R158, R159). -/

namespace Sys2Proof.Machine

open Sys2Proof

/-! ## The head leaves its pool (R145) -/

/-- HEAD passes a fresh task, which runs from here on as far as its pool's counts go. -/
theorem State.popHead_fresh {s : State} {p : Nat} {w : Task} (h : s.poolHead p = .fresh w) :
    s.popHead p = some (w, ((s.setPool p { s.pool p with
      head := ((s.pool p).head + 1) % 2 ^ 32, running := (s.pool p).running + 1
      held := false }).acquire w).headArrives p) := by
  unfold State.popHead
  rw [h]

/-! ## A try at a pool (R150, R153, R155) -/

/-- With both slots empty no slot rule is in the way: the tile takes the head into slot 0, where the descriptor's check
decides what becomes of it. -/
theorem State.trySingle_emptyTile {s a : State} {d : Fin 4} {t : Fin 104} {p : Nat} {w v : Task}
    (hslots : (s.tile d t).slot0 = none ∧ (s.tile d t).slot1 = none) (hhead : headTask (s.poolHead p) = some w)
    (hpop : s.popHead p = some (v, a)) :
    s.trySingle d t p =
      .took ((if v.check ≠ 0 then a.badDesc d t 0 v 5 v.check else a.placeTask d t 0 v).tookFrom d t p) := by
  obtain ⟨h0, h1⟩ := hslots
  have hroom : (s.tile d t).room = true := by simp [Tile.room, h0]
  unfold State.trySingle
  simp [hhead, hroom, h0, h1, hpop]

theorem State.tryPool_single {s : State} {d : Fin 4} {t : Fin 104} {p : Nat} (heligible : s.headEligible p = true)
    (hpartner : (s.pool p).partnerEn = false) : s.tryPool d t p = s.trySingle d t p := by
  unfold State.tryPool
  simp only [heligible, hpartner, Bool.not_true, Bool.false_eq_true, if_false]

/-! ## Grants of a cycle in which one tile asks (R154) -/

/-- The first pool of the asker has a head for it, and it takes that one. -/
theorem State.grantAll_oneAsker {s s' : State} {d : Fin 4} {t : Fin 104} {p : Nat} (rest : List Nat)
    (htook : s.tryPool d t p = .took s') : s.grantAll [⟨d, t, p :: rest⟩] 1 = s' := by
  have hsettle : s.settleAll [⟨d, t, p :: rest⟩] = (s, [⟨d, t, p :: rest⟩]) := by
    simp [State.settleAll, State.settle, htook]
  unfold State.grantAll
  simp [hsettle, firstAsker, htook, State.grantAll]

/-- An asker without candidates takes nothing. -/
theorem State.grantAll_noCandidate (s : State) (d : Fin 4) (t : Fin 104) : s.grantAll [⟨d, t, []⟩] 1 = s := rfl

/-- A tile that may take a task and asks alone tries the pools of its search order. -/
theorem execTaskTake_alone {s : State} {d : Fin 4} {t : Fin 104} (h : s.mayTake d t = true) :
    execTaskTake d t [] [] s = .next (s.grantAll [⟨d, t, s.poolOrder d t⟩] 1) := by
  have hasks : ([(d, t)].eraseDups).filter (fun e => s.mayTake e.1 e.2) = [(d, t)] :=
    List.filter_cons_of_pos h
  unfold execTaskTake
  simp only [hasks]
  rfl

theorem execTaskTake_barred {s : State} {d : Fin 4} {t : Fin 104} (h : s.mayTake d t = false) :
    execTaskTake d t [] [] s = .next s := by
  have hasks : ([(d, t)].eraseDups).filter (fun e => s.mayTake e.1 e.2) = [] :=
    List.filter_cons_of_neg (by simp [h])
  unfold execTaskTake
  simp only [hasks]
  rfl

/-- The tile asks alone, both its slots empty, and the first pool of its order offers a fresh task without partner: it
takes that task, to run it or to end it by its check. -/
theorem execTaskTake_first {s a : State} {d : Fin 4} {t : Fin 104} {p : Nat} {rest : List Nat} {w : Task}
    (hmay : s.mayTake d t = true) (hslots : (s.tile d t).slot0 = none ∧ (s.tile d t).slot1 = none)
    (horder : s.poolOrder d t = p :: rest) (heligible : s.headEligible p = true)
    (hpartner : (s.pool p).partnerEn = false) (hhead : s.poolHead p = .fresh w) (hpop : s.popHead p = some (w, a)) :
    execTaskTake d t [] [] s =
      .next ((if w.check ≠ 0 then a.badDesc d t 0 w 5 w.check else a.placeTask d t 0 w).tookFrom d t p) := by
  have htask : headTask (s.poolHead p) = some w := by rw [hhead]; rfl
  have htook := (State.tryPool_single heligible hpartner).trans (State.trySingle_emptyTile hslots htask hpop)
  rw [execTaskTake_alone hmay, horder, State.grantAll_oneAsker rest htook]

/-! ## Search tiers and holds (R152, R158) -/

theorem execSearchTierOpen_due {s : State} {d : Fin 4} {t : Fin 104} {n : Fin 6} (hactive : s.tileActive d t = true)
    (hroom : (s.tile d t).room = true) (hn : 2 ≤ n.val) (hclosed : n.val ∉ (s.tile d t).tiers)
    (hidle : (s.tile d t).idleAt + s.tierAfter n ≤ s.elapsed) :
    execSearchTierOpen d t n s = .next (s.setTile d t { s.tile d t with tiers := (s.tile d t).tiers ++ [n.val] }) :=
  congrArg Host.Outcome.next (if_pos (by simp [hactive, hroom, hn, hclosed, hidle]))

/-- The head of a pool without partner, eligible and FULL, is held, and its home die tells of it. -/
theorem execFullHold_single {s : State} {p : Fin 4096} {w : Task} (hheld : (s.pool p).held = false)
    (hpartner : (s.pool p).partnerEn = false) (heligible : s.headEligible p = true)
    (hhead : headTask (s.poolHead p) = some w) (hfull : w.engine = 2) :
    execFullHold p s = .next ((s.setPool p { s.pool p with held := true }).raise (.cdie (s.pool p).home)
      Evt.CDIE.FULL_HOLD) := by
  unfold execFullHold
  simp [hheld, hpartner, heligible, hhead, hfull]

/-- Settles O11: the take of the first candidate by its check, then no take, a tier and a hold. -/
theorem taskTakes : Obligations.TaskTakes := by
  refine ⟨?_, ?_, ?_, ?_, ?_⟩
  · intro s d t p rest w x hmay hslots horder heligible hx hpartner hhead hcheck
    subst hx
    refine (execTaskTake_first hmay hslots horder heligible hpartner hhead (State.popHead_fresh hhead)).trans ?_
    rw [if_neg (not_not.2 hcheck)]
  · intro s a d t p rest w x hmay hslots horder heligible hx hpartner hhead hcheck ha
    subst hx ha
    refine (execTaskTake_first hmay hslots horder heligible hpartner hhead (State.popHead_fresh hhead)).trans ?_
    rw [if_pos hcheck]
  · intro s d t hnone
    change execTaskTake d t [] [] s = .next s
    cases hmay : s.mayTake d t with
    | false => exact execTaskTake_barred hmay
    | true =>
      have horder : s.poolOrder d t = [] := hnone.resolve_left (by simp [hmay])
      rw [execTaskTake_alone hmay, horder, State.grantAll_noCandidate]
  · intro s d t n x hactive hx hroom hn hclosed hidle
    subst hx
    exact execSearchTierOpen_due hactive hroom hn hclosed hidle
  · intro s p w x hx hheld hpartner heligible hhead hfull
    subst hx
    exact execFullHold_single hheld hpartner heligible hhead hfull

end Sys2Proof.Machine
end

section
/-! PROOFS. Memory channels start up, their lines are scrubbed, they are tracked and retrained (06_memory.md, R182, R183, R184,
R185, R188, R189, R190, R193, R196, R197, 17_firmware_update.md, R529, 18_errors_faults.md, R546). -/

namespace Sys2Proof.Machine

open Sys2Proof

/-! ## Start-up (R182, R183, R184) -/

/-- The calibration that full training found is recorded, and TRAIN_FULL raised; a restored one changes nothing. -/
def State.calibrated (s : State) (m : Fin 12) (c : Nat) (full : Bool) (k : Calib) : State :=
  let t := s.raise (.mstk m) Evt.MSTK.TRAIN_FULL
  if full then { t with mm := { t.mm with cal := t.mm.cal.put c k } } else s

/-- A channel in training has restored or trained: its listed frames retire, and unless that takes it out of use it waits for
its fill. -/
theorem execChannelTrainDone_trained {s a : State} {m : Fin 12} {ch : Fin 16} {check ok full : Bool} {k : Calib}
    (hstate : s.chanState (chanNo m ch) = 1) (hopen : s.mm.trained.getD (chanNo m ch) false = false)
    (hfull : full = !(s.calFits (chanNo m ch) k && check)) (hgood : full = false ∨ ok = true)
    (ha : a = (s.calibrated m (chanNo m ch) full k).startFrames (chanNo m ch)) (hkept : a.chanState (chanNo m ch) = 1) :
    execChannelTrainDone m ch check ok k s =
      .next { a with mm := { a.mm with trained := a.mm.trained.put (chanNo m ch) true } } := by
  unfold execChannelTrainDone
  simp only [hstate, hopen, ← hfull, ne_eq, not_true_eq_false, decide_false, Bool.or_self, Bool.false_eq_true, if_false]
  cases full with
  | false =>
    simp only [State.calibrated, Bool.false_eq_true, if_false] at ha
    simp only [Bool.false_and, Bool.false_eq_true, if_false, ← ha, hkept, if_true]
  | true =>
    obtain rfl : ok = true := hgood.resolve_left (by decide)
    simp only [State.calibrated, if_true] at ha
    simp only [Bool.and_self, Bool.not_true, Bool.and_false, Bool.false_eq_true, if_false, if_true, ← ha, hkept]

/-- A channel whose full training fails is FAILED, its UE table empty. -/
theorem execChannelTrainDone_failed {s : State} {m : Fin 12} {ch : Fin 16} {check : Bool} {k : Calib}
    (hstate : s.chanState (chanNo m ch) = 1) (hopen : s.mm.trained.getD (chanNo m ch) false = false)
    (hfull : (s.calFits (chanNo m ch) k && check) = false) :
    execChannelTrainDone m ch check false k s =
      .next ((((s.raise (.mstk m) Evt.MSTK.TRAIN_FULL).chanFail (chanNo m ch)).emptyUe (chanNo m ch)).fenceIfNoMemory) := by
  unfold execChannelTrainDone
  simp only [hstate, hopen, hfull, ne_eq, not_true_eq_false, decide_false, Bool.or_self, Bool.false_eq_true, if_false,
    Bool.not_false, Bool.and_false, Bool.and_self, if_true]

/-- The fill of a trained channel ends: it is ACTIVE. -/
theorem execMemoryFillDone_trained {s a : State} {m : Fin 12} {ch : Fin 16} (hstate : s.chanState (chanNo m ch) = 1)
    (htrained : s.mm.trained.getD (chanNo m ch) false = true)
    (ha : a = (s.setF (.mchn m ch) Reg.MCHN.STATE_STATE 2).setF (.mchn m ch) Reg.MCHN.STATE_CAUSE 0) :
    execMemoryFillDone m ch s =
      .next (((({ a with mm := { a.mm with trained := a.mm.trained.del (chanNo m ch) } } : State).setOwn (.mchn m ch)
        0).frameCounts).placeCounts) := by
  unfold execMemoryFillDone
  rw [if_neg (by simp [hstate, htrained]), ha]

/-! ## Lines (R188, R189, R190, R193) -/

/-- What the scrubber finds at a line: nothing, a corrected error, an uncorrectable one. -/
def State.scrubFound (s : State) (id line : Nat) : Option Bool → State
  | none => s
  | some false => s.lineCE id line
  | some true => s.lineUE id line

/-- The scrubber reads a line of a frame in use that is not listed. -/
theorem execScrubLine_read {s : State} {m : Fin 12} {ch : Fin 16} {f : Fin 3072} {line : Fin 32768} (err : Option Bool)
    (hserving : s.serving (chanNo m ch) = true) (hlive : s.frameLive (frameId m ch f) = true)
    (hlisted : s.mm.ue.getD (lineKey (frameId m ch f) line) false = false) :
    execScrubLine m ch f line err s = .next (s.scrubFound (frameId m ch f) line err) := by
  unfold execScrubLine
  rw [if_neg (by simp [hserving, hlive, hlisted])]
  cases err with
  | none => rfl
  | some uncorrectable => cases uncorrectable <;> rfl

/-- A correctable error is counted and shown as the channel's last, and the line written back. -/
def State.countCE (s : State) (id line : Nat) : State :=
  (((s.bump (chanUnit (frameChan id)) Reg.MCHN.CE_COUNT_COUNT).raise (chanUnit (frameChan id)) Evt.MCHN.CE).lastErr id line
    false).addPair (chanUnit (frameChan id)) Reg.MCHN.WR_BYTES_LO Reg.MCHN.WR_BYTES_HI 64

/-- Fewer than eight distinct lines of the frame have had correctable errors in 24 h: the frame stays. -/
theorem State.lineCE_few {s : State} {id line : Nat}
    (hfew : (((s.countCE id line).mm.ce.put (lineKey id line) s.elapsed).filter
      (fun e => e.1 / 2 ^ 15 == id && decide (s.elapsed ≤ e.2 + ns24h))).length < 8) :
    s.lineCE id line = { s.countCE id line with
      mm := { (s.countCE id line).mm with ce := (s.countCE id line).mm.ce.put (lineKey id line) s.elapsed } } :=
  if_neg (Nat.not_le.2 hfew)

/-- An uncorrectable error is counted and shown as the channel's last. -/
def State.countUE (s : State) (id line : Nat) : State :=
  ((s.bump (chanUnit (frameChan id)) Reg.MCHN.UE_COUNT_COUNT).raise (chanUnit (frameChan id)) Evt.MCHN.UE).lastErr id line true

/-- A line joins the UE table of its channel. -/
def State.listLine (s : State) (id line : Nat) : State :=
  let t : State := { s with mm := { s.mm with ue := s.mm.ue.put (lineKey id line) true } }
  t.setF (chanUnit (frameChan id)) Reg.MCHN.UE_TAB_USED (t.getF (chanUnit (frameChan id)) Reg.MCHN.UE_TAB_USED + 1)

/-- With room in the table the line is listed and its frame marked for retirement. -/
theorem State.lineUE_room {s : State} {id line : Nat} (hlisted : s.mm.ue.getD (lineKey id line) false = false)
    (hroom : (s.countUE id line).getF (chanUnit (frameChan id)) Reg.MCHN.UE_TAB_USED < 64) :
    s.lineUE id line = ((s.countUE id line).listLine id line).markRetire id := by
  unfold State.lineUE
  rw [if_neg (by simp [hlisted])]
  exact if_neg (Nat.not_le.2 hroom)

/-- Settles O13: the training's two ends, the fill, and the scrubber's three findings. -/
theorem channelsAndTheirLines : Obligations.ChannelsAndTheirLines := by
  refine ⟨?_, ?_, ?_, ?_, ?_⟩
  · intro s t a m ch check ok full k hstate hopen hfull hgood ht ha hkept
    subst ht
    have hcal : a = s.calibrated m (chanNo m ch) full k := ha
    rw [hcal] at hkept ⊢
    exact execChannelTrainDone_trained hstate hopen hfull hgood rfl hkept
  · intro s m ch check k hstate hopen hfull
    exact execChannelTrainDone_failed hstate hopen hfull
  · intro s a m ch hstate htrained ha
    exact execMemoryFillDone_trained hstate htrained ha
  · intro s a m ch f line u hserving hlive hlisted hu ha hfew
    subst hu ha
    exact ⟨execScrubLine_read none hserving hlive hlisted, (execScrubLine_read (some false) hserving hlive hlisted).trans
      (congrArg Host.Outcome.next (State.lineCE_few hfew))⟩
  · intro s a b m ch f line u hserving hlive hlisted hu ha hroom hb
    subst hu ha hb
    exact (execScrubLine_read (some true) hserving hlive hlisted).trans
      (congrArg Host.Outcome.next (State.lineUE_room hlisted hroom))

/-! ## Tracking and retrains (R185) -/

/-- Each millisecond the retried commands and the on-die corrections are counted, unless the PHY controllers' image restarts. -/
theorem execChannelTrack_runs {s : State} {m : Fin 12} {ch : Fin 16} (retries onDie : Nat)
    (hserving : s.serving (chanNo m ch) = true)
    (hphy : s.mg.fw.hptTo.any (fun w => decide (s.elapsed < w)) = false) :
    execChannelTrack m ch retries onDie s = .next ((if retries = 0 then s
      else s.retried (chanNo m ch) retries).bumpBy (.mchn m ch) Reg.MCHN.ODE_COUNT_COUNT onDie) := by
  unfold execChannelTrack
  rw [if_neg (by simp [hserving, hphy])]

theorem execChannelTrack_skipped {s : State} {m : Fin 12} {ch : Fin 16} (retries onDie : Nat)
    (hphy : s.mg.fw.hptTo.any (fun w => decide (s.elapsed < w)) = true) :
    execChannelTrack m ch retries onDie s = .next s := by
  unfold execChannelTrack
  rw [if_pos (by simp [hphy])]

/-- Retries of at most 1,000 commands within a second are counted and noted, and drain no channel. -/
theorem State.retried_few {s a : State} {c n : Nat} {log : List Nat}
    (ha : a = s.bumpBy (chanUnit c) Reg.MCHN.LINK_RETRY_COUNT n)
    (hlog : log = ((a.mm.retryLog.getD c []).filter (fun t => decide (a.elapsed ≤ t + ns1s))) ++
      List.replicate (min n 1001) a.elapsed)
    (hfew : log.length ≤ 1000) :
    s.retried c n = { a with mm := { a.mm with retryLog := a.mm.retryLog.putD c log [] } } := by
  unfold State.retried
  simp only [← ha, ← hlog, Nat.not_lt.2 hfew, decide_false, Bool.false_and, Bool.false_eq_true, if_false]

theorem State.beginRetrain_serving {s : State} {c : Nat} (h : s.serving c = true) :
    s.beginRetrain c = { s with mm := { s.mm with retraining := s.mm.retraining.put c true } } := if_pos h

theorem execChannelRetrain_serving {s : State} {m : Fin 12} {ch : Fin 16} (h : s.serving (chanNo m ch) = true) :
    execChannelRetrain m ch s = .next ((s.retried (chanNo m ch) 1).beginRetrain (chanNo m ch)) :=
  congrArg Host.Outcome.next (if_pos h)

/-- The channel pages answer from READY on (R489). -/
theorem execMchnRetrain_ready {s : State} (m : Fin 12) (ch : Fin 16) (h : s.ready = true) :
    execMchnRetrain m ch s = .next (s.beginRetrain (chanNo m ch)) := congrArg Host.Outcome.next (if_pos h)

/-- The retrain of a channel in service is over. -/
def State.endRetrain (s : State) (c : Nat) : State := { s with mm := { s.mm with retraining := s.mm.retraining.del c } }

/-- The times of a channel's retrains of the last 24 h, and of the one that ends now. -/
def State.retrainTimes (s : State) (c : Nat) : List Nat :=
  (s.mm.retrainLog.getD c []).filter (fun t => decide (s.elapsed ≤ t + ns24h)) ++ [s.elapsed]

theorem execChannelRetrainDone_passed {s b : State} {m : Fin 12} {ch : Fin 16}
    (hretraining : s.mm.retraining.getD (chanNo m ch) false = true) (hserving : s.serving (chanNo m ch) = true)
    (hb : b = ((s.endRetrain (chanNo m ch)).bump (.mchn m ch) Reg.MCHN.RETRAINS_COUNT).raise (.mchn m ch) Evt.MCHN.RETRAIN) :
    execChannelRetrainDone m ch true s =
      .next { b with mm := { b.mm with retrainLog := b.mm.retrainLog.put (chanNo m ch) (b.retrainTimes (chanNo m ch)) } } := by
  unfold execChannelRetrainDone
  rw [if_neg (by simp [hretraining, hserving]), hb]
  rfl

theorem execChannelRetrainDone_failed {s : State} {m : Fin 12} {ch : Fin 16}
    (hretraining : s.mm.retraining.getD (chanNo m ch) false = true) (hserving : s.serving (chanNo m ch) = true) :
    execChannelRetrainDone m ch false s =
      .next (((s.endRetrain (chanNo m ch)).chanFail (chanNo m ch)).fenceIfNoMemory) := by
  unfold execChannelRetrainDone
  rw [if_neg (by simp [hretraining, hserving])]
  rfl

/-- Settles O14: tracking, then the start and the two ends of a retrain. -/
theorem channelLinksAndTraining : Obligations.ChannelLinksAndTraining := by
  refine ⟨?_, ?_, ?_, ?_, ?_, ?_⟩
  · intro s m ch n hserving hphy
    exact execChannelTrack_runs 0 n hserving hphy
  · intro s m ch r n hphy
    exact execChannelTrack_skipped r n hphy
  · intro s a m ch r n log hserving hr ha hlog hfew hphy
    refine (execChannelTrack_runs r n hserving hphy).trans (congrArg Host.Outcome.next ?_)
    rw [if_neg hr, State.retried_few ha hlog hfew]
  · intro s a m ch hserving ha hstill
    subst ha
    exact (execChannelRetrain_serving hserving).trans (congrArg Host.Outcome.next (State.beginRetrain_serving hstill))
  · intro s m ch hready hserving
    exact (execMchnRetrain_ready m ch hready).trans (congrArg Host.Outcome.next (State.beginRetrain_serving hserving))
  · intro s a b m ch hretraining hserving ha hb
    subst ha
    exact ⟨execChannelRetrainDone_passed hretraining hserving hb, execChannelRetrainDone_failed hretraining hserving⟩

end Sys2Proof.Machine
end

section
/-! PROOFS. Channels drain, by RETIRE or for want of reserve frames, and their drains end or go on; the temperature of a stack
(06_memory.md, R186, R193, R194, R195, R197, 07_data_placement.md, R224). -/

namespace Sys2Proof.Machine

open Sys2Proof

/-! ## Drains (R194, R195, R197, R224) -/

/-- The registers of a channel that becomes DRAINING, and the frame counts without it. -/
def State.showDraining (s : State) (c cause : Nat) : State :=
  ((((s.setF (chanUnit c) Reg.MCHN.STATE_STATE 3).setF (chanUnit c) Reg.MCHN.STATE_CAUSE cause).setOwn (chanUnit c) 1).raise
    (chanUnit c) Evt.MCHN.STATE_CHANGE).frameCounts

/-- The moves of a drain begin, of the page of a frame before all others where one is named. -/
def State.beginDrain (s : State) (c : Nat) (first : Option Nat) : State :=
  (((match first with
    | some id => { s with mm := { s.mm with drainFirst := s.mm.drainFirst.put c id } }
    | none => s).abandonTo c).placeCounts).drainStep c

theorem State.drainStart_active {s : State} {c : Nat} (cause : Nat) (first : Option Nat) (h : s.chanState c = 2) :
    s.drainStart c cause first = (s.showDraining c cause).beginDrain c first := if_neg (not_not.2 h)

theorem State.drainStart_not_active {s : State} {c : Nat} (cause : Nat) (first : Option Nat) (h : s.chanState c ≠ 2) :
    s.drainStart c cause first = s := if_pos h

theorem execMchnRetire_ready {s : State} (m : Fin 12) (ch : Fin 16) (h : s.ready = true) :
    execMchnRetire m ch s = .next (s.drainStart (chanNo m ch) 4 none) := congrArg Host.Outcome.next (if_pos h)

theorem execMchnRetire_not_active {s : State} {m : Fin 12} {ch : Fin 16} (h : s.chanState (chanNo m ch) ≠ 2) :
    execMchnRetire m ch s = .next s := by
  unfold execMchnRetire
  rw [State.drainStart_not_active 4 none h, ite_self]

theorem execChannelDrainDone_empty {s : State} {m : Fin 12} {ch : Fin 16} (hstate : s.chanState (chanNo m ch) = 3)
    (hempty : s.drainOrder (chanNo m ch) = []) :
    execChannelDrainDone m ch s = .next ((s.chanOut (chanNo m ch) 4).fenceIfNoMemory) :=
  congrArg Host.Outcome.next (if_pos (by simp [hstate, hempty]))

theorem execDrainResume_stalled {s : State} {m : Fin 12} {ch : Fin 16} (hstate : s.chanState (chanNo m ch) = 3)
    (hstalled : s.mm.drainStalled.getD (chanNo m ch) false = true) (hgoes : 0 < s.freeFrames ∨ s.spillBar s.victims = none) :
    execDrainResume m ch s =
      .next (({ s with mm := { s.mm with drainStalled := s.mm.drainStalled.del (chanNo m ch) } } : State).drainStep
        (chanNo m ch)) := by
  have hwaits : (s.chanState (chanNo m ch) = 3 && s.mm.drainStalled.getD (chanNo m ch) false) = true := by
    simp [hstate, hstalled]
  have hgo : (0 < s.freeFrames || (s.spillBar s.victims).isNone) = true := by simpa using hgoes
  exact congrArg Host.Outcome.next (if_pos (by rw [Bool.and_eq_true]; exact ⟨hwaits, hgo⟩))

/-- Settles O15: RETIRE, the end and the resumption of a drain, a stack's temperature. -/
theorem channelDrainsAndHeat : Obligations.ChannelDrainsAndHeat := by
  refine ⟨?_, ?_, ?_, ?_, ?_⟩
  · intro s a m ch u hready hstate hu ha
    subst hu ha
    exact (execMchnRetire_ready m ch hready).trans (congrArg Host.Outcome.next (State.drainStart_active 4 none hstate))
  · intro s m ch hstate
    exact execMchnRetire_not_active hstate
  · intro s m ch hstate hempty
    exact execChannelDrainDone_empty hstate hempty
  · intro s m ch hstate hstalled hgoes
    exact execDrainResume_stalled hstate hstalled hgoes
  · intro s a m v r hr ha
    subst hr ha
    rfl

/-! ## Retirements without reserve (R193, R194) -/

/-- The page of a frame that is to be retired stays where it is while a line of the frame is listed: its move is abandoned. -/
def State.holdListed (s : State) (id : Nat) : State :=
  match s.pageOfFrame id with
  | some (pr, p) => if s.frameListed id && p.st ≠ PageSt.lost then s.abandonMove pr else s
  | none => s

/-- With no spare frame left the channel drains, the frame's page first. -/
theorem State.tryRetire_noSpare {s : State} {id : Nat} (hmarked : s.mm.toRetire.getD id false = true) (hserves : s.hcAway = false)
    (hspare : s.getF (chanUnit (frameChan id)) Reg.MCHN.FRAMES_SPARE_LEFT = 0) :
    s.tryRetire id = (s.holdListed id).drainStart (frameChan id) 1 (some id) := by
  unfold State.tryRetire
  rw [if_neg (by simp [hmarked, hserves]), if_pos hspare]
  rfl

/-- Settles O59: the retirement starts the drain of an ACTIVE channel. -/
theorem retirementWithoutReserveStartsADrain : Obligations.RetirementWithoutReserveStartsADrain := by
  intro s a t id hmarked hserves hspare ha hstate ht
  have hheld : a = s.holdListed id := ha
  subst ht
  rw [State.tryRetire_noSpare hmarked hserves hspare, ← hheld]
  exact State.drainStart_active 1 (some id) hstate

end Sys2Proof.Machine
end

section
/-! PROOFS. The victim of a spill is the first page of an order by heat and number; a page's moves, from the end of a copy pass to
the end of the hold (06_memory.md, R193, R197, 07_data_placement.md, R213, R214, R215). -/

namespace Sys2Proof.Machine

open Sys2Proof

/-! ## Victims (R193, R215) -/

/-- The order in which pages spill: less total heat, then the lower page number. -/
def spillsBefore (a b : Nat × Page) : Bool :=
  decide (a.2.heat.total < b.2.heat.total) || (a.2.heat.total == b.2.heat.total && decide (a.1 ≤ b.1))

theorem spillsBefore_iff (a b : Nat × Page) : spillsBefore a b = true ↔
    a.2.heat.total < b.2.heat.total ∨ (a.2.heat.total = b.2.heat.total ∧ a.1 ≤ b.1) := by
  simp [spillsBefore]

theorem spillsBefore_trans (a b c : Nat × Page) (hab : spillsBefore a b = true) (hbc : spillsBefore b c = true) :
    spillsBefore a c = true := by
  rw [spillsBefore_iff] at *
  omega

theorem spillsBefore_total (a b : Nat × Page) : (spillsBefore a b || spillsBefore b a) = true := by
  rw [Bool.or_eq_true, spillsBefore_iff, spillsBefore_iff]
  omega

theorem State.mem_victims (s : State) (e : Nat × Page) :
    e ∈ s.victims ↔ e ∈ s.mm.pages ∧ e.2.st = .loc ∧ e.2.pin = 0 ∧ s.pageListed e.2 = false := by
  unfold State.victims
  simp only [List.mem_mergeSort, List.mem_filter, Bool.and_eq_true, Bool.not_eq_true', decide_eq_true_eq, and_assoc]

/-- The victims stand in the order of spilling. -/
theorem State.victims_pairwise (s : State) : s.victims.Pairwise (fun a b => spillsBefore a b = true) :=
  List.pairwise_mergeSort spillsBefore_trans spillsBefore_total _

/-- The first victim spills before every other page that may be spilled. -/
theorem State.victims_head_spillsBefore {s : State} {v e : Nat × Page} {rest : List (Nat × Page)} (hv : s.victims = v :: rest)
    (he : e ∈ s.victims) (hne : e.1 ≠ v.1) : spillsBefore v e = true := by
  have hsorted := s.victims_pairwise
  rw [hv] at hsorted he
  have hrest : e ∈ rest := (List.mem_cons.1 he).resolve_left (fun h => hne (h ▸ rfl))
  exact (List.pairwise_cons.1 hsorted).1 e hrest

/-- A spill that begins moves the first of its victims to a place at a target. -/
theorem State.spillFrom_eq_some {s t : State} {victims : List (Nat × Page)} (h : s.spillFrom victims = some t) :
    ∃ (v : Nat × Page) (rest : List (Nat × Page)) (k : Nat), victims = v :: rest ∧
      t = (s.targetPlace k).2.startMove (.own v.1) (s.targetPlace k).1 .spill := by
  unfold State.spillFrom at h
  split at h
  · cases h
  · split at h
    · next v k hv _ =>
      obtain ⟨rest, hrest⟩ := List.head?_eq_some_iff.1 hv
      exact ⟨v, rest, k, hrest, (Option.some.inj h).symm⟩
    · cases h

/-- Settles O60: the victims are the candidates, sorted, and a spill takes their first. The pages compared have other numbers than
the victim's, so that the page list stands in rising order is not needed. -/
theorem spillVictimIsTheColdestLocalPage : Obligations.SpillVictimIsTheColdestLocalPage := by
  refine ⟨State.mem_victims, fun s t _ hspill => ?_⟩
  obtain ⟨⟨n, p⟩, rest, k, hvictims, ht⟩ := State.spillFrom_eq_some hspill
  have hfirst : (n, p) ∈ s.victims := by rw [hvictims]; exact List.mem_cons_self
  obtain ⟨hpage, hlocal, hpin, hlisted⟩ := (s.mem_victims (n, p)).1 hfirst
  refine ⟨n, p, _, _, hpage, hlocal, hpin, hlisted, fun e he hst hpin' hlisted' hne => ?_, ht⟩
  have hcandidate : e ∈ s.victims := (s.mem_victims e).2 ⟨he, hst, hpin', hlisted'⟩
  rcases (spillsBefore_iff _ _).1 (State.victims_head_spillsBefore hvictims hcandidate hne) with hcolder | ⟨hsame, hlower⟩
  · exact Or.inl hcolder
  · exact Or.inr ⟨hsame, lt_of_le_of_ne hlower (Ne.symm hne)⟩

/-! ## Copy passes (R213) -/

/-- What a move does after its pass: the lines marked are copied in the next pass, or in the hold after three passes or with at
most 64 of them. -/
def Move.nextPass (m : Move) : Move :=
  { m with pass := if m.pass = 3 ∨ m.marked.length ≤ 64 then 4 else m.pass + 1, todo := m.marked, marked := [] }

/-- A copy pass of a page without a listed line ends, no line read bad. -/
theorem State.passDone_clean {s : State} {r : PgRef} {m : Move} {p : Page} (hp : s.pg r = p) (hmove : p.move = some m)
    (hgranted : m.granted = true) (hpass : m.pass < 4) (hbusy : s.spillBusy r = false) (hlisted : s.pageListed p = false) :
    s.passDone r [] = ((s.copyBytes p m (if m.pass = 1 then 32768 else m.todo.length)).setPg r
      { p with move := some m.nextPass }).copyMarked r m.marked := by
  unfold State.passDone
  simp only [hp, hmove, hgranted, hbusy, Nat.not_le.2 hpass, State.copyErrs_nil, hlisted, Bool.not_true, decide_false,
    Bool.or_self, Bool.false_eq_true, if_false, Move.nextPass, Bool.or_eq_true, decide_eq_true_eq]

/-! ## The end of the hold (R213, R214) -/

/-- A move between frames ends: the map switches, the accesses held go to the new frame, MOVES counts, the old frame is left. -/
theorem State.moveDone_frames {s a : State} {k id new : Nat} {m : Move} {p : Page} (hp : s.page k = p)
    (hmove : p.move = some m) (hgranted : m.granted = true) (hpass : m.pass = 4) (hdest : m.dest = .frame new)
    (hfree : s.pageOfFrame new = none) (hzeroed : s.mm.zeroing.getD new false = false) (hwhy : m.why ≠ .retire)
    (hbusy : s.spillBusy (.own k) = false) (ha : a = (s.copyBytes p m m.todo.length).invalidate k)
    (hframe : (a.page k).frame? = some id) (hplace : (a.page k).place = .frame id) :
    s.moveDone (.own k) = (((((((a.setPg (.own k) { a.page k with st := .loc, place := .frame new, move := none }).releaseHeld m
      (.frame new)).addPair .place Reg.PLACE.MOVES_LO Reg.PLACE.MOVES_HI 1).leaveFrame id).drainStep
      (frameChan id)).placeCounts).reqStep) := by
  have hpg : s.pg (.own k) = p := hp
  have hpg' : a.pg (.own k) = a.page k := rfl
  unfold State.moveDone
  simp only [hpg, hmove, hdest, hfree, hzeroed, hgranted, hpass, hbusy, ← ha, hpg', hframe, hplace]
  cases hw : m.why with
  | retire => exact absurd hw hwhy
  | _ => rfl

/-- The hold ends with every marked line copied, none found bad and none listed. -/
theorem execPageMoveDone_clean {s : State} {k : Nat} {m : Move} {p : Page} (hp : s.page k = p) (hmove : p.move = some m)
    (hpass : m.pass = 4) (hbusy : s.spillBusy (.own k) = false) (hlisted : s.pageListed p = false) :
    execPageMoveDone false k [] s = .next (s.moveDone (.own k)) := by
  have hpg : s.pg (pgRef false k) = p := hp
  have hbusy' : s.spillBusy (pgRef false k) = false := hbusy
  unfold execPageMoveDone
  simp only [hpg, hmove, hpass, hbusy', State.copyErrs_nil, hlisted, ne_eq, not_true_eq_false, Bool.false_eq_true, if_false]
  rfl

/-- Settles O18: the end of a pass, and the end of the hold between frames. -/
theorem pageMoves : Obligations.PageMoves := by
  refine ⟨?_, ?_⟩
  · intro s a g k m p hp hmove hgranted hpass hbusy ha hlisted
    subst ha
    exact congrArg Host.Outcome.next (State.passDone_clean hp.symm hmove hgranted hpass hbusy hlisted)
  · intro s a b k id new m p hp hmove hgranted hpass hdest hfree hzeroed _ hwhy hbusy hb ha hframe hplace hlisted
    subst hb
    refine (execPageMoveDone_clean hp.symm hmove hpass hbusy hlisted).trans (congrArg Host.Outcome.next ?_)
    exact State.moveDone_frames hp.symm hmove hgranted hpass hdest hfree hzeroed hwhy hbusy ha hframe hplace

end Sys2Proof.Machine
end

section
/-! PROOFS. BAR2 and its boot window; doorbells, completion heads, ENABLE, CLEAN and DISABLE of command queues
(15_host_interface.md, 06_memory.md, R191, R459, R460, R462, R463, R471, R472, 16_management_reset_boot.md, R492). -/

namespace Sys2Proof.Machine

open Sys2Proof

/-! ## BAR2 outside the boot window (R191, R459, R460) -/

/-- A read returns package memory, or is aborted, counted and raised. -/
theorem execBar2Read_memory {s a b : State} {off : Fin 68719476736} {n st : Nat} {errs : LineErrs} {bs : List Byte}
    (hwindow : s.bootWindow = false) (ha : a = s.findErrs errs) (hread : a.readMem Req.host (a.winAddr off) n = (b, st, bs)) :
    execBar2Read off n errs s = .next (if st = 0 then b.emit (.bar2Read off bs)
      else ((b.bump .pcie Reg.PCIE.BAR2_ERR_COUNT).raise .pcie Evt.PCIE.BAR2_ERR).emit (.bar2Abort off)) := by
  unfold execBar2Read
  simp only [hwindow, Bool.false_eq_true, if_false, ← ha, hread]

/-- A write goes whole to package memory, or is dropped, counted and raised. -/
theorem execBar2Write_memory {s a b : State} {off : Fin 68719476736} {data : List Byte} {errs : LineErrs} {st : Nat}
    (hwindow : s.bootWindow = false) (ha : a = s.findRmw (s.winAddr off) data.length errs)
    (hwrite : a.writeWhole Req.host (a.winAddr off) data = (b, st)) :
    execBar2Write off data errs s = .next (if st = 0 then b else
      ((b.writeDrop s errs (b.winAddr off) data.length).bump .pcie Reg.PCIE.BAR2_DROP_COUNT).raise .pcie
        Evt.PCIE.BAR2_ERR) := by
  unfold execBar2Write
  simp only [hwindow, Bool.false_eq_true, if_false, ← ha, hwrite]

/-- The frame of the first listed line that a write covers in part, a line that its own reads found bad included. -/
def State.dropFrame (s old : State) (errs : LineErrs) (addr n : Nat) : Option Nat :=
  ((List.range (lineCount addr n)).map (fun i => 64 * (addr / 64 + i))).findSome? (fun x =>
    match (s.page (x / 2 ^ 21)).frame? with
    | some f => if partLine addr n x && (s.mm.ue.getD (lineKey f (x % 2 ^ 21 / 64)) false ||
        ((old.page (x / 2 ^ 21)).st ≠ .lost && errs.any (fun e => e.1 / 64 == x / 64 && e.2 == .uncorrectable))) then some f else none
    | none => none)

/-- A write dropped for a listed line is counted and raised on that line's channel. -/
theorem State.writeDrop_of_dropFrame {s old : State} {errs : LineErrs} {addr n id : Nat}
    (h : s.dropFrame old errs addr n = some id) :
    s.writeDrop old errs addr n = (s.bump (chanUnit (frameChan id)) Reg.MCHN.WRITE_DROP_COUNT).raise (chanUnit (frameChan id))
      Evt.MCHN.WRITE_DROP := by
  have hdrop : s.writeDrop old errs addr n = (match s.dropFrame old errs addr n with
      | some f => (s.bump (chanUnit (frameChan f)) Reg.MCHN.WRITE_DROP_COUNT).raise (chanUnit (frameChan f)) Evt.MCHN.WRITE_DROP
      | none => s) := rfl
  rw [hdrop, h]

/-! ## The boot window (R492) -/

/-- Writes of the window fill the boot buffer, but for those while a set is verified and those beyond it. -/
theorem execBar2Write_window {s : State} {off : Fin 68719476736} {data : List Byte} (errs : LineErrs)
    (hwindow : s.bootWindow = true) (hverify : s.getF .pcie Reg.PCIE.BOOT_STAT_STATE ≠ 2)
    (hfits : off.val + data.length ≤ 0x400000) :
    execBar2Write off data errs s = .next { s with mg := { s.mg with bootBuf := s.mg.bootBuf.writeBytes off data } } := by
  unfold execBar2Write
  rw [if_pos hwindow, if_pos ⟨hverify, hfits⟩]

theorem execBar2Read_window {s : State} (off : Fin 68719476736) (n : Nat) (errs : LineErrs) (hwindow : s.bootWindow = true) :
    execBar2Read off n errs s = .next (s.emit (.bar2Read off (List.replicate n 0))) :=
  congrArg Host.Outcome.next (if_pos hwindow)

/-! ## Doorbells and completion heads (R463) -/

/-- From READY on, a doorbell of a queue that is not DISABLED moves its tail forward within the ring, or breaks the queue. -/
theorem execSqDoorbell_enabled {s : State} {q : Fin 64} (v : Word) (hready : s.ready = true) (hstate : (s.hq q).state ≠ 0) :
    execSqDoorbell q v s = .next (if 2 ^ (s.hq q).sqLog < (v.toNat + 2 ^ 32 - (s.hq q).sqHead) % 2 ^ 32 ∨
        (v.toNat + 2 ^ 32 - (s.hq q).sqHead) % 2 ^ 32 < (s.hq q).waiting
      then s.queueErr q 2 else s.setHq q { s.hq q with sqTail := v.toNat }) :=
  congrArg Host.Outcome.next (if_neg (by simp [hready, hstate]))

/-- A completion head moves no further than the tail, or breaks the queue. -/
theorem execHostCqHeadWrite_enabled {s : State} {q : Fin 64} (v : Word) (hready : s.ready = true)
    (hstate : (s.hq q).state ≠ 0) :
    execHostCqHeadWrite q v s = .next (if (s.hq q).unread < (v.toNat + 2 ^ 32 - (s.hq q).cqHead) % 2 ^ 32 then s.queueErr q 3
      else s.setHq q { s.hq q with cqHead := v.toNat }) :=
  congrArg Host.Outcome.next (if_neg (by simp [hready, hstate]))

/-! ## Q_CTL (R462, R471, R472) -/

/-- A queue with its four counts at 0. -/
def HostQ.emptied (x : HostQ) : HostQ := { x with sqTail := 0, sqHead := 0, cqTail := 0, cqHead := 0 }

/-- A DISABLED queue with its four counts at 0. -/
def State.emptyHq (s : State) (q : Nat) : State := s.setHq q (s.hq q).emptied

/-- ENABLE of a DISABLED queue whose configuration breaks R462. -/
theorem State.queueEnable_bad {s : State} {q : Nat} (clean : Bool) (hstate : (s.hq q).state = 0)
    (hbad : (s.emptyHq q).queueOk (s.hq q).emptied = false) : s.queueEnable q clean = (s.emptyHq q).queueErr q 1 := by
  have hrefused : (!(s.emptyHq q).queueOk (s.hq q).emptied) = true := by rw [hbad]; rfl
  unfold State.queueEnable
  rw [if_neg (not_not.2 hstate)]
  exact if_pos hrefused

/-- ENABLE without CLEAN: the queue is ENABLED, its record and HIGH as they were. -/
theorem State.queueEnable_good {s : State} {q : Nat} (hstate : (s.hq q).state = 0)
    (hok : (s.emptyHq q).queueOk (s.hq q).emptied = true) :
    s.queueEnable q false = (s.emptyHq q).setHq q { (s.hq q).emptied with state := 1 } := by
  have hpasses : ¬ (!(s.emptyHq q).queueOk (s.hq q).emptied) = true := by rw [hok]; decide
  unfold State.queueEnable
  rw [if_neg (not_not.2 hstate)]
  exact if_neg hpasses

/-- ENABLE with CLEAN: HIGH is 0 and the queue's record is written over with zeros; that it cannot be written is CMDREC_BAD. -/
theorem State.queueEnable_clean {s b c : State} {q st : Nat} {z : List Byte} (hz : z = List.replicate 32768 0)
    (hstate : (s.hq q).state = 0) (hok : (s.emptyHq q).queueOk (s.hq q).emptied = true)
    (hb : b = (s.emptyHq q).setHq q { (s.hq q).emptied with state := 1, clean := true, high := 0 })
    (hwrite : b.writeMem Req.host (b.recordAddr q 0) z = (c, st)) :
    s.queueEnable q true = if st = 0 then c else c.recordLost := by
  subst hb
  simp only [State.emptyHq, HostQ.emptied] at hok hwrite
  unfold State.queueEnable
  rw [if_neg (not_not.2 hstate), ← hz]
  simp only [hok, hwrite, Bool.not_true, Bool.true_or, Bool.false_eq_true, if_false, if_true]

theorem execQueueDisable_enabled {s : State} (hstate : (s.hq s.qsel).state ≠ 0) :
    execQueueDisable s = .next (s.queueStop s.qsel) :=
  congrArg Host.Outcome.next (if_pos (by simpa [State.pageOpen] using hstate))

/-- Settles O41: BAR2 outside and inside the boot window, then the queue registers and commands. -/
theorem bar2AndCommandQueues : Obligations.Bar2AndCommandQueues := by
  refine ⟨?_, ?_, ?_, ?_, ?_, ?_, ?_, ?_, ?_, ?_⟩
  · intro s a b off n st errs bs hwindow ha hread
    exact execBar2Read_memory hwindow ha hread
  · intro s a b off data errs st hwindow ha hwrite
    exact execBar2Write_memory hwindow ha hwrite
  · intro s old errs n addr id hdrop
    exact State.writeDrop_of_dropFrame hdrop
  · intro s off data n errs hwindow hverify hfits
    exact ⟨execBar2Write_window errs hwindow hverify hfits, execBar2Read_window off n errs hwindow⟩
  · intro s q v n hready hstate hn
    subst hn
    exact execSqDoorbell_enabled v hready hstate
  · intro s q v hready hstate
    exact execHostCqHeadWrite_enabled v hready hstate
  · intro s a x hstate hx ha hok
    subst hx ha
    exact congrArg Host.Outcome.next (State.queueEnable_good hstate hok)
  · intro s a b c x st z hz hstate hx ha hok hb hwrite
    subst hx ha
    exact congrArg Host.Outcome.next (State.queueEnable_clean hz hstate hok hb hwrite)
  · intro s a x hstate hx ha hbad
    subst hx ha
    exact ⟨congrArg Host.Outcome.next (State.queueEnable_bad false hstate hbad),
      congrArg Host.Outcome.next (State.queueEnable_bad true hstate hbad)⟩
  · intro s hstate
    exact execQueueDisable_enabled hstate

end Sys2Proof.Machine
end

section
/-! PROOFS. Start-up stage by stage, its failures, the restart of the hub controller, an error of a state memory
(16_management_reset_boot.md, R485, R486, R487, R488, R489, R490, R491, 18_errors_faults.md, R546). -/

namespace Sys2Proof.Machine

open Sys2Proof

/-! ## Images loaded (R488, R491) -/

theorem State.setReady_flash {s : State} (hsel : s.getF .pkg Reg.PKG.START_BOOT_SEL = 0) : s.setReady = s.bootSlot.isSome := by
  unfold State.setReady
  rw [hsel]
  rfl

theorem State.setReady_host {s : State} (hsel : s.getF .pkg Reg.PKG.START_BOOT_SEL = 1)
    (haccepted : s.getF .pcie Reg.PCIE.BOOT_STAT_STATE = 3) : s.setReady = true := by
  unfold State.setReady
  rw [hsel, haccepted]
  rfl

/-- The registers of the set that has loaded, RESTORE, the transfer's record, and memory starting. -/
def State.enterRestore (s : State) : State := (s.showSealed.setF .pkg Reg.PKG.START_STATE 2).restoreXfer.memStart

/-- A FLASH boot without a usable slot loads nothing. -/
theorem execImagesLoaded_noSlot {s : State} (hsel : s.getF .pkg Reg.PKG.START_BOOT_SEL = 0) (hslot : s.bootSlot = none) :
    execImagesLoaded s = .next s := by
  have hready : s.setReady = false := by rw [State.setReady_flash hsel, hslot]; rfl
  exact congrArg Host.Outcome.next (if_pos (by simp [hready]))

theorem execImagesLoaded_flash {s : State} {k : Nat} (hstage : s.startState = 1) (hup : s.mg.up = true)
    (hsel : s.getF .pkg Reg.PKG.START_BOOT_SEL = 0) (hslot : s.bootSlot = some k) :
    execImagesLoaded s = .next ((((s.loaded (s.slotChunk k 0)).setF .hctl Reg.HCTL.FW_STAT_RUN_SLOT k).setF .pkg
      Reg.PKG.START_SLOT k).enterRestore) := by
  have hready : s.setReady = true := by rw [State.setReady_flash hsel, hslot]; rfl
  have hmanifest : s.startManifest k = s.slotChunk k 0 := if_pos hsel
  unfold execImagesLoaded
  rw [if_neg (by simp [hstage, hup, hready])]
  simp only [hslot, Option.getD_some, hmanifest, hsel, beq_self_eq_true, if_true]
  rfl

theorem execImagesLoaded_host {s : State} (hstage : s.startState = 1) (hup : s.mg.up = true)
    (hsel : s.getF .pkg Reg.PKG.START_BOOT_SEL = 1) (haccepted : s.getF .pcie Reg.PCIE.BOOT_STAT_STATE = 3) :
    execImagesLoaded s = .next ((s.loaded (s.bootChunk 0)).startPushed.enterRestore) := by
  have hready : s.setReady = true := State.setReady_host hsel haccepted
  have hpushed : s.getF .pkg Reg.PKG.START_BOOT_SEL ≠ 0 := by omega
  have hmanifest : s.startManifest (s.bootSlot.getD 0) = s.bootChunk 0 := if_neg hpushed
  unfold execImagesLoaded
  rw [if_neg (by simp [hstage, hup, hready])]
  simp only [hmanifest, beq_eq_false_iff_ne.2 hpushed, Bool.false_eq_true, if_false]
  rfl

/-- The epoch of the manifest that runs shows. -/
theorem State.epoch_loaded (s : State) (m : List Byte) : (s.loaded m).getF .pkg Reg.PKG.FW_EPOCH_EPOCH = mEpoch m % 2 ^ 32 := by
  have hepoch : Reg.PKG.FW_EPOCH_EPOCH.ok := ⟨by decide, by decide, by decide⟩
  unfold State.loaded
  rw [State.getF_setF_unit _ _ _ _ ⟨by decide, by decide, by decide⟩ hepoch (by decide), State.getF_setF _ _ _ _ hepoch]
  rfl

/-- The active slot of the image store shows. -/
theorem State.activeSlot_loaded (s : State) (m : List Byte) :
    (s.loaded m).getF .hctl Reg.HCTL.FW_STAT_ACTIVE_SLOT = s.mg.flash.active % 2 :=
  State.getF_setF _ _ _ _ ⟨by decide, by decide, by decide⟩

/-! ## Settings restored, READY, failed starts (R487, R488, R489, R490) -/

theorem execSettingsRestored_restore {s a : State} (hstage : s.startState = 2) (hup : s.mg.up = true)
    (ha : a = s.replaySettings.applyFuses.startHealth) :
    execSettingsRestored s =
      .next ((allPorts.foldl State.readmit a.capResolve.enablePorts).railsUp.visitAll.setF .pkg Reg.PKG.START_STATE 3) := by
  subst ha
  exact congrArg Host.Outcome.next (if_neg (by simp [hstage, hup]))

theorem execStartReady_done {s a : State} (hstage : s.startState = 3) (hup : s.mg.up = true) (hdone : s.startDone = true)
    (ha : a = s.setF .pkg Reg.PKG.START_STATE 4) :
    execStartReady s = .next ((a.setPw { a.pw with quietAt := a.elapsed }).raisePkg Evt.PKG.READY) := by
  subst ha
  exact congrArg Host.Outcome.next (if_neg (by simp [hstage, hup, hdone]))

/-- A failed start enters RECOVERY for STRAP and NO_IMAGE, else it is FAILED, and so is the package's own condition. -/
theorem execStartFailed_met {s a : State} {cause : Fin 6} (hup : s.mg.up = true) (hcause : s.startCause cause = true)
    (ha : a = (s.setF .pkg Reg.PKG.START_CAUSE cause).setF .hctl Reg.HCTL.ALERT_STAT_START_FAIL 1) :
    execStartFailed cause s = .next ((if cause.val ≤ 2 then a.setF .pkg Reg.PKG.START_STATE 5
      else (a.setF .pkg Reg.PKG.START_STATE 6).setOwn .pkg (a.setF .pkg Reg.PKG.START_STATE 6).pkgOwn).raisePkg
        Evt.PKG.START_FAIL) := by
  subst ha
  exact congrArg Host.Outcome.next (if_neg (by simp [hup, hcause]))

/-! ## The hub controller restarts (R485, R546) -/

/-- The watchdog of a hub controller that runs its firmware restarts it, which abandons a handover. -/
theorem execHctlWatchdog_running {s : State} (rs : List (Fin 5 × Fin 32)) (hloaded : 2 ≤ s.startState)
    (hrecovery : s.startState ≠ 5) (hruns : s.mg.hcDown = false) :
    execHctlWatchdog rs s = .next ((if s.hcRestart.handingOver then s.hcRestart.levelsBack.fwAbandon 3 rs
      else s.hcRestart).loopFence) :=
  congrArg Host.Outcome.next (if_neg (by simp [Nat.not_lt.2 hloaded, hrecovery, hruns]))

/-- The third restart within 10 s fences the package. -/
theorem State.loopFence_third {s : State} (h : 3 ≤ s.mg.hcLog.length) : s.loopFence = s.doFence 6 := if_pos h

theorem execHctlRestartDone_down {s : State} (h : s.mg.hcDown = true) :
    execHctlRestartDone s = .next (State.hcBack { s with mg := { s.mg with hcDown := false } }) :=
  congrArg Host.Outcome.next (if_neg (by simp [h]))

/-- Settles O46: the stages in order, a failed start, the hub controller's restart, a state memory's error. -/
theorem startUp : Obligations.StartUp := by
  refine ⟨?_, ?_, ?_, ?_, ?_, ?_, ?_, ?_⟩
  · intro s sel hstage hup hsel hset
    rcases hset with hflash | ⟨hhost, haccepted⟩
    · rw [if_pos hflash]
      have hboot := hsel.symm.trans hflash
      cases hslot : s.bootSlot with
      | none => exact execImagesLoaded_noSlot hboot hslot
      | some k => exact execImagesLoaded_flash hstage hup hboot hslot
    · rw [if_neg (by omega)]
      exact execImagesLoaded_host hstage hup (hsel.symm.trans hhost) haccepted
  · intro s m
    exact ⟨rfl, rfl, s.activeSlot_loaded m, s.epoch_loaded m⟩
  · intro s a hstage hup ha
    exact execSettingsRestored_restore hstage hup ha
  · intro s a hstage hup hdone ha
    exact execStartReady_done hstage hup hdone ha
  · intro s a cause hup hcause ha
    exact execStartFailed_met hup hcause ha
  · intro s a b rs log hloaded hrecovery hruns hlog ha hb
    have hrestart : b = s.hcRestart := by
      subst hlog ha
      exact hb
    have hlogged : b.mg.hcLog = log := by
      subst ha hb
      rfl
    have hwatchdog := execHctlWatchdog_running rs hloaded hrecovery hruns
    rw [← hrestart] at hwatchdog
    refine ⟨hwatchdog, fun ⟨hthird, hidle⟩ => hwatchdog.trans (congrArg Host.Outcome.next ?_)⟩
    rw [hidle, if_neg (by decide), State.loopFence_third (by rwa [hlogged])]
  · intro s a hdown ha
    subst ha
    exact execHctlRestartDone_down hdown
  · intro s
    rfl

end Sys2Proof.Machine
end

section
/-! PROOFS. Placement requests, from the write of REQ_CTL to their end; epochs, heat counts, LOST_SCAN and zeroed frames
(07_data_placement.md, R202, R203, R204, R205, R206, R207, R208, R210, R211, R212, R219). -/

namespace Sys2Proof.Machine

open Sys2Proof

/-! ## The write of REQ_CTL (R203) -/

/-- The commands that write REQ_CTL with GO, and the OP each of them writes. -/
def startsRequest (cmd : Instr) (op : Nat) (pin die : Fin 4) (sf : Bool) : Prop :=
  (cmd = .placeAlloc pin die sf ∧ op = 1) ∨ (cmd = .placeFree pin die sf ∧ op = 2) ∨ (cmd = .placeSetPin pin die sf ∧ op = 3) ∨
    (cmd = .placeQuery pin die sf ∧ op = 4) ∨ (cmd = .placeFreeGuests pin die sf ∧ op = 5) ∨
    (∃ v, cmd = .placeReqReserved v pin die sf ∧ op = if v then 7 else 6)

theorem exec_startsRequest {cmd : Instr} {op : Nat} {pin die : Fin 4} {sf : Bool} (h : startsRequest cmd op pin die sf)
    (s : State) : exec cmd s = .next (s.reqStart op pin die sf) := by
  rcases h with ⟨rfl, rfl⟩ | ⟨rfl, rfl⟩ | ⟨rfl, rfl⟩ | ⟨rfl, rfl⟩ | ⟨rfl, rfl⟩ | ⟨v, rfl, rfl⟩ <;> rfl

/-- REQ_CTL as written, and BUSY. -/
def State.showRequest (s : State) (op pin die : Nat) (sf : Bool) : State :=
  ((((s.setF .place Reg.PLACE.REQ_CTL_OP op).setF .place Reg.PLACE.REQ_CTL_PIN pin).setF .place Reg.PLACE.REQ_CTL_DIE die).setF
    .place Reg.PLACE.REQ_CTL_SPILL_FIRST sf.toNat).setF .place Reg.PLACE.REQ_STAT_BUSY 1

/-- The request that the REQ registers describe. -/
def State.newRequest (s : State) (op pin die : Nat) (sf : Bool) : PlaceReq :=
  ⟨op, s.getF .place Reg.PLACE.REQ_PAGE_PAGE, s.getF .place Reg.PLACE.REQ_COUNT_COUNT, pin, die, sf, 0, none, 0, [], [], false,
    false⟩

/-- While no request runs and the hub controller is up, a request is checked and begun at once. -/
theorem State.reqStart_idle {s : State} {op pin die : Nat} {sf : Bool} (hready : s.ready = true)
    (hidle : s.isSet .place Reg.PLACE.REQ_STAT_BUSY = false) (hserves : (s.showRequest op pin die sf).hcAway = false) :
    s.reqStart op pin die sf =
      (s.showRequest op pin die sf).reqServe ((s.showRequest op pin die sf).newRequest op pin die sf) := by
  have hopen : s.pageOpen .place = true := hready
  have hsf : (if sf then 1 else 0) = sf.toNat := by cases sf <;> rfl
  unfold State.showRequest at hserves
  unfold State.reqStart
  rw [if_neg (by simp [hopen, hidle])]
  simp only [hsf, hserves, Bool.false_eq_true, if_false]
  rfl

/-- While a request runs another is ignored. -/
theorem State.reqStart_busy {s : State} (op pin die : Nat) (sf : Bool)
    (hbusy : s.isSet .place Reg.PLACE.REQ_STAT_BUSY = true) : s.reqStart op pin die sf = s :=
  if_pos (by rw [hbusy, Bool.or_true])

/-! ## The check, and what a request begins with (R204, R205, R207, R208) -/

theorem PlaceReq.with_waiting_false {q : PlaceReq} (h : q.waiting = false) : { q with waiting := false } = q := by
  cases q
  simp_all

theorem State.reqServe_refused {s : State} {q : PlaceReq} (hnow : q.waiting = false) (hfails : s.reqCheck q ≠ 0) :
    s.reqServe q = s.reqEnd q (s.reqCheck q) 0 := by
  unfold State.reqServe
  rw [PlaceReq.with_waiting_false hnow]
  exact if_pos hfails

/-- What a request that passes its check begins with. -/
def State.reqBegin (s : State) (q : PlaceReq) : State :=
  match q.op with
  | 1 => if q.spillFirst then s.spillFirstStart q else (s.setReq q).allocStep q true
  | 2 => s.reqEnd q 0 q.count
  | 3 => (s.setReq q).pinStep (2 * q.count + 2)
  | 4 => s.reqEnd q 0 1
  | _ => s.reqEnd q 0 s.mm.guests.length

theorem State.reqServe_passed {s : State} {q : PlaceReq} (hnow : q.waiting = false) (hpasses : s.reqCheck q = 0) :
    s.reqServe q = s.reqBegin q := by
  unfold State.reqServe
  rw [PlaceReq.with_waiting_false hnow]
  exact if_neg (not_not.2 hpasses)

/-- An ALLOC with PIN NONE or LOCAL whose frames are free is to end with OK. -/
theorem State.allocStep_enough {s : State} {q : PlaceReq} (first : Bool) (hpin : q.pin ≠ 2) (henough : q.count ≤ s.freeFrames) :
    s.allocStep q first = s.reqEnd q 0 q.count := by
  unfold State.allocStep
  rw [if_neg hpin]
  exact if_pos henough

/-- The requests that can end as they begin, and their counts. -/
def State.endsAtOnce (s : State) (q : PlaceReq) (n : Nat) : Prop :=
  (q.op = 2 ∧ n = q.count) ∨ (q.op = 4 ∧ n = 1) ∨ (q.op = 5 ∧ n = s.mm.guests.length) ∨
    (q.op = 1 ∧ q.spillFirst = false ∧ q.pin ≠ 2 ∧ q.count ≤ s.freeFrames ∧ n = q.count)

theorem State.reqBegin_atOnce {s : State} {q : PlaceReq} {n : Nat} (h : s.endsAtOnce q n) : s.reqBegin q = s.reqEnd q 0 n := by
  unfold State.reqBegin
  rcases h with ⟨hop, rfl⟩ | ⟨hop, rfl⟩ | ⟨hop, rfl⟩ | ⟨hop, hframes, hpin, henough, rfl⟩
  · simp only [hop]
  · simp only [hop]
  · simp only [hop]
  · have hfree : q.count ≤ (s.setReq q).freeFrames := henough
    simp only [hop, hframes, Bool.false_eq_true, if_false, State.allocStep_enough true hpin hfree]
    rfl

theorem State.reqBegin_setPin {s : State} {q : PlaceReq} (hop : q.op = 3) :
    s.reqBegin q = (s.setReq q).pinStep (2 * q.count + 2) := by
  unfold State.reqBegin
  simp only [hop]

/-! ## The end of a request (R203, R206, R210, R219) -/

/-- A request whose status is known does not go on. -/
theorem State.reqStep_decided {s : State} {q : PlaceReq} {st : Nat} (hreq : s.mm.req = some q) (hstatus : q.status = some st) :
    s.reqStep = s := by
  unfold State.reqStep
  simp only [hreq, hstatus, Option.isSome_some, Bool.true_or, if_true]

theorem State.reqDone_idle {s : State} (hreq : s.mm.req = none) : s.reqDone = s := by
  have hstep : s.reqStep = s := by
    unfold State.reqStep
    rw [hreq]
  unfold State.reqDone
  simp only [hstep, hreq]

/-- A request that is to end with OK ends with OK while what it counted on still stands. -/
theorem State.reqDone_ok {s : State} {q : PlaceReq} (hreq : s.mm.req = some q) (hstatus : q.status = some 0)
    (hserves : s.hcAway = false) (hstands : s.reqReady q = true) : s.reqDone = s.reqFinish q 0 := by
  unfold State.reqDone
  simp only [State.reqStep_decided hreq hstatus, hreq, hserves, hstatus, hstands, Bool.false_eq_true, if_false, if_true]

theorem State.reqDone_failed {s : State} {q : PlaceReq} {st : Nat} (hreq : s.mm.req = some q) (hstatus : q.status = some st)
    (hfails : st ≠ 0) (hserves : s.hcAway = false) : s.reqDone = s.reqFinish q st := by
  unfold State.reqDone
  simp only [State.reqStep_decided hreq hstatus, hreq, hserves, hstatus, Bool.false_eq_true, if_false]

/-- No request runs any more. -/
def State.dropRequest (s : State) : State := { s with mm := { s.mm with req := none } }

/-- The registers of a request that has ended. -/
def State.showEnd (s : State) (done short st : Nat) : State :=
  (((s.setF .place Reg.PLACE.REQ_DONE_PAGES done).setF .place Reg.PLACE.REQ_SHORT_PAGES short).setF .place
    Reg.PLACE.REQ_STAT_STATUS st).setF .place Reg.PLACE.REQ_STAT_BUSY 0

/-- A request that ends with OK has its effect. -/
theorem State.reqFinish_ok {s : State} {q : PlaceReq} (hop : q.op ≠ 5) :
    s.reqFinish q 0 = ((s.dropRequest.reqEffect q).showEnd q.doneOut 0 0).placeCounts := by
  unfold State.reqFinish
  simp only [hop, Nat.zero_ne_one, OfNat.zero_ne_ofNat, decide_false, Bool.or_self, Bool.false_and, Bool.and_false,
    Bool.false_eq_true, if_false, if_true]
  rfl

/-- A request that ends with another status has no effect: an ALLOC without space shows what it lacked, and ALLOC_FAIL is
raised. -/
theorem State.reqFinish_failed {s : State} {q : PlaceReq} {st : Nat} (hfails : st ≠ 0) (hplain : q.spillFirst = false) :
    s.reqFinish q st = ((s.dropRequest.showEnd q.doneOut (if q.op = 1 ∧ (st = 1 ∨ st = 2) then q.count - q.doneOut else 0)
      st).raise .place Evt.PLACE.ALLOC_FAIL).placeCounts := by
  unfold State.reqFinish
  simp only [hfails, hplain, decide_false, Bool.and_false, Bool.false_eq_true, if_false, Bool.and_eq_true, Bool.or_eq_true,
    decide_eq_true_eq]
  rfl

/-- Settles O16: the write of REQ_CTL with the request refused, ended at once, begun or ignored, then the request's end. -/
theorem placementRequestLife : Obligations.PlacementRequestLife := by
  refine ⟨?_, ?_, ?_, ?_, ?_, ?_, ?_⟩
  · intro s a cmd op pin die sf q st hcmd hready hidle hserves ha hq hcheck hfails
    subst ha hq hcheck
    rw [exec_startsRequest hcmd, State.reqStart_idle hready hidle hserves]
    exact congrArg Host.Outcome.next (State.reqServe_refused rfl hfails)
  · intro s a cmd op n pin die sf q hcmd hready hidle hserves ha hq hpasses hends
    have hatOnce : a.endsAtOnce q n := by
      subst hq
      refine hends.imp_right (Or.imp_right (Or.imp_right fun ⟨hop, hsf, hpin, hrest⟩ => ⟨hop, hsf, ?_, hrest⟩))
      exact fun h => hpin (Fin.ext h)
    subst ha hq
    rw [exec_startsRequest hcmd, State.reqStart_idle hready hidle hserves]
    exact congrArg Host.Outcome.next ((State.reqServe_passed rfl hpasses).trans (State.reqBegin_atOnce hatOnce))
  · intro s a pin die sf q cmd op hcmd hready hidle hserves ha hq hpasses hop
    subst ha hq
    rw [exec_startsRequest hcmd, State.reqStart_idle hready hidle hserves]
    exact congrArg Host.Outcome.next ((State.reqServe_passed rfl hpasses).trans (State.reqBegin_setPin hop))
  · intro s cmd op pin die sf hcmd hbusy
    rw [exec_startsRequest hcmd, State.reqStart_busy op pin die sf hbusy]
  · intro s q hreq hstatus hserves hstands hop
    exact congrArg Host.Outcome.next ((State.reqDone_ok hreq hstatus hserves hstands).trans (State.reqFinish_ok hop))
  · intro s q st hreq hstatus hfails hserves hplain
    exact congrArg Host.Outcome.next
      ((State.reqDone_failed hreq hstatus hfails hserves).trans (State.reqFinish_failed hfails hplain))
  · intro s hreq
    exact congrArg Host.Outcome.next (State.reqDone_idle hreq)

/-! ## Counting (R211, R212) -/

/-- The counts of an entry of a translation cache are added to those of its page. -/
def Page.addCounts (p : Page) (e : XEntry) : Page :=
  { p with cnt := p.cnt.plus e.cnt, byFid := e.byFid.foldl (fun m x => m.put x.1 (m.getD x.1 0 + x.2)) p.byFid }

/-- An entry that leaves a translation cache takes its counts to the director's, for a page that is not FREE. -/
theorem State.flushEntry_live {s : State} {c k : Nat} {e : XEntry} (hk : k < 2 ^ 20)
    (hentry : s.mm.xlat.find (c * 2 ^ 20 + k) = some e) (hlive : (s.page k).st ≠ .free) :
    s.flushEntry (c * 2 ^ 20 + k) =
      ({ s with mm := { s.mm with xlat := s.mm.xlat.del (c * 2 ^ 20 + k) } } : State).setPg (.own k)
        ((s.page k).addCounts e) := by
  have hpage : (c * 2 ^ 20 + k) % 2 ^ 20 = k := by omega
  unfold State.flushEntry
  simp only [hentry, hpage]
  exact if_neg hlive

/-- At an epoch's end the caches' counts reach the director, every page's heat takes its counts, and a budget begins. -/
def State.takeCounts (s : State) : State :=
  { s.flushAll with mm := { s.flushAll.mm with
    pages := s.flushAll.mm.pages.map (fun (e : Nat × Page) => (e.1, e.2.epoch))
    guests := s.flushAll.mm.guests.map (fun (e : Nat × Page) => (e.1, e.2.epoch))
    epochBytes := 0 } }

/-- While the hub controller is up, moves start within the epoch's budget. -/
theorem State.epochEnd_serves {s : State} (hserves : s.takeCounts.hcAway = false) :
    s.epochEnd = s.takeCounts.startCands (s.takeCounts.getF .place Reg.PLACE.MIG_BUDGET_GBPS * 1000 *
      s.takeCounts.getF .place Reg.PLACE.EPOCH_US) s.takeCounts.candidates :=
  if_neg (fun h => Bool.false_ne_true (hserves.symm.trans h))

/-! ## LOST_SCAN (R202) -/

/-- LOST_SCAN.FROM is written, and PAGE holds a free value until a page is found. -/
def State.scanLost (s : State) (k : Nat) : State :=
  ((s.setF .place Reg.PLACE.LOST_SCAN_FROM k).setF .place Reg.PLACE.LOST_NEXT_PAGE (Config.freeNat s.freeCtr % 2 ^ 20)).tickFree

theorem State.getF_scanLost_from (s : State) {k : Nat} (hk : k < 2 ^ 20) :
    (s.scanLost k).getF .place Reg.PLACE.LOST_SCAN_FROM = k := by
  have hok : Reg.PLACE.LOST_SCAN_FROM.ok := ⟨by decide, by decide, by decide⟩
  have hticked : (s.scanLost k).getF .place Reg.PLACE.LOST_SCAN_FROM = ((s.setF .place Reg.PLACE.LOST_SCAN_FROM k).setF .place
    Reg.PLACE.LOST_NEXT_PAGE (Config.freeNat s.freeCtr % 2 ^ 20)).getF .place Reg.PLACE.LOST_SCAN_FROM := rfl
  rw [hticked, State.getF_setF_disjoint _ _ (by decide) (by decide) hok (Or.inr (Or.inl (by decide))), State.getF_setF _ _ _ _ hok]
  exact Nat.mod_eq_of_lt hk

/-- LOST_NEXT shows the first LOST page at or above LOST_SCAN.FROM. -/
theorem State.lostNext_found {s : State} {k p : Nat} {x : Page} (hfrom : s.getF .place Reg.PLACE.LOST_SCAN_FROM = k)
    (hfirst : s.mm.pages.find? (fun e => decide (k ≤ e.1) && e.2.st = .lost) = some (p, x)) : s.lostNext = p + 2 ^ 31 := by
  unfold State.lostNext
  simp only [hfrom, hfirst]

theorem execLostScan_ready {s : State} (k : Fin 1048576) (hready : s.ready = true) :
    execLostScan k s = .next (s.scanLost k) := by
  have hopen : s.pageOpen .place = true := hready
  exact congrArg Host.Outcome.next (if_neg (by simp [hopen]))

/-! ## Zeroed frames (R207) -/

/-- A frame being zeroed joins the free frames, and its bytes count as written; what waited for a frame goes on. -/
theorem execFrameZeroDone_zeroing {s a : State} {f : Fin 1048576} (hzeroing : s.mm.zeroing.getD f false = true)
    (ha : a = s.addPair (chanUnit (frameChan f)) Reg.MCHN.WR_BYTES_LO Reg.MCHN.WR_BYTES_HI (2 ^ 21)) :
    execFrameZeroDone f s = .next (((({ a with mm := { a.mm with zeroing := a.mm.zeroing.del f } } : State).retireWaiting
      (frameChan f)).drainAll).reqStep) := by
  subst ha
  exact congrArg Host.Outcome.next (if_neg (by simp [hzeroing]))

/-- Settles O17: an entry flushed, the end of an epoch, LOST_SCAN, a zeroed frame. -/
theorem heatAndScans : Obligations.HeatAndScans := by
  refine ⟨?_, ?_, ?_, ?_⟩
  · intro s c k e x hentry hx hlive
    subst hx
    exact congrArg Host.Outcome.next (State.flushEntry_live k.isLt hentry hlive)
  · intro s a ha hserves
    have htaken : a = s.takeCounts := ha
    subst htaken
    exact congrArg Host.Outcome.next (State.epochEnd_serves hserves)
  · intro s k p x hready hfirst
    have hpages : (s.scanLost k).mm.pages = s.mm.pages := rfl
    exact ⟨s.scanLost k, execLostScan_ready k hready,
      State.lostNext_found (s.getF_scanLost_from k.isLt) (hpages ▸ hfirst), rfl⟩
  · intro s a f hzeroing ha
    exact execFrameZeroDone_zeroing hzeroing ha

end Sys2Proof.Machine
end

section
/-! PROOFS. HELLO frames sent and received, silence, LOAD and EDIT of a destination table (08_fabric_topology.md, R233, R236,
R238, R241, R242, R243, R246, R249, R257). -/

namespace Sys2Proof.Machine

open Sys2Proof

/-! ## HELLO frames sent (R241, R242) -/

/-- Outside a gap and a far-end loopback an unnumbered message leaves an active port at once, with LSEQ 0. -/
theorem State.sendSync_unnumbered {s : State} {p : Fin 16} {m : SyncMsg} (hplain : m.numbered = false)
    (hactive : s.linkActive p = true) (hgap : s.inGap p = false) (hloop : s.farLoop p = false) :
    s.sendSync p m = s.syncEmit p ⟨0, false, m⟩ := by
  have hopen : s.syncOpen p m = true := by unfold State.syncOpen; rw [hgap]; rfl
  have hnow : s.syncFlit p 0 false m = s.syncEmit p ⟨0, false, m⟩ := by
    unfold State.syncFlit
    simp only [hloop, hgap, Bool.false_eq_true, if_false]
  unfold State.sendSync
  simp only [hplain, hactive, hopen, hnow, Bool.not_false, Bool.not_true, Bool.false_eq_true, if_true, if_false]

/-- The next HELLO of a port has the next SEQ. -/
def State.nextHello (s : State) (p : Fin 16) : State :=
  s.setLink p { s.link p with helloSeq := ((s.link p).helloSeq + 1) % 2 ^ 32 }

theorem execHelloSend_now {s : State} {p : Fin 16} (hactive : s.linkActive p = true) (hgap : s.inGap p = false)
    (hloop : s.farLoop p = false) :
    execHelloSend p s = .next ((s.nextHello p).syncEmit p ⟨0, false, .hello (s.helloOf p)⟩) := by
  have hsent : s.sendHello p = (s.nextHello p).syncEmit p ⟨0, false, .hello (s.helloOf p)⟩ :=
    State.sendSync_unnumbered (s := s.nextHello p) (m := .hello (s.helloOf p)) rfl hactive hgap hloop
  unfold execHelloSend
  simp only [hactive, hgap, hloop, hsent, Bool.not_true, Bool.or_self, Bool.false_eq_true, if_false]

/-- A HELLO that falls due in a gap waits for the gap's end. -/
theorem execHelloSend_gap {s : State} {p : Fin 16} (hactive : s.linkActive p = true) (hgap : s.inGap p = true)
    (hloop : s.farLoop p = false) : execHelloSend p s = .next (s.setLink p { s.link p with helloDue := true }) := by
  unfold execHelloSend
  simp only [hactive, hgap, hloop, Bool.not_true, Bool.or_self, Bool.false_eq_true, if_false, if_true]

/-! ## HELLO frames received (R233, R243, R246, R249) -/

/-- A well-formed frame fills the neighbour registers and counts in HELLO_RX; a watched field that differs raises NBR_CHANGE. -/
def State.takeHello (s : State) (p : Fin 16) (h : Hello) : State :=
  let b := (s.storeHello p h).bump (.port p) Reg.PORT.HELLO_RX_COUNT
  if s.nbrDiffers p h then b.raise (.port p) Evt.PORT.NBR_CHANGE else b

/-- The neighbour's SEEN fields name this package and port. -/
def State.seenBy (s : State) (p : Fin 16) (h : Hello) : Bool :=
  h.seenValid && h.seenSerial == s.serial && h.seenPort == p.val

/-- The neighbour is heard, and what its frame says of this port is kept. -/
def State.hearHello (s : State) (p : Fin 16) (h : Hello) : State :=
  s.setLink p { s.link p with
    heard := true, seesUs := s.seenBy p h, seen := true, tr := { (s.link p).tr with serial := h.serial } }

/-- Admission is judged once: by the frame, or by the commit of the port's expectations that comes in its cycle. -/
theorem execHelloReceive_good {s c : State} {p : Fin 16} {hdr : SHdr} {h : Hello} (same : Bool)
    (hactive : s.linkActive p = true) (hgood : helloGood h = true) (hc : c = (s.syncAcked p hdr).takeHello p h) :
    execHelloReceive p hdr h same s = .next (if same then c.hearHello p h
      else (c.hearHello p h).judgeAdmit p (c.seenBy p h)) := by
  subst hc
  unfold execHelloReceive
  simp only [hactive, hgood, Bool.not_true, Bool.false_eq_true, if_false]
  rfl

/-- A malformed frame acknowledges, and otherwise only counts. -/
theorem execHelloReceive_bad {s : State} {p : Fin 16} {h : Hello} (hdr : SHdr) (same : Bool)
    (hactive : s.linkActive p = true) (hbad : helloGood h = false) :
    execHelloReceive p hdr h same s = .next ((s.syncAcked p hdr).bump (.port p) Reg.PORT.HELLO_BAD_COUNT) := by
  unfold execHelloReceive
  simp only [hactive, hbad, Bool.not_true, Bool.not_false, Bool.false_eq_true, if_false, if_true]

/-! ## LOAD and EDIT begin (R238) -/

/-- The commands that write DTAB_CTL, and what each makes the table BUSY with. -/
def startsDtab (cmd : Instr) (h : Fin 2) (n : Nat) : Prop := (cmd = .dtabLoad h ∧ n = 1) ∨ (cmd = .dtabEdit h ∧ n = 2)

/-- From READY on, LOAD or EDIT makes a table BUSY and stages its page; a BUSY table ignores both. -/
theorem exec_startsDtab {cmd : Instr} {h : Fin 2} {n : Nat} {s : State} (hcmd : startsDtab cmd h n) (hready : s.ready = true) :
    exec cmd s = .next (if (s.rout h).dbusy = 0 then (s.dtabBusy h n).stageMark (.rout h) else s) := by
  have hopen : s.pageOpen (.rout h) = true := hready
  have hwritten : exec cmd s = .next (if !s.pageOpen (.rout h) || (s.rout h).dbusy ≠ 0 then s
      else (s.dtabBusy h n).stageMark (.rout h)) := by
    rcases hcmd with ⟨rfl, rfl⟩ | ⟨rfl, rfl⟩ <;> rfl
  rw [hwritten]
  by_cases hidle : (s.rout h).dbusy = 0 <;> simp [hopen, hidle]

theorem State.dtabBusy_pos (s : State) (h : Fin 2) {n : Nat} (hn : n ≠ 0) :
    s.dtabBusy h n = (s.setRout h { s.rout h with dbusy := n }).setF (.rout h) Reg.ROUT.DTAB_STAT_BUSY 1 := by
  unfold State.dtabBusy
  rw [if_neg hn]

/-! ## LOAD and EDIT end (R236, R238, R257) -/

/-- The entry of an EDIT stands in the shadow bank. -/
def State.editEntry (s : State) (h : Fin 2) : State :=
  s.setRout h { s.rout h with
    dshadow := (s.rout h).dshadow.putD (s.getF (.rout h) Reg.ROUT.DTAB_EDIT_ID_FID)
      (s.getW (.rout h) Reg.ROUT.DTAB_EDIT_VAL.off) 0
    dstaged := true, crcs := { (s.rout h).crcs with shadow := true } }

theorem execDtabLoadDone_edit {s : State} {h : Fin 2} (errs : LineErrs) (hedit : (s.rout h).dbusy = 2) :
    execDtabLoadDone h errs s = .next ((s.editEntry h).dtabBusy h 0) :=
  congrArg Host.Outcome.next (if_pos hedit)

/-- A LOAD has ended with a RESULT. -/
def State.showLoad (s : State) (h : Fin 2) (st : Nat) : State :=
  (s.dtabBusy h 0).setF (.rout h) Reg.ROUT.DTAB_STAT_RESULT st

/-- The shadow bank after a LOAD that ended with a RESULT, and the event raised. -/
def State.loadBank (s : State) (h : Fin 2) (src st : Nat) : State :=
  let r := s.rout h
  match st with
  | 0 =>
    let b := s.countImage (.hub h) src (2 ^ 22)
    (b.setRout h { r with dshadow := wordsAt b.mm.mem src (2 ^ 22), dstaged := true, dundef := false,
                          crcs := { r.crcs with shadow := true } }).raise (.rout h) Evt.ROUT.DTAB_LOADED
  | 1 => s.raise (.rout h) Evt.ROUT.DTAB_FAIL
  | _ => (s.setRout h { r with dundef := true, dstaged := true }).raise (.rout h) Evt.ROUT.DTAB_FAIL

/-- A LOAD whose reads find no error that was not known before ends with the status of its image. -/
theorem execDtabLoadDone_load {s : State} {h : Fin 2} {src st : Nat} (hload : (s.rout h).dbusy = 1)
    (hsrc : src = s.getPair (.rout h) Reg.ROUT.DTAB_SRC_LO Reg.ROUT.DTAB_SRC_HI)
    (hst : s.imageStatus src (2 ^ 22) 4096 = st) :
    execDtabLoadDone h [] s = .next ((s.showLoad h st).loadBank h src st) := by
  unfold execDtabLoadDone
  simp only [hload, ← hsrc, State.findErrs_nil, ite_self, hst, if_true]
  rcases st with _ | _ | st <;> rfl

/-- Settles O19: HELLO frames sent, received and missed, then LOAD and EDIT from their start to their end. -/
theorem helloFramesAndDestinationTables : Obligations.HelloFramesAndDestinationTables := by
  refine ⟨?_, ?_, ?_, ?_, ?_, ?_, ?_, ?_⟩
  · intro s a b p hactive hgap hloop ha hb
    subst ha hb
    exact execHelloSend_now hactive hgap hloop
  · intro s p hactive hgap hloop
    exact execHelloSend_gap hactive hgap hloop
  · intro s a b c d p hdr h sees same hactive ha hgood hd hb hc hsees
    have hstored : a.storeHello p h = if h.kind = 1 then d
        else (d.setF (.port p) Reg.PORT.NBR_INFO_DIMS h.dims).setF (.port p) Reg.PORT.NBR_POS_POS h.pos := by
      subst hd
      rfl
    have htaken : c = (s.syncAcked p hdr).takeHello p h := by
      rw [hc, hb, ← hstored, ha]
      rfl
    have hseen : sees = c.seenBy p h := hsees
    subst hseen
    exact execHelloReceive_good same hactive hgood htaken
  · intro s p hdr h same hactive hbad
    exact execHelloReceive_bad hdr same hactive hbad
  · intro s p _
    rfl
  · intro s h cmd n hcmd hready
    have hn : n ≠ 0 := by omega
    rw [exec_startsDtab hcmd hready, State.dtabBusy_pos s h hn]
  · intro s a h hedit ha
    subst ha
    exact execDtabLoadDone_edit [] hedit
  · intro s a b h src st hload hsrc hst ha hb
    subst ha hb
    refine (execDtabLoadDone_load hload hsrc hst).trans (congrArg Host.Outcome.next ?_)
    rcases st with _ | _ | st <;> rfl

end Sys2Proof.Machine
end

section
/-! PROOFS. Flits and their kinds, the fields of a LINK flit, the codewords of a comma group (09_fabric_links.md, R261, R263,
R264). -/

namespace Sys2Proof

open Sys2Proof.Machine

/-! ## CRC-32C stays within 32 bits -/

theorem crcBit_lt {c : Nat} (hc : c < 2 ^ 32) : crcBit c < 2 ^ 32 := by
  unfold crcBit
  split
  · exact Nat.xor_lt_two_pow (by omega) (by decide)
  · omega

theorem crcByte_lt {c : Nat} (hc : c < 2 ^ 32) (b : Byte) : crcByte c b < 2 ^ 32 := by
  have hb : b.toNat < 2 ^ 32 := b.isLt.trans (by decide)
  have hstart : c ^^^ b.toNat < 2 ^ 32 := Nat.xor_lt_two_pow hc hb
  unfold crcByte
  iterate 8 apply crcBit_lt
  exact hstart

theorem foldl_crcByte_lt {c : Nat} (hc : c < 2 ^ 32) (bs : List Byte) : bs.foldl crcByte c < 2 ^ 32 := by
  induction bs generalizing c with
  | nil => exact hc
  | cons b bs ih => exact ih (crcByte_lt hc b)

theorem crc32c_lt (bs : List Byte) : crc32c bs < 2 ^ 32 :=
  Nat.xor_lt_two_pow (foldl_crcByte_lt (by decide) bs) (by decide)

/-! ## Flits and kinds (R261) -/

theorem mask_lt (k : FlitKind) : k.mask < 2 ^ 32 := by
  cases k <;> decide

/-- The kind found is the one whose mask the check field differs from the CRC by. -/
theorem flitKind_eq_some_iff_mask {f : List Byte} {k : FlitKind} :
    flitKind f = some k ↔ crc32c (flitBody f) ^^^ leNat ((f.drop 60).take 4) = k.mask := by
  unfold flitKind
  constructor
  · intro h
    split at h <;> cases h <;> assumption
  · intro h
    rw [h]
    cases k <;> rfl

theorem flitKind_eq_some_iff {f : List Byte} {k : FlitKind} :
    flitKind f = some k ↔ crc32c (flitBody f) ^^^ k.mask = leNat ((f.drop 60).take 4) := by
  rw [flitKind_eq_some_iff_mask]
  exact ⟨fun h => by rw [← h, Nat.xor_xor_cancel_left], fun h => by rw [← h, Nat.xor_xor_cancel_left]⟩

theorem flitBody_flitOf (k : FlitKind) {body : List Byte} (h : body.length = 60) : flitBody (flitOf k body) = body :=
  List.take_left' h

/-- The check field of a flit is the CRC of its body XORed with its kind's mask. -/
theorem check_flitOf (k : FlitKind) {body : List Byte} (h : body.length = 60) :
    leNat (((flitOf k body).drop 60).take 4) = crc32c body ^^^ k.mask := by
  have hdrop : (flitOf k body).drop 60 = leBytes 4 (crc32c body ^^^ k.mask) := List.drop_left' h
  have hlt : crc32c body ^^^ k.mask < 256 ^ 4 := Nat.xor_lt_two_pow (n := 32) (crc32c_lt body) (mask_lt k)
  rw [hdrop, List.take_of_length_le (length_leBytes 4 _).le, leNat_leBytes, Nat.mod_eq_of_lt hlt]

theorem flitKind_flitOf (k : FlitKind) {body : List Byte} (h : body.length = 60) : flitKind (flitOf k body) = some k := by
  rw [flitKind_eq_some_iff, flitBody_flitOf k h, check_flitOf k h]

/-! ## LINK flits (R264) -/

theorem bit_lt_two (b : Bool) : (if b then 1 else 0) < 2 := by
  cases b <;> decide

/-- A LINK flit's fields, as a number: the bytes hold all of it. -/
theorem leNat_linkBody {t a b : Nat} (nak : Bool) (ht : t < 64) (ha : a < 2 ^ 20) (hb : b < 2 ^ 448) :
    leNat (linkBody t a nak b) = t + a * 2 ^ 6 + (if nak then 1 else 0) * 2 ^ 26 + b * 2 ^ 32 := by
  have hnak : boolAt nak 26 = (if nak then 1 else 0) * 2 ^ 26 := by cases nak <;> rfl
  unfold linkBody bitAt
  have hbit := bit_lt_two nak
  rw [leNat_leBytes, hnak]
  omega

/-! ## Comma blocks (R263) -/

theorem testBit_bitsOf (w hi lo i : Nat) (h : i < hi + 1 - lo) : (bitsOf w hi lo).testBit i = w.testBit (lo + i) := by
  unfold bitsOf
  rw [Nat.testBit_mod_two_pow, Nat.testBit_div_two_pow]
  simp [h, Nat.add_comm]

/-- Settles O26: the check field by the XOR of CRC and mask, the fields of a LINK flit and of a comma block by their bits. -/
theorem flitsAndLinkBodies : Obligations.FlitsAndLinkBodies := by
  refine ⟨?_, ?_, ?_, ?_⟩
  · intro k body h
    exact ⟨by rw [flitOf, List.length_append, h, length_leBytes], flitBody_flitOf k h, flitKind_flitOf k h⟩
  · intro f k
    exact flitKind_eq_some_iff
  · intro t a b nak w ht ha hb hw
    rw [leNat_linkBody nak ht ha hb] at hw
    have hbit := bit_lt_two nak
    refine ⟨length_leBytes 60 _, ?_, ?_, ?_, ?_, ?_⟩ <;> unfold bitsOf <;> omega
  · intro j i
    refine testBit_bitsOf commaBlock _ _ i ?_
    omega

end Sys2Proof
end

section
/-! PROOFS. Links that drop, LINK_CTL and the PRBS patterns of a port (09_fabric_links.md, R271, R273, R276, R278, R286). -/

namespace Sys2Proof.Machine

open Sys2Proof

/-! ## Links that drop (R273) -/

/-- An ACTIVE link drops: outside a gap its laser has carried it until now, the drop is counted and its cause recorded, bring-up
starts again. -/
theorem State.linkDrop_active {s : State} {p : Fin 16} (cause : Nat) (hactive : s.linkActive p = true) :
    s.linkDrop p cause =
      (((((((if s.inGap p = true then s else s.carriedNow p).bump (.port p) Reg.PORT.LINK_DOWN_COUNT).setF (.port p)
        Reg.PORT.LINK_STAT_CAUSE cause).toStep1 p).raise (.port p) Evt.PORT.LINK_DOWN).detourAll p).readmit p) := by
  unfold State.linkDrop
  simp only [hactive, Bool.not_true, Bool.false_eq_true, if_false]

theorem State.linkDrop_outside_gap {s : State} {p : Fin 16} (cause : Nat) (hactive : s.linkActive p = true)
    (hgap : s.inGap p = false) :
    s.linkDrop p cause =
      ((((((s.carriedNow p).bump (.port p) Reg.PORT.LINK_DOWN_COUNT).setF (.port p)
        Reg.PORT.LINK_STAT_CAUSE cause).toStep1 p).raise (.port p) Evt.PORT.LINK_DOWN).detourAll p).readmit p := by
  rw [State.linkDrop_active cause hactive, hgap, if_neg Bool.false_ne_true]

theorem State.linkDrop_inactive {s : State} {p : Fin 16} (cause : Nat) (hdown : s.linkActive p = false) :
    s.linkDrop p cause = s := by
  unfold State.linkDrop
  rw [hdown, Bool.not_false, if_pos rfl]

theorem State.retrainFor_active {s : State} {p : Fin 16} (cause : Nat) (hactive : s.linkActive p = true) :
    s.retrainFor p cause = s.linkDrop p cause := if_pos hactive

theorem State.relink_active {s : State} {p : Fin 16} (cause : Nat) (hactive : s.linkActive p = true) :
    s.relink p cause = s.linkDrop p cause := if_pos hactive

/-! ## LINK_CTL (R271, R273, R276, R286) -/

/-- From READY on a port's page answers. -/
theorem State.pageOpen_port {s : State} (p : Fin 16) (hready : s.ready = true) : s.pageOpen (.port p) = true := hready

theorem execLinkEnableWrite_on {s : State} {p : Fin 16} (hready : s.ready = true)
    (hoff : s.isSet (.port p) Reg.PORT.LINK_CTL_ENABLE = false) :
    execLinkEnableWrite p true s = .next ((s.setF (.port p) Reg.PORT.LINK_CTL_ENABLE 1).toStep1 p) := by
  unfold execLinkEnableWrite
  simp [State.pageOpen_port p hready, hoff]

/-- Outside a gap, ENABLE written 0 takes the link down at once, and admission is judged again. -/
theorem execLinkEnableWrite_off {s : State} {p : Fin 16} (hready : s.ready = true)
    (hon : s.isSet (.port p) Reg.PORT.LINK_CTL_ENABLE = true)
    (hgap : (s.setF (.port p) Reg.PORT.LINK_CTL_ENABLE 0).inGap p = false) :
    execLinkEnableWrite p false s = .next (((s.setF (.port p) Reg.PORT.LINK_CTL_ENABLE 0).relink p 9).readmit p) := by
  unfold execLinkEnableWrite
  simp [State.pageOpen_port p hready, hon, hgap]

theorem execLinkRetrain_outside_gap {s : State} {p : Fin 16} (hready : s.ready = true) (hgap : s.inGap p = false) :
    execLinkRetrain p s = .next (s.linkDrop p 6) := by
  unfold execLinkRetrain
  simp [State.pageOpen_port p hready, hgap]

theorem execLinkRetrain_in_gap {s : State} {p : Fin 16} (hready : s.ready = true) (hgap : s.inGap p = true) :
    execLinkRetrain p s = .next (s.setLink p { s.link p with heldRetrain := true }) := by
  unfold execLinkRetrain
  simp [State.pageOpen_port p hready, hgap]

theorem execLinkTestSelect_in_gap {s : State} {p : Fin 16} {v : Fin 8} (hready : s.ready = true) (hgap : s.inGap p = true)
    (hv : v.val < 5) : execLinkTestSelect p v s = .next (s.setLink p { s.link p with heldTest := some v.val }) := by
  unfold execLinkTestSelect
  simp [State.pageOpen_port p hready, hgap, hv]

theorem execLinkTestSelect_outside_gap {s : State} {p : Fin 16} {v : Fin 8} (hready : s.ready = true)
    (hgap : s.inGap p = false) (hv : v.val < 5) : execLinkTestSelect p v s = .next (s.selectTest p v.val) := by
  unfold execLinkTestSelect
  simp [State.pageOpen_port p hready, hgap, hv]

/-- Leaving FAR while codewords run sends LOOP_EXIT. -/
def State.leaveFar (s : State) (p : Fin 16) : State :=
  if s.testMode p = 3 ∧ s.codewords p = true then s.sendLink p 0x04 false 0 else s

/-- Another TEST value, on a port that is neither ADMITTED nor HALF and has no ACTIVE link: bring-up starts again and the
checkers lose lock. -/
theorem State.selectTest_inactive {s : State} {p : Fin 16} {v : Nat} (hv : v < 5)
    (hadmit : s.admitState p ≠ 3 ∧ s.admitState p ≠ 4) (hother : v ≠ s.testMode p)
    (hdown : (s.leaveFar p).linkActive p = false) :
    s.selectTest p v = ((((s.leaveFar p).setF (.port p) Reg.PORT.LINK_CTL_TEST v).toStep1 p).setF (.port p)
      Reg.PORT.PRBS_STAT_LOCKED 0).readmit p := by
  have hleave : (if s.testMode p = 3 && s.codewords p then s.sendLink p 0x04 false 0 else s) = s.leaveFar p := by
    unfold State.leaveFar
    simp
  have htaken : ¬ (5 ≤ v || (v ≠ 0 && (s.admitState p = 3 || s.admitState p = 4)) || v = s.testMode p : Bool) := by
    simp [hv, hadmit, hother]
  unfold State.selectTest
  simp only [htaken, hleave, State.linkDrop_inactive 8 hdown, ite_self, Bool.false_eq_true, if_false]

/-! ## PRBS (R278) -/

/-- What PRBS_CFG holds once it is written. -/
def State.prbsFields (s : State) (p : Fin 16) (pat : Fin 4) (gen chk : Bool) (lanes : BitVec 8) : State :=
  (((s.setF (.port p) Reg.PORT.PRBS_CFG_PATTERN pat).setF (.port p) Reg.PORT.PRBS_CFG_GEN gen.toNat).setF (.port p)
    Reg.PORT.PRBS_CFG_CHK chk.toNat).setF (.port p) Reg.PORT.PRBS_CFG_LANES lanes.toNat

theorem execPrbsConfigWrite_off {s : State} {p : Fin 16} (pat : Fin 4) (gen : Bool) (lanes : BitVec 8)
    (hready : s.ready = true) :
    execPrbsConfigWrite p pat gen false lanes s =
      .next ((s.prbsFields p pat gen false lanes).setF (.port p) Reg.PORT.PRBS_STAT_LOCKED 0) := by
  unfold execPrbsConfigWrite State.prbsFields
  simp [State.pageOpen_port p hready]

/-- CHK clears the bits checked. -/
def State.prbsFresh (s : State) (p : Fin 16) (pat : Fin 4) (gen : Bool) (lanes : BitVec 8) : State :=
  (s.prbsFields p pat gen true lanes).setPair (.port p) Reg.PORT.PRBS_BITS_LO Reg.PORT.PRBS_BITS_HI 0

/-- Another pattern: every checker starts anew. -/
theorem execPrbsConfigWrite_other {s : State} {p : Fin 16} {pat : Fin 4} (gen : Bool) (lanes : BitVec 8)
    (hready : s.ready = true) (hother : s.getF (.port p) Reg.PORT.PRBS_CFG_PATTERN ≠ pat.val) :
    execPrbsConfigWrite p pat gen true lanes s =
      .next ((s.prbsFresh p pat gen lanes).setF (.port p) Reg.PORT.PRBS_STAT_LOCKED 0) := by
  unfold execPrbsConfigWrite State.prbsFresh State.prbsFields
  simp [State.pageOpen_port p hready, hother]

/-- The same pattern: lanes that are checked still keep their lock. -/
theorem execPrbsConfigWrite_same {s : State} {p : Fin 16} {pat : Fin 4} (gen : Bool) (lanes : BitVec 8)
    (hready : s.ready = true) (hsame : s.getF (.port p) Reg.PORT.PRBS_CFG_PATTERN = pat.val) :
    execPrbsConfigWrite p pat gen true lanes s =
      .next ((s.prbsFresh p pat gen lanes).setF (.port p) Reg.PORT.PRBS_STAT_LOCKED
        ((s.prbsFresh p pat gen lanes).getF (.port p) Reg.PORT.PRBS_STAT_LOCKED &&& lanes.toNat)) := by
  unfold execPrbsConfigWrite State.prbsFresh State.prbsFields
  simp [State.pageOpen_port p hready, hsame]

theorem execPrbsLock_locked {s : State} {p : Fin 16} {lane : Fin 8} (bits errs : Nat) (hon : s.prbsOn p lane = true)
    (hlocked : s.getF (.port p) Reg.PORT.PRBS_STAT_LOCKED / 2 ^ lane.val % 2 = 1) :
    execPrbsLock p lane bits errs s = .next (s.prbsCount p lane bits errs) := by
  unfold execPrbsLock
  simp [hon, hlocked]

theorem execPrbsLock_unlocked {s : State} {p : Fin 16} {lane : Fin 8} (bits errs : Nat) (hon : s.prbsOn p lane = true)
    (hfree : s.getF (.port p) Reg.PORT.PRBS_STAT_LOCKED / 2 ^ lane.val % 2 ≠ 1) :
    execPrbsLock p lane bits errs s =
      .next (s.setF (.port p) Reg.PORT.PRBS_STAT_LOCKED (s.getF (.port p) Reg.PORT.PRBS_STAT_LOCKED ||| 2 ^ lane.val)) := by
  unfold execPrbsLock
  simp only [hon, Bool.not_true, Bool.false_eq_true, if_false, if_neg hfree]

theorem execPrbsLockLoss_locked {s : State} {p : Fin 16} {lane : Fin 8} (bits errs : Nat) (hon : s.prbsOn p lane = true)
    (hlocked : s.getF (.port p) Reg.PORT.PRBS_STAT_LOCKED / 2 ^ lane.val % 2 = 1) :
    execPrbsLockLoss p lane bits errs s =
      .next ((s.setF (.port p) Reg.PORT.PRBS_STAT_LOCKED
        (s.getF (.port p) Reg.PORT.PRBS_STAT_LOCKED - 2 ^ lane.val)).prbsCount p lane bits errs) := by
  unfold execPrbsLockLoss
  simp [hon, hlocked]

/-- Settles O20: ENABLE, RETRAIN and TEST outside and inside a gap, then PRBS_CFG and the checkers. -/
theorem linkControls : Obligations.LinkControls := by
  refine ⟨?_, ?_, ?_, ?_, ?_, ?_, ?_, ?_, ?_, ?_, ?_⟩
  · intro s p hready hoff
    exact execLinkEnableWrite_on hready hoff
  · intro s a p hready hon ha hgap hactive
    subst ha
    refine (execLinkEnableWrite_off hready hon hgap).trans ?_
    rw [State.relink_active 9 hactive, State.linkDrop_outside_gap 9 hactive hgap]
  · intro s p hready hgap hactive
    exact (execLinkRetrain_outside_gap hready hgap).trans
      (congrArg Host.Outcome.next (State.linkDrop_outside_gap 6 hactive hgap))
  · intro s p v hready hgap hv
    exact ⟨execLinkRetrain_in_gap hready hgap, execLinkTestSelect_in_gap hready hgap hv⟩
  · intro s a b p v hready hgap hv hadmit hother hb hdown ha
    have hleft : b = s.leaveFar p := hb
    subst hleft ha
    exact (execLinkTestSelect_outside_gap hready hgap hv).trans
      (congrArg Host.Outcome.next (State.selectTest_inactive hv hadmit hother hdown))
  · intro s a p pat gen lanes hready ha
    subst ha
    exact execPrbsConfigWrite_off pat gen lanes hready
  · intro s a p pat gen lanes hready hother ha
    subst ha
    exact execPrbsConfigWrite_other gen lanes hready hother
  · intro s a p pat gen lanes hready hsame ha
    subst ha
    exact execPrbsConfigWrite_same gen lanes hready hsame
  · intro s p lane bits errs hon hlocked
    exact execPrbsLock_locked bits errs hon hlocked
  · intro s p lane bits errs hon hfree
    exact execPrbsLock_unlocked bits errs hon hfree
  · intro s a p lane bits errs locked hon hlocked hset ha
    subst hlocked ha
    exact execPrbsLockLoss_locked bits errs hon hset

end Sys2Proof.Machine
end

section
/-! PROOFS. Bring-up of a link, from training frames to ACTIVE (09_fabric_links.md, 10_fabric_routing.md, R262, R269, R270, R271,
R272, R303). -/

namespace Sys2Proof.Machine

open Sys2Proof

/-! ## Training frames (R270) -/

/-- A training frame shows its lane's received power, and from step 2 on whether the lane is locked. -/
def State.laneSeen (s : State) (p : Fin 16) (lane : Fin 8) (w : BitVec 16) (rx : LaneRx) : State :=
  let a := s.setF (.port p) (Reg.PORT.LANE_RXPWR_DBM lane) w.toNat
  if (s.link p).step < 2 then a.setF (.port p) Reg.PORT.LINK_STAT_RX_LOCK (a.getF (.port p) Reg.PORT.LINK_STAT_RX_LOCK)
  else a.setF (.port p) Reg.PORT.LINK_STAT_RX_LOCK
    (laneBit (BitVec.ofNat 8 (a.getF (.port p) Reg.PORT.LINK_STAT_RX_LOCK)) lane rx.locked).toNat

/-- The frame's status fields are the partner's, in near-end loopback the port's own. -/
def State.frameSeen (s : State) (p : Fin 16) (lane : Fin 8) (f : TrainFrame) (w : BitVec 16) (rx : LaneRx) : State :=
  (s.laneSeen p lane w rx).setLink p { s.link p with
    partner := if (s.laneSeen p lane w rx).nearTest p then s.ownFrame p else f
    tr := (s.link p).tr.lane (s.link p).step lane rx }

theorem execTrainingFrame_training {s c : State} {p : Fin 16} {lane : Fin 8} {f : TrainFrame} {w : BitVec 16} {rx : LaneRx}
    (hon : s.linkState p ≠ 0) (hstep : (s.link p).step < 5) (hc : c = s.frameSeen p lane f w rx) :
    execTrainingFrame p lane f w rx s =
      .next ((if c.ownFrame p = s.ownFrame p then c else c.sendFrame p).startCodewords p) := by
  have hlane : s.laneSeen p lane w rx = (s.setF (.port p) (Reg.PORT.LANE_RXPWR_DBM lane) w.toNat).setF (.port p)
      Reg.PORT.LINK_STAT_RX_LOCK (if (s.link p).step < 2 then
          (s.setF (.port p) (Reg.PORT.LANE_RXPWR_DBM lane) w.toNat).getF (.port p) Reg.PORT.LINK_STAT_RX_LOCK
        else (laneBit (BitVec.ofNat 8 ((s.setF (.port p) (Reg.PORT.LANE_RXPWR_DBM lane) w.toNat).getF (.port p)
          Reg.PORT.LINK_STAT_RX_LOCK)) lane rx.locked).toNat) := by
    unfold State.laneSeen
    split <;> rfl
  have htaken : ¬ (s.linkState p = 0 || 5 ≤ (s.link p).step : Bool) := by simp [hon, hstep]
  subst hc
  unfold execTrainingFrame
  simp only [htaken, ← hlane, Bool.false_eq_true, if_false]
  rfl

theorem State.startCodewords_ready {s : State} {p : Fin 16} (hstep : s.atStep p 4 = true) (hown : (s.ownFrame p).ready = true)
    (hpartner : (s.link p).partner.ready = true) :
    s.startCodewords p = if (s.link p).fr.txCw = 0 then (s.sendFrame p).txCodewords p 1 else s := by
  unfold State.startCodewords
  simp [hstep, hown, hpartner]

/-! ## Steps 1 to 4 (R271) -/

/-- Outside TEST an enabled port shows the step it is at. -/
theorem State.showStep_enabled {s : State} {p : Fin 16} (step : Nat)
    (hon : s.isSet (.port p) Reg.PORT.LINK_CTL_ENABLE = true) (hplain : s.isSet (.port p) Reg.PORT.LINK_CTL_TEST = false) :
    s.showStep p step = (s.setLink p { s.link p with
      step := step
      tr := if step = 2 then { (s.link p).tr with cur := if s.calStored p then (s.link p).tr.eq else [] } else (s.link p).tr }).setF
        (.port p) Reg.PORT.LINK_STAT_STATE step := by
  have hon' : ∀ l, (s.setLink p l).isSet (.port p) Reg.PORT.LINK_CTL_ENABLE = true := fun _ => hon
  have hplain' : ∀ l, (s.setLink p l).isSet (.port p) Reg.PORT.LINK_CTL_TEST = false := fun _ => hplain
  unfold State.showStep
  simp only [hon', hplain', Bool.not_true, Bool.false_eq_true, if_false]

theorem execLinkSignalDetected_step1 {s : State} {p : Fin 16} (hstep : s.atStep p 1 = true) :
    execLinkSignalDetected p s = .next ((s.showStep p 2).sendFrame p) := by
  unfold execLinkSignalDetected
  rw [if_pos hstep]

theorem execLinkTrained_both {s : State} {p : Fin 16} (hstep : s.atStep p 2 = true) (hown : (s.link p).tr.trained = 0xFF)
    (hpartner : (s.link p).partner.trained = 0xFF) (hplain : (s.link p).partner.test = false) :
    execLinkTrained p s = .next ((s.showStep p 3).sendFrame p) := by
  unfold execLinkTrained
  simp [hstep, hown, hpartner, hplain]

theorem execLinkCdrLocked_both {s : State} {p : Fin 16} (hstep : s.atStep p 3 = true) (hown : (s.ownFrame p).locked = true)
    (hpartner : (s.link p).partner.locked = true) : execLinkCdrLocked p s = .next ((s.showStep p 4).sendFrame p) := by
  unfold execLinkCdrLocked
  simp [hstep, hown, hpartner]

/-- Codewords run both ways: what belongs to an attempt starts anew. -/
def State.exchangeBegun (s : State) (p : Fin 16) : State :=
  let b := s.showStep p 5
  b.setLink p { b.link p with
    capRx := false, capAcked := false, rxNum := 0, fr := { Framing.init with rxCw := 8, txCw := (b.link p).fr.txCw } }

theorem execLinkAligned_both {s : State} {p : Fin 16} (hstep : s.atStep p 4 = true) (hown : (s.ownFrame p).ready = true)
    (hpartner : (s.link p).partner.ready = true) (hsent : 0 < (s.link p).fr.txCw)
    (hplain : (s.exchangeBegun p).testMode p = 0) : execLinkAligned p s = .next ((s.exchangeBegun p).sendCap p) := by
  have hfar : ¬ (s.exchangeBegun p).testMode p = 3 := by rw [hplain]; decide
  have htaken : (s.atStep p 4 && (s.ownFrame p).ready && (s.link p).partner.ready && 0 < (s.link p).fr.txCw : Bool) = true := by
    simp [hstep, hown, hpartner, hsent]
  unfold execLinkAligned
  rw [if_pos htaken]
  exact congrArg Host.Outcome.next (if_neg hfar)

/-! ## Capability exchange (R272) -/

/-- Before the link carries flits a LINK flit releases nothing. -/
theorem State.linkRx_before {s : State} {p : Fin 16} (ack : Nat) (hbefore : s.running p = false) : s.linkRx p ack = s := by
  unfold State.linkRx
  rw [hbefore, if_neg Bool.false_ne_true]

/-- The neighbour's fields hold its capabilities. -/
def State.nbrCap (s : State) (p : Fin 16) (lv mn : BitVec 8) (idle fl : Bool) : State :=
  (((s.setF (.port p) Reg.PORT.CAP_NBR_LEVEL lv.toNat).setF (.port p) Reg.PORT.CAP_NBR_MIN_LEVEL mn.toNat).setF (.port p)
    Reg.PORT.CAP_NBR_IDLE idle.toNat).setF (.port p) Reg.PORT.CAP_NBR_FAR_LOOP fl.toNat

/-- A CAP flit that the port takes is judged by the levels of both ends. -/
theorem execCapFlit_step5 {s0 s a : State} {p : Fin 16} {ack : Fin 1048576} {lv mn : BitVec 8} {idle fl : Bool}
    (hself : s0.fromSelf p (fun g => g == flitOf .link (linkBody 0x01 ack false (capBody lv.toNat mn.toNat idle fl))) = some s)
    (hstep : s.atStep p 5 = true) (hbefore : s.running p = false) (ha : a = s.nbrCap p lv mn idle fl) :
    execCapFlit p ack lv mn idle fl s0 = .next (
      if min (a.getF (.port p) Reg.PORT.CAP_OWN_LEVEL) lv.toNat < max (a.getF (.port p) Reg.PORT.CAP_OWN_MIN_LEVEL) mn.toNat then
        if a.running p then a else (a.failStep p 7).raise (.port p) Evt.PORT.CAP_FAIL
      else (a.setLink p { a.link p with capRx := true }).sendLink p 0x00 false 0) := by
  subst ha
  unfold execCapFlit
  simp only [hself, State.linkRx_before _ hbefore, hstep, Bool.not_true, Bool.false_and, Bool.false_eq_true, if_false]
  rfl

/-! ## Up, or failed (R262, R269, R271, R303) -/

/-- Numbers, limits and logs of a link that starts. -/
def State.numbersReset (s : State) (p : Fin 16) : State :=
  s.setLink p { s.link p with
    txNum := 0, rxNum := 0, rxFlits := [], advert := [], sent := [], limit := [], replay := [], sTx := 0, sRx := 0, sOut := []
    sDue := false, sNak := false, ueLog := [] }

theorem execLinkUp_seen {s : State} {p : Fin 16} (hstep : s.atStep p 5 = true) (hrx : (s.link p).capRx = true)
    (hacked : (s.link p).capAcked = true) (hactive : (((s.numbersReset p).showStep p 6).sendCredit p).linkActive p = true) :
    execLinkUp p s =
      .next (((((s.numbersReset p).showStep p 6).sendCredit p).raise (.port p) Evt.PORT.LINK_UP).readmit p) := by
  have htaken : ¬ (!s.atStep p 5 || !(s.link p).capRx || !(s.link p).capAcked : Bool) := by simp [hstep, hrx, hacked]
  have hup : ¬ (!(((s.numbersReset p).showStep p 6).sendCredit p).linkActive p : Bool) := by simp [hactive]
  unfold execLinkUp
  refine (congrArg Host.Outcome.next (if_neg htaken)).trans ?_
  exact congrArg Host.Outcome.next (if_neg hup)

theorem execLinkStepTimeout_bringUp {s : State} {p : Fin 16} (hon : s.linkState p ≠ 0) (hloop : s.farLoop p = false)
    (hlo : 1 ≤ (s.link p).step) (hhi : (s.link p).step ≤ 5) :
    execLinkStepTimeout p s = .next (s.failStep p (10 + (s.link p).step)) := by
  have htaken : ¬ (s.linkState p = 0 || (s.link p).step < 1 || 5 < (s.link p).step || s.farLoop p : Bool) := by
    simp [hon, hloop]
    omega
  unfold execLinkStepTimeout
  exact congrArg Host.Outcome.next (if_neg htaken)

/-- Settles O21: training frames, the steps in order, the capabilities of both ends, then ACTIVE or a failed attempt. -/
theorem linkBringUp : Obligations.LinkBringUp := by
  refine ⟨?_, ?_, ?_, ?_, ?_, ?_, ?_, ?_, ?_, ?_⟩
  · intro s a b c p lane f w rx hon hstep ha hb hc
    have hseen : b = s.laneSeen p lane w rx := by rw [hb, ha]; rfl
    subst hseen
    exact execTrainingFrame_training hon hstep hc
  · intro s p hstep hown hpartner
    exact State.startCodewords_ready hstep hown hpartner
  · intro s p hstep hon hplain
    refine (execLinkSignalDetected_step1 hstep).trans ?_
    rw [State.showStep_enabled 2 hon hplain]
    rfl
  · intro s p hstep hon hplain hown hpartner htest
    refine (execLinkTrained_both hstep hown hpartner htest).trans ?_
    rw [State.showStep_enabled 3 hon hplain]
    rfl
  · intro s p hstep hon hplain hown hpartner
    refine (execLinkCdrLocked_both hstep hown hpartner).trans ?_
    rw [State.showStep_enabled 4 hon hplain]
    rfl
  · intro s a b p hstep hon hplain hown hpartner hsent hb ha htest
    have hshown : b = s.showStep p 5 := by
      rw [hb, State.showStep_enabled 5 hon hplain]
      rfl
    subst hshown ha
    exact execLinkAligned_both hstep hown hpartner hsent htest
  · intro s0 s a p ack lv mn idle fl hself hstep hbefore ha hlevels
    exact (execCapFlit_step5 hself hstep hbefore ha).trans (congrArg Host.Outcome.next (if_neg (not_lt.2 hlevels)))
  · intro s0 s a p ack lv mn idle fl hself hstep hbefore ha hstill hlevels
    refine (execCapFlit_step5 hself hstep hbefore ha).trans (congrArg Host.Outcome.next ?_)
    rw [if_pos hlevels, hstill, if_neg Bool.false_ne_true]
  · intro s a b p hstep _ _ hrx hacked ha hb hactive
    subst ha hb
    exact execLinkUp_seen hstep hrx hacked hactive
  · intro s a p n hn hon hloop hlo hhi ha
    subst hn ha
    exact execLinkStepTimeout_bringUp hon hloop hlo hhi

end Sys2Proof.Machine
end

section
/-! PROOFS. The DATA stream: flits of every kind, flits and codewords in error, NAKs sent again (09_fabric_links.md,
10_fabric_routing.md, R261, R263, R265, R267, R268, R273, R303, R306, R332). -/

namespace Sys2Proof.Machine

open Sys2Proof

/-! ## Flits in the DATA stream (R261) -/

/-- What becomes of a flit by its kind. -/
def State.takeFlit (s : State) (p : Fin 16) (flit : List Byte) : State :=
  match flitKind flit with
  | none => s.crcError p true
  | some .idle => s
  | some .data => if s.running p then s.takeData p (flitBody flit) else s
  | some .link => match linkCode (flitBody flit) with
    | some c => s.violate p c 0 0
    | none => s
  | some .sync => if s.running p && syncBroken (flitBody flit) then s.violate p 0x07 0 0 else s

/-- A flit that arrives wakes the receiver; while the codewords before it leave the link standing it is taken by its kind. -/
theorem execDataFlit_arrives {s0 s a : State} {p : Fin 16} {cwhs : List (Fin 1048576)} {flit : List Byte}
    (hrun : s0.codewords p = true) (hown : s0.ownFlit p flit = some s) (ha : a = (s.rxWake p).rxCodewords p cwhs)
    (hstill : a.codewords p = true) : execDataFlit p cwhs flit s0 = .next (a.takeFlit p flit) := by
  subst ha
  unfold execDataFlit
  simp only [hrun, hown, hstill, Bool.not_true, Bool.false_eq_true, if_false]
  rfl

/-- Where a port hears itself, a flit that it has not sent changes nothing. -/
theorem execDataFlit_foreign {s : State} {p : Fin 16} (cwhs : List (Fin 1048576)) {flit : List Byte}
    (hown : s.ownFlit p flit = none) : execDataFlit p cwhs flit s = .next s := by
  unfold execDataFlit
  simp only [hown, ite_self]

theorem State.takeFlit_broken {s : State} {flit : List Byte} (p : Fin 16) (hkind : flitKind flit = none) :
    s.takeFlit p flit = s.crcError p true := by
  unfold State.takeFlit
  rw [hkind]

theorem State.takeFlit_idle {s : State} {flit : List Byte} (p : Fin 16) (hkind : flitKind flit = some .idle) :
    s.takeFlit p flit = s := by
  unfold State.takeFlit
  rw [hkind]

theorem State.takeFlit_data {s : State} {p : Fin 16} {flit : List Byte} (hkind : flitKind flit = some .data)
    (hrun : s.running p = true) : s.takeFlit p flit = s.takeData p (flitBody flit) := by
  unfold State.takeFlit
  rw [hkind]
  exact if_pos hrun

theorem State.takeFlit_link_bad {s : State} {flit : List Byte} {c : Nat} (p : Fin 16) (hkind : flitKind flit = some .link)
    (hcode : linkCode (flitBody flit) = some c) : s.takeFlit p flit = s.violate p c 0 0 := by
  unfold State.takeFlit
  rw [hkind]
  simp only [hcode]

theorem State.takeFlit_sync_bad {s : State} {p : Fin 16} {flit : List Byte} (hkind : flitKind flit = some .sync)
    (hrun : s.running p = true) (hbroken : syncBroken (flitBody flit) = true) :
    s.takeFlit p flit = s.violate p 0x07 0 0 := by
  unfold State.takeFlit
  rw [hkind]
  simp only [hrun, hbroken, Bool.and_self, if_true]

/-! ## DATA flits by their numbers (R262, R265) -/

/-- The next DATA flit received has the next number. -/
def State.seqNext (s : State) (p : Fin 16) : State :=
  s.setLink p { s.link p with fr := { (s.link p).fr with rxSeq := ((s.link p).fr.rxSeq + 1) % 2 ^ 20 } }

/-- How far the number received lies above the one expected, and below it. -/
def LinkSt.numbersUp (l : LinkSt) : Nat := (l.fr.rxSeq + 2 ^ 20 - l.rxNum) % 2 ^ 20

def LinkSt.numbersDown (l : LinkSt) : Nat := (l.rxNum + 2 ^ 20 - l.fr.rxSeq) % 2 ^ 20

theorem State.takeData_known {s : State} {p : Fin 16} (body : List Byte) (haligned : (s.link p).fr.realign = false)
    (hknown : (s.link p).fr.seqKnown = true) :
    s.takeData p body =
      if (s.link p).numbersUp = 0 then ((s.seqNext p).acceptData p (s.link p).fr.rxSeq body).creditDue p
      else if (s.link p).numbersDown ≤ 98304 then s.seqNext p
      else if (s.link p).numbersUp ≤ 98304 then (s.seqNext p).nakOnce p
      else (s.seqNext p).violate p 0x02 0 (s.link p).fr.rxSeq := by
  have htaken : ¬ ((s.link p).fr.realign || !(s.link p).fr.seqKnown : Bool) := by simp [haligned, hknown]
  exact if_neg htaken

theorem LinkSt.numbersUp_expected {l : LinkSt} (h : l.fr.rxSeq = l.rxNum) : l.numbersUp = 0 := by
  unfold LinkSt.numbersUp
  omega

/-- The expected flit has come: the next one is expected, and no NAK is out. -/
def LinkSt.tookExpected (l : LinkSt) : LinkSt := { l with rxNum := (l.rxNum + 1) % 2 ^ 20, nakOut := false, naks := 0 }

/-- The channel that a packet's first flit names. -/
def flitVc (body : List Byte) : Nat := bitsOf (leNat (body.take 4)) 7 5

/-- A flit that starts and ends its packet, within its channel's limit: the packet is whole, and its PCRC is still to be
checked. -/
theorem State.acceptData_single {s : State} {p : Fin 16} {body : List Byte} {l : LinkSt} (dnum : Nat)
    (hl : l = (s.link p).tookExpected) (hskip : (s.link p).skip = 0) (hpart : (s.link p).partLeft = 0)
    (hheader : headerOk body = true) (hone : bitsOf (leNat (body.take 4)) 14 8 = 1)
    (hlimit : l.inLimit (flitVc body) = true) :
    s.acceptData p dnum body = s.setLink p { l.penAdd (flitVc body) with
      arrived := (l.penAdd (flitVc body)).arrived ++ [(flitVc body, body)] } := by
  subst hl
  have hkept : ¬ 0 < (s.link p).skip := by omega
  have hgood : ¬ (!headerOk body : Bool) := by simp [hheader]
  have hroom : ¬ (!(s.link p).tookExpected.inLimit (flitVc body) : Bool) := by simp [hlimit]
  exact (if_neg hkept).trans ((if_pos hpart).trans ((if_neg hgood).trans ((if_neg hroom).trans
    (congrArg (s.setLink p) (if_pos hone)))))

/-! ## Flits and codewords in error (R265, R267, R268) -/

theorem execFlitCrcError_broken {s a : State} {p : Fin 16} {cwhs : List (Fin 1048576)} {flit : List Byte} (data : Bool)
    (hrun : s.codewords p = true) (hkind : flitKind flit = none) (ha : a = s.rxCodewords p cwhs)
    (hstill : a.codewords p = true) : execFlitCrcError p cwhs data flit s = .next (a.crcError p data) := by
  subst ha
  unfold execFlitCrcError
  simp only [hrun, hkind, hstill, Option.isSome_none, Bool.not_true, Bool.or_self, Bool.false_eq_true, if_false]

/-- A flit in a DATA flit's place has its number; outside one only its error counts. -/
theorem State.crcError_eq (s : State) (p : Fin 16) (data : Bool) :
    s.crcError p data = if data = true ∧ (s.bump (.port p) Reg.PORT.CRC_ERR_COUNT).running p = true then
      ((s.bump (.port p) Reg.PORT.CRC_ERR_COUNT).seqNext p).nakOnce p else s.bump (.port p) Reg.PORT.CRC_ERR_COUNT := by
  unfold State.crcError
  simp only [Bool.and_eq_true]
  rfl

/-- An uncorrectable codeword counts as a codeword and as an error, and raises FEC_UE. -/
def State.ueCounted (s : State) (p : Fin 16) : State :=
  ((s.addPair (.port p) Reg.PORT.FEC_CW_LO Reg.PORT.FEC_CW_HI 1).bump (.port p) Reg.PORT.FEC_UE_COUNT).raise (.port p)
    Evt.PORT.FEC_UE

/-- Times of the uncorrectable codewords of the last millisecond, this one first. -/
def State.ueTimes (s : State) (p : Fin 16) : List Nat :=
  s.elapsed :: (s.link p).ueLog.filter (fun t => decide (s.elapsed ≤ t + ns1ms))

/-- The codeword's time is kept, and the framing has lost it. -/
def State.ueLost (s : State) (p : Fin 16) : State :=
  s.setLink p { s.link p with ueLog := s.ueTimes p, fr := (s.link p).fr.lose }

theorem execUncorrectableCodeword_running {s a b c : State} {p : Fin 16} {cwhs : List (Fin 1048576)}
    (hrun : s.codewords p = true) (ha : a = s.rxCodewords p cwhs) (hstill : a.codewords p = true) (hb : b = a.ueCounted p)
    (hc : c = b.ueLost p) :
    execUncorrectableCodeword p cwhs s = .next (
      if 3 ≤ (c.link p).fr.burst then c.retrainFor p 2
      else if (c.link p).fr.lost = true then c.retrainFor p 3
      else if c.getF (.port p) Reg.PORT.LINK_CFG_UE_LIMIT < (b.ueTimes p).length then c.retrainFor p 4
      else if c.running p = true then c.nakOnce p else c) := by
  subst ha hb hc
  unfold execUncorrectableCodeword
  simp only [hrun, hstill, Bool.not_true, Bool.false_eq_true, if_false]
  rfl

/-! ## NAKs sent again (R265) -/

theorem State.running_of_active {s : State} {p : Fin 16} (h : s.linkActive p = true) : s.running p = true := by
  unfold State.running
  rw [h, Bool.true_or]

theorem execNakResendTimer_again {s : State} {p : Fin 16} (hrun : s.running p = true) (hout : (s.link p).nakOut = true)
    (hfew : (s.link p).naks < 16) : execNakResendTimer p s = .next (s.sendNak p) := by
  unfold execNakResendTimer
  simp [hrun, hout, hfew]

theorem execNakResendTimer_last {s : State} {p : Fin 16} (hrun : s.running p = true) (hout : (s.link p).nakOut = true)
    (hmany : 16 ≤ (s.link p).naks) : execNakResendTimer p s = .next (s.retrainFor p 5) := by
  unfold execNakResendTimer
  simp [hrun, hout, hmany]

/-- Settles O22: a flit by its kind and number, then errors of flits and codewords, and the NAK that no flit answers. -/
theorem dataFlits : Obligations.DataFlits := by
  refine ⟨?_, ?_, ?_, ?_, ?_, ?_, ?_, ?_, ?_, ?_, ?_, ?_⟩
  · intro s0 s a b p cwhs flit body n v l hrun hown ha hstill hflits hkind hbody haligned hknown hn _ hb hexpected
      hskip hpart hheader hone hv hl hlimit
    subst hn hbody hv
    have hnext : b = a.seqNext p := hb
    subst hnext
    have hnum : (a.link p).fr.rxSeq = (a.link p).rxNum := by
      rw [hexpected]
      simp [State.seqNext]
    refine (execDataFlit_arrives hrun hown ha hstill).trans (congrArg Host.Outcome.next ?_)
    rw [State.takeFlit_data hkind hflits, State.takeData_known _ haligned hknown,
      if_pos (LinkSt.numbersUp_expected hnum),
      State.acceptData_single _ hl hskip hpart hheader hone hlimit]
    rfl
  · intro s0 s a b p cwhs flit n up down hrun hown ha hstill hflits hkind haligned hknown hn hb hup hdown hother
    subst hn hup hdown
    have hnext : b = a.seqNext p := hb
    subst hnext
    refine (execDataFlit_arrives hrun hown ha hstill).trans (congrArg Host.Outcome.next ?_)
    rw [State.takeFlit_data hkind hflits, State.takeData_known _ haligned hknown]
    exact if_neg hother
  · intro s0 s a p cwhs flit hrun hown ha hstill hkind
    exact (execDataFlit_arrives hrun hown ha hstill).trans (congrArg Host.Outcome.next (State.takeFlit_broken p hkind))
  · intro s0 s a p cwhs flit hrun hown ha hstill hkind
    exact (execDataFlit_arrives hrun hown ha hstill).trans (congrArg Host.Outcome.next (State.takeFlit_idle p hkind))
  · intro s p cwhs flit _ hown
    exact execDataFlit_foreign cwhs hown
  · intro s0 s a p cwhs flit c hrun hown ha hstill hkind hcode
    exact (execDataFlit_arrives hrun hown ha hstill).trans
      (congrArg Host.Outcome.next (State.takeFlit_link_bad p hkind hcode))
  · intro s0 s a p cwhs flit hrun hown ha hstill hflits hkind hbroken
    exact (execDataFlit_arrives hrun hown ha hstill).trans
      (congrArg Host.Outcome.next (State.takeFlit_sync_bad hkind hflits hbroken))
  · intro s a p cwhs data flit hrun hkind ha hstill
    exact execFlitCrcError_broken data hrun hkind ha hstill
  · intro s a b p data ha hb
    subst ha hb
    exact s.crcError_eq p data
  · intro s a b c p cwhs log hrun ha hstill hb hlog hc
    subst hlog
    exact execUncorrectableCodeword_running hrun ha hstill hb hc
  · intro s a p hrun hout hfew ha
    subst ha
    exact execNakResendTimer_again hrun hout hfew
  · intro s p hactive hout hmany
    refine (execNakResendTimer_last (State.running_of_active hactive) hout hmany).trans (congrArg Host.Outcome.next ?_)
    rw [State.retrainFor_active 5 hactive, State.linkDrop_active 5 hactive]

end Sys2Proof.Machine
end

section
/-! PROOFS. LINK flits of every type, and the timer that sends them (09_fabric_links.md, 10_fabric_routing.md, R264, R266, R268,
R271, R275, R276, R289, R303, R304, R333). -/

namespace Sys2Proof.Machine

open Sys2Proof

/-! ## Flits that the port has not sent itself (R276) -/

section Foreign

variable {s : State} {p : Fin 16} (hself : ∀ f, s.fromSelf p f = none)

include hself

/-- In near-end loopback a LINK flit that the port has not sent changes nothing, whatever its type. -/
theorem exec_linkFlit_foreign (ack : Fin 1048576) (lv mn : BitVec 8) (idle fl : Bool) (l0 l1 l2 l3 l4 : BitVec 32) :
    execLinkAck p ack s = .next s ∧ execLinkNak p ack s = .next s ∧ execCapFlit p ack lv mn idle fl s = .next s ∧
      execCreditFlit p ack l0 l1 l2 l3 l4 s = .next s ∧ execLinkRejectFlit p ack s = .next s ∧
      execIdleEnterFlit p ack s = .next s ∧ execLoopReqFlit p ack s = .next s ∧ execLoopExitFlit p ack s = .next s := by
  unfold execLinkAck execLinkNak execCapFlit execCreditFlit execLinkRejectFlit execIdleEnterFlit execLoopReqFlit
    execLoopExitFlit
  simp only [hself, ite_self, and_self]

end Foreign

/-! ## Acknowledgements and NAKs (R264, R266) -/

/-- The oldest number in the replay buffer; the next new one where it is empty. -/
def LinkSt.oldest (l : LinkSt) : Nat := match l.replay with | [] => l.txNum | f :: _ => f.num

/-- How many buffered flits an ACK_SEQ releases. -/
def LinkSt.ackedBy (l : LinkSt) (ack : Nat) : Nat := (ack + 2 ^ 20 - l.oldest) % 2 ^ 20

theorem State.ackTo_buffered {s : State} {p : Fin 16} {ack : Nat}
    (hin : (s.link p).ackedBy ack ≤ (s.link p).replay.length) :
    s.ackTo p ack = s.setLink p { s.link p with replay := (s.link p).replay.drop ((s.link p).ackedBy ack) } := if_pos hin

/-- On a link that carries flits every LINK flit wakes the receiver and acknowledges. -/
theorem State.linkRx_running {s : State} {p : Fin 16} (ack : Nat) (hrun : s.running p = true) :
    s.linkRx p ack = (s.rxWake p).ackTo p ack := if_pos hrun

theorem execLinkAck_step5 {s0 s : State} {p : Fin 16} {ack : Fin 1048576}
    (hself : s0.fromSelf p (linkIs 0x00 ack false) = some s) (hstep : s.atStep p 5 = true) :
    execLinkAck p ack s0 = .next (s.setLink p { s.link p with capAcked := true }) := by
  unfold execLinkAck
  simp only [hself, hstep, if_true]

theorem execLinkAck_after {s0 s : State} {p : Fin 16} {ack : Fin 1048576}
    (hself : s0.fromSelf p (linkIs 0x00 ack false) = some s) (hstep : s.atStep p 5 = false) :
    execLinkAck p ack s0 = .next (s.linkRx p ack) := by
  unfold execLinkAck
  simp only [hself, hstep, Bool.false_eq_true, if_false]

/-- A NAK for a buffered flit replays from there on; for any other it is a violation. -/
theorem execLinkNak_running {s0 s a : State} {p : Fin 16} {ack : Fin 1048576} (hrun : s0.running p = true)
    (hself : s0.fromSelf p (linkIs 0x00 ack true) = some s) (ha : a = s.rxWake p) :
    execLinkNak p ack s0 = .next (if (a.link p).ackedBy ack ≤ (a.link p).replay.length then
        ((((a.ackTo p ack).replayAll p).bump (.port p) Reg.PORT.REPLAY_COUNT).raise (.port p) Evt.PORT.REPLAY)
      else a.violate p 0x03 0 0) := by
  subst ha
  unfold execLinkNak
  simp only [hrun, hself, Bool.not_true, Bool.false_eq_true, if_false]
  rfl

/-! ## CREDIT, IDLE_ENTER and REJECT (R275, R303, R304, R333) -/

/-- The limits of a CREDIT flit, with their channels. -/
def creditLimits (l0 l1 l2 l3 l4 : BitVec 32) : List (Nat × Nat) :=
  [l0.toNat, l1.toNat, l2.toNat, l3.toNat, l4.toNat].zipIdx

/-- BODY of the CREDIT flit that carries five limits. -/
def creditBits (l0 l1 l2 l3 l4 : BitVec 32) : Nat :=
  l0.toNat + l1.toNat * 2 ^ 32 + l2.toNat * 2 ^ 64 + l3.toNat * 2 ^ 96 + l4.toNat * 2 ^ 128

section Credit

variable {s0 s a : State} {p : Fin 16} {ack : Fin 1048576} {l0 l1 l2 l3 l4 : BitVec 32} (hrun : s0.running p = true)
  (hself : s0.fromSelf p (fun g => g == flitOf .link (linkBody 0x10 ack false (creditBits l0 l1 l2 l3 l4))) = some s)
  (ha : a = s.rxWake p)

include hrun hself ha

theorem execCreditFlit_good
    (hgood : (creditLimits l0 l1 l2 l3 l4).find? (fun e => !(a.link p).limitOk e.2 e.1) = none) :
    execCreditFlit p ack l0 l1 l2 l3 l4 s0 = .next ((a.linkRx p ack).setLink p { (a.linkRx p ack).link p with
      limit := (creditLimits l0 l1 l2 l3 l4).foldl (fun m e => m.put e.2 e.1) ((a.linkRx p ack).link p).limit }) := by
  subst ha
  unfold creditBits at hself
  unfold creditLimits at hgood ⊢
  unfold execCreditFlit
  simp only [hrun, hself, hgood, Bool.not_true, Bool.false_eq_true, if_false]

theorem execCreditFlit_bad {bad : Nat × Nat}
    (hbad : (creditLimits l0 l1 l2 l3 l4).find? (fun e => !(a.link p).limitOk e.2 e.1) = some bad) :
    execCreditFlit p ack l0 l1 l2 l3 l4 s0 = .next (a.violate p 0x05 bad.2 0) := by
  subst ha
  unfold creditBits at hself
  unfold creditLimits at hbad
  unfold execCreditFlit
  simp only [hrun, hself, hbad, Bool.not_true, Bool.false_eq_true, if_false]

end Credit

theorem execIdleEnterFlit_running {s0 s a : State} {p : Fin 16} {ack : Fin 1048576} (hrun : s0.running p = true)
    (hself : s0.fromSelf p (linkIs 0x02 ack false) = some s)
    (ha : a = (s.linkRx p ack).setF (.port p) Reg.PORT.LINK_STAT_IDLE_RX 1) :
    execIdleEnterFlit p ack s0 = .next (a.setLink p { a.link p with fr := { (a.link p).fr with burst := 1 } }) := by
  subst ha
  unfold execIdleEnterFlit
  simp only [hrun, hself, Bool.not_true, Bool.false_eq_true, if_false]

theorem execLinkRejectFlit_codewords {s0 s : State} {p : Fin 16} {ack : Fin 1048576} (hrun : s0.codewords p = true)
    (hself : s0.fromSelf p (linkIs 0x11 ack false) = some s) :
    execLinkRejectFlit p ack s0 = .next ((s.linkRx p ack).bump (.port p) Reg.PORT.PV_RX_COUNT) := by
  unfold execLinkRejectFlit
  simp only [hrun, hself, Bool.not_true, Bool.false_eq_true, if_false]

/-! ## The LINK flit timer (R265, R268, R271, R289, R304) -/

/-- Codewords sent since the last LINK flit count, but in electrical idle, a gap or a far-end loopback. -/
def State.sentCodewords (s : State) (p : Fin 16) (k : Nat) : State :=
  if s.isSet (.port p) Reg.PORT.LINK_STAT_IDLE_TX = true ∨ s.inGap p = true ∨ s.farLoop p = true then s else s.txCodewords p k

/-- In TEST mode FAR a LOOP_REQ goes with the LINK flit. -/
def State.askLoop (s : State) (p : Fin 16) : State := if s.testMode p = 3 then s.sendLink p 0x03 false 0 else s

theorem execLinkFlitTimer_codewords {s m a d : State} {p : Fin 16} {t : LinkTick} (hm : m = s.linkMeasures p t)
    (hrun : m.codewords p = true) (ha : a = m.rxCodewords p t.cwhs) (hstill : a.codewords p = true)
    (hd : d = ((a.linkCounts p t).sentCodewords p t.sent).askLoop p) :
    execLinkFlitTimer p t s = .next (if d.running p = true then d.sendCredit p else d.sendCap p) := by
  have hsent : ∀ b : State, (if b.isSet (.port p) Reg.PORT.LINK_STAT_IDLE_TX || b.inGap p || b.farLoop p then b
      else b.txCodewords p t.sent) = b.sentCodewords p t.sent := by
    intro b
    unfold State.sentCodewords
    simp only [Bool.or_eq_true, or_assoc]
  subst hm ha hd
  unfold execLinkFlitTimer
  simp only [hrun, hstill, hsent, Bool.not_true, Bool.false_eq_true, if_false]
  rfl

/-- With no codewords only the port's measurements move on. -/
theorem execLinkFlitTimer_dark {s m : State} {p : Fin 16} {t : LinkTick} (hm : m = s.linkMeasures p t)
    (hdark : m.codewords p = false) : execLinkFlitTimer p t s = .next m := by
  subst hm
  unfold execLinkFlitTimer
  simp only [hdark, Bool.not_false, if_true]

/-- Settles O23: the flits by their types, in loopback those of another sender too, then the timer with what it counts and
measures. -/
theorem linkFlits : Obligations.LinkFlits := by
  refine ⟨?_, ?_, ?_, ?_, ?_, ?_, ?_, ?_, ?_, ?_, ?_, ?_, ?_⟩
  · intro s0 s p ack hself hstep
    exact execLinkAck_step5 hself hstep
  · intro s p ack lv mn idle fl l0 l1 l2 l3 l4 hself
    exact exec_linkFlit_foreign hself ack lv mn idle fl l0 l1 l2 l3 l4
  · intro s0 s a p ack first n hself hstep hrun ha hfirst hn hin
    have hreleased : n = (a.link p).ackedBy ack := by rw [hn, hfirst]; rfl
    subst hreleased ha
    refine (execLinkAck_after hself hstep).trans (congrArg Host.Outcome.next ?_)
    rw [State.linkRx_running _ hrun, State.ackTo_buffered hin]
  · intro s0 s a p ack first n hrun hself ha hfirst hn
    have hreleased : n = (a.link p).ackedBy ack := by rw [hn, hfirst]; rfl
    subst hreleased
    refine (execLinkNak_running hrun hself ha).trans (congrArg Host.Outcome.next ?_)
    split
    next hin => rw [State.ackTo_buffered hin]
    next => rfl
  · intro s0 s a b p ack l0 l1 l2 l3 l4 hrun hself hb hgood ha
    subst ha
    exact execCreditFlit_good hrun hself hb hgood
  · intro s0 s a p ack l0 l1 l2 l3 l4 bad hrun hself ha hbad
    exact execCreditFlit_bad hrun hself ha hbad
  · intro s0 s a p ack hrun hself ha
    exact execIdleEnterFlit_running hrun hself ha
  · intro s0 s p ack hrun hself
    exact execLinkRejectFlit_codewords hrun hself
  · intro s p ack
    rfl
  · intro s m a b c d p t hm hrun ha hstill hb hc hd
    subst hb
    have hsent : c = (a.linkCounts p t).sentCodewords p t.sent := hc
    subst hsent
    exact execLinkFlitTimer_codewords hm hrun ha hstill hd
  · intro s m p t hm hdark
    exact execLinkFlitTimer_dark hm hdark
  · intro s a b p t ha hb
    subst ha hb
    rfl
  · intro s c p t hc
    subst hc
    rfl

end Sys2Proof.Machine
end

section
/-! PROOFS. Far-end loopback, electrical idle, loss of signal and of lock (09_fabric_links.md, R273, R275, R277, R283). -/

namespace Sys2Proof.Machine

open Sys2Proof

/-! ## Far-end loopback (R277) -/

theorem execLoopReqFlit_granted {s0 s a : State} {p : Fin 16} {ack : Fin 1048576}
    (hself : s0.fromSelf p (linkIs 0x03 ack false) = some s) (ha : a = s.linkRx p ack) (hon : a.linkState p ≠ 0)
    (hallow : a.isSet (.port p) Reg.PORT.LINK_CTL_FAR_LOOP_ALLOW = true) (hplain : a.testMode p = 0) :
    execLoopReqFlit p ack s0 = .next (a.setF (.port p) Reg.PORT.LINK_STAT_FAR_LOOP 1) := by
  subst ha
  unfold execLoopReqFlit
  simp [hself, hon, hallow, hplain]

theorem execLoopExitFlit_serving {s0 s a : State} {p : Fin 16} {ack : Fin 1048576}
    (hself : s0.fromSelf p (linkIs 0x04 ack false) = some s) (ha : a = s.linkRx p ack) (hserves : a.farLoop p = true) :
    execLoopExitFlit p ack s0 = .next (a.endLoop p) := by
  subst ha
  unfold execLoopExitFlit
  simp only [hself, hserves, if_true]

theorem execFarLoopLosTimeout_serving {s : State} {p : Fin 16} (hserves : s.farLoop p = true) :
    execFarLoopLosTimeout p s = .next (s.endLoop p) := by
  unfold execFarLoopLosTimeout
  rw [if_pos hserves]

theorem execFarLoopTimeout_asking {s : State} {p : Fin 16} (htest : s.linkState p = 7) (hfar : s.testMode p = 3) :
    execFarLoopTimeout p s = .next (s.failStep p 14) := by
  unfold execFarLoopTimeout
  simp only [htest, hfar, decide_true, Bool.and_self, if_true]

/-! ## Electrical idle (R275) -/

theorem State.wakePort_awake {s : State} {p : Fin 16} (hawake : s.isSet (.port p) Reg.PORT.LINK_STAT_IDLE_TX = false) :
    s.wakePort p = s := by
  unfold State.wakePort
  rw [hawake, if_neg Bool.false_ne_true]

theorem State.wakePort_idle {s : State} {p : Fin 16} (hidle : s.isSet (.port p) Reg.PORT.LINK_STAT_IDLE_TX = true) :
    s.wakePort p = (s.setF (.port p) Reg.PORT.LINK_STAT_IDLE_TX 0).emit (.burst p) := if_pos hidle

/-- A port that neither loops nor waits, with its transmitter awake, puts a flit on the line as it is. -/
theorem State.sendFlit_onLine {s : State} {p : Fin 16} (o : Out)
    (hline : s.inGap p = false ∧ s.farLoop p = false ∧ s.nearLoop p = false)
    (hawake : s.isSet (.port p) Reg.PORT.LINK_STAT_IDLE_TX = false) : s.sendFlit p o = s.emit o := by
  obtain ⟨hgap, hfar, hnear⟩ := hline
  unfold State.sendFlit
  simp only [hgap, hfar, hnear, Bool.false_eq_true, if_false, State.wakePort_awake hawake]

theorem execIdleEntry_allowed {s : State} {p : Fin 16} (hactive : s.linkActive p = true) (hgap : s.inGap p = false)
    (hfar : s.farLoop p = false) (hen : s.isSet (.port p) Reg.PORT.LINK_CTL_IDLE_EN = true)
    (hnbr : s.isSet (.port p) Reg.PORT.CAP_NBR_IDLE = true)
    (hawake : s.isSet (.port p) Reg.PORT.LINK_STAT_IDLE_TX = false) :
    execIdleEntry p s = .next ((s.sendLink p 0x02 false 0).setF (.port p) Reg.PORT.LINK_STAT_IDLE_TX 1) := by
  unfold execIdleEntry
  simp only [hactive, hgap, hfar, hen, hnbr, hawake, Bool.not_false, Bool.and_self, if_true]

theorem execIdleExit_active {s : State} {p : Fin 16} (hactive : s.linkActive p = true) (hgap : s.inGap p = false) :
    execIdleExit p s = .next (s.wakePort p) := by
  unfold execIdleExit
  simp only [hactive, hgap, Bool.not_false, Bool.and_self, if_true]

/-! ## Loss of signal and of lock (R273, R283) -/

theorem execLaneSignalLoss_active {s : State} {p : Fin 16} (hactive : s.linkActive p = true)
    (hfree : s.isSet (.port p) Reg.PORT.LINK_STAT_LOS_HOLD = false) :
    execLaneSignalLoss p s = .next ((s.setF (.port p) Reg.PORT.LINK_STAT_LOS_HOLD 1).raise (.port p) Evt.PORT.LOS_HOLD) := by
  unfold execLaneSignalLoss
  simp only [hactive, hfree, Bool.not_false, Bool.and_self, if_true]

/-- The receiver realigns on the next comma group, and knows no DATA flit's number before then. -/
def State.realigns (s : State) (p : Fin 16) : State :=
  s.setLink p { s.link p with fr := { (s.link p).fr with realign := true, seqKnown := false, run := 0, burst := 1 } }

theorem execSignalReturn_held {s : State} {p : Fin 16} (hactive : s.linkActive p = true)
    (hheld : s.isSet (.port p) Reg.PORT.LINK_STAT_LOS_HOLD = true) :
    execSignalReturn p s =
      .next ((((s.setF (.port p) Reg.PORT.LINK_STAT_LOS_HOLD 0).rxWake p).realigns p).sendNak p) := by
  unfold execSignalReturn
  simp only [hactive, hheld, Bool.and_self, if_true]
  rfl

theorem execLosHoldExpire_held {s : State} {p : Fin 16} (hheld : s.isSet (.port p) Reg.PORT.LINK_STAT_LOS_HOLD = true) :
    execLosHoldExpire p s = .next (s.linkDrop p 1) := by
  unfold execLosHoldExpire
  rw [if_pos hheld]

/-- Settles O24: the loopback granted, ended and refused, idle entered and left, then a lost lane and a lost lock. -/
theorem loopbackIdleAndSignal : Obligations.LoopbackIdleAndSignal := by
  refine ⟨?_, ?_, ?_, ?_, ?_, ?_, ?_, ?_, ?_⟩
  · intro s0 s a p ack hself ha hon hallow hplain
    exact execLoopReqFlit_granted hself ha hon hallow hplain
  · intro s0 s a b p ack hself ha hserves hb
    subst hb
    exact execLoopExitFlit_serving hself ha hserves
  · intro s b p hserves hb
    subst hb
    exact execFarLoopLosTimeout_serving hserves
  · intro s a p htest hfar ha
    subst ha
    exact execFarLoopTimeout_asking htest hfar
  · intro s p hactive hline hen hnbr hawake
    have ⟨hgap, hfar, _⟩ := hline
    refine (execIdleEntry_allowed hactive hgap hfar hen hnbr hawake).trans ?_
    rw [State.sendLink, State.sendFlit_onLine _ hline hawake]
  · intro s p hactive hgap hidle
    exact (execIdleExit_active hactive hgap).trans (congrArg Host.Outcome.next (State.wakePort_idle hidle))
  · intro s p hactive hfree
    exact execLaneSignalLoss_active hactive hfree
  · intro s a b c p hactive hheld ha hb hc
    subst ha hb hc
    exact ⟨execSignalReturn_held hactive hheld,
      (execLosHoldExpire_held hheld).trans (congrArg Host.Outcome.next (State.linkDrop_active 1 hactive))⟩
  · intro s p hactive
    refine congrArg Host.Outcome.next ?_
    rw [State.retrainFor_active 2 hactive, State.linkDrop_active 2 hactive]

end Sys2Proof.Machine
end

section
/-! PROOFS. Lasers: trips, switch-overs, calibrations (09_fabric_links.md, R281, R282, R284, R285, R286, R287). -/

namespace Sys2Proof.Machine

open Sys2Proof

/-! ## Trips and SWITCH (R281, R285) -/

/-- The emitting laser is FAILED with its cause. -/
def State.laserFails (s : State) (p : Fin 16) (cause : Nat) : State :=
  (((s.setLaser p (s.activeLaser p) 2).setLas p (s.activeLaser p) (fun x => { x with cause := cause })).setF (.port p)
    Reg.PORT.LASER_STAT_TRIP_CAUSE cause).raise (.port p) Evt.PORT.LASER_FAIL

/-- Laser n has failed: the other takes over where it is a standby; without one the link is down. -/
def State.afterTrip (s : State) (p : Fin 16) (n : Nat) : State :=
  if s.laser p (1 - n) = 1 then (if s.inGap p = true then s.moveGap p else s.startGap p true)
  else if s.inGap p = true then s.gapDark p 10 else s.relink p 10

theorem execLaserTrip_emitting {s : State} {p : Fin 16} (why : Fin 3) (hon : s.linkState p ≠ 0)
    (hemits : s.laser p (s.activeLaser p) = 0) (hgap : s.inGap p = false ∨ (s.link p).gapClaimed = true) :
    execLaserTrip p why s =
      .next (((s.laserFails p (why + 1)).afterTrip p (s.activeLaser p)).laserHealth p) := by
  have htaken : ¬ (s.linkState p = 0 || s.laser p (s.activeLaser p) ≠ 0 || (s.inGap p && !(s.link p).gapClaimed) : Bool) := by
    rcases hgap with hgap | hgap <;> simp [hon, hemits, hgap]
  exact congrArg Host.Outcome.next (if_neg htaken)

theorem execLaserSwitchCmd_standby {s : State} {p : Fin 16} (hready : s.ready = true) (hon : s.linkState p ≠ 0)
    (hgap : s.inGap p = false) (hstandby : s.laser p (1 - s.activeLaser p) = 1)
    (hgood : s.laser p (s.activeLaser p) ≠ 2) :
    execLaserSwitchCmd p s = .next ((((s.setLaser p (s.activeLaser p) 1).setF (.port p)
      Reg.PORT.LASER_STAT_TRIP_CAUSE 4).startGap p false).laserHealth p) := by
  unfold execLaserSwitchCmd
  simp [State.pageOpen_port p hready, hon, hgap, hstandby, hgood]

/-! ## The gap (R282, R284, R286) -/

theorem execStandbyClaimCheck_good {s : State} {p : Fin 16} (hgap : s.inGap p = true)
    (hopen : (s.link p).gapClaimed = false) :
    execStandbyClaimCheck p true s = .next (s.setLink p { s.link p with gapClaimed := true }) := by
  unfold execStandbyClaimCheck
  simp [hgap, hopen]

theorem execStandbyClaimCheck_bad {s : State} {p : Fin 16} (hgap : s.inGap p = true)
    (hopen : (s.link p).gapClaimed = false) :
    execStandbyClaimCheck p false s = .next ((s.laserFails p 5).gapDark p 10) := by
  have htaken : ¬ (!s.inGap p || (s.link p).gapClaimed : Bool) := by simp [hgap, hopen]
  exact congrArg Host.Outcome.next (if_neg htaken)

/-- The gap of a switch-over ends: counted and raised, a calibration is pending, and what the gap held leaves the port. -/
def State.switched (s : State) (p : Fin 16) : State :=
  (((((s.clearGap p).bump (.port p) Reg.PORT.LASER_SWITCHES_COUNT).raise (.port p) Evt.PORT.LASER_SWITCH).setF (.port p)
    Reg.PORT.LASER_STAT_CAL_PEND 1).laserTested p).dropHeld p

theorem execLaserSwitchComplete_claimed {s b : State} {p : Fin 16} (hgap : s.inGap p = true)
    (hclaimed : (s.link p).gapClaimed = true) (hb : b = s.switched p) :
    execLaserSwitchComplete p s = .next ((if b.codewords p = true ∧ b.nearTest p = false then b.flushGap p (s.link p)
      else b.sendFrame p).applyHeld p (s.link p)) := by
  have htaken : ¬ (!s.inGap p || !(s.link p).gapClaimed : Bool) := by simp [hgap, hclaimed]
  have hline : (b.codewords p = true ∧ b.nearTest p = false) ↔ (b.codewords p && !b.nearTest p) = true := by simp
  subst hb
  simp only [hline]
  exact congrArg Host.Outcome.next (if_neg htaken)

/-- Codewords resume on the line: a burst, then a comma group. -/
def State.resumeLine (s : State) (p : Fin 16) : State :=
  ((s.setF (.port p) Reg.PORT.LINK_STAT_IDLE_TX 0).emit (.burst p)).txResume p

/-- A DATA flit waits. -/
def Out.isData (o : Out) : Bool := match o with | .data _ _ _ => true | _ => false

/-- Flits go out one after another. -/
def State.sendFlits (s : State) (p : Fin 16) (os : List Out) : State := os.foldl (fun s o => s.sendFlit p o) s

/-- With nothing of the sync channel waiting, LINK flits leave first, then DATA flits. -/
theorem State.flushGap_flits {s : State} {p : Fin 16} {l : LinkSt} (hline : s.farLoop p = false) (hsync : l.syncQ = [])
    (hheld : l.sHeld = []) (hhello : l.helloDue = false) :
    s.flushGap p l = ((s.resumeLine p).sendFlits p (l.gapQ.filter (fun o => !o.isData))).sendFlits p
      (l.gapQ.filter Out.isData) := by
  unfold State.flushGap
  simp only [hline, hsync, hheld, hhello, Bool.false_eq_true, if_false]
  rfl

/-! ## Calibration (R284, R288) -/

theorem execLaserCalDone_pending {s a : State} {p : Fin 16} (bias power : BitVec 16) (temp : BitVec 8) (cal : Nat)
    (hpending : s.isSet (.port p) Reg.PORT.LASER_STAT_CAL_PEND = true)
    (ha : a = (s.setF (.port p) Reg.PORT.LASER_STAT_CAL_PEND 0).raise (.port p) Evt.PORT.CAL_DONE) :
    execLaserCalDone p bias power temp cal s = .next ((a.setLas p (a.activeLaser p) (fun x => { x with cal := cal })).setMon p
      (a.activeLaser p) bias power temp) := by
  subst ha
  unfold execLaserCalDone
  simp only [hpending, Bool.not_true, Bool.false_eq_true, if_false]

/-- Settles O25: a trip and SWITCH, the claim, the end of the gap, and the calibration that follows. -/
theorem lasers : Obligations.Lasers := by
  refine ⟨?_, ?_, ?_, ?_, ?_, ?_, ?_⟩
  · intro s a p why n hon hn hemits hgap ha
    subst hn ha
    exact execLaserTrip_emitting why hon hemits hgap
  · intro s p hready hon hgap hstandby hgood
    exact execLaserSwitchCmd_standby hready hon hgap hstandby hgood
  · intro s a b p n hgap hopen hn ha hb
    subst hn ha hb
    exact ⟨execStandbyClaimCheck_good hgap hopen, execStandbyClaimCheck_bad hgap hopen⟩
  · intro s a b p hgap hclaimed ha hb
    subst ha
    exact execLaserSwitchComplete_claimed hgap hclaimed hb
  · intro s a b p l hline ha hsync hheld hhello hb
    subst ha hb
    exact State.flushGap_flits hline hsync hheld hhello
  · intro s a p bias power temp cal n hpending ha hn
    subst hn
    exact execLaserCalDone_pending bias power temp cal hpending ha
  · intro s p bias power temp
    exact ⟨rfl, rfl⟩

end Sys2Proof.Machine
end

section
/-! PROOFS. Pens of ports, from the commit of a packet to its loss, and the routes of the requests and replies at their heads
(10_fabric_routing.md, R295, R296, R298, R299, R300, R301, R302, R306, R307). -/

namespace Sys2Proof.Machine

open Sys2Proof

/-! ## Pens (R296, R298, R300, R306, R307) -/

/-- A packet complete in its pen is lost on a port not ADMITTED, committed with a good PCRC, rewound with a bad one. -/
theorem execPacketCommit_arrived {s a : State} {p : Fin 16} {v : Nat} {b : List Byte} {rest : List (Nat × List Byte)}
    (harrived : (s.link p).arrived = (v, b) :: rest) (ha : a = s.setLink p { s.link p with arrived := rest }) :
    execPacketCommit p s = .next (if a.admitted p = false then (a.penFree p v (b.length / 60)).portLost p 1
      else if pcrcGood b then a.setLink p ((a.link p).setPen v
        { (a.link p).pen v with pkts := ((a.link p).pen v).pkts ++ [Packet.ofBytes b] })
      else ((a.penFree p v (b.length / 60)).bump (.port p) Reg.PORT.PEN_CRC_COUNT).raise (.port p) Evt.PORT.PEN_ERR) := by
  subst ha
  unfold execPacketCommit
  simp only [harrived, Bool.not_eq_true']

/-- A pen that no packet is half way into is emptied alone. -/
theorem execPenReset_settled {s a : State} {p : Fin 16} {v : Fin 5} {l : LinkSt}
    (hl : l = { s.link p with arrived := (s.link p).arrived.filter (fun y => y.1 ≠ v.val) })
    (hsettled : ¬ ((s.link p).partVc = v.val ∧ 0 < (s.link p).partLeft))
    (ha : a = s.setLink p (l.setPen v { l.pen v with pkts := [], esc := false, gone := [] })) :
    execPenReset p v s = .next ((((a.penFree p v (l.pen v).used).bump (.port p) Reg.PORT.PEN_RESET_COUNT).setF (.port p)
      Reg.PORT.PEN_LAST_VC v).raise (.port p) Evt.PORT.PEN_ERR) := by
  subst hl ha
  unfold execPenReset
  simp only [if_neg hsettled]

theorem execEscWaitExpire_flowPacket {s : State} {src : PenSrc} {pk : Packet} {rest : List Packet}
    (hpkts : (s.penAt src).pkts = pk :: rest) (hnet : opNet pk.op ≠ some 2) :
    execEscWaitExpire src s = .next (s.setPenAt src { s.penAt src with esc := true }) := by
  unfold execEscWaitExpire
  simp only [hpkts, if_neg hnet]

theorem execPenAgeDrop_head {s : State} {src : PenSrc} {pk : Packet} {rest : List Packet}
    (hpkts : (s.penAt src).pkts = pk :: rest) :
    execPenAgeDrop src s = .next (((s.popPen src).bump (.rout (PenSrcHub src)) Reg.ROUT.AGE_DROP_COUNT).raise
      (.rout (PenSrcHub src)) Evt.ROUT.PKT_DROP) := by
  unfold execPenAgeDrop
  simp only [hpkts, List.isEmpty_cons, Bool.false_eq_true, if_false]

/-! ## Transit shares (R301) -/

/-- The transit share of a port starts afresh. -/
def LinkSt.freshShare (l : LinkSt) : LinkSt := { l with transit := 0 }

/-- A pass that changes each port of a list once leaves the others as they are. -/
theorem State.link_foldl_setLink (g : LinkSt → LinkSt) {ps : List (Fin 16)} (hnodup : ps.Nodup) (s : State) (p : Fin 16) :
    (ps.foldl (fun t q => t.setLink q (g (t.link q))) s).link p = if p ∈ ps then g (s.link p) else s.link p := by
  induction ps generalizing s with
  | nil => rfl
  | cons q ps ih =>
    obtain ⟨hq, hps⟩ := List.nodup_cons.mp hnodup
    rw [List.foldl_cons, ih hps]
    by_cases hpq : q = p
    · subst hpq
      simp only [hq, List.mem_cons, true_or, if_true, if_false, State.link_setLink]
    · have hne : p ≠ q := Ne.symm hpq
      simp only [State.link_setLink_ne s _ hpq, List.mem_cons, hne, false_or]

theorem execTransitWindowTick_links (s : State) :
    ∃ t, execTransitWindowTick s = .next t ∧ ∀ p, t.link p = { s.link p with transit := 0 } := by
  refine ⟨_, rfl, fun p => ?_⟩
  have hpass := State.link_foldl_setLink LinkSt.freshShare (List.nodup_finRange 16) s p
  rw [if_pos (List.mem_finRange p)] at hpass
  exact hpass

/-! ## Packets at a pen head (R295, R298, R299, R302) -/

/-- The packet has come from a port with its hops used up; the package's own packets have no such limit. -/
def State.hopsSpent (s : State) (src : PenSrc) (pk : Packet) : Bool :=
  match src with
  | .port _ _ => decide (s.getF (.rout (PenSrcHub src)) Reg.ROUT.ROUTE_CFG_HOP_LIMIT ≤ pk.hops)
  | .inject _ _ => false

/-- The route of a request or reply whose turn it is: delivered here, without a route, on the candidate chosen, on its escape
port, or none yet. -/
def State.routeFlow (s : State) (src : PenSrc) (pk : Packet) (errs : LineErrs) (room : Nat) : State :=
  let h := PenSrcHub src
  let w := s.dEntry h pk.dstFid
  if dValid w && dLocal w then (s.popPen src).deliver h pk errs room
  else if !s.hasRoute h pk.dstFid then (s.popPen src).noRoute h pk
  else
    let v := if opNet pk.op = some 0 then 0 else 2
    match s.pickPort h v pk w with
    | some p =>
      let t := (s.popPen src).forward h p v pk
      (t.setRout h { t.rout h with rot := p }).turnAfter src [p]
    | none =>
      match s.escPort w with
      | some p =>
        if (s.penAt src).esc && p ≠ 13 && s.portFree p (v + 1) pk then
          (((s.popPen src).forward h p (v + 1) pk).addPair (.rout h) Reg.ROUT.ESC_PKTS_LO Reg.ROUT.ESC_PKTS_HI 1).turnAfter
            src [p]
        else s
      | none => s

section Head

variable {s : State} {src : PenSrc} {pk : Packet} {rest : List Packet} (hpkts : (s.penAt src).pkts = pk :: rest)

include hpkts

/-- What is done with the packet at a pen head, in the order in which its cases are judged. -/
theorem execPacketRoute_head (errs : LineErrs) (room : Nat) :
    execPacketRoute src errs room s = .next (
      if s.hopsSpent src pk then ((s.popPen src).bump (.rout (PenSrcHub src)) Reg.ROUT.HOP_DROP_COUNT).raise
        (.rout (PenSrcHub src)) Evt.ROUT.PKT_DROP
      else if pk.op = 0x05 then s.routeMc src pk errs
      else if !s.myTurn src then s
      else if opNet pk.op = some 2 then s.routeCkt src pk errs
      else s.routeFlow src pk errs room) := by
  unfold execPacketRoute
  simp only [hpkts]
  cases src <;> simp only [State.hopsSpent, Bool.true_and, Bool.false_and] <;> rfl

/-- A packet delivered here takes no port, and waits for none. -/
theorem State.myTurn_local (hnet : opNet pk.op ≠ some 2) (hop : pk.op ≠ 0x05)
    (hlocal : (dValid (s.dEntry (PenSrcHub src) pk.dstFid) && dLocal (s.dEntry (PenSrcHub src) pk.dstFid)) = true) :
    s.myTurn src = true := by
  have hwants : s.wants src = [] := by
    unfold State.wants
    simp only [hpkts, hnet, hop, hlocal, if_true, if_false]
  unfold State.myTurn
  rw [hwants, List.all_nil]

theorem execPacketRoute_hopsSpent (errs : LineErrs) (room : Nat) (hspent : s.hopsSpent src pk = true) :
    execPacketRoute src errs room s = .next (((s.popPen src).bump (.rout (PenSrcHub src)) Reg.ROUT.HOP_DROP_COUNT).raise
      (.rout (PenSrcHub src)) Evt.ROUT.PKT_DROP) := by
  rw [execPacketRoute_head hpkts, if_pos hspent]

theorem execPacketRoute_flow (errs : LineErrs) (room : Nat) (hhops : s.hopsSpent src pk = false)
    (hnet : opNet pk.op ≠ some 2) (hop : pk.op ≠ 0x05) (hturn : s.myTurn src = true) :
    execPacketRoute src errs room s = .next (s.routeFlow src pk errs room) := by
  rw [execPacketRoute_head hpkts]
  simp only [hhops, hop, hturn, hnet, Bool.not_true, Bool.false_eq_true, if_false]

/-- While another pen's packet comes before it at a port it takes, a packet waits. -/
theorem execPacketRoute_waits (errs : LineErrs) (room : Nat) (hhops : s.hopsSpent src pk = false) (hop : pk.op ≠ 0x05)
    (hturn : s.myTurn src = false) : execPacketRoute src errs room s = .next s := by
  rw [execPacketRoute_head hpkts]
  simp only [hhops, hop, hturn, Bool.not_false, Bool.false_eq_true, if_true, if_false]

end Head

/-! ## Routes of requests and replies (R295, R296, R299) -/

section Route

variable {s : State} {src : PenSrc} {pk : Packet} {w : Word} (hw : w = s.dEntry (PenSrcHub src) pk.dstFid)

include hw

theorem State.routeFlow_local (errs : LineErrs) (room : Nat) (hlocal : (dValid w && dLocal w) = true) :
    s.routeFlow src pk errs room = (s.popPen src).deliver (PenSrcHub src) pk errs room := by
  subst hw
  exact if_pos hlocal

variable (hfar : (dValid w && dLocal w) = false)

include hfar

theorem State.routeFlow_unrouted (errs : LineErrs) (room : Nat) (hroute : s.hasRoute (PenSrcHub src) pk.dstFid = false) :
    s.routeFlow src pk errs room = (s.popPen src).noRoute (PenSrcHub src) pk := by
  subst hw
  unfold State.routeFlow
  simp only [hfar, hroute, Bool.not_false, Bool.false_eq_true, if_true, if_false]

variable {v : Nat} {q : Fin 16} (hroute : s.hasRoute (PenSrcHub src) pk.dstFid = true)
  (hv : v = if opNet pk.op = some 0 then 0 else 2)

include hroute hv

theorem State.routeFlow_picked {a : State} (errs : LineErrs) (room : Nat)
    (hpick : s.pickPort (PenSrcHub src) v pk w = some q) (ha : a = (s.popPen src).forward (PenSrcHub src) q v pk) :
    s.routeFlow src pk errs room =
      (a.setRout (PenSrcHub src) { a.rout (PenSrcHub src) with rot := q }).turnAfter src [q] := by
  subst hw hv ha
  unfold State.routeFlow
  simp only [hfar, hroute, hpick, Bool.not_true, Bool.false_eq_true, if_false]

/-- A packet that has waited, with no candidate free, leaves on its escape channel. -/
theorem State.routeFlow_escape (errs : LineErrs) (room : Nat) (hpick : s.pickPort (PenSrcHub src) v pk w = none)
    (hesc : s.escPort w = some q) (hfree : ((s.penAt src).esc && q ≠ 13 && s.portFree q (v + 1) pk) = true) :
    s.routeFlow src pk errs room = (((s.popPen src).forward (PenSrcHub src) q (v + 1) pk).addPair (.rout (PenSrcHub src))
      Reg.ROUT.ESC_PKTS_LO Reg.ROUT.ESC_PKTS_HI 1).turnAfter src [q] := by
  subst hw hv
  unfold State.routeFlow
  simp only [hfar, hroute, hpick, hesc, hfree, Bool.not_true, Bool.false_eq_true, if_true, if_false]

end Route

/-- Settles O27: the life of a pen, the transit shares, then the packet at a pen head by what becomes of it. -/
theorem pensAndRoutes : Obligations.PensAndRoutes := by
  refine ⟨?_, ?_, ?_, ?_, ?_, ?_, ?_, ?_, ?_, ?_, ?_⟩
  · intro s a p v b rest harrived ha
    exact execPacketCommit_arrived harrived ha
  · intro s a p v l hl hsettled ha
    exact execPenReset_settled hl hsettled ha
  · intro s src pk rest hpkts hnet
    exact execEscWaitExpire_flowPacket hpkts hnet
  · intro s src pk rest hpkts
    exact execPenAgeDrop_head hpkts
  · intro s
    exact execTransitWindowTick_links s
  · intro s p v pk rest errs room hpkts hlimit
    exact execPacketRoute_hopsSpent hpkts errs room (decide_eq_true hlimit)
  · intro s src pk rest errs room w hpkts hhops hnet hop hw hlocal
    have hturn : s.myTurn src = true := State.myTurn_local hpkts hnet hop (hw ▸ hlocal)
    rw [← State.routeFlow_local hw errs room hlocal]
    exact execPacketRoute_flow hpkts errs room hhops hnet hop hturn
  · intro s src pk rest errs room w hpkts hhops hnet hop hturn hw hfar hroute
    rw [← State.routeFlow_unrouted hw hfar errs room hroute]
    exact execPacketRoute_flow hpkts errs room hhops hnet hop hturn
  · intro s a src pk rest errs room v w q hpkts hhops hnet hop hturn hw hfar hroute hv hpick ha
    rw [← State.routeFlow_picked hw hfar hroute hv errs room hpick ha]
    exact execPacketRoute_flow hpkts errs room hhops hnet hop hturn
  · intro s src pk rest errs room v w q hpkts hhops hnet hop hturn hw hfar hroute hv hpick hesc hfree
    rw [← State.routeFlow_escape hw hfar hroute hv errs room hpick hesc hfree]
    exact execPacketRoute_flow hpkts errs room hhops hnet hop hturn
  · intro s src pk rest errs room hpkts hhops hop hturn
    exact execPacketRoute_waits hpkts errs room hhops hop hturn

end Sys2Proof.Machine
end

section
/-! PROOFS. Timers of flows, circuits and multicast rounds, FLOW_CTL, the ATOMIC service, a circuit table read into its
shadow (10_fabric_routing.md, R294, R313, R314, R316, R319, R326, R331, R337). -/

namespace Sys2Proof.Machine

open Sys2Proof

/-! ## Requests unacknowledged (R314, R319) -/

section Rto

variable {s : State} {c : Fin 262144} {seq : BitVec 32} {x : SentPkt}
  (hsent : (s.flow c).out.find? (fun y => y.pkt.seq == seq.toNat) = some x) (hon : (s.flow c).state = 1)

include hsent hon

theorem execFlowRto_again {a : State} (htries : x.tries < (s.flow c).retryMax)
    (ha : a = s.setFlow c { s.flow c with
      out := (s.flow c).out.map (fun y => if y.pkt.seq = seq.toNat then { y with tries := y.tries + 1 } else y) }) :
    execFlowRto c seq s = .next ((a.bump (.rout (flowHub c)) Reg.ROUT.RETX_COUNT).inject (flowHub c) 0 x.pkt) := by
  subst ha
  unfold execFlowRto
  simp only [hsent, hon, ne_eq, not_true_eq_false, if_false, if_neg (Nat.not_le.mpr htries)]

theorem execFlowRto_spent (htries : (s.flow c).retryMax ≤ x.tries) : execFlowRto c seq s = .next (s.failFlow c) := by
  unfold execFlowRto
  simp only [hsent, hon, htries, ne_eq, not_true_eq_false, if_false, if_true]

end Rto

/-! ## Packets accepted and not covered (R316, R326) -/

theorem execFlowAckTimer_flow {s : State} {c : Fin 262144} (hon : (s.flow c).state = 1) (hkind : (s.flow c).kind = 2)
    (hfresh : 0 < (s.flow c).fresh) : execFlowAckTimer false c s = .next (s.sendAck c) := by
  unfold execFlowAckTimer
  simp only [hon, hkind, hfresh, decide_true, Bool.and_self, Bool.false_eq_true, if_true, if_false]

theorem execFlowAckTimer_circuit {s : State} {c : Fin 262144} (hvalid : cktValid (s.cktEntry 0 (c % 1024)) = true)
    (hsink : cktRole (s.cktEntry 0 (c % 1024)) = 3) (hfresh : 0 < (s.cktSt (c % 1024)).fresh) :
    execFlowAckTimer true c s =
      .next (s.sendCktAck (portHub ⟨cktIn (s.cktEntry 0 (c % 1024)) % 16, by omega⟩) (c % 1024)) := by
  unfold execFlowAckTimer
  simp only [hvalid, hsink, hfresh, decide_true, Bool.and_self, if_true]

/-! ## FLOW_CTL (R313, R337) -/

section FlowCtl

variable {s a : State} {h : Fin 2} {c : Nat} (hready : s.ready = true) (hc : c = s.getF (.rout h) Reg.ROUT.FLOW_SEL_CTX)
  (hhome : flowHub c = h) (ha : a = s.endFlow c 0)

include hready hc hhome ha

/-- ENABLE ends what is outstanding, then the entry read decides: BAD where it cannot be read, else what its checks say. -/
theorem execFlowEnable_home {b : State} {st : Nat} {bs : List Byte} (errs : LineErrs)
    (hread : (a.findErrs errs).readMem (.hub h)
      (s.getPair (.rout h) Reg.ROUT.FLOW_TAB_LO Reg.ROUT.FLOW_TAB_HI + 32 * c) 32 = (b, st, bs)) :
    execFlowEnable h errs s =
      .next (b.setFlow c (if st ≠ 0 then { Flow.init with state := 3 } else b.flowOfEntry c bs)) := by
  have hopen : s.pageOpen (.rout h) = true := hready
  subst hc ha
  unfold execFlowEnable
  simp only [hopen, hhome, hread, Bool.not_true, ne_eq, not_true_eq_false, decide_false, Bool.or_self, Bool.false_eq_true,
    if_false]

theorem execFlowDisable_home : execFlowDisable h s = .next a := by
  have hopen : s.pageOpen (.rout h) = true := hready
  subst hc ha
  unfold execFlowDisable
  simp only [hopen, hhome, Bool.not_true, ne_eq, not_true_eq_false, decide_false, Bool.or_self, Bool.false_eq_true, if_false]

end FlowCtl

/-! ## Circuits (R326) -/

theorem execCktRto_source {s : State} {c : Fin 1024} (hvalid : cktValid (s.cktEntry 0 c) = true)
    (hsource : cktRole (s.cktEntry 0 c) = 1) (hlives : (s.cktSt c).failed = false) :
    execCktRto c s = .next (s.cktResend c) := by
  unfold execCktRto
  simp only [hvalid, hsource, hlives, decide_true, Bool.not_false, Bool.and_self, if_true]

/-! ## Multicast rounds (R314, R331) -/

/-- A message's packets carry the number of a new round. -/
def resent (m : McastMsg) (l : List SentPkt) : List SentPkt :=
  l.map (fun x => if x.pkt.msgId = m.msgId then { x with pkt := { x.pkt with tryN := m.round + 1 } } else x)

section Round

variable {s : State} {c : Fin 262144} {msgId : BitVec 8} {m : McastMsg}
  (hm : (s.flow c).mcast.find? (fun y => y.msgId == msgId.toNat) = some m) (hon : (s.flow c).state = 1)
  (hkind : (s.flow c).kind = 3)

include hm hon hkind

theorem execMcRoundRto_again {a : State} (hround : m.round < (s.flow c).retryMax) (hleft : m.left ≠ []) (htry : m.round < 7)
    (ha : a = s.setFlow c { s.flow c with
      mcast := (s.flow c).mcast.map (fun y => if y.msgId = m.msgId then { y with round := y.round + 1 } else y)
      out := resent m (s.flow c).out, wait := resent m (s.flow c).wait }) :
    execMcRoundRto c msgId s = .next (((resent m (s.flow c).out).filter (fun x => x.pkt.msgId = m.msgId)).foldl
      (fun (s : State) x => (s.bump (.rout (flowHub c)) Reg.ROUT.RETX_COUNT).inject (flowHub c) 0 x.pkt) a) := by
  have htryN : s.tryOf (m.round + 1) = m.round + 1 := if_pos (by omega)
  have hnonempty : m.left.isEmpty = false := List.isEmpty_eq_false_iff.mpr hleft
  subst ha
  unfold execMcRoundRto
  simp only [hm, hon, hkind, htryN, hnonempty, Nat.not_le.mpr hround, Nat.not_le.mpr htry, ne_eq, not_true_eq_false,
    decide_false, Bool.or_self, Bool.false_eq_true, if_false, beq_iff_eq]
  rfl

/-- After RETRY_MAX rounds the positions unmarked count as fenced, and the message ends. -/
theorem execMcRoundRto_spent (hround : (s.flow c).retryMax ≤ m.round) :
    execMcRoundRto c msgId s = .next (s.mcEnd c { m with fenced := m.fenced + m.left.length, left := [] }) := by
  unfold execMcRoundRto
  simp only [hm, hon, hkind, hround, ne_eq, not_true_eq_false, decide_false, decide_true, Bool.or_self, Bool.true_or,
    Bool.false_eq_true, if_false, if_true]

end Round

/-! ## The ATOMIC service (R294) -/

section Service

variable {s : State} {d : Fin 4} {t : Fin 104} {k : Fin 2} {flow : Fin 262144} (hruns : s.kernelRuns d t k = true)
  (addr x cmp : BitVec 64) (aop : Fin 16)

include hruns

theorem execKernelAtomic_sent (hon : (s.flow flow).state = 1) (hkind : (s.flow flow).kind = 1) :
    execKernelAtomic d t k flow addr x cmp aop s = .next (s.sendOnFlow flow (.atomic d t k) { s.blankPacket 0x04 0 with
      addr := addr.toNat, aop := aop, arg := cmp.toNat, msgBytes := 8, payload := leBytes 8 x.toNat }) := by
  unfold execKernelAtomic
  simp only [hruns, hon, hkind, Bool.not_true, Bool.false_eq_true, ne_eq, not_true_eq_false, if_false]

theorem execKernelAtomic_refused (hunfit : (s.flow flow).state ≠ 1 ∨ (s.flow flow).kind ≠ 1) :
    execKernelAtomic d t k flow addr x cmp aop s =
      .next (s.emit (.service d t k (if (s.flow flow).state ≠ 1 then St.destFenced else St.badMode) [])) := by
  unfold execKernelAtomic
  simp only [hruns, Bool.not_true, Bool.false_eq_true, if_false]
  by_cases hon : (s.flow flow).state = 1
  · have hkind : (s.flow flow).kind ≠ 1 := hunfit.resolve_left (not_not_intro hon)
    simp only [hon, hkind, ne_eq, not_true_eq_false, not_false_eq_true, if_false, if_true]
  · simp only [hon, ne_eq, not_false_eq_true, if_true]

end Service

/-! ## Tables (R337) -/

/-- The read of a circuit table has ended; BUSY shows whether another waits. -/
def State.xtabRead (s : State) (h : Fin 2) (rest : List Nat) : State :=
  (s.setRout h { s.rout h with xbusy := rest }).setF (.rout h) Reg.ROUT.XTAB_STAT_BUSY (if rest.isEmpty then 0 else 1)

/-- A circuit table that lies within package memory is read whole into the shadow, or shows why not. -/
theorem execXtabReadDone_circuit {s a b : State} {h : Fin 2} {errs : LineErrs} {rest : List Nat} {src st : Nat}
    (hbusy : (s.rout h).xbusy = 1 :: rest)
    (hsrc : src = s.getSh (.rout h) Reg.ROUT.CKT_TAB_LO + 2 ^ 32 * s.getSh (.rout h) Reg.ROUT.CKT_TAB_HI)
    (hfits : (src % 4096 = 0 && src + 16384 ≤ 2 ^ 41) = true) (ha : a = (s.xtabRead h rest).findErrs errs)
    (hst : st = a.imageStatus src 16384 4096) (hb : b = a.setF (.rout h) Reg.ROUT.XTAB_STAT_RESULT st) :
    execXtabReadDone h errs s = .next (if st ≠ 0 then b.raise (.rout h) Evt.ROUT.XTAB_FAIL else
      (b.countImage (.hub h) src 16384).setRout h { (b.countImage (.hub h) src 16384).rout h with
        cktShadow := entriesAt (b.countImage (.hub h) src 16384).mm.mem src 16384 4, cktStaged := true,
        crcs := { ((b.countImage (.hub h) src 16384).rout h).crcs with ckt := true } }) := by
  subst hb hst ha
  unfold execXtabReadDone
  simp only [hbusy, if_true, ← hsrc, hfits]
  rfl

/-- Settles O28: each timer with what it sends again or gives up, FLOW_CTL, the ATOMIC service, then the table read. -/
theorem flowsAndTheirTimers : Obligations.FlowsAndTheirTimers := by
  refine ⟨?_, ?_, ?_, ?_, ?_, ?_, ?_, ?_, ?_, ?_, ?_⟩
  · intro s a c seq x hsent hon htries ha
    exact execFlowRto_again hsent hon htries ha
  · intro s c seq x hsent hon htries
    exact execFlowRto_spent hsent hon htries
  · intro s c hon hkind hfresh
    exact execFlowAckTimer_flow hon hkind hfresh
  · intro s c hvalid hsink hfresh
    exact execFlowAckTimer_circuit hvalid hsink hfresh
  · intro s a b h errs c st bs hready hc hhome ha hread
    exact ⟨execFlowEnable_home hready hc hhome ha errs hread, execFlowDisable_home hready hc hhome ha⟩
  · intro s c hvalid hsource hlives
    exact execCktRto_source hvalid hsource hlives
  · intro s a c msgId m x1 x2 hm hon hkind hround hleft htry hx1 hx2 ha
    subst hx1 hx2
    exact execMcRoundRto_again hm hon hkind hround hleft htry ha
  · intro s c msgId m hm hon hkind hround
    exact execMcRoundRto_spent hm hon hkind hround
  · intro s d t k flow addr x cmp aop hruns hon hkind
    exact execKernelAtomic_sent hruns addr x cmp aop hon hkind
  · intro s d t k flow addr x cmp aop hruns hunfit
    exact execKernelAtomic_refused hruns addr x cmp aop hunfit
  · intro s a b h errs rest src st hbusy hsrc hfits ha hst hb
    exact execXtabReadDone_circuit hbusy hsrc hfits ha hst hb

end Sys2Proof.Machine
end

section
/-! PROOFS. Requests of flows at their receiver: refused, dropped, repeated, beyond the window, or received and carried out
(10_fabric_routing.md, 07_data_placement.md, R221, R294, R309, R310, R315, R316, R317, R318, R321). -/

namespace Sys2Proof.Machine

open Sys2Proof

/-! ## Packets of an operation -/

theorem isOp_op {op : Nat} {pk : Packet} (hop : isOp op pk = true) : pk.op = op := by
  unfold isOp at hop
  exact beq_iff_eq.mp (Bool.and_eq_true_iff.mp hop).1

/-- A packet is of an operation where its OP says so and its payload lies in the operation's range. -/
theorem isOp_of {op : Nat} {pk : Packet} (hop : pk.op = op) (hpay : payOk op pk.payload.length = true) :
    isOp op pk = true := by
  unfold isOp
  rw [hop, hpay, beq_self_eq_true, Bool.and_self]

/-- The commands that bring a request to its receiver, each with its operation. -/
def bringsRequest (c : Instr) (h : Fin 2) (pk : Packet) (errs : LineErrs) : Prop :=
  (c = .write h pk errs ∧ isOp 0x01 pk = true) ∨ (c = .haloWrite h pk ∧ isOp 0x02 pk = true) ∨
  (c = .readReq h pk errs ∧ isOp 0x03 pk = true) ∨ (c = .atomic h pk errs ∧ isOp 0x04 pk = true) ∨
  (c = .guest h pk ∧ isOp 0x06 pk = true) ∨ (c = .syncFrag h pk ∧ isOp 0x07 pk = true)

/-- Each delivers its request; those that read no memory bring no lines found bad. -/
theorem exec_bringsRequest {c : Instr} {h : Fin 2} {pk : Packet} {errs : LineErrs} (hc : bringsRequest c h pk errs)
    (s : State) :
    ∃ lines, exec c s = .next (s.flowRequest h pk lines) := by
  obtain ⟨rfl, hop⟩ | ⟨rfl, hop⟩ | ⟨rfl, hop⟩ | ⟨rfl, hop⟩ | ⟨rfl, hop⟩ | ⟨rfl, hop⟩ := hc <;>
    exact ⟨_, congrArg Host.Outcome.next (if_pos hop)⟩

/-- The commands whose request is answered by an ACK, or by a reply that is sent once. -/
def bringsAcked (c : Instr) (h : Fin 2) (pk : Packet) (errs : LineErrs) : Prop :=
  (c = .write h pk errs ∧ isOp 0x01 pk = true) ∨ (c = .haloWrite h pk ∧ isOp 0x02 pk = true) ∨
  (c = .syncFrag h pk ∧ isOp 0x07 pk = true) ∨ (c = .guest h pk ∧ isOp 0x06 pk = true)

theorem bringsRequest_of_bringsAcked {c : Instr} {h : Fin 2} {pk : Packet} {errs : LineErrs} (hc : bringsAcked c h pk errs) :
    bringsRequest c h pk errs := by
  obtain hw | hh | hf | hg := hc
  · exact .inl hw
  · exact .inr (.inl hh)
  · exact .inr (.inr (.inr (.inr (.inr hf))))
  · exact .inr (.inr (.inr (.inr (.inl hg))))

/-- A request that is no READ_REQ and no ATOMIC. -/
theorem op_of_bringsAcked {c : Instr} {h : Fin 2} {pk : Packet} {errs : LineErrs} (hc : bringsAcked c h pk errs) :
    pk.op ≠ 0x03 ∧ pk.op ≠ 0x04 := by
  obtain ⟨_, hop⟩ | ⟨_, hop⟩ | ⟨_, hop⟩ | ⟨_, hop⟩ := hc <;> rw [isOp_op hop] <;> decide

/-! ## Steps 1 and 2 of delivery (R309, R310, R221) -/

theorem State.admitRequest_otherJob {s : State} {pk : Packet} (hjob : s.jobTag = 0 ∨ pk.jobTag ≠ s.jobTag) :
    s.admitRequest pk = St.tagReject := if_pos hjob

section OwnJob

variable {s : State} {pk : Packet} (hjob : s.jobTag ≠ 0) (htag : pk.jobTag = s.jobTag)

include hjob htag

/-- A packet of the package's job. -/
theorem State.ownJob : ¬ (s.jobTag = 0 ∨ pk.jobTag ≠ s.jobTag) :=
  not_or_intro hjob (not_not_intro htag)

theorem State.admitRequest_fenced (hfence : s.fenced = true) : s.admitRequest pk = St.destFenced := by
  unfold State.admitRequest
  rw [if_neg (State.ownJob hjob htag), if_pos hfence]

theorem State.admitRequest_admitted (hfence : s.fenced = false) : s.admitRequest pk = 0 := by
  unfold State.admitRequest
  rw [if_neg (State.ownJob hjob htag), hfence, if_neg Bool.false_ne_true]

end OwnJob

/-- Only a request of another job is one a lender turns down. -/
theorem State.guestTurned_of_ne {s : State} {pk : Packet} (hst : s.admitRequest pk ≠ St.tagReject) : s.guestTurned pk = s :=
  if_neg fun hturned => hst hturned.2.2

theorem State.flowRequest_refused {s : State} {pk : Packet} (h : Fin 2) (lines : LineErrs) (hst : s.admitRequest pk ≠ 0) :
    s.flowRequest h pk lines = (s.guestTurned pk).refuse h pk (s.admitRequest pk) := if_pos hst

/-! ## Step 3 (R309, R315) -/

/-- A SEQ comes not before itself. -/
theorem seqBefore_self (n : Nat) : seqBefore n n = false := by
  unfold seqBefore
  exact decide_eq_false (by omega)

theorem State.flowRequest_stranger {s : State} {pk : Packet} (h : Fin 2) (lines : LineErrs) (hst : s.admitRequest pk = 0)
    (hctx : (s.flow pk.ctx).state ≠ 1 ∨ (s.flow pk.ctx).kind ≠ 2 ∨ (s.flow pk.ctx).peerFid ≠ pk.srcFid) :
    s.flowRequest h pk lines = s.ctxDrop h pk := by
  unfold State.flowRequest
  simp only [hst, ne_eq, not_true_eq_false, if_false]
  exact if_pos hctx

/-- The operation of a request received (R309 step 5). -/
def State.runRequest (s : State) (h : Fin 2) (pk : Packet) (lines : LineErrs) : State :=
  if pk.op = 0x03 then s.readRequest h pk lines else if pk.op = 0x04 then s.atomicRequest h pk lines
  else if pk.op = 0x06 then s.guestRequest h pk else s.flowMessage h pk lines

/-- Half a window accepted draws an ACK (R316). -/
def State.ackHalf (s : State) (c : Nat) : State :=
  if 0 < (s.flow c).fresh ∧ 2 ^ (s.flow c).winLog / 2 ≤ (s.flow c).fresh then s.sendAck c else s

section Receiver

variable {s : State} {pk : Packet} (hst : s.admitRequest pk = 0) (hon : (s.flow pk.ctx).state = 1)
  (hkind : (s.flow pk.ctx).kind = 2) (hpeer : (s.flow pk.ctx).peerFid = pk.srcFid)

include hst hon hkind hpeer

theorem State.flowRequest_duplicate (h : Fin 2) (lines : LineErrs)
    (hdup : seqBefore pk.seq (s.flow pk.ctx).next = true ∨ (s.flow pk.ctx).got.contains pk.seq = true)
    (hop : pk.op ≠ 0x03 ∧ pk.op ≠ 0x04) :
    s.flowRequest h pk lines = (s.bump (.rout (flowHub pk.ctx)) Reg.ROUT.DUP_COUNT).sendAck pk.ctx := by
  obtain ⟨hread, hatomic⟩ := hop
  unfold State.flowRequest
  simp only [hst, hon, hkind, hpeer, ne_eq, not_true_eq_false, or_self, if_false, Bool.or_eq_true, if_pos hdup, hread,
    hatomic]

theorem State.flowRequest_beyond (h : Fin 2) (lines : LineErrs) (hnew : seqBefore pk.seq (s.flow pk.ctx).next = false)
    (hgot : (s.flow pk.ctx).got.contains pk.seq = false)
    (hwin : 2 ^ (s.flow pk.ctx).winLog ≤ (pk.seq + 2 ^ 32 - (s.flow pk.ctx).next) % 2 ^ 32) :
    s.flowRequest h pk lines = s.bump (.rout (flowHub pk.ctx)) Reg.ROUT.FLOW_OOW_COUNT := by
  unfold State.flowRequest
  simp only [hst, hon, hkind, hpeer, ne_eq, not_true_eq_false, or_self, if_false, hnew, hgot, Bool.or_self,
    Bool.false_eq_true, if_pos hwin]

/-- The SEQ expected is received and its operation carried out, unless it would open a fifth message. -/
theorem State.flowRequest_expected {a b : State} {h : Fin 2} {lines : LineErrs} (hseq : pk.seq = (s.flow pk.ctx).next)
    (hgot : (s.flow pk.ctx).got.contains pk.seq = false)
    (hroom : pk.op = 0x03 ∨ pk.op = 0x04 ∨ pk.op = 0x06 ∨ fifth (s.flow pk.ctx).openMsgs pk = false)
    (ha : a = s.setFlow pk.ctx ((s.flow pk.ctx).receive pk.seq)) (hb : a.runRequest h pk lines = b) :
    s.flowRequest h pk lines = b.ackHalf pk.ctx := by
  have hnew : seqBefore pk.seq (s.flow pk.ctx).next = false := hseq ▸ seqBefore_self pk.seq
  have hahead : (pk.seq + 2 ^ 32 - (s.flow pk.ctx).next) % 2 ^ 32 = 0 := by omega
  have hwin : ¬ 2 ^ (s.flow pk.ctx).winLog ≤ 0 := Nat.not_le.mpr (Nat.two_pow_pos _)
  have hopens : (pk.op ≠ 0x03 && pk.op ≠ 0x04 && pk.op ≠ 0x06 && fifth (s.flow pk.ctx).openMsgs pk) = false := by
    obtain hop | hop | hop | hfew := hroom
    · rw [hop]; rfl
    · rw [hop]; rfl
    · rw [hop]; rfl
    · rw [hfew, Bool.and_false]
  subst hb ha
  unfold State.flowRequest
  simp only [hst, hon, hkind, hpeer, hnew, hgot, hahead, hwin, hopens, ne_eq, not_true_eq_false, or_self, if_false,
    Bool.false_eq_true, Bool.or_self]
  unfold State.ackHalf
  simp only [Bool.and_eq_true, decide_eq_true_eq]
  rfl

end Receiver

/-! ## Step 5, by operation -/

/-- A write, a halo write or a partial enters its message. -/
theorem State.runRequest_message {pk : Packet} (s : State) (h : Fin 2) (lines : LineErrs)
    (hop : pk.op = 0x01 ∨ pk.op = 0x02 ∨ pk.op = 0x07) : s.runRequest h pk lines = s.flowMessage h pk lines := by
  unfold State.runRequest
  rw [if_neg (by omega), if_neg (by omega), if_neg (by omega)]

theorem State.runRequest_read {pk : Packet} (s : State) (h : Fin 2) (lines : LineErrs) (hop : pk.op = 0x03) :
    s.runRequest h pk lines = s.readRequest h pk lines := if_pos hop

theorem State.runRequest_atomic {pk : Packet} (s : State) (h : Fin 2) (lines : LineErrs) (hop : pk.op = 0x04) :
    s.runRequest h pk lines = s.atomicRequest h pk lines := by
  unfold State.runRequest
  rw [if_neg (by omega), if_pos hop]

theorem State.runRequest_guest {pk : Packet} (s : State) (h : Fin 2) (lines : LineErrs) (hop : pk.op = 0x06) :
    s.runRequest h pk lines = s.guestRequest h pk := by
  unfold State.runRequest
  rw [if_neg (by omega), if_neg (by omega), if_pos hop]

/-- Settles O29: what is refused, dropped and counted whatever it asks, then the SEQ expected by what it asks. -/
theorem requestsDelivered : Obligations.RequestsDelivered := by
  refine ⟨?_, ?_, ?_, ?_, ?_, ?_, ?_, ?_, ?_, ?_, ?_, ?_⟩
  · intro c s h pk errs hc hjob
    obtain ⟨lines, hexec⟩ := exec_bringsRequest hc s
    have hst := State.admitRequest_otherJob hjob
    rw [hexec, State.flowRequest_refused h lines (hst ▸ by decide), hst]
  · intro c s h pk errs hc hjob htag hfence
    obtain ⟨lines, hexec⟩ := exec_bringsRequest hc s
    have hst := State.admitRequest_fenced hjob htag hfence
    rw [hexec, State.flowRequest_refused h lines (hst ▸ by decide), State.guestTurned_of_ne (hst ▸ by decide), hst]
  · intro s pk
    rfl
  · intro c s h pk errs hc hjob htag hfence hctx
    obtain ⟨lines, hexec⟩ := exec_bringsRequest hc s
    rw [hexec, State.flowRequest_stranger h lines (State.admitRequest_admitted hjob htag hfence) hctx]
  · intro c s h pk errs hc hjob htag hfence hon hkind hpeer hdup
    obtain ⟨lines, hexec⟩ := exec_bringsRequest (bringsRequest_of_bringsAcked hc) s
    rw [hexec, State.flowRequest_duplicate (State.admitRequest_admitted hjob htag hfence) hon hkind hpeer h lines hdup
      (op_of_bringsAcked hc)]
  · intro c s h pk errs hc hjob htag hfence hon hkind hpeer hnew hgot hwin
    obtain ⟨lines, hexec⟩ := exec_bringsRequest hc s
    rw [hexec, State.flowRequest_beyond (State.admitRequest_admitted hjob htag hfence) hon hkind hpeer h lines hnew hgot
      hwin]
  · intro s a b h pk errs hop hjob htag hfence hon hkind hpeer hseq hgot hfew ha hb
    have hrun : a.runRequest h pk errs = b := hb ▸ State.runRequest_message a h errs (.inl (isOp_op hop))
    exact congrArg Host.Outcome.next ((if_pos hop).trans (State.flowRequest_expected
      (State.admitRequest_admitted hjob htag hfence) hon hkind hpeer hseq hgot (.inr (.inr (.inr hfew))) ha hrun))
  · intro s a b h pk hop hjob htag hfence hon hkind hpeer hseq hgot hfew ha hb
    have hrun : a.runRequest h pk [] = b := hb ▸ State.runRequest_message a h [] (.inr (.inl (isOp_op hop)))
    exact congrArg Host.Outcome.next ((if_pos hop).trans (State.flowRequest_expected
      (State.admitRequest_admitted hjob htag hfence) hon hkind hpeer hseq hgot (.inr (.inr (.inr hfew))) ha hrun))
  · intro s a b h pk hop hjob htag hfence hon hkind hpeer hseq hgot hfew ha hb
    have hrun : a.runRequest h pk [] = b := hb ▸ State.runRequest_message a h [] (.inr (.inr (isOp_op hop)))
    exact congrArg Host.Outcome.next ((if_pos hop).trans (State.flowRequest_expected
      (State.admitRequest_admitted hjob htag hfence) hon hkind hpeer hseq hgot (.inr (.inr (.inr hfew))) ha hrun))
  · intro s a b h pk errs hop hjob htag hfence hon hkind hpeer hseq hgot ha hb
    have hrun : a.runRequest h pk errs = b := hb ▸ State.runRequest_read a h errs (isOp_op hop)
    exact congrArg Host.Outcome.next ((if_pos hop).trans (State.flowRequest_expected
      (State.admitRequest_admitted hjob htag hfence) hon hkind hpeer hseq hgot (.inl (isOp_op hop)) ha hrun))
  · intro s a b h pk errs hop hjob htag hfence hon hkind hpeer hseq hgot ha hb
    have hrun : a.runRequest h pk errs = b := hb ▸ State.runRequest_atomic a h errs (isOp_op hop)
    exact congrArg Host.Outcome.next ((if_pos hop).trans (State.flowRequest_expected
      (State.admitRequest_admitted hjob htag hfence) hon hkind hpeer hseq hgot (.inr (.inl (isOp_op hop))) ha hrun))
  · intro s a b h pk hop hjob htag hfence hon hkind hpeer hseq hgot ha hb
    have hrun : a.runRequest h pk [] = b := hb ▸ State.runRequest_guest a h [] (isOp_op hop)
    exact congrArg Host.Outcome.next ((if_pos hop).trans (State.flowRequest_expected
      (State.admitRequest_admitted hjob htag hfence) hon hkind hpeer hseq hgot (.inr (.inr (.inl (isOp_op hop)))) ha hrun))

end Sys2Proof.Machine
end

section
/-! PROOFS. Replies at the sender, from the checks that drop them to what each does where it is expected
(10_fabric_routing.md, R309, R314, R318, R319, R322, R326, R331). -/

namespace Sys2Proof.Machine

open Sys2Proof

/-! ## The commands that bring replies -/

/-- The commands that bring a reply to a flow context, which takes it by its operation. -/
def bringsFlowReply (c : Instr) (h : Fin 2) (pk : Packet) (errs : LineErrs) (room : Nat) : Prop :=
  (c = .readRsp h pk errs ∧ isOp 0x10 pk = true) ∨ errs = [] ∧ ((c = .atomicRsp h pk ∧ isOp 0x11 pk = true) ∨
    (c = .ack h pk ∧ isOp 0x12 pk = true) ∨ (c = .guestRsp h pk room ∧ isOp 0x16 pk = true))

/-- The commands that bring a reply of any kind. -/
def bringsReply (c : Instr) (h : Fin 2) (pk : Packet) (errs : LineErrs) (room : Nat) : Prop :=
  (c = .readRsp h pk errs ∧ isOp 0x10 pk = true) ∨ errs = [] ∧ ((c = .atomicRsp h pk ∧ isOp 0x11 pk = true) ∨
    (c = .ack h pk ∧ isOp 0x12 pk = true) ∨ (c = .reject h pk ∧ isOp 0x13 pk = true) ∨
    (c = .mcAck h pk ∧ isOp 0x14 pk = true) ∨ (c = .cktAck h pk ∧ isOp 0x15 pk = true) ∨
    (c = .guestRsp h pk room ∧ isOp 0x16 pk = true))

/-- The operations of READ_RSP, ATOMIC_RSP, ACK and GUEST_RSP. -/
def flowReplyOp (op : Nat) : Prop := op = 0x10 ∨ op = 0x11 ∨ op = 0x12 ∨ op = 0x16

section Brings

variable {c : Instr} {h : Fin 2} {pk : Packet} {errs : LineErrs} {room : Nat}

/-- Each delivers its reply once the lines it found bad are known. -/
theorem exec_bringsReply (hc : bringsReply c h pk errs room) (s : State) :
    ∃ k, exec c s = .next ((s.findErrs errs).deliverReply h pk k) := by
  obtain ⟨rfl, hop⟩ | ⟨rfl, ⟨rfl, hop⟩ | ⟨rfl, hop⟩ | ⟨rfl, hop⟩ | ⟨rfl, hop⟩ | ⟨rfl, hop⟩ | ⟨rfl, hop⟩⟩ := hc <;>
    exact ⟨_, congrArg Host.Outcome.next (if_pos hop)⟩

theorem bringsReply_of_bringsFlowReply (hc : bringsFlowReply c h pk errs room) : bringsReply c h pk errs room := by
  obtain hread | ⟨herrs, hatomic | hack | hguest⟩ := hc
  · exact .inl hread
  · exact .inr ⟨herrs, .inl hatomic⟩
  · exact .inr ⟨herrs, .inr (.inl hack)⟩
  · exact .inr ⟨herrs, .inr (.inr (.inr (.inr (.inr hguest))))⟩

theorem flowReplyOp_of_bringsFlowReply (hc : bringsFlowReply c h pk errs room) : flowReplyOp pk.op := by
  obtain ⟨_, hread⟩ | ⟨_, ⟨_, hatomic⟩ | ⟨_, hack⟩ | ⟨_, hguest⟩⟩ := hc
  · exact .inl (isOp_op hread)
  · exact .inr (.inl (isOp_op hatomic))
  · exact .inr (.inr (.inl (isOp_op hack)))
  · exact .inr (.inr (.inr (isOp_op hguest)))

end Brings

theorem isOp_reject {pk : Packet} (hop : pk.op = 0x13) (hpay : pk.payload = []) : isOp 0x13 pk = true :=
  isOp_of hop (by rw [hpay]; rfl)

/-! ## Delivery of a reply (R309) -/

theorem State.deliverReply_otherJob {s : State} {pk : Packet} (h : Fin 2) (room : Nat)
    (hjob : s.jobTag = 0 ∨ pk.jobTag ≠ s.jobTag) :
    s.deliverReply h pk room = s.bump (.rout (pktHub h pk)) Reg.ROUT.TAG_DROP_COUNT := if_pos hjob

/-- What a REJECT does, by the packet it covers. -/
def State.rejectOf (s : State) (h : Fin 2) (pk : Packet) (covered : Option Covered) : State :=
  match covered with
  | some (.flow c x) => s.flowRejected c x (pk.arg % 256)
  | some (.ckt c x) => if notTaken (pk.arg % 256) then (s.cktClose c x.pkt.msgId (pk.arg % 256)).dmGoAll else s
  | none => if (s.flow pk.ctx).expects pk.srcFid || s.cktSource h pk.ctx pk.srcFid then s else s.ctxDrop h pk

section OwnReply

variable {s : State} {pk : Packet} (hjob : s.jobTag ≠ 0) (htag : pk.jobTag = s.jobTag)

include hjob htag

theorem State.deliverReply_unexpected (h : Fin 2) (room : Nat) (hop : flowReplyOp pk.op)
    (hctx : (s.flow pk.ctx).expects pk.srcFid = false ∨ ((s.flow pk.ctx).kind = 3 ∧ pk.op ≠ 0x12)) :
    s.deliverReply h pk room = s.ctxDrop h pk := by
  unfold flowReplyOp at hop
  unfold State.deliverReply
  rw [if_neg (State.ownJob hjob htag), if_neg (by omega), if_neg (by omega), if_neg (by omega)]
  refine if_pos ?_
  simpa only [Bool.or_eq_true, Bool.not_eq_true', Bool.and_eq_true, decide_eq_true_eq] using hctx

/-- A reply that its context expects is taken by its operation. -/
theorem State.deliverReply_expected (h : Fin 2) (room : Nat) (hop : flowReplyOp pk.op)
    (hexpected : (s.flow pk.ctx).expects pk.srcFid = true) (hkind : (s.flow pk.ctx).kind ≠ 3 ∨ pk.op = 0x12) :
    s.deliverReply h pk room = if pk.op = 0x12 then s.takeAck pk.ctx pk else if pk.op = 0x10 then s.takeRead pk.ctx pk
      else if pk.op = 0x11 then s.takeAtomic pk.ctx pk else s.takeGuest pk.ctx pk room := by
  have htaken : ¬ ((s.flow pk.ctx).kind = 3 ∧ pk.op ≠ 0x12) := by omega
  unfold flowReplyOp at hop
  unfold State.deliverReply
  rw [if_neg (State.ownJob hjob htag), if_neg (by omega), if_neg (by omega), if_neg (by omega)]
  refine if_neg ?_
  simpa only [hexpected, Bool.not_true, Bool.false_or, Bool.and_eq_true, decide_eq_true_eq] using htaken

/-! ## Replies of flows, by operation (R314, R318, R294, R221) -/

theorem execAck_expected {h : Fin 2} (hop : isOp 0x12 pk = true) (hexpected : (s.flow pk.ctx).expects pk.srcFid = true) :
    execAck h pk s = .next (s.takeAck pk.ctx pk) := by
  have hack : pk.op = 0x12 := isOp_op hop
  unfold execAck
  rw [if_pos hop, State.deliverReply_expected hjob htag h 0 (.inr (.inr (.inl hack))) hexpected (.inr hack), if_pos hack]

theorem execAtomicRsp_expected {h : Fin 2} (hop : isOp 0x11 pk = true)
    (hexpected : (s.flow pk.ctx).expects pk.srcFid = true) (hkind : (s.flow pk.ctx).kind ≠ 3) :
    execAtomicRsp h pk s = .next (s.takeAtomic pk.ctx pk) := by
  have hatomic : pk.op = 0x11 := isOp_op hop
  unfold execAtomicRsp
  rw [if_pos hop, State.deliverReply_expected hjob htag h 0 (.inr (.inl hatomic)) hexpected (.inl hkind), if_neg (by omega),
    if_neg (by omega), if_pos hatomic]

theorem execGuestRsp_expected {h : Fin 2} {room : Nat} (hop : isOp 0x16 pk = true)
    (hexpected : (s.flow pk.ctx).expects pk.srcFid = true) (hkind : (s.flow pk.ctx).kind ≠ 3) :
    execGuestRsp h pk room s = .next (s.takeGuest pk.ctx pk room) := by
  have hguest : pk.op = 0x16 := isOp_op hop
  unfold execGuestRsp
  rw [if_pos hop, State.deliverReply_expected hjob htag h room (.inr (.inr (.inr hguest))) hexpected (.inl hkind),
    if_neg (by omega), if_neg (by omega), if_neg (by omega)]

/-- A READ_RSP is taken once the lines it found bad are known. -/
theorem execReadRsp_expected {s0 : State} {h : Fin 2} {lines : LineErrs} (hs : s = s0.findErrs lines)
    (hop : isOp 0x10 pk = true) (hexpected : (s.flow pk.ctx).expects pk.srcFid = true)
    (hkind : (s.flow pk.ctx).kind ≠ 3) : execReadRsp h pk lines s0 = .next (s.takeRead pk.ctx pk) := by
  have hread : pk.op = 0x10 := isOp_op hop
  unfold execReadRsp
  rw [if_pos hop, ← hs, State.deliverReply_expected hjob htag h 0 (.inl hread) hexpected (.inl hkind), if_neg (by omega),
    if_pos hread]

/-! ## Replies of multicasts and circuits, and refusals (R319, R326, R331) -/

theorem execMcAck_ownJob {h : Fin 2} (hop : isOp 0x14 pk = true) : execMcAck h pk s = .next (s.takeMcAck h pk) := by
  have hack : pk.op = 0x14 := isOp_op hop
  unfold execMcAck State.deliverReply
  rw [if_pos hop, if_neg (State.ownJob hjob htag), if_neg (by omega), if_pos hack]

theorem execCktAck_ownJob {h : Fin 2} (hop : isOp 0x15 pk = true) : execCktAck h pk s = .next (s.takeCktAck h pk) := by
  unfold execCktAck State.deliverReply
  rw [if_pos hop, if_neg (State.ownJob hjob htag), if_pos (isOp_op hop)]

theorem execReject_ownJob {h : Fin 2} (hop : isOp 0x13 pk = true) :
    execReject h pk s = .next (s.rejectOf h pk (s.covered h pk)) := by
  have hreject : pk.op = 0x13 := isOp_op hop
  unfold execReject State.deliverReply
  rw [if_pos hop, if_neg (State.ownJob hjob htag), if_neg (by omega), if_neg (by omega), if_pos hreject]
  rfl

theorem execReject_flow {h : Fin 2} {c : Nat} {x : SentPkt} (hop : isOp 0x13 pk = true)
    (hcovered : s.covered h pk = some (.flow c x)) : execReject h pk s = .next (s.flowRejected c x (pk.arg % 256)) := by
  rw [execReject_ownJob hjob htag hop, hcovered]
  rfl

theorem execReject_circuit {h : Fin 2} {c : Nat} {x : SentPkt} (hop : isOp 0x13 pk = true)
    (hcovered : s.covered h pk = some (.ckt c x)) :
    execReject h pk s =
      .next (if notTaken (pk.arg % 256) then (s.cktClose c x.pkt.msgId (pk.arg % 256)).dmGoAll else s) := by
  rw [execReject_ownJob hjob htag hop, hcovered]
  rfl

theorem execReject_uncovered {h : Fin 2} (hop : isOp 0x13 pk = true) (hcovered : s.covered h pk = none) :
    execReject h pk s = .next (if (s.flow pk.ctx).expects pk.srcFid = true ∨ s.cktSource h pk.ctx pk.srcFid = true then s
      else s.ctxDrop h pk) := by
  rw [execReject_ownJob hjob htag hop, hcovered]
  simp only [State.rejectOf, Bool.or_eq_true]

end OwnReply

/-- Settles O30: replies dropped, replies expected by operation, then REJECTs by the packet they cover. -/
theorem repliesDelivered : Obligations.RepliesDelivered := by
  refine ⟨?_, ?_, ?_, ?_, ?_, ?_, ?_, ?_, ?_, ?_, ?_⟩
  · intro c s0 s h pk errs room hc hs hjob
    obtain ⟨k, hexec⟩ := exec_bringsReply hc s0
    rw [hexec, ← hs, State.deliverReply_otherJob h k hjob]
  · intro s h pk hop hpay hjob htag hexpected
    exact execAck_expected hjob htag (isOp_of hop hpay) hexpected
  · intro s0 s h pk lines hs hop hpay hjob htag hexpected hkind
    exact execReadRsp_expected hjob htag hs (isOp_of hop hpay) hexpected hkind
  · intro s h pk hop hpay hjob htag hexpected hkind
    exact execAtomicRsp_expected hjob htag (isOp_of hop hpay) hexpected hkind
  · intro s h pk room hop hpay hjob htag hexpected hkind
    exact execGuestRsp_expected hjob htag (isOp_of hop hpay) hexpected hkind
  · intro s h pk hop hpay hjob htag
    exact execMcAck_ownJob hjob htag (isOp_of hop hpay)
  · intro s h pk hop hpay hjob htag
    exact execCktAck_ownJob hjob htag (isOp_of hop hpay)
  · intro s h pk c x hop hpay hjob htag hcovered
    exact execReject_flow hjob htag (isOp_reject hop hpay) hcovered
  · intro s h pk c x hop hpay hjob htag hcovered
    exact execReject_circuit hjob htag (isOp_reject hop hpay) hcovered
  · intro s h pk hop hpay hjob htag hcovered
    exact execReject_uncovered hjob htag (isOp_reject hop hpay) hcovered
  · intro c s0 s h pk errs room hc hs hjob htag hctx
    obtain ⟨k, hexec⟩ := exec_bringsReply (bringsReply_of_bringsFlowReply hc) s0
    rw [hexec, ← hs, State.deliverReply_unexpected hjob htag h k (flowReplyOp_of_bringsFlowReply hc) hctx]

/-! ## What an ACK covers, and what its answer ends (R314, R318) -/

/-- A packet sent lies before the base of an ACK, or its bit in the ACK's map is set, and it is one an ACK acknowledges. -/
def ackCovers (pk : Packet) (y : SentPkt) : Bool :=
  let base := pk.arg % 2 ^ 32
  let i := (y.pkt.seq + 2 ^ 32 - (base + 1) % 2 ^ 32) % 2 ^ 32
  ackable y.pkt.op && (seqBefore y.pkt.seq base ||
    (decide (i < 255) && (pk.payload.getD (i / 8) 0).toNat / 2 ^ (i % 8) % 2 == 1))

theorem State.takeAck_covers {s a b : State} {c : Nat} {pk : Packet}
    (ha : a = s.setFlow c { s.flow c with
      out := (s.flow c).out.filter (fun y => !ackCovers pk y)
      asks := (s.flow c).asks ++ (s.flow c).out.filter (fun y => ackCovers pk y && y.pkt.op == 0x06 && y.owner != .frag) })
    (hb : b = (doneOf (pk.payload.drop 32)).foldl (fun t y => t.closeMsg c y.1 y.2) a) :
    s.takeAck c pk = (b.pumpFlow c).dmGoAll := by
  subst ha hb
  rfl

theorem State.takeRead_sent {s : State} {c : Nat} {pk : Packet} {x : SentPkt}
    (hsent : (s.flow c).out.find? (fun y => y.pkt.seq == pk.seq && y.pkt.op == 0x03) = some x) :
    s.takeRead c pk = s.readReply c x (pk.arg % 256) (pk.payload.take (x.pkt.arg % 1024)) := by
  unfold State.takeRead
  rw [hsent]

/-- The answer to a mover's read goes to its descriptor; with no read of its message left, the message ends. -/
theorem State.readReply_mover {s a b : State} {c st : Nat} {x : SentPkt} {bytes : List Byte} {d : Fin 4} {t : Fin 104}
    {k : Fin 2} {i idx dst : Nat} (howner : x.owner = .read d t k i idx dst)
    (ha : a = s.setFlow c { s.flow c with out := (s.flow c).out.filter (fun y => y.pkt.seq ≠ x.pkt.seq) })
    (hb : b = if (s.flow c).msgs.any (fun y => y.msgId == x.pkt.msgId) = true then a.dmReply d t k i ⟨idx, dst, st, bytes⟩
      else a) :
    s.readReply c x st bytes = ((if (((s.flow c).out.filter (fun y => y.pkt.seq ≠ x.pkt.seq)) ++ (s.flow c).wait).any
        (fun y => y.pkt.op == 0x03 && y.pkt.msgId == x.pkt.msgId) = true then b
      else b.closeMsg c x.pkt.msgId 0).pumpFlow c).dmGoAll := by
  subst ha hb
  unfold State.readReply
  simp only [howner]

theorem State.takeAtomic_kernel {s a : State} {c : Nat} {pk : Packet} {x : SentPkt} {d : Fin 4} {t : Fin 104} {k : Fin 2}
    (hsent : (s.flow c).out.find? (fun y => y.pkt.seq == pk.seq && y.pkt.op == 0x04) = some x)
    (howner : x.owner = .atomic d t k)
    (ha : a = s.setFlow c { s.flow c with out := (s.flow c).out.filter (fun y => y.pkt.seq ≠ pk.seq) }) :
    s.takeAtomic c pk = (a.emit (.service d t k (pk.arg % 256) pk.payload)).pumpFlow c := by
  subst ha
  unfold State.takeAtomic
  simp only [hsent, howner]

theorem State.takeGuest_page {s a : State} {c page k : Nat} {pk : Packet} {x : SentPkt} (room : Nat)
    (hsent : ((s.flow c).out ++ (s.flow c).asks).find? (fun y => y.pkt.seq == pk.seq && y.pkt.op == 0x06) = some x)
    (howner : x.owner = .guest page k)
    (ha : a = s.setFlow c { s.flow c with
      out := (s.flow c).out.map (fun y => if y.pkt.seq = pk.seq then { y with owner := .frag } else y)
      asks := (s.flow c).asks.filter (fun y => y.pkt.seq ≠ pk.seq) }) :
    s.takeGuest c pk room = a.guestAnswer (x.pkt.arg % 16) page k (pk.arg % 256) room := by
  subst ha
  unfold State.takeGuest
  simp only [hsent, howner]

/-- A refused packet of a message is acknowledged; one that was not taken in ends its message. -/
theorem State.flowRejected_message {s a : State} {c i st : Nat} {x : SentPkt} {d : Fin 4} {t : Fin 104} {k : Fin 2}
    (hop : x.pkt.op ≠ 0x03) (howner : x.owner = .dm d t k i ∨ x.owner = .frag)
    (ha : a = s.setFlow c { s.flow c with out := (s.flow c).out.filter (fun y => y.pkt.seq ≠ x.pkt.seq) }) :
    s.flowRejected c x st = ((if notTaken st = true ∧ (s.flow c).kind = 1 then a.closeMsg c x.pkt.msgId st
      else a).pumpFlow c).dmGoAll := by
  subst ha
  unfold State.flowRejected
  obtain howner | howner := howner <;>
    simp only [if_neg hop, howner, Bool.and_eq_true, decide_eq_true_eq]

/-! ## What MC_ACK marks and CKT_ACK frees (R326, R331) -/

/-- The positions an MC_ACK names: its own, or those of a subtree lost. -/
def mcMarks (pk : Packet) : List Nat :=
  if bitsOf pk.arg 15 13 = 3 then linePositions (bitsOf pk.arg 12 0) (bitsOf pk.arg 28 16) else [bitsOf pk.arg 12 0]

/-- A multicast message with the positions of an MC_ACK marked, those that are fenced or lost counted. -/
def McastMsg.marked (m : McastMsg) (pk : Packet) : McastMsg :=
  { m with
    left := m.left.filter (fun y => !(mcMarks pk).contains y)
    fenced := m.fenced + (if bitsOf pk.arg 15 13 = 2 ∨ bitsOf pk.arg 15 13 = 3
      then (m.left.filter (fun y => (mcMarks pk).contains y)).length else 0) }

theorem State.takeMcAck_marks {s : State} {pk : Packet} {m : McastMsg} (h : Fin 2)
    (hroot : (s.flow pk.ctx).state = 1 ∧ (s.flow pk.ctx).kind = 3)
    (hm : (s.flow pk.ctx).mcast.find? (fun y => y.msgId == pk.msgId) = some m) :
    s.takeMcAck h pk = if (m.marked pk).left = [] then s.mcEnd pk.ctx (m.marked pk) else
      s.setFlow pk.ctx { s.flow pk.ctx with
        mcast := (s.flow pk.ctx).mcast.map (fun y => if y.msgId = m.msgId then m.marked pk else y) } := by
  obtain ⟨hon, hkind⟩ := hroot
  unfold State.takeMcAck
  simp only [hon, hkind, hm, ne_eq, not_true_eq_false, or_self, if_false, List.isEmpty_iff]
  rfl

/-- A CKT_ACK that names the oldest packet outstanding shows a gap. -/
def Ckt.showsGap (k : Ckt) (next : Nat) : Bool := match k.out with | y :: _ => y.pkt.seq == next | [] => false

theorem State.takeCktAck_source {s a b : State} {h : Fin 2} {pk : Packet} {c : Nat} (hc : c = pk.ctx % 1024)
    (hsource : cktValid (s.cktEntry h c) = true ∧ cktRole (s.cktEntry h c) = 1 ∧ cktPeer (s.cktEntry h c) = pk.srcFid)
    (ha : a = s.setCkt c { s.cktSt c with out := (s.cktSt c).out.filter (fun y => !seqBefore y.pkt.seq (pk.arg % 2 ^ 32)) })
    (hb : b = (doneOf pk.payload).foldl (fun t y => t.cktClose c y.1 y.2) a) :
    s.takeCktAck h pk =
      ((if (s.cktSt c).showsGap (pk.arg % 2 ^ 32) then b.cktResend c else b).pumpCkt c).dmGoAll := by
  obtain ⟨hvalid, hrole, hpeer⟩ := hsource
  subst hc ha hb
  unfold State.takeCktAck
  simp only [hvalid, hrole, hpeer, Bool.not_true, ne_eq, not_true_eq_false, decide_false, Bool.or_self, Bool.false_eq_true,
    if_false]
  rfl

/-- Settles O32: the replies of flows, a REJECT of a packet not read, then MC_ACK and CKT_ACK. -/
theorem repliesComplete : Obligations.RepliesComplete := by
  refine ⟨?_, ?_, ?_, ?_, ?_, ?_, ?_, ?_⟩
  · intro s a b h pk base sack hit hop hjob htag hexpected hbase hsack hhit ha hb
    have hcovers : hit = ackCovers pk := by
      subst hbase hsack hhit
      rfl
    subst hcovers
    rw [← State.takeAck_covers ha hb]
    exact execAck_expected hjob htag hop hexpected
  · intro s0 s h pk x lines hs hop hjob htag hexpected hkind hsent
    rw [← State.takeRead_sent hsent]
    exact execReadRsp_expected hjob htag hs hop hexpected hkind
  · intro s a b c st x bytes d t k i idx dst howner ha hb
    exact State.readReply_mover howner ha hb
  · intro s a h pk x d t k hop hjob htag hexpected hkind hsent howner ha
    rw [← State.takeAtomic_kernel hsent howner ha]
    exact execAtomicRsp_expected hjob htag hop hexpected hkind
  · intro s a h pk room page k x hop hjob htag hexpected hkind hsent howner ha
    rw [← State.takeGuest_page room hsent howner ha]
    exact execGuestRsp_expected hjob htag hop hexpected hkind
  · intro s a h pk c x i d t k hop hjob htag hcovered hread howner ha
    rw [← State.flowRejected_message hread howner ha]
    exact execReject_flow hjob htag hop hcovered
  · intro s h pk m n kind marks hits hop hjob htag hroot hm hkind hmarks hhits hn
    have hmarked : n = m.marked pk := by
      subst hn hhits hmarks hkind
      rfl
    subst hmarked
    rw [← State.takeMcAck_marks h hroot hm]
    exact execMcAck_ownJob hjob htag hop
  · intro s a b h pk c next gap hop hjob htag hc hsource hnext hgap ha hb
    have hshown : gap = (s.cktSt c).showsGap next := hgap
    subst hshown hnext
    rw [← State.takeCktAck_source hc hsource ha hb]
    exact execCktAck_ownJob hjob htag hop

end Sys2Proof.Machine
end

section
/-! PROOFS. Circuit packets at their sink, multicast packets at a package of their line (10_fabric_routing.md, R298, R309,
R325, R326, R329, R330). -/

namespace Sys2Proof.Machine

open Sys2Proof

/-! ## Circuit packets that arrive (R309, R325) -/

/-- The commands that bring a circuit packet to its port. -/
def bringsCktPacket (c : Instr) (p : Fin 16) (pk : Packet) (errs : LineErrs) : Prop :=
  (c = .cktWrite p pk errs ∧ isOp 0x08 pk = true) ∨ (c = .cktHalo p pk ∧ errs = [] ∧ isOp 0x09 pk = true)

theorem exec_bringsCktPacket {c : Instr} {p : Fin 16} {pk : Packet} {errs : LineErrs} (hc : bringsCktPacket c p pk errs)
    (s : State) : exec c s = .next (s.cktArrive p pk errs) := by
  obtain ⟨rfl, hop⟩ | ⟨rfl, rfl, hop⟩ := hc <;> exact congrArg Host.Outcome.next (if_pos hop)

/-- The entry that a circuit packet on a port names. -/
def State.cktNamed (s : State) (p : Fin 16) (pk : Packet) : Nat := s.cktEntry (portHub p) (pk.ctx % 1024)

theorem State.cktArrive_misplaced {s : State} {p : Fin 16} {pk : Packet} (errs : LineErrs)
    (hmisplaced : cktValid (s.cktNamed p pk) = false ∨ cktRole (s.cktNamed p pk) ≠ 3 ∨ cktIn (s.cktNamed p pk) ≠ p.val ∨
      pk.jobTag ≠ s.jobTag) :
    s.cktArrive p pk errs = s.bump (.rout (portHub p)) Reg.ROUT.CKT_DROP_COUNT := by
  refine if_neg fun hplaced => ?_
  simp only [Bool.and_eq_true, decide_eq_true_eq] at hplaced
  obtain ⟨⟨⟨hvalid, hrole⟩, hin⟩, htag⟩ := hplaced
  obtain hno | hno | hno | hno := hmisplaced
  · exact Bool.false_ne_true (hno.symm.trans hvalid)
  · exact hno hrole
  · exact hno hin
  · exact hno htag

/-- A package not fenced expects a circuit packet of its job on the port of the entry named, from the entry's peer. -/
structure State.CktSink (s : State) (p : Fin 16) (pk : Packet) : Prop where
  valid : cktValid (s.cktNamed p pk) = true
  sink : cktRole (s.cktNamed p pk) = 3
  port : cktIn (s.cktNamed p pk) = p.val
  peer : cktPeer (s.cktNamed p pk) = pk.srcFid
  job : s.jobTag ≠ 0
  tag : pk.jobTag = s.jobTag
  unfenced : s.fenced = false

section Sink

variable {s : State} {p : Fin 16} {pk : Packet} (hsink : s.CktSink p pk)

include hsink

theorem State.cktArrive_sink (errs : LineErrs) : s.cktArrive p pk errs = s.cktDeliver p pk errs := by
  obtain ⟨hvalid, hrole, hin, _, _, htag, _⟩ := hsink
  refine if_pos ?_
  simp only [Bool.and_eq_true, decide_eq_true_eq]
  exact ⟨⟨⟨hvalid, hrole⟩, hin⟩, htag⟩

/-- A circuit packet that its sink expects passes steps 1 to 3 of its delivery. -/
theorem State.CktSink.admitted :
    s.admitRequest pk = 0 ∧ cktPeer (s.cktEntry (portHub p) (pk.ctx % 1024)) = pk.srcFid :=
  ⟨State.admitRequest_admitted hsink.job hsink.tag hsink.unfenced, hsink.peer⟩

/-! ## SEQs at a sink (R326) -/

theorem State.cktDeliver_duplicate (errs : LineErrs) (hdup : seqBefore pk.seq (s.cktSt (pk.ctx % 1024)).next = true) :
    s.cktDeliver p pk errs = (s.bump (.rout (portHub p)) Reg.ROUT.DUP_COUNT).sendCktAck (portHub p) (pk.ctx % 1024) := by
  obtain ⟨hst, hpeer⟩ := hsink.admitted
  unfold State.cktDeliver
  simp only [hst, hpeer, hdup, ne_eq, not_true_eq_false, if_false, if_true]

/-- A SEQ after NEXT draws a CKT_ACK, once for its gap. -/
theorem State.cktDeliver_gap (errs : LineErrs) (hnew : seqBefore pk.seq (s.cktSt (pk.ctx % 1024)).next = false)
    (hseq : pk.seq ≠ (s.cktSt (pk.ctx % 1024)).next) :
    s.cktDeliver p pk errs = if (s.cktSt (pk.ctx % 1024)).gapSent then s
      else (s.setCkt (pk.ctx % 1024) { s.cktSt (pk.ctx % 1024) with gapSent := true }).sendCktAck (portHub p)
        (pk.ctx % 1024) := by
  obtain ⟨hst, hpeer⟩ := hsink.admitted
  unfold State.cktDeliver
  simp only [hst, hpeer, hnew, if_pos hseq, ne_eq, not_true_eq_false, Bool.false_eq_true, if_false]

/-- A message that completes signals, enters DONE and draws a CKT_ACK; without one, half a window accepted does. -/
def State.cktFinish (s : State) (h : Fin 2) (c win : Nat) (ended : Option (OpenMsg × Nat)) : State :=
  match ended with
  | some (m, st) =>
    ((s.msgSignal m st).setCkt c { (s.msgSignal m st).cktSt c with
      done := ((m.msgId, st) :: ((s.msgSignal m st).cktSt c).done).take 4 }).sendCktAck h c
  | none => if 2 ^ win / 2 ≤ (s.cktSt c).fresh then s.sendCktAck h c else s

/-- The SEQ expected is received, its operation carried out with OK, and its message goes on. -/
theorem State.cktDeliver_expected {a b d : State} {errs : LineErrs} {r : MsgStep}
    (hseq : pk.seq = (s.cktSt (pk.ctx % 1024)).next) (hfew : fifth (s.cktSt (pk.ctx % 1024)).openMsgs pk = false)
    (hwhole : breaksBytes (s.cktSt (pk.ctx % 1024)).openMsgs pk = false)
    (ha : a = s.setCkt (pk.ctx % 1024) { s.cktSt (pk.ctx % 1024) with
      next := ((s.cktSt (pk.ctx % 1024)).next + 1) % 2 ^ 32, gapSent := false
      fresh := (s.cktSt (pk.ctx % 1024)).fresh + 1 })
    (hdone : a.packetOp (portHub p) pk errs = (b, 0)) (hr : r = msgTake (b.cktSt (pk.ctx % 1024)).openMsgs pk 0)
    (hd : d = b.setCkt (pk.ctx % 1024) { b.cktSt (pk.ctx % 1024) with openMsgs := r.openMsgs }) :
    s.cktDeliver p pk errs = d.cktFinish (portHub p) (pk.ctx % 1024) (cktWin (s.cktNamed p pk)) r.ended := by
  obtain ⟨hst, hpeer⟩ := hsink.admitted
  have hnew : seqBefore pk.seq (s.cktSt (pk.ctx % 1024)).next = false := hseq ▸ seqBefore_self pk.seq
  subst ha hd hr
  unfold State.cktDeliver
  simp only [hst, hpeer, hnew, not_not_intro hseq, hfew, hwhole, hdone, ne_eq, not_true_eq_false, Bool.false_eq_true,
    if_false, if_true]
  rfl

end Sink

/-! ## Multicast packets on their way (R298, R329) -/

theorem execMcWrite_hopsSpent {s : State} {p : Fin 16} {pk : Packet} (errs : LineErrs) (hop : isOp 0x05 pk = true)
    (hspent : s.getF (.rout (portHub p)) Reg.ROUT.ROUTE_CFG_HOP_LIMIT ≤ pk.hops) :
    execMcWrite p pk errs s = .next ((s.bump (.rout (portHub p)) Reg.ROUT.HOP_DROP_COUNT).raise (.rout (portHub p))
      Evt.ROUT.PKT_DROP) := by
  unfold execMcWrite
  simp only [hop, hspent, Bool.not_true, Bool.false_eq_true, if_false, if_true]

/-- A multicast packet falls into the pen of its port, and waits behind those before it. -/
theorem execMcWrite_enters {s a : State} {p : Fin 16} {pk : Packet} {x : Pen} (errs : LineErrs) (hop : isOp 0x05 pk = true)
    (hhops : pk.hops < s.getF (.rout (portHub p)) Reg.ROUT.ROUTE_CFG_HOP_LIMIT) (hx : x = (s.link p).pen 0)
    (ha : a = s.setLink p ((s.link p).setPen 0 { x with pkts := x.pkts ++ [pk], used := x.used + pk.flits })) :
    execMcWrite p pk errs s = .next (if x.pkts = [] then a.routeMc (.port p 0) pk errs else a) := by
  subst ha hx
  unfold execMcWrite
  simp only [hop, if_neg (Nat.not_le.mpr hhops), Bool.not_true, Bool.false_eq_true, if_false, List.isEmpty_iff]

theorem State.routeMc_copiesLeft {s a : State} {src : PenSrc} {pk : Packet} (errs : LineErrs) (ha : a = s.mcForward src pk)
    (hleft : mcLeft (a.penAt src) pk ≠ []) : s.routeMc src pk errs = a := by
  subst ha
  unfold State.routeMc
  simp only [List.isEmpty_eq_false_iff.mpr hleft, Bool.not_false, if_true]

theorem State.routeMc_copiesGone {s a : State} {p : Fin 16} {v : Fin 5} {pk : Packet} (errs : LineErrs)
    (ha : a = s.mcForward (.port p v) pk) (hgone : mcLeft (a.penAt (.port p v)) pk = []) :
    s.routeMc (.port p v) pk errs = (a.popPen (.port p v)).mcTake (portHub p) pk errs := by
  subst ha
  unfold State.routeMc
  simp only [hgone, List.isEmpty_nil, Bool.not_true, Bool.false_eq_true, if_false]

/-! ## Multicast packets taken in (R309, R330) -/

/-- This package is in the line of a multicast packet's group, and expects the group's packets from its source. -/
def State.mcExpects (s : State) (h : Fin 2) (pk : Packet) : Bool :=
  mcValid (s.mcEntry h (pk.ctx % 4096)) && mcMember (s.mcEntry h (pk.ctx % 4096)) &&
    mcRoot (s.mcEntry h (pk.ctx % 4096)) == pk.srcFid

/-- A packet is of this package's job. -/
def State.jobOf (s : State) (pk : Packet) : Bool := s.jobTag ≠ 0 && pk.jobTag == s.jobTag

/-- A packet of the package's own job that no group expects is dropped at step 3. -/
def State.mcDrop (s : State) (h : Fin 2) (pk : Packet) : State :=
  if s.jobOf pk = true ∧ s.fenced = false ∧ s.mcExpects h pk = false then s.ctxDrop h pk else s

theorem State.mcTake_cases {s : State} (h : Fin 2) (pk : Packet) (errs : LineErrs) :
    s.mcTake h pk errs =
      if (s.mcExpects h pk && s.jobOf pk && !(s.mcDrop h pk).fenced) = true then
        (s.mcDrop h pk).mcMemberTake h pk (s.mcEntry h (pk.ctx % 4096)) errs
      else if pk.last then
        (s.mcDrop h pk).sendMcAck h pk (s.mcDrop h pk).pos (if s.mcExpects h pk && s.jobOf pk then 2 else 1) 0 0
      else s.mcDrop h pk := by
  have hdrop : (if s.jobOf pk && !s.fenced && !s.mcExpects h pk then s.ctxDrop h pk else s) = s.mcDrop h pk := by
    unfold State.mcDrop
    simp only [Bool.and_eq_true, Bool.not_eq_true', and_assoc]
  rw [← hdrop]
  rfl

/-- A LAST that is not taken in is answered: FENCED for a member of the line, NOT_MEMBER for another. -/
theorem State.mcTake_notTaken {s : State} {h : Fin 2} {pk : Packet} (errs : LineErrs)
    (hout : s.mcExpects h pk = false ∨ s.jobOf pk = false ∨ s.fenced = true)
    (hfence : (s.mcDrop h pk).fenced = s.fenced) (hlast : pk.last = true) :
    s.mcTake h pk errs = (s.mcDrop h pk).sendMcAck h pk (s.mcDrop h pk).pos
      (if s.mcExpects h pk = true ∧ s.jobOf pk = true then 2 else 1) 0 0 := by
  have htaken : (s.mcExpects h pk && s.jobOf pk && !s.fenced) = false := by
    obtain hno | hno | hno := hout <;> simp only [hno, Bool.false_and, Bool.and_false, Bool.not_true]
  rw [State.mcTake_cases, hfence, htaken, if_neg Bool.false_ne_true, if_pos hlast]
  simp only [Bool.and_eq_true]

theorem State.mcTake_member {s : State} {h : Fin 2} {pk : Packet} (errs : LineErrs) (hexpected : s.mcExpects h pk = true)
    (hjob : s.jobOf pk = true) (hfence : s.fenced = false) :
    s.mcTake h pk errs = s.mcMemberTake h pk (s.mcEntry h (pk.ctx % 4096)) errs := by
  have hkept : s.mcDrop h pk = s := if_neg fun hdropped => by
    obtain ⟨_, _, hno⟩ := hdropped
    exact Bool.false_ne_true (hno.symm.trans hexpected)
  rw [State.mcTake_cases, hkept, hexpected, hjob, hfence]
  rfl

theorem State.mcMemberTake_completed {s : State} {h : Fin 2} {pk : Packet} (w : Nat) (errs : LineErrs) {r : Nat × Nat × Nat}
    (hdone : (s.group (pk.ctx % 4096)).completed pk = some r) :
    s.mcMemberTake h pk w errs = if pk.last then s.sendMcAck h pk s.pos 0 0 r.2.1 else s := by
  unfold State.mcMemberTake
  simp only [hdone]

/-- Settles O31: a circuit packet by its entry and its SEQ, then a multicast packet from its pen to its message. -/
theorem circuitAndMulticastPackets : Obligations.CircuitAndMulticastPackets := by
  refine ⟨?_, ?_, ?_, ?_, ?_, ?_, ?_, ?_, ?_, ?_, ?_⟩
  · intro c s p pk errs hc hmisplaced
    rw [exec_bringsCktPacket hc, State.cktArrive_misplaced errs hmisplaced]
  · intro c s p pk errs hc hvalid hrole hin hpeer hjob htag hfence hdup
    have hsink : s.CktSink p pk := ⟨hvalid, hrole, hin, hpeer, hjob, htag, hfence⟩
    rw [exec_bringsCktPacket hc, State.cktArrive_sink hsink, State.cktDeliver_duplicate hsink errs hdup]
  · intro c s p pk errs hc hvalid hrole hin hpeer hjob htag hfence hnew hseq
    have hsink : s.CktSink p pk := ⟨hvalid, hrole, hin, hpeer, hjob, htag, hfence⟩
    rw [exec_bringsCktPacket hc, State.cktArrive_sink hsink, State.cktDeliver_gap hsink errs hnew hseq]
  · intro c s a b d p pk errs r hc hvalid hrole hin hpeer hjob htag hfence hseq hfew hwhole ha hdone hr hd
    have hsink : s.CktSink p pk := ⟨hvalid, hrole, hin, hpeer, hjob, htag, hfence⟩
    rw [exec_bringsCktPacket hc, State.cktArrive_sink hsink,
      State.cktDeliver_expected hsink hseq hfew hwhole ha hdone hr hd]
    rfl
  · intro s p pk errs hop hspent
    exact execMcWrite_hopsSpent errs hop hspent
  · intro s a p pk errs x hop hhops hx ha
    exact execMcWrite_enters errs hop hhops hx ha
  · intro s a src pk errs ha hleft
    exact State.routeMc_copiesLeft errs ha hleft
  · intro s a b p v pk errs ha hgone hb
    subst hb
    exact State.routeMc_copiesGone errs ha hgone
  · intro a b h pk errs w expected job hw hexpected hjob hout hb hfence hlast
    subst hw hexpected hjob hb
    exact State.mcTake_notTaken errs hout hfence hlast
  · intro a h pk errs w hw hexpected hjob hfence
    subst hw
    exact State.mcTake_member errs hexpected hjob hfence
  · intro s h pk errs w r hdone
    exact State.mcMemberTake_completed w errs hdone

end Sys2Proof.Machine
end

section
/-! PROOFS. Operations on sync objects: whose operations an object takes, SIGNAL, SET, CLEAR, CONTRIB, WAIT and READ
(11_synchronisation.md, R344, R345, R347, R348, R349, R350, R351, R352, R362). -/

namespace Sys2Proof.Machine

open Sys2Proof

/-! ## Sources and scopes (R344, R345) -/

theorem State.srcAllowed_package (s : State) {b : Obj} (src : SyncSrc) (hscope : 2 ≤ b.scope) :
    s.srcAllowed b src = true := if_pos hscope

theorem State.srcAllowed_host_narrow (s : State) {b : Obj} (hscope : b.scope < 2) : s.srcAllowed b .host = false :=
  if_neg (Nat.not_le.2 hscope)

/-- The host's operation acts on the object that its hub's page selects. -/
theorem State.objOp_host {s : State} {o : Nat} (f : State → State × Bool) (hsel : s.selObj (objHub o) = some o) :
    s.objOp .host o f = (f s).1 := if_pos hsel

theorem State.serves_eq_kernelRuns (s : State) (d : Fin 4) (t : Fin 104) (k : Fin 2) :
    s.serves d t k = s.kernelRuns d t k := dif_pos ⟨d.isLt, t.isLt, k.isLt⟩

/-- The operation of a kernel that runs is answered by its service. -/
theorem State.objOp_kernel {s : State} {d : Fin 4} {t : Fin 104} {k : Fin 2} (o : Nat) (f : State → State × Bool)
    (hruns : s.kernelRuns d t k = true) :
    s.objOp (.task d t k) o f = (f s).1.emit (.service d t k (if (f s).2 then 0 else St.badMode) []) :=
  if_pos ((s.serves_eq_kernelRuns d t k).trans hruns)

/-! ## ARM and DISARM (R347) -/

theorem execObjArm_selected {s : State} {h : Fin 2} {o : Nat} (errs : LineErrs) (hsel : s.selObj h = some o) :
    execObjArm h errs s = .next ((s.findErrs errs).armObj o) := by
  unfold execObjArm
  rw [hsel]

theorem execObjDisarm_selected {s : State} {h : Fin 2} {o : Nat} (hsel : s.selObj h = some o) :
    execObjDisarm h s = .next (s.disarm o) := by
  unfold execObjDisarm
  rw [hsel]

/-! ## SIGNAL (R348, R350, R352) -/

/-- A semaphore after a SIGNAL of n that carries a status and a count of fenced members. -/
def Obj.signalled (b : Obj) (n st fenced : Nat) : Obj :=
  { b with
    count := min (b.count + n) (2 ^ 31 - 1), fenced := min 16383 (b.fenced + fenced)
    status := b.status ||| st ||| (if 2 ^ 31 - 1 < b.count + n then ObjSt.overflow else 0) }

theorem Obj.signalled_above {b : Obj} {n : Nat} (st fenced : Nat) (habove : 2 ^ 31 - 1 < b.count + n) :
    b.signalled n st fenced =
      { b with count := 2 ^ 31 - 1, fenced := min 16383 (b.fenced + fenced), status := b.status ||| st ||| 0x20 } := by
  unfold Obj.signalled
  rw [Nat.min_eq_right habove.le, if_pos habove]

theorem State.signal_refused {s : State} {o n : Nat} {src : SyncSrc} (st fenced : Nat)
    (hno : (s.obj o).state = 0 ∨ n = 0 ∨ (s.obj o).kind = 4 ∨ s.srcAllowed (s.obj o) src = false) :
    s.signal o n src st fenced = (s.syncRefuse (objHub o), false) :=
  if_pos (by rwa [Bool.not_eq_true'])

theorem State.signal_semaphore {s : State} {o n : Nat} {src : SyncSrc} (st fenced : Nat) (harmed : (s.obj o).state ≠ 0)
    (hkind : (s.obj o).kind = 1) (hn : n ≠ 0) (hsrc : s.srcAllowed (s.obj o) src = true) :
    s.signal o n src st fenced = ((s.setObj o ((s.obj o).signalled n st fenced)).wake o, true) := by
  unfold State.signal Obj.signalled
  simp [harmed, hkind, hn, hsrc]

/-- A SIGNAL from the host is carried out where its page selects the object. -/
theorem execObjSignal_host {s : State} {o n : BitVec 16} (hsel : s.selObj (objHub o.toNat) = some o.toNat) :
    exec (.objSignal .host o n) s = .next (s.signal o.toNat n.toNat .host 0 0).1 :=
  congrArg Host.Outcome.next (State.objOp_host _ hsel)

theorem execObjSignal_host_semaphore {s : State} {o n : BitVec 16} (hsel : s.selObj (objHub o.toNat) = some o.toNat)
    (harmed : (s.obj o.toNat).state ≠ 0) (hkind : (s.obj o.toNat).kind = 1) (hn : n ≠ 0)
    (hsrc : s.srcAllowed (s.obj o.toNat) .host = true) :
    exec (.objSignal .host o n) s =
      .next ((s.setObj o.toNat ((s.obj o.toNat).signalled n.toNat 0 0)).wake o.toNat) := by
  have hpos : n.toNat ≠ 0 := fun h => hn (BitVec.eq_of_toNat_eq h)
  rw [execObjSignal_host hsel, State.signal_semaphore 0 0 harmed hkind hpos hsrc]

/-! ## SET and CLEAR (R348) -/

/-- An event after a SET. -/
def Obj.raised (b : Obj) : Obj := { b with isSet := true, count := b.init % 65536 }

theorem State.setEvent_armed {s : State} {o : Nat} {src : SyncSrc} (hkind : (s.obj o).kind = 3)
    (harmed : (s.obj o).state ≠ 0) (hsrc : s.srcAllowed (s.obj o) src = true) :
    s.setEvent o src = ((if (s.obj o).isSet then s.setObj o (s.obj o).raised
      else (s.setObj o (s.obj o).raised).objMsi o).wake o, true) := by
  unfold State.setEvent
  rw [if_neg (by simp [hkind, harmed, hsrc])]
  rfl

theorem State.clearObj_armed {s : State} {o : Nat} {src : SyncSrc} (hkind : (s.obj o).kind = 3 ∨ (s.obj o).kind = 1)
    (harmed : (s.obj o).state ≠ 0) (hsrc : s.srcAllowed (s.obj o) src = true) :
    s.clearObj o src = (s.setObj o { s.obj o with isSet := false, count := 0 }, true) := by
  unfold State.clearObj
  rw [if_neg]
  rintro (hidle | ⟨hnoEvent, hnoSem⟩ | hforeign)
  · exact harmed hidle
  · exact hkind.elim hnoEvent hnoSem
  · simp [hsrc] at hforeign

/-! ## CONTRIB (R351, R362) -/

/-- A reduction in phase FP32 after a contribution at a time of the drove clock. -/
def Obj.addFp32 (b : Obj) (data : List Byte) (now : Nat) : Obj :=
  { b with fp32 := (fp32Add b.fp32 (leNat data)).1, count := b.count + 1, first := some now, last := some now }

/-- A contribution in phase FP32 that is not the last one expected. -/
theorem State.contrib_fp32 {s : State} {o : Nat} {src : SyncSrc} {data : List Byte} (hkind : (s.obj o).kind = 4)
    (hlocal : (s.obj o).state = 1) (hphase : (s.obj o).phase = 3) (hscope : (s.obj o).scope = 2) (hlen : data.length = 4)
    (hmore : (s.obj o).count + 1 ≠ (s.obj o).init % 65536) :
    s.contrib o src data = (s.setObj o ((s.obj o).addFp32 data s.drove), true) := by
  have hsrc : s.srcAllowed (s.obj o) src = true := s.srcAllowed_package src hscope.ge
  unfold State.contrib Obj.addFp32
  simp [hkind, hlocal, hphase, hscope, hlen, hmore, hsrc]

/-! ## WAIT and READ (R348, R349) -/

section Kernel

variable {s : State} {d : Fin 4} {t : Fin 104} {k : Fin 2} {o : BitVec 16} (hruns : s.kernelRuns d t k = true)
  (harmed : (s.obj o.toNat).state ≠ 0)

include hruns harmed

theorem execSyncWait_allowed (hsrc : s.srcAllowed (s.obj o.toNat) (.task d t k) = true) :
    execSyncWait d t k o s = .next (if (s.obj o.toNat).kind = 1 ∧ 1 ≤ (s.obj o.toNat).count then
        (s.setObj o.toNat { s.obj o.toNat with count := (s.obj o.toNat).count - 1 }).emit (.service d t k 0 [])
      else if (s.obj o.toNat).kind = 3 ∧ (s.obj o.toNat).isSet then s.emit (.service d t k 0 [])
      else s.setObj o.toNat { s.obj o.toNat with
        waiters := (s.obj o.toNat).waiters ++ [⟨d, t, k, (s.obj o.toNat).gen⟩] }) := by
  unfold execSyncWait
  simp only [hruns, harmed, hsrc, Bool.not_true, Bool.false_eq_true, if_false]

theorem execSyncWait_foreign (hsrc : s.srcAllowed (s.obj o.toNat) (.task d t k) = false) :
    execSyncWait d t k o s = .next ((s.syncRefuse (objHub o.toNat)).emit (.service d t k St.badMode [])) := by
  unfold execSyncWait
  simp only [hruns, harmed, hsrc, Bool.not_true, Bool.not_false, Bool.false_eq_true, if_false, if_true]

theorem execSyncRead_foreign (hsrc : s.srcAllowed (s.obj o.toNat) (.task d t k) = false) :
    execSyncRead d t k o s = .next ((s.syncRefuse (objHub o.toNat)).emit (.service d t k St.badMode [])) := by
  unfold execSyncRead
  simp only [hruns, hsrc, ne_eq, harmed, not_false_eq_true, Bool.not_true, Bool.not_false, Bool.false_eq_true, and_self,
    if_false, if_true]

omit harmed in
theorem execSyncRead_allowed (hsrc : s.srcAllowed (s.obj o.toNat) (.task d t k) = true) :
    execSyncRead d t k o s = .next (s.emit (.objRead d t k (s.obj o.toNat).readFields
      (if (s.obj o.toNat).kind = 4 then
        ((s.obj o.toNat).record (s.obj o.toNat).phase (s.obj o.toNat).gen (s.obj o.toNat).skew s.drove).take 96
      else []))) := by
  unfold execSyncRead
  simp only [hruns, hsrc, Bool.not_true, Bool.false_eq_true, and_false, if_false]

end Kernel

/-- Settles O58: the SIGNAL of a semaphore, with a count above the limit. -/
theorem semaphoreSignalSaturates : Obligations.SemaphoreSignalSaturates := by
  refine ⟨?_, ?_⟩
  · intro s o n st fenced src b hb harmed hkind hn hsrc habove
    subst hb
    rw [State.signal_semaphore st fenced harmed hkind hn hsrc, Obj.signalled_above st fenced habove]
  · intro s o n b hb hsel harmed hkind hn hsrc habove
    subst hb
    rw [execObjSignal_host_semaphore hsel harmed hkind hn hsrc, Obj.signalled_above 0 0 habove, Nat.or_zero, Nat.add_zero]

/-- Settles O34: ARM and DISARM, the host's operations, then a kernel's. -/
theorem syncObjects : Obligations.SyncObjects := by
  refine ⟨?_, ?_, ?_, ?_, ?_, ?_, ?_, ?_⟩
  · intro s h o errs hsel
    exact ⟨execObjArm_selected errs hsel, execObjDisarm_selected hsel⟩
  · intro s o n b hsel hb hkind harmed hn hscope
    subst hb
    exact execObjSignal_host_semaphore hsel harmed hkind hn (s.srcAllowed_package _ hscope)
  · intro s o n b hsel hb hno
    subst hb
    rw [execObjSignal_host hsel, State.signal_refused 0 0]
    exact hno.imp_right (Or.imp (congrArg BitVec.toNat) (Or.imp_right s.srcAllowed_host_narrow))
  · intro s a o b hsel hb hkind harmed hscope ha
    subst hb ha
    refine (congrArg Host.Outcome.next (State.objOp_host _ hsel)).trans ?_
    rw [State.setEvent_armed hkind harmed (s.srcAllowed_package _ hscope)]
    rfl
  · intro s o b hsel hb hkind harmed hscope
    subst hb
    refine (congrArg Host.Outcome.next (State.objOp_host _ hsel)).trans ?_
    rw [State.clearObj_armed hkind harmed (s.srcAllowed_package _ hscope)]
  · intro s a d t k o data b hruns hb hkind hlocal hphase hscope hlen ha hmore
    subst hb ha
    refine (congrArg Host.Outcome.next (State.objOp_kernel _ _ hruns)).trans ?_
    rw [State.contrib_fp32 hkind hlocal hphase hscope hlen hmore, Nat.or_zero]
    rfl
  · intro s d t k o b hruns hb harmed hsrc
    subst hb
    exact ⟨execSyncWait_allowed hruns harmed hsrc, execSyncRead_allowed hruns hsrc⟩
  · intro s d t k o b hruns hb harmed hsrc
    subst hb
    exact ⟨execSyncWait_foreign hruns harmed hsrc, execSyncRead_foreign hruns harmed hsrc⟩

end Sys2Proof.Machine
end

section
/-! PROOFS. The sync channel's numbered messages, time exchange, announcements of the drove clock (11_synchronisation.md,
R341, R342, R369, R370, R371, R372). -/

namespace Sys2Proof.Machine

open Sys2Proof

/-! ## Numbered messages (R341, R342) -/

/-- The port expects the next number, and owes an acknowledgement. -/
def State.syncAccept (a : State) (p : Fin 16) : State :=
  a.setLink p { a.link p with sRx := ((a.link p).sRx + 1) % 256, sDue := true }

/-- A message of another number: a duplicate is discarded, any other draws LNAK, at once or with the next flit. -/
def State.syncOdd (a : State) (p : Fin 16) (lseq : Nat) : State :=
  if ((a.link p).sRx + 256 - lseq % 256) % 256 ≤ 64 then a
  else if a.syncOpen p .ack then a.syncFlit p 0 true .ack
  else a.setLink p { a.link p with sNak := true }

section Taken

variable {s a : State} {p : Fin 16} {h : SHdr} (hacked : a = s.syncAcked p h)

include hacked

theorem State.syncTake_unadmitted (hport : a.admitted p = false) :
    s.syncTake p h = (a.syncRefuse (portHub p), false) := by
  subst hacked
  unfold State.syncTake
  simp only [hport, Bool.not_false, if_true]

theorem State.syncTake_expected (hport : a.admitted p = true) (hnext : h.lseq = (a.link p).sRx) :
    s.syncTake p h = (a.syncAccept p, true) := by
  subst hacked
  unfold State.syncTake
  simp only [hport, hnext, Bool.not_true, Bool.false_eq_true, if_false, if_true]
  rfl

theorem State.syncTake_odd (hport : a.admitted p = true) (hodd : h.lseq ≠ (a.link p).sRx) :
    s.syncTake p h = (a.syncOdd p h.lseq, false) := by
  subst hacked
  unfold State.syncTake State.syncOdd
  simp only [hport, hodd, Bool.not_true, Bool.false_eq_true, if_false]
  split_ifs <;> rfl

end Taken

/-- The commands that bring a numbered message. -/
def bringsNumbered (c : Instr) (p : Fin 16) (h : SHdr) : Prop :=
  (∃ m, c = .masterMsg p h m) ∨ (∃ m, c = .partialMsg p h m) ∨ ∃ m, c = .pace p h m

theorem bringsNumbered_of {c : Instr} {p : Fin 16} {h : SHdr} {m : MasterMsg} {f : PartialMsg} {q : PaceMsg}
    (hc : c = .masterMsg p h m ∨ c = .partialMsg p h f ∨ c = .pace p h q) : bringsNumbered c p h :=
  hc.imp (⟨m, ·⟩) (Or.imp (⟨f, ·⟩) (⟨q, ·⟩))

/-- Of a message that its port does not accept, nothing but the port's answer remains. -/
theorem exec_bringsNumbered_notTaken {c : Instr} {s b : State} {p : Fin 16} {h : SHdr} (hc : bringsNumbered c p h)
    (htake : s.syncTake p h = (b, false)) : exec c s = .next b := by
  obtain ⟨m, rfl⟩ | ⟨m, rfl⟩ | ⟨m, rfl⟩ := hc
  · change execMasterMsg p h m s = _
    unfold execMasterMsg
    simp only [htake, Bool.not_false, if_true]
  · change execPartialMsg p h m s = _
    unfold execPartialMsg
    simp only [htake, Bool.false_eq_true, if_false]
  · change execPace p h m s = _
    unfold execPace
    simp only [htake, Bool.not_false, Bool.true_or, if_true]

/-! ## Acknowledgements and timers (R342) -/

theorem execSyncAckTimer_due {s : State} {p : Fin 16} (hactive : s.linkActive p = true) (hdue : (s.link p).sDue = true)
    (hqueue : (s.link p).syncQ = []) : execSyncAckTimer p s = .next (s.syncFlit p 0 false .ack) := by
  unfold execSyncAckTimer
  simp only [hactive, hdue, hqueue, List.isEmpty_nil, Bool.and_self, if_true]

/-! ## Time exchange (R369) -/

/-- An even integer has one half, whatever the free value. -/
theorem State.half_double (s : State) (o : Int) : s.half (2 * o) = (o, s.tickFree) := by
  unfold State.half
  rw [Int.mul_emod_right, if_pos rfl, Int.mul_ediv_cancel_left o two_ne_zero, Int.add_zero]

/-- An exchange is logged: its offset the newest of eight, the link's delay, and one more exchange in band or none. -/
def State.logOffset (a : State) (p : Fin 16) (o w : Int) : State :=
  a.tickFree.tickFree.setLink p { a.link p with
    offs := (o :: (a.link p).offs).take 8, delay := w, inBand := if o.natAbs ≤ 5 then (a.link p).inBand + 1 else 0 }

/-- A response whose two halves are whole numbers, on a port that the package does not follow. -/
theorem execTimeRsp_logged {s a : State} {p : Fin 16} {h : SHdr} {t1 t2 t3 : Nat} {o w : Int}
    (hactive : s.linkActive p = true) (hacked : a = s.syncAcked p h)
    (hoff : ((t2 : Int) - t1) - ((a.drove : Int) - t3) = 2 * o)
    (hdelay : ((a.drove : Int) - t1) - ((t3 : Int) - t2) = 2 * w) (hother : (a.logOffset p o w).follows p = false) :
    execTimeRsp p h t1 t2 t3 s = .next (a.logOffset p o w) := by
  subst hacked
  unfold State.logOffset at hother ⊢
  unfold execTimeRsp
  simp only [hactive, hoff, State.half_double, State.tickFree_drove, hdelay, Bool.not_true, Bool.false_eq_true, if_false]
  exact congrArg Host.Outcome.next (if_neg (fun hfollows => Bool.false_ne_true (hother.symm.trans hfollows)))

theorem execTimeExchangeTick_exchanging {s : State} {p : Fin 16} (hactive : s.linkActive p = true)
    (hstate : 2 ≤ s.admitState p) : execTimeExchangeTick p s = .next (s.sendSync p (.timeReq s.drove)) := by
  unfold execTimeExchangeTick
  simp only [hactive, hstate, decide_true, Bool.and_self, if_true]

/-! ## Announcements (R370, R371) -/

/-- An announcement is the first of its port: it is kept, and a LOCKED one has been heard. -/
def State.firstAnn (b : State) (p : Fin 16) (m : MasterMsg) : State :=
  let d := b.setLink p { b.link p with ann := some ⟨m, false⟩ }
  if m.locked then { d with clk := { d.clk with quiet := false } } else d

/-- A first announcement without a lead is kept, and the election held again. -/
theorem execMasterMsg_first {s b : State} {p : Fin 16} {h : SHdr} {m : MasterMsg} (htake : s.syncTake p h = (b, true))
    (hfirst : (b.link p).ann = none) (hlead : m.lead = 0) : execMasterMsg p h m s = .next (b.firstAnn p m).elect := by
  unfold execMasterMsg
  simp only [htake, hfirst, hlead, Nat.lt_irrefl, decide_false, Bool.and_false, Bool.not_true, Bool.false_eq_true, if_false]
  rfl

theorem execMasterStale_heard {s : State} {p : Fin 16} {x : Ann} (hheard : (s.link p).ann = some x) :
    execMasterStale p s = .next (s.setLink p { s.link p with ann := some { x with stale := true } }).elect := by
  unfold execMasterStale
  simp only [hheard]

/-- A message goes out on every ADMITTED port. -/
def State.broadcast (s : State) (m : SyncMsg) : State :=
  (allPorts.filter (fun p => s.admitted p)).foldl (fun (t : State) p => t.sendSync p m) s

/-- A master has raised its MSEQ. -/
def State.nextMseq (s : State) : State := { s with clk := { s.clk with mseq := (s.clk.mseq + 1) % 2 ^ 32 } }

/-- What a package that is master announces, once its MSEQ is raised. -/
def State.ownMaster (s : State) (serial : Nat) : MasterMsg :=
  ⟨serial, s.nextMseq.clk.mseq, s.getF (.sync 0) Reg.SYNC.DROVE_STAT_DEPTH,
    s.getF (.sync 0) Reg.SYNC.DROVE_STAT_STATE == 2, s.nextMseq.leadOut⟩

theorem execMasterAnnounce_own {s : State} {serial : Nat} (hown : s.isSet (.sync 0) Reg.SYNC.DROVE_STAT_MASTER = true)
    (hmaster : s.clk.master = some serial) :
    execMasterAnnounce s = .next (s.nextMseq.broadcast (.master (s.ownMaster serial))) := by
  unfold execMasterAnnounce State.broadcast State.ownMaster State.nextMseq
  simp only [hown, hmaster, if_true]

/-- Settles O33: acknowledgements and timers, time exchange, numbered messages not accepted, then announcements. -/
theorem syncChannelAndDroveClock : Obligations.SyncChannelAndDroveClock := by
  refine ⟨?_, ?_, ?_, ?_, ?_, ?_, ?_, ?_, ?_, ?_⟩
  · intro s p h hactive
    exact ⟨congrArg Host.Outcome.next (if_pos hactive), congrArg Host.Outcome.next (if_pos hactive)⟩
  · intro s p hactive hdue hqueue
    exact execSyncAckTimer_due hactive hdue hqueue
  · intro s a p h t1 hactive hacked
    subst hacked
    exact congrArg Host.Outcome.next (if_pos hactive)
  · intro s a b p h t1 t2 t3 o w hactive hacked hoff hdelay hb hother
    subst hb
    exact execTimeRsp_logged hactive hacked hoff hdelay hother
  · intro s p hactive hstate
    exact execTimeExchangeTick_exchanging hactive hstate
  · intro c s a p h m f q hc hacked hport
    exact exec_bringsNumbered_notTaken (bringsNumbered_of hc) (State.syncTake_unadmitted hacked hport)
  · intro c s a p h m f q hc hacked hport hodd
    exact exec_bringsNumbered_notTaken (bringsNumbered_of hc) (State.syncTake_odd hacked hport hodd)
  · intro s a b d e p h m hacked hport hnext hb hfirst hd he hlead
    subst hb hd he
    exact execMasterMsg_first (State.syncTake_expected hacked hport hnext) hfirst hlead
  · intro s p x hheard
    exact ⟨execMasterStale_heard hheard, rfl⟩
  · intro s a m hown hmaster ha hm
    have hsent : m = s.ownMaster m.serial := by subst ha; exact hm
    subst ha
    rw [hsent]
    exact execMasterAnnounce_own hown hmaster

end Sys2Proof.Machine
end

section
/-! PROOFS. Partials that arrive, rounds that time out, detours, the herd's pace (11_synchronisation.md, R358, R360, R363,
R365, R380, R381, R382). -/

namespace Sys2Proof.Machine

open Sys2Proof

/-! ## Partials and rounds (R358, R360, R363, R365) -/

theorem execPartialMsg_taken {s b : State} {p : Fin 16} {h : SHdr} {m : PartialMsg} (htake : s.syncTake p h = (b, true)) :
    execPartialMsg p h m s = .next (b.takePartial (some p) m) := by
  unfold execPartialMsg
  simp only [htake, if_true]

/-- What an object's present round does. -/
def State.roundAct (s : State) (b : Obj) : Nat := getBits (s.planRound b.plan b.round) 2 0

/-- A round that waits for a partial has waited longer than its time. -/
structure State.RoundLate (s : State) (b : Obj) : Prop where
  inRounds : b.state = 2
  hasRound : b.round < 16
  waits : s.roundAct b = 1 ∨ s.roundAct b = 3 ∨ s.roundAct b = 5
  late : b.roundAt + b.roundLimit < s.elapsed

/-- A lost round is counted and raised. -/
def State.reportLost (s : State) (o : Nat) : State :=
  (s.bump (.sync (objHub o)) Reg.SYNC.ROUND_LOST_COUNT).raise (.sync (objHub o)) Evt.SYNC.ROUND_LOST

/-- An object whose present round is lost. -/
def Obj.loseRound (b : Obj) : Obj :=
  { b with lost := min 65535 (b.lost + 1), status := b.status ||| ObjSt.lost, doneRounds := b.doneRounds ++ [b.round] }

theorem execRoundTimeout_late {s : State} {o : Fin 1024} (hlate : s.RoundLate (s.obj o)) :
    execRoundTimeout o s = .next (if s.roundAct (s.obj o) = 5 then
        (((s.reportLost o).setObj o (s.obj o).loseRound).endRounds o).rounds o
      else ((s.reportLost o).setObj o
        { (s.obj o).loseRound.nextRound with roundAt := (s.reportLost o).elapsed }).rounds o) := by
  obtain ⟨hrounds, hround, hwaits, htime⟩ := hlate
  unfold State.roundAct at hwaits ⊢
  unfold execRoundTimeout
  rw [if_neg]
  · rfl
  · rintro (hno | hno | hno | hno)
    · exact hno hrounds
    · omega
    · simp [hwaits] at hno
    · omega

theorem execPartialDetour_unacked {s : State} {p : Fin 16} {lseq : BitVec 8} {n : Nat} {m : PartialMsg}
    (hout : (s.link p).sOut.find? (fun x => x.lseq == lseq.toNat) = some ⟨n, .herd m⟩) :
    execPartialDetour p lseq s = .next (s.detour m) := by
  unfold execPartialDetour
  simp only [hout]

/-! ## Pace (R380, R381, R382) -/

/-- A post of another job, or one that changes nothing, stops here. -/
theorem execPace_stops {s b : State} {p : Fin 16} {h : SHdr} {m : PaceMsg} (htake : s.syncTake p h = (b, true))
    (hstops : b.jobTag = 0 ∨ m.tag ≠ b.jobTag ∨ paceEnter b.clk.pace m = none) : execPace p h m s = .next b := by
  unfold execPace
  simp only [htake]
  obtain hjob | htag | hsame := hstops
  · simp [hjob]
  · simp [htag]
  · simp [hsame]

/-- A post of the package's own job that changes the table goes on through every other ADMITTED port. -/
theorem execPace_passesOn {s b : State} {p : Fin 16} {h : SHdr} {m : PaceMsg} {l : List PaceEntry}
    (htake : s.syncTake p h = (b, true)) (hjob : b.jobTag ≠ 0) (htag : m.tag = b.jobTag)
    (hchanges : paceEnter b.clk.pace m = some l) :
    execPace p h m s = .next ((allPorts.filter (fun q => b.admitted q && q != p)).foldl
      (fun (t : State) q => t.sendSync q (.pace m)) (b.setPace l)) := by
  unfold execPace
  simp only [htake, hchanges, htag, hjob, Bool.not_true, bne_self_eq_false, decide_false, Bool.or_self, Bool.false_eq_true,
    if_false]

/-- The own pace of a package that posts, with the next OSEQ. -/
def State.paceMsg (s : State) : PaceMsg := ⟨s.serial, (s.clk.oseq + 1) % 65536, s.ownPace, s.jobTag⟩

/-- A package has used the next OSEQ. -/
def State.nextOseq (s : State) : State := { s with clk := { s.clk with oseq := (s.clk.oseq + 1) % 65536 } }

theorem State.postPace_posts {s : State} (hpost : s.isSet (.sync 0) Reg.SYNC.PACE_CFG_POST = true) (hjob : s.jobTag ≠ 0) :
    s.postPace = s.nextOseq.broadcast (.pace s.paceMsg) := by
  unfold State.postPace
  rw [hpost, if_neg (by simp [hjob])]
  rfl

/-- Settles O35: partials and lost rounds, the detour, then posts that arrive, leave and expire. -/
theorem herdRoundsAndPace : Obligations.HerdRoundsAndPace := by
  refine ⟨?_, ?_, ?_, ?_, ?_, ?_, ?_, ?_⟩
  · intro s a b p h m hacked hport hnext hb
    subst hb
    exact execPartialMsg_taken (State.syncTake_expected hacked hport hnext)
  · intro s a o b act hb hact hrounds hround hwaits hlate ha
    subst hb hact ha
    exact execRoundTimeout_late ⟨hrounds, hround, hwaits, hlate⟩
  · intro s p lseq n m hout
    exact execPartialDetour_unacked hout
  · intro s a b p h m hacked hport hnext hb hstops
    subst hb
    exact execPace_stops (State.syncTake_expected hacked hport hnext) hstops
  · intro s a b p h m l hacked hport hnext hb hjob htag hchanges
    subst hb
    exact execPace_passesOn (State.syncTake_expected hacked hport hnext) hjob htag hchanges
  · intro s m hpost hjob hm
    subst hm
    exact congrArg Host.Outcome.next (State.postPace_posts hpost hjob)
  · intro s m hslow hpost hjob hm
    subst hm
    exact congrArg Host.Outcome.next ((if_pos hslow).trans (State.postPace_posts hpost hjob))
  · intro s origin hlisted
    exact congrArg Host.Outcome.next (if_pos hlisted)

end Sys2Proof.Machine
end

section
/-! PROOFS. Staged writes, STAGE_CHECK, the commit commands and the end of a bank copy (19_register_map.md,
11_synchronisation.md, 08_fabric_topology.md, R240, R376, R378, R489, R557, R559). -/

namespace Sys2Proof.Machine

open Sys2Proof

/-! ## What leaves pending commits as they are -/

theorem State.foldl_commits {α : Type} {f : State → α → State} (hf : ∀ s x, (f s x).commits = s.commits) (l : List α)
    (s : State) : (l.foldl f s).commits = s.commits := by
  induction l generalizing s with
  | nil => rfl
  | cons x l ih => exact (ih (f s x)).trans (hf s x)

@[simp] theorem State.stageMark_commits (s : State) (u : UnitId) : (s.stageMark u).commits = s.commits := by
  have hgroups (t : State) : ((ancestors u).foldl (fun t a => t.setF a Reg.STAGE_BELOW 1) t).commits = t.commits :=
    State.foldl_commits (fun _ _ => State.setF_commits ..) _ t
  have hchecks (t : State) : ((UnitId.chain u 4).foldl
      (fun t a => (t.setF a Reg.CHECK_RESULT 3).setF a Reg.CHECK_CAUSE 0) t).commits = t.commits :=
    State.foldl_commits (fun _ _ => (State.setF_commits ..).trans (State.setF_commits ..)) _ t
  exact (hchecks _).trans (hgroups _)

@[simp] theorem State.showCheck_commits (s : State) (u : UnitId) : (s.showCheck u).commits = s.commits := rfl

@[simp] theorem State.setRout_commits (s : State) (h : Fin 2) (r : RoutSt) : (s.setRout h r).commits = s.commits := by
  unfold State.setRout
  split <;> rfl

@[simp] theorem State.dtabBusy_commits (s : State) (h : Fin 2) (n : Nat) : (s.dtabBusy h n).commits = s.commits :=
  (State.setF_commits ..).trans (State.setRout_commits ..)

/-! ## No commit pending -/

section NoCommit

variable {s : State} (hnone : s.commits = [])

include hnone

theorem State.commit?_none (u : UnitId) : s.commit? u = none := by
  unfold State.commit?
  rw [hnone]
  rfl

theorem State.rerunChecks_none (u : UnitId) : s.rerunChecks u = s := by
  unfold State.rerunChecks
  induction UnitId.chain u 4 with
  | nil => rfl
  | cons a l ih => rwa [List.foldl_cons, show s.commits.find a.key = none from State.commit?_none hnone a]

theorem State.covering_none (u : UnitId) : s.covering u = none :=
  List.find?_eq_none.2 fun a _ => by simp [State.commit?_none hnone a]

/-- The commit of a unit that stands alone. -/
theorem State.joinBelow_none (c : Commit) : s.joinBelow c = (s, c) := by
  unfold State.joinBelow
  rw [hnone]
  rfl

theorem State.newCommit_none (u : UnitId) : s.newCommit u = ⟨u, 0, true, false, false, 0, none, []⟩ := by
  unfold State.newCommit
  rw [State.commit?_none hnone]
  rfl

end NoCommit

/-! ## Staging and checks (R557, R559) -/

theorem State.startXtab_other (s : State) {u : UnitId} (off : Nat) (hother : ∀ h, u ≠ .rout h) : s.startXtab u off = s := by
  unfold State.startXtab
  split
  · exact absurd rfl (hother _)
  · rfl

theorem execStagedWrite_staged {s : State} {u : UnitId} {off : Nat} (w : Word) (hopen : s.pageOpen u = true)
    (hhere : stagedHere u = true) (hstaged : stMask u off ≠ 0) (hother : ∀ h, u ≠ .rout h) (hnone : s.commits = []) :
    execStagedWrite u off w s =
      .next (s.stageW u off ((s.getShadow u off &&& ~~~(stMask u off)) ||| (w &&& stMask u off))) := by
  unfold execStagedWrite State.stagedWrite
  simp only [hopen, hhere, hstaged, Bool.not_true, decide_false, Bool.or_self, Bool.false_eq_true, if_false, if_true]
  rw [State.startXtab_other _ off hother, State.rerunChecks_none]
  exact (State.stageMark_commits _ u).trans hnone

theorem execStageCheckDone_alone {s : State} {u : UnitId} (errs : LineErrs) (hruns : s.getF u Reg.CHECK_RESULT = 3)
    (hnone : s.commit? u = none) : execStageCheckDone u errs s = .next (s.showCheck u) := by
  have hstill : (s.showCheck u).commit? u = none := hnone
  unfold execStageCheckDone
  simp only [hruns, hstill, ne_eq, not_true_eq_false, if_false]

/-! ## AT and CANCEL (R376, R378, R489) -/

/-- A commit becomes pending, and its check starts. -/
def State.pendCommit (s : State) (c : Commit) : State :=
  (((s.putCommit c).setF c.unit Reg.COMMIT_STATE 1).setF c.unit Reg.CHECK_RESULT 3).setF c.unit Reg.CHECK_CAUSE 0

theorem execCommitAt_pends {s : State} {u : UnitId} (hopen : s.pageOpen u = true) (hnone : s.commits = [])
    (hready : s.ready = true) :
    execCommitAt u s =
      .next (s.pendCommit ⟨u, s.getPair u Reg.COMMIT_AT_LO Reg.COMMIT_AT_HI, false, true, false, 0, none, []⟩) := by
  unfold execCommitAt
  simp only [hopen, hready, State.covering_none hnone, State.joinBelow_none hnone, State.newCommit_none hnone, Bool.not_true,
    Bool.false_eq_true, if_false]
  rfl

theorem execCommitAt_early {s : State} {u : UnitId} (hopen : s.pageOpen u = true) (hearly : s.ready = false) :
    execCommitAt u s = .next ((s.showCheck u).setF u Reg.COMMIT_STATE 4) := by
  unfold execCommitAt
  simp only [hopen, hearly, Bool.not_true, Bool.not_false, Bool.false_eq_true, if_false, if_true]

theorem execCommitCancel_pending {s : State} {u : UnitId} {c : Commit} (hopen : s.pageOpen u = true)
    (hcover : s.covering u = none) (hpend : s.commit? u = some c) (hbefore : s.drove < c.at_) :
    execCommitCancel u s = .next ((s.dropCommit u).setStates c 0) := by
  unfold execCommitCancel
  simp only [hopen, hcover, hpend, Nat.not_le.2 hbefore, Bool.not_true, decide_false, Bool.and_false, Bool.false_eq_true,
    if_false]

/-! ## Commits that apply (R376, R378, R557, R559) -/

/-- A commit that no other has joined, and whose check passes, applies in time. -/
theorem State.applyCommit_alone {t : State} {c : Commit} (halone : c.joined = [])
    (hpasses : (t.dropCommit c.unit).checkFail c.unit = none) :
    t.applyCommit c 0 =
      (((t.dropCommit c.unit).showCheck c.unit).applySet c.unit).setF c.unit Reg.COMMIT_STATE 2 := by
  unfold State.applyCommit State.setStates
  simp only [hpasses, halone, Option.isNone_none, Bool.not_true, Bool.false_eq_true, if_false, if_true, List.foldl_cons,
    List.foldl_nil]

theorem execCommitNow_alone {s : State} {u : UnitId} (errs : LineErrs) (hopen : s.pageOpen u = true) (hnone : s.commits = [])
    (hfree : s.copyHeld u = false) :
    execCommitNow u errs s = .next ((s.findErrs errs).applyCommit ⟨u, 0, true, false, false, 0, none, []⟩ 0) := by
  unfold execCommitNow
  simp only [hopen, hfree, State.covering_none hnone, State.joinBelow_none hnone, State.newCommit_none hnone, Bool.not_true,
    Bool.false_eq_true, if_false]

/-- T of a pending AT commit has come, with its check done and the clock LOCKED. -/
structure State.CommitDue (s : State) (c : Commit) : Prop where
  pending : s.commit? c.unit = some c
  timed : c.now = false
  checked : c.running = false
  onTime : c.cause = 0
  reached : c.at_ ≤ s.drove
  free : s.copyHeld c.unit = false
  locked : s.getF (.sync 0) Reg.SYNC.DROVE_STAT_STATE = 2

theorem execCommitAtReached_due {s : State} {c : Commit} (errs : LineErrs) (hdue : s.CommitDue c) :
    execCommitAtReached c.unit errs s = .next ((s.findErrs errs).applyCommit c 0) := by
  obtain ⟨hpend, htimed, hchecked, honTime, hreached, hfree, hlocked⟩ := hdue
  unfold execCommitAtReached
  simp [hpend, htimed, hchecked, honTime, Nat.not_lt.2 hreached, hfree, hlocked]

/-! ## The end of a bank copy (R240) -/

/-- The shadow bank holds what the active one holds. -/
def State.copyBank (s : State) (h : Fin 2) : State :=
  s.setRout h { s.rout h with
    dshadow := (s.rout h).dtab, dundef := false, crcs := { (s.rout h).crcs with shadow := (s.rout h).crcs.active } }

theorem execDtabBankCopyDone_free {s : State} {h : Fin 2} (errs : LineErrs) (hcopies : (s.rout h).dbusy = 3)
    (hnone : s.commits = []) : execDtabBankCopyDone h errs s = .next ((s.copyBank h).dtabBusy h 0) := by
  have hstill : ((s.copyBank h).dtabBusy h 0).commits = [] :=
    ((State.dtabBusy_commits ..).trans (State.setRout_commits ..)).trans hnone
  refine congrArg Host.Outcome.next ((if_neg (not_not.2 hcopies)).trans ?_)
  change List.foldl _ (if ((s.copyBank h).dtabBusy h 0).commits = [] then _ else _)
    (List.map Prod.snd (State.commits (if ((s.copyBank h).dtabBusy h 0).commits = [] then _ else _))) = _
  rw [if_pos hstill]
  exact congrArg (fun l => List.foldl _ _ (List.map Prod.snd l)) hstill

/-- Settles O51: a staged write, the end of a check, AT and CANCEL, the commits that apply, the end of a bank copy. -/
theorem stagingAndCommits : Obligations.StagingAndCommits := by
  refine ⟨?_, ?_, ?_, ?_, ?_, ?_, ?_, ?_⟩
  · intro s u off w hopen hhere hstaged hother hnone
    exact execStagedWrite_staged w hopen hhere hstaged hother hnone
  · intro s u errs hruns hnone
    exact execStageCheckDone_alone errs hruns hnone
  · intro s u hopen hnone hready
    exact execCommitAt_pends hopen hnone hready
  · intro s u hopen hearly
    exact execCommitAt_early hopen hearly
  · intro s u c hopen hcover hpend hbefore
    exact execCommitCancel_pending hopen hcover hpend hbefore
  · intro s t u errs hopen hnone hfree ht hpasses
    subst ht
    exact (execCommitNow_alone errs hopen hnone hfree).trans
      (congrArg Host.Outcome.next (State.applyCommit_alone rfl hpasses))
  · intro s t u c errs hpend hunit halone htimed hchecked honTime hreached hfree hlocked ht hpasses
    subst hunit ht
    exact (execCommitAtReached_due errs ⟨hpend, htimed, hchecked, honTime, hreached, hfree, hlocked⟩).trans
      (congrArg Host.Outcome.next (State.applyCommit_alone halone hpasses))
  · intro s h errs hcopies hnone
    exact execDtabBankCopyDone_free errs hcopies hnone

end Sys2Proof.Machine
end

section
/-! PROOFS. A step runs the command at the front of the queue or passes 1 ns, and keeps package memory in its canonical
form (00_scope.md, 06_memory.md, 95_what_each_step_holds.md). -/

namespace Sys2Proof.Machine

open Sys2Proof

/-! ## What a step does -/

theorem step_of_pending {s : State} {c : Instr} {rest : List Instr} (h : s.pending = c :: rest) :
    step s = exec c { s with pending := rest } := by
  unfold step
  rw [h]

theorem step_of_empty {s : State} (h : s.pending = []) : step s = .next s.tick := by
  unfold step
  rw [h]

/-- Once a start-up has begun a tick is 1 ns of drove time. -/
theorem State.tick_started {s : State} (h : s.getF .pkg Reg.PKG.START_STATE ≠ 0) :
    s.tick = { s with drove := s.drove + 1 } := if_neg h

theorem State.tick_still {s : State} (h : s.getF .pkg Reg.PKG.START_STATE = 0) : s.tick = s := if_pos h

theorem State.tick_mm (s : State) : s.tick.mm = s.mm := by
  unfold State.tick
  split <;> rfl

theorem State.withFetchWord_eq (s : State) (nbits w : Nat) : s.withFetchWord nbits w = s := rfl

/-- Settles O53, on a queue that holds a command and on an empty one. -/
theorem queueRunsOneCommandAtATime : Obligations.QueueRunsOneCommandAtATime := by
  refine ⟨?_, ?_, ?_, ?_, ?_⟩
  · intro s c rest hfront
    exact step_of_pending hfront
  · intro s c
    exact step_of_pending rfl
  · intro s hempty hstarted
    rw [step_of_empty hempty, State.tick_started hstarted]
  · intro s hempty hstill
    rw [step_of_empty hempty, State.tick_still hstill]
  · intro s nbits w
    exact ⟨rfl, s.withFetchWord_eq nbits w⟩

/-! ## What a step keeps -/

/-- Settles O55: every command keeps the canonical form, whatever it does besides, and a tick leaves memory alone. -/
theorem stepKeepsMemoryCanonical : Obligations.StepKeepsMemoryCanonical := by
  intro s t hwf hstep
  cases hqueue : s.pending with
  | nil =>
    rw [step_of_empty hqueue] at hstep
    obtain rfl := Host.Outcome.next.inj hstep
    rwa [State.tick_mm]
  | cons c rest =>
    rw [step_of_pending hqueue] at hstep
    exact (exec_kept c _ t hstep).mem hwf

end Sys2Proof.Machine
end

section
/-! PROOFS. Samples of input power, the shares of the compute budget, what is learned of phases (12_power.md, R388, R394,
R396, R402, R403). -/

namespace Sys2Proof.Machine

open Sys2Proof

/-! ## Samples of input power (R388, R394, R396) -/

/-- The last second's samples, with one more. -/
def State.withSample (s : State) (x : Nat) : List Nat := (x :: s.pw.samples).take 1000000

/-- What a sample of input power shows, before the limits are judged. -/
def State.showPower (s : State) (v i : BitVec 16) : State :=
  let a := (s.setF .hctl Reg.HCTL.VIN_VALUE v.toNat).setF .hctl Reg.HCTL.IIN_VALUE i.toNat
  let l := s.withSample (v.toNat * i.toNat)
  let b := (a.setPw { a.pw with samples := l }).moveLevel pwrLevel (min 4095 (avgWatts l 1000))
  let c := b.setF .hctl Reg.HCTL.PWR_1S_WATTS (min 4095 (avgWatts l 1000000))
  c.setF .hctl Reg.HCTL.PWR_2MS_PEAK_WATTS (max (c.getF .hctl Reg.HCTL.PWR_2MS_PEAK_WATTS) (min 4095 (avgWatts l 2000)))

theorem execPowerSample_judges (v i : BitVec 16) (s : State) :
    execPowerSample v i s = .next (((s.showPower v i).peakStep.ocStep i.toNat).holdStep) := rfl

/-! ## The shares of the compute budget (R403) -/

/-- The clusters with busy tiles, each at 400 MHz, with the learned values of what runs there. -/
def State.busyShares (s : State) (mean : Fin 4 → Nat) : List Share :=
  (List.finRange 4).flatMap (fun d => (List.range 13).filterMap (fun c =>
    if (s.clusterTasks d c).isEmpty then none else
    some ⟨d, c, (s.clusterTasks d c).map (fun w => (s.learned d w.phaseTag (mean d)).1),
      (s.clusterTasks d c).map (fun w => (s.learned d w.phaseTag (mean d)).2), 400⟩))

/-- The BUDGET ceilings that shares give: one for each cluster that ends below 2,500 MHz. -/
def budgetCeils (l : List Share) : Map Nat :=
  (l.filter (fun x => x.mhz < 2500)).foldl (fun (m : Map Nat) x => m.put (clusKey x.die x.clus) x.mhz) []

/-- A die's share, W, as its registers show it. -/
def dieShare (l : List Share) (d : Fin 4) : Nat := min 4095 (((l.filter (fun x => x.die = d)).map Share.watts).sum / 1000)

/-- Each die shows its share, at the hub and on its own page. -/
def State.showShares (s : State) (l : List Share) : State :=
  (List.finRange 4).foldl (fun (t : State) (d : Fin 4) =>
    (t.setF .hctl (Reg.HCTL.DIE_BUDGET_WATTS d) (dieShare l d)).setF (.cdie d) Reg.CDIE.PWR_BUDGET_WATTS (dieShare l d)) s

/-- The present mean PWR of each die. -/
def State.withMeans (s : State) (m0 m1 m2 m3 : Nat) : State :=
  s.setPw { s.pw with meanPwr := [(0, m0), (1, m1), (2, m2), (3, m3)] }

theorem execShareRecompute_shares {s z : State} {ot m0 m1 m2 m3 : Nat} {l : List Share} (hz : z = s.withMeans m0 m1 m2 m3)
    (hl : l = shareSteps (z.isSet .hctl Reg.HCTL.SHARE_CFG_ENABLE) (z.capLimit ot - 1000 * ot)
      (z.busyShares fun d => [m0, m1, m2, m3].getD d 0) 4368) :
    execShareRecompute ot m0 m1 m2 m3 s =
      .next (((z.setPw { z.pw with budget := budgetCeils l }).showShares l).ceilsFrom z) := by
  subst hz hl
  unfold execShareRecompute State.busyShares
  simp only [List.map_map]
  rfl

/-! ## What is learned of phases (R402) -/

/-- The learned values of a phase, an eighth of the way towards an estimate. -/
def State.learnedNext (s : State) (d : Fin 4) (mean : Nat) (o : PhaseObs) : Nat × Nat :=
  (s.eighth (s.learned d o.1.toNat mean).1 o.2.1.toNat, s.eighth (s.learned d o.1.toNat mean).2 (min 100 o.2.2.toNat))

/-- The learned values of a phase move. -/
def State.learnPhase (s : State) (d : Fin 4) (mean : Nat) (o : PhaseObs) : State :=
  let k := 256 * d.val + o.1.toNat
  s.tickFree.setPw { s.pw with phases := s.pw.phases.put k (s.learnedNext d mean o) }

/-- A die's estimated power and its present mean PWR are shown and kept. -/
def State.estimate (s : State) (d : Fin 4) (est mean : Nat) : State :=
  (s.setF (.cdie d) Reg.CDIE.PWR_EST_WATTS (min 4095 est)).setPw { s.pw with meanPwr := s.pw.meanPwr.put d mean }

theorem execPhaseLearn_folds (d : Fin 4) (est mean : Nat) (obs : List PhaseObs) (s : State) :
    execPhaseLearn d est mean obs s = .next (obs.foldl (fun t o => t.learnPhase d mean o) (s.estimate d est mean)) := rfl

/-- Settles O36: the sample, the shares, the estimates one after another, FORGET. -/
theorem powerSamplesAndShares : Obligations.PowerSamplesAndShares := by
  refine ⟨?_, ?_, ?_, ?_, ?_⟩
  · intro s a b c v i l ha hl hb hc
    subst ha hl hb hc
    exact execPowerSample_judges v i s
  · intro s z a b ot m0 m1 m2 m3 busy l hz hbusy hl ha hb
    subst hbusy ha hb
    exact execShareRecompute_shares hz hl
  · intro s a d est mean ph sc p o ha ho
    subst ha ho
    exact execPhaseLearn_folds d est mean [(ph, p, sc)] s
  · intro s d est mean o obs
    refine ⟨_, execPhaseLearn_folds d est mean (obs ++ [o]) s, _, execPhaseLearn_folds d est mean obs s, ?_⟩
    rw [List.foldl_append]
    rfl
  · intro s
    rfl

end Sys2Proof.Machine
end

section
/-! PROOFS. Clock stretches and the DROOP ceiling, frequency steps, rail steps (12_power.md, R391, R398, R399, R401). -/

namespace Sys2Proof.Machine

open Sys2Proof

/-! ## Stretches and the DROOP ceiling (R399, R401) -/

/-- An island's clock is stretched, which its tile and its die count. -/
def State.stretch (s : State) (d : Fin 4) (t : Fin 104) : State :=
  ((s.setTile d t { s.tile d t with stretching := true, settling := false }).bump (.tile d t) Reg.TILE.STRETCH_COUNT).bump
    (.cdie d) Reg.CDIE.STRETCH_EVT_COUNT

/-- A stretch with no frequency change under way defers none. -/
theorem execDroopDetect_stretches {s : State} {d : Fin 4} {t : Fin 104} (above : Bool) (hruns : s.clockRuns d t = true)
    (hfresh : (s.tile d t).stretching = false)
    (hsteady : (s.stretch d t).getF (.tile d t) Reg.TILE.CLK_MHZ = ((s.stretch d t).islandCeil d t true).1) :
    execDroopDetect d t above s = .next (if above then (s.stretch d t).droopFall d t else s.stretch d t) := by
  unfold State.stretch at hsteady ⊢
  unfold execDroopDetect
  simp only [hruns, hfresh, hsteady, Bool.not_true, Bool.or_self, Bool.false_eq_true, if_false, if_true]

theorem execDroopStretchEnd_stretched {s : State} {d : Fin 4} {t : Fin 104} (above : Bool)
    (hstretched : (s.tile d t).stretching = true) :
    execDroopStretchEnd d t above s = .next (
      let a := if above then s.droopFall d t else s
      a.setTile d t { a.tile d t with stretching := false, settling := true }) := by
  unfold execDroopStretchEnd
  simp only [hstretched, Bool.not_true, Bool.false_eq_true, if_false]

theorem execDroopCeilRise_below {s : State} {d : Fin 4} {t : Fin 104} (hbelow : (s.tile d t).ceilDroop < 2500) :
    execDroopCeilRise d t s = .next (s.setDroop d t (min 2500 ((s.tile d t).ceilDroop + 25))) :=
  congrArg Host.Outcome.next (if_pos hbelow)

theorem execFreqDeferEnd_settling {s : State} {d : Fin 4} {t : Fin 104} (hsettling : (s.tile d t).settling = true)
    (hended : (s.tile d t).stretching = false) :
    execFreqDeferEnd d t s = .next (s.setTile d t { s.tile d t with settling := false, deferred := false }) :=
  congrArg Host.Outcome.next (if_pos (by simp [hsettling, hended]))

/-! ## Frequency steps (R398) -/

/-- The frequencies of one step up: those that neither pass the ceiling nor need more than the rail gives. -/
def State.stepsUp (s : State) (d : Fin 4) (t : Fin 104) (goal now : Nat) : List Nat :=
  [now + 25, now + 50, now + 75, now + 100].takeWhile (fun f => decide (f ≤ goal) && decide (s.need d t f ≤ s.rail d (t / 8)))

/-- A step of an island that may change its frequency goes down or up towards its ceiling. -/
theorem execFreqSlewStep_undeferred {s : State} {d : Fin 4} {t : Fin 104} (hactive : s.tileActive d t = true)
    (hfree : (s.tile d t).deferred = false) :
    execFreqSlewStep d t s = .next (
      let goal := (s.islandCeil d t true).1
      let now := s.getF (.tile d t) Reg.TILE.CLK_MHZ
      s.setF (.tile d t) Reg.TILE.CLK_MHZ
        (if goal ≤ now then max goal (now - 100) else (s.stepsUp d t goal now).getLast?.getD now)) := by
  unfold execFreqSlewStep State.stepsUp
  simp only [hactive, hfree, Bool.not_true, Bool.or_self, Bool.false_eq_true, if_false]
  split <;> rfl

/-! ## Rail steps (R391) -/

/-- Where 1 µs takes a cluster's rail: up towards the highest need, or down where a fall is allowed. -/
def State.railNext (s : State) (d : Fin 4) (c : Fin 13) (need : Nat) : Nat :=
  if s.rail d c < need then min need (s.rail d c + 4)
  else if need < s.rail d c ∧ s.pw.railFall.getD (clusKey d c) false = true then max need (s.rail d c - 4)
  else s.rail d c

/-- A cluster's rail stands at a voltage, and falls on only while that is above its need. -/
def State.moveRail (s : State) (d : Fin 4) (c : Fin 13) (need v : Nat) : State :=
  let k := clusKey d c
  let a := s.setPw { s.pw with
    rails := s.pw.rails.putD k v 300, railFall := s.pw.railFall.putD k (decide (need < v) && s.pw.railFall.getD k false) false }
  a.setF (.cdie d) (Reg.CDIE.CLUS_CEIL_RAIL_MV c) (v * 5 / 2)

theorem execRailRampStep_moves {s : State} {d : Fin 4} {c : Fin 13} {need : Nat}
    (hneed : need = min 360 (max 200 (s.railNeed d c))) :
    execRailRampStep d c s = .next (s.moveRail d c need (s.railNext d c need)) := by
  subst hneed
  unfold execRailRampStep State.moveRail State.railNext
  simp only [Bool.and_eq_true, decide_eq_true_eq]

theorem execRailFallHoldExpire_below {s : State} {d : Fin 4} {c : Fin 13} (hbelow : s.railNeed d c < s.rail d c) :
    execRailFallHoldExpire d c s =
      .next (s.setPw { s.pw with railFall := s.pw.railFall.putD (clusKey d c) true false }) :=
  congrArg Host.Outcome.next (if_pos hbelow)

/-- Settles O37: the stretch, its end, the ceiling's rise, the end of the 64 cycles, then steps of frequency and rail. -/
theorem droopSlewAndRails : Obligations.DroopSlewAndRails := by
  refine ⟨?_, ?_, ?_, ?_, ?_, ?_, ?_, ?_⟩
  · intro s a d t above hruns hfresh ha hsteady
    subst ha
    exact execDroopDetect_stretches above hruns hfresh hsteady
  · intro s a d t above hstretched ha
    subst ha
    exact execDroopStretchEnd_stretched above hstretched
  · intro s d t hbelow
    exact execDroopCeilRise_below hbelow
  · intro s d t hsettling hended
    exact execFreqDeferEnd_settling hsettling hended
  · intro s d t goal now hactive hfree hgoal hnow hfall
    subst hgoal hnow
    exact (execFreqSlewStep_undeferred hactive hfree).trans
      (congrArg (fun mhz => Host.Outcome.next (s.setF (.tile d t) Reg.TILE.CLK_MHZ mhz)) (if_pos hfall))
  · intro s d t goal now hactive hfree hgoal hnow hrise
    subst hgoal hnow
    exact (execFreqSlewStep_undeferred hactive hfree).trans
      (congrArg (fun mhz => Host.Outcome.next (s.setF (.tile d t) Reg.TILE.CLK_MHZ mhz)) (if_neg (Nat.not_le.2 hrise)))
  · intro s a d c k need v hk hneed hv ha
    subst hk hv ha
    exact execRailRampStep_moves hneed
  · intro s d c hbelow
    exact execRailFallHoldExpire_below hbelow

end Sys2Proof.Machine
end

section
/-! PROOFS. Power and the rails, the reset and isolation pins, the soft reset key (12_power.md, 16_management_reset_boot.md,
R386, R389, R416, R482, R483, R484, R486, R499). -/

namespace Sys2Proof.Machine

open Sys2Proof

/-! ## Resets and starts (R386, R482, R484, R486) -/

/-- PKG_RESET_N stands high. -/
def State.released (s : State) : State := { s with mg := { s.mg with resetLow := false } }

/-- Every internal rail is good. -/
def State.withRails (s : State) : State := { s with mg := { s.mg with rails := true } }

/-- s0 begins where the package is out of reset with its rails up. -/
def State.startIfUp (s : State) (sel : Fin 4) (rot : StoreRot) : State := if s.mg.up then s.startBoot sel rot else s

theorem execPkgResetRelease_held {s : State} (sel : Fin 4) (rot : StoreRot) (hlow : s.mg.resetLow = true) :
    execPkgResetRelease sel rot s = .next (s.released.startIfUp sel rot) :=
  congrArg Host.Outcome.next (if_neg (by simp [hlow]))

theorem execInternalRailsGood_down {s : State} (sel : Fin 4) (rot : StoreRot) (hdown : s.mg.rails = false)
    (htrip : s.mg.tripped = false) : execInternalRailsGood sel rot s = .next (s.withRails.startIfUp sel rot) :=
  congrArg Host.Outcome.next (if_neg (by simp [hdown, htrip]))

/-- The key resets and starts a package that is up; another value does nothing. -/
theorem execSoftReset_up {s : State} (key : Word) (sel : Fin 4) (rot : StoreRot) (hup : s.mg.up = true) :
    execSoftReset key sel rot s = .next (if key = 0xA5C3 then
      ((s.wipeFor 3).setF .hctl Reg.HCTL.TRIP_LAST_VALID 0).startBoot sel rot else s) := by
  refine congrArg Host.Outcome.next ?_
  by_cases hkey : key = 0xA5C3
  · exact (if_neg (by rw [decide_eq_false (not_not.2 hkey), hup]; decide)).trans (if_pos hkey).symm
  · exact (if_pos (by rw [decide_eq_true hkey]; rfl)).trans (if_neg hkey).symm

/-! ## Isolation (R499) -/

/-- Every tile clock stops. -/
def State.stopClocks (s : State) : State :=
  (List.finRange 4).foldl (fun (s : State) d => (List.finRange 104).foldl (fun (s : State) (t : Fin 104) =>
    s.setTile d t { s.tile d t with stopped := true }) s) s

/-- Every port is dark. -/
def State.darkenPorts (s : State) : State :=
  (List.finRange 16).foldl (fun (s : State) p => (s.setF (.port p) Reg.PORT.LINK_STAT_STATE 0).readmit p) s

/-- PKG_ISOLATE_N is taken in: clocks stop, ports go dark. -/
def State.isolate (s : State) : State := State.darkenPorts (State.stopClocks { s with mg := { s.mg with isolated := true } })

theorem execPkgIsolate_fresh {s : State} (hfresh : s.mg.isolated = false) :
    execPkgIsolate s = .next (if s.isolate.startState < 4 then s.isolate.setF .pkg Reg.PKG.START_STATE 0 else s.isolate) :=
  congrArg Host.Outcome.next (if_neg (by simp [hfresh]))

/-- Settles O45, pin by pin: the input, PKG_RESET_N and the rails, the key, PKG_ISOLATE_N. -/
theorem resetsAndPower : Obligations.ResetsAndPower := by
  refine ⟨?_, ?_, ?_, ?_, ?_, ?_, ?_⟩
  · intro s a ha
    subst ha
    rfl
  · intro s a ha
    subst ha
    rfl
  · intro s a ha
    subst ha
    rfl
  · intro s a sel rot hlow ha
    subst ha
    exact execPkgResetRelease_held sel rot hlow
  · intro s a sel rot hdown htrip ha
    subst ha
    exact ⟨execInternalRailsGood_down sel rot hdown htrip, rfl⟩
  · intro s key sel rot hup
    exact execSoftReset_up key sel rot hup
  · intro s a b hfresh ha hb
    subst ha hb
    exact execPkgIsolate_fresh hfresh

end Sys2Proof.Machine
end

section
/-! PROOFS. Samples of the temperature sensors, the thermal cap, the trip, thermal cycles (13_thermal_cooling_ageing.md,
R411 to R416, R426). -/

namespace Sys2Proof.Machine

open Sys2Proof

/-! ## Sensor samples (R411, R412, R413) -/

/-- What a sample does to sensor A of a hot spot; a FAILED one takes no part. -/
def Spot.readA (x : Spot) (r : Int) : Option Int × Nat × Option Nat :=
  if x.failA then (x.lastA, x.jumpA, none) else sensorStep x.lastA x.jumpA r (x.stuck (fun e => e.1))

/-- What a sample does to sensor B. -/
def Spot.readB (x : Spot) (r : Int) : Option Int × Nat × Option Nat :=
  if x.failB then (x.lastB, x.jumpB, none) else sensorStep x.lastB x.jumpB r (x.stuck (fun e => e.2.1))

/-- A hot spot after a sample of both sensors, before they are judged together. -/
def Spot.readBoth (x : Spot) (a b : Int) : Spot :=
  { x with lastA := (x.readA a).1, jumpA := (x.readA a).2.1, failA := x.failA || (x.readA a).2.2.isSome,
           lastB := (x.readB b).1, jumpB := (x.readB b).2.1, failB := x.failB || (x.readB b).2.2.isSome }

/-- A sensor that a sample has failed is marked, with its cause. -/
def State.failFound (s : State) (hs : Fin 440) (b : Bool) (cause : Option Nat) : State :=
  match cause with
  | some c => s.sensorFail hs b c
  | none => s

/-- The THERMAL ceiling of a tile island follows its hot spot; other hot spots have none. -/
def State.thermSpot (s : State) (hs : Fin 440) : State :=
  match spotTile hs with
  | some (d, t) => s.thermIsland hs d t
  | none => s

/-- A sample that begins neither a disagreement nor a drift. -/
theorem execSensorSample_quiet {s : State} {hs : Fin 440} {ia ib m : Int} {load : Nat} {x z w : Spot}
    (hx : x = (s.spot hs).sampled ia ib load) (hpair : (x.readBoth ia ib).judgePair = (z, false))
    (hdrift : z.judgeDrift m = (w, false)) :
    execSensorSample hs ia ib load m s = .next (
      let b := (s.failFound hs false (x.readA ia).2.2).failFound hs true (x.readB ib).2.2
      let g := b.setSpot hs { w with tctl := max (w.formH m) (s.forecast hs m - 24), fore := s.forecast hs m }
      (g.thermSpot hs).showSpots hs) := by
  subst hx
  unfold Spot.readBoth Spot.readA Spot.readB at hpair
  unfold execSensorSample
  simp only [hpair, hdrift, Bool.false_eq_true, if_false]
  rfl

/-! ## The thermal cap (R415) -/

/-- The thermal cap changes, and C follows. -/
def State.setCapTherm (s : State) (watts : Nat) : State :=
  ((s.setPw { s.pw with capMs := 0 }).setF .hctl Reg.HCTL.CAP_THERM_WATTS watts).capResolve

theorem State.capTherm_hot {s : State} (hhot : s.within 839 799 799 = false ∨ 100 < s.thermLimited) :
    s.capTherm = s.setCapTherm (max 600 (s.getF .hctl Reg.HCTL.CAP_THERM_WATTS - 100)) :=
  if_pos (by simpa using hhot)

/-- Where nothing is too hot, 10 ms of low temperatures raise the cap, and anything else starts them anew. -/
theorem State.capTherm_calm {s : State} (hcalm : s.within 839 799 799 = true) (hfew : s.thermLimited ≤ 100) :
    s.capTherm = if s.within 736 720 720 = true ∧ s.thermLimited ≤ 10 then
        if s.pw.capMs < 9 then s.setPw { s.pw with capMs := s.pw.capMs + 1 }
        else s.setCapTherm (min 2400 (s.getF .hctl Reg.HCTL.CAP_THERM_WATTS + 50))
      else s.setPw { s.pw with capMs := 0 } := by
  unfold State.capTherm
  rw [if_neg (by simp [hcalm, hfew])]
  simp only [Bool.and_eq_true, decide_eq_true_eq]
  rfl

/-! ## The thermal trip (R416) -/

/-- A sensor cannot trip: it is FAILED, or has not two hot samples in a row. -/
def State.tripsNot (s : State) (sensor : Fin 880) : Bool :=
  let x := s.spot (sensor / 2)
  if sensor.val % 2 = 0 then x.failA || decide (x.hotA < 2) else x.failB || decide (x.hotB < 2)

theorem execThermalTrip_trips {s : State} {sensor : Fin 880} (hfirst : s.mg.tripped = false)
    (hhot : s.tripsNot sensor = false) :
    execThermalTrip sensor s = .next (
      let a : State := { s with mg := { s.mg with tripped := true, rails := false } }
      ((a.wipeFor 2).setF .hctl Reg.HCTL.TRIP_LAST_SENSOR sensor).setF .hctl Reg.HCTL.TRIP_LAST_VALID 1) :=
  congrArg Host.Outcome.next (if_neg (by rw [hfirst, ← State.tripsNot, hhot]; decide))

theorem execThermalTrip_not {s : State} {sensor : Fin 880} (hnot : s.mg.tripped = true ∨ s.tripsNot sensor = true) :
    execThermalTrip sensor s = .next s :=
  congrArg Host.Outcome.next (if_pos (Bool.or_eq_true_iff.2 hnot))

/-! ## Thermal cycles (R426) -/

/-- A die that is not above 95 °C counts no hot time. -/
theorem execThermalCycleSample_mild {s : State} {die : Fin 6} {x : Int} (hx : x = (s.hottest Spot.tctl (dieSpots die)).1)
    (hmild : x ≤ 760) :
    execThermalCycleSample die s = .next (
      let a := s.cycleStep die x
      a.tickFree.setF .hctl (Reg.HCTL.TMAX_DEGC die)
        (max (a.tickFree.getF .hctl (Reg.HCTL.TMAX_DEGC die)) (if x < 0 then 0 else a.degC x))) := by
  subst hx
  exact congrArg Host.Outcome.next (if_pos hmild)

/-- Settles O38: the sample, the cap at each of its bounds, the trip, the cycle sample. -/
theorem sensorsAndThermalCap : Obligations.SensorsAndThermalCap := by
  refine ⟨?_, ?_, ?_, ?_, ?_, ?_, ?_, ?_⟩
  · intro s a b g hs ra rb ia ib m load p q x y z w hx hra hrb hy ha hb hpair hdrift hp hq hg
    subst hra hrb hy ha hb hp hq hg
    exact execSensorSample_quiet hx hpair hdrift
  · intro s same
    rfl
  · intro s w hw hhot
    subst hw
    exact State.capTherm_hot hhot
  · intro s w hw hcalm hlow hten
    subst hw
    exact (State.capTherm_calm hcalm (by omega)).trans (if_pos ⟨hlow, hten⟩)
  · intro s hcalm hfew hnotLow
    exact (State.capTherm_calm hcalm hfew).trans (if_neg fun ⟨hlow, hten⟩ => by simp [hlow, Nat.not_lt.2 hten] at hnotLow)
  · intro s a sensor hfirst hhot ha
    subst ha
    exact execThermalTrip_trips hfirst hhot
  · intro s sensor hnot
    exact execThermalTrip_not hnot
  · intro s a b die x hx hmild ha hb
    subst ha hb
    exact execThermalCycleSample_mild hx hmild

end Sys2Proof.Machine
end

section
/-! PROOFS. Coolant reports, their loss, the check of the flow sensor, the forecast mode (13_thermal_cooling_ageing.md, R417
to R424). -/

namespace Sys2Proof.Machine

open Sys2Proof

/-! ## The flow in use (R419, R421) -/

/-- A reported flow whose sensor is not marked bad is the flow in use. -/
theorem State.flowInUse_reported {s : State} {f : Nat} (hflow : s.pw.flow = some f)
    (hgood : s.isSet .hctl Reg.HCTL.COOL_STAT_FLOW_BAD = false) : s.flowInUse = (some f, s) := by
  unfold State.flowInUse
  rw [hflow, hgood]
  cases s.pw.outlet <;> rfl

/-- A flow in use that meets a floor condition puts the floor in effect. -/
theorem State.useFlow_floor {s : State} {flow : Nat} {inlet : Int} (report : Bool) (hfloor : s.floorCause flow inlet ≠ 0) :
    s.useFlow flow inlet report = s.floorOn (s.floorCause flow inlet) := if_pos hfloor

/-! ## Reports (R417, R418) -/

theorem State.coolReport_invalid {s : State} {seq : BitVec 32} {tin tout : BitVec 16} (fl : BitVec 16) {ok : BitVec 8}
    {rsvd : Bool} (hup : s.mg.up = true) (hbad : s.coolValid seq tin.toInt tout.toInt ok rsvd = false) :
    State.coolReport seq tin tout fl ok rsvd s = (s.bump .hctl Reg.HCTL.COOL_BAD_COUNT).setPw { s.pw with coolRun := 0 } := by
  unfold State.coolReport
  simp only [hup, hbad, Bool.not_true, Bool.not_false, Bool.false_eq_true, if_false, if_true]

/-- A report shows what it brings and sets VALID. -/
def State.showCoolant (s : State) (tin tout fl : BitVec 16) : State :=
  (((s.setF .hctl Reg.HCTL.COOL_INLET_TEMP tin.toNat).setF .hctl Reg.HCTL.COOL_OUTLET_TEMP tout.toNat).setF .hctl
    Reg.HCTL.COOL_FLOW_MLMIN fl.toNat).setF .hctl Reg.HCTL.COOL_STAT_VALID 1

/-- A report with all three readings is kept, its flow for 100 ms. -/
def State.keepCoolant (s : State) (seq : BitVec 32) (tin tout fl : BitVec 16) : State :=
  (s.showCoolant tin tout fl).setPw { s.pw with
    coolSeq := some seq.toNat, coolAt := some s.elapsed, inlet := some tin.toInt, outlet := some tout.toInt,
    flow := some fl.toNat,
    coolFlows := (s.elapsed, fl.toNat) :: s.pw.coolFlows.filter (fun x => decide (s.elapsed ≤ x.1 + 100000000)) }

/-- The flow in use after a report is judged; without one the inlet alone may put the floor in effect. -/
def State.useReport (s : State) : State :=
  match s.flowInUse with
  | (none, s) => if 5500 ≤ s.pw.inlet.getD 4500 then s.floorOn 4 else s.setPw { s.pw with coolRun := 0 }
  | (some f, s) => (s.setPw { s.pw with flowAt := some s.elapsed }).useFlow f (s.pw.inlet.getD 4500) true

theorem State.coolReport_valid {s : State} {seq : BitVec 32} {tin tout : BitVec 16} (fl : BitVec 16) (hup : s.mg.up = true)
    (hvalid : s.coolValid seq tin.toInt tout.toInt 7 false = true) :
    State.coolReport seq tin tout fl 7 false s = (s.keepCoolant seq tin tout fl).useReport := by
  unfold State.coolReport
  rw [if_neg (by rw [hup]; decide), if_neg (by rw [hvalid]; decide)]
  rfl

/-- A reported flow whose sensor is not marked bad is used. -/
theorem State.useReport_reported {s : State} {f : Nat} (hflow : s.pw.flow = some f)
    (hgood : s.isSet .hctl Reg.HCTL.COOL_STAT_FLOW_BAD = false) :
    s.useReport = (s.setPw { s.pw with flowAt := some s.elapsed }).useFlow f (s.pw.inlet.getD 4500) true := by
  unfold State.useReport
  rw [State.flowInUse_reported hflow hgood]

/-! ## Loss of reports, the flow sensor (R418, R421, R423) -/

/-- Where no flow is reported, what the temperatures explain is shown, and nothing is judged. -/
theorem execFlowCheck_noFlow {s a : State} {o : Int} {q : Nat} (hout : s.pw.outlet = some o)
    (hinfer : s.inferFlow (s.pw.inlet.getD 4500) o = (q, a)) (hnone : a.pw.flow = none) :
    execFlowCheck s =
      .next ((a.setF .hctl Reg.HCTL.FLOW_EST_MLMIN q).setPw { a.pw with overSince := none, okSince := none }) := by
  unfold execFlowCheck
  simp only [hout, hinfer, State.setF_pw, hnone]

/-- Settles O39: a report as it meets others, one that is not valid, one that is; then their loss, the flow sensor, the
forecast mode. -/
theorem coolant : Obligations.Coolant := by
  refine ⟨?_, ?_, ?_, ?_, ?_, ?_⟩
  · intro s seq tin tout fl ok rsvd
    exact ⟨rfl, rfl⟩
  · intro s seq tin tout fl ok rsvd hup hbad
    exact State.coolReport_invalid fl hup hbad
  · intro s a b seq tin tout fl ok f hup hvalid hok ha hb hgood hf
    subst hok ha hb hf
    exact (State.coolReport_valid fl hup hvalid).trans (State.useReport_reported rfl hgood)
  · intro s a fl ti report ha
    subst ha
    exact ⟨rfl, State.useFlow_floor report⟩
  · intro s a o q hout hinfer hnone
    exact execFlowCheck_noFlow hout hinfer hnone
  · intro s
    rfl

end Sys2Proof.Machine
end

section
/-! PROOFS. Visits of the re-margin pass, islands without a safe voltage, margin bumps (13_thermal_cooling_ageing.md, R428 to
R431). -/

namespace Sys2Proof.Machine

open Sys2Proof

/-! ## Visits (R428, R431, R432) -/

theorem execRemarginVisit_begins {s : State} {d : Fin 4} {t : Fin 104} (hdue : s.isDue d t = true)
    (hempty : s.slotsEmpty d t = true) (hnotFailed : s.tileState d t ≠ 2)
    (halone : (List.finRange 104).all (fun x => !(s.tile d x).visiting) = true) :
    execRemarginVisit d t s = .next (s.setTile d t { s.tile d t with visiting := true }) :=
  congrArg Host.Outcome.next (if_pos (by simp only [hdue, hempty, halone, bne_iff_ne.2 hnotFailed, Bool.and_self]))

/-- An island's ageing is shown by the shift of its ring oscillator. -/
def State.showAge (s : State) (d : Fin 4) (t : Fin 104) (ring : Nat) : State :=
  s.setF (.tile d t) Reg.TILE.AGE_PPM (min 65535 (s.slowPpm (Config.ringTest (tileKey d t)) ring))

/-- An island after a visit: its ageing is shown, and nothing of a visit is due. -/
def State.visited (s : State) (d : Fin 4) (t : Fin 104) (ring : Nat) : State :=
  let x := { s.tile d t with visiting := false, visitDue := none, innerDrain := false }
  let b := ((s.setTile d t x).showAge d t ring).tickFree
  b.setPw { b.pw with toVisit := b.pw.toVisit.filter (fun k => k ≠ tileKey d t) }

theorem State.visited_regs (s : State) (d : Fin 4) (t : Fin 104) (ring : Nat) :
    (s.visited d t ring).regs = (s.showAge d t ring).regs := rfl

/-- A visit changes no tile's state. -/
theorem State.visited_tileState (s : State) (d : Fin 4) (t : Fin 104) (ring n : Nat) (h : n < 104) :
    (s.visited d t ring).tileState d n = s.tileState d n := by
  have hoff : 0x060 + 4 * (n / 16) < 4096 := by omega
  have hother : regKey (.tile d t) Reg.TILE.AGE_PPM.off ≠ regKey (.cdie d) (0x060 + 4 * (n / 16)) :=
    regKey_ne (by decide) hoff (.inl nofun)
  unfold State.tileState
  rw [State.getW_congr (s.visited_regs d t ring), State.showAge, State.getW_setF_ne _ _ hother]

/-- A visit ends with a table in force, or with the island without a safe voltage. -/
theorem execRemarginVisitDone_visiting {s : State} {d : Fin 4} {t : Fin 104} (table : Vector Nat 8) (ring : Nat)
    (lines : LineErrs) (hvisit : (s.tile d t).visiting = true) :
    execRemarginVisitDone d t table ring lines s = .next (
      let a := (s.findErrs lines).visited d t ring
      if table.toList.any (fun v => decide (360 < v)) then a.noVoltage d t
      else a.putMargin d t ⟨table.toList, (a.spot (islandSpot d t)).tctl, a.elapsed, ring⟩) :=
  congrArg Host.Outcome.next (if_neg (by rw [hvisit]; decide))

/-- No point above 0.90 V is every point at or below it. -/
theorem not_any_above {l : List Nat} (h : l.all (fun v => decide (v ≤ 360)) = true) :
    ¬ l.any (fun v => decide (360 < v)) = true := by
  simpa using h

/-- An island that is no spare fails with its tile. -/
theorem State.noVoltage_tile {s : State} {d : Fin 4} {t : Fin 104} (h : s.tileState d t ≠ 1) :
    s.noVoltage d t = s.failTile d t 4 none := if_neg h

/-! ## Late visits and bumps (R429, R430) -/

theorem execRmarginLate_late {s : State} {d : Fin 4} {t : Fin 104} (hactive : s.tileActive d t = true)
    (hlate : s.isLate d t = true) (hbusy : s.slotsEmpty d t = false) (hfirst : (s.tile d t).innerDrain = false) :
    execRmarginLate d t s = .next (((s.setTile d t { s.tile d t with innerDrain := true }).bump (.cdie d)
      Reg.CDIE.RMARGIN_LATE_COUNT).raise (.cdie d) Evt.CDIE.RMARGIN_LATE) :=
  congrArg Host.Outcome.next (if_pos (by rw [hactive, hlate, hbusy, hfirst]; decide))

/-- A bump makes a visit of the island due and is raised on its tile. -/
def State.bumped (s : State) (d : Fin 4) (t : Fin 104) : State :=
  (s.setTile d t { s.tile d t with visitDue := some ((s.tile d t).visitDue.getD s.elapsed) }).raise (.tile d t)
    Evt.TILE.MARGIN_BUMP

theorem execMarginBump_steady {s : State} {d : Fin 4} {t : Fin 104} {m : List Nat} (lines : LineErrs)
    (hm : m = (s.marginOf d t).table.map (fun v => v + 4)) (hruns : s.clockRuns d t = true)
    (hnoStretch : (s.tile d t).stretching = false) (hsettled : (s.tile d t).settling = false) :
    execMarginBump d t lines s = .next (if m.any (fun v => decide (360 < v)) then
        ((s.bumped d t).findErrs lines).failTile d t 4 none
      else (s.bumped d t).putMargin d t { s.marginOf d t with table := m }) := by
  subst hm
  exact congrArg Host.Outcome.next (if_neg (by rw [hruns, hnoStretch, hsettled]; decide))

/-- Settles O40: a visit begins, ends with a table, ends without a safe voltage, is late; then the bump. -/
theorem remarginPass : Obligations.RemarginPass := by
  refine ⟨?_, ?_, ?_, ?_, ?_⟩
  · intro s d t hdue hempty hnotFailed halone
    exact execRemarginVisit_begins hdue hempty hnotFailed halone
  · intro s0 s a b d t table ring lines hs hvisit hb ha hsafe
    subst ha hb hs
    exact (execRemarginVisitDone_visiting table ring lines hvisit).trans
      (congrArg Host.Outcome.next (if_neg (not_any_above hsafe)))
  · intro s0 s a b d t table ring lines hs hvisit hb ha hnoVoltage hnoSpare
    subst ha hb hs
    have hstill : ((s0.findErrs lines).visited d t ring).tileState d t ≠ 1 := by
      rwa [State.visited_tileState _ d t ring t t.isLt]
    exact (execRemarginVisitDone_visiting table ring lines hvisit).trans
      (congrArg Host.Outcome.next ((if_pos hnoVoltage).trans (State.noVoltage_tile hstill)))
  · intro s d t hactive hlate hbusy hfirst
    exact execRmarginLate_late hactive hlate hbusy hfirst
  · intro s a d t lines m hruns hnoStretch hsettled hm ha
    subst ha
    exact execMarginBump_steady lines hm hruns hnoStretch hsettled

end Sys2Proof.Machine
end

section
/-! PROOFS. What reset leaves (03_compute_tiles.md, 08_fabric_topology.md, 11_synchronisation.md,
13_thermal_cooling_ageing.md, R240, R375, R415, R422). -/

namespace Sys2Proof.Machine

open Sys2Proof

/-! ## Words and events at reset -/

/-- After reset every register holds its reset word. -/
theorem State.reset_getW (u : UnitId) (off : Nat) : State.reset.getW u off = resetWord u off := rfl

/-- A field of the register tables holds its reset value. -/
theorem State.reset_getF (u : UnitId) (f : Fld) : State.reset.getF u f = getBits (resetWord u f.off) f.hi f.lo := rfl

/-- No event is pending in the reset word of EVT_PEND, on any page. -/
theorem resetWord_evtPend (u : UnitId) : resetWord u 0x014 = 0 := rfl

theorem State.reset_pend (u : UnitId) (b : Nat) : State.reset.pend u b = false := by
  unfold State.pend
  rw [State.reset_getW, resetWord_evtPend]
  exact BitVec.getLsbD_zero

/-! ## Routers and links at reset -/

theorem State.reset_rout (h : Fin 2) : State.reset.rout h = RoutSt.init := by
  unfold State.rout
  split <;> rfl

theorem State.reset_linkState (p : Fin 16) : State.reset.linkState p = 0 := by
  revert p
  decide

theorem State.reset_spares (d : Fin 4) : State.reset.getF (.cdie d) Reg.CDIE.SPARES_LEFT = 4 := by
  revert d
  decide

theorem State.reset_activeTiles (d : Fin 4) : State.reset.getF (.cdie d) Reg.CDIE.ACTIVE_TILES = 100 := by
  revert d
  decide

/-- Settles O54, register by register and list by list. -/
theorem resetLeavesTheValuesTheManualGives : Obligations.ResetLeavesTheValuesTheManualGives := by
  refine ⟨?_, ?_, rfl, ?_, ?_, State.reset_pend, rfl, ?_, ?_, ?_, rfl, Memory.wf_nil⟩
  · decide
  · decide
  · decide
  · intro h
    rw [State.reset_rout]
    exact ⟨rfl, rfl⟩
  · intro p
    unfold State.linkActive
    rw [State.reset_linkState]
    rfl
  · decide
  · intro d
    exact ⟨State.reset_spares d, State.reset_activeTiles d⟩

end Sys2Proof.Machine
end

section
/-! PROOFS. The assay die: its start, the drove time sent to it, the hallmark of an interval, the copies that reach H0
(14_assay_meter.md, R439 to R449). -/

namespace Sys2Proof.Machine

open Sys2Proof

/-! ## The die itself (R439 to R446) -/

theorem execAssayStart_stopped {s : State} (hstopped : s.assay.running = false) :
    execAssayStart s = .next { s with assay := { s.assay with
      running := true, restart := true, copy := none, locked := false, jump := false, base := none } } :=
  congrArg Host.Outcome.next (if_neg (by rw [hstopped]; decide))

/-- Drove time lies before the time last received. -/
def State.droveBack (s : State) : Bool :=
  match s.assay.copy with
  | some c => decide (s.drove < c)
  | none => false

theorem execDroveTimeToAssay_up {s : State} (hrun : s.assay.running = true) (hup : s.mg.up = true) :
    execDroveTimeToAssay s = .next { s with assay := { s.assay with
      copy := some s.drove, locked := s.getF (.sync 0) Reg.SYNC.DROVE_STAT_STATE == 2,
      jump := s.assay.jump || s.droveBack, base := some (s.assay.base.getD s.drove) } } :=
  congrArg Host.Outcome.next (if_neg (by rw [hrun, hup]; decide))

/-- Energy of an interval in whole mJ, with what the last one carried on. -/
def AssaySt.energy (a : AssaySt) (samples : AssaySamples) : Nat := (a.carry + energyOf samples) / 1000000000

/-- Starts counted: the first hallmark after one counts it. -/
def AssaySt.ups (a : AssaySt) : Nat := if a.restart then a.powerUps + 1 else a.powerUps

/-- FLAGS of the hallmark of an interval by whose end a drove time had been received. -/
def AssaySt.flags (a : AssaySt) (samples : AssaySamples) (ns since : Nat) (refBad : Bool) : Nat :=
  hallmarkFlags a.restart (decide (10000000 < since) || !a.locked) (a.jump || a.leapt ns)
    (decide (energyOf samples < 240 * 1000 * ns)) (beyondScale samples) (a.refFail || refBad) (inputOut samples)

/-- Where drove time has been received, the hallmark of an interval counts from the last one. -/
theorem execHallmarkIntervalEnd_synced {s : State} {samples : AssaySamples} {ns since c : Nat} (temp : Int) (refBad : Bool)
    (hrun : s.assay.running = true) (hcopy : s.assay.copy = some c) :
    execHallmarkIntervalEnd samples ns temp refBad since s = .next (
      let a := s.assay
      let body := hallmarkBody (a.flags samples ns since refBad) a.ups s.serial (a.hseq + 1) (c + since)
        (a.eTotal + a.energy samples) (a.energy samples) (peakOf samples) ns (meanVolt samples) temp
      { s with assay := { a with
        restart := false, hseq := a.hseq + 1, eTotal := a.eTotal + a.energy samples, powerUps := a.ups,
        refFail := a.refFail || refBad, carry := (a.carry + energyOf samples) % 1000000000, jump := false, base := a.copy,
        last := some (body ++ ed25519Sign Config.assayKey body) } }) := by
  unfold execHallmarkIntervalEnd hallmark AssaySt.flags AssaySt.ups AssaySt.energy
  simp only [hrun, hcopy, Option.isNone_some, Bool.not_true, Bool.false_or, Bool.false_eq_true, if_false]

/-! ## Copies at H0 (R448) -/

theorem execHallmarkCopy_bad {s : State} {hm : List Byte} (hlast : s.assay.last = some hm) (hup : s.mg.up = true) :
    execHallmarkCopy false s = .next (s.bump .assay Reg.ASSAY.LINK_ERR_COUNT) := by
  unfold execHallmarkCopy
  simp only [hlast, hup, Bool.not_true, Bool.not_false, Bool.false_eq_true, if_false, if_true]

theorem execHallmarkCopy_good {s : State} {hm : List Byte} (hlast : s.assay.last = some hm) (hup : s.mg.up = true) :
    execHallmarkCopy true s = .next (if s.hallmarkHeld hm then s else s.keepHallmark hm) := by
  unfold execHallmarkCopy
  simp only [hlast, hup, Bool.not_true, Bool.false_eq_true, if_false]

theorem execAssayLinkLost_silent {s : State} {t : Nat} (hup : s.mg.up = true) (hheard : s.assay.heard = some t)
    (hsilent : t + 3000000000 ≤ s.elapsed) :
    execAssayLinkLost s = .next (
      let a : State := { s with assay := { s.assay with heard := none } }
      (a.setF .assay Reg.ASSAY.STAT_LINK_OK 0).raise .assay Evt.ASSAY.LINK_LOST) := by
  unfold execAssayLinkLost
  simp only [hheard, hup, Nat.not_lt.2 hsilent, Bool.not_true, decide_false, Bool.or_self, Bool.false_eq_true, if_false]

/-- Settles O44: the start, drove time, the interval, a copy, the silence. -/
theorem assayDie : Obligations.AssayDie := by
  refine ⟨?_, ?_, ?_, ?_, ?_⟩
  · intro s hstopped
    exact execAssayStart_stopped hstopped
  · intro s lk bk hrun hup hlk hbk
    subst hlk hbk
    exact execDroveTimeToAssay_up hrun hup
  · intro s samples pj eInt ns since c fl ups temp rb body hrun hcopy hpj heInt hups hfl hbody
    obtain rfl : pj = energyOf samples := hpj
    obtain rfl : eInt = s.assay.energy samples := heInt
    obtain rfl : ups = s.assay.ups := hups
    obtain rfl : fl = s.assay.flags samples ns since rb := hfl
    subst hbody
    exact execHallmarkIntervalEnd_synced temp rb hrun hcopy
  · intro s hm hlast hup
    exact ⟨execHallmarkCopy_bad hlast hup, execHallmarkCopy_good hlast hup⟩
  · intro s a t hup hheard hsilent ha
    subst ha
    exact execAssayLinkLost_silent hup hheard hsilent

end Sys2Proof.Machine
end

section
/-! PROOFS. Host commands: how one is fetched and sorted by its CMD_ID, what each operation does, how it completes
(15_host_interface.md, R464 to R471). -/

namespace Sys2Proof.Machine

open Sys2Proof

/-! ## Fetching and sorting (R464, R470) -/

theorem execCommandFetch_failed {s : State} {q : Fin 64} {raw : Vector Byte 64} (hmay : s.mayStart q raw.toList = true) :
    execCommandFetch q raw true s = .next (s.dmaErr.queueErr q 4) := by
  unfold execCommandFetch
  simp only [hmay, Bool.not_true, Bool.false_eq_true, if_false, if_true]

/-- A queue has its turn, and its next command is taken. -/
def State.takeCmd (s : State) (q : Fin 64) : State :=
  let a := { s with host := { s.host with turn := q } }
  a.setHq q { s.hq q with sqHead := ((s.hq q).sqHead + 1) % 2 ^ 32 }

theorem execCommandFetch_sorts {s : State} {q : Fin 64} {raw : Vector Byte 64} (hmay : s.mayStart q raw.toList = true) :
    execCommandFetch q raw false s = .next ((s.takeCmd q).sortCmd q raw.toList) := by
  unfold execCommandFetch
  simp only [hmay, Bool.not_true, Bool.false_eq_true, if_false]
  rfl

/-- A repeated command follows what its record says. -/
theorem State.runAgain_read {s a : State} {q at_ st : Nat} {raw rec : List Byte}
    (hread : s.readMem Req.host at_ 32 = (a, st, rec)) :
    s.runAgain q at_ raw = if st ≠ 0 then (a.refuseCmd q raw 0x06).recordLost
      else if descF rec 8 1 = 0x0C then a.startCmd q raw else a.repeatCmd q raw := by
  unfold State.runAgain
  simp only [hread]

/-! ## Operations (R465, R466, R467, R469) -/

theorem execNop_open {s : State} {q : Fin 64} {n : Nat} {c : HostCmd} (hopen : s.openCmd q n 0 = some c) :
    execNop q n s = .next (s.hostEnd q n 0 0 0) := by
  unfold execNop
  simp only [hopen]

/-- Bytes of a COPY from the host arrive at a run of package memory, and then the host's error if there is one. -/
theorem State.copyHost_copied {s b : State} {q n st dn : Nat} {c : HostCmd} {data : List Byte} {errs : LineErrs} (err : Nat)
    (hcopy : (s.findRmw (c.dst + c.moved) (data.take c.left).length errs).copyIn (c.dst + c.moved) (data.take c.left) 0
      (lineCount (c.dst + c.moved) (data.take c.left).length) = (b, st, dn)) :
    s.copyHost q n c data errs err =
      if st = 0 ∧ (data.take c.left).length < c.left ∧ err ≠ 0 then b.dmaErr.hostEnd q n 0x05 err (c.moved + dn)
      else b.copyGoes q n c st dn := by
  unfold State.copyHost
  simp only [hcopy]

theorem execCopyH2d_open {s : State} {q : Fin 64} {n : Nat} {c : HostCmd} (data : List Byte) (errs : LineErrs) (err : Fin 5)
    (hopen : s.openCmd q n 1 = some c) (hdma : s.dmaOpen = true) :
    execCopyH2d q n data errs err s = .next (s.copyHost q n c data errs err) := by
  unfold execCopyH2d
  simp only [hopen, hdma, if_true]

theorem execCopyD2h_open {s e : State} {q : Fin 64} {n st want : Nat} {c : HostCmd} {errs : LineErrs} {part : Option Nat}
    (err : Fin 5) {got : List Byte} (hopen : s.openCmd q n 2 = some c) (hdma : s.dmaOpen = true)
    (hwant : want = min (part.getD c.left) c.left)
    (hcopy : (s.findErrs errs).copyOut (c.src + c.moved) want [] (lineCount (c.src + c.moved) want) = (e, st, got)) :
    execCopyD2h q n errs part err s = .next (
      let b := e.emit (.hostWrite (c.dst + c.moved) got)
      if st = 0 ∧ err ≠ 0 ∧ want < c.left then b.dmaErr.hostEnd q n 0x05 err (c.moved + got.length)
      else b.copyGoes q n c st got.length) := by
  subst hwant
  unfold execCopyD2h
  simp only [hopen, hdma, hcopy, Bool.not_true, Bool.false_eq_true, if_false]

/-- The next bytes of a FILL, eight bytes repeated. -/
def HostCmd.fillData (c : HostCmd) (part : Option Nat) : List Byte :=
  (((List.range (c.len / 8)).flatMap (fun _ => leBytes 8 c.arg0)).drop c.moved).take (part.getD c.left)

theorem execHostFill_open {s b : State} {q : Fin 64} {n st dn : Nat} {c : HostCmd} {errs : LineErrs} {part : Option Nat}
    (hopen : s.openCmd q n 3 = some c)
    (hcopy : (s.findRmw (c.dst + c.moved) (c.fillData part).length errs).copyIn (c.dst + c.moved) (c.fillData part) 0
      (lineCount (c.dst + c.moved) (c.fillData part).length) = (b, st, dn)) :
    execHostFill q n errs part s = .next (b.copyGoes q n c st dn) := by
  unfold HostCmd.fillData at hcopy
  unfold execHostFill
  simp only [hopen, hcopy]

/-- What lets a POST_TASKS with its descriptors at hand write them: the pool takes them, and the host answers. -/
structure State.MayPost (s : State) (c : HostCmd) (data : List Byte) : Prop where
  enabled : (s.pool (c.arg0 % 4096)).state = 1
  room : (s.pool (c.arg0 % 4096)).untaken + c.len ≤ 2 ^ (s.pool (c.arg0 % 4096)).ringLog
  host : s.dmaOpen = true
  whole : 128 * c.len ≤ data.length

theorem execPostTasks_mayPost {s b : State} {q : Fin 64} {n st : Nat} {c : HostCmd} {data : List Byte} (err : Fin 5)
    (hopen : s.openCmd q n 4 = some c) (hmay : s.MayPost c data)
    (hpost : s.postDescs (s.pool (c.arg0 % 4096)) (s.pool (c.arg0 % 4096)).tail data c.len = (b, st)) :
    execPostTasks q n data err s = .next (if st ≠ 0 then b.hostEnd q n (hostStatus st) (hostDetail st) 0
      else (b.doorbell (c.arg0 % 4096) c.len).hostEnd q n 0 0 c.len) := by
  obtain ⟨henabled, hroom, hdma, hwhole⟩ := hmay
  unfold execPostTasks
  simp only [hopen, henabled, hdma, hpost, Nat.not_lt.2 hroom, Nat.not_lt.2 hwhole, ne_eq, not_true_eq_false, Bool.not_true,
    Bool.false_eq_true, if_false]

theorem execHostSignal_open {s b : State} {q : Fin 64} {n : Nat} {c : HostCmd} {ok : Bool} (hopen : s.openCmd q n 5 = some c)
    (hsignal : s.signal (c.arg0 % 65536) (c.arg1 % 65536) .host 0 0 = (b, ok)) :
    execHostSignal q n s = .next (b.hostEnd q n (if ok then 0 else 0x0A) 0 0) := by
  unfold execHostSignal
  simp only [hopen, hsignal]

/-! ## WAIT_SYNC (R467) -/

/-- The n-th command in progress of a queue begins to wait at an object's generation. -/
def State.beginWait (s : State) (q n gen : Nat) : State :=
  s.setHq q { s.hq q with
    run := (s.hq q).run.mapIdx (fun i d => if i = n then { d with waitGen := some gen, waitAt := s.elapsed } else d) }

theorem execWaitSync_begins {s : State} {q : Fin 64} {n : Nat} {c : HostCmd} {b : Obj} (hopen : s.openCmd q n 6 = some c)
    (hfirst : c.waitGen = none) (hb : b = s.obj (c.arg0 % 65536)) (hmay : b.state = 0 ∨ s.srcAllowed b .host = true) :
    execWaitSync q n s = .next ((s.beginWait q n b.gen).judgeWait q n c b.gen) := by
  subst hb
  have hnot : ¬ ((s.obj (c.arg0 % 65536)).state ≠ 0 ∧ (!s.srcAllowed (s.obj (c.arg0 % 65536)) .host) = true) := by
    rintro ⟨hbusy, hrefused⟩
    simp [hmay.resolve_left hbusy] at hrefused
  unfold execWaitSync
  simp only [hopen, hfirst, Option.isSome_none, Bool.false_eq_true, if_false]
  rw [if_neg hnot]
  rfl

theorem execWaitSyncRelease_waits {s : State} {q : Fin 64} {n g : Nat} {c : HostCmd} (hopen : s.openCmd q n 6 = some c)
    (hwaits : c.waitGen = some g) : execWaitSyncRelease q n s = .next (s.judgeWait q n c g) := by
  unfold execWaitSyncRelease
  simp only [hopen, hwaits]

theorem execWaitSyncTimeout_late {s : State} {q : Fin 64} {n g : Nat} {c : HostCmd} (hopen : s.openCmd q n 6 = some c)
    (hwaits : c.waitGen = some g) (hlimit : c.arg1 % 2 ^ 32 ≠ 0) (hlate : c.waitAt + 1000 * (c.arg1 % 2 ^ 32) ≤ s.elapsed) :
    execWaitSyncTimeout q n s = .next (s.hostEnd q n 0x0B 0 0) := by
  unfold execWaitSyncTimeout
  simp only [hopen]
  exact congrArg Host.Outcome.next
    (if_pos (by simp only [hwaits, hlate, bne_iff_ne.2 hlimit, Option.isSome_some, decide_true, Bool.and_self]))

/-! ## Completion (R468, R471) -/

/-- A queue without its n-th command in progress. -/
def State.dropCmd (s : State) (q : Fin 64) (n : Nat) : State :=
  s.setHq q { s.hq q with run := (s.hq q).run.eraseIdx n }

/-- A command that has ended completes to its ring, recorded first where it ran. -/
theorem execHostCommandDone_completes {s : State} {q : Fin 64} {n : Nat} {c : HostCmd} (hcmd : (s.hq q).run[n]? = some c)
    (hlive : c.orphan = false) (hown : c.copy = false) (hdma : s.dmaOpen = true) (hended : c.result ≠ none) :
    execHostCommandDone q n s = .next (
      (if c.fresh then (s.dropCmd q n).record q c else s.dropCmd q n).complete q c ((s.hq q).compOf c)) := by
  have hnotOrphan : ¬ c.orphan = true := by simp [hlive]
  have hreaches : ¬ (!s.dmaOpen) = true := by simp [hdma]
  have hnotCopy : ¬ c.copy = true := by simp [hown]
  have hresult : ¬ c.result.isNone = true := by simpa using hended
  unfold execHostCommandDone
  rw [hcmd]
  exact congrArg Host.Outcome.next
    ((if_neg hnotOrphan).trans ((if_neg hreaches).trans ((if_neg hnotCopy).trans (if_neg hresult))))

/-- A command that has outlived its queue is recorded only. -/
theorem execHostCommandDone_orphan {s : State} {q : Fin 64} {n : Nat} {c : HostCmd} (hcmd : (s.hq q).run[n]? = some c)
    (horphan : c.orphan = true) (hended : c.result ≠ none) :
    execHostCommandDone q n s = .next ((s.dropCmd q n).record q c) := by
  have hresult : c.result.isSome = true := Option.isSome_iff_ne_none.2 hended
  unfold execHostCommandDone
  rw [hcmd]
  exact congrArg Host.Outcome.next ((if_pos horphan).trans (if_pos hresult))

/-- Settles O42: the fetch and the order of CMD_IDs, the operations in the order of their codes, completion. -/
theorem hostCommands : Obligations.HostCommands := by
  refine ⟨?_, ?_, ?_, ?_, ?_, ?_, ?_, ?_, ?_, ?_, ?_, ?_, ?_⟩
  · intro s q raw hmay
    exact execCommandFetch_failed hmay
  · intro s a b q raw x id hmay ha hb hx hid
    subst ha hb hx hid
    exact execCommandFetch_sorts hmay
  · intro s a q at_ st raw rec hread
    exact State.runAgain_read hread
  · intro s q n c hopen
    exact execNop_open hopen
  · intro s a b q n st dn c data bs errs err hopen hdma hbs ha hcopy
    subst hbs ha
    have herr : (err : Nat) ≠ 0 ↔ err ≠ 0 := Fin.val_ne_zero_iff
    exact (execCopyH2d_open data errs err hopen hdma).trans (congrArg Host.Outcome.next
      ((State.copyHost_copied err hcopy).trans (if_congr (and_congr_right' (and_congr_right' herr)) rfl rfl)))
  · intro s a e b q n st dn want c errs part err got hopen hdma ha hwant hcopy hb hdn
    subst ha hb hdn
    exact execCopyD2h_open err hopen hdma hwant hcopy
  · intro s a b q n st dn c data errs part hopen hdata ha hcopy
    subst hdata ha
    exact execHostFill_open hopen hcopy
  · intro s b q n p st c data err hopen hp henabled hroom hdma hwhole hpost
    subst hp
    exact execPostTasks_mayPost err hopen ⟨henabled, hroom, hdma, hwhole⟩ hpost
  · intro s b q n c ok hopen hsignal
    exact execHostSignal_open hopen hsignal
  · intro s a q n c b hopen hfirst hb hmay ha
    subst ha
    exact execWaitSync_begins hopen hfirst hb hmay
  · intro s q n c g hopen hwaits hlimit hlate
    exact ⟨execWaitSyncRelease_waits hopen hwaits, execWaitSyncTimeout_late hopen hwaits hlimit hlate⟩
  · intro s a q n c hcmd hlive hown hdma hended ha
    subst ha
    exact execHostCommandDone_completes hcmd hlive hown hdma hended
  · intro s a q n c hcmd horphan hended ha
    subst ha
    exact execHostCommandDone_orphan hcmd horphan hended

end Sys2Proof.Machine
end

section
/-! PROOFS. Poisoned packets, vectors, configuration writes, resets of the host connection and its link, a pushed set
(15_host_interface.md, 16_management_reset_boot.md, R453, R454, R473 to R476, R492). -/

namespace Sys2Proof.Machine

open Sys2Proof

/-! ## Poisoned packets (R454) -/

/-- A poisoned packet is counted and raised. -/
def State.poisonSeen (s : State) : State := (s.bump .pcie Reg.PCIE.POISON_RX_COUNT).raise .pcie Evt.PCIE.POISON_RX

theorem execPoisonedTlp_bar (q : Fin 64) (n : Nat) (data : List Byte) (s : State) :
    execPoisonedTlp 0 q n data s = .next s.poisonSeen := congrArg Host.Outcome.next (if_pos rfl)

theorem execPoisonedTlp_fetch (q : Fin 64) (n : Nat) (data : List Byte) (s : State) :
    execPoisonedTlp 2 q n data s =
      .next (if (s.poisonSeen.hq q).state = 1 then s.poisonSeen.dmaErr.queueErr q 4 else s.poisonSeen) :=
  congrArg Host.Outcome.next ((if_neg (by decide)).trans (if_pos rfl))

/-- A poisoned completion stands for an error after the bytes that came whole. -/
theorem execPoisonedTlp_copy {q : Fin 64} {n : Nat} (data : List Byte) {s : State} {c : HostCmd}
    (hopen : s.poisonSeen.openCmd q n 1 = some c) :
    execPoisonedTlp 1 q n data s = .next (s.poisonSeen.copyHost q n c (data.take (c.left - 1)) [] 4) := by
  unfold State.poisonSeen at hopen ⊢
  refine congrArg Host.Outcome.next ((if_neg (by decide)).trans ((if_neg (by decide)).trans ?_))
  rw [hopen]

/-! ## Configuration writes, pushed sets (R473, R474, R491, R492) -/

/-- What a configuration write sets. -/
def State.setConfig (s : State) (bme d3hot fnMask : Bool) (cfg : HostCfg) : State :=
  State.setF { s with host := { s.host with bme := bme, d3hot := d3hot, fnMask := fnMask, cfg := cfg } } .pcie
    Reg.PCIE.LINK_DSTATE (if d3hot then 1 else 0)

theorem execConfigSpaceWrite_answered {s : State} (bme d3hot fnMask : Bool) (cfg : HostCfg) (hready : s.host.crs = false) :
    execConfigSpaceWrite bme d3hot fnMask cfg s = .next (
      let a := s.setConfig bme d3hot fnMask cfg
      (if a.dmaOpen then a else a.hostTargetsDown).flushVectors) :=
  congrArg Host.Outcome.next (if_neg (by simp [hready]))

theorem execBootVerifyDone_verifying {s : State} (hverify : s.getF .pcie Reg.PCIE.BOOT_STAT_STATE = 2) :
    execBootVerifyDone s = .next (if s.bootSetOk then (s.setF .pcie Reg.PCIE.BOOT_STAT_STATE 3).memStart
      else s.setF .pcie Reg.PCIE.BOOT_STAT_STATE 4) :=
  congrArg Host.Outcome.next (if_neg (not_not.2 hverify))

/-- A pushed set stands in a slot, which is selected and runs. -/
def State.pushedTo (s : State) (k : Nat) : State :=
  (((s.bootToSlot k).select k).setF .hctl Reg.HCTL.FW_STAT_RUN_SLOT k).setF .pkg Reg.PKG.START_SLOT k

theorem execBootSlotWriteDone_writing {s : State} (hwriting : s.mg.fw.writing = true) :
    execBootSlotWriteDone s = .next (
      let a := s.pushedTo (1 - s.mg.flash.active)
      a.setFw { a.mg.fw with writing := false }) :=
  congrArg Host.Outcome.next (if_neg (by simp [hwriting]))

/-- Settles O43: poisoned packets, the holdoff, configuration writes, the resets and the link, the configuration space, a
pushed set. -/
theorem hostConnection : Obligations.HostConnection := by
  refine ⟨?_, ?_, ?_, ?_, ?_, ?_, ?_, ?_, ?_, ?_⟩
  · intro s q n data
    exact ⟨execPoisonedTlp_bar q n data s, execPoisonedTlp_fetch q n data s⟩
  · intro s a q n data c ha hopen
    subst ha
    exact execPoisonedTlp_copy data hopen
  · intro s v
    rfl
  · intro s a bm d3 fm hc hready ha
    subst ha
    exact execConfigSpaceWrite_answered bm d3 fm hc hready
  · intro s a ha
    subst ha
    exact ⟨rfl, rfl, rfl, rfl⟩
  · intro s gen width flit
    exact ⟨rfl, rfl⟩
  · intro s
    exact ⟨rfl, rfl, rfl, rfl, rfl, rfl, rfl, rfl, rfl, rfl, rfl, rfl, rfl⟩
  · intro s hwaits
    exact congrArg Host.Outcome.next (if_pos hwaits)
  · intro s hverify
    exact execBootVerifyDone_verifying hverify
  · intro s a k hwriting hk ha
    subst hk ha
    exact execBootSlotWriteDone_writing hwriting

end Sys2Proof.Machine
end

section
/-! PROOFS. Management messages: the link, frames, rack orders, heartbeats, hallmark requests, status and boot requests
(16_management_reset_boot.md, R491, R500 to R507). -/

namespace Sys2Proof.Machine

open Sys2Proof

/-! ## The link and frames (R500, R501) -/

theorem execMgmtLinkChange_changes {s : State} {up : Bool} (hchange : s.isSet .hctl Reg.HCTL.MGMT_STAT_LINK ≠ up) :
    execMgmtLinkChange up s =
      .next ((s.setF .hctl Reg.HCTL.MGMT_STAT_LINK (if up then 1 else 0)).raise .hctl Evt.HCTL.MGMT_LINK) :=
  congrArg Host.Outcome.next (if_neg (by simpa using hchange))

/-- A frame that holds no message counts where it comes for this package: to its address or everyone's, with its SERIAL or
none. -/
theorem execMgmtFrameDiscard_noMessage {s : State} {dst : BitVec 48} {bytes : List Byte} (hform : mgmtForm bytes = false)
    (hserving : (s.mgmtServing || s.romTransfer) = true) :
    execMgmtFrameDiscard dst bytes s = .next (if (dst.toNat = s.mac ∨ dst.toNat = macBroadcast) ∧
      (descF bytes 4 8 = 0 ∨ descF bytes 4 8 = s.serial) then s.mgmtBad else s) := by
  unfold execMgmtFrameDiscard
  simp only [hform, hserving, Bool.not_true, Bool.or_self, Bool.false_eq_true, if_false]
  by_cases haddr : dst.toNat = s.mac ∨ dst.toNat = macBroadcast
  · rw [if_neg (by tauto)]
    by_cases hserial : descF bytes 4 8 = 0 ∨ descF bytes 4 8 = s.serial
    · rw [if_neg (by tauto), if_pos ⟨haddr, hserial⟩]
    · rw [if_pos (by tauto), if_neg (by tauto)]
  · rw [if_pos (by tauto), if_neg (by tauto)]

theorem execMgmtFrameDiscard_unserved {s : State} {dst : BitVec 48} {bytes : List Byte}
    (hidle : (s.mgmtServing || s.romTransfer) = false) : execMgmtFrameDiscard dst bytes s = .next s := by
  unfold execMgmtFrameDiscard
  simp only [hidle, Bool.not_false, Bool.or_true, if_true, ite_self]

/-! ## Rack orders (R504) -/

/-- The state after an order, by its status. -/
def State.ordered (s : State) (oseq watts : Nat) (park : Bool) (st : Nat) : State :=
  if st = 0 then s.applyOrder oseq watts park else s.raise .hctl Evt.HCTL.ORDER_REFUSED

/-- C stands resolved, also where another change of the cycle has yet to come. -/
def State.resolved (s : State) : State :=
  if s.pw.capWait then (s.setPw { s.pw with capWait := false }).capResolve else s

/-- An order of this package is answered with its status and C as it leaves it. -/
theorem State.rackOrder_mine {s : State} {src : BitVec 48} {serial oseq : BitVec 64} {watts : BitVec 12} {park : Bool}
    {sig : List Byte} {st : Nat} (hserving : s.mgmtServing = true) (hnonzero : serial ≠ 0) (hmine : serial.toNat = s.serial)
    (hst : st = s.orderStatus serial.toNat oseq.toNat watts.toNat park sig) :
    State.rackOrder src serial oseq watts park sig s = (s.ordered oseq.toNat watts.toNat park st).sendMgmt src.toNat 0x03
      ((s.ordered oseq.toNat watts.toNat park st).resolved.orderAck oseq.toNat st) := by
  subst hst
  exact (if_neg (by simp [hserving])).trans ((if_neg hnonzero).trans (if_neg (not_not.2 hmine)))

/-! ## Heartbeats (R505) -/

theorem execHeartbeat_serving {s : State} (hserving : s.mgmtServing = true) :
    execHeartbeat s = .next (
      let a := s.setF .hctl Reg.HCTL.HB_STAT_RACK_LOST 0
      { a with mg := { a.mg with rackSeen := some a.elapsed } }) :=
  congrArg Host.Outcome.next (if_neg (by simp [hserving]))

/-- The time of a manager's last heartbeat is forgotten. -/
def State.hbForget (s : State) (bm : Bool) : State :=
  { s with mg := if bm then { s.mg with bmSeen := none } else { s.mg with rackSeen := none } }

theorem execHeartbeatLost_silent {s : State} {bm : Bool} {t : Nat}
    (hseen : (if bm then s.mg.bmSeen else s.mg.rackSeen) = some t) (hsilent : t + 5000000000 ≤ s.elapsed) :
    execHeartbeatLost bm s = .next (((s.hbForget bm).setF .hctl
      (if bm then Reg.HCTL.HB_STAT_BM_LOST else Reg.HCTL.HB_STAT_RACK_LOST) 1).raise .hctl Evt.HCTL.HB_LOST) := by
  unfold execHeartbeatLost
  rw [hseen]
  exact congrArg Host.Outcome.next (if_neg (Nat.not_lt.2 hsilent))

/-! ## Hallmark requests (R507), status and boot requests (R491, R506) -/

/-- The requests of the last second. -/
def State.recentReqs (s : State) : List Nat := s.mg.reqLog.filter (fun t => decide (s.elapsed < t + 1000000000))

/-- A request is logged with those of the last second. -/
def State.logReq (s : State) : State := { s with mg := { s.mg with reqLog := s.recentReqs ++ [s.elapsed] } }

/-- The answer to a request: the records asked for, whether some are missing. -/
def hallmarkAnswer (all recs : List (List Byte)) (count : Nat) : List Byte :=
  leBytes 1 all.length ++ leBytes 1 (if recs.length < count then 1 else 0) ++ leBytes 2 0 ++ all.flatten

theorem execHallmarkReq_answered {s : State} {src : BitVec 48} {frm : BitVec 64} {count : BitVec 8} (ident : Bool)
    (hserving : s.mgmtServing = true) (hsome : count ≠ 0) (hfew : count.toNat ≤ 8) (hrate : s.recentReqs.length < 100) :
    execHallmarkReq src frm count ident s = .next (
      let recs := s.hallmarksFrom frm.toNat count.toNat
      s.logReq.sendMgmt src.toNat 0x07
        (hallmarkAnswer ((if ident then [s.logReq.ident] else []) ++ recs) recs count.toNat)) := by
  have hgood : ¬ (count = 0 ∨ 8 < count.toNat ∨ 100 ≤ s.recentReqs.length) := by
    rintro (h | h | h)
    · exact hsome h
    · omega
    · omega
  exact congrArg Host.Outcome.next ((if_neg (by simp [hserving])).trans (if_neg hgood))

theorem execBootReqSend_sends {s : State} {rec : Bool} (hrec : rec = (s.startState == 5))
    (hasks : rec = true ∨ (s.romTransfer = true ∧ s.fwState = 0)) :
    execBootReqSend s = .next (s.sendMgmt macBroadcast 0x08 (leBytes 2 (s.getF .hctl Reg.HCTL.FW_ROM_VER) ++
      leBytes 1 (boolAt rec 0))) := by
  subst hrec
  exact congrArg Host.Outcome.next (if_pos (by simpa using hasks))

/-- Settles O47: the link, frames, orders, heartbeats and their loss, requests. -/
theorem managementMessages : Obligations.ManagementMessages := by
  refine ⟨?_, ?_, ?_, ?_, ?_, ?_, ?_, ?_, ?_⟩
  · intro s up hchange
    exact execMgmtLinkChange_changes hchange
  · intro s dst bytes hform hserving
    exact execMgmtFrameDiscard_noMessage hform hserving
  · intro s dst bytes hidle
    exact execMgmtFrameDiscard_unserved hidle
  · intro s a b src serial oseq watts park sig st hserving hnonzero hmine hst ha hb
    subst ha hb
    exact State.rackOrder_mine hserving hnonzero hmine hst
  · intro s a b src serial oseq watts park same sig ha hb
    subst ha hb
    cases same <;> rfl
  · intro s a hserving ha
    subst ha
    exact ⟨execHeartbeat_serving hserving, congrArg Host.Outcome.next (if_pos hserving)⟩
  · intro s a bm t hseen hsilent ha
    subst ha
    exact execHeartbeatLost_silent hseen hsilent
  · intro s a src frm count ident log recs hserving hsome hfew hlog hrate ha hrecs
    subst hlog ha hrecs
    exact execHallmarkReq_answered ident hserving hsome hfew hrate
  · intro s rec hrec hasks
    exact execBootReqSend_sends hrec hasks

end Sys2Proof.Machine
end

section
/-! PROOFS. The I3C target and the settings log (16_management_reset_boot.md, R494, R495, R497, R498, R508, R509). -/

namespace Sys2Proof.Machine

open Sys2Proof

/-! ## The I3C target (R508, R509) -/

theorem execI3cEntdaa_assigns {s : State} {addr : BitVec 7} (haux : s.mg.aux = true) (hnone : s.mg.i3cAddr = none) :
    execI3cEntdaa addr s = .next { s with mg := { s.mg with i3cAddr := some addr.toNat } } :=
  congrArg Host.Outcome.next (if_pos (by rw [haux, hnone]; rfl))

/-- The offset of the I3C map is set. -/
def State.i3cSeek (s : State) (o : Nat) : State := { s with mg := { s.mg with i3cOff := o } }

/-- The board manager has been heard. -/
def State.bmHeard (s : State) : State :=
  let b := s.setF .hctl Reg.HCTL.HB_STAT_BM_LOST 0
  { b with mg := { b.mg with bmSeen := some b.elapsed } }

theorem execI3cPrivateWrite_on {s : State} {o : Byte} {data : List Byte} (hon : s.i3cOn = true) :
    execI3cPrivateWrite (o :: data) s = .next (if o = 0x30 ∧ data ≠ [] ∧ (s.i3cSeek o.toNat).startState ≠ 0
      then (s.i3cSeek o.toNat).bmHeard else s.i3cSeek o.toNat) :=
  congrArg Host.Outcome.next (if_neg (by simp [hon]))

theorem execI3cPrivateRead_on {s : State} {n : Nat} (hon : s.i3cOn = true) :
    execI3cPrivateRead n s = .next (
      (s.emit (.i3cRead ((List.range n).map (fun i => s.i3cByte ((s.mg.i3cOff + i) % 256))))).i3cSeek
        ((s.mg.i3cOff + n) % 256)) :=
  congrArg Host.Outcome.next (if_neg (by simp [hon]))

/-! ## The settings log (R494, R495, R497, R498) -/

/-- Blocks can take a group: none is retired, and those erased for it hold nothing of the chain in use. -/
structure Flash.Takes (f : Flash) (bl er : List Nat) : Prop where
  sound : (bl ++ er).any (fun b => f.retired.contains b) = false
  unused : (logChain f.log).any (fun g => g.blocks.any (fun b => er.contains b)) = false

theorem execSettingsGroupWrite_takes {s : State} {ok : Bool} {bytes : Nat} {blocks erased : List (Fin 96)}
    (hserving : s.mgmtServing = true) (hrestored : s.startState ≠ 2)
    (htakes : s.mg.flash.Takes (blocks.map Fin.val) (erased.map Fin.val)) :
    execSettingsGroupWrite ok bytes blocks erased s = .next (
      let a := (s.eraseBlocks (erased.map Fin.val)).showWear
      if ok then a.groupWritten bytes (blocks.map Fin.val) else a.groupFailed ((blocks.map Fin.val).headD 0)) := by
  obtain ⟨hsound, hunused⟩ := htakes
  exact congrArg Host.Outcome.next (if_neg (by rw [hserving, hsound, hunused, decide_eq_false hrestored]; decide))

theorem State.showWear_below {s : State} (h : s.mg.flash.wear < 800 ∨ 800 ≤ s.getF .hctl Reg.HCTL.STORE_STAT_WEAR) :
    s.showWear = s.setF .hctl Reg.HCTL.STORE_STAT_WEAR s.mg.flash.wear :=
  if_neg fun ⟨hbefore, hreached⟩ => h.elim (fun hless => Nat.not_lt.2 hreached hless) (Nat.not_le.2 hbefore)

theorem State.showWear_reached {s : State} (hreached : 800 ≤ s.mg.flash.wear)
    (hbefore : s.getF .hctl Reg.HCTL.STORE_STAT_WEAR < 800) :
    s.showWear = (s.setF .hctl Reg.HCTL.STORE_STAT_WEAR s.mg.flash.wear).raise .hctl Evt.HCTL.STORE_WEAR :=
  if_pos ⟨hbefore, hreached⟩

theorem execStoreForget_started {s : State} (hstarted : s.startState ≠ 0) (hup : s.mg.up = true) :
    execStoreForget s =
      .next ((s.setFlash { s.mg.flash with forgotten := true }).setF .hctl Reg.HCTL.STORE_STAT_FORGOTTEN 1) :=
  congrArg Host.Outcome.next (if_neg (by simp [hstarted, hup]))

/-- Settles O48: the address, a write and a read of the map, the groups of the log and its wear, FORGET. -/
theorem i3cAndSettings : Obligations.I3cAndSettings := by
  refine ⟨?_, ?_, ?_, ?_, ?_, ?_, ?_, ?_⟩
  · intro s addr haux hnone
    exact execI3cEntdaa_assigns haux hnone
  · intro s a b o data hon ha hb
    subst ha hb
    exact execI3cPrivateWrite_on hon
  · intro s a n hon ha
    subst ha
    exact execI3cPrivateRead_on hon
  · intro s a ok bytes blocks erased bl er hserving hrestored hbl her hsound hunused ha
    subst hbl her ha
    exact execSettingsGroupWrite_takes hserving hrestored ⟨hsound, hunused⟩
  · intro s f bytes bl hf
    subst hf
    rfl
  · intro s n hn hless
    subst hn
    exact State.showWear_below hless
  · intro s n hn hreached hbefore
    subst hn
    exact State.showWear_reached hreached hbefore
  · intro s hstarted hup
    exact execStoreForget_started hstarted hup

end Sys2Proof.Machine
end

section
/-! PROOFS. The transfer of a firmware set: its start, pieces, queries and aborts, the chunks written, the slot read again
(17_firmware_update.md, R517 to R522). -/

namespace Sys2Proof.Machine

open Sys2Proof

/-- A choice by what is not so is the choice by what is so, the other way round. -/
theorem ite_not_bool {α : Type} (b : Bool) (x y : α) : (if (!b) = true then x else y) = if b = true then y else x := by
  cases b <;> rfl

/-! ## Starts, pieces, aborts (R519, R520, R521) -/

/-- An XFER_START with a number of chunks that the layout allows: a transfer begins where none is in hand. -/
theorem execXferStart_served {s : State} {src : BitVec 48} {setId : BitVec 64} {epoch : BitVec 32} {chunks : BitVec 8}
    (hserving : s.xferServing = true) (hsome : chunks ≠ 0) (hfit : chunks.toNat ≤ 63) :
    execXferStart src setId epoch chunks s = .next (
      if s.fwState = 0 ∨ s.fwState = 6 then
        let a := s.setFw { s.mg.fw with server := src.toNat, pieces := [] }
        (a.setXfer (some ⟨setId.toNat, epoch.toNat, chunks.toNat, []⟩)).toFwState 1 0
      else if s.mg.fw.xfer.any (fun x => x.setId == setId.toNat) then
        (s.setFw { s.mg.fw with server := src.toNat }).tellServer
      else s.sendStatus src.toNat 10) := by
  have hgood : ¬ (chunks = 0 ∨ 63 < chunks.toNat) := by
    rintro (h | h)
    · exact hsome h
    · omega
  exact congrArg Host.Outcome.next ((if_neg (by simp [hserving])).trans (if_neg hgood))

/-- No room is left for a piece: its chunk is done, or four other chunks are in hand. -/
def State.pieceLost (s : State) (x : Xfer) (chunk : Nat) : Bool :=
  x.done.contains chunk || (!s.heldChunks.contains chunk && decide (4 ≤ s.heldChunks.length))

theorem execXferPiece_receiving {s : State} {src : BitVec 48} {setId : BitVec 64} {chunk piece : Fin 64} {data : List Byte}
    {x : Xfer} (hserving : s.xferServing = true) (hlen : data.length = 1024) (hx : s.mg.fw.xfer = some x)
    (hreceiving : s.fwState = 1) (hset : x.setId = setId.toNat) (hchunk : chunk.val ≤ x.chunks) :
    execXferPiece src setId chunk piece data s = .next (if s.pieceLost x chunk.val
      then s.bump .hctl Reg.HCTL.FW_PIECE_DROP_COUNT
      else s.setFw { s.mg.fw with server := src.toNat, pieces := s.mg.fw.pieces.put (64 * chunk + piece) data }) := by
  have hgood : ¬ (s.fwState ≠ 1 ∨ x.setId ≠ setId.toNat ∨ x.chunks < chunk.val) := by
    rintro (h | h | h)
    · exact h hreceiving
    · exact h hset
    · omega
  unfold execXferPiece
  rw [if_neg (by simp [hserving]), if_neg (not_not.2 hlen), hx]
  exact congrArg Host.Outcome.next (if_neg hgood)

theorem execXferAbort_served {s : State} {src : BitVec 48} {setId : BitVec 64} (hserving : s.xferServing = true) :
    execXferAbort src setId s = .next (
      let a := if s.mg.fw.xfer.any (fun x => x.setId == setId.toNat) ∧ (s.fwState = 1 ∨ s.fwState = 2 ∨ s.fwState = 6)
        then s.dropSet else s
      a.sendStatus src.toNat (a.getF .hctl Reg.HCTL.FW_STAT_CAUSE)) :=
  congrArg Host.Outcome.next (if_neg (by simp [hserving]))

/-! ## Chunks written (R517, R520) -/

/-- A transfer receives, and every piece of a chunk is held. -/
structure State.ChunkHeld (s : State) (x : Xfer) (c : Nat) : Prop where
  serving : s.xferServing = true
  inHand : s.mg.fw.xfer = some x
  receiving : s.fwState = 1
  whole : (s.piecesOf c).length = 64

theorem State.ChunkHeld.passes {s : State} {x : Xfer} {c : Nat} (h : s.ChunkHeld x c) :
    ¬ (!s.xferServing || decide (s.fwState ≠ 1) || decide ((s.piecesOf c).length ≠ 64)) = true := by
  obtain ⟨hserving, -, hreceiving, hwhole⟩ := h
  simp [hserving, hreceiving, hwhole]

/-- A payload chunk that is whole is judged by the manifest. -/
theorem execChunkWriteDone_payload {s : State} {c : Fin 64} {ok : Bool} {x : Xfer} (hheld : s.ChunkHeld x c) (hc : c ≠ 0)
    (hmanifest : x.done.contains 0 = true) :
    execChunkWriteDone c ok s = .next (if chunkGood s.newManifest c (s.chunkHeld c) then s.chunkDone x c (s.chunkHeld c) ok
      else (s.dropPieces c).bump .hctl Reg.HCTL.FW_CHUNK_BAD_COUNT) := by
  unfold execChunkWriteDone
  rw [hheld.inHand]
  exact congrArg Host.Outcome.next ((if_neg hheld.passes).trans ((if_neg hc).trans
    ((if_neg (by rw [hmanifest]; decide)).trans (ite_not_bool _ _ _))))

/-- A manifest that is whole is judged by itself. -/
theorem execChunkWriteDone_manifest {s : State} {ok : Bool} {x : Xfer} {b : List Byte} {cause : Nat}
    (hheld : s.ChunkHeld x 0) (hb : b = s.chunkHeld 0) (hcause : cause = s.setCause b x.setId (!s.romTransfer)) :
    execChunkWriteDone 0 ok s = .next (if cause ≠ 0 then s.fwReject cause
      else (s.eraseAbove (mChunks b)).chunkDone { x with chunks := mChunks b, epoch := mEpoch b } 0 b ok) := by
  subst hb hcause
  unfold execChunkWriteDone
  rw [hheld.inHand]
  exact congrArg Host.Outcome.next ((if_neg hheld.passes).trans (if_pos rfl))

/-! ## The slot read again (R520, R521) -/

theorem execSlotVerifyDone_whole {s : State} {bad : BitVec 64} {x : Xfer} (hserving : s.fwServing = true)
    (hx : s.mg.fw.xfer = some x) (hreceiving : s.fwState = 1) (hwhole : x.whole = true) :
    execSlotVerifyDone bad s = .next (if x.done.filter (s.chunkFails bad) = []
      then (s.toFwState 2 0).raise .hctl Evt.HCTL.FW_STAGED
      else (s.setXfer (some { x with done := x.done.filter (fun c => !s.chunkFails bad c) })).tellServer) := by
  unfold execSlotVerifyDone
  rw [hx]
  exact congrArg Host.Outcome.next (if_neg (by simp [hserving, hreceiving, hwhole]))

theorem execFwDiscard_acts {s : State} (hserving : s.xferServing = true) (hst : s.fwState = 1 ∨ s.fwState = 2 ∨ s.fwState = 6) :
    execFwDiscard s = .next s.dropSet.tellServer :=
  congrArg Host.Outcome.next (if_pos (by obtain h | h | h := hst <;> simp [hserving, h]))

/-- Settles O49: starts, a piece, a query, an abort, a chunk and the manifest, the slot, DISCARD. -/
theorem firmwareTransfer : Obligations.FirmwareTransfer := by
  refine ⟨?_, ?_, ?_, ?_, ?_, ?_, ?_, ?_, ?_, ?_⟩
  · intro s a src setId epoch chunks hserving hsome hfit hfree ha
    subst ha
    exact (execXferStart_served hserving hsome hfit).trans (congrArg Host.Outcome.next (if_pos hfree))
  · intro s src setId epoch chunks hserving hsome hfit hnotIdle hnotRefused
    have hinHand : ¬ (s.fwState = 0 ∨ s.fwState = 6) := not_or.2 ⟨hnotIdle, hnotRefused⟩
    exact (execXferStart_served hserving hsome hfit).trans (congrArg Host.Outcome.next (if_neg hinHand))
  · intro s src setId chunk piece data x hserving hlen hx hreceiving hset hchunk
    exact execXferPiece_receiving hserving hlen hx hreceiving hset hchunk
  · intro s src setId hserving
    exact congrArg Host.Outcome.next (if_pos hserving)
  · intro s a src setId hserving ha
    subst ha
    exact execXferAbort_served hserving
  · intro s c ok x hserving hx hreceiving hwhole hc hmanifest
    exact execChunkWriteDone_payload ⟨hserving, hx, hreceiving, hwhole⟩ hc hmanifest
  · intro s ok x b cause hserving hx hreceiving hwhole hb hcause
    exact execChunkWriteDone_manifest ⟨hserving, hx, hreceiving, hwhole⟩ hb hcause
  · intro s bad x hserving hx hreceiving hwhole
    exact execSlotVerifyDone_whole hserving hx hreceiving hwhole
  · intro s bad c m hm
    subst hm
    rfl
  · intro s hserving hst
    exact execFwDiscard_acts hserving hst

end Sys2Proof.Machine
end

section
/-! PROOFS. Preparing, handing over and selecting a firmware set; tiles that switch; sealing, marking, recovery
(17_firmware_update.md, R523 to R532). -/

namespace Sys2Proof.Machine

open Sys2Proof

/-! ## Preparation (R523) -/

/-- PREPARE and MARK act on a staged set. -/
theorem State.fwServing_staged {s : State} (hserving : s.fwServing = true) (hstaged : s.fwState = 2) :
    (s.fwServing && s.fwState == 2) = true := by
  rw [hserving, hstaged]
  rfl

theorem execFwPrepareDone_preparing {s : State} {bad : BitVec 64} {m : List Byte} (hpreparing : s.fwState = 3)
    (hm : m = s.newManifest) :
    execFwPrepareDone bad s = .next (
      if (List.range (mChunks m + 1)).any (s.chunkFails bad) then (s.toFwState 2 8).raise .hctl Evt.HCTL.FW_REJECTED
      else if stateCompat s.mg.fw.running m then (s.setFw { s.mg.fw with second := s.secondBanks s.idleSlot }).toFwState 4 0
      else (s.toFwState 2 9).raise .hctl Evt.HCTL.FW_REJECTED) := by
  subst hm
  unfold execFwPrepareDone
  rw [if_neg (not_not.2 hpreparing), ite_not_bool]

/-! ## The handover (R525, R527, R528) -/

/-- An image's number among the confirmations. -/
def imageKey (kind : Fin 5) (inst : Fin 32) : Nat := 256 * kind.val + inst.val

/-- An image has confirmed the handover. -/
def FwSt.confirm (x : FwSt) (kind : Fin 5) (inst : Fin 32) : FwSt :=
  { x with confirmed := x.confirmed ++ [imageKey kind inst] }

/-- What follows from an image's confirmation: the hub controller serves again, the ceilings follow their inputs, or an
optical engine offers what its new image does. -/
def State.imageTakesUp (s : State) (kind : Fin 5) (inst : Fin 32) : State :=
  if imageKey kind inst = 0 then s.hcBack else if kind = 2 then s.freeCeils
  else if kind = 3 ∧ inst.val % 2 = 0 then
    s.setFw { s.mg.fw with levels := s.mg.fw.levels.put (inst.val / 2) (oecOffer s.newManifest (inst.val / 2)) }
  else s

/-- A handover waits for an image, and nothing holds it. -/
structure State.ImageReady (s : State) (kind : Fin 5) (inst : Fin 32) : Prop where
  handing : s.handingOver = true
  notTile : kind ≠ 1
  exist : imagePairs.contains (kind.val, inst.val) = true
  free : s.imageHeld kind inst = false
  first : s.mg.fw.confirmed.contains (imageKey kind inst) = false

theorem execFwImageConfirm_ready {s : State} {kind : Fin 5} {inst : Fin 32} (hready : s.ImageReady kind inst) :
    execFwImageConfirm kind inst s = .next (
      let x := s.mg.fw.confirm kind inst
      let a := (s.setFw x).imageTakesUp kind inst
      if x.allConfirmed then a.commitPoint else a) := by
  obtain ⟨hhanding, hnotTile, hexist, hfree, hfirst⟩ := hready
  have hpasses : ¬ (!s.handingOver || decide (kind = 1) || !imagePairs.contains (kind.val, inst.val) ||
      s.imageHeld kind inst) = true := by
    rw [hhanding, hexist, hfree, decide_eq_false hnotTile]
    decide
  have hconfirm : (if s.mg.fw.confirmed.contains (imageKey kind inst) = true then s.mg.fw else s.mg.fw.confirm kind inst) =
      s.mg.fw.confirm kind inst := if_neg (by rw [hfirst]; decide)
  refine congrArg Host.Outcome.next ((if_neg hpasses).trans ?_)
  exact congrArg (fun x : FwSt => let a := (s.setFw x).imageTakesUp kind inst; if x.allConfirmed then a.commitPoint else a)
    hconfirm

theorem execFwHandoverTimeout_handing {s : State} {refused : Bool} {rs : List (Fin 5 × Fin 32)}
    (hhanding : s.handingOver = true) :
    execFwHandoverTimeout refused rs s = .next (
      let a := s.levelsBack.fwAbandon (if refused then 2 else 1) rs
      if a.mg.hcDown then a.loopFence else a.hcBack) :=
  congrArg Host.Outcome.next (if_pos hhanding)

/-- The set of a slot, with a manifest, is the one that runs. -/
def State.runSet (s : State) (k : Nat) (m : List Byte) : State :=
  let a := (((((s.select k).setF .hctl Reg.HCTL.FW_STAT_RUN_SLOT k).setF .pkg Reg.PKG.START_SLOT k).setF .pkg
    Reg.PKG.FW_EPOCH_EPOCH (mEpoch m)).setF .hctl Reg.HCTL.FW_ACT_STAT_RESULT 1).setF .hctl Reg.HCTL.FW_ACT_GO 0
  (a.setFw { a.mg.fw with running := m, confirmed := [], committed := false }).showSealed

theorem execFwSelectionWritten_committed {s : State} (hhanding : s.fwState = 5) (hcommitted : s.mg.fw.committed = true) :
    execFwSelectionWritten s = .next ((s.runSet s.idleSlot (s.slotChunk s.idleSlot 0)).clearXfer.tellServer.raise .hctl
      Evt.HCTL.FW_DONE) :=
  congrArg Host.Outcome.next (if_neg (by simp [hhanding, hcommitted]))

/-! ## Tiles, sealing, recovery (R525, R530, R532) -/

theorem execTileTmcSwitch_empty {s : State} {d : Fin 4} {t : Fin 104} (hon : s.mg.fw.tmcOn = true)
    (hactive : s.tileActive d t = true) (hold : (s.tile d t).newTmc = false) (hempty0 : (s.tile d t).slot0 = none)
    (hempty1 : (s.tile d t).slot1 = none) :
    execTileTmcSwitch d t s = .next (s.setTile d t { s.tile d t with newTmc := true }).tmcCount :=
  congrArg Host.Outcome.next (if_neg (by rw [hon, hactive, hold, hempty0, hempty1]; decide))

/-- The fuse counters rise to the highest RB of each kind in a manifest. -/
def State.sealTo (s : State) (m : List Byte) : State :=
  (List.range 5).foldl (fun (a : State) k => a.setF .hctl (Reg.HCTL.FW_FUSE_COUNT k) (max (a.fwFuse k) (mTopRb m k))) s

theorem execFwSeal_idle {s : State} (hserving : s.fwServing = true) (hidle : s.fwState = 0)
    (hruns : s.runSlot = s.mg.flash.active) : execFwSeal s = .next (s.sealTo s.mg.fw.running).showSealed :=
  congrArg Host.Outcome.next (if_neg (by simp [hserving, hidle, hruns]))

theorem execRecoverySetWritten_verified {s : State} {ok0 ok1 : Bool} (hrecovery : s.startState = 5)
    (hreceiving : s.fwState = 1) (hwhole : s.mg.fw.xfer.any Xfer.whole = true) :
    execRecoverySetWritten ok0 ok1 s = .next (
      let a := if ok0 then s.bootToSlot 0 else s.spoilSlot 0
      let b := if ok1 then a.bootToSlot 1 else a.spoilSlot 1
      if ok0 then (b.select 0).toFwState 7 0 else if ok1 then (b.select 1).toFwState 7 0 else b.fwReject 7) :=
  congrArg Host.Outcome.next (if_neg (by rw [hrecovery, hreceiving, hwhole]; decide))

/-- Settles O50: preparation, the handover to its commit point or its end, the selection, tiles, SEAL, recovery. -/
theorem firmwareActivation : Obligations.FirmwareActivation := by
  refine ⟨?_, ?_, ?_, ?_, ?_, ?_, ?_, ?_⟩
  · intro s hserving hstaged
    have hacts := State.fwServing_staged hserving hstaged
    exact ⟨congrArg Host.Outcome.next (if_pos hacts), congrArg Host.Outcome.next (if_pos hacts)⟩
  · intro s bad m hpreparing hm
    exact execFwPrepareDone_preparing hpreparing hm
  · intro s a kind inst x hhanding hnotTile hexist hfree hfirst hx ha
    subst hx ha
    exact execFwImageConfirm_ready ⟨hhanding, hnotTile, hexist, hfree, hfirst⟩
  · intro s a refused rs hhanding ha
    subst ha
    exact execFwHandoverTimeout_handing hhanding
  · intro s a b k m hhanding hcommitted hk hm ha hb
    subst hk hm ha hb
    exact execFwSelectionWritten_committed hhanding hcommitted
  · intro s d t hon hactive hold hempty0 hempty1
    exact ⟨execTileTmcSwitch_empty hon hactive hold hempty0 hempty1, congrArg Host.Outcome.next (if_pos hon)⟩
  · intro s hserving hidle hruns
    exact execFwSeal_idle hserving hidle hruns
  · intro s a b ok0 ok1 hrecovery hreceiving hwhole ha hb
    subst ha hb
    exact execRecoverySetWritten_verified hrecovery hreceiving hwhole

end Sys2Proof.Machine
end

section
/-! PROOFS. Watermarks written past the present level (12_power.md, 18_errors_faults.md, R406, R539). -/

namespace Sys2Proof.Machine

open Sys2Proof

/-! ## Watermarks (R539) -/

/-- A level and its two marks are fields of their own. -/
structure LevelRegs.Separate (L : LevelRegs) : Prop where
  level : L.level.ok
  wmHi : L.wmHi.ok
  wmLo : L.wmLo.ok
  hiLevel : L.wmHi.apart L.level
  hiLo : L.wmHi.apart L.wmLo
  loLevel : L.wmLo.apart L.level
  loHi : L.wmLo.apart L.wmHi

/-- Fields of three registers are fields of their own. -/
theorem LevelRegs.separate_of_words {L : LevelRegs}
    (hok : ∀ f ∈ [L.level, L.wmHi, L.wmLo], f.lo ≤ f.hi ∧ f.hi < 32 ∧ f.off < 4096)
    (hwords : [L.level.off / 4, L.wmHi.off / 4, L.wmLo.off / 4].Nodup) : L.Separate := by
  obtain ⟨hlevel, hhi, hlo, -⟩ := by simpa only [List.forall_mem_cons] using hok
  simp only [List.nodup_cons, List.mem_cons, List.not_mem_nil, not_or, or_false] at hwords
  obtain ⟨⟨hlevelHi, hlevelLo⟩, hhiLo, -⟩ := hwords
  exact ⟨hlevel, hhi, hlo, .inl (Ne.symm hlevelHi), .inl hhiLo, .inl (Ne.symm hlevelLo), .inl (Ne.symm hhiLo)⟩

theorem LevelRegs.separate_pwr : pwrLevel.Separate := LevelRegs.separate_of_words (by decide) (by decide)

theorem LevelRegs.separate_spill : spillLevel.Separate := LevelRegs.separate_of_words (by decide) (by decide)

/-- A high mark written is crossed where the level was below the old one and is not below the new one; the low mark, which
stays, is not. -/
theorem State.writeMark_hi {s : State} {L : LevelRegs} (hL : L.Separate) {v : Nat} (hv : v < 2 ^ (L.wmHi.hi + 1 - L.wmHi.lo)) :
    s.writeMark L true v =
      if s.getF L.unit L.level < s.getF L.unit L.wmHi ∧ v ≤ s.getF L.unit L.level
      then (s.setF L.unit L.wmHi v).raise L.unit L.up else s.setF L.unit L.wmHi v := by
  have hlevel := s.getF_setF_apart L.unit v hL.wmHi hL.level hL.hiLevel
  have hlo := s.getF_setF_apart L.unit v hL.wmHi hL.wmLo hL.hiLo
  have hhi := (s.getF_setF L.unit L.wmHi v hL.wmHi).trans (Nat.mod_eq_of_lt hv)
  have hstays : ¬ (s.getF L.unit L.wmLo < s.getF L.unit L.level ∧ s.getF L.unit L.level ≤ s.getF L.unit L.wmLo) := by omega
  unfold State.writeMark State.judgeLevel
  simp only [if_true, hlevel, hlo, hhi, if_neg hstays]

/-- A low mark written is crossed where the level was above the old one and is not above the new one. -/
theorem State.writeMark_lo {s : State} {L : LevelRegs} (hL : L.Separate) {v : Nat} (hv : v < 2 ^ (L.wmLo.hi + 1 - L.wmLo.lo)) :
    s.writeMark L false v =
      if s.getF L.unit L.wmLo < s.getF L.unit L.level ∧ s.getF L.unit L.level ≤ v
      then (s.setF L.unit L.wmLo v).raise L.unit L.down else s.setF L.unit L.wmLo v := by
  have hlevel := s.getF_setF_apart L.unit v hL.wmLo hL.level hL.loLevel
  have hhi := s.getF_setF_apart L.unit v hL.wmLo hL.wmHi hL.loHi
  have hlo := (s.getF_setF L.unit L.wmLo v hL.wmLo).trans (Nat.mod_eq_of_lt hv)
  have hstays : ¬ (s.getF L.unit L.level < s.getF L.unit L.wmHi ∧ s.getF L.unit L.wmHi ≤ s.getF L.unit L.level) := by omega
  unfold State.writeMark State.judgeLevel
  simp only [Bool.false_eq_true, if_false, hlevel, hlo, hhi, if_neg hstays]

/-- HCTL answers in every state. -/
theorem execWatermarkWrite_pwrHi (s : State) (v : BitVec 16) :
    execWatermarkWrite true true v s = .next (s.writeMark pwrLevel true (v.toNat % 4096)) := rfl

theorem execWatermarkWrite_spillLo {s : State} (v : BitVec 16) (hready : s.ready = true) :
    execWatermarkWrite false false v s =
      .next (s.writeMark spillLevel false (v.toNat % (Reg.PLACE.SPILL_RATIO_WM_LO.max + 1))) := by
  have hopen : ¬ (!s.pageOpen spillLevel.unit) = true := by
    rw [show s.pageOpen spillLevel.unit = s.ready from rfl, hready]
    decide
  exact congrArg Host.Outcome.next (if_neg hopen)

/-- Settles O3: the high mark of the power level crossed and not crossed, the low mark of the spill ratio crossed. -/
theorem watermarkWrite : Obligations.WatermarkWrite := by
  have hpwr (v : BitVec 16) : v.toNat % 4096 < 2 ^ (pwrLevel.wmHi.hi + 1 - pwrLevel.wmHi.lo) := Nat.mod_lt _ (by decide)
  have hspill (v : BitVec 16) : v.toNat % (Reg.PLACE.SPILL_RATIO_WM_LO.max + 1) <
      2 ^ (spillLevel.wmLo.hi + 1 - spillLevel.wmLo.lo) := Nat.mod_lt _ (by decide)
  refine ⟨?_, ?_, ?_⟩
  · intro s v hbelow hpast
    exact (execWatermarkWrite_pwrHi s v).trans (congrArg Host.Outcome.next
      ((State.writeMark_hi LevelRegs.separate_pwr (hpwr v)).trans (if_pos ⟨hbelow, hpast⟩)))
  · intro s v hnot
    have hno : ¬ (s.getF pwrLevel.unit pwrLevel.level < s.getF pwrLevel.unit pwrLevel.wmHi ∧
        v.toNat % 4096 ≤ s.getF pwrLevel.unit pwrLevel.level) := fun ⟨hbelow, hpast⟩ =>
      hnot.elim (Nat.not_le.2 hbelow) (Nat.not_lt.2 hpast)
    exact (execWatermarkWrite_pwrHi s v).trans (congrArg Host.Outcome.next
      ((State.writeMark_hi LevelRegs.separate_pwr (hpwr v)).trans (if_neg hno)))
  · intro s v hready habove hpast
    exact (execWatermarkWrite_spillLo v hready).trans (congrArg Host.Outcome.next
      ((State.writeMark_lo LevelRegs.separate_spill (hspill v)).trans (if_pos ⟨habove, hpast⟩)))

end Sys2Proof.Machine
end

section
/-! PROOFS. The words staged on a page go into force and its shadows empty (19_register_map.md, R557, R559). -/

namespace Sys2Proof

/-! ## Sparse data whose keys rise -/

/-- A key below every listed one is not listed. -/
theorem Map.find_none_of_below {α : Type} {m : Map α} {k : Nat} (h : ∀ e ∈ m, k < e.1) : m.find k = none := by
  induction m with
  | nil => rfl
  | cons e m ih =>
    have hne : e.1 ≠ k := (h e List.mem_cons_self).ne'
    exact (if_neg hne).trans (ih fun x hx => h x (List.mem_cons_of_mem _ hx))

end Sys2Proof

namespace Sys2Proof.Machine

open Sys2Proof

/-! ## Words put in force one after another -/

/-- The word offset on a unit's page of a shadow's key. -/
def shadowOff (u : UnitId) (key : Nat) : Nat := 4 * (key - u.key * 1024)

/-- A listed word goes into force. -/
def State.takeWord (u : UnitId) (s : State) (e : Nat × Word) : State := s.setW u (shadowOff u e.1) e.2

/-- The keys of a page. -/
abbrev ofPage (u : UnitId) (key : Nat) : Prop := u.key * 1024 ≤ key ∧ key < u.key * 1024 + 1024

/-- On the page itself a word taken is the one in force at its key, and no other. -/
theorem State.getW_takeWord (s : State) {u : UnitId} {e : Nat × Word} {off : Nat} (he : u.key * 1024 ≤ e.1) (hoff : off % 4 = 0) :
    (s.takeWord u e).getW u off = if e.1 = regKey u off then e.2 else s.getW u off := by
  unfold State.takeWord shadowOff
  split
  next heq =>
    have hsame : 4 * (e.1 - u.key * 1024) = off := by
      rw [heq]
      unfold regKey
      omega
    rw [hsame, State.getW_setW]
  next hne =>
    refine State.getW_setW_ne s e.2 ?_
    unfold regKey at hne ⊢
    omega

/-- Words listed by rising key go into force each at its own register. -/
theorem State.getW_takeWords {u : UnitId} {off : Nat} (hoff : off % 4 = 0) (l : Map Word) (s : State) (hl : l.Rising)
    (hpage : ∀ e ∈ l, ofPage u e.1) :
    (l.foldl (State.takeWord u) s).getW u off = l.getD (regKey u off) (s.getW u off) := by
  induction l generalizing s with
  | nil => rfl
  | cons e l ih =>
    obtain ⟨habove, hrising⟩ := List.pairwise_cons.1 hl
    rw [List.foldl_cons, ih _ hrising fun x hx => hpage x (List.mem_cons_of_mem _ hx),
      State.getW_takeWord s (hpage e List.mem_cons_self).1 hoff]
    unfold Map.getD
    by_cases heq : e.1 = regKey u off
    · have hlater : Map.find l (regKey u off) = none := Map.find_none_of_below (heq ▸ habove)
      have hfirst : Map.find (e :: l) (regKey u off) = some e.2 := if_pos heq
      rw [if_pos heq, hlater, hfirst]
      rfl
    · have hlater : Map.find (e :: l) (regKey u off) = Map.find l (regKey u off) := if_neg heq
      rw [if_neg heq, hlater]

/-- The words of another page stay. -/
theorem State.getW_takeWords_unit {u v : UnitId} {off : Nat} (hoff : off < 4096) (huv : u ≠ v) (l : Map Word) (s : State)
    (hpage : ∀ e ∈ l, ofPage u e.1) : (l.foldl (State.takeWord u) s).getW v off = s.getW v off := by
  induction l generalizing s with
  | nil => rfl
  | cons e l ih =>
    have hin : shadowOff u e.1 < 4096 := by
      obtain ⟨hlo, hhi⟩ := hpage e List.mem_cons_self
      unfold shadowOff
      omega
    exact (ih _ fun x hx => hpage x (List.mem_cons_of_mem _ hx)).trans
      (State.getW_setW_ne s e.2 (regKey_ne hin hoff (.inl huv)))

/-! ## The shadows of a page (R557, R559) -/

/-- The shadows of a page. -/
def State.shadowsOf (s : State) (u : UnitId) : Map Word := s.shadow.filter (fun (e : Nat × Word) => decide (ofPage u e.1))

theorem State.shadowsOf_rising {s : State} (u : UnitId) (h : s.shadow.Rising) : (s.shadowsOf u).Rising := h.filter _

theorem State.shadowsOf_ofPage (s : State) (u : UnitId) : ∀ e ∈ s.shadowsOf u, ofPage u e.1 := fun _ he =>
  of_decide_eq_true (List.mem_filter.1 he).2

theorem regKey_ofPage (u : UnitId) {off : Nat} (hoff : off < 4096) : ofPage u (regKey u off) := by
  unfold ofPage regKey
  omega

theorem State.find_shadowsOf (s : State) (u : UnitId) {k : Nat} (hk : ofPage u k) :
    (s.shadowsOf u).find k = s.shadow.find k :=
  (Map.find_filter s.shadow (fun k => decide (ofPage u k)) k).trans
    (if_pos (decide_eq_true hk))

/-- The words in force after a page's shadows were taken: those taken, and OWN reads 0. -/
theorem State.takeShadows_getW (s : State) (u v : UnitId) (off : Nat) :
    (s.takeShadows u).getW v off =
      (((s.shadowsOf u).foldl (State.takeWord u) s).setF u Reg.STAGE_OWN 0).getW v off := rfl

theorem State.takeShadows_getF (s : State) (u v : UnitId) (f : Fld) :
    (s.takeShadows u).getF v f =
      (((s.shadowsOf u).foldl (State.takeWord u) s).setF u Reg.STAGE_OWN 0).getF v f := rfl

/-- The registers beside STAGE_STATE, on whatever page. -/
theorem State.takeShadows_getW_beside (s : State) {u v : UnitId} {off : Nat} (hoff : off < 4096)
    (hbeside : u ≠ v ∨ 0x020 / 4 ≠ off / 4) :
    (s.takeShadows u).getW v off = ((s.shadowsOf u).foldl (State.takeWord u) s).getW v off := by
  rw [State.takeShadows_getW]
  exact State.getW_setF_ne _ 0 (regKey_ne (by decide) hoff hbeside)

theorem State.takeShadows_shadow (s : State) (u : UnitId) :
    (s.takeShadows u).shadow = s.shadow.delRange (u.key * 1024) (u.key * 1024 + 1024) := by
  have hfold (l : Map Word) (t : State) : (l.foldl (State.takeWord u) t).shadow = t.shadow := by
    induction l generalizing t with
    | nil => rfl
    | cons e l ih => exact ih _
  exact congrArg (fun m => Map.delRange m (u.key * 1024) (u.key * 1024 + 1024)) (hfold (s.shadowsOf u) s)

/-- Settles O52: the staged words by the fold over the page's shadows, which alone leave the list. -/
theorem stagedSetGoesIntoForce : Obligations.StagedSetGoesIntoForce := by
  intro s u v off w hrising haligned hoff
  have hkey : ofPage u (regKey u off) := regKey_ofPage u hoff
  refine ⟨fun hstaged hnotState => ?_, ?_, ?_, fun hother => ?_⟩
  · rw [State.takeShadows_getW_beside s hoff (.inr (by omega)),
      State.getW_takeWords haligned _ s (State.shadowsOf_rising u hrising) (s.shadowsOf_ofPage u)]
    unfold Map.getD
    rw [State.find_shadowsOf s u hkey, hstaged]
    rfl
  · rw [State.takeShadows_shadow, Map.find_delRange, if_neg]
    obtain ⟨hlo, hhi⟩ := hkey
    omega
  · rw [State.takeShadows_getF]
    exact State.getF_setF _ u Reg.STAGE_OWN 0 ⟨by decide, by decide, by decide⟩
  · rw [State.takeShadows_getW_beside s hoff (.inl hother.symm),
      State.getW_takeWords_unit hoff hother.symm _ s (s.shadowsOf_ofPage u)]

end Sys2Proof.Machine
end
